-- ==== Sys2Proof/Word.lean ====
section
/-!
DEFINITION. The plain words of the model: bytes, 32-bit and 64-bit words (R16, R19), and byte strings.
-/

namespace Sys2Proof

/-- A byte. -/
abbrev Byte := BitVec 8

/-- A 32-bit word. -/
abbrev Word32 := BitVec 32

/-- A 64-bit word: a 64-bit register, or a 32-bit one held with its upper half zero. -/
abbrev Word := BitVec 64

/-- A byte string, lowest address first. -/
abbrev Bytes := List Byte

end Sys2Proof
end

