-- ==== Sys2Proof/Machine/SMap.lean ====
section
/-!
DEFINITION. Sparse tables: lists of (key, value) pairs whose keys rise strictly. Every table of the machine that is
indexed by a number (memory, register stores, queues, connections) is one of these, so that equal tables are equal data.
-/

namespace Sys2Proof.Machine

/-- A sparse table keyed by a number. -/
abbrev SMap (α : Type) := List (Nat × α)

variable {α β : Type}

/-- The entry at key `k`, if there is one. -/
def SMap.find : SMap α → Nat → Option α
  | [], _ => none
  | (j, v) :: m, k => if j = k then some v else if k < j then none else SMap.find m k

/-- The entry at key `k`, or `d`. -/
def SMap.getD (m : SMap α) (k : Nat) (d : α) : α := (SMap.find m k).getD d

/-- Whether key `k` has an entry. -/
def SMap.has (m : SMap α) (k : Nat) : Bool := (SMap.find m k).isSome

/-- The table with `v` at key `k`. -/
def SMap.put : SMap α → Nat → α → SMap α
  | [], k, v => [(k, v)]
  | (j, w) :: m, k, v =>
    if k < j then (k, v) :: (j, w) :: m
    else if k = j then (k, v) :: m
    else (j, w) :: SMap.put m k v

/-- The table without key `k`. -/
def SMap.del : SMap α → Nat → SMap α
  | [], _ => []
  | (j, w) :: m, k => if j = k then m else (j, w) :: SMap.del m k

/-- The table with the entry at `k`, if there is one, replaced by its image under `f`. -/
def SMap.upd (m : SMap α) (k : Nat) (f : α → α) : SMap α :=
  match SMap.find m k with
  | none => m
  | some v => SMap.put m k (f v)

/-- The table with every entry replaced by its image. -/
def SMap.mapv (m : SMap α) (f : Nat → α → α) : SMap α := m.map fun e => (e.1, f e.1 e.2)

/-- The entries that satisfy `p`. -/
def SMap.keep (m : SMap α) (p : Nat → α → Bool) : SMap α := m.filter fun e => p e.1 e.2

/-- Put a value of a table whose unlisted keys read as `d`: a value equal to `d` is not listed. -/
def SMap.putD [DecidableEq α] (d : α) (m : SMap α) (k : Nat) (v : α) : SMap α :=
  if v = d then SMap.del m k else SMap.put m k v

/-- Every key of the table is at least `lo` and the keys rise strictly. -/
def SMap.sortedFrom : Nat → SMap α → Bool
  | _, [] => true
  | lo, (k, _) :: m => decide (lo ≤ k) && SMap.sortedFrom (k + 1) m

/-- The canonical form of a table: strictly rising keys. -/
def SMap.wf (m : SMap α) : Bool := SMap.sortedFrom 0 m

/-- The canonical form of a table whose unlisted keys read as `d`. -/
def SMap.wfD [DecidableEq α] (d : α) (m : SMap α) : Bool := SMap.wf m && m.all fun e => decide (e.2 ≠ d)

/-- The smallest number below `n` that is not a key of the table, searched upward from `i` with `fuel` steps. -/
def SMap.freeFrom (m : SMap α) : Nat → Nat → Option Nat
  | 0, _ => none
  | fuel + 1, i => if SMap.has m i then SMap.freeFrom m fuel (i + 1) else some i

end Sys2Proof.Machine
end

