-- ==== Sys2Proof/Machine/Types.lean ====
section
/-!
DEFINITION. The plain data of the host die and the RMA engine: packets, instances, translations, queues, queue pairs,
transactions, streams, admin commands, and what the module sends to the outside.
-/

namespace Sys2Proof.Machine

/-! ## Packets (R304) -/

/-- A Moluc packet: the header fields of R304 and the payload. `note` is the wick module, wick queue and tokens that a
single-message WRITE_NOTIFY carries to its writing holder (R261); the spec gives them no place in the header (log 21). -/
structure Pkt where
  version : Nat
  typ : Nat
  response : Bool
  first : Bool
  last : Bool
  ackReq : Bool
  forwarded : Bool
  encrypted : Bool
  form : Nat
  tc : Nat
  ecn : Nat
  route : Nat
  hops : Nat
  partition : Nat
  src : Nat
  dst : Nat
  stream : Nat
  srcInstGen : Nat
  srcEpoch : Nat
  dstEpoch : Nat
  srcQpn : Nat
  dstQpn : Nat
  psn : Nat
  srcQueueGen : Nat
  confPsn : Nat
  status : Nat
  reason : Nat
  crypt : Nat
  txn : Nat
  length : Nat
  key : Nat
  remote : Nat
  payload : Bytes
  note : Option (Nat × Nat × Nat)
  deriving DecidableEq, Repr, Inhabited

/-! ## Instances and translation (R102, R107, R688 to R697) -/

/-- Target kinds of a translation (R102). -/
inductive TKind where
  | host | peer | hbm
  deriving DecidableEq, Repr, Inhabited

/-- A leaf entry of a translation table (R107, R108); `size` is the code of R119 (0 for 4 KiB to 3 for 512 GiB). -/
structure Leaf where
  size : Nat
  kind : TKind
  target : Nat
  read : Bool
  write : Bool
  deriving DecidableEq, Repr, Inhabited

/-- A cached leaf translation (R103, R109). -/
structure TlbEntry where
  inst : Nat
  gen : Nat
  iva : Nat
  leaf : Leaf
  deriving DecidableEq, Repr, Inhabited

/-- A fault log entry (R117, R142). -/
structure FaultEntry where
  addr : Nat
  kind : Nat
  gen : Nat
  inst : Nat
  deriving DecidableEq, Repr, Inhabited

/-- A cached line of a dirty bitmap (R129): the line as read from the bitmap, once it has been, and the bits set since. -/
structure DirtyLine where
  base : Option Nat
  new : Nat
  deriving DecidableEq, Repr, Inhabited

/-- A dirty-log slot of an instance (R127 to R131). `posted` are the last line writes to host and peer memory that no zero-length read has
followed yet (address, whether of the peer); `closing` says that the slot is freed once every line has been written back. -/
structure DirtySlot where
  iva : Nat
  len : Nat
  bitmapA : Nat
  bitmapB : Nat
  issuer : Nat
  activeB : Bool
  lines : SMap DirtyLine
  newBits : Nat
  stopped : Bool
  raised : Bool
  closing : Bool
  posted : List (Nat × Bool)
  deriving DecidableEq, Repr, Inhabited

/-- States of an instance other than ABSENT (R697). -/
inductive InstState where
  | active | resetting | destroying
  deriving DecidableEq, Repr, Inhabited

/-- An instance (R688 to R705). `turn` is the work queue that took a scoreboard entry last (R281). `doomed` says that it is destroyed once its
running reset has ended, and which DESTROY_INSTANCEs then reply (R691, R697). -/
structure Inst where
  state : InstState
  gen : Nat
  share : Nat
  hold : Bool
  hbmBase : Nat
  frames : List Nat
  qpQuota : Nat
  skyQuota : Nat
  cqPool : Nat
  lqPool : Nat
  wickPool : Nat
  dbPages : List Nat
  issued : Nat
  turn : Nat
  maps : SMap Leaf
  tables : SMap Nat
  dfltLq : Option Nat
  dirty : SMap DirtySlot
  waitReply : List (Nat × Nat)
  quarantined : Bool
  doomed : Option (List (Nat × Nat))
  deriving DecidableEq, Repr, Inhabited

/-! ## Buffers read from memory -/

/-- A piece of a buffer: its offset, its length, and its bytes once they have arrived. -/
structure Piece where
  off : Nat
  len : Nat
  data : Option Bytes
  deriving DecidableEq, Repr, Inhabited

/-- A buffer being read: its pieces, and the first failure (status and detail). -/
structure RBuf where
  pieces : List Piece
  fail : Option (Nat × Nat)
  deriving DecidableEq, Repr, Inhabited

/-! ## What the module sends to the outside -/

/-- What the module sends outside, in the order in which it is sent. Host and peer memory, the hosts, the other modules
and the BMC are outside: a posted write, a message or a frame ends here. -/
inductive Out where
  | hostWrite (port rid addr : Nat) (data : Bytes) (peer relaxed : Bool)
  | hostRead (port rid tag addr len : Nat) (peer : Bool)
  | hostAtomic (port rid tag addr : Nat) (op width operand swap : Nat) (peer : Bool)
  | msix (port fn vector addr data : Nat)
  | readData (port fn : Nat) (data : Bytes) (poisoned : Bool)
  | unsupported (port : Nat)
  | configRetry (port : Nat)
  | frame (group link : Nat) (data : Bytes) (note : Option (Nat × Nat × Nat))
  | pldm (typ cmd : Nat) (data : Bytes)
  | pldmEvent (kind : Nat) (data : Bytes)
  deriving DecidableEq, Repr, Inhabited

/-! ## Host requests in flight (R729 to R732) -/

/-- What a non-posted request of the module is for. `dropped` is one whose answer serves nothing any more. -/
inductive Purpose where
  | admUnit (port : Nat)
  | cmdParam (port cmd : Nat) (off : Nat)
  | ringFetch (wq : Nat) (index : Nat)
  | chainList (wq op : Nat) (off : Nat)
  | localData (wq op msg : Nat) (off : Nat)
  | context (qpn : Nat)
  | skyRead (arrival off : Nat)
  | skyAtomic (arrival : Nat)
  | skyConfirm (arrival : Nat)
  | dirtyLine (inst slot line : Nat)
  | dirtyConfirm (inst slot addr : Nat) (peer : Bool)
  | drain (inst : Nat)
  | operand (die entry : Nat) (slot off : Nat)
  | operandConfirm (die entry order : Nat) (op len : Nat)
  | collData (group off : Nat)
  | dropped
  deriving DecidableEq, Repr, Inhabited

/-- A non-posted request of a port: the instance whose requester ID it carries and the translation use it is. `waits` is the request
itself while it waits because 4,096 others are outstanding or no tag is free (R716); it then has a number from 16,384 on in place of a
tag. -/
structure Tag where
  fn : Nat
  len : Nat
  purpose : Purpose
  useInst : Option Nat
  waits : Option Out
  deriving DecidableEq, Repr, Inhabited

/-! ## Walks (R112 to R114, R123) -/

/-- A translation walk in progress, or a miss that waits for a walker (R112, R114): the level from which it reads, and the requests that
wait on it, each with its address. -/
structure Walk where
  inst : Nat
  gen : Nat
  iva : Nat
  port : Nat
  seq : Nat
  level : Nat
  reserved : Bool
  waiters : List (Purpose × Nat)
  deriving DecidableEq, Repr, Inhabited

/-- The result of a walk for a request that waits on it (R112): the leaf with its first address, or the kind of the fault. -/
structure WalkEnd where
  who : Purpose
  inst : Nat
  gen : Nat
  iva : Nat
  leaf : Option (Nat × Leaf)
  fault : Nat
  deriving DecidableEq, Repr, Inhabited

/-- A write through an instance's space that waits until the dirty bits of what stands before it are set (R128): its target, its kind and bytes,
and whether it is payload. -/
structure HeldWrite where
  inst : Nat
  target : Nat
  kind : TKind
  data : Bytes
  payload : Bool
  deriving DecidableEq, Repr, Inhabited

/-- A drain of an instance's translation uses (R123): the requests (port, tag) that it awaits, the zero-length read that it still owes
because the function cannot issue it (address, whether of the peer), the command that waits for it, if any, that command's results, and the
zero-length read itself. -/
structure UseDrain where
  inst : Nat
  tags : List (Nat × Nat)
  owed : Option (Nat × Bool)
  who : Option (Nat × Nat)
  result : Bytes
  read : Option (Nat × Bool)
  deriving DecidableEq, Repr, Inhabited

/-! ## Queues (R145 to R200) -/

/-- Where an event goes (R172). -/
inductive EventTo where
  | inst (n : Nat)
  | lq (n : Nat)
  | pfs
  deriving DecidableEq, Repr, Inhabited

/-- A lantern event (R171) without PHASE. -/
structure Event where
  typ : Nat
  source : Nat
  data0 : Nat
  time : Nat
  data1 : Nat
  deriving DecidableEq, Repr, Inhabited

/-- States of a work queue (R180). -/
inductive WqState where
  | idle | enabled | draining | error | snuffing
  deriving DecidableEq, Repr, Inhabited

/-- Progress of a message of an operation (R259, R280). -/
inductive MsgState where
  | waiting | sent (txn : Nat) | done
  deriving DecidableEq, Repr, Inhabited

/-- A message of an operation (R259): the bytes at `off` of the operation, its remote address and destination. -/
structure Msg where
  off : Nat
  len : Nat
  remote : Nat
  dst : Nat
  state : MsgState
  data : RBuf
  status : Nat
  reason : Nat
  isToken : Bool
  deriving DecidableEq, Repr, Inhabited

/-- Progress of a fetched descriptor. -/
inductive OpPhase where
  | ready      -- judged, not yet begun
  | active     -- begun, its messages or its part in progress
  | waiting    -- waiting to begin on a token, barrier, cadence boundary or fence (R181 step 3)
  | listRead   -- a CHAIN whose list is being read
  | listRun    -- a followed CHAIN whose list's descriptors stand before it
  | done       -- its completion point has passed
  | stuck      -- the descriptor of a DESCRIPTOR_LENGTH error, which never retires (R188)
  deriving DecidableEq, Repr, Inhabited

/-- A fetched descriptor and its operation (R149, R165). `units` is its room in the ring, 0 inside a list. `segs` are the numbers of its
crypt segments and `sealed` their packets as plaintext, in PSN order, since a segment is retransmitted whole (R332). `after` are the events
of the condition that completes it, which follow its record (R24). `here` marks an AUTO launch that another module has refused, which runs here
(R554). -/
structure Op where
  id : Nat
  index : Nat
  units : Nat
  desc : Bytes
  phase : OpPhase
  status : Nat
  detail : Nat
  remote : Bool
  byteCount : Nat
  result : Nat
  msgs : List Msg
  list : RBuf
  hops : Nat
  chainOf : Option Nat
  wrote : Bool
  affected : Bool
  bells : List (Nat × Nat)
  waitEnd : Nat
  segs : SMap Nat
  sealed : SMap (List Pkt)
  after : List (EventTo × Event)
  here : Bool
  deriving DecidableEq, Repr, Inhabited

/-- A work queue (R148, R180, R197). `enable` is its ENABLE bit. `reading` are the ring reads in flight (first index, units), `units` the units read and
not yet judged, `judged` the next index to judge. `bellLog` holds, per accepted doorbell not yet passed by HEAD, its value
and the DOORBELL values of the instance's other work queues at its arrival (R94, R161). `snuffers` are the SNUFF_QUEUEs
that wait for the snuff's end, and `snuffed` the descriptors aborted and the units skipped (R183); `reason` is that of its ERROR, or of the one
that awaits it at the end of its snuff (R187). -/
structure Wq where
  inst : Nat
  gen : Nat
  state : WqState
  enable : Bool
  reason : Nat
  cq : Nat
  ring : Nat
  log2 : Nat
  doorbell : Nat
  fetch : Nat
  head : Nat
  reading : List (Nat × Nat)
  units : SMap Bytes
  judged : Nat
  ops : List Op
  qp : Option Nat
  quiesce : List (Nat × Nat)
  bellLog : List (Nat × List (Nat × Nat))
  fresh : Bool
  snuffers : List (Nat × Nat)
  snuffed : Nat × Nat
  deriving DecidableEq, Repr, Inhabited

/-- A completion record waiting for room (R169), as its bytes without PHASE and HALL_TIME, with the events that follow it (R24). -/
structure CRecord where
  wq : Option Nat
  bytes : Bytes
  solicited : Bool
  after : List (EventTo × Event)
  deriving DecidableEq, Repr, Inhabited

/-- States of a completion queue (R199). -/
inductive CqState where
  | active | fullWait | error
  deriving DecidableEq, Repr, Inhabited

/-- A completion queue (R169, R170, R199, R200). `solicitedAt` are the indices of solicited records not yet consumed. -/
structure Cq where
  inst : Nat
  ring : Nat
  log2 : Nat
  lantern : Nat
  state : CqState
  reason : Nat
  producer : Nat
  consumer : Nat
  armed : Bool
  armedSol : Bool
  solicitedAt : List Nat
  held : List CRecord
  fresh : Bool
  deriving DecidableEq, Repr, Inhabited

/-- A lantern queue (R173, R174, R196). -/
structure Lq where
  inst : Nat
  ring : Nat
  log2 : Nat
  vector : Nat
  producer : Nat
  consumer : Nat
  armed : Bool
  lost : Bool
  error : Bool
  reason : Nat
  held : List Event
  fresh : Bool
  deriving DecidableEq, Repr, Inhabited

/-! ## Queue pairs and the transport (R247 to R320) -/

/-- Where a message's bytes lie after the checks of R73: a page held here, or an instance's space. -/
inductive Place where
  | page (key byte : Nat)
  | iva (inst addr : Nat) (sky : Nat)
  deriving DecidableEq, Repr, Inhabited

/-- What was decided on the first packet of a message, which its later packets follow (R79, R306): performed from a place on, with the first
packet's REMOTE and the skylight that it bears (home and key); refused; or passed on to a module. -/
inductive Decision where
  | accept (place : Place) (remote : Nat) (sky : Option (Nat × Nat))
  | refuse (status reason : Nat)
  | pass (dst : Nat)
  deriving DecidableEq, Repr, Inhabited

/-- A place further on by `d` bytes. -/
def Place.shift (x : Place) (d : Nat) : Place :=
  match x with
  | .page key byte => .page key (byte + d)
  | .iva inst addr sky => .iva inst (addr + d) sky

/-- The page of a place. -/
def Place.page? (x : Place) : Option Nat :=
  match x with
  | .page key _ => some key
  | .iva _ _ _ => none

/-- What a request was accepted under, for the drain of a revocation or a freeing (R77 step 4, R86): its skylight (home and key) and the
page of its bytes. -/
structure Under where
  sky : Option (Nat × Nat)
  page : Option Nat
  deriving DecidableEq, Repr, Inhabited

/-- What a request that follows a decision has been accepted under, if it has. -/
def Decision.under (d : Decision) : Option Under :=
  match d with
  | .accept x _ sky => some ⟨sky, x.page?⟩
  | _ => none

/-- An outcome record of a stream (R312, R314). -/
structure Outcome where
  psn : Nat
  status : Nat
  reason : Nat
  txn : Nat
  value : Nat
  atomic : Bool
  deriving DecidableEq, Repr, Inhabited

/-- A request that was passed on and is not yet known to be resolved (R314; log 72): its PSN, the module to which it went, the TXN of the
request before it in a stream of this module's own, and what its message was accepted under. -/
structure Passed where
  psn : Nat
  dst : Nat
  before : Nat
  under : Option Under
  deriving DecidableEq, Repr, Inhabited

/-- A receive stream (R307, R308, R312): the expected PSN, held packets, outcome records, and what is unanswered. `owing` is what each
request that has been performed and not acknowledged was accepted under, by PSN; `passed` are the requests passed on, in PSN order;
`accepting` is the decision on the message whose last packet has not come, and `parts` the payload so far of one that is
acted on or passed on whole (R306, R314); `replay` is the next PSN of a replayed segment (R333), and `shut` that of one which the engine's
buffer has no room for (R663). -/
structure RStream where
  expect : Nat
  held : List Pkt
  records : List Outcome
  unanswered : Nat
  lastTxn : Nat
  lastMarked : Bool
  busy : List Nat
  aheadAcked : Bool
  accepting : Option Decision
  parts : Bytes
  passed : List Passed
  owing : List (Nat × Under)
  replay : Option Nat
  shut : Option Nat
  segment : List Pkt
  tc : Nat
  lastPkt : Option Pkt
  deriving DecidableEq, Repr, Inhabited

/-- What a performing module keeps of the forwarded requests of a source, stream module and class (R314): their outcome records, the
requests that it passed on further, and the decisions on messages by TXN, each with the PSN of the packet that last followed it and whether that
was the message's last. -/
structure FStream where
  records : List Outcome
  passed : List Passed
  decided : SMap (Nat × Bool × Decision)
  deriving DecidableEq, Repr, Inhabited

/-- A queue pair (R247 to R255, R275). `joined` says that it is connected, which it is from READY on (R247). `initFill` says that the fill of its context in progress is an initiator's (R277), and `failed` that
its fill failed, so that the context stays in the cache (R278). -/
structure Qp where
  inst : Nat
  instGen : Nat
  wq : Option Nat
  cq : Nat
  forerunner : Bool
  tc : Nat
  partition : Nat
  keySlot : Nat
  state : Nat
  remoteModule : Nat
  remoteQpn : Nat
  sendPsn : Nat
  rx : RStream
  sendSegment : Nat
  recvSegment : Nat
  engine : Option Nat
  cached : Bool
  dirty : Bool
  filling : Bool
  conf : Nat
  lastAck : Nat
  lastUse : Nat
  initFill : Bool
  failed : Bool
  joined : Bool
  deriving DecidableEq, Repr, Inhabited

/-- What a scoreboard entry belongs to (R280, R281). -/
inductive TxnOwner where
  | op (wq op msg : Nat)
  | relay (arrival : Nat)
  | token (arrival : Nat)
  | coll (group seq what off : Nat)
  | transit (die entry what arg : Nat)
  | tree (kind root tree seq : Nat)
  | launch (wq op : Nat)
  | copy (page run unit : Nat)
  | move (page : Nat)
  | note (arrival : Nat)
  | control
  deriving DecidableEq, Repr, Inhabited

/-- A scoreboard entry (R280, R318): its packets as first built, attempts so far, whether SACK marks it held, and
the packets of its response that have arrived, by offset. `inst` is the instance that holds it, if one does (R696); `accepted` says that a launch has been accepted and that the entry
stands for it until its TRANSIT_DONE (R466); `replay` that the segment of its response now arriving is a replay (R333); `shut` that the
engine's buffer has no room for that segment (R663); `shot` that a shoot-down of its page has come since it was sent (R93). -/
structure Txn where
  owner : TxnOwner
  qpn : Option Nat
  inst : Option Nat
  instGen : Nat
  queueGen : Nat
  dst : Nat
  tc : Nat
  connected : Bool
  firstPsn : Nat
  psn : Nat
  typ : Nat
  pkts : List Pkt
  attempts : Nat
  held : Bool
  page : Option Nat
  got : SMap Pkt
  opOff : Nat
  opLen : Nat
  accepted : Bool
  replay : Bool
  shot : Bool
  shut : Bool
  deriving DecidableEq, Repr, Inhabited

/-- A queue pair that has entered ERROR and whose error record is still to be written to its completion queue, behind the records of the
operations that this released (work queue, operation) (R254). -/
structure QpErr where
  qpn : Nat
  cq : Nat
  status : Nat
  ops : List (Nat × Nat)
  deriving DecidableEq, Repr, Inhabited

/-- The end of a transaction, waiting to be handed to its owner within the same command (R259, R317). -/
structure Resolved where
  owner : TxnOwner
  dst : Nat
  status : Nat
  reason : Nat
  remote : Bool
  data : Bytes
  deriving DecidableEq, Repr, Inhabited

/-- What waits on a wick queue (R568). -/
inductive WaiterKind where
  | consume (wq op : Nat)
  | program (die entry : Nat)
  deriving DecidableEq, Repr, Inhabited

/-- A waiter of a wick queue and the tokens it needs (R571). -/
structure Waiter where
  kind : WaiterKind
  tokens : Nat
  deriving DecidableEq, Repr, Inhabited

/-- A wick queue (R567, R568); `fresh` until it has accepted a token. -/
structure Wick where
  inst : Nat
  partition : Nat
  depth : Nat
  realign : Bool
  count : Nat
  pend : Nat
  produced : Nat
  consumed : Nat
  lastProduced : Nat
  lastConsumed : Nat
  drift : Bool
  overflow : Bool
  index : Nat
  waiters : List Waiter
  fresh : Bool
  deriving DecidableEq, Repr, Inhabited

/-- A local barrier (R580 to R583, R430, R431). `waits` are the waiting TOKENs with the instance each counted toward;
`next` is the participants from the next instance on; `releaseAt` is the hall time of a release that has come; `due` the
instance whose count is complete at this root and which waits for a cadence boundary. -/
structure Barrier where
  inst : Nat
  periodic : Bool
  vacant : Bool
  participants : Nat
  next : Nat
  instance_ : Nat
  arrived : Nat
  arrivedNext : Nat
  sent : Bool
  releaseAt : Option Nat
  due : Option Nat
  waits : List (Nat × Nat × Nat)
  deriving DecidableEq, Repr, Inhabited

/-- A mailbox slot (R584). -/
structure MbxSlot where
  message : Nat
  tag : Nat
  gen : Nat
  full : Bool
  notify : Bool
  deriving DecidableEq, Repr, Inhabited

/-- A cadence of a partition on this module (R603 to R607): the number under which registers show it, its replacement, the
last index applied, and the operations that wait for its next boundary. -/
structure Cadence where
  slot : Nat
  start : Nat
  period : Nat
  next : Option (Nat × Nat)
  last : Nat
  waits : List (Nat × Nat)
  deriving DecidableEq, Repr, Inhabited

/-- A key slot (R664 to R668). Its key is the exclusive or of two shares (R665). -/
structure KeySlot where
  inst : Nat
  share0 : Bytes
  share1 : Bytes
  salt : Bytes
  poisoned : Bool
  deriving DecidableEq, Repr, Inhabited

/-- What an accepted request waits for. -/
inductive ArrStage where
  | reading      -- the data of a READ
  | atomic       -- the completion of a host or peer atomic
  | confirm      -- the zero-length read behind its writes (R97)
  | sky          -- the copy of a skylight entry that its check needs (R72)
  | token        -- the wick module's acceptance of its token (R261)
  | note         -- the acceptance of the COLLAPSE_NOTE that its write causes (R547, R548)
  | relay        -- the transaction that passes it on for a connected responder (R314)
  | frozen       -- the end of a move that froze its page (R544)
  deriving DecidableEq, Repr, Inhabited

/-- A request that has been accepted and is still being performed, because it waits on memory, a skylight copy, a token
or a relayed access (R72, R97, R261, R266, R314). `decision` is what its check came to, once it has been made. `again` marks a duplicate
READ that is read again (R313). -/
structure Arrival where
  pkt : Pkt
  qpn : Option Nat
  decision : Option Decision
  page : Option Nat
  buf : RBuf
  stage : ArrStage
  again : Bool
  deriving DecidableEq, Repr, Inhabited

/-! ## Admin queues (R201 to R222) -/

/-- States of an admin queue (R240). -/
inductive AdmState where
  | disabled | running | stopping | error
  deriving DecidableEq, Repr, Inhabited

/-- A fetched command (R203, R207): its packet, its ring index, and its progress. `data` is what it reads under R209;
`stage` counts the waits it has passed. An `orphan` outlived its queue's reset: its reply goes to the gutter (R206). `ended` is the reply that
waits for the control processor to run again: status, detail and result (R219). -/
structure Cmd where
  index : Nat
  seq : Nat
  pkt : Bytes
  started : Bool
  stage : Nat
  data : RBuf
  note : Nat
  orphan : Bool
  ended : Option (Nat × Nat × Bytes)
  deriving DecidableEq, Repr, Inhabited

/-- A reply that waits for its function to issue again (R738), with whether ADMIN_DONE follows it, and the command that it answers, which has
not replied until then (R215). -/
structure HeldReply where
  bytes : Bytes
  done : Bool
  seq : Nat
  pkt : Bytes
  deriving DecidableEq, Repr, Inhabited

/-- An admin queue (R201 to R206, R220, R224). `units` are the bytes read from
FETCH on and not yet taken, `reading` the units of the read in flight, and `held` the replies that wait for the function
to issue again (R738). -/
structure AdmQ where
  state : AdmState
  reason : Nat
  producer : Nat
  fetch : Nat
  replyProducer : Nat
  replyConsumer : Nat
  negotiated : Nat
  events : Bool
  cmds : SMap Cmd
  units : Bytes
  reading : Nat
  held : List HeldReply
  deriving DecidableEq, Repr, Inhabited

/-! ## Functions and ports (R716 to R749) -/

/-- An MSI-X table entry (R735). -/
structure MsixEntry where
  addr : Nat
  data : Nat
  masked : Bool
  deriving DecidableEq, Repr, Inhabited

/-- A PCIe function (R737, R745): its configuration and its MSI-X state. Vectors not listed are as after reset: masked. `aer`
are the kinds of error that its AER registers have logged: 0 an error completion, 1 a poisoned completion, 2 an unsupported
request (R723, R732). -/
structure Fn where
  busMaster : Bool
  msixEnable : Bool
  fnMask : Bool
  d3hot : Bool
  held : Bool
  relaxed : Bool
  aer : List Nat
  table : SMap MsixEntry
  pending : List Nat
  deriving DecidableEq, Repr, Inhabited

/-- A host port (R746): link state 0 DOWN, 1 TRAINING, 2 UP. `queue` are the tags of the requests that wait to be issued, oldest first (R716).
`retired` are the tags whose completions are discarded, each with
its function (R731, R737), and `confirms` the dirty-log slots (instance, slot) whose confirming read was retired with a hold. -/
structure Port where
  link : Nat
  width : Nat
  rate : Nat
  perst : Bool
  rootRid : Option Nat
  losses : Nat
  vfEnabled : Nat
  tags : SMap Tag
  queue : List Nat
  retired : List (Nat × Nat)
  confirms : List (Nat × Nat)
  deriving DecidableEq, Repr, Inhabited

/-! ## The router (R346 to R394) and the links (R629 to R653) -/

/-- A packet waiting in an output queue: its virtual channel, the input it came from (8 × group + link, 64 for injection),
the virtual channel it arrived on, the bytes of its frame, the hall time at which it entered the queue (R366, R619), and whether the
ejection has put it back to wait (log 74). -/
structure OutPkt where
  pkt : Pkt
  vc : Nat
  input : Nat
  vcIn : Nat
  bytes : Nat
  since : Nat
  back : Bool
  deriving DecidableEq, Repr, Inhabited

/-- A throttle entry (R369 to R371). `level` is its token bucket in thousandths of a byte, as of `filledAt`. -/
structure Throttle where
  dst : Nat
  tc : Nat
  rate : Nat
  target : Nat
  alpha : Nat
  steps : Nat
  lastCut : Nat
  lastMark : Nat
  lastInc : Nat
  lastAlpha : Nat
  level : Int
  filledAt : Nat
  deriving DecidableEq, Repr, Inhabited

/-- States of a link, in the order of their codes (R629). -/
inductive LinkState where
  | off | down | training | exchange | inService | held | quiet | waking
  deriving DecidableEq, Repr, Inhabited

/-- The peer of a link, as its last exchange found it (R632, R653); `rtt` is in FCLK cycles. -/
structure LinkPeer where
  mod : Nat
  grp : Nat
  lnk : Nat
  versionMax : Nat
  rtt : Nat
  deriving DecidableEq, Repr, Inhabited

/-- A link (R629 to R633, R653). `step` is its bring-up step (1 to 4, 0 for none), `hellos` the HELLOs counted in the exchange and
`named` the peer that the last one named; `stamps` are the departure stamps of its own HELLOs that an echo may name, `rtts` the last
samples of the round trip, and `heard` the stamp of the last HELLO received with the cycle of its receipt. `prev` is the state in its
last LINK_STATE record, written at `recordAt`; `owed` says that a record waits for the 1 ms between records (R647). -/
structure Link where
  state : LinkState
  reason : Nat
  held : Nat
  step : Nat
  version : Nat
  signal : Nat
  pcs : Bool
  fec : Bool
  hellos : Nat
  named : Option (Nat × Nat × Nat)
  stamps : List Nat
  rtts : List Nat
  heard : Option (Nat × Nat)
  seq : Nat
  ready : Bool
  peer : Option LinkPeer
  prev : Nat
  recordAt : Option Nat
  owed : Bool
  deriving DecidableEq, Repr, Inhabited

/-- A link group (R637 to R646): its presence contact with the time it last opened, its debounced state, whether its transmitters are
lit, its low-power idle state (0 ACTIVE, 1 REQUESTING, 2 QUIET, 3 WAKING) with whether its request has been sent, the ACK it has given and the
negotiated wake time, whether
no frame has passed for LPI_IDLE_US, and whether it has been down or idle since its links were last in service. -/
structure LinkGroup where
  contact : Bool
  openedAt : Option Nat
  plugged : Bool
  lit : Bool
  lpi : Nat
  asked : Bool
  acked : Bool
  wakeUs : Nat
  idle : Bool
  wasDown : Bool
  deriving DecidableEq, Repr, Inhabited

/-- Samples of a queue (R619): the time of the last change, the byte-nanoseconds since the period began, the packets that left with the
sum and the greatest of their sojourns, and the three values published. -/
structure Sample where
  last : Nat
  area : Nat
  left : Nat
  sum : Nat
  max : Nat
  meanDepth : Nat
  maxSojourn : Nat
  meanSojourn : Nat
  deriving DecidableEq, Repr, Inhabited

/-! ## Scheduling and time (R595 to R619) -/

/-- An entry of a gate list (R608). -/
structure GateEntry where
  interval : Nat
  opens : Nat
  guard : Bool
  deriving DecidableEq, Repr, Inhabited

/-- A gate list with its base time, which is its SWITCH_TIME while it waits (R609, R610); `late` says that a load has passed it. -/
structure GateList where
  entries : List GateEntry
  base : Nat
  late : Bool
  deriving DecidableEq, Repr, Inhabited

/-- The gates of a link group: the active list, none for the implicit one, and the pending list. -/
structure Gates where
  active : Option GateList
  pending : Option GateList
  deriving DecidableEq, Repr, Inhabited

/-- The deficit round robin of a link group (R615): the class whose turn it is, the visited marks and the deficits. -/
structure Drr where
  cur : Nat
  visited : List Nat
  deficit : SMap Nat
  deriving DecidableEq, Repr, Inhabited

/-- A token bucket: its level in bytes, as of a time (R617, R618). -/
structure Bucket where
  level : Int
  at_ : Nat
  deriving DecidableEq, Repr, Inhabited

/-- What the last Sync message of a link announced (R598): master, steps removed, whether the sender is LOCKED, and when. -/
structure Announce where
  master : Nat
  steps : Nat
  locked : Bool
  at_ : Nat
  deriving DecidableEq, Repr, Inhabited

/-! ## Hall pages, skylights and placement (R56 to R86, R529 to R561) -/

/-- States of a thatch entry (R531). -/
inductive PageState where
  | home | moving | moved | replicated
  deriving DecidableEq, Repr, Inhabited

/-- A thatch entry of a page whose home is this module (R530), with its home frame, its freeing mark (R86), the
words written whole since POISONED was set (R550), and the modules that have had a hint of its present SEQ (R534). `step`
is the state of a copy that the home directs to `moveTo`: 0 none, 1 the target has been asked, 2 the copy runs. `sources` are
the modules whose writes caused the collapse in progress, and `late` those that the home's own writes name beyond 64 (R547). -/
structure Page where
  state : PageState
  before : PageState
  pinned : Bool
  pinWait : Bool
  collapsing : Bool
  readOnly : Bool
  poisoned : Bool
  clean : List Nat
  partition : Nat
  seq : Nat
  writer : Nat
  target : Nat
  replicas : List Nat
  lastChange : Nat
  pinHolder : Nat
  frame : Nat
  freeing : Bool
  hints : List Nat
  pinNoted : Bool
  step : Nat
  moveTo : Nat
  moveReplica : Bool
  sources : List Nat
  late : List Nat
  deriving DecidableEq, Repr, Inhabited

/-- The heat of a page (R536): wire units read and written, and two candidate sources with their counts. -/
structure Heat where
  reads : Nat
  writes : Nat
  cand0 : Nat × Nat
  cand1 : Nat × Nat
  deriving DecidableEq, Repr, Inhabited

/-- What this module does for a page that it holds (R536, R543 to R546). `copied` counts the units sent, `acked` those
acknowledged; `passed` the passed writes not yet acknowledged. `run` tells its copies apart, and `rate` is that of the copy in GB/s, as
it was when the copy began (R562). `replicated` and `collapsing` are what a writing holder knows of its replicas; `due` says that a replica
has been copied and that MOVE_END has not come (R546). -/
structure Held where
  frame : Nat
  replica : Bool
  seq : Nat
  partition : Nat
  readOnly : Bool
  heat : Heat
  copyTo : Option Nat
  copyReplica : Bool
  copied : Nat
  acked : Nat
  passed : Nat
  frozen : Bool
  replicated : Bool
  collapsing : Bool
  home : Nat
  run : Nat
  rate : Nat
  due : Bool
  deriving DecidableEq, Repr, Inhabited

/-- States of a skylight index (R68 to R84). -/
inductive SkyState where
  | open_ | revoking | revoked
  deriving DecidableEq, Repr, Inhabited

/-- A skylight (R68 to R70). `tag` is its tag, and the retained tag once it is revoked; `revokedAt` orders revocations, and
`waiting` are the revocations that have not replied (port, command). -/
structure Sky where
  state : SkyState
  tag : Nat
  hall : Bool
  inst : Nat
  base : Nat
  len : Nat
  partition : Nat
  rights : Nat
  revokedAt : Nat
  waiting : List (Nat × Nat)
  deriving DecidableEq, Repr, Inhabited

/-- A revocation or a freeing of pages that this module has been told of and whose drain it awaits (R77, R86): the identity of
its tree operation, and the pages. -/
structure Drain where
  kind : Nat
  root : Nat
  tree : Nat
  seq : Nat
  partition : Nat
  count : Nat
  deriving DecidableEq, Repr, Inhabited

/-- A run of pages that FREE_HALL_PAGES is freeing (R86), with the SEQ of its tree operation and the command. -/
structure Freeing where
  first : Nat
  count : Nat
  seq : Nat
  port : Nat
  cmd : Nat
  deriving DecidableEq, Repr, Inhabited

/-- An entry of the placement cache (R533). -/
structure PlcEntry where
  home : Nat
  page : Nat
  seq : Nat
  writer : Nat
  reader : Nat
  deriving DecidableEq, Repr, Inhabited

/-- An entry of the collapse watch table (R548). -/
structure Watch where
  home : Nat
  page : Nat
  seq : Nat
  qpn : Nat
  inst : Nat
  deriving DecidableEq, Repr, Inhabited

/-- A copy that this module is receiving as the target of a move or replica (R543 step 2, R546). -/
structure Incoming where
  frame : Nat
  replica : Bool
  seq : Nat
  partition : Nat
  readOnly : Bool
  deriving DecidableEq, Repr, Inhabited

/-- The placement policy of a partition on this module (R539). -/
structure Policy where
  migrate : Bool
  replicate : Bool
  maxReplicas : Nat
  threshold : Nat
  reserve : Nat
  deriving DecidableEq, Repr, Inhabited

/-- A change of a page that its home makes with a shoot-down (R543, R547, R549, R550). `lost` is of a holder, `target` of the target of a move that
has been cancelled. -/
inductive Change where
  | commit (page : Nat)
  | collapse (page : Nat)
  | drop (page replica : Nat)
  | lost (page module : Nat)
  | target (page module : Nat)
  deriving DecidableEq, Repr, Inhabited

/-- A copy that waits because MAX_MOVES copies run here (R564): of the page `key`, as old holder to `dst`, or, with `home`, back to its home frame
here. -/
structure StartWait where
  key : Nat
  dst : Nat
  replica : Bool
  home : Bool
  deriving DecidableEq, Repr, Inhabited

/-- A shoot-down in flight (R549): what was changed, with the page's new SEQ, its FLAGS and REMOVED, and the module that the event names. -/
structure Shoot where
  change : Change
  page : Nat
  seq : Nat
  flags : Nat
  removed : Nat
  about : Nat
  deriving DecidableEq, Repr, Inhabited

/-- A fault in progress (R792, R793): its SEQ, reason and raiser, the work queues whose records its quench waits for, and whether
the quench is complete. -/
structure Quench where
  seq : Nat
  reason : Nat
  raiser : Nat
  wqs : List Nat
  complete : Bool
  deriving DecidableEq, Repr, Inhabited

/-- A job domain (R789 to R798). `waiting` is the creation that has not replied (port, command); `lost` the members marked
LOST; `fault` the reason of the fault in progress here, and `owed` the faults still to be raised (reason, module it is about). `stopped` says that a STOP holds the domain's queues, `snap` is the SNAPSHOT command of this module, and `drain` the
STOP whose drain is awaited (root, SEQ). -/
structure Domain where
  members : List Nat
  ready : Bool
  waiting : Option (Nat × Nat)
  lost : List Nat
  faultSeq : Nat
  fault : Option Quench
  faultCmds : List (Nat × Nat)
  owed : List (Nat × Nat)
  lastCut : Nat
  stopped : Bool
  snap : Option (Nat × Nat)
  drain : Option (Nat × Nat)
  deriving DecidableEq, Repr, Inhabited

/-! ## Transit programs (R457 to R475) -/

/-- A loaded program (R463): owner, partition, image and the first 64 bits of the image's SHA-384. `dead` says that its owner
is gone and that it is unloaded once its entries have ended. -/
structure Program where
  inst : Nat
  partition : Nat
  image : Bytes
  digest : Nat
  dead : Bool
  deriving DecidableEq, Repr, Inhabited

/-- An operand of a launch (R270). -/
structure TOper where
  form : Nat
  addr : Nat
  key : Nat
  mod : Nat
  deriving DecidableEq, Repr, Inhabited

/-- Who launched an entry: an operation of this module, or another module's launch (module, TXN, class) (R466). -/
inductive Launcher where
  | op (wq op : Nat)
  | remote (mod txn : Nat)
  deriving DecidableEq, Repr, Inhabited

/-- A program entry (R470), in the state of its code. `order` numbers launches; `taken` are the tokens it has taken (wick,
tokens); `bufs` the operands read, by slot; `vals` the values by reference byte (R461); `issued` and `chunks` the chunks issued and done, by operator
(R475); `writes` counts the output writes not yet acknowledged, by operator, and `confirmed` the output bytes that are. `cycles` are tile-cycles.
`ending` is the outcome that a cancel or failure has decided (status, detail, remote), `cancelled` that it is a cancel's; `silent` ends
without a record. -/
structure TEntry where
  state : Nat
  program : Nat
  order : Nat
  by_ : Launcher
  inst : Nat
  partition : Nat
  tc : Nat
  opers : List TOper
  prio : Nat
  tiles : Option Nat
  taken : List (Nat × Nat)
  bufs : SMap RBuf
  vals : SMap Bytes
  issued : SMap Nat
  chunks : SMap Nat
  done : List Nat
  writes : SMap Nat
  confirmed : Nat
  saturated : Bool
  special : Bool
  inexact : Bool
  cycles : Nat
  ending : Option (Nat × Nat × Bool)
  cancelled : Bool
  silent : Bool
  deriving DecidableEq, Repr, Inhabited

/-! ## HBM channel arbiters (R476 to R478) -/

/-- The port of a channel arbiter on which an access is presented: the fabric die's, the placement engine's, or that of the tiles of a
program entry, with the entry's launch, its first tile and the number of its tiles. -/
inductive Client where
  | fab
  | move
  | tile (entry order first tiles : Nat)
  deriving DecidableEq, Repr, Inhabited

/-- A pending request of a port for one 64-byte access: the program entry that issued it, with its launch, whether it writes, the cycles
since the port presented it, whether it is withdrawn in the cycle that comes, and what it stores where once it has entered the command
queue, if a program's tile issued it (R478). -/
structure ArbReq where
  entry : Option (Nat × Nat)
  write : Bool
  shown : Nat
  withdrawn : Bool
  store : Option (Nat × Bytes)
  deriving DecidableEq, Repr, Inhabited

/-- A channel arbiter: the pending requests of its ports, oldest first (0 to 7 CL, 8 FAB, 9 MOVE), the port last granted, the port it is
parked on with the cycles that had no request from it, and the accesses in its command queue. -/
structure Arb where
  ports : SMap (List ArbReq)
  last : Nat
  park : Option (Nat × Nat)
  queue : Nat
  deriving DecidableEq, Repr, Inhabited

/-! ## Collectives and the tree (R395 to R443) -/

/-- A wide partial sum set (R416 to R419): 16 elements w · 2^a with their classes (0 finite, 1 +∞, 2 −∞, 3 NaN). -/
structure PSet where
  a : Int
  w : List Int
  cls : List Nat
  inexact : Bool
  deriving DecidableEq, Repr, Inhabited

/-- Up to a unit of elements of a collective, as partial sums or in TYPE. -/
inductive UVal where
  | sets (l : List PSet)
  | raw (b : Bytes)
  deriving DecidableEq, Repr, Inhabited

/-- Consecutive units `lo` to `hi - 1` of a block of a collective's elements. -/
structure UPiece where
  block : Nat
  lo : Nat
  hi : Nat
  deriving DecidableEq, Repr, Inhabited

/-- A step of a collective's algorithm (R409 to R413): what is rounded before it, what it sends to whom, what it receives
from whom, and whether what it receives is combined. -/
structure CStep where
  stage : Nat
  step : Nat
  round : List UPiece
  sends : List (Nat × List UPiece)
  recvs : List (Nat × List UPiece)
  combine : Bool
  deriving DecidableEq, Repr, Inhabited

/-- A part of a collective whose steps follow each other: `sent` for its first step, and the units that it has received. -/
structure CTrack where
  steps : List CStep
  sent : Bool
  got : Nat
  deriving DecidableEq, Repr, Inhabited

/-- A COLL_DATA message that has arrived (R427). -/
structure CMsg where
  src : Nat
  seq : Nat
  check : Nat
  stage : Nat
  step : Nat
  wps : Bool
  offset : Nat
  elements : Nat
  data : Bytes
  deriving DecidableEq, Repr, Inhabited

/-- A collective in progress on this rank. `input` is its SEND being read; `units` holds its elements by block × 2^32 + unit;
`unacked` counts the messages not yet acknowledged, and `writes` the writes of RECV. -/
structure Coll where
  wq : Nat
  op : Nat
  seq : Nat
  oper : Nat
  typ : Nat
  red : Nat
  count : Nat
  root : Nat
  check : Nat
  lanes : List Nat
  lane : Nat
  inst : Nat
  tc : Nat
  forms : Nat
  send : Nat
  recv : Nat
  input : RBuf
  loaded : Bool
  tracks : List CTrack
  units : SMap UVal
  inbox : List CMsg
  unacked : Nat
  writes : Nat
  written : Bool
  saturated : Bool
  special : Bool
  inexact : Bool
  deriving DecidableEq, Repr, Inhabited

/-- A group (R395 to R399, R408, R415). `waiting` is the DEFINE_GROUP that has not replied (port, command); `early` the data
of collectives not yet posted here, and `aborted` the sequence numbers of those already aborted. -/
structure Group where
  partition : Nat
  list : List Nat
  rank : Nat
  box : Bool
  crossover : Nat
  weight : Nat
  seq : Nat
  waiting : Option (Nat × Nat)
  coll : Option Coll
  early : List CMsg
  aborted : List Nat
  deriving DecidableEq, Repr, Inhabited

/-- A tree operation on this module (R424, R425): its identity, the fields of its notice or release, its member set and the
modules outside it that answer the root directly, the members counted here as combiner, the racks counted here as root,
the members found lost, and what this module has done. -/
structure TreeOp where
  kind : Nat
  root : Nat
  tree : Nat
  seq : Nat
  partition : Nat
  members : List Nat
  extra : List Nat
  payload : Bytes
  counted : List Nat
  racks : List Nat
  lost : List Nat
  gone : List Nat
  sentUp : Bool
  passedUp : Bool
  down : Bool
  finished : Bool
  deriving DecidableEq, Repr, Inhabited

/-- What the tree hands to the owner of a kind: a notice or release that reached this module, or the end of the combine. -/
inductive TreeEv where
  | notice (kind root tree seq : Nat) (payload : Bytes) (partition : Nat)
  | done (kind tree seq : Nat) (partition : Nat) (payload : Bytes) (lost : List Nat)
  deriving DecidableEq, Repr, Inhabited

end Sys2Proof.Machine
end

