-- ==== Sys2Proof/Syntax.lean ====
section
/-!
DEFINITION. The commands of the module: one constructor per row of the opcode table. Operands name what a command acts
on (a port, a queue, a scoreboard entry, a link) and what comes with it (a value written, the data of a completion, a
packet).
-/

namespace Sys2Proof

open Sys2Proof.Machine (Pkt)

/-- A command. -/
inductive Instr where
  /-- ADM_CMD_PRODUCER_WRITE (R203): Software writes the admin doorbell and the module records the new command producer index. -/
  | admCmdProducerWrite (port : Nat) (value : Nat)
  /-- ADMIN_COMMAND_FETCH (R204): The control processor fetches one command packet into its SRAM once the reply ring has room for it. -/
  | adminCommandFetch (port : Nat)
  /-- ADM_CTRL_ENABLE_SET (R202): Setting ADM_CTRL.ENABLE starts a fresh admin queue, or leaves it disabled if a size is out of range. -/
  | admCtrlEnableSet (port : Nat) (value : Nat)
  /-- ADM_CTRL_ENABLE_CLEAR (R206): Clearing ADM_CTRL.ENABLE stops fetching and lets the queue pass through STOPPING to DISABLED. -/
  | admCtrlEnableClear (port : Nat) (value : Nat)
  /-- ADM_REPLY_CONSUMER_WRITE (R204): Software advances the reply consumer index, or the write is ignored and CONSUMER_RANGE is set. -/
  | admReplyConsumerWrite (port : Nat) (value : Nat)
  /-- UNLISTED_ADMIN_OPCODE (R230): A command with an unlisted opcode fails check 2 with BAD_DESCRIPTOR, detail OPCODE. -/
  | unlistedAdminOpcode (port : Nat) (cmd : Nat)
  /-- IDENTIFY (R223): Returns the part number, stepping, architecture version and firmware build. -/
  | identify (port : Nat) (cmd : Nat)
  /-- NEGOTIATE_VERSION (R220): Chooses the highest common command version for the issuer's admin queue. -/
  | negotiateVersion (port : Nat) (cmd : Nat)
  /-- GET_FEATURE (R223): Returns the value of one feature. -/
  | getFeature (port : Nat) (cmd : Nat)
  /-- SET_FEATURE (R224): Sets one feature, subject to its authority, lock and value checks, and returns the previous value. -/
  | setFeature (port : Nat) (cmd : Nat)
  /-- EXPERT_UNLOCK (R232): With ACTION 1 and the right CONFIRM, unlocks the named blocks for expert writes. -/
  | expertUnlock (port : Nat) (cmd : Nat)
  /-- EXPERT_LOCK (R232): With ACTION 0, locks the named blocks again. -/
  | expertLock (port : Nat) (cmd : Nat)
  /-- CREATE_WORK_QUEUE (R177): Creates an ENABLED work queue bound to a completion queue and returns its number, generation and doorbell offset. -/
  | createWorkQueue (port : Nat) (cmd : Nat)
  /-- DESTROY_WORK_QUEUE (R179): Frees an IDLE work queue's number and advances its generation. -/
  | destroyWorkQueue (port : Nat) (cmd : Nat)
  /-- CREATE_COMPLETION_QUEUE (R177): Creates an active completion queue bound to a lantern queue. -/
  | createCompletionQueue (port : Nat) (cmd : Nat)
  /-- DESTROY_COMPLETION_QUEUE (R179): Ends all writes into a completion ring, sends its held records to the gutter and frees it. -/
  | destroyCompletionQueue (port : Nat) (cmd : Nat)
  /-- CREATE_EVENT_QUEUE (R177): Creates a lantern queue with an MSI-X vector, optionally as the instance's default. -/
  | createEventQueue (port : Nat) (cmd : Nat)
  /-- DESTROY_EVENT_QUEUE (R179): Drops held events of a lantern queue and frees it. -/
  | destroyEventQueue (port : Nat) (cmd : Nat)
  /-- QUIESCE (R181): QUIESCE_QUEUE with ACTION 0 clears ENABLE, drains the work queue and replies when it reaches IDLE. -/
  | quiesce (port : Nat) (cmd : Nat)
  /-- RESUME (R181): QUIESCE_QUEUE with ACTION 1 returns an IDLE work queue to ENABLED. -/
  | resume (port : Nat) (cmd : Nat)
  /-- QUIESCE_WAIT_LIMIT (R181): A quiesce whose WAIT_LIMIT expires replies QUEUE_NOT_IDLE and leaves the queue DRAINING. -/
  | quiesceWaitLimit (port : Nat) (cmd : Nat)
  /-- SNUFF_QUEUE (R183): Advances the work queue's generation, aborts its fetched descriptors, skips unfetched ones and leaves it IDLE. -/
  | snuffQueue (port : Nat) (cmd : Nat)
  /-- CREATE_QP (R249): Creates a queue pair in INIT bound to a work queue and completion queue of the instance. -/
  | createQp (port : Nat) (cmd : Nat)
  /-- MODIFY_QP (R251): Moves a queue pair between INIT, READY and ERROR under the permitted transitions. -/
  | modifyQp (port : Nat) (cmd : Nat)
  /-- QUERY_QP (R226): Returns a queue pair's state, PSNs and remote QPN. -/
  | queryQp (port : Nat) (cmd : Nat)
  /-- DESTROY_QP (R255): Destroys a queue pair in INIT or ERROR with no transaction in flight. -/
  | destroyQp (port : Nat) (cmd : Nat)
  /-- OPEN_SKYLIGHT (R68): Opens a skylight on the longest-revoked free index with a fresh tag and returns its key. -/
  | openSkylight (port : Nat) (cmd : Nat)
  /-- REVOKE_SKYLIGHT (R77): Marks a skylight REVOKING, sends the revoke notice down the tree and replies when every module has acknowledged. -/
  | revokeSkylight (port : Nat) (cmd : Nat)
  /-- QUERY_SKYLIGHT (R226): Returns a skylight's state, rights, partition, owner and length. -/
  | querySkylight (port : Nat) (cmd : Nat)
  /-- MAP_PAGES (R120): Validates and installs translations for a range of an instance's space, draining replaced pages. -/
  | mapPages (port : Nat) (cmd : Nat)
  /-- UNMAP_PAGES (R122): Clears overlapping mappings, invalidates them and replies after the drain of their uses. -/
  | unmapPages (port : Nat) (cmd : Nat)
  /-- DIRTY_LOG_ENABLE (R127): SET_DIRTY_LOG ENABLE starts logging writes of a range into bitmap A of a slot. -/
  | dirtyLogEnable (port : Nat) (cmd : Nat)
  /-- DIRTY_LOG_SWITCH (R127): SET_DIRTY_LOG SWITCH writes back the active bitmap, swaps bitmaps and returns the new bit count. -/
  | dirtyLogSwitch (port : Nat) (cmd : Nat)
  /-- DIRTY_LOG_DISABLE (R127): SET_DIRTY_LOG DISABLE writes back the active bitmap and frees the slot. -/
  | dirtyLogDisable (port : Nat) (cmd : Nat)
  /-- DEFINE_GROUP (R395): Defines a group on every member once all have issued identical lists. -/
  | defineGroup (port : Nat) (cmd : Nat)
  /-- RELEASE_GROUP (R398): Removes a group on the issuing module unless it is busy. -/
  | releaseGroup (port : Nat) (cmd : Nat)
  /-- SET_COLLECTIVE_POLICY (R408): Sets a group's CROSSOVER and LINK_WEIGHT. -/
  | setCollectivePolicy (port : Nat) (cmd : Nat)
  /-- LOAD_TRANSIT_PROGRAM (R462): Reads and validates a program image and loads it under a program number. -/
  | loadTransitProgram (port : Nat) (cmd : Nat)
  /-- UNLOAD_TRANSIT_PROGRAM (R463): Unloads a program that no scoreboard entry names. -/
  | unloadTransitProgram (port : Nat) (cmd : Nat)
  /-- ALLOCATE_HALL_PAGES (R58): Allocates a range of hall page indices to a partition on their home module. -/
  | allocateHallPages (port : Nat) (cmd : Nat)
  /-- FREE_HALL_PAGES (R86): Marks pages as being freed, runs the revocation protocol and releases all their frames. -/
  | freeHallPages (port : Nat) (cmd : Nat)
  /-- PIN_PAGES (R557): Pins pages to a holder, collapsing replicas and moving them there when allowed. -/
  | pinPages (port : Nat) (cmd : Nat)
  /-- UNPIN_PAGES (R557): Clears PINNED and PIN_WAIT on a range of pages. -/
  | unpinPages (port : Nat) (cmd : Nat)
  /-- PIN_PROGRAM (R557): Records the executing module of a program for PLACE PINNED. -/
  | pinProgram (port : Nat) (cmd : Nat)
  /-- UNPIN_PROGRAM (R557): Removes a program's pin. -/
  | unpinProgram (port : Nat) (cmd : Nat)
  /-- SET_PLACEMENT_POLICY (R539): Sets this module's placement policy and reserve for one partition. -/
  | setPlacementPolicy (port : Nat) (cmd : Nat)
  /-- CREATE_WICK_QUEUE (R567): Creates a wick queue with a depth and REALIGN option. -/
  | createWickQueue (port : Nat) (cmd : Nat)
  /-- DESTROY_WICK_QUEUE (R573): Aborts a wick queue's waiters and frees its number. -/
  | destroyWickQueue (port : Nat) (cmd : Nat)
  /-- DEFINE_BARRIER (R581): Defines the barrier of a group with its owner and PERIODIC flag. -/
  | defineBarrier (port : Nat) (cmd : Nat)
  /-- SET_GATE_LIST (R609): Reads and checks a gate list and loads it as the pending list of a link group. -/
  | setGateList (port : Nat) (cmd : Nat)
  /-- SET_CLASS_QUANTA (R616): Sets the deficit round robin quanta of one or all link groups. -/
  | setClassQuanta (port : Nat) (cmd : Nat)
  /-- SET_CADENCE (R603): Gives a partition a cadence on this module, or a pending replacement. -/
  | setCadence (port : Nat) (cmd : Nat)
  /-- LOAD_KEY (R666): Loads a key and salt into a key slot owned by an instance. -/
  | loadKey (port : Nat) (cmd : Nat)
  /-- DESTROY_KEY (R667): Zeroes and frees an unbound key slot. -/
  | destroyKey (port : Nat) (cmd : Nat)
  /-- CREATE_INSTANCE (R694): Creates an instance with its allotments, share 256 and a new generation. -/
  | createInstance (port : Nat) (cmd : Nat)
  /-- DESTROY_INSTANCE (R704): Runs the reset steps and returns the instance's allotments, leaving its number ABSENT. -/
  | destroyInstance (port : Nat) (cmd : Nat)
  /-- RESET_INSTANCE (R700): Advances the instance generation and tears down everything it built, replying with the new generation. -/
  | resetInstance (port : Nat) (cmd : Nat)
  /-- GENERATION_QUARANTINE_END (R702): A reset waiting for its generation value's quarantine resumes once QUARANTINE_MS has passed. -/
  | generationQuarantineEnd (inst : Nat)
  /-- SET_INSTANCE_SHARE (R695): Sets an instance's issue share weight. -/
  | setInstanceShare (port : Nat) (cmd : Nat)
  /-- POWER_HINT_COMMAND (R758): The admin POWER_HINT queues a hint for the power unit. -/
  | powerHintCommand (port : Nat) (cmd : Nat)
  /-- SET_POWER_CAP (R753): Sets CAP_W and returns the previous cap. -/
  | setPowerCap (port : Nat) (cmd : Nat)
  /-- READ_LIFE_LOG (R827): Copies a range of the life-log image to the issuer's memory. -/
  | readLifeLog (port : Nat) (cmd : Nat)
  /-- CAL_READ (R826): Copies a calibration item to the issuer's memory. -/
  | calRead (port : Nat) (cmd : Nat)
  /-- CAL_WRITE (R826): Validates and atomically replaces a calibration item, effective at next power-on. -/
  | calWrite (port : Nat) (cmd : Nat)
  /-- SET_DEBUG_MUX (R829): Selects the tap of one debug pin on engineering samples. -/
  | setDebugMux (port : Nat) (cmd : Nat)
  /-- FIRMWARE_STAGE (R784): Reads, verifies and writes a firmware image to the staging bank. -/
  | firmwareStage (port : Nat) (cmd : Nat)
  /-- FIRMWARE_ACTIVATE_NEXT_POWER_ON (R785): FIRMWARE_ACTIVATE WHEN 0 points the boot bank at the staged image. -/
  | firmwareActivateNextPowerOn (port : Nat) (cmd : Nat)
  /-- FIRMWARE_ACTIVATE_NOW (R785): FIRMWARE_ACTIVATE WHEN 1 points the boot bank at the staged image, replies and restarts the control processor. -/
  | firmwareActivateNow (port : Nat) (cmd : Nat)
  /-- JOB_DOMAIN_CREATE (R789): Checks the member list and sends DOMAIN_SETUP to the domain root. -/
  | jobDomainCreate (port : Nat) (cmd : Nat)
  /-- JOB_DOMAIN_FAULT (R791): Raises a job fault of a partition with a software or DISSOLVE reason. -/
  | jobDomainFault (port : Nat) (cmd : Nat)
  /-- SNAPSHOT (R797): Starts a consistent snapshot of a partition as a tree operation. -/
  | snapshot (port : Nat) (cmd : Nat)
  /-- WQ_DOORBELL (R160): A doorbell write is judged against the work queue's indices and may advance DOORBELL or put the queue in ERROR. -/
  | wqDoorbell (fn : Nat) (wq : Nat) (value : Nat)
  /-- DOORBELL_HIGH_DWORD_WRITE (R159): A 32-bit write to a doorbell's high dword is dropped and counted. `bell` is the work queue and the
  byte lanes that are written. -/
  | doorbellHighDwordWrite (fn : Nat) (bell : Nat × Nat)
  /-- CQ_CONSUMER_UPDATE (R169): A doorbell with CQ_UPDATE moves the completion queue's consumer index. -/
  | cqConsumerUpdate (fn : Nat) (wq : Nat) (value : Nat)
  /-- CQ_ARM (R170): A doorbell with CQ_ARM arms the completion queue for any record. -/
  | cqArm (fn : Nat) (wq : Nat) (value : Nat)
  /-- CQ_ARM_SOLICITED (R170): A doorbell with CQ_ARM_SOLICITED arms the completion queue for solicited records. -/
  | cqArmSolicited (fn : Nat) (wq : Nat) (value : Nat)
  /-- CQ_FULL_WAIT_EXPIRY (R169): A completion queue held full for WAIT_US enters ERROR with CQ_OVERFLOW. -/
  | cqFullWaitExpiry (cq : Nat)
  /-- DESCRIPTOR_FETCH (R162): The host die issues a fetch read of ring units below DOORBELL for a queue in round robin. -/
  | descriptorFetch (wq : Nat)
  /-- DESCRIPTOR_ARRIVAL (R187): Fetched descriptor data returns and each descriptor is judged and issued or faulted. -/
  | descriptorArrival (wq : Nat)
  /-- LQ_CONSUMER_WRITE (R173): The owner moves a lantern queue's consumer index, or the write is ignored. -/
  | lqConsumerWrite (fn : Nat) (lq : Nat) (index : Nat)
  /-- LQ_ARM (R173): Writing ARM arms a lantern queue, sending its message at once if records wait. -/
  | lqArm (fn : Nat) (lq : Nat)
  /-- LQ_LOST_CLEAR (R174): Writing 1 to LOST clears a lantern queue's lost flag. -/
  | lqLostClear (fn : Nat) (lq : Nat)
  /-- WQ_ENABLE_CLEAR (R186): An expert clear of QPE_WQ_STATE.ENABLE quiesces the work queue without limit. -/
  | wqEnableClear (fn : Nat) (write : Nat × Nat)
  /-- WQ_ENABLE_SET (R186): An expert set of ENABLE resumes an IDLE work queue, or is dropped in other states. -/
  | wqEnableSet (fn : Nat) (write : Nat × Nat)
  /-- NOP (R151): A NOP descriptor performs nothing and retires in order. -/
  | nop (wq : Nat) (op : Nat)
  /-- READ (R256): A READ is checked, cut into messages and issued to its holder. -/
  | read (wq : Nat) (op : Nat)
  /-- WRITE (R257): A WRITE is checked, cut into messages and sends its data to the writing holder. -/
  | write (wq : Nat) (op : Nat)
  /-- WRITE_NOTIFY (R261): A write that adds tokens to a wick queue once every byte is performed. -/
  | writeNotify (wq : Nat) (op : Nat)
  /-- ATOMIC_FADD (R265): A fetch-and-add of 4 or 8 bytes sent as one message to the writing holder. -/
  | atomicFadd (wq : Nat) (op : Nat)
  /-- ATOMIC_CAS (R265): A compare-and-swap of 4 or 8 bytes sent as one message to the writing holder. -/
  | atomicCas (wq : Nat) (op : Nat)
  /-- FENCE (R94): A FENCE holds later operations until earlier ones meet its scope and strength. -/
  | fence (wq : Nat) (op : Nat)
  /-- TOKEN_PRODUCE (R263): TOKEN with ACTION PRODUCE adds tokens to a wick queue, locally or by TOKEN_REQ. -/
  | tokenProduce (wq : Nat) (op : Nat)
  /-- TOKEN_CONSUME (R570): TOKEN with ACTION CONSUME is checked and waits for tokens on a local wick queue. -/
  | tokenConsume (wq : Nat) (op : Nat)
  /-- TOKEN_BARRIER (R582): TOKEN with ACTION BARRIER counts an arrival at a local barrier and waits for release. -/
  | tokenBarrier (wq : Nat) (op : Nat)
  /-- TOKEN_CADENCE (R607): TOKEN with ACTION CADENCE waits for the next cadence period boundary. -/
  | tokenCadence (wq : Nat) (op : Nat)
  /-- TOKEN_WAIT_TIMEOUT (R570): A waiting TOKEN whose WAIT_LIMIT expires completes TIMEOUT having taken nothing. -/
  | tokenWaitTimeout (wq : Nat) (op : Nat)
  /-- CHAIN (R155): A CHAIN is judged and its continuation list is read. -/
  | chain (wq : Nat) (op : Nat)
  /-- CHAIN_LIST_ARRIVAL (R157): A continuation-list read returns and its descriptors run in list order, or the CHAIN fails. -/
  | chainListArrival (wq : Nat) (op : Nat)
  /-- POWER_HINT_DESCRIPTOR (R268): The work opcode POWER_HINT passes a hint to the power unit. -/
  | powerHintDescriptor (wq : Nat) (op : Nat)
  /-- ALL_REDUCE (R400): A COLLECTIVE ALL_REDUCE starts this rank's part of a reduction over all ranks. -/
  | allReduce (wq : Nat) (op : Nat)
  /-- REDUCE (R400): A COLLECTIVE REDUCE starts this rank's part of a reduction to the root. -/
  | reduce (wq : Nat) (op : Nat)
  /-- REDUCE_SCATTER (R400): A COLLECTIVE REDUCE_SCATTER starts this rank's part of a scattered reduction. -/
  | reduceScatter (wq : Nat) (op : Nat)
  /-- ALL_GATHER (R400): A COLLECTIVE ALL_GATHER starts this rank's part of a gather to all ranks. -/
  | allGather (wq : Nat) (op : Nat)
  /-- BROADCAST (R400): A COLLECTIVE BROADCAST starts this rank's part of a tree broadcast from the root. -/
  | broadcast (wq : Nat) (op : Nat)
  /-- ALL_TO_ALL (R413): A COLLECTIVE ALL_TO_ALL sends each block directly to its rank. -/
  | allToAll (wq : Nat) (op : Nat)
  /-- TRANSIT (R464): A TRANSIT is checked and launched on the executing module that placement chooses. -/
  | transit (wq : Nat) (op : Nat)
  /-- MESSAGE_ISSUE (R281): A waiting message takes a scoreboard entry and bucket credit and is sent. -/
  | messageIssue (wq : Nat) (op : Nat) (msg : Nat)
  /-- CONTEXT_FILL_RETURN (R278): A queue pair context fill returns and is checked, or the queue pair enters ERROR. -/
  | contextFillReturn (qpn : Nat) (data : Bytes)
  /-- HOST_READ_COMPLETION (R732): A completion for a host or peer read arrives and its data is used or its operation fails. -/
  | hostReadCompletion (port : Nat) (tag : Nat) (status : Nat) (data : Bytes)
  /-- COMPLETION_TIMEOUT (R731): A non-posted request times out, its tag retires and its operation completes HOST_MEMORY_ERROR. -/
  | completionTimeout (port : Nat) (tag : Nat)
  /-- WRITE_REQ (R310): An arriving WRITE_REQ is checked for epoch, stream and PSN, then checked under R73 and performed. -/
  | writeReq (pkt : Pkt)
  /-- READ_REQ (R310): An arriving READ_REQ is checked and its data is read and returned in READ_RESP. -/
  | readReq (pkt : Pkt)
  /-- ATOMIC_REQ (R265): An arriving ATOMIC_REQ is performed indivisibly and answered with the original value. -/
  | atomicReq (pkt : Pkt)
  /-- TOKEN_REQ (R569): An arriving TOKEN_REQ adds tokens to a wick queue or is refused. -/
  | tokenReq (pkt : Pkt)
  /-- FORWARDED_REQUEST (R314): A forwarded request is performed at its holder and answered directly to its source. -/
  | forwardedRequest (pkt : Pkt)
  /-- ACK (R317): An arriving ACK resolves and frees the stream's entries at or below its PSN. -/
  | ack (pkt : Pkt)
  /-- READ_RESP (R317): An arriving READ_RESP lands its data and resolves the one entry its TXN names. -/
  | readResp (pkt : Pkt)
  /-- ATOMIC_RESP (R317): An arriving ATOMIC_RESP returns the original value and resolves its entry. -/
  | atomicResp (pkt : Pkt)
  /-- EPOCH_PROBE (R322): An arriving EPOCH_PROBE is answered with EPOCH_NOTICE. -/
  | epochProbe (pkt : Pkt)
  /-- EPOCH_NOTICE (R324): An arriving EPOCH_NOTICE records a peer's epoch and applies a newer one. -/
  | epochNotice (pkt : Pkt)
  /-- EPOCH_PROBE_TIMEOUT (R322): An unanswered EPOCH_PROBE is repeated on its timer, and waiting messages end TIMEOUT at the limit. -/
  | epochProbeTimeout (module : Nat)
  /-- EPOCH_TABLE_AGING (R788): A peer epoch entry unrefreshed for 60 s returns to 0. -/
  | epochTableAging (module : Nat)
  /-- CONGESTION (R369): An arriving CONGESTION packet applies a mark to the throttle entry of its flow. -/
  | congestion (pkt : Pkt)
  /-- UNKNOWN_TYPE_PACKET (R305): A packet of an undefined type goes to the gutter. -/
  | unknownTypePacket (pkt : Pkt)
  /-- RETRANSMIT_TIMEOUT (R318): An entry's retransmission timer expires and its message is sent again with its original PSN. -/
  | retransmitTimeout (txn : Nat)
  /-- RETRY_LIMIT_TIMEOUT (R319): The timeout after RETRY_LIMIT retransmissions ends the entry and its stream span with TIMEOUT. -/
  | retryLimitTimeout (txn : Nat)
  /-- ACK_DELAY_EXPIRY (R315): DELAY_NS since the oldest unanswered request makes the responder send an ACK. -/
  | ackDelayExpiry (conn : Nat) (key : Nat)
  /-- THROTTLE_TICK (R370): Once per µs each throttle entry decays alpha and raises its rate. -/
  | throttleTick
  /-- COLL_DATA (R406): An arriving collective data packet is checked against the local collective and combined. -/
  | collData (pkt : Pkt)
  /-- GROUP_SETUP (R396): A GROUP_SETUP packet carries a member's list CRC toward the group's root. -/
  | groupSetup (pkt : Pkt)
  /-- TREE_UP (R424): A TREE_UP is counted at a combiner or the ridge counter, which passes it up or starts the downward phase. -/
  | treeUp (pkt : Pkt)
  /-- TREE_DOWN (R424): A TREE_DOWN is relayed onward and delivered to a member of its kind. -/
  | treeDown (pkt : Pkt)
  /-- REVOKE_DRAIN_DONE (R77): Once messages accepted before the mark are performed, the module removes its copy and acknowledges. -/
  | revokeDrainDone (kind : Nat) (root : Nat) (tree : Nat)
  /-- SNAPSHOT_DRAIN_DONE (R797): A member acknowledges STOP once no transaction or program of the partition remains. -/
  | snapshotDrainDone (partition : Nat)
  /-- TREE_UP_RETRY (R425): A member with no TREE_DOWN after RETRY_US sends its TREE_UP again. -/
  | treeUpRetry (kind : Nat) (root : Nat) (tree : Nat) (seq : Nat)
  /-- TREE_ACK_TIMEOUT (R794): A member unacknowledged for 16 × RETRY_US is marked LOST. -/
  | treeAckTimeout (kind : Nat) (root : Nat) (tree : Nat) (seq : Nat) (member : Nat)
  /-- DOMAIN_SETUP (R789): The domain root collects members' DOMAIN_SETUP and compares their CRCs. -/
  | domainSetup (pkt : Pkt)
  /-- DOMAIN_READY (R789): A member receives DOMAIN_READY and replies to its JOB_DOMAIN_CREATE. -/
  | domainReady (pkt : Pkt)
  /-- TRANSIT_LAUNCH (R466): An executing module takes a remote launch into a scheduler entry or refuses it. -/
  | transitLaunch (pkt : Pkt)
  /-- TRANSIT_CANCEL (R471): A TRANSIT_CANCEL cancels the named entry at the executing module. -/
  | transitCancel (pkt : Pkt)
  /-- TRANSIT_DONE (R468): A TRANSIT_DONE lets the issuing module complete the TRANSIT. -/
  | transitDone (pkt : Pkt)
  /-- TILE_ALLOCATION (R474): A READY entry is given its block of tiles and enters RUNNING. -/
  | tileAllocation (die : Nat)
  /-- OPERATOR_CHUNK_DONE (R475): A chunk of an operator finishes, starting consumer chunks or moving the entry to DRAINING. -/
  | operatorChunkDone (die : Nat) (entry : Nat) (op : Nat) (sram : Nat) (tile : Nat) (offset : Nat)
  /-- TRANSIT_WAIT_TIMEOUT (R470): A WAITING entry whose WAIT_LIMIT_US expires completes TIMEOUT. -/
  | transitWaitTimeout (die : Nat) (entry : Nat)
  /-- TRANSIT_PRIORITY_PROMOTION (R474): A READY entry rises one priority level after AGE_PROMOTE_US. -/
  | transitPriorityPromotion (die : Nat) (entry : Nat)
  /-- TRN_CANCEL_WRITE (R487): A write to TRN_CANCEL cancels an entry with ABORTED, CANCEL. -/
  | trnCancelWrite (fn : Nat) (die : Nat) (value : Nat)
  /-- HEAT_DECAY (R537): Each DECAY_US a holder evaluates its pages, sends proposals and halves heat. -/
  | heatDecay
  /-- PLACE_PROPOSE (R538): The home checks a proposal and starts a migration, replica or drop. -/
  | placePropose (pkt : Pkt)
  /-- MOVE_START (R543): A target reserves a frame, or an old holder starts copying the page. -/
  | moveStart (pkt : Pkt)
  /-- MOVE_COPY (R543): A target stores one 4 KiB unit of a copied page. -/
  | moveCopy (pkt : Pkt)
  /-- MOVE_DONE (R543): The home records the new holder, sends MOVE_END and starts a shoot-down, or cancels. -/
  | moveDone (pkt : Pkt)
  /-- MOVE_END (R543): Old holder and target commit or cancel the move. -/
  | moveEnd (pkt : Pkt)
  /-- THATCH_HINT (R534): A source installs the writing and read holders of a page. -/
  | thatchHint (pkt : Pkt)
  /-- COLLAPSE_NOTE (R547): A source creates a watch entry, or the home starts a collapse shoot-down. -/
  | collapseNote (pkt : Pkt)
  /-- COLLAPSE_DONE (R548): A source clears its collapse watch entries for the page. -/
  | collapseDone (pkt : Pkt)
  /-- FORWARDING_ENTRY_EXPIRY (R543): An old holder's forwarding entry expires after HOLD_MS. -/
  | forwardingEntryExpiry (home : Nat) (page : Nat)
  /-- PIN_WAIT_RETRY (R557): A move to a pin holder refused for reserve is tried again after HOLD_OFF_MS. -/
  | pinWaitRetry (page : Nat)
  /-- PROGRAM_EXCLUSION_EXPIRY (R554): A module excluded for an AUTO program becomes a candidate again. -/
  | programExclusionExpiry (program : Nat) (module : Nat)
  /-- CADENCE_BOUNDARY (R606): A cadence boundary releases periodic barriers, realigns wick queues and ends cadence waits. -/
  | cadenceBoundary (partition : Nat)
  /-- COUNT_EPOCH_BOUNDARY (R576): A COUNT_EPOCH multiple rolls over the counts of wick queues without a cadence. -/
  | countEpochBoundary
  /-- GATE_SWITCH (R610): At SWITCH_TIME the pending gate list becomes active and GATE_SWITCHED is raised. -/
  | gateSwitch (group : Nat)
  /-- FRAME_START (R614): A free link chooses a traffic class and starts a frame. -/
  | frameStart (group : Nat) (link : Nat)
  /-- QUEUE_SAMPLE_PERIOD (R619): At the end of a sampling period queue depth and sojourn statistics are published. -/
  | queueSamplePeriod
  /-- PPS_EDGE (R817): An accepted 1PPS edge marks the second for the time master. -/
  | ppsEdge
  /-- TOD_MESSAGE (R817): A time-of-day message is checked and names the next edge. -/
  | todMessage (data : Bytes)
  /-- PPS_SOURCE_LOST (R817): Three seconds without an accepted edge lose the master's source. -/
  | ppsSourceLost
  /-- PTP_SYNC (R598): A received Sync message measures the offset from the parent and steers hall time. -/
  | ptpSync (group : Nat) (link : Nat) (data : Bytes)
  /-- PTP_PDELAY_REQ (R598): A received Pdelay_Req is answered with Pdelay_Resp. -/
  | ptpPdelayReq (group : Nat) (link : Nat) (data : Bytes)
  /-- PTP_PDELAY_RESP (R598): A received Pdelay_Resp gives the link's peer delay. -/
  | ptpPdelayResp (group : Nat) (link : Nat) (data : Bytes)
  /-- SYNC_SEND (R598): The module sends Sync messages at SYNC_PER_MS on each direct link. -/
  | syncSend
  /-- PARENT_SYNC_LOST (R599): Eight Sync intervals without parent messages send the unit to HOLDOVER. -/
  | parentSyncLost
  /-- MAILBOX_SEND (R585): A TX_CTRL write with SEND loads the mailbox slot or is dropped if full. -/
  | mailboxSend (fn : Nat) (dir : Nat) (value : Nat)
  /-- MAILBOX_RECEIVE (R586): A read returning bits 63:32 of an RX register clears FULL. -/
  | mailboxReceive (fn : Nat) (dir : Nat)
  /-- FRAME_RECEIVE (R635): A received frame is judged and passed to the router, MAC control, time or link control. -/
  | frameReceive (group : Nat) (link : Nat) (data : Bytes) (ok : Bool) (note : Option (Nat × Nat × Nat))
  /-- PAUSE_EXPIRY (R639): A received pause time runs out and the paused traffic resumes. -/
  | pauseExpiry (group : Nat) (link : Nat) (prio : Nat)
  /-- PAUSE_REFRESH (R639): While above XON the MAC repeats its pause each half pause time. -/
  | pauseRefresh (group : Nat) (link : Nat) (prio : Nat)
  /-- TX_UNDERRUN (R637): A transmit buffer runs empty mid-frame; the frame is stomped and the threshold raised. -/
  | txUnderrun (group : Nat) (link : Nat)
  /-- OPTICAL_POWER_STABLE (R630): Light on all four lanes for 100 µs ends bring-up step 1. -/
  | opticalPowerStable (group : Nat) (link : Nat)
  /-- LINK_LOCK (R630): Clock recovery, alignment and FEC lock are held and the link enters EXCHANGE. -/
  | linkLock (group : Nat) (link : Nat)
  /-- TRAINING_STEP_TIMEOUT (R630): A bring-up step overrunning its limit returns the link to step 1. -/
  | trainingStepTimeout (group : Nat) (link : Nat)
  /-- HELLO (R631): A received HELLO advances exchange, updates the peer and its epoch, and carries READY and LPI flags. -/
  | hello (group : Nat) (link : Nat) (data : Bytes)
  /-- HELLO_SEND (R630): A direct link sends a HELLO every 10 µs in EXCHANGE or 100 µs in service. -/
  | helloSend (group : Nat) (link : Nat)
  /-- HELLO_LOST (R633): No HELLO for 800 µs takes a direct link out of service. -/
  | helloLost (group : Nat) (link : Nat)
  /-- SIGNAL_LOST (R633): Optical power below threshold for 1 µs takes the link out of service. -/
  | signalLost (group : Nat) (link : Nat) (signal : Nat)
  /-- ALIGN_LOST (R633): Loss of alignment-marker lock takes the link out of service. -/
  | alignLost (group : Nat) (link : Nat)
  /-- FEC_DEGRADE (R633): Too many uncorrectable codewords in a 1 ms window take the link out of service. -/
  | fecDegrade (group : Nat) (link : Nat) (count : Nat)
  /-- HELD_LINK_RETRY (R632): A HELD link returns to bring-up step 1 every 100 ms. -/
  | heldLinkRetry (group : Nat) (link : Nat)
  /-- LPI_IDLE_EXPIRY (R642): After LPI_IDLE_US of idle an eligible end requests low-power idle. -/
  | lpiIdleExpiry (group : Nat)
  /-- LPI_WAKE (R643): A QUIET group wakes and repeats lock and exchange, advancing the epoch on success. -/
  | lpiWake (group : Nat)
  /-- WAKE_TIMEOUT (R643): A wake overrunning the negotiated time takes the links out with WAKE_FAILED. -/
  | wakeTimeout (group : Nat)
  /-- CONNECTOR_OPEN (R645): An opening connector contact darkens the group's transmitters within 1 ms. -/
  | connectorOpen (group : Nat)
  /-- CONNECTOR_CLOSE (R645): A closing connector contact relights transmitters and restarts bring-up. -/
  | connectorClose (group : Nat)
  /-- CONNECTOR_DEBOUNCE (R645): A contact change held 10 ms updates PLUGGED and raises LINK_STATE. -/
  | connectorDebounce (group : Nat)
  /-- LNK_GROUP_ENABLE_CLEAR (R644): Clearing LNK_GCTL.ENABLE takes the links out as DISABLED and powers the group down. -/
  | lnkGroupEnableClear (fn : Nat) (group : Nat) (value : Nat)
  /-- LNK_GROUP_ENABLE_SET (R644): Setting LNK_GCTL.ENABLE powers the group up and starts bring-up. -/
  | lnkGroupEnableSet (fn : Nat) (group : Nat) (value : Nat)
  /-- LNK_GROUP_RETRAIN (R650): Writing LNK_GCTL.RETRAIN takes every link of the group out with RETRAIN. -/
  | lnkGroupRetrain (fn : Nat) (group : Nat) (value : Nat)
  /-- LPI_ENABLE_WRITE (R641): Writing LPI_ENABLE permits low-power idle or, when cleared, wakes a QUIET group. -/
  | lpiEnableWrite (fn : Nat) (group : Nat) (value : Nat)
  /-- LNK_LINK_DISABLE (R653): Setting LNK_LCTL.DISABLE holds the link DOWN with DISABLED. -/
  | lnkLinkDisable (fn : Nat) (group : Nat) (link : Nat)
  /-- LNK_LINK_ENABLE (R653): Clearing LNK_LCTL.DISABLE lets the link start bring-up. -/
  | lnkLinkEnable (fn : Nat) (group : Nat) (link : Nat)
  /-- LNK_LINK_RETRAIN (R653): Writing LNK_LCTL.RETRAIN takes the link out with RETRAIN. -/
  | lnkLinkRetrain (fn : Nat) (group : Nat) (link : Nat) (value : Nat)
  /-- TX_THRESHOLD_RESTORE (R637): Writing RESTORE sets the transmit start threshold to FLOOR. -/
  | txThresholdRestore (fn : Nat) (group : Nat) (value : Nat)
  /-- XLT_COMMIT (R137): Commits XLT_WALK_CFG if the walker counts sum to 32, else refuses. -/
  | xltCommit (fn : Nat)
  /-- QPE_COMMIT (R285): Commits QPE_SB_CFG and QPE_CACHE_CFG under their limits. -/
  | qpeCommit (fn : Nat)
  /-- RTR_COMMIT (R377): Commits the router's dimension, marking, flow-control and throttle set. -/
  | rtrCommit (fn : Nat)
  /-- COL_COMMIT (R434): Commits COL_LANE_CFG and COL_TREE_CFG. -/
  | colCommit (fn : Nat)
  /-- TRN_COMMIT (R480): Commits TRN_ARB_CFG and TRN_SCHED_CFG. -/
  | trnCommit (fn : Nat) (die : Nat)
  /-- PLC_COMMIT (R562): Commits the placement heat, move and forward configuration. -/
  | plcCommit (fn : Nat)
  /-- SCH_COMMIT (R620): Commits SCH_TIME_CFG and every SCH_CLASS_CFG. -/
  | schCommit (fn : Nat)
  /-- LNK_COMMIT (R649): Commits LNK_GCFG0 and LNK_GCFG1 of a group. -/
  | lnkCommit (fn : Nat) (group : Nat)
  /-- VRT_COMMIT (R710): Commits the share, generation and port limit configuration. -/
  | vrtCommit (fn : Nat)
  /-- HIF_COMMIT (R741): Commits the per-port host interface configuration and peer windows. -/
  | hifCommit (fn : Nat)
  /-- PWR_COMMIT (R769): Commits the limit, tallow, domain and voltage-point configuration. -/
  | pwrCommit (fn : Nat)
  /-- MEM_COMMIT (R807): Commits MEM_ECC_CFG and MEM_SCRUB_CFG. -/
  | memCommit (fn : Nat)
  /-- DBG_COMMIT (R832): Commits all DBG_MUX registers together. -/
  | dbgCommit (fn : Nat)
  /-- XLT_INVAL_ALL (R139): An XLT_INVAL write with ALL invalidates every cached translation. -/
  | xltInvalAll (fn : Nat)
  /-- XLT_INVAL_INSTANCE (R139): An XLT_INVAL write with ALL clear invalidates one instance's cached translations. -/
  | xltInvalInstance (fn : Nat) (inst : Nat)
  /-- TABLE_WALK_DONE (R114): A translation walk ends and fills the TLB, restarts, or faults. -/
  | tableWalkDone (walk : Nat)
  /-- TRANSLATION_DRAIN_DONE (R123): The last use of an invalidated translation ends and the waiting unmap or reset proceeds. -/
  | translationDrainDone (inst : Nat)
  /-- RTR_CLEAR_WATERMARKS (R391): Writing CLEAR_WATERMARKS sets every queue high-water mark to its occupancy. -/
  | rtrClearWatermarks (fn : Nat)
  /-- QPC_STORE_WRITE (R279): A write to QPE_QPC_BASE or QPE_QPC_SIZE sets the port's context store or is ignored. -/
  | qpcStoreWrite (fn : Nat) (size : Bool) (value : Nat)
  /-- SYN_BAR_PARTICIPANTS_WRITE (R583): Sets a barrier's participants from the next instance, or is ignored from a non-owner. -/
  | synBarParticipantsWrite (fn : Nat) (group : Nat) (value : Nat)
  /-- VRT_HOLD_WRITE (R705): Writing VRT_INST_CTRL.HOLD stops or resumes fetching for an instance. -/
  | vrtHoldWrite (fn : Nat) (value : Nat)
  /-- RESTORE_APPLY (R707): Writing APPLY restores the indices of a newly created queue of a held instance. -/
  | restoreApply (fn : Nat) (value : Nat)
  /-- SCH_HALL_TIME_LATCH_READ (R620): A 32-bit read of the low dword of SCH_HALL_TIME latches its high dword. -/
  | schHallTimeLatchRead (fn : Nat)
  /-- MEM_INJECT_ARM (R810): Setting ARM makes the next write to the selected word store an injected error. -/
  | memInjectArm (fn : Nat) (value : Nat)
  /-- SEC_ENGINE_SELF_TEST (R684): Writing 1 to a FAILED bit self-tests the engine and returns it to service if it passes. -/
  | secEngineSelfTest (fn : Nat) (value : Nat) (passed : Nat)
  /-- ELS_CLEAR_LATCH (R765): Writing CLEAR_LATCH clears a bay's load-switch latch and starts its ramp. -/
  | elsClearLatch (fn : Nat) (value : Nat)
  /-- ELS_DISABLE_WRITE (R773): Writing DISABLE holds a bay's load switch off or releases it. -/
  | elsDisableWrite (fn : Nat) (value : Nat)
  /-- HIF_WIN_BASE_WRITE (R727): A function moves its HBM window base, or the write is refused. -/
  | hifWinBaseWrite (fn : Nat) (value : Nat)
  /-- REGISTER_WRITE (R13): A host write to a register without behaviour of its own is sized, checked for authority and applied by its access code. -/
  | registerWrite (fn : Nat) (offset : Nat) (lanes : Nat) (value : Nat)
  /-- WINDOW_ACCESS (R726): A BAR2 read or write reaches the HBM window's backed bytes. -/
  | windowAccess (fn : Nat) (write : Bool) (offset : Nat) (len : Nat) (lanes : Nat) (data : Bytes)
  /-- INBOUND_REQUEST_REFUSED (R733): An inbound request from an unaccepted requester is refused and logged. -/
  | inboundRequestRefused (fn : Nat) (rid : Nat) (bar : Nat) (offset : Nat) (bytes : Nat) (write : Bool)
  /-- FIRST_CONFIG_WRITE (R733): The first configuration write after link-up records ROOT_RID. -/
  | firstConfigWrite (port : Nat) (rid : Nat)
  /-- BUS_MASTER_ENABLE_CLEAR (R737): Clearing Bus Master Enable stops a function's requests, retires its tags and holds it. -/
  | busMasterEnableClear (fn : Nat)
  /-- BUS_MASTER_ENABLE_SET (R739): Setting Bus Master Enable on a held function aborts affected operations and resumes it. -/
  | busMasterEnableSet (fn : Nat)
  /-- D3HOT_ENTRY (R737): A transition to D3hot holds the function as a Bus Master Enable clear does. -/
  | d3hotEntry (fn : Nat)
  /-- MSIX_UNMASK (R736): Enabling MSI-X or clearing a mask sends the pending messages. -/
  | msixUnmask (fn : Nat) (vector : Nat) (enable : Bool) (mask : Bool)
  /-- FUNCTION_LEVEL_RESET_VF (R740): An FLR of a virtual function resets its instance and per-function state. -/
  | functionLevelResetVf (fn : Nat)
  /-- FUNCTION_LEVEL_RESET_PF (R740): An FLR of a physical function resets it, destroys its port's VF instances and disables its admin queue. -/
  | functionLevelResetPf (port : Nat)
  /-- VF_DISABLE (R691): Disabling virtual functions destroys their instances. -/
  | vfDisable (port : Nat)
  /-- PORT_LINK_LOSS (R834): Link loss of port 1, 2 or 3 stops the port and resets its functions. -/
  | portLinkLoss (port : Nat) (burn : Bool)
  /-- PERST_ASSERT (R749): PERST# asserted powers off the host port domain. -/
  | perstAssert (port : Nat) (burn : Bool)
  /-- PERST_RELEASE (R749): PERST# released wakes the host port domain and the port trains. -/
  | perstRelease (port : Nat)
  /-- POWER_ON_RESET (R781): Power-on reset boots firmware, trains the dies and HBM and brings up ports and links. -/
  | powerOnReset (deadDies : Nat) (deadStacks : Nat) (engines : Nat) (burn : Bool)
  /-- MODULE_RESET (R778): Link loss of port 0 or a BMC request resets every instance, advances the epoch and reloads firmware. -/
  | moduleReset (loss : Bool) (burn : Bool)
  /-- WATCHDOG_EXPIRY (R779): An unserviced watchdog halts the control processor. -/
  | watchdogExpiry (addr : Nat)
  /-- CODE_WRITE (R779): A write to locked code SRAM halts the control processor. -/
  | codeWrite (addr : Nat)
  /-- SRAM_UE (R779): An uncorrectable error in control-processor SRAM halts it. -/
  | sramUe (addr : Nat) (offset : Nat)
  /-- CP_FAULT (R779): An illegal instruction or bus error halts the control processor. -/
  | cpFault (addr : Nat)
  /-- CP_RESTART (R779): A halted control processor restarts and reloads firmware, or stays halted after a third halt. -/
  | cpRestart (burn : Bool)
  /-- SCRUB_READ (R802): The patrol scrub reads a word and rewrites corrected or poisoned data. -/
  | scrubRead (word : Nat)
  /-- CE_HOUR_ROLLOVER (R802): At each whole hour a stack's correction count is checked and restarted. -/
  | ceHourRollover (stack : Nat)
  /-- ENTROPY_STARTUP_PASS (R672): 1,024 start-up samples pass and the entropy source enters OK. -/
  | entropyStartupPass
  /-- ENTROPY_HEALTH_FAIL (R672): A health-test failure returns the source to STARTING or, after three, to FAILED. -/
  | entropyHealthFail
  /-- DRBG_RESEED (R671): A DRBG is reseeded after 2^20 requests or 1 s. -/
  | drbgReseed (generator : Nat)
  /-- ESTIMATOR_TICK (R754): Each µs the power unit estimates power and sets bubbles and tallow. -/
  | estimatorTick (counts : List Nat)
  /-- CAL_GAIN_UPDATE (R752): Every 100 ms the estimator gain is updated from measured power. -/
  | calGainUpdate (volts : Nat) (amps : Nat) (watts : Nat)
  /-- POWER_HINT_EFFECT (R759): A hint takes effect when hall time reaches AT. -/
  | powerHintEffect
  /-- DOMAIN_IDLE_OFF (R749): A switched domain idle for its time is powered off. -/
  | domainIdleOff (domain : Nat)
  /-- DOMAIN_WAKE_START (R750): A needed domain begins to wake within the per-µs wake limit. -/
  | domainWakeStart
  /-- DROOP_DETECT (R760): A supply droop makes the die's clock skip every second cycle. -/
  | droopDetect (die : Nat)
  /-- DROOP_SKIP_END (R760): After 32 cycles without a new detection the clock stops skipping. -/
  | droopSkipEnd (die : Nat)
  /-- SENSOR_SAMPLE (R761): Every 100 µs the sensors are read and level changes act and raise THERMAL. -/
  | sensorSample (temps : List Int)
  /-- VPOINT_STEP_DOWN (R763): Each ms a cause holds, the transit die steps down one voltage point. -/
  | vpointStepDown (die : Nat)
  /-- VPOINT_STEP_UP (R763): Each 10 ms without a cause, the transit die steps up one point. -/
  | vpointStepUp (die : Nat)
  /-- OE_REPOWER (R761): An optical engine powered down at CRITICAL powers up after 1 s below WARN. -/
  | oeRepower (group : Nat)
  /-- ELS_PRESENCE_CLOSE (R765): An ELS bay's presence contact closes. -/
  | elsPresenceClose (bay : Nat)
  /-- ELS_RAMP_START (R765): 10 ms after presence the load switch begins its gate ramp. -/
  | elsRampStart (bay : Nat)
  /-- ELS_TRIP (R765): 200 µs at the current limit trips and latches the load switch. -/
  | elsTrip (bay : Nat)
  /-- ELS_PRESENCE_OPEN (R765): A presence contact open for 10 ms clears the bay's latch. -/
  | elsPresenceOpen (bay : Nat)
  /-- SUPPLY_LOW (R766): Input below 42 V for 1 ms raises SUPPLY_LOW. -/
  | supplyLow
  /-- SUPPLY_FAULT (R766): Input out of range for 20 µs, or thermal CRITICAL, starts the shut-down sequence. -/
  | supplyFault (high : Bool)
  /-- POWER_UP (R767): After a shut-down, power-up begins once 100 ms in range have passed. -/
  | powerUp
  /-- SERVICE_BUTTON_SHORT (R822): A press released before 2 s raises SERVICE_BUTTON SHORT. -/
  | serviceButtonShort (ms : Nat)
  /-- SERVICE_BUTTON_LONG (R822): A press held 5 s raises SERVICE_BUTTON LONG. -/
  | serviceButtonLong
  /-- LIFE_LOG_HOURLY (R828): Counters and histograms are written to the life log once per hour. -/
  | lifeLogHourly (ok : Bool)
  /-- GET_TID (R818): The PLDM GetTID command returns the terminus ID. -/
  | getTid
  /-- GET_PLDM_VERSION (R818): The PLDM GetPLDMVersion command returns a type's version. -/
  | getPldmVersion (typ : Nat)
  /-- GET_PLDM_TYPES (R818): The PLDM GetPLDMTypes command returns the supported types. -/
  | getPldmTypes
  /-- GET_PLDM_COMMANDS (R818): The PLDM GetPLDMCommands command returns the supported commands. -/
  | getPldmCommands (typ : Nat)
  /-- GET_PDR_REPOSITORY_INFO (R818): Returns information on the PDR repository. -/
  | getPdrRepositoryInfo
  /-- GET_PDR (R818): Returns one PDR record. -/
  | getPdr (record : Nat)
  /-- GET_SENSOR_READING (R818): Returns a power or temperature reading. -/
  | getSensorReading (sensor : Nat)
  /-- GET_STATE_EFFECTER_STATES (R818): Returns the state of the power or LOCATE effecter. -/
  | getStateEffecterStates (effecter : Nat)
  /-- MODULE_POWER_ON (R819): The power effecter state ON powers up a module that is off. -/
  | modulePowerOn
  /-- MODULE_POWER_OFF (R819): The power effecter state OFF starts shut-down with cause BMC_OFF. -/
  | modulePowerOff
  /-- MODULE_POWER_RESET (R819): The power effecter state RESET performs a module reset. -/
  | modulePowerReset (burn : Bool)
  /-- LOCATE_EFFECTER_SET (R821): Setting the LOCATE effecter requests the locate lamp pattern. -/
  | locateEffecterSet (lit : Bool)
  /-- SET_NUMERIC_EFFECTER_VALUE (R818): The cap effecter sets CAP_W. -/
  | setNumericEffecterValue (value : Nat)
  /-- GET_NUMERIC_EFFECTER_VALUE (R818): Returns the cap effecter's value. -/
  | getNumericEffecterValue
  /-- UNSUPPORTED_PLDM_COMMAND (R818): Any other PLDM command is answered ERROR_UNSUPPORTED_PLDM_CMD. -/
  | unsupportedPldmCommand (typ : Nat) (cmd : Nat)
  /-- REQUEST_UPDATE (R831): Recovery firmware update: starts an update session. -/
  | requestUpdate
  /-- PASS_COMPONENT_TABLE (R831): Recovery firmware update: names the firmware image component. -/
  | passComponentTable
  /-- UPDATE_COMPONENT (R831): Recovery firmware update: starts the component transfer. -/
  | updateComponent
  /-- REQUEST_FIRMWARE_DATA (R831): Recovery firmware update: a block of image data arrives. -/
  | requestFirmwareData (data : Bytes)
  /-- TRANSFER_COMPLETE (R831): Recovery firmware update: the transfer ends. -/
  | transferComplete
  /-- VERIFY_COMPLETE (R831): Recovery firmware update: the image is verified and written to bank 0, or fails. -/
  | verifyComplete
  /-- APPLY_COMPLETE (R831): Recovery firmware update: the image is applied. -/
  | applyComplete
  /-- ACTIVATE_FIRMWARE (R831): Recovery firmware update: starts a load of the new image. -/
  | activateFirmware (deadDies : Nat) (deadStacks : Nat) (engines : Nat) (burn : Bool)
  /-- SWITCHED_LINK_IN_SERVICE (R630): A switched link whose FEC lock has been held for 1 ms enters IN_SERVICE directly. -/
  | switchedLinkInService (group : Nat) (link : Nat)
  /-- ELS_CONTACT_OPEN (R765): An ELS bay's presence contact opens, its load switch turns off and the four groups it lights lose LIGHT and leave with reason LASER. -/
  | elsContactOpen (bay : Nat)
  /-- ELS_RAMP_END (R646): The 2 ms gate ramp of an ELS load switch completes, LIGHT returns to 1 and the groups' links leave DOWN. -/
  | elsRampEnd (bay : Nat)
  /-- DOMAIN_WAKE_DONE (R749): A waking switched domain finishes its wake time, is powered and releases the work that waited for it in the always-on side. -/
  | domainWakeDone (domain : Nat)
  /-- TCLK_RELOCK_DONE (R763): A transit die's TCLK relocks after a voltage-point step, and its tiles, scheduler and arbiters resume after their 10 µs stop. -/
  | tclkRelockDone (die : Nat)
  /-- SUPPLY_GOOD (R766): The 48 V input returns above the low threshold and PWR_STATUS.SUPPLY returns from LOW to GOOD. -/
  | supplyGood
  /-- PCIE_LINK_UP (R746): A host port's PCIe link finishes training and HIF_PORT_INFO.LINK reaches UP. -/
  | pcieLinkUp (port : Nat) (width : Nat) (rate : Nat)
  /-- VF_ENABLE (R691): The host sets SR-IOV VF Enable, so the port's virtual functions appear and may have instances created for them. -/
  | vfEnable (port : Nat) (count : Nat)
  /-- D3HOT_EXIT (R737): A function returns from D3hot to D0 and, with Bus Master Enable set, ceases to be held as under R739. -/
  | d3hotExit (fn : Nat)
  /-- FLASH_WRITE_DONE (R784): Programming and read-back of the serial flash completes, so FIRMWARE_STAGE or CAL_WRITE replies and the staged or written value stands. -/
  | flashWriteDone (ok : Bool)
  deriving DecidableEq, Repr

end Sys2Proof
end

