-- ==== Sys2Proof/Decode.lean ====
section
/-!
DEFINITION. Reading a command from the bits of the opcode table. The table gives none of its rows a bit pattern, so no
word spells a command (log 5).
-/

namespace Sys2Proof

/-- The command that an `nbits`-bit word spells by the table's bits: none (log 5). -/
def decodeTableWord (_nbits _w : Nat) : Option Instr := none

end Sys2Proof
end

