-- ==== Sys2Proof/Config.lean ====
section
/-!
DEFINITION. The free values of the model: constants without a body, so that no proof can see a value of them. Each
is named in an entry of the assumption log.
-/

namespace Sys2Proof.Config

/-- A fresh free word: the n-th value that the spec leaves open (an entropy draw, a choice among equals). Log 2. -/
opaque free : Nat → BitVec 64

/-- 2^x of the special-function unit as a function of the FP32 operand's bits (R444): which of the two faithful results it is, and the result
where the spec states none. Log 3. -/
opaque exp2 : BitVec 32 → BitVec 32

/-- log2 of the special-function unit (R444), likewise. Log 3. -/
opaque log2 : BitVec 32 → BitVec 32

/-- The reciprocal of the special-function unit (R444), likewise. Log 3. -/
opaque rcp : BitVec 32 → BitVec 32

/-- The reciprocal square root of the special-function unit (R444), likewise. Log 3. -/
opaque rsqrt : BitVec 32 → BitVec 32

/-- The code of a NaN element in a block whose scale is supplied, by the block's scale exponent (R502). Log 97. -/
opaque nanCode : Int → BitVec 4

/-- Which tile of its block a program entry uses for the access to a 64-byte unit (R476): entry and unit. Log 81. -/
opaque accessTile : Nat → Nat → Nat

/-- The SHA-384 of the public key of an index, as the fuses hold it (R674), as a big-endian number. Log 44. -/
opaque rootKeyHash : Nat → BitVec 384

/-- The fuses KEY_REVOKED, one bit for each key index (R674). Log 44. -/
opaque keyRevoked : BitVec 4

/-- The serial number in the header of the life log, 16 ASCII bytes (R827). Log 44. -/
opaque serial : BitVec 128

/-- The versions that GetPLDMVersion answers for PLDM types 0, 2 and 5 (R818). Log 45. -/
opaque pldmVersion : Nat → BitVec 32

end Sys2Proof.Config
end

