-- ==== Sys2Proof/Machine/Bits.lean ====
section
/-!
DEFINITION. Bit fields, byte strings, ring arithmetic and check codes, as the spec's conventions give them (R16 to
R19, R147, R208).
-/

namespace Sys2Proof.Machine

/-- Bits [hi:lo] of a number. -/
def bits (n hi lo : Nat) : Nat := (n >>> lo) % 2 ^ (hi + 1 - lo)

/-- Bit `i` of a number. -/
def bit (n i : Nat) : Bool := bits n i i == 1

/-- A number with bits [hi:lo] replaced by `v`. -/
def setBits (n hi lo v : Nat) : Nat :=
  bits n (lo - 1) 0 * (if lo = 0 then 0 else 1) + (v % 2 ^ (hi + 1 - lo)) * 2 ^ lo + (n >>> (hi + 1)) * 2 ^ (hi + 1)

/-- Bits [hi:lo] of a register value. -/
def fld (w : Word) (hi lo : Nat) : Nat := bits w.toNat hi lo

/-- A register value with bits [hi:lo] replaced by `v`. -/
def setFld (w : Word) (hi lo v : Nat) : Word :=
  let m : Word := BitVec.ofNat 64 ((2 ^ (hi + 1 - lo) - 1) * 2 ^ lo)
  (w &&& ~~~m) ||| (BitVec.ofNat 64 (v % 2 ^ (hi + 1 - lo) * 2 ^ lo))

/-- 1 for true. -/
def b2n (b : Bool) : Nat := if b then 1 else 0

/-- The little-endian bytes of a number, `n` of them (R17). -/
def leBytes : Nat → Nat → Bytes
  | 0, _ => []
  | n + 1, v => BitVec.ofNat 8 v :: leBytes n (v / 256)

/-- The number that little-endian bytes spell (R17). -/
def leNat : Bytes → Nat
  | [] => 0
  | b :: bs => b.toNat + 256 * leNat bs

/-- The big-endian bytes of a number, `n` of them (wire headers). -/
def beBytes (n v : Nat) : Bytes := (leBytes n v).reverse

/-- The number that big-endian bytes spell. -/
def beNat (bs : Bytes) : Nat := leNat bs.reverse

/-- Bytes `off` to `off + len - 1` of a byte string; bytes past its end read as zero. -/
def slice (bs : Bytes) (off len : Nat) : Bytes :=
  let t := (bs.drop off).take len
  t ++ List.replicate (len - t.length) 0

/-- The little-endian number in bytes `off` to `off + len - 1`. -/
def leAt (bs : Bytes) (off len : Nat) : Nat := leNat (slice bs off len)

/-- A byte string of `n` zeros. -/
def zeros (n : Nat) : Bytes := List.replicate n 0

/-- A byte string with `new` written over it at `off`; the string is never lengthened. -/
def overlay (bs : Bytes) (off : Nat) (new : Bytes) : Bytes :=
  bs.take off ++ (new.take (bs.length - off)) ++ bs.drop (off + new.length)

/-- The ASCII bytes of a string. -/
def ascii (s : String) : Bytes := s.toList.map fun c => BitVec.ofNat 8 c.toNat

/-- 2^24, the modulus of every ring index (R147). -/
def ringMod : Nat := 0x1000000

/-- The ring slot that an index names (R147). -/
def slotOf (index log2Size : Nat) : Nat := index % 2 ^ log2Size

/-- The distance from one ring index to another, modulo 2^24 (R147). -/
def distance (src dst : Nat) : Nat := (dst + ringMod - src % ringMod) % ringMod

/-- A ring index advanced by `n` (R147). -/
def advance (index n : Nat) : Nat := (index + n) % ringMod

/-- The phase bit written at a ring index: 1 on the first pass, 0 on the second, and so on (R167, R707). -/
def phaseAt (index log2Size : Nat) : Nat := if (index / 2 ^ log2Size) % 2 = 0 then 1 else 0

/-- Whether 32-bit sequence number `a` is newer than `b` (R321, R532). -/
def seqNewer (a b : Nat) : Bool :=
  let d := (a + 2 ^ 32 - b % 2 ^ 32) % 2 ^ 32
  d != 0 && decide (d < 2 ^ 31)

/-- A value clipped to a maximum (a saturating count). -/
def sat (max n : Nat) : Nat := if n ≤ max then n else max

/-- The least multiple of `a` that is not below `n`. -/
def alignUp (n a : Nat) : Nat := (n + a - 1) / a * a

/-- One step of a reflected CRC with the polynomial `poly`. -/
def crcBit (poly c : Nat) : Nat := if c % 2 = 1 then (c / 2) ^^^ poly else c / 2

/-- `n` steps of a reflected CRC. -/
def crcBits (poly : Nat) : Nat → Nat → Nat
  | 0, c => c
  | n + 1, c => crcBits poly n (crcBit poly c)

/-- CRC-32 of IEEE 802.3 (polynomial 0x04C1_1DB7 reflected) over a byte string. -/
def crc32 (bs : Bytes) : Nat :=
  (bs.foldl (fun c b => crcBits 0xEDB88320 8 (c ^^^ b.toNat)) 0xFFFFFFFF) ^^^ 0xFFFFFFFF

/-- One bit step of the CRC-16 of R817, most significant bit first. -/
def crc16Bits : Nat → Nat → Nat
  | 0, c => c
  | n + 1, c => crc16Bits n (if c / 0x8000 % 2 = 1 then ((c * 2) % 0x10000) ^^^ 0x1021 else (c * 2) % 0x10000)

/-- CRC-16 with polynomial 0x1021 and initial value 0xFFFF (R817). -/
def crc16 (bs : Bytes) : Nat := bs.foldl (fun c b => crc16Bits 8 (c ^^^ (b.toNat * 256))) 0xFFFF

/-- Split a byte string into pieces of `n` bytes, the last one possibly shorter; `fuel` bounds the pieces. -/
def chunks (n : Nat) : Nat → Bytes → List Bytes
  | 0, _ => []
  | fuel + 1, bs => if bs.isEmpty then [] else bs.take n :: chunks n fuel (bs.drop n)

/-- The sum of a list of numbers. -/
def sumList (l : List Nat) : Nat := l.foldl (· + ·) 0

/-- The number of ones among the lowest `n` bits. -/
def popcount : Nat → Nat → Nat
  | 0, _ => 0
  | n + 1, v => v % 2 + popcount n (v / 2)

/-- The smallest element of a list, or `d`. -/
def minList (d : Nat) (l : List Nat) : Nat := l.foldl min d

end Sys2Proof.Machine
end

