-- ==== Sys2Proof/Machine/Regs.lean ====
section
/-!
DEFINITION. The registers of the module, written out from the register and field tables of the spec (R50, R132,
R190, R237, R285, R336, R377, R434, R480, R562, R589, R593, R620, R649, R681, R710, R741, R769, R807, R832) over the
block bases of R719. One constant per register name; an indexed register takes its indices as arguments.
-/

namespace Sys2Proof.Machine

/-- Which copies of a register there are: one for the module, one per physical function, or one per function. -/
inductive RegScope where
  | module | port | function
  deriving DecidableEq, Repr

/-- A register: its offset in the BAR0 of port 0's physical function (R719) and the value it holds after reset (R18). -/
structure Reg where
  addr : Nat
  reset : BitVec 64
  deriving DecidableEq, Repr

/-- A row of a register table with the access codes of its fields (R13) as masks; a bit in no mask is RO.
`dims` are the counts and strides of its indices. -/
structure RegSpec where
  name : String
  reg : Reg
  dims : List (Nat × Nat)
  width : Nat
  scope : RegScope
  rw : BitVec 64
  w1c : BitVec 64
  w1s : BitVec 64
  wo : BitVec 64
  rws : BitVec 64
  deriving DecidableEq, Repr

/-- GLB_ID (R50): Device code, stepping, architecture version. -/
def Reg.GLB_ID : Reg := ⟨0x0, 0x4b384210⟩
/-- GLB_VARIANT (R50): Ordering variant. Reset: fuse. -/
def Reg.GLB_VARIANT : Reg := ⟨0x4, 0⟩
/-- GLB_CAP0 (R50): Feature capabilities. Reset: fuse. -/
def Reg.GLB_CAP0 : Reg := ⟨0x8, 0⟩
/-- GLB_DIE_STATUS (R50): Dies powered, trained and in service. -/
def Reg.GLB_DIE_STATUS : Reg := ⟨0x10, 0⟩
/-- GLB_SCRATCH (R50): Scratch for access tests; no effect on operation. -/
def Reg.GLB_SCRATCH : Reg := ⟨0x1C, 0⟩

/-- HIF_CAP (R741): Ports, vectors, tags. -/
def Reg.HIF_CAP : Reg := ⟨0x100000, 0x47ff3f40⟩
/-- HIF_ERR (R741): Sticky error flags of this function. -/
def Reg.HIF_ERR : Reg := ⟨0x100004, 0⟩
/-- HIF_COMMIT (R741): Commits the shadowed set. -/
def Reg.HIF_COMMIT : Reg := ⟨0x100008, 0⟩
/-- HIF_FN_STATUS (R741): This function's state. Reset: See R745. -/
def Reg.HIF_FN_STATUS : Reg := ⟨0x10000C, 0⟩
/-- HIF_WIN_BASE (R741): This function's window base. -/
def Reg.HIF_WIN_BASE : Reg := ⟨0x100010, 0⟩
/-- HIF_ACCESS_LOG (R741): Last dropped or refused host access. -/
def Reg.HIF_ACCESS_LOG : Reg := ⟨0x100018, 0⟩
/-- HIF_PORT_CFG (R741): Requester filter, completion timeout. -/
def Reg.HIF_PORT_CFG (p : Nat) : Reg := ⟨0x100100 + 256 * p, 0x80002710⟩
/-- HIF_PORT_INFO (R741): Link state of port p. -/
def Reg.HIF_PORT_INFO (p : Nat) : Reg := ⟨0x100104 + 256 * p, 0⟩
/-- HIF_PORT_RID (R741): Root and accelerator requester IDs. -/
def Reg.HIF_PORT_RID (p : Nat) : Reg := ⟨0x100108 + 256 * p, 0⟩
/-- HIF_PEER_BASE (R741): Start of peer window w. -/
def Reg.HIF_PEER_BASE (p : Nat) (w : Nat) : Reg := ⟨0x100110 + 256 * p + 16 * w, 0⟩
/-- HIF_PEER_LIMIT (R741): Last page of peer window w. -/
def Reg.HIF_PEER_LIMIT (p : Nat) (w : Nat) : Reg := ⟨0x100118 + 256 * p + 16 * w, 0⟩
/-- HIF_LATE_CPL_COUNT (R741): Completions for retired tags. -/
def Reg.HIF_LATE_CPL_COUNT (p : Nat) : Reg := ⟨0x100180 + 256 * p, 0⟩
/-- HIF_CPL_TIMEOUT_COUNT (R741): Requests timed out. -/
def Reg.HIF_CPL_TIMEOUT_COUNT (p : Nat) : Reg := ⟨0x100188 + 256 * p, 0⟩
/-- HIF_ERR_CPL_COUNT (R741): Error and poisoned completions. -/
def Reg.HIF_ERR_CPL_COUNT (p : Nat) : Reg := ⟨0x100190 + 256 * p, 0⟩
/-- HIF_REFUSED_COUNT (R741): Inbound requests refused. -/
def Reg.HIF_REFUSED_COUNT (p : Nat) : Reg := ⟨0x100198 + 256 * p, 0⟩
/-- HIF_DROPPED_WRITE_COUNT (R741): Inbound writes dropped. -/
def Reg.HIF_DROPPED_WRITE_COUNT (p : Nat) : Reg := ⟨0x1001A0 + 256 * p, 0⟩

/-- ADM_CAP (R237): Versions, commands in progress, ring limits. -/
def Reg.ADM_CAP : Reg := ⟨0x200000, 0x101040cc⟩
/-- ADM_CTRL (R237): Enable, interrupt, ring sizes. -/
def Reg.ADM_CTRL : Reg := ⟨0x200004, 0x606⟩
/-- ADM_STATUS (R237): State, negotiated version, error reason. -/
def Reg.ADM_STATUS : Reg := ⟨0x200008, 0x100000⟩
/-- ADM_ERR (R237): Sticky error flags. -/
def Reg.ADM_ERR : Reg := ⟨0x20000C, 0⟩
/-- ADM_CMD_BASE (R237): Command ring bus address. -/
def Reg.ADM_CMD_BASE : Reg := ⟨0x200010, 0⟩
/-- ADM_REPLY_BASE (R237): Reply ring bus address. -/
def Reg.ADM_REPLY_BASE : Reg := ⟨0x200018, 0⟩
/-- ADM_CMD_PRODUCER (R237): Admin doorbell. -/
def Reg.ADM_CMD_PRODUCER : Reg := ⟨0x200020, 0⟩
/-- ADM_CMD_FETCH (R237): Next command unit to read. -/
def Reg.ADM_CMD_FETCH : Reg := ⟨0x200024, 0⟩
/-- ADM_REPLY_CONSUMER (R237): Next reply software will read. -/
def Reg.ADM_REPLY_CONSUMER : Reg := ⟨0x200028, 0⟩
/-- ADM_REPLY_PRODUCER (R237): Next reply the module will write. -/
def Reg.ADM_REPLY_PRODUCER : Reg := ⟨0x20002C, 0⟩
/-- ADM_EXPERT_UNLOCKED (R237): Blocks unlocked. -/
def Reg.ADM_EXPERT_UNLOCKED : Reg := ⟨0x200030, 0⟩
/-- ADM_EXPERT_DROP_ADDR (R237): Offset of the last dropped expert write. -/
def Reg.ADM_EXPERT_DROP_ADDR : Reg := ⟨0x200034, 0⟩
/-- ADM_EXPERT_DROP_COUNT (R237): Dropped expert writes. -/
def Reg.ADM_EXPERT_DROP_COUNT : Reg := ⟨0x200038, 0⟩
/-- ADM_CMD_DISCARD_COUNT (R237): Commands discarded by function reset. -/
def Reg.ADM_CMD_DISCARD_COUNT : Reg := ⟨0x200040, 0⟩

/-- XLT_CAP (R132): Walkers, TLB size, page sizes. -/
def Reg.XLT_CAP : Reg := ⟨0x800000, 0x20100f⟩
/-- XLT_STATUS (R132): Walkers busy, miss queue depth. -/
def Reg.XLT_STATUS : Reg := ⟨0x800004, 0⟩
/-- XLT_ERR (R132): Sticky error flags. -/
def Reg.XLT_ERR : Reg := ⟨0x800008, 0⟩
/-- XLT_DIRTY_THRESHOLD (R132): Newly dirty bits that raise DIRTY_LOG_FULL. -/
def Reg.XLT_DIRTY_THRESHOLD : Reg := ⟨0x80000C, 0x100000⟩
/-- XLT_WALK_CFG (R132): Walker reservation per port. -/
def Reg.XLT_WALK_CFG : Reg := ⟨0x800010, 0x1004⟩
/-- XLT_COMMIT (R132): Commits XLT_WALK_CFG. -/
def Reg.XLT_COMMIT : Reg := ⟨0x800014, 0⟩
/-- XLT_INVAL (R132): Invalidates TLB and walk cache. -/
def Reg.XLT_INVAL : Reg := ⟨0x800018, 0⟩
/-- XLT_FAULT_SEL (R132): Selects a fault log entry. -/
def Reg.XLT_FAULT_SEL : Reg := ⟨0x80001C, 0⟩
/-- XLT_FAULT_ADDR (R132): Address of the selected fault. -/
def Reg.XLT_FAULT_ADDR : Reg := ⟨0x800020, 0⟩
/-- XLT_FAULT_INFO (R132): Kind and instance of the selected fault. -/
def Reg.XLT_FAULT_INFO : Reg := ⟨0x800028, 0⟩
/-- XLT_FAULT_HEAD (R132): Next log entry to be written. -/
def Reg.XLT_FAULT_HEAD : Reg := ⟨0x80002C, 0⟩
/-- XLT_HIT_COUNT (R132): TLB hits. -/
def Reg.XLT_HIT_COUNT : Reg := ⟨0x800030, 0⟩
/-- XLT_MISS_COUNT (R132): TLB misses. -/
def Reg.XLT_MISS_COUNT : Reg := ⟨0x800038, 0⟩
/-- XLT_WALK_READ_COUNT (R132): Table lines read by walkers. -/
def Reg.XLT_WALK_READ_COUNT : Reg := ⟨0x800040, 0⟩
/-- XLT_FAULT_COUNT (R132): Translation faults. -/
def Reg.XLT_FAULT_COUNT : Reg := ⟨0x800048, 0⟩

/-- QPE_QUEUE_CAP (R190): Ring size limits, chain hop limit. -/
def Reg.QPE_QUEUE_CAP : Reg := ⟨0xD00000, 0x14101000⟩
/-- QPE_QUEUE_ERR (R190): Sticky queue error flags. -/
def Reg.QPE_QUEUE_ERR : Reg := ⟨0xD00004, 0⟩
/-- QPE_CQ_FULL_WAIT (R190): Hold time for a full completion queue. -/
def Reg.QPE_CQ_FULL_WAIT : Reg := ⟨0xD00008, 0x3e8⟩
/-- QPE_DOORBELL_DROP_COUNT (R190): Dropped doorbell writes. -/
def Reg.QPE_DOORBELL_DROP_COUNT : Reg := ⟨0xD00010, 0⟩
/-- QPE_LANTERN_LOST_COUNT (R190): Dropped events. -/
def Reg.QPE_LANTERN_LOST_COUNT : Reg := ⟨0xD00018, 0⟩
/-- QPE_LQ_CONSUMER (R190): Lantern consumer index and arm, n < 512. -/
def Reg.QPE_LQ_CONSUMER (n : Nat) : Reg := ⟨0xD01000 + 8 * n, 0⟩
/-- QPE_LQ_STATE (R190): Lantern state, n < 512; LOST is W1C, the other fields RO. -/
def Reg.QPE_LQ_STATE (n : Nat) : Reg := ⟨0xD02000 + 8 * n, 0⟩
/-- QPE_WQ_STATE (R190): Work queue state, n < 65,536; ENABLE is RW (R186), the other fields RO. -/
def Reg.QPE_WQ_STATE (n : Nat) : Reg := ⟨0xD10000 + 8 * n, 0⟩
/-- QPE_WQ_INDEX (R190): Work queue FETCH and HEAD, n < 65,536. -/
def Reg.QPE_WQ_INDEX (n : Nat) : Reg := ⟨0xD90000 + 8 * n, 0⟩
/-- QPE_CQ_STATE (R190): Completion queue state, n < 65,536, every number of the pool of R692. -/
def Reg.QPE_CQ_STATE (n : Nat) : Reg := ⟨0xE10000 + 8 * n, 0⟩
/-- QPE_CQ_INDEX (R190): Completion queue indices, n < 65,536; the array ends at 0x0030_FFFF. -/
def Reg.QPE_CQ_INDEX (n : Nat) : Reg := ⟨0xE90000 + 8 * n, 0⟩
/-- QPE_CAP (R285): Scoreboard, cache and context sizes. -/
def Reg.QPE_CAP : Reg := ⟨0xC00000, 0x40201004⟩
/-- QPE_STATUS (R285): Contexts cached and pinned. -/
def Reg.QPE_STATUS : Reg := ⟨0xC00004, 0⟩
/-- QPE_ERR (R285): Sticky error flags. -/
def Reg.QPE_ERR : Reg := ⟨0xC00008, 0⟩
/-- QPE_COMMIT (R285): Commits the shadowed set. -/
def Reg.QPE_COMMIT : Reg := ⟨0xC0000C, 0⟩
/-- QPE_SB_CFG (R285): Per-queue-pair limit, collective reserve. -/
def Reg.QPE_SB_CFG : Reg := ⟨0xC00010, 0x1001000⟩
/-- QPE_CACHE_CFG (R285): Responder reserve. -/
def Reg.QPE_CACHE_CFG : Reg := ⟨0xC00014, 0x400⟩
/-- QPE_SCOREBOARD_USED (R285): Entries in use. -/
def Reg.QPE_SCOREBOARD_USED : Reg := ⟨0xC00018, 0⟩
/-- QPE_QP_SEL (R285): Queue pair shown by QPE_QP_INFO. -/
def Reg.QPE_QP_SEL : Reg := ⟨0xC0001C, 0⟩
/-- QPE_QPC_BASE (R285): Context store address of the port. -/
def Reg.QPE_QPC_BASE : Reg := ⟨0xC00020, 0⟩
/-- QPE_QPC_SIZE (R285): Context store size of the port. -/
def Reg.QPE_QPC_SIZE : Reg := ⟨0xC00028, 0⟩
/-- QPE_QPC_USED (R285): Slots allocated on the port. -/
def Reg.QPE_QPC_USED : Reg := ⟨0xC0002C, 0⟩
/-- QPE_QP_INFO (R285): State of the selected queue pair. -/
def Reg.QPE_QP_INFO : Reg := ⟨0xC00030, 0⟩
/-- QPE_CACHE_FILL_COUNT (R285): Context fills. -/
def Reg.QPE_CACHE_FILL_COUNT : Reg := ⟨0xC00038, 0⟩
/-- QPE_CACHE_SPILL_COUNT (R285): Context spills. -/
def Reg.QPE_CACHE_SPILL_COUNT : Reg := ⟨0xC00040, 0⟩
/-- QPE_SCOREBOARD_FULL_COUNT (R285): FCLK cycles with an allocation waiting. -/
def Reg.QPE_SCOREBOARD_FULL_COUNT : Reg := ⟨0xC00048, 0⟩
/-- QPE_TXN_COUNT (R285): Transactions allocated. -/
def Reg.QPE_TXN_COUNT : Reg := ⟨0xC00050, 0⟩
/-- QPE_QP_ERROR_COUNT (R285): Entries of queue pairs into ERROR. -/
def Reg.QPE_QP_ERROR_COUNT : Reg := ⟨0xC00058, 0⟩
/-- QPE_XPT_ENCAP (R336): EtherType, switched payload size. -/
def Reg.QPE_XPT_ENCAP : Reg := ⟨0xC01000, 0x88b50000⟩
/-- QPE_XPT_TIMER (R336): Retransmission timer and retry limit. -/
def Reg.QPE_XPT_TIMER : Reg := ⟨0xC01004, 0x7600040⟩
/-- QPE_XPT_ACK (R336): Acknowledgement coalescing, fast retransmission. -/
def Reg.QPE_XPT_ACK : Reg := ⟨0xC01008, 0x31001f4⟩
/-- QPE_XPT_ESCALATE (R336): Escalation of timeouts. -/
def Reg.QPE_XPT_ESCALATE : Reg := ⟨0xC0100C, 1⟩
/-- QPE_MODULE_EPOCH (R336): Module epoch. -/
def Reg.QPE_MODULE_EPOCH : Reg := ⟨0xC01010, 0⟩
/-- QPE_GUTTER_SEL (R336): Cause shown by QPE_GUTTER_CAUSE_COUNT. -/
def Reg.QPE_GUTTER_SEL : Reg := ⟨0xC01014, 1⟩
/-- QPE_GUTTER_COUNT (R336): Everything the gutter took. -/
def Reg.QPE_GUTTER_COUNT : Reg := ⟨0xC01018, 0⟩
/-- QPE_GUTTER_CAUSE_COUNT (R336): Gutter count of the selected cause. -/
def Reg.QPE_GUTTER_CAUSE_COUNT : Reg := ⟨0xC01020, 0⟩
/-- QPE_RETX_COUNT (R336): Retransmissions. -/
def Reg.QPE_RETX_COUNT : Reg := ⟨0xC01028, 0⟩
/-- QPE_XPT_TIMEOUT_COUNT (R336): Entries ended at the retry limit. -/
def Reg.QPE_XPT_TIMEOUT_COUNT : Reg := ⟨0xC01030, 0⟩
/-- QPE_XPT_IPV6_PREFIX (R336): Upper 64 bits of the module's IPv6 addresses. -/
def Reg.QPE_XPT_IPV6_PREFIX : Reg := ⟨0xC01038, 0⟩
/-- QPE_XPT_NEXT_HOP_MAC (R336): Switch address for link group g, g < 8. -/
def Reg.QPE_XPT_NEXT_HOP_MAC (g : Nat) : Reg := ⟨0xC01100 + 8 * g, 0⟩

/-- RTR_CAP (R377): Throttle entries, buffers, fibre limit, VCs, dimensions. -/
def Reg.RTR_CAP : Reg := ⟨0x1000000, 0x4403244⟩
/-- RTR_STATUS (R377): Groups routable and paused. -/
def Reg.RTR_STATUS : Reg := ⟨0x1000004, 0⟩
/-- RTR_ERR (R377): Sticky error flags. -/
def Reg.RTR_ERR : Reg := ⟨0x1000008, 0⟩
/-- RTR_COMMIT (R377): Commits the shadowed set. -/
def Reg.RTR_COMMIT : Reg := ⟨0x100000C, 0⟩
/-- RTR_COORD (R377): This module's coordinates. -/
def Reg.RTR_COORD : Reg := ⟨0x1000010, 0⟩
/-- RTR_RING_SIZE (R377): Ring sizes in force. -/
def Reg.RTR_RING_SIZE : Reg := ⟨0x1000014, 0x1010101⟩
/-- RTR_TOPO (R377): Mode and switched groups. -/
def Reg.RTR_TOPO : Reg := ⟨0x1000018, 0⟩
/-- RTR_DIM_CTL (R377): Direction mode and break per dimension. -/
def Reg.RTR_DIM_CTL : Reg := ⟨0x100001C, 0⟩
/-- RTR_MARK_CFG (R377): ECN marking thresholds. -/
def Reg.RTR_MARK_CFG : Reg := ⟨0x1000020, 0x40100020⟩
/-- RTR_LINK_FC (R377): Pause thresholds, hop limit. -/
def Reg.RTR_LINK_FC : Reg := ⟨0x1000024, 0x602010⟩
/-- RTR_THROTTLE_CFG0 (R377): Gain, fast steps, minimum rate. -/
def Reg.RTR_THROTTLE_CFG0 : Reg := ⟨0x1000028, 0x45000064⟩
/-- RTR_THROTTLE_CFG1 (R377): Alpha period, cut gap. -/
def Reg.RTR_THROTTLE_CFG1 : Reg := ⟨0x100002C, 0x32000a⟩
/-- RTR_THROTTLE_CFG2 (R377): Increase period and step. -/
def Reg.RTR_THROTTLE_CFG2 : Reg := ⟨0x1000030, 0x1403e8⟩
/-- RTR_NOTIFY_CFG (R377): CONGESTION threshold and gap. -/
def Reg.RTR_NOTIFY_CFG : Reg := ⟨0x1000034, 0xa0200⟩
/-- RTR_INJECT_CFG (R377): Injection hold. -/
def Reg.RTR_INJECT_CFG : Reg := ⟨0x1000038, 0x80⟩
/-- RTR_CTRL (R377): Clears high-water marks. -/
def Reg.RTR_CTRL : Reg := ⟨0x100003C, 0⟩
/-- RTR_PORT_SEL (R377): Port shown by the port counters. -/
def Reg.RTR_PORT_SEL : Reg := ⟨0x1000040, 0⟩
/-- RTR_THROTTLE_STATUS (R377): Throttle entries in use. -/
def Reg.RTR_THROTTLE_STATUS : Reg := ⟨0x1000044, 0⟩
/-- RTR_CABLE_ERR (R377): Last cabling failure. -/
def Reg.RTR_CABLE_ERR : Reg := ⟨0x1000048, 0⟩
/-- RTR_PORT_PKT_COUNT (R377): R374. -/
def Reg.RTR_PORT_PKT_COUNT : Reg := ⟨0x1000050, 0⟩
/-- RTR_PORT_BYTE_COUNT (R377): R374. -/
def Reg.RTR_PORT_BYTE_COUNT : Reg := ⟨0x1000058, 0⟩
/-- RTR_PORT_STALL_PAUSE_COUNT (R377): R374. -/
def Reg.RTR_PORT_STALL_PAUSE_COUNT : Reg := ⟨0x1000060, 0⟩
/-- RTR_PORT_STALL_ARB_COUNT (R377): R374. -/
def Reg.RTR_PORT_STALL_ARB_COUNT : Reg := ⟨0x1000068, 0⟩
/-- RTR_PORT_MARK_COUNT (R377): R374. -/
def Reg.RTR_PORT_MARK_COUNT : Reg := ⟨0x1000070, 0⟩
/-- RTR_NO_ROUTE_COUNT (R377): Drops: no route. -/
def Reg.RTR_NO_ROUTE_COUNT : Reg := ⟨0x1000080, 0⟩
/-- RTR_HOP_LIMIT_COUNT (R377): Drops: hop limit. -/
def Reg.RTR_HOP_LIMIT_COUNT : Reg := ⟨0x1000088, 0⟩
/-- RTR_OVERFLOW_COUNT (R377): Drops: receive overflow. -/
def Reg.RTR_OVERFLOW_COUNT : Reg := ⟨0x1000090, 0⟩
/-- RTR_QDEPTH (R377): Output queue of group g, class c. -/
def Reg.RTR_QDEPTH (g : Nat) (c : Nat) : Reg := ⟨0x1000100 + 32 * g + 4 * c, 0⟩
/-- RTR_EJECT_QDEPTH (R377): Ejection queue of class c. -/
def Reg.RTR_EJECT_QDEPTH (c : Nat) : Reg := ⟨0x1000200 + 4 * c, 0⟩

/-- LNK_GCAP (R649): Links, lanes, wake time, versions. -/
def Reg.LNK_GCAP (g : Nat) : Reg := ⟨0x1400000 + 0x20000 * g, 0x84141010⟩
/-- LNK_GCTL (R649): Enable, low-power idle, pause ignore, switched version. -/
def Reg.LNK_GCTL (g : Nat) : Reg := ⟨0x1400004 + 0x20000 * g, 0x801003e8⟩
/-- LNK_GSTATUS (R649): Connector, power, light, idle state, links in service. -/
def Reg.LNK_GSTATUS (g : Nat) : Reg := ⟨0x1400008 + 0x20000 * g, 0⟩
/-- LNK_GERR (R649): Sticky error flags. -/
def Reg.LNK_GERR (g : Nat) : Reg := ⟨0x140000C + 0x20000 * g, 0⟩
/-- LNK_COMMIT (R649): Commits the shadowed set. -/
def Reg.LNK_COMMIT (g : Nat) : Reg := ⟨0x1400010 + 0x20000 * g, 0⟩
/-- LNK_GCFG0 (R649): Pause time, switched thresholds. -/
def Reg.LNK_GCFG0 (g : Nat) : Reg := ⟨0x1400014 + 0x20000 * g, 0xffff1008⟩
/-- LNK_GCFG1 (R649): Flow-control mode, wake time, FEC degrade. -/
def Reg.LNK_GCFG1 (g : Nat) : Reg := ⟨0x1400018 + 0x20000 * g, 0x80140010⟩
/-- LNK_TX_THRESHOLD (R649): Transmit start threshold (R637). -/
def Reg.LNK_TX_THRESHOLD (g : Nat) : Reg := ⟨0x140001C + 0x20000 * g, 0x1000100⟩
/-- LNK_LPI_COUNT (R649): Low-power idle episodes. -/
def Reg.LNK_LPI_COUNT (g : Nat) : Reg := ⟨0x1400020 + 0x20000 * g, 0⟩
/-- LNK_LSTATUS (R649): State of link j. -/
def Reg.LNK_LSTATUS (g : Nat) (j : Nat) : Reg := ⟨0x1400100 + 0x20000 * g + 32 * j, 0⟩
/-- LNK_LPEER (R649): Peer of link j. -/
def Reg.LNK_LPEER (g : Nat) (j : Nat) : Reg := ⟨0x1400108 + 0x20000 * g + 32 * j, 0⟩
/-- LNK_LCTL (R649): Disable and retrain link j. -/
def Reg.LNK_LCTL (g : Nat) (j : Nat) : Reg := ⟨0x1400110 + 0x20000 * g + 32 * j, 0⟩
/-- LNK_LCOUNT (R649): Counter k of link j (R654). -/
def Reg.LNK_LCOUNT (g : Nat) (j : Nat) (k : Nat) : Reg := ⟨0x1401000 + 0x20000 * g + 256 * j + 8 * k, 0⟩

/-- COL_CAP (R434): Window, adder clusters, groups. -/
def Reg.COL_CAP : Reg := ⟨0x1800000, 0xc002ff⟩
/-- COL_STATUS (R434): Groups defined, collectives in progress. -/
def Reg.COL_STATUS : Reg := ⟨0x1800004, 0⟩
/-- COL_ERR (R434): Sticky error flags. -/
def Reg.COL_ERR : Reg := ⟨0x1800008, 0⟩
/-- COL_COMMIT (R434): Commits the shadowed set. -/
def Reg.COL_COMMIT : Reg := ⟨0x180000C, 0⟩
/-- COL_LANE_CFG (R434): Lanes used by collectives. -/
def Reg.COL_LANE_CFG : Reg := ⟨0x1800010, 0xff⟩
/-- COL_TREE_CFG (R434): Tree retry time, class of global operations. -/
def Reg.COL_TREE_CFG : Reg := ⟨0x1800014, 0x140007⟩
/-- COL_GROUP_SEL (R434): Group shown by the group registers. -/
def Reg.COL_GROUP_SEL : Reg := ⟨0x1800018, 0⟩
/-- COL_GROUP_INFO (R434): Selected group: roles, ranks, weight. -/
def Reg.COL_GROUP_INFO : Reg := ⟨0x1800020, 0⟩
/-- COL_GROUP_SEQ (R434): Selected group: next sequence number. -/
def Reg.COL_GROUP_SEQ : Reg := ⟨0x1800028, 0⟩
/-- COL_GROUP_CROSSOVER (R434): Selected group: CROSSOVER in force. -/
def Reg.COL_GROUP_CROSSOVER : Reg := ⟨0x180002C, 0⟩
/-- COL_OP_COUNT (R434): Collectives completed. -/
def Reg.COL_OP_COUNT : Reg := ⟨0x1800030, 0⟩
/-- COL_INEXACT_COUNT (R434): Elements written from INEXACT sets. -/
def Reg.COL_INEXACT_COUNT : Reg := ⟨0x1800038, 0⟩
/-- COL_ADD_COUNT (R434): Limb additions. -/
def Reg.COL_ADD_COUNT : Reg := ⟨0x1800040, 0⟩
/-- COL_ABORT_COUNT (R434): Aborts received. -/
def Reg.COL_ABORT_COUNT : Reg := ⟨0x1800048, 0⟩
/-- COL_TREE_RETRY_COUNT (R434): TREE_UP packets sent again. -/
def Reg.COL_TREE_RETRY_COUNT : Reg := ⟨0x1800050, 0⟩

/-- TRN_CAP (R480): Tiles, SRAM, entries, operators. -/
def Reg.TRN_CAP (d : Nat) : Reg := ⟨0x1C00000 + 0x100000 * d, 0x4010ff10⟩
/-- TRN_STATUS (R480): Tiles busy, entries in use and running. -/
def Reg.TRN_STATUS (d : Nat) : Reg := ⟨0x1C00004 + 0x100000 * d, 0⟩
/-- TRN_ERR (R480): Sticky error flags. -/
def Reg.TRN_ERR (d : Nat) : Reg := ⟨0x1C00008 + 0x100000 * d, 0⟩
/-- TRN_COMMIT (R480): Commits the shadowed set. -/
def Reg.TRN_COMMIT (d : Nat) : Reg := ⟨0x1C0000C + 0x100000 * d, 0⟩
/-- TRN_ARB_CFG (R480): Arbiter priorities, park, age limit. -/
def Reg.TRN_ARB_CFG (d : Nat) : Reg := ⟨0x1C00010 + 0x100000 * d, 0x80100100⟩
/-- TRN_SCHED_CFG (R480): Program aging, reserved tiles. -/
def Reg.TRN_SCHED_CFG (d : Nat) : Reg := ⟨0x1C00014 + 0x100000 * d, 0x640000⟩
/-- TRN_PROG_SEL (R480): Program shown by the program registers. -/
def Reg.TRN_PROG_SEL (d : Nat) : Reg := ⟨0x1C00018 + 0x100000 * d, 0⟩
/-- TRN_ENTRY_SEL (R480): Entry shown by TRN_ENTRY_INFO. -/
def Reg.TRN_ENTRY_SEL (d : Nat) : Reg := ⟨0x1C0001C + 0x100000 * d, 0⟩
/-- TRN_PROG_INFO (R480): Selected program. -/
def Reg.TRN_PROG_INFO (d : Nat) : Reg := ⟨0x1C00020 + 0x100000 * d, 0⟩
/-- TRN_PROG_DIGEST (R480): Digest of the selected program. -/
def Reg.TRN_PROG_DIGEST (d : Nat) : Reg := ⟨0x1C00028 + 0x100000 * d, 0⟩
/-- TRN_ENTRY_INFO (R480): Selected scoreboard entry. -/
def Reg.TRN_ENTRY_INFO (d : Nat) : Reg := ⟨0x1C00030 + 0x100000 * d, 0⟩
/-- TRN_CANCEL (R480): Cancels an entry. -/
def Reg.TRN_CANCEL (d : Nat) : Reg := ⟨0x1C00038 + 0x100000 * d, 0⟩
/-- TRN_LAUNCH_COUNT (R480): Entries launched. -/
def Reg.TRN_LAUNCH_COUNT (d : Nat) : Reg := ⟨0x1C00040 + 0x100000 * d, 0⟩
/-- TRN_ABORT_COUNT (R480): Entries ended by a cancel. -/
def Reg.TRN_ABORT_COUNT (d : Nat) : Reg := ⟨0x1C00048 + 0x100000 * d, 0⟩
/-- TRN_TILE_CYCLE_COUNT (R480): Tile-cycles spent running programs. -/
def Reg.TRN_TILE_CYCLE_COUNT (d : Nat) : Reg := ⟨0x1C00050 + 0x100000 * d, 0⟩
/-- TRN_SAT_COUNT (R480): Output elements saturated (R453). -/
def Reg.TRN_SAT_COUNT (d : Nat) : Reg := ⟨0x1C00058 + 0x100000 * d, 0⟩
/-- TRN_ARB_LATE_WITHDRAW_COUNT (R480): Late withdrawals (R478). -/
def Reg.TRN_ARB_LATE_WITHDRAW_COUNT (d : Nat) : Reg := ⟨0x1C00060 + 0x100000 * d, 0⟩
/-- TRN_ARB_PARK_HIT_COUNT (R480): Accesses entered through a park. -/
def Reg.TRN_ARB_PARK_HIT_COUNT (d : Nat) : Reg := ⟨0x1C00068 + 0x100000 * d, 0⟩

/-- PLC_CAP (R562): Replicas, moves, shoot-downs, cache size. -/
def Reg.PLC_CAP : Reg := ⟨0x2000000, 0xc104040⟩
/-- PLC_STATUS (R562): Moves and shoot-downs in progress. -/
def Reg.PLC_STATUS : Reg := ⟨0x2000004, 0⟩
/-- PLC_ERR (R562): Sticky error flags. -/
def Reg.PLC_ERR : Reg := ⟨0x2000008, 0⟩
/-- PLC_COMMIT (R562): Commits the shadowed set. -/
def Reg.PLC_COMMIT : Reg := ⟨0x200000C, 0⟩
/-- PLC_HEAT_CFG (R562): Decay period, hold-off. -/
def Reg.PLC_HEAT_CFG : Reg := ⟨0x2000010, 0x3e8000a⟩
/-- PLC_MOVE_CFG (R562): Copy rate, copies at once, traffic class. -/
def Reg.PLC_MOVE_CFG : Reg := ⟨0x2000014, 0x19001001⟩
/-- PLC_FORWARD_CFG (R562): Forwarding entry lifetime. -/
def Reg.PLC_FORWARD_CFG : Reg := ⟨0x2000018, 0x10⟩
/-- PLC_EVENT_MASK (R562): Reasons that raise PLACEMENT. -/
def Reg.PLC_EVENT_MASK : Reg := ⟨0x200001C, 0x1d0⟩
/-- PLC_PAGE_SEL (R562): Page of this home shown by the page registers. -/
def Reg.PLC_PAGE_SEL : Reg := ⟨0x2000020, 0⟩
/-- PLC_RESERVE_SEL (R562): Partition shown by PLC_RESERVE_INFO. -/
def Reg.PLC_RESERVE_SEL : Reg := ⟨0x2000024, 0⟩
/-- PLC_THATCH_INFO (R562): Thatch entry of the selected page. -/
def Reg.PLC_THATCH_INFO : Reg := ⟨0x2000028, 0⟩
/-- PLC_HEAT_INFO (R562): Heat of the selected page as held here. -/
def Reg.PLC_HEAT_INFO : Reg := ⟨0x2000030, 0⟩
/-- PLC_RESERVE_INFO (R562): Reserve and frames in use. -/
def Reg.PLC_RESERVE_INFO : Reg := ⟨0x2000038, 0⟩
/-- PLC_PROG_SEL (R562): Program and slot shown by PLC_OPERAND_HEAT. -/
def Reg.PLC_PROG_SEL : Reg := ⟨0x2000040, 0⟩
/-- PLC_OPERAND_HEAT (R562): Operand heat (R555). -/
def Reg.PLC_OPERAND_HEAT : Reg := ⟨0x2000048, 0⟩
/-- PLC_MOVE_COUNT (R562): Moves committed. -/
def Reg.PLC_MOVE_COUNT : Reg := ⟨0x2000050, 0⟩
/-- PLC_REPLICA_COUNT (R562): Replicas added. -/
def Reg.PLC_REPLICA_COUNT : Reg := ⟨0x2000058, 0⟩
/-- PLC_COLLAPSE_COUNT (R562): Collapses completed. -/
def Reg.PLC_COLLAPSE_COUNT : Reg := ⟨0x2000060, 0⟩
/-- PLC_SHOOT_DOWN_COUNT (R562): Shoot-downs completed. -/
def Reg.PLC_SHOOT_DOWN_COUNT : Reg := ⟨0x2000068, 0⟩
/-- PLC_PROPOSAL_DROP_COUNT (R562): Proposals and stale messages dropped. -/
def Reg.PLC_PROPOSAL_DROP_COUNT : Reg := ⟨0x2000070, 0⟩
/-- PLC_REFUSE_COUNT (R562): Moves refused by a target. -/
def Reg.PLC_REFUSE_COUNT : Reg := ⟨0x2000078, 0⟩
/-- PLC_FORWARD_COUNT (R562): Accesses forwarded. -/
def Reg.PLC_FORWARD_COUNT : Reg := ⟨0x2000080, 0⟩
/-- PLC_HOLDER_LOST_COUNT (R562): Entries acted on under R550. -/
def Reg.PLC_HOLDER_LOST_COUNT : Reg := ⟨0x2000088, 0⟩

/-- SYN_CAP (R589): Wick queues and barriers. -/
def Reg.SYN_CAP : Reg := ⟨0x2400000, 0x100000ff⟩
/-- SYN_STATUS (R589): Queues and waiters in use. -/
def Reg.SYN_STATUS : Reg := ⟨0x2400004, 0⟩
/-- SYN_ERR (R589): Sticky error flags. -/
def Reg.SYN_ERR : Reg := ⟨0x2400008, 0⟩
/-- SYN_WICK_SEL (R589): Queue shown by the wick registers. -/
def Reg.SYN_WICK_SEL : Reg := ⟨0x240000C, 0⟩
/-- SYN_BAR_SEL (R589): Barrier shown by SYN_BAR_INFO. -/
def Reg.SYN_BAR_SEL : Reg := ⟨0x2400010, 0⟩
/-- SYN_WICK_INFO (R589): Selected queue: state and count. -/
def Reg.SYN_WICK_INFO : Reg := ⟨0x2400018, 0⟩
/-- SYN_WICK_DEPTH (R589): Selected queue: depth, pending, waiters. -/
def Reg.SYN_WICK_DEPTH : Reg := ⟨0x2400020, 0⟩
/-- SYN_WICK_CURRENT (R589): Selected queue: PRODUCED, CONSUMED. -/
def Reg.SYN_WICK_CURRENT : Reg := ⟨0x2400028, 0⟩
/-- SYN_WICK_LAST (R589): Selected queue: LAST_PRODUCED, LAST_CONSUMED. -/
def Reg.SYN_WICK_LAST : Reg := ⟨0x2400030, 0⟩
/-- SYN_WICK_INDEX (R589): Selected queue: epoch index. -/
def Reg.SYN_WICK_INDEX : Reg := ⟨0x2400038, 0⟩
/-- SYN_BAR_INFO (R589): Selected barrier. -/
def Reg.SYN_BAR_INFO : Reg := ⟨0x2400040, 0⟩
/-- SYN_TOKEN_COUNT (R589): Tokens accepted. -/
def Reg.SYN_TOKEN_COUNT : Reg := ⟨0x2400060, 0⟩
/-- SYN_OVERFLOW_COUNT (R589): Tokens discarded at the depth. -/
def Reg.SYN_OVERFLOW_COUNT : Reg := ⟨0x2400068, 0⟩
/-- SYN_STALE_TOKEN_COUNT (R589): Tokens discarded for an old tag. -/
def Reg.SYN_STALE_TOKEN_COUNT : Reg := ⟨0x2400070, 0⟩
/-- SYN_OWNER_RESET_COUNT (R589): Waits ended OWNER_RESET. -/
def Reg.SYN_OWNER_RESET_COUNT : Reg := ⟨0x2400078, 0⟩
/-- SYN_DRIFT_COUNT (R589): Boundaries with drift. -/
def Reg.SYN_DRIFT_COUNT : Reg := ⟨0x2400080, 0⟩
/-- SYN_BAR_PARTICIPANTS (R589): Participants of barrier g, g < 256. -/
def Reg.SYN_BAR_PARTICIPANTS (g : Nat) : Reg := ⟨0x2400100 + 4 * g, 1⟩

/-- SCH_CAP (R620): Classes, gate entries, cadences. -/
def Reg.SCH_CAP : Reg := ⟨0x2800000, 0x8040010⟩
/-- SCH_STATUS (R620): Pending and gated groups, cadences held. -/
def Reg.SCH_STATUS : Reg := ⟨0x2800004, 0⟩
/-- SCH_ERR (R620): Sticky error flags. -/
def Reg.SCH_ERR : Reg := ⟨0x2800008, 0⟩
/-- SCH_COMMIT (R620): Commits the shadowed set. -/
def Reg.SCH_COMMIT : Reg := ⟨0x280000C, 0⟩
/-- SCH_TIME_CFG (R620): Sync rate, load and lock thresholds. -/
def Reg.SCH_TIME_CFG : Reg := ⟨0x2800010, 0x103e014⟩
/-- SCH_TIME_STATUS (R620): Time state, master, parent. -/
def Reg.SCH_TIME_STATUS : Reg := ⟨0x2800014, 0⟩
/-- SCH_TIME_OFFSET (R620): Last measured offset. -/
def Reg.SCH_TIME_OFFSET : Reg := ⟨0x2800018, 0⟩
/-- SCH_TIME_MASTER_INFO (R620): Master module. -/
def Reg.SCH_TIME_MASTER_INFO : Reg := ⟨0x280001C, 0⟩
/-- SCH_HALL_TIME (R620): Hall time. -/
def Reg.SCH_HALL_TIME : Reg := ⟨0x2800020, 0⟩
/-- SCH_SAMPLE_CFG (R620): Sampling period. -/
def Reg.SCH_SAMPLE_CFG : Reg := ⟨0x2800028, 0x64⟩
/-- SCH_CADENCE_SEL (R620): Cadence shown by the cadence registers. -/
def Reg.SCH_CADENCE_SEL : Reg := ⟨0x280002C, 0⟩
/-- SCH_CADENCE_INFO (R620): Selected cadence. -/
def Reg.SCH_CADENCE_INFO : Reg := ⟨0x2800030, 0⟩
/-- SCH_CADENCE_START (R620): START of the cadence in force. -/
def Reg.SCH_CADENCE_START : Reg := ⟨0x2800038, 0⟩
/-- SCH_CADENCE_NEXT (R620): Next boundary of the cadence. -/
def Reg.SCH_CADENCE_NEXT : Reg := ⟨0x2800040, 0⟩
/-- SCH_BOUNDARY_COUNT (R620): Boundaries applied. -/
def Reg.SCH_BOUNDARY_COUNT : Reg := ⟨0x2800050, 0⟩
/-- SCH_BOUNDARY_SKIP_COUNT (R620): Boundaries skipped (R601). -/
def Reg.SCH_BOUNDARY_SKIP_COUNT : Reg := ⟨0x2800058, 0⟩
/-- SCH_GATE_SWITCH_COUNT (R620): Gate list switches. -/
def Reg.SCH_GATE_SWITCH_COUNT : Reg := ⟨0x2800060, 0⟩
/-- SCH_TIME_LOAD_COUNT (R620): Hall-time loads. -/
def Reg.SCH_TIME_LOAD_COUNT : Reg := ⟨0x2800068, 0⟩
/-- SCH_PTP_IGNORE_COUNT (R620): PTP messages ignored. -/
def Reg.SCH_PTP_IGNORE_COUNT : Reg := ⟨0x2800070, 0⟩
/-- SCH_GATE_STATUS (R620): Active list of group g. -/
def Reg.SCH_GATE_STATUS (g : Nat) : Reg := ⟨0x2801000 + 256 * g, 0x400000ff⟩
/-- SCH_GATE_BASE (R620): Base time of the active list. -/
def Reg.SCH_GATE_BASE (g : Nat) : Reg := ⟨0x2801008 + 256 * g, 0⟩
/-- SCH_GATE_PENDING_TIME (R620): SWITCH_TIME of the pending list. -/
def Reg.SCH_GATE_PENDING_TIME (g : Nat) : Reg := ⟨0x2801010 + 256 * g, 0⟩
/-- SCH_GUARD_STALL_COUNT (R620): Cycles held by the guard. -/
def Reg.SCH_GUARD_STALL_COUNT (g : Nat) : Reg := ⟨0x2801018 + 256 * g, 0⟩
/-- SCH_CLASS_CFG (R620): Quantum, strict, shaper, policer. -/
def Reg.SCH_CLASS_CFG (g : Nat) (c : Nat) : Reg := ⟨0x2801040 + 256 * g + 8 * c, 0x2000⟩
/-- SCH_QSAMPLE (R620): Samples of output queue (g, c). -/
def Reg.SCH_QSAMPLE (g : Nat) (c : Nat) : Reg := ⟨0x2801080 + 256 * g + 8 * c, 0⟩
/-- SCH_POLICE_DROP_COUNT (R620): Packets dropped by the policer. -/
def Reg.SCH_POLICE_DROP_COUNT (g : Nat) (c : Nat) : Reg := ⟨0x28010C0 + 256 * g + 8 * c, 0⟩
/-- SCH_EJECT_QSAMPLE (R620): Samples of ejection queue c. -/
def Reg.SCH_EJECT_QSAMPLE (c : Nat) : Reg := ⟨0x2801800 + 8 * c, 0⟩

/-- SEC_CAP (R681): Engines, key slots, buffers, segment size. Reset: fuse. -/
def Reg.SEC_CAP : Reg := ⟨0x2C00000, 0⟩
/-- SEC_STATUS (R681): Entropy, boot, engines in service. -/
def Reg.SEC_STATUS : Reg := ⟨0x2C00004, 0⟩
/-- SEC_ERR (R681): Sticky error flags. -/
def Reg.SEC_ERR : Reg := ⟨0x2C00008, 0⟩
/-- SEC_ENGINE_FAIL (R681): Retired engines. -/
def Reg.SEC_ENGINE_FAIL : Reg := ⟨0x2C0000C, 0⟩
/-- SEC_KEY_STATUS (R681): Key slots in use. -/
def Reg.SEC_KEY_STATUS : Reg := ⟨0x2C00010, 0⟩
/-- SEC_KEY_SEL (R681): Slot shown by SEC_KEY_INFO. -/
def Reg.SEC_KEY_SEL : Reg := ⟨0x2C00014, 0⟩
/-- SEC_KEY_INFO (R681): Selected slot. -/
def Reg.SEC_KEY_INFO : Reg := ⟨0x2C00018, 0⟩
/-- SEC_FW_INFO (R681): Running build and SVNs. -/
def Reg.SEC_FW_INFO : Reg := ⟨0x2C00020, 0⟩
/-- SEC_FW_DIGEST (R681): Digest of the running image. -/
def Reg.SEC_FW_DIGEST (i : Nat) : Reg := ⟨0x2C00040 + 8 * i, 0⟩
/-- SEC_ENCRYPT_BYTE_COUNT (R681): Data bytes encrypted. -/
def Reg.SEC_ENCRYPT_BYTE_COUNT : Reg := ⟨0x2C00080, 0⟩
/-- SEC_DECRYPT_BYTE_COUNT (R681): Data bytes released after verification. -/
def Reg.SEC_DECRYPT_BYTE_COUNT : Reg := ⟨0x2C00088, 0⟩
/-- SEC_TAG_FAILURE_COUNT (R681): Segments that failed their tag. -/
def Reg.SEC_TAG_FAILURE_COUNT : Reg := ⟨0x2C00090, 0⟩
/-- SEC_COMPARE_COUNT (R681): Compare mismatches. -/
def Reg.SEC_COMPARE_COUNT : Reg := ⟨0x2C00098, 0⟩
/-- SEC_ENTROPY_RESTART_COUNT (R681): Health-test restarts. -/
def Reg.SEC_ENTROPY_RESTART_COUNT : Reg := ⟨0x2C000A0, 0⟩

/-- VRT_MBX_UP_TX (R593): MESSAGE to the parent. -/
def Reg.VRT_MBX_UP_TX : Reg := ⟨0x3100000, 0⟩
/-- VRT_MBX_UP_TX_CTRL (R593): Send to the parent. -/
def Reg.VRT_MBX_UP_TX_CTRL : Reg := ⟨0x3100008, 0⟩
/-- VRT_MBX_UP_RX (R593): MESSAGE from the parent (R586). -/
def Reg.VRT_MBX_UP_RX : Reg := ⟨0x3100010, 0⟩
/-- VRT_MBX_UP_RX_INFO (R593): State of the slot from the parent. -/
def Reg.VRT_MBX_UP_RX_INFO : Reg := ⟨0x3100018, 0⟩
/-- VRT_MBX_DOWN_SEL (R593): Child instance. -/
def Reg.VRT_MBX_DOWN_SEL : Reg := ⟨0x3100100, 0⟩
/-- VRT_MBX_DOWN_TX (R593): MESSAGE to the child. -/
def Reg.VRT_MBX_DOWN_TX : Reg := ⟨0x3100108, 0⟩
/-- VRT_MBX_DOWN_TX_CTRL (R593): Send to the child. -/
def Reg.VRT_MBX_DOWN_TX_CTRL : Reg := ⟨0x3100110, 0⟩
/-- VRT_MBX_DOWN_RX (R593): MESSAGE from the child (R586). -/
def Reg.VRT_MBX_DOWN_RX : Reg := ⟨0x3100118, 0⟩
/-- VRT_MBX_DOWN_RX_INFO (R593): State of the slot from the child. -/
def Reg.VRT_MBX_DOWN_RX_INFO : Reg := ⟨0x3100120, 0⟩
/-- VRT_MBX_PENDING (R593): Children with messages, k < 16. -/
def Reg.VRT_MBX_PENDING (k : Nat) : Reg := ⟨0x3100200 + 4 * k, 0⟩
/-- VRT_MBX_DROP_COUNT (R593): Sends and writes dropped. -/
def Reg.VRT_MBX_DROP_COUNT : Reg := ⟨0x3100300, 0⟩
/-- VRT_CAP (R710): Instances, functions per port, ports. -/
def Reg.VRT_CAP : Reg := ⟨0x3000000, 0x2007f40⟩
/-- VRT_STATUS (R710): Instances existing and held. -/
def Reg.VRT_STATUS : Reg := ⟨0x3000004, 0x40000⟩
/-- VRT_ERR (R710): Sticky error flags. -/
def Reg.VRT_ERR : Reg := ⟨0x3000008, 0⟩
/-- VRT_COMMIT (R710): Commits the shadowed set. -/
def Reg.VRT_COMMIT : Reg := ⟨0x300000C, 0⟩
/-- VRT_SHARE_CFG (R710): Scoreboard limit per instance, share unit. -/
def Reg.VRT_SHARE_CFG : Reg := ⟨0x3000010, 0x80000040⟩
/-- VRT_GEN_CFG (R710): Generation quarantine. -/
def Reg.VRT_GEN_CFG : Reg := ⟨0x3000014, 0x10⟩
/-- VRT_INST_SEL (R710): Instance shown by the instance registers. -/
def Reg.VRT_INST_SEL : Reg := ⟨0x3000018, 0⟩
/-- VRT_INST_CTRL (R710): Hold of the selected instance. -/
def Reg.VRT_INST_CTRL : Reg := ⟨0x300001C, 0⟩
/-- VRT_INST_INFO (R710): State of the selected instance. -/
def Reg.VRT_INST_INFO : Reg := ⟨0x3000020, 0⟩
/-- VRT_INST_HBM_BASE (R710): Start of its HBM range (R693). -/
def Reg.VRT_INST_HBM_BASE : Reg := ⟨0x3000028, 0⟩
/-- VRT_INST_HBM (R710): Frames allotted, tables in use. -/
def Reg.VRT_INST_HBM : Reg := ⟨0x3000030, 0⟩
/-- VRT_INST_QP (R710): QP quota and use. -/
def Reg.VRT_INST_QP : Reg := ⟨0x3000038, 0⟩
/-- VRT_INST_SKYLIGHT (R710): Skylight quota and use. -/
def Reg.VRT_INST_SKYLIGHT : Reg := ⟨0x3000040, 0⟩
/-- VRT_INST_POOL_LIMIT (R710): Pool allotments. -/
def Reg.VRT_INST_POOL_LIMIT : Reg := ⟨0x3000048, 0⟩
/-- VRT_INST_POOL_USED (R710): Pool use. -/
def Reg.VRT_INST_POOL_USED : Reg := ⟨0x3000050, 0⟩
/-- VRT_RESTORE_TARGET (R710): Restore target, apply, result. -/
def Reg.VRT_RESTORE_TARGET : Reg := ⟨0x3000058, 0⟩
/-- VRT_RESTORE_VALUE (R710): Restore values. -/
def Reg.VRT_RESTORE_VALUE : Reg := ⟨0x3000060, 0⟩
/-- VRT_INST_ISSUE_COUNT (R710): Wire units issued by the selected instance. -/
def Reg.VRT_INST_ISSUE_COUNT : Reg := ⟨0x3000068, 0⟩
/-- VRT_RESET_COUNT (R710): Resets and destructions. -/
def Reg.VRT_RESET_COUNT : Reg := ⟨0x3000070, 0⟩
/-- VRT_PORT_LIMIT (R710): Caps on the instances of port p, p < 4. -/
def Reg.VRT_PORT_LIMIT (p : Nat) : Reg := ⟨0x3000080 + 8 * p, 0x4000000100000⟩

/-- PWR_CAP (R769): Domains, sensors, points, design limit. -/
def Reg.PWR_CAP : Reg := ⟨0x3400000, 0x504484e2⟩
/-- PWR_STATUS (R769): Supply, capping, tallow. -/
def Reg.PWR_STATUS : Reg := ⟨0x3400004, 0⟩
/-- PWR_ERR (R769): Sticky error flags. -/
def Reg.PWR_ERR : Reg := ⟨0x3400008, 0⟩
/-- PWR_COMMIT (R769): Commits the shadowed set. -/
def Reg.PWR_COMMIT : Reg := ⟨0x340000C, 0⟩
/-- PWR_LIMIT_CFG (R769): Cap, window, bubble limit. -/
def Reg.PWR_LIMIT_CFG : Reg := ⟨0x3400010, 0xc0a03e8⟩
/-- PWR_TALLOW_CFG (R769): Floor, hold, slope. -/
def Reg.PWR_TALLOW_CFG : Reg := ⟨0x3400014, 0x19010⟩
/-- PWR_DOMAIN_CFG (R769): Idle times, wake rate, tallow triggers. -/
def Reg.PWR_DOMAIN_CFG : Reg := ⟨0x3400018, 0xa0a0a4c⟩
/-- PWR_VPOINT_LIMIT (R769): Fastest point permitted per die. -/
def Reg.PWR_VPOINT_LIMIT : Reg := ⟨0x340001C, 0⟩
/-- PWR_POWER (R769): Measured, estimated and window power. -/
def Reg.PWR_POWER : Reg := ⟨0x3400020, 0⟩
/-- PWR_SUPPLY (R769): 48 V voltage and current. -/
def Reg.PWR_SUPPLY : Reg := ⟨0x3400028, 0⟩
/-- PWR_CAL_GAIN (R769): Calibration gain. -/
def Reg.PWR_CAL_GAIN : Reg := ⟨0x340002C, 0x1000⟩
/-- PWR_TILE_ON (R769): Tile-pair domains on. -/
def Reg.PWR_TILE_ON : Reg := ⟨0x3400030, 0⟩
/-- PWR_DOMAIN_ON (R769): Other domains on. -/
def Reg.PWR_DOMAIN_ON : Reg := ⟨0x3400038, 0⟩
/-- PWR_VPOINT (R769): Voltage-table points in force. -/
def Reg.PWR_VPOINT : Reg := ⟨0x340003C, 0⟩
/-- PWR_THERM_SEL (R769): Sensor shown by PWR_THERM_INFO. -/
def Reg.PWR_THERM_SEL : Reg := ⟨0x3400040, 0⟩
/-- PWR_THERM_INFO (R769): Selected sensor. -/
def Reg.PWR_THERM_INFO : Reg := ⟨0x3400048, 0⟩
/-- PWR_ELS_STATUS (R769): Load switches. -/
def Reg.PWR_ELS_STATUS : Reg := ⟨0x3400050, 0⟩
/-- PWR_ELS_CTRL (R769): Clear latch, disable. -/
def Reg.PWR_ELS_CTRL : Reg := ⟨0x3400054, 0⟩
/-- PWR_CAP_ACTIVE_COUNT (R769): µs with bubbles. -/
def Reg.PWR_CAP_ACTIVE_COUNT : Reg := ⟨0x3400060, 0⟩
/-- PWR_TALLOW_US_COUNT (R769): µs with tallow. -/
def Reg.PWR_TALLOW_US_COUNT : Reg := ⟨0x3400068, 0⟩
/-- PWR_DROOP_COUNT (R769): Droop detections. -/
def Reg.PWR_DROOP_COUNT : Reg := ⟨0x3400070, 0⟩
/-- PWR_THROTTLE_COUNT (R769): Voltage-point steps down. -/
def Reg.PWR_THROTTLE_COUNT : Reg := ⟨0x3400078, 0⟩
/-- PWR_ELS_TRIP_COUNT (R769): Load-switch trips. -/
def Reg.PWR_ELS_TRIP_COUNT : Reg := ⟨0x3400080, 0⟩

/-- MEM_CAP (R807): Stacks, log entries, word size, stack size. -/
def Reg.MEM_CAP : Reg := ⟨0x3800000, 0x8402040⟩
/-- MEM_STATUS (R807): Stacks up, scrubbing, throttled. -/
def Reg.MEM_STATUS : Reg := ⟨0x3800004, 0⟩
/-- MEM_ERR (R807): Sticky error flags. -/
def Reg.MEM_ERR : Reg := ⟨0x3800008, 0⟩
/-- MEM_COMMIT (R807): Commits the shadowed set. -/
def Reg.MEM_COMMIT : Reg := ⟨0x380000C, 0⟩
/-- MEM_ECC_CFG (R807): Correction threshold, CORRECTED events. -/
def Reg.MEM_ECC_CFG : Reg := ⟨0x3800010, 0x4000001⟩
/-- MEM_SCRUB_CFG (R807): Scrub enable and period. -/
def Reg.MEM_SCRUB_CFG : Reg := ⟨0x3800014, 0x80000018⟩
/-- MEM_STACK_SEL (R807): Stack shown by MEM_STACK_INFO. -/
def Reg.MEM_STACK_SEL : Reg := ⟨0x3800018, 0⟩
/-- MEM_STACK_INFO (R807): Selected stack. -/
def Reg.MEM_STACK_INFO : Reg := ⟨0x3800020, 0⟩
/-- MEM_INJECT_ADDR (R807): Word for error injection. -/
def Reg.MEM_INJECT_ADDR : Reg := ⟨0x3800028, 0⟩
/-- MEM_INJECT_CTRL (R807): Injection kind and arm. -/
def Reg.MEM_INJECT_CTRL : Reg := ⟨0x3800030, 0⟩
/-- MEM_ELOG_SEL (R807): Entry shown by the log registers. -/
def Reg.MEM_ELOG_SEL : Reg := ⟨0x3800038, 0⟩
/-- MEM_ELOG_HEAD (R807): Next entry to be written. -/
def Reg.MEM_ELOG_HEAD : Reg := ⟨0x380003C, 0⟩
/-- MEM_ELOG_TIME (R807): Hall time of the selected entry. -/
def Reg.MEM_ELOG_TIME : Reg := ⟨0x3800040, 0⟩
/-- MEM_ELOG_ENTRY (R807): Record of the selected entry. -/
def Reg.MEM_ELOG_ENTRY : Reg := ⟨0x3800048, 0⟩
/-- MEM_CE_COUNT (R807): HBM corrections. -/
def Reg.MEM_CE_COUNT : Reg := ⟨0x3800050, 0⟩
/-- MEM_UE_COUNT (R807): HBM uncorrectable errors found. -/
def Reg.MEM_UE_COUNT : Reg := ⟨0x3800058, 0⟩
/-- MEM_POISON_READ_COUNT (R807): Words found already poisoned by reads and atomics (R801). -/
def Reg.MEM_POISON_READ_COUNT : Reg := ⟨0x3800060, 0⟩
/-- MEM_POISON_CLEAR_COUNT (R807): Poisoned words cleared by full writes. -/
def Reg.MEM_POISON_CLEAR_COUNT : Reg := ⟨0x3800068, 0⟩
/-- MEM_SRAM_CE_COUNT (R807): Tile SRAM corrections. -/
def Reg.MEM_SRAM_CE_COUNT : Reg := ⟨0x3800070, 0⟩
/-- MEM_SRAM_UE_COUNT (R807): Tile SRAM uncorrectable errors. -/
def Reg.MEM_SRAM_UE_COUNT : Reg := ⟨0x3800078, 0⟩
/-- MEM_JOB_FAULT_COUNT (R807): Job faults quenched. -/
def Reg.MEM_JOB_FAULT_COUNT : Reg := ⟨0x3800080, 0⟩
/-- MEM_CP_RESTART_COUNT (R807): Control processor restarts. -/
def Reg.MEM_CP_RESTART_COUNT : Reg := ⟨0x3800088, 0⟩

/-- DBG_CAP (R832): Pins, clocks, lamps, life-log records. -/
def Reg.DBG_CAP : Reg := ⟨0x3C00000, 0x810b0010⟩
/-- DBG_STATUS (R832): Debug open, button. Reset: fuse. -/
def Reg.DBG_STATUS : Reg := ⟨0x3C00004, 0⟩
/-- DBG_ERR (R832): Sticky error flags. -/
def Reg.DBG_ERR : Reg := ⟨0x3C00008, 0⟩
/-- DBG_COMMIT (R832): Commits the shadowed set. -/
def Reg.DBG_COMMIT : Reg := ⟨0x3C0000C, 0⟩
/-- DBG_LAMP_CTL (R832): LOCATE and SELECT requests. -/
def Reg.DBG_LAMP_CTL : Reg := ⟨0x3C00010, 0⟩
/-- DBG_LAMP_STATE (R832): Lamp states shown. -/
def Reg.DBG_LAMP_STATE : Reg := ⟨0x3C00018, 0⟩
/-- DBG_BUTTON_COUNT (R832): Presses reported. -/
def Reg.DBG_BUTTON_COUNT : Reg := ⟨0x3C00020, 0⟩
/-- DBG_MUX (R832): Pin DBGk, k < 8; k = 8 is DCLK. -/
def Reg.DBG_MUX (k : Nat) : Reg := ⟨0x3C00040 + 4 * k, 0⟩

/-- The register table of block GLB. -/
def regSpecsGLB : List RegSpec := [
  ⟨"GLB_ID", Reg.GLB_ID, [], 32, .module, 0, 0, 0, 0, 0⟩,
  ⟨"GLB_VARIANT", Reg.GLB_VARIANT, [], 32, .module, 0, 0, 0, 0, 0⟩,
  ⟨"GLB_CAP0", Reg.GLB_CAP0, [], 32, .module, 0, 0, 0, 0, 0⟩,
  ⟨"GLB_DIE_STATUS", Reg.GLB_DIE_STATUS, [], 32, .module, 0, 0, 0, 0, 0⟩,
  ⟨"GLB_SCRATCH", Reg.GLB_SCRATCH, [], 32, .function, 0xffffffff, 0, 0, 0, 0⟩]

/-- The register table of block HIF. -/
def regSpecsHIF : List RegSpec := [
  ⟨"HIF_CAP", Reg.HIF_CAP, [], 32, .module, 0, 0, 0, 0, 0⟩,
  ⟨"HIF_ERR", Reg.HIF_ERR, [], 32, .function, 0, 0x1ff, 0, 0, 0⟩,
  ⟨"HIF_COMMIT", Reg.HIF_COMMIT, [], 32, .module, 0, 0, 0, 1, 0⟩,
  ⟨"HIF_FN_STATUS", Reg.HIF_FN_STATUS, [], 32, .function, 0, 0, 0, 0, 0⟩,
  ⟨"HIF_WIN_BASE", Reg.HIF_WIN_BASE, [], 64, .function, 0x7fffe00001, 0, 0, 0, 0⟩,
  ⟨"HIF_ACCESS_LOG", Reg.HIF_ACCESS_LOG, [], 64, .module, 0, 0, 0, 0, 0⟩,
  ⟨"HIF_PORT_CFG", Reg.HIF_PORT_CFG 0, [(4, 0x100)], 32, .module, 0, 0, 0, 0, 0x8000ffff⟩,
  ⟨"HIF_PORT_INFO", Reg.HIF_PORT_INFO 0, [(4, 0x100)], 32, .module, 0, 0, 0, 0, 0⟩,
  ⟨"HIF_PORT_RID", Reg.HIF_PORT_RID 0, [(4, 0x100)], 64, .module, 0, 0, 0, 0, 0x8000ffff⟩,
  ⟨"HIF_PEER_BASE", Reg.HIF_PEER_BASE 0 0, [(4, 0x100), (4, 0x10)], 64, .module, 0, 0, 0, 0, 0xfffffffffffff001⟩,
  ⟨"HIF_PEER_LIMIT", Reg.HIF_PEER_LIMIT 0 0, [(4, 0x100), (4, 0x10)], 64, .module, 0, 0, 0, 0, 0xfffffffffffff000⟩,
  ⟨"HIF_LATE_CPL_COUNT", Reg.HIF_LATE_CPL_COUNT 0, [(4, 0x100)], 64, .module, 0, 0, 0, 0, 0⟩,
  ⟨"HIF_CPL_TIMEOUT_COUNT", Reg.HIF_CPL_TIMEOUT_COUNT 0, [(4, 0x100)], 64, .module, 0, 0, 0, 0, 0⟩,
  ⟨"HIF_ERR_CPL_COUNT", Reg.HIF_ERR_CPL_COUNT 0, [(4, 0x100)], 64, .module, 0, 0, 0, 0, 0⟩,
  ⟨"HIF_REFUSED_COUNT", Reg.HIF_REFUSED_COUNT 0, [(4, 0x100)], 64, .module, 0, 0, 0, 0, 0⟩,
  ⟨"HIF_DROPPED_WRITE_COUNT", Reg.HIF_DROPPED_WRITE_COUNT 0, [(4, 0x100)], 64, .module, 0, 0, 0, 0, 0⟩]

/-- The register table of block ADM. -/
def regSpecsADM : List RegSpec := [
  ⟨"ADM_CAP", Reg.ADM_CAP, [], 32, .port, 0, 0, 0, 0, 0⟩,
  ⟨"ADM_CTRL", Reg.ADM_CTRL, [], 32, .port, 0xc7ff0f0f, 0, 0, 0, 0⟩,
  ⟨"ADM_STATUS", Reg.ADM_STATUS, [], 32, .port, 0, 0, 0, 0, 0⟩,
  ⟨"ADM_ERR", Reg.ADM_ERR, [], 32, .port, 0, 0xf, 0, 0, 0⟩,
  ⟨"ADM_CMD_BASE", Reg.ADM_CMD_BASE, [], 64, .port, 0xfffffffffffff000, 0, 0, 0, 0⟩,
  ⟨"ADM_REPLY_BASE", Reg.ADM_REPLY_BASE, [], 64, .port, 0xfffffffffffff000, 0, 0, 0, 0⟩,
  ⟨"ADM_CMD_PRODUCER", Reg.ADM_CMD_PRODUCER, [], 32, .port, 0xffffff, 0, 0, 0, 0⟩,
  ⟨"ADM_CMD_FETCH", Reg.ADM_CMD_FETCH, [], 32, .port, 0, 0, 0, 0, 0⟩,
  ⟨"ADM_REPLY_CONSUMER", Reg.ADM_REPLY_CONSUMER, [], 32, .port, 0xffffff, 0, 0, 0, 0⟩,
  ⟨"ADM_REPLY_PRODUCER", Reg.ADM_REPLY_PRODUCER, [], 32, .port, 0, 0, 0, 0, 0⟩,
  ⟨"ADM_EXPERT_UNLOCKED", Reg.ADM_EXPERT_UNLOCKED, [], 32, .port, 0, 0, 0, 0, 0⟩,
  ⟨"ADM_EXPERT_DROP_ADDR", Reg.ADM_EXPERT_DROP_ADDR, [], 32, .port, 0, 0, 0, 0, 0⟩,
  ⟨"ADM_EXPERT_DROP_COUNT", Reg.ADM_EXPERT_DROP_COUNT, [], 64, .port, 0, 0, 0, 0, 0⟩,
  ⟨"ADM_CMD_DISCARD_COUNT", Reg.ADM_CMD_DISCARD_COUNT, [], 64, .port, 0, 0, 0, 0, 0⟩]

/-- The register table of block XLT. -/
def regSpecsXLT : List RegSpec := [
  ⟨"XLT_CAP", Reg.XLT_CAP, [], 32, .module, 0, 0, 0, 0, 0⟩,
  ⟨"XLT_STATUS", Reg.XLT_STATUS, [], 32, .module, 0, 0, 0, 0, 0⟩,
  ⟨"XLT_ERR", Reg.XLT_ERR, [], 32, .module, 0, 3, 0, 0, 0⟩,
  ⟨"XLT_DIRTY_THRESHOLD", Reg.XLT_DIRTY_THRESHOLD, [], 32, .module, 0xffffffff, 0, 0, 0, 0⟩,
  ⟨"XLT_WALK_CFG", Reg.XLT_WALK_CFG, [], 32, .module, 0, 0, 0, 0, 0x3f0f⟩,
  ⟨"XLT_COMMIT", Reg.XLT_COMMIT, [], 32, .module, 0, 0, 0, 1, 0⟩,
  ⟨"XLT_INVAL", Reg.XLT_INVAL, [], 32, .module, 0, 0, 0, 0x800001ff, 0⟩,
  ⟨"XLT_FAULT_SEL", Reg.XLT_FAULT_SEL, [], 32, .module, 0xf, 0, 0, 0, 0⟩,
  ⟨"XLT_FAULT_ADDR", Reg.XLT_FAULT_ADDR, [], 64, .module, 0, 0, 0, 0, 0⟩,
  ⟨"XLT_FAULT_INFO", Reg.XLT_FAULT_INFO, [], 32, .module, 0, 0, 0, 0, 0⟩,
  ⟨"XLT_FAULT_HEAD", Reg.XLT_FAULT_HEAD, [], 32, .module, 0, 0, 0, 0, 0⟩,
  ⟨"XLT_HIT_COUNT", Reg.XLT_HIT_COUNT, [], 64, .module, 0, 0, 0, 0, 0⟩,
  ⟨"XLT_MISS_COUNT", Reg.XLT_MISS_COUNT, [], 64, .module, 0, 0, 0, 0, 0⟩,
  ⟨"XLT_WALK_READ_COUNT", Reg.XLT_WALK_READ_COUNT, [], 64, .module, 0, 0, 0, 0, 0⟩,
  ⟨"XLT_FAULT_COUNT", Reg.XLT_FAULT_COUNT, [], 64, .module, 0, 0, 0, 0, 0⟩]

/-- The register table of block QPE. -/
def regSpecsQPE : List RegSpec := [
  ⟨"QPE_QUEUE_CAP", Reg.QPE_QUEUE_CAP, [], 32, .module, 0, 0, 0, 0, 0⟩,
  ⟨"QPE_QUEUE_ERR", Reg.QPE_QUEUE_ERR, [], 32, .module, 0, 0xf, 0, 0, 0⟩,
  ⟨"QPE_CQ_FULL_WAIT", Reg.QPE_CQ_FULL_WAIT, [], 32, .module, 0xfffff, 0, 0, 0, 0⟩,
  ⟨"QPE_DOORBELL_DROP_COUNT", Reg.QPE_DOORBELL_DROP_COUNT, [], 64, .module, 0, 0, 0, 0, 0⟩,
  ⟨"QPE_LANTERN_LOST_COUNT", Reg.QPE_LANTERN_LOST_COUNT, [], 64, .module, 0, 0, 0, 0, 0⟩,
  ⟨"QPE_LQ_CONSUMER", Reg.QPE_LQ_CONSUMER 0, [(512, 8)], 64, .module, 0xffffff, 0x200000000, 0x100000000, 0, 0⟩,
  ⟨"QPE_LQ_STATE", Reg.QPE_LQ_STATE 0, [(512, 8)], 64, .module, 0, 0x4000000000000000, 0, 0, 0⟩,
  ⟨"QPE_WQ_STATE", Reg.QPE_WQ_STATE 0, [(65536, 8)], 64, .module, 0x4000000000000000, 0, 0, 0, 0⟩,
  ⟨"QPE_WQ_INDEX", Reg.QPE_WQ_INDEX 0, [(65536, 8)], 64, .module, 0, 0, 0, 0, 0⟩,
  ⟨"QPE_CQ_STATE", Reg.QPE_CQ_STATE 0, [(65536, 8)], 64, .module, 0, 0, 0, 0, 0⟩,
  ⟨"QPE_CQ_INDEX", Reg.QPE_CQ_INDEX 0, [(65536, 8)], 64, .module, 0, 0, 0, 0, 0⟩,
  ⟨"QPE_CAP", Reg.QPE_CAP, [], 32, .module, 0, 0, 0, 0, 0⟩,
  ⟨"QPE_STATUS", Reg.QPE_STATUS, [], 32, .module, 0, 0, 0, 0, 0⟩,
  ⟨"QPE_ERR", Reg.QPE_ERR, [], 32, .module, 0, 7, 0, 0, 0⟩,
  ⟨"QPE_COMMIT", Reg.QPE_COMMIT, [], 32, .module, 0, 0, 0, 1, 0⟩,
  ⟨"QPE_SB_CFG", Reg.QPE_SB_CFG, [], 32, .module, 0, 0, 0, 0, 0xfff7fff⟩,
  ⟨"QPE_CACHE_CFG", Reg.QPE_CACHE_CFG, [], 32, .module, 0, 0, 0, 0, 0xffff⟩,
  ⟨"QPE_SCOREBOARD_USED", Reg.QPE_SCOREBOARD_USED, [], 32, .module, 0, 0, 0, 0, 0⟩,
  ⟨"QPE_QP_SEL", Reg.QPE_QP_SEL, [], 32, .module, 0xffffff, 0, 0, 0, 0⟩,
  ⟨"QPE_QPC_BASE", Reg.QPE_QPC_BASE, [], 64, .port, 0xfffffffffffff000, 0, 0, 0, 0⟩,
  ⟨"QPE_QPC_SIZE", Reg.QPE_QPC_SIZE, [], 32, .port, 0x1f, 0, 0, 0, 0⟩,
  ⟨"QPE_QPC_USED", Reg.QPE_QPC_USED, [], 32, .port, 0, 0, 0, 0, 0⟩,
  ⟨"QPE_QP_INFO", Reg.QPE_QP_INFO, [], 32, .module, 0, 0, 0, 0, 0⟩,
  ⟨"QPE_CACHE_FILL_COUNT", Reg.QPE_CACHE_FILL_COUNT, [], 64, .module, 0, 0, 0, 0, 0⟩,
  ⟨"QPE_CACHE_SPILL_COUNT", Reg.QPE_CACHE_SPILL_COUNT, [], 64, .module, 0, 0, 0, 0, 0⟩,
  ⟨"QPE_SCOREBOARD_FULL_COUNT", Reg.QPE_SCOREBOARD_FULL_COUNT, [], 64, .module, 0, 0, 0, 0, 0⟩,
  ⟨"QPE_TXN_COUNT", Reg.QPE_TXN_COUNT, [], 64, .module, 0, 0, 0, 0, 0⟩,
  ⟨"QPE_QP_ERROR_COUNT", Reg.QPE_QP_ERROR_COUNT, [], 64, .module, 0, 0, 0, 0, 0⟩,
  ⟨"QPE_XPT_ENCAP", Reg.QPE_XPT_ENCAP, [], 32, .module, 0xffffc000, 0, 0, 0, 0⟩,
  ⟨"QPE_XPT_TIMER", Reg.QPE_XPT_TIMER, [], 32, .module, 0xff0ffff, 0, 0, 0, 0⟩,
  ⟨"QPE_XPT_ACK", Reg.QPE_XPT_ACK, [], 32, .module, 0xfffffff, 0, 0, 0, 0⟩,
  ⟨"QPE_XPT_ESCALATE", Reg.QPE_XPT_ESCALATE, [], 32, .module, 1, 0, 0, 0, 0⟩,
  ⟨"QPE_MODULE_EPOCH", Reg.QPE_MODULE_EPOCH, [], 32, .module, 0, 0, 0, 0, 0⟩,
  ⟨"QPE_GUTTER_SEL", Reg.QPE_GUTTER_SEL, [], 32, .module, 0xff, 0, 0, 0, 0⟩,
  ⟨"QPE_GUTTER_COUNT", Reg.QPE_GUTTER_COUNT, [], 64, .module, 0, 0, 0, 0, 0⟩,
  ⟨"QPE_GUTTER_CAUSE_COUNT", Reg.QPE_GUTTER_CAUSE_COUNT, [], 64, .module, 0, 0, 0, 0, 0⟩,
  ⟨"QPE_RETX_COUNT", Reg.QPE_RETX_COUNT, [], 64, .module, 0, 0, 0, 0, 0⟩,
  ⟨"QPE_XPT_TIMEOUT_COUNT", Reg.QPE_XPT_TIMEOUT_COUNT, [], 64, .module, 0, 0, 0, 0, 0⟩,
  ⟨"QPE_XPT_IPV6_PREFIX", Reg.QPE_XPT_IPV6_PREFIX, [], 64, .module, 0xffffffffffffffff, 0, 0, 0, 0⟩,
  ⟨"QPE_XPT_NEXT_HOP_MAC", Reg.QPE_XPT_NEXT_HOP_MAC 0, [(8, 8)], 64, .module, 0xffffffffffff, 0, 0, 0, 0⟩]

/-- The register table of block RTR. -/
def regSpecsRTR : List RegSpec := [
  ⟨"RTR_CAP", Reg.RTR_CAP, [], 32, .module, 0, 0, 0, 0, 0⟩,
  ⟨"RTR_STATUS", Reg.RTR_STATUS, [], 32, .module, 0, 0, 0, 0, 0⟩,
  ⟨"RTR_ERR", Reg.RTR_ERR, [], 32, .module, 0, 0x1f, 0, 0, 0⟩,
  ⟨"RTR_COMMIT", Reg.RTR_COMMIT, [], 32, .module, 0, 0, 0, 1, 0⟩,
  ⟨"RTR_COORD", Reg.RTR_COORD, [], 32, .module, 0, 0, 0, 0, 0⟩,
  ⟨"RTR_RING_SIZE", Reg.RTR_RING_SIZE, [], 32, .module, 0, 0, 0, 0, 0⟩,
  ⟨"RTR_TOPO", Reg.RTR_TOPO, [], 32, .module, 0, 0, 0, 0, 0⟩,
  ⟨"RTR_DIM_CTL", Reg.RTR_DIM_CTL, [], 32, .module, 0, 0, 0, 0, 0x9f9f9f9f⟩,
  ⟨"RTR_MARK_CFG", Reg.RTR_MARK_CFG, [], 32, .module, 0, 0, 0, 0, 0xffffffff⟩,
  ⟨"RTR_LINK_FC", Reg.RTR_LINK_FC, [], 32, .module, 0, 0, 0, 0, 0xffffff⟩,
  ⟨"RTR_THROTTLE_CFG0", Reg.RTR_THROTTLE_CFG0, [], 32, .module, 0, 0, 0, 0, 0xff0fffff⟩,
  ⟨"RTR_THROTTLE_CFG1", Reg.RTR_THROTTLE_CFG1, [], 32, .module, 0, 0, 0, 0, 0xffffffff⟩,
  ⟨"RTR_THROTTLE_CFG2", Reg.RTR_THROTTLE_CFG2, [], 32, .module, 0, 0, 0, 0, 0xffffffff⟩,
  ⟨"RTR_NOTIFY_CFG", Reg.RTR_NOTIFY_CFG, [], 32, .module, 0xffffffff, 0, 0, 0, 0⟩,
  ⟨"RTR_INJECT_CFG", Reg.RTR_INJECT_CFG, [], 32, .module, 0xffff, 0, 0, 0, 0⟩,
  ⟨"RTR_CTRL", Reg.RTR_CTRL, [], 32, .module, 0, 0, 0, 1, 0⟩,
  ⟨"RTR_PORT_SEL", Reg.RTR_PORT_SEL, [], 32, .module, 0xf, 0, 0, 0, 0⟩,
  ⟨"RTR_THROTTLE_STATUS", Reg.RTR_THROTTLE_STATUS, [], 32, .module, 0, 0, 0, 0, 0⟩,
  ⟨"RTR_CABLE_ERR", Reg.RTR_CABLE_ERR, [], 32, .module, 0, 0, 0, 0, 0⟩,
  ⟨"RTR_PORT_PKT_COUNT", Reg.RTR_PORT_PKT_COUNT, [], 64, .module, 0, 0, 0, 0, 0⟩,
  ⟨"RTR_PORT_BYTE_COUNT", Reg.RTR_PORT_BYTE_COUNT, [], 64, .module, 0, 0, 0, 0, 0⟩,
  ⟨"RTR_PORT_STALL_PAUSE_COUNT", Reg.RTR_PORT_STALL_PAUSE_COUNT, [], 64, .module, 0, 0, 0, 0, 0⟩,
  ⟨"RTR_PORT_STALL_ARB_COUNT", Reg.RTR_PORT_STALL_ARB_COUNT, [], 64, .module, 0, 0, 0, 0, 0⟩,
  ⟨"RTR_PORT_MARK_COUNT", Reg.RTR_PORT_MARK_COUNT, [], 64, .module, 0, 0, 0, 0, 0⟩,
  ⟨"RTR_NO_ROUTE_COUNT", Reg.RTR_NO_ROUTE_COUNT, [], 64, .module, 0, 0, 0, 0, 0⟩,
  ⟨"RTR_HOP_LIMIT_COUNT", Reg.RTR_HOP_LIMIT_COUNT, [], 64, .module, 0, 0, 0, 0, 0⟩,
  ⟨"RTR_OVERFLOW_COUNT", Reg.RTR_OVERFLOW_COUNT, [], 64, .module, 0, 0, 0, 0, 0⟩,
  ⟨"RTR_QDEPTH", Reg.RTR_QDEPTH 0 0, [(8, 0x20), (8, 4)], 32, .module, 0, 0, 0, 0, 0⟩,
  ⟨"RTR_EJECT_QDEPTH", Reg.RTR_EJECT_QDEPTH 0, [(8, 4)], 32, .module, 0, 0, 0, 0, 0⟩]

/-- The register table of block LNK. -/
def regSpecsLNK : List RegSpec := [
  ⟨"LNK_GCAP", Reg.LNK_GCAP 0, [(8, 0x20000)], 32, .module, 0, 0, 0, 0, 0⟩,
  ⟨"LNK_GCTL", Reg.LNK_GCTL 0, [(8, 0x20000)], 32, .module, 0xe0ffffff, 0, 0, 0x10000000, 0⟩,
  ⟨"LNK_GSTATUS", Reg.LNK_GSTATUS 0, [(8, 0x20000)], 32, .module, 0, 0, 0, 0, 0⟩,
  ⟨"LNK_GERR", Reg.LNK_GERR 0, [(8, 0x20000)], 32, .module, 0, 0x1f, 0, 0, 0⟩,
  ⟨"LNK_COMMIT", Reg.LNK_COMMIT 0, [(8, 0x20000)], 32, .module, 0, 0, 0, 1, 0⟩,
  ⟨"LNK_GCFG0", Reg.LNK_GCFG0 0, [(8, 0x20000)], 32, .module, 0, 0, 0, 0, 0xffffffff⟩,
  ⟨"LNK_GCFG1", Reg.LNK_GCFG1 0, [(8, 0x20000)], 32, .module, 0, 0, 0, 0, 0xc3ff00ff⟩,
  ⟨"LNK_TX_THRESHOLD", Reg.LNK_TX_THRESHOLD 0, [(8, 0x20000)], 32, .module, 0x1fff, 0, 0, 0x80000000, 0⟩,
  ⟨"LNK_LPI_COUNT", Reg.LNK_LPI_COUNT 0, [(8, 0x20000)], 64, .module, 0, 0, 0, 0, 0⟩,
  ⟨"LNK_LSTATUS", Reg.LNK_LSTATUS 0 0, [(8, 0x20000), (8, 0x20)], 32, .module, 0, 0, 0, 0, 0⟩,
  ⟨"LNK_LPEER", Reg.LNK_LPEER 0 0, [(8, 0x20000), (8, 0x20)], 64, .module, 0, 0, 0, 0, 0⟩,
  ⟨"LNK_LCTL", Reg.LNK_LCTL 0 0, [(8, 0x20000), (8, 0x20)], 32, .module, 2, 0, 0, 1, 0⟩,
  ⟨"LNK_LCOUNT", Reg.LNK_LCOUNT 0 0 0, [(8, 0x20000), (8, 0x100), (16, 8)], 64, .module, 0, 0, 0, 0, 0⟩]

/-- The register table of block COL. -/
def regSpecsCOL : List RegSpec := [
  ⟨"COL_CAP", Reg.COL_CAP, [], 32, .module, 0, 0, 0, 0, 0⟩,
  ⟨"COL_STATUS", Reg.COL_STATUS, [], 32, .module, 0, 0, 0, 0, 0⟩,
  ⟨"COL_ERR", Reg.COL_ERR, [], 32, .module, 0, 0xf, 0, 0, 0⟩,
  ⟨"COL_COMMIT", Reg.COL_COMMIT, [], 32, .module, 0, 0, 0, 1, 0⟩,
  ⟨"COL_LANE_CFG", Reg.COL_LANE_CFG, [], 32, .module, 0, 0, 0, 0, 0xff⟩,
  ⟨"COL_TREE_CFG", Reg.COL_TREE_CFG, [], 32, .module, 0, 0, 0, 0, 0xffff0007⟩,
  ⟨"COL_GROUP_SEL", Reg.COL_GROUP_SEL, [], 32, .module, 0xff, 0, 0, 0, 0⟩,
  ⟨"COL_GROUP_INFO", Reg.COL_GROUP_INFO, [], 64, .module, 0, 0, 0, 0, 0⟩,
  ⟨"COL_GROUP_SEQ", Reg.COL_GROUP_SEQ, [], 32, .module, 0, 0, 0, 0, 0⟩,
  ⟨"COL_GROUP_CROSSOVER", Reg.COL_GROUP_CROSSOVER, [], 32, .module, 0, 0, 0, 0, 0⟩,
  ⟨"COL_OP_COUNT", Reg.COL_OP_COUNT, [], 64, .module, 0, 0, 0, 0, 0⟩,
  ⟨"COL_INEXACT_COUNT", Reg.COL_INEXACT_COUNT, [], 64, .module, 0, 0, 0, 0, 0⟩,
  ⟨"COL_ADD_COUNT", Reg.COL_ADD_COUNT, [], 64, .module, 0, 0, 0, 0, 0⟩,
  ⟨"COL_ABORT_COUNT", Reg.COL_ABORT_COUNT, [], 64, .module, 0, 0, 0, 0, 0⟩,
  ⟨"COL_TREE_RETRY_COUNT", Reg.COL_TREE_RETRY_COUNT, [], 64, .module, 0, 0, 0, 0, 0⟩]

/-- The register table of block TRN. -/
def regSpecsTRN : List RegSpec := [
  ⟨"TRN_CAP", Reg.TRN_CAP 0, [(2, 0x100000)], 32, .module, 0, 0, 0, 0, 0⟩,
  ⟨"TRN_STATUS", Reg.TRN_STATUS 0, [(2, 0x100000)], 32, .module, 0, 0, 0, 0, 0⟩,
  ⟨"TRN_ERR", Reg.TRN_ERR 0, [(2, 0x100000)], 32, .module, 0, 7, 0, 0, 0⟩,
  ⟨"TRN_COMMIT", Reg.TRN_COMMIT 0, [(2, 0x100000)], 32, .module, 0, 0, 0, 1, 0⟩,
  ⟨"TRN_ARB_CFG", Reg.TRN_ARB_CFG 0, [(2, 0x100000)], 32, .module, 0, 0, 0, 0, 0xf0ff0fff⟩,
  ⟨"TRN_SCHED_CFG", Reg.TRN_SCHED_CFG 0, [(2, 0x100000)], 32, .module, 0, 0, 0, 0, 0xff007f⟩,
  ⟨"TRN_PROG_SEL", Reg.TRN_PROG_SEL 0, [(2, 0x100000)], 32, .module, 0x3ff, 0, 0, 0, 0⟩,
  ⟨"TRN_ENTRY_SEL", Reg.TRN_ENTRY_SEL 0, [(2, 0x100000)], 32, .module, 0xff, 0, 0, 0, 0⟩,
  ⟨"TRN_PROG_INFO", Reg.TRN_PROG_INFO 0, [(2, 0x100000)], 64, .module, 0, 0, 0, 0, 0⟩,
  ⟨"TRN_PROG_DIGEST", Reg.TRN_PROG_DIGEST 0, [(2, 0x100000)], 64, .module, 0, 0, 0, 0, 0⟩,
  ⟨"TRN_ENTRY_INFO", Reg.TRN_ENTRY_INFO 0, [(2, 0x100000)], 64, .module, 0, 0, 0, 0, 0⟩,
  ⟨"TRN_CANCEL", Reg.TRN_CANCEL 0, [(2, 0x100000)], 32, .module, 0, 0, 0, 0xff, 0⟩,
  ⟨"TRN_LAUNCH_COUNT", Reg.TRN_LAUNCH_COUNT 0, [(2, 0x100000)], 64, .module, 0, 0, 0, 0, 0⟩,
  ⟨"TRN_ABORT_COUNT", Reg.TRN_ABORT_COUNT 0, [(2, 0x100000)], 64, .module, 0, 0, 0, 0, 0⟩,
  ⟨"TRN_TILE_CYCLE_COUNT", Reg.TRN_TILE_CYCLE_COUNT 0, [(2, 0x100000)], 64, .module, 0, 0, 0, 0, 0⟩,
  ⟨"TRN_SAT_COUNT", Reg.TRN_SAT_COUNT 0, [(2, 0x100000)], 64, .module, 0, 0, 0, 0, 0⟩,
  ⟨"TRN_ARB_LATE_WITHDRAW_COUNT", Reg.TRN_ARB_LATE_WITHDRAW_COUNT 0, [(2, 0x100000)], 64, .module, 0, 0, 0, 0, 0⟩,
  ⟨"TRN_ARB_PARK_HIT_COUNT", Reg.TRN_ARB_PARK_HIT_COUNT 0, [(2, 0x100000)], 64, .module, 0, 0, 0, 0, 0⟩]

/-- The register table of block PLC. -/
def regSpecsPLC : List RegSpec := [
  ⟨"PLC_CAP", Reg.PLC_CAP, [], 32, .module, 0, 0, 0, 0, 0⟩,
  ⟨"PLC_STATUS", Reg.PLC_STATUS, [], 32, .module, 0, 0, 0, 0, 0⟩,
  ⟨"PLC_ERR", Reg.PLC_ERR, [], 32, .module, 0, 7, 0, 0, 0⟩,
  ⟨"PLC_COMMIT", Reg.PLC_COMMIT, [], 32, .module, 0, 0, 0, 1, 0⟩,
  ⟨"PLC_HEAT_CFG", Reg.PLC_HEAT_CFG, [], 32, .module, 0, 0, 0, 0, 0xffffffff⟩,
  ⟨"PLC_MOVE_CFG", Reg.PLC_MOVE_CFG, [], 32, .module, 0, 0, 0, 0, 0xff00ff07⟩,
  ⟨"PLC_FORWARD_CFG", Reg.PLC_FORWARD_CFG, [], 32, .module, 0, 0, 0, 0, 0xffff⟩,
  ⟨"PLC_EVENT_MASK", Reg.PLC_EVENT_MASK, [], 32, .module, 0x1fe, 0, 0, 0, 0⟩,
  ⟨"PLC_PAGE_SEL", Reg.PLC_PAGE_SEL, [], 32, .module, 0x7fffff, 0, 0, 0, 0⟩,
  ⟨"PLC_RESERVE_SEL", Reg.PLC_RESERVE_SEL, [], 32, .module, 0xffff, 0, 0, 0, 0⟩,
  ⟨"PLC_THATCH_INFO", Reg.PLC_THATCH_INFO, [], 64, .module, 0, 0, 0, 0, 0⟩,
  ⟨"PLC_HEAT_INFO", Reg.PLC_HEAT_INFO, [], 64, .module, 0, 0, 0, 0, 0⟩,
  ⟨"PLC_RESERVE_INFO", Reg.PLC_RESERVE_INFO, [], 64, .module, 0, 0, 0, 0, 0⟩,
  ⟨"PLC_PROG_SEL", Reg.PLC_PROG_SEL, [], 32, .module, 0x1fff, 0, 0, 0, 0⟩,
  ⟨"PLC_OPERAND_HEAT", Reg.PLC_OPERAND_HEAT, [], 64, .module, 0, 0, 0, 0, 0⟩,
  ⟨"PLC_MOVE_COUNT", Reg.PLC_MOVE_COUNT, [], 64, .module, 0, 0, 0, 0, 0⟩,
  ⟨"PLC_REPLICA_COUNT", Reg.PLC_REPLICA_COUNT, [], 64, .module, 0, 0, 0, 0, 0⟩,
  ⟨"PLC_COLLAPSE_COUNT", Reg.PLC_COLLAPSE_COUNT, [], 64, .module, 0, 0, 0, 0, 0⟩,
  ⟨"PLC_SHOOT_DOWN_COUNT", Reg.PLC_SHOOT_DOWN_COUNT, [], 64, .module, 0, 0, 0, 0, 0⟩,
  ⟨"PLC_PROPOSAL_DROP_COUNT", Reg.PLC_PROPOSAL_DROP_COUNT, [], 64, .module, 0, 0, 0, 0, 0⟩,
  ⟨"PLC_REFUSE_COUNT", Reg.PLC_REFUSE_COUNT, [], 64, .module, 0, 0, 0, 0, 0⟩,
  ⟨"PLC_FORWARD_COUNT", Reg.PLC_FORWARD_COUNT, [], 64, .module, 0, 0, 0, 0, 0⟩,
  ⟨"PLC_HOLDER_LOST_COUNT", Reg.PLC_HOLDER_LOST_COUNT, [], 64, .module, 0, 0, 0, 0, 0⟩]

/-- The register table of block SYN. -/
def regSpecsSYN : List RegSpec := [
  ⟨"SYN_CAP", Reg.SYN_CAP, [], 32, .module, 0, 0, 0, 0, 0⟩,
  ⟨"SYN_STATUS", Reg.SYN_STATUS, [], 32, .module, 0, 0, 0, 0, 0⟩,
  ⟨"SYN_ERR", Reg.SYN_ERR, [], 32, .module, 0, 0xf, 0, 0, 0⟩,
  ⟨"SYN_WICK_SEL", Reg.SYN_WICK_SEL, [], 32, .module, 0xfff, 0, 0, 0, 0⟩,
  ⟨"SYN_BAR_SEL", Reg.SYN_BAR_SEL, [], 32, .module, 0xff, 0, 0, 0, 0⟩,
  ⟨"SYN_WICK_INFO", Reg.SYN_WICK_INFO, [], 64, .module, 0, 0, 0, 0, 0⟩,
  ⟨"SYN_WICK_DEPTH", Reg.SYN_WICK_DEPTH, [], 64, .module, 0, 0, 0, 0, 0⟩,
  ⟨"SYN_WICK_CURRENT", Reg.SYN_WICK_CURRENT, [], 64, .module, 0, 0, 0, 0, 0⟩,
  ⟨"SYN_WICK_LAST", Reg.SYN_WICK_LAST, [], 64, .module, 0, 0, 0, 0, 0⟩,
  ⟨"SYN_WICK_INDEX", Reg.SYN_WICK_INDEX, [], 32, .module, 0, 0, 0, 0, 0⟩,
  ⟨"SYN_BAR_INFO", Reg.SYN_BAR_INFO, [], 64, .module, 0, 0, 0, 0, 0⟩,
  ⟨"SYN_TOKEN_COUNT", Reg.SYN_TOKEN_COUNT, [], 64, .module, 0, 0, 0, 0, 0⟩,
  ⟨"SYN_OVERFLOW_COUNT", Reg.SYN_OVERFLOW_COUNT, [], 64, .module, 0, 0, 0, 0, 0⟩,
  ⟨"SYN_STALE_TOKEN_COUNT", Reg.SYN_STALE_TOKEN_COUNT, [], 64, .module, 0, 0, 0, 0, 0⟩,
  ⟨"SYN_OWNER_RESET_COUNT", Reg.SYN_OWNER_RESET_COUNT, [], 64, .module, 0, 0, 0, 0, 0⟩,
  ⟨"SYN_DRIFT_COUNT", Reg.SYN_DRIFT_COUNT, [], 64, .module, 0, 0, 0, 0, 0⟩,
  ⟨"SYN_BAR_PARTICIPANTS", Reg.SYN_BAR_PARTICIPANTS 0, [(256, 4)], 32, .module, 0xffff, 0, 0, 0, 0⟩]

/-- The register table of block SCH. -/
def regSpecsSCH : List RegSpec := [
  ⟨"SCH_CAP", Reg.SCH_CAP, [], 32, .module, 0, 0, 0, 0, 0⟩,
  ⟨"SCH_STATUS", Reg.SCH_STATUS, [], 32, .module, 0, 0, 0, 0, 0⟩,
  ⟨"SCH_ERR", Reg.SCH_ERR, [], 32, .module, 0, 0x3f, 0, 0, 0⟩,
  ⟨"SCH_COMMIT", Reg.SCH_COMMIT, [], 32, .module, 0, 0, 0, 1, 0⟩,
  ⟨"SCH_TIME_CFG", Reg.SCH_TIME_CFG, [], 32, .module, 0, 0, 0, 0, 0xfffff0ff⟩,
  ⟨"SCH_TIME_STATUS", Reg.SCH_TIME_STATUS, [], 32, .module, 0, 0, 0, 0, 0⟩,
  ⟨"SCH_TIME_OFFSET", Reg.SCH_TIME_OFFSET, [], 32, .module, 0, 0, 0, 0, 0⟩,
  ⟨"SCH_TIME_MASTER_INFO", Reg.SCH_TIME_MASTER_INFO, [], 32, .module, 0, 0, 0, 0, 0⟩,
  ⟨"SCH_HALL_TIME", Reg.SCH_HALL_TIME, [], 64, .module, 0, 0, 0, 0, 0⟩,
  ⟨"SCH_SAMPLE_CFG", Reg.SCH_SAMPLE_CFG, [], 32, .module, 0xffff, 0, 0, 0, 0⟩,
  ⟨"SCH_CADENCE_SEL", Reg.SCH_CADENCE_SEL, [], 32, .module, 0xf, 0, 0, 0, 0⟩,
  ⟨"SCH_CADENCE_INFO", Reg.SCH_CADENCE_INFO, [], 64, .module, 0, 0, 0, 0, 0⟩,
  ⟨"SCH_CADENCE_START", Reg.SCH_CADENCE_START, [], 64, .module, 0, 0, 0, 0, 0⟩,
  ⟨"SCH_CADENCE_NEXT", Reg.SCH_CADENCE_NEXT, [], 64, .module, 0, 0, 0, 0, 0⟩,
  ⟨"SCH_BOUNDARY_COUNT", Reg.SCH_BOUNDARY_COUNT, [], 64, .module, 0, 0, 0, 0, 0⟩,
  ⟨"SCH_BOUNDARY_SKIP_COUNT", Reg.SCH_BOUNDARY_SKIP_COUNT, [], 64, .module, 0, 0, 0, 0, 0⟩,
  ⟨"SCH_GATE_SWITCH_COUNT", Reg.SCH_GATE_SWITCH_COUNT, [], 64, .module, 0, 0, 0, 0, 0⟩,
  ⟨"SCH_TIME_LOAD_COUNT", Reg.SCH_TIME_LOAD_COUNT, [], 64, .module, 0, 0, 0, 0, 0⟩,
  ⟨"SCH_PTP_IGNORE_COUNT", Reg.SCH_PTP_IGNORE_COUNT, [], 64, .module, 0, 0, 0, 0, 0⟩,
  ⟨"SCH_GATE_STATUS", Reg.SCH_GATE_STATUS 0, [(8, 0x100)], 32, .module, 0, 0, 0, 0, 0⟩,
  ⟨"SCH_GATE_BASE", Reg.SCH_GATE_BASE 0, [(8, 0x100)], 64, .module, 0, 0, 0, 0, 0⟩,
  ⟨"SCH_GATE_PENDING_TIME", Reg.SCH_GATE_PENDING_TIME 0, [(8, 0x100)], 64, .module, 0, 0, 0, 0, 0⟩,
  ⟨"SCH_GUARD_STALL_COUNT", Reg.SCH_GUARD_STALL_COUNT 0, [(8, 0x100)], 64, .module, 0, 0, 0, 0, 0⟩,
  ⟨"SCH_CLASS_CFG", Reg.SCH_CLASS_CFG 0 0, [(8, 0x100), (8, 8)], 64, .module, 0, 0, 0, 0, 0xffffffff801fffff⟩,
  ⟨"SCH_QSAMPLE", Reg.SCH_QSAMPLE 0 0, [(8, 0x100), (8, 8)], 64, .module, 0, 0, 0, 0, 0⟩,
  ⟨"SCH_POLICE_DROP_COUNT", Reg.SCH_POLICE_DROP_COUNT 0 0, [(8, 0x100), (8, 8)], 64, .module, 0, 0, 0, 0, 0⟩,
  ⟨"SCH_EJECT_QSAMPLE", Reg.SCH_EJECT_QSAMPLE 0, [(8, 8)], 64, .module, 0, 0, 0, 0, 0⟩]

/-- The register table of block SEC. -/
def regSpecsSEC : List RegSpec := [
  ⟨"SEC_CAP", Reg.SEC_CAP, [], 32, .module, 0, 0, 0, 0, 0⟩,
  ⟨"SEC_STATUS", Reg.SEC_STATUS, [], 32, .module, 0, 0, 0, 0, 0⟩,
  ⟨"SEC_ERR", Reg.SEC_ERR, [], 32, .module, 0, 0x3f, 0, 0, 0⟩,
  ⟨"SEC_ENGINE_FAIL", Reg.SEC_ENGINE_FAIL, [], 32, .module, 0, 0xffff, 0, 0, 0⟩,
  ⟨"SEC_KEY_STATUS", Reg.SEC_KEY_STATUS, [], 32, .module, 0, 0, 0, 0, 0⟩,
  ⟨"SEC_KEY_SEL", Reg.SEC_KEY_SEL, [], 32, .module, 0x3fff, 0, 0, 0, 0⟩,
  ⟨"SEC_KEY_INFO", Reg.SEC_KEY_INFO, [], 64, .module, 0, 0, 0, 0, 0⟩,
  ⟨"SEC_FW_INFO", Reg.SEC_FW_INFO, [], 32, .module, 0, 0, 0, 0, 0⟩,
  ⟨"SEC_FW_DIGEST", Reg.SEC_FW_DIGEST 0, [(6, 8)], 64, .module, 0, 0, 0, 0, 0⟩,
  ⟨"SEC_ENCRYPT_BYTE_COUNT", Reg.SEC_ENCRYPT_BYTE_COUNT, [], 64, .module, 0, 0, 0, 0, 0⟩,
  ⟨"SEC_DECRYPT_BYTE_COUNT", Reg.SEC_DECRYPT_BYTE_COUNT, [], 64, .module, 0, 0, 0, 0, 0⟩,
  ⟨"SEC_TAG_FAILURE_COUNT", Reg.SEC_TAG_FAILURE_COUNT, [], 64, .module, 0, 0, 0, 0, 0⟩,
  ⟨"SEC_COMPARE_COUNT", Reg.SEC_COMPARE_COUNT, [], 64, .module, 0, 0, 0, 0, 0⟩,
  ⟨"SEC_ENTROPY_RESTART_COUNT", Reg.SEC_ENTROPY_RESTART_COUNT, [], 64, .module, 0, 0, 0, 0, 0⟩]

/-- The register table of block VRT. -/
def regSpecsVRT : List RegSpec := [
  ⟨"VRT_MBX_UP_TX", Reg.VRT_MBX_UP_TX, [], 64, .function, 0xffffffffffffffff, 0, 0, 0, 0⟩,
  ⟨"VRT_MBX_UP_TX_CTRL", Reg.VRT_MBX_UP_TX_CTRL, [], 32, .function, 0xffff02, 0, 0, 1, 0⟩,
  ⟨"VRT_MBX_UP_RX", Reg.VRT_MBX_UP_RX, [], 64, .function, 0, 0, 0, 0, 0⟩,
  ⟨"VRT_MBX_UP_RX_INFO", Reg.VRT_MBX_UP_RX_INFO, [], 32, .function, 0, 0, 0, 0, 0⟩,
  ⟨"VRT_MBX_DOWN_SEL", Reg.VRT_MBX_DOWN_SEL, [], 32, .function, 0x1ff, 0, 0, 0, 0⟩,
  ⟨"VRT_MBX_DOWN_TX", Reg.VRT_MBX_DOWN_TX, [], 64, .function, 0xffffffffffffffff, 0, 0, 0, 0⟩,
  ⟨"VRT_MBX_DOWN_TX_CTRL", Reg.VRT_MBX_DOWN_TX_CTRL, [], 32, .function, 0xffff02, 0, 0, 1, 0⟩,
  ⟨"VRT_MBX_DOWN_RX", Reg.VRT_MBX_DOWN_RX, [], 64, .function, 0, 0, 0, 0, 0⟩,
  ⟨"VRT_MBX_DOWN_RX_INFO", Reg.VRT_MBX_DOWN_RX_INFO, [], 32, .function, 0, 0, 0, 0, 0⟩,
  ⟨"VRT_MBX_PENDING", Reg.VRT_MBX_PENDING 0, [(16, 4)], 32, .function, 0, 0, 0, 0, 0⟩,
  ⟨"VRT_MBX_DROP_COUNT", Reg.VRT_MBX_DROP_COUNT, [], 64, .function, 0, 0, 0, 0, 0⟩,
  ⟨"VRT_CAP", Reg.VRT_CAP, [], 32, .module, 0, 0, 0, 0, 0⟩,
  ⟨"VRT_STATUS", Reg.VRT_STATUS, [], 32, .module, 0, 0, 0, 0, 0⟩,
  ⟨"VRT_ERR", Reg.VRT_ERR, [], 32, .module, 0, 7, 0, 0, 0⟩,
  ⟨"VRT_COMMIT", Reg.VRT_COMMIT, [], 32, .module, 0, 0, 0, 1, 0⟩,
  ⟨"VRT_SHARE_CFG", Reg.VRT_SHARE_CFG, [], 32, .module, 0, 0, 0, 0, 0xff001fff⟩,
  ⟨"VRT_GEN_CFG", Reg.VRT_GEN_CFG, [], 32, .module, 0, 0, 0, 0, 0xffff⟩,
  ⟨"VRT_INST_SEL", Reg.VRT_INST_SEL, [], 32, .module, 0x1ff, 0, 0, 0, 0⟩,
  ⟨"VRT_INST_CTRL", Reg.VRT_INST_CTRL, [], 32, .module, 1, 0, 0, 0, 0⟩,
  ⟨"VRT_INST_INFO", Reg.VRT_INST_INFO, [], 64, .module, 0, 0, 0, 0, 0⟩,
  ⟨"VRT_INST_HBM_BASE", Reg.VRT_INST_HBM_BASE, [], 64, .module, 0, 0, 0, 0, 0⟩,
  ⟨"VRT_INST_HBM", Reg.VRT_INST_HBM, [], 64, .module, 0, 0, 0, 0, 0⟩,
  ⟨"VRT_INST_QP", Reg.VRT_INST_QP, [], 64, .module, 0, 0, 0, 0, 0⟩,
  ⟨"VRT_INST_SKYLIGHT", Reg.VRT_INST_SKYLIGHT, [], 64, .module, 0, 0, 0, 0, 0⟩,
  ⟨"VRT_INST_POOL_LIMIT", Reg.VRT_INST_POOL_LIMIT, [], 64, .module, 0, 0, 0, 0, 0⟩,
  ⟨"VRT_INST_POOL_USED", Reg.VRT_INST_POOL_USED, [], 64, .module, 0, 0, 0, 0, 0⟩,
  ⟨"VRT_RESTORE_TARGET", Reg.VRT_RESTORE_TARGET, [], 32, .module, 0x3000ffff, 0, 0, 0x80000000, 0⟩,
  ⟨"VRT_RESTORE_VALUE", Reg.VRT_RESTORE_VALUE, [], 64, .module, 0xff00ffffffffffff, 0, 0, 0, 0⟩,
  ⟨"VRT_INST_ISSUE_COUNT", Reg.VRT_INST_ISSUE_COUNT, [], 64, .module, 0, 0, 0, 0, 0⟩,
  ⟨"VRT_RESET_COUNT", Reg.VRT_RESET_COUNT, [], 64, .module, 0, 0, 0, 0, 0⟩,
  ⟨"VRT_PORT_LIMIT", Reg.VRT_PORT_LIMIT 0, [(4, 8)], 64, .module, 0, 0, 0, 0, 0xffffffff001fffff⟩]

/-- The register table of block PWR. -/
def regSpecsPWR : List RegSpec := [
  ⟨"PWR_CAP", Reg.PWR_CAP, [], 32, .module, 0, 0, 0, 0, 0⟩,
  ⟨"PWR_STATUS", Reg.PWR_STATUS, [], 32, .module, 0, 0, 0, 0, 0⟩,
  ⟨"PWR_ERR", Reg.PWR_ERR, [], 32, .module, 0, 0xff, 0, 0, 0⟩,
  ⟨"PWR_COMMIT", Reg.PWR_COMMIT, [], 32, .module, 0, 0, 0, 1, 0⟩,
  ⟨"PWR_LIMIT_CFG", Reg.PWR_LIMIT_CFG, [], 32, .module, 0, 0, 0, 0, 0xf0f07ff⟩,
  ⟨"PWR_TALLOW_CFG", Reg.PWR_TALLOW_CFG, [], 32, .module, 0, 0, 0, 0, 0xffffffff⟩,
  ⟨"PWR_DOMAIN_CFG", Reg.PWR_DOMAIN_CFG, [], 32, .module, 0, 0, 0, 0, 0xfffffffc⟩,
  ⟨"PWR_VPOINT_LIMIT", Reg.PWR_VPOINT_LIMIT, [], 32, .module, 0, 0, 0, 0, 0xff⟩,
  ⟨"PWR_POWER", Reg.PWR_POWER, [], 64, .module, 0, 0, 0, 0, 0⟩,
  ⟨"PWR_SUPPLY", Reg.PWR_SUPPLY, [], 32, .module, 0, 0, 0, 0, 0⟩,
  ⟨"PWR_CAL_GAIN", Reg.PWR_CAL_GAIN, [], 32, .module, 0, 0, 0, 0, 0⟩,
  ⟨"PWR_TILE_ON", Reg.PWR_TILE_ON, [], 64, .module, 0, 0, 0, 0, 0⟩,
  ⟨"PWR_DOMAIN_ON", Reg.PWR_DOMAIN_ON, [], 32, .module, 0, 0, 0, 0, 0⟩,
  ⟨"PWR_VPOINT", Reg.PWR_VPOINT, [], 32, .module, 0, 0, 0, 0, 0⟩,
  ⟨"PWR_THERM_SEL", Reg.PWR_THERM_SEL, [], 32, .module, 0x7f, 0, 0, 0, 0⟩,
  ⟨"PWR_THERM_INFO", Reg.PWR_THERM_INFO, [], 64, .module, 0, 0, 0, 0, 0⟩,
  ⟨"PWR_ELS_STATUS", Reg.PWR_ELS_STATUS, [], 32, .module, 0, 0, 0, 0, 0⟩,
  ⟨"PWR_ELS_CTRL", Reg.PWR_ELS_CTRL, [], 32, .module, 0x30, 0, 0, 3, 0⟩,
  ⟨"PWR_CAP_ACTIVE_COUNT", Reg.PWR_CAP_ACTIVE_COUNT, [], 64, .module, 0, 0, 0, 0, 0⟩,
  ⟨"PWR_TALLOW_US_COUNT", Reg.PWR_TALLOW_US_COUNT, [], 64, .module, 0, 0, 0, 0, 0⟩,
  ⟨"PWR_DROOP_COUNT", Reg.PWR_DROOP_COUNT, [], 64, .module, 0, 0, 0, 0, 0⟩,
  ⟨"PWR_THROTTLE_COUNT", Reg.PWR_THROTTLE_COUNT, [], 64, .module, 0, 0, 0, 0, 0⟩,
  ⟨"PWR_ELS_TRIP_COUNT", Reg.PWR_ELS_TRIP_COUNT, [], 64, .module, 0, 0, 0, 0, 0⟩]

/-- The register table of block MEM. -/
def regSpecsMEM : List RegSpec := [
  ⟨"MEM_CAP", Reg.MEM_CAP, [], 32, .module, 0, 0, 0, 0, 0⟩,
  ⟨"MEM_STATUS", Reg.MEM_STATUS, [], 32, .module, 0, 0, 0, 0, 0⟩,
  ⟨"MEM_ERR", Reg.MEM_ERR, [], 32, .module, 0, 0x3f, 0, 0, 0⟩,
  ⟨"MEM_COMMIT", Reg.MEM_COMMIT, [], 32, .module, 0, 0, 0, 1, 0⟩,
  ⟨"MEM_ECC_CFG", Reg.MEM_ECC_CFG, [], 32, .module, 0, 0, 0, 0, 0xffff0001⟩,
  ⟨"MEM_SCRUB_CFG", Reg.MEM_SCRUB_CFG, [], 32, .module, 0, 0, 0, 0, 0x800000ff⟩,
  ⟨"MEM_STACK_SEL", Reg.MEM_STACK_SEL, [], 32, .module, 7, 0, 0, 0, 0⟩,
  ⟨"MEM_STACK_INFO", Reg.MEM_STACK_INFO, [], 64, .module, 0, 0, 0, 0, 0⟩,
  ⟨"MEM_INJECT_ADDR", Reg.MEM_INJECT_ADDR, [], 64, .module, 0x7fffffffe0, 0, 0, 0, 0⟩,
  ⟨"MEM_INJECT_CTRL", Reg.MEM_INJECT_CTRL, [], 32, .module, 3, 0, 0x80000000, 0, 0⟩,
  ⟨"MEM_ELOG_SEL", Reg.MEM_ELOG_SEL, [], 32, .module, 0x3f, 0, 0, 0, 0⟩,
  ⟨"MEM_ELOG_HEAD", Reg.MEM_ELOG_HEAD, [], 32, .module, 0, 0, 0, 0, 0⟩,
  ⟨"MEM_ELOG_TIME", Reg.MEM_ELOG_TIME, [], 64, .module, 0, 0, 0, 0, 0⟩,
  ⟨"MEM_ELOG_ENTRY", Reg.MEM_ELOG_ENTRY, [], 64, .module, 0, 0, 0, 0, 0⟩,
  ⟨"MEM_CE_COUNT", Reg.MEM_CE_COUNT, [], 64, .module, 0, 0, 0, 0, 0⟩,
  ⟨"MEM_UE_COUNT", Reg.MEM_UE_COUNT, [], 64, .module, 0, 0, 0, 0, 0⟩,
  ⟨"MEM_POISON_READ_COUNT", Reg.MEM_POISON_READ_COUNT, [], 64, .module, 0, 0, 0, 0, 0⟩,
  ⟨"MEM_POISON_CLEAR_COUNT", Reg.MEM_POISON_CLEAR_COUNT, [], 64, .module, 0, 0, 0, 0, 0⟩,
  ⟨"MEM_SRAM_CE_COUNT", Reg.MEM_SRAM_CE_COUNT, [], 64, .module, 0, 0, 0, 0, 0⟩,
  ⟨"MEM_SRAM_UE_COUNT", Reg.MEM_SRAM_UE_COUNT, [], 64, .module, 0, 0, 0, 0, 0⟩,
  ⟨"MEM_JOB_FAULT_COUNT", Reg.MEM_JOB_FAULT_COUNT, [], 64, .module, 0, 0, 0, 0, 0⟩,
  ⟨"MEM_CP_RESTART_COUNT", Reg.MEM_CP_RESTART_COUNT, [], 64, .module, 0, 0, 0, 0, 0⟩]

/-- The register table of block DBG. -/
def regSpecsDBG : List RegSpec := [
  ⟨"DBG_CAP", Reg.DBG_CAP, [], 32, .module, 0, 0, 0, 0, 0⟩,
  ⟨"DBG_STATUS", Reg.DBG_STATUS, [], 32, .module, 0, 0, 0, 0, 0⟩,
  ⟨"DBG_ERR", Reg.DBG_ERR, [], 32, .module, 0, 3, 0, 0, 0⟩,
  ⟨"DBG_COMMIT", Reg.DBG_COMMIT, [], 32, .module, 0, 0, 0, 1, 0⟩,
  ⟨"DBG_LAMP_CTL", Reg.DBG_LAMP_CTL, [], 32, .module, 0x7ff, 0, 0, 0, 0⟩,
  ⟨"DBG_LAMP_STATE", Reg.DBG_LAMP_STATE, [], 64, .module, 0, 0, 0, 0, 0⟩,
  ⟨"DBG_BUTTON_COUNT", Reg.DBG_BUTTON_COUNT, [], 64, .module, 0, 0, 0, 0, 0⟩,
  ⟨"DBG_MUX", Reg.DBG_MUX 0, [(9, 4)], 32, .module, 0, 0, 0, 0, 0xfffff⟩]

/-- Every register table of the spec. -/
def regSpecs : List RegSpec :=
  regSpecsGLB ++ regSpecsHIF ++ regSpecsADM ++ regSpecsXLT ++ regSpecsQPE ++ regSpecsRTR ++ regSpecsLNK ++ regSpecsCOL ++ regSpecsTRN ++ regSpecsPLC ++ regSpecsSYN ++ regSpecsSCH ++ regSpecsSEC ++ regSpecsVRT ++ regSpecsPWR ++ regSpecsMEM ++ regSpecsDBG

end Sys2Proof.Machine
end

