-- ==== Sys2Proof/Machine/State.lean ====
section
/-!
DEFINITION. The state of the module as plain data, the state right after reset, and the reasons a step can stop.
-/

namespace Sys2Proof.Machine

/-- Reasons a step stops with a fault. There are none: the spec gives every behaviour of the module an outcome (R25), so
no command of this block ends in a fault. Safe. -/
inductive Fault where
  deriving DecidableEq, Repr

/-- Reasons a command has no meaning in this model. -/
inductive Refusal where
  /-- The command has no meaning yet. Raised by the refused arms of exec alone. Safe: nothing is claimed of it. -/
  | notModelled (mnemonic : String)
  deriving DecidableEq, Repr

/-- The ordering variants (R1, R52). -/
inductive Variant where
  | standard | noCipher | sample
  deriving DecidableEq, Repr, Inhabited

/-- The register store: plain or shadow values and committed values, keyed by copy and offset. A key that is not listed
reads as the register's reset value. -/
structure Regs where
  shadow : SMap Word
  committed : SMap Word
  deriving DecidableEq, Repr, Inhabited

/-- The host interface (R716 to R748). `refused` are the requests (port, number) given up by a reset, and the peer requests that failed the check of the peer windows, as they
were to be issued (R734). -/
structure Hif where
  ports : SMap Port
  refused : List (Nat × Nat)
  fns : SMap Fn
  deriving DecidableEq, Repr, Inhabited

/-- The translation unit (R109 to R124). `tlb` holds the most recently used entry first. `ends` are the results of walks that the requests
that waited on them have not taken yet. `dirtyWait` are the dirty bits that wait for room among the bitmap lines (instance, slot, page)
(R129), and `dirtyHeld` the writes whose bits these are, with what follows them (R128). `invalWait` are the walks that keep INVAL_BUSY at 1
(R139), and `drains` the drains in progress (R123). -/
structure Xlt where
  tlb : List TlbEntry
  walkCache : List (Nat × Nat × Nat)
  walks : SMap Walk
  missQueue : List Walk
  ends : List WalkEnd
  dirtyWait : List (Nat × Nat × Nat)
  dirtyHeld : List HeldWrite
  seq : Nat
  invalInst : SMap Nat
  invalAll : Nat
  invalWait : List Nat
  drains : List UseDrain
  faults : SMap FaultEntry
  faultNext : Nat
  deriving DecidableEq, Repr, Inhabited

/-- Instances (R688 to R705). -/
structure Vrt where
  insts : SMap Inst
  lastGen : SMap Nat
  retiredGens : List (Nat × Nat)
  retiredWqGens : List (Nat × Nat)
  deriving DecidableEq, Repr, Inhabited

/-- Queues (R145 to R200). -/
structure Queues where
  wqs : SMap Wq
  wqGens : SMap Nat
  cqs : SMap Cq
  lqs : SMap Lq
  turn : Nat
  bells : Nat
  nextOp : Nat
  deriving DecidableEq, Repr, Inhabited

/-- Admin queues and expert control (R201 to R236). `turn` is the port whose command was fetched last (R214). -/
structure Adm where
  queues : SMap AdmQ
  turn : Nat
  seq : Nat
  unlocked : Nat
  deriving DecidableEq, Repr, Inhabited

/-- The RMA engine and the transport (R247 to R327). `send` is keyed by 8 × destination + class, `recv` by
8 × source + class, `fwd` (forwarded requests) by 8 × (source + 2^17 × stream module) + class, `peers` by module and `probes` by module with
the attempts made. `forwards` are the packets that wait to be passed on until the module's epoch is known (R314, R322), `answers` the responses, with
their data, and `unsealed` the transactions (with whether their segments go afresh) that wait for their queue pair's cipher (R44), `allocWait` the owners whose allocation of an entry waits (R282), `reclaimed` the free entries that the reset of an instance freed last (R701), and `shares` the deficit round
robin of the instances (R695). -/
structure Qpe where
  qps : SMap Qp
  txns : SMap Txn
  send : SMap Nat
  recv : SMap RStream
  fwd : SMap FStream
  forwards : List Pkt
  epoch : Nat
  peers : SMap Nat
  probes : SMap Nat
  noticeAt : SMap Nat
  arrivals : SMap Arrival
  nextArrival : Nat
  shares : Drr
  uses : Nat
  resolved : List Resolved
  control : List (TxnOwner × Pkt)
  inbox : List Pkt
  answers : List (Pkt × Bytes)
  unsealed : SMap Bool
  errors : List QpErr
  allocWait : List TxnOwner
  reclaimed : List Nat
  deriving DecidableEq, Repr, Inhabited

/-- The router (R346 to R394). `out` holds the output queues by 8 × group + link, oldest packet first; `eject` the packets
for this module; `lastInput` the input of the packet ejected last; `lfsr` the register of the
marking decisions (R367); `notices` the last CONGESTION notices (target, port, class, time);
`depth` the high-water marks; `turnVc` and `turnIn` the virtual channel and the input served last (R366); `samples` the statistics of
the queues, by 8 × group + class and from 64 for ejection, since `sampleStart` (R619); `cableErr` is `RTR_CABLE_ERR`. `capped` are the
token buckets of flows without a throttle entry, by 8 × destination + class, in thousandths of a byte, while the cap is unmet (R755). -/
structure Rtr where
  out : SMap (List OutPkt)
  eject : List OutPkt
  lastInput : Nat
  lfsr : Nat
  turnVc : SMap Nat
  turnIn : SMap Nat
  samples : SMap Sample
  sampleStart : Nat
  cableErr : Nat
  notices : List (Nat × Nat × Nat × Nat)
  throttle : SMap Throttle
  capped : SMap Bucket
  depth : SMap Nat
  deriving DecidableEq, Repr, Inhabited

/-- The links (R629 to R653), by 8 × group + link, and their groups; `paused` holds the end of a received pause by 8 × link +
priority, and `pausing` are the pauses that this module holds the far end in, likewise. -/
structure Lnk where
  links : SMap Link
  groups : SMap LinkGroup
  paused : SMap Nat
  pausing : List Nat
  deriving DecidableEq, Repr, Inhabited

/-- Hall pages of this home and skylights (R56 to R86). `copies` are the skylights of other homes held here, keyed by
home × 2^20 + index, `left` those of them that left the cache while open, and `gone` the tags last seen revoked there, likewise; `revokes` numbers revocations; `drains` are those noticed here and not yet acknowledged. -/
structure Hall where
  pages : SMap Page
  sky : SMap Sky
  copies : SMap Sky
  left : SMap Sky
  gone : SMap Nat
  revokes : Nat
  drains : List Drain
  frees : List Freeing
  deriving DecidableEq, Repr, Inhabited

/-- The placement engine (R529 to R561). `held` is keyed by home × 2^23 + page; `cache` holds the most recently used entry
first; `forward` names the holder of a page once held here; `reserves` are the free reserves last learned of, by
partition × 2^17 + target (R540); `pins` the modules of pinned programs; `absent` the excluded pairs of program and module
(R554); `heat` the operand heat by 8 × program + slot (R555); `shoots` the shoot-downs in flight and `changes` those that wait
for one (R549); `copies` counts the copies begun here, `rate` is the token bucket of all of them (R543), and `starts` are those that wait (R564). -/
structure Plc where
  held : SMap Held
  cache : List PlcEntry
  forward : SMap Nat
  watch : List Watch
  incoming : SMap Incoming
  policies : SMap Policy
  reserves : SMap Nat
  pins : SMap Nat
  absent : List (Nat × Nat)
  heat : SMap Nat
  shoots : List Shoot
  changes : List Change
  copies : Nat
  rate : Bucket
  starts : List StartWait
  deriving DecidableEq, Repr, Inhabited

/-- What a 2 MiB frame of the module's HBM is used for; a frame that is not listed is free (R540, R693, R835). -/
inductive FrameUse where
  | inst (n : Nat)
  | home (page : Nat)
  | foreign (home page : Nat)
  | pf (n : Nat)
  deriving DecidableEq, Repr, Inhabited

/-- The condition of a 32-byte HBM word that is not clean (R799). -/
inductive Ecc where
  | correctable | uncorrectable | poisoned
  deriving DecidableEq, Repr, Inhabited

/-- The HBM with its check state and its error reporting (R799 to R812). Memory is keyed by physical byte address and an
unlisted byte reads as zero (R781). `since` counts, per kind, memory and unit, the occurrences since the last ECC record,
and `raisedAt` the time of that record (R804). -/
structure Hbm where
  mem : SMap Byte
  ecc : SMap Ecc
  frames : SMap FrameUse
  stackUp : SMap Nat
  refresh2x : Nat
  ceHour : SMap Nat
  ceLast : SMap Nat
  elog : SMap (Nat × Nat)
  elogNext : Nat
  elogWrapped : Bool
  since : SMap Nat
  raisedAt : SMap Nat
  scrubbing : Nat
  arbs : SMap Arb
  client : Client
  deriving DecidableEq, Repr, Inhabited

/-- Keys and cipher engines (R659 to R687). `engines` is the mask of those in service; `entropy` the state of the entropy source (0
STARTING, 1 OK, 2 FAILED) with its start-up failures in a row, and `due` the generators that wait for a seed: 0 and 1 of the cipher
clusters, 2 of the control processor (R671, R672). `drbgs` are the generators: what they answer is free (log 2), so that of each its generate
requests since its last seed and the time of that seed are held (log 100). -/
structure Sec where
  keys : SMap KeySlot
  engines : Nat
  entropy : Nat
  entropyFails : Nat
  due : List Nat
  drbgs : SMap (Nat × Nat)
  deriving DecidableEq, Repr, Inhabited

/-- Job domains by partition (R789 to R798), the DOMAIN_SETUP packets that wait here as root (partition, member, CRC, epoch),
and the job faults raised by the command that is running (partition, reason, module it is about). -/
structure Jobs where
  domains : SMap Domain
  setups : List (Nat × Nat × Nat × Nat)
  faults : List (Nat × Nat × Nat)
  deriving DecidableEq, Repr, Inhabited

/-- The collective engine (R395 to R443): groups, the GROUP_SETUP packets that wait here as root (group, member, CRC), tree
operations, what the tree has handed over within the command, the number of operations this module has rooted, and the round robin of the groups by 8 × exit link group + lane (R415). -/
structure Col where
  groups : SMap Group
  setups : List (Nat × Nat × Nat)
  ops : List TreeOp
  todo : List TreeEv
  rooted : Nat
  served : SMap Drr
  deriving DecidableEq, Repr, Inhabited

/-- Transit programs and the program entries by 256 × die + entry (R463, R469, R470). -/
structure Trn where
  programs : SMap Program
  entries : SMap TEntry
  launches : Nat
  deriving DecidableEq, Repr, Inhabited

/-- Wick queues, barriers by group, and mailbox slots by 2 × child instance (+ 1 for the slot toward the child) (R567 to
R588). `rose` are the wick queues whose count rose in the command that is running (R571). -/
structure Syn where
  wicks : SMap Wick
  bars : SMap Barrier
  slots : SMap MbxSlot
  rose : List Nat
  deriving DecidableEq, Repr, Inhabited

/-- A firmware bank of the flash: its image, which is empty when the bank is, and whether it is STAGED (R783, R784). -/
structure Bank where
  image : Bytes
  staged : Bool
  deriving DecidableEq, Repr, Inhabited

/-- What the flash is being programmed with, for a command (port, number) (R784, R826). -/
inductive FlashJob where
  | stage (port cmd bank : Nat) (image : Bytes)
  | cal (port cmd item : Nat) (value : Bytes)
  deriving DecidableEq, Repr, Inhabited

/-- Service state in the module's flash and at its front panel (R813 to R833). `lifeRing` is keyed by record slot; `live` are the 22
counters and then the 96 histogram bins of the life log as counted, `written` as last written to flash (R827, R828), and `energy`
what has not yet made a Wh, in tenths of a joule. `cal` are the calibration items as stored, `calNow` those in force, `calInfo` the
write count and the hall time of the last write of each (R825). `banks` are the firmware banks, `bootBank` the boot-bank pointer, and
`svn` the fuse SVN (R674, R783). `update` is the step of a recovery update: 0 none, 1 requested, 2 components passed, 3 transferring,
4 transferred, 5 verified, 6 applied, with the bytes of the image so far (R831). `lifeOwed` are the life-log records that wait for the
control processor to run (R45). -/
structure Svc where
  lifeRing : SMap Bytes
  lifeOwed : List Bytes
  bmcOwed : List (Nat × Bytes)
  lifeHead : Nat
  lifeRecords : Nat
  lastEpoch : Nat
  live : List Nat
  written : List Nat
  energy : Nat
  cal : SMap Bytes
  calNow : SMap Bytes
  calInfo : SMap (Nat × Nat)
  banks : SMap Bank
  bootBank : Nat
  job : Option FlashJob
  svn : Nat
  locate : Bool
  update : Nat
  updateImage : Bytes
  deriving DecidableEq, Repr, Inhabited

/-- A temperature sensor: its temperature and its highest since power-on in 1/8 °C, and its level (0 NORMAL to 3 CRITICAL) (R761,
R773). -/
structure Sensor where
  temp : Int
  max : Int
  level : Nat
  deriving DecidableEq, Repr, Inhabited

/-- The load switch of an ELS bay (R765, R773): whether its presence contact is closed, its ramp runs, its switch feeds the bay,
is latched off, or stands at the current limit. -/
structure Bay where
  present : Bool
  ramping : Bool
  powered : Bool
  latched : Bool
  limiting : Bool
  deriving DecidableEq, Repr, Inhabited

/-- The power unit (R749 to R768). Domains are numbered 0 to 63 for tile pairs, from 64 for link groups, 72 for host ports, 76 for
cipher clusters and 78 for adders; `wakes` is the µs of the last wakes begun and their number. `window` holds P_est per µs, newest
first. `tallow` is the target in 1/16 W and the µs of hold left, and `tallowW` tallow's own share. `hints` wait for their time (code,
AT). `droops` counts detections per die in a ms (ms, count), and `drooped` are the transit dies that must step down for them.
`therm` and `raised` hold the times of the last THERMAL and POWER records. `hot` are the link groups that an optical engine sensor at
CRITICAL has powered down. `off` says that a shut-down sequence has run, for `cause` (as in R828), at `offAt`; `lost` that the input is
out of range, `goodAt` when it last came back, and `woken` that it has come back, or the BMC has asked for power, since then (R767). -/
structure Pwr where
  on : List Nat
  waking : List Nat
  wakeQueue : List Nat
  wakes : Nat × Nat
  pEst : Nat
  pWin : Nat
  measured : Nat
  volts : Nat
  amps : Nat
  window : List Nat
  rawSum : Nat
  rawN : Nat
  gain : Nat
  bubbles : Nat
  unmet : Bool
  maxFor : Nat
  quietFor : Nat
  excess : Nat
  tallow : Option (Nat × Nat)
  tallowW : Nat
  hints : List (Nat × Nat)
  keepWarm : Bool
  droopSkip : List Nat
  droops : SMap (Nat × Nat)
  drooped : List Nat
  sensors : SMap Sensor
  therm : SMap Nat
  hot : List Nat
  points : SMap Nat
  relock : List Nat
  bays : SMap Bay
  low : Bool
  off : Bool
  cause : Nat
  offAt : Nat
  lost : Bool
  goodAt : Nat
  woken : Bool
  raised : SMap Nat
  deriving DecidableEq, Repr, Inhabited

/-- The control processor and the boot (R676 to R686, R779 to R785). `state` is BOOT_STATE (0 ROM, 1 RUNNING, 2 FAILED); `loaded` says
that firmware runs or has run since the last load; `dies` are the bits FABRIC_UP, T0_UP, T1_UP and HOST_UP. `cpHalted` says that the
control processor has halted, with `cause`; `halts` are the times of its halts of causes 1 to 4, newest first; `stuck` that it stays
halted; `activating` that a FIRMWARE_ACTIVATE with WHEN 1 has replied. Of the running image: its bank, build, SVN, key and digest, and the
fuse SVN as it was loaded (R686). `dark` says that a module reset cleared `GLB_DIE_STATUS` and that no firmware has run since (R678, R777). -/
structure Boot where
  state : Nat
  loaded : Bool
  dies : Nat
  cpHalted : Bool
  cause : Nat
  halts : List Nat
  stuck : Bool
  activating : Bool
  bank : Nat
  fwBuild : Nat
  fwSvn : Nat
  fuseSvn : Nat
  fwKey : Nat
  digest : Bytes
  burnFailed : Bool
  dark : Bool
  deriving DecidableEq, Repr, Inhabited

/-- Scheduling (R595 to R619): the hall-time unit's state (0 FREE, 1 ACQUIRING, 2 LOCKED, 3 HOLDOVER), whether a time of day is
valid, master, steps removed and parent link; the last offset, the measurement that ACQUIRING compares with, and the nanoseconds still
to be steered away with the progress towards the next one; what each direct link announced, its peer delay and its Pdelay_Req in flight
(sequence, departure); the Sync messages sent; the time that the next 1PPS edge is named with, the last accepted edge, and the edges
since the last message. `latch` is the high dword latched for each function (R620). The cadences are by partition. -/
structure Sch where
  tstate : Nat
  todValid : Bool
  master : Option Nat
  steps : Nat
  parent : Option Nat
  offset : Int
  measured : Option Int
  steer : Int
  steerRun : Nat
  heard : SMap Announce
  delays : SMap Nat
  asked : SMap (Nat × Nat)
  syncs : Nat
  todNext : Option Nat
  lastEdge : Option Nat
  edgesBare : Nat
  latch : SMap Nat
  gates : SMap Gates
  drr : SMap Drr
  shapers : SMap Bucket
  policers : SMap Bucket
  cadences : SMap Cadence
  deriving DecidableEq, Repr, Inhabited

/-- Features set by SET_FEATURE (R224, R302, R348): `switched` is a bit per link group, `rings` the four ring sizes. COUNT_EPOCH takes effect at hall
time `epochFrom`, and `epochOld` is the value until then; `epochDue` says that the boundary at its first multiple has not been applied yet (R574). -/
structure Feat where
  moduleNumber : Nat
  switched : Nat
  rings : List Nat
  udpPort : Nat
  timeMaster : Bool
  countEpoch : Nat
  epochOld : Nat
  epochFrom : Nat
  epochDue : Bool
  deriving DecidableEq, Repr, Inhabited

/-- The state of the module. `pending` is the queue of commands; `out` what has been sent outside; `events` the lantern
events raised and not yet delivered; `draws` counts the free values taken; `now` is the time since power-on in ns. -/
structure State where
  pending : List Instr
  out : List Out
  events : List (EventTo × Event)
  draws : Nat
  now : Nat
  hallTime : Nat
  variant : Variant
  regs : Regs
  hif : Hif
  xlt : Xlt
  vrt : Vrt
  q : Queues
  feat : Feat
  adm : Adm
  qpe : Qpe
  rtr : Rtr
  lnk : Lnk
  hall : Hall
  plc : Plc
  hbm : Hbm
  svc : Svc
  sch : Sch
  syn : Syn
  trn : Trn
  sec : Sec
  jobs : Jobs
  col : Col
  boot : Boot
  pwr : Pwr
  deriving DecidableEq, Repr, Inhabited

/-! ## Reset (R18, R776, R781) -/

/-- A thermal item of the calibration store with the shipped thresholds of R761, for sensors 0 to 67 in 1/8 °C. -/
def shippedThermal : Bytes :=
  (List.range 68).flatMap fun i =>
    let t := if i < 42 then [95, 105, 115] else if i < 50 then [85, 95, 105] else if i < 66 then [70, 80, 90] else [40, 45, 50]
    t.flatMap fun c => [BitVec.ofNat 8 (8 * c), BitVec.ofNat 8 (8 * c / 256)]

/-- The calibration store as the model takes it to be written at test: the shipped thresholds, and zeros elsewhere (R825; log 41). -/
def factoryCal : SMap Bytes :=
  [(1, List.replicate 16 0), (2, List.replicate 16 0), (3, shippedThermal), (4, List.replicate 8 0), (5, List.replicate 56 0),
    (6, List.replicate 1312 0), (7, List.replicate 136 0), (8, List.replicate 1024 0), (9, List.replicate 2048 0)]

/-- A physical-function instance as it stands from power-on reset on (R690). -/
def pfInst : Inst := { (default : Inst) with state := .active, share := 256 }

/-- The module right after power-on reset, before its boot (R18, R781): every register at its reset value, every queue and table empty,
the four physical-function instances present (R690), and no cable, fibre, laser module or firmware yet (logs 41 to 43). -/
def State.reset : State where
  pending := []
  out := []
  events := []
  draws := 0
  now := 0
  hallTime := 0
  variant := .standard
  regs := default
  hif := { ports := [0, 1, 2, 3].map (fun p => (p, { (default : Port) with perst := true })), fns := [], refused := [] }
  xlt := default
  vrt := { insts := [0, 128, 256, 384].map (fun n => (n, pfInst)), lastGen := [0, 128, 256, 384].map (fun n => (n, 0)),
           retiredGens := [], retiredWqGens := [] }
  q := default
  feat := { moduleNumber := 0, switched := 0, rings := [1, 1, 1, 1], udpPort := 0xC455, timeMaster := false, countEpoch := 0, epochOld := 0, epochFrom := 0, epochDue := false }
  adm := default
  qpe := default
  rtr := { (default : Rtr) with lfsr := 1 }
  lnk := default
  hall := default
  plc := default
  hbm := default
  svc := { (default : Svc) with
    live := List.replicate 118 0
    written := List.replicate 118 0
    cal := factoryCal
    calNow := factoryCal }
  sch := default
  syn := default
  trn := default
  sec := { (default : Sec) with due := [0, 1, 2] }
  jobs := default
  col := default
  boot := default
  pwr := { (default : Pwr) with gain := 4096 }

end Sys2Proof.Machine
end

