-- ==== Sys2Proof/Machine/Base.lean ====
section
/-!
DEFINITION. The named operations over registers, counters, free values, outputs and events (R13, R18, R23, R172, R224).
-/

namespace Sys2Proof.Machine

/-- The outcome of a command. -/
abbrev Result := Host.Outcome State Fault Refusal

/-! ## Statuses (R21), reasons (R74) and event types (R23) -/

def stSuccess : Nat := 0x00
def stAborted : Nat := 0x01
def stLocalProtection : Nat := 0x02
def stRemoteAccess : Nat := 0x03
def stRevoked : Nat := 0x04
def stTranslationFault : Nat := 0x05
def stPoisoned : Nat := 0x06
def stTimeout : Nat := 0x07
def stHostMemoryError : Nat := 0x08
def stTagFailure : Nat := 0x09
def stOwnerReset : Nat := 0x0A
def stResource : Nat := 0x0B
def stBadDescriptor : Nat := 0x0C
def stInexact : Nat := 0x0D
def stJobFault : Nat := 0x0E
def stVersion : Nat := 0x0F

/-- DETAIL codes of BAD_DESCRIPTOR (R168). -/
def dOpcode : Nat := 1
def dLength : Nat := 2
def dGeneration : Nat := 3
def dField : Nat := 4
def dChainHops : Nat := 5
def dChainPlacement : Nat := 6

/-- DETAIL codes of ABORTED (R168). -/
def dQuiesce : Nat := 1
def dSnuff : Nat := 2
def dCancel : Nat := 3
def dBusMaster : Nat := 4

/-- Reason codes of a refused access (R74). -/
def rsNone : Nat := 0
def rsKeyUnknown : Nat := 1
def rsKeyRevoked : Nat := 2
def rsPageUnallocated : Nat := 3
def rsPartition : Nat := 4
def rsRights : Nat := 5
def rsRange : Nat := 6
def rsTranslation : Nat := 7
def rsPoison : Nat := 8
def rsModuleAbsent : Nat := 9

/-- Lantern event types (R23). -/
def evAdminDone : Nat := 0x01
def evCqNotify : Nat := 0x02
def evQueueError : Nat := 0x03
def evLinkState : Nat := 0x04
def evCounterHalf : Nat := 0x05
def evJobFault : Nat := 0x06
def evMailbox : Nat := 0x07
def evPower : Nat := 0x08
def evThermal : Nat := 0x09
def evEcc : Nat := 0x0A
def evPlacement : Nat := 0x0B
def evServiceButton : Nat := 0x0C
def evGateSwitched : Nat := 0x0D
def evFirmware : Nat := 0x0E
def evDirtyLogFull : Nat := 0x0F

/-! ## Kinds of tree operations (R428) -/

def tkBarrier : Nat := 1
def tkGroupDefine : Nat := 2
def tkRevoke : Nat := 3
def tkFreePages : Nat := 4
def tkShootDown : Nat := 5
def tkJobFault : Nat := 6
def tkSnapshot : Nat := 7
def tkAbort : Nat := 8

/-! ## Free values and outputs -/

/-- The next 32 free bytes. -/
def State.freeMask (s : State) : Bytes := (List.range 4).flatMap fun i => leBytes 8 (Config.free (s.draws + i)).toNat

/-- The next free value (log 2). -/
def State.freeVal (s : State) : Nat := (Config.free s.draws).toNat

/-- The state after one free value has been taken. -/
def State.drawn (s : State) : State := { s with draws := s.draws + 1 }

/-- A free choice among the elements of a list, or `d` of an empty one (log 2). -/
def State.choose (s : State) (l : List Nat) (d : Nat) : Nat := l.getD (s.freeVal % l.length) d

/-- The state after something has been sent outside. -/
def State.emit (s : State) (o : Out) : State := { s with out := s.out ++ [o] }

/-! ## Registers (R13, R15, R18) -/

/-- The key of a register copy: copy 0 is the module's, copy 1 + n that of the function of instance n. -/
def regKey (copy : Nat) (r : Reg) : Nat := copy * 0x4000000 + r.addr

/-- The plain or shadow value of a register (R13). -/
def State.reg (s : State) (r : Reg) : Word := SMap.getD s.regs.shadow r.addr r.reset

/-- The committed value of a shadowed register (R15). -/
def State.com (s : State) (r : Reg) : Word := SMap.getD s.regs.committed r.addr r.reset

/-- The value of the copy of a register that belongs to the function of instance `n`. -/
def State.regOf (s : State) (n : Nat) (r : Reg) : Word := SMap.getD s.regs.shadow (regKey (n + 1) r) r.reset

/-- Set the plain or shadow value of a register. -/
def State.setReg (s : State) (r : Reg) (v : Word) : State :=
  { s with regs := { s.regs with shadow := SMap.put s.regs.shadow r.addr v } }

/-- Set the committed value of a register. -/
def State.setCom (s : State) (r : Reg) (v : Word) : State :=
  { s with regs := { s.regs with committed := SMap.put s.regs.committed r.addr v } }

/-- Set the copy of a register that belongs to the function of instance `n`. -/
def State.setRegOf (s : State) (n : Nat) (r : Reg) (v : Word) : State :=
  { s with regs := { s.regs with shadow := SMap.put s.regs.shadow (regKey (n + 1) r) v } }

/-- Return the copy of a register that belongs to the function of instance `n` to its reset value (R18). -/
def State.unsetRegOf (s : State) (n : Nat) (r : Reg) : State :=
  { s with regs := { s.regs with shadow := SMap.del s.regs.shadow (regKey (n + 1) r) } }

/-- Field [hi:lo] of a register. -/
def State.regF (s : State) (r : Reg) (hi lo : Nat) : Nat := fld (s.reg r) hi lo

/-- Field [hi:lo] of a committed register. -/
def State.comF (s : State) (r : Reg) (hi lo : Nat) : Nat := fld (s.com r) hi lo

/-- Set field [hi:lo] of a register. -/
def State.setRegF (s : State) (r : Reg) (hi lo v : Nat) : State := s.setReg r (setFld (s.reg r) hi lo v)

/-- Set bit `i` of a sticky flag register (R14). -/
def State.setFlag (s : State) (r : Reg) (i : Nat) : State := s.setReg r (setFld (s.reg r) i i 1)

/-- Set bit `i` of the copy of a sticky flag register of instance `n`'s function. -/
def State.setFlagOf (s : State) (n : Nat) (r : Reg) (i : Nat) : State :=
  s.setRegOf n r (setFld (s.regOf n r) i i 1)

/-- Write a value into both the committed set and the shadow (R236). -/
def State.setBoth (s : State) (r : Reg) (v : Word) : State := (s.setReg r v).setCom r v

/-- Take the shadow value of each register into use (R235). -/
def State.commitRegs (s : State) (rs : List Reg) : State := rs.foldl (fun s r => s.setCom r (s.reg r)) s

/-- Return every register whose offset lies in [lo, hi) of some copy to its reset value (R18, R777). -/
def State.resetRegs (s : State) (lo hi : Nat) : State :=
  let p : Nat → Word → Bool := fun k _ => !(decide (lo ≤ k % 0x4000000) && decide (k % 0x4000000 < hi))
  { s with regs := { shadow := SMap.keep s.regs.shadow p, committed := SMap.keep s.regs.committed p } }

/-- Return the registers of the copy of instance `n`'s function whose offset lies in [lo, hi) to their reset values. -/
def State.resetRegsOf (s : State) (n lo hi : Nat) : State :=
  let p : Nat → Word → Bool := fun k _ =>
    !(k / 0x4000000 == n + 1 && decide (lo ≤ k % 0x4000000) && decide (k % 0x4000000 < hi))
  { s with regs := { s.regs with shadow := SMap.keep s.regs.shadow p } }

/-! ## Events (R171, R172) and statistics counters (R648) -/

/-- Raise a lantern event: it is delivered at the end of the command, after every completion record (R24). -/
def State.raise (s : State) (dest : EventTo) (typ source data0 data1 : Nat) : State :=
  { s with events := s.events ++ [(dest, ⟨typ, source, data0, s.hallTime, data1⟩)] }

/-- Raise events that waited for a record (R24). -/
def State.raiseAll (s : State) (es : List (EventTo × Event)) : State := { s with events := s.events ++ es }

/-- The BAR0 base of the block that holds an offset (R719). -/
def blockBase (addr : Nat) : Nat :=
  let bases := [0x0, 0x100000, 0x200000, 0x800000, 0xC00000, 0x1000000, 0x1400000, 0x1800000, 0x1C00000, 0x2000000,
    0x2400000, 0x2800000, 0x2C00000, 0x3000000, 0x3400000, 0x3800000, 0x3C00000]
  bases.foldl (fun a b => if b ≤ addr then b else a) 0

/-- Add `n` to a 40-bit statistics counter kept at `key`; COUNTER_HALF is raised when bit 39 goes from 0 to 1 (R648). -/
def State.addCounter (s : State) (key addr sel n : Nat) : State :=
  let old := (SMap.getD s.regs.shadow key 0).toNat
  let new := (old + n) % 0x10000000000
  let s := { s with regs := { s.regs with shadow := SMap.put s.regs.shadow key (BitVec.ofNat 64 new) } }
  if !bit old 39 && bit new 39 then s.raise .pfs evCounterHalf addr new sel else s

/-- Add `n` to a statistics counter of the module. -/
def State.countN (s : State) (r : Reg) (n : Nat) : State := s.addCounter r.addr r.addr 0 n

/-- Count one event. -/
def State.count (s : State) (r : Reg) : State := s.countN r 1

/-- Add `n` to the copy of a counter that belongs to the function of instance `k`. -/
def State.countOf (s : State) (k : Nat) (r : Reg) (n : Nat) : State := s.addCounter (regKey (k + 1) r) r.addr 0 n

/-- Add `n` to the counter behind selection value `sel` (R648). -/
def State.countSel (s : State) (sel : Nat) (r : Reg) (n : Nat) : State :=
  s.addCounter (regKey (sel + 1024) r) r.addr sel n

/-- The value of a counter behind a selection value. -/
def State.selCount (s : State) (sel : Nat) (r : Reg) : Nat := (SMap.getD s.regs.shadow (regKey (sel + 1024) r) 0).toNat

/-- Send something to the gutter: it is counted in total and under its cause (R327). -/
def State.gutter (s : State) (cause : Nat) : State :=
  (s.count .QPE_GUTTER_COUNT).countSel cause .QPE_GUTTER_CAUSE_COUNT 1

/-- Gutter causes (R327). -/
def gStaleDstEpoch : Nat := 1
def gStaleSrcEpoch : Nat := 2
def gStaleGeneration : Nat := 3
def gReleasedTxn : Nat := 4
def gVersion : Nat := 5
def gUnknownType : Nat := 6
def gResponderMismatch : Nat := 7
def gResponderBusy : Nat := 8
def gEncryptionMismatch : Nat := 9
def gReplay : Nat := 10
def gEncap : Nat := 11
def gRecord : Nat := 12

/-! ## Identity (R1, R49 to R53) -/

/-- `GLB_VARIANT.VARIANT` (R52). -/
def State.variantByte (s : State) : Nat :=
  match s.variant with
  | .standard => 0x53
  | .noCipher => 0x4E
  | .sample => 0x58

/-- The value of `GLB_CAP0` (R53). -/
def State.cap0 (s : State) : Nat :=
  match s.variant with
  | .standard => 0x1FFF
  | .noCipher => 0x0FFF
  | .sample => 0x3FFF

def capDebugOpen : Nat := 13
def capCipher : Nat := 12
def capCadence : Nat := 11
def capPlacement : Nat := 10
def capTransit : Nat := 9
def capCollective : Nat := 8

/-- Whether a capability bit reads 1 (R8, R53). -/
def State.hasCap (s : State) (i : Nat) : Bool := bit s.cap0 i

/-! ## Ports and functions (R688, R716) -/

/-- The port of an instance number (R688). -/
def portOf (inst : Nat) : Nat := inst / 128 % 4

/-- Whether an instance number is a physical function's (R688). -/
def isPf (inst : Nat) : Bool := inst % 128 == 0

/-- The instance number of the physical function of an instance's port. -/
def pfOf (inst : Nat) : Nat := inst - inst % 128

/-- A host port. -/
def State.port (s : State) (p : Nat) : Port := SMap.getD s.hif.ports p default

/-- Whether firmware runs on the control processor (R46, R678). -/
def State.cpRuns (s : State) : Bool := s.boot.loaded && !s.boot.cpHalted

/-- Send an event to the BMC (R818). The control processor serves the management interface (R45), so one that falls due while it does not run
is sent once it runs (log 78). -/
def State.bmc (s : State) (kind : Nat) (data : Bytes) : State :=
  if s.cpRuns then s.emit (.pldmEvent kind data) else { s with svc := { s.svc with bmcOwed := s.svc.bmcOwed ++ [(kind, data)] } }

/-- Whether the BARs of the functions are served in full: the host die is up, and firmware has been loaded (R54, R717). -/
def State.barOpen (s : State) : Bool := bit s.boot.dies 3 && s.boot.loaded

/-- Whether BAR0 answers at an offset: when boot has failed, only GLB and SEC do (R678, R717). -/
def State.barAnswers (s : State) (addr : Nat) : Bool :=
  bit s.boot.dies 3 && (s.boot.loaded || addr / 0x400000 == 11 || decide (addr < 0x100000))

/-- Replace a host port. -/
def State.setPort (s : State) (p : Nat) (x : Port) : State :=
  { s with hif := { s.hif with ports := SMap.put s.hif.ports p x } }

/-- A function as after its reset; Enable Relaxed Ordering resets to 1 (PRESUMED from PCIe, log 39). -/
def fnReset : Fn := { (default : Fn) with relaxed := true }

/-- A function's state; one that is not listed is as after its reset. -/
def State.fn (s : State) (n : Nat) : Fn := SMap.getD s.hif.fns n fnReset

/-- Replace a function's state. -/
def State.setFn (s : State) (n : Nat) (x : Fn) : State :=
  { s with hif := { s.hif with fns := SMap.put s.hif.fns n x } }

/-- An instance, if it is not ABSENT (R697). -/
def State.inst (s : State) (n : Nat) : Option Inst := SMap.find s.vrt.insts n

/-- Replace an instance. -/
def State.setInst (s : State) (n : Nat) (i : Inst) : State :=
  { s with vrt := { s.vrt with insts := SMap.put s.vrt.insts n i } }

/-- Update an instance if it exists. -/
def State.updInst (s : State) (n : Nat) (f : Inst → Inst) : State :=
  { s with vrt := { s.vrt with insts := SMap.upd s.vrt.insts n f } }

/-- The generation of an instance, 0 without one (R745). -/
def State.instGen (s : State) (n : Nat) : Nat := ((s.inst n).map (·.gen)).getD 0

/-! ## Count epochs (R574) -/

/-- The epoch index at hall time `t` (R574). -/
def epochIndex (t : Nat) (cadence : Option (Nat × Nat)) (countEpoch : Nat) : Nat :=
  match cadence with
  | some (start, period) => if t < start then 0 else ((t - start) / period + 1) % 2 ^ 32
  | none => if countEpoch = 0 then 0 else (t / (countEpoch * 1000)) % 2 ^ 32

/-- COUNT_EPOCH as it is in effect: a new value from its first multiple on, but 0, which has none, at once (R574; log 103). -/
def State.epochValue (s : State) : Nat := if s.hallTime < s.feat.epochFrom then s.feat.epochOld else s.feat.countEpoch

/-- The epoch index of a partition now, on this module's hall time (R574, R575). -/
def State.epochNow (s : State) (partition : Nat) : Nat :=
  epochIndex s.hallTime ((SMap.find s.sch.cadences partition).map fun c => (c.start, c.period)) s.epochValue

end Sys2Proof.Machine
end

