-- ==== Sys2Proof/Machine/Mem.lean ====
section
/-!
DEFINITION. The module's HBM: reads, writes and atomics with their check-code outcomes (R799 to R804, R810), the error
log (R806, R811) and the life-log ring (R828).
-/

namespace Sys2Proof.Machine

/-! ## The life log and the error log -/

/-- Put a record into the life log, whose ERROR records also go to the BMC (R805, R827). -/
def State.lifeWrite (s : State) (r : Bytes) : State :=
  let s := { s with svc := { s.svc with
      lifeRing := SMap.put s.svc.lifeRing s.svc.lifeHead r
      lifeHead := (s.svc.lifeHead + 1) % 16384
      lifeRecords := s.svc.lifeRecords + 1 } }
  if leAt r 12 4 = 1 then s.bmc 0 (slice r 16 8) else s

/-- Make a life-log record (R828): hall time, power-on hours, the kind, and the kind's data from byte 16. It is written once the control
processor runs (R45). -/
def State.lifeLog (s : State) (kind : Nat) (data : Bytes) : State :=
  let t := if s.sch.tstate = 0 then 0 else s.hallTime
  let r := slice (leBytes 8 t ++ leBytes 4 (s.svc.live.getD 0 0) ++ leBytes 4 kind ++ data) 0 64
  if s.cpRuns then s.lifeWrite r else { s with svc := { s.svc with lifeOwed := s.svc.lifeOwed ++ [r] } }

/-- Write the life-log records that waited for the control processor (R45). -/
def State.lifeOwedWrite (s : State) : State :=
  let rs := s.svc.lifeOwed
  let es := s.svc.bmcOwed
  let s := rs.foldl State.lifeWrite { s with svc := { s.svc with lifeOwed := [], bmcOwed := [] } }
  es.foldl (fun (s : State) e => s.bmc e.1 e.2) s

/-- Count an event of counter `i` of the life log (R827). -/
def State.lifeCount (s : State) (i : Nat) : State :=
  { s with svc := { s.svc with live := s.svc.live.set i (s.svc.live.getD i 0 + 1) } }

/-- The `MEM_ELOG_ENTRY` record of an error (R806, R811). -/
def elogRecord (kind unit detail info : Nat) : Nat :=
  2 ^ 63 + kind % 128 * 2 ^ 56 + unit % 256 * 2 ^ 48 + detail % 256 * 2 ^ 40 + info % 2 ^ 40

/-- Write an error-log entry; it also goes to the life log and to the BMC (R805, R806). -/
def State.elog (s : State) (kind unit detail info : Nat) : State :=
  let e := elogRecord kind unit detail info
  let h := s.hbm
  let s := { s with hbm := { h with
      elog := SMap.put h.elog h.elogNext (s.hallTime, e)
      elogNext := (h.elogNext + 1) % 64
      elogWrapped := h.elogWrapped || (h.elogNext == 63) } }
  s.lifeLog 1 (leBytes 8 e)

/-- Error-log kinds (R806). -/
def elHbmUe : Nat := 1
def elStackFailed : Nat := 2
def elCeThreshold : Nat := 3
def elSramUe : Nat := 4
def elBufferUe : Nat := 5
def elTablePoison : Nat := 6
def elThatchRepair : Nat := 7
def elPageUnallocated : Nat := 8
def elCpHalt : Nat := 9
def elJobFault : Nat := 10
def elFwRejected : Nat := 11
def elKeyPoison : Nat := 12

/-- Raise ECC for an occurrence of a kind in a unit of a memory, under its rate limit (R804). -/
def State.ecc (s : State) (kind memory unit data0 : Nat) : State :=
  let key := kind * 0x1000000 + memory * 0x10000 + unit
  let n := sat 0xFFFFFFFF (SMap.getD s.hbm.since key 0 + 1)
  let limit := if kind = 1 then 10000000 else 1000000
  let due := match SMap.find s.hbm.raisedAt key with
    | none => true
    | some t => decide (t + limit ≤ s.now)
  if due && (kind != 1 || s.comF .MEM_ECC_CFG 0 0 == 1) then
    let s := { s with hbm := { s.hbm with since := SMap.del s.hbm.since key, raisedAt := SMap.put s.hbm.raisedAt key s.now } }
    s.raise .pfs evEcc key data0 n
  else { s with hbm := { s.hbm with since := SMap.put s.hbm.since key n } }

/-! ## Words -/

/-- The frame size and the page size, 2 MiB (R57). -/
def frameBytes : Nat := 0x200000

/-- The physical byte address behind a module HBM address: an instance's range is laid over its frames (R693). -/
def State.phys (s : State) (a : Nat) : Nat :=
  match s.vrt.insts.find? fun e =>
      decide (e.2.hbmBase ≤ a) && decide (a < e.2.hbmBase + frameBytes * e.2.frames.length) with
  | some (_, i) => i.frames.getD ((a - i.hbmBase) / frameBytes) 0 * frameBytes + a % frameBytes
  | none => a % 2 ^ 39

/-- The stack that holds a physical address (R26). -/
def stackOf (a : Nat) : Nat := a / 2 ^ 36 % 8

/-- The numbers of the 32-byte words that `len` bytes at `a` touch. -/
def wordsOf (a len : Nat) : List Nat :=
  if len = 0 then [] else (List.range ((a + len - 1) / 32 - a / 32 + 1)).map (· + a / 32)

/-- Set the condition of a word. -/
def State.setEcc (s : State) (w : Nat) (e : Ecc) : State := { s with hbm := { s.hbm with ecc := SMap.put s.hbm.ecc w e } }

/-- Make a word clean. -/
def State.clearEcc (s : State) (w : Nat) : State := { s with hbm := { s.hbm with ecc := SMap.del s.hbm.ecc w } }

/-- A correction in a word: counted, judged against the hour's threshold, and raised (R800 to R802). -/
def State.corrected (s : State) (w : Nat) : State :=
  let st := stackOf (w * 32)
  let n := SMap.getD s.hbm.ceHour st 0 + 1
  let s := s.count .MEM_CE_COUNT
  let s := { s with hbm := { s.hbm with ceHour := SMap.put s.hbm.ceHour st n } }
  let s := s.ecc 1 0 st (w * 32)
  if n = s.comF .MEM_ECC_CFG 31 16 then
    ((s.setFlag .MEM_ERR 3).ecc 3 0 st (w * 32)).elog elCeThreshold st 0 n
  else s

/-- An uncorrectable error found in a word: the word is poisoned, counted, raised and logged (R800, R801, R827). -/
def State.foundUe (s : State) (w : Nat) : State :=
  let st := stackOf (w * 32)
  (((((s.count .MEM_UE_COUNT).setFlag .MEM_ERR 1).setEcc w .poisoned).ecc 2 0 st (w * 32)).elog elHbmUe st 0 (w * 32)).lifeCount 20

/-- A read of a word: whether it returns poison, and the state after (R801). -/
def State.readWord (s : State) (w : Nat) : Bool × State :=
  match SMap.find s.hbm.ecc w with
  | none => (false, s)
  | some .correctable => (false, s.corrected w)
  | some .uncorrectable => (true, s.foundUe w)
  | some .poisoned => (true, (s.count .MEM_POISON_READ_COUNT).setFlag .MEM_ERR 2)

/-- A write of a word that covers it whole or in part: its condition after (R800). -/
def State.writeWord (s : State) (w : Nat) (full : Bool) : State :=
  match SMap.find s.hbm.ecc w, full with
  | none, _ => s
  | some .correctable, true => s.clearEcc w
  | some .correctable, false => (s.corrected w).clearEcc w
  | some .uncorrectable, true => (s.clearEcc w).count .MEM_POISON_CLEAR_COUNT
  | some .poisoned, true => (s.clearEcc w).count .MEM_POISON_CLEAR_COUNT
  | some .uncorrectable, false => s.foundUe w
  | some .poisoned, false => s

/-- The condition that an armed injection gives the word it selects (R810). -/
def State.armedInject (s : State) (w : Nat) : State :=
  if s.regF .MEM_INJECT_CTRL 31 31 = 1 ∧ s.phys (s.regF .MEM_INJECT_ADDR 38 5 * 32) / 32 = w then
    let k := s.regF .MEM_INJECT_CTRL 1 0
    let s := s.setRegF .MEM_INJECT_CTRL 31 31 0
    if k = 1 then s.setEcc w .correctable else if k = 2 then s.setEcc w .uncorrectable
    else if k = 3 then s.setEcc w .poisoned else s
  else s

/-! ## Bytes -/

/-- The bytes of memory at a physical address. -/
def memBytes (m : SMap Byte) : Nat → Nat → Bytes
  | _, 0 => []
  | a, n + 1 => SMap.getD m a 0 :: memBytes m (a + 1) n

/-- Memory with bytes written at a physical address. -/
def memPut (m : SMap Byte) : Nat → Bytes → SMap Byte
  | _, [] => m
  | a, b :: bs => memPut (SMap.putD 0 m a b) (a + 1) bs

/-- Whether memory is in its canonical form: strictly rising addresses, and no byte equal to what an unlisted one reads. -/
abbrev Memory.wf (m : SMap Byte) : Bool := SMap.wfD 0 m

/-- The (offset, length) pieces into which `len` bytes at `a` fall at boundaries of `n` bytes; `fuel` bounds them. -/
def piecesOf (n : Nat) : Nat → Nat → Nat → Nat → List (Nat × Nat)
  | 0, _, _, _ => []
  | fuel + 1, a, off, len =>
    if len = 0 then [] else
      let k := min len (n - (a + off) % n)
      (off, k) :: piecesOf n fuel a (off + k) (len - k)

/-- The pieces of `len` bytes at `a` at boundaries of `n` bytes. -/
def pieces (n a len : Nat) : List (Nat × Nat) := piecesOf n (len / n + 2) a 0 len

/-! ## Requests of the channel arbiters (R476) -/

/-- The channel of a physical address, numbered 32 · stack + channel: 512-byte granules interleave over the 32 channels of a stack. -/
def channelOf (a : Nat) : Nat := 32 * stackOf a + a / 512 % 32

/-- Accesses that follow are presented on the port of a client. -/
def State.via (s : State) (c : Client) : State := { s with hbm := { s.hbm with client := c } }

/-- Accesses that the host die makes for an operation are the fabric die's, whatever the operation's own data is; then its own follow. -/
def State.viaFab (s : State) (f : State → State) : State := (f (s.via .fab)).via s.hbm.client

/-- The port on which the client's access to a 64-byte unit is presented, with the program entry behind it. Tiles use the CL ports of
the arbiters of their own die, and reach the other die's stacks through the fabric die (log 81). -/
def State.portOfUnit (s : State) (u : Nat) : Nat × Option (Nat × Nat) :=
  match s.hbm.client with
  | .fab => (8, none)
  | .move => (9, none)
  | .tile k order first tiles =>
    if k / 256 = stackOf (u * 64) / 4 then ((first + Config.accessTile k u % tiles) / 8 % 8, some (k, order)) else (8, none)

/-- A request joins a port's. -/
def Arb.ask (b : Arb) (port : Nat) (r : ArbReq) : Arb :=
  { b with ports := SMap.put b.ports port (SMap.getD b.ports port [] ++ [r]) }

/-- Present the 64-byte accesses of `len` bytes at a physical address, which read them or write `data`, to the arbiters of their channels. -/
def State.arbAsk (s : State) (a len : Nat) (data : Option Bytes) : State :=
  { s with hbm := { s.hbm with arbs := (pieces 64 a len).foldl (fun m p =>
      let u := (a + p.1) / 64
      let port := s.portOfUnit u
      let store := if port.2.isSome then data.map fun b => (a + p.1, slice b p.1 p.2) else none
      SMap.put m (channelOf (u * 64))
        ((SMap.getD m (channelOf (u * 64)) default).ask port.1 ⟨port.2, data.isSome, 0, false, store⟩)) s.hbm.arbs } }

/-- Read `len` bytes at a physical address within one frame: the bytes, whether a word of them is poisoned, and the
state after (R801). -/
def State.physRead (s : State) (a len : Nat) : Bytes × Bool × State :=
  let s := s.arbAsk a len none
  let r := (wordsOf a len).foldl (fun (acc : Bool × State) w =>
    let x := acc.2.readWord w
    (acc.1 || x.1, x.2)) (false, s)
  (memBytes s.hbm.mem a len, r.1, r.2)

/-- Store bytes at a physical address within one frame (R800, R810). -/
def State.physStore (s : State) (a : Nat) (data : Bytes) : State :=
  let s := (wordsOf a data.length).foldl (fun s w =>
    (s.writeWord w (decide (a ≤ w * 32) && decide (w * 32 + 32 ≤ a + data.length))).armedInject w) s
  { s with hbm := { s.hbm with mem := memPut s.hbm.mem a data } }

/-- Write bytes at a physical address within one frame. What a program's tile writes through a CL port is stored once its access has entered
the command queue, for it may be withdrawn until then (R478). -/
def State.physWrite (s : State) (a : Nat) (data : Bytes) : State :=
  let s := s.arbAsk a data.length (some data)
  match s.hbm.client with
  | .tile _ _ _ _ => (pieces 64 a data.length).foldl (fun s p =>
      if (s.portOfUnit ((a + p.1) / 64)).2.isSome then s else s.physStore (a + p.1) (slice data p.1 p.2)) s
  | _ => s.physStore a data

/-- Read module HBM (R693, R801). -/
def State.hbmRead (s : State) (a len : Nat) : Bytes × Bool × State :=
  (pieces frameBytes a len).foldl (fun acc p =>
    let r := acc.2.2.physRead (acc.2.2.phys (a + p.1)) p.2
    (acc.1 ++ r.1, acc.2.1 || r.2.1, r.2.2)) ([], false, s)

/-- Write module HBM (R693, R800). -/
def State.hbmWrite (s : State) (a : Nat) (data : Bytes) : State :=
  (pieces frameBytes a data.length).foldl (fun s p => s.physWrite (s.phys (a + p.1)) (slice data p.1 p.2)) s

/-- The new value that an atomic stores, if it stores one (R265). `op` 4 is FADD and 5 CAS. -/
def atomicNew (op width old operand swap : Nat) : Option Nat :=
  let m := 2 ^ (8 * width)
  if op = 4 then some ((old + operand) % m)
  else if old = operand % m then some (swap % m) else none

/-- Words whose correction the read half of an atomic has counted are whole again before its write half merges (R266, R800). -/
def State.reencoded (s : State) (a len : Nat) : State :=
  (wordsOf a len).foldl (fun s w => if SMap.find s.hbm.ecc w = some .correctable then s.clearEcc w else s) s

/-- Perform an atomic at a physical address: the original value, or none when the word is poisoned (R265, R800). -/
def State.physAtomic (s : State) (a op width operand swap : Nat) : Option Nat × State :=
  let r := s.physRead a width
  if r.2.1 then (none, r.2.2) else
    let old := leNat r.1
    match atomicNew op width old operand swap with
    | some v => (some old, (r.2.2.reencoded a width).physWrite a (leBytes width v))
    | none => (some old, r.2.2)

end Sys2Proof.Machine
end

