-- ==== Sys2Proof/Machine/Arbiter.lean ====
section
/-!
DEFINITION. The HBM channel arbiters: arbitration, parking, withdrawal and the command queue, cycle by cycle (R476 to R478).
-/

namespace Sys2Proof.Machine

/-- The parameters of an arbiter in a cycle: the priority in force of each port's request, and PARK_CYCLES and AGE_LIMIT (R477, R485). -/
structure ArbCfg where
  prio : Nat → ArbReq → Nat
  park : Nat
  age : Nat

/-- The request that a port presents: its oldest pending one (R476). -/
def Arb.head (b : Arb) (port : Nat) : Option ArbReq := (SMap.getD b.ports port []).head?

/-- The priority that counts for a request in a cycle: 3 once it has been eligible for AGE_LIMIT cycles (R477). -/
def ArbCfg.rank (c : ArbCfg) (port : Nat) (r : ArbReq) : Nat := if c.age < r.shown then 3 else c.prio port r

/-- The ports in round robin, starting after the port last granted (R477). -/
def Arb.robin (b : Arb) : List Nat := (List.range 10).map fun i => (b.last + 1 + i) % 10

/-- The winner of a cycle's arbitration among the requests presented in an earlier cycle, while the command queue has room (R476,
R477). A request withdrawn in this very cycle still takes part (R478). -/
def Arb.winner (b : Arb) (c : ArbCfg) : Option (Nat × ArbReq) :=
  if 32 ≤ b.queue then none else
    (b.robin.filterMap fun p => (b.head p).bind fun r => if r.shown = 0 then none else some (p, r)).foldl (fun w x =>
      match w with
      | none => some x
      | some y => if c.rank y.1 y.2 < c.rank x.1 x.2 then some x else w) none

/-- The port whose request, presented in this cycle, enters through the park where the cycle has no winner (R478). -/
def Arb.parkHit (b : Arb) (c : ArbCfg) : Option Nat :=
  match b.park with
  | some (p, _) =>
    if b.queue < 32 && c.park != 0 && ((b.head p).map fun r => r.shown == 0 && !r.withdrawn) == some true then some p else none
  | none => none

/-- The park after a cycle in which nothing enters (R478): it ends where its port withdraws the request that holds it, or after
PARK_CYCLES cycles without one. -/
def Arb.parkOn (b : Arb) (c : ArbCfg) : Option (Nat × Nat) :=
  match b.park with
  | none => none
  | some (p, idle) =>
    match b.head p with
    | some r => if r.withdrawn then none else some (p, 0)
    | none => if c.park ≤ idle + 1 then none else some (p, idle + 1)

/-- The requests of a port that stays as it is in a cycle: the one presented has been so for a cycle more. -/
def agedReqs : List ArbReq → List ArbReq
  | [] => []
  | r :: rs => { r with shown := r.shown + 1 } :: rs

/-- The requests pending after a cycle in which the oldest of port `gone` entered the command queue, or none did; withdrawn ones go. -/
def Arb.rest (b : Arb) (gone : Option Nat) : Arb :=
  { b with
    ports := SMap.keep (SMap.mapv b.ports fun p l => (if gone = some p then l.tail else agedReqs l).filter fun r => !r.withdrawn)
      fun _ l => l != []
    queue := b.queue + b2n gone.isSome }

/-- One TCLK cycle of an arbiter (R477, R478), with the late withdrawals and the accesses through a park that it counts. -/
def Arb.cycle (b : Arb) (c : ArbCfg) : Arb × Nat × Nat :=
  match b.winner c with
  | some (p, r) => ({ b.rest (some p) with last := p, park := if c.park = 0 then none else some (p, 0) }, b2n r.withdrawn, 0)
  | none =>
    match b.parkHit c with
    | some p => ({ b.rest (some p) with park := some (p, 0) }, 0, 1)
    | none => ({ b.rest none with park := b.parkOn c }, 0, 0)

/-- The request whose access enters the command queue in a cycle: the winner, or the one that enters through the park (R478). -/
def Arb.entered (b : Arb) (c : ArbCfg) : Option ArbReq :=
  match b.winner c with
  | some (_, r) => some r
  | none => (b.parkHit c).bind b.head

/-- `n` cycles of an arbiter: its state after them, the late withdrawals and the accesses through a park, and the requests that entered. -/
def Arb.cycles (c : ArbCfg) : Nat → Arb → Arb × (Nat × Nat) × List ArbReq
  | 0, b => (b, (0, 0), [])
  | n + 1, b =>
    let x := b.cycle c
    let y := Arb.cycles c n x.1
    (y.1, (x.2.1 + y.2.1.1, x.2.2 + y.2.1.2), (b.entered c).toList ++ y.2.2)

/-- The accesses that leave the command queue in time: a channel of 62.5 GB/s performs one of 64 bytes in 1.024 ns (R476). -/
def Arb.drain (b : Arb) (n : Nat) : Arb := { b with queue := b.queue - n }

/-! ## The arbiters of the module -/

/-- The frequency of a transit die's TCLK in MHz (R763). -/
def State.tclkMhz (s : State) (die : Nat) : Nat := [1200, 1100, 1000, 900, 800, 700, 600, 400].getD (SMap.getD s.pwr.points die 0) 1200

/-- What is in force at a die's arbiters: `TRN_ARB_CFG`, and the current priority of a request's program entry (R476, R477, R485). -/
def State.arbCfg (s : State) (die : Nat) : ArbCfg where
  prio p r :=
    if p = 8 then s.comF (.TRN_ARB_CFG die) 31 30
    else if p = 9 then s.comF (.TRN_ARB_CFG die) 29 28
    else (((r.entry.bind fun k => SMap.find s.trn.entries k.1)).map (·.prio)).getD 0
  park := s.comF (.TRN_ARB_CFG die) 23 16
  age := s.comF (.TRN_ARB_CFG die) 11 0

/-- The TCLK cycles of a die that begin in the nanosecond that comes: none while its clock relocks (R477, R763). -/
def State.tclkCycles (s : State) (die : Nat) : Nat :=
  if s.pwr.relock.contains die then 0 else (s.now + 1) * s.tclkMhz die / 1000 - s.now * s.tclkMhz die / 1000

/-- An access has entered a command queue: what a tile writes with it is stored, and the program's output bytes are confirmed (R468, R478). -/
def State.accessEntered (s : State) (r : ArbReq) : State :=
  match r.entry, r.store with
  | some (k, order), some (a, data) =>
    let s := s.physStore a data
    match SMap.find s.trn.entries k with
    | some e => if e.order = order then
        { s with trn := { s.trn with entries := SMap.put s.trn.entries k { e with confirmed := e.confirmed + data.length } } } else s
    | none => s
  | _, _ => s

/-- One channel's arbiter for the nanosecond that comes. -/
def State.arbStep (s : State) (ch : Nat) (b : Arb) : State :=
  let die := ch / 128
  let x := Arb.cycles (s.arbCfg die) (s.tclkCycles die) b
  let s := { s with hbm := { s.hbm with
    arbs := SMap.put s.hbm.arbs ch (x.1.drain ((s.now + 1) * 125 / 128 - s.now * 125 / 128)) } }
  let s := x.2.2.foldl State.accessEntered s
  (s.countN (.TRN_ARB_LATE_WITHDRAW_COUNT die) x.2.1.1).countN (.TRN_ARB_PARK_HIT_COUNT die) x.2.1.2

/-- All channel arbiters for the nanosecond that comes. -/
def State.arbTick (s : State) : State := s.hbm.arbs.foldl (fun (s : State) e => s.arbStep e.1 e.2) s

/-- The pending channel requests of a launch's tiles are withdrawn (R472). -/
def State.withdraw (s : State) (k order : Nat) : State :=
  { s with hbm := { s.hbm with arbs := SMap.mapv s.hbm.arbs fun _ b => { b with
      ports := SMap.mapv b.ports fun _ l => l.map fun r => if r.entry = some (k, order) then { r with withdrawn := true } else r } } }

/-- The channel requests of a launch's tiles that are pending. -/
def State.asked (s : State) (k order : Nat) : List ArbReq :=
  s.hbm.arbs.flatMap fun b => b.2.ports.flatMap fun p => p.2.filter fun r => r.entry == some (k, order)

/-- The bytes that a launch's tiles have asked to store and that have not entered a command queue. -/
def State.storing (s : State) (k order : Nat) : Nat :=
  sumList ((s.asked k order).map fun r => (r.store.map fun x => x.2.length).getD 0)

end Sys2Proof.Machine
end

