-- ==== Sys2Proof/Machine/Host.lean ====
section
/-!
DEFINITION. The requests that the module issues on its host ports, MSI-X messages, and the peer windows (R729 to R739).
-/

namespace Sys2Proof.Machine

/-- Whether the module may issue a request under the requester ID of a function (R729, R737). -/
def State.canIssue (s : State) (fn : Nat) : Bool :=
  let f := s.fn fn
  f.busMaster && !f.d3hot && !f.held && (s.port (portOf fn)).link == 2

/-- The requests of a port that are outstanding (R716). -/
def Port.outstanding (x : Port) : Nat := (x.tags.filter fun t => t.2.waits.isNone).length

/-- The lowest free tag of a port, while fewer than 4,096 requests are outstanding (R716; log 67). -/
def Port.freeTagNow (x : Port) : Option Nat :=
  let busy : SMap Unit := x.retired.foldl (fun m t => SMap.put m t.1 ()) (x.tags.map fun e => (e.1, ()))
  if x.outstanding < 4096 then SMap.freeFrom busy 16384 0 else none

/-- The number under which a further request of a port waits to be issued: above every tag and every number that waits. -/
def Port.nextWait (x : Port) : Nat := max 16384 ((x.tags.getLast?.map (·.1)).getD 0 + 1)

/-- Make a non-posted request for `purpose` under function `fn`'s requester ID, with the lowest free tag of the port (log 67): it is issued, or
waits for its turn while 4,096 requests are outstanding or every tag is taken, and a zero-length read behind writes that are held (R97, R128).
None when the function may issue nothing (R716, R729). -/
def State.request (s : State) (fn len : Nat) (purpose : Purpose) (useInst : Option Nat) (mk : Nat → Out) :
    Option State :=
  let p := portOf fn
  let port := s.port p
  if !s.canIssue fn then none else
    match (if len = 0 ∧ s.xlt.dirtyHeld ≠ [] then none else port.freeTagNow) with
    | some tag => some ((s.setPort p { port with tags := SMap.put port.tags tag ⟨fn, len, purpose, useInst, none⟩ }).emit (mk tag))
    | none =>
      let k := port.nextWait
      some (s.setPort p { port with tags := SMap.put port.tags k ⟨fn, len, purpose, useInst, some (mk k)⟩, queue := port.queue ++ [k] })

/-- Whether a peer address range lies inside the valid peer windows of a port (R734, R747). -/
def State.peerOk (s : State) (p addr len : Nat) : Bool :=
  (List.range 4).any fun w =>
    let b := s.com (.HIF_PEER_BASE p w)
    let l := s.com (.HIF_PEER_LIMIT p w)
    fld b 0 0 == 1 && decide (fld b 63 12 * 4096 ≤ addr) && decide (addr + len ≤ (fld l 63 12 + 1) * 4096)

/-- A request with the tag under which it is issued. -/
def Out.withTag (o : Out) (tag : Nat) : Out :=
  match o with
  | .hostRead port rid _ addr len peer => .hostRead port rid tag addr len peer
  | .hostAtomic port rid _ addr op width operand swap peer => .hostAtomic port rid tag addr op width operand swap peer
  | o => o

/-- Whether a request to a peer lies outside the peer windows of its port (R734). -/
def State.peerBad (s : State) (o : Out) : Bool :=
  match o with
  | .hostRead port _ _ addr len peer => peer && !s.peerOk port addr len
  | .hostAtomic port _ _ addr _ width _ _ peer => peer && !s.peerOk port addr width
  | _ => false

/-- A drain that awaits the request of a port under one number awaits it under another (R123). -/
def UseDrain.renumber (d : UseDrain) (p old new : Nat) : UseDrain :=
  { d with tags := d.tags.map fun x => if x = (p, old) then (p, new) else x }

/-- Issue the oldest request of a port that waits, if there is room for it (R716). A peer request that lies outside the peer windows in force
now is not issued (R734). -/
def State.issueNext (s : State) (p : Nat) : State :=
  let port := s.port p
  match port.queue.find? fun t => s.xlt.dirtyHeld == [] || ((SMap.find port.tags t).map (·.len)) != some 0 with
  | none => s
  | some t =>
    let ts := port.queue.erase t
    match SMap.find port.tags t with
    | none => s.setPort p { port with queue := ts }
    | some x =>
      match x.waits, port.freeTagNow with
      | none, _ => s.setPort p { port with queue := ts }
      | some _, none => s
      | some o, some tag =>
        if s.peerBad o then
          let s := s.setPort p { port with queue := ts }
          { s with hif := { s.hif with refused := s.hif.refused ++ [(p, t)] } }
        else
          let s := s.setPort p { port with queue := ts, tags := SMap.put (SMap.del port.tags t) tag { x with waits := none } }
          { s with xlt := { s.xlt with drains := s.xlt.drains.map fun (d : UseDrain) => d.renumber p t tag } }.emit (o.withTag tag)

/-- The requests of a port that satisfy `q` and wait to be issued never are: each ends with detail ERROR_COMPLETION (R700 step 2, R738). -/
def State.giveUp (s : State) (p : Nat) (q : Tag → Bool) : State :=
  let port := s.port p
  let ts := port.queue.filter fun t => (SMap.find port.tags t).any q
  let s := s.setPort p { port with queue := port.queue.filter fun t => !ts.contains t }
  { s with hif := { s.hif with refused := s.hif.refused ++ ts.map fun t => (p, t) } }

/-- The tag of a request is free again: no drain awaits it any more (R123), and the oldest request that waits is issued (R716). -/
def State.freeTag (s : State) (p t : Nat) : State :=
  let port := s.port p
  let s := s.setPort p { port with tags := SMap.del port.tags t, queue := port.queue.filter (· != t) }
  State.issueNext { s with
    hif := { s.hif with refused := s.hif.refused.filter (· != (p, t)) }
    xlt := { s.xlt with drains := s.xlt.drains.map fun d => { d with tags := d.tags.filter (· != (p, t)) } } } p

/-- A request of a port that has been issued and whose tag is live. -/
def State.liveTag (s : State) (p t : Nat) : Option Tag :=
  match SMap.find (s.port p).tags t with
  | some x => if x.waits.isNone then some x else none
  | none => none

/-- Issue a memory read. -/
def State.hostRead (s : State) (fn addr len : Nat) (peer : Bool) (purpose : Purpose) (useInst : Option Nat) :
    Option State :=
  s.request fn len purpose useInst fun tag => .hostRead (portOf fn) fn tag addr len peer

/-- The requests in flight whose purpose is `q` serve nothing any more: what comes back for them is dropped. -/
def State.disown (s : State) (q : Purpose → Bool) : State :=
  let f (_ : Nat) (t : Tag) : Tag := if q t.purpose then { t with purpose := .dropped } else t
  { s with hif := { s.hif with ports := SMap.mapv s.hif.ports fun _ p => { p with tags := SMap.mapv p.tags f } } }

/-- The number of MSI-X vectors of a function (R716). -/
def vectorsOf (fn : Nat) : Nat := if isPf fn then 2048 else 64

/-- The MSI-X table entry of a vector; reset leaves it masked (R735). -/
def Fn.entry (f : Fn) (v : Nat) : MsixEntry := SMap.getD f.table v ⟨0, 0, true⟩

/-- Whether a vector's message may be written now (R736). -/
def State.msixOpen (s : State) (fn v : Nat) : Bool :=
  let f := s.fn fn
  s.canIssue fn && f.msixEnable && !f.fnMask && !(f.entry v).masked

/-- Send a vector's MSI-X message, or set its pending bit (R736). -/
def State.msix (s : State) (fn v : Nat) : State :=
  let f := s.fn fn
  if vectorsOf fn ≤ v then s
  else if s.msixOpen fn v then s.emit (.msix (portOf fn) fn v (f.entry v).addr (f.entry v).data)
  else if f.pending.contains v then s
  else s.setFn fn { f with pending := f.pending ++ [v] }

/-- Send the pending messages of a function that may now be written (R736). -/
def State.msixFlush (s : State) (fn : Nat) : State :=
  (s.fn fn).pending.foldl (fun s v =>
    if s.msixOpen fn v then
      let f := s.fn fn
      (s.setFn fn { f with pending := f.pending.filter (· != v) }).emit
        (.msix (portOf fn) fn v (f.entry v).addr (f.entry v).data)
    else s) s

end Sys2Proof.Machine
end

