-- ==== Sys2Proof/Machine/Xlt.lean ====
section
/-!
DEFINITION. Address translation (R100 to R131): tables, TLB and walkers, faults, the dirty-page log, and reads and
writes through an instance's space.
-/

namespace Sys2Proof.Machine

/-- The bytes that a leaf of size code `k` maps (R107, R119). -/
def pageBytes (k : Nat) : Nat := 4096 * 512 ^ k

/-- Rights asked of a translation. -/
inductive Access where
  | read | write | atomic
  deriving DecidableEq, Repr

/-- Fault kinds (R115). -/
def fkNotMapped : Nat := 1
def fkNoRead : Nat := 2
def fkNoWrite : Nat := 3
def fkAddressRange : Nat := 4
def fkTablePoison : Nat := 5

/-- The outcome of a lookup: a target address of a kind, a fault of a kind, or a walk to wait for. -/
inductive Look where
  | ok (kind : TKind) (target : Nat)
  | fault (kind : Nat)
  | wait
  deriving DecidableEq, Repr

/-- The fault that a leaf gives an access, if any (R115). -/
def rightsFault (l : Leaf) : Access → Option Nat
  | .read => if l.read then none else some fkNoRead
  | .write => if l.write then none else some fkNoWrite
  | .atomic => if !l.read then some fkNoRead else if !l.write then some fkNoWrite else none

/-- The leaf of an instance that maps an address, with its first address (R107). -/
def leafAt (maps : SMap Leaf) (iva : Nat) : Option (Nat × Leaf) :=
  maps.find? fun e => decide (e.1 ≤ iva) && decide (iva < e.1 + pageBytes e.2.size)

/-- The key of the table of level `l` that serves an address. -/
def tableKey (l iva : Nat) : Nat := l * 2 ^ 36 + iva / (4096 * 512 ^ (l + 1))

/-- The 8 bytes of a leaf entry (R108). -/
def leafEntry (l : Leaf) : Nat :=
  let k := match l.kind with | .host => 0 | .peer => 1 | .hbm => 2
  l.target / 4096 * 4096 + k * 16 + b2n l.write * 8 + b2n l.read * 4 + 3

/-- The 8 bytes of a non-leaf entry that points to a table (R108). -/
def tableEntry (addr : Nat) : Nat := addr / 4096 * 4096 + 1

/-- Record a translation fault in the log and count it (R117). -/
def State.logFault (s : State) (n iva kind : Nat) : State :=
  let x := s.xlt
  let s := { s with xlt := { x with
      faults := SMap.put x.faults x.faultNext ⟨iva, kind, s.instGen n, n⟩
      faultNext := (x.faultNext + 1) % 16 } }
  s.count .XLT_FAULT_COUNT

/-- The TLB array set of a translation (R110). -/
def tlbSet (iva n size : Nat) : Nat :=
  let sets := [1024, 512, 256, 64].getD size 1
  ((iva / pageBytes size) ^^^ (n * 0x9E5)) % sets

/-- The ways of a TLB array (R109). -/
def tlbWays (size : Nat) : Nat := [8, 8, 12, 16].getD size 1

/-- The TLB with an entry put in front. Of a full set, one of the entries other than the most recently used leaves, which is what every
pseudo-LRU does; `pick` chooses it (R109, R110; log 66). -/
def tlbFill (tlb : List TlbEntry) (e : TlbEntry) (pick : Nat) : List TlbEntry :=
  let same (f : TlbEntry) := f.leaf.size == e.leaf.size && tlbSet f.iva f.inst f.leaf.size == tlbSet e.iva e.inst e.leaf.size
  let old := tlb.filter fun f => !(f.inst == e.inst && f.gen == e.gen && f.iva == e.iva && f.leaf.size == e.leaf.size)
  let mates := old.filter same
  if mates.length < tlbWays e.leaf.size then e :: old
  else match (mates.drop 1)[pick % (mates.length - 1)]? with
    | some v => e :: old.erase v
    | none => e :: old

/-- The walk cache with a non-leaf entry of a level; of 512 entries, one leaves, and `pick` chooses it (R111; log 66). -/
def walkCacheFill (c : List (Nat × Nat × Nat)) (e : Nat × Nat × Nat) (pick : Nat) : List (Nat × Nat × Nat) :=
  if c.contains e then c else e :: (if c.length < 512 then c else c.eraseIdx (pick % c.length))

/-- The TLB entry that serves an address (R103, R109). -/
def tlbHit (tlb : List TlbEntry) (n gen iva : Nat) : Option TlbEntry :=
  tlb.find? fun e => e.inst == n && e.gen == gen && decide (e.iva ≤ iva) && decide (iva < e.iva + pageBytes e.leaf.size)

/-- Read the table line of level `l` for an address: whether it is poisoned (R113, R115). -/
def State.readLine (s : State) (i : Inst) (l iva : Nat) : Bool × State :=
  let a := SMap.getD i.tables (tableKey l iva) 0 + iva / (4096 * 512 ^ l) % 512 * 8 / 64 * 64
  let r := (s.via .fab).physRead (s.phys a) 64
  (r.2.1, (r.2.2.via s.hbm.client).count .XLT_WALK_READ_COUNT)

/-- A walk has read a non-leaf entry of level `l`, whether or not it ends at a leaf: the walk cache holds it (R111; log 66). -/
def State.cacheTable (s : State) (n gen l iva : Nat) : State :=
  { s.drawn with xlt := { s.xlt with walkCache := walkCacheFill s.xlt.walkCache (n * 256 + gen, l, iva / pageBytes l) s.freeVal } }

/-- A walk from a level down: the leaf at which it ends, or the kind of its fault (R107, R113, R115). -/
def State.walkFrom (s : State) (n : Nat) (i : Inst) (iva : Nat) : Nat → ((Nat × Leaf) ⊕ Nat) × State
  | 0 =>
    let r := s.readLine i 0 iva
    if r.1 then (.inr fkTablePoison, r.2.elog elTablePoison (stackOf (r.2.phys (SMap.getD i.tables (tableKey 0 iva) 0))) 0 n)
    else match leafAt i.maps iva with
      | some e => (.inl e, r.2)
      | none => (.inr fkNotMapped, r.2)
  | l + 1 =>
    let r := s.readLine i (l + 1) iva
    if r.1 then (.inr fkTablePoison, r.2.elog elTablePoison (stackOf (r.2.phys (SMap.getD i.tables (tableKey (l + 1) iva) 0))) 0 n)
    else match (leafAt i.maps iva).filter fun e => e.2.size == l + 1 with
      | some e => (.inl e, r.2)
      | none =>
        if SMap.has i.tables (tableKey l iva) then (r.2.cacheTable n i.gen (l + 1) iva).walkFrom n i iva l
        else (.inr fkNotMapped, r.2)

/-- The level at which a walk from a level down ends (R107). -/
def endLevel (i : Inst) (iva : Nat) : Nat → Nat
  | 0 => 0
  | l + 1 =>
    if ((leafAt i.maps iva).any fun e => e.2.size == l + 1) || !SMap.has i.tables (tableKey l iva) then l + 1 else endLevel i iva l

/-- The level at which a walk begins: below the deepest non-leaf entry that the walk cache holds (R111). -/
def State.walkLevel (s : State) (n gen iva : Nat) : Nat :=
  let has (l : Nat) := s.xlt.walkCache.contains (n * 256 + gen, l, iva / pageBytes l)
  if has 1 then 0 else if has 2 then 1 else if has 3 then 2 else 3

/-- Fill the TLB with a leaf (R110). -/
def State.fillTlb (s : State) (n gen : Nat) (e : Nat × Leaf) : State :=
  { s.drawn with xlt := { s.xlt with tlb := tlbFill s.xlt.tlb ⟨n, gen, e.1, e.2⟩ s.freeVal } }

/-- A TLB entry has served a lookup: it is counted, and is the most recently used one (R110, R144). -/
def State.tlbServed (s : State) (e : TlbEntry) : State :=
  let s := s.count .XLT_HIT_COUNT
  { s with xlt := { s.xlt with tlb := e :: s.xlt.tlb.erase e } }

/-- The answer that a leaf gives an access; a fault is logged (R115, R117). -/
def State.answer (s : State) (n iva : Nat) (acc : Access) (start : Nat) (l : Leaf) : Look × State :=
  match rightsFault l acc with
  | some k => (.fault k, s.logFault n iva k)
  | none => (.ok l.kind (l.target + (iva - start)), s)

/-- Reserved walkers of a port that serve it beyond its reservation, which a commit has lowered (R137). -/
def State.walkersOver (s : State) (port : Nat) : Nat :=
  (s.xlt.walks.filter fun e => e.2.reserved && e.2.port == port).length - s.comF .XLT_WALK_CFG 3 0

/-- The kind of walker that may serve a miss of a port now: a reserved one, which the model takes before a shared one, a shared one, or none
(R112; log 68). A walker that a commit has taken out of a reservation is shared once its walk has ended (R137). -/
def State.walkerFor (s : State) (port : Nat) : Option Bool :=
  let res := (s.xlt.walks.filter fun e => e.2.reserved && e.2.port == port).length
  let sh := (s.xlt.walks.filter fun e => !e.2.reserved).length + sumList ((List.range 4).map s.walkersOver)
  if 32 ≤ s.xlt.walks.length then none
  else if res < s.comF .XLT_WALK_CFG 3 0 then some true
  else if sh < s.comF .XLT_WALK_CFG 13 8 then some false else none

/-- The walk in progress, if there is one, on which a miss waits: its instance, its generation and the page at the level at which the walk
ends are the miss's own, and fewer than 64 requests wait on it (R112; log 68). -/
def State.walkToJoin (s : State) (w : Walk) : Option (Nat × Walk) :=
  match s.inst w.inst with
  | none => none
  | some i => s.xlt.walks.find? fun e =>
      let b := pageBytes (endLevel i e.2.iva 3)
      e.2.inst == w.inst && e.2.gen == w.gen && e.2.iva / b == w.iva / b && decide (e.2.waiters.length < 64)

/-- A miss is served: it waits on a walk in progress, or a walker that may serve it begins its walk (R111, R112, R114). None while neither
is there. -/
def State.serveMiss (s : State) (w : Walk) : Option State :=
  match s.walkToJoin w with
  | some (k, x) => some { s with xlt := { s.xlt with walks := SMap.put s.xlt.walks k { x with waiters := x.waiters ++ w.waiters } } }
  | none =>
    match s.walkerFor w.port, SMap.freeFrom s.xlt.walks 32 0 with
    | some r, some k =>
      let w := { w with reserved := r, seq := s.xlt.seq, level := s.walkLevel w.inst w.gen w.iva }
      some { s with xlt := { s.xlt with walks := SMap.put s.xlt.walks k w } }
    | _, _ => none

/-- A miss of request `who` is served, or waits in the miss queue (R112). -/
def State.startWalk (s : State) (who : Purpose) (n : Nat) (i : Inst) (iva : Nat) : State :=
  let w : Walk := ⟨n, i.gen, iva, portOf n, s.xlt.seq, 3, false, [(who, iva)]⟩
  (s.serveMiss w).getD { s with xlt := { s.xlt with missQueue := s.xlt.missQueue ++ [w] } }

/-- Whether a request waits already for the walk of an address. -/
def State.walkAwaited (s : State) (who : Purpose) (n gen iva : Nat) : Bool :=
  let mine (w : Walk) : Bool := w.inst == n && w.gen == gen && w.waiters.contains (who, iva)
  s.xlt.walks.any (fun e => mine e.2) || s.xlt.missQueue.any mine

/-- The result that a walk has left for a request. -/
def State.walkEnd (s : State) (who : Purpose) (n gen iva : Nat) : Option WalkEnd :=
  s.xlt.ends.find? fun r => r.who == who && r.inst == n && r.gen == gen && r.iva == iva

/-- Look up an address for request `who` of the data path: a miss waits for a walk, whose result the request takes when it asks again, and
nothing is accepted while the miss queue is full (R109 to R115). -/
def State.lookup (s : State) (who : Purpose) (n iva : Nat) (acc : Access) : Look × State :=
  if 2 ^ 48 ≤ iva then (.fault fkAddressRange, s.logFault n iva fkAddressRange)
  else match s.inst n with
  | none => (.fault fkNotMapped, s.logFault n iva fkNotMapped)
  | some i =>
    match s.walkEnd who n i.gen iva with
    | some r =>
      let s := { s with xlt := { s.xlt with ends := s.xlt.ends.erase r } }
      match r.leaf with
      | some e => s.answer n iva acc e.1 e.2
      | none => (.fault r.fault, s.logFault n iva r.fault)
    | none =>
      if s.walkAwaited who n i.gen iva || decide (256 ≤ s.xlt.missQueue.length) then (.wait, s)
      else match tlbHit s.xlt.tlb n i.gen iva with
      | some e => (s.tlbServed e).answer n iva acc e.iva e.leaf
      | none => (.wait, (s.count .XLT_MISS_COUNT).startWalk who n i iva)

/-- Look up an address and, on a miss, walk the tables to the end at once. Records, command parameters and landing data
are translated so (log 12: only the timing differs, R110). -/
def State.lookupNow (s : State) (n iva : Nat) (acc : Access) : Look × State :=
  if 2 ^ 48 ≤ iva then (.fault fkAddressRange, s.logFault n iva fkAddressRange)
  else match s.inst n with
  | none => (.fault fkNotMapped, s.logFault n iva fkNotMapped)
  | some i =>
    match tlbHit s.xlt.tlb n i.gen iva with
    | some e => (s.tlbServed e).answer n iva acc e.iva e.leaf
    | none =>
      let s := s.count .XLT_MISS_COUNT
      match s.walkFrom n i iva (s.walkLevel n i.gen iva) with
      | (.inl e, s) => (s.fillTlb n i.gen e).answer n iva acc e.1 e.2
      | (.inr k, s) => (.fault k, s.logFault n iva k)

/-- Serve the queued misses that can be served, oldest first (R112). -/
def serveMisses : List Walk → State → State
  | [], s => s
  | w :: ws, s =>
    match s.serveMiss w with
    | some s => serveMisses ws { s with xlt := { s.xlt with missQueue := s.xlt.missQueue.erase w } }
    | none => serveMisses ws s

/-- Whether an invalidation covering an instance has been applied since sequence number `seq` (R114). -/
def State.overtaken (s : State) (n seq : Nat) : Bool :=
  decide (seq < s.xlt.invalAll) || decide (seq < SMap.getD s.xlt.invalInst n 0)

/-- A walk whose result is discarded has read lines: at least one, and at most one for each of its levels (R113, R114; log 69). -/
def State.linesRead (s : State) (w : Walk) : State :=
  s.drawn.countN .XLT_WALK_READ_COUNT (1 + s.freeVal % (w.level + 1))

/-- The walker of walk `k` is free, and serves what waits (R112). -/
def State.walkerFree (s : State) (k : Nat) : State :=
  let s := { s with xlt := { s.xlt with walks := SMap.del s.xlt.walks k, invalWait := s.xlt.invalWait.erase k } }
  serveMisses s.xlt.missQueue s

/-- Leave the result of a walk for the requests that wait on it and whose addresses it covers (R112). -/
def State.walkEnds (s : State) (w : Walk) (leaf : Option (Nat × Leaf)) (fault : Nat) : State :=
  let covers (iva : Nat) : Bool := match leaf with
    | some e => decide (e.1 ≤ iva) && decide (iva < e.1 + pageBytes e.2.size)
    | none => true
  { s with xlt := { s.xlt with
      ends := s.xlt.ends ++ (w.waiters.filter fun x => covers x.2).map fun x => ⟨x.1, w.inst, w.gen, x.2, leaf, fault⟩ } }

/-- The end of walk `k` (R112, R114): its result fills the TLB, or it is a fault; a walk that an invalidation has overtaken restarts from level
3, and one of an old generation is discarded. -/
def State.walkDone (s : State) (k : Nat) : State :=
  match SMap.find s.xlt.walks k with
  | none => s
  | some w =>
    match (s.inst w.inst).filter fun i => i.gen == w.gen with
    | none => (s.linesRead w).walkerFree k
    | some i =>
      if s.overtaken w.inst w.seq then
        let s := s.linesRead w
        { s with xlt := { s.xlt with
            walks := SMap.put s.xlt.walks k { w with seq := s.xlt.seq, level := 3 }
            invalWait := s.xlt.invalWait.erase k } }
      else
        match s.walkFrom w.inst i w.iva w.level with
        | (.inl e, s) => ((s.fillTlb w.inst i.gen e).walkEnds w (some e) 0).walkerFree k
        | (.inr kind, s) => (s.walkEnds w none kind).walkerFree k

/-- The results of walks for addresses of a range of an instance, and those that any page overlapping it serves, are forgotten: the mappings
there have changed, each in whole (R121, R122). -/
def State.forgetEnds (s : State) (n lo hi : Nat) : State :=
  { s with xlt := { s.xlt with ends := s.xlt.ends.filter fun r =>
    !(r.inst == n && ((decide (lo ≤ r.iva) && decide (r.iva < hi)) || match r.leaf with
      | some e => decide (e.1 < hi) && decide (lo < e.1 + pageBytes e.2.size)
      | none => false)) } }

/-- Invalidate the cached translations of an instance that overlap a range (R122), advancing the sequence number (R114). -/
def State.invalidate (s : State) (n lo hi : Nat) : State :=
  let s := s.forgetEnds n lo hi
  let x := s.xlt
  { s with xlt := { x with
      tlb := x.tlb.filter fun e => !(e.inst == n && decide (e.iva < hi) && decide (lo < e.iva + pageBytes e.leaf.size))
      walkCache := x.walkCache.filter fun e => !(e.1 / 256 == n && decide (e.2.2 * pageBytes e.2.1 < hi) &&
        decide (lo < (e.2.2 + 1) * pageBytes e.2.1))
      seq := x.seq + 1
      invalInst := SMap.put x.invalInst n (x.seq + 1) } }

/-- Invalidate every cached translation, and forget the results of walks that have ended and that no request has taken yet (R139; log 69). -/
def State.invalidateAll (s : State) : State :=
  let x := s.xlt
  { s with xlt := { x with tlb := [], walkCache := [], ends := [], seq := x.seq + 1, invalAll := x.seq + 1 } }

/-! ## The dirty-page log (R127 to R131) -/

/-- A dirty slot of an instance. -/
def State.setSlot (s : State) (n k : Nat) (d : DirtySlot) : State :=
  s.updInst n fun i => { i with dirty := SMap.put i.dirty k d }

/-- The instance virtual address of a line of a slot's active bitmap, in the issuer's space (R127, R128). -/
def DirtySlot.lineAddr (d : DirtySlot) (line : Nat) : Nat := (if d.activeB then d.bitmapB else d.bitmapA) + line * 64

/-- Raise DIRTY_LOG_FULL for a slot on the issuer's default lantern queue (R131). The spec gives the record no field
values: they are free (log 13). -/
def State.dirtyFull (s : State) (issuer : Nat) : State :=
  let a := s.freeVal
  let s := s.drawn
  let b := s.freeVal
  let s := s.drawn
  let c := s.freeVal
  s.drawn.raise (.inst issuer) evDirtyLogFull (a % 2 ^ 32) b c

/-- Count newly set bits of a slot and raise the event when they reach the threshold, once per activation (R131). -/
def State.addNewBits (s : State) (n k added : Nat) : State :=
  match s.inst n with
  | none => s
  | some i =>
    match SMap.find i.dirty k with
    | none => s
    | some d =>
      let t := s.regF .XLT_DIRTY_THRESHOLD 31 0
      let total := d.newBits + added
      let hit := t != 0 && decide (t ≤ total) && !d.raised
      let s := s.setSlot n k { d with newBits := total, raised := d.raised || hit }
      if hit then s.dirtyFull d.issuer else s

/-- Give a cached line its contents as read from the bitmap (R129). -/
def State.dirtyBase (s : State) (n k line base : Nat) : State :=
  match (s.inst n).bind fun i => SMap.find i.dirty k with
  | none => s
  | some d =>
    match SMap.find d.lines line with
    | some ⟨none, new⟩ =>
      let s := s.setSlot n k { d with lines := SMap.put d.lines line ⟨some base, new⟩ }
      s.addNewBits n k (popcount 512 (new &&& (new ^^^ (new &&& base))))
    | _ => s

/-- A slot stops logging because a line of its bitmap could not be written back or, as the model takes it, could not be read or translated
either (R131; log 70). -/
def State.dirtyStop (s : State) (n k : Nat) : State :=
  match (s.inst n).bind fun i => SMap.find i.dirty k with
  | none => s
  | some d => ((s.setSlot n k { d with stopped := true }).setFlag .XLT_ERR 1).dirtyFull d.issuer

/-- Write a cached line with known contents back to its bitmap (R129). -/
def State.dirtyWriteBack (s : State) (n k line : Nat) : State :=
  match (s.inst n).bind fun i => SMap.find i.dirty k with
  | none => s
  | some d =>
    match SMap.find d.lines line with
    | some ⟨some base, new⟩ =>
      let d := { d with lines := SMap.del d.lines line }
      let s := s.setSlot n k d
      let data := leBytes 64 (base ||| new)
      match s.lookupNow d.issuer (d.lineAddr line) .write with
      | (.ok .hbm t, s) => s.viaFab (·.hbmWrite t data)
      | (.ok kind t, s) =>
        let peer := kind == .peer
        if peer ∧ !s.peerOk (portOf d.issuer) t 64 then s.dirtyStop n k
        else (s.setSlot n k { d with posted := (d.posted.filter fun x => x.2 != peer) ++ [(t, peer)] }).emit
          (.hostWrite (portOf d.issuer) d.issuer t data peer false)
      | (_, s) => s.dirtyStop n k
    | _ => s

/-- Whether bits of a slot wait for room among the bitmap lines (R129). -/
def State.dirtyAwaits (s : State) (n k : Nat) : Bool := s.xlt.dirtyWait.any fun w => w.1 == n && w.2.1 == k

/-- Free a slot that is being disabled once it has no lines left (R127). -/
def State.dirtyFree (s : State) (n k : Nat) : State :=
  if s.dirtyAwaits n k then s else
    s.updInst n fun i =>
      match SMap.find i.dirty k with
      | some d => if d.closing && d.lines == [] then { i with dirty := SMap.del i.dirty k } else i
      | none => i

/-- The bitmap lines cached in the module (R129). -/
def State.dirtyLines (s : State) : Nat :=
  sumList (s.vrt.insts.map fun e => sumList (e.2.dirty.map fun d => d.2.lines.length))

/-- The line that is written back to make room: the first whose contents are known, by instance, slot and line (R129; log 70). -/
def State.dirtyVictim (s : State) : Option (Nat × Nat × Nat) :=
  s.vrt.insts.findSome? fun i => i.2.dirty.findSome? fun d => (d.2.lines.find? fun l => l.2.base.isSome).map fun l => (i.1, d.1, l.1)

/-- Room for one more bitmap line; none while 4,096 are held and every one of them is still being read (R129). -/
def State.dirtyRoom (s : State) : Option State :=
  if s.dirtyLines < 4096 then some s else s.dirtyVictim.map fun v => s.dirtyWriteBack v.1 v.2.1 v.2.2

/-- A bitmap line could not be read: it is dropped, and its slot stops logging (R131; log 70). -/
def State.dirtyLineFail (s : State) (n k line : Nat) : State :=
  let drop (d : DirtySlot) : DirtySlot := { d with lines := SMap.del d.lines line }
  ((s.updInst n fun i => { i with dirty := SMap.upd i.dirty k drop }).dirtyStop n k).dirtyFree n k

/-- Ask for the contents of a cached line (R129). A line that the issuer's function cannot ask for is asked for when it can issue again. -/
def State.dirtyLoad (s : State) (n k line : Nat) : State :=
  match (s.inst n).bind fun i => SMap.find i.dirty k with
  | none => s
  | some d =>
    match s.lookupNow d.issuer (d.lineAddr line) .read with
    | (.ok .hbm t, s) =>
      let r := (s.via .fab).hbmRead t 64
      let s := r.2.2.via s.hbm.client
      if r.2.1 then s.dirtyLineFail n k line else s.dirtyBase n k line (leNat r.1)
    | (.ok kind t, s) =>
      if kind = .peer ∧ !s.peerOk (portOf d.issuer) t 64 then s.dirtyLineFail n k line
      else (s.hostRead d.issuer t 64 (kind = .peer) (.dirtyLine n k line) (some d.issuer)).getD s
    | (_, s) => s.dirtyLineFail n k line

/-- Set the bit of one page of a slot, reading its bitmap line first when it is not cached; the bit waits while there is no room for the
line (R128, R129; log 70). -/
def State.dirtyBit (s : State) (n k page : Nat) : State :=
  match (s.inst n).bind fun i => SMap.find i.dirty k with
  | none => s
  | some d =>
    let line := page / 512
    let m := 2 ^ (page % 512)
    if d.stopped then s else
    match SMap.find d.lines line with
    | some ⟨some base, new⟩ =>
      let s := s.setSlot n k { d with lines := SMap.put d.lines line ⟨some base, new ||| m⟩ }
      s.addNewBits n k (if (base ||| new) &&& m = 0 then 1 else 0)
    | some ⟨none, new⟩ => s.setSlot n k { d with lines := SMap.put d.lines line ⟨none, new ||| m⟩ }
    | none =>
      match s.dirtyRoom with
      | none => { s with xlt := { s.xlt with dirtyWait := s.xlt.dirtyWait ++ [(n, k, page)] } }
      | some s =>
        (s.updInst n fun i => { i with dirty := SMap.upd i.dirty k fun d =>
          { d with lines := SMap.put d.lines line ⟨none, m⟩ } }).dirtyLoad n k line

/-- Set the bits that waited for room, as far as there is room now (R129). -/
def State.dirtyServe (s : State) : State :=
  s.xlt.dirtyWait.foldl (fun s w => s.dirtyBit w.1 w.2.1 w.2.2) { s with xlt := { s.xlt with dirtyWait := [] } }

/-- Write back every line of a slot whose contents are known. -/
def State.dirtyFlush (s : State) (n k : Nat) : State :=
  match (s.inst n).bind fun i => SMap.find i.dirty k with
  | none => s
  | some d => (d.lines.foldl (fun s e => if e.2.base.isSome then s.dirtyWriteBack n k e.1 else s) s).dirtyServe

/-- Close a slot: its lines are written back, and it stops logging and is free when none is left (R127). -/
def State.dirtyClose (s : State) (n k : Nat) : State :=
  let s := s.updInst n fun i => { i with dirty := SMap.upd i.dirty k fun d => { d with closing := true } }
  (s.dirtyFlush n k).dirtyFree n k

/-- A bitmap line has been read from host memory, or could not be (R129, R131). -/
def State.dirtyArrived (s : State) (n k line : Nat) (data : Option Bytes) : State :=
  let s := match data with
    | none => s.dirtyLineFail n k line
    | some b =>
      let s := s.dirtyBase n k line (leNat b)
      match (s.inst n).bind fun i => SMap.find i.dirty k with
      | some d => if d.closing then (s.dirtyWriteBack n k line).dirtyFree n k else s
      | none => s
  s.dirtyServe

/-- Record a write of `len` bytes at an address of an instance in its dirty logs (R128). -/
def State.logDirty (s : State) (n iva len : Nat) : State :=
  match s.inst n with
  | none => s
  | some i =>
    i.dirty.foldl (fun s e =>
      let d := e.2
      let lo := max iva d.iva
      let hi := min (iva + len) (d.iva + d.len)
      if d.stopped || decide (hi ≤ lo) then s
      else (List.range ((hi - 1 - d.iva) / 4096 + 1 - (lo - d.iva) / 4096)).foldl
        (fun s j => s.dirtyBit n e.1 ((lo - d.iva) / 4096 + j)) s) s

/-! ## Reads and writes through an instance's space -/

/-- Why a write through an instance's space was not made. -/
inductive IoFail where
  | fault (kind : Nat)
  | host
  | blocked
  deriving DecidableEq, Repr

/-- Make a write through an instance's space (R102). -/
def State.doWrite (s : State) (x : HeldWrite) : State :=
  if x.kind = .hbm then s.hbmWrite x.target x.data
  else s.emit (.hostWrite (portOf x.inst) x.inst x.target x.data (x.kind = .peer) (x.payload && (s.fn x.inst).relaxed))

/-- Make a write whose dirty bits are set; one whose bits wait for room, and what follows it, is held (R128). -/
def State.writeOrHold (s : State) (x : HeldWrite) : State :=
  if (s.xlt.dirtyWait.any fun w => w.1 == x.inst) || s.xlt.dirtyHeld.any fun y => y.inst == x.inst then
    { s with xlt := { s.xlt with dirtyHeld := s.xlt.dirtyHeld ++ [x] } }
  else s.doWrite x

/-- Make the held writes whose dirty bits are set by now, then issue the zero-length reads that were to follow them (R97, R128). -/
def State.heldWrites (s : State) : State :=
  if s.xlt.dirtyHeld = [] then s else
    let xs := s.xlt.dirtyHeld
    let s := xs.foldl State.writeOrHold { s with xlt := { s.xlt with dirtyHeld := [] } }
    if s.xlt.dirtyHeld ≠ [] then s else
      s.hif.ports.foldl (fun (s : State) e => e.2.queue.foldl (fun s _ => s.issueNext e.1) s) s

/-- Write one piece that lies within a 4 KiB page through an instance's space (R102, R128, R734). -/
def State.ivaWritePiece (s : State) (n iva : Nat) (data : Bytes) (payload : Bool) : Option IoFail × State :=
  match s.lookupNow n iva .write with
  | (.ok .hbm t, s) => (none, (s.logDirty n iva data.length).writeOrHold ⟨n, t, .hbm, data, payload⟩)
  | (.ok kind t, s) =>
    if !s.canIssue n then (some .blocked, s)
    else if kind = .peer ∧ !s.peerOk (portOf n) t data.length then (some .host, s)
    else (none, (s.logDirty n iva data.length).writeOrHold ⟨n, t, kind, data, payload⟩)
  | (.fault k, s) => (some (.fault k), s)
  | (.wait, s) => (some .blocked, s)

/-- Write the pieces of a byte string in order, up to the first that fails (R116). -/
def State.ivaWritePieces (n iva : Nat) (data : Bytes) (payload : Bool) :
    List (Nat × Nat) → State → Option IoFail × State
  | [], s => (none, s)
  | p :: ps, s =>
    match s.ivaWritePiece n (iva + p.1) (slice data p.1 p.2) payload with
    | (none, s) => State.ivaWritePieces n iva data payload ps s
    | r => r

/-- Write bytes at an instance virtual address, 4 KiB at a time, up to the first page that fails (R116). -/
def State.ivaWrite (s : State) (n iva : Nat) (data : Bytes) (payload : Bool) : Option IoFail × State :=
  State.ivaWritePieces n iva data payload (pieces 4096 iva data.length) s

/-- The places outside the module, with whether they lie in peer memory and how many bytes they take, of a write through an instance's space
(R97). -/
def State.hostPlaces (s : State) (inst addr len : Nat) : List (Nat × Bool × Nat) :=
  (pieces 4096 addr len).filterMap fun x =>
    match (s.lookupNow inst (addr + x.1) .write).1 with
    | .ok .host t => some (t, false, x.2)
    | .ok .peer t => some (t, true, x.2)
    | _ => none

/-- Whether every page of a range has a right (R146). -/
def State.mappedAll (s : State) (n iva len : Nat) (acc : Access) : Bool :=
  match s.inst n with
  | none => false
  | some i => decide (iva + len ≤ 2 ^ 48) && (pieces 4096 iva len).all fun p =>
      match leafAt i.maps (iva + p.1) with
      | some e => (rightsFault e.2 acc).isNone
      | none => false

/-! ## Buffers -/

/-- A buffer of `len` bytes with nothing asked for yet. -/
def RBuf.empty : RBuf := ⟨[], none⟩

/-- A buffer whose bytes are at hand. -/
def RBuf.of (b : Bytes) : RBuf := ⟨[⟨0, b.length, some b⟩], none⟩

/-- Whether every piece of a buffer has arrived. -/
def RBuf.ready (b : RBuf) : Bool := b.pieces.all fun p => p.data.isSome

/-- Whether a buffer has arrived with all of its `len` bytes. -/
def RBuf.holds (b : RBuf) (len : Nat) : Bool := b.ready && b.fail.isNone && sumList (b.pieces.map (·.len)) == len

/-- The bytes of a buffer. -/
def RBuf.bytes (b : RBuf) : Bytes := b.pieces.flatMap fun p => p.data.getD []

/-- The bytes of the leading pieces of a buffer that have been read. -/
def RBuf.part (b : RBuf) : Bytes :=
  (b.pieces.takeWhile fun p => p.data.map (·.length) == some p.len).flatMap fun p => p.data.getD []

/-- The bytes from `pos` to `len` that pieces give, with zeros where no piece lies. -/
def spreadPieces (len : Nat) : Nat → List Piece → Bytes
  | pos, [] => zeros (len - pos)
  | pos, p :: ps => zeros (p.off - pos) ++ p.data.getD [] ++ spreadPieces len (p.off + p.len) ps

/-- Whether a buffer has arrived with all of certain pieces. -/
def RBuf.has (b : RBuf) (ps : List (Nat × Nat)) : Bool :=
  b.ready && b.fail.isNone && b.pieces.map (fun p => (p.off, p.len)) == ps

/-- Whether the bytes of a buffer up to `n` that are among certain pieces have arrived. -/
def RBuf.hasTo (b : RBuf) (ps : List (Nat × Nat)) (n : Nat) : Bool :=
  ps.all fun x => decide (n ≤ x.1) || b.pieces.any fun p => p.off == x.1 && p.len == x.2 && p.data.map (·.length) == some p.len

/-- Put arrived bytes into the piece at an offset. -/
def RBuf.land (b : RBuf) (off : Nat) (data : Bytes) : RBuf :=
  { b with pieces := b.pieces.map fun p => if p.off = off then { p with data := some data } else p }

/-- Record a failure, if it is the first. -/
def RBuf.failed (b : RBuf) (status detail : Nat) : RBuf :=
  { b with fail := b.fail.orElse fun _ => some (status, detail) }

/-- Ask for one piece of a buffer through an instance's space: HBM at once, host and peer memory by a request (R101,
R734). `now` walks the tables at once. None when it must wait: a lookup whose request the function cannot issue now is made, and counted, when it
can (R144). -/
def State.readPiece (s : State) (n fn iva : Nat) (now : Bool) (purpose : Nat → Purpose) (b : RBuf) (off len : Nat) :
    Option (RBuf × State) × State :=
  let before := s
  match (if now then s.lookupNow n (iva + off) .read else s.lookup (purpose off) n (iva + off) .read) with
  | (.wait, s) => (none, s)
  | (.fault k, s) => (some (⟨b.pieces ++ [⟨off, len, some []⟩], b.fail.orElse fun _ => some (stTranslationFault, k)⟩, s), s)
  | (.ok .hbm t, s) =>
    let r := s.hbmRead t len
    let f := if r.2.1 then b.fail.orElse fun _ => some (stPoisoned, 0) else b.fail
    (some (⟨b.pieces ++ [⟨off, len, some (if r.2.1 then [] else r.1)⟩], f⟩, r.2.2), s)
  | (.ok kind t, s) =>
    if kind = .peer ∧ !s.peerOk (portOf n) t len then
      (some (⟨b.pieces ++ [⟨off, len, some []⟩], b.fail.orElse fun _ => some (stHostMemoryError, 2)⟩, s), s)
    else match s.hostRead fn t len (kind = .peer) (purpose off) (some n) with
      | some s' => (some (⟨b.pieces ++ [⟨off, len, none⟩], b.fail⟩, s'), s)
      | none => (none, before)

/-- Ask for the pieces of a buffer in order; the first failure ends the asking, and a wait leaves the rest for later. -/
def State.readPieces (n fn iva : Nat) (now : Bool) (purpose : Nat → Purpose) :
    List (Nat × Nat) → RBuf → State → Bool × RBuf × State
  | [], b, s => (true, b, s)
  | p :: ps, b, s =>
    if b.fail.isSome then (true, b, s) else
      match s.readPiece n fn iva now purpose b p.1 p.2 with
      | (some (b', s'), _) => State.readPieces n fn iva now purpose ps b' s'
      | (none, s') => (false, b, s')

/-- Ask for `len` bytes at an instance virtual address, going on after the pieces already asked for. The Bool says
whether every piece has been asked for. -/
def State.readIva (s : State) (n fn iva len : Nat) (now : Bool) (purpose : Nat → Purpose) (b : RBuf) :
    Bool × RBuf × State :=
  State.readPieces n fn iva now purpose ((pieces 4096 iva len).drop b.pieces.length) b s

end Sys2Proof.Machine
end

