-- ==== Sys2Proof/Machine/Queue.lean ====
section
/-!
DEFINITION. Lantern queues, completion queues and admin replies: what the module writes into a tenant's rings (R165 to
R175, R187, R188, R204 to R213).
-/

namespace Sys2Proof.Machine

/-- A lantern queue, if it exists. -/
def State.lq (s : State) (n : Nat) : Option Lq := SMap.find s.q.lqs n

/-- A completion queue, if it exists. -/
def State.cq (s : State) (n : Nat) : Option Cq := SMap.find s.q.cqs n

/-- A work queue, if it exists. -/
def State.wq (s : State) (n : Nat) : Option Wq := SMap.find s.q.wqs n

/-- Replace a lantern queue. -/
def State.setLq (s : State) (n : Nat) (x : Lq) : State := { s with q := { s.q with lqs := SMap.put s.q.lqs n x } }

/-- Replace a completion queue. -/
def State.setCq (s : State) (n : Nat) (x : Cq) : State := { s with q := { s.q with cqs := SMap.put s.q.cqs n x } }

/-- Replace a work queue. -/
def State.setWq (s : State) (n : Nat) (x : Wq) : State := { s with q := { s.q with wqs := SMap.put s.q.wqs n x } }

/-- Update a work queue if it exists. -/
def State.updWq (s : State) (n : Nat) (f : Wq → Wq) : State := { s with q := { s.q with wqs := SMap.upd s.q.wqs n f } }

/-- Reason codes of a queue in ERROR (R187). -/
def qrDoorbellRange : Nat := 0x01
def qrDoorbellBackward : Nat := 0x02
def qrRingHostError : Nat := 0x03
def qrRingTranslation : Nat := 0x04
def qrDescriptorLength : Nat := 0x05
def qrCqError : Nat := 0x06
def qrRingPoison : Nat := 0x07
def qrCqOverflow : Nat := 0x10
def qrCqHostError : Nat := 0x11
def qrCqTranslation : Nat := 0x12
def qrLqHostError : Nat := 0x20
def qrLqTranslation : Nat := 0x21

/-! ## Lantern queues (R171 to R174) -/

/-- The 32 bytes of a lantern record (R171). -/
def eventBytes (e : Event) (phase : Nat) : Bytes :=
  leBytes 1 e.typ ++ leBytes 1 0x10 ++ leBytes 1 phase ++ [0] ++ leBytes 4 e.source ++ leBytes 8 e.data0 ++
    leBytes 8 e.time ++ leBytes 8 e.data1

/-- An event that reaches no ring is dropped and counted (R172, R174). -/
def State.eventLost (s : State) : State := s.count .QPE_LANTERN_LOST_COUNT

/-- Raise QUEUE_ERROR (R175): kind 0 work, 1 completion, 2 lantern queue. -/
def State.queueError (s : State) (dest : EventTo) (kind num reason index gen : Nat) : State :=
  s.raise dest evQueueError (kind * 2 ^ 30 + num) (reason + index * 256) gen

/-- A lantern queue enters ERROR (R187, R188): its held events are lost. A default queue reports to its port's physical
function (R172). -/
def State.lqFail (s : State) (n reason : Nat) : State :=
  match s.lq n with
  | none => s
  | some l =>
    let dflt := ((s.inst l.inst).bind (·.dfltLq)) == some n
    let s := s.setLq n { l with error := true, reason, held := [] }
    let s := s.countN .QPE_LANTERN_LOST_COUNT l.held.length
    s.queueError (.inst (if dflt then pfOf l.inst else l.inst)) 2 n reason l.producer 0

/-- Hold an event of a lantern queue that cannot be written now, or drop it when 64 are held (R174). -/
def State.lqHold (s : State) (n : Nat) (l : Lq) (e : Event) : State :=
  if l.held.length < 64 then s.setLq n { l with held := l.held ++ [e] }
  else (s.setLq n { l with lost := true }).eventLost

/-- Send a lantern queue's message and disarm it (R173). -/
def State.lqSignal (s : State) (n : Nat) (l : Lq) : State := (s.setLq n { l with armed := false }).msix l.inst l.vector

/-- Write an event at the producer index of a lantern queue; false when the function cannot issue the write now. -/
def State.lqPut (s : State) (n : Nat) (l : Lq) (e : Event) : Bool × State :=
  match s.ivaWrite l.inst (l.ring + slotOf l.producer l.log2 * 32) (eventBytes e (phaseAt l.producer l.log2)) false with
  | (none, s) =>
    let l := { l with producer := advance l.producer 1, fresh := false }
    let s := s.setLq n l
    (true, if l.armed then s.lqSignal n l else s)
  | (some .blocked, s) => (false, s)
  | (some (.fault _), s) => (true, ((s.lqFail n qrLqTranslation).eventLost))
  | (some .host, s) => (true, ((s.lqFail n qrLqHostError).eventLost))

/-- Deliver an event to a lantern queue (R171 to R174). One that a queue in ERROR drops leaves LOST as it is (log 77). -/
def State.lqDeliver (s : State) (n : Nat) (e : Event) : State :=
  match s.lq n with
  | none => s.eventLost
  | some l =>
    if l.error then s.eventLost
    else if l.held.isEmpty && decide (distance l.consumer l.producer < 2 ^ l.log2) then
      match s.lqPut n l e with
      | (true, s) => s
      | (false, s) => s.lqHold n l e
    else s.lqHold n l e

/-- Write held events of a lantern queue while there is room (R174); `fuel` bounds them. -/
def State.lqDrain (n : Nat) : Nat → State → State
  | 0, s => s
  | fuel + 1, s =>
    match s.lq n with
    | none => s
    | some l =>
      match l.held with
      | [] => s
      | e :: es =>
        if l.error || decide (2 ^ l.log2 ≤ distance l.consumer l.producer) then s else
          let l := { l with held := es }
          match (s.setLq n l).lqPut n l e with
          | (true, s) => State.lqDrain n fuel s
          | (false, _) => s

/-- The lantern queues to which an event goes (R172); none for an instance without a default queue. -/
def State.eventQueues (s : State) : EventTo → List (Option Nat)
  | .lq n => [some n]
  | .inst n => [(s.inst n).bind (·.dfltLq)]
  | .pfs => [0, 128, 256, 384].map fun n => (s.inst n).bind (·.dfltLq)

/-- Deliver the raised events in order, with those that the delivery itself raises; `fuel` bounds them. -/
def State.deliver : Nat → State → State
  | 0, s => s
  | fuel + 1, s =>
    match s.events with
    | [] => s
    | (dest, e) :: es =>
      let s := { s with events := es }
      State.deliver fuel ((s.eventQueues dest).foldl (fun s q =>
        match q with
        | some n => s.lqDeliver n e
        | none => s.eventLost) s)

/-- The end of every command: the events that it raised are delivered, after every record it wrote (R24). -/
def State.settle (s : State) : State := State.deliver (s.events.length * 8 + 64) s

/-! ## Completion queues (R165 to R170) -/

/-- The 32 bytes of a completion record with its PHASE and HALL_TIME (R165, R167). -/
def recordBytes (b : Bytes) (phase hallTime : Nat) : Bytes :=
  overlay (overlay b 26 (leBytes 1 (leAt b 26 1 + phase))) 28 (leBytes 4 hallTime)

/-- A work queue enters ERROR, stops fetching and raises QUEUE_ERROR (R188). -/
def State.wqError (s : State) (n reason : Nat) : State :=
  match s.wq n with
  | none => s
  | some w =>
    if w.state = .error then s else
      (s.setWq n { w with state := .error, reason }).queueError (.inst w.inst) 0 n reason w.head w.gen

/-- The QUEUE_ERROR of a work queue whose descriptor has a bad LENGTH, which follows that descriptor's record (R24, R175, R188). -/
def State.lengthEvent (s : State) (n : Nat) (w : Wq) : EventTo × Event :=
  (.inst w.inst, ⟨evQueueError, n, qrDescriptorLength + w.head * 256, s.hallTime, w.gen⟩)

/-- The work queues bound to a completion queue enter ERROR with it; one that is SNUFFING does so when its snuff ends
(R187). -/
def State.cqErrorWqs (s : State) (c : Nat) : State :=
  s.q.wqs.foldl (fun s e =>
    if e.2.cq ≠ c then s
    else if e.2.state = .snuffing then s.updWq e.1 fun w => { w with reason := qrCqError }
    else s.wqError e.1 qrCqError) s

/-- A completion queue enters ERROR: its held records go to the gutter (R169, R187, R188). -/
def State.cqFail (s : State) (c reason : Nat) : State :=
  match s.cq c with
  | none => s
  | some q =>
    if q.state = .error then s else
      let s := s.setCq c { q with state := .error, reason, held := [] }
      let s := q.held.foldl (fun s r => (s.gutter gRecord).raiseAll r.after) s
      (s.queueError (.inst q.inst) 1 c reason q.producer 0).cqErrorWqs c

/-- Raise CQ_NOTIFY for a completion queue and disarm it (R170, R175). -/
def State.cqNotify (s : State) (c : Nat) (q : Cq) : State :=
  (s.setCq c { q with armed := false, armedSol := false }).raise (.lq q.lantern) evCqNotify c q.producer 0

/-- Write a record at the producer index of a completion queue; false when the function cannot issue the write now. -/
def State.cqPut (s : State) (c : Nat) (q : Cq) (r : CRecord) : Bool × State :=
  match s.ivaWrite q.inst (q.ring + slotOf q.producer q.log2 * 32)
      (recordBytes r.bytes (phaseAt q.producer q.log2) s.hallTime) false with
  | (none, s) =>
    let sol := if r.solicited then q.solicitedAt ++ [q.producer] else q.solicitedAt
    let q := { q with producer := advance q.producer 1, solicitedAt := sol, fresh := false }
    let s := s.setCq c q
    (true, (if q.armed || (q.armedSol && r.solicited) then s.cqNotify c q else s).raiseAll r.after)
  | (some .blocked, s) => (false, s)
  | (some (.fault _), s) => (true, ((s.gutter gRecord).raiseAll r.after).cqFail c qrCqTranslation)
  | (some .host, s) => (true, ((s.gutter gRecord).raiseAll r.after).cqFail c qrCqHostError)

/-- A full completion queue holds records: a wait of 0 overflows at once (R169, R193). -/
def State.cqFull (s : State) (c : Nat) (q : Cq) : State :=
  let s := s.setCq c { q with state := .fullWait }
  if s.regF .QPE_CQ_FULL_WAIT 19 0 == 0 then s.cqFail c qrCqOverflow else s

/-- Hold a record of a completion queue. A full queue starts its hold with the first held record (R169). -/
def State.cqHold (s : State) (c : Nat) (q : Cq) (r : CRecord) (full : Bool) : State :=
  let q := { q with held := q.held ++ [r] }
  if full then s.cqFull c q else s.setCq c q

/-- Write a completion record to a completion queue, or hold it, or send it to the gutter (R169, R188). -/
def State.cqPost (s : State) (c : Nat) (r : CRecord) : State :=
  match s.cq c with
  | none => (s.gutter gRecord).raiseAll r.after
  | some q =>
    if q.state = .error then (s.gutter gRecord).raiseAll r.after
    else
      let full := decide (2 ^ q.log2 ≤ distance q.consumer q.producer)
      if !full && q.held.isEmpty then
        match s.cqPut c q r with
        | (true, s) => s
        | (false, s) => s.cqHold c q r false
      else s.cqHold c q r full

/-- Write held records of a completion queue in order while there is room (R169); `fuel` bounds them. -/
def State.cqDrain (c : Nat) : Nat → State → State
  | 0, s => s
  | fuel + 1, s =>
    match s.cq c with
    | none => s
    | some q =>
      match q.held with
      | [] => if q.state = .fullWait then s.setCq c { q with state := .active } else s
      | r :: rs =>
        if q.state = .error then s
        else if 2 ^ q.log2 ≤ distance q.consumer q.producer then s.cqFull c q
        else
          let q := { q with held := rs }
          match (s.setCq c q).cqPut c q r with
          | (true, s) => State.cqDrain c fuel s
          | (false, _) => s

/-! ## Admin replies (R204 to R213) -/

/-- The admin queue of the physical function of a port. -/
def State.adm1 (s : State) (p : Nat) : AdmQ := SMap.getD s.adm.queues p ⟨.disabled, 0, 0, 0, 0, 0, 0x10, false, [], [], 0, []⟩

/-- Replace an admin queue. -/
def State.setAdm (s : State) (p : Nat) (a : AdmQ) : State :=
  { s with adm := { s.adm with queues := SMap.put s.adm.queues p a } }

/-- A field of the `ADM_CTRL` of a port's physical function. -/
def State.admCtrl (s : State) (p hi lo : Nat) : Nat := fld (s.regOf (p * 128) .ADM_CTRL) hi lo

/-- Signal the admin queue's vector when REPLY_IRQ asks for it (R212). -/
def State.admIrq (s : State) (p : Nat) : State :=
  if s.admCtrl p 30 30 = 1 then s.msix (p * 128) (s.admCtrl p 26 16) else s

/-- The admin queue enters ERROR (R205). -/
def State.admError (s : State) (p reason : Nat) : State :=
  let a := s.adm1 p
  if a.state = .error then s else (s.setAdm p { a with state := .error, reason }).admIrq p

/-- A stopping queue whose commands have all ended reaches DISABLED with every index at 0 (R206). -/
def State.admStopped (s : State) (p : Nat) : State :=
  let a := s.adm1 p
  if a.state = .stopping ∧ a.cmds.all (·.2.orphan) ∧ a.held = [] then
    s.setAdm p { a with
      state := .disabled, producer := 0, fetch := 0, replyProducer := 0, replyConsumer := 0, units := [], reading := 0 }
  else s

/-- Raise ADMIN_DONE for a reply (R213). -/
def State.adminDone (s : State) (p : Nat) (r : Bytes) : State :=
  s.raise (.inst (p * 128)) evAdminDone (leAt r 4 2)
    (leAt r 0 4 + leAt r 6 1 * 2 ^ 32 + leAt r 8 3 * 2 ^ 40) 0

/-- Write a reply at the producer index of the reply ring (R211 to R213). -/
def State.replyPut (s : State) (p : Nat) (r : Bytes) (done : Bool) : State :=
  let a := s.adm1 p
  let log2 := s.admCtrl p 11 8
  let r := overlay r 12 (leBytes 1 (phaseAt a.replyProducer log2))
  let s := s.emit (.hostWrite p (p * 128)
    ((s.regOf (p * 128) .ADM_REPLY_BASE).toNat / 4096 * 4096 + slotOf a.replyProducer log2 * 32) r false false)
  let s := (s.setAdm p { a with replyProducer := advance a.replyProducer 1 }).admIrq p
  if done then s.adminDone p r else s

/-- Write the replies that waited for the function to issue again (R738). -/
def State.repliesDrain (s : State) (p : Nat) : State :=
  if s.canIssue (p * 128) then
    let a := s.adm1 p
    let s := s.setAdm p { a with held := [] }
    (a.held.foldl (fun s r => s.replyPut p r.bytes r.done) s).admStopped p
  else s

/-- A command ends with a reply (R211). The reply of a queue that was reset meanwhile goes to the gutter (R206), and one of a command that
ends while the control processor does not run waits for it (R219). -/
def State.reply (s : State) (p k status detail : Nat) (result : Bytes) : State :=
  let a := s.adm1 p
  match SMap.find a.cmds k with
  | none => s
  | some c =>
    if !s.cpRuns && !c.orphan then
      s.setAdm p { a with cmds := SMap.put a.cmds k { c with ended := some (status, detail, result) } }
    else
    let b := slice c.pkt 4 4 ++ slice c.pkt 2 2 ++ leBytes 1 status ++ leBytes 1 detail ++ leBytes 3 c.index ++
      leBytes 1 a.negotiated ++ zeros 4 ++ (if status = 0 then slice result 0 16 else zeros 16)
    let s := s.setAdm p { a with cmds := SMap.del a.cmds k }
    if c.orphan then s.gutter gRecord
    else
      let done := bit (leAt c.pkt 8 1) 0 || a.events
      let a := s.adm1 p
      (s.setAdm p { a with held := a.held ++ [⟨b, done, c.seq, c.pkt⟩] }).repliesDrain p

end Sys2Proof.Machine
end

