-- ==== Sys2Proof/Machine/Admin.lean ====
section
/-!
DEFINITION. Admin commands: the parameters of each opcode, header checks, conflicts and fences, and the frame in which
every command runs (R207 to R219, R223 to R230).
-/

namespace Sys2Proof.Machine

/-- Who may issue a command: the manager, the manager or a port manager for its own port, or any physical function. -/
inductive By where
  | m | p | f
  deriving DecidableEq, Repr

/-- A row of the opcode index (R223 to R229): who may issue it, the capability bit it needs, and its parameter widths in
bits; a byte array of n bytes is 8n + 1000. -/
structure AdmSpec where
  by_ : By
  cap : Option Nat
  widths : List Nat
  deriving DecidableEq, Repr

/-- The opcode index (R210, R223 to R229). SET_FEATURE judges its issuer by its feature. -/
def admSpec (op : Nat) : Option AdmSpec :=
  match op with
  | 0x0001 => some ⟨.f, none, []⟩
  | 0x0002 => some ⟨.f, none, [8, 8]⟩
  | 0x0003 => some ⟨.f, none, [16]⟩
  | 0x0004 => some ⟨.f, none, [16, 1128]⟩
  | 0x0005 => some ⟨.m, none, [8, 32, 32]⟩
  | 0x0010 => some ⟨.p, none, [9, 64, 5, 16]⟩
  | 0x0011 => some ⟨.p, none, [9, 16]⟩
  | 0x0012 => some ⟨.p, none, [9, 64, 5, 9]⟩
  | 0x0013 => some ⟨.p, none, [9, 16]⟩
  | 0x0014 => some ⟨.p, none, [9, 64, 5, 11, 1]⟩
  | 0x0015 => some ⟨.p, none, [9, 9]⟩
  | 0x0016 => some ⟨.p, none, [9, 16, 8, 20]⟩
  | 0x0017 => some ⟨.p, none, [9, 16]⟩
  | 0x0020 => some ⟨.p, none, [9, 16, 16, 1, 3, 16, 16]⟩
  | 0x0021 => some ⟨.p, none, [24, 8, 17, 24, 24, 24]⟩
  | 0x0022 => some ⟨.p, none, [24]⟩
  | 0x0023 => some ⟨.p, none, [24]⟩
  | 0x0030 => some ⟨.p, none, [9, 1, 3, 16, 64, 64]⟩
  | 0x0031 => some ⟨.p, none, [32]⟩
  | 0x0032 => some ⟨.p, none, [32]⟩
  | 0x0040 => some ⟨.p, none, [9, 64, 2, 17, 2, 1, 1, 1, 1, 64]⟩
  | 0x0041 => some ⟨.p, none, [9, 64, 2, 17]⟩
  | 0x0042 => some ⟨.p, none, [8, 9, 3, 64, 64, 64, 64]⟩
  | 0x0050 => some ⟨.m, some capCollective, [8, 16, 32, 64]⟩
  | 0x0051 => some ⟨.m, some capCollective, [8]⟩
  | 0x0052 => some ⟨.m, some capCollective, [8, 32, 8]⟩
  | 0x0060 => some ⟨.p, some capTransit, [9, 16, 16, 64]⟩
  | 0x0061 => some ⟨.p, some capTransit, [16]⟩
  | 0x0070 => some ⟨.m, none, [16, 1, 23, 23]⟩
  | 0x0071 => some ⟨.m, none, [23, 23]⟩
  | 0x0072 => some ⟨.m, some capPlacement, [8, 17, 23, 23, 16]⟩
  | 0x0073 => some ⟨.m, some capPlacement, [16, 1, 1, 8, 32, 32]⟩
  | 0x0080 => some ⟨.p, none, [9, 16, 32]⟩
  | 0x0081 => some ⟨.p, none, [16]⟩
  | 0x0082 => some ⟨.p, none, [9, 8, 1]⟩
  | 0x0090 => some ⟨.m, some capCadence, [8, 16, 64, 64]⟩
  | 0x0091 => some ⟨.m, some capCadence, [8, 32, 32, 32, 32, 32, 32, 32, 32]⟩
  | 0x0092 => some ⟨.m, some capCadence, [16, 32, 64]⟩
  | 0x00A0 => some ⟨.p, some capCipher, [9, 16, 1256, 1032]⟩
  | 0x00A1 => some ⟨.p, some capCipher, [16]⟩
  | 0x00B0 => some ⟨.p, none, [2, 7, 64, 32, 32, 16, 16, 16, 8]⟩
  | 0x00B1 => some ⟨.p, none, [9]⟩
  | 0x00B2 => some ⟨.p, none, [9]⟩
  | 0x00B3 => some ⟨.p, none, [9, 16]⟩
  | 0x00C0 => some ⟨.m, none, [8, 64]⟩
  | 0x00C1 => some ⟨.m, none, [16]⟩
  | 0x00D0 => some ⟨.f, none, [32, 32, 64]⟩
  | 0x00D1 => some ⟨.m, none, [16, 32, 64]⟩
  | 0x00D2 => some ⟨.m, none, [16, 32, 32, 64]⟩
  | 0x00D3 => some ⟨.m, none, [8, 16]⟩
  | 0x00E0 => some ⟨.m, none, [32, 64]⟩
  | 0x00E1 => some ⟨.m, none, [8]⟩
  | 0x00F0 => some ⟨.m, none, [16, 32, 64]⟩
  | 0x00F1 => some ⟨.m, none, [16, 8]⟩
  | 0x00F2 => some ⟨.m, none, [16]⟩
  | _ => none

/-- The size and alignment in bytes of the container of a field (R208). -/
def containerOf (w : Nat) : Nat × Nat :=
  if w > 1000 then ((w - 1000) / 8, 1)
  else if w ≤ 8 then (1, 1) else if w ≤ 16 then (2, 2) else if w ≤ 32 then (4, 4) else (8, 8)

/-- The (offset, bytes, bits) of fields placed from `off` on (R208). -/
def placeFields : Nat → List Nat → List (Nat × Nat × Nat)
  | _, [] => []
  | off, w :: ws =>
    let c := containerOf w
    let o := alignUp off c.2
    (o, c.1, if w > 1000 then w - 1000 else w) :: placeFields (o + c.1) ws

/-- The first byte after the last parameter (R208). -/
def fieldsEnd (fs : List (Nat × Nat × Nat)) : Nat := fs.foldl (fun _ f => f.1 + f.2.1) 32

/-- The parameters of a packet, in order (R208). Unused high bits of a container are reserved and ignored (R6). -/
def paramsOf (pkt : Bytes) (widths : List Nat) : List Nat :=
  (placeFields 32 widths).map fun f => leAt pkt f.1 f.2.1 % 2 ^ f.2.2

/-- Parameter `i`. -/
def par (ps : List Nat) (i : Nat) : Nat := ps.getD i 0

/-- The RESULT field with values placed under R208 from byte 16 of the reply; pairs are (width, value). -/
def resultBytes (fs : List (Nat × Nat)) : Bytes :=
  (fs.zip (placeFields 16 (fs.map (·.1)))).foldl
    (fun b e => overlay b (e.2.1 - 16) (leBytes e.2.2.1 e.1.2)) (zeros 16)

/-- The opcode of a command packet. -/
def opcodeOf (pkt : Bytes) : Nat := leAt pkt 2 2

/-- The parameters of a fetched command by its opcode's row. -/
def Cmd.params (c : Cmd) : List Nat := paramsOf c.pkt ((admSpec (opcodeOf c.pkt)).map (·.widths) |>.getD [])

/-! ## Conflicts and fences (R215, R216) -/

/-- Kinds of objects that commands name (R215). -/
inductive Obj where
  | inst | wq | cq | lq | qp | sky | page | group | program | wick | barrier | keySlot | linkGroup | partition | feature | flash
  deriving DecidableEq, Repr

/-- The objects that a command names, as a kind and a range of numbers (R215); the flash is one (R784, R826). -/
def objectsOf (pkt : Bytes) : List (Obj × Nat × Nat) :=
  let op := opcodeOf pkt
  let ps := paramsOf pkt ((admSpec op).map (·.widths) |>.getD [])
  let one (k : Obj) (i : Nat) : Obj × Nat × Nat := (k, par ps i, par ps i + 1)
  match op with
  | 0x0003 => [one .feature 0]
  | 0x0004 => [one .feature 0]
  | 0x0010 => [one .inst 0, one .cq 3]
  | 0x0011 => [one .inst 0, one .wq 1]
  | 0x0012 => [one .inst 0, one .lq 3]
  | 0x0013 => [one .inst 0, one .cq 1]
  | 0x0014 => [one .inst 0]
  | 0x0015 => [one .inst 0, one .lq 1]
  | 0x0016 => [one .inst 0, one .wq 1]
  | 0x0017 => [one .inst 0, one .wq 1]
  | 0x0020 => [one .inst 0, one .cq 2, one .partition 5] ++
    (if par ps 1 = 0xFFFF then [] else [one .wq 1]) ++ (if par ps 3 = 1 then [one .keySlot 6] else [])
  | 0x0021 => [one .qp 0]
  | 0x0022 => [one .qp 0]
  | 0x0023 => [one .qp 0]
  | 0x0030 => [one .inst 0, one .partition 3]
  | 0x0031 => [(.sky, par ps 0 % 2 ^ 20, par ps 0 % 2 ^ 20 + 1)]
  | 0x0032 => [(.sky, par ps 0 % 2 ^ 20, par ps 0 % 2 ^ 20 + 1)]
  | 0x0040 => [one .inst 0]
  | 0x0041 => [one .inst 0]
  | 0x0042 => [one .inst 1]
  | 0x0050 => [one .group 0, one .partition 1]
  | 0x0051 => [one .group 0]
  | 0x0052 => [one .group 0]
  | 0x0060 => [one .inst 0, one .partition 1]
  | 0x0061 => [one .program 0]
  | 0x0070 => [one .partition 0, (.page, par ps 2, par ps 2 + par ps 3)]
  | 0x0071 => [(.page, par ps 0, par ps 0 + par ps 1)]
  | 0x0072 => if par ps 0 % 256 < 2 then [(.page, par ps 2, par ps 2 + par ps 3)] else [one .program 4]
  | 0x0073 => [one .partition 0]
  | 0x0080 => [one .inst 0, one .partition 1]
  | 0x0081 => [one .wick 0]
  | 0x0082 => [one .inst 0, one .group 1]
  | 0x0090 => [one .linkGroup 0]
  | 0x0091 => if par ps 0 = 0xFF then [(.linkGroup, 0, 8)] else [one .linkGroup 0]
  | 0x0092 => [one .partition 0]
  | 0x00A0 => [one .inst 0, one .keySlot 1]
  | 0x00A1 => [one .keySlot 0]
  | 0x00B0 => [(.inst, par ps 0 * 128 + par ps 1, par ps 0 * 128 + par ps 1 + 1)]
  | 0x00B1 => [one .inst 0]
  | 0x00B2 => [one .inst 0]
  | 0x00B3 => [one .inst 0]
  | 0x00D0 => [(.flash, 0, 1)]
  | 0x00D1 => [(.flash, 0, 1)]
  | 0x00D2 => [(.flash, 0, 1)]
  | 0x00E0 => [(.flash, 0, 1)]
  | 0x00F0 => [one .partition 0]
  | 0x00F1 => [one .partition 0]
  | 0x00F2 => [one .partition 0]
  | _ => []

/-- Whether a command ends or joins the wait of one fetched before it, `x`, which does not hold it back then (R83, R181, R183, R396,
R697, R789; log 15). -/
def joins (x y : Bytes) : Bool :=
  let a := opcodeOf x
  let b := opcodeOf y
  let stops (x : Bytes) : Bool := opcodeOf x == 0x0017 || (opcodeOf x == 0x0016 && par (paramsOf x [9, 16, 8, 20]) 2 != 1)
  (stops x && stops y && par (paramsOf x [9, 16]) 1 == par (paramsOf y [9, 16]) 1) ||
    [(0x0031, 0x0031), (0x00B2, 0x00B2), (0x0050, 0x0051), (0x00F0, 0x00F1), (0x0050, 0x00F1)].contains (a, b)

/-- Whether two commands name a common object (R215). -/
def conflict (a b : Bytes) : Bool :=
  (objectsOf a).any fun x => (objectsOf b).any fun y =>
    x.1 == y.1 && decide (x.2.1 < y.2.2) && decide (y.2.1 < x.2.2)

/-- Whether a command behaves as if FENCE were set (R216). -/
def fenced (pkt : Bytes) : Bool :=
  bit (leAt pkt 8 1) 1 || [0x0002, 0x0005, 0x00E1].contains (opcodeOf pkt)

/-- Whether a fetched command may start: no conflicting command fetched before it has still to reply, be it that its reply waits (R215, R738), other than one in progress
whose wait it ends or joins (log 15), and no fence of its own queue stands in the way (R216). -/
def State.mayStart (s : State) (p k : Nat) (c : Cmd) : Bool :=
  (s.adm.queues.all fun q => (q.2.cmds.all fun e =>
      (q.1 == p && e.1 == k) || decide (c.seq ≤ e.2.seq) || !conflict e.2.pkt c.pkt || (e.2.started && joins e.2.pkt c.pkt)) &&
    q.2.held.all fun r => decide (c.seq ≤ r.seq) || !conflict r.pkt c.pkt) &&
  ((s.adm1 p).cmds.all fun e => e.1 == k || decide (c.seq ≤ e.2.seq) || !(fenced e.2.pkt || fenced c.pkt)) &&
  (s.adm1 p).held.all fun r => decide (c.seq ≤ r.seq) || !(fenced r.pkt || fenced c.pkt)

/-! ## The frame of a command (R210) -/

/-- How a command's own part goes on: it ends with a reply, or it waits and is run again, at a later stage. -/
inductive AdmRes where
  | reply (status detail : Nat) (result : Bytes) (s : State)
  | wait (c : Cmd) (s : State)

/-- A reply with a status and nothing else. -/
def AdmRes.fail (status : Nat) (s : State) : AdmRes := .reply status 0 [] s

/-- A reply of BAD_DESCRIPTOR, detail FIELD. -/
def AdmRes.field (s : State) : AdmRes := .reply stBadDescriptor dField [] s

/-- A queue of an instance that does not exist: FIELD where the instance is ABSENT, else QUEUE_UNKNOWN (R178, R210). -/
def State.noQueue (s : State) (n : Nat) : AdmRes := if (s.inst n).isNone then .field s else .fail 0x86 s

/-- A reply of SUCCESS with results. -/
def AdmRes.ok (fs : List (Nat × Nat)) (s : State) : AdmRes := .reply stSuccess 0 (resultBytes fs) s

/-- Whether a port's physical function has authority over an instance number (R689). -/
def reach (port inst : Nat) : Bool := port == 0 || portOf inst == port

/-- The header checks (R210) up to check 4, whose object part is `auth`; the status and detail of the first failure. -/
def State.headerFail (s : State) (p : Nat) (pkt : Bytes) (auth : List Nat → Bool) : Option (Nat × Nat) :=
  let v := leAt pkt 0 1
  if v ≠ 0x10 ∨ (s.adm1 p).negotiated < v then some (stVersion, 0) else
    match admSpec (opcodeOf pkt) with
    | none => some (stBadDescriptor, dOpcode)
    | some spec =>
      if (match spec.cap with | some i => !s.hasCap i | none => false) then some (stBadDescriptor, dOpcode)
      else if leAt pkt 1 1 * 32 < fieldsEnd (placeFields 32 spec.widths) then some (stBadDescriptor, dLength)
      else if spec.by_ = .m ∧ p ≠ 0 then some (stLocalProtection, 0)
      else if !auth (paramsOf pkt spec.widths) then some (stLocalProtection, 0)
      else none

/-- Put a command back with its progress. -/
def State.setCmd (s : State) (p k : Nat) (c : Cmd) : State :=
  let a := s.adm1 p
  s.setAdm p { a with cmds := SMap.put a.cmds k c }

/-- Run fetched command `k` of port `p` when it is the command of opcode `op` that `sel` selects and it may start: the
header checks, then its own part. A command that may not run yet stays as it is (R215, R216, R219), and so
does one of a held function (R738) and one that waits for a FIRMWARE_ACTIVATE (R780). -/
def State.adminRun (s : State) (p k op : Nat) (sel : List Nat → Bool) (auth : State → List Nat → Bool)
    (body : State → Cmd → List Nat → AdmRes) : State :=
  match SMap.find (s.adm1 p).cmds k with
  | none => s
  | some c =>
    if !s.cpRuns || (s.fn (p * 128)).held || opcodeOf c.pkt != op || !sel c.params || (!c.started && (s.boot.activating || !s.mayStart p k c)) then s
    else
      match (if c.started then none else s.headerFail p c.pkt (auth s)) with
      | some f => s.reply p k f.1 f.2 []
      | none =>
        let c := { c with started := true }
        match body (s.setCmd p k c) c c.params with
        | .reply st d r s => (s.reply p k st d r).admStopped p
        | .wait c s => if SMap.has (s.adm1 p).cmds k then s.setCmd p k c else s

/-- No condition on the parameters. -/
def anySel (_ : List Nat) : Bool := true

/-- Authority that the By column alone decides. -/
def anyAuth (_ : State) (_ : List Nat) : Bool := true

/-- Authority over the instance that parameter `i` names (R210). -/
def instAuth (p i : Nat) (_ : State) (ps : List Nat) : Bool := reach p (par ps i)

/-! ## Parameters in the issuer's memory (R209) -/

/-- Read a parameter of `len` bytes from the issuer's own space: none while it waits for data, else the bytes or a
failure. -/
def State.admRead (s : State) (p k : Nat) (c : Cmd) (iva len : Nat) : Option (Option Bytes) × Cmd × State :=
  let n := p * 128
  let r := s.readIva n n iva len true (fun off => .cmdParam p k off) c.data
  let c := { c with data := r.2.1 }
  let s := r.2.2.setCmd p k c
  if c.data.fail.isSome then (some none, c, s)
  else if r.1 && c.data.ready then (some (some c.data.bytes), c, s)
  else (none, c, s)

/-- The first part of a range of an instance's space that the module cannot write now: its translation would fault, or its function cannot
issue the write. -/
def State.unwritable (s : State) (n iva len : Nat) : Option Nat :=
  ((pieces 4096 iva len).find? fun x => match (s.lookupNow n (iva + x.1) .write).1 with
    | .ok kind t => (kind != .hbm && !s.canIssue n) || (kind == .peer && !s.peerOk (portOf n) t x.2)
    | _ => true).map fun x => iva + x.1

/-- Write a parameter into the issuer's own space: nothing of it where a part cannot be written (R209). -/
def State.admWrite (s : State) (p : Nat) (iva : Nat) (data : Bytes) : Bool × State :=
  match s.unwritable (p * 128) iva data.length with
  | some a => (false, (s.lookupNow (p * 128) a .write).2)
  | none =>
  match s.ivaWrite (p * 128) iva data true with
  | (none, s) => (true, s)
  | (some _, s) => (false, s)

end Sys2Proof.Machine
end

