-- ==== Sys2Proof/Machine/Crypt.lean ====
section
/-!
DEFINITION. AES-256-GCM, the cipher of forerunner-form queue pairs (R328 to R331), and SHA-384, the digest of firmware
images, as their published standards define them (PRESUMED, log 18: the spec names the algorithms only).
-/

namespace Sys2Proof.Machine

/-! ## AES-256 -/

/-- Doubling in the field of AES. -/
def aesDouble (a : Nat) : Nat := if 128 ≤ a then (2 * a % 256) ^^^ 0x1B else 2 * a

/-- Product in the field of AES over `n` bits of the second factor. -/
def aesMul : Nat → Nat → Nat → Nat
  | 0, _, _ => 0
  | n + 1, a, b => (if b % 2 = 1 then a else 0) ^^^ aesMul n (aesDouble a) (b / 2)

/-- Power in the field of AES. -/
def aesPow (a : Nat) : Nat → Nat
  | 0 => 1
  | n + 1 => aesMul 8 a (aesPow a n)

/-- An 8-bit rotation to the left. -/
def rot8 (a n : Nat) : Nat := (a * 2 ^ n) % 256 + a / 2 ^ (8 - n)

/-- The S-box: the inverse (0 for 0) and the affine map. -/
def aesSbox (a : Nat) : Nat :=
  let b := aesPow a 254
  b ^^^ rot8 b 1 ^^^ rot8 b 2 ^^^ rot8 b 3 ^^^ rot8 b 4 ^^^ 0x63

/-- The exclusive or of two byte lists. -/
def xorBytes (a b : List Nat) : List Nat := List.zipWith (fun x y => x ^^^ y) a b

/-- The words of the expanded key, 4 bytes each; `fuel` words are added to `ws`. -/
def aesExpand : Nat → List (List Nat) → List (List Nat)
  | 0, ws => ws
  | fuel + 1, ws =>
    let i := ws.length
    let prev := ws.getD (i - 1) []
    let t := if i % 8 = 0 then
        xorBytes ((prev.drop 1 ++ prev.take 1).map aesSbox) [aesPow 2 (i / 8 - 1), 0, 0, 0]
      else if i % 8 = 4 then prev.map aesSbox else prev
    aesExpand fuel (ws ++ [xorBytes (ws.getD (i - 8) []) t])

/-- The round keys, 16 bytes each. -/
def aesRoundKeys (key : List Nat) : List (List Nat) :=
  let ws := aesExpand 52 ((List.range 8).map fun i => (key.drop (4 * i)).take 4)
  (List.range 15).map fun r => (ws.drop (4 * r)).take 4 |>.flatten

/-- ShiftRows of a block in column order. -/
def aesShift (b : List Nat) : List Nat := (List.range 16).map fun i => b.getD ((i + 4 * (i % 4)) % 16) 0

/-- MixColumns of a block in column order. -/
def aesMix (b : List Nat) : List Nat :=
  (List.range 16).map fun i =>
    let c := i / 4 * 4
    let at_ (k : Nat) := b.getD (c + (i + k) % 4) 0
    aesMul 8 (at_ 0) 2 ^^^ aesMul 8 (at_ 1) 3 ^^^ at_ 2 ^^^ at_ 3

/-- The encryption of a block under round keys. -/
def aesBlock (keys : List (List Nat)) (b : List Nat) : List Nat :=
  match keys with
  | [] => b
  | k :: ks =>
    let n := ks.length
    (ks.zip (List.range n)).foldl (fun b e =>
      let t := aesShift (b.map aesSbox)
      xorBytes (if e.2 + 1 = n then t else aesMix t) e.1) (xorBytes b k)

/-! ## GCM -/

/-- The product in GCM's field of two 128-bit numbers, over `n` bits of the first from its highest. -/
def gcmMul : Nat → Nat → Nat → Nat
  | 0, _, _ => 0
  | n + 1, x, v =>
    (if bit x n then v else 0) ^^^ gcmMul n x (if v % 2 = 1 then v / 2 ^^^ (0xE1 * 2 ^ 120) else v / 2)

/-- GHASH of 16-byte blocks. -/
def ghash (h : Nat) (blocks : List Bytes) : Nat :=
  blocks.foldl (fun y b => gcmMul 128 (y ^^^ beNat (slice b 0 16)) h) 0

/-- The bytes of a block as numbers. -/
def natsOf (b : Bytes) : List Nat := b.map (·.toNat)

/-- The encryption of a 128-bit number. -/
def aesNat (keys : List (List Nat)) (n : Nat) : Nat :=
  beNat ((aesBlock keys (natsOf (beBytes 16 n))).map fun x => BitVec.ofNat 8 x)

/-- The counter-mode keystream applied to data, from counter block `j`. -/
def gcmCtr (keys : List (List Nat)) (j : Nat) (data : Bytes) : Bytes :=
  let blocks := chunks 16 (data.length / 16 + 1) data
  (blocks.zip (List.range blocks.length)).flatMap fun e =>
    let pad := beBytes 16 (aesNat keys (j / 2 ^ 32 * 2 ^ 32 + (j + 1 + e.2) % 2 ^ 32))
    List.zipWith (fun a b => a ^^^ b) e.1 pad

/-- The tag of ciphertext and additional data under a 12-byte IV. -/
def gcmTag (keys : List (List Nat)) (j : Nat) (aad cipher : Bytes) : Bytes :=
  let h := aesNat keys 0
  let split (b : Bytes) := chunks 16 (b.length / 16 + 1) b
  let s := ghash h (split aad ++ split cipher ++ [beBytes 8 (aad.length * 8) ++ beBytes 8 (cipher.length * 8)])
  beBytes 16 (s ^^^ aesNat keys j)

/-- The first counter block of a segment: the salt, the segment number and 1 (R329). -/
def gcmStart (salt : Bytes) (segment : Nat) : Nat := beNat (slice salt 0 4 ++ beBytes 8 segment ++ beBytes 4 1)

/-- Encrypt a segment: ciphertext and tag (R328, R329). -/
def gcmSeal (key salt : Bytes) (segment : Nat) (aad plain : Bytes) : Bytes × Bytes :=
  let ks := aesRoundKeys (natsOf key)
  let j := gcmStart salt segment
  let c := gcmCtr ks j plain
  (c, gcmTag ks j aad c)

/-- Decrypt a segment: its plaintext when the tag verifies (R331). -/
def gcmOpen (key salt : Bytes) (segment : Nat) (aad cipher tag : Bytes) : Option Bytes :=
  let ks := aesRoundKeys (natsOf key)
  let j := gcmStart salt segment
  if gcmTag ks j aad cipher = tag then some (gcmCtr ks j cipher) else none

end Sys2Proof.Machine
end

