-- ==== Sys2Proof/Machine/Router.lean ====
section
/-!
DEFINITION. The router (R346 to R377): coordinates, routes, output queues, marking and notices, throttling, injection.
-/

namespace Sys2Proof.Machine

/-- This module's number (R224). -/
def State.me (s : State) : Nat := s.feat.moduleNumber

/-- Coordinate `d` of a module number (R346). -/
def coord (m d : Nat) : Nat := [bits m 3 0, bits m 7 4, bits m 11 8, bits m 16 12].getD d 0

/-- The ring size of dimension `d` (R347). -/
def State.ring (s : State) (d : Nat) : Nat := s.feat.rings.getD d 1

/-- Whether a module number lies in the configured torus (R347). -/
def State.inTorus (s : State) (m : Nat) : Bool := (List.range 4).all fun d => decide (coord m d < s.ring d)

/-- Whether link group `g` is switched (R224, R299). -/
def State.switchedGroup (s : State) (g : Nat) : Bool := bit s.feat.switched g

/-- A link; one that is not listed is OFF. -/
def State.link (s : State) (g j : Nat) : Link := SMap.getD s.lnk.links (g * 8 + j) default

/-- Whether a link state counts as in service for routing (R629). -/
def LinkState.routable : LinkState → Bool
  | .inService => true
  | .quiet => true
  | .waking => true
  | _ => false

/-- The links of a group that are in service (R357, R629). -/
def State.liveLinks (s : State) (g : Nat) : List Nat := (List.range 8).filter fun j => (s.link g j).state.routable

/-- The stream entropy of a packet (R302, R357). -/
def Pkt.entropy (p : Pkt) : Nat :=
  crc32 (beBytes 3 p.src ++ beBytes 3 p.dst ++ beBytes 1 (p.tc * 32) ++
    (if p.dstQpn ≠ 0 then beBytes 3 p.srcQpn ++ beBytes 3 p.dstQpn else []))

/-- Where a packet goes from this router. -/
inductive Route where
  | eject
  | noRoute
  | group (g route : Nat)
  deriving DecidableEq, Repr

/-- The group of a switched hop (R351). -/
def State.switchedHop (s : State) (p : Pkt) : Route :=
  let gs := (List.range 8).filter fun g => s.switchedGroup g && !(s.liveLinks g).isEmpty
  match gs with
  | [] => .noRoute
  | _ => .group (gs.getD (p.entropy % gs.length) 0) p.route

/-- Whether a packet that enters dimension `d` at coordinate `a` for coordinate `b` takes the − direction (R354). -/
def State.minusAt (s : State) (d a b : Nat) : Bool :=
  let n := s.ring d
  let ctl := bits (s.comF .RTR_DIM_CTL 31 0) (8 * d + 7) (8 * d)
  let plus := (b + n - a) % n
  if ctl / 128 = 1 then decide ((ctl % 32 + n - a) % n < plus) else decide (n - plus < plus)

/-- The step of R354 in the dimensions `ds`, for a packet that arrived in dimension `inDim`, if any. -/
def State.directHop (s : State) (p : Pkt) (inDim : Option Nat) : List Nat → Route
  | [] => .eject
  | d :: ds =>
    let n := s.ring d
    let a := coord s.me d
    let b := coord p.dst d
    if a = b then s.directHop p inDim ds else
      let r := if inDim = some d then p.route else p.route / 4 * 4 + b2n (s.minusAt d a b) * 2
      let minus := bit r 1
      let cross := (minus && a == 0) || (!minus && a == n - 1)
      .group (2 * d + b2n minus) (if cross then r ||| 1 else r)

/-- The route of a packet (R350, R354). A packet that came by a switched group takes no switched hop; one
that would need another is dropped as without a route (log 94). -/
def State.route (s : State) (p : Pkt) (inGroup : Option Nat) : Route :=
  if p.dst = s.me then .eject
  else if !s.inTorus p.dst then .noRoute
  else
    let viaSwitch := match inGroup with | some g => s.switchedGroup g | none => false
    let inDim := match inGroup with | some g => if s.switchedGroup g then none else some (g / 2) | none => none
    let sw := (List.range 4).any fun d => s.switchedGroup (2 * d) && coord p.dst d != coord s.me d
    if sw then (if viaSwitch then .noRoute else s.switchedHop p)
    else s.directHop p inDim [0, 1, 2, 3]

/-- The bytes of a packet's frame on a group, from the Ethernet header to the frame check (R299, R300). -/
def State.frameBytesOf (s : State) (p : Pkt) (g : Nat) : Nat :=
  alignUp p.payload.length 64 + (if s.switchedGroup g then 124 else 76)

/-- The packets in the output queues of a group in a class. -/
def State.groupQueue (s : State) (g tc : Nat) : List OutPkt :=
  (List.range 8).flatMap fun j => (SMap.getD s.rtr.out (g * 8 + j) []).filter fun o => o.pkt.tc == tc

/-- The bytes of a class in the output queue of a link (R367, R368). -/
def State.linkBytes (s : State) (g j tc : Nat) : Nat :=
  sumList (((SMap.getD s.rtr.out (g * 8 + j) []).filter fun o => o.pkt.tc == tc).map (·.bytes))

/-- The bytes queued for a group in a class (R374). -/
def State.groupBytes (s : State) (g tc : Nat) : Nat := sumList ((s.groupQueue g tc).map (·.bytes))

/-- The bytes in the ejection queue of a class. -/
def State.ejectBytes (s : State) (tc : Nat) : Nat :=
  sumList ((s.rtr.eject.filter fun o => o.pkt.tc == tc).map (·.bytes))

/-- Count one or more events of a router port (R374). -/
def State.countPort (s : State) (port : Nat) (r : Reg) (n : Nat) : State := s.countSel port r n

/-- One step of the register of R367, x^16 + x^14 + x^13 + x^11 + 1, which shifts right; its start and its direction are the model's
(log 17). -/
def lfsr16 (x : Nat) : Nat :=
  let b := (x + x / 2 ^ 2 + x / 2 ^ 3 + x / 2 ^ 5) % 2
  x % 2 ^ 16 / 2 + b * 2 ^ 15

/-- Whether a packet is marked on entering a queue of `q` KiB (R367): between the thresholds, by one step of the register. -/
def State.shouldMark (s : State) (q : Nat) : Bool × State :=
  let kmin := s.comF .RTR_MARK_CFG 11 0
  let kmax := s.comF .RTR_MARK_CFG 23 12
  if q ≤ kmin then (false, s)
  else if kmax ≤ q then (true, s)
  else
    let x := lfsr16 s.rtr.lfsr
    (decide (x < (q - kmin) * s.comF .RTR_MARK_CFG 31 24 * 256 / (kmax - kmin)), { s with rtr := { s.rtr with lfsr := x } })

/-- Mark a packet that enters the queue of a port with `q` KiB in it (R367). A CONGESTION packet is never marked (R368). -/
def State.markPkt (s : State) (p : Pkt) (port q : Nat) : Pkt × State :=
  if p.ecn = 0 ∨ p.typ = 0x0A then (p, s) else
    let r := s.shouldMark q
    if r.1 then ({ p with ecn := 3 }, r.2.countPort port .RTR_PORT_MARK_COUNT 1) else (p, r.2)

/-- Raise the high-water mark of a queue (R374): group queues by 8 × group + class, ejection queues from 64. -/
def State.watermark (s : State) (key n : Nat) : State :=
  { s with rtr := { s.rtr with depth := SMap.put s.rtr.depth key (max n (SMap.getD s.rtr.depth key 0)) } }

/-- The bytes in a queue by its sample key: 8 × group + class, and from 64 the ejection queues (R619). -/
def State.queueBytes (s : State) (key : Nat) : Nat := if 64 ≤ key then s.ejectBytes (key - 64) else s.groupBytes (key / 8) (key % 8)

/-- The samples of a queue. -/
def State.sample (s : State) (key : Nat) : Sample :=
  SMap.getD s.rtr.samples key { (default : Sample) with last := s.rtr.sampleStart }

/-- Account for the occupancy that a queue has had up to now, before it changes (R619). -/
def State.sampled (s : State) (key : Nat) : State :=
  let x := s.sample key
  let x := { x with area := x.area + s.queueBytes key * (s.now - x.last), last := s.now }
  { s with rtr := { s.rtr with samples := SMap.put s.rtr.samples key x } }

/-- A packet that entered a queue at a hall time leaves it (R619). -/
def State.sampleLeft (s : State) (key since : Nat) : State :=
  let x := s.sample key
  let d := s.hallTime - since
  { s with rtr := { s.rtr with samples := SMap.put s.rtr.samples key { x with left := x.left + 1, sum := x.sum + d, max := max x.max d } } }

/-- Drop a packet that has no route (R347, R351, R357). -/
def State.noRoute (s : State) : State := (s.count .RTR_NO_ROUTE_COUNT).setFlag .RTR_ERR 0

/-- Put a packet into the ejection queue, with the bytes of the frame in which it came (R299, R374). One injected here has had no frame; the
model counts it as a direct one (log 102). -/
def State.enqueueEject (s : State) (p : Pkt) (input vcIn : Nat) : State :=
  let s := s.sampled (64 + p.tc)
  let r := s.markPkt p 9 (s.ejectBytes p.tc / 1024)
  let o : OutPkt := ⟨r.1, 0, input, vcIn, alignUp p.payload.length 64 + (if input < 64 && s.switchedGroup (input / 8) then 124 else 76), s.hallTime, false⟩
  let s := { r.2 with rtr := { r.2.rtr with eject := r.2.rtr.eject ++ [o] } }
  s.watermark (64 + p.tc) (s.ejectBytes p.tc)

/-- Whether a packet routed to a group enters a queue of it: the group has a link in service, and HOPS is below the limit (R357, R358). -/
def State.enters (s : State) (p : Pkt) (g : Nat) : Bool := s.liveLinks g != [] && decide (p.hops < s.comF .RTR_LINK_FC 23 16)

/-- Whether a group may send: a switched group without the address of its switch sends nothing (R345). -/
def State.addressed (s : State) (g : Nat) : Bool := !s.switchedGroup g || (s.reg (.QPE_XPT_NEXT_HOP_MAC g)).toNat != 0

/-- The link of a group that a packet's stream takes (R357). -/
def State.outLink (s : State) (p : Pkt) (g : Nat) : Nat :=
  let ls := s.liveLinks g
  ls.getD (p.entropy / 65536 % ls.length) 0

/-- Put a packet into an output queue of a group, on the link of its stream (R357). The depth by which it is marked is that before it
enters, in whole KiB rounded down (R367; log 96). -/
def State.enqueueOut (s : State) (p : Pkt) (g input vcIn : Nat) : State :=
  let ls := s.liveLinks g
  if ls = [] then s.noRoute
  else if !s.enters p g then (s.count .RTR_HOP_LIMIT_COUNT).setFlag .RTR_ERR 1
  else
    let s := s.sampled (g * 8 + p.tc)
    let j := s.outLink p g
    let r := s.markPkt p g (s.linkBytes g j p.tc / 1024)
    let k := g * 8 + j
    let vc := bits r.1.route 2 2 * 2 + bits r.1.route 0 0
    let e : OutPkt := ⟨r.1, vc, input, vcIn, s.frameBytesOf p g, s.hallTime, false⟩
    let s := r.2
    let s := { s with rtr := { s.rtr with out := SMap.put s.rtr.out k (SMap.getD s.rtr.out k [] ++ [e]) } }
    s.watermark (g * 8 + p.tc) (s.groupBytes g p.tc)

/-- Route a packet into its queue without a notice. -/
def State.place (s : State) (p : Pkt) (inGroup : Option Nat) (input vcIn : Nat) : State :=
  match s.route p inGroup with
  | .eject => s.enqueueEject p input vcIn
  | .noRoute => s.noRoute
  | .group g r => s.enqueueOut { p with route := r } g input vcIn

/-- A blank packet from this module, with its epoch and that of the destination as known (R304). -/
def State.blank (s : State) (typ dst tc : Nat) : Pkt :=
  { (default : Pkt) with
    version := 0x10, typ, first := true, last := true, ecn := 2, tc, src := s.me, dst, stream := dst,
    srcEpoch := s.qpe.epoch, dstEpoch := if dst = s.me then s.qpe.epoch else SMap.getD s.qpe.peers dst 0 }

/-- The bytes of the frame in which a packet that is injected leaves (R299, R374). One for this module leaves in none; the model counts it as a
direct one (log 102). -/
def State.injectBytes (s : State) (p : Pkt) : Nat :=
  match s.route p none with
  | .group g _ => s.frameBytesOf p g
  | _ => alignUp p.payload.length 64 + 76

/-- Inject a packet (R352): ROUTE is zero but for CLASS, and HOPS is zero. -/
def State.injectRaw (s : State) (p : Pkt) : State :=
  let p := { p with route := b2n p.response * 4, hops := 0 }
  let s := (s.countPort 8 .RTR_PORT_PKT_COUNT 1).countPort 8 .RTR_PORT_BYTE_COUNT (s.injectBytes p)
  let s := if p.ecn == 2 && s.rtr.throttle.any fun e => e.2.dst == p.dst && e.2.tc == p.tc
    then s.countPort 8 .RTR_PORT_MARK_COUNT 1 else s
  s.place p none 64 0

/-- Send a CONGESTION notice when the queue that a packet entered exceeds its threshold (R352, R368). `q` is its occupancy with that packet, in
bytes, which the notice gives in KiB (log 102). -/
def State.notify (s : State) (p : Pkt) (port q : Nat) : State :=
  let target := if bit p.route 2 then p.dst else p.src
  let gap := s.regF .RTR_NOTIFY_CFG 31 16 * 1000
  let recent := s.rtr.notices.any fun n => n.1 == target && n.2.1 == port && n.2.2.1 == p.tc && decide (s.now < n.2.2.2 + gap)
  let thresh := s.regF .RTR_NOTIFY_CFG 15 0
  if p.typ = 0x0A ∨ thresh = 0 ∨ q ≤ thresh * 1024 ∨ recent then s else
    let s := { s with rtr := { s.rtr with notices := ((target, port, p.tc, s.now) :: s.rtr.notices).take 256 } }
    s.injectRaw { s.blank 0x0A target p.tc with
      response := true, stream := s.me, length := 64
      payload := slice (beBytes 3 s.me ++ beBytes 1 port ++ beBytes 1 p.tc ++ beBytes 3 p.stream ++ beBytes 4 (q / 1024)) 0 64 }

/-- Route a packet into its queue, with the notice that the queue's depth may cause. -/
def State.placeNotify (s : State) (p : Pkt) (inGroup : Option Nat) (input vcIn : Nat) : State :=
  let s' := s.place p inGroup input vcIn
  match s.route p inGroup with
  | .eject => s'.notify p 9 (s'.ejectBytes p.tc)
  | .group g _ => if s.enters p g then s'.notify p g (s'.linkBytes g (s.outLink p g) p.tc) else s'
  | .noRoute => s'

/-- Inject a packet of this module, with the notice that the queue's depth may cause. -/
def State.inject (s : State) (p : Pkt) : State :=
  let p' := { p with route := b2n p.response * 4, hops := 0 }
  let s' := s.injectRaw p
  match s.route p' none with
  | .eject => s'.notify p' 9 (s'.ejectBytes p.tc)
  | .group g _ => if s.enters p' g then s'.notify p' g (s'.linkBytes g (s.outLink p' g) p.tc) else s'

  | .noRoute => s'

/-- The group through which an injected packet would leave, if any. -/
def State.exitGroup (s : State) (p : Pkt) : Option Nat :=
  match s.route { p with route := b2n p.response * 4 } none with
  | .group g _ => some g
  | _ => none

/-! ## Throttling (R369 to R373) -/

/-- The highest rate of a flow, in MB/s (R370). -/
def maxRate : Nat := 100000

/-- The throttle entry of a flow. -/
def State.throttleOf (s : State) (dst tc : Nat) : Option (Nat × Throttle) :=
  s.rtr.throttle.find? fun e => e.2.dst == dst && e.2.tc == tc

/-- Replace a throttle entry. -/
def State.setThrottle (s : State) (k : Nat) (t : Throttle) : State :=
  { s with rtr := { s.rtr with throttle := SMap.put s.rtr.throttle k t } }

/-- The time from `t` to `now` as the rate law takes it: the 64-bit difference, which wraps (R19, R370). -/
def since64 (now t : Nat) : Nat := (now + 2 ^ 64 - t % 2 ^ 64) % 2 ^ 64

/-- A mark on an entry (R370). -/
def Throttle.mark (t : Throttle) (now cutGap minRate gShift : Nat) : Throttle :=
  let t := { t with lastMark := now }
  if t.lastCut ≠ 0 ∧ since64 now t.lastCut < cutGap * 1000 then t else
    { t with
      target := t.rate
      rate := max minRate (t.rate - t.rate * t.alpha / 2 ^ 17)
      alpha := t.alpha + (65535 - t.alpha) / 2 ^ gShift
      steps := 0, lastCut := now, lastInc := now }

/-- The share of its rate at which a token bucket fills, as a fraction: all of it, or less while the cap is unmet (R755). -/
def State.capShare (s : State) : Nat × Nat := if s.pwr.unmet then (s.pwr.pEst - s.pwr.excess, max 1 s.pwr.pEst) else (1, 1)

/-- An entry's bucket filled up to now (R371) at a share of its rate (R755). -/
def Throttle.fill (t : Throttle) (now : Nat) (share : Nat × Nat) : Throttle :=
  { t with level := min 16384000 (t.level + (t.rate * (now - t.filledAt) * share.1 / share.2 : Nat)), filledAt := now }

/-- Apply a mark to a flow's entry, whose bucket has filled at the rate until now in force (R371), taking one, with a full bucket, if it has none
(R369; log 102). -/
def State.markFlow (s : State) (dst tc : Nat) : State :=
  let now := s.hallTime
  let apply := fun (s : State) (k : Nat) (t : Throttle) =>
    s.setThrottle k ((t.fill s.now s.capShare).mark now (s.comF .RTR_THROTTLE_CFG1 15 0) (s.comF .RTR_THROTTLE_CFG0 19 0) (s.comF .RTR_THROTTLE_CFG0 31 28))
  match s.throttleOf dst tc with
  | some (k, t) => apply s k t
  | none =>
    let fresh : Throttle := ⟨dst, tc, maxRate, maxRate, 65535, 0, 0, 0, 0, now, 16384000, s.now⟩
    let k := match SMap.freeFrom s.rtr.throttle 4096 0 with
      | some k => k
      | none => (s.rtr.throttle.foldl (fun (b : Nat × Nat) e => if b.2 < e.2.rate then (e.1, e.2.rate) else b) (0, 0)).1
    apply s k fresh

/-- One tick of an entry's rate law (R370). -/
def Throttle.tick (t : Throttle) (now alphaPeriod gShift incPeriod fastSteps ai : Nat) : Throttle :=
  let t := if alphaPeriod * 1000 ≤ since64 now t.lastMark ∧ alphaPeriod * 1000 ≤ since64 now t.lastAlpha
    then { t with alpha := t.alpha - t.alpha / 2 ^ gShift, lastAlpha := now } else t
  if incPeriod * 1000 ≤ since64 now t.lastInc then
    let target := if fastSteps ≤ t.steps then min maxRate (t.target + ai) else t.target
    { t with target, rate := (t.rate + target) / 2, steps := min 255 (t.steps + 1), lastInc := now }
  else t

/-- The bucket of a flow without a throttle entry, filled up to now at a share of the highest rate (R755); one that is new is full. -/
def fillCapped (b : Option Bucket) (now : Nat) (share : Nat × Nat) : Bucket :=
  match b with
  | none => ⟨16384000, now⟩
  | some b => ⟨min 16384000 (b.level + (maxRate * (now - b.at_) * share.1 / share.2 : Nat)), now⟩

/-- Every bucket filled up to now, before the share changes; without an unmet cap, flows without an entry have no bucket. -/
def State.fillBuckets (s : State) (unmet : Bool) : State :=
  let share := s.capShare
  { s with rtr := { s.rtr with
      throttle := SMap.mapv s.rtr.throttle fun _ t => t.fill s.now share
      capped := if unmet then SMap.mapv s.rtr.capped fun _ b => fillCapped (some b) s.now share else [] } }

/-- Whether a message of `bytes` to a flow may issue under its bucket, and the state with it charged (R371, R755). -/
def State.bucket (s : State) (dst tc bytes : Nat) : Option State :=
  match s.throttleOf dst tc with
  | none =>
    if !s.pwr.unmet then some s
    else
      let b := fillCapped (SMap.find s.rtr.capped (8 * dst + tc)) s.now s.capShare
      if b.level < 0 then none
      else
        let b := { b with level := b.level - ((bytes + 96) * 1000 : Nat) }
        some { s with rtr := { s.rtr with capped := SMap.put s.rtr.capped (8 * dst + tc) b } }
  | some (k, t) =>
    let t := t.fill s.now s.capShare
    if t.level < 0 then none
    else some (s.setThrottle k { t with level := t.level - ((bytes + 96) * 1000 : Nat) })

/-- Whether injection into a group in a class is held by the depth of this module's own queue there (R372). -/
def State.holdsInjection (s : State) (g tc : Nat) : Bool :=
  decide (s.regF .RTR_INJECT_CFG 15 0 * 1024 < sumList (((s.groupQueue g tc).filter fun o => o.input == 64).map (·.bytes)))

/-- Whether injection of a packet is held (R372). Into a group that sends nothing it is not: the timers of what waits there run (R345). -/
def State.injectHeld (s : State) (p : Pkt) : Bool :=
  match s.exitGroup p with
  | none => false
  | some g => s.addressed g && s.holdsInjection g p.tc

end Sys2Proof.Machine
end

