-- ==== Sys2Proof/Machine/Hall.lean ====
section
/-!
DEFINITION. Hall memory: hall addresses, the choice of a holder at the source, pages held here, their heat, skylights,
and the checks of R73 (R56 to R96, R533 to R536).
-/

namespace Sys2Proof.Machine

/-! ## Hall addresses (R56, R57) -/

def hallHome (a : Nat) : Nat := bits a 60 44
def hallPage (a : Nat) : Nat := bits a 43 21
def hallByte (a : Nat) : Nat := bits a 20 0
def hallVer (a : Nat) : Nat := bits a 63 61

/-- The key of a page: its home and its index. -/
def pageKey (home page : Nat) : Nat := home * 2 ^ 23 + page

/-- The key of the page of a hall address. -/
def pageOf (a : Nat) : Nat := pageKey (hallHome a) (hallPage a)

/-- The hall address of the first byte of a page. -/
def pageAddress (home page : Nat) : Nat := home * 2 ^ 44 + page * 2 ^ 21

/-- The job domain of a partition. -/
def State.domain (s : State) (p : Nat) : Option Domain := SMap.find s.jobs.domains p

/-- Whether a module is a member of a partition's job domain, as this module knows it. -/
def State.member (s : State) (p m : Nat) : Bool :=
  match s.domain p with
  | some d => d.ready && d.members.contains m
  | none => false

/-- A thatch entry of this home. -/
def State.page (s : State) (i : Nat) : Option Page := SMap.find s.hall.pages i

/-- Replace a thatch entry. -/
def State.setPage (s : State) (i : Nat) (p : Page) : State :=
  { s with hall := { s.hall with pages := SMap.put s.hall.pages i p } }

/-- What this module does for a page it holds. -/
def State.heldPage (s : State) (key : Nat) : Option Held := SMap.find s.plc.held key

/-- Replace what this module does for a page it holds. -/
def State.setHeld (s : State) (key : Nat) (h : Held) : State :=
  { s with plc := { s.plc with held := SMap.put s.plc.held key h } }

/-! ## The source's choice of a holder (R67, R88, R90, R93, R272, R533) -/

/-- The placement cache's entry for a page. -/
def State.cached (s : State) (home page : Nat) : Option PlcEntry :=
  s.plc.cache.find? fun e => e.home == home && e.page == page

/-- The placement cache once the entry for a page has been used, which is then the most recently used (R533). -/
def State.cacheUsed (s : State) (home page : Nat) : State :=
  match s.cached home page with
  | some e => { s with plc := { s.plc with cache := e :: s.plc.cache.filter fun f => !(f.home == home && f.page == page) } }
  | none => s

/-- The placement cache with an entry put in front (R533). -/
def State.cachePut (s : State) (e : PlcEntry) : State :=
  { s with plc := { s.plc with
      cache := (e :: s.plc.cache.filter fun f => !(f.home == e.home && f.page == e.page)).take 65536 } }

/-- The transactions of a queue pair on a page that are not yet resolved. -/
def State.pageTxns (s : State) (qpn key : Nat) : List Txn :=
  (s.qpe.txns.filter fun e => e.2.qpn == some qpn && e.2.page == some key).map (·.2)

/-- Whether a message type writes: a write or an atomic. -/
def writes (typ : Nat) : Bool := typ == 0x01 || typ == 0x04

/-- The pages on which a queue pair has unacknowledged writes or atomics (R309). -/
def State.writtenPages (s : State) (qpn : Nat) : List Nat :=
  (s.qpe.txns.filterMap fun e => if e.2.qpn == some qpn && writes e.2.typ then e.2.page else none).eraseDups

/-- Whether a write of a queue pair to a page has begun a collapse that is not known to be complete (R547, R548). -/
def State.watched (s : State) (qpn home page : Nat) : Bool :=
  s.plc.watch.any fun w => w.home == home && w.page == page && w.qpn == qpn

/-- Whether reads that a queue pair sends to the home of a page may be passed on to a replica: the home does so for a member of the page's
job domain (R67, R535). -/
def State.mayMeetReplica (s : State) (qpn home page : Nat) : Bool :=
  if home = s.me then (s.page page).any (fun g => g.state == .replicated) else (SMap.find s.qpe.qps qpn).any fun q => s.member q.partition s.me

/-- The holder to which a queue pair sends an access to a page, or none while it must wait (R67, R88, R90, R93, R272, R309). From a write on
until no replica can hold older bytes it reads from the writing holder, and waits where it knows of none (log 84). Once its placement cache
names another holder, or a shoot-down of the page has come, it waits until nothing of the queue pair on the page is unacknowledged. -/
def State.holderFor (s : State) (qpn home page : Nat) (write : Bool) : Option Nat :=
  let key := pageKey home page
  let open_ := s.pageTxns qpn key
  let pages := s.writtenPages qpn
  let fresh := open_.any (fun t => writes t.typ) || s.watched qpn home page
  let want := match s.cached home page with
    | some e => if write || fresh then e.writer else e.reader
    | none => if write then ((open_.find? fun t => writes t.typ).map (·.dst)).getD home else home
  if (open_.any fun t => t.shot || t.dst != want) || (!write && fresh && (s.cached home page).isNone && s.mayMeetReplica qpn home page) then none
  else if write && decide (8 ≤ pages.length) && !pages.contains key then none
  else some want

/-! ## Pages held here -/

/-- The physical address of a byte of a page that is held here. -/
def Held.addr (h : Held) (byte : Nat) : Nat := h.frame * frameBytes + byte

/-- The words of a page, by their place in it, that `len` bytes at `byte` touch. -/
def pageWords (byte len : Nat) : List Nat := wordsOf byte len

/-- Whether the POISONED mark of a page of this home covers some of the bytes (R550). -/
def State.pagePoison (s : State) (key byte len : Nat) : Bool :=
  if key / 2 ^ 23 ≠ s.me then false else
    match s.page (key % 2 ^ 23) with
    | some p => p.poisoned && (pageWords byte len).any fun w => !p.clean.contains w
    | none => false

/-- Read bytes of a page that is held here: the bytes, and whether a word of them is poisoned (R73 check 7, R550). -/
def State.pageRead (s : State) (key : Nat) (h : Held) (byte len : Nat) : Bytes × Bool × State :=
  let r := s.physRead (h.addr byte) len
  (r.1, r.2.1 || s.pagePoison key byte len, r.2.2)

/-- Words of a page leave its POISONED mark, which clears with the last of them (R550). -/
def Page.cleaned (p : Page) (words : List Nat) : Page :=
  if !p.poisoned then p else
    let clean := p.clean ++ words.filter fun w => !p.clean.contains w
    if 65536 ≤ clean.length then { p with poisoned := false, clean := [] } else { p with clean }

/-- Write bytes of a page that is held here; words written whole leave the POISONED mark (R550). -/
def State.pageWrite (s : State) (key : Nat) (h : Held) (byte : Nat) (data : Bytes) : State :=
  let s := s.physWrite (h.addr byte) data
  if key / 2 ^ 23 ≠ s.me then s else
    match s.page (key % 2 ^ 23) with
    | some p =>
      s.setPage (key % 2 ^ 23) (p.cleaned ((pageWords byte data.length).filter fun w =>
        decide (byte ≤ w * 32) && decide (w * 32 + 32 ≤ byte + data.length)))
    | none => s

/-- Perform an atomic on a page that is held here. -/
def State.pageAtomic (s : State) (key : Nat) (h : Held) (byte op width operand swap : Nat) : Option Nat × State :=
  if s.pagePoison key byte width then (none, s) else s.physAtomic (h.addr byte) op width operand swap

/-! ## Heat (R536) -/

/-- A saturating 32-bit sum. -/
def satAdd32 (a b : Nat) : Nat := min 0xFFFFFFFF (a + b)

/-- Count wire units of a source on a page (R536). -/
def Heat.count (h : Heat) (src units : Nat) (write : Bool) : Heat :=
  let h := if write then { h with writes := satAdd32 h.writes units } else { h with reads := satAdd32 h.reads units }
  if h.cand0.2 ≠ 0 ∧ h.cand0.1 = src then { h with cand0 := (src, satAdd32 h.cand0.2 units) }
  else if h.cand1.2 ≠ 0 ∧ h.cand1.1 = src then { h with cand1 := (src, satAdd32 h.cand1.2 units) }
  else if h.cand0.2 = 0 then { h with cand0 := (src, units) }
  else if h.cand1.2 = 0 then { h with cand1 := (src, units) }
  else
    let d := min units (min h.cand0.2 h.cand1.2)
    let h := { h with cand0 := (h.cand0.1, h.cand0.2 - d), cand1 := (h.cand1.1, h.cand1.2 - d) }
    if units ≤ d then h
    else if h.cand0.2 = 0 then { h with cand0 := (src, units - d) }
    else if h.cand1.2 = 0 then { h with cand1 := (src, units - d) }
    else h

/-- Count a performed message on a page that is held here. -/
def State.heat (s : State) (key src units : Nat) (write : Bool) : State :=
  match s.heldPage key with
  | some h => s.setHeld key { h with heat := h.heat.count src units write }
  | none => s

/-! ## Skylights (R68 to R74) -/

/-- What the checks of R73 say of a message: accepted, refused, passed on to another module, or waiting for the copy of a skylight
entry (R72). -/
inductive Verdict where
  | accept (p : Place)
  | refuse (status reason : Nat)
  | forward (dst : Nat)
  | fetch
  deriving DecidableEq, Repr

/-- The right that a message type needs: bit 0 READ, 1 WRITE, 2 ATOMIC (R68). -/
def rightOf (typ : Nat) : Nat := if typ = 0x02 then 1 else if typ = 0x04 then 4 else 2

/-- The hops that routing takes from one module to another, where a switched hop counts as one (R354, R537). -/
def State.hops (s : State) (a b : Nat) : Nat :=
  let sw := (List.range 4).any fun d => s.switchedGroup (2 * d) && coord a d != coord b d
  b2n sw + sumList ((List.range 4).map fun d =>
    if s.switchedGroup (2 * d) then 0 else
      let n := s.ring d
      let plus := (coord b d + n - coord a d) % n
      if plus ≠ 0 ∧ s.minusAt d (coord a d) (coord b d) then n - plus else plus)

/-- The nearest of a list of modules to a source by hops, the lower number on a tie (R534, R537). -/
def State.nearest (s : State) (src : Nat) (ms : List Nat) (d : Nat) : Nat :=
  ms.foldl (fun b m =>
    let x := s.hops src m
    let y := s.hops src b
    if x < y || (x == y && decide (m < b)) then m else b) (ms.headD d)

/-- The writing holder of a page as this module knows it: by its thatch entry, or by its placement cache, else the home (R65, R92). -/
def State.writerOf (s : State) (key : Nat) : Nat :=
  let home := key / 2 ^ 23
  if home = s.me then ((s.page (key % 2 ^ 23)).map (·.writer)).getD home
  else match s.cached home (key % 2 ^ 23) with
    | some e => if e.writer = s.me then home else e.writer
    | none => home

/-- Whether a source lies outside the job domain of a page of this home (R67). -/
def State.outsider (s : State) (key src : Nat) : Bool :=
  key / 2 ^ 23 == s.me && ((s.page (key % 2 ^ 23)).map fun p => !s.member p.partition src).getD false

/-- Where a page is served: held here, or at the module to which an access goes on (R535). `write` accesses go to the
writing holder; reads of a source outside the page's job domain go there too (R65, R67). -/
def State.servePage (s : State) (key src : Nat) (write : Bool) : Verdict ⊕ Held :=
  let home := key / 2 ^ 23
  match s.heldPage key with
  | some h => if h.replica && (write || s.outsider key src) then .inl (.forward (s.writerOf key)) else .inr h
  | none =>
    if home = s.me then
      match s.page (key % 2 ^ 23) with
      | some p =>
        if write || s.outsider key src then .inl (.forward p.writer)
        else .inl (.forward (s.nearest src (p.writer :: p.replicas) p.writer))
      | none => .inl (.refuse stRemoteAccess rsPageUnallocated)
    else match SMap.find s.plc.forward key with
      | some m => .inl (.forward m)
      | none => .inl (.forward home)

/-- Check 2 of R73 for a page of this home: a refusal when it is not allocated or is being freed. -/
def State.pageRefused (s : State) (key : Nat) : Option (Nat × Nat) :=
  if key / 2 ^ 23 ≠ s.me then
    if s.hall.drains.any (fun d => d.kind == tkFreePages && d.root == key / 2 ^ 23 && decide (d.tree ≤ key % 2 ^ 23) &&
      decide (key % 2 ^ 23 < d.tree + d.count)) then some (stRevoked, rsKeyRevoked) else none
  else
    match s.page (key % 2 ^ 23) with
    | none => some (stRemoteAccess, rsPageUnallocated)
    | some p => if p.freeing then some (stRevoked, rsKeyRevoked) else none

/-- The checks of R73 for a message by hall address. -/
def State.checkHall (s : State) (src partition typ remote : Nat) : Verdict :=
  let key := pageOf remote
  match s.pageRefused key with
  | some r => .refuse r.1 r.2
  | none =>
    match s.servePage key src (writes typ) with
    | .inl v => v
    | .inr h =>
      if h.partition ≠ partition then .refuse stRemoteAccess rsPartition
      else if writes typ && h.readOnly then .refuse stRemoteAccess rsRights
      else .accept (.page key (hallByte remote))

/-- What this module knows of a skylight entry: there is none, there it is, or it must be fetched from its home. -/
inductive SkyLook where
  | absent
  | found (k : Sky)
  | fetch

/-- The skylight entry for an index: this module's own, or the copy of another home's. An open copy may have left the cache, which a free
value says (R72; log 19); what it held is the home's entry still, until a revocation of it is noticed here. -/
def State.skyFor (s : State) (home index : Nat) : SkyLook × State :=
  if home = s.me then
    match SMap.find s.hall.sky index with
    | some k => (.found k, s)
    | none => (.absent, s)
  else
    match SMap.find s.hall.copies (home * 2 ^ 20 + index) with
    | none => (.fetch, s)
    | some k =>
      if k.state ≠ .open_ then (.found k, s)
      else if s.freeVal % 2 = 1 then
        (.fetch, { s.drawn with hall := { s.hall with
          copies := SMap.del s.hall.copies (home * 2 ^ 20 + index), left := SMap.put s.hall.left (home * 2 ^ 20 + index) k } })
      else (.found k, s.drawn)

/-- The home's entry has come (R72): what an evicted copy held, open or with its revocation begun or ended at the home (R559), or for a first fetch an entry of another module, for which the spec lays out
no message. Its fields are then free within what R68 allows a HALL skylight, and it is not open with a tag seen revoked here (R81; log 19). -/
def State.skyFetched (s : State) (home index : Nat) : State :=
  let c := home * 2 ^ 20 + index
  match SMap.find s.hall.left c with
  | some k =>
    let st := [SkyState.open_, .revoking, .revoked].getD (s.freeVal % 3) .open_
    { s.drawn with hall := { s.hall with copies := SMap.put s.hall.copies c { k with state := st }, left := SMap.del s.hall.left c } }
  | none =>
  let f (i : Nat) := (Config.free (s.draws + i)).toNat
  let tag := f 1 % 4096
  let st := [SkyState.open_, .revoking, .revoked].getD (f 0 % 3) .open_
  let st := if st = .open_ ∧ SMap.find s.hall.gone c = some tag then .revoked else st
  let first := f 2 % 2 ^ 32
  let k : Sky := ⟨st, tag, true, 0, pageAddress home 0 + first * 4096, (1 + f 3 % (2 ^ 32 - first)) * 4096, 1 + f 4 % 65535, 1 + f 5 % 7, 0, []⟩
  { s with draws := s.draws + 6, hall := { s.hall with copies := SMap.put s.hall.copies c k } }

/-- Whether this module has a revocation's notice for a key that it has not acknowledged yet (R77 step 3). -/
def State.noticed (s : State) (owner key : Nat) : Bool :=
  s.hall.drains.any fun d => d.kind == tkRevoke && d.root == owner && d.tree == key % 2 ^ 32

/-- Checks 3 to 5 of R73 against a skylight's entry: what they refuse with, if they do. -/
def Sky.bars (k : Sky) (partition typ off len : Nat) : Option (Nat × Nat) :=
  if k.partition ≠ partition then some (stRemoteAccess, rsPartition)
  else if k.rights &&& rightOf typ = 0 then some (stRemoteAccess, rsRights)
  else if k.len < off + len then some (stRemoteAccess, rsRange)
  else none

/-- The checks of R73 for a message in skylight form, addressed to the skylight of module `owner`. -/
def State.checkSky (s : State) (owner src partition typ key off len : Nat) : Verdict × State :=
  if s.noticed owner key then (.refuse stRevoked rsKeyRevoked, s) else
  let r := s.skyFor owner (key % 2 ^ 20)
  let s := r.2
  match r.1 with
  | .absent => (.refuse stRemoteAccess rsKeyUnknown, s)
  | .fetch => (.fetch, s)
  | .found k =>
    if k.tag ≠ key / 2 ^ 20 then (.refuse stRemoteAccess rsKeyUnknown, s)
    else if k.state ≠ .open_ then (.refuse stRevoked rsKeyRevoked, s)
    else
      let pages := if k.hall then (pieces frameBytes (k.base + off) len).map fun p => pageOf (k.base + off + p.1) else []
      match (if decide (off + len ≤ k.len) then pages.findSome? s.pageRefused else none).orElse fun _ => k.bars partition typ off len with
      | some f => (.refuse f.1 f.2, s)
      | none =>
        if !k.hall then (.accept (.iva k.inst (k.base + off) (key % 2 ^ 20)), s)
        else
          match s.servePage (pageOf (k.base + off)) src (writes typ) with
          | .inl v => (v, s)
          | .inr h =>
            if writes typ && h.readOnly then (.refuse stRemoteAccess rsRights, s)
            else (.accept (.page (pageOf (k.base + off)) (hallByte (k.base + off))), s)

/-- The bytes that a request reads or writes: the width of an atomic, else its LENGTH (R264, R305). -/
def Pkt.span (p : Pkt) : Nat := if p.typ = 0x04 then beNat (slice p.payload 1 1) else p.length

/-- The checks of R73 for a packet. A page that is not allocated is logged (R61). -/
def State.checkPkt (s : State) (p : Pkt) : Verdict × State :=
  let r := if p.form = 0 then (s.checkHall p.src p.partition p.typ p.remote, s)
    else s.checkSky p.stream p.src p.partition p.typ p.key p.remote p.span
  let a := if p.form = 0 then p.remote else
    p.remote + ((SMap.find s.hall.sky (p.key % 2 ^ 20)).map (·.base)).getD 0
  match r.1 with
  | .refuse 3 3 => (r.1, r.2.elog elPageUnallocated 0 0 (hallPage a * 2 ^ 17 + p.src))
  | _ => r

end Sys2Proof.Machine
end

