-- ==== Sys2Proof/Machine/Power.lean ====
section
/-!
DEFINITION. The power unit's shared operations: domains, tallow, hints and POWER records (R749, R750, R756 to R759, R768).
-/

namespace Sys2Proof.Machine

/-! ## Domains (R41, R749, R750) -/

/-- The domain numbers of link groups, host ports, cipher clusters and adders. -/
def domGroup (g : Nat) : Nat := 64 + g
def domPort (p : Nat) : Nat := 72 + p
def domCipher (c : Nat) : Nat := 76 + c
def domAdder (c : Nat) : Nat := 78 + c

/-- The tile-pair domain of a tile of a die (R772). -/
def domTile (die tile : Nat) : Nat := 32 * die + tile / 2

/-- Whether a domain is on. -/
def State.domOn (s : State) (d : Nat) : Bool := s.pwr.on.contains d

/-- Replace the power unit's state. -/
def State.setPwr (s : State) (p : Pwr) : State := { s with pwr := p }

/-- Ask for a domain: unless it is on, waking or waiting, it waits for its turn to wake (R750). A link group that is off for its
temperature waits for the end of that (R761), and the cipher clusters of KG8-M1-L48-N are never powered (R673). -/
def State.wakeDom (s : State) (d : Nat) : State :=
  let p := s.pwr
  let hot := decide (64 ≤ d) && decide (d < 72) && p.hot.contains (d - 64)
  let none_ := s.variant == .noCipher && (d == 76 || d == 77)
  if hot || none_ || p.on.contains d || p.waking.contains d || p.wakeQueue.contains d then s
  else s.setPwr { p with wakeQueue := p.wakeQueue ++ [d] }

/-- Switch a domain off. -/
def State.domOff (s : State) (d : Nat) : State :=
  let p := s.pwr
  s.setPwr { p with on := p.on.filter (· != d), waking := p.waking.filter (· != d), wakeQueue := p.wakeQueue.filter (· != d) }

/-- Switch a domain on at once. -/
def State.domStart (s : State) (d : Nat) : State :=
  let s := s.domOff d
  s.setPwr { s.pwr with on := s.pwr.on ++ [d] }

/-! ## POWER records (R768) -/

/-- Reasons of POWER records. -/
def prCapping : Nat := 1
def prCapUnmet : Nat := 2
def prEdl : Nat := 3
def prDroop : Nat := 4
def prElsTrip : Nat := 5
def prSupplyLow : Nat := 6
def prCalDrift : Nat := 7

/-- Raise POWER with a reason about a die or bay, at most once in `gap` ns, also to the BMC (R760, R768, R818). -/
def State.powerEvent (s : State) (reason about gap : Nat) : State :=
  let key := reason * 256 + about
  let recent := match SMap.find s.pwr.raised key with
    | some t => decide (s.now < t + gap)
    | none => false
  if recent then s
  else
    let source := reason * 2 ^ 24 + about
    let data0 := s.pwr.pEst + s.comF .PWR_LIMIT_CFG 10 0 * 2 ^ 16 + s.pwr.measured * 2 ^ 32
    ((s.setPwr { s.pwr with raised := SMap.put s.pwr.raised key s.now }).raise .pfs evPower source data0 s.pwr.bubbles).bmc
      evPower (leBytes 4 source ++ leBytes 8 data0 ++ leBytes 8 s.pwr.bubbles)

/-! ## Tallow (R756) -/

/-- The mean of a list of numbers, rounded down. -/
def meanOf (l : List Nat) : Nat := if l.length = 0 then 0 else sumList l / l.length

/-- Trigger tallow (R756). -/
def State.tallowTrigger (s : State) : State :=
  let floor := s.comF .PWR_TALLOW_CFG 31 21
  if floor = 0 then s else
    let t := 16 * min floor (meanOf (s.pwr.window.take 10))
    let old := (s.pwr.tallow.map (·.1)).getD 0
    s.setPwr { s.pwr with tallow := some (max old t, s.comF .PWR_TALLOW_CFG 20 11) }

/-- A barrier arrival is sent (R756). -/
def State.tallowBarrier (s : State) : State := if s.comF .PWR_DOMAIN_CFG 3 3 = 1 then s.tallowTrigger else s

/-! ## Hints (R758, R759) -/

/-- Hint codes that are defined. -/
def hintKnown (h : Nat) : Bool := 1 ≤ h && h ≤ 4

/-- A hint takes effect (R759). -/
def State.hintEffect (s : State) (h : Nat) : State :=
  let pairs := List.range 64
  if h = 1 then pairs.foldl State.wakeDom s
  else if h = 2 then s.setPwr { s.pwr with keepWarm := false, tallow := s.pwr.tallow.map fun t => (t.1, 0) }
  else if h = 3 then s.tallowTrigger
  else pairs.foldl State.wakeDom (s.setPwr { s.pwr with keepWarm := true })

/-- Take a hint: at once when its time has come, else it waits; none when 64 hints already wait (R758). -/
def State.takeHint (s : State) (h at_ : Nat) : Option State :=
  if at_ = 0 ∨ at_ ≤ s.hallTime then some (s.hintEffect h)
  else if 64 ≤ s.pwr.hints.length then none
  else some (s.setPwr { s.pwr with hints := s.pwr.hints ++ [(h, at_)] })

end Sys2Proof.Machine
end

