-- ==== Sys2Proof/Machine/Transport.lean ====
section
/-!
DEFINITION. The source side of the transport: headers, crypt segments, the scoreboard, send streams, epochs, timers and
the resolution of transactions (R280 to R283, R304 to R335).
-/

namespace Sys2Proof.Machine

/-! ## Headers (R304) -/

/-- The 58 header bytes of a packet (R304), with the mutable fields and CONF_PSN as given. -/
def Pkt.header (p : Pkt) : Bytes :=
  let flags := b2n p.response * 128 + b2n p.first * 64 + b2n p.last * 32 + b2n p.ackReq * 16 + b2n p.forwarded * 8 +
    b2n p.encrypted * 2 + p.form
  beBytes 1 p.version ++ beBytes 1 p.typ ++ beBytes 1 flags ++ beBytes 1 (p.tc * 32 + p.ecn * 8) ++ beBytes 1 p.route ++
  beBytes 1 p.hops ++ beBytes 2 p.partition ++ beBytes 3 p.src ++ beBytes 3 p.dst ++ beBytes 3 p.stream ++
  beBytes 1 p.srcInstGen ++ beBytes 4 p.srcEpoch ++ beBytes 4 p.dstEpoch ++ beBytes 3 p.srcQpn ++ beBytes 3 p.dstQpn ++
  beBytes 3 p.psn ++ beBytes 1 p.srcQueueGen ++ beBytes 3 p.confPsn ++ beBytes 1 p.status ++ beBytes 1 p.reason ++
  beBytes 1 p.crypt ++ beBytes 2 p.txn ++ beBytes 2 p.length ++ beBytes 4 p.key ++ beBytes 8 p.remote

/-- The header as the additional data of a segment takes it (R330). -/
def Pkt.aad (p : Pkt) : Bytes := { p with route := 0, hops := 0, ecn := 0, confPsn := 0 : Pkt }.header

/-- A payload padded to a multiple of 64 bytes; that of a packet with no payload stays empty (R300, R305; log 99). -/
def padded (b : Bytes) : Bytes := b ++ zeros (alignUp b.length 64 - b.length)

/-! ## Epochs (R321 to R324) -/

/-- Whether epoch `a` is newer than epoch `b`; 0 is older than every epoch (R321). -/
def epochNewer (a b : Nat) : Bool :=
  let d := (a + 2 ^ 32 - b) % 2 ^ 32
  a != 0 && (b == 0 || (d != 0 && decide (d < 2 ^ 31)))

/-- The epoch of a module as known here. -/
def State.peerEpoch (s : State) (m : Nat) : Nat := if m = s.me then s.qpe.epoch else SMap.getD s.qpe.peers m 0

/-- Whether a module's epoch is known. -/
def State.epochKnown (s : State) (m : Nat) : Bool := s.peerEpoch m != 0

/-- Send an EPOCH_PROBE to a module, unless one is in progress (R322). -/
def State.probe (s : State) (m : Nat) : State :=
  if SMap.has s.qpe.probes m then s else
    let s := { s with qpe := { s.qpe with probes := SMap.put s.qpe.probes m 0 } }
    s.inject { s.blank 0x08 m 0 with dstEpoch := 0 }

/-- Answer with an EPOCH_NOTICE, at most once per source per 10 µs, the answer to an EPOCH_PROBE too (R322, R323, R352; log 99). -/
def State.epochNotice (s : State) (m : Nat) : State :=
  let recent := match SMap.find s.qpe.noticeAt m with
    | some t => decide (s.now < t + 10000)
    | none => false
  if recent then s else
    let s := { s with qpe := { s.qpe with noticeAt := SMap.put s.qpe.noticeAt m s.now } }
    s.inject { s.blank 0x09 m 0 with response := true, stream := s.me, dstEpoch := 0 }

/-! ## Queue pairs -/

/-- A queue pair, if it exists. -/
def State.qp (s : State) (n : Nat) : Option Qp := SMap.find s.qpe.qps n

/-- Replace a queue pair. -/
def State.setQp (s : State) (n : Nat) (q : Qp) : State := { s with qpe := { s.qpe with qps := SMap.put s.qpe.qps n q } }

/-- Update a queue pair's context, which then differs from its slot (R276, R297). -/
def State.updCtx (s : State) (n : Nat) (f : Qp → Qp) : State :=
  { s with qpe := { s.qpe with qps := SMap.upd s.qpe.qps n fun q => { f q with dirty := true } } }

/-- Whether a queue pair is connected, or will be when it is READY (R247). -/
def Qp.connected (q : Qp) : Bool := q.remoteQpn != 0

/-- The transactions of a queue pair. -/
def State.qpTxns (s : State) (n : Nat) : List (Nat × Txn) := s.qpe.txns.filter fun e => e.2.qpn == some n

/-- Whether the cipher can serve a queue pair: an engine is in service, its cluster's domain is on (domain 76 or 77), the entropy source has not failed, and neither its cluster's
generator nor that of the key masks waits for a seed (R334, R660, R665, R670, R672). -/
def State.cipherReady (s : State) (q : Qp) : Bool :=
  s.sec.engines != 0 && s.pwr.on.contains (76 + q.engine.getD 0 / 8) && s.sec.entropy != 2 && !s.sec.due.contains (q.engine.getD 0 / 8) && !s.sec.due.contains 2

/-- The key of a slot: the exclusive or of its shares (R665). -/
def KeySlot.key (k : KeySlot) : Bytes := List.zipWith (fun a b => a ^^^ b) k.share0 k.share1

/-- The slot with both shares masked afresh (R665). -/
def KeySlot.remask (k : KeySlot) (mask : Bytes) : KeySlot :=
  { k with share0 := List.zipWith (fun a b => a ^^^ b) k.share0 mask, share1 := List.zipWith (fun a b => a ^^^ b) k.share1 mask }

/-- A generator answers a request (R671): it is counted. -/
def State.drbgUse (s : State) (g : Nat) : State :=
  let d := SMap.getD s.sec.drbgs g (0, 0)
  { s with sec := { s.sec with drbgs := SMap.put s.sec.drbgs g (d.1 + 1, d.2) } }

/-- The key and salt of a queue pair's slot, when they can be used (R334, R660, R668). -/
def State.qpKey (s : State) (q : Qp) : Option (Bytes × Bytes) :=
  match SMap.find s.sec.keys q.keySlot with
  | some k => if k.poisoned || !s.cipherReady q then none else some (k.key, k.salt)
  | none => none

/-- Bit 63 of SEGMENT at an end of a connection (R329). -/
def segmentTop (me qpn remote remoteQpn : Nat) : Nat :=
  if remote < me ∨ (remote = me ∧ remoteQpn < qpn) then 2 ^ 63 else 0

/-! ## Cipher engines (R660, R664, R669) -/

/-- The queue pairs bound to an engine. -/
def State.engineLoad (s : State) (e : Nat) : Nat := (s.qpe.qps.filter fun q => q.2.engine == some e).length

/-- The in-service engine with the fewest bound queue pairs, the lower number on a tie (R660). -/
def State.pickEngine (s : State) : Option Nat :=
  ((List.range 16).filter fun e => bit s.sec.engines e).foldl (fun (b : Option Nat) e =>
    match b with
    | some x => if s.engineLoad e < s.engineLoad x then some e else b
    | none => some e) none

/-- Bind a forerunner-form queue pair whose engine has left service to another, whose cluster is woken (R660). -/
def State.bindEngine (s : State) (n : Nat) : State :=
  match s.qp n with
  | none => s
  | some q =>
    if !q.forerunner || (q.engine.map fun e => bit s.sec.engines e) == some true then s else
      match s.pickEngine with
      | some e => (s.setQp n { q with engine := some e }).wakeDom (domCipher (e / 8))
      | none => s

/-- Retire an engine: the segments in its buffer are discarded (R664, R669). -/
def State.retireEngine (s : State) (e : Nat) : State :=
  let mine (n : Nat) := (s.qp n).bind (·.engine) == some e
  let t := (s.setRegF .SEC_ENGINE_FAIL 15 0 (s.regF .SEC_ENGINE_FAIL 15 0 ||| 2 ^ e)).setFlag .SEC_ERR 2
  { t with
    sec := { t.sec with engines := t.sec.engines &&& (65535 ^^^ 2 ^ e) }
    qpe := { t.qpe with
      qps := SMap.mapv t.qpe.qps fun n q => if mine n then { q with rx := { q.rx with segment := [] } } else q
      txns := SMap.mapv t.qpe.txns fun _ x => if (x.qpn.map mine) == some true then { x with got := [] } else x } }

/-- A use of the key of queue pair `n`: a fresh mask is drawn, and both shares are masked afresh (R665). Whether an uncorrectable error of a share
is found is a free value; it poisons the slot (R668, R803; log 100). -/
def State.keyUse (s : State) (n : Nat) : Bool × State :=
  match s.qp n with
  | none => (true, s)
  | some q =>
    match SMap.find s.sec.keys q.keySlot with
    | none => (true, s)
    | some k =>
      let set (s : State) (k : KeySlot) : State := { s with sec := { s.sec with keys := SMap.put s.sec.keys q.keySlot k } }
      if s.freeVal % 2 = 1 then
        let s := (set s.drawn { k with poisoned := true }).setFlag .SEC_ERR 3
        (false, (s.drawn.ecc 2 4 0 s.freeVal).elog elKeyPoison 0 0 q.keySlot)
      else
        let s := s.drawn
        (true, (set { s with draws := s.draws + 4 } (k.remask s.freeMask)).drbgUse 2)

/-- One crypt segment passes the engine of queue pair `n`: whether a result comes of it. None comes of a key found in error. Whether the two
copies of the engine differ in a computation is a free value, and at the second difference in a segment the engine is retired (R669; log 2). -/
def State.throughEngine (s : State) (n : Nat) : Bool × State :=
  match s.keyUse n with
  | (false, s) => (false, s)
  | (true, s) =>
  let differ (s : State) := s.freeVal % 2 == 1
  let mark (s : State) := (s.drawn.count .SEC_COMPARE_COUNT).setFlag .SEC_ERR 1
  if !differ s then (true, s.drawn) else
    let s := mark s
    if !differ s then (true, s.drawn) else
      match (s.qp n).bind (·.engine) with
      | some e => (false, (mark s).retireEngine e)
      | none => (false, mark s)

/-- Encrypt a segment of queue pair `n`: the number of the segment that leaves an engine. A segment that an engine fails over is
encrypted afresh by another, with a new number, and none is sent when no key or engine serves (R334, R669); `fuel` bounds the engines. -/
def State.sealNumber (n : Nat) : Nat → State → Option Nat × State
  | 0, s => (none, s)
  | fuel + 1, s =>
    match s.qp n with
    | none => (none, s)
    | some q =>
      if (s.qpKey q).isNone then (none, s) else
        match (s.updCtx n fun q => { q with sendSegment := q.sendSegment + 1 }).throughEngine n with
        | (true, s) => (some q.sendSegment, s)
        | (false, s) => State.sealNumber n fuel (s.bindEngine n)

/-! ## Crypt segments at the sender (R328 to R332, R661, R662) -/

/-- The data bytes of a packet in a segment: a READ, atomic or TOKEN request has none (R328). -/
def Pkt.dataLen (p : Pkt) : Nat := if p.typ = 0x02 ∨ p.typ = 0x04 ∨ p.typ = 0x06 then 0 else p.length

/-- The fields of an atomic or TOKEN request (R305), which its segment carries in clear behind the SEGMENT number (R328; log 73). -/
def Pkt.clear (p : Pkt) : Bytes := if p.typ = 0x04 ∨ p.typ = 0x06 then slice p.payload 0 64 else []

/-- Encrypt packet `p` of a segment: `before` are the segment's earlier packets in PSN order, as plaintext. -/
def sealPkt (key salt : Bytes) (segment : Nat) (before : List Pkt) (p : Pkt) : Pkt :=
  let data (q : Pkt) := q.payload.take q.dataLen
  let first := bit p.crypt 7
  let last := bit p.crypt 6
  let plain := before.flatMap data ++ data p
  let aad := (before ++ [p]).flatMap Pkt.aad ++ beBytes 8 segment
  let r := gcmSeal key salt segment (if last then aad else []) plain
  let body := (if first then beBytes 8 segment else []) ++ p.clear ++ r.1.drop (plain.length - (data p).length)
  { p with payload := if last then (padded (body ++ zeros 16)).take ((padded (body ++ zeros 16)).length - 16) ++ r.2 else padded body }

/-- Encrypt and send packets of segment `num` in PSN order; `before` are the segment's earlier packets (R328). -/
def State.sendSealed (s : State) (key salt : Bytes) (num : Nat) (before ps : List Pkt) : State :=
  (ps.foldl (fun (acc : List Pkt × State) x =>
    (acc.1 ++ [x], (acc.2.countN .SEC_ENCRYPT_BYTE_COUNT x.dataLen).inject (sealPkt key salt num acc.1 x))) (before, s)).2

/-- The packets of a transaction by the crypt segment of its operation in which they lie (R328). -/
def Txn.bySegment (t : Txn) (pkts : List Pkt) : List (Nat × List Pkt) :=
  (pkts.foldl (fun (acc : Nat × List (Nat × List Pkt)) p =>
    let k := (t.opOff + acc.1) / 16384
    (acc.1 + p.length, match acc.2.getLast? with
      | some x => if x.1 = k then acc.2.dropLast ++ [(k, x.2 ++ [p])] else acc.2 ++ [(k, [p])]
      | none => [(k, [p])])) (0, [])).2

/-- The packets of a transaction wait until the cipher of its queue pair serves (R44). -/
def State.awaitCipher (s : State) (k : Nat) (fresh : Bool) : State :=
  { s with qpe := { s.qpe with unsealed := SMap.put s.qpe.unsealed k fresh } }

/-- Note the number of a crypt segment of an operation with its packets so far (R332). -/
def State.setSegment (s : State) (w id k num : Nat) (ps : List Pkt) : State :=
  s.updWq w fun x => { x with ops := x.ops.map fun o =>
    if o.id = id then { o with segs := SMap.put o.segs k num, sealed := SMap.put o.sealed k ps } else o }

/-- Send the packets `ps` of segment `k` of an operation of queue pair `n`: under the segment's number, or with `fresh` the whole segment
under a new number (R332). While no engine serves, the transaction `txn` waits (R44). -/
def State.sendSegment (s : State) (txn n : Nat) (key salt : Bytes) (top w id k : Nat) (ps : List Pkt) (fresh : Bool) : State :=
  let o := ((s.wq w).bind fun x => x.ops.find? fun o => o.id == id).getD default
  let old := SMap.getD o.sealed k []
  let all := (old.map fun p => { p with confPsn := (ps.head?.map (·.confPsn)).getD 0 }) ++
    ps.filter fun p => !old.any fun x => x.psn == p.psn
  match (if fresh then none else SMap.find o.segs k) with
  | some num => (s.setSegment w id k num all).sendSealed key salt (top + num % 2 ^ 63) old ps
  | none =>
    match s.sealNumber n 17 with
    | (none, s) => s.awaitCipher txn true
    | (some num, s) => (s.setSegment w id k num all).sendSealed key salt (top + num % 2 ^ 63) [] all

/-! ## Streams and the scoreboard (R280 to R283, R307) -/

/-- The key of the unconnected stream to a module in a class (R307). -/
def streamKey (m tc : Nat) : Nat := m * 8 + tc

/-- Whether a transaction belongs to the stream of a connected queue pair, or to the unconnected stream of a module and
class. -/
def Txn.inStream (t : Txn) (qpn : Option Nat) (m tc : Nat) : Bool :=
  match qpn with
  | some q => t.connected && t.qpn == some q
  | none => !t.connected && t.dst == m && t.tc == tc && !t.accepted

/-- The next PSN of a stream. -/
def State.nextPsn (s : State) (qpn : Option Nat) (m tc : Nat) : Nat :=
  match qpn with
  | some q => ((s.qp q).map (·.sendPsn)).getD 0
  | none => SMap.getD s.qpe.send (streamKey m tc) 0

/-- Advance the next PSN of a stream. -/
def State.setPsn (s : State) (qpn : Option Nat) (m tc v : Nat) : State :=
  match qpn with
  | some q => s.updCtx q fun x => { x with sendPsn := v % 2 ^ 24 }
  | none => { s with qpe := { s.qpe with send := SMap.putD 0 s.qpe.send (streamKey m tc) (v % 2 ^ 24) } }

/-- The oldest PSN of a stream that is not resolved, or the next one to be sent (R304). -/
def State.confPsn (s : State) (qpn : Option Nat) (m tc : Nat) : Nat :=
  let next := s.nextPsn qpn m tc
  let back := s.qpe.txns.foldl (fun (b : Nat) e =>
    if e.2.inStream qpn m tc then max b ((next + 2 ^ 24 - e.2.firstPsn) % 2 ^ 24) else b) 0
  (next + 2 ^ 24 - back) % 2 ^ 24

/-- The stream of a transaction as a connected queue pair or none. -/
def Txn.qpStream (t : Txn) : Option Nat := if t.connected then t.qpn else none

/-- The router without the packets of a transaction that wait in the queues of groups which send nothing (R345). -/
def State.unsent (s : State) (t : Txn) : Rtr :=
  if (List.range 8).all s.addressed then s.rtr else
    let mine (p : Pkt) : Bool := p.src == s.me && !p.response && !p.forwarded && p.dst == t.dst && p.tc == t.tc &&
      t.pkts.any fun x => x.psn == p.psn && x.txn == p.txn && x.typ == p.typ && x.dstQpn == p.dstQpn
    let s := (List.range 8).foldl (fun (s : State) g => if s.addressed g then s else s.sampled (g * 8 + t.tc)) s
    { s.rtr with out := SMap.mapv s.rtr.out fun q l => if s.addressed (q / 8) then l else l.filter fun o => !mine o.pkt }

/-- The packets of a transaction that wait in the queues of groups which send nothing leave them (R345). -/
def State.unsend (s : State) (t : Txn) : State := { s with rtr := s.unsent t }

/-- Whether the first packet of transaction `k` waits in an output queue, behind a closed gate or other traffic: its timer has not begun (R612). -/
def State.firstWaits (s : State) (k : Nat) (t : Txn) : Bool :=
  t.pkts.head?.any fun x => s.rtr.out.any fun q => q.2.any fun o =>
    o.input == 64 && o.pkt.src == s.me && !o.pkt.response && o.pkt.txn == k && o.pkt.psn == x.psn && o.pkt.typ == x.typ

/-- Send the packets of transaction `k`, with the current CONF_PSN and the SRC_EPOCH of the first sending (R318; log 99). Those of a forerunner-form queue pair are encrypted, with the
whole of their segments under new numbers when `fresh` asks for it (R332). They wait while no key or engine serves (R44). -/
def State.sendTxn (s : State) (k : Nat) (fresh : Bool) : State :=
  match SMap.find s.qpe.txns k with
  | none => s
  | some t =>
    let s := s.unsend t
    let s := { s with qpe := { s.qpe with unsealed := SMap.del s.qpe.unsealed k } }
    let conf := s.confPsn t.qpStream t.dst t.tc
    let pkts := t.pkts.map fun p => { p with confPsn := conf }
    match (if t.connected then t.qpn.bind fun n => (s.qp n).bind fun q => if q.forerunner then some (n, q) else none else none) with
    | none => pkts.foldl (fun s p => s.inject p) s
    | some (n, q) =>
      let s := s.bindEngine n
      match s.qpKey ((s.qp n).getD q) with
      | none => s.awaitCipher k fresh
      | some (key, salt) =>
        let top := segmentTop s.me n q.remoteModule q.remoteQpn
        match t.owner, t.typ with
        | .op w id _, 0x01 => (t.bySegment pkts).foldl (fun s x => s.sendSegment k n key salt top w id x.1 x.2 fresh) s
        | _, _ =>
          match s.sealNumber n 17 with
          | (none, s) => s.awaitCipher k fresh
          | (some num, s) => s.sendSealed key salt (top + num % 2 ^ 63) [] pkts

/-- Whether an owner is collective or transit traffic (R281). -/
def TxnOwner.coll? : TxnOwner → Bool
  | .coll _ _ _ _ => true
  | .transit _ _ _ _ => true
  | .launch _ _ => true
  | _ => false

/-- The work queue and the operation that a message of an operation, or a launch, belongs to. -/
def State.ownerOp (s : State) (o : TxnOwner) : Option (Nat × Wq × Op) :=
  let f (n id : Nat) := (s.wq n).bind fun w => (w.ops.find? fun x => x.id == id).map fun x => (n, w, x)
  match o with
  | .op n id _ => f n id
  | .launch n id => f n id
  | _ => none

/-- The instance whose traffic an owner's is, if it is an instance's (R695, R696). -/
def State.ownerInst (s : State) (o : TxnOwner) : Option Nat :=
  match o with
  | .op n _ _ => (s.wq n).map (·.inst)
  | .launch n _ => (s.wq n).map (·.inst)
  | .coll g _ _ _ => ((SMap.find s.col.groups g).bind (·.coll)).map (·.inst)
  | .transit die en _ _ => (SMap.find s.trn.entries (256 * die + en)).map (·.inst)
  | _ => none

/-- Whether an instance may hold one more entry (R696). -/
def State.instRoom (s : State) (n : Option Nat) : Bool :=
  n.isNone || decide ((s.qpe.txns.filter fun e => e.2.inst == n).length < 512 * s.comF .VRT_SHARE_CFG 31 24)

/-- Whether a queue pair may hold one more entry (R281). -/
def State.qpRoom (s : State) (qpn : Nat) : Bool := decide ((s.qpTxns qpn).length < 16 * s.comF .QPE_SB_CFG 27 16)

/-- A free scoreboard entry that a message of an owner may use: collective and transit traffic may use the reserve, and no instance passes its
limit (R281, R696). -/
def State.freeEntry (s : State) (o : TxnOwner) : Option Nat :=
  let reserve := s.comF .QPE_SB_CFG 14 0
  let used := s.qpe.txns.length
  let usedColl := (s.qpe.txns.filter fun e => e.2.owner.coll?).length
  let other := used - usedColl
  let spill := usedColl - min usedColl reserve
  if 65536 ≤ used ∨ !s.instRoom (s.ownerInst o) then none
  else if !o.coll? && decide (65536 ≤ other + spill + reserve) then none
  else SMap.freeFrom s.qpe.txns 65536 0

/-- The bytes of a packet's data that one packet carries on the way out (R306, R661). -/
def State.packetBytes (s : State) (p : Pkt) : Nat :=
  let base := match s.exitGroup p with
    | some g => if s.switchedGroup g then [4096, 2048, 1024, 4096].getD (s.regF .QPE_XPT_ENCAP 15 14) 4096 else 4096
    | none => 4096
  if p.encrypted then base - 64 else base

/-- Cut a message into packets with consecutive PSNs (R306, R661); `fuel` bounds them. `off` is the message's offset
in its operation, whose length is `total`, for the bounds of crypt segments, and `all` says that each packet asks for an ACK (R315). -/
def cutPkts (n off total : Nat) (all : Bool) (p : Pkt) : Nat → Nat → Bytes → List Pkt
  | 0, _, _ => []
  | fuel + 1, i, data =>
    let at_ := off + (i % 0x1000000000)
    let room := if p.encrypted then min n (16384 - at_ % 16384) else n
    let d := data.take room
    let rest := data.drop room
    let done := at_ + d.length
    let crypt := if p.encrypted then b2n (at_ % 16384 == 0) * 128 + b2n (done == total || done % 16384 == 0) * 64 else 0
    { p with
      first := i == 0, last := rest.isEmpty, length := d.length, crypt, payload := padded d,
      ackReq := p.ackReq && (all || rest.isEmpty), remote := if p.typ < 0x10 then p.remote + i else p.remote } ::
      (if rest.isEmpty then [] else cutPkts n off total all p fuel (i + d.length) rest)

/-- Number packets with consecutive PSNs. -/
def numberPkts (psn : Nat) : List Pkt → List Pkt
  | [] => []
  | p :: ps => { p with psn := psn % 2 ^ 24 } :: numberPkts (psn + 1) ps

/-- Count the 64-byte wire units of payload that an instance issues; COUNTER_HALF names the instance (R648, R715). -/
def State.countIssued (s : State) (n : Option Nat) (units : Nat) : State :=
  match n with
  | none => s
  | some k =>
    match s.inst k with
    | none => s
    | some i =>
      let new := (i.issued + units) % 2 ^ 40
      let s := s.setInst k { i with issued := new }
      if !bit i.issued 39 && bit new 39 then s.raise .pfs evCounterHalf Reg.VRT_INST_ISSUE_COUNT.addr new k else s

/-- Note in a queue pair's context that its transactions in flight have changed (R297, R309). -/
def State.txnsChanged (s : State) (qpn : Option Nat) : State :=
  match qpn with
  | some n => s.updCtx n id
  | none => s

/-- Whether a packet would leave through a switched group. -/
def State.leavesSwitched (s : State) (p : Pkt) : Bool := (s.exitGroup p).any s.switchedGroup

/-- The packets of a message (R304, R306): a data message, and in switched mode also one of COLL_DATA or MOVE_COPY, is cut; any other is one
packet, also a MOVE_COPY, whose 64 + 4,096 bytes no rule cuts in direct mode (log 90). Every request of a WRITE_NOTIFY asks for an ACK (R315). -/
def State.packetsOf (s : State) (owner : TxnOwner) (p : Pkt) (data : Bytes) (opOff opLen : Nat) : List Pkt :=
  if p.typ = 0x01 ∨ ((p.typ = 0x10 ∨ p.typ = 0x2A) ∧ s.leavesSwitched p) then
    cutPkts (s.packetBytes p) opOff opLen ((s.ownerOp owner).any fun x => leAt x.2.2.desc 0 1 == 3) p (data.length + 1) 0 data
  else [{ p with payload := padded data, crypt := if p.encrypted then 0xC0 else 0 }]

/-- Allocate entry `k` to a message and send it (R280, R306). The packet `p` carries the header and the whole payload. -/
def State.startTxn (s : State) (k : Nat) (owner : TxnOwner) (qpn : Option Nat) (connected : Bool) (page : Option Nat)
    (p : Pkt) (data : Bytes) (opOff opLen : Nat) : State :=
  let stream := if connected then qpn else none
  let psn := s.nextPsn stream p.dst p.tc
  let p := { p with txn := if p.typ = 0x21 ∨ p.typ = 0x22 then p.txn else k }
  let cut := s.packetsOf owner p data opOff opLen
  let pkts := numberPkts psn cut
  let inst := s.ownerInst owner
  let t : Txn := ⟨owner, qpn, inst, p.srcInstGen, p.srcQueueGen, p.dst, p.tc, connected, psn, (psn + cut.length - 1) % 2 ^ 24,
    p.typ, pkts, 0, false, page, [], opOff, opLen, false, false, false, false⟩
  let s := { s with qpe := { s.qpe with txns := SMap.put s.qpe.txns k t, allocWait := s.qpe.allocWait.filter (· != owner), reclaimed := s.qpe.reclaimed.erase k } }
  let s := ((s.setPsn stream p.dst p.tc (psn + cut.length)).txnsChanged qpn).count .QPE_TXN_COUNT
  (s.countIssued inst (sumList (cut.map fun x => x.payload.length / 64))).sendTxn k false

/-- The allocation of an entry for an owner waits (R282). -/
def State.allocWaits (s : State) (o : TxnOwner) : State :=
  if s.qpe.allocWait.contains o then s else { s with qpe := { s.qpe with allocWait := s.qpe.allocWait ++ [o] } }

/-- The allocation of an entry for an owner waits no more: it waits for something else, or for nothing. -/
def State.allocDone (s : State) (o : TxnOwner) : State :=
  { s with qpe := { s.qpe with allocWait := s.qpe.allocWait.filter (· != o) } }

/-- Free a scoreboard entry. -/
def State.freeTxn (s : State) (k : Nat) : State :=
  let s := { s with rtr := match SMap.find s.qpe.txns k with
    | some t => s.unsent t
    | none => s.rtr }
  let qpn := (SMap.find s.qpe.txns k).bind (·.qpn)
  State.txnsChanged { s with qpe := { s.qpe with txns := SMap.del s.qpe.txns k } } qpn

/-! ## Whose message issues next (R281, R415, R695) -/

/-- The number of a list that comes after `a` in ascending order, beginning again from the least. -/
def nextAfter (a : Nat) (l : List Nat) : Option Nat := ((l.filter fun x => decide (a < x)).min?).orElse fun _ => l.min?

/-- Deficit round robin over the numbers that have something ready, each with the length of what it would send next: the one that is served,
and the round robin after it; `fuel` bounds the visits. -/
def drrTurn (ready : List (Nat × Nat)) (quantum : Nat → Nat) : Nat → Drr → Option Nat × Drr
  | 0, d => (none, d)
  | fuel + 1, d =>
    match ready.find? fun x => x.1 == d.cur with
    | some (n, len) =>
      let d := if d.visited.contains n then d
        else { d with deficit := SMap.put d.deficit n (SMap.getD d.deficit n 0 + quantum n), visited := [n] }
      let have_ := SMap.getD d.deficit n 0
      if len ≤ have_ then (some n, { d with deficit := SMap.put d.deficit n (have_ - len) })
      else drrTurn ready quantum fuel { d with visited := [], cur := (nextAfter n (ready.map (·.1))).getD n }
    | none => drrTurn ready quantum fuel { d with visited := [], cur := (nextAfter d.cur (ready.map (·.1))).getD d.cur }

/-- A turn of deficit round robin: what has nothing ready keeps no deficit (R415; for instances log 79). No quantum is less than 64 bytes and
no message longer than 4,192, so 70 visits of each suffice. -/
def Drr.turn (d : Drr) (ready : List (Nat × Nat)) (quantum : Nat → Nat) : Option Nat × Drr :=
  drrTurn ready quantum (70 * ready.length + 1) { d with deficit := SMap.keep d.deficit fun n _ => ready.any fun x => x.1 == n }

/-- Whether an owner whose allocation of an entry waits still waits (R282). -/
def State.stillWaits (s : State) (o : TxnOwner) : Bool :=
  match o with
  | .op _ _ k => (((s.ownerOp o).bind fun x => x.2.2.msgs[k]?).map (·.state)) == some .waiting
  | .launch _ _ => ((s.ownerOp o).map (·.2.2.phase)) == some .ready
  | _ => s.qpe.control.any fun c => c.1 == o

/-- Whether an owner could take an entry now (R281, R696). -/
def State.mayTake (s : State) (o : TxnOwner) : Bool :=
  (s.freeEntry o).isSome && (((s.ownerOp o).bind fun x => x.2.1.qp).map s.qpRoom).getD true

/-- End a transaction: its entry is freed, and its outcome waits for its owner (R280, R317). -/
def State.endTxn (s : State) (k status reason : Nat) (remote : Bool) (data : Bytes) : State :=
  match SMap.find s.qpe.txns k with
  | none => s
  | some t =>
    let s := s.freeTxn k
    { s with qpe := { s.qpe with resolved := s.qpe.resolved ++ [⟨t.owner, t.dst, status, reason, remote, data⟩] } }

/-! ## Control requests (R305) -/

/-- A token that a holder sends has the tag of the cycle in which it is sent, bytes 4 to 7 of its payload (R575). -/
def State.retag (s : State) (owner : TxnOwner) (p : Pkt) : Pkt :=
  match owner with
  | .token _ => { p with payload := p.payload.take 4 ++ beBytes 4 (s.epochNow p.partition) ++ p.payload.drop 8 }
  | _ => p

/-- Whether a request is a unit of a page that this module copies (R543). -/
def TxnOwner.copy? : TxnOwner → Bool
  | .copy _ _ _ => true
  | _ => false

/-- The rate in GB/s of the copies that run here, the largest of theirs; none runs where it is 0 (R562; log 86). -/
def State.copyRate (s : State) : Nat := s.plc.held.foldl (fun m h => if h.2.copyTo.isSome then max m h.2.rate else m) 0

/-- The token bucket of the copies, filled up to now at a rate in GB/s, a byte in each ns for 1 GB/s (R371, R543, R755). -/
def State.copyFill (s : State) (rate : Nat) : Bucket :=
  let b := s.plc.rate
  ⟨min 16384000 (b.level + (1000 * rate * (s.now - b.at_) * s.capShare.1 / s.capShare.2 : Nat)), s.now⟩

/-- Whether a request of `bytes` may be sent under the bucket of the copies, and the state with it charged; it holds no other request (R543). -/
def State.copyBucket (s : State) (owner : TxnOwner) (bytes : Nat) : Option State :=
  if !owner.copy? then some s else
    let b := s.copyFill s.copyRate
    if b.level < 0 then none
    else some { s with plc := { s.plc with rate := { b with level := b.level - ((bytes + 96) * 1000 : Nat) } } }

/-- Try to send a request of the module's own; false while it must wait for an entry, an epoch, its group's injection or its bucket (R305, R322,
R371 to R373, R411). What it takes is in no queue pair's OUTSTANDING and PINNED (R297; log 99). -/
def State.tryControl (s : State) (owner : TxnOwner) (p : Pkt) : Bool × State :=
  if !s.epochKnown p.dst then (false, s.probe p.dst)
  else if s.injectHeld p then (false, s)
  else
    match s.freeEntry owner with
    | none => (false, s.allocWaits owner)
    | some k =>
      match (s.bucket p.dst p.tc p.length).bind fun t => t.copyBucket owner p.length with
      | none => (false, s)
      | some s =>
        let p := s.retag owner { p with srcEpoch := s.qpe.epoch, dstEpoch := s.peerEpoch p.dst }
        (true, s.startTxn k owner none false none p (p.payload.take p.length) 0 0)

/-- The group whose collective an owner's traffic is. -/
def TxnOwner.group? : TxnOwner → Option Nat
  | .coll g _ _ _ => some g
  | _ => none

/-- Whether a waiting request holds one that comes after it: one for the same module and class, but for a copy's, which wait for their own bucket and
hold copies alone (R305, R371, R543). -/
def holdsAfter (first : TxnOwner × Pkt) (owner : TxnOwner) (p : Pkt) : Bool :=
  first.2.dst == p.dst && first.2.tc == p.tc && (owner.copy? || !first.1.copy?)

/-- Send a request of the module's own in the unconnected stream of its class, after those that wait for the same module and
class. The collective engine's wait for the round robin of their link group and lane (R415). -/
def State.ask (s : State) (owner : TxnOwner) (p : Pkt) : State :=
  if owner.group?.isSome ∨ s.qpe.control.any (fun c => holdsAfter c owner p) then
    { s with qpe := { s.qpe with control := s.qpe.control ++ [(owner, p)] } }
  else
    match s.tryControl owner p with
    | (true, s) => s
    | (false, s) => { s with qpe := { s.qpe with control := s.qpe.control ++ [(owner, p)] } }

/-- Send a control request (R305). -/
def State.control (s : State) (owner : TxnOwner) (typ dst tc partition : Nat) (payload : Bytes) : State :=
  s.ask owner { s.blank typ dst tc with partition, length := payload.length, payload := padded payload, ackReq := true }

/-- Pass on the packets that waited for an epoch that is now known (R314, R322). -/
def State.passWaiting (s : State) : State :=
  let go := s.qpe.forwards.filter fun p => s.epochKnown p.dst
  go.foldl (fun (s : State) p => s.inject { p with dstEpoch := s.peerEpoch p.dst })
    { s with qpe := { s.qpe with forwards := s.qpe.forwards.filter fun p => !s.epochKnown p.dst } }

/-- Whether a request of the module's own could be sent now (R281, R322, R371, R372). -/
def State.canSend (s : State) (owner : TxnOwner) (p : Pkt) : Bool :=
  s.epochKnown p.dst && !s.injectHeld p && (s.freeEntry owner).isSome && ((s.bucket p.dst p.tc p.length).bind fun t => t.copyBucket owner p.length).isSome

/-- Try a control request that waits. -/
def State.tryWaiting (s : State) (c : TxnOwner × Pkt) : State :=
  match s.tryControl c.1 c.2 with
  | (true, s) => { s with qpe := { s.qpe with control := s.qpe.control.erase c } }
  | (false, s) => s

/-- The link group and lane by which a collective's message leaves: 8 × link group + lane, 64 + lane for one that stays here (R414, R415). -/
def State.laneOf (s : State) (p : Pkt) : Nat := 8 * (s.exitGroup p).getD 8 + p.tc

/-- The collectives' messages that are ready for a link group and lane, the first to each module of each group (R415). -/
def State.laneReady (s : State) (k : Nat) : List (Nat × TxnOwner × Pkt) :=
  s.qpe.control.filterMap fun c =>
    match c.1.group? with
    | none => none
    | some g =>
      let before := (s.qpe.control.takeWhile fun d => d != c).any fun d => d.1.group? == some g && d.2.dst == c.2.dst && d.2.tc == c.2.tc
      if s.laneOf c.2 = k ∧ !before ∧ s.canSend c.1 c.2 then some (g, c) else none

/-- Serve the collectives of a link group and lane in weighted round robin, 4 KiB × LINK_WEIGHT of each group in a round (R415); `fuel` bounds
the messages. -/
def State.serveLane (k : Nat) : Nat → State → State
  | 0, s => s
  | fuel + 1, s =>
    let ready := s.laneReady k
    let heads := ((ready.map (·.1)).eraseDups).filterMap fun g => ready.find? fun x => x.1 == g
    let r := (SMap.getD s.col.served k default).turn (heads.map fun x => (x.1, x.2.2.length)) fun g =>
      4096 * (((SMap.find s.col.groups g).map (·.weight)).getD 1)
    match r.1.bind fun g => heads.find? fun x => x.1 == g with
    | none => s
    | some x => State.serveLane k fuel ({ s with col := { s.col with served := SMap.put s.col.served k r.2 } }.tryWaiting x.2)

/-- Try the control requests that wait, in order, the collectives' messages by turns, and the packets that wait to be passed on. -/
def State.pump (s : State) : State :=
  let s := s.passWaiting
  let s := s.qpe.control.foldl (fun s c =>
    if c.1.group?.isSome then (if s.canSend c.1 c.2 then s else s.tryWaiting c)
    else if (s.qpe.control.takeWhile fun d => d != c).any fun d => holdsAfter d c.1 c.2 then s
    else s.tryWaiting c) s
  let lanes := ((s.qpe.control.filter fun c => c.1.group?.isSome).map fun c => s.laneOf c.2).eraseDups
  lanes.foldl (fun s k => State.serveLane k s.qpe.control.length s) s

/-! ## Errors of queue pairs (R253, R254) -/

/-- Write the error record of a queue pair (R254). -/
def State.qpErrorRecord (s : State) (n cq status : Nat) : State :=
  let b := zeros 8 ++ leBytes 3 n ++ zeros 5 ++ zeros 4 ++ leBytes 2 0xFFFF ++ leBytes 1 status ++ [0] ++ leBytes 1 0xFF ++
    leBytes 1 0x10 ++ leBytes 1 2 ++ zeros 5
  s.cqPost cq ⟨none, b, true, []⟩

/-- The messages of a queue pair's operations that wait at issue, as ended: with `others` where the operation has transactions in flight, else
ABORTED (R250, R253). -/
def State.unissued (s : State) (q : Qp) (others : Nat) : List Resolved :=
  match q.wq.bind s.wq with
  | none => []
  | some w => w.ops.flatMap fun o =>
      let sent := o.msgs.any fun m => match m.state with | .sent _ => true | _ => false
      if o.phase ≠ .active then []
      else (List.range o.msgs.length).filterMap fun k =>
        if (o.msgs[k]?.map (·.state)) = some .waiting then
          some ⟨.op (q.wq.getD 0) o.id k, 0, if sent then others else stAborted, 0, false, []⟩
        else none

/-- A queue pair enters ERROR: its transactions are released with `others`, its messages that wait at issue end with them, and its error
record waits behind the records that this causes (R250, R253, R254). -/
def State.qpError (s : State) (n status others : Nat) : State :=
  match s.qp n with
  | none => s
  | some q =>
    if q.state = 2 then s else
      let rest := s.unissued q others
      let ops := ((s.qpTxns n).map (·.2.owner) ++ rest.map (·.owner)).filterMap fun o => (s.ownerOp o).map fun x => (x.1, x.2.2.id)
      let s := (s.setQp n { q with state := 2, dirty := true }).count .QPE_QP_ERROR_COUNT
      let s := (s.qpTxns n).foldl (fun s e => s.endTxn e.1 others 0 false []) s
      { s with qpe := { s.qpe with resolved := s.qpe.resolved ++ rest, errors := s.qpe.errors ++ [⟨n, q.cq, status, ops.eraseDups⟩] } }

/-- The transactions that wait for a cipher send their packets, as far as it serves now (R44). -/
def State.sealWaiting (s : State) : State :=
  s.qpe.unsealed.foldl (fun (s : State) e =>
    match (SMap.find s.qpe.txns e.1).bind fun t => t.qpn.bind s.qp with
    | none => { s with qpe := { s.qpe with unsealed := SMap.del s.qpe.unsealed e.1 } }
    | some q => if (s.qpKey q).isSome then s.sendTxn e.1 e.2 else s) s

/-! ## Timers (R318, R319) -/

/-- Retransmit a transaction (R318). -/
def State.retransmit (s : State) (k : Nat) : State :=
  match SMap.find s.qpe.txns k with
  | none => s
  | some t =>
    let s := { s with qpe := { s.qpe with txns := SMap.put s.qpe.txns k { t with attempts := t.attempts + 1 } } }
    if t.held then s else (s.count .QPE_RETX_COUNT).sendTxn k true

/-- A TIMEOUT to a module raises a job fault of the partition's domain, when both modules are members (R335, R340). -/
def State.timeoutFault (s : State) (part dst : Nat) : State :=
  if s.regF .QPE_XPT_ESCALATE 0 0 = 1 ∧ s.member part dst ∧ s.member part s.me ∧ !s.jobs.faults.contains (part, 2, dst) then
    { s with jobs := { s.jobs with faults := s.jobs.faults ++ [(part, 2, dst)] } }
  else s

/-- The partition of a transaction's queue pair, which its packets carry. -/
def Txn.partition (t : Txn) : Nat := ((t.pkts.head?).map (·.partition)).getD 0

/-- The end of a transaction at its retry limit (R319, R335). -/
def State.txnTimeout (s : State) (k : Nat) : State :=
  match SMap.find s.qpe.txns k with
  | none => s
  | some t =>
    let s := s.count .QPE_XPT_TIMEOUT_COUNT
    let s := s.endTxn k stTimeout 0 false []
    if t.connected then
      (match t.qpn with
        | some n => s.qpError n stTimeout stAborted
        | none => s).timeoutFault t.partition t.dst
    else
      let mates := s.qpe.txns.filter fun e => e.2.inStream none t.dst t.tc
      let qps := (t.qpn :: mates.map (fun e => e.2.qpn)).eraseDups
      let s := mates.foldl (fun s e => s.endTxn e.1 stTimeout 0 false []) s
      let s := qps.foldl (fun s q => match q with
        | some n => s.qpError n stTimeout stAborted
        | none => s) s
      let s := s.setPsn none t.dst t.tc (s.nextPsn none t.dst t.tc + 65536)
      (t :: mates.map (·.2)).foldl (fun (s : State) x => s.timeoutFault x.partition x.dst) s

end Sys2Proof.Machine
end

