-- ==== Sys2Proof/Machine/Context.lean ====
section
/-!
DEFINITION. The cache of queue pair contexts (R274 to R277, R309): what a context's slot holds, what pins a context, fills and evictions.
-/

namespace Sys2Proof.Machine

/-! ## Contexts (R274 to R278) -/

/-- Whether a queue pair's context is pinned by its initiator: a transaction in flight, or a TOKEN waiting (R276, R277). -/
def State.initPinned (s : State) (n : Nat) : Bool :=
  s.qpe.txns.any (fun e => e.2.qpn == some n) ||
    match ((s.qp n).bind (·.wq)).bind s.wq with
    | some w => w.ops.any fun o => o.phase == .waiting && leAt o.desc 0 1 == 0x07
    | none => false

/-- Whether a queue pair's context is pinned (R276). -/
def State.pinned (s : State) (n : Nat) : Bool := s.initPinned n || s.qpe.arrivals.any fun e => e.2.qpn == some n

/-- Whether initiators may pin one more context: those that they pin and those being filled for them stay below the limit (R277, R291). -/
def State.pinRoom (s : State) : Bool :=
  decide ((s.qpe.qps.filter fun e => s.initPinned e.1 || e.2.initFill).length < 32768 - s.comF .QPE_CACHE_CFG 15 0)

/-- The bytes of an outcome record as an ACK carries it (R312). -/
def outcomeBytes (o : Outcome) : Bytes :=
  beBytes 3 o.psn ++ beBytes 1 o.status ++ beBytes 1 o.reason ++ beBytes 2 o.txn ++ [0] ++ beBytes 8 o.value

/-- An outcome record in a context slot, whose fields are little-endian (R275, R309). -/
def outcomeSlot (o : Outcome) : Bytes :=
  leBytes 3 o.psn ++ leBytes 1 o.status ++ leBytes 1 o.reason ++ leBytes 2 o.txn ++ [0] ++ leBytes 8 o.value

/-- The outcome record that a context slot holds at a byte (R309, R312). -/
def slotOutcome (b : Bytes) (i : Nat) : Outcome :=
  ⟨leAt b i 3, leAt b (i + 3) 1, leAt b (i + 4) 1, leAt b (i + 5) 2, leAt b (i + 8) 8, true⟩

/-- The holder entries of an unconnected queue pair (R309). -/
def State.holderEntries (s : State) (n : Nat) : Bytes :=
  ((s.writtenPages n).take 8).flatMap fun k =>
    let ts := (s.pageTxns n k).filter fun t => writes t.typ
    leBytes 5 k ++ leBytes 3 ((ts.head?.map (·.dst)).getD 0) ++ leBytes 2 ts.length ++ zeros 6

/-- The 256 bytes of a context (R275, R309). -/
def State.contextBytes (s : State) (n : Nat) (q : Qp) : Bytes :=
  let head := leBytes 3 n ++ leBytes 1 0x10 ++ leBytes 1 q.state ++
    leBytes 1 (b2n q.joined * 128 + b2n q.forerunner * 64 + q.tc) ++ leBytes 2 q.partition ++ leBytes 4 q.remoteModule ++
    leBytes 4 q.remoteQpn ++ leBytes 4 q.sendPsn ++ leBytes 4 q.rx.expect ++ leBytes 2 (q.wq.getD 0xFFFF) ++ leBytes 2 q.cq ++
    leBytes 2 q.inst ++ leBytes 2 q.instGen ++ leBytes 2 q.keySlot ++ zeros 30
  let ts := (s.qpTxns n).map (·.2)
  let area := if q.connected then
      leBytes 3 (s.confPsn (some n) 0 0) ++
        leBytes 1 ((ts.find? fun t => t.firstPsn == s.confPsn (some n) 0 0).map (·.attempts) |>.getD 0) ++ leBytes 3 q.conf ++
        leBytes 1 q.rx.records.length ++ leBytes 8 q.sendSegment ++ leBytes 8 q.recvSegment ++ leBytes 4 q.lastAck ++ zeros 4 ++
        slice (q.rx.records.flatMap outcomeSlot) 0 112 ++ zeros 40
    else slice (s.holderEntries n) 0 184
  let b := slice (head ++ area) 0 252
  b ++ leBytes 4 (crc32 b)

/-- The bus address of a context's slot (R274). -/
def State.contextAddr (s : State) (n : Nat) : Nat :=
  (s.regOf (n / 2 ^ 22 * 128) .QPE_QPC_BASE).toNat / 4096 * 4096 + n % 2 ^ 22 * 256

/-- Mark a context as the most recently used. -/
def State.touchCtx (s : State) (n : Nat) : State :=
  { s with qpe := { s.qpe with uses := s.qpe.uses + 1, qps := SMap.upd s.qpe.qps n fun q => { q with lastUse := s.qpe.uses } } }

/-- Make room in the cache, where contexts being filled have theirs: the least recently used context that is not pinned is spilled or
dropped (R276, R279). One whose fill failed stays (R278). None when no context may leave. -/
def State.evictCtx (s : State) : Option State :=
  let cached := s.qpe.qps.filter fun e => e.2.cached
  if (s.qpe.qps.filter fun e => e.2.cached || e.2.filling).length < 32768 then some s else
    match (cached.filter fun e => !s.pinned e.1 && !e.2.failed).foldl (fun (b : Option (Nat × Qp)) e =>
        match b with
        | some x => if e.2.lastUse < x.2.lastUse then some e else b
        | none => some e) none with
    | none => none
    | some (n, q) =>
      let pf := n / 2 ^ 22 * 128
      if !q.dirty then some (s.setQp n { q with cached := false })
      else if !s.canIssue pf then none
      else some (((s.setQp n { q with cached := false, dirty := false }).count .QPE_CACHE_SPILL_COUNT).emit
        (.hostWrite (n / 2 ^ 22) pf (s.contextAddr n) (s.contextBytes n q) false false))

/-- Ask for a context that is not cached, for an initiator or otherwise (R276, R277). False when the fill cannot start. -/
def State.fillCtx (s : State) (n : Nat) (q : Qp) (initiator : Bool) : Bool × State :=
  if q.filling then (true, s)
  else if 256 ≤ (s.qpe.qps.filter fun e => e.2.filling).length ∨ (initiator ∧ !s.pinRoom) then (false, s)
  else
      match s.evictCtx with
      | none => (false, s)
      | some s' =>
        match s'.hostRead (n / 2 ^ 22 * 128) (s'.contextAddr n) 256 false (.context n) none with
        | none => (false, s)
        | some s' => (true, (s'.setQp n { q with filling := true, initFill := initiator }).count .QPE_CACHE_FILL_COUNT)

/-- Whether an initiator must wait for its context, which it is about to pin; a fill is asked for (R276, R277). -/
def State.needCtx (s : State) (n : Nat) (q : Qp) : Bool × State :=
  if !q.cached then (true, (s.fillCtx n q true).2)
  else if s.initPinned n || s.pinRoom then (false, s.touchCtx n)
  else (true, s)

end Sys2Proof.Machine
end

