-- ==== Sys2Proof/Machine/WorkQueue.lean ====
section
/-!
DEFINITION. Work queues (R145 to R168, R180 to R188): descriptors, their judging, retirement in ring order, doorbells,
fetch, chains, and the conditions under which an operation may begin (R94, R250, R271 to R273).
-/

namespace Sys2Proof.Machine

/-! ## Descriptors (R149, R257, R264, R267, R269, R270) -/

def dOp (d : Bytes) : Nat := leAt d 0 1
def dLen (d : Bytes) : Nat := leAt d 1 1
def dFlags (d : Bytes) : Nat := leAt d 2 1
def dGen (d : Bytes) : Nat := leAt d 3 1
def dTag (d : Bytes) : Nat := leAt d 4 4
def dBytes (d : Bytes) : Nat := leAt d 8 4
def dInline (d : Bytes) : Bool := bit (leAt d 12 1) 1
def dForm (d : Bytes) : Nat := leAt d 12 1 % 2
def dLocal (d : Bytes) : Nat := leAt d 16 8
def dRemote (d : Bytes) : Nat := leAt d 24 8
def dKey (d : Bytes) : Nat := leAt d 32 4
def dModule (d : Bytes) : Nat := leAt d 36 4 % 2 ^ 17
def dWickModule (d : Bytes) : Nat := leAt d 40 4 % 2 ^ 17
def dWick (d : Bytes) : Nat := leAt d 44 2 % 4096
def dTokens (d : Bytes) : Nat := leAt d 46 2
def dWidth (d : Bytes) : Nat := leAt d 8 1
def dOperand (d : Bytes) : Nat := leAt d 40 8
def dSwap (d : Bytes) : Nat := leAt d 48 8
def dAction (d : Bytes) : Nat := leAt d 8 1
def dWaitLimit (d : Bytes) : Nat := leAt d 24 8

/-- The work opcodes with the capability bit each needs (R256). -/
def opcodeKnown (s : State) (op : Nat) : Bool :=
  if op = 0x10 then s.hasCap capCollective
  else if op = 0x20 then s.hasCap capTransit
  else [0x00, 0x01, 0x02, 0x03, 0x04, 0x05, 0x06, 0x07, 0x08, 0x0C].contains op

/-- The units that an opcode's fields require (R153, R256, R257, R270). -/
def unitsNeeded (d : Bytes) : Nat :=
  if (dOp d = 2 ∨ dOp d = 3) ∧ dInline d then 1 + (dBytes d + 63) / 64
  else if dOp d = 0x20 then 1 + (leAt d 10 1 * 16 + 63) / 64 else 1

/-- Whether an opcode field holds a value that its layout excludes (R257, R264, R267, R268, R270). -/
def fieldBad (d : Bytes) : Bool :=
  match dOp d with
  | 0x01 => dBytes d == 0 || dInline d
  | 0x02 => dBytes d == 0 || (dInline d && decide (960 < dBytes d))
  | 0x03 => dBytes d == 0 || (dInline d && decide (960 < dBytes d)) || dTokens d == 0
  | 0x04 => (dWidth d != 4 && dWidth d != 8) || dInline d || dLocal d % dWidth d != 0 || dRemote d % dWidth d != 0
  | 0x05 => (dWidth d != 4 && dWidth d != 8) || dInline d || dLocal d % dWidth d != 0 || dRemote d % dWidth d != 0
  | 0x07 => decide (3 < dAction d) || (decide (dAction d < 2) && dTokens d == 0)
  | 0x08 => leAt d 8 8 % 64 != 0 || leAt d 16 4 == 0 || decide (65536 < leAt d 16 4)
  | 0x0C => decide (4 < leAt d 8 1)
  | 0x20 => leAt d 10 1 == 0 || decide (8 < leAt d 10 1) || decide (3 < leAt d 11 1) || decide (1023 < leAt d 8 2)
  | _ => false

/-- The outcome of the checks of a descriptor whose LENGTH is in range, in the order of R187: none, or status and detail. -/
def State.judgeDesc (s : State) (gen : Nat) (d : Bytes) : Option (Nat × Nat) :=
  if dGen d ≠ gen then some (stBadDescriptor, dGeneration)
  else if bits (dFlags d) 7 6 ≠ 0 then some (stVersion, 0)
  else if !opcodeKnown s (dOp d) then some (stBadDescriptor, dOpcode)
  else if dLen d < unitsNeeded d ∨ fieldBad d then some (stBadDescriptor, dField)
  else none

/-- A fetched descriptor as an operation. -/
def mkOp (id index units : Nat) (d : Bytes) (phase : OpPhase) (chainOf : Option Nat) (bells : List (Nat × Nat)) : Op :=
  ⟨id, index, units, d, phase, 0, 0, false, 0, 0, [], RBuf.empty, 0, chainOf, false, false, bells, 0, [], [], [], false⟩

/-! ## Operations and their retirement (R148, R165, R166, R188) -/

/-- An operation of a work queue. -/
def Wq.op (w : Wq) (id : Nat) : Option Op := w.ops.find? fun o => o.id == id

/-- Update an operation of a work queue. -/
def State.updOp (s : State) (n id : Nat) (f : Op → Op) : State :=
  s.updWq n fun w => { w with ops := w.ops.map fun o => if o.id = id then f o else o }

/-- The completion record of an operation (R165). -/
def opRecord (n : Nat) (o : Op) : Bytes :=
  let sol := bit (dFlags o.desc) 1 || o.status != 0
  leBytes 4 (dTag o.desc) ++ leBytes 4 o.byteCount ++ leBytes 8 o.result ++ leBytes 3 o.index ++ leBytes 1 (dGen o.desc) ++
    leBytes 2 n ++ leBytes 1 o.status ++ leBytes 1 o.detail ++ leBytes 1 (dOp o.desc) ++ leBytes 1 0x10 ++
    leBytes 1 (b2n o.remote * 4 + b2n sol * 2) ++ zeros 5

/-- Write an operation's record when SIGNAL is set or its status is not SUCCESS (R150). -/
def State.opPost (s : State) (n cq : Nat) (o : Op) : State :=
  if bit (dFlags o.desc) 0 || o.status != 0 then
    s.cqPost cq ⟨some n, opRecord n o, bit (dFlags o.desc) 1 || o.status != 0, o.after⟩
  else s.raiseAll o.after

/-- The ECC events just raised become ones that follow the record of an operation which the same error completes (R24). -/
def State.holdEcc (s : State) (n id : Nat) : State :=
  match (s.wq n).bind fun w => w.op id with
  | none => s
  | some _ =>
    let es := s.events.filter fun e => e.2.typ == evEcc
    { s with events := s.events.filter fun e => e.2.typ != evEcc }.updOp n id fun o => { o with after := o.after ++ es }

/-- The same for a buffer of an operation in which a poisoned word has been read, or whose walk has met one in a table. -/
def State.holdPoison (s : State) (n id : Nat) (b : RBuf) : State :=
  if b.fail.map (·.1) = some stPoisoned ∨ b.fail = some (stTranslationFault, fkTablePoison) then s.holdEcc n id else s

/-- Retire operations from the front of a work queue while their completion points have passed (R148, R155, R166, R188);
`fuel` bounds them. -/
def State.retireOps (n : Nat) : Nat → State → State
  | 0, s => s
  | fuel + 1, s =>
    match s.wq n with
    | none => s
    | some w =>
      match w.ops with
      | [] => s
      | o :: os =>
        if o.phase = .done ∨ o.phase = .listRun then
          let head := if o.units = 0 then w.head else advance o.index o.units
          let log := w.bellLog.dropWhile fun b => decide (distance w.head b.1 ≤ distance w.head head)
          State.retireOps n fuel ((s.setWq n { w with ops := os, head, bellLog := log }).opPost n w.cq o)
        else if o.phase = .stuck ∧ !o.wrote then (s.setWq n { w with ops := { o with wrote := true } :: os }).opPost n w.cq o
        else s

/-- Whether the next descriptor in a queue's prefetch buffer is there whole (R162, R163). -/
def Wq.wholeNext (w : Wq) : Bool :=
  match SMap.find w.units w.judged with
  | none => false
  | some d =>
    let n := dLen d
    n == 0 || decide (16 < n) || decide (2 ^ w.log2 < slotOf w.judged w.log2 + n) ||
      (List.range n).all fun i => SMap.has w.units (advance w.judged i)

/-- A draining queue that has nothing fetched left becomes IDLE, and the quiesces that wait reply (R180, R181). -/
def State.drained (s : State) (n : Nat) : State :=
  match s.wq n with
  | none => s
  | some w =>
    if w.state = .draining ∧ w.ops = [] ∧ w.reading = [] ∧ !w.wholeNext then
      let s := s.setWq n { w with state := .idle, quiesce := [] }
      w.quiesce.foldl (fun s q => (s.reply q.1 q.2 stSuccess 0 []).admStopped q.1) s
    else s

/-- Retire what may retire. -/
def State.retire (s : State) (n : Nat) : State :=
  match s.wq n with
  | none => s
  | some w => (State.retireOps n (w.ops.length + 1) s).drained n

/-- The completion point of each followed CHAIN whose list's operations, which stand before it, have all passed theirs (R155). -/
def settleChains (ops : List Op) : List Op :=
  ops.foldl (fun before o => before ++
    [if o.phase = .listRun ∧ (before.all fun x => x.chainOf != some o.id || x.phase == .done) then { o with phase := .done } else o]) []

/-- The completion point of an operation passes with an outcome (R165, R166). -/
def State.opDone (s : State) (n id status detail : Nat) (remote : Bool) (byteCount result : Nat) : State :=
  match (s.wq n).bind fun w => w.op id with
  | none => s
  | some o =>
    if o.phase = .done ∨ o.phase = .stuck then s else
      let s := s.updOp n id fun o => { o with phase := .done, status, detail, remote, byteCount, result }
      let s := s.updWq n fun w => { w with ops := settleChains w.ops }
      s.retire n

/-- An operation completes with a status of the source's own and no bytes. -/
def State.opFail (s : State) (n id status detail : Nat) : State := s.opDone n id status detail false 0 0

/-- The tile-cycles of an entry in units of 1,024 (R468). -/
def TEntry.units (e : TEntry) : Nat := sat 0xFFFFFFFF (e.cycles / 1024)

/-- The bytes of the messages acknowledged as SUCCESS below the first failure. -/
def confirmed : List Msg → Nat
  | [] => 0
  | m :: ms => if m.isToken || m.status != 0 || m.state != .done then 0 else m.len + confirmed ms

/-- BYTE_COUNT and RESULT of an operation that is ended with what it has done so far: a program's confirmed output bytes, its module and its
tile-cycles as known here, or the bytes of its messages (R165, R468). -/
def State.progressOf (s : State) (n id : Nat) : Nat × Nat :=
  match s.trn.entries.find? fun e => e.2.by_ == .op n id with
  | some (_, e) => (e.confirmed, s.me + e.units * 2 ^ 32)
  | none => match s.qpe.txns.find? fun e => e.2.owner == .launch n id with
    | some (_, t) => (0, t.dst)
    | none => ((((s.wq n).bind fun w => w.op id).map fun o => confirmed o.msgs).getD 0, 0)

/-- An operation is ended with a status of the source's own, and what it has done so far. -/
def State.opEnd (s : State) (n id status detail : Nat) : State :=
  let p := s.progressOf n id
  s.opDone n id status detail false p.1 p.2

/-! ## When an operation may begin (R94, R250, R267, R271, R273) -/

/-- Whether an operation is a WRITE_NOTIFY of several messages whose token message has yet to come (R261, R271). -/
def Op.owesToken (o : Op) : Bool :=
  dOp o.desc == 3 && decide (1 < o.msgs.length) && o.msgs.all fun m => !m.isToken && m.status == 0

/-- Whether an operation no longer holds the later ones of its queue pair back: every message of it has been issued (R271), or its program is
complete (R467). A COLLECTIVE holds none once it has begun, whatever of its schedule is still to be sent (log 89). -/
def Op.passed (o : Op) : Bool :=
  match o.phase with
  | .done => true
  | .listRun => true
  | .active => (dOp o.desc != 0x06) && (dOp o.desc != 0x20) && !o.owesToken && !o.affected && o.msgs.all fun m => m.state != .waiting
  | _ => false

/-- The DOORBELL values of an instance's other work queues when the doorbell that covers index `i` arrived (R94). -/
def Wq.bellsAt (w : Wq) (i : Nat) : List (Nat × Nat) :=
  match w.bellLog.find? fun b => decide (distance w.head i < distance w.head b.1) with
  | some b => b.2
  | none => []

/-- What the other queues' DOORBELL values were when the doorbell of each FENCE of INSTANCE scope of a work queue arrived that is not
complete. Of what has been rung in an ENABLED queue or fetched in a DRAINING one and not yet judged, and in a continuation list that is not yet
read, any may be such a FENCE (log 85). -/
def Wq.fenceBells (w : Wq) : List (List (Nat × Nat)) :=
  (if (w.state = .enabled ∧ w.judged ≠ w.doorbell) ∨ (w.state = .draining ∧ w.judged ≠ w.fetch) then [w.bellsAt w.judged] else []) ++
    (w.ops.filter fun f => dOp f.desc == 0x06 && (f.phase == .ready || f.phase == .active) && bit (leAt f.desc 8 1) 0).map (·.bells) ++
    (w.ops.filter fun f => dOp f.desc == 0x08 && (f.phase == .ready || f.phase == .waiting || f.phase == .listRead)).map (·.bells)

/-- Whether a FENCE of another queue pair of the instance holds an operation of work queue `n` at index `i`: only a
doorbell after the FENCE's covers it (R94). -/
def State.fencedOff (s : State) (n inst i : Nat) : Bool :=
  s.q.wqs.any fun e => e.1 != n && e.2.inst == inst && e.2.fenceBells.any fun bells =>
    match bells.find? fun b => b.1 == n with
    | some b => match s.wq n with
      | some w => decide (distance w.head b.2 ≤ distance w.head i)
      | none => false
    | none => true

/-- Operation `id` of work queue `n` when it stands ready and may begin: its queue pair, if it has one, is READY, the
operations before it let it pass, and no FENCE holds it. An operation of a queue that feeds no queue pair waits (log 20). -/
def State.beginOp (s : State) (n id opcode : Nat) : Option (Wq × Op × Nat × Qp) :=
  match s.wq n with
  | none => none
  | some w =>
    match w.op id, w.qp with
    | some o, some qn =>
      match s.qp qn with
      | some q =>
        if o.phase = .ready ∧ dOp o.desc = opcode ∧ q.state ≠ 0 ∧
            ((w.ops.takeWhile fun x => x.id != id).all Op.passed) ∧ !s.fencedOff n w.inst o.index then
          some (w, o, qn, q)
        else none
      | none => none
    | _, _ => none

/-- Begin operation `id` with `f` once the queue pair's context is in the cache, which a fill brings; an operation of a queue pair in ERROR
completes ABORTED when it reaches issue (R250, R276). -/
def State.runOp (s : State) (n id opcode : Nat) (f : State → Wq → Op → Nat → Qp → State) : State :=
  match s.beginOp n id opcode with
  | none => s
  | some (w, o, qn, q) =>
    if q.state = 2 then s.opFail n id stAborted 0
    else if !q.cached then (s.fillCtx qn q true).2
    else f s w o qn q

/-! ## Judging fetched descriptors (R163, R187, R188) -/

/-- Judge the descriptor at the front of a queue's prefetch buffer (R187). -/
def State.judge (s : State) (n : Nat) : State :=
  match s.wq n with
  | none => s
  | some w =>
    match SMap.find w.units w.judged with
    | none => s
    | some u0 =>
      if !w.wholeNext then s else
        let id := s.q.nextOp
        let s := { s with q := { s.q with nextOp := id + 1 } }
        let len := dLen u0
        if len = 0 ∨ 16 < len ∨ 2 ^ w.log2 < slotOf w.judged w.log2 + len then
          let o := { mkOp id w.judged 0 u0 .stuck none [] with
            status := stBadDescriptor, detail := dLength, after := if w.state = .error then [] else [s.lengthEvent n w] }
          (s.setWq n { w with
            state := .error, reason := if w.state = .error then w.reason else qrDescriptorLength, ops := w.ops ++ [o], units := [] }).retire n
        else
          let d := (List.range len).flatMap fun i => SMap.getD w.units (advance w.judged i) []
          let units := (List.range len).foldl (fun m i => SMap.del m (advance w.judged i)) w.units
          let o := mkOp id w.judged len d .ready none (w.bellsAt w.judged)
          let s := s.setWq n { w with ops := w.ops ++ [o], units, judged := advance w.judged len }
          match s.judgeDesc w.gen d with
          | some f => s.opFail n id f.1 f.2
          | none => s

/-! ## Errors, quiesce and doorbells -/

/-- Waits that a QUIESCE ends: operations waiting to begin complete ABORTED, detail QUIESCE (R181 step 3). -/
def State.endWaits (s : State) (n : Nat) : State :=
  match s.wq n with
  | none => s
  | some w => w.ops.foldl (fun s o => if o.phase = .waiting then s.opEnd n o.id stAborted dQuiesce else s) s

/-- Waits that begin while a queue is DRAINING end like those that it met (R180, R181). -/
def State.endNewWaits (s : State) (n : Nat) : State := if ((s.wq n).map (·.state)) = some .draining then s.endWaits n else s

/-- Clear ENABLE of a work queue (R181, R182). -/
def State.quiesceWq (s : State) (n : Nat) : State :=
  match s.wq n with
  | none => s
  | some w =>
    if w.state = .enabled then ((s.setWq n { w with state := .draining, enable := false }).endWaits n).drained n
    else s.setWq n { w with enable := false }

/-- Return an IDLE queue to ENABLED (R181). -/
def State.resumeWq (s : State) (n : Nat) : State :=
  s.updWq n fun w => if w.state = .idle then { w with state := .enabled, enable := true } else w

/-- Count a dropped doorbell (R159, R160). -/
def State.bellDropped (s : State) (flag : Nat) : State := (s.count .QPE_DOORBELL_DROP_COUNT).setFlag .QPE_QUEUE_ERR flag

/-- The CQ fields of an accepted doorbell: consumer index, then arms (R158, R169, R170). Of two arms at once CQ_ARM is taken,
and an arm of an earlier doorbell stays beside one of the other kind (log 77). -/
def State.bellCq (s : State) (c value : Nat) : State :=
  match s.cq c with
  | none => s
  | some q =>
    let idx := bits value 63 40
    let s := if !bit value 32 then s
      else if distance q.consumer idx ≤ distance q.consumer q.producer then
        let sol := q.solicitedAt.filter fun i => decide (distance q.consumer idx ≤ distance q.consumer i)
        State.cqDrain c (q.held.length + 1) (s.setCq c { q with consumer := idx, solicitedAt := sol })
      else s.setFlag .QPE_QUEUE_ERR 2
    match s.cq c with
    | none => s
    | some q =>
      let any := decide (q.consumer ≠ q.producer)
      let s := if bit value 33 then s.setCq c { q with armed := true }
        else if bit value 34 then s.setCq c { q with armedSol := true } else s
      match s.cq c with
      | none => s
      | some q =>
        if (bit value 33 && any) || (bit value 34 && !q.solicitedAt.isEmpty) then s.cqNotify c q else s

/-- A doorbell write of 64 bits to work queue `n` from the function of instance `fn` (R158 to R161). In ERROR and SNUFFING its CQ fields act
(log 77). -/
def State.doorbell (s : State) (fn n value : Nat) : State :=
  match s.wq n with
  | none => s.bellDropped 0
  | some w =>
    if w.gen ≠ bits value 31 24 ∨ w.inst ≠ fn then s.bellDropped 0
    else
      let p := bits value 23 0
      let dNew := distance w.head p
      let dOld := distance w.head w.doorbell
      let s := if w.state = .error ∨ w.state = .snuffing then s.bellDropped 0
        else if p = w.doorbell then s
        else if 2 ^ w.log2 < dNew then s.wqError n qrDoorbellRange
        else if dNew < dOld then s.wqError n qrDoorbellBackward
        else
          let others := (s.q.wqs.filter fun e => e.2.inst == w.inst && e.1 != n).map fun e => (e.1, e.2.doorbell)
          s.setWq n { w with doorbell := p, bellLog := w.bellLog ++ [(p, others)] }
      s.bellCq w.cq value

/-! ## Fetch (R162 to R164) -/

/-- The units of a queue's prefetch buffer in use: read, or being read. -/
def Wq.prefetched (w : Wq) : Nat := w.units.length + sumList (w.reading.map (·.2))

/-- Put read units into the prefetch buffer. -/
def putUnits (units : SMap Bytes) (index : Nat) (data : Bytes) : Nat → SMap Bytes
  | 0 => units
  | n + 1 => SMap.put (putUnits units index data n) (advance index n) (slice data (n * 64) 64)

/-- Whether a snapshot has stopped the fetching of a work queue (R797). -/
def State.snapStopped (s : State) (w : Wq) : Bool :=
  match (w.qp.bind fun q => SMap.find s.qpe.qps q).bind fun q => SMap.find s.jobs.domains q.partition with
  | some d => d.stopped
  | none => false

/-- The units that the next fetch read of a work queue covers (R162). -/
def Wq.fetchUnits (w : Wq) : Nat :=
  let slot := slotOf w.fetch w.log2
  min (min (distance w.fetch w.doorbell) (2 ^ w.log2 - slot)) (min (64 - slot % 64) (min 16 (32 - w.prefetched)))

/-- Whether a work queue has units that may be fetched now (R162, R705, R737, R797). -/
def State.fetchable (s : State) (w : Wq) : Bool :=
  let hold := ((s.inst w.inst).map fun i => i.hold || i.state != .active).getD true
  w.state == .enabled && !hold && w.fetchUnits != 0 && !(s.fn w.inst).held && !s.snapStopped w

/-- Whether it is the turn of work queue `n` to be served: it comes next, after the queue served last, among those with fetchable units
(R164). -/
def State.fetchTurn (s : State) (n : Nat) : Bool :=
  nextAfter s.q.turn ((s.q.wqs.filter fun e => s.fetchable e.2).map (·.1)) == some n

/-- Issue one fetch read of a work queue (R162). The lookup of one that the function cannot issue is made, and counted, when it can (R144). -/
def State.fetchWq (s : State) (n : Nat) : State :=
  match s.wq n with
  | none => s
  | some w =>
    let slot := slotOf w.fetch w.log2
    let k := w.fetchUnits
    if !s.fetchable w then s else
      let before := s
      match s.lookup (.ringFetch n w.fetch) w.inst (w.ring + slot * 64) .read with
      | (.wait, s) => s
      | (.fault _, s) => s.wqError n qrRingTranslation
      | (.ok .hbm t, s) =>
        let r := s.hbmRead t (k * 64)
        if r.2.1 then r.2.2.wqError n qrRingPoison
        else r.2.2.setWq n { w with fetch := advance w.fetch k, fresh := false, units := putUnits w.units w.fetch r.1 k }
      | (.ok kind t, s) =>
        if kind = .peer ∧ !s.peerOk (portOf w.inst) t (k * 64) then s.wqError n qrRingHostError else
          match s.hostRead w.inst t (k * 64) (kind = .peer) (.ringFetch n w.fetch) (some w.inst) with
          | some s => s.setWq n { w with fetch := advance w.fetch k, fresh := false, reading := w.reading ++ [(w.fetch, k)] }
          | none => before

/-! ## Chains (R154 to R157) -/

/-- Turn the bytes of a continuation list that have been read into operations (R155, R157): those before the first that ends the list's run;
`left` are the bytes of the list from here on, read or not. -/
def State.listOps (s : State) (w : Wq) (chain : Op) : Nat → Nat → Bytes → List Op × State
  | 0, _, _ => ([], s)
  | fuel + 1, left, data =>
    if data.isEmpty ∨ (dLen data ≤ 16 ∧ data.length < dLen data * 64 ∧ dLen data * 64 ≤ left) then ([], s) else
      let id := s.q.nextOp
      let s := { s with q := { s.q with nextOp := id + 1 } }
      let len := dLen data
      let fresh (d : Bytes) := { mkOp id chain.index 0 d .ready (some chain.id) chain.bells with hops := chain.hops }
      if len = 0 ∨ 16 < len ∨ left < len * 64 then
        ([{ fresh (slice data 0 64) with phase := .done, status := stBadDescriptor, detail := dLength }], s)
      else
        let d := data.take (len * 64)
        let rest := data.drop (len * 64)
        let o := fresh d
        let bad := s.judgeDesc w.gen d
        if dOp d = 0x08 ∧ (bad = none ∨ bad = some (stBadDescriptor, dField)) ∧ dLen d ≥ 1 then
          if len * 64 < left then ([{ o with phase := .done, status := stBadDescriptor, detail := dChainPlacement }], s)
          else if bad ≠ none then ([{ o with phase := .done, status := stBadDescriptor, detail := dField }], s)
          else if 4096 ≤ chain.hops then ([{ o with phase := .done, status := stBadDescriptor, detail := dChainHops }], s)
          else ([{ o with hops := chain.hops + 1 }], s)
        else
          let o := match bad with
            | some f => { o with phase := .done, status := f.1, detail := f.2 }
            | none => o
          if dOp d = 0x08 then ([o], s) else
            let r := s.listOps w chain fuel (left - len * 64) rest
            (o :: r.1, r.2)

/-- A CHAIN begins: its list is asked for (R154, R157). -/
def State.readList (s : State) (n : Nat) (w : Wq) (o : Op) : State :=
  let r := s.readIva w.inst w.inst (leAt o.desc 8 8) (leAt o.desc 16 4 * 64) false (fun off => .chainList n o.id off) o.list
  (r.2.2.updOp n o.id fun o => { o with phase := .listRead, list := r.2.1, hops := max 1 o.hops }).holdPoison n o.id r.2.1

/-- Whether a read of a CHAIN's list is in flight. -/
def State.listAwaited (s : State) (n id : Nat) : Bool :=
  s.hif.ports.any fun p => p.2.tags.any fun t => match t.2.purpose with
    | .chainList w o _ => w == n && o == id
    | _ => false

/-- The list of a CHAIN has been read, or a part of it, up to a read that failed: the descriptors that were read take their places before the
CHAIN, which has the failure's status (R155 to R157). -/
def State.listArrived (s : State) (n : Nat) (w : Wq) (o : Op) : State :=
  let f := o.list.fail.getD (stSuccess, 0)
  let r := s.listOps w o 70000 (leAt o.desc 16 4 * 64) o.list.part
  let s := r.2.updWq n fun w => { w with ops := w.ops.flatMap fun x =>
    if x.id = o.id then r.1 ++ [{ x with phase := .listRun, list := RBuf.empty, status := f.1, detail := f.2 }] else [x] }
  (s.updWq n fun w => { w with ops := settleChains w.ops }).retire n

end Sys2Proof.Machine
end

