-- ==== Sys2Proof/Machine/Wicks.lean ====
section
/-!
DEFINITION. Wick queues and local barriers (R567 to R583): tokens, epochs, waiters and arrivals.
-/

namespace Sys2Proof.Machine

/-- A wick queue, if it exists. -/
def State.wick (s : State) (n : Nat) : Option Wick := SMap.find s.syn.wicks n

/-- Replace a wick queue. -/
def State.setWick (s : State) (n : Nat) (w : Wick) : State :=
  { s with syn := { s.syn with wicks := SMap.put s.syn.wicks n w } }

/-- Add tokens to the count of a wick queue, up to its depth; its waiters are tested at the end of the command (R569,
R571, R572). -/
def State.addTokens (s : State) (n tokens : Nat) : State :=
  match s.wick n with
  | none => s
  | some w =>
    let room := w.depth - w.count
    let spill := tokens - min tokens room
    let s := s.setWick n { w with count := w.count + min tokens room, overflow := w.overflow || spill != 0 }
    let s := if spill = 0 then s else (s.setFlag .SYN_ERR 0).countN .SYN_OVERFLOW_COUNT spill
    { s with syn := { s.syn with rose := s.syn.rose ++ [n] } }

/-- A produce of tokens with an EPOCH tag (R262, R569, R576): none when accepted, else the reason of its refusal. -/
def State.produce (s : State) (n tokens tag partition : Nat) : Option Nat × State :=
  match s.wick n with
  | none => (some rsKeyUnknown, s)
  | some w =>
    if w.partition ≠ partition then (some rsPartition, s)
    else
      let accept := fun (s : State) (w : Wick) =>
        (s.countN .SYN_TOKEN_COUNT tokens).setWick n { w with produced := satAdd32 w.produced tokens, fresh := false }
      if !w.realign || tag == w.index then (none, (accept s w).addTokens n tokens)
      else if seqNewer tag w.index then
        (none, accept s { w with pend := min w.depth (w.pend + tokens) })
      else (none, (s.setFlag .SYN_ERR 1).countN .SYN_STALE_TOKEN_COUNT tokens)

/-- The number of waiting CONSUMEs of the module (R570, R590). -/
def State.consumes (s : State) : Nat :=
  sumList (s.syn.wicks.map fun e => (e.2.waiters.filter fun w => match w.kind with | .consume _ _ => true | _ => false).length)

/-- A barrier of this module, if its group has one. -/
def State.bar (s : State) (g : Nat) : Option Barrier := SMap.find s.syn.bars g

/-- Replace a barrier. -/
def State.setBar (s : State) (g : Nat) (b : Barrier) : State :=
  { s with syn := { s.syn with bars := SMap.put s.syn.bars g b } }

/-- Remove the waits of an operation from every wick queue and barrier. -/
def State.dropWaits (s : State) (n id : Nat) : State :=
  { s with
    syn := { s.syn with
      wicks := SMap.mapv s.syn.wicks fun _ w => { w with waiters := w.waiters.filter fun x => x.kind != .consume n id }
      bars := SMap.mapv s.syn.bars fun _ b => { b with waits := b.waits.filter fun x => !(x.1 == n && x.2.1 == id) } }
    sch := { s.sch with
      cadences := SMap.mapv s.sch.cadences fun _ c => { c with waits := c.waits.filter fun x => x != (n, id) } } }

end Sys2Proof.Machine
end

