-- ==== Sys2Proof/Machine/Rma.lean ====
section
/-!
DEFINITION. Remote memory access at the source (R256 to R284): checks, messages, contexts, issue, and the end of
operations.
-/

namespace Sys2Proof.Machine

/-! ## Checks at the source (R59, R146, R258) -/

/-- Check 1 of R258 for a target named by FORM and MODULE: whether it fails. -/
def State.formBad (s : State) (q : Qp) (form module : Nat) : Bool :=
  if form = 0 then q.connected else (q.connected && module != q.remoteModule) || !s.inTorus module

/-- Check 2 of R258 for a hall address (R59). -/
def State.hallFail (s : State) (form remote len : Nat) : Option (Nat × Nat) :=
  if form ≠ 0 then none
  else if hallVer remote ≠ 0 then some (stVersion, 0)
  else if !s.inTorus (hallHome remote) ∨ !s.inTorus (hallHome (remote + len - 1)) then some (stRemoteAccess, rsModuleAbsent)
  else none

/-- Checks 1 and 2 of R258 for a target named by a descriptor's FORM, REMOTE and MODULE; `wickBad` says that WICK_MODULE fails check 1. -/
def State.targetFail (s : State) (q : Qp) (form remote len module : Nat) (wickBad : Bool) : Option (Nat × Nat) :=
  if s.formBad q form module || wickBad then some (stBadDescriptor, dField) else s.hallFail form remote len

/-- Check 1 of R258 for a WICK_MODULE: whether it fails. -/
def State.wickBad (s : State) (q : Qp) (m : Nat) : Bool := (q.connected && m != q.remoteModule) || !s.inTorus m

/-- The first page of a local buffer that its instance may not use so, and the fault's kind (R101, R115). -/
def State.localFault (s : State) (n iva len : Nat) (acc : Access) : Option (Nat × Nat) :=
  match s.inst n with
  | none => some (iva, fkNotMapped)
  | some i => (pieces 4096 iva len).findSome? fun p =>
      let a := iva + p.1
      if 2 ^ 48 ≤ a then some (a, fkAddressRange) else
        match leafAt i.maps a with
        | some e => (rightsFault e.2 acc).map fun k => (a, k)
        | none => some (a, fkNotMapped)

/-- The translation that meets a fault of a local buffer: it is counted, its walk reads the tables, and its fault is logged (R115, R117,
R144). -/
def State.faultAt (s : State) (n iva kind : Nat) (acc : Access) : Nat × State :=
  match s.lookupNow n iva acc with
  | (.fault k, s) => (k, s)
  | (_, s) => (kind, s)

/-- Look up the pieces of a local buffer that is to be written, in order, up to the first fault: its address and kind (R101, R144). -/
def State.lookPieces (n iva : Nat) (acc : Access) : List (Nat × Nat) → State → Option (Nat × Nat) × State
  | [], s => (none, s)
  | p :: ps, s =>
    match s.lookupNow n (iva + p.1) acc with
    | (.fault k, s) => (some (iva + p.1, k), s)
    | (_, s) => State.lookPieces n iva acc ps s

/-- Check 3 of R258: translate a local buffer, logging the fault that ends the operation. The lookup of a buffer that is read is the one that
its data's move makes at once; that of one to be written is made here, and again as its data lands (R116, R144; log 76). -/
def State.localCheck (s : State) (n iva len : Nat) (acc : Access) : Option Nat × State :=
  if acc = .read then
    match s.localFault n iva len acc with
    | some (a, k) => let r := s.faultAt n a k acc; (some r.1, r.2)
    | none => (none, s)
  else
    let r := State.lookPieces n iva acc (pieces 4096 iva len) s
    (r.1.map (·.2), r.2)

/-! ## Messages (R259) -/

/-- Cut an operation into messages at every 4 KiB boundary of the remote address. -/
def cutMsgs (remote len dst : Nat) : List Msg :=
  (pieces 4096 remote len).map fun p => ⟨p.1, p.2, remote + p.1, dst, .waiting, RBuf.empty, 0, 0, false⟩

/-- Begin an operation with its messages. -/
def State.beginMsgs (s : State) (n id : Nat) (msgs : List Msg) : State :=
  s.updOp n id fun o => { o with phase := .active, msgs }

/-- The bytes from an address on that lie in its first 4 KiB step (R116). -/
def firstStep (iva len : Nat) : Nat := min len (4096 - iva % 4096)

/-- Begin a READ, WRITE or WRITE_NOTIFY after its checks (R257 to R261, R263). Of the local buffer the first 4 KiB step is translated now,
and each further one as its data moves (R116; log 76). -/
def State.beginTransfer (s : State) (n : Nat) (w : Wq) (o : Op) (q : Qp) (acc : Access) : State :=
  let d := o.desc
  match s.targetFail q (dForm d) (dRemote d) (dBytes d) (dModule d) (dOp d == 3 && s.wickBad q (dWickModule d)) with
  | some f => s.opFail n o.id f.1 f.2
  | none =>
    match (if dInline d then (none, s) else s.localCheck w.inst (dLocal d) (firstStep (dLocal d) (dBytes d)) acc) with
    | (some k, s) => s.opFail n o.id stTranslationFault k
    | (none, s) => s.beginMsgs n o.id (cutMsgs (dRemote d) (dBytes d) (dModule d))

/-- Begin an atomic after its checks (R264 to R266). -/
def State.beginAtomic (s : State) (n : Nat) (w : Wq) (o : Op) (q : Qp) : State :=
  let d := o.desc
  match s.targetFail q (dForm d) (dRemote d) (dWidth d) (dModule d) false with
  | some f => s.opFail n o.id f.1 f.2
  | none =>
    match (if dLocal d = 0 then (none, s) else s.localCheck w.inst (dLocal d) (dWidth d) .write) with
    | (some k, s) => s.opFail n o.id stTranslationFault k
    | (none, s) => s.beginMsgs n o.id [⟨0, dWidth d, dRemote d, dModule d, .waiting, RBuf.empty, 0, 0, false⟩]

/-! ## The end of an operation (R259, R260) -/

/-- The message whose status an operation reports: the first in address order that has failed (R259). Where it was only released as its queue
pair entered ERROR, the one that met the cause goes before it (R253). -/
def failedMsg (ms : List Msg) : Option Msg :=
  (ms.find? fun m => m.status != 0).map fun m =>
    if m.status = stAborted ∧ m.reason = 0 then (ms.find? fun x => x.status == stTimeout || x.status == stTagFailure).getD m else m

/-- Complete an operation whose messages have all ended (R253, R259). A multi-message WRITE_NOTIFY whose data has been performed gets its token
message (R261). An affected operation completes once its function is held no more (R739). -/
def State.opCheck (s : State) (n id : Nat) : State :=
  match (s.wq n).bind fun w => (w.op id).map fun o => (w, o) with
  | none => s
  | some (w, o) =>
    if o.phase ≠ .active ∨ o.msgs = [] ∨ o.msgs.any (fun m => m.state != .done) ∨ (o.affected ∧ (s.fn w.inst).held) then s else
      match failedMsg o.msgs with
      | some m =>
        let total := confirmed o.msgs
        s.opDone n id m.status m.reason o.remote total o.result
      | none =>
        if o.owesToken then
          s.updOp n id fun o => { o with msgs := o.msgs ++ [⟨0, 0, 0, dWickModule o.desc, .waiting, RBuf.empty, 0, 0, true⟩] }
        else if o.affected then s
        else s.opDone n id stSuccess 0 false (sumList (o.msgs.map fun m => if m.isToken then 0 else m.len)) o.result

/-- End message `k` of an operation with an outcome. -/
def State.msgEnd (s : State) (n id k status reason : Nat) (remote : Bool) : State :=
  let s := s.updOp n id fun o =>
    let first := (o.msgs.take k).all fun m => m.status == 0
    { o with
      remote := if status != 0 && first then remote else o.remote
      msgs := o.msgs.mapIdx fun j m => if j = k then { m with state := .done, status, reason, data := RBuf.empty } else m }
  s.opCheck n id

/-- A local read of an operation failed: the messages not yet sent are not sent (R260). -/
def State.msgLocalFail (s : State) (n id k status detail : Nat) : State :=
  let s := s.updOp n id fun o =>
    { o with msgs := o.msgs.mapIdx fun j m =>
        if k ≤ j ∧ m.state = .waiting then { m with state := .done, status := status, reason := detail, data := RBuf.empty } else m }
  s.opCheck n id

/-- Land the data of a READ or the original value of an atomic in its local buffer (R256, R260, R265). -/
def State.land (s : State) (n id k : Nat) (data : Bytes) : State :=
  match s.wq n with
  | none => s
  | some w =>
    match w.op id with
    | none => s
    | some o =>
      let m := o.msgs.getD k default
      if dOp o.desc = 1 then
        match s.ivaWrite w.inst (dLocal o.desc + m.off) (slice data 0 m.len) true with
        | (none, s) => s.msgEnd n id k stSuccess 0 false
        | (some (.fault f), s) => (s.holdEcc n id).msgEnd n id k stTranslationFault f false
        | (some .host, s) => s.msgEnd n id k stHostMemoryError 2 false
        | (some .blocked, s) => (s.updOp n id fun o => { o with affected := true }).msgEnd n id k stAborted dBusMaster false
      else
        let v := leAt data 0 (dWidth o.desc)
        let s := s.updOp n id fun o => { o with result := v }
        if dLocal o.desc = 0 then s.msgEnd n id k stSuccess 0 false
        else match s.ivaWrite w.inst (dLocal o.desc) (leBytes (dWidth o.desc) v) false with
          | (none, s) => s.msgEnd n id k stSuccess 0 false
          | (some (.fault f), s) => (s.holdEcc n id).msgEnd n id k stTranslationFault f false
          | (some .host, s) => s.msgEnd n id k stHostMemoryError 2 false
          | (some .blocked, s) => (s.updOp n id fun o => { o with affected := true }).msgEnd n id k stAborted dBusMaster false

/-! ## The return of a context's fill (R278) -/

/-- The operation of a queue pair that waits at issue for its context ends as one that met a failed fill (R253, R278). -/
def State.fillMet (s : State) (q : Qp) : State :=
  match q.wq.bind s.wq with
  | none => s
  | some w =>
    let n := q.wq.getD 0
    match w.ops.find? fun o => !o.passed with
    | none => s
    | some o =>
      if o.phase = .ready then s.opFail n o.id stHostMemoryError 0
      else if o.phase = .active then s.msgLocalFail n o.id 0 stHostMemoryError 0
      else s

/-- A fill failed (R253, R278): the queue pair enters ERROR with HOST_MEMORY_ERROR, and its context stays in the cache, where it
differs from its slot (R297). -/
def State.fillFail (s : State) (n : Nat) : State :=
  match s.qp n with
  | none => s
  | some q =>
    let s := (s.setQp n { q with filling := false, initFill := false, cached := true, dirty := true, failed := true }).setFlag .QPE_ERR 2
    (if q.initFill then s.fillMet q else s).qpError n stHostMemoryError stAborted

/-- A context fill returned (R278): its CHECK and QPN are compared, and the slot's fields become the context's. A queue pair that has entered
ERROR or lost its work queue meanwhile stays so (R249, R253). -/
def State.fillDone (s : State) (n : Nat) (data : Bytes) : State :=
  match s.qp n with
  | none => s
  | some q =>
    if !q.filling then s
    else if leAt data 252 4 ≠ crc32 (slice data 0 252) ∨ leAt data 0 3 ≠ n then s.fillFail n
    else
      let remoteQpn := leAt data 12 3
      let wq := leAt data 24 2
      let q := { q with
        filling := false, initFill := false, cached := true
        dirty := (q.state == 2 && leAt data 4 1 != 2) || (q.wq.isNone && wq != 0xFFFF)
        joined := bit (leAt data 5 1) 7
        state := if q.state = 2 then 2 else min 2 (leAt data 4 1)
        forerunner := bit (leAt data 5 1) 6, tc := leAt data 5 1 % 8, partition := leAt data 6 2
        remoteModule := leAt data 8 4 % 2 ^ 17, remoteQpn, sendPsn := leAt data 16 3
        wq := if wq = 0xFFFF ∨ q.wq.isNone then none else some wq
        cq := leAt data 26 2, keySlot := leAt data 32 2 }
      let q := if remoteQpn = 0 then q else
        { q with
          rx := { q.rx with expect := leAt data 20 3, records := (List.range (min 7 (leAt data 71 1 % 16))).map fun i => slotOutcome data (96 + 16 * i) }
          conf := leAt data 68 3, sendSegment := leAt data 72 8, recvSegment := leAt data 80 8, lastAck := leAt data 88 4 }
      (s.setQp n q).touchCtx n

/-! ## Issue (R271 to R273, R281, R282, R371, R372) -/

/-- The request packet of a message, without its data. An encrypted atomic or TOKEN has no data of its own (R328). -/
def State.requestPkt (s : State) (w : Wq) (o : Op) (n : Nat) (q : Qp) (qpn : Nat) (m : Msg) (dst : Nat) : Pkt :=
  let d := o.desc
  let typ := if m.isToken || dOp d == 7 then 0x06 else if dOp d = 1 then 0x02 else if dOp d = 2 ∨ dOp d = 3 then 0x01 else 0x04
  let single := dOp d == 3 && o.msgs.length == 1
  let lastOfOp := m.isToken || (m.off + m.len == dBytes d) || typ == 0x04 || typ == 0x06
  let _ := n
  { s.blank typ dst q.tc with
    form := if typ = 0x06 then 0 else dForm d
    partition := q.partition, srcQpn := qpn, dstQpn := q.remoteQpn
    srcInstGen := s.instGen w.inst, srcQueueGen := w.gen
    ackReq := (lastOfOp && bit (dFlags d) 0) || typ == 0x04 || typ == 0x06 || dOp d == 3
    encrypted := q.forerunner
    length := if typ = 0x04 ∨ typ = 0x06 then (if q.forerunner then 0 else 64) else m.len
    key := if typ = 0x06 ∨ dForm d = 0 then 0 else dKey d
    remote := m.remote
    note := if single then some (dWickModule d, dWick d, dTokens d) else none }

/-- The payload of an ATOMIC_REQ (R305). -/
def atomicPayload (op width operand swap : Nat) : Bytes :=
  beBytes 1 op ++ beBytes 1 width ++ zeros 6 ++ beBytes 8 operand ++ beBytes 8 swap ++ zeros 40

/-- The payload of a TOKEN_REQ (R569). -/
def tokenPayload (wick tokens tag : Nat) : Bytes := beBytes 2 wick ++ beBytes 2 tokens ++ beBytes 4 tag ++ zeros 56

/-- The destination of a message that waits at issue, as far as it is known (R258, R263, R272). -/
def State.msgTarget (s : State) (qpn : Nat) (o : Op) (m : Msg) : Option Nat :=
  if m.isToken ∨ dOp o.desc = 7 then some (dWickModule o.desc)
  else if dForm o.desc = 0 then s.holderFor qpn (hallHome m.remote) (hallPage m.remote) (dOp o.desc != 1)
  else some m.dst

/-- Whether the stream of a message has nothing more to send behind it: no other message that waits at issue and no waiting request of the
module's own goes the same way (R315). `n`, `id` and `k` name the message. -/
def State.lastInStream (s : State) (n id k qpn : Nat) (q : Qp) (dst : Nat) : Bool :=
  let others := s.q.wqs.any fun w =>
    match w.2.qp with
    | none => false
    | some x =>
      let same := if q.connected then x == qpn else ((s.qp x).map fun y => !y.connected && y.tc == q.tc).getD false
      same && w.2.ops.any fun o => o.phase == .active && (List.range o.msgs.length).any fun i =>
        match o.msgs[i]? with
        | some m => m.state == .waiting && !(w.1 == n && o.id == id && i == k) && (q.connected || s.msgTarget x o m == some dst)
        | none => false
  !others && (q.connected || !(s.qpe.control.any fun c => c.2.dst == dst && c.2.tc == q.tc))

/-- The local buffer of message `k` faults `x` bytes into it. The bytes before the faulting page make a message of their own, which goes; the
rest, and the messages after it, are not sent (R22, R116, R260; log 76). -/
def State.msgFault (s : State) (n id k x detail : Nat) : State :=
  let cut (m : Msg) : List Msg :=
    if x = 0 then [m] else
      [{ m with len := x, data := ⟨m.data.pieces.filter (fun p => decide (p.off < x)), none⟩ },
        { m with off := m.off + x, len := m.len - x, remote := m.remote + x, data := RBuf.empty }]
  let s := s.updOp n id fun o => { o with msgs := (o.msgs.mapIdx fun j m => if j = k then cut m else [m]).flatten }
  s.msgLocalFail n id (if x = 0 then k else k + 1) stTranslationFault detail

/-- Get the data of a message: none while it waits, or its bytes or a failure. A READ's part of the local buffer is translated, once (R116). -/
def State.msgData (s : State) (n : Nat) (w : Wq) (o : Op) (k : Nat) (m : Msg) : Option ((Nat × Nat) ⊕ Bytes) × State :=
  let d := o.desc
  if m.isToken || dOp d == 7 then (some (.inr (tokenPayload (dWick d) (dTokens d) (s.epochNow
    ((w.qp.bind s.qp).map (·.partition) |>.getD 0)))), s)
  else if dOp d = 1 then
    if m.data.pieces ≠ [] then (some (.inr []), s) else
      match State.lookPieces w.inst (dLocal d + m.off) .write (pieces 4096 (dLocal d + m.off) m.len) s with
      | (none, s) => (some (.inr []), s.updOp n o.id fun o => { o with msgs := o.msgs.mapIdx fun j x =>
          if j = k then { x with data := RBuf.of [] } else x })
      | (some (a, f), s) => (none, (s.holdEcc n o.id).msgFault n o.id k (a - (dLocal d + m.off)) f)
  else if dOp d = 4 ∨ dOp d = 5 then (some (.inr (atomicPayload (dOp d) (dWidth d) (dOperand d) (dSwap d))), s)
  else if dInline d then (some (.inr (slice (d.drop 64) m.off m.len)), s)
  else
    let r := s.readIva w.inst w.inst (dLocal d + m.off) m.len false (fun off => .localData n o.id k off) m.data
    let s := r.2.2.updOp n o.id fun o => { o with msgs := o.msgs.mapIdx fun j x => if j = k then { x with data := r.2.1 } else x }
    match r.2.1.fail with
    | some f =>
      if f.1 = stTranslationFault then (none, (s.holdEcc n o.id).msgFault n o.id k ((r.2.1.pieces.getLast?.map (·.off)).getD 0) f.2)
      else (some (.inl f), s.holdPoison n o.id r.2.1)
    | none => if r.1 && r.2.1.ready then (some (.inr r.2.1.bytes), s) else (none, s)

/-! ## Whose message issues next (R281, R371, R695) -/

/-- What a message of an operation, or a launch, is charged: its payload, or the bytes that a READ asks for, and 96 bytes (R371, R695). -/
def State.ownerCharge (s : State) (o : TxnOwner) : Nat :=
  96 + match o with
  | .op _ _ k => match (s.ownerOp o).bind fun x => x.2.2.msgs[k]? with
    | some m => if m.isToken || decide (4 ≤ (((s.ownerOp o).map fun x => leAt x.2.2.desc 0 1).getD 0)) then 64 else m.len
    | none => 0
  | _ => 192

/-- Whether an owner has a message ready: its queue pair is READY with a context that may be pinned, an entry is free,
and for a message of an operation that is not affected its data, its holder and its epochs are known and neither its queue nor its bucket
holds it (R250, R271 to R273, R281, R322, R738). -/
def State.isReady (s : State) (o : TxnOwner) : Bool :=
  s.stillWaits o && s.mayTake o && match s.ownerOp o with
  | none => true
  | some (_, w, op) => match w.qp.bind fun n => (s.qp n).map fun q => (n, q) with
    | none => false
    | some (n, q) =>
      q.state == 1 && q.cached && (s.initPinned n || s.pinRoom) && (!q.forerunner || (s.qpKey q).isSome) &&
      (w.ops.takeWhile fun x => x.id != op.id).all Op.passed && match o with
      | .op _ _ k => op.phase == .active && !op.affected && (dOp op.desc != 3 || s.epochKnown (dWickModule op.desc)) && match op.msgs[k]? with
        | none => false
        | some m => (dOp op.desc != 2 && dOp op.desc != 3 || dInline op.desc || m.isToken || m.data.holds m.len) && (op.msgs.take k).all (fun x => x.state != .waiting) && match s.msgTarget n op m with
          | none => false
          | some d => s.epochKnown d && !s.injectHeld (s.blank 0x01 d q.tc) && (s.bucket d q.tc (s.ownerCharge o - 96)).isSome
      | _ => true

/-- The instances that have a message ready, each with the work queue of it whose turn is next and that queue's message (R281, R695). -/
def State.readyInsts (s : State) (ready : List TxnOwner) : List (Nat × Nat × TxnOwner) :=
  let all := ready.filterMap fun o => (s.ownerOp o).map fun x => (x.2.1.inst, x.1, o)
  ((all.map (·.1)).eraseDups).filterMap fun i =>
    let own := all.filter fun x => x.1 == i
    (nextAfter (((s.inst i).map (·.turn)).getD 0) (own.map (·.2.1))).bind fun w => own.find? fun x => x.2.1 == w

/-- The next message of each work queue, whose turn it is in ring and address order (R271). -/
def State.nextMsgs (s : State) : List TxnOwner :=
  s.q.wqs.filterMap fun e => (e.2.ops.find? fun o => !o.passed).bind fun o =>
    match o.msgs.findIdx? fun m => m.state == .waiting with
    | some k => some (.op e.1 o.id k)
    | none => none

/-- Whether the message of an owner, which waits for nothing else, takes the next entry: deficit round robin chooses among the instances with
a message ready, and round robin among the work queues of one (R281, R695; log 79). -/
def State.grant (s : State) (o : TxnOwner) : Bool × State :=
  let ready := s.readyInsts (o :: (s.nextMsgs ++ s.qpe.allocWait.filter fun x => !s.nextMsgs.contains x).filter fun x => x != o && s.isReady x)
  let unit := s.comF .VRT_SHARE_CFG 12 0
  let r := s.qpe.shares.turn (ready.map fun x => (x.1, s.ownerCharge x.2.2)) fun n => (((s.inst n).map (·.share)).getD 0) * unit
  match r.1.bind fun n => ready.find? fun x => x.1 == n with
  | none => (true, s)
  | some x =>
    if x.2.2 = o then
      (true, { s with qpe := { s.qpe with shares := r.2 } }.updInst x.1 fun i => { i with turn := x.2.1 })
    else (false, s)

/-- Send message `k` of an operation with its data, if an entry, the queue and the bucket allow it and the turn is its own (R281, R282, R371,
R695). -/
def State.sendMsg (s : State) (n : Nat) (w : Wq) (o : Op) (qpn : Nat) (q : Qp) (k : Nat) (m : Msg) (dst : Nat)
    (page : Option Nat) (data : Bytes) : State :=
  let p := s.requestPkt w o n q qpn m dst
  let p := { p with ackReq := p.ackReq || s.lastInStream n o.id k qpn q dst }
  let owner := TxnOwner.op n o.id k
  let charge := if p.typ = 0x02 then m.len else data.length
  if !s.qpRoom qpn then s.allocWaits owner
  else match s.freeEntry owner with
  | none => s.allocWaits owner
  | some e =>
    if s.injectHeld p then s.allocDone owner
    else
    let s := if q.forerunner then s.bindEngine qpn else s
    let q := if q.forerunner then (s.qp qpn).getD q else q
    if q.forerunner && !s.domOn (domCipher ((q.engine.getD 0) / 8)) then
      (s.wakeDom (domCipher ((q.engine.getD 0) / 8))).allocDone owner
    else if q.forerunner && (s.qpKey q).isNone then s.allocDone owner
    else match s.bucket dst q.tc charge with
    | none => s.allocDone owner
    | some t =>
    match t.grant owner with
    | (false, _) => s.allocWaits owner
    | (true, s) =>
      let s := s.updOp n o.id fun o => { o with msgs := o.msgs.mapIdx fun j x =>
        if j = k then { x with state := .sent e, dst, data := RBuf.empty } else x }
      let opLen := if p.typ = 0x01 then dBytes o.desc else 0
      s.startTxn e owner (some qpn) q.connected page p data m.off opLen

/-- Issue message `k` of an operation (R271, R273, R276, R281, R322): it waits while its data, its context, its holder,
an epoch, an entry or its bucket is not there. -/
def State.issueMsg (s : State) (n id k : Nat) : State :=
  match s.wq n with
  | none => s
  | some w =>
    match w.op id, w.qp with
    | some o, some qpn =>
      match s.qp qpn, o.msgs[k]? with
      | some q, some m =>
        let before := (w.ops.takeWhile fun x => x.id != id).all Op.passed && (o.msgs.take k).all fun x => x.state != .waiting
        if o.phase ≠ .active ∨ m.state ≠ .waiting ∨ !before ∨ q.state = 0 ∨ o.affected then s
        else if q.state = 2 then s.msgLocalFail n id k stAborted 0
        else
          match s.msgData n w o k m with
          | (none, s) => s
          | (some (.inl f), s) => s.msgLocalFail n id k f.1 f.2
          | (some (.inr data), s) =>
            match s.needCtx qpn q with
            | (true, s) => s
            | (false, s) =>
              let hall := dForm o.desc = 0 ∧ !m.isToken ∧ dOp o.desc ≠ 7
              let dst := if m.isToken ∨ dOp o.desc = 7 then some (dWickModule o.desc)
                else if hall then s.holderFor qpn (hallHome m.remote) (hallPage m.remote) (dOp o.desc != 1)
                else some m.dst
              match dst with
              | none => s
              | some dst =>
                if (m.isToken ∨ dOp o.desc = 7) ∧ dst = s.me then
                  match s.produce (dWick o.desc) (dTokens o.desc) (s.epochNow q.partition) q.partition with
                  | (none, s) => s.msgEnd n id k stSuccess 0 false
                  | (some r, s) => s.msgEnd n id k stRemoteAccess r true
                else
                let wickOk := dOp o.desc ≠ 3 ∨ s.epochKnown (dWickModule o.desc)
                if !s.epochKnown dst then s.probe dst
                else if !wickOk then s.probe (dWickModule o.desc)
                else
                  let s := if hall then s.cacheUsed (hallHome m.remote) (hallPage m.remote) else s
                  s.sendMsg n w o qpn q k m dst (if hall then some (pageOf m.remote) else none) data
      | _, _ => s
    | _, _ => s

/-! ## Fences and tokens (R94, R263, R267, R569, R570, R582) -/

/-- Whether the operations ordered before a FENCE have met its strength (R94, R548). -/
def State.fenceMet (s : State) (n : Nat) (w : Wq) (o : Op) (qpn : Nat) : Bool :=
  let own := (w.ops.takeWhile fun x => x.id != o.id).all fun x => x.phase == .done || x.phase == .listRun
  let b := leAt o.desc 8 1
  let others := !bit b 0 || (s.q.wqs.all fun e =>
    e.1 == n || e.2.inst != w.inst ||
      match o.bells.find? fun x => x.1 == e.1 with
      | some x =>
        let span := distance e.2.head x.2
        decide (2 ^ 23 ≤ span) || span == 0 ||
          (decide (distance e.2.head e.2.judged ≥ span) &&
            e.2.ops.all fun y => y.phase == .done || decide (span ≤ distance e.2.head y.index))
      | none => true)
  let watched := bit b 1 && s.plc.watch.any fun x => if bit b 0 then x.inst == w.inst else x.qpn == qpn
  own && others && !watched

/-- Complete the started FENCEs that are met. -/
def State.fences (s : State) : State :=
  s.q.wqs.foldl (fun s e =>
    e.2.ops.foldl (fun s o =>
      if dOp o.desc = 6 ∧ o.phase = .active then
        match s.wq e.1 with
        | some w =>
          match w.qp with
          | some qpn => if s.fenceMet e.1 w o qpn then s.opDone e.1 o.id stSuccess 0 false 0 0 else s
          | none => s
        | none => s
      else s) s) s

end Sys2Proof.Machine
end

