-- ==== Sys2Proof/Machine/Formats.lean ====
section
/-!
DEFINITION. Number formats and exact arithmetic (R401, R402, R422, R444, R448 to R453): decoding, rounding, FP32
operations, the special functions, and block encoding.
-/

namespace Sys2Proof.Machine

/-- An exact value: NaN, an infinity, or (-1)^neg × mag × 2^exp; a zero keeps its sign. `ovf` says that an infinity has come of an
overflow and not of an infinite input, whatever it has passed through since (R452). -/
inductive Num where
  | nan
  | inf (neg ovf : Bool)
  | fin (neg : Bool) (mag : Nat) (exp : Int)
  deriving DecidableEq, Repr, Inhabited

/-- +0. -/
def Num.zero : Num := .fin false 0 0

/-- The position of the leading one of a number; 0 for 0 and 1. -/
def leadBit (n : Nat) : Nat := Nat.log2 n

/-- n × 2^sh for a shift of either sign, toward zero. -/
def shiftInt (n : Nat) (sh : Int) : Nat := if 0 ≤ sh then n * 2 ^ sh.toNat else n / 2 ^ (-sh).toNat

/-- mag × 2^exp in units of 2^q, rounded to nearest, ties to even. -/
def rne (mag : Nat) (exp q : Int) : Nat :=
  if q ≤ exp then mag * 2 ^ (exp - q).toNat
  else
    let d := 2 ^ (q - exp).toNat
    let f := mag / d
    let r := mag % d
    if d < 2 * r ∨ (2 * r = d ∧ f % 2 = 1) then f + 1 else f

/-- Compare the magnitudes of two finite values. -/
def magLe (m : Nat) (e : Int) (n : Nat) (f : Int) : Bool :=
  let l := min e f
  decide (m * 2 ^ (e - l).toNat ≤ n * 2 ^ (f - l).toNat)

/-- The signed integer mag × 2^(exp - l) of a finite value, for l at or below its exponent. -/
def sInt (neg : Bool) (m : Nat) (e l : Int) : Int :=
  let v : Int := (m * 2 ^ (e - l).toNat : Nat)
  if neg then -v else v

/-- The finite value v × 2^e; a zero takes the sign given. -/
def numOf (v : Int) (e : Int) (negZero : Bool) : Num :=
  if v = 0 then .fin negZero 0 0 else .fin (decide (v < 0)) v.natAbs e

/-- The exact sum (IEEE 754 for the special cases). -/
def Num.add : Num → Num → Num
  | .nan, _ => .nan
  | _, .nan => .nan
  | .inf a o, .inf b p => if a = b then .inf a (o || p) else .nan
  | .inf a o, _ => .inf a o
  | _, .inf b p => .inf b p
  | .fin a m e, .fin b n f =>
    let l := min e f
    numOf (sInt a m e l + sInt b n f l) l (a && b)

/-- The exact product. -/
def Num.mul : Num → Num → Num
  | .nan, _ => .nan
  | _, .nan => .nan
  | .inf a o, .inf b p => .inf (a != b) (o || p)
  | .inf a o, .fin b n _ => if n = 0 then .nan else .inf (a != b) o
  | .fin a m _, .inf b p => if m = 0 then .nan else .inf (a != b) p
  | .fin a m e, .fin b n f => .fin (a != b) (m * n) (if m * n = 0 then 0 else e + f)

/-- The negated value. -/
def Num.neg : Num → Num
  | .nan => .nan
  | .inf a o => .inf (!a) o
  | .fin a m e => .fin (!a) m e

/-- Whether a value is a zero. -/
def Num.isZero : Num → Bool
  | .fin _ 0 _ => true
  | _ => false

/-- Whether a value is finite. -/
def Num.isFin : Num → Bool
  | .fin _ _ _ => true
  | _ => false

/-- a ≤ b for values that are not NaN, with -0 below +0 (R402). -/
def Num.le : Num → Num → Bool
  | .nan, _ => false
  | _, .nan => false
  | .inf true _, _ => true
  | _, .inf false _ => true
  | .inf false _, _ => false
  | _, .inf true _ => false
  | .fin a m e, .fin b n f =>
    match a, b with
    | true, false => true
    | false, true => false
    | false, false => magLe m e n f
    | true, true => magLe n f m e

/-- A finite value divided by a whole number, with the lost bits kept as a sticky bit: rounding it to any format gives the
exact quotient's rounding (R422). -/
def Num.divNat (d : Nat) : Num → Num
  | .fin a m e =>
    let big := m * 2 ^ 300
    .fin a (big / d * 2 + (if big % d = 0 then 0 else 1)) (e - 301)
  | n => n

/-! ## Formats (R401, R448) -/

/-- Format codes. -/
def fmFp32 : Nat := 1
def fmBf16 : Nat := 2
def fmE4m3 : Nat := 3
def fmE5m2 : Nat := 4
def fmInt32 : Nat := 5
def fmInt8 : Nat := 6
def fmB4 : Nat := 7
def fmB2 : Nat := 8
def fmWps : Nat := 9

/-- Elements per block of a format, 0 for an unknown code (R401). -/
def fmBlock (f : Nat) : Nat := [0, 1, 1, 1, 1, 1, 1, 32, 64, 16].getD f 0

/-- Bytes per block of a format (R401). -/
def fmBytes (f : Nat) : Nat := [0, 4, 2, 1, 1, 4, 1, 17, 17, 128].getD f 0

/-- Bytes of a tensor of `n` elements (R492). -/
def fmSize (f n : Nat) : Nat := n / fmBlock f * fmBytes f

/-- Whether a format is a floating element format. -/
def fmFloat (f : Nat) : Bool := 1 ≤ f && f ≤ 4

/-- Mantissa bits, the exponent of the least subnormal, and the code of the largest finite value of a floating format. -/
def fmParams (f : Nat) : Nat × Int × Nat :=
  if f = 1 then (23, -149, 0x7F7FFFFF) else if f = 2 then (7, -133, 0x7F7F) else if f = 3 then (3, -9, 0x7E) else (2, -16, 0x7B)

/-- The sign bit of a floating format. -/
def fmSign (f : Nat) : Nat := if f = 1 then 31 else if f = 2 then 15 else 7

/-- The canonical NaN of a format (R448, R452). -/
def fmNan (f : Nat) : Nat :=
  if f = 1 then 0x7FC00000 else if f = 2 then 0x7FC0 else if f = 3 then 0x7F else if f = 4 then 0x7E else 0

/-- What an infinity that has come of an overflow bears above its code while it is worked on; no byte holds it (R452). -/
def overMark : Nat := 2 ^ 32

/-- The value of an element code of a format that is not a block format (R448). -/
def decodeElem (f c : Nat) : Num :=
  if f = 5 then let c := c % 2 ^ 32; if c < 2 ^ 31 then .fin false c 0 else .fin true (2 ^ 32 - c) 0
  else if f = 6 then let c := c % 256; if c < 128 then .fin false c 0 else .fin true (256 - c) 0
  else
    let p := fmParams f
    let s := bit c (fmSign f)
    let k := c % 2 ^ fmSign f
    if f = 3 then (if k = 0x7F then .nan else
      if k / 8 = 0 then .fin s (k % 8) p.2.1 else .fin s (8 + k % 8) (p.2.1 + (k / 8 - 1 : Nat)))
    else if p.2.2 < k then (if k = p.2.2 + 1 then .inf s (bit c 32) else .nan)
    else
      let m := 2 ^ p.1
      if k / m = 0 then .fin s (k % m) p.2.1 else .fin s (m + k % m) (p.2.1 + (k / m - 1 : Nat))

/-- The code of a magnitude in a floating format, before the range check. -/
def floatCode (mbits : Nat) (qmin : Int) (mag : Nat) (exp : Int) : Nat :=
  if mag = 0 then 0 else
    let q := max (exp + leadBit mag - mbits) qmin
    (q - qmin).toNat * 2 ^ mbits + rne mag exp q

/-- An encoded element: its code and whether it saturated; it is special when its value is NaN or infinite (R453). -/
structure EncE where
  code : Nat
  sat : Bool
  spec : Bool
  deriving DecidableEq, Repr

/-- Encode a value in a format that is not a block format (R452). -/
def encodeElem (f : Nat) (n : Num) : EncE :=
  if f = 5 ∨ f = 6 then
    let top := if f = 5 then 2 ^ 31 else 128
    let m := 2 * top
    match n with
    | .nan => ⟨0, false, true⟩
    | .inf s _ => ⟨if s then top else top - 1, true, false⟩
    | .fin s mag e =>
      let v := rne mag e 0
      if s then (if top < v then ⟨top, true, false⟩ else ⟨(m - v) % m, false, false⟩)
      else if top - 1 < v then ⟨top - 1, true, false⟩ else ⟨v, false, false⟩
  else
    let p := fmParams f
    let sgn (s : Bool) := if s then 2 ^ fmSign f else 0
    match n with
    | .nan => ⟨fmNan f, false, true⟩
    | .inf s o => if f = 3 then ⟨sgn s + p.2.2, true, false⟩ else ⟨sgn s + p.2.2 + 1 + (if o then overMark else 0), o, true⟩
    | .fin s mag e =>
      let c := floatCode p.1 p.2.1 mag e
      if c ≤ p.2.2 then ⟨sgn s + c, false, false⟩
      else if f = 3 then ⟨sgn s + p.2.2, true, false⟩ else ⟨sgn s + p.2.2 + 1 + overMark, true, true⟩

/-! ## FP32 arithmetic, on codes -/

/-- An FP32 value's code, with the mark of an infinity that has come of an overflow. -/
abbrev F32 := Nat

def dec32 (c : F32) : Num := decodeElem 1 c
def enc32 (n : Num) : F32 := (encodeElem 1 n).code
def fadd (a b : F32) : F32 := enc32 ((dec32 a).add (dec32 b))
def fsub (a b : F32) : F32 := enc32 ((dec32 a).add (dec32 b).neg)
def fmul (a b : F32) : F32 := enc32 ((dec32 a).mul (dec32 b))
def ffma (a b c : F32) : F32 := enc32 (((dec32 a).mul (dec32 b)).add (dec32 c))
def fneg (a : F32) : F32 := enc32 (dec32 a).neg
def f32One : F32 := 0x3F800000
def f32Two : F32 := 0x40000000
def f32Half : F32 := 0x3F000000
def f32NegInf : F32 := 0xFF800000

/-- Whether a value is -∞. -/
def negInf32 (x : F32) : Bool := match dec32 x with | .inf true _ => true | _ => false

/-- A whole number as FP32. -/
def f32OfNat (n : Nat) : F32 := enc32 (.fin false n 0)

/-- The larger of two values, as fmaxf: a NaN gives way to a number. -/
def fmaxf (a b : F32) : F32 :=
  match dec32 a, dec32 b with
  | .nan, _ => b
  | _, .nan => a
  | x, y => if x.le y then b else a

/-! ## Special functions (R444; log 3) -/

/-- The FP32 code of a magnitude cut toward zero, and whether bits were lost. -/
def cut32 (mag : Nat) (exp : Int) (lost : Bool) : Nat × Bool :=
  if mag = 0 then (0, lost) else
    let q := max (exp + leadBit mag - 23) (-149)
    let r := shiftInt mag (exp - q)
    let back := shiftInt r (q - exp)
    let c := (q + 149).toNat * 2 ^ 23 + r
    if 0x7F7FFFFF < c then (0x7F7FFFFF, true) else (c, lost || (decide (exp < q) && back != mag))

/-- A faithfully rounded code: the exact one, or one of the two neighbours, which is a free choice. -/
def faithful (c : Nat × Bool) (choice : Bool) : Nat := if c.2 && choice then c.1 + 1 else c.1

/-- The result for a finite operand that may have run over the range of FP32 (R452). -/
def overflowed (c : Nat) : Nat := if c % 2 ^ 31 = 0x7F800000 then c + overMark else c

/-- Integer square root, bit by bit from bit `n` down. -/
def isqrt (v : Nat) : Nat → Nat → Nat
  | 0, r => r
  | n + 1, r => let t := r + 2 ^ n; isqrt v n (if t * t ≤ v then t else r)

/-- The reciprocal of the special-function unit: faithful for finite operands other than zero. -/
def srcp (x : F32) : F32 :=
  let f := Config.rcp (BitVec.ofNat 32 x)
  match dec32 x with
  | .nan => fmNan 1
  | .fin s m e =>
    if m = 0 then f.toNat else
      overflowed ((if s then 2 ^ 31 else 0) + faithful (cut32 (2 ^ 200 / m) (-200 - e) (2 ^ 200 % m != 0)) (f.toNat % 2 = 1))
  | .inf _ _ => f.toNat

/-- The reciprocal square root: faithful for positive finite operands. -/
def srsqrt (x : F32) : F32 :=
  let f := Config.rsqrt (BitVec.ofNat 32 x)
  match dec32 x with
  | .nan => fmNan 1
  | .fin false m e =>
    if m = 0 then f.toNat else
      let m' := if e % 2 = 0 then m else 2 * m
      let e' := if e % 2 = 0 then e else e - 1
      let r := isqrt (2 ^ 240 / m') 121 0
      faithful (cut32 r (-120 - e' / 2) (r * r * m' != 2 ^ 240)) (f.toNat % 2 = 1)
  | _ => f.toNat

/-- The whole number that a finite value is, if it is one. -/
def Num.whole : Num → Option Int
  | .fin s m e =>
    if m = 0 then some 0
    else if 0 ≤ e then some (if s then -(m * 2 ^ e.toNat : Nat) else (m * 2 ^ e.toNat : Nat))
    else if m % 2 ^ (-e).toNat = 0 then
      some (if s then -(m / 2 ^ (-e).toNat : Nat) else (m / 2 ^ (-e).toNat : Nat))
    else none
  | _ => none

/-- 2^(n / 2^149) for n below 2^149, in units of 2^-200 and cut toward zero: the product of the roots 2^(1/2), 2^(1/4), … that n names. -/
def exp2Frac (n : Nat) : Nat :=
  ((List.range 149).foldl (fun (a : Nat × Nat) i =>
    let r := isqrt (a.1 * 2 ^ 200) 201 0
    (r, if bit n (148 - i) then a.2 * r / 2 ^ 200 else a.2)) (2 ^ 201, 2 ^ 200)).2

/-- The base-2 logarithm of y / 2^256 in [1, 2), in units of 2^-n and cut toward zero, digit by digit. -/
def log2Frac : Nat → Nat → Nat
  | 0, _ => 0
  | n + 1, y =>
    let z := y * y / 2 ^ 256
    if 2 ^ 257 ≤ z then 2 ^ n + log2Frac n (z / 2) else log2Frac n z

/-- 2^x: exact for whole operands, faithful for the other finite ones, +0 for -∞ (R521), else free. Above the range of FP32 it is the largest
finite value or ∞. -/
def sexp2 (x : F32) : F32 :=
  let f := (Config.exp2 (BitVec.ofNat 32 x)).toNat
  match dec32 x with
  | .nan => fmNan 1
  | .inf true _ => 0
  | .inf false _ => f
  | .fin s m e => overflowed <|
    match (Num.fin s m e).whole with
    | some k =>
      if k < -149 then faithful (0, true) (f % 2 = 1)
      else if 127 < k then faithful (0x7F7FFFFF, true) (f % 2 = 1) else enc32 (.fin false 1 k)
    | none =>
      let v : Int := sInt s m e (-149)
      let k := v.fdiv (2 ^ 149)
      if k < -150 then faithful (0, true) (f % 2 = 1)
      else if 127 < k then faithful (0x7F7FFFFF, true) (f % 2 = 1)
      else faithful (cut32 (exp2Frac (v.fmod (2 ^ 149)).toNat) (k - 200) true) (f % 2 = 1)

/-- log2: exact for powers of two, faithful for the other positive finite operands, else free. -/
def slog2 (x : F32) : F32 :=
  let f := (Config.log2 (BitVec.ofNat 32 x)).toNat
  match dec32 x with
  | .nan => fmNan 1
  | .fin false m e =>
    if m = 0 then f else
      let l := leadBit m
      let k : Int := e + l
      if m = 2 ^ l then enc32 (numOf k 0 false)
      else
        let v : Int := k * 2 ^ 100 + log2Frac 100 (m * 2 ^ 256 / 2 ^ l)
        if 0 ≤ v then faithful (cut32 v.toNat (-100) true) (f % 2 = 1)
        else 2 ^ 31 + faithful (cut32 (-v - 1).toNat (-100) true) (f % 2 = 1)
  | _ => f

/-- e(x) of R496. -/
def fexp (x : F32) : F32 := sexp2 (fmul x 0x3FB8AA3B)

/-- The lanes of `fixed_sum` after adding the values in ascending order. -/
def laneAdd (n : Nat) : Nat → List F32 → List F32 → List F32
  | _, [], lanes => lanes
  | i, x :: xs, lanes => laneAdd n (i + 1) xs (lanes.modify (i % n) fun a => fadd a x)

/-- Halve the lanes: each new lane is the sum of two neighbours. -/
def pairSum : List F32 → List F32
  | a :: b :: xs => fadd a b :: pairSum xs
  | xs => xs

/-- `fixed_sum` (R496). -/
def fixedSum (xs : List F32) : F32 :=
  let lanes := laneAdd 512 0 xs (List.replicate 512 0)
  ((List.range 9).foldl (fun l _ => pairSum l) lanes).headD 0

/-! ## Block formats (R449 to R451) -/

/-- The magnitudes of the E2M1 codes, in halves. -/
def e2m1 : List Nat := [0, 1, 2, 3, 4, 6, 8, 12]

/-- The values of a B4 block. -/
def decodeB4 (b : Bytes) : List Num :=
  let s := leAt b 0 1
  (List.range 32).map fun i =>
    let c := bits (leAt b (1 + i / 2) 1) (4 * (i % 2) + 3) (4 * (i % 2))
    if s = 0xFF then .nan else .fin (bit c 3) (e2m1.getD (c % 8) 0) ((s : Int) - 128)

/-- The values of a B2 block. -/
def decodeB2 (b : Bytes) : List Num :=
  let s := leAt b 0 1
  (List.range 64).map fun i =>
    let c := bits (leAt b (1 + i / 4) 1) (2 * (i % 4) + 1) (2 * (i % 4))
    if s = 0xFF then .nan else if s = 0 then .zero
    else .fin (decide (c < 2)) (if c = 0 ∨ c = 3 then 3 else 1) ((s : Int) - 127)

/-- Whether |v| > k × 2^x. -/
def magAbove (k : Nat) (x : Int) : Num → Bool
  | .fin _ m e => !magLe m e k x
  | .inf _ _ => true
  | .nan => false

/-- The code of a NaN at a supplied scale, which the spec does not state (R502; log 97). -/
def codeNan (x : Int) : Nat := (Config.nanCode x).toNat

/-- The E2M1 code of a value over 2^x, to nearest (R451). -/
def codeB4 (x : Int) : Num → Nat
  | .fin s m e => b2n s * 8 + min 7 (floatCode 1 (-1) m (e - x))
  | .inf s _ => b2n s * 8 + 7
  | .nan => codeNan x

/-- The B2 code of a value over 2^x (R451): the nearest of -3, -1, +1, +3, a tie to the greater code. -/
def codeB2 (x : Int) : Num → Nat
  | .fin s m e =>
    if m = 0 then 2
    else if s then (if !magLe m e 1 (x + 1) then 0 else 1)
    else if magLe 1 (x + 1) m e then 3 else 2
  | .inf s _ => if s then 0 else 3
  | .nan => codeNan x % 4

/-- Pack codes of `w` bits, 8 / w to a byte, lowest first. -/
def packCodes (w : Nat) (cs : List Nat) : Bytes :=
  (List.range (cs.length * w / 8)).map fun i =>
    BitVec.ofNat 8 (((cs.drop (i * (8 / w))).take (8 / w)).foldr (fun c a => c + a * 2 ^ w) 0)

/-- An encoded run of elements: its bytes, how many elements saturated, and whether one is special. -/
structure Enc where
  bytes : Bytes
  sat : Nat
  spec : Bool
  deriving DecidableEq, Repr

/-- Encoded runs one after the other. -/
def Enc.append (a b : Enc) : Enc := ⟨a.bytes ++ b.bytes, a.sat + b.sat, a.spec || b.spec⟩

/-- The value of largest magnitude among finite ones. -/
def amax (vs : List Num) : Num :=
  vs.foldl (fun a v => match a, v with
    | .fin _ m e, .fin _ n f => if magLe m e n f then .fin false n f else a
    | a, _ => a) .zero

/-- The scale exponent of R451 before its range, for an amax that is not zero. -/
def scaleExp (f : Nat) : Num → Int
  | .fin _ m e =>
    let l : Int := e + leadBit m
    if f = 7 then l - 2
    else if magLe m e 3 (l - 2) then l - 2 else if magLe m e 3 (l - 1) then l - 1 else l
  | _ => 0

/-- A NaN block. -/
def nanBlock : Enc := ⟨0xFF :: zeros 16, 0, true⟩

/-- A block of elements at a scale exponent; `flag` says whether a magnitude above the grid's raises SATURATED. -/
def blockAt (f : Nat) (x : Int) (flag : Bool) (vs : List Num) : Enc :=
  let codes := vs.map (if f = 7 then codeB4 x else codeB2 x)
  let tooBig := (vs.filter (magAbove (if f = 7 then 6 else 3) x)).length
  ⟨BitVec.ofNat 8 (x + 127).toNat :: packCodes (if f = 7 then 4 else 2) codes, if flag then tooBig else 0, false⟩

/-- A block whose scale exponent lies above its range: 127 is taken, and SATURATED is raised, for at least one element (log 97). -/
def Enc.topped (e : Enc) : Enc := { e with sat := max 1 e.sat }

/-- Encode a block under R451, with `adjust` added to its scale exponent (R505). -/
def encodeBlock (f : Nat) (adjust : Int) (vs : List Num) : Enc :=
  if vs.any fun v => !v.isFin then nanBlock else
    let a := amax vs
    if a.isZero then
      (if f = 7 then ⟨0 :: packCodes 4 (vs.map (codeB4 0)), 0, false⟩ else ⟨zeros 17, 0, false⟩)
    else
      let x := scaleExp f a + adjust
      let lo : Int := if f = 7 then -127 else -126
      if 127 < x then (blockAt f 127 true vs).topped
      else blockAt f (max x lo) (decide (adjust < 0)) vs

/-- Encode a block at a supplied scale byte, whatever its elements are (R502). -/
def encodeBlockAt (f s : Nat) (vs : List Num) : Enc :=
  if s = 0xFF then nanBlock
  else if s = 0 ∧ f = 8 then ⟨zeros 17, 0, false⟩
  else blockAt f ((s : Int) - 127) true vs

/-- Split a list into runs of `n`. -/
def groupsOf {α : Type} (n : Nat) : Nat → List α → List (List α)
  | 0, _ => []
  | fuel + 1, l => if l.isEmpty ∨ n = 0 then [] else l.take n :: groupsOf n fuel (l.drop n)

/-- Decode `n` elements of a format other than WPS (R448 to R450). -/
def decodeAll (f n : Nat) (b : Bytes) : List Num :=
  if f = 7 then ((List.range (n / 32)).flatMap fun i => decodeB4 (slice b (17 * i) 17))
  else if f = 8 then ((List.range (n / 64)).flatMap fun i => decodeB2 (slice b (17 * i) 17))
  else (List.range n).map fun i => decodeElem f (leAt b (i * fmBytes f) (fmBytes f))

/-- Encode elements in a format other than WPS (R451, R452). -/
def encodeAll (f : Nat) (vs : List Num) : Enc :=
  if f = 7 ∨ f = 8 then
    ((groupsOf (fmBlock f) (vs.length + 1) vs).map (encodeBlock f 0)).foldl Enc.append ⟨[], 0, false⟩
  else
    let es := vs.map (encodeElem f)
    ⟨es.flatMap fun e => leBytes (fmBytes f) e.code, (es.filter (·.sat)).length, es.any (·.spec)⟩

/-- The values of elements after their encoding in a format other than WPS. -/
def reencode (f : Nat) (vs : List Num) : List Num :=
  if f = 7 ∨ f = 8 then decodeAll f vs.length (encodeAll f vs).bytes else vs.map fun v => decodeElem f (encodeElem f v).code

/-- Encode elements of which some have saturated before: those that saturate in either way are counted once (R453). -/
def encodeMarked (f : Nat) (vs : List (Num × Bool)) : Enc :=
  let e := encodeAll f (vs.map (·.1))
  { e with sat := if f = 7 ∨ f = 8 then e.sat + (vs.filter (·.2)).length else (vs.filter fun v => v.2 || (encodeElem f v.1).sat).length }

/-- Encode FP32 values. -/
def encode32 (f : Nat) (xs : List F32) : Enc := encodeAll f (xs.map dec32)

/-- A value as FP32 (R452). -/
def Num.f32 (n : Num) : F32 := enc32 n

end Sys2Proof.Machine
end

