-- ==== Sys2Proof/Machine/Tree.lean ====
section
/-!
DEFINITION. The tree (R424 to R429, R794): member sets, combiners, the ridge counter, the upward count, and the relay of the
downward packets.
-/

namespace Sys2Proof.Machine

/-- Whether a kind's upward phase carries acknowledgements (R428). -/
def tkAcks (kind : Nat) : Bool := 3 ≤ kind && kind ≤ 7

/-- The traffic class of the packets of R429. -/
def State.treeClass (s : State) : Nat := s.comF .COL_TREE_CFG 2 0

/-! ## Member sets -/

/-- The members of a tree operation as this module knows them: a group's list, or a job domain's members (R428). -/
def State.treeMembers (s : State) (kind tree partition : Nat) : List Nat :=
  if tkAcks kind then ((s.domain partition).map (·.members)).getD []
  else ((SMap.find s.col.groups tree).map (·.list)).getD []

/-- The members of an operation that have not left it (R425, R794). -/
def State.treeAlive (s : State) (t : TreeOp) : List Nat :=
  let lost := ((s.domain t.partition).map (·.lost)).getD []
  t.members.filter fun m => !lost.contains m && !t.gone.contains m

/-- The rack of a module (R424). -/
def rackOf (m : Nat) : Nat := m / 16

/-- The ring distance of two coordinates of dimension `d`. -/
def State.ringDist (s : State) (d a b : Nat) : Nat :=
  let n := s.ring d
  let p := (b + n - a % n) % n
  min p (n - p)

/-- The combiner of a rack among `alive`: the member nearest in X to the root, the lower number on a tie (R424). -/
def State.combinerOf (s : State) (alive : List Nat) (root rack : Nat) : Option Nat :=
  let dist (m : Nat) := s.ringDist 0 (coord m 0) (coord root 0)
  (alive.filter fun m => rackOf m == rack).foldl (fun (b : Option Nat) m =>
    match b with
    | none => some m
    | some x => if dist m < dist x ∨ (dist m = dist x ∧ m < x) then some m else b) none

/-- The combiner of a rack for an operation, taken over the members that remain (R424, R425). -/
def State.combiner (s : State) (t : TreeOp) (rack : Nat) : Option Nat := s.combinerOf (s.treeAlive t) t.root rack

/-! ## Operations on this module -/

/-- Whether an operation has an identity. -/
def TreeOp.is (t : TreeOp) (kind root tree seq : Nat) : Bool :=
  t.kind == kind && t.root == root && t.tree == tree && t.seq == seq

/-- A tree operation, if this module knows it. -/
def State.treeOp (s : State) (kind root tree seq : Nat) : Option TreeOp := s.col.ops.find? fun t => t.is kind root tree seq

/-- Replace a tree operation. Of the operations of one kind, root and tree only the newest two are kept (R430). -/
def State.setTree (s : State) (t : TreeOp) : State :=
  let rest := s.col.ops.filter fun u => !(u.is t.kind t.root t.tree t.seq) &&
    !(u.kind == t.kind && u.root == t.root && u.tree == t.tree && seqNewer t.seq (u.seq + 1))
  { s with col := { s.col with ops := rest ++ [t] } }

/-- A tree operation that this module has not met before. -/
def State.newTree (s : State) (kind root tree seq partition : Nat) : TreeOp :=
  ⟨kind, root, tree, seq, partition, s.treeMembers kind tree partition, [], [], [], [], [], [], false, false, false, false⟩

/-- A tree operation, taken up when it is met for the first time. -/
def State.getTree (s : State) (kind root tree seq partition : Nat) : TreeOp :=
  (s.treeOp kind root tree seq).getD (s.newTree kind root tree seq partition)

/-- Hand something to the owner of a kind. -/
def State.treeTell (s : State) (e : TreeEv) : State := { s with col := { s.col with todo := s.col.todo ++ [e] } }

/-! ## The upward phase (R424, R425) -/

/-- A list of modules in a field of a tree packet: their number, then three bytes each, up to `n` (log 26). -/
def lostField (n : Nat) (ms : List Nat) : Bytes :=
  let ms := ms.take n
  slice (beBytes 1 ms.length ++ ms.flatMap (beBytes 3)) 0 (1 + 3 * n)

/-- The modules in such a field at byte `i`. -/
def readLost (p : Bytes) (i : Nat) : List Nat :=
  (List.range (beNat (slice p i 1))).map fun k => beNat (slice p (i + 1 + 3 * k) 3) % 2 ^ 17

/-- The payload of a TREE_UP (R426). The members found lost and the root stand in bytes 24 to 57 and 60 to 62 (log 26). -/
def upPayload (t : TreeOp) (count : Nat) : Bytes :=
  slice (beBytes 1 t.kind ++ zeros 3 ++ beBytes 4 t.tree ++ beBytes 4 t.seq ++ beBytes 4 count ++ zeros 8 ++ lostField 11 t.lost ++
    zeros 2 ++ beBytes 3 t.root) 0 64

/-- Send a TREE_UP. -/
def State.sendUp (s : State) (t : TreeOp) (dst count : Nat) : State :=
  s.control (.tree t.kind t.root t.tree t.seq) 0x12 dst s.treeClass t.partition (upPayload t count)

/-- The root judges its ridge count: the combine is complete when every rack that still holds members has been counted (R424). -/
def State.ridge (s : State) (t : TreeOp) : State :=
  let racks := ((s.treeAlive t).map rackOf).eraseDups
  if t.root = s.me ∧ !t.finished ∧ (tkAcks t.kind = t.down ∨ !tkAcks t.kind) ∧ racks.all (t.racks.contains ·) ∧
      t.extra.all (fun m => t.counted.contains m || t.gone.contains m || (((s.domain t.partition).map (·.lost)).getD []).contains m) then
    (s.setTree { t with finished := true }).treeTell (.done t.kind t.tree t.seq t.partition t.payload t.lost)
  else s.setTree t

/-- A rack's message reaches the ridge counter (R424). -/
def State.rackUp (s : State) (t : TreeOp) (rack : Nat) (lost : List Nat) : State :=
  s.ridge { t with racks := (t.racks ++ [rack]).eraseDups, lost := (t.lost ++ lost).eraseDups }

/-- The combiner judges its rack's count (R424). -/
def State.combine (s : State) (t : TreeOp) : State :=
  let rack := rackOf s.me
  let mates := (s.treeAlive t).filter fun m => rackOf m == rack
  if s.combiner t rack = some s.me ∧ !t.passedUp ∧ mates.all (t.counted.contains ·) then
    let t := { t with passedUp := true }
    if t.root = s.me then s.rackUp t rack [] else (s.setTree t).sendUp t t.root mates.length
  else s.ridge t

/-- Count a member's TREE_UP. -/
def State.countUp (s : State) (t : TreeOp) (m : Nat) : State := s.combine { t with counted := (t.counted ++ [m]).eraseDups }

/-- Where this module's own TREE_UP goes: to its combiner, or to the root when it is no member (R76, R424). -/
def State.upTo (s : State) (t : TreeOp) : Nat := if t.members.contains s.me then (s.combiner t (rackOf s.me)).getD t.root else t.root

/-- Send this module's own TREE_UP. -/
def State.ownUp (s : State) (t : TreeOp) : State :=
  let t := { t with sentUp := true }
  if s.upTo t = s.me then s.countUp t s.me else (s.setTree t).sendUp t (s.upTo t) 1

/-- Send it again; a packet that goes out is counted (R425). -/
def State.ownUpAgain (s : State) (t : TreeOp) : State :=
  (if s.upTo t = s.me then s else s.count .COL_TREE_RETRY_COUNT).ownUp t

/-- A member without its TREE_DOWN sends its TREE_UP again, and a combiner that has passed its rack's count on sends that (R425). -/
def State.treeAgain (s : State) (t : TreeOp) : State :=
  if t.passedUp ∧ t.root ≠ s.me then
    (s.count .COL_TREE_RETRY_COUNT).sendUp t t.root ((s.treeAlive t).filter fun m => rackOf m == rackOf s.me).length
  else s.ownUpAgain t

/-- This module arrives at, or acknowledges, a tree operation. -/
def State.treeArrive (s : State) (kind root tree seq partition : Nat) : State :=
  let t := s.getTree kind root tree seq partition
  if t.sentUp then s else s.ownUp t

/-! ## The downward phase (R424, R425) -/

/-- The box of a member set: per dimension the first coordinate and the count of the smallest cyclic interval that covers it. A
whole ring of n begins so that the + copy covers the next ⌊n/2⌋ coordinates (R424; log 27). -/
def State.boxOf (s : State) (root : Nat) (ms : List Nat) : List (Nat × Nat) :=
  (List.range 4).map fun d =>
    let n := s.ring d
    let cs := ((root :: ms).map (coord · d)).eraseDups
    let span (c : Nat) := cs.foldl (fun b x => max b ((x + n - c % n) % n)) 0 + 1
    let best := (List.range n).foldl (fun (b : Nat × Nat) c => if cs.contains c ∧ span c < b.2 then (c, span c) else b)
      (0, n + 1)
    if n ≤ best.2 then ((coord root d + n - (n + 1) / 2 + 1) % n, n) else best

/-- The box's bytes (R426). -/
def boxBytes (b : List (Nat × Nat)) : Bytes := slice (b.flatMap fun x => beBytes 1 x.1 ++ beBytes 1 x.2) 0 8

/-- The box in a payload. -/
def readBox (p : Bytes) : List (Nat × Nat) := (List.range 4).map fun d => (beNat (slice p (16 + 2 * d) 1), beNat (slice p (17 + 2 * d) 1))

/-- A module number with coordinate `d` replaced. -/
def withCoord (m d c : Nat) : Nat :=
  if d = 0 then setBits m 3 0 c else if d = 1 then setBits m 7 4 c else if d = 2 then setBits m 11 8 c else setBits m 16 12 c

/-- The next module of the box in a direction of dimension `d`, if the copy goes on (R424). -/
def State.onward (s : State) (box : List (Nat × Nat)) (d : Nat) (plus : Bool) : Option Nat :=
  let n := s.ring d
  let b := box.getD d (0, 1)
  let at_ := (coord s.me d + n - b.1 % n) % n
  if plus then if at_ + 1 < b.2 then some (withCoord s.me d ((coord s.me d + 1) % n)) else none
  else if 0 < at_ ∧ at_ < b.2 then some (withCoord s.me d ((coord s.me d + n - 1) % n)) else none

/-- The copies that go from this module: onward in the direction of arrival, and both ways in every later dimension (R424). -/
def State.copies (s : State) (box : List (Nat × Nat)) (from_ : Option (Nat × Bool)) : List Nat :=
  let first := match from_ with
    | none => 0
    | some (d, _) => d + 1
  let on := match from_ with
    | none => []
    | some (d, plus) => (s.onward box d plus).toList
  on ++ ((List.range 4).filter (first ≤ ·)).flatMap fun d => (s.onward box d true).toList ++ (s.onward box d false).toList

/-- The dimension and direction in which a packet of a neighbour arrived; none when it comes from no neighbour. -/
def State.arrivedIn (s : State) (src : Nat) : Option (Nat × Bool) :=
  match (List.range 4).filter fun d => coord src d != coord s.me d with
  | [d] =>
    let n := s.ring d
    if (coord src d + 1) % n = coord s.me d then some (d, true)
    else if (coord s.me d + 1) % n = coord src d then some (d, false) else none
  | _ => none

/-- Send a TREE_DOWN payload to a list of modules. -/
def State.sendDown (s : State) (cls partition : Nat) (payload : Bytes) (ms : List Nat) : State :=
  ms.foldl (fun s m => s.control .control 0x13 m cls partition payload) s

/-- The payload of a TREE_DOWN (R426): `more` are the kind's own fields from byte 24. The root stands in bytes 60 to 62 where the
kind's own fields do not name it (log 26). -/
def downPayload (kind tree seq root : Nat) (box : List (Nat × Nat)) (more : Bytes) : Bytes :=
  slice (beBytes 1 kind ++ zeros 3 ++ beBytes 4 tree ++ beBytes 4 seq ++ zeros 4 ++ boxBytes box ++ slice more 0 36 ++
    (if kind = tkShootDown then [] else beBytes 3 root)) 0 64

/-- The root that a TREE_DOWN names: the raiser of a job fault, the home of a shoot-down, else bytes 60 to 62. -/
def downRoot (p : Bytes) : Nat :=
  let kind := beNat (slice p 0 1)
  (if kind = tkJobFault then beNat (slice p 25 3) else if kind = tkShootDown then beNat (slice p 32 3) else beNat (slice p 60 3)) % 2 ^ 17

/-- The box that holds one module. -/
def boxOne (m : Nat) : List (Nat × Nat) := (List.range 4).map fun d => (coord m d, 1)

/-- The same payload for one receiver alone. -/
def unicast (m : Nat) (p : Bytes) : Bytes := overlay p 16 (boxBytes (boxOne m))

/-- Send a notice or a release down the tree from this module, and deliver it to this module (R424). -/
def State.treeDown (s : State) (t : TreeOp) (cls : Nat) (more : Bytes) : State :=
  let box := s.boxOf s.me (s.treeAlive t)
  let p := downPayload t.kind t.tree t.seq t.root box more
  let s := s.setTree { t with payload := p, down := true }
  let s := s.sendDown cls t.partition p (s.copies box none)
  let s := (t.extra.filter (· != s.me)).foldl (fun s m => s.sendDown cls t.partition (unicast m p) [m]) s
  s.treeTell (.notice t.kind t.root t.tree t.seq p t.partition)

/-- Root a tree operation whose downward phase comes first (R428). -/
def State.treeStart (s : State) (kind tree seq partition : Nat) (extra : List Nat) (more : Bytes) : State :=
  s.treeDown { s.newTree kind s.me tree seq partition with extra } s.treeClass more

/-- Whether this module is a member to which a TREE_DOWN is delivered; a notice sent to it alone is. -/
def State.treeMember (s : State) (kind tree partition : Nat) (payload : Bytes) : Bool :=
  (s.treeMembers kind tree partition).contains s.me || (tkAcks kind && readBox payload == boxOne s.me)

/-- A TREE_DOWN has arrived: it is relayed, and delivered when this module is a member (R424, R425). -/
def State.treeDownIn (s : State) (p : Pkt) : State :=
  let pl := p.payload
  let kind := beNat (slice pl 0 1)
  let tree := beNat (slice pl 4 4)
  let seq := beNat (slice pl 8 4)
  let cls := if kind = tkAbort then p.tc else s.treeClass
  let s := s.sendDown cls p.partition pl (s.copies (readBox pl) (some ((s.arrivedIn p.src).getD (3, true))))
  if !s.treeMember kind tree p.partition pl then s else
    let root := downRoot pl
    let t := s.getTree kind root tree seq p.partition
    let s := s.setTree { t with payload := pl, down := true }
    s.treeTell (.notice kind root tree seq pl p.partition)

/-- A TREE_UP has arrived (R424, R425). -/
def State.treeUpIn (s : State) (p : Pkt) : State :=
  let pl := p.payload
  let kind := beNat (slice pl 0 1)
  let tree := beNat (slice pl 4 4)
  let seq := beNat (slice pl 8 4)
  let root := beNat (slice pl 60 3) % 2 ^ 17
  let t := s.getTree kind root tree seq p.partition
  if t.down && !tkAcks kind then s.sendDown s.treeClass p.partition (unicast p.src t.payload) [p.src]
  else if t.finished then s
  else if root = s.me ∧ t.members.contains p.src ∧ rackOf p.src ≠ rackOf s.me then s.rackUp t (rackOf p.src) (readLost pl 24)
  else if root = s.me ∧ !t.passedUp ∧ t.members.contains p.src ∧ s.combiner t (rackOf s.me) = some p.src then
    s.rackUp t (rackOf p.src) (readLost pl 24)
  else s.countUp t p.src

/-- A member has left: counts are judged again, and a TREE_UP whose combiner it was is sent to the new one (R425). -/
def State.treeLeft (s : State) (partition m : Nat) : State :=
  s.col.ops.foldl (fun s u =>
    match s.treeOp u.kind u.root u.tree u.seq with
    | none => s
    | some t =>
      if t.partition ≠ partition ∨ !t.members.contains m then s else
        let s := s.combine t
        let t := (s.treeOp u.kind u.root u.tree u.seq).getD t
        if t.sentUp && (tkAcks t.kind || !t.down) && t.members.contains s.me && rackOf m == rackOf s.me &&
            s.combinerOf (m :: s.treeAlive t) t.root (rackOf s.me) == some m then s.ownUpAgain t
        else s) s

/-- A TREE_UP to `dst` ended at the retry limit, or `dst` shows a newer epoch than when it was sent: as a combiner it has left for this
operation (R425). -/
def State.treeUpLost (s : State) (kind root tree seq dst : Nat) : State :=
  match s.treeOp kind root tree seq with
  | none => s
  | some t =>
    if s.combiner t (rackOf s.me) ≠ some dst ∨ dst = s.me ∨ t.passedUp then s else s.ownUpAgain { t with gone := t.gone ++ [dst] }

/-- The operations whose TREE_UP from here has gone to `m` as the combiner of this rack, and that are not over here (R425). -/
def State.upsTo (s : State) (m : Nat) : List TreeOp :=
  s.col.ops.filter fun t => t.sentUp && (tkAcks t.kind || !t.down) && t.members.contains s.me && s.combiner t (rackOf s.me) == some m

/-- Mark a member LOST (R794). -/
def State.markLost (s : State) (partition m : Nat) : State :=
  match s.domain partition with
  | none => s
  | some d =>
    if d.lost.contains m then s else
      let s := { s with jobs := { s.jobs with domains := SMap.put s.jobs.domains partition { d with lost := d.lost ++ [m] } } }
      s.treeLeft partition m

/-- A member has not acknowledged in time (R794): its combiner, or the root for a combiner, marks it LOST. A module of the scope that no
member set holds counts as having acknowledged this operation (R82). -/
def State.ackTimeout (s : State) (kind root tree seq m : Nat) : State :=
  match s.treeOp kind root tree seq with
  | none => s
  | some t =>
    let mine := rackOf m == rackOf s.me && s.combiner t (rackOf s.me) == some s.me && !t.counted.contains m
    let rack := root == s.me && s.combiner t (rackOf m) == some m && !t.racks.contains (rackOf m)
    let other := root == s.me && t.extra.contains m && !t.counted.contains m
    if tkAcks kind && t.down && !t.finished && m != s.me && (s.treeAlive t ++ t.extra).contains m && (mine || rack || other) then
      if other then s.ridge { t with gone := t.gone ++ [m] } else (s.setTree { t with lost := t.lost ++ [m] }).markLost t.partition m
    else s

/-- Forget the tree operations of a group (R398). -/
def State.dropGroupTrees (s : State) (g : Nat) : State :=
  { s with col := { s.col with ops := s.col.ops.filter fun t => tkAcks t.kind || t.tree != g } }

end Sys2Proof.Machine
end

