-- ==== Sys2Proof/Machine/Groups.lean ====
section
/-!
DEFINITION. Groups (R395 to R398, R408, R415): their definition on every member, their release, and their policy.
-/

namespace Sys2Proof.Machine

/-- A group, if it is defined or being defined here. -/
def State.group (s : State) (g : Nat) : Option Group := SMap.find s.col.groups g

/-- Replace a group. -/
def State.setGroup (s : State) (g : Nat) (x : Group) : State := { s with col := { s.col with groups := SMap.put s.col.groups g x } }

/-- A group that is defined on this module, not one that still waits for its members. -/
def State.definedGroup (s : State) (g : Nat) : Option Group :=
  match s.group g with
  | some x => if x.waiting.isSome then none else some x
  | none => none

/-- The coordinates that a list of modules uses in dimension `d`, in ascending order. -/
def coordsOf (ms : List Nat) (d : Nat) : List Nat := (List.range 32).filter fun c => ms.any fun m => coord m d == c

/-- Whether a list rises strictly. -/
def rises : List Nat → Bool
  | a :: b :: l => decide (a < b) && rises (b :: l)
  | _ => true

/-- Whether a group is a box (R397): ranks in ascending module number, and the product of the coordinate sets it uses. -/
def isBox (ms : List Nat) : Bool :=
  rises ms && ms.length == ((List.range 4).map fun d => (coordsOf ms d).length).foldl (· * ·) 1

/-- The CRC-32 of a partition, a count and a list (R396, R789). -/
def listCrc (partition : Nat) (ms : List Nat) : Nat :=
  crc32 (beBytes 2 partition ++ beBytes 4 ms.length ++ ms.flatMap (beBytes 4))

/-- The module numbers of a LIST in memory (R227). -/
def listOf (b : Bytes) (n : Nat) : List Nat := (List.range n).map fun i => leAt b (4 * i) 4 % 2 ^ 17

/-- Send this module's GROUP_SETUP to the group's root, or count it when this module is the root (R396, R426; log 29). -/
def State.sendSetup (s : State) (g : Nat) (x : Group) : State :=
  let root := x.list.headD s.me
  let crc := listCrc x.partition x.list
  if root = s.me then { s with col := { s.col with setups := s.col.setups ++ [(g, s.me, crc)] } }
  else s.control .control 0x11 root s.treeClass x.partition
    (slice (beBytes 1 g ++ zeros 3 ++ beBytes 4 crc ++ beBytes 4 x.list.length) 0 64)

/-- The root judges the GROUP_SETUPs of a group that it is defining: once every member's has arrived, the release with the
outcome goes down the tree, and alone to any module that sent one without being on the list (R395, R396). -/
def State.setupCheck (s : State) (g : Nat) : State :=
  match s.group g with
  | none => s
  | some x =>
    let got := s.col.setups.filter fun e => e.1 == g
    let t := s.getTree tkGroupDefine s.me g 0 x.partition
    if x.waiting.isNone ∨ x.rank ≠ 0 ∨ t.down ∨ !((s.treeAlive t).all fun m => got.any fun e => e.2.1 == m) then s else
      let crc := listCrc x.partition x.list
      let more := [if got.all fun e => e.2.2 == crc then 0 else (0x81 : Byte)]
      let s := { s with col := { s.col with setups := s.col.setups.filter fun e => e.1 != g } }
      let strangers := (got.map (·.2.1)).filter fun m => !x.list.contains m
      s.treeDown { t with extra := strangers } s.treeClass more

/-- A GROUP_SETUP has arrived. A group whose release has gone down answers with it (R425). -/
def State.setupIn (s : State) (p : Pkt) : State :=
  let g := beNat (slice p.payload 0 1)
  let crc := beNat (slice p.payload 4 4)
  match s.definedGroup g, s.treeOp tkGroupDefine s.me g 0 with
  | some x, some t =>
    if t.down && crc == listCrc x.partition x.list && x.list.contains p.src then
      s.sendDown s.treeClass p.partition (unicast p.src t.payload) [p.src]
    else { s with col := { s.col with setups := s.col.setups ++ [(g, p.src, crc)] } }
  | _, _ =>
    let rest := s.col.setups.filter fun e => !(e.1 == g && e.2.1 == p.src)
    { s with col := { s.col with setups := rest ++ [(g, p.src, crc)] } }.setupCheck g

/-- Remove a group with its tree operations and its barrier (R398, R581). -/
def State.dropGroup (s : State) (g : Nat) : State :=
  let s := s.dropGroupTrees g
  { s with
    col := { s.col with groups := SMap.del s.col.groups g, setups := s.col.setups.filter fun e => !(e.1 == g && e.2.1 == s.me) }
    syn := { s.syn with bars := SMap.del s.syn.bars g } }

/-- The release of a group definition has arrived (R395, R396). -/
def State.groupDefined (s : State) (g status : Nat) : State :=
  match s.group g with
  | none => s
  | some x =>
    match x.waiting with
    | none => s
    | some (p, k) =>
      if status = 0 then (s.setGroup g { x with waiting := none }).reply p k stSuccess 0 []
      else (s.dropGroup g).reply p k status 0 []

/-- DEFINE_GROUP's own part once its list has been read (R395 to R397). -/
def State.defineGroup (s : State) (p k g partition : Nat) (c : Cmd) (ms : List Nat) : AdmRes :=
  let member := fun m => match s.domain partition with
    | some d => d.ready && d.members.contains m
    | none => false
  if ms.eraseDups.length ≠ ms.length ∨ !ms.all (fun m => s.inTorus m && member m) then .fail 0x81 s
  else if !ms.contains s.me then .fail 0x82 s
  else
    let x : Group := ⟨partition, ms, ms.findIdx (· == s.me), isBox ms, 65536, 16, 0, some (p, k), none, [], []⟩
    let s := (s.dropGroupTrees g).setCmd p k { c with stage := 1 }
    let s := ((s.setGroup g x).sendSetup g x).setupCheck g
    .wait { c with stage := 1 } s

/-- Whether something of a group is in progress on this module (R398). -/
def State.groupBusy (s : State) (g : Nat) (x : Group) : Bool :=
  x.coll.isSome || (match s.bar g with | some b => !b.waits.isEmpty | none => false) ||
    s.col.ops.any fun t => t.tree == g && t.kind == tkBarrier && !t.down && (t.sentUp || t.counted != [] || t.racks != [])

end Sys2Proof.Machine
end

