-- ==== Sys2Proof/Machine/Schedule.lean ====
section
/-!
DEFINITION. The algorithms of collectives as lists of steps of one rank (R408 to R413): recursive doubling, bucket rings, the
tree broadcast and the direct exchange.
-/

namespace Sys2Proof.Machine

/-! ## Codes (R400, R402) -/

def coAllReduce : Nat := 1
def coReduce : Nat := 2
def coReduceScatter : Nat := 3
def coAllGather : Nat := 4
def coBroadcast : Nat := 5
def coAllToAll : Nat := 6

/-- Whether an operation reduces (R401). -/
def reducing (oper : Nat) : Bool := 1 ≤ oper && oper ≤ 3

/-- The elements of a unit, the grain in which data are cut: whole sets of 16 elements and whole blocks of TYPE (R410, R411; log
30). -/
def unitOf (typ : Nat) : Nat := max 16 (fmBlock typ)

/-- The units of COUNT elements. -/
def unitsOf (typ count : Nat) : Nat := (count + unitOf typ - 1) / unitOf typ

/-! ## Geometry (R397, R409) -/

/-- The lines of a group: per dimension in use its number and its length, in X, Y, Z, W order. A flat group is one line of its
ranks. -/
def Group.lines (x : Group) : List (Nat × Nat) :=
  if x.box then ((List.range 4).map fun d => (d, (coordsOf x.list d).length)).filter fun e => decide (1 < e.2)
  else [(0, x.list.length)]

/-- The distance in ranks between neighbours of line `i`. -/
def strideOf (lines : List (Nat × Nat)) (i : Nat) : Nat := (lines.take i).foldl (fun a e => a * e.2) 1

/-- The position of a rank in line `i`. -/
def posOf (lines : List (Nat × Nat)) (r i : Nat) : Nat := r / strideOf lines i % (lines.getD i (0, 1)).2

/-- The rank at position `c` of the line `i` through rank `r`. -/
def atPos (lines : List (Nat × Nat)) (r i c : Nat) : Nat := r - posOf lines r i * strideOf lines i + c * strideOf lines i

/-! ## Shares -/

/-- A part of a collective's elements: units `lo` to `hi - 1` of every block whose positions in the fixed lines are these.
Operations without blocks have block 0 alone. -/
structure Share where
  lo : Nat
  hi : Nat
  fixed : List (Nat × Nat)

/-- The pieces of a share. -/
def Share.pieces (lines : List (Nat × Nat)) (blocks ranks : Nat) (sh : Share) : List UPiece :=
  if blocks = 1 then [⟨0, sh.lo, sh.hi⟩]
  else ((List.range ranks).filter fun b => sh.fixed.all fun f => posOf lines b f.1 == f.2).map fun b => ⟨b, sh.lo, sh.hi⟩

/-- Chunk `c` of a share in a line of `k`: by blocks, or by cutting its units. -/
def Share.chunk (blocks : Nat) (sh : Share) (i k c : Nat) : Share :=
  if blocks = 1 then ⟨sh.lo + (sh.hi - sh.lo) * c / k, sh.lo + (sh.hi - sh.lo) * (c + 1) / k, []⟩
  else { sh with fixed := (i, c) :: sh.fixed }

/-- The byte STAGE (R427). -/
def stageByte (quarter dim : Nat) (gather : Bool) : Nat := quarter * 64 + dim * 16 + b2n gather * 8

/-! ## The small algorithm (R409) -/

/-- The largest power of two not above `k`; `fuel` bounds the search. -/
def pow2Below (k : Nat) : Nat → Nat → Nat
  | 0, m => m
  | fuel + 1, m => if 2 * m ≤ k then pow2Below k fuel (2 * m) else m

/-- `m` of R409 for a line of `k`. -/
def foldOf (k : Nat) : Nat := pow2Below k 32 1

/-- The base-2 logarithm of a power of two; `fuel` bounds it. -/
def log2Pow : Nat → Nat → Nat
  | 0, _ => 0
  | fuel + 1, m => if m ≤ 1 then 0 else log2Pow fuel (m / 2) + 1

/-- The number of steps of a line of `k` (R409). -/
def stepsOf (k : Nat) : Nat := let m := foldOf k; log2Pow 32 m + (if m = k then 0 else 2)

/-- What a rank does in a step of a line: fold in or hand back with a partner, or exchange with one, or nothing. -/
inductive Move where
  | idle
  | give (p : Nat)
  | take (p : Nat)
  | swap (p : Nat)

/-- Step `j` of a line of `k` at position `p` (R409): a fold, an exchange, or a hand-back, with whether it is the hand-back. -/
def moveAt (p k j : Nat) : Move × Bool :=
  let m := foldOf k
  if m = k then (.swap (p ^^^ 2 ^ j), false)
  else if j = 0 then (if m ≤ p then .give (p - m) else if p + m < k then .take (p + m) else .idle, false)
  else if j = stepsOf k - 1 then (if m ≤ p then .take (p - m) else if p + m < k then .give (p + m) else .idle, true)
  else (if p < m then .swap (p ^^^ 2 ^ (j - 1)) else .idle, false)

/-- The bit of the exchange that step `j` of a line of `k` makes. -/
def bitAt (k j : Nat) : Nat := if foldOf k = k then j else j - 1

/-- A coordinate with the excess folded in. -/
def eff (k c : Nat) : Nat := let m := foldOf k; if m ≤ c then c - m else c

/-- The positions whose blocks position `p` still reduces before step `j` of a line of `k` (recursive halving). -/
def keepSet (p k j : Nat) : List Nat :=
  let m := foldOf k
  (List.range k).filter fun c =>
    if m ≤ p ∧ m ≠ k then j == 0
    else if j = 0 ∨ (m ≠ k ∧ j = 1) then true
    else eff k c % 2 ^ bitAt k j == p % 2 ^ bitAt k j

/-- The positions whose blocks position `p` holds before step `j` of a line of `k` (recursive doubling). -/
def haveSet (p k j : Nat) : List Nat :=
  let m := foldOf k
  (List.range k).filter fun c =>
    if j = 0 ∨ (m ≤ p ∧ m ≠ k) then c == p
    else eff k c / 2 ^ bitAt k j == p / 2 ^ bitAt k j

/-- The small algorithm's steps of rank `r` in line `i` whose earlier lines fix `sh`. -/
def smallLine (lines : List (Nat × Nat)) (x : Group) (oper blocks root r i : Nat) (sh : Share) : List CStep :=
  let k := (lines.getD i (0, 1)).2
  let p := posOf lines r i
  let mod_ (c : Nat) := x.list.getD (atPos lines r i c) 0
  let of_ (cs : List Nat) := cs.flatMap fun c => ({ sh with fixed := (i, c) :: sh.fixed } : Share).pieces lines blocks x.list.length
  let whole := sh.pieces lines blocks x.list.length
  let rp := posOf lines root i
  let reff := eff k rp
  (List.range (stepsOf k)).map fun j =>
    let st : CStep := ⟨stageByte 0 (lines.getD i (0, 1)).1 (oper == coAllGather), j, [], [], [], true⟩
    let mv := moveAt p k j
    let b := bitAt k j
    if oper = coAllReduce then
      match mv.1 with
      | .idle => st
      | .give q => { st with sends := [(mod_ q, whole)] }
      | .take q => { st with recvs := [(mod_ q, whole)], combine := !mv.2 }
      | .swap q => { st with sends := [(mod_ q, whole)], recvs := [(mod_ q, whole)] }
    else if oper = coReduce then
      let live (c : Nat) := c % 2 ^ b == reff % 2 ^ b
      let near (c : Nat) := c / 2 ^ b % 2 == reff / 2 ^ b % 2
      match mv.1 with
      | .idle => st
      | .give q => if mv.2 ∧ !(p = reff ∧ q = rp) then st else { st with sends := [(mod_ q, whole)] }
      | .take q => if mv.2 ∧ !(q = reff ∧ p = rp) then st else { st with recvs := [(mod_ q, whole)], combine := !mv.2 }
      | .swap q => if !live p then st
        else if near p then { st with recvs := [(mod_ q, whole)] } else { st with sends := [(mod_ q, whole)] }
    else if oper = coReduceScatter then
      match mv.1 with
      | .idle => st
      | .give q => if mv.2 then { st with sends := [(mod_ q, of_ [q])] } else { st with sends := [(mod_ q, of_ (List.range k))] }
      | .take q => if mv.2 then { st with recvs := [(mod_ q, of_ [p])], combine := false }
        else { st with recvs := [(mod_ q, of_ (List.range k))] }
      | .swap q =>
        let keep := keepSet p k j
        let mine := keep.filter fun c => eff k c / 2 ^ b % 2 == p / 2 ^ b % 2
        let theirs := keep.filter fun c => eff k c / 2 ^ b % 2 != p / 2 ^ b % 2
        { st with sends := [(mod_ q, of_ theirs)], recvs := [(mod_ q, of_ mine)] }
    else
      match mv.1 with
      | .idle => st
      | .give q => { st with sends := [(mod_ q, of_ (if mv.2 then (List.range k).filter (· != q) else [p]))] }
      | .take q => { st with recvs := [(mod_ q, of_ (if mv.2 then (List.range k).filter (· != p) else [q]))], combine := false }
      | .swap q => { st with sends := [(mod_ q, of_ (haveSet p k j))], recvs := [(mod_ q, of_ (haveSet q k j))], combine := false }

/-- The small algorithm at rank `r` (R409). REDUCE goes on only among the ranks that share the root's earlier positions. The
share of a line: REDUCE_SCATTER has fixed the earlier lines, ALL_GATHER still has the later ones to itself. -/
def smallSteps (x : Group) (oper blocks root units r : Nat) : List CTrack :=
  let lines := x.lines
  let n := lines.length
  let part (i : Nat) : Share :=
    if oper = coReduceScatter then ⟨0, units, (List.range i).map fun e => (e, posOf lines r e)⟩
    else if oper = coAllGather then ⟨0, units, ((List.range n).filter (i < ·)).map fun e => (e, posOf lines r e)⟩
    else ⟨0, units, []⟩
  let active (i : Nat) := oper != coReduce || (List.range i).all fun e => posOf lines r e == posOf lines root e
  [⟨((List.range n).filter active).flatMap fun i => smallLine lines x oper blocks root r i (part i), false, 0⟩]

/-! ## The large algorithm (R410) -/

/-- Steps of a ring reduce-scatter of line `i` towards + or − at rank `r`. -/
def ringScatter (lines : List (Nat × Nat)) (x : Group) (quarter blocks r i : Nat) (plus : Bool) (sh : Share) : List CStep :=
  let k := (lines.getD i (0, 1)).2
  let p := posOf lines r i
  let nb (up : Bool) := x.list.getD (atPos lines r i (if up then (p + 1) % k else (p + k - 1) % k)) 0
  let chunk (c : Nat) := (sh.chunk blocks i k (c % k)).pieces lines blocks x.list.length
  (List.range (k - 1)).map fun t =>
    ⟨stageByte quarter (lines.getD i (0, 1)).1 false, t, [],
      [(nb plus, chunk (if plus then p + 2 * k - t - 1 else p + t + 1))],
      [(nb !plus, chunk (if plus then p + 2 * k - t - 2 else p + t + 2))], true⟩

/-- Steps of a ring all-gather of line `i`, which begins with the rounding of this rank's own chunk when `round` asks for it. -/
def ringGather (lines : List (Nat × Nat)) (x : Group) (quarter blocks r i : Nat) (plus round : Bool) (sh : Share) : List CStep :=
  let k := (lines.getD i (0, 1)).2
  let p := posOf lines r i
  let nb (up : Bool) := x.list.getD (atPos lines r i (if up then (p + 1) % k else (p + k - 1) % k)) 0
  let chunk (c : Nat) := (sh.chunk blocks i k (c % k)).pieces lines blocks x.list.length
  (List.range (k - 1)).map fun t =>
    ⟨stageByte quarter (lines.getD i (0, 1)).1 true, t, if round ∧ t = 0 then chunk p else [],
      [(nb plus, chunk (if plus then p + k - t else p + t))],
      [(nb !plus, chunk (if plus then p + 2 * k - t - 1 else p + t + 1))], false⟩

/-- Steps of a gather to the root along the ring of line `i` (R410). The pieces stay partial sums, for the root rounds what it writes
(R422). -/
def ringCollect (lines : List (Nat × Nat)) (x : Group) (quarter blocks root r i : Nat) (plus : Bool) (sh : Share) :
    List CStep :=
  let k := (lines.getD i (0, 1)).2
  let p := posOf lines r i
  let rp := posOf lines root i
  let a := if plus then (p + k - rp) % k else (rp + k - p) % k
  let nb (up : Bool) := x.list.getD (atPos lines r i (if up then (p + 1) % k else (p + k - 1) % k)) 0
  let chunk (c : Nat) := (sh.chunk blocks i k (c % k)).pieces lines blocks x.list.length
  (List.range (k - 1)).map fun t =>
    let send := a != 0 && decide (t < a)
    let recv := a == 0 || decide (t + 1 < a)
    ⟨stageByte quarter (lines.getD i (0, 1)).1 true, t, [],
      if send then [(nb plus, chunk (if plus then p + k - t else p + t))] else [],
      if recv then [(nb !plus, chunk (if plus then p + 2 * k - t - 1 else p + t + 1))] else [], false⟩

/-- The shares of a rank before each of the lines `order`, and after the last. -/
def shareStack (lines : List (Nat × Nat)) (blocks r : Nat) : List Nat → Share → List Share
  | [], sh => [sh]
  | i :: is, sh => sh :: shareStack lines blocks r is (sh.chunk blocks i (lines.getD i (0, 1)).2 (posOf lines r i))

/-- One ring track: half `half` of quarter `quarter` at rank `r` (R410). -/
def largeTrack (x : Group) (oper blocks root units r quarter quarters half : Nat) : CTrack :=
  let lines := x.lines
  let n := lines.length
  let order := (List.range n).map fun j => (j + quarter) % n
  let lo := units * quarter / quarters
  let hi := units * (quarter + 1) / quarters
  let mid := lo + (hi - lo) / 2
  let sh : Share := if half = 0 then ⟨lo, mid, []⟩ else ⟨mid, hi, []⟩
  let plus := half == 0
  let stack := (order.zip (shareStack lines blocks r order sh))
  let scatter := if oper = coAllGather then [] else stack.flatMap fun e => ringScatter lines x quarter blocks r e.1 plus e.2
  let back := stack.reverse
  let gather :=
    if oper = coAllReduce ∨ oper = coAllGather then
      (back.zipIdx).flatMap fun e => ringGather lines x quarter blocks r e.1.1 plus (oper == coAllReduce && e.2 == 0) e.1.2
    else if oper = coReduce then
      (back.zipIdx).flatMap fun e =>
        if (back.take e.2).all fun f => posOf lines r f.1 == posOf lines root f.1 then
          ringCollect lines x quarter blocks root r e.1.1 plus e.1.2
        else []
    else []
  ⟨scatter ++ gather, false, 0⟩

/-- The large algorithm at rank `r` (R410): eight tracks of a box, two of a flat group. -/
def largeSteps (x : Group) (oper blocks root units r : Nat) : List CTrack :=
  let qs := if x.box then 4 else 1
  (List.range qs).flatMap fun q => (List.range 2).map fun h => largeTrack x oper blocks root units r q qs h

/-! ## Broadcast and exchange (R412, R413) -/

/-- Where a rank stands in the broadcast along a line: hops on the + side, or on the − side (log 31). -/
def castSide (p rp k : Nat) : Nat ⊕ Nat := let a := (p + k - rp) % k; if a ≤ k / 2 then .inl a else .inr (k - a)

/-- The line in which a rank is reached: the last one in which it differs from the root. -/
def castLine (lines : List (Nat × Nat)) (root r : Nat) : Option Nat :=
  ((List.range lines.length).filter fun i => posOf lines r i != posOf lines root i).getLast?

/-- The rank from which a rank receives, with its line. -/
def castParent (lines : List (Nat × Nat)) (root r : Nat) : Option (Nat × Nat) :=
  (castLine lines root r).map fun i =>
    let k := (lines.getD i (0, 1)).2
    let p := posOf lines r i
    match castSide p (posOf lines root i) k with
    | .inl _ => (i, atPos lines r i ((p + k - 1) % k))
    | .inr _ => (i, atPos lines r i ((p + 1) % k))

/-- The ranks to which a rank passes the data on, with their lines. -/
def castChildren (lines : List (Nat × Nat)) (root r : Nat) : List (Nat × Nat) :=
  let first := (castLine lines root r).map (· + 1) |>.getD 0
  let on := match castLine lines root r with
    | none => []
    | some i =>
      let k := (lines.getD i (0, 1)).2
      let p := posOf lines r i
      match castSide p (posOf lines root i) k with
      | .inl a => if a + 1 ≤ k / 2 then [(i, atPos lines r i ((p + 1) % k))] else []
      | .inr a => if a + 1 ≤ (k + 1) / 2 - 1 then [(i, atPos lines r i ((p + k - 1) % k))] else []
  on ++ ((List.range lines.length).filter (first ≤ ·)).flatMap fun i =>
    let k := (lines.getD i (0, 1)).2
    let p := posOf lines r i
    (if 1 ≤ k / 2 then [(i, atPos lines r i ((p + 1) % k))] else []) ++
      (if 1 ≤ (k + 1) / 2 - 1 then [(i, atPos lines r i ((p + k - 1) % k))] else [])

/-- The broadcast's steps at rank `r`. -/
def castSteps (x : Group) (root units r : Nat) : List CTrack :=
  let lines := x.lines
  let whole : List UPiece := [⟨0, 0, units⟩]
  let stage (i : Nat) := stageByte 0 (lines.getD i (0, 1)).1 true
  let take := match castParent lines root r with
    | some (i, q) => [(⟨stage i, 0, [], [], [(x.list.getD q 0, whole)], false⟩ : CStep)]
    | none => []
  [⟨take ++ (castChildren lines root r).map fun c => ⟨stage c.1, 0, [], [(x.list.getD c.2 0, whole)], [], false⟩, false, 0⟩]

/-- The exchange's step at rank `r` (R413): block s of SEND to rank s, and rank s's block as block RANKS + s. -/
def exchangeSteps (x : Group) (units r : Nat) : List CTrack :=
  let n := x.list.length
  let others := (List.range n).filter (· != r)
  [⟨[⟨stageByte 0 0 true, 0, [], others.map fun d => (x.list.getD d 0, [⟨d, 0, units⟩]),
    others.map fun d => (x.list.getD d 0, [⟨n + d, 0, units⟩]), false⟩], false, 0⟩]

/-- The steps of an operation at rank `r` (R408). A group of one rank has none (R404). -/
def scheduleOf (x : Group) (oper root units r : Nat) (large : Bool) : List CTrack :=
  let blocks := if oper = coReduceScatter ∨ oper = coAllGather then x.list.length else 1
  if x.list.length ≤ 1 then []
  else if oper = coBroadcast then castSteps x root units r
  else if oper = coAllToAll then exchangeSteps x units r
  else if large then largeSteps x oper blocks root units r
  else smallSteps x oper blocks root units r

end Sys2Proof.Machine
end

