-- ==== Sys2Proof/Machine/Wps.lean ====
section
/-!
DEFINITION. Wide partial sums (R416 to R422): sets, their addition, their blocks on the wire and in memory, and the final
rounding; and the exact MAX and MIN of R402.
-/

namespace Sys2Proof.Machine

/-- The set of an element's exact values in units of 2^l, cut to the window (R419, R420). -/
def setOf (vs : List Int) (l : Int) (cls : List Nat) (inexact : Bool) : PSet :=
  let big := vs.foldl (fun b v => max b v.natAbs) 0
  let a := if big = 0 then -559 else max (l + leadBit big - 172) (-559)
  if a ≤ l then ⟨a, vs.map fun v => v * 2 ^ (l - a).toNat, cls, inexact⟩
  else
    let d : Int := 2 ^ (a - l).toNat
    ⟨a, vs.map fun v => v.fdiv d, cls, inexact || vs.any fun v => v.fmod d != 0⟩

/-- The class of a value. -/
def clsOf : Num → Nat
  | .nan => 3
  | .inf true _ => 2
  | .inf false _ => 1
  | .fin _ _ _ => 0

/-- The set of 16 contributions (R420). -/
def setOfNums (ns : List Num) : PSet :=
  let l := ns.foldl (fun l n => match n with | .fin _ m e => if m = 0 then l else min l e | _ => l) 0
  setOf (ns.map fun n => match n with | .fin s m e => if m = 0 then 0 else sInt s m e l | _ => 0) l (ns.map clsOf) false

/-- The class of a sum (R420). -/
def clsAdd (a b : Nat) : Nat :=
  if a = 3 ∨ b = 3 then 3 else if a = 0 then b else if b = 0 then a else if a = b then a else 3

/-- The sum of two sets (R420). -/
def PSet.add (x y : PSet) : PSet :=
  let l := min x.a y.a
  let cls := (List.range 16).map fun i => clsAdd (x.cls.getD i 0) (y.cls.getD i 0)
  let vs := (List.range 16).map fun i => if cls.getD i 0 ≠ 0 then (0 : Int) else
    x.w.getD i 0 * 2 ^ (x.a - l).toNat + y.w.getD i 0 * 2 ^ (y.a - l).toNat
  setOf vs l cls (x.inexact || y.inexact)

/-- The larger or smaller of two values: NaN when either is (R402). -/
def pick (max_ : Bool) (a b : Num) : Num :=
  match a, b with
  | .nan, _ => .nan
  | _, .nan => .nan
  | a, b => if a.le b == max_ then b else a

/-- The low 48 bits of an integer as a signed number. -/
def low48 (v : Int) : Int := let d := v.emod (2 ^ 48); if d < 2 ^ 47 then d else d - 2 ^ 48

/-- The four limbs of a window integer, limb 0 first (R419). -/
def limbsOf (w : Int) : List Int :=
  let d3 := low48 w
  let r := (w - d3) / 2 ^ 48
  let d2 := low48 r
  let r := (r - d2) / 2 ^ 48
  let d1 := low48 r
  [(r - d1) / 2 ^ 48, d1, d2, d3]

/-- A WPS block of 98 bytes (R416). -/
def blockBytes (special inexact more : Bool) (limb exp : Nat) (s : List Int) : Bytes :=
  s.flatMap (fun v => leBytes 6 (v.emod (2 ^ 48)).toNat) ++
    leBytes 2 (exp + limb * 2 ^ 10 + b2n more * 2 ^ 12 + b2n inexact * 2 ^ 13 + b2n special * 2 ^ 14)

/-- The limbs of a set that are present, with their numbers (R417). -/
def PSet.present (s : PSet) : List (Nat × List Int) :=
  let ls := s.w.map limbsOf
  (List.range 4).filterMap fun k =>
    let row := ls.map fun l => l.getD k 0
    if k = 0 ∨ row.any (· != 0) then some (k, row) else none

/-- The blocks of a set on the wire (R417, R418). -/
def PSet.blocks (s : PSet) : List Bytes :=
  let rows := s.present
  let spec := s.cls.any (· != 0)
  let n := rows.length
  let exp0 := (s.a + 703).toNat
  rows.mapIdx (fun i r => blockBytes false s.inexact (decide (i + 1 < n) || spec) r.1 (exp0 - 48 * r.1) r.2) ++
    (if spec then [blockBytes true s.inexact false 0 0 (s.cls.map Int.ofNat)] else [])

/-- Add a block to the set that is being read. -/
def PSet.read (s : PSet) (b : Bytes) : PSet :=
  let h := leAt b 96 2
  let raw (i : Nat) : Int := low48 (leAt b (6 * i) 6 : Nat)
  if bit h 14 then { s with cls := (List.range 16).map fun i => (raw i).toNat % 4, inexact := bit h 13 }
  else
    let k := bits h 11 10
    let a : Int := if k = 0 then (bits h 9 0 : Int) - 703 else s.a
    { s with a, w := (List.range 16).map (fun i => s.w.getD i 0 + raw i * 2 ^ (48 * (3 - k))), inexact := bit h 13 }

/-- The empty set. -/
def PSet.empty : PSet := ⟨-559, List.replicate 16 0, List.replicate 16 0, false⟩

/-- The sets that blocks on the wire spell; `acc` is the set that is being read. -/
def readSets (acc : PSet) : List Bytes → List PSet
  | [] => []
  | b :: bs =>
    let s := acc.read b
    if bit (leAt b 96 2) 12 then readSets s bs else s :: readSets PSet.empty bs

/-- A set in a memory slot of 128 bytes: rounded to limb 0 (R418). A special element is stored as 0 (R417; log 24). -/
def PSet.slot (s : PSet) : Bytes :=
  let r (v : Int) : Int := let m : Int := (rne v.natAbs 0 144 : Nat); if v < 0 then -m else m
  let lost := s.w.any (fun v => v.emod (2 ^ 144) != 0) || s.cls.any (· != 0)
  blockBytes false (s.inexact || lost) false 0 (s.a + 703).toNat (s.w.map r) ++ zeros 30

/-- A set divided exactly by a number, in a memory slot: limb 0 lies where the window of the quotients puts it, and each exact quotient is rounded
to it once (R418, R419, R422). -/
def PSet.slotDiv (s : PSet) (div : Nat) : Bytes :=
  let big := s.w.foldl (fun b v => max b v.natAbs) 0
  let a := if big = 0 then -559 else max (s.a + leadBit (big * 2 ^ 300 / div) - 300 - 172) (-559)
  let unit : Nat := div * 2 ^ (a + 144 - s.a).toNat
  let up (v : Int) : Nat := v.natAbs * 2 ^ (s.a - (a + 144)).toNat
  let round (v : Int) : Int :=
    let f := up v / unit
    let r := up v % unit
    let m : Int := if unit < 2 * r ∨ (2 * r = unit ∧ f % 2 = 1) then f + 1 else f
    if v < 0 then -m else m
  let lost := (s.w.any fun v => up v % unit != 0) || s.cls.any (· != 0)
  blockBytes false (s.inexact || lost) false 0 (a + 703).toNat (s.w.map round) ++ zeros 30

/-- The set in a memory slot. -/
def readSlot (b : Bytes) : PSet :=
  let s := PSet.empty.read (b.take 98)
  setOf s.w s.a s.cls s.inexact

/-- The exact value of element `i` of a set. -/
def PSet.num (s : PSet) (i : Nat) : Num :=
  match s.cls.getD i 0 with
  | 0 => numOf (s.w.getD i 0) s.a false
  | 1 => .inf false false
  | 2 => .inf true false
  | _ => .nan

/-- The values of a set. -/
def PSet.nums (s : PSet) : List Num := (List.range 16).map s.num

/-- The exact values of a run of elements with the sets' INEXACT: sets from memory slots of WPS, else none. -/
def readValues (f n : Nat) (b : Bytes) : List Num × Bool :=
  if f = 9 then
    let ss := (List.range (n / 16)).map fun i => readSlot (slice b (128 * i) 128)
    (ss.flatMap PSet.nums, ss.any (·.inexact))
  else (decodeAll f n b, false)

/-- Whether an element of a run of TYPE data is NaN or infinite (R405). -/
def anySpecial (typ n : Nat) (b : Bytes) : Bool := (readValues typ n b).1.any fun v => !v.isFin

/-- The sets of a run of elements; the last one is filled with zeros. -/
def readSetsOf (f n : Nat) (b : Bytes) : List PSet :=
  if f = 9 then (List.range (n / 16)).map fun i => readSlot (slice b (128 * i) 128)
  else (groupsOf 16 (n + 1) (decodeAll f n b)).map fun g => setOfNums (g ++ List.replicate (16 - g.length) .zero)

/-- A value without the sign of a zero (R422). -/
def Num.plusZero : Num → Num
  | .fin _ 0 _ => .zero
  | n => n

/-- The final rounding of sets to `n` elements of a format, divided by `div` (R422). -/
def roundSets (f n div : Nat) (ss : List PSet) : Enc :=
  if f = 9 then
    ⟨ss.flatMap fun s => if div = 1 then s.slot else s.slotDiv div, 0, ss.any fun s => s.cls.any (· != 0)⟩
  else encodeAll f (((ss.flatMap PSet.nums).take n).map fun v => if div = 1 then v.plusZero else (v.divNat div).plusZero)

/-- MAX or MIN of two sets, element by element (R402). -/
def PSet.pick (max_ : Bool) (x y : PSet) : PSet :=
  let s := setOfNums ((x.nums.zip y.nums).map fun p => Machine.pick max_ p.1 p.2)
  { s with inexact := s.inexact || x.inexact || y.inexact }

/-- The larger or smaller of two values of B4 blocks with their scales; of equal values the one of the greater scale (R402; log 25). -/
def pickScaled (max_ : Bool) (a b : Num × Nat) : Num × Nat :=
  if a.1.le b.1 && b.1.le a.1 then (a.1, max a.2 b.2)
  else
    let v := pick max_ a.1 b.1
    (v, if v == a.1 then a.2 else b.2)

/-- The B4 block of winners with the scales of their blocks (R402): at the scale of the winner of largest magnitude when every winner is
representable there, else rounded under R451. Of winners of that magnitude the greatest scale is taken (log 25). -/
def blockOfWinners (ws : List (Num × Nat)) : Enc :=
  let vs := ws.map (·.1)
  if vs.any fun v => !v.isFin then nanBlock else
    let top (v : Num) : Bool := match v, amax vs with
      | .fin _ m e, .fin _ n f => magLe n f m e
      | _, _ => false
    let e := encodeBlockAt 7 (((ws.filter fun w => top w.1).map (·.2)).foldl max 0) vs
    let same := ((decodeB4 e.bytes).zip vs).all fun p => p.1.le p.2 && p.2.le p.1
    if same then e else encodeBlock 7 0 vs

/-- The values of a B4 block with its scale. -/
def scaledB4 (b : Bytes) : List (Num × Nat) := (decodeB4 b).map fun v => (v, leAt b 0 1)

/-- MAX or MIN of two B4 blocks (R402). -/
def pickB4 (max_ : Bool) (x y : Bytes) : Enc :=
  blockOfWinners (((scaledB4 x).zip (scaledB4 y)).map fun p => pickScaled max_ p.1 p.2)

/-- MAX or MIN along each row of B4 values of `cols` columns: each row gives one element (R402, R504). -/
def pickRows (max_ : Bool) (rows cols : Nat) (b : Bytes) : Enc :=
  let vs := (List.range (rows * cols / 32)).flatMap fun i => scaledB4 (slice b (17 * i) 17)
  let ws := (List.range rows).map fun r =>
    let l := (vs.drop (r * cols)).take cols
    l.tail.foldl (pickScaled max_) (l.headD (.zero, 0))
  ((groupsOf 32 (rows + 1) ws).map blockOfWinners).foldl Enc.append ⟨[], 0, false⟩

/-- MAX or MIN of two runs of elements, carried in their format, which is not WPS (R402). -/
def pickAll (f : Nat) (max_ : Bool) (n : Nat) (x y : Bytes) : Enc :=
  if f = 7 then
    ((List.range (n / 32)).map fun i => pickB4 max_ (slice x (17 * i) 17) (slice y (17 * i) 17)).foldl Enc.append ⟨[], 0, false⟩
  else encodeAll f (((decodeAll f n x).zip (decodeAll f n y)).map fun p => pick max_ p.1 p.2)

end Sys2Proof.Machine
end

