-- ==== Sys2Proof/Machine/Collective.lean ====
section
/-!
DEFINITION. The collective engine (R399 to R407, R411, R414, R422, R427): the issue of a collective, its data packets, the
combining of what arrives, its result, and aborts.
-/

namespace Sys2Proof.Machine

/-! ## Elements -/

/-- Whether a reduction is carried as sets: partial sums, or elements that are sets themselves (R402). -/
def Coll.sums (c : Coll) : Bool := reducing c.oper && (decide (c.red < 2) || c.typ == fmWps)

/-- The elements of unit `i` of a block. -/
def Coll.unitLen (c : Coll) (i : Nat) : Nat := min (unitOf c.typ) (c.count - i * unitOf c.typ)

/-- The units of a block. -/
def Coll.unitsN (c : Coll) : Nat := unitsOf c.typ c.count

/-- The key of unit `i` of block `b`. -/
def unitKey (b i : Nat) : Nat := b * 2 ^ 32 + i

/-- The unit numbers of a piece. -/
def UPiece.list (p : UPiece) : List Nat := (List.range (p.hi - p.lo)).map (· + p.lo)

/-- The units in pieces. -/
def piecesLen (ps : List UPiece) : Nat := sumList (ps.map fun p => p.hi - p.lo)

/-- Replace the collective of a group. -/
def State.setColl (s : State) (g : Nat) (c : Coll) : State :=
  { s with col := { s.col with groups := SMap.upd s.col.groups g fun x => { x with coll := some c } } }

/-- The collective in progress of a group. -/
def State.coll (s : State) (g : Nat) : Option Coll := (s.group g).bind (·.coll)

/-- The unit's value in TYPE. -/
def UVal.bytes : UVal → Bytes
  | .raw b => b
  | .sets _ => []

/-- Round a unit to TYPE (R422): its bytes, with the collective's flags and the INEXACT elements counted. -/
def State.roundUnit (s : State) (c : Coll) (ranks i : Nat) (v : UVal) : Bytes × Coll × State :=
  match v with
  | .raw b => (b, c, s)
  | .sets l =>
    let n := c.unitLen i
    let e := roundSets c.typ n (if c.red = 1 then ranks else 1) l
    let lossy := sumList (l.zipIdx.map fun x => if x.1.inexact then min 16 (n - 16 * x.2) else 0)
    (e.bytes, { c with saturated := c.saturated || e.sat != 0, special := c.special || e.spec, inexact := c.inexact || lossy != 0 },
      s.countN .COL_INEXACT_COUNT lossy)

/-- Round the units of pieces (R410). -/
def State.roundPieces (s : State) (c : Coll) (ranks : Nat) (ps : List UPiece) : Coll × State :=
  ps.foldl (fun acc p => p.list.foldl (fun acc i =>
    match SMap.find acc.1.units (unitKey p.block i) with
    | some v =>
      let r := acc.2.roundUnit acc.1 ranks i v
      ({ r.2.1 with units := SMap.put r.2.1.units (unitKey p.block i) (.raw r.1) }, r.2.2)
    | none => acc) acc) (c, s)

/-- The limbs of a set that an addition works on (R423). -/
def PSet.limbs (x : PSet) : Nat := x.present.length

/-- Combine two values of a unit (R402, R420), with the limb additions that it takes, each of which covers 16 elements (R423). -/
def combineUnit (c : Coll) (i : Nat) (a b : UVal) : UVal × Nat :=
  match a, b with
  | .sets x, .sets y =>
    if c.red < 2 then
      let z := List.zipWith PSet.add x y
      (.sets z, sumList (z.map PSet.limbs))
    else (.sets (List.zipWith (PSet.pick (c.red == 2)) x y), 0)
  | .raw x, .raw y => (.raw (pickAll c.typ (c.red == 2) (c.unitLen i) x y).bytes, 0)
  | a, _ => (a, 0)

/-! ## Messages (R411, R427) -/

/-- The header of a COLL_DATA message. -/
def collHeader (g : Nat) (c : Coll) (stage step : Nat) (wps : Bool) (offset elements : Nat) : Bytes :=
  slice (beBytes 1 g ++ beBytes 1 c.oper ++ beBytes 1 c.typ ++ beBytes 1 c.red ++ beBytes 4 c.seq ++ beBytes 4 c.check ++
    beBytes 1 stage ++ beBytes 1 step ++ beBytes 1 (b2n wps * 128) ++ [0] ++ beBytes 8 offset ++ beBytes 4 elements) 0 64

/-- Group the units from `i` on into messages of at most 41 WPS blocks or 4,032 bytes of TYPE data: first unit, units, data. -/
def cutUnits (vals : List (Nat × Bool × Bytes)) : List (Nat × Nat × Bool × Bytes) :=
  vals.foldl (fun acc v =>
    match acc.getLast? with
    | some (i, n, w, d) =>
      if i + n = v.1 ∧ w = v.2.1 ∧ d.length + v.2.2.length ≤ (if w then 41 * 98 else 4032) then
        acc.dropLast ++ [(i, n + 1, w, d ++ v.2.2)]
      else acc ++ [(v.1, 1, v.2.1, v.2.2)]
    | none => [(v.1, 1, v.2.1, v.2.2)]) []

/-- Send a piece to a module over the collective's lanes in turn (R411, R414). An ALL_TO_ALL block is numbered by its sender, and takes one
lane, for its destination has one stream (R413; log 98). -/
def State.sendPiece (s : State) (g : Nat) (x : Group) (c : Coll) (dst stage step : Nat) (p : UPiece) : Coll × State :=
  let vals := p.list.map fun i =>
    match SMap.find c.units (unitKey p.block i) with
    | some (.sets l) => (i, true, l.flatMap PSet.blocks |>.flatten)
    | some (.raw b) => (i, false, b)
    | none => (i, false, [])
  let block := if c.oper = coAllToAll then x.rank else p.block
  let next := c.lane + 1
  let r := (cutUnits vals).foldl (fun (acc : Coll × State) m =>
    let c := acc.1
    let elements := sumList ((List.range m.2.1).map fun k => c.unitLen (m.1 + k))
    let h := collHeader g c stage step m.2.2.1 (block * c.count + m.1 * unitOf c.typ) elements
    let lane := c.lanes.getD (c.lane % c.lanes.length) c.tc
    ({ c with lane := if c.oper = coAllToAll then c.lane else c.lane + 1, unacked := c.unacked + 1 },
      acc.2.control (.coll g c.seq 0 0) 0x10 dst lane x.partition (h ++ m.2.2.2))) (c, s)
  (if c.oper = coAllToAll then { r.1 with lane := next } else r.1, r.2)

/-- The message that a COLL_DATA packet carries. -/
def readColl (p : Pkt) : CMsg :=
  let h := p.payload
  ⟨p.src, beNat (slice h 4 4), beNat (slice h 8 4), beNat (slice h 12 1), beNat (slice h 13 1), bit (beNat (slice h 14 1)) 7,
    beNat (slice h 16 8), beNat (slice h 24 4), (p.payload.take p.length).drop 64⟩

/-- The block and first unit of a message. -/
def Coll.place (c : Coll) (ranks : Nat) (m : CMsg) : Nat × Nat :=
  (m.offset / c.count + (if c.oper = coAllToAll then ranks else 0), m.offset % c.count / unitOf c.typ)

/-- Whether a message belongs to a step, whose number STEP carries in one byte (R427). -/
def CStep.takes (st : CStep) (c : Coll) (ranks : Nat) (m : CMsg) : Bool :=
  let at_ := c.place ranks m
  m.stage == st.stage && m.step == st.step % 256 && st.recvs.any fun r =>
    r.1 == m.src && r.2.any fun p => p.block == at_.1 && decide (p.lo ≤ at_.2) && decide (at_.2 < p.hi)

/-- The values that a message carries, unit by unit from its first. -/
def Coll.values (c : Coll) (m : CMsg) : List UVal :=
  let u := unitOf c.typ
  let n := (m.elements + u - 1) / u
  if m.wps then
    let sets := readSets PSet.empty (chunks 98 64 m.data)
    (List.range n).map fun k => .sets ((sets.drop (k * (u / 16))).take (u / 16))
  else (List.range n).map fun k => .raw (slice m.data (k * fmSize c.typ u) (fmSize c.typ (min u (m.elements - k * u))))

/-- Take a message into the collective's elements. -/
def State.absorb (s : State) (c : Coll) (ranks : Nat) (combine : Bool) (m : CMsg) : Coll × Nat × State :=
  let at_ := c.place ranks m
  (c.values m).foldl (fun acc v =>
    let c := acc.1
    let i := at_.2 + acc.2.1
    let key := unitKey at_.1 i
    let r := match SMap.find c.units key with
      | some old => if combine then combineUnit c i old v else (v, 0)
      | none => (v, 0)
    ({ c with units := SMap.put c.units key r.1 }, acc.2.1 + 1, acc.2.2.countN .COL_ADD_COUNT r.2)) (c, 0, s)

/-! ## Progress -/

/-- Advance track `k` while it can: send its first step, take in what has arrived for it, go on to the next; `fuel` bounds the
steps. -/
def trackGo (g : Nat) (x : Group) (k : Nat) : Nat → Coll × State → Coll × State
  | 0, r => r
  | fuel + 1, (c, s) =>
    match c.tracks[k]? with
    | none => (c, s)
    | some t =>
      match t.steps with
      | [] => (c, s)
      | st :: rest =>
        let ranks := x.list.length
        let r := if t.sent then (c, s) else
          let r := s.roundPieces c ranks st.round
          st.sends.foldl (fun r d => d.2.foldl (fun r p => r.2.sendPiece g x r.1 d.1 st.stage st.step p) r) r
        let c := r.1
        let mine := c.inbox.filter (st.takes c ranks)
        let c := { c with inbox := c.inbox.filter fun m => !st.takes c ranks m }
        let q := mine.foldl (fun (acc : Coll × Nat × State) m =>
          let a := acc.2.2.absorb acc.1 ranks st.combine m
          (a.1, acc.2.1 + a.2.1, a.2.2)) (c, t.got, r.2)
        let c := q.1
        if q.2.1 < piecesLen (st.recvs.flatMap (·.2)) then
          ({ c with tracks := c.tracks.set k { t with sent := true, got := q.2.1 } }, q.2.2)
        else trackGo g x k fuel ({ c with tracks := c.tracks.set k ⟨rest, false, 0⟩ }, q.2.2)

/-- The blocks of this rank's result and where they stand in RECV, in order (R400). -/
def Coll.result (c : Coll) (x : Group) : List Nat :=
  let n := x.list.length
  if c.oper = coAllReduce then [0]
  else if c.oper = coReduce then if x.rank = c.root then [0] else []
  else if c.oper = coReduceScatter then [if n ≤ 1 then 0 else x.rank]
  else if c.oper = coAllGather then List.range n
  else if c.oper = coBroadcast then if x.rank = c.root then [] else [0]
  else (List.range n).map fun b => if b = x.rank then b else n + b

/-- The bytes of the result, rounded. -/
def State.collResult (s : State) (x : Group) (c : Coll) : Bytes × Coll × State :=
  (c.result x).foldl (fun acc b => (List.range c.unitsN).foldl (fun acc i =>
    match SMap.find acc.2.1.units (unitKey b i) with
    | some v =>
      let r := acc.2.2.roundUnit acc.2.1 x.list.length i v
      let spec := anySpecial c.typ (c.unitLen i) r.1
      (acc.1 ++ r.1, { r.2.1 with special := r.2.1.special || spec }, r.2.2)
    | none => acc) acc) ([], c, s)

/-- Send an abort down the group's tree in the class of the issuing queue pair, and mark it (R407, R414). -/
def State.sendAbort (s : State) (g : Nat) (x : Group) (seq tc : Nat) : State :=
  (s.setFlag .COL_ERR 1).treeDown { s.newTree tkAbort s.me g seq x.partition with sentUp := true } tc []

/-- End the collective of a group on this rank without telling the others. -/
def State.dropColl (s : State) (g : Nat) : State :=
  { s with col := { s.col with groups := SMap.upd s.col.groups g fun x => { x with coll := none } } }.disown fun q =>
    match q with | .collData n _ => n == g | _ => false

/-- A collective ends locally without success: the whole collective is aborted (R407). -/
def State.collAbort (s : State) (g status detail : Nat) (remote : Bool) : State :=
  match s.group g with
  | none => s
  | some x =>
    match x.coll with
    | none => s
    | some c => ((s.dropColl g).sendAbort g x c.seq c.tc).opDone c.wq c.op status detail remote 0 0

/-- Pieces of a hall range that each lie in one page, at most 4 KiB. -/
def hallPieces (a len : Nat) : List (Nat × Nat) := pieces 4096 a len

/-- Ask the holder of a hall address for data, or send it data (R403). -/
def State.hallAsk (s : State) (owner : TxnOwner) (partition tc srcGen : Nat) (addr : Nat) (data : Bytes ⊕ Nat) : State :=
  let write := data.isLeft
  let home := hallHome addr
  let dst := match s.cached home (hallPage addr) with
    | some e => if write then e.writer else e.reader
    | none => home
  let len := match data with | .inl b => b.length | .inr n => n
  let payload := match data with | .inl b => b | .inr _ => []
  let s := s.cacheUsed home (hallPage addr)
  s.ask owner { s.blank (if write then 0x01 else 0x02) dst tc with
    partition, length := len, payload := padded payload, ackReq := true, remote := addr, srcInstGen := srcGen }

/-- Write the result into RECV (R400, R403). -/
def State.collWrite (s : State) (g : Nat) (x : Group) (c : Coll) : State :=
  let r := s.collResult x c
  let c := { r.2.1 with written := true }
  let s := r.2.2
  if r.1.isEmpty then s.setColl g c
  else if bit c.forms 1 then
    let ps := hallPieces c.recv r.1.length
    let s := s.setColl g { c with writes := c.writes + ps.length }
    ps.foldl (fun s p => s.hallAsk (.coll g c.seq 2 p.1) x.partition c.tc (s.instGen c.inst) (c.recv + p.1)
      (.inl (slice r.1 p.1 p.2))) s
  else
    match (s.setColl g c).ivaWrite c.inst c.recv r.1 true with
    | (none, s) => s
    | (some (.fault f), s) => (s.holdEcc c.wq c.op).collAbort g stTranslationFault f false
    | (some .host, s) => s.collAbort g stHostMemoryError 2 false
    | (some .blocked, s) => s.collAbort g stAborted dBusMaster false

/-- Complete a collective whose part is done on this rank (R404, R405, R422): the root of a REDUCE awaits no message that it sent. -/
def State.collEnd (s : State) (g : Nat) : State :=
  match s.coll g with
  | none => s
  | some c =>
    let root := c.oper == coReduce && ((s.group g).map (·.rank)) == some c.root
    if !c.written ∨ c.writes ≠ 0 ∨ (c.unacked ≠ 0 ∧ !root) then s else
      let flags := b2n c.saturated + 2 * b2n c.special
      ((s.dropColl g).count .COL_OP_COUNT).opDone c.wq c.op (if c.inexact then stInexact else stSuccess) flags false
        (fmSize c.typ c.count) 0

/-- Go on with the collective of a group. -/
def State.collGo (s : State) (g : Nat) : State :=
  match s.group g with
  | none => s
  | some x =>
    match x.coll with
    | none => s
    | some c =>
      if !c.loaded then s else
        let fuel := sumList (c.tracks.map fun t => t.steps.length) + 1
        let r := (List.range c.tracks.length).foldl (fun r k => trackGo g x k fuel r) (c, s)
        let s := r.2.setColl g r.1
        let s := if !r.1.written && r.1.tracks.all (·.steps.isEmpty) then s.collWrite g x r.1 else s
        s.collEnd g

/-! ## The source buffer -/

/-- The elements of SEND that this rank uses (R400). -/
def sendCount (oper count ranks root rank : Nat) : Nat :=
  if oper = coReduceScatter ∨ oper = coAllToAll then count * ranks
  else if oper = coBroadcast ∧ rank ≠ root then 0 else count

/-- The elements of RECV that this rank writes (R400). -/
def recvCount (oper count ranks root rank : Nat) : Nat :=
  if oper = coAllGather ∨ oper = coAllToAll then count * ranks
  else if (oper = coReduce ∧ rank ≠ root) ∨ (oper = coBroadcast ∧ rank = root) then 0 else count

/-- Put SEND into the collective's units: as sets for sums, else in TYPE. -/
def Coll.load (c : Coll) (x : Group) : Coll :=
  let b := c.input.bytes
  let total := sendCount c.oper c.count x.list.length c.root x.rank
  let first := if c.oper = coAllGather then x.rank else 0
  let blocks := if total = 0 then 0 else total / c.count
  let units := (List.range blocks).foldl (fun m k => (List.range c.unitsN).foldl (fun m i =>
    let n := c.unitLen i
    let d := slice b (fmSize c.typ (k * c.count + i * unitOf c.typ)) (fmSize c.typ n)
    SMap.put m (unitKey (first + k) i) (if c.sums then .sets (readSetsOf c.typ n d) else .raw d)) m) c.units
  { c with loaded := true, units }

/-- Read SEND; the collective goes on once all of it is there (R403). -/
def State.collLoad (s : State) (g : Nat) : State :=
  match s.group g with
  | none => s
  | some x =>
    match x.coll with
    | none => s
    | some c =>
      if c.loaded then s.collGo g else
        let len := fmSize c.typ (sendCount c.oper c.count x.list.length c.root x.rank)
        if bit c.forms 0 ∨ len = 0 then
          if c.input.fail.isSome then
            s.collAbort g ((c.input.fail.map (·.1)).getD 0) ((c.input.fail.map (·.2)).getD 0) true
          else if c.input.ready then (s.setColl g (c.load x)).collGo g else s
        else
          let r := s.readIva c.inst c.inst c.send len false (fun off => .collData g off) c.input
          let c := { c with input := r.2.1 }
          let s := r.2.2.setColl g c
          match c.input.fail with
          | some f => (s.holdPoison c.wq c.op c.input).collAbort g f.1 f.2 false
          | none => if r.1 && c.input.ready then (s.setColl g (c.load x)).collGo g else s

/-! ## Issue (R399 to R403, R408) -/

/-- The CHECK of a collective (R406). -/
def collCheck (oper typ red count root : Nat) (large : Bool) (seq : Nat) : Nat :=
  crc32 (beBytes 1 oper ++ beBytes 1 typ ++ beBytes 1 red ++ beBytes 4 count ++ beBytes 4 root ++ beBytes 1 (b2n large) ++ beBytes 4 seq)

/-- The first failure of a COLLECTIVE's checks (R269, R400 to R403). Their order is the model's: the partition stands before the fields
(log 91). -/
def State.collFail (s : State) (q : Qp) (d : Bytes) : Option (Nat × Nat) :=
  let field := some (stBadDescriptor, dField)
  let oper := leAt d 9 1
  let typ := leAt d 10 1
  let red := leAt d 11 1
  let count := leAt d 12 4
  let root := leAt d 32 4
  let forms := leAt d 36 1
  match s.definedGroup (leAt d 8 1) with
  | none => field
  | some x =>
    let ranks := x.list.length
    if x.partition ≠ q.partition then some (stLocalProtection, 0)
    else if q.connected ∨ oper < 1 ∨ 6 < oper ∨ typ < 1 ∨ 9 < typ ∨ count = 0 ∨ count % fmBlock typ ≠ 0 then field
    else if reducing oper ∧ (typ = fmB2 ∨ 3 < red) then field
    else if (oper = coReduce ∨ oper = coBroadcast) ∧ ranks ≤ root then field
    else
      let sl := fmSize typ (sendCount oper count ranks root x.rank)
      let rl := fmSize typ (recvCount oper count ranks root x.rank)
      let sa := leAt d 16 8
      let ra := leAt d 24 8
      let meet := sl != 0 && rl != 0 && bit forms 0 == bit forms 1 && decide (sa < ra + rl) && decide (ra < sa + sl)
      let same := sa == ra && [coAllReduce, coAllGather, coBroadcast].contains oper
      if meet && !same then field
      else match (if bit forms 0 ∧ sl ≠ 0 then s.hallFail 0 sa sl else none) with
      | some f => some f
      | none => if bit forms 1 ∧ rl ≠ 0 then s.hallFail 0 ra rl else none

/-- Post a collective that has passed its checks (R399, R406, R408). -/
def State.collPost (s : State) (n id : Nat) (w : Wq) (o : Op) (q : Qp) (g : Nat) (x : Group) : State :=
  let d := o.desc
  let oper := leAt d 9 1
  let typ := leAt d 10 1
  let red := if reducing oper then leAt d 11 1 else 0
  let count := leAt d 12 4
  let root := if oper = coReduce ∨ oper = coBroadcast then leAt d 32 4 else 0
  let forms := leAt d 36 1 % 4
  let large := x.crossover != 0xFFFFFFFF && decide (x.crossover < fmSize typ count)
  let seq := x.seq
  let check := collCheck oper typ red count root (large && oper < 5) seq
  let x := { x with seq := (seq + 1) % 2 ^ 32 }
  if x.aborted.contains seq then
    (s.setGroup g { x with aborted := x.aborted.filter (· != seq), early := x.early.filter fun m => m.seq != seq }).opFail n id
      stAborted dCancel
  else
    let lanes := (List.range 8).filter fun l => bit (s.comF .COL_LANE_CFG 7 0) l
    let mine := x.early.filter fun m => m.seq == seq
    let tracks := scheduleOf x oper root (unitsOf typ count) x.rank large
    let send := leAt d 16 8
    let len := fmSize typ (sendCount oper count x.list.length root x.rank)
    let ps := if bit forms 0 then hallPieces send len else []
    let input : RBuf := ⟨ps.map fun p => ⟨p.1, p.2, none⟩, none⟩
    let c : Coll := ⟨n, id, seq, oper, typ, red, count, root, check, lanes, 0, w.inst, q.tc, forms, send, leAt d 24 8, input, false,
      tracks, [], mine.filter fun m => m.check == check, 0, 0, false, false, false, false⟩
    let s := s.setGroup g { x with coll := some c, early := x.early.filter fun m => m.seq != seq }
    let s := s.updOp n id fun o => { o with phase := .active }
    let s := ps.foldl (fun s p => s.hallAsk (.coll g seq 1 p.1) x.partition q.tc (s.instGen w.inst) (send + p.1) (.inr p.2)) s
    let s := if mine.any fun m => m.check != check then
        { s.setFlag .COL_ERR 0 with jobs := { s.jobs with faults := s.jobs.faults ++ [(x.partition, 3, s.me)] } }
      else s
    s.collLoad g

/-- A COLLECTIVE reaches issue, or goes on reading its SEND. `oper` is the row's operation; a code that names none is judged
by any row. Its buffers are translated as their data move (R116). -/
def State.collective (s : State) (n id oper : Nat) : State :=
  match (s.wq n).bind fun w => w.op id with
  | none => s
  | some o =>
    let code := leAt o.desc 9 1
    let g := leAt o.desc 8 1
    if dOp o.desc ≠ 0x10 ∨ (code ≠ oper ∧ 1 ≤ code ∧ code ≤ 6) then s
    else if o.phase = .active then
      match s.coll g with
      | some c => if c.wq = n ∧ c.op = id then s.collLoad g else s
      | none => s
    else s.runOp n id 0x10 fun s w o _ q =>
      match s.collFail q o.desc with
      | some f => s.opFail n id f.1 f.2
      | none =>
        match s.group g with
        | none => s
        | some x => if x.coll.isSome then s else s.collPost n id w o q g x

/-! ## Arrivals and outcomes -/

/-- A COLL_DATA message of a defined group has been accepted (R406). -/
def State.collIn (s : State) (p : Pkt) : State :=
  let g := beNat (slice p.payload 0 1)
  let m := readColl p
  match s.group g with
  | none => s
  | some x =>
    match x.coll with
    | some c =>
      if m.seq = c.seq then
        if m.check = c.check then (s.setColl g { c with inbox := c.inbox ++ [m] }).collGo g
        else { s.setFlag .COL_ERR 0 with jobs := { s.jobs with faults := s.jobs.faults ++ [(x.partition, 3, s.me)] } }
      else if seqNewer m.seq c.seq then s.setGroup g { x with early := x.early ++ [m] } else s
    | none => if m.seq = x.seq ∨ seqNewer m.seq x.seq then s.setGroup g { x with early := x.early ++ [m] } else s

/-- A message, a read of SEND or a write of RECV of a collective has ended: `what` is 0, 1 or 2. -/
def State.collAcked (s : State) (g seq what off status reason : Nat) (data : Bytes) : State :=
  match s.coll g with
  | none => s
  | some c =>
    if c.seq ≠ seq then s
    else if status ≠ 0 then s.collAbort g status reason true
    else if what = 1 then
      (s.setColl g { c with input := c.input.land off data }).collLoad g
    else if what = 2 then (s.setColl g { c with writes := c.writes - 1 }).collEnd g
    else (s.setColl g { c with unacked := c.unacked - 1 }).collEnd g

/-- An abort has reached this rank (R407): the matching collective completes ABORTED, now or when it is posted. -/
def State.collAborted (s : State) (g seq : Nat) (own : Bool) : State :=
  match s.group g with
  | none => s
  | some x =>
    let s := if own then s else (s.setFlag .COL_ERR 1).count .COL_ABORT_COUNT
    match x.coll with
    | some c =>
      if c.seq = seq then (s.dropColl g).opDone c.wq c.op stAborted dCancel false 0 0
      else if seqNewer seq c.seq then s.setGroup g { x with aborted := x.aborted ++ [seq] } else s
    | none => if (seq = x.seq ∨ seqNewer seq x.seq) ∧ !own then s.setGroup g { x with aborted := x.aborted ++ [seq] } else s

/-- The group and sequence number of a COLLECTIVE that has passed no check yet and would be posted next; it has no part in one that fails them. -/
def State.unposted (s : State) (n : Nat) (o : Op) : Option (Nat × Group × Qp) :=
  if dOp o.desc ≠ 0x10 ∨ o.phase ≠ .ready then none
  else match ((s.wq n).bind (·.qp)).bind s.qp, s.group (leAt o.desc 8 1) with
    | some q, some x => if (s.collFail q o.desc).isSome then none else some (leAt o.desc 8 1, x, q)
    | _, _ => none

/-- A COLLECTIVE that is not posted is ended locally: its sequence number passes, and the others are told (R399, R407; log 33). -/
def State.abortUnposted (s : State) (n : Nat) (o : Op) : State :=
  match s.unposted n o with
  | none => s
  | some (g, x, q) =>
    let t := s.setGroup g { x with
      seq := (x.seq + 1) % 2 ^ 32, aborted := x.aborted.filter (· != x.seq), early := x.early.filter fun m => m.seq != x.seq }
    if x.aborted.contains x.seq then t else t.sendAbort g x x.seq q.tc

/-- A quench of the group's partition (R793). A definition that waits for its members ends with it on every member, and with it what they have
sent (R396). -/
def State.collQuench (s : State) (g : Nat) : State :=
  match s.group g with
  | none => s
  | some x =>
    match x.waiting with
    | some w =>
      let s := (s.dropGroup g).reply w.1 w.2 stJobFault 0 []
      { s with col := { s.col with setups := s.col.setups.filter fun e => e.1 != g } }
    | none =>
    let s := s.setGroup g { x with seq := 0, coll := none, early := [], aborted := [] }
    match x.coll with
    | some c => (s.setFlag .COL_ERR 1).opDone c.wq c.op stJobFault 0 false 0 0
    | none => s

/-- The group whose collective an operation is, if any. -/
def State.collOf (s : State) (n id : Nat) : Option Nat :=
  (s.col.groups.find? fun e => match e.2.coll with
    | some c => c.wq == n && c.op == id
    | none => false).map (·.1)

end Sys2Proof.Machine
end

