-- ==== Sys2Proof/Machine/Expert.lean ====
section
/-!
DEFINITION. Expert writes and commits (R47, R233 to R236, R719, R724): who may write an expert register, what is dropped
and logged, and how a shadowed set is taken into use.
-/

namespace Sys2Proof.Machine

/-- The bit of a block in the BLOCKS field of EXPERT_UNLOCK (R232), by an offset in it; none for GLB and ADM. -/
def blockBit (addr : Nat) : Option Nat :=
  let b := blockBase addr
  if b = 0x100000 then some 0
  else if b < 0x800000 then none
  else if b = 0x800000 then some 1
  else some (b / 0x400000 - 1)

/-- Kinds of the access log (R724). -/
def akNarrow : Nat := 1
def akMisaligned : Nat := 2
def akRefusedRid : Nat := 3
def akNotManager : Nat := 4
def akUnbacked : Nat := 5
def akRange : Nat := 6
def akNoInstance : Nat := 7

/-- The bit of `HIF_ERR` of an access-log kind (R743). -/
def hifErrBit (kind : Nat) : Nat := [0, 1, 2, 6, 0, 4, 3, 8].getD kind 0

/-- A dropped or refused host access: the log, the function's flag, and the port's counter (R724, R744). -/
def State.accessLog (s : State) (kind bar fn bytes offset : Nat) : State :=
  let v := 2 ^ 63 + kind * 2 ^ 59 + bar * 2 ^ 57 + fn % 512 * 2 ^ 48 + min 15 bytes * 2 ^ 44 + offset % 2 ^ 28
  let s := s.setReg .HIF_ACCESS_LOG (BitVec.ofNat 64 v)
  let s := if kind = akNotManager ∧ !isPf fn then s else s.setFlagOf fn .HIF_ERR (hifErrBit kind)
  if kind = akMisaligned ∨ kind = akRefusedRid then s.count (.HIF_REFUSED_COUNT (portOf fn))
  else s.count (.HIF_DROPPED_WRITE_COUNT (portOf fn))

/-- A dropped expert write of port 0's physical function at an offset of its BAR0 (R233). -/
def State.expertDrop (s : State) (addr : Nat) : State :=
  ((s.countOf 0 .ADM_EXPERT_DROP_COUNT 1).setRegOf 0 .ADM_EXPERT_DROP_ADDR (BitVec.ofNat 64 addr)).setFlagOf 0 .ADM_ERR 2

/-- Whether the block of an offset is unlocked (R232). -/
def State.unlockedAt (s : State) (addr : Nat) : Bool :=
  match blockBit addr with
  | some b => bit s.adm.unlocked b
  | none => true

/-- The blocks that only the manager's function presents (R719). -/
def managerOnly (addr : Nat) : Bool :=
  [0x800000, 0x1400000, 0x2000000, 0x2800000, 0x2C00000].contains (blockBase addr)

/-- Whether the BAR0 of a function other than the manager's shows the register at an offset of a physical function's BAR0: the blocks present
there (R719), and of a virtual function `HIF_COMMIT` alone of the expert registers (R720). -/
def shownTo (fn addr : Nat) : Bool := if isPf fn then !managerOnly addr else addr == Reg.HIF_COMMIT.addr

/-- An expert write of `bytes` bytes at an offset by a function: it has the effect `f` when the function is the manager's
and the block is unlocked (R233, R719), and none where BAR0 does not answer (R717). One of another function is dropped and logged, or ignored
where its BAR0 does not show the register (R719, R720). -/
def State.expert (s : State) (fn addr bytes : Nat) (f : State → State) : State :=
  if !s.barAnswers addr then s
  else if fn ≠ 0 then if shownTo fn addr then s.accessLog akNotManager 0 fn bytes addr else s
  else if !s.unlockedAt addr then s.expertDrop addr
  else f s

/-- A write of 1 to a block's COMMIT field: the set is taken into use when it is consistent, else refused (R235). -/
def State.commit (s : State) (fn : Nat) (r : Reg) (good : State → Bool) (rejected : State → State) (set : List Reg) : State :=
  s.expert fn r.addr 4 fun s =>
    if good s then s.commitRegs set else (rejected s).setFlagOf 0 .ADM_ERR 3

end Sys2Proof.Machine
end

