-- ==== Sys2Proof/Machine/Frames.lean ====
section
/-!
DEFINITION. The 2 MiB frames of the module's HBM: which are free, and which one is taken (R57, R540, R542, R693).
-/

namespace Sys2Proof.Machine

/-- The frames of a stack (R26, R57). -/
def framesPerStack : Nat := 32768

/-- The frames of the module. -/
def framesTotal : Nat := 8 * framesPerStack

/-- Whether a stack is in service (R809). -/
def State.stackServes (s : State) (st : Nat) : Bool := SMap.getD s.hbm.stackUp st 0 == 2

/-- The frames of a stack that are used for nothing. A stack out of service has none (R782). -/
def State.stackFree (s : State) (st : Nat) : Nat :=
  if !s.stackServes st then 0
  else framesPerStack - (s.hbm.frames.filter fun f => f.1 / framesPerStack == st).length

/-- The frames that a module holds for pages of other homes of a partition, or is receiving (R540). -/
def State.reserveUsed (s : State) (partition : Nat) : Nat :=
  (s.plc.held.filter fun h => h.1 / 2 ^ 23 != s.me && h.2.partition == partition).length +
    (s.plc.incoming.filter fun h => h.1 / 2 ^ 23 != s.me && h.2.partition == partition).length

/-- The reserve of a partition (R539). -/
def State.reserveOf (s : State) (partition : Nat) : Nat := ((SMap.find s.plc.policies partition).map (·.reserve)).getD 0

/-- The free reserve of a partition: none while the frames in use exceed it (R541). -/
def State.reserveFree (s : State) (partition : Nat) : Nat := s.reserveOf partition - s.reserveUsed partition

/-- The frames that a partition's reserve sets aside, or that are in use for it beyond its reserve. -/
def State.reserveHeld (s : State) (partition : Nat) : Nat := max (s.reserveOf partition) (s.reserveUsed partition)

/-- The free frames of the module: those not allotted to an instance, not a home frame, not in a reserve, and not used by a
physical function's instance (R540, R835). -/
def State.freeFrames (s : State) : Nat :=
  let parts := (s.plc.policies.map (·.1) ++ s.plc.held.map (fun h => h.2.partition)).eraseDups
  let other := (s.hbm.frames.filter fun f => match f.2 with | .foreign _ _ => false | _ => true).length
  framesPerStack * ((List.range 8).filter s.stackServes).length - other - sumList (parts.map fun p => s.reserveHeld p)

/-- The stack with the most free frames, the lower number on a tie (R542). -/
def State.bestStack (s : State) : Nat :=
  (List.range 8).foldl (fun b st => if s.stackFree b < s.stackFree st then st else b) 0

/-- Take a frame on the stack with the most free frames (R542); which one is left to the implementation: the lowest. -/
def State.takeFrame (s : State) (use_ : FrameUse) : Option (Nat × State) :=
  let st := s.bestStack
  if s.stackFree st = 0 then none
  else (SMap.freeFrom s.hbm.frames framesPerStack (st * framesPerStack)).map fun f =>
    (f, { s with hbm := { s.hbm with frames := SMap.put s.hbm.frames f use_ } })

/-- Free a frame. -/
def State.freeFrame (s : State) (f : Nat) : State := { s with hbm := { s.hbm with frames := SMap.del s.hbm.frames f } }

end Sys2Proof.Machine
end

