-- ==== Sys2Proof/Machine/Moves.lean ====
section
/-!
DEFINITION. Placement packets and what a performed write means to a page that is being copied or is replicated (R543,
R546, R547, R560).
-/

namespace Sys2Proof.Machine

/-- The traffic class of placement packets (R560, R562). -/
def State.moveClass (s : State) : Nat := s.comF .PLC_MOVE_CFG 2 0

/-- The 64-byte fields of a placement packet: home, page, SEQ, then further fields from byte 16 in the order of R560's table
(log 22: the spec gives them no bytes of their own). -/
def plcPayload (home page seq : Nat) (more : Bytes) : Bytes :=
  slice (beBytes 3 home ++ [0] ++ beBytes 3 page ++ [0] ++ beBytes 4 seq ++ zeros 4 ++ more) 0 64

/-- The home, page and SEQ of a placement payload. -/
def plcHome (p : Pkt) : Nat := beNat (slice p.payload 0 3)
def plcPage (p : Pkt) : Nat := beNat (slice p.payload 4 3)
def plcSeq (p : Pkt) : Nat := beNat (slice p.payload 8 4)
def plcByte (p : Pkt) (i : Nat) : Nat := beNat (slice p.payload i 1)
def plcModule (p : Pkt) (i : Nat) : Nat := beNat (slice p.payload i 3) % 2 ^ 17

/-- Send a placement packet about a page. Between roles of one module it takes no packet and is done at the end of the
command (R543). -/
def State.plcSend (s : State) (owner : TxnOwner) (typ dst key seq partition : Nat) (more : Bytes) : State :=
  let body := plcPayload (key / 2 ^ 23) (key % 2 ^ 23) seq more
  if dst = s.me then
    let p := { s.blank typ dst s.moveClass with partition, length := 64, payload := body }
    { s with qpe := { s.qpe with inbox := s.qpe.inbox ++ [p], resolved := s.qpe.resolved ++ [⟨owner, s.me, 0, 0, false, []⟩] } }
  else s.control owner typ dst s.moveClass partition body

/-- The poison mask of the 128 words of unit `u` of a page held here (R543). -/
def State.unitMask (s : State) (key : Nat) (h : Held) (u : Nat) : Nat :=
  sumList ((List.range 128).map fun i =>
    let bad := match SMap.find s.hbm.ecc ((h.addr (u * 4096)) / 32 + i) with
      | some .correctable => false
      | some _ => true
      | none => false
    if bad || s.pagePoison key (u * 4096 + i * 32) 32 then 2 ^ i else 0)

/-- Send unit `u` of a page to the target of its copy as MOVE_COPY (R543), one message of 4,160 bytes (log 90); `pass` marks a passed
write. -/
def State.sendUnit (s : State) (key : Nat) (h : Held) (dst u : Nat) (pass : Bool) : State :=
  let mask := s.unitMask key h u
  let r := (s.via .move).physRead (h.addr (u * 4096)) 4096
  let fields := plcPayload (key / 2 ^ 23) (key % 2 ^ 23) h.seq (beBytes 4 (u * 4096) ++ beBytes 16 mask)
  (r.2.2.via .fab).control (.copy key h.run (u + 512 * b2n pass)) 0x2A dst s.moveClass h.partition (fields ++ r.1)

/-- A copy of a page held here ends: no unit of it that still waits is sent, and the acknowledgements of the others count for nothing (R545, R546). -/
def State.stopCopy (s : State) (key : Nat) : State :=
  match s.heldPage key with
  | none => s
  | some h =>
    let ours (o : TxnOwner) : Bool := match o with
      | .copy k run _ => k == key && run == h.run
      | _ => false
    let s := { s with
      qpe := { s.qpe with control := s.qpe.control.filter fun c => !ours c.1 }
      plc := { s.plc with starts := s.plc.starts.filter fun x => x.key != key || x.home } }
    s.setHeld key { h with copyTo := none, copied := 0, acked := 0, passed := 0 }

/-- What follows a write or atomic performed on a page held here as writing holder: it is passed to the target of a move
that has already copied the bytes (R93, R543 step 4), and it abandons a replica's copy (R546). -/
def State.afterWrite (s : State) (key byte len : Nat) : State :=
  match s.heldPage key with
  | none => s
  | some h =>
    match h.copyTo with
    | none => s
    | some dst =>
      if h.copyReplica then
        if h.acked < 512 then
          let s := s.stopCopy key
          s.plcSend .control 0x2B h.home key h.seq h.partition (beBytes 1 1)
        else s
      else
        let us := ((pieces 4096 byte len).map fun p => (byte + p.1) / 4096).filter fun u => decide (u < h.copied)
        us.foldl (fun s u =>
          match s.heldPage key with
          | some h => (s.setHeld key { h with passed := h.passed + 1 }).sendUnit key h dst u true
          | none => s) s

/-- Whether a write to a page held here must first be noted at its source (R546, R547 step 1). -/
def State.mustNote (s : State) (key : Nat) : Bool :=
  match s.heldPage key with
  | some h => (h.replicated || h.due) && !h.replica
  | none => false

/-- Send COLLAPSE_NOTE: role 0 SOURCE or 1 HOME, the source module and its queue pair (R547, R560). -/
def State.sendNote (s : State) (owner : TxnOwner) (dst key role src qpn : Nat) : State :=
  match s.heldPage key with
  | some h => s.plcSend owner 0x2E dst key h.seq h.partition (beBytes 1 role ++ zeros 3 ++ beBytes 3 src ++ [0] ++ beBytes 3 qpn)
  | none => s

/-- Send THATCH_HINT to a module: writing holder and read holder (R534). -/
def State.sendHint (s : State) (page : Nat) (p : Page) (dst : Nat) : State :=
  s.plcSend .control 0x2D dst (pageKey s.me page) p.seq p.partition
    (beBytes 3 p.writer ++ [0] ++ beBytes 3 (s.nearest dst (p.writer :: p.replicas) p.writer))

/-- A hint to a source whose access the home passes on, once per source, page and SEQ (R534). -/
def State.hintOnce (s : State) (page src : Nat) : State :=
  match s.page page with
  | none => s
  | some p =>
    if src = s.me ∨ !s.member p.partition src ∨ p.hints.contains src then s
    else (s.setPage page { p with hints := p.hints ++ [src] }).sendHint page p src

end Sys2Proof.Machine
end

