-- ==== Sys2Proof/Machine/Operators.lean ====
section
/-!
DEFINITION. The operators of transit programs: what each computes from the bytes of its inputs (R496, R500 to R527).
-/

namespace Sys2Proof.Machine

/-- What an operator produces: the bytes of its outputs, how many output elements saturated, whether one is special, and
whether a sum was truncated (R453, R504). -/
structure OpOut where
  outs : List Bytes
  sat : Nat
  spec : Bool
  inexact : Bool
  deriving DecidableEq, Repr

/-- An output of one encoded run. -/
def OpOut.one (e : Enc) (inexact : Bool) : OpOut := ⟨[e.bytes], e.sat, e.spec, inexact⟩

/-- Two outputs, of which the second counts for nothing when record `r` names no OUT1 for it (R460, R496). -/
def OpOut.two (r : Bytes) (a b : Enc) (inexact : Bool) : OpOut :=
  let used := leAt r 7 1 != 0xFF
  ⟨[a.bytes, b.bytes], a.sat + (if used then b.sat else 0), a.spec || (used && b.spec), inexact⟩

/-- Bytes that an operator hands on unchanged, of `n` elements of a format: special and inexact as they are (R453, R504). -/
def OpOut.raw (f n : Nat) (b : Bytes) (sat : Nat) : OpOut := ⟨[b], sat, anySpecial f n b, (readValues f n b).2⟩

/-- A parameter of an operator record (R460). -/
def opP (r : Bytes) (off n : Nat) : Nat := leAt r off n

/-- Input `i` of an operator. -/
def opIn (ins : List Bytes) (i : Nat) : Bytes := ins.getD i []

/-- The values of an input. -/
def opVals (ins : List Bytes) (i f n : Nat) : List Num := (readValues f n (opIn ins i)).1

/-- The FP32 values of an input. -/
def opF32 (ins : List Bytes) (i f n : Nat) : List F32 := (opVals ins i f n).map Num.f32

/-- A signed 32-bit number of an input. -/
def opInt (b : Bytes) (i : Nat) : Int := let v := leAt b (4 * i) 4; if v < 2 ^ 31 then v else (v : Int) - 2 ^ 32

/-- Rows of a row-major tensor. -/
def rowsOf {α : Type} (rows cols : Nat) (l : List α) : List (List α) := (List.range rows).map fun r => (l.drop (r * cols)).take cols

/-- Column `c` of a row-major tensor. -/
def colOf {α : Type} (rows cols c : Nat) (d : α) (l : List α) : List α := (List.range rows).map fun r => l.getD (r * cols + c) d

/-! ## Movement and conversion (R500 to R506) -/

/-- COPY (R500). -/
def opCopy (r : Bytes) (ins : List Bytes) : OpOut :=
  let f := opP r 20 1
  .raw f (opP r 16 4 / fmBytes f * fmBlock f) (slice (opIn ins 0) (opP r 8 8) (opP r 16 4)) 0

/-- CONVERT (R501, R502). -/
def opConvert (r : Bytes) (ins : List Bytes) : OpOut :=
  let f := opP r 8 1
  let t := opP r 9 1
  let n := opP r 12 4
  let inx := (readValues f n (opIn ins 0)).2
  if f = t then .raw f n (slice (opIn ins 0) 0 (fmSize f n)) 0
  else if t = 9 then
    let ss := readSetsOf f n (opIn ins 0)
    .one (roundSets 9 n 1 ss) (ss.any (·.inexact))
  else
    let vs := opVals ins 0 f n
    let vs := if f = 9 then vs.map Num.plusZero else vs
    if opP r 10 1 = 1 then
      .one (((groupsOf (fmBlock t) (n + 1) vs).mapIdx fun i g => encodeBlockAt t (leAt (opIn ins 1) i 1) g).foldl Enc.append ⟨[], 0, false⟩) inx
    else .one (encodeAll t vs) inx

/-- SCALE_ADD (R503). -/
def opScaleAdd (r : Bytes) (ins : List Bytes) : OpOut :=
  let n := opP r 12 4
  let len := if opP r 16 4 = 0 then n else opP r 16 4
  let alpha := opP r 20 4
  let beta := opP r 24 4
  let a := opF32 ins 0 (opP r 8 1) n
  let inx := (readValues (opP r 8 1) n (opIn ins 0)).2
  if bit (opP r 11 1) 0 then
    let b := opF32 ins 1 (opP r 9 1) len
    let inx := inx || (readValues (opP r 9 1) len (opIn ins 1)).2
    .one (encode32 (opP r 10 1) (a.mapIdx fun i x => ffma alpha x (fmul beta (b.getD (i % len) 0)))) inx
  else .one (encode32 (opP r 10 1) (a.map fun x => fmul alpha x)) inx

/-- The exact sums of the columns of rows, as sets of 16 columns (R504). -/
def exactCols (rows : List (List Num)) (cols : Nat) : List PSet :=
  let setsOf (row : List Num) := (groupsOf 16 (cols + 1) row).map fun g =>
    setOfNums (g ++ List.replicate (16 - g.length) .zero)
  match rows with
  | [] => []
  | x :: xs => xs.foldl (fun acc row => (acc.zip (setsOf row)).map fun p => p.1.add p.2) (setsOf x)

/-- The columns of a row-major tensor as rows. -/
def transposed {α : Type} (rows cols : Nat) (d : α) (l : List α) : List (List α) := (List.range cols).map fun c => colOf rows cols c d l

/-- REDUCE (R402, R504). With AXIS 1 the reduced values are those of each row. -/
def opReduce (r : Bytes) (ins : List Bytes) : OpOut :=
  let f := opP r 8 1
  let t := opP r 9 1
  let op := opP r 10 1
  let axis := opP r 11 1
  let rows := opP r 12 4
  let cols := opP r 16 4
  let rv := readValues f (rows * cols) (opIn ins 0)
  let along := if axis = 0 then rowsOf rows cols rv.1 else transposed rows cols .zero rv.1
  let n := if axis = 0 then cols else rows
  let count := if axis = 0 then rows else cols
  if op < 2 then
    if opP r 20 1 = 1 then
      let ss := exactCols along n
      .one (roundSets t n (if op = 1 then count else 1) ss) (rv.2 || ss.any (·.inexact))
    else
      let sums := (transposed along.length n .zero (along.flatMap id)).map fun xs => fixedSum (xs.map Num.f32)
      .one (encode32 t (if op = 1 then sums.map fun x => fmul x (srcp (f32OfNat count)) else sums)) rv.2
  else if f = 7 ∧ t = 7 ∧ axis = 0 then
    let bs := (List.range rows).map fun i => slice (opIn ins 0) (i * fmSize 7 cols) (fmSize 7 cols)
    let e := bs.tail.foldl (fun (acc : Enc) b => pickAll 7 (op == 2) cols acc.bytes b) ⟨bs.headD [], 0, false⟩
    .one ⟨e.bytes, e.sat, (decodeAll 7 cols e.bytes).any fun v => !v.isFin⟩ false
  else if f = 7 ∧ t = 7 then .one (pickRows (op == 2) rows cols (opIn ins 0)) false
  else
    let res := match along with
      | [] => []
      | x :: xs => xs.foldl (fun acc row => (acc.zip row).map fun p => pick (op == 2) p.1 p.2) x
    .one (encodeAll t res) rv.2

/-- The hash of the stochastic rounding (R506). -/
def srMix (seed i : Nat) : Nat :=
  let m := 2 ^ 32
  let x := seed ^^^ (i * 0x9E3779B9 % m)
  let x := x ^^^ (x >>> 16)
  let x := x * 0x85EBCA6B % m
  let x := x ^^^ (x >>> 13)
  let x := x * 0xC2B2AE35 % m
  x ^^^ (x >>> 16)

/-- The grid of a block format in units of one half, ascending, with the codes (R506). -/
def gridOf (f : Nat) : List (Int × Nat) :=
  if f = 7 then ((List.range 8).reverse.map fun c => (-(e2m1.getD c 0 : Int), if c = 0 then 0 else 8 + c)).dropLast ++
    (List.range 8).map fun c => ((e2m1.getD c 0 : Int), c)
  else [(-6, 0), (-2, 1), (2, 2), (6, 3)]

/-- A finite value in units of 2^(x-1) as a ratio of integers: numerator and denominator. -/
def ratioAt (x : Int) : Num → Int × Int
  | .fin s m e =>
    let d := e - (x - 1)
    let v : Int := if 0 ≤ d then ((m * 2 ^ d.toNat : Nat) : Int) else (m : Int)
    (if s then -v else v, if 0 ≤ d then 1 else 2 ^ (-d).toNat)
  | _ => (0, 1)

/-- Round one value stochastically to a grid (R506): its code, and whether it was clamped. -/
def roundStochastic (f : Nat) (x : Int) (seed i : Nat) (v : Num) : Nat × Bool :=
  let g := gridOf f
  let r := ratioAt x v
  let u := r.1
  let d := r.2
  let lowest := g.headD (0, 0)
  let highest := g.getLastD (0, 0)
  if u ≤ lowest.1 * d then (lowest.2, decide (u < lowest.1 * d))
  else if highest.1 * d ≤ u then (highest.2, decide (highest.1 * d < u))
  else
    let lo := (g.filter fun p => decide (p.1 * d ≤ u)).getLastD lowest
    let hi := (g.filter fun p => decide (u ≤ p.1 * d)).headD highest
    if lo.1 = hi.1 then ((match v with | .fin true 0 _ => if f = 7 then 8 else lo.2 | _ => lo.2), false)
    else
      let p := ((u - lo.1 * d) * 2 ^ 32).fdiv ((hi.1 - lo.1) * d)
      (if (srMix seed i : Int) < p then hi.2 else lo.2, false)

/-- QUANTIZE_BLOCK (R505, R506). -/
def opQuantize (r : Bytes) (ins : List Bytes) : OpOut :=
  let f := opP r 8 1
  let t := opP r 9 1
  let n := opP r 12 4
  let adj : Int := let a := opP r 20 1; if a < 128 then a else (a : Int) - 256
  let rv := readValues f n (opIn ins 0)
  let blk := fmBlock t
  let enc (b : Nat) (g : List Num) : Enc :=
    if opP r 10 1 = 0 then encodeBlock t adj g
    else if g.any fun v => !v.isFin then nanBlock
    else
      let a := amax g
      if a.isZero then encodeBlock t 0 g else
        let x := scaleExp t a + adj
        let top := decide (127 < x)
        let x := max (min x 127) (if t = 7 then -127 else -126)
        let rs := g.mapIdx fun j v => roundStochastic t x (opP r 16 4) (b * blk + j) v
        let e : Enc := ⟨BitVec.ofNat 8 (x + 127).toNat :: packCodes (if t = 7 then 4 else 2) (rs.map (·.1)),
          if adj < 0 ∨ top then (rs.filter (·.2)).length else 0, false⟩
        if top then e.topped else e
  let e := ((groupsOf blk (n + 1) rv.1).mapIdx enc).foldl Enc.append ⟨[], 0, false⟩
  if bit (opP r 11 1) 0 then
    let res := encode32 (opP r 21 1) (((rv.1.map Num.f32).zip ((decodeAll t n e.bytes).map Num.f32)).map fun p => fsub p.1 p.2)
    .two r e res rv.2
  else .one e rv.2

/-! ## Products (R446, R507 to R509) -/

/-- The K step of a pair of formats (R508). -/
def kStep (w x : Nat) : Nat :=
  if w = 8 ∧ x = 7 then 64 else if w = 7 ∧ x = 7 then 32 else if w = 2 ∧ x = 2 then 16 else 32

/-- The N step of a pair of formats (R508). -/
def nStep (w x : Nat) : Nat := if x = 7 ∧ (w = 7 ∨ w = 8) then 64 else 32

/-- The exact sum of products of a step (R446). -/
def stepSum (ws xs : List Num) : Num := (ws.zip xs).foldl (fun a p => a.add (p.1.mul p.2)) .zero

/-- One row times one column with FP32 accumulation in ascending steps (R446, R509). -/
def gemmDot (ks : Nat) (ws xs : List Num) : F32 :=
  ((groupsOf ks (ws.length + 1) ws).zip (groupsOf ks (ws.length + 1) xs)).foldl
    (fun acc p => enc32 ((dec32 acc).add (stepSum p.1 p.2))) 0

/-- One row times one column of INT8 with a saturating INT32 accumulator: the value and whether it saturated (R446). -/
def gemmDotInt (ws xs : List Num) : Int × Bool :=
  ((groupsOf 32 (ws.length + 1) ws).zip (groupsOf 32 (ws.length + 1) xs)).foldl (fun acc p =>
    let v := acc.1 + ((stepSum p.1 p.2).whole).getD 0
    if 2 ^ 31 - 1 < v then (2 ^ 31 - 1, true) else if v < -(2 ^ 31) then (-(2 ^ 31), true) else (v, acc.2)) (0, false)

/-- GEMM (R507 to R509). -/
def opGemm (r : Bytes) (ins : List Bytes) : OpOut :=
  let tw := opP r 8 1
  let tx := opP r 9 1
  let t := opP r 10 1
  let m := opP r 12 4
  let k := opP r 16 4
  let n := opP r 20 4
  let alpha := opP r 24 4
  let ws := rowsOf m k (opVals ins 0 tw (m * k))
  let xs := rowsOf n k (opVals ins 1 tx (n * k))
  let int := tw == 6
  if int && t == 5 then
    let rs := xs.flatMap fun x => ws.map fun w => gemmDotInt w x
    ⟨[rs.flatMap fun p => leBytes 4 (p.1.emod (2 ^ 32)).toNat], (rs.filter (·.2)).length, false, false⟩
  else
    let bias := if bit (opP r 11 1) 0 then some (opF32 ins 2 1 m) else none
    let accum := if bit (opP r 11 1) 1 then some (opF32 ins 3 t (m * n)) else none
    let cells := xs.mapIdx fun ti x => ws.mapIdx fun mi w =>
      let a := if int then let p := gemmDotInt w x; (enc32 (numOf p.1 0 false), p.2) else (gemmDot (kStep tw tx) w x, false)
      let y := fmul a.1 alpha
      let y := match bias with | some b => fadd y (b.getD mi 0) | none => y
      let y := match accum with | some c => fadd y (c.getD (ti * m + mi) 0) | none => y
      (y, a.2)
    .one (encodeMarked t (cells.flatMap fun row => row.map fun y => (dec32 y.1, y.2))) false

/-! ## Row and element operators (R510 to R515) -/

/-- One row of NORM (R510). -/
def normRow (layer : Bool) (eps : F32) (x : List F32) : List F32 :=
  let rc := srcp (f32OfNat x.length)
  if layer then
    let mu := fmul (fixedSum x) rc
    let d := x.map fun v => fsub v mu
    let s := fmul (fixedSum (d.map fun v => fmul v v)) rc
    d.map fun v => fmul v (srsqrt (fadd s eps))
  else
    let s := fmul (fixedSum (x.map fun v => fmul v v)) rc
    x.map fun v => fmul v (srsqrt (fadd s eps))

/-- NORM (R510). -/
def opNorm (r : Bytes) (ins : List Bytes) : OpOut :=
  let rows := opP r 12 4
  let cols := opP r 16 4
  let fl := opP r 11 1
  let xs := rowsOf rows cols (opF32 ins 0 (opP r 8 1) (rows * cols))
  let g := if bit fl 0 then some (opF32 ins 1 1 cols) else none
  let b := if bit fl 1 then some (opF32 ins 2 1 cols) else none
  let ys := xs.flatMap fun x => (normRow (opP r 10 1 == 1) (opP r 20 4) x).mapIdx fun c y =>
    let y := match g with | some g => fmul y (g.getD c 0) | none => y
    match b with | some b => fadd y (b.getD c 0) | none => y
  .one (encode32 (opP r 9 1) ys) false

/-- SIGMOID (R512). -/
def fSigmoid (x : F32) : F32 := srcp (fadd f32One (fexp (fneg x)))

/-- TANH (R512). -/
def fTanh (x : F32) : F32 := fsub (fmul f32Two (srcp (fadd f32One (fexp (fmul (fneg f32Two) x))))) f32One

/-- The element functions of R512. -/
def actFun (code : Nat) (x : F32) : F32 :=
  match code with
  | 0 => x
  | 1 => match dec32 x with
    | .nan => fmNan 1
    | .inf true _ => 0
    | .fin true _ _ => 0
    | _ => x
  | 2 => fmul (fmul f32Half x) (fadd f32One (fTanh (fmul 0x3F4C422A (fadd x (fmul (fmul (fmul 0x3D372713 x) x) x)))))
  | 3 => fmul x (fSigmoid x)
  | 4 => fSigmoid x
  | 5 => fTanh x
  | _ => fexp x

/-- SOFTMAX of a row (R512). -/
def softmaxRow (x : List F32) : List F32 :=
  if x.all negInf32 then x.map fun _ => 0 else
    let m := x.foldl fmaxf f32NegInf
    let p := x.map fun v => fexp (fsub v m)
    p.map fun v => fmul v (srcp (fixedSum p))

/-- ACTIVATE (R511, R512). -/
def opActivate (r : Bytes) (ins : List Bytes) : OpOut :=
  let rows := opP r 12 4
  let cols := opP r 16 4
  let f := opP r 8 1
  let x := opF32 ins 0 f (rows * cols)
  let y := if opP r 10 1 = 7 then (rowsOf rows cols x).flatMap softmaxRow else x.map (actFun (opP r 10 1))
  let y := if bit (opP r 11 1) 0 then (y.zip (opF32 ins 1 f (rows * cols))).map fun p => fmul p.1 p.2 else y
  .one (encode32 (opP r 9 1) y) false

/-- A row index of GATHER_ROWS or SCATTER_ADD: valid, absent as -1 written so is, or out of range (R514). -/
def rowIndex (written base : Int) (rows : Nat) : Option Nat × Bool :=
  let i := written - base
  if written = -1 then (none, false)
  else if 0 ≤ i ∧ i < rows then (some i.toNat, false)
  else (none, true)

/-- The base index (R513). -/
def indexBase (r : Bytes) : Int := let v := opP r 24 4; if v < 2 ^ 31 then v else (v : Int) - 2 ^ 32

/-- GATHER_ROWS (R513, R514). -/
def opGather (r : Bytes) (ins : List Bytes) : OpOut :=
  let f := opP r 8 1
  let rows := opP r 12 4
  let elems := opP r 16 4
  let n := opP r 20 4
  let size := fmSize f elems
  let table := opIn ins 0
  let rec1 := opIn ins 1
  if bit (opP r 9 1) 0 then
    let grp := opP r 10 1
    let picks := (List.range n).map fun j => (List.range grp).map fun g =>
      (rowIndex (opInt rec1 (2 * (j * grp + g))) (indexBase r) rows, leAt rec1 (8 * (j * grp + g) + 4) 4)
    let ys := picks.flatMap fun ps =>
      ps.foldl (fun acc p => match p.1.1 with
        | some i => (acc.zip ((decodeAll f elems (slice table (i * size) size)).map Num.f32)).map fun q => ffma p.2 q.2 q.1
        | none => acc) (List.replicate elems 0)
    let e := encode32 (opP r 11 1) ys
    .one { e with sat := e.sat + sumList (picks.map fun ps => (ps.filter fun p => p.1.2).length) } false
  else
    let picks := (List.range n).map fun j => rowIndex (opInt rec1 j) (indexBase r) rows
    let out := picks.flatMap fun p => match p.1 with
      | some i => slice table (i * size) size
      | none => zeros size
    .raw f (n * elems) out (picks.filter (·.2)).length

/-- SCATTER_ADD (R515). -/
def opScatter (r : Bytes) (ins : List Bytes) : OpOut :=
  let f := opP r 8 1
  let rows := opP r 12 4
  let cols := opP r 16 4
  let n := opP r 20 4
  let idx := (List.range n).map fun i => rowIndex (opInt (opIn ins 1) i) (indexBase r) rows
  let upd := rowsOf n cols (opF32 ins 0 (opP r 9 1) (n * cols))
  let table := rowsOf rows cols (opF32 ins 2 f (rows * cols))
  let out := (idx.zip upd).foldl (fun (t : List (List F32)) p => match p.1.1 with
    | some j => t.modify j fun row => (row.zip p.2).map fun q => fadd q.1 q.2
    | none => t) table
  let e := encode32 f (out.flatMap id)
  .one { e with sat := e.sat + (idx.filter (·.2)).length } false

/-! ## Mixture-of-experts operators (R516 to R519) -/

/-- Whether one score stands above another; a NaN score stands above none (R517). -/
def scoreAbove (x y : F32) : Bool :=
  match dec32 x, dec32 y with
  | .nan, _ => false
  | _, .nan => true
  | a, b => !((if a.isZero then Num.zero else a).le (if b.isZero then Num.zero else b))

/-- An expert of a token: its number, its score, and whether its logit is NaN. -/
structure Scored where
  expert : Nat
  score : F32
  nan : Bool

/-- Put an expert into a list that is sorted by score, highest first, ties to the lower number; those with a NaN logit stand below all
others, whatever their score has become (R517). -/
def insertExpert (x : Scored) : List Scored → List Scored
  | [] => [x]
  | y :: ys =>
    if (!x.nan && y.nan) || (x.nan == y.nan && scoreAbove x.score y.score) then x :: y :: ys else y :: insertExpert x ys

/-- The K best experts of a token by score. -/
def selectTop (k : Nat) (logits sc : List F32) : List Nat :=
  let all := sc.mapIdx fun i x => Scored.mk i x (dec32 (logits.getD i 0) == .nan)
  ((all.foldl (fun l x => insertExpert x l) []).take k).map (·.expert)

/-- The weights of a token's selections (R516, R517). -/
def routeWeights (score : Nat) (normalise : Bool) (sc : List F32) (picks : List Nat) : List F32 :=
  let raw := picks.map fun e => sc.getD e 0
  let w := if score = 1 then softmaxRow raw else raw
  if normalise then w.map fun x => fmul x (srcp (fixedSum w)) else w

/-- The state of slot assignment: counts, dispatch, and combine records. -/
structure RouteAcc where
  count : List Nat
  dispatch : List Int
  combine : List (Int × F32)

/-- TOPK_ROUTE (R516, R517). -/
def opTopk (r : Bytes) (ins : List Bytes) : OpOut :=
  let k := opP r 9 1
  let score := opP r 10 1
  let t := opP r 12 4
  let ex := opP r 16 2
  let cap := opP r 20 4
  let rows := rowsOf t ex (opF32 ins 0 (opP r 8 1) (t * ex))
  let acc := rows.foldl (fun (st : Nat × RouteAcc) row =>
    let sc := if score = 0 then softmaxRow row else if score = 2 then row.map fSigmoid else row
    let picks := selectTop k row sc
    let ws := routeWeights score (bit (opP r 11 1) 0) sc picks
    let a := (picks.zip ws).foldl (fun (a : RouteAcc) p =>
      let c := a.count.getD p.1 0
      if c < cap then
        { a with count := a.count.set p.1 (c + 1), dispatch := a.dispatch.set (p.1 * cap + c) st.1,
                 combine := a.combine ++ [(((p.1 * cap + c : Nat) : Int), p.2)] }
      else { a with combine := a.combine ++ [((-1 : Int), p.2)] }) st.2
    (st.1 + 1, a)) (0, ⟨List.replicate ex 0, List.replicate (ex * cap) (-1), []⟩)
  let word (v : Int) : Bytes := leBytes 4 (v.emod (2 ^ 32)).toNat
  let special := rows.any (·.any fun x => dec32 x == .nan) || acc.2.combine.any fun p => !(dec32 p.2).isFin
  ⟨[(acc.2.dispatch.flatMap word) ++ acc.2.count.flatMap (leBytes 4), acc.2.combine.flatMap fun p => word p.1 ++ leBytes 4 p.2],
    (acc.2.combine.filter fun p => (encodeElem 1 (dec32 p.2)).sat).length, special, false⟩

/-- EXPERT_FFN (R518, R519). -/
def opExpert (r : Bytes) (ins : List Bytes) : OpOut :=
  let tw := opP r 8 1
  let tx := opP r 9 1
  let t := opP r 10 1
  let gated := bit (opP r 12 1) 0
  let dm := opP r 16 4
  let df := opP r 20 4
  let ex := opP r 24 2
  let cap := opP r 28 4
  let ks := kStep tw tx
  let one := fmSize tw (df * dm)
  let per := one * (if gated then 3 else 2)
  let mat (e j rows cols : Nat) := rowsOf rows cols (decodeAll tw (rows * cols) (slice (opIn ins 1) (e * per + j * one) one))
  let counts := (List.range ex).map fun e => opInt (opIn ins 2) e
  let out := (List.range ex).flatMap fun e =>
    let n := (min (max (counts.getD e 0) 0) cap).toNat
    let w1 := mat e 0 df dm
    let w3 := mat e 1 df dm
    let w2 := mat e (if gated then 2 else 1) dm df
    (List.range cap).flatMap fun i =>
      if n ≤ i then List.replicate dm 0 else
        let x := decodeAll tx dm (slice (opIn ins 0) ((e * cap + i) * fmSize tx dm) (fmSize tx dm))
        let h := (List.range df).map fun j =>
          let a := actFun (opP r 11 1) (gemmDot ks (w1.getD j []) x)
          if gated then fmul a (gemmDot ks (w3.getD j []) x) else a
        let hq := reencode tx (h.map dec32)
        w2.map fun w => gemmDot ks w hq
  let e := encode32 t out
  .one { e with sat := e.sat + (counts.filter fun c => decide (c < 0) || decide ((cap : Int) < c)).length } false

/-! ## Attention (R520 to R522) -/

/-- The running state of one head (R521). -/
structure AttAcc where
  m : F32
  s : F32
  acc : List F32

/-- One chunk of up to 256 positions of a head (R521). -/
def attChunk (f ks hd : Nat) (scale : F32) (q : List Num) (krows vrows : List (List Num)) (a : AttAcc) : AttAcc :=
  let x := krows.map fun k => fmul (gemmDot ks q k) scale
  let mn := fmaxf a.m (x.foldl fmaxf f32NegInf)
  let g := fexp (fsub a.m mn)
  let pr := x.map fun v => fexp (fsub v mn)
  let n := pr.length
  let pad := if f = 7 then alignUp n 32 else n
  let pq := (reencode f ((pr ++ List.replicate (pad - n) 0).map dec32)).take n
  ⟨mn, fadd (fmul a.s g) (fixedSum pr),
    (List.range hd).map fun d => fadd (fmul (a.acc.getD d 0) g) (gemmDot ks pq (vrows.map fun v => v.getD d .zero))⟩

/-- ATTEND_DECODE without MERGE (R520, R521). -/
def opAttend (r : Bytes) (ins : List Bytes) : OpOut :=
  let f := opP r 9 1
  let heads := opP r 12 2
  let kvh := opP r 14 2
  let hd := opP r 16 2
  let batch := opP r 18 2
  let ml := opP r 20 4
  let ks := kStep f f
  let size := fmSize f hd
  let lens := (List.range batch).map fun b => opInt (opIn ins 3) b
  let qs := opF32 ins 0 (opP r 8 1) (batch * heads * hd)
  let rowAt (i b pos g : Nat) := decodeAll f hd (slice (opIn ins i) (((b * ml + pos) * kvh + g) * size) size)
  let res := (List.range batch).flatMap fun b =>
    let len := (min (max (lens.getD b 0) 0) ml).toNat
    (List.range heads).map fun h =>
      let g := h / (heads / kvh)
      let q := reencode f (((qs.drop ((b * heads + h) * hd)).take hd).map dec32)
      let a := (groupsOf 256 (len + 1) (List.range len)).foldl (fun a ps =>
        attChunk f ks hd (opP r 24 4) q (ps.map fun p => rowAt 1 b p g) (ps.map fun p => rowAt 2 b p g) a)
        ⟨f32NegInf, 0, List.replicate hd 0⟩
      if len = 0 then (List.replicate hd 0, f32NegInf)
      else (a.acc.map fun v => fmul v (srcp a.s), fadd (fmul a.m 0x3FB8AA3B) (slog2 a.s))
  let o := encode32 (opP r 10 1) (res.flatMap (·.1))
  let empty := (List.range batch).flatMap fun b => List.replicate heads (decide (lens.getD b 0 ≤ 0))
  let lse := { encode32 1 (res.map (·.2)) with spec := (res.zip empty).any fun p => !p.2 && !(dec32 p.1.2).isFin }
  .two r { o with sat := o.sat + (lens.filter fun l => decide (l < 0) || decide ((ml : Int) < l)).length } lse false

/-- ATTEND_DECODE with MERGE (R522). -/
def opMerge (r : Bytes) (ins : List Bytes) : OpOut :=
  let t := opP r 10 1
  let hd := opP r 16 2
  let rows := opP r 18 2 * opP r 12 2
  let parts := opP r 28 1
  let os := opF32 ins 0 t (parts * rows * hd)
  let ls := opF32 ins 1 1 (parts * rows)
  let res := (List.range rows).map fun i =>
    let lse := (List.range parts).map fun p => ls.getD (p * rows + i) 0
    let m := lse.foldl fmaxf f32NegInf
    if lse.all negInf32 then (List.replicate hd 0, f32NegInf, true) else
      let w := lse.map fun l => if negInf32 l then 0 else sexp2 (fsub l m)
      let tot := fixedSum w
      ((List.range hd).map fun d => fmul (fixedSum (w.mapIdx fun p x =>
        if negInf32 (lse.getD p 0) then 0 else fmul x (os.getD ((p * rows + i) * hd + d) 0))) (srcp tot),
        fadd m (slog2 tot), false)
  let o := encode32 t (res.flatMap (·.1))
  let lse := { encode32 1 (res.map (·.2.1)) with spec := res.any fun p => !p.2.2 && !(dec32 p.2.1).isFin }
  .two r o lse false

/-! ## Training and vision operators (R523 to R527) -/

/-- x^n by square-and-multiply from the most significant bit (R524). -/
def fpow (x : F32) (n : Nat) : F32 :=
  (List.range 32).reverse.foldl (fun acc i => let a := fmul acc acc; if bit n i then fmul a x else a) f32One

/-- OPT_STEP (R523, R524). -/
def opOptStep (r : Bytes) (ins : List Bytes) : OpOut :=
  let n := opP r 12 4
  let adamw := opP r 10 1 == 1
  let mf := if bit (opP r 11 1) 0 then 2 else 1
  let gv := readValues (opP r 8 1) n (opIn ins 0)
  let lr := opP r 16 4
  let b1 := opP r 20 4
  let b2 := opP r 24 4
  let eps := opP r 28 4
  let wd := opP r 32 4
  let rc1 := srcp (fsub f32One (fpow b1 (opP r 40 4)))
  let rc2 := srcp (fsub f32One (fpow b2 (opP r 40 4)))
  let u1 := fsub f32One b1
  let u2 := fsub f32One b2
  let ld := fmul lr wd
  let st := opIn ins 1
  let ws := decodeAll 1 n st
  let ms := decodeAll mf n (st.drop (4 * n))
  let vs := decodeAll mf n (st.drop (4 * n + fmBytes mf * n))
  let res := (List.range n).map fun i =>
    let g := fmul ((gv.1.getD i .zero).plusZero.f32) (opP r 36 4)
    let g := if opP r 8 1 = 9 then g else fmul ((gv.1.getD i .zero).f32) (opP r 36 4)
    let w := (ws.getD i .zero).f32
    let m := (ms.getD i .zero).f32
    let v := (vs.getD i .zero).f32
    let w' := if adamw then fsub w (fmul ld w) else w
    let g := if adamw then g else ffma wd w g
    let m := ffma b1 m (fmul u1 g)
    let v := ffma b2 v (fmul (fmul u2 g) g)
    let mh := fmul m rc1
    let vh := fmul v rc2
    let d := if (dec32 vh).isZero then eps else fadd (fmul vh (srsqrt vh)) eps
    (fsub w' (fmul lr (fmul mh (srcp d))), m, v)
  let w := encode32 1 (res.map (·.1))
  let m := encode32 mf (res.map (·.2.1))
  let v := encode32 mf (res.map (·.2.2))
  let work := encode32 (opP r 9 1) (res.map (·.1))
  .two r ((w.append m).append v) work gv.2

/-- BF16 roundings of FP32 values, as exact values. -/
def toBf16 (xs : List F32) : List Num := xs.map fun x => decodeElem 2 (encodeElem 2 (dec32 x)).code

/-- Orthonormalise columns by modified Gram–Schmidt (R525); `done` are the columns before. -/
def gramSchmidt : List (List F32) → List (List F32) → List (List F32)
  | done, [] => done
  | done, c :: cs =>
    let c := done.foldl (fun c q =>
      let d := fixedSum ((c.zip q).map fun p => fmul p.1 p.2)
      (c.zip q).map fun p => fsub p.1 (fmul d p.2)) c
    let n2 := fixedSum (c.map fun x => fmul x x)
    gramSchmidt (done ++ [if (dec32 n2).isZero then c else c.map fun x => fmul x (srsqrt n2)]) cs

/-- COMPRESS_LOWRANK (R525). -/
def opCompress (r : Bytes) (ins : List Bytes) : OpOut :=
  let k := opP r 10 1
  let rows := opP r 12 4
  let cols := opP r 16 4
  let g := toBf16 (opF32 ins 0 (opP r 8 1) (rows * cols))
  let q := toBf16 (opF32 ins 1 1 (cols * k))
  let qcols := transposed cols k .zero q
  let pcols := qcols.map fun qc => (rowsOf rows cols g).map fun gr => gemmDot 16 gr qc
  let pcols := if bit (opP r 9 1) 0 then gramSchmidt [] pcols else pcols
  let p := (List.range rows).flatMap fun i => pcols.map fun c => c.getD i 0
  let gcols := transposed rows cols .zero g
  let q2 := gcols.flatMap fun gc => pcols.map fun pc => gemmDot 16 gc (toBf16 pc)
  let e := encode32 1 p
  let e2 := encode32 1 q2
  .two r e e2 false

/-- DECOMPRESS_LOWRANK (R525). -/
def opDecompress (r : Bytes) (ins : List Bytes) : OpOut :=
  let k := opP r 10 1
  let rows := opP r 12 4
  let cols := opP r 16 4
  let t := opP r 8 1
  let p := rowsOf rows k (toBf16 (opF32 ins 0 1 (rows * k)))
  let q := rowsOf cols k (toBf16 (opF32 ins 1 1 (cols * k)))
  let acc := if bit (opP r 9 1) 0 then some (opF32 ins 2 t (rows * cols)) else none
  let ys := (p.flatMap fun pr => q.map fun qr => fmul (opP r 20 4) (gemmDot 16 pr qr)).mapIdx fun i y =>
    match acc with | some a => fadd y (a.getD i 0) | none => y
  .one (encode32 t ys) false

/-- The activation format that a weight format pairs with (R527). -/
def pairFormat (w : Nat) : Nat := w

/-- PATCH_EMBED (R526, R527). -/
def opPatch (r : Bytes) (ins : List Bytes) : OpOut :=
  let f := opP r 8 1
  let tw := opP r 9 1
  let t := opP r 10 1
  let fl := opP r 11 1
  let ch := opP r 13 1
  let pa := opP r 14 1
  let hh := opP r 16 2
  let ww := opP r 18 2
  let dim := opP r 20 2
  let images := opP r 22 2
  let k := pa * pa * ch
  let px := opIn ins 0
  let pixel (i : Nat) : F32 :=
    if f = 6 ∧ bit fl 0 then f32OfNat (leAt px i 1)
    else (decodeElem f (leAt px (i * fmBytes f) (fmBytes f))).f32
  let ws := rowsOf dim k (opVals ins 1 tw (dim * k))
  let bias := if bit fl 1 then some (opF32 ins 2 1 dim) else none
  let np := (hh / pa) * (ww / pa)
  let posn := if bit fl 2 then some (opF32 ins 3 (opP r 12 1) (np * dim)) else none
  let ys := (List.range images).flatMap fun im => (List.range np).flatMap fun p =>
    let py := p / (ww / pa)
    let pxx := p % (ww / pa)
    let vec := (List.range k).map fun j =>
      let c := j % ch
      let row := py * pa + j / ch / pa
      let col := pxx * pa + j / ch % pa
      fmul (fsub (pixel (((im * hh + row) * ww + col) * ch + c)) (opP r (24 + 4 * c) 4)) (opP r (40 + 4 * c) 4)
    let x := reencode (pairFormat tw) (vec.map dec32)
    ws.mapIdx fun d w =>
      let y := gemmDot (kStep tw (pairFormat tw)) w x
      let y := match bias with | some b => fadd y (b.getD d 0) | none => y
      match posn with | some q => fadd y (q.getD (p * dim + d) 0) | none => y
  .one (encode32 t ys) false

/-- Run an operator record on the bytes of its inputs (R499). -/
def runOperator (r : Bytes) (ins : List Bytes) : OpOut :=
  match leAt r 0 1 with
  | 0x01 => opCopy r ins
  | 0x02 => opConvert r ins
  | 0x03 => opScaleAdd r ins
  | 0x04 => opReduce r ins
  | 0x05 => opGemm r ins
  | 0x06 => opExpert r ins
  | 0x07 => if bit (opP r 11 1) 0 then opMerge r ins else opAttend r ins
  | 0x08 => opOptStep r ins
  | 0x09 => opCompress r ins
  | 0x0A => opDecompress r ins
  | 0x0B => opGather r ins
  | 0x0C => opScatter r ins
  | 0x0D => opTopk r ins
  | 0x0E => opQuantize r ins
  | 0x0F => opNorm r ins
  | 0x10 => opActivate r ins
  | 0x11 => opPatch r ins
  | _ => ⟨[], 0, false, false⟩

end Sys2Proof.Machine
end

