-- ==== Sys2Proof/Machine/Image.lean ====
section
/-!
DEFINITION. Transit program images (R457 to R462) and what the catalogue states of each operator: its references, types,
sizes and limits (R492 to R526), its chunks (R498) and its cost (R528).
-/

namespace Sys2Proof.Machine

/-! ## The image (R457 to R461) -/

def imgOps (b : Bytes) : Nat := leAt b 5 1
def imgOperands (b : Bytes) : Nat := leAt b 6 1
def imgTilesLog2 (b : Bytes) : Nat := leAt b 7 1
def imgPriority (b : Bytes) : Nat := leAt b 8 1 % 4
def imgConsts (b : Bytes) : Nat := leAt b 9 1
def imgWaitLimit (b : Bytes) : Nat := leAt b 12 4

/-- The waits of an image: wick queue and tokens (R458); one with 0 tokens is no wait. -/
def imgWaits (b : Bytes) : List (Nat × Nat) :=
  ([16, 24].map fun i => (leAt b i 2 % 4096, leAt b (i + 2) 2)).filter fun w => w.2 != 0

/-- Operand slot `i`: its direction, type and length (R459). -/
def imgSlot (b : Bytes) (i : Nat) : Nat × Nat × Nat := (leAt b (64 + 8 * i) 1, leAt b (65 + 8 * i) 1, leAt b (68 + 8 * i) 4)

/-- Whether a slot is read, and whether it is written (R459). -/
def slotReads (b : Bytes) (i : Nat) : Bool := (imgSlot b i).1 == 1 || (imgSlot b i).1 == 3
def slotWrites (b : Bytes) (i : Nat) : Bool := (imgSlot b i).1 == 2 || (imgSlot b i).1 == 3

/-- Operator record `k` (R460). -/
def imgOp (b : Bytes) (k : Nat) : Bytes := slice b (128 + 64 * k) 64

/-- The input and output references of a record. -/
def opInRefs (r : Bytes) : List Nat := [2, 3, 4, 5].map fun i => leAt r i 1
def opOutRefs (r : Bytes) : List Nat := [6, 7].map fun i => leAt r i 1

/-- The bytes of constants from unit `u` to their end (R461, R494). -/
def imgConst (b : Bytes) (u : Nat) : Bytes := slice b (64 * (2 + imgOps b + u)) (64 * (imgConsts b - u))

/-! ## What each operator declares (R493, R499) -/

/-- How an operator uses a reference. -/
inductive RefMode where
  | unused | required | optional
  deriving DecidableEq, Repr

/-- A reference of an operator: its use, declared type and size in bytes. -/
structure OpRef where
  mode : RefMode
  typ : Nat
  size : Nat
  deriving DecidableEq, Repr

/-- What a record declares: inputs, outputs, whether its types and its shapes are within their limits, and the input that
may be OUT0 in place. -/
structure OpSpec where
  ins : List OpRef
  outs : List OpRef
  format : Bool
  shape : Bool
  inPlace : List Nat
  deriving DecidableEq, Repr

def refOf (t n : Nat) : OpRef := ⟨.required, t, fmSize t n⟩
def refIf (c : Bool) (t n : Nat) : OpRef := if c then refOf t n else ⟨.unused, t, 0⟩
def refOpt (t n : Nat) : OpRef := ⟨.optional, t, fmSize t n⟩

/-- Whether a number lies in a range. -/
def within (lo hi n : Nat) : Bool := decide (lo ≤ n) && decide (n ≤ hi)

/-- Whether a run of elements fills blocks of a format (R492). -/
def fills (t n : Nat) : Bool := n % fmBlock t == 0

def fmRow : List Nat := [1, 2, 3, 4, 7]
def isFp8 (t : Nat) : Bool := t == 3 || t == 4

/-- The pairs of R508. -/
def pairOk (w x : Nat) : Bool :=
  (w == 8 && x == 7) || (w == 7 && x == 7) || (isFp8 w && isFp8 x) || (w == 6 && x == 6) || (w == 2 && x == 2)

/-- Whether K suits a pair (R508). -/
def pairK (w x k : Nat) : Bool := if x = 7 then k % (if w = 8 then 64 else 32) == 0 else true

/-- What a record declares; none for a code that is not defined (R499 to R526). -/
def opSpec (r : Bytes) : Option OpSpec :=
  let u8 i := opP r i 1
  let u16 i := opP r i 2
  let u32 i := opP r i 4
  match u8 0 with
  | 0x01 =>
    let t := u8 20
    some ⟨[⟨.required, t, opP r 8 8 + u32 16⟩], [⟨.required, t, u32 16⟩], within 1 9 t && t != 8,
      u32 16 != 0 && u32 16 % fmBytes t == 0, if opP r 8 8 = 0 then [0] else []⟩
  | 0x02 =>
    let f := u8 8
    let t := u8 9
    let n := u32 12
    some ⟨[refOf f n, refIf (u8 10 == 1) 6 (n / max 1 (fmBlock t))], [refOf t n], within 1 9 f && within 1 9 t,
      n != 0 && fills f n && fills t n && decide (u8 10 ≤ 1) && (u8 10 == 0 || t == 7 || t == 8), [0]⟩
  | 0x03 =>
    let a := u8 8
    let b := u8 9
    let t := u8 10
    let n := u32 12
    let l := u32 16
    let has := bit (u8 11) 0
    let m := if l = 0 then n else l
    some ⟨[refOf a n, refIf has b m], [refOf t n],
      within 1 9 a && a != 8 && (!has || (within 1 9 b && b != 8)) && within 1 7 t,
      n != 0 && fills a n && fills t n && (!has || (fills b m && n % m == 0)), [0, 1]⟩
  | 0x04 =>
    let f := u8 8
    let t := u8 9
    let op := u8 10
    let ax := u8 11
    let n := if ax = 0 then u32 16 else u32 12
    some ⟨[refOf f (u32 12 * u32 16)], [refOf t n],
      within 1 9 f && f != 8 && (within 1 7 t || (t == 9 && ax == 0 && u8 20 == 1 && op == 0 && u32 16 % 16 == 0)),
      decide (op ≤ 3) && decide (ax ≤ 1) && decide (u8 20 ≤ 1) && (u8 20 == 0 || decide (op ≤ 1)) &&
        within 1 0x1000000 (u32 12) && within 1 0x1000000 (u32 16) && fills f (u32 16) && fills t n, []⟩
  | 0x05 =>
    let w := u8 8
    let x := u8 9
    let t := u8 10
    let m := u32 12
    let k := u32 16
    let n := u32 20
    let bias := bit (u8 11) 0
    let acc := bit (u8 11) 1
    some ⟨[refOf w (m * k), refOf x (n * k), refIf bias 1 m, refIf acc t (n * m)], [refOf t (n * m)],
      pairOk w x && (fmRow.contains t || (t == 5 && w == 6)),
      within 1 0x100000 m && within 1 0x100000 k && within 1 0x100000 n && pairK w x k && fills t m &&
        (t != 5 || (!bias && !acc && u32 24 == 0x3F800000)), []⟩
  | 0x06 =>
    let w := u8 8
    let x := u8 9
    let t := u8 10
    let d := u32 16
    let f := u32 20
    let e := u16 24
    let c := u32 28
    let g := bit (u8 12) 0
    some ⟨[refOf x (e * c * d), refOf w (e * ((if g then 3 else 2) * f * d)), refOf 5 e], [refOf t (e * c * d)],
      pairOk w x && w != 6 && fmRow.contains t,
      decide (u8 11 ≤ 5) && within 1 65536 d && d % 64 == 0 && within 1 65536 f && f % 64 == 0 && within 1 256 e &&
        within 1 65536 c, []⟩
  | 0x07 =>
    let q := u8 8
    let kv := u8 9
    let t := u8 10
    let merge := bit (u8 11) 0
    let h := u16 12
    let g := u16 14
    let d := u16 16
    let b := u16 18
    let l := u32 20
    let parts := u8 28
    let shape := within 1 256 h && within 1 256 g && h % g == 0 && [64, 128, 256].contains d && within 1 4096 b &&
      within 1 0x100000 l && (!merge || within 2 64 parts)
    if merge then
      some ⟨[refOf t (parts * b * h * d), refOf 1 (parts * b * h)], [refOf t (b * h * d), refOpt 1 (b * h)],
        [1, 2].contains t, shape, []⟩
    else
      some ⟨[refOf q (b * h * d), refOf kv (b * l * g * d), refOf kv (b * l * g * d), refOf 5 b],
        [refOf t (b * h * d), refOpt 1 (b * h)], [1, 2].contains q && [2, 3, 4, 7].contains kv && [1, 2].contains t, shape, []⟩
  | 0x08 =>
    let gr := u8 8
    let t := u8 9
    let n := u32 12
    let st : OpRef := ⟨.required, 1, if bit (u8 11) 0 then 8 * n else 12 * n⟩
    some ⟨[refOf gr n, st], [st, refOpt t n], [1, 2, 9].contains gr && fmRow.contains t,
      decide (u8 10 ≤ 1) && within 1 0x10000000 n && fills gr n && fills t n && u32 40 != 0, [1]⟩
  | 0x09 =>
    let f := u8 8
    let k := u8 10
    let m := u32 12
    let n := u32 16
    some ⟨[refOf f (m * n), refOf 1 (n * k)], [refOf 1 (m * k), refOpt 1 (n * k)], [1, 2].contains f,
      within 1 64 k && within 1 0x100000 m && within 1 0x100000 n, []⟩
  | 0x0A =>
    let t := u8 8
    let k := u8 10
    let m := u32 12
    let n := u32 16
    some ⟨[refOf 1 (m * k), refOf 1 (n * k), refIf (bit (u8 9) 0) t (m * n)], [refOf t (m * n)], [1, 2].contains t,
      within 1 64 k && within 1 0x100000 m && within 1 0x100000 n, [2]⟩
  | 0x0B =>
    let f := u8 8
    let w := bit (u8 9) 0
    let g := u8 10
    let t := u8 11
    let m := u32 12
    let c := u32 16
    let n := u32 20
    some ⟨[refOf f (m * c), refOf 5 (if w then 2 * n * g else n)], [refOf t (n * c)],
      if w then fmRow.contains f && fmRow.contains t else within 1 9 f && f != 8 && t == f,
      (if w then within 1 8 g else g == 1) && within 1 0x7FFFFFFF m && within 1 0x1000000 c && fills f c && fills t c &&
        within 1 0x1000000 n, []⟩
  | 0x0C =>
    let t := u8 8
    let f := u8 9
    let m := u32 12
    let c := u32 16
    let n := u32 20
    some ⟨[refOf f (n * c), refOf 5 n, refOf t (m * c)], [refOf t (m * c)], [1, 2].contains t && fmRow.contains f,
      within 1 0x7FFFFFFF m && within 1 0x1000000 c && fills f c && within 1 0x1000000 n, [2]⟩
  | 0x0D =>
    let f := u8 8
    let k := u8 9
    let n := u32 12
    let e := u16 16
    let c := u32 20
    some ⟨[refOf f (n * e)], [refOf 5 (e * c + e), refOf 5 (2 * n * k)], [1, 2].contains f,
      within 1 8 k && decide (k ≤ e) && decide (u8 10 ≤ 2) && within 1 0x100000 n && within 1 1024 e && within 1 (n * k) c, []⟩
  | 0x0E =>
    let f := u8 8
    let t := u8 9
    let n := u32 12
    let res := bit (u8 11) 0
    some ⟨[refOf f n], [refOf t n, refIf res (u8 21) n],
      [1, 2, 3, 4, 9].contains f && [7, 8].contains t && (!res || [1, 2].contains (u8 21)),
      decide (u8 10 ≤ 1) && n != 0 && fills f n && fills t n && (decide (u8 20 ≤ 8) || decide (248 ≤ u8 20)), []⟩
  | 0x0F =>
    let f := u8 8
    let t := u8 9
    let c := u32 16
    let n := u32 12 * c
    let gain := bit (u8 11) 0
    let bias := bit (u8 11) 1
    some ⟨[refOf f n, refIf gain 1 c, refIf bias 1 c], [refOf t n], fmRow.contains f && fmRow.contains t,
      decide (u8 10 ≤ 1) && (!bias || u8 10 == 1) && within 1 0x1000000 (u32 12) && within 1 65536 c && fills f c &&
        fills t c, [0]⟩
  | 0x10 =>
    let f := u8 8
    let t := u8 9
    let fn := u8 10
    let c := u32 16
    let n := u32 12 * c
    let gated := bit (u8 11) 0
    some ⟨[refOf f n, refIf gated f n], [refOf t n], fmRow.contains f && fmRow.contains t,
      decide (fn ≤ 7) && (!gated || fn != 7) && within 1 0x1000000 (u32 12) &&
        within 1 (if fn = 7 then 65536 else 0x1000000) c && fills f c && fills t c, [0]⟩
  | 0x11 =>
    let f := u8 8
    let w := u8 9
    let t := u8 10
    let fl := u8 11
    let ps := u8 12
    let ch := u8 13
    let p := u8 14
    let h := u16 16
    let wd := u16 18
    let d := u16 20
    let im := u16 22
    let k := p * p * ch
    let np := (h / max 1 p) * (wd / max 1 p)
    some ⟨[refOf f (im * h * wd * ch), refOf w (d * k), refIf (bit fl 1) 1 d, refIf (bit fl 2) ps (np * d)],
      [refOf t (im * np * d)],
      [1, 2, 6].contains f && [2, 3, 4, 7].contains w && fmRow.contains t && (!bit fl 2 || [1, 2, 7].contains ps),
      within 1 4 ch && within 2 32 p && within 1 8192 h && h % max 1 p == 0 && within 1 8192 wd && wd % max 1 p == 0 &&
        within 32 8192 d && d % 32 == 0 && within 1 64 im && (w != 7 || k % 32 == 0), []⟩
  | _ => none

/-! ## Validation (R462) -/

/-- Whether a reference of a record fits its use (R499). -/
def refUse (o : Option OpRef) (r : Nat) : Bool :=
  match (o.map (·.mode)).getD .unused with
  | .unused => r == 0xFF
  | .required => r != 0xFF
  | .optional => true

/-- The reference at which output `j` of operator `k` is held in tile SRAM (R461). -/
def midRef (k j : Nat) : Nat := 0x10 + 2 * k + j

/-- The operators that write a slot. -/
def writersOf (b : Bytes) (slot : Nat) : List Nat :=
  (List.range (imgOps b)).flatMap fun k => (opOutRefs (imgOp b k)).filterMap fun r => if r = slot then some k else none

/-- The declared type and size of a source; a constant has any type (R493, R494). -/
def sourceOf (b : Bytes) (r : Nat) : Option (Option Nat × Nat) :=
  if r < 8 then some (some (imgSlot b r).2.1, (imgSlot b r).2.2)
  else if 0x40 ≤ r then some (none, 64 * (imgConsts b - (r - 0x40)))
  else
    (opSpec (imgOp b ((r - 0x10) / 2))).bind fun sp => (sp.outs[(r - 0x10) % 2]?).map fun o => (some o.typ, o.size)

/-- Whether input `i` of operator `k` may name `r` (R461, R495). -/
def inRefOk (b : Bytes) (k : Nat) (sp : OpSpec) (i r : Nat) : Bool :=
  if r = 0xFF then true
  else if r < 8 then
    if imgOperands b ≤ r then false else
      match (imgSlot b r).1 with
      | 1 => true
      | 2 => (writersOf b r).all fun w => decide (w < k)
      | 3 =>
        if !(opOutRefs (imgOp b k)).contains r then true
        else sp.inPlace.contains i && (opOutRefs (imgOp b k)).head? == some r &&
          (match sp.ins[i]?, sp.outs.head? with
           | some a, some o => a.typ == o.typ && a.size == o.size
           | _, _ => false)
      | _ => false
  else if 0x10 ≤ r ∧ r < 0x30 then
    let q := (r - 0x10) / 2
    decide (q < k) && (opOutRefs (imgOp b q)).getD ((r - 0x10) % 2) 0xFF == r
  else decide (0x40 ≤ r) && decide (r - 0x40 < imgConsts b)

/-- Whether output `j` of operator `k` may name `r` (R461, R494). -/
def outRefOk (b : Bytes) (k j r : Nat) : Bool :=
  if r = 0xFF then true
  else if r < 8 then decide (r < imgOperands b) && slotWrites b r
  else r == midRef k j

/-- Whether the operand slots are laid out as R459 and R461 state. -/
def slotsOk (b : Bytes) : Bool :=
  (List.range 8).all fun i =>
    let s := imgSlot b i
    if i < imgOperands b then
      within 1 3 s.1 && within 1 9 s.2.1 && s.2.2 != 0 && s.2.2 % fmBytes s.2.1 == 0 &&
        (!slotWrites b i || (writersOf b i).length == 1)
    else s.1 == 0

/-- The bytes of the intermediates of an image (R493). -/
def sramBytes (b : Bytes) : Nat :=
  sumList ((List.range (imgOps b)).flatMap fun k =>
    match opSpec (imgOp b k) with
    | none => []
    | some sp => ((opOutRefs (imgOp b k)).zip sp.outs).map fun p => if 0x10 ≤ p.1 ∧ p.1 < 0x30 then p.2.size else 0)

/-- The DETAIL of the first of checks 1 to 7 that an image fails (R462). Every format has its capability bit (R53). -/
def imageFail (b : Bytes) (units : Nat) : Option Nat :=
  let n := imgOps b
  let specs := (List.range n).map fun k => (k, imgOp b k, opSpec (imgOp b k))
  let every (p : Nat → Bytes → OpSpec → Bool) : Bool := specs.all fun x => match x.2.2 with
    | some sp => p x.1 x.2.1 sp
    | none => false
  if leAt b 0 4 ≠ 0x4D475054 ∨ leAt b 4 1 ≠ 0x10 ∨ !within 1 16 n ∨ !within 1 8 (imgOperands b) ∨ 6 < imgTilesLog2 b ∨
      46 < imgConsts b ∨ 4 ≤ leAt b 8 1 ∨ leAt b 10 2 ≠ 0 ∨ 4096 ≤ leAt b 16 2 ∨ leAt b 20 4 ≠ 0 ∨ 4096 ≤ leAt b 24 2 ∨
      leAt b 28 36 ≠ 0 then some 1
  else if units ≠ 2 + n + imgConsts b ∨ 64 < units then some 2
  else if specs.any fun x => x.2.2.isNone then some 3
  else if !(slotsOk b && every fun k r sp =>
      ((List.range 4).all fun i => refUse (sp.ins[i]?) ((opInRefs r).getD i 0xFF) && inRefOk b k sp i ((opInRefs r).getD i 0xFF)) &&
      (List.range 2).all fun j => refUse (sp.outs[j]?) ((opOutRefs r).getD j 0xFF) && outRefOk b k j ((opOutRefs r).getD j 0xFF))
    then some 4
  else if !(every fun _ r sp => sp.format &&
      (((opInRefs r).zip sp.ins).all fun p => p.1 == 0xFF ||
        match sourceOf b p.1 with
        | some (some t, _) => t == p.2.typ
        | _ => true) &&
      ((opOutRefs r).zip sp.outs).all fun p => decide (8 ≤ p.1) || (imgSlot b p.1).2.1 == p.2.typ) then some 5
  else if !(every fun _ r sp => sp.shape &&
      (((opInRefs r).zip sp.ins).all fun p => p.1 == 0xFF ||
        match sourceOf b p.1 with
        | some (_, m) => decide (p.2.size ≤ m)
        | none => false) &&
      ((opOutRefs r).zip sp.outs).all fun p => decide (8 ≤ p.1) || (imgSlot b p.1).2.2 == p.2.size) then some 6
  else if 786432 * 2 ^ imgTilesLog2 b < sramBytes b then some 7
  else none

/-! ## Chunks (R498) -/

/-- Ceiling division. -/
def cdiv (a b : Nat) : Nat := (a + b - 1) / b

/-- What a chunk covers of an input, in the operator's units: the bytes of the input up to a unit, each for one chunk alone; the bytes up to
a unit, of which those up to `past` are read no more after it; or all of it for every chunk. -/
inductive Cover where
  | upTo (bytes : Nat → Nat)
  | again (bytes past : Nat → Nat)
  | whole

/-- How an operator is cut into chunks (R498): the units of its work and the chunks of them, the units done after so many chunks, what it
covers of each input, and the bytes of each output that so many units give. -/
structure ChunkPlan where
  chunks : Nat
  units : Nat → Nat
  ins : List Cover
  outs : List (Nat → Nat)

/-- Chunks of `step` units out of `total`. -/
def planOf (step total : Nat) (ins : List Cover) (outs : List (Nat → Nat)) : ChunkPlan :=
  ⟨cdiv total (max 1 step), fun n => min total (n * max 1 step), ins, outs⟩

/-- One chunk for the whole operator. -/
def wholePlan : ChunkPlan := planOf 1 1 [.whole, .whole, .whole, .whole] []

/-- The rows of `cols` elements that fit in 64 KiB of input, and at least one (R498). -/
def rowsFit (f cols : Nat) : Nat := max 1 (65536 / max 1 (fmSize f cols))

/-- The chunks of an operator and what they cover (R498; log 88). -/
def chunkPlan (r : Bytes) : ChunkPlan :=
  let u8 i := opP r i 1
  let u16 i := opP r i 2
  let u32 i := opP r i 4
  let els (t k : Nat) (u : Nat) : Nat := fmSize t (u * k)
  let rows (ins : List Cover) (outs : List (Nat → Nat)) : ChunkPlan := planOf (rowsFit (u8 8) (u32 16)) (u32 12) ins outs
  match u8 0 with
  | 0x01 => planOf 65536 (u32 16) [.upTo fun u => opP r 8 8 + u] [id]
  | 0x02 => planOf 16384 (u32 12) [.upTo (els (u8 8) 1), .upTo fun u => cdiv u (max 1 (fmBlock (u8 9)))] [els (u8 9) 1]
  | 0x03 =>
    let l := u32 16
    let past (u : Nat) : Nat := if u32 12 ≤ u then l else if u32 12 ≤ (u / l + 1) * l then u % l else 0
    let b : Cover := if l = 0 ∨ l = u32 12 then .upTo (els (u8 9) 1)
      else .again (fun u => els (u8 9) 1 (min u l)) fun u => els (u8 9) 1 (past u)
    planOf 16384 (u32 12) [.upTo (els (u8 8) 1), b] [els (u8 10) 1]
  | 0x08 =>
    let n := u32 12
    let m := if bit (u8 11) 0 then 2 else 4
    planOf 16384 n [.upTo (els (u8 8) 1), .again (fun u => 4 * n + m * n + m * u) fun u => 4 * u]
      [fun u => if u = n then (4 + 2 * m) * n else 4 * u, els (u8 9) 1]
  | 0x0E => planOf 16384 (u32 12) [.upTo (els (u8 8) 1)] [els (u8 9) 1, els (u8 21) 1]
  | 0x04 =>
    let c := u32 16
    if u8 11 = 1 then rows [.upTo (els (u8 8) c)] [els (u8 9) 1]
    else planOf 4096 c [.again (fun u => els (u8 8) 1 ((u32 12 - 1) * c + u)) (els (u8 8) 1)] [els (u8 9) 1]
  | 0x05 => planOf 128 (u32 20) [.whole, .upTo (els (u8 9) (u32 16)), .whole, .upTo (els (u8 10) (u32 12))] [els (u8 10) (u32 12)]
  | 0x06 =>
    let c := u32 28
    let q := cdiv c 512
    let done (n : Nat) : Nat := n / max 1 q * c + min c (n % max 1 q * 512)
    let w := (if bit (u8 12) 0 then 3 else 2) * u32 20 * u32 16
    ⟨u16 24 * q, done, [.upTo (els (u8 9) (u32 16)), .again (fun u => els (u8 8) w (cdiv u (max 1 c))) fun u => els (u8 8) w (u / max 1 c), .whole], [els (u8 10) (u32 16)]⟩
  | 0x07 =>
    let row := u16 12 * u16 16
    let b := u16 18
    if bit (u8 11) 0 then
      planOf 1 b [.again (fun u => els (u8 10) row ((u8 28 - 1) * b + u)) (els (u8 10) row),
          .again (fun u => els 1 (u16 12) ((u8 28 - 1) * b + u)) (els 1 (u16 12))]
        [els (u8 10) row, els 1 (u16 12)]
    else
      let g := max 1 (u16 14)
      let head := u16 12 / g
      let kv : Cover := .again (fun u => els (u8 9) (u32 20 * u16 14 * u16 16) (cdiv u g)) fun u => els (u8 9) (u32 20 * u16 14 * u16 16) (u / g)
      planOf 1 (b * u16 14) [.upTo (els (u8 8) (head * u16 16)), kv, kv, .again (fun u => 4 * cdiv u g) fun u => 4 * (u / g)]
        [els (u8 10) (head * u16 16), els 1 head]
  | 0x0A => planOf 128 (u32 12) [.upTo (els 1 (u8 10)), .whole, .upTo (els (u8 8) (u32 16))] [els (u8 8) (u32 16)]
  | 0x0B =>
    let g := u8 10
    let ix : Cover := .upTo fun u => if bit (u8 9) 0 then 8 * g * u else 4 * u
    planOf 128 (u32 20) [.whole, ix] [els (u8 11) (u32 16)]
  | 0x0C => planOf 128 (u32 12) [.whole, .whole, .whole] [els (u8 8) (u32 16)]
  | 0x0F => rows [.upTo (els (u8 8) (u32 16)), .whole, .whole] [els (u8 9) (u32 16)]
  | 0x10 =>
    if u8 10 = 7 then rows [.upTo (els (u8 8) (u32 16))] [els (u8 9) (u32 16)]
    else planOf 16384 (u32 12 * u32 16) [.upTo (els (u8 8) 1), .upTo (els (u8 8) 1)] [els (u8 9) 1]
  | 0x11 =>
    let p := max 1 (u8 14)
    let across := u16 18 / p
    let np := u16 16 / p * across
    let pixels (u : Nat) : Nat :=
      if u = 0 then 0 else ((u - 1) / max 1 np * u16 16 + ((u - 1) % max 1 np / max 1 across + 1) * p) * u16 18
    let past (u : Nat) : Nat := (u / max 1 np * u16 16 + u % max 1 np / max 1 across * p) * u16 18
    planOf 128 (u16 22 * np) [.again (fun u => els (u8 8) (u8 13) (pixels u)) (fun u => els (u8 8) (u8 13) (past u)), .whole, .whole, .whole] [els (u8 10) (u16 20)]
  | _ => wholePlan

/-- The chunks of an operator. -/
def opChunks (r : Bytes) : Nat := (chunkPlan r).chunks

/-! ## Costs (R497, R528) -/

/-- The cost of a vector step. -/
def vecCost (e v s : Nat) : Nat := max (cdiv (e * v) 512) (cdiv (e * s) 128)

/-- The cost of a product in a pair of formats. -/
def gemmCost (w x m k t : Nat) : Nat := cdiv m 32 * cdiv k (kStep w x) * cdiv t (nStep w x)

/-- Lane-operations and special results of a function (R512). -/
def actCost (f : Nat) : Nat × Nat := [(1, 0), (1, 0), (8, 2), (4, 2), (3, 2), (4, 2), (1, 1), (4, 1)].getD f (0, 0)

/-- A signed 32-bit number limited to 0 to `hi`. -/
def limited (b : Bytes) (i hi : Nat) : Nat :=
  let v := opInt b i
  if v < 0 then 0 else min hi v.toNat

/-- Whether R528 states a cost for a record: it states none for ATTEND_DECODE in MERGE mode. -/
def costStated (r : Bytes) : Bool := !(leAt r 0 1 == 0x07 && bit (opP r 11 1) 0)

/-- The tile-cycles of an operator on its inputs (R528). -/
def opCost (r : Bytes) (ins : List Bytes) : Nat :=
  let u8 i := opP r i 1
  let u16 i := opP r i 2
  let u32 i := opP r i 4
  match u8 0 with
  | 0x01 => cdiv (u32 16) 2048
  | 0x02 =>
    let n := u32 12
    if u8 8 = 9 ∨ u8 9 = 9 then cdiv n 64 else if u8 9 = 7 ∨ u8 9 = 8 then vecCost n 2 0 else vecCost n 1 0
  | 0x03 => vecCost (u32 12) 2 0
  | 0x04 => if u8 20 = 1 then cdiv (u32 12 * u32 16) 64 else vecCost (u32 12 * u32 16) 1 0
  | 0x05 => gemmCost (u8 8) (u8 9) (u32 12) (u32 16) (u32 20)
  | 0x06 =>
    sumList ((List.range (u16 24)).map fun e =>
      let n := limited (opIn ins 2) e (u32 28)
      (if bit (u8 12) 0 then 2 else 1) * gemmCost (u8 8) (u8 9) (u32 20) (u32 16) n + gemmCost (u8 8) (u8 9) (u32 16) (u32 20) n)
  | 0x07 =>
    if bit (u8 11) 0 then 0
    else
      let ks := kStep (u8 9) (u8 9)
      let ns := nStep (u8 9) (u8 9)
      let d := u16 16
      let ls := (List.range (u16 18)).map fun b => limited (opIn ins 3) b (u32 20)
      max (sumList (ls.map fun l => u16 14 * cdiv (u16 12 / max 1 (u16 14)) 32 * (cdiv d ks * cdiv l ns + cdiv l ks * cdiv d ns)))
        (cdiv (u16 12 * sumList ls) 128)
  | 0x08 => vecCost (u32 12) 16 2
  | 0x09 =>
    let k := u8 10
    gemmCost 2 2 (u32 12) (u32 16) k + gemmCost 2 2 (u32 16) (u32 12) k + vecCost (u32 12 * k * k) 2 0
  | 0x0A => gemmCost 2 2 (u32 12) (u8 10) (u32 16)
  | 0x0B =>
    u32 20 * (1 + cdiv (fmSize (u8 8) (u32 16)) 2048) +
      (if bit (u8 9) 0 then vecCost (u32 20 * u8 10 * u32 16) 2 0 else 0)
  | 0x0C => vecCost (u32 20 * u32 16) 2 0 + vecCost (u32 12 * u32 16) 1 0
  | 0x0D =>
    let e := u32 12 * u16 16
    vecCost e 4 1 + cdiv e 64 + cdiv (u32 12 * u8 9) 8
  | 0x0E => vecCost (u32 12) 3 0 + (if bit (u8 11) 0 then vecCost (u32 12) 2 0 else 0)
  | 0x0F => vecCost (u32 12 * u32 16) 5 0 + cdiv (u32 12) 128
  | 0x10 =>
    let n := u32 12 * u32 16
    let c := actCost (u8 10)
    let v := c.1 + (if bit (u8 11) 0 then 1 else 0)
    max (cdiv (n * v) 512) (cdiv (n * c.2 + (if u8 10 = 7 then u32 12 else 0)) 128)
  | 0x11 =>
    let p := max 1 (u8 14)
    let np := u16 22 * ((u16 16 / p) * (u16 18 / p))
    max (gemmCost (u8 9) (pairFormat (u8 9)) (u16 20) (p * p * u8 13) np)
      (vecCost (u16 22 * u16 16 * u16 18 * u8 13) 2 0 + vecCost (np * u16 20) 3 0)
  | _ => 0

end Sys2Proof.Machine
end

