-- ==== Sys2Proof/Machine/Transit.lean ====
section
/-!
DEFINITION. Transit programs and the program scheduler (R463 to R475, R552 to R555): launches, operand accesses, chunks,
tiles, cancels and completion.
-/

namespace Sys2Proof.Machine

/-- The number of an entry of a die. -/
def entryKey (die e : Nat) : Nat := 256 * die + e

/-- A program entry that is not FREE. -/
def State.entry (s : State) (k : Nat) : Option TEntry := SMap.find s.trn.entries k

/-- Replace a program entry. -/
def State.setEntry (s : State) (k : Nat) (e : TEntry) : State := { s with trn := { s.trn with entries := SMap.put s.trn.entries k e } }

/-- A loaded program. -/
def State.program (s : State) (n : Nat) : Option Program := SMap.find s.trn.programs n

/-- The image of an entry's program. -/
def State.image (s : State) (e : TEntry) : Bytes := ((s.program e.program).map (·.image)).getD []

/-- The tiles of a launch (R458). -/
def State.tilesOf (s : State) (e : TEntry) : Nat := 2 ^ imgTilesLog2 (s.image e)

/-- The client that presents an entry's accesses to instance memory (R476). -/
def State.tileClient (s : State) (k : Nat) (e : TEntry) : Client := .tile k e.order (e.tiles.getD 0) (s.tilesOf e)

/-- The entries that name a program. -/
def State.entriesOf (s : State) (n : Nat) : SMap TEntry := s.trn.entries.filter fun e => e.2.program == n

/-- Raise PLACEMENT when its reason is enabled (R561): the reason, the other module concerned, and the data. -/
def State.placement (s : State) (reason mod data0 data1 : Nat) : State :=
  if bit (s.regF .PLC_EVENT_MASK 31 0) reason then s.raise .pfs evPlacement (reason * 2 ^ 24 + mod) data0 data1 else s

/-! ## Where the operands are (R469, R552, R553) -/

/-- The read holder and the writing holder of an operand, as this module knows them. -/
def State.operHolders (s : State) (o : TOper) : Nat × Nat :=
  if o.form = 1 then (o.mod, o.mod)
  else match s.cached (hallHome o.addr) (hallPage o.addr) with
    | some c => (c.reader, c.writer)
    | none => (hallHome o.addr, hallHome o.addr)

/-- The bytes of `len` at a physical address that lie on a die's stacks. -/
def dieBytes (die a len : Nat) : Nat := if stackOf a / 4 = die then len else 0

/-- The bytes of an operand that are held on a die of this module (R469). -/
def State.operOnDie (s : State) (inst die : Nat) (o : TOper) (len : Nat) : Nat :=
  let viaInst (n iva : Nat) : Nat :=
    sumList ((pieces 4096 iva len).map fun p =>
      match s.inst n with
      | none => 0
      | some i => match leafAt i.maps (iva + p.1) with
        | some (base, l) => match l.kind with
          | .hbm => dieBytes die (s.phys (l.target + (iva + p.1 - base))) p.2
          | _ => 0
        | none => 0)
  let viaHall (a : Nat) : Nat :=
    sumList ((pieces frameBytes a len).map fun p =>
      match s.heldPage (pageOf (a + p.1)) with
      | some h => dieBytes die (h.addr 0) p.2
      | none => 0)
  if o.form = 2 then viaInst inst o.addr
  else if o.form = 0 then viaHall o.addr
  else if o.mod ≠ s.me then 0
  else match SMap.find s.hall.sky (o.key % 2 ^ 20) with
    | some k => if k.hall then viaHall (k.base + o.addr) else viaInst k.inst (k.base + o.addr)
    | none => 0

/-- The tiles of a die that are allocated. -/
def State.tilesBusy (s : State) (die : Nat) : List Nat :=
  s.trn.entries.flatMap fun e => if e.1 / 256 = die then
    match e.2.tiles with
    | some t => (List.range (s.tilesOf e.2)).map fun i => t + i
    | none => [] else []

/-- The die on which a launch is placed (R469). -/
def State.dieFor (s : State) (inst : Nat) (image : Bytes) (opers : List TOper) : Nat :=
  let on (die : Nat) : Nat := sumList (opers.mapIdx fun i o => s.operOnDie inst die o (imgSlot image i).2.2)
  if on 0 < on 1 then 1
  else if on 1 < on 0 then 0
  else if (s.tilesBusy 1).length < (s.tilesBusy 0).length then 1 else 0

/-- A free entry of a die. -/
def State.freeProgramEntry (s : State) (die : Nat) : Option Nat := SMap.freeFrom s.trn.entries 256 (entryKey die 0)

/-! ## Waiting for tokens (R470, R571) -/

/-- Remove an entry from every wick queue's waiters. -/
def State.dropEntryWaits (s : State) (k : Nat) : State :=
  { s with syn := { s.syn with
      wicks := SMap.mapv s.syn.wicks fun _ w => { w with
        waiters := w.waiters.filter fun x => x.kind != .program (k / 256) (k % 256) } } }

/-- The tokens that waits need of a wick queue in all. -/
def needOf (ws : List (Nat × Nat)) (n : Nat) : Nat := sumList ((ws.filter fun w => w.1 == n).map (·.2))

/-- Test the waits of an entry: when every wick queue holds enough, it takes from all at once and becomes READY (R470). -/
def State.entryTest (s : State) (k : Nat) : State :=
  match s.entry k with
  | none => s
  | some e =>
    let ws := imgWaits (s.image e)
    if e.state = 2 ∧ ws.all (fun w => match s.wick w.1 with
        | some q => decide (needOf ws w.1 ≤ q.count)
        | none => false) then
      let s := ws.foldl (fun s w => match s.wick w.1 with
        | some q => s.setWick w.1 { q with count := q.count - w.2, consumed := satAdd32 q.consumed w.2 }
        | none => s) s
      let s := (s.dropEntryWaits k).setEntry k { e with state := 3, taken := ws }
      match e.by_ with
      | .op n id => s.updOp n id fun o => if o.phase = .waiting then { o with phase := .active } else o
      | .remote _ _ => s
    else s

/-! ## The end of an entry (R468, R472) -/

/-- Count once for each entry of a die that a cancel ends. -/
def State.aborted (s : State) (k : Nat) : State := s.count (.TRN_ABORT_COUNT (k / 256))

/-- Unload a program whose owner is gone once no entry names it (R463). -/
def State.unloadDead (s : State) (n : Nat) : State :=
  match s.program n with
  | some p => if p.dead && (s.entriesOf n).isEmpty then
      { s with
        trn := { s.trn with programs := SMap.del s.trn.programs n }
        plc := { s.plc with pins := SMap.del s.plc.pins n, heat := SMap.keep s.plc.heat fun k _ => k / 8 != n } }
    else s
  | none => s

/-- End an entry: it becomes FREE, and its outcome reaches the operation or the issuing module (R468). -/
def State.endEntry (s : State) (k : Nat) : State :=
  match s.entry k with
  | none => s
  | some e =>
    let flags := b2n e.saturated + 2 * b2n e.special
    let out := e.ending.getD (if e.inexact then stInexact else stSuccess, flags, false)
    let s := { s with trn := { s.trn with entries := SMap.del s.trn.entries k } }
    let s := s.disown fun q => match q with | .operand d n _ _ | .operandConfirm d n _ _ _ => d * 256 + n == k | _ => false
    let s := if out.1 = stPoisoned then s.setFlag (.TRN_ERR (k / 256)) 1 else s
    let s := s.unloadDead e.program
    if e.silent then s else
      match e.by_ with
      | .op n id => s.opDone n id out.1 out.2.1 out.2.2 e.confirmed (s.me + e.units * 2 ^ 32)
      | .remote m t =>
        let body := [BitVec.ofNat 8 out.1, BitVec.ofNat 8 out.2.1, 0, 0] ++ beBytes 4 e.confirmed ++ beBytes 4 e.units
        s.ask .control { s.blank 0x22 m e.tc with
          partition := e.partition, txn := t, length := 64, payload := padded body, ackReq := true }

/-- An entry in DRAINING ends once its output writes have all been answered and none of its channel requests is pending (R470, R472). -/
def State.drainEntry (s : State) (k : Nat) : State :=
  match s.entry k with
  | some e => if e.state = 5 ∧ e.writes = [] ∧ s.asked k e.order = [] then s.endEntry k else s
  | none => s

/-- The channel arbiters work for a nanosecond, and the entries whose last access has entered a command queue end. -/
def State.arbsWork (s : State) : State :=
  let s := s.arbTick
  s.trn.entries.foldl (fun (s : State) e => s.drainEntry e.1) s

/-- The tiles of an entry are released and it waits for its writes (R470, R472). -/
def State.toDraining (s : State) (k : Nat) : State :=
  match s.entry k with
  | some e => (s.setEntry k { e with state := 5, tiles := none }).drainEntry k
  | none => s

/-- An access or operator of a running entry failed: the program ends with the failure's status. -/
def State.failEntry (s : State) (k status detail : Nat) (remote : Bool) : State :=
  match s.entry k with
  | some e => if e.ending.isSome ∨ e.state < 4 then s
    else ((match e.by_ with
      | .op n id => if (status = stPoisoned ∨ status = stTranslationFault) ∧ !remote then s.holdEcc n id else s
      | .remote _ _ => s).setEntry k { e with ending := some (status, detail, remote) }).toDraining k
  | none => s

/-- Cancel an entry (R472): its status, and whether it ends without a record. A cancel that has been applied stands; one that comes to an
entry that drains after a failure of its own takes the failure's place. -/
def State.cancelEntry (s : State) (k status detail : Nat) (remote silent : Bool) : State :=
  match s.entry k with
  | none => s
  | some e =>
    if e.silent then s
    else if e.cancelled then (if silent then s.setEntry k { e with silent := true } else s)
    else
      let s := s.aborted k
      let e := { e with ending := some (status, detail, remote), cancelled := true, silent := silent }
      match e.state with
      | 3 =>
        let s := e.taken.foldl (fun s w => s.addTokens w.1 w.2) s
        (s.setEntry k e).endEntry k
      | 4 => ((s.withdraw k e.order).setEntry k e).toDraining k
      | 5 => (s.setEntry k e).drainEntry k
      | _ => ((s.dropEntryWaits k).setEntry k e).endEntry k

/-! ## Starting an entry (R466, R469, R470) -/

/-- The operands of a launch from its 16-byte entries (R270). -/
def operandsOf (b : Bytes) (n : Nat) : List TOper :=
  (List.range n).map fun i =>
    let w := leAt b (16 * i + 12) 4
    ⟨w / 2 ^ 30, leAt b (16 * i) 8, leAt b (16 * i + 8) 4, w % 2 ^ 17⟩

/-- Start an entry on its die; false when the die has no free entry (R469, R470). -/
def State.startEntry (s : State) (program : Nat) (by_ : Launcher) (inst partition tc : Nat) (opers : List TOper) : Bool × State :=
  match s.program program with
  | none => (false, s)
  | some pr =>
    let die := s.dieFor inst pr.image opers
    match s.freeProgramEntry die with
    | none => (false, s)
    | some k =>
      let ws := imgWaits pr.image
      let e : TEntry := ⟨if ws = [] then 3 else 2, program, s.trn.launches, by_, inst, partition, tc, opers,
        imgPriority pr.image, none, [], [], [], [], [], [], [], 0, false, false, false, 0, none, false, false⟩
      let s := { s with trn := { s.trn with launches := s.trn.launches + 1 } }
      let s := (s.setEntry k e).count (.TRN_LAUNCH_COUNT die)
      let s := (ws.map (·.1)).eraseDups.foldl (fun s n => match s.wick n with
        | some q =>
          let s := s.setWick n { q with waiters := q.waiters ++ [⟨.program die (k % 256), needOf ws n⟩] }
          { s with syn := { s.syn with rose := s.syn.rose ++ [n] } }
        | none => s) s
      (true, s)

/-! ## Operand accesses (R467) -/

/-- Ask a module for data of a skylight, or send it data. -/
def State.skyAsk (s : State) (owner : TxnOwner) (partition tc srcGen mod key off : Nat) (data : Bytes ⊕ Nat) : State :=
  let len := match data with | .inl b => b.length | .inr n => n
  let payload := match data with | .inl b => b | .inr _ => []
  s.ask owner { s.blank (if data.isLeft then 0x01 else 0x02) mod tc with
    form := 1, partition, key, length := len, payload := padded payload, ackReq := true, remote := off, srcInstGen := srcGen }

/-- The argument that names a piece of an operand of a launch: launch order, slot and offset. -/
def accessArg (order slot off : Nat) : Nat := order * 2 ^ 36 + slot * 2 ^ 32 + off

/-- Ask for a piece of an operand, or send it (R467). -/
def State.operAsk (s : State) (k : Nat) (e : TEntry) (o : TOper) (slot off : Nat) (data : Bytes ⊕ Nat) : State :=
  let owner := TxnOwner.transit (k / 256) (k % 256) (b2n data.isLeft) (accessArg e.order slot off)
  let gen := match e.by_ with | .op _ _ => s.instGen e.inst | .remote _ _ => 0
  if o.form = 0 then s.hallAsk owner e.partition e.tc gen (o.addr + off) data
  else s.skyAsk owner e.partition e.tc gen o.mod o.key (o.addr + off) data

/-! ## What operators read (R513, R518, R520, R528) -/

/-- A count of rows, limited to 0 to `hi`. -/
def rowsIn (v : Int) (hi : Nat) : Nat := (min (max v 0) (hi : Int)).toNat

/-- The ranges of bytes that an operator reads of an operand slot at its input `j`, where they are known: what it declares of it, but of a
COPY its LENGTH, of a GATHER_ROWS the rows that its records pick, of an EXPERT_FFN the rows counted and the weights of their experts, and of an
ATTEND_DECODE the positions of each sequence (R528). `val` gives the input on which these depend, once it is there. -/
def opReads (r : Bytes) (j : Nat) (val : Nat → Option Bytes) : Option (List (Nat × Nat)) :=
  let code := opP r 0 1
  if code = 0x01 then some [(opP r 8 8, opP r 16 4)]
  else if code = 0x0B ∧ j = 0 then (val 1).map fun b =>
    let size := fmSize (opP r 8 1) (opP r 16 4)
    let w := bit (opP r 9 1) 0
    (List.range (opP r 20 4 * if w then opP r 10 1 else 1)).filterMap fun i =>
      (rowIndex (opInt b (if w then 2 * i else i)) (indexBase r) (opP r 12 4)).1.map fun x => (x * size, size)
  else if code = 0x06 ∧ j < 2 then (val 2).map fun b =>
    let row := fmSize (opP r 9 1) (opP r 16 4)
    let per := fmSize (opP r 8 1) (opP r 20 4 * opP r 16 4) * (if bit (opP r 12 1) 0 then 3 else 2)
    (List.range (opP r 24 2)).filterMap fun e =>
      let n := rowsIn (opInt b e) (opP r 28 4)
      if n = 0 then none else if j = 0 then some (e * opP r 28 4 * row, n * row) else some (e * per, per)
  else if code = 0x07 ∧ !bit (opP r 11 1) 0 ∧ (j = 1 ∨ j = 2) then (val 3).map fun b =>
    let row := fmSize (opP r 9 1) (opP r 16 2) * opP r 14 2
    (List.range (opP r 18 2)).filterMap fun q =>
      let n := rowsIn (opInt b q) (opP r 20 4)
      if n = 0 then none else some (q * opP r 20 4 * row, n * row)
  else some (match (opSpec r).bind fun sp => sp.ins[j]? with
    | some x => [(0, x.size)]
    | none => [])

/-- Put a range of bytes into a list of ranges in order. -/
def putRange (x : Nat × Nat) : List (Nat × Nat) → List (Nat × Nat)
  | [] => [x]
  | y :: ys => if x.1 ≤ y.1 then x :: y :: ys else y :: putRange x ys

/-- Join the ranges of a list in order that meet or overlap. -/
def joinRanges : List (Nat × Nat) → List (Nat × Nat)
  | [] => []
  | x :: xs => match joinRanges xs with
    | [] => [x]
    | y :: ys => if y.1 ≤ x.1 + x.2 then (x.1, max (x.1 + x.2) (y.1 + y.2) - x.1) :: ys else x :: y :: ys

/-! ## What operators wait for (R461, R475, R495, R498) -/

/-- The pieces in which an operand slot is read, where they are known: the ranges that the operators read of its launch-time value, cut at
boundaries of 4 KiB (R495, R528). `val` gives what is there at an input reference of an operator. -/
def TEntry.slotPieces (e : TEntry) (image : Bytes) (slot : Nat) (val : Nat → Nat → Option Bytes) : Option (List (Nat × Nat)) :=
  let readers := (List.range (imgOps image)).flatMap fun q => ((opInRefs (imgOp image q)).zipIdx.filter fun x =>
    x.1 == slot && !(writersOf image slot).any fun w => decide (w < q)).map fun x => (q, x.2)
  (readers.mapM fun x => opReads (imgOp image x.1) x.2 fun j => val x.1 ((opInRefs (imgOp image x.1)).getD j 0xFF)).map fun rs =>
    (joinRanges (rs.flatten.foldl (fun l x => putRange x l) [])).flatMap fun x =>
      (pieces 4096 ((e.opers.getD slot default).addr + x.1) x.2).map fun p => (x.1 + p.1, p.2)

/-- The value at an input reference of operator `k`, when it is there (R461, R495); `fuel` bounds the references that it depends on. -/
def TEntry.valueIn (e : TEntry) (image : Bytes) : Nat → Nat → Nat → Option Bytes
  | 0, _, _ => none
  | fuel + 1, k, r =>
    if r = 0xFF then some []
    else if 0x40 ≤ r then some (imgConst image (r - 0x40))
    else if 8 ≤ r ∨ (writersOf image r).any fun w => decide (w < k) then SMap.find e.vals r
    else match e.slotPieces image r fun q x => e.valueIn image fuel q x with
      | none => none
      | some ps =>
        let b := SMap.getD e.bufs r RBuf.empty
        if b.has ps then some (spreadPieces (imgSlot image r).2.2 0 b.pieces) else none

/-- The value at an input reference of operator `k`, when it is there (R461, R495). -/
def TEntry.value (e : TEntry) (image : Bytes) (k r : Nat) : Option Bytes := e.valueIn image 17 k r

/-- The pieces in which operand slot `i` is read, where they are known. -/
def TEntry.readsOf (e : TEntry) (image : Bytes) (i : Nat) : Option (List (Nat × Nat)) := e.slotPieces image i fun q x => e.value image q x

/-- The chunks of an operator that are done, and that are issued. -/
def TEntry.chunksDone (e : TEntry) (k : Nat) : Nat := SMap.getD e.chunks k 0
def TEntry.chunksIssued (e : TEntry) (k : Nat) : Nat := SMap.getD e.issued k 0

/-- The operand transfers of an operator that are outstanding: the pieces of the slots that it reads, and its output writes (R475). -/
def TEntry.transfers (e : TEntry) (image : Bytes) (k : Nat) : Nat :=
  sumList ((opInRefs (imgOp image k)).eraseDups.map fun r =>
    ((SMap.getD e.bufs r RBuf.empty).pieces.filter fun p => p.data.isNone).length) + SMap.getD e.writes k 0

/-- The operator before `k` whose output a reference of `k` names, with the number of that output. -/
def producerOf (image : Bytes) (k r : Nat) : Option (Nat × Nat) :=
  ((List.range k).flatMap fun q => ((opOutRefs (imgOp image q)).zipIdx.filter fun x => x.1 == r).map fun x => (q, x.2)).getLast?

/-- The bytes of output `j` of operator `q` that its chunks done so far give. -/
def TEntry.given (e : TEntry) (image : Bytes) (q j : Nat) : Nat :=
  let p := chunkPlan (imgOp image q)
  (p.outs.getD j fun _ => 0) (p.units (e.chunksDone q))

/-- Whether the first `n` bytes at an input reference of operator `k` are there: read from the operand, or covered by the chunks of their
producer that are done (R475, R495). -/
def TEntry.covered (e : TEntry) (image : Bytes) (k r n : Nat) : Bool :=
  (e.value image k r).isSome ||
    match producerOf image k r with
    | some (q, j) => decide (n ≤ e.given image q j)
    | none => r < 8 && match e.readsOf image r with
      | some ps => (SMap.getD e.bufs r RBuf.empty).hasTo ps n
      | none => false

/-- Whether operator `q` has consumed the first `n` bytes of its input `i` (R495). -/
def TEntry.consumed (e : TEntry) (image : Bytes) (q i n : Nat) : Bool :=
  let p := chunkPlan (imgOp image q)
  e.done.contains q ||
    match p.ins.getD i .whole with
    | .upTo f => decide (n ≤ f (p.units (e.chunksDone q)))
    | .again _ past => decide (n ≤ past (p.units (e.chunksDone q)))
    | .whole => false

/-- Whether chunk `c` of operator `k`, counted from 0, may be issued: what it covers of each input is there, and every earlier reader of a slot
that it writes has consumed what it covers there (R475, R495, R498). -/
def TEntry.chunkReady (e : TEntry) (image : Bytes) (k c : Nat) : Bool :=
  let p := chunkPlan (imgOp image k)
  let u := p.units (c + 1)
  ((opInRefs (imgOp image k)).zipIdx.all fun x => match p.ins.getD x.2 .whole with
    | .upTo f => e.covered image k x.1 (f u)
    | .again f _ => e.covered image k x.1 (f u)
    | .whole => (e.value image k x.1).isSome) &&
  (opOutRefs (imgOp image k)).zipIdx.all fun o => decide (8 ≤ o.1) || (List.range k).all fun q =>
    (opInRefs (imgOp image q)).zipIdx.all fun x => x.1 != o.1 || e.consumed image q x.2 (match p.outs[o.2]? with
      | some f => f u
      | none => (imgSlot image o.1).2.2)

/-- The chunks of operator `k` that may be issued, from `c` on; `fuel` is those left. -/
def TEntry.issuable (e : TEntry) (image : Bytes) (k : Nat) : Nat → Nat → Nat
  | c, 0 => c
  | c, fuel + 1 => if e.chunkReady image k c then e.issuable image k (c + 1) fuel else c

/-- What is there at an input reference of operator `k`, `n` bytes in all: the bytes that its chunks cover are as they will be, and the rest is
not read (R475, R498). -/
def TEntry.prefixIn (e : TEntry) (image : Bytes) : Nat → Nat → Nat → Nat → Bytes
  | 0, _, _, n => zeros n
  | fuel + 1, k, r, n =>
    match e.value image k r with
    | some b => b
    | none =>
      match producerOf image k r with
      | some (q, j) =>
        let o := imgOp image q
        let ins := (opInRefs o).zipIdx.map fun x => e.prefixIn image fuel q x.1 ((((opSpec o).bind fun sp => sp.ins[x.2]?).map (·.size)).getD 0)
        let b := ((runOperator o ins).outs.getD j []).take (e.given image q j)
        b ++ zeros (n - b.length)
      | none => spreadPieces n 0 ((SMap.getD e.bufs r RBuf.empty).pieces.filter fun p => p.data.isSome)

/-- The inputs of operator `k` of an entry as its last chunk is done. -/
def TEntry.inputs (e : TEntry) (image : Bytes) (k : Nat) : List Bytes :=
  let o := imgOp image k
  (opInRefs o).zipIdx.map fun x => e.prefixIn image 17 k x.1 ((((opSpec o).bind fun sp => sp.ins[x.2]?).map (·.size)).getD 0)

/-- Ask for what of operand slot `i`, which lies in instance memory, is not yet asked for (R467). -/
def State.readLocalOper (s : State) (k i : Nat) : State :=
  match s.entry k with
  | none => s
  | some e =>
    match e.opers[i]?, e.readsOf (s.image e) i with
    | some o, some ps =>
      if o.form ≠ 2 then s else
        let b := SMap.getD e.bufs i RBuf.empty
        let r := State.readPieces e.inst e.inst o.addr false (fun off => .operand (k / 256) (k % 256) i off) (ps.drop b.pieces.length) b
          (s.via (s.tileClient k e))
        let s := (r.2.2.via .fab).setEntry k { e with bufs := SMap.put e.bufs i r.2.1 }
        match r.2.1.fail with
        | some f => s.failEntry k f.1 f.2 false
        | none => s
    | _, _ => s

/-- Ask for what of the operands of a running entry is known to be read and not yet asked for (R467, R528). -/
def State.readOpers (s : State) (k : Nat) : State :=
  match s.entry k with
  | none => s
  | some e =>
    (List.range e.opers.length).foldl (fun s i =>
      match s.entry k, e.opers[i]? with
      | some e', some o =>
        if !slotReads (s.image e) i ∨ e'.ending.isSome ∨ e'.state ≠ 4 then s
        else if o.form = 2 then s.readLocalOper k i
        else if SMap.has e'.bufs i then s
        else match e'.readsOf (s.image e) i with
          | none => s
          | some ps =>
            let s := s.setEntry k { e' with bufs := SMap.put e'.bufs i ⟨ps.map fun p => ⟨p.1, p.2, none⟩, none⟩ }
            ps.foldl (fun s p => s.operAsk k e' o i p.1 (.inr p.2)) s
      | _, _ => s) s

/-- Issue the chunks of a running entry that what they cover is there for (R475). -/
def State.issueChunks (s : State) (k : Nat) : State :=
  match s.entry k with
  | none => s
  | some e =>
    if e.state ≠ 4 ∨ e.ending.isSome then s else
      let image := s.image e
      s.setEntry k { e with issued := (List.range (imgOps image)).foldl (fun m q =>
        SMap.put m q (e.issuable image q (e.chunksIssued q) (opChunks (imgOp image q) - e.chunksIssued q))) e.issued }

/-- A running entry goes on with what is there now. -/
def State.goOn (s : State) (k : Nat) : State := (s.readOpers k).issueChunks k

/-- The operator that writes a slot (R461). -/
def slotWriter (image : Bytes) (slot : Nat) : Nat := (writersOf image slot).headD 0

/-- An output write of an operator is answered: its bytes are confirmed, or the program fails (R468). -/
def State.writeEnded (s : State) (k op : Nat) (r : Nat ⊕ (Nat × Nat × Bool)) : State :=
  match s.entry k with
  | none => s
  | some e =>
    let s := s.setEntry k { e with
      writes := SMap.putD 0 e.writes op (SMap.getD e.writes op 0 - 1)
      confirmed := e.confirmed + (match r with | .inl n => n | .inr _ => 0) }
    (match r with | .inl _ => s | .inr f => s.failEntry k f.1 f.2.1 f.2.2).drainEntry k

/-- The zero-length read behind a program's writes to host or peer memory has come back, or has failed (R97, R468). -/
def State.operConfirmed (s : State) (k order op : Nat) (r : Nat ⊕ (Nat × Nat)) : State :=
  match s.entry k with
  | none => s
  | some e => if e.order ≠ order then s else s.writeEnded k op (match r with | .inl n => .inl n | .inr f => .inr (f.1, f.2, false))

/-- Write an output slot (R467, R468). What the arbiters have still to take is confirmed as it enters their queues, and what goes to host or
peer memory as the zero-length read behind it returns (R97). -/
def State.writeOper (s : State) (k i : Nat) (data : Bytes) : State :=
  match s.entry k with
  | none => s
  | some e =>
    match e.opers[i]? with
    | none => s
    | some o =>
      let op := slotWriter (s.image e) i
      if o.form = 2 then
        let held := s.storing k e.order
        let places := s.hostPlaces e.inst o.addr data.length
        let out := sumList (places.map (·.2.2))
        let r := (s.via (s.tileClient k e)).ivaWrite e.inst o.addr data true
        let s := r.2.via .fab
        match r.1 with
        | none =>
          let s := s.setEntry k { e with
            confirmed := e.confirmed + (data.length - out) - (s.storing k e.order - held)
            writes := SMap.putD 0 e.writes op (SMap.getD e.writes op 0 + b2n (out != 0)) }
          match places.getLast? with
          | none => s
          | some (t, peer, _) => (s.hostRead e.inst t 0 peer (.operandConfirm (k / 256) (k % 256) e.order op out) (some e.inst)).getD
              (s.writeEnded k op (.inr (stAborted, dBusMaster, false)))
        | some (.fault f) => s.failEntry k stTranslationFault f false
        | some .host => s.failEntry k stHostMemoryError 2 false
        | some .blocked => s.failEntry k stAborted dBusMaster false
      else
        let ps := pieces 4096 o.addr data.length
        let s := s.setEntry k { e with writes := SMap.putD 0 e.writes op (SMap.getD e.writes op 0 + ps.length) }
        ps.foldl (fun s p => s.operAsk k e o i p.1 (.inl (slice data p.1 p.2))) s

/-- The bytes of the write of an operand at an offset: the piece of 4 KiB that begins there. -/
def State.pieceLen (s : State) (e : TEntry) (slot off : Nat) : Nat :=
  let o := e.opers.getD slot default
  ((pieces 4096 o.addr (imgSlot (s.image e) slot).2.2).find? fun p => p.1 == off).elim 0 (·.2)

/-- Wire units that a program's launch has moved count in the heat of its operand slot (R555). -/
def State.heatUnits (s : State) (program slot n : Nat) : State :=
  if n = 0 then s else
    let k := 8 * program + slot
    { s with plc := { s.plc with heat := SMap.put s.plc.heat k (satAdd32 (SMap.getD s.plc.heat k 0) n) } }

/-- An access of an operand that another module holds counts in the heat of its slot, if the launch runs here for an operation of this module
(R555). -/
def State.operandMoved (s : State) (die en what arg : Nat) (r : Resolved) : State :=
  match s.entry (entryKey die en) with
  | none => s
  | some e =>
    match e.by_ with
    | .remote _ _ => s
    | .op _ _ =>
      if arg / 2 ^ 36 ≠ e.order ∨ r.status ≠ 0 ∨ r.dst = s.me then s
      else
        let slot := arg / 2 ^ 32 % 16
        s.heatUnits e.program slot (cdiv (if what = 0 then r.data.length else s.pieceLen e slot (arg % 2 ^ 32)) 64)

/-- An access of an entry has ended: `what` is 0 for a read and 1 for a write. -/
def State.transitAcked (s : State) (die en what arg status reason : Nat) (remote : Bool) (data : Bytes) : State :=
  let k := entryKey die en
  match s.entry k with
  | none => s
  | some e =>
    if arg / 2 ^ 36 ≠ e.order then s
    else
      let slot := arg / 2 ^ 32 % 16
      let off := arg % 2 ^ 32
      if what = 0 then
        if status ≠ 0 then s.failEntry k status reason remote
        else (s.setEntry k { e with bufs := SMap.put e.bufs slot ((SMap.getD e.bufs slot RBuf.empty).land off data) }).goOn k
      else
        s.writeEnded k (slotWriter (s.image e) slot) (if status = 0 then .inl (s.pieceLen e slot off) else .inr (status, reason, remote))

/-! ## Tiles and chunks (R474, R475) -/

/-- The first aligned block of `n` free tiles of a die. -/
def State.tileBlock (s : State) (die n : Nat) : Option Nat :=
  let busy := s.tilesBusy die
  ((List.range (64 / n)).map fun i => i * n).find? fun t => (List.range n).all fun i => !busy.contains (t + i)

/-- The READY entry of a die that is first in priority and launch order. -/
def State.firstReady (s : State) (die : Nat) : Option (Nat × TEntry) :=
  (s.trn.entries.filter fun e => e.1 / 256 == die && e.2.state == 3).foldl (fun b e =>
    match b with
    | none => some e
    | some x => if x.2.prio < e.2.prio ∨ (x.2.prio = e.2.prio ∧ e.2.order < x.2.order) then some e else b) none

/-- Give tiles to the READY entry that is first, when they are free (R474). -/
def State.allocateTiles (s : State) (die : Nat) : State :=
  match s.firstReady die with
  | none => s
  | some (k, e) =>
    let n := s.tilesOf e
    let free := 64 - (s.tilesBusy die).length
    if e.prio < 3 ∧ free < n + s.comF (.TRN_SCHED_CFG die) 6 0 then s
    else match s.tileBlock die n with
      | none => s
      | some t => (s.setEntry k { e with state := 4, tiles := some t }).goOn k

/-- An operator's last chunk is done: its outputs are there (R453, R475, R528). -/
def State.operatorDone (s : State) (k op : Nat) (e : TEntry) (ins : List Bytes) : State :=
  let image := s.image e
  let r := imgOp image op
  let o := runOperator r ins
  let cost := if costStated r then opCost r ins else s.freeVal
  let s := if costStated r then s else s.drawn
  let outs := (opOutRefs r).zip o.outs |>.filter fun p => p.1 != 0xFF
  let e := { e with
    vals := outs.foldl (fun m p => SMap.put m p.1 p.2) e.vals, done := e.done ++ [op], cycles := e.cycles + cost,
    saturated := e.saturated || o.sat != 0, special := e.special || o.spec, inexact := e.inexact || o.inexact }
  let die := k / 256
  let s := ((s.setEntry k e).countN (.TRN_TILE_CYCLE_COUNT die) cost).countN (.TRN_SAT_COUNT die) o.sat
  let s := outs.foldl (fun s p => if p.1 < 8 then s.writeOper k p.1 p.2 else s) s
  match s.entry k with
  | some e => if e.state = 4 ∧ imgOps image ≤ e.done.length then s.toDraining k else s
  | none => s

/-- A chunk of operator `op` of a running entry that has been issued is done (R475). The outputs of an operator are computed as its last chunk
is done (log 88). -/
def State.chunkDone (s : State) (k op : Nat) : State :=
  match (s.goOn k).entry k with
  | none => s
  | some e =>
    let s := s.goOn k
    let image := s.image e
    if e.state ≠ 4 ∨ e.ending.isSome ∨ imgOps image ≤ op ∨ e.done.contains op ∨ e.chunksIssued op ≤ e.chunksDone op then s else
      let n := e.chunksDone op + 1
      let next := { e with chunks := SMap.put e.chunks op n }
      (if n < opChunks (imgOp image op) then s.setEntry k next else s.operatorDone k op next (e.inputs image op)).goOn k

/-! ## Launching (R464 to R466, R552 to R555) -/

/-- The bytes of operand entries in a TRANSIT descriptor (R270). -/
def dOperands (d : Bytes) : Bytes := slice d 64 128

/-- The candidates of an AUTO launch (R553, R554). -/
def State.autoCandidates (s : State) (program partition : Nat) (image : Bytes) (opers : List TOper) : List Nat :=
  let hs := opers.mapIdx fun i o =>
    let h := s.operHolders o
    (if slotReads image i then [h.1] else []) ++ (if slotWrites image i then [h.2] else [])
  let ok m := s.member partition m && !s.plc.absent.contains (program, m)
  (s.me :: (hs.flatMap id).filter ok).eraseDups

/-- The cost of a candidate (R553). -/
def State.autoCost (s : State) (image : Bytes) (opers : List TOper) (c : Nat) : Nat :=
  sumList (opers.mapIdx fun i o =>
    let h := s.operHolders o
    let b := (imgSlot image i).2.2
    (if slotReads image i then b * s.hops c h.1 else 0) + (if slotWrites image i then b * s.hops c h.2 else 0))

/-- The executing module of a launch; none for a PINNED launch without a pin (R465, R552). -/
def State.executor (s : State) (program partition place : Nat) (image : Bytes) (opers : List TOper) : Option Nat :=
  if opers.any (fun o => o.form == 2) ∨ imgWaits image ≠ [] then some s.me
  else match place with
    | 0 =>
      let cs := s.autoCandidates program partition image opers
      some (cs.foldl (fun best c =>
        let a := s.autoCost image opers best
        let b := s.autoCost image opers c
        if b < a ∨ (b = a ∧ best ≠ s.me ∧ c < best) then c else best) s.me)
    | 1 => some s.me
    | 2 =>
      let outs := (List.range opers.length).filter fun i => slotWrites image i && (opers.getD i default).form != 2
      some (match outs with
        | i :: _ => (s.operHolders (opers.getD i default)).2
        | [] => s.me)
    | _ => SMap.find s.plc.pins program

/-- The first failure of a TRANSIT's checks (R247, R270, R464), with the state after the faults that it logs. -/
def State.transitFail (s : State) (q : Qp) (d : Bytes) : Option (Nat × Nat) × State :=
  let n := leAt d 10 1
  let opers := operandsOf (dOperands d) n
  match s.program (leAt d 8 2) with
  | none => (some (stBadDescriptor, dField), s)
  | some pr =>
    if q.connected ∨ opers.any fun o => o.form == 3 then (some (stBadDescriptor, dField), s)
    else if pr.dead then (some (stBadDescriptor, dField), s)
    else if pr.partition ≠ q.partition then (some (stLocalProtection, 0), s)
    else if n ≠ imgOperands pr.image then (some (stBadDescriptor, dField), s)
    else
      let ixs := List.range n
      let local_ := ixs.foldl (fun (a : Option (Nat × Nat) × State) i =>
        let o := opers.getD i default
        if a.1.isSome ∨ o.form ≠ 2 then a else
          let len := (imgSlot pr.image i).2.2
          let r := if slotReads pr.image i then a.2.localCheck q.inst o.addr len .read else (none, a.2)
          let r := if r.1.isNone && slotWrites pr.image i then r.2.localCheck q.inst o.addr len .write else r
          (r.1.map fun f => (stTranslationFault, f), r.2)) (none, s)
      if local_.1.isSome then local_ else
        (ixs.foldl (fun (a : Option (Nat × Nat)) i =>
          let o := opers.getD i default
          if a.isSome ∨ o.form ≠ 0 then a else s.hallFail 0 o.addr (imgSlot pr.image i).2.2) none, local_.2)

/-- The cached translations of the operands of a launch have been used (R533). -/
def State.operandsUsed (s : State) (opers : List TOper) : State :=
  opers.foldl (fun (s : State) o => if o.form = 0 then s.cacheUsed (hallHome o.addr) (hallPage o.addr) else s) s

/-- Count the wire units that a launch on another module has moved between holders and that module (R555): TRANSIT_DONE does not say them, and what
its operands declare is taken, once it has completed (log 88). -/
def State.operandHeat (s : State) (program exec_ : Nat) (image : Bytes) (opers : List TOper) : State :=
  (List.range opers.length).foldl (fun (s : State) i =>
    let h := s.operHolders (opers.getD i default)
    let u := cdiv (imgSlot image i).2.2 64
    let n := (if slotReads image i && h.1 != exec_ then u else 0) + (if slotWrites image i && h.2 != exec_ then u else 0)
    if (opers.getD i default).form = 2 then s else s.heatUnits program i n) s

/-- Launch a program on this module for an operation; it waits at issue when its die has no free entry (R469). -/
def State.launchHere (s : State) (n id : Nat) (q : Qp) (d : Bytes) : State :=
  let program := leAt d 8 2
  let opers := operandsOf (dOperands d) (leAt d 10 1)
  match s.program program with
  | none => s.opFail n id stBadDescriptor dField
  | some pr =>
    match s.startEntry program (.op n id) q.inst q.partition q.tc opers with
    | (false, s) => s
    | (true, s) =>
      (s.operandsUsed opers).updOp n id fun o =>
        { o with phase := if imgWaits pr.image = [] then .active else .waiting }

/-- Launch a program on another module (R466); it waits at issue for an epoch, an entry or its bucket (R322, R281, R371). -/
def State.launchAt (s : State) (n id : Nat) (w : Wq) (qn : Nat) (q : Qp) (pr : Program) (d : Bytes) (dst : Nat) : State :=
  let owner := TxnOwner.launch n id
  match s.needCtx qn q with
  | (true, s) => s
  | (false, s) =>
  if !s.epochKnown dst then s.probe dst
  else if !s.qpRoom qn then s.allocWaits owner
  else match s.freeEntry owner with
    | none => s.allocWaits owner
    | some k =>
      if s.injectHeld (s.blank 0x20 dst q.tc) then s.allocDone owner else
      match s.bucket dst q.tc 192 with
      | none => s.allocDone owner
      | some t =>
      match t.grant owner with
      | (false, _) => s.allocWaits owner
      | (true, s) =>
        let opers := operandsOf (dOperands d) (leAt d 10 1)
        let body := beBytes 8 pr.digest ++ [BitVec.ofNat 8 opers.length] ++ zeros 55 ++ dOperands d
        let p := { s.blank 0x20 dst q.tc with
          partition := q.partition, srcQpn := qn, srcInstGen := s.instGen w.inst, srcQueueGen := w.gen,
          length := 192, payload := body, ackReq := true }
        let s := s.startTxn k owner (some qn) false none p body 0 0
        (s.operandsUsed opers).updOp n id fun o => { o with phase := .active }

/-- Whether something of a queue pair that touches an operand of a launch is unresolved, so that the program, whose accesses are operations
of that queue pair, would overtake it (R88, R272, R467): a transaction on a page of the operand or on its skylight, or a collapse that a
write of the queue pair has begun. -/
def State.operBusy (s : State) (qn : Nat) (o : TOper) (len : Nat) : Bool :=
  match o.form with
  | 0 => (pieces frameBytes o.addr len).any fun p =>
      let a := o.addr + p.1
      s.pageTxns qn (pageOf a) != [] || s.watched qn (hallHome a) (hallPage a)
  | 1 => (s.qpTxns qn).any fun e => e.2.dst == o.mod && ((e.2.pkts.head?).map (·.key)) == some o.key
  | _ => false

/-- A TRANSIT reaches issue (R464, R465, R552). It waits there for the operations that its accesses must follow (log 89). -/
def State.transit (s : State) (n id : Nat) : State :=
  s.runOp n id 0x20 fun s w o qn q =>
    match s.transitFail q o.desc with
    | (some f, s) => s.opFail n id f.1 f.2
    | (none, s) =>
      match s.program (leAt o.desc 8 2) with
      | none => s
      | some pr =>
        let opers := operandsOf (dOperands o.desc) (leAt o.desc 10 1)
        if (opers.zipIdx).any fun x => s.operBusy qn x.1 (imgSlot pr.image x.2).2.2 then s else
        match s.executor (leAt o.desc 8 2) q.partition (leAt o.desc 11 1) pr.image opers with
        | none => s.opFail n id stBadDescriptor dField
        | some m => if m = s.me ∨ o.here then s.launchHere n id q o.desc else s.launchAt n id w qn q pr o.desc m

/-- A launch's transaction has ended: accepted launches stay until their TRANSIT_DONE, and an AUTO launch that found no program
is launched again here (R466, R554). -/
def State.launchEnded (s : State) (n id dst status reason : Nat) (remote : Bool) : State :=
  match s.wq n with
  | none => s
  | some w =>
    match w.op id, w.qp.bind s.qp with
    | some o, some q =>
      if status = stRemoteAccess ∧ reason = rsKeyUnknown ∧ leAt o.desc 11 1 = 0 then
        let program := leAt o.desc 8 2
        let s := if s.plc.absent.contains (program, dst) then s
          else { s with plc := { s.plc with absent := s.plc.absent ++ [(program, dst)] } }
        let s := s.placement 8 dst program 0
        (s.updOp n id fun o => { o with phase := .ready, here := true }).launchHere n id q o.desc
      else s.opDone n id status reason remote 0 dst
    | _, _ => s

/-- TRANSIT_LAUNCH has been accepted: the program is launched here (R466). -/
def State.launchIn (s : State) (p : Pkt) : State :=
  let digest := beNat (slice p.payload 0 8)
  match s.trn.programs.find? fun e => e.2.digest == digest && e.2.partition == p.partition && !e.2.dead with
  | none => s
  | some (n, _) =>
    (s.startEntry n (.remote p.src p.txn) 0 p.partition p.tc (operandsOf (p.payload.drop 64) (leAt p.payload 8 1))).2

/-- What a TRANSIT_LAUNCH meets: refused without the program, unaccepted without an entry (R466). -/
def State.launchVerdict (s : State) (p : Pkt) : Option Bool :=
  let digest := beNat (slice p.payload 0 8)
  match s.trn.programs.find? fun e => e.2.digest == digest && e.2.partition == p.partition && !e.2.dead with
  | none => some false
  | some (_, pr) =>
    let opers := operandsOf (p.payload.drop 64) (leAt p.payload 8 1)
    if (s.freeProgramEntry (s.dieFor 0 pr.image opers)).isSome then some true else none

/-- TRANSIT_CANCEL has reached the scheduler (R471). -/
def State.cancelIn (s : State) (p : Pkt) : State :=
  match s.trn.entries.find? fun e => e.2.by_ == .remote p.src p.txn with
  | none => s
  | some (k, _) => s.cancelEntry k (leAt p.payload 0 1) (leAt p.payload 1 1) false false

/-- TRANSIT_DONE has arrived: the launch's entry is freed and the operation completes (R468). -/
def State.doneIn (s : State) (p : Pkt) : State :=
  match SMap.find s.qpe.txns p.txn with
  | none => s
  | some t =>
    match t.owner with
    | .launch n id =>
      if t.dst ≠ p.src then s else
        let st := leAt p.payload 0 1
        let s := s.freeTxn p.txn
        let s := match (s.wq n).bind fun w => w.op id with
          | some o =>
            let program := leAt o.desc 8 2
            match s.program program with
            | some pr => if st = stSuccess ∨ st = stInexact then
                s.operandHeat program p.src pr.image (operandsOf (dOperands o.desc) (leAt o.desc 10 1)) else s
            | none => s
          | none => s
        s.opDone n id st (leAt p.payload 1 1) (decide (3 ≤ st) && decide (st ≤ 6)) (beNat (slice p.payload 4 4))
          (p.src + beNat (slice p.payload 8 4) * 2 ^ 32)
    | _ => s

/-- Tell the executing module of a launch that it is cancelled (R471). -/
def State.sendCancel (s : State) (k : Nat) (t : Txn) (status detail : Nat) : State :=
  let part := ((t.pkts.head?).map (·.partition)).getD 0
  s.ask .control { s.blank 0x21 t.dst t.tc with
    partition := part, txn := k, length := 64, payload := padded [BitVec.ofNat 8 status, BitVec.ofNat 8 detail], ackReq := true }

/-- Whether an operation is still in progress on its queue. -/
def State.opLive (s : State) (n id : Nat) : Bool :=
  match (s.wq n).bind fun w => w.op id with
  | some o => o.phase != .done && o.phase != .stuck
  | none => false

/-- The programs of the operations that satisfy `p` are cancelled without a record here: the entries of this module, and by TRANSIT_CANCEL
the launches elsewhere (R471). -/
def State.cancelLaunches (s : State) (p : Nat → Nat → Bool) (status detail : Nat) : State :=
  let s := s.trn.entries.foldl (fun s e =>
    match e.2.by_ with
    | .op n id => if p n id then s.cancelEntry e.1 status detail false true else s
    | .remote _ _ => s) s
  s.qpe.txns.foldl (fun s e =>
    match e.2.owner with
    | .launch n id => if p n id then (s.freeTxn e.1).sendCancel e.1 e.2 status detail else s
    | _ => s) s

/-- Entries and launches whose operation has ended otherwise (a quiesce, a reset, an error of its queue pair) are cancelled (log 87). -/
def State.pruneLaunches (s : State) : State := s.cancelLaunches (fun n id => !s.opLive n id) stAborted 0

/-- Cancel the entries, and the launches, one of whose operands and its bytes satisfies `p` (R471 cause 3). The bytes of an
operand of a launch whose image is not loaded here count as one. -/
def State.cancelOperands (s : State) (p : TOper → Nat → Bool) : State :=
  let hit (image : Option Bytes) (l : List TOper) : Bool :=
    (l.mapIdx fun i o => p o ((image.map fun b => (imgSlot b i).2.2).getD 1)).any id
  let s := s.trn.entries.foldl (fun s e =>
    if hit (some (s.image e.2)) e.2.opers then s.cancelEntry e.1 stRevoked rsKeyRevoked true false else s) s
  s.qpe.txns.foldl (fun s e =>
    match e.2.owner with
    | .launch _ _ =>
      let b := ((e.2.pkts.head?).map (·.payload)).getD []
      let image := (s.trn.programs.find? fun x => x.2.digest == beNat (slice b 0 8)).map (·.2.image)
      if hit image (operandsOf (b.drop 64) (leAt b 8 1)) then s.sendCancel e.1 e.2 stRevoked rsKeyRevoked else s
    | _ => s) s

/-- Cancel every program of a partition (R471 cause 2). -/
def State.cancelPartition (s : State) (partition : Nat) : State :=
  s.trn.entries.foldl (fun s e => if e.2.partition = partition then s.cancelEntry e.1 stJobFault 0 false false else s) s

end Sys2Proof.Machine
end

