-- ==== Sys2Proof/Machine/Verdict.lean ====
section
/-!
DEFINITION. What a control request of the fabric (types 0x10 to 0x31) meets when its turn in its stream comes: accepted,
refused, or left unaccepted so that it is retransmitted (R305, R312, R406, R424, R466, R543, R547, R548).
-/

namespace Sys2Proof.Machine

/-- What a control request meets. -/
inductive Verd where
  | accept (data : Bytes)
  | refuse (status reason : Nat) (data : Bytes) (s : State)
  | busy

/-- A request for a group that is not defined here (R398, R424). -/
def State.unknownGroup (s : State) : Verd := .refuse stRemoteAccess rsKeyUnknown [] (s.setFlag .COL_ERR 2)

/-- Whether MAX_MOVES copies run here with this module as old holder (R564). -/
def State.copiesFull (s : State) : Bool :=
  decide (s.comF .PLC_MOVE_CFG 15 8 ≤ (s.plc.held.filter fun h => h.2.copyTo.isSome).length)

/-- Whether MAX_MOVES copies run here with this module as target (R564). -/
def State.incomingFull (s : State) : Bool := decide (s.comF .PLC_MOVE_CFG 15 8 ≤ s.plc.incoming.length)

/-- The verdict on MOVE_START (R543 step 2, R558, R564): a target needs a free reserve frame and membership. -/
def State.moveVerdict (s : State) (p : Pkt) : Verd :=
  if plcByte p 16 ≠ 0 then (if s.copiesFull then .busy else .accept [])
  else
    let free := if plcHome p = s.me then 1 else s.reserveFree p.partition
    let data (n : Nat) := leBytes 8 n
    if !s.member p.partition s.me ∨ free = 0 then .refuse stResource 0 (data free) s
    else if s.incomingFull then .busy
    else .accept (data (free - 1))

/-- The verdict on COLLAPSE_NOTE (R547 step 3, R548). -/
def State.noteVerdict (s : State) (p : Pkt) : Verd :=
  if plcByte p 16 = 0 then (if 1024 ≤ s.plc.watch.length then .busy else .accept [])
  else match s.page (plcPage p) with
    | some g =>
      if g.state = .replicated ∧ 64 ≤ g.sources.length ∧ !g.sources.contains (plcModule p 20) then .busy else .accept []
    | none => .accept []

/-- The verdict on a control request. One of a type with room of its own waits while another of its type is being taken in. -/
def State.verdict (s : State) (p : Pkt) : Verd :=
  let b i := leAt p.payload i 1
  let waits := s.qpe.inbox.any fun x => x.typ == p.typ
  match p.typ with
  | 0x10 => if (s.definedGroup (b 0)).isSome then .accept [] else s.unknownGroup
  | 0x12 =>
    if (b 0 = tkBarrier ∨ b 0 = tkGroupDefine ∨ b 0 = tkAbort) ∧ (s.group (beNat (slice p.payload 4 4))).isNone then
      s.unknownGroup else .accept []
  | 0x20 => if waits then .busy else match s.launchVerdict p with
    | some true => .accept []
    | some false => .refuse stRemoteAccess rsKeyUnknown [] s
    | none => .busy
  | 0x29 => if waits then .busy else s.moveVerdict p
  | 0x2E => if waits then .busy else s.noteVerdict p
  | _ => .accept []

end Sys2Proof.Machine
end

