-- ==== Sys2Proof/Machine/Respond.lean ====
section
/-!
DEFINITION. The receiving side of the transport (R261 to R266, R306 to R316, R331 to R333): streams, checks, performing,
answers, duplicates and forwarding.
-/

namespace Sys2Proof.Machine

/-! ## Receive streams (R307) -/

/-- A receive stream: a connected queue pair's, or that of a source module and class. -/
inductive StreamId where
  | qp (n : Nat)
  | module (key : Nat)
  deriving DecidableEq, Repr

/-- The state of a receive stream. -/
def State.rstream (s : State) : StreamId → RStream
  | .qp n => ((s.qp n).map (·.rx)).getD default
  | .module k => SMap.getD s.qpe.recv k default

/-- Replace the state of a receive stream. -/
def State.setStream (s : State) (i : StreamId) (r : RStream) : State :=
  match i with
  | .qp n => { s with qpe := { s.qpe with qps := SMap.upd s.qpe.qps n fun q => { q with rx := r, dirty := true } } }
  | .module k => { s with qpe := { s.qpe with recv := SMap.put s.qpe.recv k r } }

/-- The stream of a request. -/
def streamOf (p : Pkt) : StreamId := if p.dstQpn ≠ 0 then .qp p.dstQpn else .module (streamKey p.src p.tc)

/-- The distance of a PSN from the expected one. -/
def psnDist (psn expect : Nat) : Nat := (psn + 2 ^ 24 - expect) % 2 ^ 24

/-! ## Answers (R304, R312, R315, R316) -/

/-- A response packet to a request, without status and payload. -/
def State.respPkt (s : State) (p : Pkt) (typ : Nat) : Pkt :=
  { s.blank typ p.src p.tc with
    response := true, forwarded := p.forwarded, form := p.form, ecn := if p.ecn = 3 then 3 else 2
    partition := p.partition, stream := if p.forwarded then p.stream else s.me
    srcInstGen := p.srcInstGen, srcQueueGen := p.srcQueueGen
    srcQpn := p.dstQpn, dstQpn := if p.dstQpn ≠ 0 then p.srcQpn else 0
    psn := p.psn, txn := p.txn, key := p.key, remote := p.remote }

/-- The SACK bitmap above PSN (R312). -/
def sackMap (r : RStream) (psn : Nat) : Nat :=
  sumList ((List.range 64).map fun i => if r.held.any fun p => p.psn == (psn + 2 + i) % 2 ^ 24 then 2 ^ i else 0)

/-- The payload of an ACK (R312). -/
def ackPayload (r : RStream) (psn : Nat) : Bytes :=
  slice (beBytes 8 (sackMap r psn) ++ ((r.records.filter fun o => o.status != 0).flatMap fun o => (outcomeBytes o).take 8)) 0 64

/-- Send an ACK for a PSN with an outcome. The ACK of a MOVE_START carries the free reserve in its record slot (R560; log 22). -/
def State.ackWith (s : State) (p : Pkt) (r : RStream) (psn status reason txn : Nat) (marked : Bool) : State :=
  let body := match (if p.typ = 0x29 then r.records.find? fun o => o.psn == psn else none) with
    | some o => slice (beBytes 8 (sackMap r psn) ++ beBytes 4 o.value) 0 64
    | none => ackPayload r psn
  s.inject { s.respPkt p 0x07 with
    psn, status, reason, txn, length := 64, payload := body, ecn := if marked || p.ecn == 3 then 3 else 2 }

/-- The PSN of a stream's cumulative ACK: the last one performed in order, below the first that was passed on and is not known to be
resolved, since an ACK says that every PSN up to its own has been performed (R312, R314; log 72). -/
def RStream.ackPsn (r : RStream) : Nat := (((r.passed.head?).map (·.psn)).getD r.expect + 2 ^ 24 - 1) % 2 ^ 24

/-- The TXN of the request at that PSN (R312). -/
def RStream.ackTxn (r : RStream) : Nat := ((r.passed.head?).map (·.before)).getD r.lastTxn

/-- Send the cumulative ACK of a stream (R312). -/
def State.sendAck (s : State) (i : StreamId) : State :=
  let r := s.rstream i
  match r.lastPkt with
  | none => s
  | some p =>
    let psn := r.ackPsn
    let o := r.records.find? fun o => o.psn == psn
    let s := s.setStream i { r with
      unanswered := 0, owing := r.owing.filter (fun x => decide (2 ^ 23 ≤ psnDist psn x.1)), lastMarked := false }
    s.ackWith p r psn ((o.map (·.status)).getD 0) ((o.map (·.reason)).getD 0) r.ackTxn r.lastMarked

/-- Whether the key of a forerunner-form queue pair can be used once its cipher can serve: what it must encrypt or decrypt then waits
(R44, R334). -/
def State.keyed (s : State) (q : Qp) : Bool :=
  match SMap.find s.sec.keys q.keySlot with
  | some k => !k.poisoned
  | none => false

/-- Keep a response until its queue pair's cipher can serve (R44). -/
def State.keepAnswer (s : State) (base : Pkt) (data : Bytes) : State :=
  { s with qpe := { s.qpe with answers := s.qpe.answers ++ [(base, data)] } }

/-- Send the packets of a data response from its header (R306, R312). One of a queue pair of forerunner form is encrypted under the
pair's next segment (R328), and waits behind those of the pair that wait for its cipher. -/
def State.sendBase (s : State) (base : Pkt) (data : Bytes) : State :=
  let cut := if base.typ = 0x03 then cutPkts (s.packetBytes base) 0 data.length false base (data.length + 1) 0 data
    else [{ base with payload := padded data, crypt := if base.encrypted then 0xC0 else 0 }]
  if !base.encrypted then cut.foldl (fun s x => s.inject x) s
  else if s.qpe.answers.any fun a => a.1.srcQpn == base.srcQpn then s.keepAnswer base data
  else
    let s := s.bindEngine base.srcQpn
    match s.qp base.srcQpn with
    | none => s
    | some q =>
      match s.qpKey q with
      | none => if s.keyed q then s.keepAnswer base data else s
      | some (key, salt) =>
        match s.sealNumber base.srcQpn 17 with
        | (none, s) => s.keepAnswer base data
        | (some n, s) => s.sendSealed key salt (segmentTop s.me base.srcQpn q.remoteModule q.remoteQpn + n % 2 ^ 63) [] cut

/-- Answer a request with a READ_RESP or ATOMIC_RESP (R312, R313). -/
def State.sendResp (s : State) (p : Pkt) (typ status reason : Nat) (data : Bytes) : State :=
  let enc := p.dstQpn != 0 && ((s.qp p.dstQpn).map (·.forerunner)).getD false
  s.sendBase { s.respPkt p typ with length := data.length, status, reason, encrypted := enc } data

/-- Answer a request that succeeded with its data (R312). -/
def State.sendData (s : State) (p : Pkt) (typ : Nat) (data : Bytes) : State := s.sendResp p typ 0 0 data

/-- Send the responses that wait for a cipher, as far as it serves now. -/
def State.sendWaiting (s : State) : State :=
  s.qpe.answers.foldl (fun (s : State) a => s.sendBase a.1 a.2) { s with qpe := { s.qpe with answers := [] } }

/-! ## Performing a request -/

/-- What performing a request came to: an outcome with data or an original value, nothing to answer here because it was
passed on, refused for now, a wait, or a transaction that passes it on for a connected responder. -/
inductive Perf where
  | done (status reason : Nat) (data : Bytes)
  | passed (dst : Nat)
  | busy
  | wait (stage : ArrStage) (buf : RBuf) (page : Option Nat)
  | relay (dst : Nat)

/-- The wire units of a message (R536). -/
def wireUnits (p : Pkt) : Nat := if p.typ = 0x04 then 1 else (p.length + 63) / 64

/-- Pass a request on to another module (R314, R535). While that module's epoch is not known, the packet waits and the module is probed
(R322). -/
def State.forwardPkt (s : State) (p : Pkt) (dst : Nat) : State :=
  let x := { p with forwarded := true, dst, dstEpoch := s.peerEpoch dst, ecn := 2, stream := if p.forwarded then p.stream else s.me }
  let s := s.count .PLC_FORWARD_COUNT
  if s.epochKnown dst then s.inject x
  else { s with qpe := { s.qpe with forwards := s.qpe.forwards ++ [x] } }.probe dst

/-- The skylight that a request bears: its home and its key. -/
def Pkt.sky (p : Pkt) : Option (Nat × Nat) := if p.form = 0 then none else some (p.stream, p.key % 2 ^ 32)

/-- Where the bytes of an accepted packet lie whose message's decision is not kept here: those of a duplicate, which are `absent` once the
skylight has been revoked, and with `stands` those of a forwarded message whose first packet was judged elsewhere, whose acceptance stands
whatever has become of the skylight since (R79). -/
def State.placeOf (s : State) (p : Pkt) (stands : Bool) : SkyLook ⊕ Place :=
  if p.form = 0 then .inr (.page (pageOf p.remote) (hallByte p.remote)) else
    match (s.skyFor p.stream (p.key % 2 ^ 20)).1 with
    | .found k =>
      if k.tag ≠ p.key % 2 ^ 32 / 2 ^ 20 ∨ (k.state = .revoked ∧ !stands) then .inl .absent
      else if k.hall then .inr (.page (pageOf (k.base + p.remote)) (hallByte (k.base + p.remote)))
      else .inr (.iva k.inst (k.base + p.remote) (p.key % 2 ^ 20))
    | .absent => .inl .absent
    | .fetch =>
      if SMap.find s.hall.gone (p.stream * 2 ^ 20 + p.key % 2 ^ 20) = some (p.key % 2 ^ 32 / 2 ^ 20) ∧ !stands then .inl .absent else .inl .fetch

/-- Send a request on from this module, which does not perform it: a connected responder passes it on as a transaction of its own
(R314). A source of the page's job domain gets a hint from the page's home (R534). -/
def State.passOn (s : State) (p : Pkt) (dst : Nat) : Perf × State :=
  let s := match s.placeOf p true with
    | .inr (.page key _) => if key / 2 ^ 23 = s.me then s.hintOnce (key % 2 ^ 23) p.src else s
    | _ => s
  if p.dstQpn = 0 then (.passed dst, s.forwardPkt p dst) else (.relay dst, s)

/-- Perform an access to a page that is held here (R265, R536, R543, R547). -/
def State.performPage (s : State) (p : Pkt) (key : Nat) (h : Held) (byte : Nat) : Perf × State :=
  let s := s.heat key p.src (wireUnits p) (writes p.typ)
  if p.typ = 0x02 then
    let r := s.pageRead key h byte p.length
    if r.2.1 then (.done stPoisoned rsPoison [], r.2.2) else (.done 0 0 r.1, r.2.2)
  else if p.typ = 0x01 then
    let s := (s.pageWrite key h byte (p.payload.take p.length)).afterWrite key byte p.length
    if s.mustNote key then (.wait .note RBuf.empty (some key), s) else (.done 0 0 [], s)
  else
    let b (i n : Nat) := beNat (slice p.payload i n)
    match s.pageAtomic key h byte (b 0 1) (b 1 1) (b 8 8) (b 16 8) with
    | (none, s) => (.done stPoisoned rsPoison [], s)
    | (some v, s) =>
      let s := s.afterWrite key byte (b 1 1)
      if s.mustNote key then (.wait .note (RBuf.of (leBytes 8 v)) (some key), s) else (.done 0 0 (leBytes 8 v), s)

/-- Perform an access through an INSTANCE skylight (R75, R97, R266, R738). The zero-length read behind a write goes to the address of
its last bytes outside the module, which the spec does not give, and a write that fails part-way is answered without one (log 72). -/
def State.performSky (s : State) (p : Pkt) (arr inst addr : Nat) : Perf × State :=
  if p.typ = 0x02 then
    let r := s.readIva inst inst addr p.length true (fun off => .skyRead arr off) RBuf.empty
    match r.2.1.fail with
    | some f =>
      let reason := if f.1 = stTranslationFault then rsTranslation else if f.1 = stPoisoned then rsPoison else f.2
      (.done f.1 reason [], r.2.2)
    | none =>
      if !r.1 then (.done stHostMemoryError 2 [], r.2.2)
      else if r.2.1.ready then (.done 0 0 r.2.1.bytes, r.2.2)
      else (.wait .reading r.2.1 none, r.2.2)
  else if p.typ = 0x01 then
    let last := (s.hostPlaces inst addr p.length).getLast?
    match s.ivaWrite inst addr (p.payload.take p.length) true with
    | (some (.fault _), s) => (.done stTranslationFault rsTranslation [], s)
    | (some _, s) => (.done stHostMemoryError 2 [], s)
    | (none, s) =>
      match last with
      | none => (.done 0 0 [], s)
      | some (t, peer, _) =>
        match s.hostRead inst t 0 peer (.skyConfirm arr) (some inst) with
        | some s => (.wait .confirm RBuf.empty none, s)
        | none => (.done stHostMemoryError 2 [], s)
  else
    let b (i n : Nat) := beNat (slice p.payload i n)
    let width := b 1 1
    match s.lookupNow inst addr .atomic with
    | (.ok .hbm t, s) =>
      match (s.logDirty inst addr width).physAtomic (s.phys t) (b 0 1) width (b 8 8) (b 16 8) with
      | (none, s) => (.done stPoisoned rsPoison [], s)
      | (some v, s) => (.done 0 0 (leBytes 8 v), s)
    | (.ok kind t, s) =>
      if !s.canIssue inst || (kind == .peer && !s.peerOk (portOf inst) t width) then (.done stHostMemoryError 2 [], s) else
        let s := s.logDirty inst addr width
        match s.request inst width (.skyAtomic arr) (some inst) fun tag =>
            .hostAtomic (portOf inst) inst tag t (b 0 1) width (b 8 8) (b 16 8) (kind = .peer) with
        | some s => (.wait .atomic RBuf.empty none, s)
        | none => (.done stHostMemoryError 2 [], s)
    | (_, s) => (.done stTranslationFault rsTranslation [], s)

/-- Perform an accepted access where its bytes lie: a page that has gone elsewhere is passed on to, and one that is frozen is waited for
(R93, R544). -/
def State.performPlace (s : State) (p : Pkt) (arr : Nat) (x : Place) : Perf × State :=
  match x with
  | .iva inst addr _ => s.performSky p arr inst addr
  | .page key byte =>
    match s.servePage key p.src (writes p.typ) with
    | .inr h => if h.frozen then (.wait .frozen RBuf.empty (some key), s) else s.performPage p key h byte
    | .inl (.forward dst) => s.passOn p dst
    | .inl (.refuse st rs) => (.done st rs [], s)
    | .inl _ => (.done stRemoteAccess rsPageUnallocated [], s)

/-- Check a packet for its message (R73); none while the copy of a skylight entry is awaited (R72). -/
def State.checkReq (s : State) (p : Pkt) : Option Decision × State :=
  match s.checkPkt p with
  | (.accept x, s) => (some (.accept x p.remote p.sky), s)
  | (.refuse st rs, s) => (some (.refuse st rs), s)
  | (.forward dst, s) => (some (.pass dst), s)
  | (.fetch, s) => (none, s)

/-- What checks 3 to 5 of R73 refuse a packet with whose skylight is being revoked, or has been, or whose page is being freed. -/
def State.barred (s : State) (p : Pkt) : Option (Nat × Nat) :=
  if p.form = 0 then
    (s.heldPage (pageOf p.remote)).bind fun h =>
      if h.partition ≠ p.partition then some (stRemoteAccess, rsPartition)
      else if writes p.typ && h.readOnly then some (stRemoteAccess, rsRights)
      else none
  else match (s.skyFor p.stream (p.key % 2 ^ 20)).1 with
    | .found k => k.bars p.partition p.typ p.remote p.span
    | _ => none

/-- Judge the message of a packet of which nothing has been decided here (R73). Of a forwarded message whose first packet has not come, a later
one is checked too, but a revocation or freeing since does not refuse it: the module that passed it on counts the message until it is resolved,
so that neither has ended (R77 step 4, R79, R306; log 72). -/
def State.judgeReq (s : State) (p : Pkt) : Option Decision × State :=
  match s.checkReq p with
  | (some (.refuse st rs), t) =>
    if !p.forwarded || p.first || st ≠ stRevoked then (some (.refuse st rs), t)
    else match s.barred p, s.placeOf p true with
      | some r, _ => (some (.refuse r.1 r.2), s)
      | none, .inr x => (some (.accept x p.remote p.sky), s)
      | none, .inl .fetch => (none, s)
      | none, .inl _ => (some (.refuse st rs), t)
  | r => r

/-- Do with a packet what was decided on its message (R79, R306). -/
def State.follow (s : State) (p : Pkt) (arr : Nat) (d : Decision) : Perf × State :=
  match d with
  | .refuse st rs => (.done st rs [], s)
  | .pass dst => s.passOn p dst
  | .accept x remote _ => s.performPlace p arr (x.shift ((p.remote + 2 ^ 64 - remote) % 2 ^ 64))

/-- The operation of this module whose record tells of a message's end: that of the message, of the launch, of the collective, or of the program
(work queue, operation). -/
def State.recordOp (s : State) (o : TxnOwner) : Option (Nat × Nat) :=
  match o with
  | .coll g _ _ _ => ((SMap.find s.col.groups g).bind (·.coll)).map fun c => (c.wq, c.op)
  | .transit die en _ _ => (SMap.find s.trn.entries (256 * die + en)).bind fun e => match e.by_ with
    | .op n id => some (n, id)
    | .remote _ _ => none
  | _ => (s.ownerOp o).map fun x => (x.1, x.2.2.id)

/-- The ECC events that a request of this module to itself has just raised wait for the record of the operation which they fail (R24). -/
def State.holdSelf (s : State) (p : Pkt) (status : Nat) : State :=
  if p.src ≠ s.me ∨ (status ≠ stPoisoned ∧ status ≠ stTranslationFault) then s else
    match (SMap.find s.qpe.txns p.txn).bind fun t => s.recordOp t.owner with
    | some x => s.holdEcc x.1 x.2
    | none => s

/-- Check and perform an arriving READ_REQ, WRITE_REQ or ATOMIC_REQ (R73, R314), whose message may have been `decided` on. `arr` is
the number under which it may wait. -/
def State.performAccess (s : State) (p : Pkt) (arr : Nat) (decided : Option Decision) : Perf × Option Decision × State :=
  let r := match decided with
    | some d => (some d, s)
    | none => s.judgeReq p
  match r.1 with
  | none => (.wait .sky RBuf.empty none, none, r.2)
  | some d => let x := r.2.follow p arr d
              (x.1, some d, match x.1 with | .done st _ _ => x.2.holdSelf p st | _ => x.2)

/-- Accept or refuse the tokens of a TOKEN_REQ (R262, R569). -/
def State.performToken (s : State) (p : Pkt) : Perf × State :=
  let b (i n : Nat) := beNat (slice p.payload i n)
  match s.produce (b 0 2 % 4096) (b 2 2) (b 4 4) p.partition with
  | (none, s) => (.done 0 0 [], s)
  | (some r, s) => (.done stRemoteAccess r [], s)

/-! ## Answers to performed requests -/

/-- Record an outcome, advance the stream past a PSN, and answer (R312, R315). -/
def State.answerReq (s : State) (i : StreamId) (p : Pkt) (d : Option Decision) (status reason : Nat) (data : Bytes) : State :=
  let r := s.rstream i
  let atomic := p.typ == 0x04
  let rec_ : List Outcome := if status ≠ 0 ∨ atomic ∨ p.typ = 0x29 then [⟨p.psn, status, reason, p.txn, leNat data, atomic⟩] else []
  let r := { r with
    expect := (p.psn + 1) % 2 ^ 24, records := r.records ++ rec_, unanswered := r.unanswered + 1, lastTxn := p.txn
    lastPkt := some p, lastMarked := r.lastMarked || p.ecn == 3, busy := r.busy.filter (· != p.psn), aheadAcked := false
    accepting := if p.last then none else r.accepting
    owing := r.owing ++ if status = 0 ∧ (p.typ = 0x02 ∨ atomic) then [] else (d.bind Decision.under).toList.map fun u => (p.psn, u) }
  let s := s.setStream i r
  let coalesce := max 1 (s.regF .QPE_XPT_ACK 23 16)
  let s := if status = 0 ∧ p.typ = 0x02 then s.sendData p 0x03 data
    else if status = 0 ∧ atomic then s.sendData p 0x05 (slice (beBytes 8 (leNat data)) 0 64)
    else s
  if p.ackReq || status != 0 || decide (coalesce ≤ r.unanswered) then s.sendAck i else s

/-- What a revocation or freeing must wait for with a request that is passed on: what its message was accepted under, or the skylight and the
page that it names where nothing has judged it here (R77 step 4; log 72). -/
def Pkt.boundBy (p : Pkt) (d : Option Decision) : Option Under :=
  match d with
  | some (.pass _) => some ⟨p.sky, if p.form = 0 then some (pageOf p.remote) else none⟩
  | d => d.bind Decision.under

/-- A request is consumed without an answer of this module's: it was passed on to `dst` (R314). What its message was accepted under stays
noted until it is known to be resolved (R77 step 4). -/
def State.consumeReq (s : State) (i : StreamId) (p : Pkt) (dst : Nat) (d : Option Decision) : State :=
  let r := s.rstream i
  s.setStream i { r with
    expect := (p.psn + 1) % 2 ^ 24, lastTxn := p.txn, lastPkt := some p, busy := r.busy.filter (· != p.psn), aheadAcked := false
    accepting := if p.last then none else r.accepting
    passed := r.passed ++ [⟨p.psn, dst, r.lastTxn, p.boundBy d⟩] }

/-- The outcome records that are kept or reserved (R312). -/
def State.recordsUsed (s : State) : Nat :=
  sumList (s.qpe.recv.map fun e => e.2.records.length) + sumList (s.qpe.qps.map fun e => e.2.rx.records.length) +
    sumList (s.qpe.fwd.map fun e => e.2.records.length) + (s.qpe.arrivals.filter fun a => !a.2.again).length

/-- Whether an outcome record can be reserved for a stream's request (R312). -/
def State.canRecord (s : State) (i : StreamId) : Bool :=
  decide ((s.rstream i).records.length + (s.rstream i).busy.length < 7) && decide (s.recordsUsed < 65536)

/-- Keep an accepted request that waits (R313). -/
def State.keepArrival (s : State) (arr : Nat) (i : StreamId) (p : Pkt) (stage : ArrStage) (buf : RBuf) (d : Option Decision)
    (page : Option Nat) (again : Bool) : State :=
  let qpn := match i with | .qp n => some n | .module _ => none
  let s := { s with qpe := { s.qpe with arrivals := SMap.put s.qpe.arrivals arr ⟨p, qpn, d, page, buf, stage, again⟩ } }
  if p.forwarded || again then s else
    let r := s.rstream i
    s.setStream i { r with busy := r.busy.filter (· != p.psn) ++ [p.psn] }

/-- Pass a connected responder's request on as a transaction of its own (R314). It names the home of a skylight in STREAM_MODULE, as a
forwarded request does (log 72). -/
def State.relay (s : State) (arr : Nat) (p : Pkt) (dst : Nat) : State :=
  s.ask (.relay arr) { p with
    length := if p.typ = 0x04 then 64 else p.length
    src := s.me, dst, stream := if p.form = 0 then dst else p.stream, srcQpn := 0, dstQpn := 0, ackReq := true, encrypted := false
    crypt := 0, forwarded := false, ecn := 2 }

/-- Start what a waiting request needs besides data: the note at its source, the token (R261, R547). A source that is itself the writing
holder gets no note, and enters the collapse in its watch table at once (R94, R547, R548). -/
def State.startWait (s : State) (arr : Nat) (p : Pkt) (stage : ArrStage) (page : Option Nat) : State :=
  match stage, page with
  | .note, some key =>
    match s.heldPage key with
    | none => s
    | some h =>
      let s := s.setHeld key { h with collapsing := true }
      if p.src ≠ s.me then s.sendNote (.note arr) p.src key 0 p.src p.srcQpn else
        let w : Watch := ⟨key / 2 ^ 23, key % 2 ^ 23, h.seq, p.srcQpn, ((s.qp p.srcQpn).map (·.inst)).getD 0⟩
        { s with plc := { s.plc with watch := s.plc.watch ++ [w] } }.sendNote (.note arr) h.home key 1 p.src p.srcQpn
  | .token, _ =>
    match p.note with
    | some (m, w, t) => s.control (.token arr) 0x06 m p.tc p.partition (tokenPayload w t (s.epochNow p.partition))
    | none => s
  | _, _ => s

/-- A new number for a waiting request. -/
def State.newArrival (s : State) : Nat × State :=
  (s.qpe.nextArrival, { s with qpe := { s.qpe with nextArrival := s.qpe.nextArrival + 1 } })

/-- Deliver the token of a single-message WRITE_NOTIFY after its data: at once on this module, else by a transaction (R261,
R263, R569). None when the wick module has yet to answer. -/
def State.noteToken (s : State) (p : Pkt) : Option (Nat × Nat) × State :=
  match p.note with
  | none => (some (0, 0), s)
  | some (m, w, t) =>
    if m ≠ s.me then (none, s) else
      match s.produce w t (s.epochNow p.partition) p.partition with
      | (none, s) => (some (0, 0), s)
      | (some r, s) => (some (stRemoteAccess, r), s)

/-- Perform a request: what it came to, and what was decided on its message. A control request that is accepted is acted on at the end
of the command. -/
def State.perform (s : State) (p : Pkt) (arr : Nat) (decided : Option Decision) : Perf × Option Decision × State :=
  if p.typ = 0x06 then
    let x := s.performToken p
    (x.1, none, x.2)
  else if 0x10 ≤ p.typ then
    match decided with
    | some (.refuse st rs) => (.done st rs [], none, s)
    | _ => match s.verdict p with
      | .accept d => if p.last then (.done 0 0 d, none, { s with qpe := { s.qpe with inbox := s.qpe.inbox ++ [p] } }) else (.done 0 0 [], none, s)
      | .refuse st rs d s => (.done st rs d, some (.refuse st rs), s)
      | .busy => (.busy, none, s)
  else
    match s.performAccess p arr decided with
    | (.done 0 0 d, dec, s) =>
      if p.last then
        match s.noteToken p with
        | (some (st, rs), s) => (.done st rs d, dec, s)
        | (none, s) => (.wait .token (RBuf.of d) ((dec.bind Decision.under).bind (·.page)), dec, s)
      else (.done 0 0 d, dec, s)
    | r => r

/-! ## Receiving (R308, R310, R313, R314) -/

/-- Move a stream to a CONF_PSN ahead of its expected PSN, dropping what lies below (R308). -/
def RStream.advanceConf (r : RStream) (conf : Nat) : RStream :=
  let d := psnDist conf r.expect
  if d = 0 ∨ 2 ^ 23 ≤ d then r else
    let ge (x : Nat) := decide (psnDist x conf < 2 ^ 23)
    { r with expect := conf, held := r.held.filter (fun p => ge p.psn), records := r.records.filter (fun o => ge o.psn),
             passed := r.passed.filter (fun x => ge x.psn), owing := r.owing.filter (fun x => ge x.1), busy := r.busy.filter ge, accepting := none, segment := [], replay := none, shut := none }

/-- Drop what is kept of the PSNs below a CONF_PSN, which the source has resolved (R312). -/
def RStream.dropBelow (r : RStream) (conf : Nat) : RStream :=
  let ge (x : Nat) := decide (psnDist x conf < 2 ^ 23)
  { r with
    records := r.records.filter fun o => ge o.psn
    passed := r.passed.filter fun x => ge x.psn
    owing := r.owing.filter fun x => ge x.1 }

/-- The key of what is kept of the forwarded requests of a source, stream module and class (R314). -/
def fwdKey (p : Pkt) : Nat := (p.src + p.stream * 2 ^ 17) * 8 + p.tc

/-- Answer a forwarded request directly to its source, for its own PSN only (R314). -/
def State.answerForwarded (s : State) (p : Pkt) (status reason : Nat) (data : Bytes) : State :=
  if status = 0 ∧ p.typ = 0x02 then s.sendData p 0x03 data
  else if status = 0 ∧ p.typ = 0x04 then s.sendData p 0x05 (slice (beBytes 8 (leNat data)) 0 64)
  else s.ackWith p default p.psn status reason p.txn false

/-- The ACK of a duplicate with its outcome (R80, R313). Behind a PSN that was passed on and is not known to be resolved it acknowledges its
own PSN only, as a forwarded response does (log 72). -/
def State.ackDup (s : State) (i : StreamId) (p : Pkt) (status reason txn : Nat) : State :=
  let r := s.rstream i
  let s := s.setStream i { r with owing := r.owing.filter (·.1 != p.psn) }
  let own := r.passed.any fun x => decide (psnDist p.psn x.psn < 2 ^ 23)
  s.ackWith (if own then { p with forwarded := true, stream := s.me } else p) r p.psn status reason txn false

/-- Answer a duplicate READ that has been read again (R313, R314). A read that cannot be made is answered with its failure (log 64). -/
def State.answerAgain (s : State) (p : Pkt) (status reason : Nat) (data : Bytes) : State :=
  if p.forwarded then s.answerForwarded p status reason data
  else if status = 0 then (s.sendData p 0x03 data).sendAck (streamOf p)
  else s.ackDup (streamOf p) p status reason p.txn

/-- Read again for a duplicate READ, without a check (R80, R313). Nothing is read under a key that has been revoked (R81; log 64), and a
page that has left is read by its holder. -/
def State.readAgain (s : State) (p : Pkt) : State :=
  let a := s.newArrival
  match s.placeOf p false with
  | .inl .fetch => a.2.keepArrival a.1 (streamOf p) p .sky RBuf.empty none none true
  | .inl _ => s.answerAgain p stRevoked rsKeyRevoked []
  | .inr x =>
    match a.2.performPlace p a.1 x with
    | (.done st rs d, s) => s.answerAgain p st rs d
    | (.wait st b pg, s) => s.keepArrival a.1 (streamOf p) p st b (some (.accept x p.remote p.sky)) pg true
    | (.relay dst, s) => (s.keepArrival a.1 (streamOf p) p .relay RBuf.empty none none true).relay a.1 p dst
    | (_, s) => s

/-- Answer a duplicate (R313). One that was passed on is passed on again, since the module that performs it keeps its outcome (R314). -/
def State.duplicate (s : State) (i : StreamId) (p : Pkt) : State :=
  let r := s.rstream i
  match r.passed.find? fun x => x.psn == p.psn with
  | some x => s.forwardPkt p x.dst
  | none =>
    match r.records.find? fun o => o.psn == p.psn with
    | some o =>
      if o.atomic && p.typ == 0x04 then (s.sendResp p 0x05 o.status o.reason (slice (beBytes 8 o.value) 0 64)).sendAck i
      else s.ackDup i p o.status o.reason o.txn
    | none => if p.typ ≠ 0x02 then s.ackDup i p 0 0 p.txn else s.readAgain p

/-- Note what was decided on a message for its later packets (R79, R306). -/
def State.setAccepting (s : State) (i : StreamId) (d : Option Decision) : State :=
  match d with
  | some d => s.setStream i { s.rstream i with accepting := some d }
  | none => s

/-- A packet of a message that a connected responder passes on as one transaction waits for the message's last packet (R314). -/
def State.gather (s : State) (i : StreamId) (p : Pkt) : State :=
  let r := s.rstream i
  s.setStream i { r with
    expect := (p.psn + 1) % 2 ^ 24, lastTxn := p.txn, lastPkt := some p, busy := r.busy.filter (· != p.psn), aheadAcked := false
    parts := r.parts ++ p.payload.take p.length }

/-- The message that a connected responder passes on with its last packet `p`: the packets that have waited for it, and this one (R314). -/
def State.gathered (s : State) (i : StreamId) (p : Pkt) : Pkt :=
  let parts := (s.rstream i).parts
  { p with
    first := true, length := parts.length + p.length, payload := padded (parts ++ p.payload.take (alignUp p.length 64))
    remote := (p.remote + 2 ^ 64 - parts.length) % 2 ^ 64 }

/-- What follows the performing of a request that is in order (R310, R312): its answer, its wait, or its way to another module. -/
def State.performed (s : State) (i : StreamId) (p : Pkt) (arr : Nat) (r : Perf) (d : Option Decision) : State :=
  let s := s.setAccepting i d
  match r with
  | .done st rs x => s.answerReq i p d st rs x
  | .passed dst => s.consumeReq i p dst d
  | .busy => s.gutter gResponderBusy
  | .wait st b pg => (s.keepArrival arr i p st b d pg false).startWait arr p st pg
  | .relay dst =>
    if p.last then
      let w := s.gathered i p
      ((s.setStream i { s.rstream i with parts := [] }).keepArrival arr i p .relay RBuf.empty d none false).relay arr w dst
    else s.gather i p

/-- A request that is acted on whole, with the payload of its message so far (R306). -/
def RStream.whole (r : RStream) (p : Pkt) : Pkt :=
  if p.typ < 0x10 ∨ p.first then p
  else { p with length := r.parts.length + p.length, payload := padded (r.parts ++ slice p.payload 0 p.length) }

/-- Keep the payload of a message that is acted on whole until its last packet has come (R306). Any other begins with none kept. -/
def State.keepPart (s : State) (i : StreamId) (p : Pkt) : State :=
  if p.typ < 0x10 then (if p.first then s.setStream i { s.rstream i with parts := [] } else s)
  else s.setStream i { s.rstream i with parts := if p.last then [] else slice p.payload 0 p.length }

/-- Perform a request that is in order, and answer it or keep it (R310, R312). -/
def State.performInOrder (s : State) (i : StreamId) (p : Pkt) : State :=
  if !s.canRecord i then s.gutter gResponderBusy else
    let a := s.newArrival
    let w := (a.2.rstream i).whole p
    let x := a.2.perform w a.1 (if p.first then none else (a.2.rstream i).accepting)
    (x.2.2.keepPart i w).performed i p a.1 x.1 x.2.1

/-! ## Encrypted segments at the receiver (R331 to R333) -/

/-- The segment number that a segment's first packet carries. -/
def segmentNumber (p : Pkt) : Nat := beNat (slice p.payload 0 8)

/-- The plaintext packets of a whole segment, when its tag verifies (R328, R331). -/
def openSegment (key salt : Bytes) (ps : List Pkt) : Option (List Pkt) :=
  match ps.head?, ps.getLast? with
  | some f, some l =>
    let body (q : Pkt) := slice q.payload (if bit q.crypt 7 then 8 else 0) q.dataLen
    let plainOf (q : Pkt) (d : Bytes) := if q.typ = 0x04 ∨ q.typ = 0x06 then slice q.payload 8 64 else padded (d.take q.dataLen)
    let tag := l.payload.drop (l.payload.length - 16)
    let aad := ps.flatMap Pkt.aad ++ beBytes 8 (segmentNumber f)
    (gcmOpen key salt (segmentNumber f) aad (ps.flatMap body) tag).map fun plain =>
      (ps.foldl (fun (acc : Bytes × List Pkt) q =>
        (acc.1.drop q.dataLen, acc.2 ++ [{ q with payload := plainOf q acc.1, encrypted := false, crypt := 0 }]))
        (plain, [])).2
  | _, _ => none

/-- Note a segment that fails its tag (R663, R684). -/
def State.tagFailed (s : State) : State := (s.count .SEC_TAG_FAILURE_COUNT).setFlag .SEC_ERR 0

/-- Leave a packet for later, at the end of the ejection queue, whose high-water mark follows (R394; log 74). -/
def State.laterPkt (s : State) (p : Pkt) : State :=
  let s := s.sampled (64 + p.tc)
  let o : OutPkt := ⟨p, 0, s.rtr.lastInput, bits p.route 2 2 * 2 + bits p.route 0 0, alignUp p.payload.length 64 + 76, s.now, true⟩
  let s := { s with rtr := { s.rtr with eject := s.rtr.eject ++ [o] } }
  s.watermark (64 + p.tc) (s.ejectBytes p.tc)

/-- The stream without what is held of the segment whose first packet has `psn`: packets of a segment sent afresh never mix with those of
an earlier attempt (R332). -/
def RStream.dropSegment (r : RStream) (psn : Nat) : RStream :=
  let d (x : Pkt) := psnDist x.psn psn
  let next := r.held.foldl (fun b x => if bit x.crypt 7 ∧ d x ≠ 0 then min b (d x) else b) 65
  { r with segment := if psn = r.expect then [] else r.segment, held := r.held.filter fun x => !(x.encrypted && decide (d x < next)) }

/-- The crypt segments that are held in part for an unopened stream (R659, R663). -/
def RStream.segments (r : RStream) : Nat := b2n (r.segment != []) + (r.held.filter fun x => x.encrypted && bit x.crypt 7).length

/-- Whether an engine's receive buffer of 256 KiB, which holds sixteen segments, has no room for one more (R659, R663): those of the requests and of
the responses of the queue pairs that are bound to it. -/
def State.bufferFull (s : State) (e : Nat) : Bool :=
  let mine (n : Nat) : Bool := ((s.qp n).bind (·.engine)) == some e
  decide (16 ≤ sumList (s.qpe.qps.map fun q => if mine q.1 then q.2.rx.segments else 0) +
    (s.qpe.txns.filter fun t => (t.2.qpn.map mine).getD false && t.2.got.any fun x => x.2.encrypted).length)

/-- Whether the engine of a stream has no room for a segment that begins, when `r` is what the stream holds without it. -/
def State.engineFull (s : State) (i : StreamId) (r : RStream) : Bool :=
  match i with
  | .qp n => match (s.qp n).bind (·.engine) with
    | some e => (s.setStream i r).bufferFull e
    | none => false
  | .module _ => false

/-- Whether a packet of an encrypted stream goes on: a segment whose number is not above RECV_SEGMENT goes to the gutter whole, up to its last
packet or the first of another, and so does one that the engine's buffer has no room for (R663); a first packet takes the place of a partial
segment (R332, R333). -/
def State.segmentTurn (s : State) (i : StreamId) (p : Pkt) : Bool × State :=
  let r := s.rstream i
  let recv := match i with
    | .qp n => ((s.qp n).map (·.recvSegment)).getD 0
    | .module _ => 0
  let replayed := (s.setStream i { r with replay := if bit p.crypt 6 then none else some ((p.psn + 1) % 2 ^ 24) }).gutter gReplay
  let noRoom := (s.setStream i { r with shut := if bit p.crypt 6 then none else some ((p.psn + 1) % 2 ^ 24) }).gutter gResponderBusy
  if !p.encrypted then (true, s)
  else if !bit p.crypt 7 then
    if r.replay.any fun x => decide (psnDist p.psn x ≤ 64) then (false, replayed)
    else if r.shut.any fun x => decide (psnDist p.psn x ≤ 64) then (false, noRoom)
    else (true, s)
  else if segmentNumber p ≤ recv then (false, replayed)
  else if s.engineFull i (r.dropSegment p.psn) then (false, noRoom)
  else
    let t := { r.dropSegment p.psn with replay := none, shut := none }
    let s := s.setStream i t
    (true, if t.segment.length + t.held.length < r.segment.length + r.held.length then s.gutter gReplay else s)

/-- An in-order packet of a forerunner-form stream joins its segment; of a whole segment that verifies, the packets are held as plaintext, to be
performed in order (R331 to R333). One that the cipher cannot serve yet waits (R44). `n` is the responder queue pair. -/
def State.segmentPkt (s : State) (n : Nat) (q : Qp) (p : Pkt) : State :=
  let i := StreamId.qp n
  let r := q.rx
  let seg := r.segment ++ [p]
  if r.segment = [] ∧ !bit p.crypt 7 then s.gutter gResponderBusy
  else if !bit p.crypt 6 then s.setStream i { r with segment := seg }
  else if (seg.head?.map segmentNumber).getD 0 ≤ q.recvSegment then (s.setStream i { r with segment := [] }).gutter gReplay
  else
    match s.qpKey q with
    | none => if s.keyed q then s.laterPkt p else s.setStream i { r with segment := [] }
    | some (key, salt) =>
      match s.throughEngine n with
      | (false, s) => s.setStream i { r with segment := [] }
      | (true, s) =>
      match openSegment key salt seg with
      | some ps =>
        let num := (seg.head?.map segmentNumber).getD 0
        let s := s.setStream i { r with segment := [] }
        let s := match s.qp n with
          | some _ => s.updCtx n fun q => { q with recvSegment := num }
          | none => s
        let s := s.countN .SEC_DECRYPT_BYTE_COUNT (sumList (ps.map Pkt.dataLen))
        let r := s.rstream i
        s.setStream i { r with held := ps ++ r.held }
      | none =>
        let s := (s.setStream i { r with segment := [], expect := (p.psn + 1) % 2 ^ 24 }).tagFailed
        (s.ackWith p { r with held := [] } p.psn stTagFailure 0 p.txn false).qpError n stTagFailure stAborted

/-- Whether a responder performs a packet: it is READY and connected, and the packet is its peer's and of its partition (R252). -/
def Qp.answers (q : Qp) (p : Pkt) : Bool :=
  q.state == 1 && q.connected && p.src == q.remoteModule && p.srcQpn == q.remoteQpn && p.partition == q.partition

/-- Take an in-order packet of a stream, which a connected responder performs only if it still answers its source (R252). -/
def State.takeInOrder (s : State) (i : StreamId) (p : Pkt) : State :=
  match i with
  | .qp n => match s.qp n with
    | some q =>
      if !q.answers p then s.gutter gResponderMismatch
      else if p.encrypted then s.segmentPkt n q p else s.performInOrder i p
    | none => s
  | .module _ => s.performInOrder i p

/-- Whether a held packet is plaintext of a segment that has verified (R333). -/
def State.verified (s : State) (i : StreamId) (p : Pkt) : Bool :=
  match i with
  | .qp n => !p.encrypted && ((s.qp n).map (·.forerunner)).getD false
  | .module _ => false

/-- Take the held packets of a stream that are now in order (R310); `fuel` bounds them. Plaintext for which no outcome record can be reserved
counts as let go, but stays, since a segment that has verified is not decrypted again when it is sent again (R312, R333; log 101). -/
def State.takeHeld (i : StreamId) : Nat → State → State
  | 0, s => s
  | fuel + 1, s =>
    let r := s.rstream i
    let next := (r.expect + r.segment.length) % 2 ^ 24
    match r.held.find? fun p => p.psn == next with
    | some p =>
      if r.busy ≠ [] then s
      else if s.verified i p && !s.canRecord i then s.gutter gResponderBusy
      else
        let s := s.setStream i { r with held := r.held.erase p }
        State.takeHeld i fuel (s.takeInOrder i p)
    | none => s

/-- Whether the 8 MiB reorder buffer has no room for a packet (R308). -/
def State.reorderFull (s : State) (p : Pkt) : Bool :=
  let size (ps : List Pkt) := sumList (ps.map fun x => x.payload.length + 58)
  let all := sumList (s.qpe.recv.map fun e => size e.2.held) + sumList (s.qpe.qps.map fun e => size e.2.rx.held)
  decide (8 * 2 ^ 20 < all + p.payload.length + 58)

/-- Note the CONF_PSN last received from a connected peer (R309). -/
def State.noteConf (s : State) (i : StreamId) (conf : Nat) : State :=
  match i with
  | .qp n => s.updCtx n fun q => { q with conf }
  | .module _ => s

/-- Take a request that is in order, hold one that is ahead, or let it go (R308, R310); a second copy of one that is held is let go
(log 93). -/
def State.takeOrHold (s : State) (i : StreamId) (p : Pkt) : State :=
  let r := s.rstream i
  let d := psnDist p.psn r.expect
  let inSeg := r.segment.length
  if d < inSeg then s.gutter gResponderBusy
  else if d > inSeg ∨ r.busy ≠ [] then
    if 64 < d ∨ s.reorderFull p ∨ r.held.any (fun x => x.psn == p.psn) then s.gutter gResponderBusy
    else
      let s := s.setStream i { r with held := r.held ++ [p], aheadAcked := true, lastPkt := r.lastPkt.orElse fun _ => some p }
      if r.aheadAcked && !p.ackReq then s else s.sendAck i
  else State.takeHeld i (2 * (r.held.length + inSeg) + 2) (s.takeInOrder i p)

/-- Classify a request by its PSN and take it (R308, R310, R313). Its CONF_PSN releases what is kept of the PSNs below, also where it is a
duplicate (R312). One whose plaintext is held has verified before, and that is taken (R333). -/
def State.classify (s : State) (i : StreamId) (p : Pkt) : State :=
  let r := ((s.rstream i).advanceConf p.confPsn).dropBelow p.confPsn
  let s := (s.setStream i r).noteConf i p.confPsn
  if 2 ^ 23 ≤ psnDist p.psn r.expect then s.duplicate i p
  else if r.busy.contains p.psn then s.gutter gResponderBusy
  else if p.encrypted && r.held.any fun x => x.psn == p.psn && s.verified i x then
    if p.psn = r.expect then State.takeHeld i (2 * r.held.length + 2) s else s.gutter gResponderBusy
  else
    match s.segmentTurn i p with
    | (false, s) => s
    | (true, s) => s.takeOrHold i p

/-- What is kept of a stream's forwarded requests. -/
def State.fstream (s : State) (k : Nat) : FStream := SMap.getD s.qpe.fwd k default

/-- Replace what is kept of a stream's forwarded requests. -/
def State.setFstream (s : State) (k : Nat) (f : FStream) : State :=
  { s with qpe := { s.qpe with fwd := SMap.putD default s.qpe.fwd k f } }

/-- What is kept at or above a CONF_PSN (R314). -/
def FStream.dropBelow (f : FStream) (conf : Nat) : FStream :=
  { f with
    records := f.records.filter fun o => decide (psnDist o.psn conf < 2 ^ 23)
    passed := f.passed.filter fun x => decide (psnDist x.psn conf < 2 ^ 23)
    decided := SMap.keep f.decided fun _ x => decide (psnDist x.1 conf < 2 ^ 23) }

/-- Record and answer a performed forwarded request (R314). -/
def State.forwardedDone (s : State) (p : Pkt) (status reason : Nat) (data : Bytes) : State :=
  let k := fwdKey p
  let f := s.fstream k
  let o : Outcome := ⟨p.psn, status, reason, p.txn, leNat (data.take 8), p.typ == 0x04⟩
  (s.setFstream k { f with records := f.records ++ [o] }).answerForwarded p status reason data

/-- What has been decided here on the message of a forwarded packet that is not its first (R79, R306). -/
def State.forwardDecision (s : State) (p : Pkt) : Option Decision :=
  if p.first then none else (SMap.find (s.fstream (fwdKey p)).decided p.txn).map (·.2.2)

/-- Note what was decided on a forwarded message of several packets, until its source has resolved it. -/
def State.setDecided (s : State) (p : Pkt) (d : Option Decision) : State :=
  match d with
  | some d =>
    if p.first && p.last then s else
      let f := s.fstream (fwdKey p)
      s.setFstream (fwdKey p) { f with decided := SMap.put f.decided p.txn (p.psn, p.last, d) }
  | none => s

/-- What follows the performing of a forwarded request (R314). -/
def State.performedForward (s : State) (p : Pkt) (arr : Nat) (r : Perf) (d : Option Decision) : State :=
  let s := s.setDecided p d
  match r with
  | .done st rs x => s.forwardedDone p st rs x
  | .passed dst =>
    let f := s.fstream (fwdKey p)
    s.setFstream (fwdKey p) { f with passed := f.passed ++ [⟨p.psn, dst, 0, p.boundBy d⟩] }
  | .busy => s
  | .wait st b pg => (s.keepArrival arr (.module 0) p st b d pg false).startWait arr p st pg
  | .relay dst => (s.keepArrival arr (.module 0) p .relay RBuf.empty d none false).relay arr p dst

/-- Whether an outcome record can be reserved for a forwarded request (R312, R314). -/
def State.canRecordForward (s : State) (k : Nat) : Bool :=
  let waiting := (s.qpe.arrivals.filter fun a => a.2.pkt.forwarded && fwdKey a.2.pkt == k && !a.2.again).length
  decide ((s.fstream k).records.length + waiting < 7) && decide (s.recordsUsed < 65536)

/-- A forwarded request (R314): answered from its record, passed on again, or performed and recorded. -/
def State.forwarded (s : State) (p : Pkt) : State :=
  let k := fwdKey p
  let f := (s.fstream k).dropBelow p.confPsn
  let s := s.setFstream k f
  let busy := s.qpe.arrivals.any fun a => a.2.pkt.forwarded && a.2.pkt.psn == p.psn && fwdKey a.2.pkt == k
  if busy then s.gutter gResponderBusy else
    match f.passed.find? fun x => x.psn == p.psn with
    | some x => s.forwardPkt p x.dst
    | none =>
      match f.records.find? fun o => o.psn == p.psn with
      | some o => if p.typ = 0x02 ∧ o.status = 0 then s.readAgain p else s.answerForwarded p o.status o.reason (leBytes 8 o.value)
      | none =>
        if !s.canRecordForward k then s.gutter gResponderBusy else
          let a := s.newArrival
          let x := a.2.perform p a.1 (s.forwardDecision p)
          x.2.2.performedForward p a.1 x.1 x.2.1

/-- Remove a packet from the ejection queue, if it is there. One that has been put back was counted when it first left (log 74). -/
def State.ejected (s : State) (p : Pkt) : State :=
  match s.rtr.eject.find? fun o => o.pkt == p with
  | some o =>
    let s := s.sampled (64 + p.tc)
    let s := if o.back then s else s.sampleLeft (64 + p.tc) o.since
    let s := { s with rtr := { s.rtr with eject := s.rtr.eject.erase o, lastInput := o.input } }
    if o.back then s else (s.countPort 9 .RTR_PORT_PKT_COUNT 1).countPort 9 .RTR_PORT_BYTE_COUNT o.bytes
  | none => { s with rtr := { s.rtr with lastInput := 64 } }

/-- A waiting request has come to its outcome (R313). -/
def State.arrivalDone (s : State) (arr status reason : Nat) (data : Bytes) : State :=
  match SMap.find s.qpe.arrivals arr with
  | none => s
  | some a =>
    let s := { s with qpe := { s.qpe with arrivals := SMap.del s.qpe.arrivals arr } }.holdSelf a.pkt status
    if a.again then s.answerAgain a.pkt status reason data
    else if a.pkt.forwarded then s.forwardedDone a.pkt status reason data
    else
      let i := match a.qpn with | some n => StreamId.qp n | none => StreamId.module (streamKey a.pkt.src a.pkt.tc)
      let r := s.rstream i
      if !r.busy.contains a.pkt.psn then s else
        let s := s.answerReq i a.pkt a.decision status reason data
        State.takeHeld i ((s.rstream i).held.length + 1) s

/-- Go on with a request whose access has been performed: its token, or its answer. -/
def State.arrivalPerformed (s : State) (arr : Nat) (data : Bytes) : State :=
  match SMap.find s.qpe.arrivals arr with
  | none => s
  | some a =>
    if a.pkt.typ ≠ 0x01 ∨ !a.pkt.last then s.arrivalDone arr 0 0 data else
      match s.noteToken a.pkt with
      | (some (st, rs), s) => s.arrivalDone arr st rs data
      | (none, s) =>
        let s := { s with qpe := { s.qpe with arrivals := SMap.put s.qpe.arrivals arr { a with stage := .token, buf := RBuf.of data } } }
        s.startWait arr a.pkt .token none

end Sys2Proof.Machine
end

