-- ==== Sys2Proof/Machine/Placement.lean ====
section
/-!
DEFINITION. The placement engine (R529 to R561): proposals, moves, replicas, collapses, shoot-downs, lost holders and pins, as
home and as holder.
-/

namespace Sys2Proof.Machine

/-- Bit flags of a shoot-down notice (R549). -/
def sdCollapse : Nat := 1
def sdLost : Nat := 2
def sdMove : Nat := 4
def sdRemoved : Nat := 8

/-- The STATE byte of a thatch entry (R530). -/
def Page.stateByte (p : Page) : Nat :=
  (match p.state with | .home => 0 | .moving => 1 | .moved => 2 | .replicated => 3) + 4 * b2n p.pinned + 8 * b2n p.pinWait +
    16 * b2n p.collapsing + 32 * b2n p.readOnly + 64 * b2n p.poisoned

/-- The 64 bytes of a thatch entry (R530). -/
def Page.entry (p : Page) : Bytes :=
  slice ([0x10] ++ leBytes 1 p.stateByte ++ leBytes 2 p.partition ++ leBytes 4 p.seq ++ leBytes 3 p.writer ++
    leBytes 1 (p.frame / framesPerStack) ++ leBytes 3 p.target ++ leBytes 1 p.replicas.length ++ leBytes 4 p.lastChange ++
    leBytes 3 (if p.pinned then p.pinHolder else 0) ++ [0] ++ p.replicas.flatMap (leBytes 3)) 0 64

/-- Raise PLACEMENT about a page of this home: its SEQ and its STATE byte (R561). -/
def State.pageEvent (s : State) (reason i mod : Nat) : State :=
  match s.page i with
  | some p => s.placement reason mod (pageAddress s.me i) (leAt p.entry 4 4 + leAt p.entry 1 1 * 2 ^ 32)
  | none => s

/-- Count a placement message or proposal that is dropped (R532, R538). -/
def State.proposalDropped (s : State) : State := s.count .PLC_PROPOSAL_DROP_COUNT

/-- Update a thatch entry. -/
def State.updPage (s : State) (i : Nat) (f : Page → Page) : State :=
  match s.page i with
  | some p => s.setPage i (f p)
  | none => s

/-- The state of a page that is not replicated, by its writing holder (R531). -/
def State.restState (s : State) (p : Page) : PageState := if p.writer = s.me then .home else .moved

/-- Hall time in µs, low 32 bits (R530). -/
def State.nowUs (s : State) : Nat := s.hallTime / 1000 % 2 ^ 32

/-- SEQ advances, and hints are due again (R532, R534). -/
def State.seqAdvanced (s : State) (i : Nat) : State := s.updPage i fun p => { p with seq := (p.seq + 1) % 2 ^ 32, hints := [] }

/-- LAST_CHANGE of a page becomes the present time (R530). -/
def State.changedNow (s : State) (i : Nat) : State := s.updPage i fun p => { p with lastChange := s.nowUs }

/-- A change of holders: SEQ and LAST_CHANGE, and hints are due again (R530, R532, R534). -/
def State.holdersChanged (s : State) (i : Nat) : State := (s.seqAdvanced i).changedNow i

/-- Whether this module knows a newer SEQ of a page than one that a message carries: as holder, as the target of a copy, or in its placement
cache (R532). -/
def State.knowsNewer (s : State) (key seq : Nat) : Bool :=
  ((s.heldPage key).any fun h => seqNewer h.seq seq) || (SMap.find s.plc.incoming key).any (fun x => seqNewer x.seq seq) ||
    (s.cached (key / 2 ^ 23) (key % 2 ^ 23)).any fun e => seqNewer e.seq seq

/-! ## Requests that met a frozen page (R543 step 7, R544, R545) -/

/-- Take a request again that waited for the end of a move: it is performed here or passed on. -/
def State.rerunArrival (s : State) (arr : Nat) : State :=
  match SMap.find s.qpe.arrivals arr with
  | none => s
  | some a =>
    let s := { s with qpe := { s.qpe with arrivals := SMap.del s.qpe.arrivals arr } }
    let i := match a.qpn with | some n => StreamId.qp n | none => StreamId.module (streamKey a.pkt.src a.pkt.tc)
    if a.again then s.readAgain a.pkt
    else
      let x := s.perform a.pkt arr (a.decision.orElse fun _ => if a.pkt.forwarded then s.forwardDecision a.pkt else none)
      if a.pkt.forwarded then x.2.2.performedForward a.pkt arr x.1 x.2.1
      else
        let s := x.2.2.performed i a.pkt arr x.1 x.2.1
        State.takeHeld i ((s.rstream i).held.length + 1) s

/-- Whether a waiting request awaits the entry of a skylight from a home. -/
def Arrival.awaitsSky (a : Arrival) (home index : Nat) : Bool :=
  a.stage == .sky && a.pkt.stream == home && a.pkt.key % 2 ^ 20 == index

/-- Entries of skylights that are being fetched come in: whether one has come by the end of a command is free, and the requests that await
it are taken again (R72; log 19). -/
def State.skyCome (s : State) : State :=
  let waits := (s.qpe.arrivals.filterMap fun a =>
    if a.2.stage = .sky then some (a.2.pkt.stream, a.2.pkt.key % 2 ^ 20) else none).eraseDups
  waits.foldl (fun (s : State) x =>
    if s.freeVal % 2 = 0 then s.drawn else
      let s := s.drawn.skyFetched x.1 x.2
      (s.qpe.arrivals.filter fun a => a.2.awaitsSky x.1 x.2).foldl (fun s a => s.rerunArrival a.1) s) s

/-- Take again the requests held for a page, in the order of their arrival. -/
def State.resumePage (s : State) (key : Nat) : State :=
  (s.qpe.arrivals.filter fun a => a.2.stage == .frozen && a.2.page == some key).foldl (fun s a => s.rerunArrival a.1) s

/-! ## The holder's part (R543 to R546, R549) -/

/-- Stop holding a page: its frame is released, unless it is a home frame (R62). -/
def State.releaseHeld (s : State) (key : Nat) : State :=
  match s.heldPage key with
  | none => s
  | some h =>
    let s := if key / 2 ^ 23 = s.me then s else s.freeFrame h.frame
    { s with plc := { s.plc with held := SMap.del s.plc.held key } }

/-- Release the frame of a copy that did not become a page. -/
def State.releaseIncoming (s : State) (key : Nat) : State :=
  match SMap.find s.plc.incoming key with
  | none => s
  | some h =>
    let s := if key / 2 ^ 23 = s.me then s else s.freeFrame h.frame
    { s with plc := { s.plc with incoming := SMap.del s.plc.incoming key } }

/-- The old holder begins its copy (R543 step 4, R546), at the rate that is in use (R562). -/
def State.startCopy (s : State) (key dst : Nat) (replica : Bool) : State :=
  match s.heldPage key with
  | none => s
  | some h =>
    let rate := s.comF .PLC_MOVE_CFG 31 24
    let run := s.plc.copies
    let s := { s with plc := { s.plc with
      copies := run + 1, rate := s.copyFill (if s.copyRate = 0 then rate else s.copyRate) } }
    let s := s.setHeld key { h with
      copyTo := some dst, copyReplica := replica, copied := 0, acked := 0, passed := 0, run, rate }
    (List.range 512).foldl (fun s u =>
      match s.heldPage key with
      | some h => (s.setHeld key { h with copied := u + 1 }).sendUnit key h dst u false
      | none => s) s

/-- The old holder has all units, and every passed write, acknowledged: MOVE_DONE (R543 step 5, R546). -/
def State.copyDone (s : State) (key : Nat) : State :=
  match s.heldPage key with
  | none => s
  | some h =>
    if h.copyTo.isSome ∧ 512 ≤ h.acked ∧ h.passed = 0 then
      let s := s.setHeld key (if h.copyReplica then { h with due := true, copyTo := none } else h)
      s.plcSend .control 0x2B h.home key h.seq h.partition (beBytes 1 0)
    else s

/-- A MOVE_COPY of a copy that still runs has been acknowledged, or has failed: `u` at or above 512 is a passed write (R543, R544, R546). -/
def State.copyAcked (s : State) (key run u status : Nat) : State :=
  match s.heldPage key with
  | none => s
  | some h =>
    if h.copyTo.isNone ∨ h.run ≠ run ∨ status ≠ 0 then s
    else if u < 512 then
      let h := { h with acked := h.acked + 1, frozen := h.frozen || (h.acked + 1 == 512 && !h.copyReplica) }
      (s.setHeld key h).copyDone key
    else (s.setHeld key { h with passed := h.passed - 1 }).copyDone key

/-- MOVE_COPY at the target: the bytes and their poison (R543). In a home frame a word that comes unpoisoned leaves the page's POISONED mark (R550). -/
def State.moveCopyIn (s : State) (p : Pkt) : State :=
  let key := pageKey (plcHome p) (plcPage p)
  match SMap.find s.plc.incoming key with
  | none => s
  | some h =>
    if seqNewer h.seq (plcSeq p) then s.proposalDropped
    else
      let off := beNat (slice p.payload 16 4) % frameBytes
      let mask := beNat (slice p.payload 20 16)
      let a := h.frame * frameBytes + off
      let s := ((s.via .move).physWrite a (slice p.payload 64 4096)).via .fab
      let s := (List.range 128).foldl (fun s w => if bit mask w then s.setEcc (a / 32 + w) .poisoned else s) s
      if key / 2 ^ 23 ≠ s.me then s
      else s.updPage (key % 2 ^ 23) fun g => g.cleaned (((List.range 128).filter fun w => !bit mask w).map (off / 32 + ·))

/-- MOVE_START at the target, which has a frame for it, or at the old holder (R543 steps 2 to 4). -/
def State.moveStartIn (s : State) (p : Pkt) : State :=
  let key := pageKey (plcHome p) (plcPage p)
  if s.knowsNewer key (plcSeq p) then s.proposalDropped
  else if plcByte p 16 = 0 then
    let s := s.releaseIncoming key
    match s.takeFrame (.foreign (plcHome p) (plcPage p)) with
    | none => s
    | some (f, s) =>
      let x : Incoming := ⟨f, plcByte p 17 == 1, plcSeq p, p.partition, plcByte p 21 == 1⟩
      { s with plc := { s.plc with incoming := SMap.put s.plc.incoming key x } }
  else match s.heldPage key with
    | some _ =>
      if s.copiesFull then { s with plc := { s.plc with
        starts := s.plc.starts ++ [⟨key, plcModule p 18, plcByte p 17 == 1, false⟩] } }
      else s.startCopy key (plcModule p 18) (plcByte p 17 == 1)
    | none => s

/-- The target of a committed copy holds the page (R543 step 6, R546). -/
def State.becomeHolder (s : State) (key seq : Nat) : State :=
  match SMap.find s.plc.incoming key with
  | none => s
  | some h =>
    { s with plc := { s.plc with
        incoming := SMap.del s.plc.incoming key
        forward := SMap.del s.plc.forward key
        held := SMap.put s.plc.held key { (default : Held) with
          frame := h.frame, replica := h.replica, seq, partition := h.partition, readOnly := h.readOnly, home := key / 2 ^ 23 } } }

/-- MOVE_END (R543 steps 6 and 7, R545, R546): COMMIT is 0 and CANCEL 1. -/
def State.moveEndIn (s : State) (p : Pkt) : State :=
  let key := pageKey (plcHome p) (plcPage p)
  let seq := plcSeq p
  let holder := plcModule p 18
  match s.heldPage key with
  | some h =>
    if seqNewer h.seq seq then s.proposalDropped
    else if plcByte p 16 = 1 then
      ((s.setHeld key { h with frozen := false, due := false }).stopCopy key).resumePage key
    else if holder = s.me then s.setHeld key { h with seq, copyTo := none, replicated := true, due := false }
    else
      let s := s.releaseHeld key
      let s := { s with plc := { s.plc with forward := SMap.put s.plc.forward key holder } }
      s.resumePage key
  | none =>
    if (SMap.find s.plc.incoming key).any fun x => seqNewer x.seq seq then s.proposalDropped
    else if plcByte p 16 = 1 then s.releaseIncoming key else s.becomeHolder key seq

/-- THATCH_HINT at a source (R534). -/
def State.hintIn (s : State) (p : Pkt) : State :=
  match s.cached (plcHome p) (plcPage p) with
  | some e => if seqNewer e.seq (plcSeq p) then s.proposalDropped
    else s.cachePut ⟨plcHome p, plcPage p, plcSeq p, plcModule p 16, plcModule p 20⟩
  | none => if s.member p.partition s.me then s.cachePut ⟨plcHome p, plcPage p, plcSeq p, plcModule p 16, plcModule p 20⟩ else s

/-- COLLAPSE_NOTE at a source: a watch entry (R548). -/
def State.watchNote (s : State) (p : Pkt) : State :=
  let qpn := plcModule p 24
  let inst := ((s.qp qpn).map (·.inst)).getD 0
  { s with plc := { s.plc with watch := s.plc.watch ++ [⟨plcHome p, plcPage p, plcSeq p, qpn, inst⟩] } }

/-- COLLAPSE_DONE at a source (R548); a writing holder that is itself the source knows its replicas gone. -/
def State.collapseDoneIn (s : State) (p : Pkt) : State :=
  let key := pageKey (plcHome p) (plcPage p)
  let gone (w : Watch) : Bool := w.home == plcHome p && w.page == plcPage p && !seqNewer w.seq (plcSeq p)
  if s.knowsNewer key (plcSeq p) then s.proposalDropped else
    let s := { s with plc := { s.plc with watch := s.plc.watch.filter fun w => !gone w } }
    match s.heldPage key with
    | some h => if h.replica then s else s.setHeld key { h with replicated := false, collapsing := false }
    | none => s

/-- The transactions on a page from before a shoot-down: nothing more of their queue pairs goes to the page until they are acknowledged (R93). -/
def State.pageShot (s : State) (key : Nat) : State :=
  { s with qpe := { s.qpe with txns := SMap.mapv s.qpe.txns fun _ t => if t.page = some key then { t with shot := true } else t } }

/-- A shoot-down notice on this module (R532, R549), which it then acknowledges. -/
def State.shootNotice (s : State) (root page seq : Nat) (payload : Bytes) (partition : Nat) : State :=
  let m i := beNat (slice payload i 3) % 2 ^ 17
  let flags := leAt payload 27 1
  let key := pageKey root page
  let s := if s.knowsNewer key seq then s.proposalDropped else
    let s := match s.cached root page with
      | some _ => s.cachePut ⟨root, page, seq, m 24, m 24⟩
      | none => s
    let s := match s.heldPage key with
      | some h =>
        if h.replica ∧ (bit flags 0 ∨ (bit flags 3 ∧ m 28 = s.me)) then s.releaseHeld key else s.setHeld key { h with seq }
      | none => s
    s.pageShot key
  s.treeArrive tkShootDown root page seq partition

/-! ## The home's part -/

/-- Send MOVE_END to a module (R560). -/
def State.sendEnd (s : State) (i dst : Nat) (cancel : Bool) : State :=
  match s.page i with
  | some p => s.plcSend .control 0x2C dst (pageKey s.me i) p.seq p.partition
      (beBytes 1 (b2n cancel) ++ [0] ++ beBytes 3 p.writer)
  | none => s

/-- The page of a change. -/
def Change.page : Change → Nat
  | .commit i => i
  | .collapse i => i
  | .drop i _ => i
  | .lost i _ => i
  | .target i _ => i

/-- Send MOVE_START (R560): role, REPLICA flag, target, and whether the page is read-only (log 22). -/
def State.sendStart (s : State) (i dst role : Nat) : State :=
  match s.page i with
  | some p => s.plcSend (if role = 0 then .move (pageKey s.me i) else .control) 0x29 dst (pageKey s.me i) p.seq p.partition
      (beBytes 1 role ++ beBytes 1 (b2n p.moveReplica) ++ beBytes 3 p.moveTo ++ beBytes 1 (b2n p.readOnly))
  | none => s

/-- The copies that a module runs as old holder under this home (R538 check 8). -/
def State.copiesOf (s : State) (m : Nat) : Nat :=
  max (s.hall.pages.filter fun e => e.2.step == 2 && e.2.writer == m).length
    (if m = s.me then (s.plc.held.filter fun h => h.2.copyTo.isSome).length else 0)

/-- Whether a shoot-down of a page is in flight or due. -/
def State.shooting (s : State) (i : Nat) : Bool :=
  s.plc.shoots.any (fun x => x.page == i) || s.plc.changes.any fun c => c.page == i

/-- The target has accepted (R543 step 3, R546): the old holder is told to copy. -/
def State.beginCopy (s : State) (i : Nat) : State :=
  match s.page i with
  | none => s
  | some p =>
    let p := if p.moveReplica then { p with step := 2 }
      else { p with step := 2, before := p.state, state := .moving, target := p.moveTo }
    (s.setPage i p).sendStart i p.writer 1

/-- The home accepts a page of its own as the target, in the page's home frame (R62, R543 step 2). -/
def State.takeHome (s : State) (i : Nat) : State :=
  match s.page i with
  | none => s
  | some p =>
    let x : Incoming := ⟨p.frame, p.moveReplica, p.seq, p.partition, p.readOnly⟩
    { s with plc := { s.plc with incoming := SMap.put s.plc.incoming (pageKey s.me i) x } }.beginCopy i

/-- Begin a move or a replica of a page (R543 step 1, R546); one back to the home waits while MAX_MOVES copies come in (R564). -/
def State.beginMove (s : State) (i target : Nat) (replica : Bool) : State :=
  match s.page i with
  | none => s
  | some p =>
    let s := s.setPage i { p with step := 1, moveTo := target, moveReplica := replica }
    if target ≠ s.me then s.sendStart i target 0
    else if s.incomingFull then { s with plc := { s.plc with starts := s.plc.starts ++ [⟨pageKey s.me i, s.me, replica, true⟩] } }
    else s.takeHome i

/-- Begin the copies that have waited and for which there is room again, oldest first (R564). -/
def State.dueStarts (s : State) : State :=
  s.plc.starts.foldl (fun s x =>
    if (if x.home then s.incomingFull else s.copiesFull) then s
    else
      let s := { s with plc := { s.plc with starts := s.plc.starts.erase x } }
      if x.home then s.takeHome (x.key % 2 ^ 23) else s.startCopy x.key x.dst x.replica) s

/-- The home gives up a move or replica before it is recorded, and before a MOVE_DONE of it that waits (R543 step 2, R545). -/
def State.cancelMove (s : State) (i : Nat) (toOld toTarget : Bool) : State :=
  match s.page i with
  | none => s
  | some p =>
    let s := if toOld && p.step == 2 then s.sendEnd i p.writer true else s
    let s := if toTarget then s.sendEnd i p.moveTo true else s
    let s := { s with plc := { s.plc with
      changes := s.plc.changes.filter (fun c => c != Change.commit i)
      starts := s.plc.starts.filter fun x => x.key != pageKey s.me i || !x.home } }
    s.updPage i fun p => { p with step := 0, target := 0, state := if p.state = .moving then p.before else p.state }

/-- Move a page that waits for its pin when the checks allow (R557); `again` tries one that was refused for want of reserve once more. -/
def State.pinMove (s : State) (i : Nat) (again : Bool) : State :=
  match s.page i with
  | none => s
  | some p =>
    if ((s.domain p.partition).map (·.stopped)).getD false then s
    else if !p.pinWait ∨ p.step ≠ 0 ∨ p.freeing ∨ p.state = .replicated ∨ p.state = .moving then s
    else if p.writer = p.pinHolder then s.setPage i { p with pinWait := false }
    else if !s.member p.partition p.pinHolder ∨ !again ∧ SMap.getD s.plc.reserves (p.partition * 2 ^ 17 + p.pinHolder) 1 = 0 ∧
        p.pinHolder ≠ s.me then s
    else if s.shooting i ∨ s.comF .PLC_MOVE_CFG 15 8 ≤ s.copiesOf p.writer then s
    else s.beginMove i p.pinHolder false

/-- The pages that wait for their pin are moved as soon as the checks allow (R557). -/
def State.duePins (s : State) : State :=
  (s.hall.pages.filter fun e => e.2.pinWait).foldl (fun s e => s.pinMove e.1 false) s

/-- A reply to MOVE_START (role TARGET): its status and the free reserve that it carries (R540, R543). -/
def State.moveReply (s : State) (key status : Nat) (data : Bytes) : State :=
  let i := key % 2 ^ 23
  if key / 2 ^ 23 ≠ s.me then s else
    match s.page i with
    | none => s
    | some p =>
      let s := if data = [] then s else
        { s with plc := { s.plc with
            reserves := SMap.put s.plc.reserves (p.partition * 2 ^ 17 + p.moveTo) (beNat (slice data 0 4)) } }
      if p.step ≠ 1 then s
      else if status = 0 then s.beginCopy i
      else
        let s := s.updPage i fun p => { p with step := 0 }
        if status ≠ stResource then s else
          let s := ((s.count .PLC_REFUSE_COUNT).setFlag .PLC_ERR 1).pageEvent 4 i p.moveTo
          if p.pinWait ∧ !p.pinNoted then (s.pageEvent 7 i p.pinHolder).updPage i fun p => { p with pinNoted := true } else s

/-- Start a shoot-down of a page with its new SEQ (R549). -/
def State.shoot (s : State) (c : Change) (i flags removed about : Nat) : State :=
  match s.page i with
  | none => s
  | some p =>
    let x : Shoot := ⟨c, i, p.seq, flags, removed, about⟩
    let s := { s with plc := { s.plc with shoots := s.plc.shoots ++ [x] } }
    s.treeStart tkShootDown i p.seq p.partition []
      (beBytes 3 p.writer ++ beBytes 1 flags ++ beBytes 3 removed ++ [0] ++ beBytes 3 s.me)

/-- Empty the replica list of a page, and set its state by its writing holder. -/
def State.unreplicate (s : State) (i : Nat) : State :=
  s.updPage i fun p => { p with replicas := [], state := s.restState p }

/-- Make a change that needs a shoot-down (R543 step 6, R547 step 3, R549, R550). -/
def State.makeChange (s : State) (c : Change) : State :=
  match c with
  | .commit i =>
    match s.page i with
    | none => s
    | some p =>
      if p.step ≠ 2 ∨ p.moveReplica then s else
        let old := p.writer
        let new := p.moveTo
        let p := { p with writer := new, state := if new = s.me then .home else .moved, target := 0, step := 0
                          pinWait := p.pinned && p.pinHolder != new }
        let s := (s.setPage i p).holdersChanged i
        let s := (s.sendEnd i old false).sendEnd i new false
        (s.hintOnce i new).shoot c i sdMove 0 new
  | .collapse i =>
    match s.page i with
    | none => s
    | some p =>
      if p.state ≠ .replicated ∨ p.collapsing then s else
        ((s.setPage i { p with collapsing := true }).seqAdvanced i).shoot c i sdCollapse 0 p.writer
  | .drop i r =>
    match s.page i with
    | none => s
    | some p =>
      if !p.replicas.contains r then s else
        let s := s.setPage i { p with replicas := p.replicas.filter (· != r) }
        let s := (if p.replicas.length = 1 then s.unreplicate i else s).holdersChanged i
        (s.pageEvent 5 i r).shoot c i sdRemoved r r
  | .lost i m =>
    match s.page i with
    | none => s
    | some p =>
      if p.writer = m then
        let key := pageKey s.me i
        let s := s.updPage i fun p =>
          { p with writer := s.me, state := .home, replicas := [], poisoned := true, clean := [], target := 0, collapsing := false }
        let s := { s with plc := { s.plc with
          incoming := SMap.del s.plc.incoming key
          held := SMap.put s.plc.held key { (default : Held) with
            frame := p.frame, seq := (p.seq + 1) % 2 ^ 32, partition := p.partition, readOnly := p.readOnly, home := s.me } } }
        let s := (((s.holdersChanged i).pageEvent 6 i m).setFlag .PLC_ERR 2).count .PLC_HOLDER_LOST_COUNT
        s.shoot c i (sdLost + sdCollapse) 0 m
      else if p.replicas.contains m then
        let s := s.setPage i { p with replicas := p.replicas.filter (· != m) }
        let s := (if p.replicas.length = 1 then s.unreplicate i else s).holdersChanged i
        (s.count .PLC_HOLDER_LOST_COUNT).shoot c i (sdLost + sdRemoved) m m
      else s
  | .target i m => ((s.holdersChanged i).count .PLC_HOLDER_LOST_COUNT).shoot c i sdLost 0 m

/-- Make a change now, or keep it until its page and the home have a shoot-down free (R549). -/
def State.change (s : State) (c : Change) (i : Nat) : State :=
  if s.shooting i ∨ 64 ≤ s.plc.shoots.length then
    if s.plc.changes.contains c then s else { s with plc := { s.plc with changes := s.plc.changes ++ [c] } }
  else s.makeChange c

/-- Make the changes that have waited and may now be made, oldest first. -/
def State.dueChanges (s : State) : State :=
  s.plc.changes.foldl (fun s c =>
    let earlier := (s.plc.changes.takeWhile fun d => d != c).any fun d => d.page == c.page
    if earlier ∨ s.plc.shoots.any (fun x => x.page == c.page) ∨ 64 ≤ s.plc.shoots.length then s
    else ({ s with plc := { s.plc with changes := s.plc.changes.erase c } }).makeChange c) s

/-- Send COLLAPSE_DONE to a module (R547). -/
def State.sendCollapseDone (s : State) (i : Nat) (p : Page) (dst : Nat) : State :=
  s.plcSend .control 0x2F dst (pageKey s.me i) p.seq p.partition []

/-- A shoot-down of this home has been acknowledged by every member (R543 step 8, R547 step 5, R549). The writing holder of a collapsed page is sent
COLLAPSE_DONE too, as no other message tells it that the page has no replica left (log 86). -/
def State.shootDone (s : State) (i seq : Nat) : State :=
  match s.plc.shoots.find? fun x => x.page == i && x.seq == seq with
  | none => s
  | some x =>
    let s := { s with plc := { s.plc with shoots := s.plc.shoots.erase x } }
    let s := s.count .PLC_SHOOT_DOWN_COUNT
    let s := match x.change, s.page i with
      | .commit _, some _ => (s.count .PLC_MOVE_COUNT).pageEvent 1 i x.about
      | .collapse _, some p =>
        let s := ((s.unreplicate i).changedNow i).updPage i fun p => { p with collapsing := false, sources := [], late := [] }
        let told := p.sources ++ p.late ++ (if p.sources.contains p.writer || p.writer == s.me then [] else [p.writer])
        let s := told.foldl (fun (s : State) m => s.sendCollapseDone i p m) s
        let s := match s.heldPage (pageKey s.me i) with
          | some h => s.setHeld (pageKey s.me i) { h with replicated := false, collapsing := false }
          | none => s
        (s.count .PLC_COLLAPSE_COUNT).pageEvent 3 i p.writer
      | _, _ => s
    (s.dueChanges).pinMove i false

/-- MOVE_DONE at the home (R543 step 6, R546): COMPLETE is 0 and ABANDONED 1. A page pinned since is collapsed, as it is REPLICATED now (R557). -/
def State.moveDoneIn (s : State) (p : Pkt) : State :=
  let i := plcPage p
  match s.page i with
  | none => s
  | some g =>
    if seqNewer g.seq (plcSeq p) ∨ plcHome p ≠ s.me then s.proposalDropped
    else if g.step ≠ 2 then s
    else if plcByte p 16 = 1 then
      ((s.sendEnd i g.moveTo true).changedNow i).updPage i fun g => { g with step := 0 }
    else if g.moveReplica then
      let s := s.setPage i { g with step := 0, replicas := g.replicas ++ [g.moveTo], state := .replicated, before := g.state }
      let s := (s.holdersChanged i).hintOnce i g.moveTo
      let s := (((s.sendEnd i g.writer false).sendEnd i g.moveTo false).count .PLC_REPLICA_COUNT).pageEvent 2 i g.moveTo
      if g.pinned then s.change (.collapse i) i else s
    else s.change (.commit i) i

/-- COLLAPSE_NOTE at the home (R547 steps 3 and 6). One beyond 64 sources comes only from this module itself as writing holder: like one left
unaccepted, it is answered when the collapse has completed. -/
def State.homeNote (s : State) (p : Pkt) : State :=
  let i := plcPage p
  let src := plcModule p 20
  match s.page i with
  | none => s
  | some g =>
    if plcHome p ≠ s.me then s
    else if g.state ≠ .replicated then s.sendCollapseDone i g src
    else
      let s := s.setPage i (if g.sources.contains src || g.late.contains src then g
        else if g.sources.length < 64 then { g with sources := g.sources ++ [src] } else { g with late := g.late ++ [src] })
      if g.collapsing ∨ s.plc.changes.contains (.collapse i) then s else s.change (.collapse i) i

/-- Kinds of proposals (R560), and the request of R541 to move a page home. -/
def pkMigrate : Nat := 0
def pkReplicate : Nat := 1
def pkDrop : Nat := 2
def pkReturn : Nat := 3

/-- Whether a proposal fails a check of R538. One on a page on which a move has begun that does not show in STATE yet is dropped too (log 86). -/
def State.proposalFail (s : State) (i kind target seq src : Nat) : Bool :=
  match s.page i with
  | none => true
  | some p =>
    let pol := (SMap.find s.plc.policies p.partition).getD default
    let free := kind = pkReturn
    let held := p.writer == target || p.replicas.contains target
    p.freeing || seqNewer p.seq seq
      || (!free && (p.pinned || p.pinWait))
      || (kind == pkMigrate && !pol.migrate) || (kind == pkReplicate && (!pol.replicate || pol.maxReplicas == 0))
      || ((kind == pkMigrate || kind == pkReturn) && (p.step != 0 || (p.state != .home && p.state != .moved) || p.writer == target))
      || (kind == pkReplicate && (p.step != 0 || p.state == .moving || p.collapsing || decide (pol.maxReplicas ≤ p.replicas.length) || held))
      || (kind == pkDrop && !p.replicas.contains target)
      || (kind != pkDrop && !free && decide ((s.nowUs + 2 ^ 32 - p.lastChange) % 2 ^ 32 < 1000 * s.comF .PLC_HEAT_CFG 15 0))
      || (kind != pkDrop && (!s.member p.partition target ||
          (target != s.me && SMap.getD s.plc.reserves (p.partition * 2 ^ 17 + target) 1 == 0)))
      || s.plc.shoots.any (fun x => x.page == i) || decide (s.comF .PLC_MOVE_CFG 15 8 ≤ s.copiesOf p.writer)
      || (free && src != p.writer)

/-- The home considers a proposal (R538). No move of a page of a stopped job domain starts (R797; log 86). -/
def State.propose (s : State) (i kind target seq src : Nat) : State :=
  if s.proposalFail i kind target seq src then s.proposalDropped
  else if kind = pkDrop then s.change (.drop i target) i
  else if (((s.page i).bind fun p => s.domain p.partition).map (·.stopped)).getD false then s
  else s.beginMove i target (kind == pkReplicate)

/-- PLACE_PROPOSE at the home. -/
def State.proposeIn (s : State) (p : Pkt) : State :=
  if plcHome p ≠ s.me then s else s.propose (plcPage p) (plcByte p 16) (plcModule p 17) (plcSeq p) p.src

/-- A home learns that module `m` has a newer epoch (R545, R550). -/
def State.holderLost (s : State) (m : Nat) : State :=
  s.hall.pages.foldl (fun s e =>
    let p := e.2
    if p.writer = m then
      let s := if p.step = 0 then s else s.cancelMove e.1 false (p.moveTo != m && p.moveTo != s.me)
      (s.releaseIncoming (pageKey s.me e.1)).change (.lost e.1 m) e.1
    else
      let s := if p.step ≠ 0 ∧ p.moveTo = m then s.cancelMove e.1 true false else s
      if p.replicas.contains m then s.change (.lost e.1 m) e.1
      else if p.step = 2 ∧ p.moveTo = m ∧ !p.moveReplica then s.change (.target e.1 m) e.1
      else s) s

/-- The placement effects of this module's own epoch advance (R545, R548, R551); requests held for a page of another home are treated under R535. -/
def State.placementReset (s : State) : State :=
  let foreign := s.plc.held.filter fun h => h.1 / 2 ^ 23 != s.me
  let s := foreign.foldl (fun s h => (s.stopCopy h.1).releaseHeld h.1) s
  let s := (s.plc.incoming.filter fun h => h.1 / 2 ^ 23 != s.me).foldl (fun s h => s.releaseIncoming h.1) s
  let s := { s with plc := { s.plc with cache := [], forward := [], watch := [] } }
  let s := s.hall.pages.foldl (fun s e => if e.2.step = 0 then s else s.cancelMove e.1 true true) s
  let s := s.plc.shoots.foldl (fun s x =>
    let s := { s with plc := { s.plc with shoots := s.plc.shoots.erase x } }
    s.shoot x.change x.page x.flags x.removed x.about) s
  (s.qpe.arrivals.filterMap fun a => if a.2.stage = .frozen then a.2.page.filter fun k => k / 2 ^ 23 != s.me else none).eraseDups.foldl
    State.resumePage s

/-! ## Heat (R537, R541, R555) -/

/-- What a holder's evaluation of a page proposes (R537): kind and module. -/
def State.evaluate (s : State) (h : Held) : Option (Nat × Nat) :=
  let thr := ((SMap.find s.plc.policies h.partition).map (·.threshold)).getD 0
  let total := satAdd32 h.heat.reads h.heat.writes
  if h.replica then (if total < thr / 16 then some (pkDrop, s.me) else none)
  else if total < thr then none
  else
    let a := h.heat.cand0
    let b := h.heat.cand1
    let swap : Bool := decide (a.2 < b.2) || (a.2 == b.2 && decide (b.1 < a.1))
    let c0 := if swap then b else a
    let c1 := if swap then a else b
    if c0.2 ≠ 0 ∧ c0.1 ≠ s.me ∧ total * 3 ≤ c0.2 * 4 then some (pkMigrate, c0.1)
    else if h.heat.writes * 64 ≤ total then
      if c0.2 ≠ 0 ∧ c0.1 ≠ s.me ∧ total ≤ c0.2 * 8 then some (pkReplicate, c0.1)
      else if c1.2 ≠ 0 ∧ c1.1 ≠ s.me ∧ total ≤ c1.2 * 8 then some (pkReplicate, c1.1)
      else none
    else none

/-- Half of each heat count; a candidate count of 0 frees its entry (R537). -/
def Heat.halve (h : Heat) : Heat :=
  ⟨h.reads / 2, h.writes / 2, (h.cand0.1, h.cand0.2 / 2), (h.cand1.1, h.cand1.2 / 2)⟩

/-- Send a proposal to a page's home, or consider it at once when this is the home (R537). -/
def State.sendPropose (s : State) (key : Nat) (h : Held) (kind target : Nat) : State :=
  if key / 2 ^ 23 = s.me then s.propose (key % 2 ^ 23) kind target h.seq s.me
  else s.plcSend .control 0x28 (key / 2 ^ 23) key h.seq h.partition (beBytes 1 kind ++ beBytes 3 target)

/-- The decay of all heat (R537, R541, R555). Of a page whose partition is over its reserve the module makes the one proposal of R541. -/
def State.decay (s : State) : State :=
  let s := s.plc.held.foldl (fun s e =>
    let excess := decide (s.reserveOf e.2.partition < s.reserveUsed e.2.partition) && (e.2.replica || e.1 / 2 ^ 23 != s.me)
    let s := if excess then s.sendPropose e.1 e.2 (if e.2.replica then pkDrop else pkReturn) (if e.2.replica then s.me else e.1 / 2 ^ 23)
      else match s.evaluate e.2 with
        | some (k, m) => s.sendPropose e.1 e.2 k m
        | none => s
    match s.heldPage e.1 with
    | some h => s.setHeld e.1 { h with heat := h.heat.halve }
    | none => s) s
  { s with plc := { s.plc with heat := (SMap.mapv s.plc.heat fun _ v => v / 2).filter fun e => e.2 != 0 } }

end Sys2Proof.Machine
end

