-- ==== Sys2Proof/Machine/Sync.lean ====
section
/-!
DEFINITION. Wick tests, barriers, cadence boundaries and mailboxes (R430, R431, R567 to R588, R603 to R607).
-/

namespace Sys2Proof.Machine

/-! ## Wick queues (R567 to R579) -/

/-- Test one waiter of a wick queue (R570, R571). -/
def State.testWaiter (s : State) (n : Nat) (x : Waiter) : State :=
  match x.kind, s.wick n with
  | .consume wq op, some w =>
    if x.tokens ≤ w.count ∧ w.waiters.contains x then
      (s.setWick n { w with
        count := w.count - x.tokens, consumed := satAdd32 w.consumed x.tokens, waiters := w.waiters.erase x }).opDone wq op
        stSuccess 0 false 0 0
    else s
  | .program die e, some _ => s.entryTest (entryKey die e)
  | _, none => s

/-- Test the waiters of a wick queue in the order in which they began to wait (R571). -/
def State.testWick (s : State) (n : Nat) : State :=
  match s.wick n with
  | some w => w.waiters.foldl (fun s x => s.testWaiter n x) s
  | none => s

/-- Test the waiters of the wick queues whose count has risen. -/
def State.testRose (s : State) : State :=
  let l := s.syn.rose.eraseDups
  l.foldl (fun (s : State) n => s.testWick n) { s with syn := { s.syn with rose := [] } }

/-- End a waiter with a status (R573, R576, R579). -/
def State.endWaiter (s : State) (n : Nat) (x : Waiter) (status detail : Nat) : State :=
  match x.kind, s.wick n with
  | .consume wq op, some w =>
    if w.waiters.contains x then
      (s.setWick n { w with waiters := w.waiters.erase x }).opFail wq op status detail
    else s
  | .program die e, some w => if w.waiters.contains x then s.cancelEntry (entryKey die e) status detail false false else s
  | _, none => s

/-- End every waiter of a wick queue, and remove the queue. -/
def State.removeWick (s : State) (n status detail : Nat) : State :=
  match s.wick n with
  | none => s
  | some w =>
    let s := w.waiters.foldl (fun s x => s.endWaiter n x status detail) s
    { s with syn := { s.syn with wicks := SMap.del s.syn.wicks n, rose := s.syn.rose.filter (· != n) } }

/-- A count epoch boundary of a wick queue, with the index that it begins and whether the queue drifts (R576, R577). -/
def State.wickBoundary (s : State) (n index : Nat) (drift : Bool) : State :=
  match s.wick n with
  | none => s
  | some w =>
    let s := if drift then (s.setFlag .SYN_ERR 2).count .SYN_DRIFT_COUNT else s
    let s := if w.realign then w.waiters.foldl (fun s x => s.endWaiter n x stTimeout 1) s else s
    match s.wick n with
    | none => s
    | some w =>
      s.setWick n { w with
        lastProduced := w.produced, lastConsumed := w.consumed, produced := 0, consumed := 0, drift := drift,
        overflow := false, index := index,
        count := if w.realign then min w.depth w.pend else w.count, pend := if w.realign then 0 else w.pend }

/-- Whether a wick queue drifts at a boundary: it realigns, and tokens or waiters remain (R576). -/
def Wick.drifts (w : Wick) : Bool := w.realign && (w.count != 0 || w.waiters != [])

/-- Boundaries of the wick queues of a partition, or of those without a cadence. All of them come at once: what remains in each is judged before
any ends its waiters, which may wait on several (R576). -/
def State.wickBoundaries (s : State) (p : Wick → Bool) (index : Wick → Nat) : State :=
  let s := s.syn.wicks.foldl (fun s e => if p e.2 then s.testWick e.1 else s) s
  s.syn.wicks.foldl (fun s e => if p e.2 then s.wickBoundary e.1 (index e.2) e.2.drifts else s) s

/-- Set the index of the wick queues of a partition without a boundary (R574). -/
def State.wickReindex (s : State) (p : Wick → Bool) : State :=
  let f (_ : Nat) (w : Wick) : Wick := if p w then { w with index := s.epochNow w.partition } else w
  { s with syn := { s.syn with wicks := SMap.mapv s.syn.wicks f } }

/-- A wick queue's owner changes its generation (R579). -/
def State.wickOwnerReset (s : State) (inst : Nat) : State :=
  s.syn.wicks.foldl (fun s e =>
    if e.2.inst = inst then
      let n := (((s.wick e.1).map (·.waiters)).getD []).length
      (s.countN .SYN_OWNER_RESET_COUNT n).removeWick e.1 stOwnerReset 0
    else s) s

/-! ## Barriers (R430, R431, R580 to R583) -/

/-- Send this module's arrival for the barrier's current instance when it may (R430, R580, R582). -/
def State.barGo (s : State) (g : Nat) : State :=
  match s.bar g, s.definedGroup g with
  | some b, some x =>
    if !b.sent ∧ (b.vacant ∨ max 1 b.participants ≤ b.arrived) then
      (s.setBar g { b with sent := true }).tallowBarrier.treeArrive tkBarrier (x.list.headD s.me) g b.instance_ x.partition
    else s
  | _, _ => s

/-- An arrival of a waiting TOKEN at a barrier: none when it must wait at issue (R582). -/
def State.barArrive (s : State) (g wq op : Nat) : Option State :=
  match s.bar g with
  | none => none
  | some b =>
    if !b.sent ∧ b.arrived < max 1 b.participants then
      some ((s.setBar g { b with arrived := b.arrived + 1, waits := b.waits ++ [(wq, op, b.instance_)] }).barGo g)
    else if b.arrivedNext < max 1 b.next then
      some (s.setBar g { b with
        arrivedNext := b.arrivedNext + 1, waits := b.waits ++ [(wq, op, (b.instance_ + 1) % 2 ^ 32)] })
    else none

/-- Release a barrier's current instance on this module (R430, R582, R583). -/
def State.barRelease (s : State) (g : Nat) : State :=
  match s.bar g with
  | none => s
  | some b =>
    let now := b.waits.filter fun w => w.2.2 == b.instance_
    let s := s.setBar g { b with
      waits := b.waits.filter (fun w => w.2.2 != b.instance_), instance_ := (b.instance_ + 1) % 2 ^ 32,
      arrived := b.arrivedNext, arrivedNext := 0, participants := b.next, sent := false, releaseAt := none, due := none }
    (now.foldl (fun (s : State) w => s.opDone w.1 w.2.1 stSuccess 0 false 0 0) s).barGo g

/-- The first boundary of a partition's cadence at or after now (R431, R605). -/
def State.nextBoundary (s : State) (partition : Nat) : Option Nat :=
  let first (start period : Nat) : Nat :=
    if s.hallTime ≤ start then start else start + (s.hallTime - start + period - 1) / period * period
  (SMap.find s.sch.cadences partition).map fun c =>
    let old := first c.start c.period
    match c.next with
    | some (start, period) => if start ≤ old then first start period else old
    | none => old

/-- Send the release of a barrier instance whose count is complete at this root (R431): hall time `t`, or 0 for at once. -/
def State.sendRelease (s : State) (g seq partition t : Nat) : State :=
  s.treeDown (s.getTree tkBarrier s.me g seq partition) s.treeClass (zeros 8 ++ beBytes 8 t)

/-- The ridge count of a barrier instance is complete (R431). -/
def State.barDone (s : State) (g seq partition : Nat) : State :=
  match s.bar g with
  | some b =>
    if !b.periodic then s.sendRelease g seq partition 0
    else match s.nextBoundary partition with
      | some t => s.sendRelease g seq partition t
      | none => s.setBar g { b with due := some seq }
  | none => s.sendRelease g seq partition 0

/-- A release has reached this module (R430, R431): at once, or at a hall time to come. -/
def State.barNotice (s : State) (g seq : Nat) (payload : Bytes) : State :=
  match s.bar g with
  | none => s
  | some b =>
    let t := beNat (slice payload 32 8)
    if b.instance_ ≠ seq ∨ !b.sent then s
    else if t ≤ s.hallTime then s.barRelease g
    else s.setBar g { b with releaseAt := some t }

/-- Release the barriers of a partition whose hall time has come. -/
def State.barsDue (s : State) (partition : Nat) : State :=
  s.syn.bars.foldl (fun s e =>
    if ((s.group e.1).map (·.partition)) = some partition then
      match ((s.bar e.1).bind (·.releaseAt)) with
      | some t => if t ≤ s.hallTime then s.barRelease e.1 else s
      | none => s
    else s) s

/-- Send the releases of barriers that have waited for a cadence. -/
def State.barsSend (s : State) (partition : Nat) : State :=
  match s.nextBoundary partition with
  | none => s
  | some t =>
    s.syn.bars.foldl (fun s e =>
      match s.bar e.1, (s.bar e.1).bind (·.due) with
      | some b, some seq =>
        if ((s.group e.1).map (·.partition)) = some partition then
          (s.setBar e.1 { b with due := none }).sendRelease e.1 seq partition t
        else s
      | _, _ => s) s

/-- A barrier's owner changes its generation (R580). -/
def State.barOwnerReset (s : State) (inst : Nat) : State :=
  s.syn.bars.foldl (fun s e =>
    match s.bar e.1 with
    | none => s
    | some b =>
      if b.inst ≠ inst ∨ b.vacant then s else
        let s := s.countN .SYN_OWNER_RESET_COUNT b.waits.length
        let s := s.setBar e.1 { b with vacant := true, waits := [] }
        (b.waits.foldl (fun (s : State) w => s.opFail w.1 w.2.1 stOwnerReset 0) s).barGo e.1) s

/-! ## Cadences (R603 to R607) -/

/-- The number of boundaries of a cadence up to a hall time. -/
def boundaryIndex (t start period : Nat) : Nat := if t < start then 0 else (t - start) / period + 1

/-- Put a due replacement of a cadence into force (R605): the cadence, and the boundaries of the old one that it skips. -/
def Cadence.replace (c : Cadence) (now : Nat) : Cadence × Nat :=
  match c.next with
  | some (start, period) =>
    if start ≤ now then
      ({ c with start, period, next := none, last := 0 }, boundaryIndex (start - 1) c.start c.period - c.last)
    else (c, 0)
  | none => (c, 0)

/-- Remove the cadence of a partition (R605): its wick queues follow COUNT_EPOCH, and its waits end when their owners end
them. -/
def State.removeCadence (s : State) (partition : Nat) : State :=
  { s with sch := { s.sch with cadences := SMap.del s.sch.cadences partition } }.wickReindex fun w => w.partition == partition

/-- A boundary of a partition's cadence applies when its index is new (R601, R606). -/
def State.cadenceBoundary (s : State) (partition : Nat) : State :=
  match SMap.find s.sch.cadences partition with
  | none => s.barsDue partition
  | some c =>
    let r := c.replace s.hallTime
    let c := r.1
    let k := boundaryIndex s.hallTime c.start c.period
    let setC (s : State) (c : Cadence) : State :=
      { s with sch := { s.sch with cadences := SMap.put s.sch.cadences partition c } }
    let skip (s : State) (n : Nat) : State :=
      if n = 0 then s else (s.setFlag .SCH_ERR 2).countN .SCH_BOUNDARY_SKIP_COUNT n
    if k ≤ c.last then (skip (setC s c) r.2).barsDue partition
    else
      let s := skip (setC s { c with last := k, waits := [] }) (r.2 + (k - c.last - 1))
      let s := (s.barsSend partition).barsDue partition
      let s := s.wickBoundaries (fun w => w.partition == partition) fun _ => k % 2 ^ 32
      (c.waits.foldl (fun (s : State) w => s.opDone w.1 w.2 stSuccess 0 false 0 0) s).count .SCH_BOUNDARY_COUNT

/-! ## Mailboxes (R584 to R588) -/

/-- The parent of an instance, if it has a mailbox with one (R584). -/
def parentOf (inst : Nat) : Option Nat :=
  if inst % 128 ≠ 0 then some (pfOf inst) else if inst = 0 then none else some 0

/-- The slot of a child's mailbox: toward the parent or toward the child. -/
def slotKey (child : Nat) (down : Bool) : Nat := 2 * child + b2n down

/-- A mailbox slot; one that is not listed is empty. -/
def State.mbx (s : State) (child : Nat) (down : Bool) : MbxSlot := SMap.getD s.syn.slots (slotKey child down) ⟨0, 0, 0, false, false⟩

/-- Replace a mailbox slot. -/
def State.setMbx (s : State) (child : Nat) (down : Bool) (x : MbxSlot) : State :=
  { s with syn := { s.syn with slots := SMap.put s.syn.slots (slotKey child down) x } }

/-- The sender and the receiver of a slot. -/
def mbxEnds (child : Nat) (down : Bool) : Nat × Nat :=
  let parent := (parentOf child).getD 0
  if down then (parent, child) else (child, parent)

/-- Raise MAILBOX for a loaded slot on its receiver's default queue (R587). -/
def State.mbxArrived (s : State) (child : Nat) (down : Bool) : State :=
  let x := s.mbx child down
  let e := mbxEnds child down
  s.raise (.inst e.2) evMailbox e.1 x.message (x.tag + x.gen * 2 ^ 16)

/-- The child whose mailbox a function's UP (0) or DOWN (1) registers face, if there is one (R593). -/
def State.mbxChild (s : State) (fn dir : Nat) : Option Nat :=
  if dir = 0 then (if (parentOf fn).isSome ∧ (s.inst fn).isSome then some fn else none)
  else
    let c := fld (s.regOf fn .VRT_MBX_DOWN_SEL) 8 0
    if isPf fn ∧ parentOf c = some fn ∧ (s.inst c).isSome then some c else none

/-- Whether a mailbox register has no slot behind it for a function: an UP register without a parent, a DOWN register of a virtual function, or one
without a child selected. It reads 0 and ignores writes (R593). -/
def State.mbxGone (s : State) (fn : Nat) (name : String) : Bool :=
  if name == "VRT_MBX_UP_TX" then (s.mbxChild fn 0).isNone
  else if name == "VRT_MBX_DOWN_TX" then (s.mbxChild fn 1).isNone
  else name == "VRT_MBX_DOWN_SEL" && !isPf fn

/-- A SEND of `inst` into a slot (R585). -/
def State.mbxSend (s : State) (child : Nat) (down : Bool) (message tag : Nat) (notify : Bool) : State :=
  let from_ := (mbxEnds child down).1
  if (s.mbx child down).full then s.countOf from_ .VRT_MBX_DROP_COUNT 1
  else (s.setMbx child down ⟨message, tag, s.instGen from_, true, notify⟩).mbxArrived child down

/-- A read that returned bits 63:32 of a receive register (R586, R587). -/
def State.mbxRead (s : State) (child : Nat) (down : Bool) : State :=
  let x := s.mbx child down
  if !x.full then s else
    let s := s.setMbx child down { x with full := false, notify := false }
    let e := mbxEnds child down
    if x.notify then s.raise (.inst e.1) evMailbox (2 ^ 30 + e.2) 0 (x.tag + x.gen * 2 ^ 16) else s

/-- ARRIVED for every slot that waits for an instance that has just created a default lantern queue (R588). -/
def State.mbxNewQueue (s : State) (inst : Nat) : State :=
  s.syn.slots.foldl (fun s e =>
    let child := e.1 / 2
    let down := e.1 % 2 == 1
    if e.2.full && (mbxEnds child down).2 == inst then s.mbxArrived child down else s) s

/-- DESTROY_INSTANCE empties both slots (R588). -/
def State.mbxClear (s : State) (inst : Nat) : State :=
  { s with syn := { s.syn with slots := SMap.del (SMap.del s.syn.slots (slotKey inst false)) (slotKey inst true) } }

end Sys2Proof.Machine
end

