-- ==== Sys2Proof/Machine/QueueCmds.lean ====
section
/-!
DEFINITION. The operations behind the commands that create, destroy, stop and resume queues, and behind the doorbell and consumer
writes of tenants (R158 to R164, R169, R170, R173, R174, R176 to R186).
-/

namespace Sys2Proof.Machine

/-! ## Pools (R690, R692) -/

/-- Whether instance `n` may take one more of a pooled resource of `total` pieces: its own allotment, or, for a physical
function, what no allotment and no physical function holds. `scope` are the instances that share the pool. -/
def State.hasRoom (s : State) (n total : Nat) (quota : Inst → Nat) (used : Nat → Nat) (scope : Nat → Bool) : Bool :=
  if isPf n then
    decide (sumList (s.vrt.insts.map fun e =>
      if !scope e.1 then 0 else if isPf e.1 then used e.1 else quota e.2) < total)
  else match s.inst n with
    | some i => decide (used n < quota i)
    | none => false

/-- Count the entries of a table that belong to an instance. -/
def countIn {α : Type} (m : SMap α) (p : α → Bool) : Nat := (m.filter fun e => p e.2).length

/-- A free choice of a number below `total` that is not a key of a table (log 23). -/
def State.pickNumber {α : Type} (s : State) (m : SMap α) (total : Nat) : Option Nat :=
  let v := s.freeVal % total
  (SMap.freeFrom m (total - v) v).orElse fun _ => SMap.freeFrom m total 0

/-- The doorbell pages on which an instance may have work queues (R690, R692). -/
def State.bellPages (s : State) (n : Nat) : List Nat :=
  if isPf n then
    (List.range 128).filter fun g => s.vrt.insts.all (fun e => !e.2.dbPages.contains g) &&
      s.q.wqs.all fun e => e.1 / 512 != g || e.2.inst == n
  else ((s.inst n).map (·.dbPages)).getD []

/-- The first free work queue number of a page. -/
def State.freeOnPage (s : State) (g : Nat) : Option Nat :=
  match SMap.freeFrom s.q.wqs 512 (g * 512) with
  | some n => some n
  | none => none

/-- A free work queue number on the pages of an instance; which page is a free choice (log 23). -/
def State.pickWq (s : State) (n : Nat) : Option Nat :=
  let pages := (s.bellPages n).filter fun g => (s.freeOnPage g).isSome
  if pages = [] then none else s.freeOnPage (s.choose pages 0)

/-! ## Creation (R177, R178) -/

/-- Whether a ring is 4 KiB aligned and wholly mapped with a right (R146). -/
def State.ringMapped (s : State) (n ring bytes : Nat) (acc : Access) : Bool := ring % 4096 == 0 && s.mappedAll n ring bytes acc

/-- The body of CREATE_WORK_QUEUE (R177, R178). -/
def State.createWq (s : State) (n ring log2 c : Nat) : AdmRes :=
  match s.inst n, s.cq c with
  | none, _ => .field s
  | _, none => .fail 0x86 s
  | some _, some q =>
    if q.inst ≠ n then .fail 0x86 s
    else if log2 < 6 ∨ 16 < log2 then .fail 0x80 s
    else if q.state = .error then .fail 0x81 s
    else if !s.ringMapped n ring (64 * 2 ^ log2) .read then .fail 0x82 s
    else match s.pickWq n with
      | none => .fail stResource s
      | some w =>
        let g := SMap.getD s.q.wqGens w 0
        .ok [(16, w), (8, g), (32, 8 * w)]
          (s.drawn.setWq w ⟨n, g, .enabled, true, 0, c, ring, log2, 0, 0, 0, [], [], 0, [], none, [], [], true, [], (0, 0)⟩)

/-- The body of CREATE_COMPLETION_QUEUE (R177, R178). -/
def State.createCq (s : State) (n ring log2 lantern : Nat) : AdmRes :=
  match s.inst n, s.lq lantern with
  | none, _ => .field s
  | _, none => .fail 0x86 s
  | some _, some l =>
    if l.inst ≠ n then .fail 0x86 s
    else if log2 < 6 ∨ 20 < log2 then .fail 0x80 s
    else if l.error then .fail 0x81 s
    else if !s.ringMapped n ring (32 * 2 ^ log2) .write then .fail 0x82 s
    else if !s.hasRoom n 65536 (·.cqPool) (fun i => countIn s.q.cqs fun q => q.inst == i) (fun _ => true) then .fail stResource s
    else match s.pickNumber s.q.cqs 65536 with
      | none => .fail stResource s
      | some c => .ok [(16, c)] (s.drawn.setCq c ⟨n, ring, log2, lantern, .active, 0, 0, 0, false, false, [], [], true⟩)

/-- The offset of `QPE_LQ_CONSUMER` of lantern queue `l` in the BAR0 of an instance's function (R190, R720). -/
def consumerOffset (n l : Nat) : Nat := if isPf n then (Reg.QPE_LQ_CONSUMER l).addr else 0x2000 + 8 * l

/-- The body of CREATE_EVENT_QUEUE (R177, R178, R735). -/
def State.createLq (s : State) (n ring log2 vector dflt : Nat) : AdmRes :=
  match s.inst n with
  | none => .field s
  | some _ =>
    if vectorsOf n ≤ vector then .field s
    else if log2 < 6 ∨ 16 < log2 then .fail 0x80 s
    else if !s.ringMapped n ring (32 * 2 ^ log2) .write then .fail 0x82 s
    else if !s.hasRoom n 512 (·.lqPool) (fun i => countIn s.q.lqs fun q => q.inst == i) (fun _ => true) then .fail stResource s
    else match s.pickNumber s.q.lqs 512 with
      | none => .fail stResource s
      | some l =>
        let s := s.drawn.setLq l ⟨n, ring, log2, vector, 0, 0, false, false, false, 0, [], true⟩
        let s := if dflt = 1 then (s.updInst n fun i => { i with dfltLq := some l }).mbxNewQueue n else s
        .ok [(9, l), (32, consumerOffset n l)] s

/-! ## Destruction (R178, R179) -/

/-- Remember that a generation of a work queue number has been retired now (R708). -/
def State.retireWqGen (s : State) (n gen : Nat) : State :=
  { s with vrt := { s.vrt with retiredWqGens := s.vrt.retiredWqGens ++ [(n * 256 + gen, s.now)] } }

/-- Remove a work queue: its number keeps the next generation, and the queue pair that it fed is unbound (R179, R249). -/
def State.removeWq (s : State) (n : Nat) : State :=
  match s.wq n with
  | none => s
  | some w =>
    let s := { s with q := { s.q with
        wqs := SMap.del s.q.wqs n
        wqGens := SMap.put s.q.wqGens n ((w.gen + 1) % 256) } }
    let s := { s with qpe := { s.qpe with
        qps := SMap.mapv s.qpe.qps fun _ q => if q.wq = some n then { q with wq := none, dirty := q.cached } else q } }
    (s.retireWqGen n w.gen).disown fun q => match q with | .ringFetch m _ => m == n | _ => false

/-- Remove a completion queue: the records held for it, and those still on their way from a queue pair, go to the gutter (R179). -/
def State.removeCq (s : State) (c : Nat) : State :=
  match s.cq c with
  | none => s
  | some q =>
    let es := s.qpe.errors.filter fun e => e.cq == c
    let s := { s with
      q := { s.q with cqs := SMap.del s.q.cqs c }
      qpe := { s.qpe with errors := s.qpe.errors.filter fun e => e.cq != c } }
    let s := es.foldl (fun s _ => s.gutter gRecord) s
    q.held.foldl (fun s r => (s.gutter gRecord).raiseAll r.after) s

/-- Remove a lantern queue: its held events are dropped and counted (R179). -/
def State.removeLq (s : State) (l : Nat) : State :=
  match s.lq l with
  | none => s
  | some q =>
    let s := { s with q := { s.q with lqs := SMap.del s.q.lqs l } }
    let s := s.updInst q.inst fun i => if i.dfltLq = some l then { i with dfltLq := none } else i
    s.countN .QPE_LANTERN_LOST_COUNT q.held.length

/-! ## Quiesce and resume (R181, R182, R186) -/

/-- The authority of a queue command over the instance it names and over the queue's owner (R210). -/
def wqAuth (p : Nat) (s : State) (ps : List Nat) : Bool :=
  reach p (par ps 0) && reach p (((s.wq (par ps 1)).map (·.inst)).getD (par ps 0))

/-! ## Doorbells and consumers (R158 to R164, R169, R170, R173, R174, R195) -/

/-- The lantern queue of a function's own write of `QPE_LQ_CONSUMER`; a write to another's queue is ignored, and one to a
queue that does not exist is counted (R195, R720). That one ignored is not counted is the model's choice (log 23). -/
def State.ownLq (s : State) (fn n : Nat) (f : Lq → State → State) : State :=
  match s.lq n with
  | none => s.count .QPE_DOORBELL_DROP_COUNT
  | some l => if l.inst = fn then f l s else s

end Sys2Proof.Machine
end

