-- ==== Sys2Proof/Machine/Revoke.lean ====
section
/-!
DEFINITION. Revocation of skylights and freeing of hall pages (R76 to R86).
-/

namespace Sys2Proof.Machine

/-- Whether a hall address range meets a page of this home. -/
def State.meetsPage (s : State) (base len i : Nat) : Bool :=
  decide (base < pageAddress s.me i + frameBytes) && decide (pageAddress s.me i < base + len)

/-- The modules of a revocation's scope outside its job domain: holders of pages in its range, and the root itself (R76). -/
def State.scopeExtra (s : State) (partition : Nat) (holders : List Nat) : List Nat :=
  (s.me :: holders).eraseDups.filter fun m => !s.member partition m

/-- The holders of the pages of a HALL skylight's range, the target of a page that is moving among them. -/
def State.skyHolders (s : State) (k : Sky) : List Nat :=
  if !k.hall then []
  else (s.hall.pages.filter fun e => s.meetsPage k.base k.len e.1).flatMap fun e =>
    e.2.writer :: (if e.2.state = .moving then [e.2.target] else []) ++ e.2.replicas

/-- Replace a skylight of this module. -/
def State.setSky (s : State) (i : Nat) (k : Sky) : State := { s with hall := { s.hall with sky := SMap.put s.hall.sky i k } }

/-- The next number of a revocation. -/
def State.nextRevoke (s : State) : State := { s with hall := { s.hall with revokes := s.hall.revokes + 1 } }

/-- Begin a revocation (R77 steps 1 and 2). R76 does not say which modules the scope has when this module knows no job domain for the
skylight's partition: the model takes itself and the holders of the range (log 72). -/
def State.beginRevoke (s : State) (i : Nat) (k : Sky) (waiting : List (Nat × Nat)) : State :=
  let s := s.nextRevoke.setSky i { k with state := .revoking, waiting }
  s.treeStart tkRevoke (k.tag * 2 ^ 20 + i) (s.hall.revokes % 2 ^ 32) k.partition (s.scopeExtra k.partition (s.skyHolders k)) []

/-- Take note of a revocation or a freeing, and wait for its drain. -/
def State.addDrain (s : State) (d : Drain) : State :=
  if s.hall.drains.contains d then s else { s with hall := { s.hall with drains := s.hall.drains ++ [d] } }

/-- The revoke notice on a module of the scope (R77 step 3). -/
def State.revokeNotice (s : State) (root key seq partition : Nat) : State :=
  let c := root * 2 ^ 20 + key % 2 ^ 20
  let mark (k : Sky) : Sky := if k.tag = key / 2 ^ 20 then { k with state := .revoking } else k
  let s := { s with hall := { s.hall with
    copies := SMap.upd s.hall.copies c mark, left := SMap.del s.hall.left c, gone := if root = s.me then s.hall.gone else SMap.put s.hall.gone c (key / 2 ^ 20) } }
  let s := s.addDrain ⟨tkRevoke, root, key, seq, partition, 0⟩
  s.cancelOperands fun o _ => o.form == 1 && o.mod == root && o.key == key

/-- The owner's end of a revocation (R77 step 5). -/
def State.revokeDone (s : State) (key : Nat) : State :=
  match SMap.find s.hall.sky (key % 2 ^ 20) with
  | none => s
  | some k =>
    if k.tag ≠ key / 2 ^ 20 ∨ k.state ≠ .revoking then s else
      let s := s.nextRevoke
      let s := s.setSky (key % 2 ^ 20) { k with state := .revoked, revokedAt := s.hall.revokes, waiting := [] }
      k.waiting.foldl (fun s w => (s.reply w.1 w.2 stSuccess 0 []).admStopped w.1) s

/-- The notice of a freeing on a module of the pages' job domain (R86). -/
def State.freeNotice (s : State) (root first count seq partition : Nat) : State :=
  let s := s.addDrain ⟨tkFreePages, root, first, seq, partition, count⟩
  s.cancelOperands fun o len => o.form == 0 && hallHome o.addr == root && decide (hallPage o.addr < first + count) &&
    decide (first ≤ hallPage (o.addr + (len - 1)))

/-- What this module knows of the holders of the pages from `first` on of a home goes (R86). -/
def State.forgetPages (s : State) (home first count : Nat) : State :=
  let mine (key : Nat) : Bool := key / 2 ^ 23 == home && decide (first ≤ key % 2 ^ 23) && decide (key % 2 ^ 23 < first + count)
  { s with plc := { s.plc with
    cache := s.plc.cache.filter fun e => !mine (pageKey e.home e.page)
    forward := s.plc.forward.filter fun e => !mine e.1
    watch := s.plc.watch.filter fun e => !mine (pageKey e.home e.page) } }

/-- Drop what this module holds for a page that is being freed. -/
def State.dropPage (s : State) (key : Nat) : State :=
  ((s.releaseHeld key).releaseIncoming key).forgetPages (key / 2 ^ 23) (key % 2 ^ 23) 1

/-- Whether what was accepted under a skylight and a page falls under a revocation or a freeing. -/
def Drain.holds (d : Drain) (u : Under) : Bool :=
  if d.kind = tkRevoke then u.sky == some (d.root, d.tree)
  else match u.page with
    | some key => key / 2 ^ 23 == d.root && decide (d.tree ≤ key % 2 ^ 23) && decide (key % 2 ^ 23 < d.tree + d.count)
    | none => false

/-- What a receive stream has accepted and not yet performed and acknowledged: the message whose last packet has not come, the requests
whose ACK is owed, and those passed on that are not known to be resolved. -/
def RStream.under (r : RStream) : List Under :=
  (r.accepting.bind Decision.under).toList ++ r.owing.map (·.2) ++ r.passed.filterMap (·.under)

/-- The same of the forwarded requests of a stream. -/
def FStream.under (f : FStream) : List Under :=
  f.decided.filterMap (fun e => if e.2.2.1 then none else e.2.2.2.under) ++ f.passed.filterMap (·.under)

/-- Whether something accepted before the mark of a revocation or a freeing is not yet performed and acknowledged (R77 step 4, R79, R86). -/
def State.drainHeld (s : State) (d : Drain) : Bool :=
  s.qpe.arrivals.any (fun a => ((a.2.decision.bind Decision.under).map d.holds).getD false) ||
    s.qpe.recv.any (fun e => e.2.under.any d.holds) || s.qpe.qps.any (fun e => e.2.rx.under.any d.holds) ||
    s.qpe.fwd.any fun e => e.2.under.any d.holds

/-- The drain of a revocation or freeing is done: the copy or the pages go, and the notice is acknowledged (R77 step 4). -/
def State.drainDone (s : State) (kind root tree : Nat) : State :=
  match s.hall.drains.find? fun d => d.kind == kind && d.root == root && d.tree == tree with
  | none => s
  | some d =>
    if s.drainHeld d then s else
      let s := { s with hall := { s.hall with drains := s.hall.drains.filter (· != d) } }
      let s := if kind = tkRevoke then
          { s with hall := { s.hall with copies := SMap.del s.hall.copies (root * 2 ^ 20 + tree % 2 ^ 20) } }
        else ((s.plc.held.map (·.1) ++ s.plc.incoming.map (·.1)).foldl (fun s e =>
          if e / 2 ^ 23 = root ∧ root ≠ s.me ∧ tree ≤ e % 2 ^ 23 ∧ e % 2 ^ 23 < tree + d.count then s.dropPage e
          else s) s).forgetPages root tree d.count
      s.treeArrive kind root tree d.seq d.partition

/-- Delete a page of this home: its home frame is free (R62, R86). -/
def State.deletePage (s : State) (i : Nat) : State :=
  match s.page i with
  | none => s
  | some g =>
    let s := (s.dropPage (pageKey s.me i)).freeFrame g.frame
    let s := { s with
      hall := { s.hall with pages := SMap.del s.hall.pages i }
      plc := { s.plc with changes := s.plc.changes.filter fun c => c.page != i } }
    s.resumePage (pageKey s.me i)

/-- The runs of consecutive pages of one partition from `first` on; `fuel` is the pages left. -/
def State.pageRuns (s : State) (first : Nat) : Nat → List (Nat × Nat × Nat)
  | 0 => []
  | fuel + 1 =>
    let part := ((s.page first).map (·.partition)).getD 0
    match s.pageRuns (first + 1) fuel with
    | (f, n, q) :: rest => if q = part then (first, n + 1, q) :: rest else (first, 1, part) :: (f, n, q) :: rest
    | [] => [(first, 1, part)]

/-- Begin to free pages (R86): one operation of the tree for each run of one partition. -/
def State.beginFree (s : State) (p k first count : Nat) : State :=
  let s := (List.range count).foldl (fun s i =>
    let s := if ((s.page (first + i)).map (·.step)).getD 0 = 0 then s else s.cancelMove (first + i) true true
    s.updPage (first + i) fun g => { g with freeing := true }) s
  (s.pageRuns first count).foldl (fun (s : State) r =>
    let s := s.nextRevoke
    let seq := s.hall.revokes % 2 ^ 32
    let f : Freeing := ⟨r.1, r.2.1, seq, p, k⟩
    let s := { s with hall := { s.hall with frees := s.hall.frees ++ [f] } }
    s.treeStart tkFreePages r.1 seq r.2.2 (s.scopeExtra r.2.2 []) (beBytes 4 r.2.1)) s

/-- Every module has acknowledged the freeing of a run of pages (R86). -/
def State.freeDone (s : State) (first seq : Nat) : State :=
  match s.hall.frees.find? fun f => f.first == first && f.seq == seq with
  | none => s
  | some f =>
    let s := { s with hall := { s.hall with frees := s.hall.frees.filter (· != f) } }
    let s := (List.range f.count).foldl (fun s i => s.deletePage (f.first + i)) s
    if s.hall.frees.any fun g => g.port == f.port && g.cmd == f.cmd then s
    else (s.reply f.port f.cmd stSuccess 0 []).admStopped f.port

end Sys2Proof.Machine
end

