-- ==== Sys2Proof/Machine/Tables.lean ====
section
/-!
DEFINITION. Translation tables in module HBM and the change of an instance's mappings (R106 to R108, R119 to R126, R693, R835).
-/

namespace Sys2Proof.Machine

/-- The key of the root table of an instance (R106). -/
def rootKey : Nat := 3 * 2 ^ 36

/-- The tables that a leaf needs besides the root: one for each level from its own up (R107). -/
def leafTables (e : Nat × Leaf) : List Nat :=
  ((List.range 3).filter fun l => decide (e.2.size ≤ l)).map fun l => tableKey l e.1

/-- The tables that some mappings need, the root among them. -/
def tablesFor (maps : SMap Leaf) : SMap Nat :=
  maps.foldl (fun (t : SMap Nat) e => (leafTables e).foldl (fun t k => SMap.put t k 0) t) [(rootKey, 0)]

/-- The 2 MiB frames, by number, that a leaf of kind HBM names. -/
def leafFrames (l : Leaf) : List Nat :=
  if l.kind != .hbm then [] else
    (List.range ((l.target + pageBytes l.size - 1) / frameBytes + 1 - l.target / frameBytes)).map (· + l.target / frameBytes)

/-- Whether a mapping names a byte of a frame of module HBM addresses. -/
def namesFrame (maps : SMap Leaf) (f : Nat) : Bool :=
  maps.any fun e => e.2.kind == .hbm && decide (e.2.target < (f + 1) * frameBytes) &&
    decide (f * frameBytes < e.2.target + pageBytes e.2.size)

/-- The address of table place `j` of an instance with a range: the top frame first, then downward (R693). -/
def Inst.tablePlace (i : Inst) (j : Nat) : Nat :=
  i.hbmBase + (i.frames.length - 1 - j / 512) * frameBytes + j % 512 * 4096

/-- The frames that hold tables of an instance, as numbers of module HBM addresses. -/
def tableFrames (tables : SMap Nat) : List Nat := (tables.map fun t => t.2 / frameBytes).eraseDups

/-- The lowest free table place; `fuel` bounds the places. -/
def Inst.freePlace (i : Inst) (tables : SMap Nat) : Nat → Nat → Option Nat
  | 0, _ => none
  | fuel + 1, j => if tables.any fun t => t.2 == i.tablePlace j then i.freePlace tables fuel (j + 1) else some j

/-- Place one table in an instance's range, unless its range is used up or the frame is named by a mapping (R106, R693). -/
def Inst.placeTable (i : Inst) (maps : SMap Leaf) (tables : SMap Nat) (key : Nat) : Option (SMap Nat) :=
  match i.freePlace tables (tables.length + 1) 0 with
  | none => none
  | some j =>
    let a := i.tablePlace j
    if i.frames.length ≤ j / 512 ∨ namesFrame maps (a / frameBytes) then none else some (SMap.put tables key a)

/-- Place one table of a physical function's instance, in a frame that already holds its tables or in a free frame (R690). -/
def State.placePfTable (s : State) (n : Nat) (tables : SMap Nat) (key : Nat) : Option (SMap Nat × State) :=
  let place (f : Nat) : Option Nat :=
    ((List.range 512).map fun j => f * frameBytes + j * 4096).find? fun a => !tables.any fun t => t.2 == a
  match (tableFrames tables).findSome? place with
  | some a => some (SMap.put tables key a, s)
  | none =>
    if s.freeFrames = 0 then none
    else (s.takeFrame (.pf n)).map fun r => (SMap.put tables key (r.1 * frameBytes), r.2)

/-- Place the new tables of an instance; none when its HBM capacity does not suffice (R120). -/
def State.placeTables (s : State) (n : Nat) (i : Inst) (maps : SMap Leaf) : List Nat → SMap Nat → Option (SMap Nat × State)
  | [], t => some (t, s)
  | k :: ks, t =>
    if isPf n then match s.placePfTable n t k with
      | some (t, s) => s.placeTables n i maps ks t
      | none => none
    else match i.placeTable maps t k with
      | some t => s.placeTables n i maps ks t
      | none => none

/-- The further tables that an instance's HBM capacity can still take (R119). -/
def State.tablesLeft (s : State) (n : Nat) : Nat :=
  match s.inst n with
  | none => 0
  | some i =>
    if isPf n then (s.freeFrames + (tableFrames i.tables).length) * 512 - i.tables.length
    else
      let top := i.hbmBase / frameBytes + i.frames.length
      let named := i.maps.foldl (fun b e => if e.2.kind = .hbm then max b ((e.2.target + pageBytes e.2.size - 1) / frameBytes + 1) else b)
        (i.hbmBase / frameBytes)
      (top - named) * 512 - i.tables.length

/-- The address of the entry that a table of a lower level has in its parent (R107). -/
def parentEntry (tables : SMap Nat) (key : Nat) : Nat :=
  let l := key / 2 ^ 36
  let x := key % 2 ^ 36
  SMap.getD tables ((l + 1) * 2 ^ 36 + x / 512) 0 + x % 512 * 8

/-- The address of the entry of a leaf in its table (R107). -/
def leafPlace (tables : SMap Nat) (e : Nat × Leaf) : Nat :=
  SMap.getD tables (tableKey e.2.size e.1) 0 + e.1 / pageBytes e.2.size % 512 * 8

/-- Give an instance new mappings and tables, and write the entries that changed into the tables (R106, R108). A frame of a physical
function that neither a mapping nor a table names any more is free (R835). -/
def State.setMaps (s : State) (n : Nat) (i : Inst) (maps : SMap Leaf) (tables : SMap Nat) : State :=
  let s := s.setInst n { i with maps, tables }
  let gone := i.maps.filter fun e => SMap.find maps e.1 != some e.2
  let come := maps.filter fun e => SMap.find i.maps e.1 != some e.2
  let s := tables.foldl (fun (s : State) t => if SMap.has i.tables t.1 then s else s.hbmWrite t.2 (zeros 4096)) s
  let s := gone.foldl (fun (s : State) e =>
    if SMap.has tables (tableKey e.2.size e.1) then s.hbmWrite (leafPlace tables e) (zeros 8) else s) s
  let s := i.tables.foldl (fun (s : State) t =>
    if SMap.has tables t.1 ∨ !SMap.has tables ((t.1 / 2 ^ 36 + 1) * 2 ^ 36 + t.1 % 2 ^ 36 / 512) then s
    else s.hbmWrite (parentEntry tables t.1) (zeros 8)) s
  let s := tables.foldl (fun (s : State) t =>
    if SMap.has i.tables t.1 ∨ t.1 = rootKey then s else s.hbmWrite (parentEntry tables t.1) (leBytes 8 (tableEntry t.2))) s
  let s := come.foldl (fun (s : State) e => s.hbmWrite (leafPlace tables e) (leBytes 8 (leafEntry e.2))) s
  if !isPf n then s else
    let used := tableFrames tables
    let named (f : Nat) : Bool := used.contains f || namesFrame maps f
    { s with hbm := { s.hbm with frames := SMap.keep s.hbm.frames fun f u => u != .pf n || named f } }

/-- Remove every mapping of an instance; its tables but the root return to its capacity (R106, R126). -/
def State.clearMaps (s : State) (n : Nat) : State :=
  match s.inst n with
  | none => s
  | some i => s.setMaps n i [] (SMap.keep i.tables fun k _ => k == rootKey)

/-- Whether the host, peer or HBM target of a page may be mapped (R120, R693, R734, R835). -/
def State.targetOk (s : State) (n : Nat) (i : Inst) (kind : TKind) (t len : Nat) : Bool :=
  match kind with
  | .host => true
  | .peer => s.peerOk (portOf n) t len
  | .hbm =>
    let fs := (List.range ((t + len - 1) / frameBytes + 1 - t / frameBytes)).map (· + t / frameBytes)
    let noTable (f : Nat) : Bool := !(tableFrames i.tables).contains f
    if !isPf n then decide (i.hbmBase ≤ t) && decide (t + len ≤ i.hbmBase + i.frames.length * frameBytes) && fs.all noTable
    else
      !(s.vrt.insts.any fun e => e.2.frames != [] && decide (e.2.hbmBase < t + len) &&
        decide (t < e.2.hbmBase + e.2.frames.length * frameBytes)) &&
      fs.all fun f => decide (f < framesTotal) && match SMap.find s.hbm.frames f with
        | none => s.stackServes (f / framesPerStack)
        | some u => u == .pf n && noTable f

/-- Take the free frames that the mappings of a physical function's instance name (R835). -/
def State.takeNamed (s : State) (n : Nat) (fs : List Nat) : State :=
  { s with hbm := { s.hbm with frames := fs.foldl (fun m f => SMap.put m f (.pf n)) s.hbm.frames } }

/-- Give an instance its root table (R106). -/
def State.giveRoot (s : State) (n : Nat) : State :=
  match s.inst n with
  | none => s
  | some i => match s.placeTables n i [] [rootKey] [] with
    | some (t, s) => s.setMaps n i [] t
    | none => s

end Sys2Proof.Machine
end

