-- ==== Sys2Proof/Machine/Reset.lean ====
section
/-!
DEFINITION. Snuffing a work queue (R183 to R185) and the reset and destruction of an instance (R699 to R704).
-/

namespace Sys2Proof.Machine

/-! ## Snuff (R183) -/

/-- Judge every descriptor that has been fetched whole; `fuel` bounds them. -/
def judgeAll (n : Nat) : Nat → State → State
  | 0, s => s
  | fuel + 1, s =>
    match s.wq n with
    | some w => if w.wholeNext then judgeAll n fuel (s.judge n) else s
    | none => s

/-- Abort one fetched descriptor whose completion point has not passed (R183 step 3, R793). -/
def State.snuffOp (s : State) (n id status detail : Nat) : State :=
  let s := s.dropWaits n id
  match s.collOf n id with
  | some g => s.collAbort g status detail false
  | none =>
    let p := s.progressOf n id
    let s := match (s.wq n).bind fun w => w.op id with
      | some o => if status = stJobFault then s else s.abortUnposted n o
      | none => s
    (s.cancelLaunches (fun m i => m == n && i == id) status detail).opDone n id status detail false p.1 p.2

/-- Whether a snuff's records are all written, or can no longer be (R183, R169). -/
def State.snuffWritten (s : State) (n : Nat) (w : Wq) : Bool :=
  match s.cq w.cq with
  | some q => q.state == .error || q.held.all fun r => r.wq != some n
  | none => true

/-- End a snuff whose records are written: the queue is IDLE, or ERROR with a completion queue that failed meanwhile (R183, R187, R188). -/
def State.snuffEnd (s : State) (n : Nat) : State :=
  match s.wq n with
  | none => s
  | some w =>
    if w.state ≠ .snuffing || !s.snuffWritten n w then s else
      let s := s.setWq n { w with state := .idle, snuffers := [], quiesce := [] }
      let res := resultBytes [(8, w.gen), (24, w.snuffed.1), (24, w.snuffed.2)]
      let s := w.snuffers.foldl (fun s q => (s.reply q.1 q.2 stSuccess 0 res).admStopped q.1) s
      let s := w.quiesce.foldl (fun s q => (s.reply q.1 q.2 stSuccess 0 []).admStopped q.1) s
      if w.reason = qrCqError then s.wqError n qrCqError else s

/-- A descriptor whose first unit has been read and whose last unit a read in flight carries counts as fetched (R162): it becomes an
operation with what is known of it. -/
def State.fetchedPart (s : State) (n : Nat) : State :=
  match s.wq n with
  | none => s
  | some w =>
    match SMap.find w.units w.judged with
    | none => s
    | some d =>
      let len := dLen d
      if len = 0 ∨ distance w.judged w.fetch < len then s
      else { s with q := { s.q with nextOp := s.q.nextOp + 1 } }.setWq n { w with
        ops := w.ops ++ [mkOp s.q.nextOp w.judged len d .ready none (w.bellsAt w.judged)], judged := advance w.judged len }

/-- Snuff a work queue: its generation advances, what it has fetched is aborted with a status, and the rest is skipped (R183, R793), with the
descriptors of which no unit has come. What has been fetched whole is judged first, so that a bad one keeps its own outcome, and from a
descriptor of bad LENGTH on everything is skipped and counted (R185; log 77). A followed CHAIN whose list is aborted is aborted too. -/
def State.snuff (s : State) (n status detail : Nat) : State :=
  match s.wq n with
  | none => s
  | some w =>
    let s := (judgeAll n (w.units.length + 1) s).fetchedPart n
    match s.wq n with
    | none => s
    | some w =>
      let open_ := w.ops.filter fun o => o.phase != .done && o.phase != .stuck
      let ops := (w.ops.filter fun o => !(o.phase == .stuck && o.wrote)).map fun o =>
        if o.phase = .stuck then { o with phase := .done }
        else if o.phase = .listRun then { o with status, detail } else o
      let s := (s.retireWqGen n w.gen).setWq n { w with
        state := .snuffing, enable := false, reason := 0, gen := (w.gen + 1) % 256, ops, units := [], reading := [],
        snuffed := (open_.length, distance w.judged w.doorbell) }
      let s := open_.foldl (fun s o => s.snuffOp n o.id status detail) s
      let s := (s.retire n).updWq n fun w => { w with
        head := w.doorbell, fetch := w.doorbell, judged := w.doorbell, bellLog := [] }
      s.snuffEnd n

/-! ## The steps of a reset (R700) -/

/-- Count the waits of an instance's own operations on its own wick queues and barriers, whose records its reset sends to the
gutter (R579, R580). -/
def State.ownWaits (s : State) (n : Nat) : State :=
  let mine (wq : Nat) : Bool := ((s.wq wq).map (·.inst)) == some n
  let a := sumList (s.syn.wicks.map fun e => if e.2.inst ≠ n then 0 else
    (e.2.waiters.filter fun x => match x.kind with | .consume wq _ => mine wq | .program _ _ => false).length)
  let b := sumList (s.syn.bars.map fun e => if e.2.inst ≠ n then 0 else (e.2.waits.filter fun x => mine x.1).length)
  (List.range (a + b)).foldl (fun s _ => s.gutter gStaleGeneration) (s.countN .SYN_OWNER_RESET_COUNT (a + b))

/-- Snuff and destroy a work queue without a record (R700 step 3). A QUIESCE or SNUFF_QUEUE that waits for it replies ABORTED
(R181). -/
def State.dropWq (s : State) (n : Nat) : State :=
  match s.wq n with
  | none => s
  | some w =>
    let s := w.ops.foldl (fun (s : State) o =>
      let s := s.dropWaits n o.id
      match s.collOf n o.id with
      | some g => match s.group g, s.coll g with
        | some x, some c => (s.dropColl g).sendAbort g x c.seq c.tc
        | _, _ => s
      | none => s.abortUnposted n o) s
    let s := (s.retireWqGen n w.gen).updWq n fun w => { w with ops := [], gen := (w.gen + 1) % 256, quiesce := [], snuffers := [] }
    let s := s.raiseAll (w.ops.flatMap (·.after))
    let s := (w.quiesce ++ w.snuffers).foldl (fun s q => (s.reply q.1 q.2 stAborted 0 []).admStopped q.1) s
    s.removeWq n

/-- Release the transactions of a queue pair, and drop what it was serving. -/
def State.releaseQp (s : State) (n : Nat) : State :=
  let s := (s.qpTxns n).foldl (fun s e => s.freeTxn e.1) s
  { s with qpe := { s.qpe with arrivals := SMap.keep s.qpe.arrivals fun _ a => a.qpn != some n } }

/-- Remove a queue pair without spilling its context (R255, R700 step 4). -/
def State.removeQp (s : State) (n : Nat) : State :=
  let s := (s.releaseQp n).disown fun q => match q with | .context m => m == n | _ => false
  { s with qpe := { s.qpe with qps := SMap.del s.qpe.qps n } }

/-- A drain is over when none of its requests is outstanding, and it owes none (R123). -/
def UseDrain.over (d : UseDrain) : Bool := d.tags == [] && d.owed.isNone

/-- Whether a write of an instance has still to be made that may reach an old target: one that is held, or a tile's store that is pending at an
HBM arbiter (R123, R128, R476). -/
def State.writesLeft (s : State) (n : Nat) : Bool :=
  s.xlt.dirtyHeld.any (fun x => x.inst == n) || s.hbm.arbs.any fun b => b.2.ports.any fun p => p.2.any fun r => r.store.isSome && match r.entry with
    | some k => match SMap.find s.trn.entries k.1 with
      | some e => e.inst == n || e.order != k.2
      | none => true
    | none => false

/-- The requests under which an instance's translations are in use (R123). -/
def State.usesOf (s : State) (n : Nat) : List (Nat × Nat) :=
  s.hif.ports.flatMap fun e => (e.2.tags.filter fun t => t.2.useInst == some n).map fun t => (e.1, t.1)

/-- Issue the zero-length read behind an instance's posted writes, at an address that they may have had (R123): the state, and the read when
the function cannot issue it. A peer read outside the port's windows in force is not issued, and the use ends as one whose request has failed
(R734). -/
def State.drainRead (s : State) (n : Nat) (target : Option (Nat × Bool)) : Option (Nat × Bool) × State :=
  match target with
  | none => (none, s)
  | some (a, peer) =>
    if peer && !s.peerOk (portOf n) a 0 then (none, s) else
      match s.hostRead n a 0 peer (.drain n) (some n) with
      | some s => (none, s)
      | none => (target, s)

/-- Begin the drain of an instance's uses: its reads outstanding, and a zero-length read behind its posted writes (R123). A command waits
until its function can issue that read; a reset does not (R739; log 71). -/
def State.beginDrain (s : State) (n : Nat) (target : Option (Nat × Bool)) (who : Option (Nat × Nat)) (result : Bytes) : State :=
  let r := s.drainRead n target
  let d : UseDrain := ⟨n, r.2.usesOf n, if who.isSome then r.1 else none, who, result, target⟩
  { r.2 with xlt := { r.2.xlt with drains := r.2.xlt.drains ++ [d] } }

/-- The functions that can issue now issue the zero-length reads that the drains of their instances owe (R123, R739). -/
def State.drainsOwed (s : State) : State :=
  let ds := s.xlt.drains
  ds.foldl (fun (s : State) d =>
    if d.owed.isNone || !s.canIssue d.inst then { s with xlt := { s.xlt with drains := s.xlt.drains ++ [d] } }
    else
      let r := s.drainRead d.inst d.owed
      { r.2 with xlt := { r.2.xlt with drains := r.2.xlt.drains ++ [{ d with owed := r.1, tags := r.2.usesOf d.inst }] } })
    { s with xlt := { s.xlt with drains := [] } }

/-- A request outside HBM that the removed leaves of an instance may have seen. -/
def drainTarget (ls : List Leaf) : Option (Nat × Bool) :=
  (ls.find? fun l => l.kind != .hbm && l.write).map fun l => (l.target, l.kind == .peer)

/-- Free the frames that are used so. -/
def State.freeFramesOf (s : State) (u : FrameUse) : State :=
  { s with hbm := { s.hbm with frames := SMap.keep s.hbm.frames fun _ x => x != u } }

/-- The entries of an instance's transactions, which its reset frees, are noted, so that the responses of its old generation are known
(R701; log 15). -/
def State.reclaim (s : State) (n : Nat) : State :=
  let ks := (s.qpe.txns.filter fun e => e.2.inst == some n).map (·.1)
  { s with qpe := { s.qpe with reclaimed := s.qpe.reclaimed ++ ks } }

/-- Steps 1 to 8 of a reset (R700). -/
def State.resetSteps (s : State) (n : Nat) : State :=
  match s.inst n with
  | none => s
  | some i =>
    let gen := (i.gen + 1) % 256
    let s := { s with vrt := { s.vrt with
      retiredGens := s.vrt.retiredGens ++ [(n * 256 + i.gen, s.now)], lastGen := SMap.put s.vrt.lastGen n gen } }
    let s := (s.setInst n { i with gen, quarantined := false, hold := false }).count .VRT_RESET_COUNT
    let s := s.ownWaits n
    let s := ((s.q.wqs.filter fun e => e.2.inst == n).foldl (fun s e => s.dropWq e.1) s).pruneLaunches
    let s := s.reclaim n
    let s := (s.qpe.qps.filter fun e => e.2.inst == n).foldl (fun s e => s.removeQp e.1) s
    let s : State := { s with qpe := { s.qpe with errors := s.qpe.errors.filter fun e => !(s.cq e.cq).any fun c => c.inst == n } }
    let s := (s.q.cqs.filter fun e => e.2.inst == n).foldl (fun s e => s.removeCq e.1) s
    let s := (s.q.lqs.filter fun e => e.2.inst == n).foldl (fun s e => s.removeLq e.1) s
    let s := (s.wickOwnerReset n).barOwnerReset n
    let s := { s with
      trn := { s.trn with programs := SMap.mapv s.trn.programs fun _ p => if p.inst = n then { p with dead := true } else p }
      sec := { s.sec with keys := SMap.keep s.sec.keys fun _ k => k.inst != n } }
    let s := s.trn.programs.foldl (fun s e => if e.2.dead then s.unloadDead e.1 else s) s
    let s := i.dirty.foldl (fun s e => s.dirtyClose n e.1) s
    let s := s.hall.sky.foldl (fun s e => if e.2.inst = n ∧ e.2.state = .open_ then s.beginRevoke e.1 e.2 [] else s) s
    let s := (s.clearMaps n).updInst n fun i => { i with dfltLq := none }
    let s := s.giveUp (portOf n) fun t => t.useInst == some n
    let s := { s with xlt := { s.xlt with dirtyHeld := s.xlt.dirtyHeld.filter fun x => x.inst != n } }
    s.beginDrain n (drainTarget (i.maps.map (·.2))) none []

/-- Whether a generation of an instance is in quarantine (R702). -/
def State.genQuarantined (s : State) (n gen : Nat) : Bool :=
  s.vrt.retiredGens.any fun r => r.1 == n * 256 + gen && decide (s.now < r.2 + s.comF .VRT_GEN_CFG 15 0 * 1000000)

/-- A cause resets or destroys an instance; a destruction waits for a reset that runs (R691, R697, R699, R702, R704). -/
def State.resetInst (s : State) (n : Nat) (destroy : Bool) (who : List (Nat × Nat)) : State :=
  match s.inst n with
  | none => s
  | some i =>
    if i.state = .resetting ∧ destroy then s.setInst n { i with doomed := some (i.doomed.getD [] ++ who) }
    else if i.state ≠ .active then s.setInst n { i with waitReply := i.waitReply ++ who }
    else
      let s := s.setInst n { i with state := if destroy then .destroying else .resetting, waitReply := who }
      if s.genQuarantined n ((i.gen + 1) % 256) then
        (s.setFlag .VRT_ERR 1).updInst n fun i => { i with quarantined := true }
      else s.resetSteps n

/-- A quarantine has ended: the reset that waits for it goes on (R702). -/
def State.resumeReset (s : State) (n : Nat) : State :=
  match s.inst n with
  | none => s
  | some i =>
    if i.quarantined && !s.genQuarantined n ((i.gen + 1) % 256) then s.resetSteps n else s

/-- A window that names the range of an instance that is destroyed is no longer valid (R727). -/
def State.closeWindows (s : State) (i : Inst) : State :=
  let lo := i.hbmBase
  let hi := i.hbmBase + frameBytes * i.frames.length
  s.regs.shadow.foldl (fun (s : State) e =>
    let base := fld e.2 38 21 * frameBytes
    if e.1 % 0x4000000 = Reg.HIF_WIN_BASE.addr ∧ lo ≤ base ∧ base < hi then
      s.setRegOf (e.1 / 0x4000000 - 1) .HIF_WIN_BASE (setFld e.2 0 0 0)
    else s) s

/-- The end of a reset or destruction (R700 step 9, R704). A destruction that waited for the reset begins (R697). -/
def State.endReset (s : State) (n : Nat) : State :=
  match s.inst n with
  | none => s
  | some i =>
    let s := if i.state = .destroying then
        let s := ((s.freeFramesOf (.inst n)).mbxClear n).closeWindows i
        { s with vrt := { s.vrt with insts := SMap.del s.vrt.insts n } }
      else s.setInst n { i with state := .active, waitReply := [], doomed := none }
    let s := i.waitReply.foldl (fun s w =>
      let pkt := (((SMap.find (s.adm1 w.1).cmds w.2).map (·.pkt))).getD []
      (s.reply w.1 w.2 stSuccess 0 (if opcodeOf pkt = 0x00B2 then resultBytes [(8, i.gen)] else [])).admStopped w.1) s
    match i.state, i.doomed with
    | .resetting, some who => s.resetInst n true who
    | _, _ => s

/-- The last use of an invalidated translation of an instance has ended: the unmap or reset that waits goes on (R123). -/
def State.useDrainDone (s : State) (n : Nat) : State :=
  match s.xlt.drains.find? fun d => d.inst == n && d.over && !s.writesLeft n with
  | none => s
  | some d =>
    match d.who with
    | some w =>
      let s := { s with xlt := { s.xlt with drains := s.xlt.drains.erase d } }
      (s.reply w.1 w.2 stSuccess 0 d.result).admStopped w.1
    | none =>
      if ((s.inst n).map (·.dirty)).getD [] ≠ [] then s
      else { s with xlt := { s.xlt with drains := s.xlt.drains.erase d } }.endReset n

end Sys2Proof.Machine
end

