-- ==== Sys2Proof/Machine/Jobs.lean ====
section
/-!
DEFINITION. Job domains, job faults and snapshots (R789 to R798).
-/

namespace Sys2Proof.Machine

/-- Replace a domain. -/
def State.setDomain (s : State) (p : Nat) (d : Domain) : State :=
  { s with jobs := { s.jobs with domains := SMap.put s.jobs.domains p d } }

/-- Update a domain if it exists. -/
def State.updDomain (s : State) (p : Nat) (f : Domain → Domain) : State :=
  { s with jobs := { s.jobs with domains := SMap.upd s.jobs.domains p f } }

/-- Remove a domain. -/
def State.delDomain (s : State) (p : Nat) : State :=
  { s with jobs := { s.jobs with domains := SMap.del s.jobs.domains p } }

/-- A domain whose members have not all been heard of. -/
def newDomain (ms : List Nat) (p k : Nat) : Domain := ⟨ms, false, some (p, k), [], 0, none, [], [], 0, false, none, none⟩

/-- Record a module's epoch from a setup packet (R789). -/
def State.learnEpoch (s : State) (m e : Nat) : State :=
  if s.epochKnown m ∨ m = s.me then s else { s with qpe := { s.qpe with peers := SMap.put s.qpe.peers m e } }

/-! ## Creation (R789, R790) -/

/-- The payload of DOMAIN_SETUP and DOMAIN_READY. -/
def domainPayload (partition word epoch : Nat) : Bytes := slice (beBytes 2 partition ++ zeros 2 ++ beBytes 4 word ++ beBytes 4 epoch) 0 64

/-- DOMAIN_READY on a member (R789). -/
def State.readyAt (s : State) (partition status : Nat) : State :=
  match s.domain partition with
  | none => s
  | some d =>
    match d.waiting with
    | none => s
    | some (p, k) =>
      if status = 0 then
        let s := s.setDomain partition { d with ready := true, waiting := none }
        let pol : Policy := ⟨true, true, 4, 4096, 0⟩
        let s := { s with plc := { s.plc with policies := SMap.put s.plc.policies partition pol } }
        (s.reply p k stSuccess 0 []).admStopped p
      else ((s.delDomain partition).reply p k status 0 []).admStopped p

/-- Send DOMAIN_READY to a module, which may be this one. -/
def State.sendReady (s : State) (partition m status : Nat) : State :=
  if m = s.me then s.readyAt partition status
  else s.control .control 0x31 m s.treeClass partition (domainPayload partition (status * 2 ^ 24) s.qpe.epoch)

/-- Raise a job fault at the end of the command (R791). -/
def State.jobFault (s : State) (partition reason about : Nat) : State :=
  { s with jobs := { s.jobs with faults := s.jobs.faults ++ [(partition, reason, about)] } }

/-- The root judges the DOMAIN_SETUPs of a domain that it knows (R789, R790). -/
def State.domainCheck (s : State) (partition : Nat) : State :=
  match s.domain partition with
  | none => s
  | some d =>
    let mine := s.jobs.setups.filter fun x => x.1 == partition
    let crc := listCrc partition d.members
    let clear (s : State) : State := { s with jobs := { s.jobs with setups := s.jobs.setups.filter fun x => x.1 != partition } }
    if d.ready then
      mine.foldl (fun s x =>
        if x.2.2.1 ≠ crc then s.sendReady partition x.2.1 0x81
        else
          let s := s.sendReady partition x.2.1 0
          if d.lost.contains x.2.1 then s.jobFault partition 5 x.2.1 else s) (clear s)
    else if mine.any fun x => x.2.2.1 != crc then
      (d.members ++ mine.map (·.2.1)).eraseDups.foldl (fun s m => s.sendReady partition m 0x81) (clear s)
    else if d.members.all fun m => mine.any fun x => x.2.1 == m then
      d.members.foldl (fun s m => s.sendReady partition m 0) (clear s)
    else s

/-- A DOMAIN_SETUP reaches the root. -/
def State.domainSetupIn (s : State) (partition m crc epoch : Nat) : State :=
  let s := s.learnEpoch m epoch
  let rest := s.jobs.setups.filter fun x => !(x.1 == partition && x.2.1 == m)
  ({ s with jobs := { s.jobs with setups := rest ++ [(partition, m, crc, epoch)] } }).domainCheck partition

/-- The lowest-numbered module of a list. -/
def rootOf (ms : List Nat) : Nat := ms.foldl min (ms.headD 0)

/-- Send this module's DOMAIN_SETUP (R789). -/
def State.sendDomainSetup (s : State) (partition : Nat) (ms : List Nat) : State :=
  let crc := listCrc partition ms
  if rootOf ms = s.me then s.domainSetupIn partition s.me crc s.qpe.epoch
  else s.control .control 0x30 (rootOf ms) s.treeClass partition (domainPayload partition crc s.qpe.epoch)

/-- Whether this module is a member of a partition or holds an object of it (R789 check 2). -/
def State.partitionInUse (s : State) (p : Nat) : Bool :=
  (s.domain p).isSome || s.qpe.qps.any (fun e => e.2.partition == p)
    || s.hall.sky.any (fun e => e.2.partition == p && e.2.state != .revoked) || s.hall.pages.any (fun e => e.2.partition == p)
    || s.syn.wicks.any (fun e => e.2.partition == p) || s.trn.programs.any (fun e => e.2.partition == p)
    || s.col.groups.any (fun e => e.2.partition == p)

/-! ## Faults (R791 to R796) -/

/-- Raise JOB_FAULT (R796): kind 1 QUENCHED, 2 CLEARED. -/
def State.faultEvent (s : State) (kind partition : Nat) (q : Quench) : State :=
  let cut := ((s.domain partition).map (·.lastCut)).getD 0
  let insts := ((s.qpe.qps.filter fun e => e.2.partition == partition).map (·.2.inst)).eraseDups.filter (!isPf ·)
  let say (s : State) (target : EventTo) : State :=
    s.raise target evJobFault (kind * 2 ^ 24 + q.reason * 2 ^ 16 + partition) (q.seq + q.raiser * 2 ^ 32) cut
  insts.foldl (fun s n => say s (.inst n)) (say s .pfs)

/-- Raise a job fault of a partition, unless a quench of it is in progress (R792). The notice lists the modules that it marks as
lost or clears, and the epoch of one that rejoins (log 26). -/
def State.raiseFault (s : State) (partition reason about : Nat) : State :=
  match s.domain partition with
  | none => s
  | some d =>
    if !d.ready || (match d.fault with | some q => !q.complete | none => false) then s else
      let s := if reason = 5 then s.setDomain partition { d with lost := d.lost.filter (· != about) } else s
      let ms := if reason = 4 then d.lost else if reason = 5 then [about] else []
      s.treeStart tkJobFault partition ((d.faultSeq + 1) % 2 ^ 32) partition [] (beBytes 1 reason ++ beBytes 3 s.me ++ zeros 4 ++
        beBytes 8 s.hallTime ++ lostField 5 ms ++ beBytes 4 (s.peerEpoch about))

/-- The work queues that feed queue pairs of a partition. -/
def State.jobWqs (s : State) (partition : Nat) : List Nat :=
  (s.q.wqs.filter fun e => ((e.2.qp.bind s.qp).map (·.partition)) == some partition).map (·.1)

/-- Quench a partition on this module (R793). -/
def State.quench (s : State) (partition : Nat) : State :=
  let wqs := s.jobWqs partition
  let s := (s.col.groups.filter fun e => e.2.partition == partition).foldl (fun s e =>
    let s := (s.collQuench e.1).dropGroupTrees e.1
    match s.bar e.1 with
    | none => s
    | some b =>
      let s := b.waits.foldl (fun (s : State) w => s.opFail w.1 w.2.1 stJobFault 0) s
      s.setBar e.1 { b with
        instance_ := 0, arrived := 0, arrivedNext := 0, participants := b.next, sent := false, releaseAt := none, due := none,
        waits := [] }) s
  let s := wqs.foldl (fun s n => s.snuff n stJobFault 0) s
  let s := (s.qpe.qps.filter fun e => e.2.partition == partition).foldl (fun s e =>
    if e.2.connected then s.qpError e.1 stJobFault stJobFault
    else (s.qpTxns e.1).foldl (fun s t => s.freeTxn t.1) s) s
  let s := (s.syn.wicks.filter fun e => e.2.partition == partition).foldl (fun s e =>
    let ws := ((s.wick e.1).map (·.waiters)).getD []
    let s := ws.foldl (fun s x => s.endWaiter e.1 x stJobFault 0) s
    match s.wick e.1 with
    | some w => s.setWick e.1 { w with count := 0, pend := 0, produced := 0, consumed := 0 }
    | none => s) s
  let s := s.cancelPartition partition
  let s := (s.hall.pages.filter fun e => e.2.partition == partition && e.2.step != 0).foldl (fun s e => s.cancelMove e.1 true true) s
  -- vacant barriers arrive by themselves again
  (s.col.groups.filter fun e => e.2.partition == partition).foldl (fun s e => s.barGo e.1) s

/-- A quench ends a snapshot in progress (R793). -/
def State.quenchSnap (s : State) (partition : Nat) : State :=
  match s.domain partition with
  | none => s
  | some d =>
    let s := s.setDomain partition { d with stopped := false, snap := none, drain := none }
    match d.snap with
    | some (p, k) => (s.reply p k stJobFault 0 []).admStopped p
    | none => s

/-- Whether a quench's records have all been written (R793). -/
def State.quenchWritten (s : State) (q : Quench) : Bool :=
  q.wqs.all fun n => match s.wq n with
    | some w => match s.cq w.cq with
      | some c => c.state == .error || c.held.all fun r => r.wq.isSome && r.wq != some n
      | none => true
    | none => true

/-- Complete the quench of a partition once its records are written: QUENCHED is raised and the notice is acknowledged. -/
def State.quenchGo (s : State) (partition : Nat) : State :=
  match s.domain partition with
  | none => s
  | some d =>
    match d.fault with
    | none => s
    | some q =>
      if q.complete || !s.quenchWritten q then s else
        let q := { q with complete := true }
        let s := s.setDomain partition { d with fault := some q }
        (s.faultEvent 1 partition q).treeArrive tkJobFault q.raiser partition q.seq partition

/-- A member leaves a domain that has been dissolved (R795). -/
def State.leaveDomain (s : State) (partition : Nat) : State :=
  let s := s.removeCadence partition
  let s := (s.col.groups.filter fun e => e.2.partition == partition).foldl (fun s e => s.dropGroup e.1) s
  ({ s with plc := { s.plc with policies := SMap.del s.plc.policies partition } }).delDomain partition

/-- The clearing of a fault on this module (R792 step 4, R795). -/
def State.faultClear (s : State) (partition root seq : Nat) : State :=
  match s.domain partition with
  | none => s
  | some d =>
    match d.fault with
    | none => s
    | some q =>
      if q.seq ≠ seq ∨ q.raiser ≠ root then s else
        let s := s.faultEvent 2 partition q
        let s := s.setDomain partition { d with fault := none, faultCmds := [], owed := [] }
        let s := if q.reason = 0 then s.leaveDomain partition else s
        let s := d.faultCmds.foldl (fun s c => (s.reply c.1 c.2 stSuccess 0 []).admStopped c.1) s
        d.owed.foldl (fun s o => s.jobFault partition o.1 o.2) s

/-- A fault notice reaches this module (R792). -/
def State.faultNotice (s : State) (partition root seq : Nat) (payload : Bytes) : State :=
  match s.domain partition with
  | none => s.treeArrive tkJobFault root partition seq partition
  | some d =>
    if leAt payload 28 1 = 1 then s.faultClear partition root seq
    else if !seqNewer seq d.faultSeq then
      if (d.fault.map fun q => (q.raiser, q.seq)) = some (root, seq) then s
      else s.treeArrive tkJobFault root partition seq partition
    else
      let reason := leAt payload 24 1
      let ms := readLost payload 40
      let lost := if reason = 5 then d.lost.filter (!ms.contains ·) else d.lost
      let d := { d with faultSeq := seq, lost, fault := some ⟨seq, reason, root, s.jobWqs partition, false⟩ }
      let s := (s.setDomain partition d).elog elJobFault 0 reason (partition + seq % 2 ^ 24 * 2 ^ 16)
      let s := if reason = 4 then ms.foldl (fun s m => if m = s.me then s else s.markLost partition m) s else s
      let s := if reason = 5 then ms.foldl (fun s m =>
          if m = s.me then s else { s with qpe := { s.qpe with peers := SMap.put s.qpe.peers m (beNat (slice payload 56 4)) } }) s
        else s
      (s.quenchSnap partition).quench partition

/-- The root's combine of a fault is complete (R792 step 4); members found lost owe a further fault (R794). -/
def State.faultDone (s : State) (partition seq : Nat) (payload : Bytes) (lost : List Nat) : State :=
  let s := if lost = [] then s else s.updDomain partition fun d => { d with owed := d.owed ++ [(4, 0)] }
  match s.treeOp tkJobFault s.me partition seq with
  | some t => s.treeDown t s.treeClass (overlay (slice payload 24 36) 4 [1])
  | none => s

/-! ## Snapshots (R797) -/

/-- A STOP or RELEASE reaches this module. -/
def State.snapNotice (s : State) (partition root seq : Nat) (payload : Bytes) : State :=
  match s.domain partition with
  | none => s.treeArrive tkSnapshot root partition seq partition
  | some d =>
    if leAt payload 24 1 = 1 then
      if d.fault.isSome then s else s.setDomain partition { d with stopped := true, drain := some (root, seq) }
    else
      let s := s.setDomain partition { d with stopped := false, drain := none, lastCut := beNat (slice payload 32 8) }
      s.treeArrive tkSnapshot root partition seq partition

/-- Whether nothing of a partition is in flight or running on this module (R797 step 2). -/
def State.snapDrained (s : State) (partition : Nat) : Bool :=
  !(s.qpe.txns.any fun e => e.2.typ < 0x10 && e.2.pkts.any fun p => p.partition == partition) &&
    !(s.trn.entries.any fun e => e.2.partition == partition && decide (3 ≤ e.2.state))

/-- A STOP's drain is done (R797 step 2). -/
def State.snapDrainDone (s : State) (partition : Nat) : State :=
  match s.domain partition with
  | none => s
  | some d =>
    match d.drain with
    | none => s
    | some (root, seq) =>
      if !s.snapDrained partition then s
      else (s.setDomain partition { d with drain := none }).treeArrive tkSnapshot root partition seq partition

/-- The root's combine of STOP or RELEASE is complete (R797 steps 3 and 5). -/
def State.snapDone (s : State) (partition seq : Nat) (payload : Bytes) : State :=
  match s.domain partition with
  | none => s
  | some d =>
    match d.snap with
    | none => s
    | some (p, k) =>
      if leAt payload 24 1 = 1 then
        s.treeStart tkSnapshot partition ((seq + 1) % 2 ^ 32) partition [] (beBytes 1 2 ++ zeros 7 ++ beBytes 8 s.hallTime)
      else
        let s := s.setDomain partition { d with snap := none }
        (s.reply p k stSuccess 0 (resultBytes [(64, d.lastCut)])).admStopped p

end Sys2Proof.Machine
end

