-- ==== Sys2Proof/Machine/Epoch.lean ====
section
/-!
DEFINITION. The module's own epoch (R321, R551).
-/

namespace Sys2Proof.Machine

/-- The epoch base after an epoch, by the power-on rule (R321). -/
def epochBase (e : Nat) : Nat := if e / 2 ^ 16 % 2 ^ 16 = 0xFFFF then 0x10000 else (e / 2 ^ 16 + 1) * 2 ^ 16

/-- Set the epoch to a new base and record it in the life log (R321, R827, R828). -/
def State.setBase (s : State) (base : Nat) : State :=
  { s with qpe := { s.qpe with epoch := base }, svc := { s.svc with lastEpoch := base } }.lifeLog 3 (leBytes 4 base)

/-- The module epoch advances (R321), with what that means for placement (R551). -/
def State.advanceEpoch (s : State) : State :=
  let e := s.qpe.epoch
  let s := if (e + 1) % 2 ^ 16 = 0 then s.setBase (epochBase e) else { s with qpe := { s.qpe with epoch := e + 1 } }
  s.placementReset

end Sys2Proof.Machine
end

