-- ==== Sys2Proof/Machine/Wire.lean ====
section
/-!
DEFINITION. Frames on a link: the encapsulations of packets, their headers and checks, and link control and MAC Control frames (R299
to R304, R631, R635, R636, R638). IPv6, UDP and IEEE 802.3 fields that the spec names without giving their places stand where their
standards put them (PRESUMED, log 35).
-/

namespace Sys2Proof.Machine

/-! ## Checks -/

/-- The frame check of IEEE 802.3 as the bytes that follow a frame, or the stomped value (R636). -/
def frameCheck (b : Bytes) (stomped : Bool) : Bytes := leBytes 4 (if stomped then 2 ^ 32 - 1 - crc32 b else crc32 b)

/-- A frame with its check, padded to the least frame; one that is ended as bad is cut at the greatest length, 4,224 bytes (R636). -/
def framed (b : Bytes) (stomped : Bool) : Bytes :=
  let b := b ++ zeros (60 - b.length)
  let b := if stomped then b.take 4220 else b
  b ++ frameCheck b stomped

/-- The one's-complement sum of 16-bit words, folded. -/
def onesSum : Bytes → Nat
  | [] => 0
  | [a] => a.toNat * 256
  | a :: b :: rest =>
    let t := a.toNat * 256 + b.toNat + onesSum rest
    t % 65536 + t / 65536

/-- The UDP checksum of a datagram between two IPv6 addresses. -/
def udpCheck (src dst datagram : Bytes) : Nat :=
  let c := 65535 - onesSum (src ++ dst ++ beBytes 4 datagram.length ++ beBytes 4 17 ++ datagram)
  if c = 0 then 65535 else c

/-! ## Addresses (R301, R302) -/

/-- The Ethernet address of a link group of a module (R301). -/
def macOf (m g : Nat) : Bytes := [0x02, 0x4B] ++ beBytes 3 m ++ beBytes 1 g

/-- The EtherType of the module (R301). -/
def State.etherType (s : State) : Nat := s.regF .QPE_XPT_ENCAP 31 16

/-- The IPv6 address of a link group of a module (R302). -/
def State.ipOf (s : State) (m g : Nat) : Bytes :=
  beBytes 16 ((s.reg .QPE_XPT_IPV6_PREFIX).toNat * 2 ^ 64 + m * 16 + g)

/-- The module that a switched hop goes to (R350): the destination, or in hybrid mode the entry module. -/
def State.entryModule (s : State) (dst : Nat) : Nat :=
  let c (d : Nat) : Nat := if s.switchedGroup (2 * d) then coord dst d else coord s.me d
  c 0 + 16 * c 1 + 256 * c 2 + 4096 * c 3

/-! ## Packets (R300, R304) -/

/-- The packet that 58 header bytes and a payload spell (R304). -/
def parsePkt (b : Bytes) (note : Option (Nat × Nat × Nat)) : Pkt :=
  let n (i len : Nat) : Nat := beNat (slice b i len)
  let flags := n 2 1
  let ctrl := n 3 1
  { version := n 0 1, typ := n 1 1, response := bit flags 7, first := bit flags 6, last := bit flags 5, ackReq := bit flags 4,
    forwarded := bit flags 3, encrypted := bit flags 1, form := bits flags 0 0, tc := bits ctrl 7 5, ecn := bits ctrl 4 3,
    route := n 4 1, hops := n 5 1, partition := n 6 2, src := n 8 3 % 2 ^ 17, dst := n 11 3 % 2 ^ 17, stream := n 14 3 % 2 ^ 17,
    srcInstGen := n 17 1, srcEpoch := n 18 4, dstEpoch := n 22 4, srcQpn := n 26 3, dstQpn := n 29 3, psn := n 32 3,
    srcQueueGen := n 35 1, confPsn := n 36 3, status := n 39 1, reason := n 40 1, crypt := n 41 1, txn := n 42 2, length := n 44 2,
    key := n 46 4, remote := n 50 8, payload := b.drop 58, note }

/-- The frame of a packet on link `j` of group `g` (R299 to R302, R316). -/
def State.frameOf (s : State) (p : Pkt) (g j : Nat) (stomped : Bool) : Bytes :=
  let src := macOf s.me g
  if !s.switchedGroup g then
    let far := match (s.link g j).peer with
      | some x => macOf x.mod x.grp
      | none => zeros 6
    framed (far ++ src ++ beBytes 2 s.etherType ++ p.header ++ padded p.payload) stomped
  else
    let h := p.entropy
    let body := { p with ecn := 0 : Pkt }.header ++ padded p.payload
    let from_ := s.ipOf s.me g
    let destIp := s.ipOf (s.entryModule p.dst) g
    let udp (check : Nat) : Bytes :=
      beBytes 2 (0xC000 + h % 2 ^ 14) ++ beBytes 2 s.feat.udpPort ++ beBytes 2 (8 + body.length) ++ beBytes 2 check ++ body
    let ip := beBytes 4 (6 * 2 ^ 28 + (8 * p.tc * 4 + p.ecn) * 2 ^ 20 + h % 2 ^ 20) ++ beBytes 2 (8 + body.length) ++
      beBytes 1 17 ++ beBytes 1 64 ++ from_ ++ destIp
    framed (beBytes 6 (s.reg (.QPE_XPT_NEXT_HOP_MAC g)).toNat ++ src ++ beBytes 2 0x86DD ++ ip ++
      udp (udpCheck from_ destIp (udp 0))) stomped

/-- The packet in a switched frame without its check, or none when it goes to the gutter with cause ENCAP (R303, R316). -/
def State.unwrap (s : State) (g : Nat) (b : Bytes) (note : Option (Nat × Nat × Nat)) : Option Pkt :=
  let ip := slice b 14 40
  let len := beNat (slice ip 4 2)
  let udp := slice b 54 len
  let from_ := slice ip 8 16
  let destIp := slice ip 24 16
  if destIp ≠ s.ipOf s.me g ∨ beNat (slice ip 6 1) ≠ 17 ∨ beNat (slice udp 2 2) ≠ s.feat.udpPort ∨
      onesSum (from_ ++ destIp ++ beBytes 4 udp.length ++ beBytes 4 17 ++ udp) ≠ 65535 then none
  else some { parsePkt (udp.drop 8) note with ecn := bits (beNat (slice ip 1 1)) 5 4 }

/-! ## MAC Control frames (R638) -/

/-- The address of MAC Control frames. -/
def macControl : Bytes := [0x01, 0x80, 0xC2, 0x00, 0x00, 0x01]

/-- A PFC frame that gives one priority a time in quanta. -/
def State.pfcFrame (s : State) (g prio quanta : Nat) : Bytes :=
  framed (macControl ++ macOf s.me g ++ beBytes 2 0x8808 ++ beBytes 2 0x0101 ++ beBytes 2 (2 ^ prio) ++
    (List.range 8).flatMap fun i => beBytes 2 (if i = prio then quanta else 0)) false

/-- A PAUSE frame with a time in quanta. -/
def State.pauseFrame (s : State) (g quanta : Nat) : Bytes :=
  framed (macControl ++ macOf s.me g ++ beBytes 2 0x8808 ++ beBytes 2 0x0001 ++ beBytes 2 quanta) false

/-! ## HELLO frames (R631) -/

/-- A HELLO (R631). -/
structure Hello where
  versionMin : Nat
  versionMax : Nat
  mod : Nat
  grp : Nat
  lnk : Nat
  rings : List Nat
  epoch : Nat
  ready : Bool
  switched : Bool
  lpiReq : Bool
  lpiAck : Bool
  held : Bool
  heldReason : Nat
  wakeUs : Nat
  txStamp : Nat
  echoStamp : Nat
  echoDelay : Nat
  seq : Nat
  deriving DecidableEq, Repr, Inhabited

/-- The 64 payload bytes of a HELLO. -/
def Hello.bytes (h : Hello) : Bytes :=
  slice ([0x00, 0x01] ++ beBytes 1 h.versionMin ++ beBytes 1 h.versionMax ++ beBytes 3 h.mod ++ beBytes 1 (h.grp * 32 + h.lnk * 4) ++
    (List.range 4).flatMap (fun i => beBytes 1 (h.rings.getD i 1)) ++ beBytes 4 h.epoch ++
    beBytes 1 (b2n h.ready + b2n h.switched * 2 + b2n h.lpiReq * 4 + b2n h.lpiAck * 8 + b2n h.held * 16) ++
    beBytes 1 h.heldReason ++ beBytes 2 h.wakeUs ++ beBytes 4 h.txStamp ++ beBytes 4 h.echoStamp ++ beBytes 4 h.echoDelay ++
    beBytes 4 h.seq) 0 64

/-- The HELLO that payload bytes spell. -/
def parseHello (b : Bytes) : Hello :=
  let n (i len : Nat) : Nat := beNat (slice b i len)
  let f := n 16 1
  { versionMin := n 2 1, versionMax := n 3 1, mod := n 4 3 % 2 ^ 17, grp := bits (n 7 1) 7 5, lnk := bits (n 7 1) 4 2,
    rings := (List.range 4).map fun i => n (8 + i) 1, epoch := n 12 4, ready := bit f 0, switched := bit f 1, lpiReq := bit f 2,
    lpiAck := bit f 3, held := bit f 4, heldReason := n 17 1, wakeUs := n 18 2, txStamp := n 20 4, echoStamp := n 24 4,
    echoDelay := n 28 4, seq := n 32 4 }

/-- The frame of a HELLO (R631). -/
def State.helloFrame (s : State) (g : Nat) (h : Hello) : Bytes :=
  framed ([0x01, 0x80, 0xC2, 0x00, 0x00, 0x0E] ++ macOf s.me g ++ beBytes 2 s.etherType ++ h.bytes) false

end Sys2Proof.Machine
end

