-- ==== Sys2Proof/Machine/Time.lean ====
section
/-!
DEFINITION. The hall-time unit (R595 to R602, R817): its source, its measurements, and the messages that pass hall time on. The places
of the PTP fields are those of IEEE 1588 (PRESUMED, log 35).
-/

namespace Sys2Proof.Machine

/-! ## Frames sent on a link -/

/-- Send a frame on a link: it is counted (R654). A group without the address of its switch sends none (R345). -/
def State.sendFrame (s : State) (g j : Nat) (data : Bytes) (note : Option (Nat × Nat × Nat)) : State :=
  if !s.addressed g then s else
  ((s.count (.LNK_LCOUNT g j 8)).countN (.LNK_LCOUNT g j 9) data.length).emit (.frame g j data note)

/-! ## The clock -/

/-- One nanosecond: the steered counter moves by one more or one less every 5,000 ns, which is ±200 ppm (R600; log 36). In HOLDOVER it goes on so
without end, which is its last steered frequency (R596). -/
def State.tick (s : State) : State :=
  let run := if s.sch.steer = 0 then 0 else s.sch.steerRun + 1
  let nudge : Int := if run = 5000 then (if 0 < s.sch.steer then 1 else -1) else 0
  { s with
    now := s.now + 1
    hallTime := ((s.hallTime : Int) + 1 + nudge).toNat % 2 ^ 64
    sch := { s.sch with steer := if s.sch.tstate = 3 then s.sch.steer else s.sch.steer - nudge, steerRun := if run = 5000 then 0 else run } }

/-- Enter a state of the hall-time unit (R596). -/
def State.setTime (s : State) (st : Nat) : State :=
  let s := if s.sch.tstate = 2 ∧ st ≠ 2 then s.setFlag .SCH_ERR 4 else s
  { s with sch := { s.sch with tstate := st } }

/-- Load the counter (R600, R601): a gate switch that a forward load passes is late. -/
def State.loadTime (s : State) (t : Nat) : State :=
  let old := s.hallTime
  let mark (l : GateList) : GateList := if old < l.base ∧ l.base ≤ t then { l with late := true } else l
  let s := { s with
    hallTime := t % 2 ^ 64
    sch := { s.sch with steer := 0, steerRun := 0, gates := SMap.mapv s.sch.gates fun _ x => { x with pending := x.pending.map mark } } }
  (s.setFlag .SCH_ERR 3).count .SCH_TIME_LOAD_COUNT

/-- A measured offset from the source (R596, R600). -/
def State.measure (s : State) (off : Int) : State :=
  let lock : Int := s.comF .SCH_TIME_CFG 7 0
  let far : Bool := decide ((s.comF .SCH_TIME_CFG 23 12 * 16 : Nat) < off.natAbs)
  let load (s : State) : State := s.loadTime ((s.hallTime : Int) - off).toNat
  let s := { s with sch := { s.sch with offset := off } }
  match s.sch.tstate with
  | 1 =>
    match s.sch.measured with
    | some m => if ((m - off).natAbs : Int) ≤ lock then { load s with sch := { (load s).sch with measured := none } }.setTime 2
      else { s with sch := { s.sch with measured := some off } }
    | none => { s with sch := { s.sch with measured := some off } }
  | 2 => if far then load s else { s with sch := { s.sch with steer := -off } }
  | 3 =>
    let t := if far then load s else s
    { t with sch := { t.sch with measured := some (if far then 0 else off) } }.setTime 1
  | _ => s

/-! ## Master and parent (R599) -/

/-- The time between Sync messages in ns. -/
def State.syncGap (s : State) : Nat := 1000000 / max 1 (s.comF .SCH_TIME_CFG 31 24)

/-- The group of the first hop towards a module, when no switched hop leads there (R599). -/
def State.timeHop (s : State) (m : Nat) : Option Nat :=
  match s.route { (default : Pkt) with dst := m } none with
  | .group g _ => if s.switchedGroup g then none else some g
  | _ => none

/-- The lowest link of a group that is IN_SERVICE. -/
def State.firstLink (s : State) (g : Nat) : Option Nat := (List.range 8).find? fun j => (s.link g j).state == .inService

/-- The masters that LOCKED senders announce and that may be candidates here (R599). -/
def State.masters (s : State) : List Nat :=
  (s.sch.heard.filter fun a => a.2.locked && !s.switchedGroup (a.1 / 8) && decide (s.now < a.2.at_ + 8 * s.syncGap) && a.2.master != s.me &&
    (s.timeHop a.2.master).isSome).map fun a => a.2.master

/-- Choose master and parent again; a change of the parent passes through ACQUIRING (R599). -/
def State.chooseTime (s : State) : State :=
  let all := (if s.feat.timeMaster then [s.me] else []) ++ s.masters
  match all with
  | [] =>
    let s := { s with sch := { s.sch with master := none, parent := none, steps := 0 } }
    if s.sch.tstate = 1 ∨ s.sch.tstate = 2 then s.setTime 3 else s
  | a :: l =>
    let m := minList a (a :: l)
    if m = s.me then
      if s.sch.master = some m then s
      else
        let s := { s with sch := { s.sch with master := some m, parent := none, steps := 0, measured := none } }
        if s.sch.tstate = 0 then s else s.setTime 1
    else
      let g := (s.timeHop m).getD 0
      match s.firstLink g with
      | none =>
        let s := { s with sch := { s.sch with master := some m, parent := none } }
        if s.sch.tstate = 1 ∨ s.sch.tstate = 2 then s.setTime 3 else s
      | some j =>
        if s.sch.parent = some (8 * g + j) then { s with sch := { s.sch with master := some m } }
        else { s with sch := { s.sch with master := some m, parent := some (8 * g + j), measured := none } }.setTime 1

/-- A link has left service: what it announced is gone (R599). -/
def State.timeLost (s : State) (g j : Nat) : State :=
  let k := 8 * g + j
  { s with sch := { s.sch with heard := SMap.del s.sch.heard k, delays := SMap.del s.sch.delays k, asked := SMap.del s.sch.asked k } }.chooseTime

/-! ## PTP messages (R598) -/

/-- The common header of a PTP message. -/
def ptpHeader (typ len : Nat) (correction specific : Nat) (port : Bytes) (seq : Nat) : Bytes :=
  beBytes 1 typ ++ [0x02] ++ beBytes 2 len ++ [0, 0, 0, 0] ++ beBytes 8 correction ++ beBytes 4 specific ++ port ++ beBytes 2 seq ++ [0, 0]

/-- A PTP timestamp. -/
def ptpTime (t : Nat) : Bytes := beBytes 6 (t / 10 ^ 9) ++ beBytes 4 (t % 10 ^ 9)

/-- The port identity of a link. -/
def State.ptpPort (s : State) (g j : Nat) : Bytes := macOf s.me g ++ [0, 0] ++ beBytes 2 (8 * g + j + 1)

/-- Send a PTP message on a link. -/
def State.sendPtp (s : State) (g j : Nat) (dst msg : Bytes) : State :=
  s.sendFrame g j (framed (dst ++ macOf s.me g ++ beBytes 2 0x88F7 ++ msg) false) none

/-- Send a Sync message on a link (R598). -/
def State.sendSync (s : State) (g j : Nat) : State :=
  let specific := s.sch.master.getD 0 + s.sch.steps * 2 ^ 17 + b2n (s.sch.tstate == 2) * 2 ^ 31
  s.sendPtp g j [0x01, 0x1B, 0x19, 0, 0, 0] (ptpHeader 0 44 0 specific (s.ptpPort g j) s.sch.syncs ++ ptpTime s.hallTime)

/-- Send a Pdelay_Req on a link (R598). -/
def State.sendPdelay (s : State) (g j : Nat) : State :=
  let seq := s.sch.syncs % 2 ^ 16
  let s := { s with sch := { s.sch with asked := SMap.put s.sch.asked (8 * g + j) (seq, s.hallTime) } }
  s.sendPtp g j [0x01, 0x80, 0xC2, 0x00, 0x00, 0x0E] (ptpHeader 2 54 0 0 (s.ptpPort g j) seq ++ ptpTime s.hallTime ++ zeros 10)

/-- Send Sync messages on each direct link in service, and every eighth time a Pdelay_Req (R598). -/
def State.syncSend (s : State) : State :=
  let ls := (List.range 64).filter fun k => !s.switchedGroup (k / 8) && (s.link (k / 8) (k % 8)).state == .inService
  let ask := s.sch.syncs % 8 == 0
  let s := ls.foldl (fun (s : State) k =>
    let s := s.sendSync (k / 8) (k % 8)
    if ask then s.sendPdelay (k / 8) (k % 8) else s) s
  { s with sch := { s.sch with syncs := s.sch.syncs + 1 } }

/-- The signed nanoseconds of a correction field. -/
def correctionNs (b : Bytes) : Int :=
  let v := beNat b
  (if v < 2 ^ 63 then (v : Int) else (v : Int) - 2 ^ 64) / 65536

/-- Whether a PTP message is one that the module takes (R598): one-step, domain 0. -/
def ptpTaken (m : Bytes) (typ : Nat) : Bool := leAt m 0 1 % 16 == typ && leAt m 4 1 == 0 && !bit (leAt m 6 1) 1

/-- Count a PTP message that is ignored (R598). -/
def State.ptpIgnored (s : State) : State := s.count .SCH_PTP_IGNORE_COUNT

/-- A Sync message received on a link (R598, R599). -/
def State.syncIn (s : State) (g j : Nat) (m : Bytes) : State :=
  if !ptpTaken m 0 then s.ptpIgnored else
    let specific := beNat (slice m 16 4)
    let a : Announce := ⟨specific % 2 ^ 17, specific / 2 ^ 17 % 128, bit specific 31, s.now⟩
    let k := 8 * g + j
    let s := { s with sch := { s.sch with heard := SMap.put s.sch.heard k a } }.chooseTime
    if s.sch.parent ≠ some k ∨ !a.locked then s
    else
      let s := { s with sch := { s.sch with steps := (a.steps + 1) % 128 } }
      match SMap.find s.sch.delays k with
      | none => s
      | some d =>
        let sent : Int := (beNat (slice m 34 6) * 10 ^ 9 + beNat (slice m 40 4) : Nat)
        s.measure ((s.hallTime : Int) - sent - correctionNs (slice m 8 8) - d)

/-- A Pdelay_Req received on a link is answered (R598). -/
def State.pdelayReqIn (s : State) (g j : Nat) (m : Bytes) : State :=
  if !ptpTaken m 2 then s.ptpIgnored else
    s.sendPtp g j [0x01, 0x80, 0xC2, 0x00, 0x00, 0x0E]
      (ptpHeader 3 54 (beNat (slice m 8 8)) 0 (s.ptpPort g j) (beNat (slice m 30 2)) ++ zeros 10 ++ slice m 20 10)

/-- A Pdelay_Resp received on a link gives its peer delay (R598). -/
def State.pdelayRespIn (s : State) (g j : Nat) (m : Bytes) : State :=
  if !ptpTaken m 3 then s.ptpIgnored else
    match SMap.find s.sch.asked (8 * g + j) with
    | none => s
    | some (seq, t1) =>
      if seq ≠ beNat (slice m 30 2) ∨ slice m 44 10 ≠ s.ptpPort g j then s
      else
        let d := ((s.hallTime : Int) - t1 - correctionNs (slice m 8 8)) / 2
        { s with sch := { s.sch with
          asked := SMap.del s.sch.asked (8 * g + j), delays := SMap.put s.sch.delays (8 * g + j) d.toNat } }

/-- A PTP message received on a link: a type that the module does not take is ignored and counted, and so is any on a link that is not a direct
link in service (R598). -/
def State.ptpIn (s : State) (g j : Nat) (m : Bytes) : State :=
  if s.switchedGroup g ∨ (s.link g j).state ≠ .inService then s.ptpIgnored else
  match leAt m 0 1 % 16 with
  | 0 => s.syncIn g j m
  | 2 => s.pdelayReqIn g j m
  | 3 => s.pdelayRespIn g j m
  | _ => s.ptpIgnored

/-! ## The master's inputs (R597, R817) -/

/-- The offset of the counter from the nearest whole second. -/
def State.secondOffset (s : State) : Int :=
  let r : Nat := s.hallTime % 10 ^ 9
  if r < 500000000 then (r : Int) else (r : Int) - 10 ^ 9

/-- An edge of the 1PPS input (R817). One that no message names gives the offset from the nearest second, for which the counter is loaded only while
TOD_VALID stands (R600). -/
def State.ppsEdge (s : State) : State :=
  let early := match s.sch.lastEdge with
    | some t => decide (s.now < t + 999000000)
    | none => false
  if !s.feat.timeMaster || early then s
  else
    let bare := if s.sch.todNext.isSome then 0 else min 3 (s.sch.edgesBare + 1)
    let named := s.sch.todNext
    let s := { s with sch := { s.sch with
      lastEdge := some s.now, todNext := none, edgesBare := bare,
      todValid := named.isSome || (s.sch.todValid && bare != 3) } }
    let s := s.chooseTime
    if s.sch.master ≠ some s.me then s
    else match named with
      | some sec =>
        let s := if s.sch.tstate = 0 then s.setTime 1 else s
        s.measure ((s.hallTime : Int) - (sec * 10 ^ 9 : Nat))
      | none =>
        let off := s.secondOffset
        if s.sch.todValid ∧ (s.sch.tstate = 2 ∨ s.sch.tstate = 3) then s.measure off
        else if s.sch.tstate = 2 then { s with sch := { s.sch with offset := off, steer := -off } } else s

/-- A time-of-day message (R817): it is taken when it ends in its window, is VALID and has the right CRC. -/
def State.todIn (s : State) (m : Bytes) : State :=
  let inWindow := match s.sch.lastEdge with
    | some t => decide (t + 100000000 ≤ s.now) && decide (s.now ≤ t + 900000000)
    | none => false
  if s.feat.timeMaster && inWindow && slice m 0 3 == [0x4B, 0x54, 0x10] && bit (leAt m 3 1) 0 &&
      leAt m 14 2 == crc16 (slice m 0 14) then
    { s with sch := { s.sch with todNext := some (leAt m 4 8) } }
  else s

/-- The 1PPS source is lost (R596, R817). -/
def State.ppsLost (s : State) : State :=
  if s.feat.timeMaster ∧ s.sch.master = some s.me ∧ (s.sch.tstate = 1 ∨ s.sch.tstate = 2) then s.setTime 3 else s

/-- The parent's messages have stopped (R599). -/
def State.parentLost (s : State) : State :=
  match s.sch.parent with
  | none => s
  | some k =>
    let s := { s with sch := { s.sch with master := none, parent := none, heard := SMap.del s.sch.heard k } }
    if s.sch.tstate = 1 ∨ s.sch.tstate = 2 then s.setTime 3 else s

end Sys2Proof.Machine
end

