-- ==== Sys2Proof/Machine/Links.lean ====
section
/-!
DEFINITION. Links and link groups (R627 to R647): bring-up and departure, HELLOs and cabling checks, connectors and light, low-power
idle, and pause.
-/

namespace Sys2Proof.Machine

/-! ## Groups -/

/-- A link group. -/
def State.lgroup (s : State) (g : Nat) : LinkGroup := SMap.getD s.lnk.groups g default

/-- Replace a link group. -/
def State.setGroupL (s : State) (g : Nat) (x : LinkGroup) : State := { s with lnk := { s.lnk with groups := SMap.put s.lnk.groups g x } }

/-- Replace a link. -/
def State.setLink (s : State) (g j : Nat) (x : Link) : State := { s with lnk := { s.lnk with links := SMap.put s.lnk.links (g * 8 + j) x } }

/-- Update a link. -/
def State.updLink (s : State) (g j : Nat) (f : Link → Link) : State := s.setLink g j (f (s.link g j))

/-- Whether a group has a role in the configured torus (R349, R644). -/
def State.hasRole (s : State) (g : Nat) : Bool := s.switchedGroup g || decide (2 ≤ s.ring (g / 2))

/-- Whether `LNK_GCTL.ENABLE` is set. -/
def State.groupEnabled (s : State) (g : Nat) : Bool := s.regF (.LNK_GCTL g) 31 31 == 1

/-- Whether laser light reaches a group (R646, R773). -/
def State.groupLight (s : State) (g : Nat) : Bool :=
  let b := SMap.getD s.pwr.bays (g / 4) default
  b.present && b.powered && !b.latched

/-- Whether a link is held DOWN by its DISABLE bit (R653). -/
def State.linkDisabled (s : State) (g j : Nat) : Bool := s.regF (.LNK_LCTL g j) 1 1 == 1

/-- The code of a link state (R629). -/
def LinkState.code : LinkState → Nat
  | .off => 0
  | .down => 1
  | .training => 2
  | .exchange => 3
  | .inService => 4
  | .held => 5
  | .quiet => 6
  | .waking => 7

/-- Count events of a link's counter `k` (R654). -/
def State.lcount (s : State) (g j k n : Nat) : State := s.countN (.LNK_LCOUNT g j k) n

/-- FCLK cycles since power-on, low 32 bits (R631). -/
def State.cycles (s : State) : Nat := s.now * 8 / 5 % 2 ^ 32

/-! ## LINK_STATE (R647) -/

/-- Write a link's LINK_STATE record. -/
def State.linkRecord (s : State) (g j : Nat) : State :=
  let l := s.link g j
  let why := if l.state = .held then l.held else if l.state = .down ∨ l.state = .training then l.reason else 0
  let data := l.state.code + l.prev * 2 ^ 8 + why * 2 ^ 16 + (if l.state = .inService then l.version * 2 ^ 24 else 0) +
    ((l.peer.map (·.mod)).getD 0) * 2 ^ 32
  (s.setLink g j { l with prev := l.state.code, recordAt := some s.now, owed := false }).raise .pfs evLinkState (j * 8 + g) data s.qpe.epoch

/-- Whether a link may write a record now: at most one per 1 ms. -/
def State.recordDue (s : State) (l : Link) : Bool :=
  match l.recordAt with
  | some t => decide (t + 1000000 ≤ s.now)
  | none => true

/-- A link has changed state: its record is written, or waits. -/
def State.linkEvent (s : State) (g j : Nat) : State :=
  if s.recordDue (s.link g j) then s.linkRecord g j else s.updLink g j fun l => { l with owed := true }

/-- Write the records that have waited, and those of links whose state is no longer that of their last record (R23). -/
def State.linkOwed (s : State) : State :=
  s.lnk.links.foldl (fun (s : State) e =>
    if (e.2.owed ∨ e.2.state.code ≠ e.2.prev) ∧ s.recordDue e.2 then s.linkRecord (e.1 / 8) (e.1 % 8) else s) s

/-- A LINK_STATE record of a group: 1 PLUGGED, 2 UNPLUGGED, 3 QUIET, 4 WOKEN. -/
def State.groupEvent (s : State) (g kind : Nat) : State := s.raise .pfs evLinkState (kind * 2 ^ 28 + g) 0 s.qpe.epoch

/-! ## Queues of a group (R357, R634) -/

/-- The deficit round robin of a group. -/
def State.drr (s : State) (g : Nat) : Drr := SMap.getD s.sch.drr g ⟨0, [], []⟩

/-- A class whose queues are empty loses its deficit and its mark (R615). -/
def State.drrEmpty (s : State) (g c : Nat) : State :=
  if s.groupQueue g c ≠ [] then s else
    let d := s.drr g
    let d := { d with deficit := SMap.del d.deficit c, visited := d.visited.filter (· != c) }
    { s with sch := { s.sch with drr := SMap.put s.sch.drr g d } }

/-- So for every class of every group, wherever packets have left its queues other than by a start (R615). -/
def State.drrSettle (s : State) : State :=
  s.sch.drr.foldl (fun (s : State) e => (List.range 8).foldl (fun (s : State) c => s.drrEmpty e.1 c) s) s

/-- Assign the packets queued for a group to its links again; without a link they have no route. -/
def State.reassign (s : State) (g : Nat) : State :=
  let s := (List.range 8).foldl (fun (s : State) c => s.sampled (g * 8 + c)) s
  let ps := (List.range 8).flatMap fun j => SMap.getD s.rtr.out (g * 8 + j) []
  let s := { s with rtr := { s.rtr with out := SMap.keep s.rtr.out fun k _ => k / 8 != g } }
  let ls := s.liveLinks g
  ps.foldl (fun (s : State) o =>
    if ls = [] then s.noRoute
    else
      let k := g * 8 + ls.getD (o.pkt.entropy / 65536 % ls.length) 0
      { s with rtr := { s.rtr with out := SMap.put s.rtr.out k (SMap.getD s.rtr.out k [] ++ [o]) } }) s

/-- Clear the buffers of a group: what is queued for it, and what arrived on it and has not gone on (R321). -/
def State.clearBuffers (s : State) (g : Nat) : State :=
  let mine (o : OutPkt) : Bool := o.input / 8 == g
  let s := (List.range 72).foldl (fun (s : State) k => s.sampled k) s
  { s with rtr := { s.rtr with
    out := SMap.mapv (SMap.keep s.rtr.out fun k _ => k / 8 != g) fun _ l => l.filter fun o => !mine o
    eject := s.rtr.eject.filter fun o => !mine o } }

/-- Clear the pauses of a link, in both directions (R634). -/
def State.clearPause (s : State) (g j : Nat) : State :=
  let k := g * 8 + j
  { s with lnk := { s.lnk with
    paused := SMap.keep s.lnk.paused fun p _ => p / 8 != k, pausing := s.lnk.pausing.filter fun p => p / 8 != k } }

/-! ## Bring-up and departure (R629, R630, R633, R634) -/

/-- A link as it stands before bring-up. -/
def Link.fresh (l : Link) (state : LinkState) (step : Nat) : Link :=
  { l with
    state, step, held := 0, version := 0, signal := if state = .off then 0 else l.signal, pcs := false, fec := false, hellos := 0,
    named := none, stamps := [], rtts := [], heard := none, ready := false }

/-- Put a link that is not in service where it belongs: OFF, DOWN, or the first step of bring-up (R629, R630, R644 to R646). -/
def State.linkRest (s : State) (g j : Nat) : State :=
  let x := s.lgroup g
  if !s.domOn (domGroup g) || !s.hasRole g || !s.groupEnabled g then s.updLink g j fun l => l.fresh .off 0
  else if s.linkDisabled g j || !x.contact || !x.plugged || !s.groupLight g then s.updLink g j fun l => l.fresh .down 0
  else s.updLink g j fun l => l.fresh .training 1

/-- Whether a frame was partly received as a link left service is free; it is dropped and counted (R634; log 103). -/
def State.partFrame (s : State) (g j : Nat) : State := if s.freeVal % 2 = 0 then s.drawn else s.drawn.lcount g j 2 1

/-- A link leaves with a reason (R633, R634). One whose group goes off is DOWN with its reason first, and OFF then (R644). -/
def State.linkLeave (s : State) (g j reason : Nat) : State :=
  let was := (s.link g j).state
  if was = .off then s
  else
    let s := if was = .inService then s.partFrame g j else s
    let s := (s.updLink g j fun l => { l with reason }).linkRest g j
    if was.routable then
      let s := (((s.lcount g j 15 1).clearPause g j).reassign g).timeLost g j
      if (s.link g j).state = .off then ((s.updLink g j fun l => { l with state := .down }).linkEvent g j).linkRest g j
      else s.linkEvent g j
    else if (s.link g j).state ≠ was then s.linkEvent g j else s

/-- Every link of a group leaves with a reason; a group in low-power idle leaves that too (R647). -/
def State.groupLeave (s : State) (g reason : Nat) : State :=
  let s := (List.range 8).foldl (fun (s : State) j => s.linkLeave g j reason) s
  let x := s.lgroup g
  let s := s.setGroupL g { x with lpi := 0, asked := false, acked := false }
  if 2 ≤ x.lpi then s.groupEvent g 4 else s

/-- A link returns to the first step because a step overran (R630). -/
def State.linkTimeout (s : State) (g j : Nat) : State :=
  (((s.linkRest g j).setFlag (.LNK_GERR g) 0).lcount g j 15 1)

/-- A link enters service (R630, R644). -/
def State.linkIn (s : State) (g j version : Nat) (peer : Option LinkPeer) : State :=
  let s := s.updLink g j fun l => { l with state := .inService, step := 0, version, peer, ready := true }
  let x := s.lgroup g
  let s := s.setGroupL g { x with idle := false, wasDown := false }
  let s := if x.wasDown then s.advanceEpoch else s
  ((s.linkEvent g j).reassign g).chooseTime

/-- Links of a group that are not in service begin again, after a cause has ended. -/
def State.groupRetry (s : State) (g : Nat) : State :=
  (List.range 8).foldl (fun (s : State) j =>
    let st := (s.link g j).state
    if st = .off ∨ st = .down then s.linkRest g j else s) s

/-- The bring-up of every link of a group that is not in service starts again (R645). -/
def State.groupRestart (s : State) (g : Nat) : State :=
  (List.range 8).foldl (fun (s : State) j => if (s.link g j).state.routable then s else s.linkRest g j) s

/-- A group is powered down (R644). -/
def State.groupDown (s : State) (g reason : Nat) : State :=
  let s := (s.groupLeave g reason).clearBuffers g
  let s := s.setGroupL g { s.lgroup g with wasDown := true, lit := false }
  let s := s.domOff (domGroup g)
  (List.range 8).foldl (fun (s : State) j => s.linkRest g j) s

/-- A group's domain has come on: its transmitters are lit and its links begin bring-up (R644, R645). -/
def State.groupUp (s : State) (g : Nat) : State :=
  let x := s.lgroup g
  (s.setGroupL g { x with lit := x.contact && x.plugged }).groupRetry g

/-- The configured torus or ENABLE has changed: a group without a role or without ENABLE is off, another one wakes (R644). -/
def State.groupJudge (s : State) (g : Nat) : State :=
  if s.hasRole g && s.groupEnabled g then (if s.domOn (domGroup g) then s.groupUp g else s.wakeDom (domGroup g))
  else if s.domOn (domGroup g) then s.groupDown g 8
  else (s.setGroupL g { s.lgroup g with wasDown := true }).domOff (domGroup g)

/-! ## HELLOs (R631, R632) -/

/-- Send a HELLO on a link with the given low-power flags. -/
def State.sendHello (s : State) (g j : Nat) (req ack : Bool) : State :=
  let l := s.link g j
  let now := s.cycles
  let h : Hello :=
    { versionMin := 0x10, versionMax := 0x10, mod := s.me, grp := g, lnk := j, rings := s.feat.rings, epoch := s.qpe.epoch,
      ready := l.ready, switched := s.switchedGroup g, lpiReq := req, lpiAck := ack, held := l.state == .held,
      heldReason := l.held, wakeUs := s.comF (.LNK_GCFG1 g) 25 16, txStamp := now, echoStamp := (l.heard.map (·.1)).getD 0,
      echoDelay := (l.heard.map fun x => (now + 2 ^ 32 - x.2) % 2 ^ 32).getD 0, seq := l.seq }
  let s := s.setLink g j { l with seq := (l.seq + 1) % 2 ^ 32, stamps := (now :: l.stamps).take 64 }
  s.sendFrame g j (s.helloFrame g h) none

/-- The first check of R365 that the far end of a direct link fails, if any. -/
def State.cableFault (s : State) (g j : Nat) (h : Hello) (rtt : Nat) : Option Nat :=
  let d := g / 2
  let n := s.ring d
  let far (e : Nat) : Nat := if e = d then (if g % 2 = 0 then (coord s.me e + 1) % n else (coord s.me e + n - 1) % n) else coord s.me e
  if h.grp ≠ g ^^^ 1 then some 1
  else if (List.range 4).any fun e => coord h.mod e != far e then some 2
  else if h.lnk ≠ j then some 3
  else if h.rings ≠ (List.range 4).map s.ring then some 4
  else if h.switched then some 5
  else if 1120 < rtt then some 6
  else none

/-- The reason for which a link is held, if any, with whether it is a cabling failure (R632). -/
def State.holdReason (s : State) (g j : Nat) (h : Hello) (rtt : Nat) : Option (Nat × Bool) :=
  if 0x10 < max 0x10 h.versionMin ∨ min 0x10 h.versionMax < max 0x10 h.versionMin then some (7, false)
  else match s.cableFault g j h rtt with
    | some c => some (c, true)
    | none => if h.held then some (h.heldReason, false) else none

/-- A link is held out of service (R632, R365). -/
def State.linkHeld (s : State) (g j reason : Nat) (cable : Bool) (peer : Nat) : State :=
  let s := s.updLink g j fun l => { l with state := .held, step := 0, held := reason, ready := false }
  let s := if cable then
      { s with rtr := { s.rtr with cableErr := 2 ^ 31 + reason * 2 ^ 24 + peer * 2 ^ 7 + j * 8 + g } }.setFlag .RTR_ERR 3
    else s
  ((s.setFlag (.LNK_GERR g) 2).linkEvent g j).sendHello g j false false

/-- Step 4 of bring-up: the checks, READY, and service once the peer is READY too (R630, R632). -/
def State.linkJudge (s : State) (g j : Nat) (h : Hello) : State :=
  let l := s.link g j
  let rtt := minList (l.rtts.headD 0) l.rtts
  match s.holdReason g j h rtt with
  | some (r, cable) => s.linkHeld g j r cable h.mod
  | none =>
    let peer : LinkPeer := ⟨h.mod, h.grp, h.lnk, h.versionMax, rtt⟩
    let s := s.updLink g j fun l => { l with step := 4, ready := true, peer := some peer }
    let s := if l.ready then s else s.sendHello g j false false
    if h.ready then s.linkIn g j 0x10 (some peer) else s

/-! ## Low-power idle (R641 to R643) -/

/-- Whether nothing but its links, its queues and its idle time stands against low-power idle of a group (R641). -/
def State.lpiAllowed (s : State) (g : Nat) : Bool :=
  s.regF (.LNK_GCTL g) 30 30 == 1 && !s.switchedGroup g && s.jobs.domains.all (fun d => !d.2.members.contains s.me) &&
    ((s.sch.parent.map (· / 8)) != some g) && ((List.range 8).all fun j => SMap.getD s.rtr.out (g * 8 + j) [] == [])

/-- Whether a link is cabled, as far as the module can tell: it has light, or has completed an exchange (R641; log 103). -/
def Link.cabled (l : Link) : Bool := l.signal != 0 || l.peer.isSome

/-- Whether a group's own conditions for low-power idle hold (R641): every cabled link is in service, and one is. -/
def State.lpiHolds (s : State) (g : Nat) : Bool :=
  s.lpiAllowed g && (s.lgroup g).idle && (s.firstLink g).isSome &&
    ((List.range 8).all fun j => !(s.link g j).cabled || (s.link g j).state == .inService)

/-- The periodic HELLO of a direct link (R630, R642): in EXCHANGE, HELD, IN_SERVICE and WAKING. A group whose conditions for low-power idle hold asks
for it in its next HELLO. -/
def State.helloDue (s : State) (g j : Nat) : State :=
  let st := (s.link g j).state
  if s.switchedGroup g ∨ !(st = .exchange ∨ st = .held ∨ st = .inService ∨ st = .waking) then s
  else
    let x := s.lgroup g
    let s := if st = .inService ∧ x.lpi = 0 ∧ !x.acked ∧ s.lpiHolds g then s.setGroupL g { x with lpi := 1 } else s
    let ask := (s.lgroup g).lpi == 1
    let s := if ask && st == .inService then s.setGroupL g { s.lgroup g with asked := true } else s
    s.sendHello g j ask false

/-- The idle time of a group is over: it asks for low-power idle (R642 step 1). -/
def State.lpiAsk (s : State) (g : Nat) : State :=
  let s := s.setGroupL g { s.lgroup g with idle := true }
  let x := s.lgroup g
  if x.lpi = 0 && s.lpiHolds g then s.setGroupL g { x with lpi := 1 } else s

/-- A group gives up an attempt: a HELLO with both flags clear (R642). -/
def State.lpiDrop (s : State) (g j : Nat) : State :=
  (s.setGroupL g { s.lgroup g with lpi := 0, asked := false, acked := false, idle := false }).sendHello g j false false

/-- A group goes quiet (R642 steps 3 and 4). -/
def State.lpiQuiet (s : State) (g j wakeUs : Nat) : State :=
  let s := s.sendHello g j true true
  let s := (List.range 8).foldl (fun (s : State) i =>
    let st := (s.link g i).state
    if st = .inService then ((s.updLink g i fun l => { l with state := .quiet }).clearPause g i).timeLost g i else s) s
  ((s.clearBuffers g).setGroupL g { s.lgroup g with
    lpi := 2, asked := false, acked := false, lit := false, wasDown := true, wakeUs := max (s.comF (.LNK_GCFG1 g) 25 16) wakeUs }).groupEvent g 3

/-- A QUIET group wakes (R643); its connector emits no light unmated (R645). -/
def State.lpiWake (s : State) (g : Nat) : State :=
  let x := s.lgroup g
  if x.lpi ≠ 2 then s else
    (List.range 8).foldl (fun (s : State) j =>
      if (s.link g j).state = .quiet then
        s.updLink g j fun l => { l with state := .waking, pcs := false, fec := false, hellos := 0 } else s)
      (s.setGroupL g { x with lpi := 3, lit := x.contact && x.plugged })

/-- A link of a QUIET group has left it, which fails a condition of R641: the group wakes, or, with no link quiet any more, is in low-power idle no
longer (R643). -/
def State.lpiLeft (s : State) (g : Nat) : State :=
  let x := s.lgroup g
  if x.lpi ≠ 2 then s
  else if (List.range 8).any fun j => (s.link g j).state == .quiet then s.lpiWake g
  else (s.setGroupL g { x with lpi := 0, lit := x.contact && x.plugged }).groupEvent g 4

/-- Whether every waking link of a group has its lock and its HELLO; then the group is in service again (R643). -/
def State.lpiWoken (s : State) (g : Nat) : State :=
  let ws := (List.range 8).filter fun j => (s.link g j).state == .waking
  if (s.lgroup g).lpi ≠ 3 ∨ ws = [] ∨ ws.any (fun j => (s.link g j).hellos == 0) then s
  else
    let s := ws.foldl (fun (s : State) j => s.updLink g j fun l => { l with state := .inService }) s
    let s := s.setGroupL g { s.lgroup g with lpi := 0, idle := false, wasDown := false }
    (((s.advanceEpoch).count (.LNK_LPI_COUNT g)).groupEvent g 4).chooseTime

/-- A wake has overrun its time (R643). -/
def State.wakeFailed (s : State) (g : Nat) : State :=
  if (s.lgroup g).lpi ≠ 3 then s else
    let ws := (List.range 8).filter fun j => (s.link g j).state == .waking
    (ws.foldl (fun (s : State) j => s.linkLeave g j 9) (s.setGroupL g { s.lgroup g with lpi := 0 })).groupEvent g 4

/-- The low-power flags of a HELLO on a link in service (R642). One with both flags clear, after this end has asked or answered, ends the attempt. -/
def State.lpiFlags (s : State) (g j : Nat) (h : Hello) : State :=
  let x := s.lgroup g
  if h.lpiReq && h.lpiAck then
    if !x.acked then s else if s.lpiHolds g then s.lpiQuiet g j h.wakeUs else s.lpiDrop g j
  else if h.lpiAck then
    if x.lpi ≠ 1 then s else if s.lpiHolds g then s.lpiQuiet g j h.wakeUs else s.lpiDrop g j
  else if h.lpiReq then
    if !s.lpiHolds g then s.lpiDrop g j
    else if x.lpi = 1 ∧ s.me < h.mod then s
    else (s.setGroupL g { x with acked := true }).sendHello g j false true
  else if x.acked || x.asked then s.setGroupL g { x with lpi := 0, asked := false, acked := false } else s

/-- A condition of low-power idle has failed: an attempt is given up, and a QUIET group wakes (R642, R643). -/
def State.lpiSettle (s : State) : State :=
  s.lnk.groups.foldl (fun (s : State) e =>
    let x := s.lgroup e.1
    if x.lpi = 2 then (if s.lpiAllowed e.1 then s else s.lpiWake e.1)
    else if (x.lpi = 1 || x.acked) && !s.lpiHolds e.1 then
      (match s.firstLink e.1 with
        | some j => s.lpiDrop e.1 j
        | none => s.setGroupL e.1 { x with lpi := if x.lpi = 1 then 0 else x.lpi, asked := false, acked := false })
    else s) s

/-! ## A HELLO received (R630 to R633) -/

/-- What a HELLO received on a direct link does to the link; its epoch is taken apart. -/
def State.helloLink (s : State) (g j : Nat) (h : Hello) : State :=
  let l := s.link g j
  let echoes := l.stamps.contains h.echoStamp
  let sample := (s.cycles + 2 ^ 33 - h.echoStamp - h.echoDelay) % 2 ^ 32
  let l := { l with heard := some (h.txStamp, s.cycles), rtts := if echoes then (sample :: l.rtts).take 8 else l.rtts }
  match l.state with
  | .exchange =>
    if l.step = 4 then (s.setLink g j l).linkJudge g j h
    else
      let who := (h.mod, h.grp, h.lnk)
      let n := if echoes then l.hellos + 1 else l.hellos
      let s := s.setLink g j { l with hellos := n, named := some who }
      if 8 ≤ n ∧ echoes ∧ l.named = some who then s.linkJudge g j h else s
  | .inService => if !h.ready then (s.setLink g j l).linkLeave g j 5 else (s.setLink g j l).lpiFlags g j h
  | .waking => if l.pcs then (s.setLink g j { l with hellos := l.hellos + 1 }).lpiWoken g else s.setLink g j l
  | .held => s.setLink g j l
  | _ => s

/-! ## Optical and coding events (R630, R633) -/

/-- Light has stood on all four lanes (R630 step 1). -/
def State.lightStable (s : State) (g j : Nat) : State :=
  let l := s.link g j
  if l.state = .training ∧ l.step = 1 then s.setLink g j { l with signal := 0xF, step := 2 } else s

/-- Clock recovery, alignment and FEC lock are held (R630 step 2, R643). A switched link stays in TRAINING, since EXCHANGE is for direct
links only (R629). -/
def State.linkLock (s : State) (g j : Nat) : State :=
  let l := s.link g j
  if l.state = .training ∧ l.step = 2 then
    s.setLink g j { l with pcs := true, fec := true, step := 3, state := if s.switchedGroup g then .training else .exchange }
  else if l.state = .waking then s.setLink g j { l with pcs := true, fec := true, signal := 0xF } else s

/-- A switched link has held FEC lock for 1 ms (R630 step 3). -/
def State.switchedIn (s : State) (g j : Nat) : State :=
  let l := s.link g j
  if s.switchedGroup g ∧ l.state = .training ∧ l.step = 3 then s.linkIn g j 0x10 none else s

/-- The reason of a departure for loss: UNPLUGGED when the connector opened within the last 10 ms (R633). -/
def State.lossReason (s : State) (g code : Nat) : Nat :=
  let x := s.lgroup g
  match x.openedAt with
  | some t => if s.now ≤ t + 10000000 then 6 else code
  | none => code

/-- A link in service is lost for a cause that the module detects (R633). -/
def State.linkLost (s : State) (g j code : Nat) : State :=
  if (s.link g j).state = .inService then s.linkLeave g j (s.lossReason g code) else s

/-! ## Connectors and light (R645, R646) -/

/-- The presence contact of a connector opens. -/
def State.contactOpen (s : State) (g : Nat) : State :=
  s.setGroupL g { s.lgroup g with contact := false, openedAt := some s.now, lit := false }

/-- The presence contact of a connector closes: one that has not been seen to open starts all its bring-up again. -/
def State.contactClose (s : State) (g : Nat) : State :=
  let x := s.lgroup g
  (s.setGroupL g { x with contact := true, lit := x.plugged && s.domOn (domGroup g) && x.lpi != 2 }).groupRestart g

/-- A change of the contact has held for 10 ms. -/
def State.contactHeld (s : State) (g : Nat) : State :=
  let x := s.lgroup g
  if x.contact = x.plugged then s
  else if x.contact then
    (((s.setGroupL g { x with plugged := true, lit := s.domOn (domGroup g) }).lifeCount (12 + g)).groupEvent g 1).groupRetry g
  else ((s.setGroupL g { x with plugged := false }).groupEvent g 2).groupLeave g 6

/-- The laser light of a bay is gone (R646). -/
def State.lightLost (s : State) (bay : Nat) : State :=
  (List.range 4).foldl (fun (s : State) i => s.groupLeave (4 * bay + i) 7) s

/-- The laser light of a bay is back (R646). -/
def State.lightBack (s : State) (bay : Nat) : State :=
  (List.range 4).foldl (fun (s : State) i => s.groupRetry (4 * bay + i)) s

/-! ## Pause (R360, R361, R638 to R640) -/

/-- The flow-control mode of a switched group (R652). -/
def State.fcMode (s : State) (g : Nat) : Nat := s.comF (.LNK_GCFG1 g) 31 30

/-- The priority of a queued packet on its output link or in its input link's buffer: its virtual channel on a direct link, its class on a
switched one. -/
def State.prio (s : State) (g vc tc : Nat) : Nat := if s.switchedGroup g then tc else vc

/-- The packets in a link's receive buffer: those that arrived there and wait to leave or to be ejected (R360). -/
def State.inBuffer (s : State) (g j : Nat) : List OutPkt :=
  (s.rtr.out.flatMap (·.2) ++ s.rtr.eject).filter fun o => o.input == 8 * g + j

/-- The bytes of a link's receive buffer that a priority occupies (R360, R638). -/
def State.buffered (s : State) (g j prio : Nat) : Nat :=
  let all := s.inBuffer g j
  sumList ((all.filter fun o =>
    if !s.switchedGroup g then o.vcIn == prio else s.fcMode g == 1 || o.pkt.tc == prio).map (·.bytes))

/-- The pause thresholds of a group in bytes: XOFF and XON. -/
def State.pauseAt (s : State) (g : Nat) : Nat × Nat :=
  if s.switchedGroup g then (s.comF (.LNK_GCFG0 g) 15 8 * 1024, s.comF (.LNK_GCFG0 g) 7 0 * 1024)
  else (s.comF .RTR_LINK_FC 15 8 * 1024, s.comF .RTR_LINK_FC 7 0 * 1024)

/-- The priorities that a group paces. -/
def State.pausePrios (s : State) (g : Nat) : List Nat :=
  if !s.switchedGroup g then List.range 4 else if s.fcMode g = 1 then [0] else if s.fcMode g = 2 then List.range 8 else []

/-- Send a pause for a priority of a link (R638, R639); a switched group of FC_MODE NONE sends none. -/
def State.sendPause (s : State) (g j prio quanta : Nat) : State :=
  if !s.addressed g || (s.switchedGroup g && s.pausePrios g == []) then s else
  let f := if s.switchedGroup g ∧ s.fcMode g = 1 then s.pauseFrame g quanta else s.pfcFrame g prio quanta
  (s.sendFrame g j f none).lcount g j 11 1

/-- Compare the occupancies of a link's receive buffer with their thresholds (R639). -/
def State.pauseCheck (s : State) (g j : Nat) : State :=
  if !(s.link g j).state.routable then s else
    (s.pausePrios g).foldl (fun (s : State) p =>
      let k := 8 * (8 * g + j) + p
      let n := s.buffered g j p
      let on := s.lnk.pausing.contains k
      if !on ∧ (s.pauseAt g).1 ≤ n then
        { s with lnk := { s.lnk with pausing := s.lnk.pausing ++ [k] } }.sendPause g j p (s.comF (.LNK_GCFG0 g) 31 16)
      else if on ∧ n ≤ (s.pauseAt g).2 then
        { s with lnk := { s.lnk with pausing := s.lnk.pausing.filter (· != k) } }.sendPause g j p 0
      else s) s

/-- XON for what this module holds the far ends in, wherever an occupancy has fallen (R360, R639); nothing is held in a priority that the flow-control
mode does not know (R638). -/
def State.pauseSettle (s : State) : State :=
  let held (k : Nat) : Bool := (s.pausePrios (k / 64)).contains (k % 8)
  let s := if s.lnk.pausing.all held then s else { s with lnk := { s.lnk with pausing := s.lnk.pausing.filter held } }
  (s.lnk.pausing.map (· / 8)).eraseDups.foldl (fun (s : State) k => s.pauseCheck (k / 8) (k % 8)) s

/-- Half of a pause time has passed (R639). -/
def State.pauseRefresh (s : State) (g j prio : Nat) : State :=
  if s.lnk.pausing.contains (8 * (8 * g + j) + prio) then s.sendPause g j prio (s.comF (.LNK_GCFG0 g) 31 16) else s

/-- Apply a received pause of `quanta` to a priority of a link (R639). -/
def State.pauseApply (s : State) (g j prio quanta : Nat) : State :=
  let k := 8 * (8 * g + j) + prio
  { s with lnk := { s.lnk with paused :=
    if quanta = 0 then SMap.del s.lnk.paused k else SMap.put s.lnk.paused k (s.now + (quanta * 64 + 99) / 100) } }

/-- A MAC Control frame received (R638 to R640): its bytes from the opcode on. -/
def State.macControlIn (s : State) (g j : Nat) (b : Bytes) : State :=
  let s := s.lcount g j 6 1
  let op := beNat (slice b 0 2)
  let sw := s.switchedGroup g
  if s.regF (.LNK_GCTL g) 29 29 = 1 then s
  else if op = 1 ∧ (!sw ∨ s.fcMode g = 1) then
    (List.range (if sw then 8 else 4)).foldl (fun (s : State) p => s.pauseApply g j p (beNat (slice b 2 2))) s
  else if op = 0x0101 ∧ (!sw ∨ s.fcMode g = 2) then
    (List.range (if sw then 8 else 4)).foldl (fun (s : State) p =>
      if bit (beNat (slice b 2 2)) p then s.pauseApply g j p (beNat (slice b (4 + 2 * p) 2)) else s) s
  else s

end Sys2Proof.Machine
end

