-- ==== Sys2Proof/Machine/Arrive.lean ====
section
/-!
DEFINITION. What comes back for the requests of the module: on its host ports, handed to what each was for (R162, R187, R731, R732, R734),
and the data responses of the fabric, whose entries end once all their packets have come (R317, R331).
-/

namespace Sys2Proof.Machine

/-! ## Data responses (R44, R317, R331) -/

/-- The bytes of a response whose packets have all arrived: plain, or decrypted when the segment verifies (R331). -/
inductive RespData where
  | missing
  | bad
  | ok (data : Bytes)

/-- The data of a response to an entry, with its packets in order. -/
def State.respData (s : State) (t : Txn) (len : Nat) : RespData :=
  let ps := t.got.map (·.2)
  let total := sumList (ps.map (·.length))
  match ps.head?, ps.getLast? with
  | some f, some l =>
    if !f.first ∨ !l.last ∨ total < len then .missing
    else if !f.encrypted then .ok (ps.flatMap fun x => x.payload.take x.length)
    else match (t.qpn.bind s.qp).bind s.qpKey with
      | none => .missing
      | some (key, salt) => match openSegment key salt ps with
        | some qs => .ok (qs.flatMap fun x => x.payload.take x.length)
        | none => .bad
  | _, _ => .missing

/-- A response whose packets have all arrived ends its entry, unless its segment fails (R317, R331). -/
def State.endResponse (s : State) (t : Txn) (p : Pkt) (typ : Nat) (r : RespData) : State :=
  match r with
  | .missing => s
  | .bad =>
    let s := s.tagFailed.endTxn p.txn stTagFailure 0 false []
    match t.qpn with
    | some n => s.qpError n stTagFailure stAborted
    | none => s
  | .ok data =>
    let s := match t.qpn, p.encrypted with
      | some n, true =>
        let num := match t.got with | [] => 0 | x :: _ => segmentNumber x.2
        match s.qp n with
        | some _ => (s.updCtx n fun q => { q with recvSegment := num }).countN .SEC_DECRYPT_BYTE_COUNT data.length
        | none => s
      | _, _ => s
    s.endTxn p.txn p.status p.reason true (if typ = 0x04 then leBytes 8 (beNat (slice data 0 8)) else data)

/-- What has arrived of a response is complete or not; a segment that fails in its engine is discarded (R331, R669). -/
def State.gotResponse (s : State) (t : Txn) (p : Pkt) (typ : Nat) : State :=
  let len := if typ = 0x02 then (t.pkts.head?.map (·.length)).getD 0 else 0
  if !p.encrypted then s.endResponse t p typ (s.respData t len) else
    let s := s.bindEngine (t.qpn.getD 0)
    match s.respData t len with
    | .missing => s
    | r =>
      match s.throughEngine (t.qpn.getD 0) with
      | (false, s) => { s with qpe := { s.qpe with txns := SMap.put s.qpe.txns p.txn { t with got := [] } } }
      | (true, s) => s.endResponse t p typ r

/-- The data responses that have come whole and waited for the cipher of their queue pair end their entries as far as it serves now (R44). -/
def State.openWaiting (s : State) : State :=
  s.qpe.txns.foldl (fun (s : State) e =>
    match SMap.find s.qpe.txns e.1 with
    | none => s
    | some t =>
      match t.got.getLast? with
      | some x => if x.2.encrypted then s.gotResponse t x.2 t.typ else s
      | none => s) s

/-! ## Host ports -/

/-- A buffer with the outcome of the read of one of its pieces: the bytes, or the detail of HOST_MEMORY_ERROR. -/
def RBuf.got (b : RBuf) (off : Nat) : Bytes ⊕ Nat → RBuf
  | .inl d => b.land off d
  | .inr e => b.failed stHostMemoryError e

/-- A ring read has come back (R162, R187). -/
def State.ringArrived (s : State) (n index : Nat) (r : Bytes ⊕ Nat) : State :=
  match s.wq n with
  | none => s
  | some w =>
    match w.reading.find? fun x => x.1 == index with
    | none => s
    | some x =>
      let w := { w with reading := w.reading.erase x }
      match r with
      | .inl b => (s.setWq n { w with units := putUnits w.units index b x.2 }).drained n
      | .inr _ => ((s.setWq n w).wqError n qrRingHostError).drained n

/-- The read or atomic of an accepted skylight request has come back (R75, R97, R266). -/
def State.skyArrived (s : State) (arr : Nat) (off : Option Nat) (r : Bytes ⊕ Nat) : State :=
  match SMap.find s.qpe.arrivals arr, r with
  | none, _ => s
  | some _, .inr e => s.arrivalDone arr stHostMemoryError e []
  | some a, .inl b =>
    match off with
    | none => s.arrivalPerformed arr b
    | some off =>
      let buf := a.buf.land off b
      let s := { s with qpe := { s.qpe with arrivals := SMap.put s.qpe.arrivals arr { a with buf } } }
      if buf.ready then s.arrivalPerformed arr buf.bytes else s

/-- The zero-length read behind the writes of waiting request `arr` of a port has come back: it covers every write posted on the port
before it (R97). -/
def State.confirmed (s : State) (p arr : Nat) : State :=
  let covered (e : Nat × Arrival) : Bool := decide (e.1 ≤ arr) && e.2.stage == .confirm && match e.2.decision with
    | some (.accept (.iva inst _ _) _ _) => portOf inst == p
    | _ => false
  (s.qpe.arrivals.filter covered).foldl (fun (s : State) e => s.arrivalPerformed e.1 []) s

/-- Hand what came back for a request to what it is for: its bytes, or the detail of its HOST_MEMORY_ERROR (R731, R732). -/
def State.arrived (s : State) (t : Tag) (r : Bytes ⊕ Nat) : State :=
  match t.purpose with
  | .admUnit p =>
    let a := s.adm1 p
    if a.reading = 0 then s else
      match r with
      | .inl b => s.setAdm p { a with reading := 0, units := a.units ++ slice b 0 (a.reading * 32) }
      | .inr _ => (s.setAdm p { a with reading := 0 }).admError p 4
  | .cmdParam p k off =>
    s.setAdm p { s.adm1 p with cmds := SMap.upd (s.adm1 p).cmds k fun c => { c with data := c.data.got off r } }
  | .ringFetch n index => s.ringArrived n index r
  | .chainList n id off => s.updOp n id fun o => { o with list := o.list.got off r }
  | .localData n id k off =>
    let s := s.updOp n id fun o => { o with msgs := o.msgs.mapIdx fun j m => if j = k then { m with data := m.data.got off r } else m }
    match r with
    | .inl _ => s
    | .inr e => s.msgLocalFail n id k stHostMemoryError e
  | .context n =>
    match r with
    | .inl b => s.fillDone n b
    | .inr _ => match s.qp n with
      | some q => if q.filling then s.fillFail n else s
      | none => s
  | .skyRead arr off => s.skyArrived arr (some off) r
  | .skyAtomic arr => s.skyArrived arr none (match r with | .inl b => .inl (slice b 0 8) | .inr e => .inr e)
  | .skyConfirm arr => match r with
    | .inl _ => s.confirmed (portOf t.fn) arr
    | .inr e => s.skyArrived arr none (.inr e)
  | .dirtyLine n k line => s.dirtyArrived n k line (match r with | .inl b => some b | .inr _ => none)
  | .dirtyConfirm n k _ _ => match r with
    | .inl _ => s
    | .inr _ => s.dirtyStop n k
  | .drain _ | .dropped => s
  | .operand die en slot off =>
    let k := entryKey die en
    match s.entry k, r with
    | none, _ => s
    | some e, .inl b =>
      ((s.setEntry k { e with bufs := SMap.upd e.bufs slot fun x => x.land off b }).readLocalOper k slot).goOn k
    | some _, .inr d => s.failEntry k stHostMemoryError d false
  | .operandConfirm die en order op len => s.operConfirmed (entryKey die en) order op (match r with | .inl _ => .inl len | .inr d => .inr (stHostMemoryError, d))
  | .collData g off =>
    match s.coll g with
    | some c => (s.setColl g { c with input := c.input.got off r }).collLoad g
    | none => s

/-- A peer request that lies outside the peer windows in force as it was to be issued, and one given up by a reset, end with detail
ERROR_COMPLETION (R700, R734). -/
def State.peerRefused (s : State) (x : Nat × Nat) : State :=
  match SMap.find (s.port x.1).tags x.2 with
  | none => { s with hif := { s.hif with refused := s.hif.refused.filter (· != x) } }
  | some t => (s.freeTag x.1 x.2).arrived t (.inr 2)

end Sys2Proof.Machine
end

