-- ==== Sys2Proof/Machine/Finish.lean ====
section
/-!
DEFINITION. The end of every command: what it has set off inside the module is done before its events are delivered (R20, R24).
-/

namespace Sys2Proof.Machine

/-- Hand the end of a transaction to its owner (R259, R280, R317). -/
def State.handResolved (s : State) (r : Resolved) : State :=
  match r.owner with
  | .op n id k =>
    let code := (((s.wq n).bind fun w => w.op id).map fun o => dOp o.desc).getD 0
    if r.status = 0 ∧ (code = 1 ∨ code = 4 ∨ code = 5) then s.land n id k r.data
    else s.msgEnd n id k r.status r.reason r.remote
  | .relay a => if r.status = 0 then s.arrivalPerformed a r.data else s.arrivalDone a r.status r.reason []
  | .token a => s.arrivalDone a r.status r.reason (((SMap.find s.qpe.arrivals a).map fun x => x.buf.bytes).getD [])
  | .note a =>
    match SMap.find s.qpe.arrivals a with
    | none => s
    | some x =>
      let key := x.page.getD 0
      let s := if x.pkt.src = s.me then s else
        s.sendNote .control (((s.heldPage key).map (·.home)).getD 0) key 1 x.pkt.src x.pkt.srcQpn
      s.arrivalPerformed a x.buf.bytes
  | .coll g seq what off => s.collAcked g seq what off r.status r.reason r.data
  | .transit die en what arg => (s.operandMoved die en what arg r).transitAcked die en what arg r.status r.reason r.remote r.data
  | .tree kind root tree seq => if r.status = 0 then s else s.treeUpLost kind root tree seq r.dst
  | .launch n id => s.launchEnded n id r.dst r.status r.reason r.remote
  | .copy key run u => s.copyAcked key run u r.status
  | .move key => s.moveReply key r.status r.data
  | .control => s

/-- Act on a control request that has been accepted (R305). -/
def State.handIn (s : State) (p : Pkt) : State :=
  let word i n := beNat (slice p.payload i n)
  match p.typ with
  | 0x10 => s.collIn p
  | 0x11 => s.setupIn p
  | 0x12 => s.treeUpIn p
  | 0x13 => s.treeDownIn p
  | 0x20 => s.launchIn p
  | 0x21 => s.cancelIn p
  | 0x22 => s.doneIn p
  | 0x28 => s.proposeIn p
  | 0x29 => s.moveStartIn p
  | 0x2A => s.moveCopyIn p
  | 0x2B => s.moveDoneIn p
  | 0x2C => s.moveEndIn p
  | 0x2D => s.hintIn p
  | 0x2E => if plcByte p 16 = 0 then s.watchNote p else s.homeNote p
  | 0x2F => s.collapseDoneIn p
  | 0x30 => s.domainSetupIn (word 0 2) p.src (word 4 4) (word 8 4)
  | 0x31 => (s.learnEpoch p.src (word 8 4)).readyAt (word 0 2) (word 4 1)
  | _ => s

/-- Act on what the tree has handed over (R424, R428). -/
def State.handTree (s : State) (e : TreeEv) : State :=
  match e with
  | .notice kind root tree seq payload partition =>
    if kind = tkBarrier then s.barNotice tree seq payload
    else if kind = tkGroupDefine then s.groupDefined tree (leAt payload 24 1)
    else if kind = tkRevoke then s.revokeNotice root tree seq partition
    else if kind = tkFreePages then s.freeNotice root tree (beNat (slice payload 24 4)) seq partition
    else if kind = tkShootDown then s.shootNotice root tree seq payload partition
    else if kind = tkJobFault then s.faultNotice tree root seq payload
    else if kind = tkSnapshot then s.snapNotice tree root seq payload
    else if kind = tkAbort then s.collAborted tree seq (root == s.me)
    else s
  | .done kind tree seq partition payload lost =>
    let s :=
      if kind = tkBarrier then s.barDone tree seq partition
      else if kind = tkRevoke then s.revokeDone tree
      else if kind = tkFreePages then s.freeDone tree seq
      else if kind = tkShootDown then s.shootDone tree seq
      else if kind = tkJobFault then s.faultDone tree seq payload lost
      else if kind = tkSnapshot then s.snapDone tree seq payload
      else s
    if lost = [] ∨ kind = tkJobFault ∨ !tkAcks kind then s else s.jobFault partition 4 0

/-- Remove the waits of operations that wait no longer (R181, R570). -/
def State.pruneWaits (s : State) : State :=
  let waits (wq op : Nat) : Bool := (((s.wq wq).bind fun w => w.op op).map (·.phase)) == some .waiting
  { s with
    syn := { s.syn with
      wicks := SMap.mapv s.syn.wicks fun _ w => { w with waiters := w.waiters.filter fun x => match x.kind with
        | .consume wq op => waits wq op
        | .program _ _ => true }
      bars := SMap.mapv s.syn.bars fun _ b => { b with waits := b.waits.filter fun x => waits x.1 x.2.1 } }
    sch := { s.sch with
      cadences := SMap.mapv s.sch.cadences fun _ c => { c with waits := c.waits.filter fun x => waits x.1 x.2 } } }

/-- Whether an error record waits for nothing more: the records of the operations released with it are written (R254). -/
def State.errorDue (s : State) (e : QpErr) : Bool :=
  s.qpe.resolved == [] && e.ops.all fun x => ((s.wq x.1).bind fun w => w.op x.2).isNone

/-- The error records of the queue pairs that entered ERROR, in order (R254). -/
def State.errorRecords (s : State) : State :=
  let es := s.qpe.errors.filter s.errorDue
  es.foldl (fun (s : State) e => s.qpErrorRecord e.qpn e.cq e.status)
    { s with qpe := { s.qpe with errors := s.qpe.errors.filter fun e => !s.errorDue e } }

/-- Whether an error record of a queue pair of a partition is still to be written. -/
def State.errorsOf (s : State) (partition : Nat) : Bool := s.qpe.errors.any fun e => (s.qp e.qpn).any fun q => q.partition == partition

/-- One round of what a command has set off. -/
def State.round (s : State) : State :=
  let s := (s.hif.refused.foldl State.peerRefused s).openWaiting
  let rs := s.qpe.resolved
  let s := rs.foldl State.handResolved { s with qpe := { s.qpe with resolved := [] } }
  let ps := s.qpe.inbox
  let s := ps.foldl State.handIn { s with qpe := { s.qpe with inbox := [] } }
  let ts := s.col.todo
  let s := ts.foldl State.handTree { s with col := { s.col with todo := [] } }
  let js := s.jobs.faults
  let s := js.foldl (fun (s : State) j => s.raiseFault j.1 j.2.1 j.2.2) { s with jobs := { s.jobs with faults := [] } }
  let s := s.testRose
  let s := s.q.wqs.foldl (fun (s : State) w => s.endNewWaits w.1) s
  let s := (s.pruneWaits.pruneLaunches).fences
  let s := s.errorRecords
  let s := s.jobs.domains.foldl (fun (s : State) d => if s.errorsOf d.1 then s else s.quenchGo d.1) s
  let s := s.q.wqs.foldl (fun (s : State) w => if w.2.state = .snuffing then s.snuffEnd w.1 else s) s
  s.dueChanges.dueStarts.duePins.pump.sendWaiting.sealWaiting.drainsOwed.heldWrites

/-- Whether something remains to be done. -/
def State.busy (s : State) : Bool :=
  s.hif.refused != [] || s.qpe.resolved != [] || s.qpe.inbox != [] || s.col.todo != [] || s.jobs.faults != [] || s.syn.rose != [] || s.qpe.errors.any s.errorDue

/-- Rounds until nothing remains; `fuel` bounds them. A round beyond the bound is left to the next command. -/
def rounds : Nat → State → State
  | 0, s => s
  | fuel + 1, s => let s := s.round; if s.busy then rounds fuel s else s

/-- The end of a command: skylight entries that come in (R72), what it has set off, the pauses that it ends (R360), low-power idle (R641 to
R643), the turns of classes that have emptied (R615), the link records that have waited (R647), then its events (R24). -/
def State.finish (s : State) : State := ((((rounds 16 s.skyCome).errorRecords).lpiSettle.pauseSettle.drrSettle).linkOwed).settle

/-- The outcome of a command whose effect is `f`, with all that it sets off. A module that has shut down does nothing (R766). -/
def run (s : State) (f : State → State) : Result := if s.pwr.off then .next s else .next (f s).finish

/-- The outcome of an event that also counts while the module is off: with its effect `f`, nothing is set off there. -/
def runAlways (s : State) (f : State → State) : Result :=
  let s := f s
  if s.pwr.off then .next s else .next s.finish

/-- The outcome of a host's access to a register or doorbell whose effect is `f`: none before the host die is up, and none when boot has
failed (R717). -/
def mmio (s : State) (f : State → State) : Result := run s fun s => if s.barOpen then f s else s

end Sys2Proof.Machine
end

