-- ==== Sys2Proof/Machine/AdminQueue.lean ====
section
/-!
DEFINITION. The admin queues: doorbell, fetch, enable, reply consumer, unlisted opcodes, identification, negotiation and
the expert level (R201 to R206, R214, R220 to R223, R230 to R233).
-/

namespace Sys2Proof.Machine

/-- A set of sticky flag `i` of a port's `ADM_ERR` (R241). -/
def State.admFlag (s : State) (p i : Nat) : State := s.setFlagOf (p * 128) .ADM_ERR i

/-- ADM_CMD_PRODUCER_WRITE (R203, R205): a running queue judges the index against FETCH and its previous value. -/
def execAdmCmdProducerWrite (p value : Nat) (s : State) : Result :=
  mmio s fun s =>
    let a := s.adm1 p
    let v := value % ringMod
    if a.state ≠ .running then s.setAdm p { a with producer := v }
    else
      let s := s.setAdm p { a with producer := v }
      if 2 ^ s.admCtrl p 3 0 < distance a.fetch v then s.admError p 1
      else if distance a.fetch v < distance a.fetch a.producer then s.admError p 2
      else s

/-- The length in bytes of the packet in front of the units read, once its header is there. -/
def AdmQ.frontLen (a : AdmQ) : Option Nat := if a.units.length < 32 then none else some (leAt a.units 1 1 * 32)

/-- Take the packet in front into SRAM (R203). -/
def State.admTake (s : State) (p len : Nat) : State :=
  let a := s.adm1 p
  let k := s.adm.seq
  let c : Cmd := ⟨a.fetch, k, a.units.take len, false, 0, RBuf.empty, 0, false, none⟩
  let s := { s with adm := { s.adm with seq := k + 1, turn := p } }
  s.setAdm p { a with cmds := SMap.put a.cmds k c, units := a.units.drop len, fetch := advance a.fetch (len / 32) }

/-- Read command units from the ring up to PRODUCER, the end of the ring, or 4 KiB (R203). -/
def State.admReadUnits (s : State) (p : Nat) : State :=
  let a := s.adm1 p
  let log2 := s.admCtrl p 3 0
  let at_ := advance a.fetch (a.units.length / 32)
  let n := min (min (distance at_ a.producer) (2 ^ log2 - slotOf at_ log2)) 128
  if n = 0 ∨ a.reading ≠ 0 then s else
    match s.hostRead (p * 128) ((s.regOf (p * 128) .ADM_CMD_BASE).toNat / 4096 * 4096 + slotOf at_ log2 * 32) (n * 32)
        false (.admUnit p) none with
    | some s => s.setAdm p { s.adm1 p with reading := n }
    | none => s

/-- Whether a port's admin queue may fetch: it runs, holds fewer than 64 commands, and has room for one more reply (R204, R214). -/
def State.admOpen (s : State) (p : Nat) : Bool :=
  let a := s.adm1 p
  let live := a.cmds.filter fun e => !e.2.orphan
  let used := distance a.replyConsumer a.replyProducer + live.length + a.held.length
  a.state == .running && decide (live.length + a.held.length < 64) && decide (used < 2 ^ s.admCtrl p 11 8)

/-- Whether the next packet of a port's admin queue is there whole and may be taken. -/
def State.admReady (s : State) (p : Nat) : Bool :=
  s.admOpen p && match (s.adm1 p).frontLen with
    | none => false
    | some len => decide (len ≤ (s.adm1 p).units.length)

/-- Whether a port's packet is the next in the round robin over the four ports (R214). -/
def State.admTurn (s : State) (p : Nat) : Bool :=
  ((List.range 4).map fun i => (s.adm.turn + 1 + i) % 4).find? s.admReady == some p

/-- ADMIN_COMMAND_FETCH (R203 to R205, R214): take the next packet in its turn once it has been read, or read the ring. -/
def execAdminCommandFetch (p : Nat) (s : State) : Result :=
  run s fun s =>
    let a := s.adm1 p
    if !s.admOpen p ∨ !s.cpRuns then s
    else match a.frontLen with
    | none => s.admReadUnits p
    | some len =>
      if len = 0 ∨ 2 ^ s.admCtrl p 3 0 * 32 < len then s.admError p 3
      else if len ≤ a.units.length then if s.admTurn p then s.admTake p len else s
      else s.admReadUnits p

/-- A write of `ADM_CTRL` without its ENABLE bit: sizes and vector change only while DISABLED (R237; log 16). -/
def State.admCtrlFields (s : State) (p value : Nat) : State :=
  let n := p * 128
  let old := (s.regOf n .ADM_CTRL).toNat
  let m := 0x07FF0F0F
  let s := if (s.adm1 p).state = .disabled then s.setRegOf n .ADM_CTRL (BitVec.ofNat 64 ((value &&& m) + (old &&& 0xC0000000)))
    else if value &&& m = old &&& m then s else s.admFlag p 1
  s.setRegOf n .ADM_CTRL (setFld (s.regOf n .ADM_CTRL) 30 30 (bits value 30 30))

/-- ADM_CTRL_ENABLE_SET (R202, R206, R222, R237): a fresh queue, unless a size is outside 6 to 12. -/
def execAdmCtrlEnableSet (p value : Nat) (s : State) : Result :=
  mmio s fun s =>
    let s := s.admCtrlFields p value
    let a := s.adm1 p
    let okSize (n : Nat) := decide (6 ≤ n) && decide (n ≤ 12)
    if a.state ≠ .disabled then s
    else if !(okSize (s.admCtrl p 3 0) && okSize (s.admCtrl p 11 8)) then s.admFlag p 1
    else
      let s := s.setRegOf (p * 128) .ADM_CTRL (setFld (s.regOf (p * 128) .ADM_CTRL) 31 31 1)
      s.setAdm p ⟨.running, 0, 0, 0, 0, 0, 0x10, false, a.cmds.filter (·.2.orphan), [], 0, []⟩

/-- ADM_CTRL_ENABLE_CLEAR (R206): the queue stops fetching and, once its commands have ended, is DISABLED. -/
def execAdmCtrlEnableClear (p value : Nat) (s : State) : Result :=
  mmio s fun s =>
    let s := s.admCtrlFields p value
    let s := s.setRegOf (p * 128) .ADM_CTRL (setFld (s.regOf (p * 128) .ADM_CTRL) 31 31 0)
    let a := s.adm1 p
    if a.state = .disabled then s
    else ((s.setAdm p { a with state := .stopping, reason := 0, reading := 0, units := [] }).disown
      fun q => match q with | .admUnit n => n == p | _ => false).admStopped p

/-- A function reset disables the admin queue: commands not started are discarded, and the replies of those in progress
go to the gutter (R206). Which ADM registers go back is the model's choice (log 92). -/
def State.admReset (s : State) (p : Nat) : State :=
  let a := s.adm1 p
  let gone := a.cmds.filter fun e => !e.2.started
  let left := (a.cmds.filter fun e => e.2.started).map fun e => (e.1, { e.2 with orphan := true })
  let s := (s.setAdm p ⟨.disabled, 0, 0, 0, 0, 0, 0x10, false, left, [], 0, []⟩).disown
    fun q => match q with | .admUnit n => n == p | _ => false
  let s := a.held.foldl (fun s _ => s.gutter gRecord) s
  let s := s.resetRegsOf (p * 128) Reg.ADM_CAP.addr Reg.ADM_CMD_DISCARD_COUNT.addr
  s.countOf (p * 128) .ADM_CMD_DISCARD_COUNT gone.length

/-- ADM_REPLY_CONSUMER_WRITE (R204): a value that moves backward or passes the producer is ignored. -/
def execAdmReplyConsumerWrite (p value : Nat) (s : State) : Result :=
  mmio s fun s =>
    let a := s.adm1 p
    let v := value % ringMod
    if distance a.replyConsumer v ≤ distance a.replyConsumer a.replyProducer then s.setAdm p { a with replyConsumer := v }
    else s.admFlag p 0

/-- UNLISTED_ADMIN_OPCODE (R230): a fetched command whose opcode no table lists; check 1 comes first. -/
def execUnlistedAdminOpcode (p k : Nat) (s : State) : Result :=
  run s fun s =>
    match SMap.find (s.adm1 p).cmds k with
    | none => s
    | some c =>
      if (admSpec (opcodeOf c.pkt)).isSome then s
      else s.adminRun p k (opcodeOf c.pkt) anySel anyAuth fun s _ _ => .reply stBadDescriptor dOpcode [] s

/-- The ASCII part number (R1). -/
def State.partNumber (s : State) : Bytes :=
  ascii "KG8-M1-L48-" ++ leBytes 1 s.variantByte

/-- IDENTIFY (R2, R223): part number, stepping B, architecture version 1.0 and the running firmware's build number. -/
def execIdentify (p k : Nat) (s : State) : Result :=
  run s fun s => s.adminRun p k 0x0001 anySel anyAuth fun s _ _ =>
    .reply stSuccess 0 (slice (s.partNumber ++ ascii "B" ++ leBytes 1 0x10 ++ leBytes 2 s.boot.fwBuild) 0 16) s

/-- NEGOTIATE_VERSION (R220 to R222): the module supports version 1.0 alone, so the manager's version never lies below
it. -/
def execNegotiateVersion (p k : Nat) (s : State) : Result :=
  run s fun s => s.adminRun p k 0x0002 anySel anyAuth fun s _ ps =>
    if par ps 1 < par ps 0 then .field s
    else if par ps 0 ≤ 0x10 ∧ 0x10 ≤ par ps 1 then
      .ok [(8, 0x10), (8, 0x10), (8, 0x10)] (s.setAdm p { s.adm1 p with negotiated := 0x10 })
    else .fail stVersion s

/-- The value of a feature as seen by a port's physical function (R224). -/
def State.featureValue (s : State) (p f : Nat) : Option Bytes :=
  match f with
  | 1 => some (leBytes 16 s.feat.moduleNumber)
  | 2 => some (slice ((List.range 8).map (fun g => BitVec.ofNat 8 (bits s.feat.switched g g)) ++
      s.feat.rings.map (fun r => BitVec.ofNat 8 r)) 0 16)
  | 3 => some (leBytes 16 s.feat.udpPort)
  | 4 => some (leBytes 16 (b2n s.feat.timeMaster))
  | 5 => some (leBytes 16 s.feat.countEpoch)
  | 6 => some (leBytes 16 (b2n (s.adm1 p).events))
  | _ => none

/-- GET_FEATURE (R223, R224). -/
def execGetFeature (p k : Nat) (s : State) : Result :=
  run s fun s => s.adminRun p k 0x0003 anySel anyAuth fun s _ ps =>
    match s.featureValue p (par ps 0) with
    | some v => .reply stSuccess 0 v s
    | none => .fail 0x80 s

/-- The blocks that a BLOCKS field names and that can be unlocked (R232). -/
def State.expertBlocks (s : State) (n : Nat) : Nat := n % (if s.hasCap capDebugOpen then 0x8000 else 0x4000)

/-- EXPERT_UNLOCK with ACTION 1 (R232). -/
def execExpertUnlock (p k : Nat) (s : State) : Result :=
  run s fun s => s.adminRun p k 0x0005 (fun ps => par ps 0 != 0) anyAuth fun s _ ps =>
    if 1 < par ps 0 then .field s
    else if par ps 2 ≠ 0x45585054 then .fail 0x80 s
    else
      let u := s.adm.unlocked ||| s.expertBlocks (par ps 1)
      .ok [(32, u)] { s with adm := { s.adm with unlocked := u } }

/-- EXPERT_UNLOCK with ACTION 0: the named blocks are locked again (R232). -/
def execExpertLock (p k : Nat) (s : State) : Result :=
  run s fun s => s.adminRun p k 0x0005 (fun ps => par ps 0 == 0) anyAuth fun s _ ps =>
    if par ps 2 ≠ 0x45585054 then .fail 0x80 s
    else
      let u := s.adm.unlocked &&& (0x7FFF ^^^ s.expertBlocks (par ps 1))
      .ok [(32, u)] { s with adm := { s.adm with unlocked := u } }

end Sys2Proof.Machine
end

