-- ==== Sys2Proof/Machine/Receive.lean ====
section
/-!
DEFINITION. Arriving packets (R305, R310 to R317, R321 to R324): what every packet is checked for, requests by their stream,
and the resolution of transactions by responses.
-/

namespace Sys2Proof.Machine

/-! ## Peer epochs (R322, R324, R788) -/

/-- A connected queue pair's receive stream once its peer's epoch has changed: its held packets and records are dropped (R324). -/
def RStream.forget (r : RStream) : RStream :=
  { r with held := [], records := [], passed := [], busy := [], owing := [], segment := [], accepting := none, parts := [], unanswered := 0, replay := none }

/-- This module learns that a peer has a newer epoch than the one it knew (R324). -/
def State.peerChanged (s : State) (m e : Nat) : State :=
  let s := { s with qpe := { s.qpe with peers := SMap.put s.qpe.peers m e } }
  let ups : List Resolved := (s.upsTo m).map fun t => ⟨.tree t.kind t.root t.tree t.seq, m, stJobFault, 0, false, []⟩
  let s := { s with qpe := { s.qpe with resolved := s.qpe.resolved ++ ups } }
  let s := (s.qpe.qps.filter fun q => q.2.connected && q.2.remoteModule == m).foldl
    (fun (s : State) q => s.qpError q.1 stJobFault stJobFault) s
  let s := (s.qpe.txns.filter fun t => !t.2.connected && t.2.dst == m).foldl
    (fun (s : State) t => s.endTxn t.1 stJobFault 0 false []) s
  let mine (k : Nat) : Bool := k / 8 == m
  let pair (q : Qp) : Bool := q.connected && q.remoteModule == m
  let dropped := sumList ((s.qpe.recv.filter fun r => mine r.1).map fun r => r.2.held.length + r.2.segment.length) +
    sumList ((s.qpe.qps.filter fun q => pair q.2).map fun q => q.2.rx.held.length + q.2.rx.segment.length) +
    (s.qpe.arrivals.filter fun a => a.2.pkt.src == m).length + (s.qpe.forwards.filter fun p => p.src == m).length
  let s := { s with qpe := { s.qpe with
    send := s.qpe.send.filter fun x => !mine x.1
    recv := s.qpe.recv.filter fun x => !mine x.1
    qps := SMap.mapv s.qpe.qps fun _ q => if pair q then { q with rx := q.rx.forget, dirty := q.dirty || q.rx.forget != q.rx } else q
    fwd := s.qpe.fwd.filter fun x => x.1 / 8 % 2 ^ 17 != m
    forwards := s.qpe.forwards.filter fun p => p.src != m
    arrivals := s.qpe.arrivals.filter fun a => a.2.pkt.src != m } }
  let s := (List.range dropped).foldl (fun (s : State) _ => s.gutter gStaleSrcEpoch) s
  let s := s.jobs.domains.foldl (fun (s : State) d =>
    if d.2.members.contains m && d.2.members.contains s.me then s.jobFault d.1 1 m else s) s
  let s := { s with plc := { s.plc with
    cache := s.plc.cache.filter fun c => c.home != m && c.writer != m && c.reader != m
    forward := s.plc.forward.filter fun f => f.2 != m } }
  s.holderLost m

/-- An accepted packet's SRC_EPOCH, or a notice's, is learned (R322, R324): an unknown entry is filled, a newer epoch changes
the peer. -/
def State.takeEpoch (s : State) (m e : Nat) : State :=
  if m = s.me ∨ !epochNewer e (s.peerEpoch m) then s
  else
    let known := s.epochKnown m
    let s := { s with qpe := { s.qpe with probes := SMap.del s.qpe.probes m } }
    if known then s.peerChanged m e else { s with qpe := { s.qpe with peers := SMap.put s.qpe.peers m e } }

/-! ## What every packet is checked for (R310, R323) -/

/-- The control types that are defined (R305). -/
def controlTypes : List Nat :=
  [0x10, 0x11, 0x12, 0x13, 0x20, 0x21, 0x22, 0x28, 0x29, 0x2A, 0x2B, 0x2C, 0x2D, 0x2E, 0x2F, 0x30, 0x31]

/-- Whether a packet type is defined (R305). -/
def typeKnown (t : Nat) : Bool := (1 ≤ t && t ≤ 0x0A) || controlTypes.contains t

/-- Take a packet that has been ejected or handed in: the checks that every packet meets, then `f` (R310, R323). -/
def State.arrive (s : State) (p : Pkt) (f : State → State) : State :=
  let s := s.ejected p
  if p.version ≠ 0x10 then s.gutter gVersion
  else if !typeKnown p.typ then s.gutter gUnknownType
  else if p.dstEpoch ≠ s.qpe.epoch ∧ p.typ ≠ 0x08 ∧ p.typ ≠ 0x09 then (s.gutter gStaleDstEpoch).epochNotice p.src
  else if p.srcEpoch ≠ s.peerEpoch p.src ∧ !epochNewer p.srcEpoch (s.peerEpoch p.src) then s.gutter gStaleSrcEpoch
  else f (s.takeEpoch p.src p.srcEpoch)

/-! ## Requests (R250, R252, R276, R277, R310) -/

/-- A request for a connected responder. -/
def State.connectedRequest (s : State) (n : Nat) (p : Pkt) : State :=
  match s.qp n with
  | none => s.gutter gResponderMismatch
  | some q =>
    if !q.cached then
      match s.fillCtx n q false with
      | (true, s) => s.laterPkt p
      | (false, s) => s.gutter gResponderBusy
    else if !q.answers p then s.gutter gResponderMismatch
    else if p.encrypted ≠ q.forerunner then s.gutter gEncryptionMismatch
    else if q.forerunner then
      let s := s.bindEngine n
      let d := domCipher ((((s.qp n).bind (·.engine)).getD 0) / 8)
      if !s.domOn d then (s.wakeDom d).laterPkt p else (s.touchCtx n).classify (.qp n) p
    else (s.touchCtx n).classify (.qp n) p

/-- A request after the checks that every packet meets (R310). -/
def State.request310 (s : State) (p : Pkt) : State :=
  if p.forwarded then s.forwarded p
  else match streamOf p with
    | .qp n => s.connectedRequest n p
    | .module k => if p.encrypted then s.gutter gEncryptionMismatch else s.classify (.module k) p

/-- An arriving request of a type. -/
def State.requestRow (s : State) (typ : Nat) (forwarded : Bool) (p : Pkt) : State :=
  if p.typ ≠ typ ∨ p.response ∨ p.forwarded ≠ forwarded then s else s.arrive p fun s => s.request310 p

/-! ## Responses (R184, R316, R317, R331) -/

/-- Whether a response comes from work of an earlier generation of its queue or instance (R184, R325). -/
def State.staleResponse (s : State) (t : Txn) (p : Pkt) : Bool :=
  let queue := match t.owner with
    | .op n _ _ => ((s.wq n).map (·.gen)) != some p.srcQueueGen
    | .launch n _ => ((s.wq n).map (·.gen)) != some p.srcQueueGen
    | _ => false
  queue || (t.qpn.isSome && ((t.inst.map s.instGen).getD 0) != p.srcInstGen)

/-- A response from work of an earlier generation goes to the gutter, and its entry ends ABORTED (R184). -/
def State.dropStale (s : State) (k : Nat) : State := (s.gutter gStaleGeneration).endTxn k stAborted 0 false []

/-- Whether PSN `a` is at or below PSN `b`. -/
def psnLe (a b : Nat) : Bool := decide ((b + 2 ^ 24 - a) % 2 ^ 24 < 2 ^ 23)

/-- The outcome that an ACK gives a PSN: a record that it carries, its own, or SUCCESS (R317). A `bare` ACK carries no records: one that acknowledges
its own PSN only, or the ACK of a MOVE_START, which has the free reserve in their place (R560; log 22). -/
def ackOutcome (p : Pkt) (bare : Bool) (psn : Nat) : Nat × Nat :=
  let recs := (List.range 7).map fun i => slice p.payload (8 + 8 * i) 8
  match (if bare then none else recs.find? fun r => beNat (slice r 3 1) != 0 && beNat (slice r 0 3) == psn) with
  | some r => (beNat (slice r 3 1), beNat (slice r 4 1))
  | none => if psn = p.psn then (p.status, p.reason) else (0, 0)

/-- Resolve one entry with the outcome that an ACK gives it; one that waits for its data is held no more (R317). -/
def State.ackEntry (s : State) (p : Pkt) (bare : Bool) (k : Nat) (t : Txn) : State :=
  let o := ackOutcome p bare t.psn
  let reserve := if t.typ = 0x29 ∧ t.psn = p.psn then slice p.payload 8 4 else []
  if o.1 = 0 ∧ (t.typ = 0x02 ∨ t.typ = 0x04) then
    { s with qpe := { s.qpe with txns := SMap.upd s.qpe.txns k fun t => { t with held := false } } }
  else if o.1 = 0 then
    match t.owner with
    | .launch _ _ => { s with qpe := { s.qpe with txns := SMap.put s.qpe.txns k { t with accepted := true } } }
    | _ => s.endTxn k 0 0 true reserve
  else
    let s := s.endTxn k o.1 o.2 true reserve
    if o.1 = stTagFailure then
      match t.qpn with
      | some n => s.qpError n stTagFailure stAborted
      | none => s
    else s

/-- Mark the entries that an ACK's SACK bitmap shows as held, and retransmit those that it shows as missing (R317, R318). -/
def State.sack (s : State) (p : Pkt) (es : List (Nat × Txn)) : State :=
  let map_ := beNat (slice p.payload 0 8)
  let marked (psn : Nat) : Bool :=
    let d := (psn + 2 ^ 24 - (p.psn + 2)) % 2 ^ 24
    decide (d < 64) && bit map_ d
  let all (t : Txn) : Bool := (List.range ((t.psn + 2 ^ 24 - t.firstPsn) % 2 ^ 24 + 1)).all fun i => marked ((t.firstPsn + i) % 2 ^ 24)
  let s := es.foldl (fun (s : State) e =>
    { s with qpe := { s.qpe with txns := SMap.upd s.qpe.txns e.1 fun t => { t with held := all t } } }) s
  let thr := s.regF .QPE_XPT_ACK 27 24
  if thr = 0 then s else
    es.foldl (fun (s : State) e =>
      let above := (List.range 64).filter fun i => bit map_ i && !psnLe ((p.psn + 2 + i) % 2 ^ 24) e.2.psn
      if !all e.2 && decide (thr ≤ above.length) then s.retransmit e.1 else s) s

/-- Note the time of the last ACK of a connected queue pair (R309). -/
def State.noteAck (s : State) (qpn : Option Nat) : State :=
  match qpn with
  | some n => s.updCtx n fun q => { q with lastAck := s.hallTime % 2 ^ 32 }
  | none => s

/-- A response whose entry is free (R317): one of the old generation of an instance that was reset counts so (R701; log 15). -/
def State.freeResponse (s : State) (p : Pkt) : State :=
  s.gutter (if s.qpe.reclaimed.contains p.txn then gStaleGeneration else gReleasedTxn)

/-- An ACK (R317). -/
def State.ackIn (s : State) (p : Pkt) : State :=
  let s := if p.ecn = 3 then s.markFlow p.stream p.tc else s
  let qpn := if p.dstQpn ≠ 0 then some p.dstQpn else none
  let s := s.noteAck qpn
  let es := s.qpe.txns.filter fun e => e.2.inStream qpn p.stream p.tc
  let at_ := es.filter fun e => if p.forwarded then e.2.psn == p.psn else psnLe e.2.psn p.psn
  match at_.find? fun e => e.2.psn == p.psn && s.staleResponse e.2 p with
  | some e => s.dropStale e.1
  | none =>
    let s := if at_ = [] then s.freeResponse p else s
    let order := at_.mergeSort fun a b => psnLe a.2.psn b.2.psn
    let bare := p.forwarded || at_.any fun e => e.2.psn == p.psn && e.2.typ == 0x29
    let s := order.foldl (fun (s : State) e => s.ackEntry p bare e.1 e.2) s
    if p.forwarded then s else
      s.sack p ((s.qpe.txns.filter fun e => e.2.inStream qpn p.stream p.tc).filter fun e => !psnLe e.2.psn p.psn)

/-- Whether the engine of a transaction has no room for the segment of its response that begins (R663). -/
def State.noRoomFor (s : State) (k : Nat) (t : Txn) : Bool :=
  match (t.qpn.bind s.qp).bind (·.engine) with
  | some e => { s with qpe := { s.qpe with txns := SMap.put s.qpe.txns k { t with got := [] } } }.bufferFull e
  | none => false

/-- A READ_RESP or ATOMIC_RESP resolves the entry that its TXN names (R317, R331). -/
def State.dataResponse (s : State) (p : Pkt) (typ : Nat) : State :=
  let s := if p.ecn = 3 then s.markFlow p.stream p.tc else s
  let qpn := if p.dstQpn ≠ 0 then some p.dstQpn else none
  match SMap.find s.qpe.txns p.txn with
  | none => s.freeResponse p
  | some t =>
    let q := if t.connected then t.qpn.bind s.qp else none
    let recvSeg := (q.map (·.recvSegment)).getD 0
    let starts := p.encrypted && bit p.crypt 7
    if t.typ ≠ typ ∨ !t.inStream qpn p.stream p.tc ∨ t.psn ≠ p.psn then s.gutter gReleasedTxn
    else if s.staleResponse t p then s.dropStale p.txn
    else if p.encrypted ≠ (q.map (·.forerunner)).getD false then s.gutter gEncryptionMismatch
    else if starts ∧ segmentNumber p ≤ recvSeg then
      { s with qpe := { s.qpe with txns := SMap.put s.qpe.txns p.txn { t with replay := true } } }.gutter gReplay
    else if p.encrypted ∧ !starts ∧ t.replay then s.gutter gReplay
    else if starts ∧ s.noRoomFor p.txn t then
      { s with qpe := { s.qpe with txns := SMap.put s.qpe.txns p.txn { t with shut := true, got := [] } } }.gutter gResponderBusy
    else if p.encrypted ∧ !starts ∧ t.shut then s.gutter gResponderBusy
    else
      let restart := starts && t.got != []
      let s := if restart then s.gutter gReplay else s
      let off := (p.remote + 2 ^ 64 - ((t.pkts.head?.map (·.remote)).getD 0)) % 2 ^ 64
      let got : SMap Pkt := SMap.put (if restart then [] else t.got) (if typ = 0x04 then 0 else off) p
      let t := { t with got, replay := t.replay && !starts, shut := t.shut && !starts }
      let s := { s with qpe := { s.qpe with txns := SMap.put s.qpe.txns p.txn t } }
      s.gotResponse t p typ

end Sys2Proof.Machine
end

