-- ==== Sys2Proof/Machine/Sched.lean ====
section
/-!
DEFINITION. The scheduler and the MAC at work: gates, shapers, policers and deficit round robin, frames that start and frames that are
received (R359 to R366, R608 to R619, R635 to R637).
-/

namespace Sys2Proof.Machine

/-! ## Gates (R608 to R613) -/

/-- The gates of a link group. -/
def State.gates (s : State) (g : Nat) : Gates := SMap.getD s.sch.gates g ⟨none, none⟩

/-- Replace the gates of a link group. -/
def State.setGates (s : State) (g : Nat) (x : Gates) : State := { s with sch := { s.sch with gates := SMap.put s.sch.gates g x } }

/-- The duration of a list. -/
def cycleOf (l : List GateEntry) : Nat := sumList (l.map (·.interval))

/-- The entry in force `x` ns into the cycle of a list, with the time left of it (R610). -/
def entryAt : List GateEntry → Nat → Nat → Nat × Nat
  | [], _, i => (i, 0)
  | e :: es, x, i => if x < e.interval then (i, e.interval - x) else entryAt es (x - e.interval) (i + 1)

/-- The active entry of a list at a hall time and the time left of it (R610). -/
def GateList.at_ (l : GateList) (t : Nat) : Nat × Nat := entryAt l.entries ((t + 2 ^ 64 - l.base) % 2 ^ 64 % cycleOf l.entries) 0

/-- The time that a class stays open in the entries of a list, and whether one of them closes it. -/
def openRun (c : Nat) : List GateEntry → Nat × Bool
  | [] => (0, false)
  | e :: es => if !bit e.opens c then (0, true) else let r := openRun c es; (e.interval + r.1, r.2)

/-- Whether the gate of a class is open (R612). -/
def State.gateOpen (s : State) (g c : Nat) : Bool :=
  match (s.gates g).active with
  | none => true
  | some l => bit ((l.entries.getD (l.at_ s.hallTime).1 default).opens) c

/-- The time until the gate of an open class next closes, if it does (R612). -/
def State.gateCloses (s : State) (g c : Nat) : Option Nat :=
  let x := s.gates g
  let own := x.active.bind fun l =>
    let e := l.at_ s.hallTime
    let r := openRun c (l.entries.drop (e.1 + 1) ++ l.entries.take (e.1 + 1))
    if r.2 then some (e.2 + r.1) else none
  match x.pending with
  | none => own
  | some l =>
    let t := l.base - s.hallTime
    if bit ((l.entries.headD default).opens) c then own
    else match own with
      | some o => some (min o t)
      | none => some t

/-- Whether the guard lets a frame of `bytes` bytes of a class start (R612). -/
def State.guardPasses (s : State) (g c bytes : Nat) : Bool :=
  match (s.gates g).active with
  | none => true
  | some l =>
    if !(l.entries.getD (l.at_ s.hallTime).1 default).guard then true
    else match s.gateCloses g c with
      | none => true
      | some t => decide ((bytes + 20) * 10 < t * 1000)

/-- The pending list of a group becomes active when its time has come (R610, R613). -/
def State.gateSwitch (s : State) (g : Nat) : State :=
  let x := s.gates g
  match x.pending with
  | none => s
  | some l =>
    if s.hallTime < l.base then s else
      let s := s.setGates g ⟨some { l with late := false }, none⟩
      let s := if l.late then s.setFlag .SCH_ERR 0 else s
      (s.count .SCH_GATE_SWITCH_COUNT).raise .pfs evGateSwitched g l.base (l.entries.length + b2n l.late * 2 ^ 16)

/-! ## Shapers and policers (R617, R618) -/

/-- The greatest level of a bucket whose burst field is `n` (R624). -/
def burstOf (n : Nat) : Int := (max n 1 * 65536 : Nat)

/-- A bucket filled up to now at a rate in GB/s; one that has never been used is full (log 37). -/
def fillBucket (x : Option Bucket) (now rate burst : Nat) : Bucket :=
  match x with
  | none => ⟨burstOf burst, now⟩
  | some b => ⟨min (burstOf burst) (b.level + (rate * (now - b.at_) : Nat)), now⟩

/-- The shaper of a class, filled up to now. -/
def State.shaper (s : State) (g c : Nat) : Bucket :=
  fillBucket (SMap.find s.sch.shapers (8 * g + c)) s.now (s.comF (.SCH_CLASS_CFG g c) 47 38) (s.comF (.SCH_CLASS_CFG g c) 37 32)

/-- The policer of a class, filled up to now. -/
def State.policer (s : State) (g c : Nat) : Bucket :=
  fillBucket (SMap.find s.sch.policers (8 * g + c)) s.now (s.comF (.SCH_CLASS_CFG g c) 63 54) (s.comF (.SCH_CLASS_CFG g c) 53 48)

/-- Every shaper and policer filled up to now, before their rates change. -/
def State.fillAll (s : State) : State :=
  let f (x : SMap Bucket) (get : Nat → Nat → Bucket) : SMap Bucket := SMap.mapv x fun k _ => get (k / 8) (k % 8)
  { s with sch := { s.sch with shapers := f s.sch.shapers s.shaper, policers := f s.sch.policers s.policer } }

/-- Whether the shaper of a class has credit. -/
def State.shaped (s : State) (g c : Nat) : Bool := s.comF (.SCH_CLASS_CFG g c) 47 38 == 0 || decide (0 ≤ (s.shaper g c).level)

/-- A frame of a class starts: its shaper is charged. -/
def State.shape (s : State) (g c bytes : Nat) : State :=
  if s.comF (.SCH_CLASS_CFG g c) 47 38 = 0 then s else
    let b := s.shaper g c
    { s with sch := { s.sch with shapers := SMap.put s.sch.shapers (8 * g + c) { b with level := b.level - (bytes + 20 : Nat) } } }

/-- A frame of a class arrives at its policer: whether it passes, and the state with the bucket charged. -/
def State.police (s : State) (g c bytes : Nat) : Bool × State :=
  if s.comF (.SCH_CLASS_CFG g c) 63 54 = 0 then (true, s) else
    let b := s.policer g c
    if b.level < 0 then (false, (s.count (.SCH_POLICE_DROP_COUNT g c)).setFlag .SCH_ERR 1)
    else (true, { s with sch := { s.sch with policers := SMap.put s.sch.policers (8 * g + c) { b with level := b.level - (bytes : Nat) } } })

/-! ## The choice of a frame (R366, R614, R615) -/

/-- The packets queued on a link. -/
def State.linkQueue (s : State) (g j : Nat) : List OutPkt := SMap.getD s.rtr.out (8 * g + j) []

/-- The first of the numbers after `last`, cyclically below `n`, that satisfies a predicate. -/
def nextOf (n last : Nat) (p : Nat → Bool) : Option Nat := ((List.range n).map fun i => (last + 1 + i) % n).find? p

/-- Whether the far end has paused a priority of a link. -/
def State.pausedAt (s : State) (g j prio : Nat) : Bool := decide (s.now < SMap.getD s.lnk.paused (8 * (8 * g + j) + prio) 0)

/-- The packet of a class that a link would send next: its virtual channel and input by round robin, paused ones skipped (R366). An
input is a link group, or the module's own injection. -/
def State.candidate (s : State) (g j c : Nat) : Option OutPkt :=
  let q := (s.linkQueue g j).filter fun o => o.pkt.tc == c && !s.pausedAt g j (s.prio g o.vc c)
  let k := (8 * g + j) * 8 + c
  match nextOf 4 (SMap.getD s.rtr.turnVc k 3) fun v => q.any (·.vc == v) with
  | none => none
  | some v =>
    let q := q.filter (·.vc == v)
    match nextOf 9 (SMap.getD s.rtr.turnIn (k * 4 + v) 8) fun i => q.any (·.input / 8 == i) with
    | none => none
    | some i => q.find? (·.input / 8 == i)

/-- Deficit round robin among the eligible classes, whose heads have the lengths `len` (R615); `fuel` bounds the turns. -/
def drrPick (eligible : List Nat) (quantum len : Nat → Nat) : Nat → Drr → Option Nat × Drr
  | 0, d => (none, d)
  | fuel + 1, d =>
    let c := d.cur
    let d := if eligible.contains c && !d.visited.contains c then
        { d with deficit := SMap.put d.deficit c (SMap.getD d.deficit c 0 + quantum c), visited := c :: d.visited }
      else d
    if eligible.contains c ∧ len c ≤ SMap.getD d.deficit c 0 then (some c, d)
    else drrPick eligible quantum len fuel { d with visited := d.visited.filter (· != c), cur := (c + 1) % 8 }

/-- The classes of a link whose gate is open and whose shaper has credit, with the packet that each would send next. -/
def State.opened (s : State) (g j : Nat) : List (Nat × OutPkt) :=
  ((List.range 8).filterMap fun c => (s.candidate g j c).map fun o => (c, o)).filter fun x => s.gateOpen g x.1 && s.shaped g x.1

/-- The class that a link serves next with its packet, and the state with its turns taken (R614). -/
def State.pickFrame (s : State) (g j : Nat) : Option OutPkt × State :=
  let ok := (s.opened g j).filter fun x => s.guardPasses g x.1 x.2.bytes
  let strict := ok.filter fun x => s.comF (.SCH_CLASS_CFG g x.1) 31 31 == 1
  match strict.getLast? with
  | some x => (some x.2, s)
  | none =>
    let len (c : Nat) : Nat := ((ok.find? (·.1 == c)).map (·.2.bytes)).getD 0
    if ok = [] then (none, s) else
      let r := drrPick (ok.map (·.1)) (fun c => s.comF (.SCH_CLASS_CFG g c) 20 0) len 1024 (s.drr g)
      match r.1 with
      | none => (none, s)
      | some c =>
        let d := { r.2 with deficit := SMap.put r.2.deficit c (SMap.getD r.2.deficit c 0 - len c) }
        (((ok.find? (·.1 == c)).map (·.2)), { s with sch := { s.sch with drr := SMap.put s.sch.drr g d } })

/-- Put a packet on its link: it leaves its queue, and its frame is sent whole or ended as bad (R359, R612, R636). -/
def State.startFrame (s : State) (g j : Nat) (o : OutPkt) (stomped : Bool) : State :=
  let c := o.pkt.tc
  let k := 8 * g + j
  let bytes := if stomped then min 4224 o.bytes else o.bytes
  let s := (s.sampled (8 * g + c)).sampleLeft (8 * g + c) o.since
  let s := { s with rtr := { s.rtr with
    out := SMap.put s.rtr.out k ((s.linkQueue g j).erase o)
    turnVc := SMap.put s.rtr.turnVc (k * 8 + c) o.vc
    turnIn := SMap.put s.rtr.turnIn ((k * 8 + c) * 4 + o.vc) (o.input / 8) } }
  let s := (s.shape g c bytes).drrEmpty g c
  let s := (s.countPort g .RTR_PORT_PKT_COUNT 1).countPort g .RTR_PORT_BYTE_COUNT bytes
  let p := { o.pkt with hops := o.pkt.hops + 1 }
  let s := s.setGroupL g { s.lgroup g with idle := false }
  let s := s.sendFrame g j (s.frameOf p g j stomped) o.pkt.note
  if o.input < 64 then s.pauseCheck (o.input / 8) (o.input % 8) else s

/-- A link of a group can start a frame (R345, R614). -/
def State.frameStart (s : State) (g j : Nat) : State :=
  if (s.link g j).state ≠ .inService ∨ !s.addressed g then s
  else
    let r := s.pickFrame g j
    match r.1 with
    | none => r.2
    | some o => r.2.startFrame g j o false

/-- The transmit buffer of a link runs empty before its frame ends (R637). A frame that waits whole cannot underrun. -/
def State.underrun (s : State) (g j : Nat) : State :=
  if (s.link g j).state ≠ .inService ∨ !s.addressed g then s
  else
    let r := s.pickFrame g j
    match r.1 with
    | none => s
    | some o =>
      let cur := s.regF (.LNK_TX_THRESHOLD g) 28 16
      if o.bytes ≤ cur then s
      else (((r.2.startFrame g j o true).lcount g j 10 1).setFlag (.LNK_GERR g) 3).setRegF (.LNK_TX_THRESHOLD g) 28 16 (min 4352 (cur + 256))

/-! ## Cycles lost (R282, R374, R612) -/

/-- Whether a packet at the head of a virtual channel or class of a link is paused (R374). -/
def State.pausedHead (s : State) (g j : Nat) : Bool := (s.linkQueue g j).any fun o => s.pausedAt g j (s.prio g o.vc o.pkt.tc)

/-- The cycles that a port has lost to a pause in one FCLK cycle: those of ports 0 to 7 with a paused head, of injection held under R372,
and of ejection with a packet that waits (R374; log 74). -/
def State.lostToPause (s : State) (port : Nat) : Bool :=
  if port < 8 then (List.range 8).any fun j => s.pausedHead port j
  else if port = 8 then (List.range 8).any fun g => (List.range 8).any fun c => s.holdsInjection g c
  else s.rtr.eject != []

/-- The class, virtual channel and input of a packet: what the three steps of R366 choose. -/
def OutPkt.flow (o : OutPkt) : Nat × Nat × Nat := (o.pkt.tc, o.vc, o.input / 8)

/-- The choices of R366 that have a packet ready on a link in service: a class open whose next frame the guard lets pass, a virtual
channel that is not paused, an input. -/
def State.contenders (s : State) (g j : Nat) : List (Nat × Nat × Nat) :=
  if (s.link g j).state ≠ .inService ∨ !s.addressed g then [] else
    let classes := ((s.opened g j).filter fun x => s.guardPasses g x.1 x.2.bytes).map (·.1)
    (((s.linkQueue g j).filter fun o => classes.contains o.pkt.tc && !s.pausedAt g j (s.prio g o.vc o.pkt.tc)).map OutPkt.flow).eraseDups

/-- Whether a port has a packet ready that another is sent before (R366, R374; log 74). -/
def State.lostToArb (s : State) (port : Nat) : Bool :=
  if port < 8 then (List.range 8).any fun j => decide (2 ≤ (s.contenders port j).length)
  else if port = 8 then (List.range 8).any fun g => (List.range 8).any fun j =>
    (s.contenders g j).any fun x => x.2.2 == 8 && (s.pickFrame g j).1.map OutPkt.flow != some x
  else decide (2 ≤ ((s.rtr.eject.map OutPkt.flow).eraseDups).length)

/-- Whether the guard alone holds a frame of a group (R612). -/
def State.guardHolds (s : State) (g : Nat) : Bool :=
  (List.range 8).any fun j => (s.opened g j).any fun x => !s.guardPasses g x.1 x.2.bytes

/-- Count `n` FCLK cycles for what waits in them (R282, R374, R620). -/
def State.lostCycles (s : State) (n : Nat) : State :=
  let s := if s.qpe.allocWait.any fun o => s.stillWaits o && !s.mayTake o then s.countN .QPE_SCOREBOARD_FULL_COUNT n else s
  let s := (List.range 10).foldl (fun (s : State) p =>
    let s := if s.lostToPause p then s.countPort p .RTR_PORT_STALL_PAUSE_COUNT n else s
    if s.lostToArb p then s.countPort p .RTR_PORT_STALL_ARB_COUNT n else s) s
  (List.range 8).foldl (fun (s : State) g => if s.guardHolds g then s.countN (.SCH_GUARD_STALL_COUNT g) n else s) s

/-- One nanosecond passes with the FCLK and TCLK cycles that begin in it (R37). -/
def State.clock (s : State) : State := (s.lostCycles ((s.now + 1) * 8 / 5 - s.now * 8 / 5)).arbsWork.tick

/-! ## Sampling (R619) -/

/-- The values of a queue over a period of `span` ns are published, and its next period begins. -/
def Sample.publish (x : Sample) (span now : Nat) : Sample :=
  { (default : Sample) with
    last := now
    meanDepth := sat 0xFFFF ((x.area + span * 1024 - 1) / (span * 1024))
    maxSojourn := sat 0xFFFFFF x.max
    meanSojourn := if x.left = 0 then 0 else sat 0xFFFFFF (x.sum / x.left) }

/-- The end of a sampling period: every queue's values are published together. -/
def State.samplePeriod (s : State) : State :=
  let span := max 1 (s.now - s.rtr.sampleStart)
  let s := (List.range 72).foldl (fun (s : State) k => s.sampled k) s
  { s with rtr := { s.rtr with sampleStart := s.now, samples := SMap.mapv s.rtr.samples fun _ x => x.publish span s.now } }

/-! ## Frames received (R635) -/

/-- Whether a frame is link control (R631): the Moluc EtherType and a first payload byte of 0. -/
def State.isControl (s : State) (b : Bytes) : Bool := beNat (slice b 12 2) == s.etherType && beNat (slice b 14 1) == 0

/-- A packet has reached the router through a link (R359, R362, R618). A receive buffer of 256 KiB that is full drops it,
whatever each virtual channel holds of it (log 95). -/
def State.packetIn (s : State) (g j bytes : Nat) (p : Pkt) : State :=
  let r := s.police g p.tc bytes
  if !r.1 then r.2
  else
    let s := r.2
    let vc := bits p.route 2 2 * 2 + bits p.route 0 0
    let held := sumList ((s.inBuffer g j).map (·.bytes))
    if 256 * 1024 < held + bytes then (s.count .RTR_OVERFLOW_COUNT).setFlag .RTR_ERR 2
    else (s.placeNotify p (some g) (8 * g + j) vc).pauseCheck g j

/-- A HELLO received on a link (R324, R631); one on a switched link tells no more than its epoch. -/
def State.helloIn (s : State) (g j : Nat) (h : Hello) : State :=
  let s := s.takeEpoch h.mod h.epoch
  if s.switchedGroup g then s else s.helloLink g j h

/-- The packet of a frame that goes to the router: one of Moluc's EtherType on a direct group, an encapsulated one on a switched group
(R345, R635 order 9); none where the encapsulation is wrong, and no answer where it is no such frame. -/
def State.framePkt (s : State) (g : Nat) (body : Bytes) (note : Option (Nat × Nat × Nat)) : Option (Option Pkt) :=
  let typ := beNat (slice body 12 2)
  if !s.switchedGroup g && typ == s.etherType then some (some (parsePkt (body.drop 14) note))
  else if s.switchedGroup g && typ == 0x86DD then some (s.unwrap g body note)
  else none

/-- A frame fails its check or its length on an IN_SERVICE link: where its packet would have been first on an idle link, a free value says
whether the router had begun to forward it, and then its copy is ended as bad (R359, R636; log 75). -/
def State.cutThrough (s : State) (g j : Nat) (body : Bytes) (note : Option (Nat × Nat × Nat)) : State :=
  if (s.link g j).state ≠ .inService ∨ s.isControl body then s
  else
    match (s.framePkt g body note).join with
    | none => s
    | some p =>
      if s.freeVal % 2 = 0 then s.drawn
      else
        let s := s.drawn
        let t := s.packetIn g j (min 4224 (body.length + 4)) p
        let idle (k : Nat) : Bool := s.linkQueue (k / 8) (k % 8) == [] && (s.link (k / 8) (k % 8)).state == .inService && s.addressed (k / 8)
        let sent (k : Nat) : Option (Nat × OutPkt) :=
          ((t.linkQueue (k / 8) (k % 8)).find? fun o => o.input == 8 * g + j && idle k).map fun o => (k, o)
        match (List.range 64).findSome? sent with
        | none => s
        | some (k, o) =>
          let r := t.pickFrame (k / 8) (k % 8)
          if r.1 = some o then r.2.startFrame (k / 8) (k % 8) o true else s

/-- The codewords that a received frame spans, at most one for each of its 642 bytes and two more, may have had symbols corrected, at most 15 in each:
how many is free (R654; log 61). -/
def State.fecCorrected (s : State) (g j n : Nat) : State :=
  let words := s.freeVal % (n / 642 + 3)
  let s := s.drawn
  let symbols := words + s.freeVal % (14 * words + 1)
  (s.drawn.lcount g j 12 words).lcount g j 14 symbols

/-- The MAC judges a received frame in the order of R635; `ok` is false when the frame spans a codeword that could not be corrected. Any but a HELLO,
PTP or MAC Control frame ends the idle time of its group (R641). -/
def State.frameIn (s : State) (g j : Nat) (data : Bytes) (ok : Bool) (note : Option (Nat × Nat × Nat)) : State :=
  let n := data.length
  let body := data.take (n - 4)
  let check := data.drop (n - 4)
  let typ := beNat (slice data 12 2)
  let passed (s : State) : State := (s.lcount g j 0 1).lcount g j 1 n
  let off := (s.link g j).state = .off ∨ (s.link g j).state = .down
  let hello := s.isControl body && beNat (slice body 15 1) == 1
  let s := if off then s else s.fecCorrected g j n
  let s := if off ∨ typ = 0x8808 ∨ typ = 0x88F7 ∨ hello then s else s.setGroupL g { s.lgroup g with idle := false }
  let other (s : State) : State := s.lcount g j 7 1
  if off then s
  else if n < 64 then s.lcount g j 4 1
  else if 4224 < n then (s.lcount g j 5 1).cutThrough g j (data.take 4220) note
  else if ok && check == frameCheck body true then (s.lcount g j 3 1).cutThrough g j body note
  else if !ok || check != frameCheck body false then (s.lcount g j 2 1).cutThrough g j body note
  else if typ = 0x8808 then (passed s).macControlIn g j (body.drop 14)
  else if typ = 0x88F7 then (passed s).ptpIn g j (body.drop 14)
  else if s.isControl body then
    if hello then (passed s).helloIn g j (parseHello (body.drop 14)) else other s
  else if (s.link g j).state ≠ .inService then other s
  else
    match s.framePkt g body note with
    | some (some p) => (passed s).packetIn g j n p
    | some none => (passed s).gutter gEncap
    | none => other s

end Sys2Proof.Machine
end

