-- ==== Sys2Proof/Machine/LinkRows.lean ====
section
/-!
DEFINITION. The commands of the links and of the MAC (R629 to R653).
-/

namespace Sys2Proof.Machine

/-! ## Frames and pause (R635 to R640) -/

/-- FRAME_RECEIVE (R635): a frame arrives on a link. `ok` is false when it spans a codeword that could not be corrected; `note` goes with
a packet that carries it (log 21). -/
def execFrameReceive (group link : Nat) (data : Bytes) (ok : Bool) (note : Option (Nat × Nat × Nat)) (s : State) : Result :=
  run s fun s => s.frameIn group link data ok note

/-- PAUSE_EXPIRY (R639): a received pause time has run out. -/
def execPauseExpiry (group link prio : Nat) (s : State) : Result :=
  run s fun s => { s with lnk := { s.lnk with paused := SMap.del s.lnk.paused (8 * (8 * group + link) + prio) } }

/-- PAUSE_REFRESH (R639): half of the pause time has passed for a priority that this end still holds. -/
def execPauseRefresh (group link prio : Nat) (s : State) : Result := run s fun s => s.pauseRefresh group link prio

/-! ## Bring-up and departure (R630 to R634) -/

/-- OPTICAL_POWER_STABLE (R630 step 1). -/
def execOpticalPowerStable (group link : Nat) (s : State) : Result := run s fun s => s.lightStable group link

/-- LINK_LOCK (R630 step 2, R643). -/
def execLinkLock (group link : Nat) (s : State) : Result := run s fun s => (s.linkLock group link).lpiWoken group

/-- SWITCHED_LINK_IN_SERVICE (R630 step 3). -/
def execSwitchedLinkInService (group link : Nat) (s : State) : Result := run s fun s => s.switchedIn group link

/-- TRAINING_STEP_TIMEOUT (R630): a step of bring-up other than the first overruns its limit. -/
def execTrainingStepTimeout (group link : Nat) (s : State) : Result :=
  run s fun s => if 2 ≤ (s.link group link).step then s.linkTimeout group link else s

/-- HELLO (R631 to R633): a frame with a HELLO arrives on a link. -/
def execHello (group link : Nat) (data : Bytes) (s : State) : Result :=
  run s fun s => if s.isControl data then s.frameIn group link data true none else s

/-- HELLO_SEND (R630). -/
def execHelloSend (group link : Nat) (s : State) : Result := run s fun s => s.helloDue group link

/-- HELLO_LOST (R633): no HELLO for 800 µs on a direct link in service. -/
def execHelloLost (group link : Nat) (s : State) : Result :=
  run s fun s => if s.switchedGroup group then s else s.linkLost group link 4

/-- SIGNAL_LOST (R633): a lane has been dark for 1 µs; `signal` are the lanes with light. -/
def execSignalLost (group link signal : Nat) (s : State) : Result :=
  run s fun s => (s.updLink group link fun l => { l with signal := signal % 16 }).linkLost group link 1

/-- ALIGN_LOST (R633). -/
def execAlignLost (group link : Nat) (s : State) : Result :=
  run s fun s => (s.updLink group link fun l => { l with pcs := false }).linkLost group link 2

/-- FEC_DEGRADE (R633, R654): `count` codewords of a 1 ms window could not be corrected. -/
def execFecDegrade (group link count : Nat) (s : State) : Result :=
  run s fun s =>
    let s := s.lcount group link 13 count
    if (s.link group link).state = .inService ∧ s.comF (.LNK_GCFG1 group) 7 0 < count then
      (s.setFlag (.LNK_GERR group) 1).linkLost group link 3
    else s

/-- HELD_LINK_RETRY (R632): a HELD link returns to step 1 every 100 ms. -/
def execHeldLinkRetry (group link : Nat) (s : State) : Result :=
  run s fun s => if (s.link group link).state = .held then (s.linkRest group link).linkEvent group link else s

/-! ## Low-power idle (R641 to R643) -/

/-- LPI_IDLE_EXPIRY (R641, R642): no frame has passed on a group for LPI_IDLE_US. -/
def execLpiIdleExpiry (group : Nat) (s : State) : Result := run s fun s => s.lpiAsk group

/-- LPI_WAKE (R643): light appears from the far end of a QUIET group; the other causes wake it by themselves. -/
def execLpiWake (group : Nat) (s : State) : Result := run s fun s => s.lpiWake group

/-- WAKE_TIMEOUT (R643). -/
def execWakeTimeout (group : Nat) (s : State) : Result := run s fun s => s.wakeFailed group

/-! ## Connectors (R645) -/

/-- CONNECTOR_OPEN (R645). -/
def execConnectorOpen (group : Nat) (s : State) : Result := run s fun s => s.contactOpen group

/-- CONNECTOR_CLOSE (R645). -/
def execConnectorClose (group : Nat) (s : State) : Result := run s fun s => s.contactClose group

/-- CONNECTOR_DEBOUNCE (R645): a change of the contact has held for 10 ms. -/
def execConnectorDebounce (group : Nat) (s : State) : Result := run s fun s => s.contactHeld group

/-! ## Registers (R649 to R653) -/

/-- What a write of `LNK_GCTL` does (R644, R650). -/
def State.gctl (s : State) (g value : Nat) : State :=
  let was := s.groupEnabled g
  let s := s.setReg (.LNK_GCTL g) (BitVec.ofNat 64 (bits value 31 29 * 2 ^ 29 + bits value 23 0))
  let s := if bit value 28 then ((List.range 8).foldl (fun (s : State) j => s.linkLeave g j 0x0A) s).lpiLeft g else s
  if was = s.groupEnabled g then s
  else if was then (s.groupLeave g 8).groupDown g 8
  else s.groupJudge g

/-- A write of `LNK_GCTL` by a function: an expert write to a group's instance of the block. -/
def State.gctlWrite (s : State) (fn g value : Nat) : State :=
  if 7 < g then s else s.expert fn (Reg.LNK_GCTL g).addr 4 fun s => s.gctl g value

/-- LNK_GROUP_ENABLE_CLEAR (R644, R650): a write of `LNK_GCTL` with ENABLE 0. -/
def execLnkGroupEnableClear (fn group value : Nat) (s : State) : Result :=
  run s fun s => s.gctlWrite fn group (setBits value 31 31 0)

/-- LNK_GROUP_ENABLE_SET (R644, R650): a write of `LNK_GCTL` with ENABLE 1. -/
def execLnkGroupEnableSet (fn group value : Nat) (s : State) : Result :=
  run s fun s => s.gctlWrite fn group (setBits value 31 31 1)

/-- LNK_GROUP_RETRAIN (R633, R650): a write of `LNK_GCTL` with RETRAIN 1. -/
def execLnkGroupRetrain (fn group value : Nat) (s : State) : Result :=
  run s fun s => s.gctlWrite fn group (setBits value 28 28 1)

/-- LPI_ENABLE_WRITE (R641, R643, R650): a write of `LNK_GCTL`. A QUIET group without LPI_ENABLE wakes at the end of the command. -/
def execLpiEnableWrite (fn group value : Nat) (s : State) : Result := run s fun s => s.gctlWrite fn group value

/-- What a write of `LNK_LCTL` does (R633, R653). -/
def State.lctl (s : State) (g j value : Nat) : State :=
  let was := s.linkDisabled g j
  let s := s.setReg (.LNK_LCTL g j) (BitVec.ofNat 64 (bits value 1 1 * 2))
  let s := if bit value 0 then s.linkLeave g j 0x0A else s
  let s := if was = s.linkDisabled g j then s else if was then s.groupRetry g else s.linkLeave g j 8
  s.lpiLeft g

/-- A write of `LNK_LCTL` by a function. -/
def State.lctlWrite (s : State) (fn g j value : Nat) : State :=
  if 7 < g ∨ 7 < j then s else s.expert fn (Reg.LNK_LCTL g j).addr 4 fun s => s.lctl g j value

/-- LNK_LINK_DISABLE (R633, R653): a write of `LNK_LCTL` with DISABLE 1. -/
def execLnkLinkDisable (fn group link : Nat) (s : State) : Result := run s fun s => s.lctlWrite fn group link 2

/-- LNK_LINK_ENABLE (R653): a write of `LNK_LCTL` with DISABLE 0. -/
def execLnkLinkEnable (fn group link : Nat) (s : State) : Result := run s fun s => s.lctlWrite fn group link 0

/-- LNK_LINK_RETRAIN (R633, R653): a write of `LNK_LCTL` with RETRAIN 1. -/
def execLnkLinkRetrain (fn group link value : Nat) (s : State) : Result :=
  run s fun s => s.lctlWrite fn group link (setBits value 0 0 1)

/-- The start threshold that a FLOOR stands for (R652). -/
def floorOf (v : Nat) : Nat := max 128 (min 4352 (bits v 12 0))

/-- What a write of `LNK_TX_THRESHOLD` does (R637, R652): FLOOR is stored, and RESTORE loads it into CURRENT. -/
def State.txThreshold (s : State) (g value : Nat) : State :=
  let s := s.setRegF (.LNK_TX_THRESHOLD g) 12 0 (bits value 12 0)
  if bit value 31 then s.setRegF (.LNK_TX_THRESHOLD g) 28 16 (floorOf value) else s

/-- TX_THRESHOLD_RESTORE (R637, R652): a write of `LNK_TX_THRESHOLD` with RESTORE 1. -/
def execTxThresholdRestore (fn group value : Nat) (s : State) : Result :=
  run s fun s => if 7 < group then s else
    s.expert fn (Reg.LNK_TX_THRESHOLD group).addr 4 fun s => s.txThreshold group (setBits value 31 31 1)

/-- LNK_COMMIT (R649). -/
def execLnkCommit (fn group : Nat) (s : State) : Result :=
  run s fun s => if 7 < group then s else
    let c0 := Reg.LNK_GCFG0 group
    let c1 := Reg.LNK_GCFG1 group
    s.commit fn (.LNK_COMMIT group)
      (fun s => s.regF c0 31 16 != 0 && decide (8 ≤ s.regF c0 15 8) && decide (s.regF c0 15 8 ≤ 128) &&
        decide (s.regF c0 7 0 < s.regF c0 15 8) && s.regF c1 31 30 != 3 && decide (20 ≤ s.regF c1 25 16) &&
        decide (s.regF c1 25 16 ≤ 1000) && s.regF c1 7 0 != 0)
      (fun s => s.setFlag (.LNK_GERR group) 4) [c0, c1]

end Sys2Proof.Machine
end

