-- ==== Sys2Proof/Machine/WorkRows.lean ====
section
/-!
DEFINITION. The work descriptors of chapters 5 and 6 and what carries them on: message issue, continuation lists, context
fills, and the completions of host and peer reads (R154 to R157, R256 to R282, R399, R465, R567 to R583, R731, R732).
-/

namespace Sys2Proof.Machine

/-! ## Operations that access no memory -/

/-- NOP (R256): it completes. -/
def execNop (n id : Nat) (s : State) : Result :=
  run s fun s => s.runOp n id 0x00 fun s _ o _ _ => s.opDone n o.id stSuccess 0 false 0 0

/-- FENCE (R94, R267): it begins, and completes once the operations ordered before it have met its strength. -/
def execFence (n id : Nat) (s : State) : Result :=
  run s fun s => s.runOp n id 0x06 fun s _ o _ _ => s.updOp n o.id fun o => { o with phase := .active }

/-- POWER_HINT as a descriptor (R268, R758): it completes when the power unit has taken the hint. -/
def execPowerHintDescriptor (n id : Nat) (s : State) : Result :=
  run s fun s => s.runOp n id 0x0C fun s _ o _ _ =>
    let h := leAt o.desc 8 1
    if !hintKnown h then s.opFail n o.id stBadDescriptor dField
    else match s.takeHint h (leAt o.desc 16 8) with
      | some s => s.opDone n o.id stSuccess 0 false 0 0
      | none => s

/-! ## Transfers and atomics (R256 to R266) -/

/-- READ (R257 to R260): its checks, then its messages. -/
def execRead (n id : Nat) (s : State) : Result :=
  run s fun s => s.runOp n id 0x01 fun s w o _ q => s.beginTransfer n w o q .write

/-- WRITE (R257 to R260). -/
def execWrite (n id : Nat) (s : State) : Result :=
  run s fun s => s.runOp n id 0x02 fun s w o _ q => s.beginTransfer n w o q .read

/-- WRITE_NOTIFY (R257 to R263). -/
def execWriteNotify (n id : Nat) (s : State) : Result :=
  run s fun s => s.runOp n id 0x03 fun s w o _ q => s.beginTransfer n w o q .read

/-- ATOMIC_FADD (R264 to R266). -/
def execAtomicFadd (n id : Nat) (s : State) : Result :=
  run s fun s => s.runOp n id 0x04 fun s w o _ q => s.beginAtomic n w o q

/-- ATOMIC_CAS (R264 to R266). -/
def execAtomicCas (n id : Nat) (s : State) : Result :=
  run s fun s => s.runOp n id 0x05 fun s w o _ q => s.beginAtomic n w o q

/-- MESSAGE_ISSUE (R281): message `k` of an operation takes an entry and is sent, or waits. -/
def execMessageIssue (n id k : Nat) (s : State) : Result := run s fun s => s.issueMsg n id k

/-! ## Tokens (R267, R569 to R573, R582, R607) -/

/-- Begin a TOKEN whose ACTION is `action`. -/
def State.tokenOp (s : State) (n id action : Nat) (f : State → Wq → Op → Nat → Qp → State) : State :=
  s.runOp n id 0x07 fun s w o qn q => if dAction o.desc = action then f s w o qn q else s

/-- Begin a TOKEN that may wait: while it does, it pins its context, for which there must be room (R276, R277). -/
def State.waitOp (s : State) (n id action : Nat) (f : State → Wq → Op → Nat → Qp → State) : State :=
  s.tokenOp n id action fun s w o qn q => if s.initPinned qn || s.pinRoom then f s w o qn q else s

/-- A TOKEN waits, until its WAIT_LIMIT if it has one. -/
def Op.waitFrom (o : Op) (now : Nat) : Op :=
  { o with phase := .waiting, waitEnd := if dWaitLimit o.desc = 0 then 0 else now + dWaitLimit o.desc }

/-- TOKEN_PRODUCE (R258, R263, R267): one token message to the wick module. -/
def execTokenProduce (n id : Nat) (s : State) : Result :=
  run s fun s => s.tokenOp n id 0 fun s _ o _ q =>
    let m := dWickModule o.desc
    if (q.connected ∧ m ≠ q.remoteModule) ∨ !s.inTorus m then s.opFail n o.id stBadDescriptor dField
    else s.beginMsgs n o.id [⟨0, 0, 0, m, .waiting, RBuf.empty, 0, 0, true⟩]

/-- TOKEN_CONSUME (R570): it becomes a waiter and is tested; beyond 4,096 waiting it waits at issue. -/
def execTokenConsume (n id : Nat) (s : State) : Result :=
  run s fun s => s.waitOp n id 1 fun s _ o _ q =>
    let k := dWick o.desc
    match s.wick k with
    | none => s.opFail n o.id stBadDescriptor dField
    | some x =>
      if dWickModule o.desc ≠ s.me ∨ x.depth < dTokens o.desc then s.opFail n o.id stBadDescriptor dField
      else if q.partition ≠ x.partition then s.opFail n o.id stLocalProtection 0
      else if 4096 ≤ s.consumes then
        if ((s.wq n).map (·.state)) = some .draining then s.opFail n o.id stAborted dQuiesce else s
      else
        let s := s.updOp n o.id fun o => o.waitFrom s.now
        let y : Waiter := ⟨.consume n o.id, dTokens o.desc⟩
        ((s.setWick k { x with waiters := x.waiters ++ [y] }).testWick k).endNewWaits n

/-- TOKEN_BARRIER (R430, R582): an arrival at a barrier, which waits for its instance's release. -/
def execTokenBarrier (n id : Nat) (s : State) : Result :=
  run s fun s => s.waitOp n id 2 fun s _ o _ q =>
    let g := leAt o.desc 16 2
    match s.bar g, s.group g with
    | some b, some x =>
      if b.vacant then s.opFail n o.id stBadDescriptor dField
      else if q.partition ≠ x.partition then s.opFail n o.id stLocalProtection 0
      else (((s.updOp n o.id fun o => o.waitFrom s.now).barArrive g n o.id).getD s).endNewWaits n
    | _, _ => s.opFail n o.id stBadDescriptor dField

/-- TOKEN_CADENCE (R607): it waits for the next boundary of its partition's cadence. One that is due now comes first, and does not release it. -/
def execTokenCadence (n id : Nat) (s : State) : Result :=
  run s fun s => s.waitOp n id 3 fun s _ o _ q =>
    let s := s.cadenceBoundary q.partition
    match SMap.find s.sch.cadences q.partition with
    | none => s.opFail n o.id stBadDescriptor dField
    | some c =>
      let s := s.updOp n o.id fun o => o.waitFrom s.now
      State.endNewWaits { s with sch := { s.sch with cadences := SMap.put s.sch.cadences q.partition { c with waits := c.waits ++ [(n, o.id)] } } } n

/-- The operation that stands behind another in its work queue. -/
def Wq.behind (w : Wq) (id : Nat) : Option Op := ((w.ops.dropWhile fun o => o.id != id).drop 1).head?

/-- A COLLECTIVE that stood behind a TOKEN that timed out is ended with it, for the whole group (R407; log 33). -/
def State.abortBehind (s : State) (n : Nat) (o : Op) : State :=
  match s.collOf n o.id with
  | some g => s.collAbort g stAborted dCancel false
  | none => if (s.unposted n o).isSome then (s.abortUnposted n o).opFail n o.id stAborted dCancel else s

/-- A boundary of its partition's cadence that is due now comes before the end of a wait for it (R607). -/
def State.boundaryFirst (s : State) (n id : Nat) : State :=
  match ((s.wq n).bind fun w => w.qp).bind s.qp with
  | some q => if (SMap.find s.sch.cadences q.partition).any fun c => c.waits.contains (n, id) then s.cadenceBoundary q.partition else s
  | none => s

/-- TOKEN_WAIT_TIMEOUT (R430, R570, R607): the WAIT_LIMIT of a waiting TOKEN expires; it has taken nothing, and an arrival it
has made at a barrier stands. -/
def execTokenWaitTimeout (n id : Nat) (s : State) : Result :=
  run s fun s =>
    let s := s.boundaryFirst n id
    match s.wq n with
    | none => s
    | some w =>
      match w.op id with
      | none => s
      | some o =>
        if dOp o.desc ≠ 7 ∨ o.phase ≠ .waiting ∨ o.waitEnd = 0 then s else
          let s := (s.dropWaits n id).opFail n id stTimeout 0
          match w.behind id with
          | some x => s.abortBehind n x
          | none => s

/-! ## Continuation lists and contexts (R154 to R157, R276 to R278) -/

/-- CHAIN (R154): its list is asked for. -/
def execChain (n id : Nat) (s : State) : Result :=
  run s fun s => s.runOp n id 0x08 fun s w o _ _ => s.readList n w o

/-- CHAIN_LIST_ARRIVAL (R155 to R157): the list is there and its descriptors run in place of the CHAIN, or its read has failed;
while parts of it have not been asked for, they are. -/
def execChainListArrival (n id : Nat) (s : State) : Result :=
  run s fun s =>
    match s.wq n with
    | none => s
    | some w =>
      match w.op id with
      | none => s
      | some o =>
        if o.phase ≠ .listRead then s
        else if o.list.fail.isSome ∨ (o.list.ready ∧ o.list.bytes.length = leAt o.desc 16 4 * 64) then
          if s.listAwaited n id then s else s.listArrived n w o
        else s.readList n w o

/-! ## Completions of host and peer requests (R729 to R732) -/

/-- CONTEXT_FILL_RETURN (R278): the read of a queue pair's context slot comes back. -/
def execContextFillReturn (qpn : Nat) (data : Bytes) (s : State) : Result :=
  run s fun s =>
    let mine (t : Nat × Tag) : Bool := t.2.waits.isNone && match t.2.purpose with | .context n => n == qpn | _ => false
    match s.hif.ports.findSome? fun e => (e.2.tags.find? mine).map fun t => (e.1, t.1) with
    | none => s
    | some (p, t) => (s.freeTag p t).fillDone qpn data

/-- HOST_READ_COMPLETION (R104, R731, R732): a completion for tag `t` of a port, with status 0 success, 1 Unsupported Request
or Completer Abort, or 2 poisoned. One for a retired tag is discarded, and the tag is free again (log 34). -/
def execHostReadCompletion (p t status : Nat) (data : Bytes) (s : State) : Result :=
  run s fun s =>
    let port := s.port p
    match s.liveTag p t, port.retired.find? fun x => x.1 == t with
    | some x, _ =>
      let s := s.freeTag p t
      if status = 0 then s.arrived x (.inl (slice data 0 x.len))
      else
        let kind := if status = 1 then 0 else 1
        let s := s.count (.HIF_ERR_CPL_COUNT p)
        let s := if (s.fn x.fn).aer.contains kind then s else s.setFn x.fn { s.fn x.fn with aer := (s.fn x.fn).aer ++ [kind] }
        s.arrived x (.inr (if status = 1 then 2 else 3))
    | none, some x =>
      let s := (s.setPort p { port with retired := port.retired.erase x }).issueNext p
      (s.count (.HIF_LATE_CPL_COUNT p)).setFlagOf x.2 .HIF_ERR 5
    | none, none => s

/-- COMPLETION_TIMEOUT (R731): the tag is retired, and what the request was for fails. -/
def execCompletionTimeout (p t : Nat) (s : State) : Result :=
  run s fun s =>
    match s.liveTag p t with
    | none => s
    | some x =>
      let s := s.freeTag p t
      let s := s.setPort p { s.port p with retired := (s.port p).retired ++ [(t, x.fn)] }
      (s.count (.HIF_CPL_TIMEOUT_COUNT p)).arrived x (.inr 1)

/-! ## Collectives and transit launches (R269, R270, R399, R465) -/

/-- A COLLECTIVE row: one that reaches issue wakes the adders and waits until they are on (R41, R399). -/
def State.collRow (s : State) (n id oper : Nat) : State :=
  match (s.wq n).bind fun w => w.op id with
  | none => s
  | some o =>
    let code := leAt o.desc 9 1
    if dOp o.desc ≠ 0x10 ∨ (code ≠ oper ∧ 1 ≤ code ∧ code ≤ 6) then s
    else if o.phase = .active ∨ (s.beginOp n id 0x10).isNone then s.collective n id oper
    else
      let s := (s.wakeDom (domAdder 0)).wakeDom (domAdder 1)
      if s.domOn (domAdder 0) && s.domOn (domAdder 1) then s.collective n id oper else s

/-- ALL_REDUCE (R400, R408 to R410). -/
def execAllReduce (n id : Nat) (s : State) : Result := run s fun s => s.collRow n id coAllReduce

/-- REDUCE (R400, R408 to R410). -/
def execReduce (n id : Nat) (s : State) : Result := run s fun s => s.collRow n id coReduce

/-- REDUCE_SCATTER (R400, R408 to R410). -/
def execReduceScatter (n id : Nat) (s : State) : Result := run s fun s => s.collRow n id coReduceScatter

/-- ALL_GATHER (R400, R408 to R410). -/
def execAllGather (n id : Nat) (s : State) : Result := run s fun s => s.collRow n id coAllGather

/-- BROADCAST (R400, R412). -/
def execBroadcast (n id : Nat) (s : State) : Result := run s fun s => s.collRow n id coBroadcast

/-- ALL_TO_ALL (R400, R413). -/
def execAllToAll (n id : Nat) (s : State) : Result := run s fun s => s.collRow n id coAllToAll

/-- TRANSIT (R270, R465, R466): a transit program is launched here or at another module. -/
def execTransit (n id : Nat) (s : State) : Result := run s fun s => s.transit n id

end Sys2Proof.Machine
end

