-- ==== Sys2Proof/Machine/XltRows.lean ====
section
/-!
DEFINITION. The commands of translation: mapping, dirty logs, walks, invalidation and drains (R107 to R139, R835).
-/

namespace Sys2Proof.Machine

/-! ## MAP_PAGES and UNMAP_PAGES (R118 to R123) -/

/-- The target kind of a code (R102). -/
def kindOf (c : Nat) : TKind := match c with | 0 => .host | 1 => .peer | _ => .hbm

/-- The mappings of an instance that overlap a range. -/
def overlapping (maps : SMap Leaf) (lo hi : Nat) : SMap Leaf :=
  maps.filter fun e => decide (e.1 < hi) && decide (lo < e.1 + pageBytes e.2.size)

/-- The mappings of an instance that do not overlap a range. -/
def apart (maps : SMap Leaf) (lo hi : Nat) : SMap Leaf :=
  maps.filter fun e => !(decide (e.1 < hi) && decide (lo < e.1 + pageBytes e.2.size))

/-- The body of MAP_PAGES once its targets are known: the checks of R120 from alignment on, and the change (R121). A mapping that
overlaps the range is replaced in whole. -/
def State.mapPages (s : State) (p k : Nat) (c : Cmd) (ps : List Nat) (targets : List Nat) : AdmRes :=
  let n := par ps 0
  let iva := par ps 1
  let size := par ps 2
  let bytes := pageBytes size
  let hi := iva + par ps 3 * bytes
  let kind := kindOf (par ps 4)
  match s.inst n with
  | none => .field s
  | some i =>
    let fresh := targets.mapIdx fun j t => (iva + j * bytes, (⟨size, kind, t, par ps 5 == 1, par ps 6 == 1⟩ : Leaf))
    let frames := if isPf n ∧ kind = .hbm then
        ((fresh.flatMap fun e => leafFrames e.2).eraseDups.filter fun f => !SMap.has s.hbm.frames f)
      else []
    if iva % bytes ≠ 0 ∨ targets.any (fun t => t % bytes != 0) then .fail 0x80 s
    else if (targets.any fun t => !s.targetOk n i kind t bytes) || decide (s.freeFrames < frames.length) then .fail 0x81 s
    else if par ps 7 = 0 ∧ overlapping i.maps iva hi ≠ [] then .fail 0x83 s
    else
      let old := overlapping i.maps iva hi
      let maps := fresh.foldl (fun m e => SMap.put m e.1 e.2) (apart i.maps iva hi)
      let need := tablesFor maps
      let kept := SMap.keep i.tables fun key _ => SMap.has need key
      match (s.takeNamed n frames).placeTables n i maps ((need.map (·.1)).filter fun key => !SMap.has kept key) kept with
        | none => .fail stResource s
        | some (tables, t) =>
          let t := (t.setMaps n i maps tables).forgetEnds n iva hi
          let res := resultBytes [(32, par ps 3), (32, t.tablesLeft n)]
          if old = [] then .reply stSuccess 0 res t
          else .wait { c with stage := 1 } ((t.invalidate n iva hi).beginDrain n (drainTarget (old.map (·.2))) (some (p, k)) res)

/-- MAP_PAGES (R119 to R121): with REPLACE of mapped pages it replies once their uses have ended. -/
def execMapPages (p k : Nat) (s : State) : Result :=
  run s fun s => s.adminRun p k 0x0040 anySel (instAuth p 0) fun s c ps =>
    let count := par ps 3
    if c.stage = 1 then .wait c s
    else if (s.inst (par ps 0)).isNone ∨ count = 0 ∨ 65536 < count ∨ (par ps 5 = 0 ∧ par ps 6 = 0) ∨ par ps 4 = 3 ∨
        2 ^ 48 < par ps 1 + count * pageBytes (par ps 2) then .field s
    else if par ps 8 = 0 then
      s.mapPages p k c ps ((List.range count).map fun j => par ps 9 + j * pageBytes (par ps 2))
    else match s.admRead p k c (par ps 9) (8 * count) with
      | (none, c, s) => .wait c s
      | (some none, _, s) => .fail 0x82 s
      | (some (some b), c, s) => s.mapPages p k c ps ((List.range count).map fun j => leAt b (8 * j) 8)

/-- UNMAP_PAGES (R122, R123): it replies once every use of a translation obtained before has ended. -/
def execUnmapPages (p k : Nat) (s : State) : Result :=
  run s fun s => s.adminRun p k 0x0041 anySel (instAuth p 0) fun s c ps =>
    let n := par ps 0
    let lo := par ps 1
    let hi := lo + par ps 3 * pageBytes (par ps 2)
    if c.stage = 1 then .wait c s
    else match s.inst n with
      | none => .field s
      | some i =>
        if par ps 3 = 0 ∨ 65536 < par ps 3 ∨ 2 ^ 48 < hi then .field s
        else
          let old := overlapping i.maps lo hi
          let maps := apart i.maps lo hi
          let need := tablesFor maps
          let t := s.setMaps n i maps (SMap.keep i.tables fun key _ => SMap.has need key)
          .wait { c with stage := 1 } ((t.invalidate n lo hi).beginDrain n (drainTarget (old.map (·.2))) (some (p, k))
            (resultBytes [(32, old.length)]))

/-! ## SET_DIRTY_LOG (R127 to R131) -/

/-- A dirty-log slot of an instance, unless it is closing. -/
def State.dirtySlot (s : State) (n k : Nat) : Option DirtySlot := (s.inst n).bind fun i => SMap.find i.dirty k

/-- DIRTY_LOG_ENABLE (R127): OPERATION 0. An OPERATION that names nothing is refused here too, and so is LENGTH 0, of which the spec says
nothing (log 70). -/
def execDirtyLogEnable (p k : Nat) (s : State) : Result :=
  run s fun s => s.adminRun p k 0x0042 (fun ps => par ps 0 == 0 || decide (2 < par ps 0)) (instAuth p 1) fun s _ ps =>
    let n := par ps 1
    let lo := par ps 3
    let len := par ps 4
    match s.inst n with
    | none => .field s
    | some i =>
      if 2 < par ps 0 ∨ lo % 4096 ≠ 0 ∨ len % 4096 ≠ 0 ∨ len = 0 ∨ 2 ^ 40 < len ∨ par ps 5 % 64 ≠ 0 ∨ par ps 6 % 64 ≠ 0 then .field s
      else if SMap.has i.dirty (par ps 2) || i.dirty.any fun d => decide (d.2.iva < lo + len) && decide (lo < d.2.iva + d.2.len) then
        .fail 0x80 s
      else
        let d : DirtySlot := ⟨lo, len, par ps 5, par ps 6, p * 128, false, [], 0, false, false, false, []⟩
        .ok [] (s.setSlot n (par ps 2) d)

/-- Whether the writes of a slot's bitmap lines are still being confirmed (R127). -/
def State.dirtyConfirming (s : State) (n k : Nat) : Bool :=
  s.hif.ports.any fun e => e.2.tags.any fun t => match t.2.purpose with
    | .dirtyConfirm i j _ _ => i == n && j == k
    | _ => false

/-- Confirm the bitmap lines of a slot that have been written to host and peer memory by a zero-length read behind them (R127); a read that
the function cannot issue now is still owed, and a peer read outside the windows in force fails (R131, R734). -/
def State.dirtyConfirm (s : State) (n k : Nat) : State :=
  match (s.inst n).bind fun i => SMap.find i.dirty k with
  | none => s
  | some d => d.posted.foldl (fun s x =>
      if x.2 && !s.peerOk (portOf d.issuer) x.1 0 then
        (s.updInst n fun i => { i with dirty := SMap.upd i.dirty k fun d => { d with posted := d.posted.erase x } }).dirtyStop n k
      else match s.hostRead d.issuer x.1 0 x.2 (.dirtyConfirm n k x.1 x.2) (some d.issuer) with
      | some s => s.updInst n fun i => { i with dirty := SMap.upd i.dirty k fun d => { d with posted := d.posted.erase x } }
      | none => s) s

/-- Make the other bitmap of a slot active (R127, R130). -/
def DirtySlot.swap (d : DirtySlot) : DirtySlot := { d with activeB := !d.activeB, newBits := 0, raised := false }

/-- DIRTY_LOG_SWITCH (R127, R130, R131): OPERATION 1. The retired bitmap is complete when it replies. A slot that is not in use is refused with
FIELD, and so it is by DISABLE (log 70). -/
def execDirtyLogSwitch (p k : Nat) (s : State) : Result :=
  run s fun s => s.adminRun p k 0x0042 (fun ps => par ps 0 == 1) (instAuth p 1) fun s c ps =>
    let n := par ps 1
    let slot := par ps 2
    match s.dirtySlot n slot with
    | none => .field s
    | some d =>
      if d.stopped then .fail 0x81 s
      else if s.dirtyConfirming n slot then .wait c s
      else
        let s := s.dirtyFlush n slot
        match s.dirtySlot n slot with
        | none => .field s
        | some e =>
          if e.stopped then .fail 0x81 s
          else if e.lines ≠ [] ∨ s.dirtyAwaits n slot then .wait c s
          else if e.posted ≠ [] then .wait c (s.dirtyConfirm n slot)
          else .ok [(32, e.newBits)] (s.setSlot n slot e.swap)

/-- DIRTY_LOG_DISABLE (R127): OPERATION 2. It replies once the slot is free. -/
def execDirtyLogDisable (p k : Nat) (s : State) : Result :=
  run s fun s => s.adminRun p k 0x0042 (fun ps => par ps 0 == 2) (instAuth p 1) fun s c ps =>
    let n := par ps 1
    let slot := par ps 2
    if (s.dirtySlot n slot).isNone then if c.stage = 1 then .ok [] s else .field s
    else
      let s := s.dirtyClose n slot
      if (s.dirtySlot n slot).isNone then .ok [] s else .wait { c with stage := 1 } s

/-! ## Walks, drains and registers (R112 to R114, R123, R137, R139) -/

/-- The operation that waited on a walk which met a poisoned table line takes its fault at once, so that its record goes before the ECC
event (R24, R115). -/
def State.poisonMet (s : State) (e : WalkEnd) : State :=
  match e.who with
  | .localData n id k _ => s.issueMsg n id k
  | .chainList n id _ =>
    match s.wq n with
    | none => s
    | some w => match w.op id with
      | some o => if o.phase = .listRead then s.readList n w o else s
      | none => s
  | .operand die en slot _ => s.readLocalOper (entryKey die en) slot
  | .collData g _ => s.collLoad g
  | _ => s

/-- TABLE_WALK_DONE (R112 to R115): walk `walk` has read its tables. -/
def execTableWalkDone (walk : Nat) (s : State) : Result :=
  run s fun s =>
    let s := s.walkDone walk
    (s.xlt.ends.filter fun e => e.fault == fkTablePoison).foldl State.poisonMet s

/-- TRANSLATION_DRAIN_DONE (R123, R700, R704): the uses of an instance's invalidated translations have ended. -/
def execTranslationDrainDone (n : Nat) (s : State) : Result := run s fun s => s.useDrainDone n

/-- XLT_COMMIT (R137): the walkers that it gives a port or shares serve what waits (R112). -/
def execXltCommit (fn : Nat) (s : State) : Result :=
  run s fun s =>
    let s := s.commit fn .XLT_COMMIT
      (fun s => 4 * s.regF .XLT_WALK_CFG 3 0 + s.regF .XLT_WALK_CFG 13 8 == 32)
      (fun s => s.setFlag .XLT_ERR 0) [.XLT_WALK_CFG]
    serveMisses s.xlt.missQueue s

/-- A write of `XLT_INVAL` (R139); while one is in progress it is dropped. -/
def State.xltInval (s : State) (fn : Nat) (f : State → State) : State :=
  s.expert fn Reg.XLT_INVAL.addr 4 fun s =>
    if s.xlt.invalWait ≠ [] then s.expertDrop Reg.XLT_INVAL.addr
    else
      let busy := s.xlt.walks.map (·.1)
      let s := f s
      { s with xlt := { s.xlt with invalWait := busy } }

/-- XLT_INVAL_ALL (R139): a write with ALL 1. -/
def execXltInvalAll (fn : Nat) (s : State) : Result := run s fun s => s.xltInval fn State.invalidateAll

/-- XLT_INVAL_INSTANCE (R139): a write with ALL 0. -/
def execXltInvalInstance (fn n : Nat) (s : State) : Result :=
  run s fun s => s.xltInval fn fun s => s.invalidate (n % 512) 0 (2 ^ 48)

end Sys2Proof.Machine
end

