-- ==== Sys2Proof/Machine/HifOps.lean ====
section
/-!
DEFINITION. Functions and ports of the host interface: held functions, function resets, windows, and the classification of register
writes (R691, R719 to R740, R834).
-/

namespace Sys2Proof.Machine

/-! ## Held functions (R737 to R739) -/

/-- What becomes of a request whose tag is retired because its function is held (R738): what can be read again will be, and the rest is
affected. -/
def State.unserved (s : State) (p : Nat) (t : Tag) : State :=
  match t.purpose with
  | .admUnit q => s.setAdm q { s.adm1 q with reading := 0 }
  | .cmdParam q k _ => s.setAdm q { s.adm1 q with cmds := SMap.upd (s.adm1 q).cmds k fun c => { c with data := RBuf.empty } }
  | .ringFetch _ _ => s
  | .chainList n id _ => s.updOp n id fun o => { o with list := RBuf.empty }
  | .localData n id k _ => (s.updOp n id fun o => { o with affected := true }).msgEnd n id k stAborted dBusMaster false
  | .context n => { s with qpe := { s.qpe with qps := SMap.upd s.qpe.qps n fun q => { q with filling := false } } }
  | .skyRead arr off => s.skyArrived arr (some off) (.inr 2)
  | .skyAtomic arr => s.skyArrived arr none (.inr 2)
  | .skyConfirm arr => s.skyArrived arr none (.inr 2)
  | .dirtyLine _ _ _ => s
  | .dirtyConfirm n k a peer =>
    let s := s.updInst n fun i => { i with dirty := SMap.upd i.dirty k fun d => { d with posted := d.posted ++ [(a, peer)] } }
    s.setPort p { s.port p with confirms := (s.port p).confirms ++ [(n, k)] }
  | .drain n => { s with xlt := { s.xlt with drains := s.xlt.drains.map fun d =>
      if d.inst == n && d.who.isSome then { d with owed := d.read } else d } }
  | .dropped => s
  | .operand die en _ _ => s.failEntry (entryKey die en) stAborted dBusMaster false
  | .operandConfirm die en order op _ => s.operConfirmed (entryKey die en) order op (.inr (stAborted, dBusMaster))
  | .collData g _ => s.collAbort g stAborted dBusMaster false

/-- Give up the requests of a port that satisfy `q` and wait to be issued: they never are. -/
def State.dropWaiting (s : State) (p : Nat) (q : Tag → Bool) : State :=
  let ts := (s.port p).tags.filter fun t => t.2.waits.isSome && q t.2
  let s := ts.foldl (fun (s : State) t => s.freeTag p t.1) s
  ts.foldl (fun (s : State) t => s.unserved p t.2) s

/-- Retire the tags of a port's outstanding requests that satisfy `q` (R737). -/
def State.retireIssued (s : State) (p : Nat) (q : Tag → Bool) : State :=
  let ts := (s.port p).tags.filter fun t => t.2.waits.isNone && q t.2
  let s := ts.foldl (fun (s : State) t =>
    let s := s.freeTag p t.1
    s.setPort p { s.port p with retired := (s.port p).retired ++ [(t.1, t.2.fn)] }) s
  ts.foldl (fun (s : State) t => s.unserved p t.2) s

/-- Retire every tag of a function (R737). -/
def State.retireTags (s : State) (fn : Nat) : State :=
  (s.dropWaiting (portOf fn) fun t => t.fn == fn).retireIssued (portOf fn) fun t => t.fn == fn

/-- A function is held: Bus Master Enable is cleared, or it enters D3hot (R737). -/
def State.holdFn (s : State) (fn : Nat) : State :=
  if (s.fn fn).held then s else (s.setFn fn { s.fn fn with held := true }).retireTags fn

/-- Ask again for a ring read of a work queue that was retired (R738). -/
def State.ringAgain (s : State) (n : Nat) (x : Nat × Nat) : State :=
  match s.wq n with
  | none => s
  | some w =>
    match s.lookupNow w.inst (w.ring + slotOf x.1 w.log2 * 64) .read with
    | (.ok .hbm t, s) =>
      let r := s.hbmRead t (x.2 * 64)
      if r.2.1 then (r.2.2.updWq n fun w => { w with reading := w.reading.erase x }).wqError n qrRingPoison else r.2.2.ringArrived n x.1 (.inl r.1)
    | (.ok kind t, s) =>
      if kind = .peer ∧ !s.peerOk (portOf w.inst) t (x.2 * 64) then s.ringArrived n x.1 (.inr 2)
      else (s.hostRead w.inst t (x.2 * 64) (kind = .peer) (.ringFetch n x.1) (some w.inst)).getD s
    | (_, s) => s.wqError n qrRingTranslation

/-- Ask again for the bitmap lines that a function has not read (R129, R738). -/
def State.dirtyAgain (s : State) (fn : Nat) : State :=
  s.vrt.insts.foldl (fun (s : State) i => i.2.dirty.foldl (fun (s : State) d =>
    if d.2.issuer ≠ fn then s else d.2.lines.foldl (fun (s : State) l =>
      if l.2.base.isSome then s else
        s.dirtyLoad i.1 d.1 l.1) s) s) s

/-- A function that was held may issue again: what was read in vain is read again, affected operations complete in ring order, waiting records
and replies are written, and pending messages are sent (R736, R739). -/
def State.resumeFn (s : State) (fn : Nat) : State :=
  let f := s.fn fn
  if !f.held || !f.busMaster || f.d3hot then s.msixFlush fn
  else
    let s := s.setFn fn { f with held := false }
    let s := s.q.wqs.foldl (fun (s : State) w => if w.2.inst = fn then w.2.reading.foldl (fun (s : State) x => s.ringAgain w.1 x) s else s) s
    let s := s.dirtyAgain fn
    let p := portOf fn
    let s := if isPf fn then
        let cs := (s.port p).confirms
        let s := s.setPort p { s.port p with confirms := [] }
        let s := cs.foldl (fun (s : State) c => s.dirtyConfirm c.1 c.2) s
        s.repliesDrain p
      else s
    let s := s.q.wqs.foldl (fun (s : State) w => if w.2.inst = fn then
      w.2.ops.foldl (fun (s : State) o => if o.affected then s.opCheck w.1 o.id else s) s else s) s
    let s := s.q.cqs.foldl (fun (s : State) c => if c.2.inst = fn then State.cqDrain c.1 (c.2.held.length + 1) s else s) s
    let s := s.q.lqs.foldl (fun (s : State) l => if l.2.inst = fn then State.lqDrain l.1 (l.2.held.length + 1) s else s) s
    s.msixFlush fn

/-! ## Function resets (R691, R740) -/

/-- The registers and the MSI-X state of a function return to their reset values (R740). -/
def State.clearFn (s : State) (fn : Nat) : State :=
  let s := s.resetRegsOf fn Reg.HIF_CAP.addr (Reg.HIF_WIN_BASE.addr + 8)
  { s with hif := { s.hif with fns := SMap.del s.hif.fns fn } }

/-- The virtual functions of a port disappear: each instance among them is destroyed (R691). -/
def State.vfsOff (s : State) (p : Nat) : State :=
  let s := s.setPort p { s.port p with vfEnabled := 0 }
  let vs := (s.vrt.insts.map (·.1)).filter fun n => portOf n == p && !isPf n
  let s := vs.foldl (fun (s : State) n => s.resetInst n true []) s
  ((s.hif.fns.map (·.1)).filter fun n => portOf n == p && !isPf n).foldl (fun (s : State) n => s.clearFn n) s

/-- A Function Level Reset of the physical function of a port (R740). -/
def State.pfReset (s : State) (p : Nat) : State :=
  let n := 128 * p
  let s := ((s.resetInst n false []).vfsOff p).admReset p
  let s := s.clearFn n
  if p = 0 then { s with adm := { s.adm with unlocked := 0 } } else s

/-- The dirty logs whose bitmaps lie behind a lost port: their lines cannot be written any more (R131, R834). -/
def State.dirtyLost (s : State) (p : Nat) : State :=
  s.vrt.insts.foldl (fun (s : State) i =>
    let s := i.2.dirty.foldl (fun (s : State) d =>
      if portOf d.2.issuer ≠ p then s
      else if d.2.closing then s.updInst i.1 fun x => { x with dirty := SMap.del x.dirty d.1 } else s.dirtyStop i.1 d.1) s
    s.useDrainDone i.1) s

/-- The link of a port is lost: from now on it issues nothing, and everything behind it is reset (R740, R834). The requests already
issued end by their timeouts (R731). -/
def State.portLoss (s : State) (p : Nat) : State :=
  let x := s.port p
  let s := s.setPort p { x with
    link := if x.perst then 0 else 1, width := 0, rate := 0, rootRid := none, losses := sat 65535 (x.losses + 1), confirms := [] }
  let s := (s.dropWaiting p fun _ => true).pfReset p
  ((s.unsetRegOf (128 * p) .QPE_QPC_BASE).unsetRegOf (128 * p) .QPE_QPC_SIZE).dirtyLost p

/-! ## The HBM window (R726, R727) -/

/-- The instance whose range holds a module HBM address. -/
def State.rangeOf (s : State) (a : Nat) : Option (Nat × Inst) :=
  s.vrt.insts.find? fun e => decide (e.2.hbmBase ≤ a) && decide (a < e.2.hbmBase + frameBytes * e.2.frames.length)

/-- Whether a function may name the range of an instance with its window (R727). -/
def mayName (fn n : Nat) : Bool := fn == 0 || (isPf fn && portOf n == portOf fn) || n == fn

/-- The address that a window byte shows, when it is backed (R726). -/
def State.windowAt (s : State) (fn off : Nat) : Option Nat :=
  let w := s.regOf fn .HIF_WIN_BASE
  let base := fld w 38 21 * frameBytes
  if fld w 0 0 = 0 ∨ !s.barOpen ∨ (!isPf fn && (s.inst fn).isNone) then none
  else match s.rangeOf base with
    | none => none
    | some e =>
      let a := base + off
      if a < e.2.hbmBase + frameBytes * e.2.frames.length && !(tableFrames e.2.tables).contains (a / frameBytes) then some a else none

/-- The runs of consecutive places at which a list of flags is set, as (first, length). -/
def runsOf : List Bool → Nat → List (Nat × Nat)
  | [], _ => []
  | false :: l, i => runsOf l (i + 1)
  | true :: l, i =>
    match runsOf l (i + 1) with
    | (j, n) :: rest => if j = i + 1 then (i, n + 1) :: rest else (i, 1) :: (j, n) :: rest
    | [] => [(i, 1)]

/-- The size of a function's window (R718). -/
def windowBytes (fn : Nat) : Nat := if isPf fn then 0x10000000 else 0x1000000

/-- A read of a window: each addressed byte that is backed, and zero elsewhere; poison of a word read marks the completion (R726). -/
def State.windowRead (s : State) (fn off : Nat) (lanes : List Bool) : State :=
  let shown := lanes.mapIdx fun i l => l && (s.windowAt fn (off + i)).isSome
  let r := (runsOf shown 0).foldl (fun (acc : Bytes × Bool × State) x =>
    match acc.2.2.windowAt fn (off + x.1) with
    | none => acc
    | some a =>
      let r := acc.2.2.hbmRead a x.2
      (overlay acc.1 x.1 r.1, acc.2.1 || r.2.1, r.2.2)) (zeros lanes.length, false, s)
  r.2.2.emit (.readData (portOf fn) fn r.1 r.2.1)

/-- A write of a window: the backed bytes are written, and the write of any other byte is logged (R726). -/
def State.windowWrite (s : State) (fn off : Nat) (data : Bytes) (lanes : List Bool) : State :=
  let flags := (data.zip lanes).mapIdx fun i e => e.2 && (s.windowAt fn (off + i)).isSome
  let lost := (data.zip lanes).mapIdx fun i e => e.2 && (s.windowAt fn (off + i)).isNone
  let s := (runsOf flags 0).foldl (fun (s : State) x =>
    match s.windowAt fn (off + x.1) with
    | none => s
    | some a => s.hbmWrite a (slice data x.1 x.2)) s
  if lost.any id then s.accessLog akUnbacked 1 fn (lanes.filter id).length off else s

/-! ## Register writes (R13, R719 to R724, R735) -/

/-- The place of an indexed register's copy at or before a distance from its first copy; the strides of its indices fall. -/
def placeAt : List (Nat × Nat) → Nat → Nat
  | [], _ => 0
  | d :: ds, x =>
    let i := min (x / d.2) (d.1 - 1)
    i * d.2 + placeAt ds (x - i * d.2)

/-- The row and the first offset of the register that holds the dword at an offset, if there is one. -/
def findReg (addr : Nat) : Option (RegSpec × Nat) :=
  regSpecs.findSome? fun r =>
    let a := r.reg.addr + placeAt r.dims (addr - r.reg.addr)
    if a ≤ addr ∧ addr < a + r.width / 8 then some (r, a) else none

/-- Registers whose writes are commands with rows of their own; REGISTER_WRITE has no effect on them (log 40). -/
def ownRow (name : String) : Bool :=
  ["HIF_WIN_BASE", "ADM_CTRL", "ADM_CMD_PRODUCER", "ADM_REPLY_CONSUMER", "QPE_QPC_BASE", "QPE_QPC_SIZE", "QPE_WQ_STATE", "QPE_LQ_CONSUMER",
    "LNK_GCTL", "LNK_LCTL", "SYN_BAR_PARTICIPANTS", "VRT_MBX_UP_TX_CTRL", "VRT_MBX_DOWN_TX_CTRL", "VRT_INST_CTRL", "SEC_ENGINE_FAIL",
    "PWR_ELS_CTRL", "MEM_INJECT_CTRL"].contains name

/-- The offset in a physical function's BAR0 that an offset in a virtual function's BAR0 stands for (R720). -/
def vfOffset (off : Nat) : Option Nat :=
  if off < 0x20 then some off
  else if 0x1000 ≤ off ∧ off < 0x1020 then some (0x100000 + off - 0x1000)
  else if 0x2000 ≤ off ∧ off < 0x3000 then some ((Reg.QPE_LQ_CONSUMER 0).addr + off - 0x2000)
  else if 0x3000 ≤ off ∧ off < 0x3400 then some ((Reg.SYN_BAR_PARTICIPANTS 0).addr + off - 0x3000)
  else if 0x4000 ≤ off ∧ off < 0x4400 then some (0x3100000 + off - 0x4000)
  else none

/-- The MSI-X table of a function: the vector and dword that an offset of its BAR0 names (R720, R735). -/
def msixPlace (fn off : Nat) : Option (Nat × Nat) :=
  let base := if isPf fn then 0x110000 else 0x8000
  if base ≤ off ∧ off < base + 16 * vectorsOf fn then some ((off - base) / 16, (off - base) / 4 % 4) else none

/-- A dword write of an MSI-X table entry (R735, R736). -/
def State.msixWrite (s : State) (fn vector word value : Nat) : State :=
  let f := s.fn fn
  let e := f.entry vector
  let e := match word with
    | 0 => { e with addr := e.addr / 2 ^ 32 * 2 ^ 32 + value / 4 * 4 }
    | 1 => { e with addr := value * 2 ^ 32 + e.addr % 2 ^ 32 }
    | 2 => { e with data := value }
    | _ => { e with masked := bit value 0 }
  (s.setFn fn { f with table := SMap.put f.table vector e }).msixFlush fn

/-- A register with the bytes in `lanes` written, by the access codes of its bits (R13). -/
def RegSpec.write (r : RegSpec) (old v lanes : Word) : Word :=
  let set := (r.rw ||| r.rws) &&& lanes
  ((old &&& ~~~set) ||| (v &&& set) ||| (v &&& r.w1s &&& lanes)) &&& ~~~(v &&& r.w1c &&& lanes)

/-- The key of the copy of a register that a function reads and writes. -/
def RegSpec.copy (r : RegSpec) (fn addr : Nat) : Nat :=
  match r.scope with
  | .module => addr
  | .port => (pfOf fn + 1) * 0x4000000 + addr
  | .function => (fn + 1) * 0x4000000 + addr

/-- Whether a register is an expert register (R233, R719): one of a block of R232 that its chapter does not name as written by a
function (R741), or except (R681, R807, R832). -/
def RegSpec.isExpert (r : RegSpec) : Bool :=
  (blockBit r.reg.addr).isSome && r.scope == .module && !(["SEC_ERR", "MEM_STACK_SEL", "MEM_ELOG_SEL", "DBG_LAMP_CTL"].contains r.name)

/-- Store the bytes of an access into the register `r` at `a`, by the kinds of its fields (R13). -/
def State.regStore (s : State) (r : RegSpec) (fn a off size value : Nat) : State :=
  let shift := 8 * (off - a)
  let lanes := BitVec.ofNat 64 ((2 ^ (8 * size) - 1) * 2 ^ shift)
  let k := r.copy fn a
  let old := SMap.getD s.regs.shadow k r.reg.reset
  let new := r.write old (BitVec.ofNat 64 (value % 2 ^ (8 * size) * 2 ^ shift)) lanes
  if old = new then s else { s with regs := { s.regs with shadow := SMap.put s.regs.shadow k new } }

/-- One access of 4 or 8 bytes to a register by a function, at an offset of a physical function's BAR0 (R13, R233, R719). -/
def State.regAccess (s : State) (fn off size value : Nat) : State :=
  match findReg off with
  | none => s
  | some (r, a) =>
    if (!isPf fn || fn != 0) && managerOnly off then s
    else if r.name == "QPE_WQ_STATE" && size == 4 && off == a then s.expert fn off size fun s => s
    else if ownRow r.name then s
    else if s.mbxGone fn r.name then (if isPf fn && r.name == "VRT_MBX_DOWN_TX" then s.countOf fn .VRT_MBX_DROP_COUNT 1 else s)
    else if r.name == "DBG_LAMP_CTL" && fn != 0 then s.accessLog akNotManager 0 fn size off
    else if (r.name == "ADM_CMD_BASE" || r.name == "ADM_REPLY_BASE") && (s.adm1 (portOf fn)).state != .disabled then s.admFlag (portOf fn) 1
    else if r.name == "QPE_LQ_STATE" then
      s.expert fn off size fun s =>
        if bit (value % 2 ^ (8 * size) * 2 ^ (8 * (off - a))) 62 then
          let n := (a - r.reg.addr) / 8
          { s with q := { s.q with lqs := SMap.upd s.q.lqs n fun l => { l with lost := false } } }
        else s
    else if r.isExpert && (r.rw ||| r.rws ||| r.w1c ||| r.w1s ||| r.wo) != 0 then s.expert fn off size fun s => s.regStore r fn a off size value
    else s.regStore r fn a off size value

/-- One access of 4 or 8 bytes at an offset of a function's own BAR0 (R719 to R721, R735). -/
def State.bar0Access (s : State) (fn off size value : Nat) : State :=
  match msixPlace fn off with
  | some (v, w) =>
    let s := s.msixWrite fn v w (value % 2 ^ 32)
    if size = 8 then s.msixWrite fn v (w + 1) (value / 2 ^ 32) else s
  | none =>
    if isPf fn then s.regAccess fn off size value
    else if (s.inst fn).isNone ∧ 0x20 ≤ off then s.accessLog akNoInstance 0 fn size off
    else match vfOffset off with
      | none => s
      | some o => if o = Reg.HIF_COMMIT.addr then s.accessLog akNotManager 0 fn size off else s.regAccess fn o size value

/-- The lanes of a request that start in its first enabled dword: the offset, the lanes and the value from there; `fuel` bounds it. -/
def firstDword : Nat → Nat → Nat → Nat → Nat × Nat × Nat
  | 0, off, lanes, v => (off, lanes, v)
  | fuel + 1, off, lanes, v => if lanes ≠ 0 ∧ lanes % 16 = 0 then firstDword fuel (off + 4) (lanes / 16) (v / 2 ^ 32) else (off, lanes, v)

/-- A write request to BAR0, by the bytes that it enables (R717, R723): `off` is a dword offset, bit i of `lanes` enables byte i, and `v` holds
the bytes. -/
def State.bar0Write (s : State) (fn off lanes v : Nat) : State :=
  let r := firstDword 16 (off / 4 * 4) lanes v
  let off := r.1
  let lanes := r.2.1
  let v := r.2.2
  let n := popcount 64 lanes
  if lanes = 0 ∨ !s.barAnswers (if isPf fn then off else (vfOffset off).getD 0x100000) then s
  else if lanes = 15 then s.bar0Access fn off 4 v
  else if lanes = 255 ∧ off % 8 = 0 then
    let whole := match (if isPf fn then some off else vfOffset off).bind findReg with
      | some x => x.1.width == 64
      | none => false
    if whole then s.bar0Access fn off 8 v else (s.bar0Access fn off 4 (v % 2 ^ 32)).bar0Access fn (off + 4) 4 (v / 2 ^ 32 % 2 ^ 32)
  else if lanes < 16 then s.accessLog akNarrow 0 fn n off
  else
    let f := s.fn fn
    (s.setFn fn { f with aer := if f.aer.contains 2 then f.aer else f.aer ++ [2] }).accessLog akMisaligned 0 fn n off

end Sys2Proof.Machine
end

