-- ==== Sys2Proof/Machine/P384.lean ====
section
/-!
DEFINITION. ECDSA verification over the curve P-384. R676 names FIPS 186-5 and does not define it: PRESUMED (log 18).
-/

namespace Sys2Proof.Machine

/-- The field prime, the order of the base point, the constant b, and the base point. -/
def ecP : Nat := 2 ^ 384 - 2 ^ 128 - 2 ^ 96 + 2 ^ 32 - 1
def ecN : Nat := 0xffffffffffffffffffffffffffffffffffffffffffffffffc7634d81f4372ddf581a0db248b0a77aecec196accc52973
def ecB : Nat := 0xb3312fa7e23ee7e4988e056be3f82d19181d9c6efe8141120314088f5013875ac656398d8a2ed19d2a85c8edd3ec2aef
def ecGx : Nat := 0xaa87ca22be8b05378eb1c71ef320ad746e1d3b628ba79b9859f741e082542a385502f25dbf55296c3a545e3872760ab7
def ecGy : Nat := 0x3617de4a96262c6f5d9e98bf9292dc29f8f41dbd289a147ce9da3113b5f0b8c00a60b1ce1d7e819d7a431d7c90ea0e5f

/-- `b ^ e` modulo `m`, over the low `fuel` bits of `e`. -/
def powMod (m : Nat) : Nat → Nat → Nat → Nat
  | 0, _, _ => 1 % m
  | fuel + 1, b, e =>
    let r := powMod m fuel (b * b % m) (e / 2)
    if e % 2 = 1 then b * r % m else r

/-- The inverse modulo a prime. -/
def invMod (m a : Nat) : Nat := powMod m 384 (a % m) (m - 2)

/-- A point in Jacobian coordinates; the point at infinity has z = 0. -/
structure EcPoint where
  x : Nat
  y : Nat
  z : Nat
  deriving DecidableEq, Repr

/-- A difference in the field. -/
def ecSub (a b : Nat) : Nat := (a + ecP - b % ecP) % ecP

/-- The double of a point. -/
def ecDouble (a : EcPoint) : EcPoint :=
  let yy := a.y * a.y % ecP
  let d := 4 * a.x * yy % ecP
  let zz := a.z * a.z % ecP
  let m := 3 * ecSub a.x zz * (a.x + zz) % ecP
  let x := ecSub (m * m % ecP) (2 * d)
  ⟨x, ecSub (m * ecSub d x % ecP) (8 * yy * yy), 2 * a.y * a.z % ecP⟩

/-- The sum of two points. -/
def ecAdd (a b : EcPoint) : EcPoint :=
  if a.z = 0 then b else if b.z = 0 then a
  else
    let az := a.z * a.z % ecP
    let bz := b.z * b.z % ecP
    let u1 := a.x * bz % ecP
    let u2 := b.x * az % ecP
    let s1 := a.y * b.z * bz % ecP
    let s2 := b.y * a.z * az % ecP
    if u1 = u2 then (if s1 = s2 then ecDouble a else ⟨1, 1, 0⟩)
    else
      let h := ecSub u2 u1
      let r := ecSub s2 s1
      let hh := h * h % ecP
      let hhh := h * hh % ecP
      let v := u1 * hh % ecP
      let x := ecSub (ecSub (r * r % ecP) hhh) (2 * v)
      ⟨x, ecSub (r * ecSub v x % ecP) (s1 * hhh), h * a.z * b.z % ecP⟩

/-- A multiple of a point, over the low `fuel` bits of the factor. -/
def ecMul : Nat → Nat → EcPoint → EcPoint
  | 0, _, _ => ⟨1, 1, 0⟩
  | fuel + 1, k, a =>
    let r := ecMul fuel (k / 2) (ecDouble a)
    if k % 2 = 1 then ecAdd a r else r

/-- Whether (r, s) is a signature of a digest under the public key (x, y). -/
def ecVerify (x y r s digest : Nat) : Bool :=
  let onCurve := x < ecP && y < ecP && (y * y % ecP == (x * x * x + ecB + ecP * ecP - 3 * x) % ecP)
  if !onCurve || r == 0 || s == 0 || ecN ≤ r || ecN ≤ s then false
  else
    let w := invMod ecN s
    let q := ecAdd (ecMul 384 (digest * w % ecN) ⟨ecGx, ecGy, 1⟩) (ecMul 384 (r * w % ecN) ⟨x, y, 1⟩)
    if q.z = 0 then false
    else
      let zi := invMod ecP q.z
      q.x * (zi * zi % ecP) % ecP % ecN == r

end Sys2Proof.Machine
end

