-- ==== Sys2Proof/Machine/Start.lean ====
section
/-!
DEFINITION. Loads of firmware, boot, halts of the control processor, module reset and shut-down (R321, R675 to R686, R766, R775 to R785).
-/

namespace Sys2Proof.Machine

/-! ## Images (R675 to R680) -/

/-- A firmware bank of the flash. -/
def State.bank (s : State) (b : Nat) : Bank := SMap.getD s.svc.banks b ⟨[], false⟩

/-- Replace a firmware bank. -/
def State.setBank (s : State) (b : Nat) (x : Bank) : State := { s with svc := { s.svc with banks := SMap.put s.svc.banks b x } }

/-- The SVN and BUILD of an image (R675). -/
def imageSvn (i : Bytes) : Nat := leAt i 7 1
def imageBuild (i : Bytes) : Nat := leAt i 12 2

/-- The digest of an image: the SHA-384 of its header with the signature taken as zero, followed by its body (R675). -/
def imageDigest (i : Bytes) : Bytes := sha384 (overlay (slice i 0 (512 + leAt i 8 4)) 128 (zeros 96))

/-- Whether a key index is revoked (R674). -/
def State.keyRevoked (s : State) (k : Nat) : Bool := bit Config.keyRevoked.toNat k || (k == 3 && s.variant != .sample)

/-- Steps 2 to 4 of R676 on an image. -/
def State.imageGood (s : State) (i : Bytes) : Bool :=
  let body := leAt i 8 4
  let key := leAt i 5 1
  leAt i 0 4 == 0x4B384657 && leAt i 4 1 == 0x10 && decide (1 ≤ body) && decide (body ≤ 4193792) && decide (512 + body ≤ i.length) &&
    decide (leAt i 16 4 < body) && decide (key < 4) && !s.keyRevoked key &&
    beNat (sha384 (slice i 32 96)) == (Config.rootKeyHash key).toNat && decide (s.svc.svn ≤ imageSvn i) && decide (imageSvn i < 64) &&
    ecVerify (beNat (slice i 32 48)) (beNat (slice i 80 48)) (beNat (slice i 128 48)) (beNat (slice i 176 48)) (beNat (imageDigest i))

/-- FIRMWARE records are raised with a kind about an image in a bank (R786). -/
def State.fwEvent (s : State) (kind build svn bank cause : Nat) : State :=
  s.raise .pfs evFirmware (kind * 2 ^ 24) (build + svn * 2 ^ 16 + bank * 2 ^ 24 + cause * 2 ^ 32) 0

/-- A FIRMWARE record of the life log: 1 activated, 2 rejected (R828). -/
def State.fwLife (s : State) (build svn bank what : Nat) : State :=
  s.lifeLog 4 (leBytes 2 build ++ leBytes 1 svn ++ leBytes 1 bank ++ leBytes 1 what)

/-- A bank whose image fails R676 is passed over; a STAGED image is rejected (R785). -/
def State.fwRejected (s : State) (b : Nat) : State :=
  let x := s.bank b
  if !x.staged then s
  else
    let build := imageBuild x.image
    let svn := imageSvn x.image
    ((s.elog elFwRejected b 0 build).fwLife build svn b 2).fwEvent 3 build svn b 0

/-- The image of a bank is loaded: its fuses are burnt where it asks for it, and a STAGED image is activated (R678, R680, R785). -/
def State.loadFrom (s : State) (b : Nat) (burn : Bool) : State :=
  let x := s.bank b
  let svn := imageSvn x.image
  let commit := bit (leAt x.image 6 1) 0 && decide (s.svc.svn < svn)
  let s := { s with
    svc := { s.svc with bootBank := b, svn := if commit && burn then svn else s.svc.svn }
    boot := { s.boot with
      state := 1
      loaded := true
      cpHalted := false
      stuck := false
      activating := false
      bank := b
      fwBuild := imageBuild x.image
      fwSvn := svn
      fuseSvn := if commit && burn then svn else s.svc.svn
      dark := false
      fwKey := leAt x.image 5 1
      digest := imageDigest x.image
      burnFailed := commit && !burn } }
  let s := s.lifeOwedWrite
  if x.staged then
    ((s.setBank b { x with staged := false }).fwLife (imageBuild x.image) svn b 1).fwEvent 2 (imageBuild x.image) svn b 0
  else s

/-- Whether a bank holds an image that may be loaded (R676). -/
def State.bankGood (s : State) (b : Nat) : Bool := (s.bank b).image != [] && s.imageGood (s.bank b).image

/-- No bank loads: the boot has failed (R678). -/
def State.loadFailed (s : State) : State :=
  { s with boot := { s.boot with state := 2, loaded := false, cpHalted := false, stuck := false, activating := false } }

/-- A load of firmware from the boot bank, or from the other bank when that one fails (R676, R678, R680, R783, R785). `burn` says whether
a burn of fuses succeeds. -/
def State.loadFirmware (s : State) (burn : Bool) : State :=
  let a := s.svc.bootBank
  if s.bankGood a then s.loadFrom a burn
  else if s.bankGood (1 - a) then (s.fwRejected a).loadFrom (1 - a) burn
  else ((s.fwRejected a).fwRejected (1 - a)).loadFailed

/-! ## Power-on (R321, R766, R776, R781, R782) -/

/-- The module as power leaves it: at reset but for what the flash and the fuses hold (R776), what is plugged into it, and what waits
outside. -/
def State.cold (s : State) : State :=
  { State.reset with
    pending := s.pending
    out := s.out
    draws := s.draws
    variant := s.variant
    hif := { ports := SMap.mapv s.hif.ports fun _ x => { (default : Port) with perst := x.perst }, fns := [], refused := [] }
    lnk := { State.reset.lnk with groups := SMap.mapv s.lnk.groups fun _ x => { (default : LinkGroup) with contact := x.contact, plugged := x.contact } }
    svc := { s.svc with live := s.svc.written, calNow := s.svc.cal, job := none, locate := false, update := 0, updateImage := [], lifeOwed := [], bmcOwed := [] }
    pwr := { State.reset.pwr with
      bays := SMap.mapv s.pwr.bays fun _ x => { (default : Bay) with present := x.present }
      lost := s.pwr.lost } }

/-- The stack of an index belongs to this transit die (R26). -/
def dieOfStack (st : Nat) : Nat := st / 4

/-- A stack is trained, or is out of service (R781, R782). -/
def State.stackBoot (s : State) (st : Nat) (up : Bool) : State :=
  let s := { s with hbm := { s.hbm with stackUp := SMap.put s.hbm.stackUp st (if up then 2 else 3) } }
  if up then s else ((s.setFlag .MEM_ERR 0).elog elStackFailed st 0 0).ecc 4 0 st 0

/-- The host ports whose PERST# is released wake, and train then (R749). -/
def State.wakePorts (s : State) : State :=
  (List.range 4).foldl (fun (s : State) p => if (s.port p).perst then s else s.wakeDom (domPort p)) s

/-- The boot after a load of firmware (R678, R781, R782). `deadDies` are the dies that fail (0 fabric, 1 T0, 2 T1, 3 host), `deadStacks` the
stacks that fail their training, and `engines` the cipher engines that pass their self-test. -/
def State.bootRest (s : State) (deadDies deadStacks engines : Nat) : State :=
  if bit deadDies 0 || bit deadDies 3 then
    { s with boot := { s.boot with state := 2, loaded := false, dies := 0 } }
  else if !s.boot.loaded then
    { s with boot := { s.boot with dies := 9 } }.wakePorts
  else
    let s := s.setBase (epochBase s.svc.lastEpoch)
    let s := { s with
      boot := { s.boot with dies := 9 + 2 * b2n (!bit deadDies 1) + 4 * b2n (!bit deadDies 2) }
      sec := { s.sec with engines := if s.variant = .noCipher then 0 else engines % 65536 } }
    let s := (List.range 8).foldl (fun (s : State) st => s.stackBoot st (!bit deadStacks st && !bit deadDies (1 + dieOfStack st))) s
    let s := [0, 128, 256, 384].foldl (fun (s : State) n => s.giveRoot n) s
    ((List.range 8).foldl (fun (s : State) g => s.groupJudge g) s).wakePorts

/-- The shut-down sequence (R766): the last life-log record with the cause, and the sensor of a CRITICAL one, then power off. -/
def State.shutDown (s : State) (cause sensor : Nat) : State :=
  if s.pwr.off then s
  else
    let power := s.pwr.measured * 2 ^ 48 + s.pwr.pEst * 2 ^ 32 + s.pwr.pWin * 2 ^ 16 + s.pwr.bubbles
    let s := s.lifeCount (3 + cause)
    let s := if s.cpRuns then
        let s := s.lifeLog 2 (leBytes 1 cause ++ leBytes 1 (if cause = 3 then sensor else 0) ++ zeros 6 ++ leBytes 8 power)
        { s with svc := { s.svc with written := s.svc.live } }
      else s
    let now := s.now
    let good := s.pwr.goodAt
    let s := s.cold
    { s with now := now, pwr := { s.pwr with off := true, cause := cause, offAt := now, goodAt := good } }

/-! ## The control processor (R779, R780, R784) -/

/-- Whether a command waits on other modules (R218). -/
def waitsOutside (pkt : Bytes) : Bool := [0x0031, 0x0071, 0x0050, 0x00F0, 0x00F1, 0x00F2].contains (opcodeOf pkt)

/-- The commands in progress, as (port, number). -/
def State.inProgress (s : State) : List (Nat × Nat) :=
  s.adm.queues.flatMap fun q => (q.2.cmds.filter fun e => e.2.started).map fun e => (q.1, e.1)

/-- The commands in progress that a halt ends reply ABORTED, and a firmware image being written is lost (R780, R784). Those that wait on
other modules stay, and one that has ended meanwhile replies (R218, R219). -/
def State.abortCommands (s : State) : State :=
  let ks := s.inProgress.filter fun x => match SMap.find (s.adm1 x.1).cmds x.2 with
    | some c => !(c.stage = 1 && waitsOutside c.pkt) || c.ended.isSome
    | none => false
  ks.foldl (fun (s : State) x =>
    let r := match SMap.find (s.adm1 x.1).cmds x.2 with
      | some c => if c.stage = 1 ∧ waitsOutside c.pkt then c.ended.getD (stAborted, 0, []) else (stAborted, 0, [])
      | none => (stAborted, 0, [])
    (s.reply x.1 x.2 r.1 r.2.1 r.2.2).admStopped x.1) { s with svc := { s.svc with job := none } }

/-- A halt of the control processor with a cause at a code address (R779). A third one within 10 s leaves it halted. -/
def State.cpHalt (s : State) (cause addr : Nat) : State :=
  if !s.cpRuns then s
  else
    let s := s.elog elCpHalt 0 cause addr
    let halts := if cause = 5 then s.boot.halts else s.now :: s.boot.halts.filter fun t => decide (s.now < t + 10000000000)
    let stuck := cause != 5 && decide (3 ≤ halts.length)
    let s := { s with boot := { s.boot with
      cpHalted := true
      cause := cause
      halts := halts
      stuck := stuck
      state := if stuck then 2 else s.boot.state } }
    if stuck then s.fwEvent 5 s.boot.fwBuild s.boot.fwSvn s.boot.bank cause else s

/-- The restart of the control processor from a halt (R779, R780). -/
def State.cpRestart (s : State) (burn : Bool) : State :=
  let cause := s.boot.cause
  let s := ((s.loadFirmware burn).count .MEM_CP_RESTART_COUNT).lifeCount 3
  let s := s.fwEvent 4 s.boot.fwBuild s.boot.fwSvn s.boot.bank cause
  if cause = 5 then s else s.abortCommands

/-! ## Module reset (R740, R777, R778) -/

/-- Every reset of an instance that runs comes to its end: the requests that it awaits end with their timeouts within the module
reset (R778). -/
def State.endDrains (s : State) : State :=
  let s := s.hif.ports.foldl (fun (s : State) e => (s.dropWaiting e.1 fun _ => true).retireIssued e.1 fun _ => true) s
  let s := { s with vrt := { s.vrt with insts := SMap.mapv s.vrt.insts fun _ (i : Inst) => { i with dirty := [] } }, xlt := { s.xlt with dirtyWait := [], dirtyHeld := [] } }
  s.xlt.drains.foldl (fun (s : State) d => s.useDrainDone d.inst) s

/-- The blocks whose registers a module reset returns to their reset values, as ranges of offsets (R777). -/
def moduleResetBlocks : List (Nat × Nat) :=
  [(0, 0x800000), (0x800000, 0x1000000), (0x1C00000, 0x2000000), (0x2400000, 0x2800000), (0x3000000, 0x3400000), (0x3C00000, 0x4000000)]

/-- A module reset (R778); `loss` says that port 0's link is lost. A message that waits in a mailbox slot stays (R588; log 82). -/
def State.moduleReset (s : State) (loss burn : Bool) : State :=
  let s := [1, 2, 3].foldl (fun (s : State) p => s.portLoss p) s
  let s := if loss then s.portLoss 0
    else ((s.setPort 0 { s.port 0 with rootRid := none, confirms := [] }).pfReset 0).dirtyLost 0
  let s := s.endDrains
  let s := s.advanceEpoch
  let s := ((s.loadFirmware burn).count .MEM_CP_RESTART_COUNT).abortCommands
  let s := (s.lifeCount 2).lifeCount 3
  let s := moduleResetBlocks.foldl (fun (s : State) b => s.resetRegs b.1 b.2) s
  { s with
    hif := { s.hif with fns := [], ports := SMap.mapv s.hif.ports fun _ x => { x with losses := 0 } }
    syn := { s.syn with bars := SMap.mapv s.syn.bars fun _ b => { b with next := 1 } }
    xlt := { (default : Xlt) with drains := s.xlt.drains, seq := s.xlt.seq }
    vrt := { s.vrt with insts := SMap.mapv s.vrt.insts fun _ (i : Inst) => { i with issued := 0 } }
    adm := { s.adm with unlocked := 0 }
    boot := { s.boot with halts := [], dark := !s.boot.loaded } }

end Sys2Proof.Machine
end

