-- ==== Sys2Proof/Machine/PowerRows.lean ====
section
/-!
DEFINITION. The power unit: estimator and capping, tallow, hints, domains, droop, temperatures, voltage points, ELS load switches and the
supply (R749 to R774).
-/

namespace Sys2Proof.Machine

/-! ## The estimator (R751, R752) -/

/-- A signed two-byte number of a calibration item in force (R825). -/
def State.calInt (s : State) (item off : Nat) : Int :=
  let v := leAt (SMap.getD s.svc.calNow item []) off 2
  if 32768 ≤ v then (v : Int) - 65536 else v

/-- The weight of an event class: an FP32 number from 0 up, in units of 2^-149 pJ (R825). -/
def State.weight (s : State) (c : Nat) : Nat :=
  let v := leAt (SMap.getD s.svc.calNow 5 []) (4 * c) 4
  let e := bits v 30 23
  let m := bits v 22 0
  if e = 0 then m else (m + 2 ^ 23) * 2 ^ (e - 1)

/-- The sensors of a domain; 80 is the always-on core (R41, R761; log 46). -/
def sensorsOf (d : Nat) : List Nat :=
  if d < 32 then List.range 16
  else if d < 64 then (List.range 16).map (· + 16)
  else if d < 72 then [50 + 2 * (d - 64), 51 + 2 * (d - 64)]
  else if d < 76 then [40, 41]
  else if d < 80 then (List.range 8).map (· + 32)
  else List.range 50

/-- The temperature of a sensor, in 1/8 °C. -/
def State.temp (s : State) (i : Nat) : Int := (SMap.getD s.pwr.sensors i default).temp

/-- The greatest of the temperatures of some sensors. -/
def State.hottest (s : State) (l : List Nat) : Int :=
  match l with
  | [] => 0
  | i :: l => l.foldl (fun (t : Int) j => if t < s.temp j then s.temp j else t) (s.temp i)

/-- The leakage of a domain in µW: interpolated between the temperatures of the table, and stated by the spec only within them (R751,
R825; log 46). -/
def State.leakage (s : State) (d : Nat) : Option Nat :=
  let t := s.hottest (sensorsOf d)
  let at_ (i : Nat) : Int := s.calInt 6 (2 * i)
  let watts (i : Nat) : Int := leAt (SMap.getD s.svc.calNow 6 []) (16 + 16 * d + 2 * i) 2
  (List.range 7).findSome? fun i =>
    if at_ i ≤ t ∧ t ≤ at_ (i + 1) ∧ at_ i < at_ (i + 1) then
      some (10000 * (watts i * (at_ (i + 1) - at_ i) + (watts (i + 1) - watts i) * (t - at_ i)) / (at_ (i + 1) - at_ i)).toNat
    else none

/-- The leakage of some domains in µW, with a free value for each that the spec does not state. -/
def State.leakages (s : State) (ds : List Nat) : Nat × State :=
  ds.foldl (fun (acc : Nat × State) d => match acc.2.leakage d with
    | some w => (acc.1 + w, acc.2)
    | none => (acc.1 + acc.2.freeVal, acc.2.drawn)) (0, s)

/-- The power of the counted events of some classes in µW: a weight in pJ, once per µs, is 1 µW. -/
def State.eventPower (s : State) (counts cs : List Nat) : Nat := sumList (cs.map fun c => s.weight c * counts.getD c 0) / 2 ^ 149

/-- P_raw, and its part that comes from tile pairs, in µW (R751, R754): `counts` are the events of the last µs, by class: the five tensor
pairs of R445, then the other nine classes of R751 in their order. -/
def State.rawPower (s : State) (counts : List Nat) : Nat × Nat × State :=
  let pairs := s.leakages (s.pwr.on.filter (· < 64))
  let rest := pairs.2.leakages (s.pwr.on.filter (64 ≤ ·) ++ [80])
  (pairs.1 + rest.1 + s.eventPower counts (List.range 14), pairs.1 + s.eventPower counts (List.range 8), rest.2)

/-! ## Capping and tallow (R753 to R757) -/

/-- The tile pairs that are on and have a tile that no program has (R757). -/
def State.idlePairs (s : State) : List Nat :=
  (s.pwr.on.filter (· < 64)).filter fun d =>
    let busy := s.tilesBusy (d / 32)
    !(busy.contains (2 * (d % 32)) && busy.contains (2 * (d % 32) + 1))

/-- The bubbles of 64 for an excess (R754). -/
def bubblesFor (excess ctrl lim : Nat) : Nat := if ctrl = 0 then 0 else min lim ((64 * excess + ctrl - 1) / ctrl)

/-- Tallow of one µs (R757): its new target and hold with what it draws, given P_work, the cap and the excess by which it is cut. -/
def tallowStep (t : Option (Nat × Nat)) (work cap excess slope : Nat) : Option (Nat × Nat) × Nat :=
  match t with
  | none => (none, 0)
  | some (t16, hold) =>
    if t16 ≤ 16 * work then (none, 0)
    else
      let draw := min (t16 / 16) cap - work - excess
      if hold = 0 then (some (t16 - slope, 0), draw) else (some (t16, hold - 1), draw)

/-- ESTIMATOR_TICK (R751, R754 to R757): one µs of the estimator, with the events counted in it. -/
def execEstimatorTick (counts : List Nat) (s : State) : Result :=
  run s fun s =>
    let r := s.rawPower counts
    let s := r.2.2
    let est := s.pwr.gain * r.1 / (4096 * 1000000)
    let ctrl := s.pwr.gain * r.2.1 / (4096 * 1000000)
    let cap := s.comF .PWR_LIMIT_CFG 10 0
    let us := s.comF .PWR_LIMIT_CFG 19 16 * 1000
    let lim := 4 * s.comF .PWR_LIMIT_CFG 27 24
    let before := (s.pwr.window.take 10).foldl max 0
    let s := if s.comF .PWR_DOMAIN_CFG 2 2 = 1 ∧ cap < 4 * (before - est) then s.tallowTrigger else s
    let p := s.pwr
    let window := (est :: p.window).take us
    let win := meanOf window
    let e := max (win - cap) (est - 1250)
    let n := bubblesFor (e - p.tallowW) ctrl lim
    let tallow := tallowStep p.tallow (est - p.tallowW) cap e (s.comF .PWR_TALLOW_CFG 10 0)
    let maxFor := if n = lim ∧ 0 < n then p.maxFor + 1 else 0
    let unmet := (p.unmet && e != 0) || decide (us ≤ maxFor)
    let s := s.fillBuckets unmet
    let s := s.setPwr { p with
      pEst := est, pWin := win, window, rawSum := p.rawSum + r.1, rawN := p.rawN + 1, bubbles := n, maxFor
      quietFor := if n = 0 then p.quietFor + 1 else 0
      unmet, excess := e, tallow := tallow.1, tallowW := tallow.2 }
    let s := if n = 0 then s else s.count .PWR_CAP_ACTIVE_COUNT
    let s := if tallow.2 = 0 then s else s.count .PWR_TALLOW_US_COUNT
    let s := if n ≠ 0 ∧ us ≤ p.quietFor then s.powerEvent prCapping 0 (us * 1000) else s
    let s := if unmet && !p.unmet then (s.setFlag .PWR_ERR 5).powerEvent prCapUnmet 0 1000000 else s
    let s := if 1250 < est then (s.setFlag .PWR_ERR 4).powerEvent prEdl 0 1000000 else s
    if tallow.2 = 0 ∨ s.idlePairs ≠ [] then s
    else match (List.range 64).find? fun d => !s.domOn d with
      | some d => s.wakeDom d
      | none => s

/-- CAL_GAIN_UPDATE (R752): the last sample of the input (in 10 mV and 10 mA) and the mean power in W measured over the last 100 ms. -/
def execCalGainUpdate (volts amps watts : Nat) (s : State) : Result :=
  run s fun s =>
    let p := s.pwr
    let energy := s.svc.energy + watts
    let live := s.svc.live.set 21 (s.svc.live.getD 21 0 + energy / 36000)
    let s := { s with svc := { s.svc with energy := energy % 36000, live } }
    let s := s.setPwr { p with volts, amps, measured := volts * amps / 10000, rawSum := 0, rawN := 0 }
    let mean := if p.rawN = 0 then 0 else p.rawSum / p.rawN
    if mean < 50000000 then s
    else
      let ratio := watts * 4096 * 1000000 / mean
      let gain := ((p.gain : Int) + ((ratio : Int) - p.gain) / 16).toNat
      let s := s.setPwr { s.pwr with gain := max 3072 (min 5120 gain) }
      if ratio < 3072 ∨ 5120 < ratio then (s.setFlag .PWR_ERR 6).powerEvent prCalDrift 0 1000000 else s

/-- SET_POWER_CAP (R229, R753): CAP_W is written in both the committed and the shadow set. -/
def State.setCap (s : State) (w : Nat) : State :=
  (s.setCom .PWR_LIMIT_CFG (setFld (s.com .PWR_LIMIT_CFG) 10 0 w)).setReg .PWR_LIMIT_CFG (setFld (s.reg .PWR_LIMIT_CFG) 10 0 w)

def execSetPowerCap (p k : Nat) (s : State) : Result :=
  run s fun s => s.adminRun p k 0x00C1 anySel anyAuth fun s _ ps =>
    if par ps 0 < 300 ∨ 1100 < par ps 0 then .fail 0x80 s
    else .ok [(16, s.comF .PWR_LIMIT_CFG 10 0)] (s.setCap (par ps 0))

/-- PWR_COMMIT (R769). -/
def execPwrCommit (fn : Nat) (s : State) : Result :=
  run s fun s => s.commit fn .PWR_COMMIT
    (fun s =>
      let cap := s.regF .PWR_LIMIT_CFG 10 0
      let ms := s.regF .PWR_LIMIT_CFG 19 16
      let floor := s.regF .PWR_TALLOW_CFG 31 21
      let wakes := s.regF .PWR_DOMAIN_CFG 7 4
      decide (300 ≤ cap) && decide (cap ≤ 1100) && decide (1 ≤ ms) && decide (ms ≤ 10) && s.regF .PWR_LIMIT_CFG 27 24 != 0 &&
        decide (floor ≤ cap) && !(s.regF .PWR_TALLOW_CFG 10 0 == 0 && floor != 0) && decide (1 ≤ wakes) && decide (wakes ≤ 8) &&
        s.regF .PWR_DOMAIN_CFG 31 24 != 0)
    (fun s => s.setFlag .PWR_ERR 7) [.PWR_LIMIT_CFG, .PWR_TALLOW_CFG, .PWR_DOMAIN_CFG, .PWR_VPOINT_LIMIT]

/-! ## Hints (R758, R759) -/

/-- POWER_HINT_COMMAND (R758, R759): it waits while 64 hints do. -/
def execPowerHintCommand (p k : Nat) (s : State) : Result :=
  run s fun s => s.adminRun p k 0x00C0 anySel anyAuth fun s c ps =>
    if !hintKnown (par ps 0) then .fail 0x80 s
    else match s.takeHint (par ps 0) (par ps 1) with
      | some s => .ok [] s
      | none => .wait c s

/-- POWER_HINT_EFFECT (R758, R759): the hints whose time has come take effect. -/
def execPowerHintEffect (s : State) : Result :=
  run s fun s =>
    let due := s.pwr.hints.filter fun h => decide (h.2 ≤ s.hallTime)
    let s := s.setPwr { s.pwr with hints := s.pwr.hints.filter fun h => decide (s.hallTime < h.2) }
    due.foldl (fun (s : State) h => s.hintEffect h.1) s

/-! ## Domains (R749, R750) -/

/-- Whether nothing needs a tile pair, a cipher cluster or an adder (R749). -/
def State.domIdle (s : State) (d : Nat) : Bool :=
  if d < 64 then
    let busy := s.tilesBusy (d / 32)
    !busy.contains (2 * (d % 32)) && !busy.contains (2 * (d % 32) + 1) && s.pwr.tallowW == 0 && !s.pwr.keepWarm
  else if d < 76 then false
  else if d < 78 then
    s.comF .PWR_DOMAIN_CFG 23 16 != 0 && s.qpe.qps.all fun q => !(q.2.forerunner && (q.2.engine.map (· / 8)) == some (d - 76))
  else s.comF .PWR_DOMAIN_CFG 15 8 != 0 && s.col.groups.all fun g => g.2.coll.isNone

/-- DOMAIN_IDLE_OFF (R749): a domain that has been idle for its time goes off, unless something has come to need it. -/
def execDomainIdleOff (domain : Nat) (s : State) : Result :=
  run s fun s => if s.domOn domain ∧ domain < 80 ∧ s.domIdle domain then s.domOff domain else s

/-- DOMAIN_WAKE_START (R750): the domain that was asked for first begins to wake, within the limit of this microsecond. -/
def execDomainWakeStart (s : State) : Result :=
  run s fun s =>
    let p := s.pwr
    let begun := if p.wakes.1 = s.now / 1000 then p.wakes.2 else 0
    match p.wakeQueue with
    | [] => s
    | d :: ds =>
      if s.comF .PWR_DOMAIN_CFG 7 4 ≤ begun then s
      else s.setPwr { p with wakeQueue := ds, waking := p.waking ++ [d], wakes := (s.now / 1000, begun + 1) }

/-- DOMAIN_WAKE_DONE (R749): the domain is on. A link group begins its bring-up, and a host port trains. -/
def execDomainWakeDone (domain : Nat) (s : State) : Result :=
  run s fun s =>
    if !s.pwr.waking.contains domain then s
    else
      let s := s.domStart domain
      if 64 ≤ domain ∧ domain < 72 then s.groupUp (domain - 64)
      else if 72 ≤ domain ∧ domain < 76 then
        let p := domain - 72
        if (s.port p).perst then s else s.setPort p { s.port p with link := 1 }
      else s

/-! ## Droop (R760) -/

/-- DROOP_DETECT (R760): die 0 T0, 1 T1, 2 the fabric die, 3 the host die. -/
def execDroopDetect (die : Nat) (s : State) : Result :=
  run s fun s =>
    if 4 ≤ die then s
    else
      let p := s.pwr
      let ms := s.now / 1000000
      let old := SMap.getD p.droops die (0, 0)
      let n := if old.1 = ms then old.2 + 1 else 1
      let s := s.setPwr { p with
        droopSkip := if p.droopSkip.contains die then p.droopSkip else p.droopSkip ++ [die]
        droops := SMap.put p.droops die (ms, n)
        drooped := if die < 2 ∧ n = 257 ∧ !p.drooped.contains die then p.drooped ++ [die] else p.drooped }
      ((s.count .PWR_DROOP_COUNT).setFlag .PWR_ERR 3).powerEvent prDroop die 1000000

/-- DROOP_SKIP_END (R760): 32 cycles have passed since the last detection. -/
def execDroopSkipEnd (die : Nat) (s : State) : Result :=
  run s fun s => s.setPwr { s.pwr with droopSkip := s.pwr.droopSkip.filter (· != die) }

/-! ## Temperatures (R761, R762) -/

/-- A threshold of a sensor: 1 WARN, 2 THROTTLE, 3 CRITICAL (R825). -/
def State.threshold (s : State) (i level : Nat) : Int := s.calInt 3 (6 * i + 2 * (level - 1))

/-- The level of a sensor at a temperature: entered at its threshold, and left 5 °C below (R761). -/
def levelAt (th : Nat → Int) (old : Nat) (t : Int) : Nat :=
  let holds (k : Nat) : Bool := decide (th k ≤ t) || (decide (k ≤ old) && decide (th k - 40 < t))
  if holds 3 then 3 else if holds 2 then 2 else if holds 1 then 1 else 0

/-- A number as two bytes, signed. -/
def int16 (t : Int) : Nat := (t % 65536).toNat

/-- Raise THERMAL for a change of a sensor's level, at most once per second for each sensor and level, also to the BMC (R762, R818). -/
def State.thermal (s : State) (i old new : Nat) : State :=
  let code := if new = 0 then 4 else new
  let key := 8 * i + code
  let recent := match SMap.find s.pwr.therm key with
    | some t => decide (s.now < t + 1000000000)
    | none => false
  if recent then s
  else
    let crossed := s.threshold i (if old < new then new else new + 1)
    let point := if i < 32 then SMap.getD s.pwr.points (i / 16) 0 else 0xFF
    let data0 := int16 (s.temp i) + int16 crossed * 2 ^ 16 + point * 2 ^ 32
    ((s.setPwr { s.pwr with therm := SMap.put s.pwr.therm key s.now }).raise .pfs evThermal (code * 2 ^ 24 + i) data0 0).bmc
      evThermal (leBytes 4 (code * 2 ^ 24 + i) ++ leBytes 8 data0)

/-- A new temperature of a sensor, and what its change of level does (R761). The reason with which a group's links leave for a temperature
is not stated (log 47). -/
def State.sensorAt (s : State) (i : Nat) (t : Int) : State :=
  let x := SMap.find s.pwr.sensors i
  let old := (x.map (·.level)).getD 0
  let high := match x with
    | some y => if y.max < t then t else y.max
    | none => t
  let new := levelAt (s.threshold i) old t
  let s := s.setPwr { s.pwr with sensors := SMap.put s.pwr.sensors i ⟨t, high, new⟩ }
  let s := if new = old then s else s.thermal i old new
  if 42 ≤ i ∧ i < 50 then
    { s with hbm := { s.hbm with refresh2x := setBits s.hbm.refresh2x (i - 42) (i - 42) (if 680 < t then 1 else 0) } }
  else if 50 ≤ i ∧ i < 66 ∧ new = 3 ∧ !s.pwr.hot.contains ((i - 50) / 2) then
    let g := (i - 50) / 2
    let code := s.freeVal % 16
    (s.drawn.setPwr { s.drawn.pwr with hot := s.pwr.hot ++ [g] }).groupDown g code
  else s

/-- A second of powered time in the histograms of the life log (R827): a value's bin of 32, of which the last holds all above. -/
def State.histogram (s : State) (h v : Nat) : State :=
  let i := 22 + 32 * h + min 31 v
  { s with svc := { s.svc with live := s.svc.live.set i (s.svc.live.getD i 0 + 1) } }

/-- Every sensor takes its reading, corrected by its offset (R761, R825). -/
def State.sensorsTake (s : State) (temps : List Int) : State :=
  (temps.take 68).zipIdx.foldl (fun (s : State) e => s.sensorAt e.2 (e.1 + s.calInt 7 (2 * e.2))) s

/-- The bin of a temperature histogram for the hottest of some sensors (R827). -/
def State.hotBin (s : State) (l : List Nat) : Nat := (s.hottest l / 40).toNat

/-- The samples of the life log's histograms, once a second (R827). -/
def State.histograms (s : State) : State :=
  ((s.histogram 0 (s.hotBin (List.range 32))).histogram 1 (s.hotBin ((List.range 8).map (· + 42)))).histogram 2 (s.pwr.measured / 50)

/-- The shut-down that a sensor at CRITICAL brings about; those of the optical engines bring none (R761). -/
def State.tooHot (s : State) : State :=
  match s.pwr.sensors.find? fun e => e.2.level == 3 && !(decide (50 ≤ e.1) && decide (e.1 < 66)) with
  | some e => s.finish.shutDown 3 e.1
  | none => s

/-- SENSOR_SAMPLE (R761, R762, R827): the temperatures of the 68 sensors as read, in 1/8 °C, to which the stored offsets are added. A
CRITICAL level of a sensor other than an optical engine's shuts the module down, after its record. -/
def execSensorSample (temps : List Int) (s : State) : Result :=
  run s fun s =>
    let sameSecond := (s.now - 100000) / 1000000000 = s.now / 1000000000
    let s := s.sensorsTake temps
    (if sameSecond then s else s.histograms).tooHot

/-- OE_REPOWER (R761): an optical engine that was powered down has stood below WARN for 1 s. -/
def execOeRepower (group : Nat) (s : State) : Result :=
  run s fun s =>
    let cool (i : Nat) : Bool := decide (s.temp i < s.threshold i 1)
    if s.pwr.hot.contains group && cool (50 + 2 * group) && cool (51 + 2 * group) then
      (s.setPwr { s.pwr with hot := s.pwr.hot.filter (· != group) }).groupJudge group
    else s

/-! ## Voltage points (R763, R771) -/

/-- The voltage-table point of a transit die. -/
def State.point (s : State) (die : Nat) : Nat := SMap.getD s.pwr.points die 0

/-- The fastest point that a transit die may use (R771). -/
def State.fastest (s : State) (die : Nat) : Nat := min 7 (s.comF .PWR_VPOINT_LIMIT (4 * die + 3) (4 * die))

/-- Whether a cause for stepping down holds for a transit die (R760, R761). -/
def State.downCause (s : State) (die : Nat) : Bool :=
  s.pwr.drooped.contains die || s.pwr.sensors.any fun e =>
    decide (2 ≤ e.2.level) && (if e.1 < 32 then e.1 / 16 == die else decide (e.1 < 42) || e.1 == 66 || e.1 == 67)

/-- A transit die runs at another point, and its clock relocks (R763). -/
def State.toPoint (s : State) (die pt : Nat) : State :=
  s.setPwr { s.pwr with points := SMap.put s.pwr.points die pt, relock := s.pwr.relock ++ [die] }

/-- VPOINT_STEP_DOWN (R763, R771): for a cause, or toward a slower limit. -/
def execVpointStepDown (die : Nat) (s : State) : Result :=
  run s fun s =>
    if die < 2 ∧ !s.pwr.relock.contains die ∧ s.point die < 7 ∧ (s.downCause die ∨ s.point die < s.fastest die) then
      let s := s.toPoint die (s.point die + 1)
      let s := s.setPwr { s.pwr with drooped := s.pwr.drooped.filter (· != die) }
      (s.count .PWR_THROTTLE_COUNT).setFlag .PWR_ERR 1
    else s

/-- VPOINT_STEP_UP (R763). -/
def execVpointStepUp (die : Nat) (s : State) : Result :=
  run s fun s =>
    if die < 2 ∧ !s.pwr.relock.contains die ∧ !s.downCause die ∧ s.fastest die < s.point die then s.toPoint die (s.point die - 1) else s

/-- TCLK_RELOCK_DONE (R763). -/
def execTclkRelockDone (die : Nat) (s : State) : Result :=
  run s fun s => s.setPwr { s.pwr with relock := s.pwr.relock.filter (· != die) }

/-! ## ELS load switches (R765, R773) -/

/-- The load switch of a bay. -/
def State.bay (s : State) (b : Nat) : Bay := SMap.getD s.pwr.bays b default

/-- Replace the load switch of a bay. -/
def State.setBay (s : State) (b : Nat) (x : Bay) : State := s.setPwr { s.pwr with bays := SMap.put s.pwr.bays b x }

/-- Whether a bay is disabled (R773). -/
def State.bayDisabled (s : State) (b : Nat) : Bool := bit (s.reg .PWR_ELS_CTRL).toNat (4 + b)

/-- A bay's switch goes off: the groups that it lights lose their light (R646). -/
def State.bayOff (s : State) (b : Nat) : State :=
  let x := s.bay b
  let s := s.setBay b { x with ramping := false, powered := false, limiting := false }
  if x.powered then s.lightLost b else s

/-- ELS_PRESENCE_CLOSE (R765, R827). -/
def execElsPresenceClose (bay : Nat) (s : State) : Result :=
  runAlways s fun s =>
    if 2 ≤ bay ∨ (s.bay bay).present then s else (s.setBay bay { s.bay bay with present := true }).lifeCount (8 + bay)

/-- ELS_RAMP_START (R765): 10 ms after the presence contact closed. -/
def execElsRampStart (bay : Nat) (s : State) : Result :=
  run s fun s =>
    let x := s.bay bay
    if x.present && !x.ramping && !x.powered && !x.latched && !s.bayDisabled bay then s.setBay bay { x with ramping := true } else s

/-- ELS_RAMP_END (R765, R646): the switch feeds the bay, and light returns. -/
def execElsRampEnd (bay : Nat) (s : State) : Result :=
  run s fun s =>
    let x := s.bay bay
    if x.ramping then (s.setBay bay { x with ramping := false, powered := true }).lightBack bay else s

/-- ELS_TRIP (R765): 200 µs at the current limit. -/
def execElsTrip (bay : Nat) (s : State) : Result :=
  run s fun s =>
    let x := s.bay bay
    if (x.ramping || x.powered) && !s.bayDisabled bay then
      let s := s.bayOff bay
      let s := s.setBay bay { s.bay bay with latched := true }
      (((s.setFlag .PWR_ERR 2).count .PWR_ELS_TRIP_COUNT).lifeCount (10 + bay)).powerEvent prElsTrip bay 1000000
    else s

/-- ELS_CONTACT_OPEN (R765, R646). -/
def execElsContactOpen (bay : Nat) (s : State) : Result :=
  runAlways s fun s => if bay < 2 then (s.setBay bay { s.bay bay with present := false }).bayOff bay else s

/-- ELS_PRESENCE_OPEN (R765, R773): the contact has been open for 10 ms, and the latch clears unless the bay is disabled. -/
def execElsPresenceOpen (bay : Nat) (s : State) : Result :=
  run s fun s =>
    let x := s.bay bay
    if x.present || s.bayDisabled bay then s else s.setBay bay { x with latched := false }

/-- A write of `PWR_ELS_CTRL` (R765, R773): DISABLE takes effect, then the latches named are cleared in bays that are not disabled, and
the ramp of a bay that is present begins at once. -/
def State.elsCtl (s : State) (value : Nat) : State :=
  let s := s.setReg .PWR_ELS_CTRL (BitVec.ofNat 64 (value &&& 0x30))
  [0, 1].foldl (fun (s : State) b =>
    if s.bayDisabled b then s.bayOff b
    else if bit value b && (s.bay b).latched then s.setBay b { s.bay b with latched := false, ramping := (s.bay b).present }
    else s) s

/-- ELS_CLEAR_LATCH (R765): a write of `PWR_ELS_CTRL` that sets bits of CLEAR_LATCH. -/
def execElsClearLatch (fn value : Nat) (s : State) : Result :=
  run s fun s => s.expert fn Reg.PWR_ELS_CTRL.addr 4 fun s => s.elsCtl value

/-- ELS_DISABLE_WRITE (R773): a write of `PWR_ELS_CTRL` that sets or clears bits of DISABLE. -/
def execElsDisableWrite (fn value : Nat) (s : State) : Result :=
  run s fun s => s.expert fn Reg.PWR_ELS_CTRL.addr 4 fun s => s.elsCtl value

/-! ## Supply (R766, R767) -/

/-- SUPPLY_LOW (R766): below 42 V for 1 ms. -/
def execSupplyLow (s : State) : Result :=
  run s fun s => ((s.setPwr { s.pwr with low := true }).setFlag .PWR_ERR 0).powerEvent prSupplyLow 0 1000000

/-- SUPPLY_FAULT (R766): below 38 V, or above 62 V (`high`), for 20 µs. The shut-down sequence starts; one that has run has run. -/
def execSupplyFault (high : Bool) (s : State) : Result :=
  runAlways s fun s =>
    let s := s.setPwr { s.pwr with lost := true }
    if s.pwr.off then s else s.finish.shutDown (if high then 2 else 1) 0

/-- SUPPLY_GOOD (R766, R767): the input is back in range. -/
def execSupplyGood (s : State) : Result :=
  runAlways s fun s =>
    let p := s.pwr
    s.setPwr { p with
      low := false, lost := false, goodAt := if p.lost then s.now else p.goodAt, woken := p.woken || (p.off && p.lost) }

/-- Whether a module that has shut down may power up (R767): 100 ms since the sequence ended and in range, and, after a shut-down for
CRITICAL or by the BMC, the input removed and restored or a power-on command (R819). -/
def State.mayPowerUp (s : State) : Bool :=
  let p := s.pwr
  p.off && !p.lost && decide (p.offAt + 100000000 ≤ s.now) && decide (p.goodAt + 100000000 ≤ s.now) && (p.woken || decide (p.cause < 3))

/-- POWER_UP (R767): the power-up begins; POWER_ON_RESET is its reset. -/
def execPowerUp (s : State) : Result := runAlways s fun s => if s.mayPowerUp then s.cold else s

end Sys2Proof.Machine
end

