-- ==== Sys2Proof/Machine/BootRows.lean ====
section
/-!
DEFINITION. Resets, boot, firmware commands, halts of the control processor, job domains and memory errors (R677 to R680, R740, R749,
R775 to R810).
-/

namespace Sys2Proof.Machine

/-! ## Power-on and module reset (R776 to R782) -/

/-- POWER_ON_RESET (R781, R782): the module starts from the state that power leaves it in. `deadDies` are the dies that fail (0 fabric, 1 T0,
2 T1, 3 host), `deadStacks` the stacks that fail training, `engines` the cipher engines that pass their self-test, and `burn` says whether a
burn of the SVN fuses succeeds (R680). -/
def execPowerOnReset (deadDies deadStacks engines : Nat) (burn : Bool) (s : State) : Result :=
  run s fun s => ((s.cold.lifeCount 1).loadFirmware burn).bootRest deadDies deadStacks engines

/-- MODULE_RESET (R740, R778, R834): `loss` says that it comes of the loss of port 0's link, and not of a request of the BMC. -/
def execModuleReset (loss burn : Bool) (s : State) : Result := run s fun s => s.moduleReset loss burn

/-- PORT_LINK_LOSS (R740, R834): that of port 0 resets the module. -/
def execPortLinkLoss (port : Nat) (burn : Bool) (s : State) : Result :=
  run s fun s =>
    if 4 ≤ port ∨ (s.port port).link = 0 then s
    else if port = 0 then s.moduleReset true burn
    else s.portLoss port

/-- PERST_ASSERT (R740, R749, R815): the port's link is lost, and its domain goes off. -/
def execPerstAssert (port : Nat) (burn : Bool) (s : State) : Result :=
  runAlways s fun s =>
    if 4 ≤ port ∨ (s.port port).perst then s
    else
      let was := (s.port port).link
      let s := s.setPort port { s.port port with perst := true, link := 0 }
      if s.pwr.off then s
      else
        let s := if was = 0 then s else if port = 0 then s.moduleReset true burn else s.portLoss port
        s.domOff (domPort port)

/-- PERST_RELEASE (R749): the port's domain wakes once the host die is up. -/
def execPerstRelease (port : Nat) (s : State) : Result :=
  runAlways s fun s =>
    if 4 ≤ port then s
    else
      let s := s.setPort port { s.port port with perst := false }
      if !s.pwr.off && bit s.boot.dies 3 then s.wakeDom (domPort port) else s

/-! ## The control processor (R779, R780, R785) -/

/-- WATCHDOG_EXPIRY (R779): the firmware has not serviced the watchdog within 100 ms. -/
def execWatchdogExpiry (addr : Nat) (s : State) : Result := run s fun s => s.cpHalt 1 addr

/-- CODE_WRITE (R676, R779): a refused write to locked code SRAM. -/
def execCodeWrite (addr : Nat) (s : State) : Result := run s fun s => s.cpHalt 2 addr

/-- SRAM_UE (R779, R803): an uncorrectable error in the control processor's SRAM, at a byte offset, also raised as ECC (R804, R805). -/
def execSramUe (addr offset : Nat) (s : State) : Result :=
  run s fun s => if s.cpRuns then (s.ecc 2 5 0 offset).cpHalt 3 addr else s

/-- CP_FAULT (R779): an illegal instruction or a bus error. -/
def execCpFault (addr : Nat) (s : State) : Result := run s fun s => s.cpHalt 4 addr

/-- CP_RESTART (R779, R780): a halted control processor restarts; a FIRMWARE_ACTIVATE that has replied halts and restarts it once no
command is in progress. -/
def execCpRestart (burn : Bool) (s : State) : Result :=
  run s fun s =>
    if s.cpRuns && s.boot.activating && s.inProgress.isEmpty then (s.cpHalt 5 0).cpRestart burn
    else if s.boot.cpHalted && !s.boot.stuck then s.cpRestart burn
    else s

/-! ## Firmware (R783 to R786) -/

/-- FIRMWARE_STAGE (R679, R784): steps 1 to 3, and the start of the write to the staging bank. -/
def execFirmwareStage (p k : Nat) (s : State) : Result :=
  run s fun s => s.adminRun p k 0x00E0 anySel anyAuth fun s c ps =>
    if c.stage = 1 then .wait c s
    else match s.admRead p k c (par ps 1) (par ps 0) with
      | (none, c, s) => .wait c s
      | (some none, _, s) => .fail 0x80 s
      | (some (some i), c, s) =>
        if 4194304 < par ps 0 ∨ par ps 0 ≠ 512 + leAt i 8 4 then .fail 0x81 s
        else if !s.imageGood i then .fail 0x82 s
        else
          let b := 1 - s.boot.bank
          let s := s.setBank b ⟨[], false⟩
          .wait { c with stage := 1 } { s with svc := { s.svc with job := some (.stage p k b i) } }

/-- The IMAGE_VERSION of an image in a bank (R784). -/
def imageVersion (i : Bytes) (b : Nat) : Nat := imageBuild i + imageSvn i * 2 ^ 16 + leAt i 5 1 * 2 ^ 22 + b * 2 ^ 24

/-- FLASH_WRITE_DONE (R784, R786, R826, R828): the flash has been written and read back, `ok` with an equal result. A calibration item that
did not come out equal keeps its old value and is written again (R826). -/
def execFlashWriteDone (ok : Bool) (s : State) : Result :=
  run s fun s =>
    match (if s.cpRuns then s.svc.job else none) with
    | none => s
    | some (.stage p k b i) =>
      let s := { s with svc := { s.svc with job := none } }
      if ok then
        let s := (s.setBank b ⟨i, true⟩).fwEvent 1 (imageBuild i) (imageSvn i) b 0
        (s.reply p k stSuccess 0 (resultBytes [(32, imageVersion i b)])).admStopped p
      else ((s.setBank b ⟨[], false⟩).reply p k 0x83 0 []).admStopped p
    | some (.cal p k item v) =>
      if ok then
        let n := (SMap.getD s.svc.calInfo item (0, 0)).1 + 1
        let s := { s with svc := { s.svc with
            job := none
            cal := SMap.put s.svc.cal item v
            calInfo := SMap.put s.svc.calInfo item (n, s.hallTime) } }
        let s := s.lifeLog 5 (leBytes 2 item ++ zeros 2 ++ leBytes 4 n)
        (s.reply p k stSuccess 0 []).admStopped p
      else s

/-- The bank that holds a staged image. -/
def State.stagedBank (s : State) : Option Nat := [0, 1].find? fun b => (s.bank b).staged

/-- FIRMWARE_ACTIVATE with WHEN 0 (R785). A WHEN above 1 has no meaning and fails check 5 of R210. -/
def execFirmwareActivateNextPowerOn (p k : Nat) (s : State) : Result :=
  run s fun s => s.adminRun p k 0x00E1 (fun ps => par ps 0 != 1) anyAuth fun s _ ps =>
    if par ps 0 ≠ 0 then .field s
    else match s.stagedBank with
      | none => .fail 0x80 s
      | some b => .ok [] { s with svc := { s.svc with bootBank := b } }

/-- FIRMWARE_ACTIVATE with WHEN 1 (R780, R785): it replies, and the control processor restarts once no command is in progress. -/
def execFirmwareActivateNow (p k : Nat) (s : State) : Result :=
  run s fun s => s.adminRun p k 0x00E1 (fun ps => par ps 0 == 1) anyAuth fun s _ _ =>
    match s.stagedBank with
    | none => .fail 0x80 s
    | some b => .ok [] { s with svc := { s.svc with bootBank := b }, boot := { s.boot with activating := true } }

/-! ## Job domains (R789 to R797) -/

/-- JOB_DOMAIN_CREATE (R789, R790): its reply comes with DOMAIN_READY. -/
def execJobDomainCreate (p k : Nat) (s : State) : Result :=
  run s fun s => s.adminRun p k 0x00F0 anySel anyAuth fun s c ps =>
    let partition := par ps 0
    let n := par ps 1
    if c.stage = 1 then .wait c s
    else if partition = 0 ∨ n = 0 ∨ 131072 < n then .field s
    else if s.partitionInUse partition then .fail 0x80 s
    else match s.admRead p k c (par ps 2) (4 * n) with
      | (none, c, s) => .wait c s
      | (some none, c, s) => .reply ((c.data.fail.map (·.1)).getD stTranslationFault) 0 [] s
      | (some (some b), c, s) =>
        let ms := listOf b n
        if ms.eraseDups.length ≠ ms.length ∨ !ms.all s.inTorus ∨ !ms.contains s.me then .fail 0x81 s
        else if 64 ≤ s.jobs.domains.length then .fail stResource s
        else
          let c := { c with stage := 1 }
          .wait c (((s.setCmd p k c).setDomain partition (newDomain ms p k)).sendDomainSetup partition ms)

/-- JOB_DOMAIN_FAULT (R789, R791): its reply comes when the fault clears. On a creation that still waits it ends that wait. -/
def execJobDomainFault (p k : Nat) (s : State) : Result :=
  run s fun s => s.adminRun p k 0x00F1 anySel anyAuth fun s c ps =>
    let partition := par ps 0
    let reason := par ps 1
    if c.stage = 1 then .wait c s
    else if 1 ≤ reason ∧ reason ≤ 0x7F then .field s
    else match s.domain partition with
      | none => .fail 0x80 s
      | some d =>
        match d.waiting with
        | some w => .ok [] (((s.delDomain partition).reply w.1 w.2 stAborted 0 []).admStopped w.1)
        | none =>
          .wait { c with stage := 1 } ((s.setDomain partition { d with faultCmds := d.faultCmds ++ [(p, k)] }).jobFault partition reason 0)

/-- SNAPSHOT (R797): its reply comes with the release's combine. Each snapshot of this module takes two sequence numbers, of which the
second is the release's (log 27). -/
def execSnapshot (p k : Nat) (s : State) : Result :=
  run s fun s => s.adminRun p k 0x00F2 anySel anyAuth fun s c ps =>
    let partition := par ps 0
    if c.stage = 1 then .wait c s
    else match s.domain partition with
      | none => .fail 0x80 s
      | some d =>
        if !d.ready then .fail 0x80 s
        else if d.snap.isSome || d.stopped || d.fault.isSome then .fail 0x81 s
        else
          let seq := (2 * s.col.rooted + 2) % 2 ^ 32
          let c := { c with stage := 1 }
          let s := (s.setCmd p k c).setDomain partition { d with snap := some (p, k) }
          let s := { s with col := { s.col with rooted := s.col.rooted + 1 } }
          .wait c (s.treeStart tkSnapshot partition seq partition [] (beBytes 1 1 ++ zeros 15))

/-! ## Memory errors (R802, R807, R810) -/

/-- SCRUB_READ (R802): the patrol scrub of a stack that is in service reads a physical word. -/
def execScrubRead (word : Nat) (s : State) : Result :=
  run s fun s =>
    let st := stackOf (word * 32)
    if !s.stackServes st ∨ s.comF .MEM_SCRUB_CFG 31 31 ≠ 1 ∨ 2 ^ 34 ≤ word then s
    else
      let last := b2n (word % 2 ^ 31 != 2 ^ 31 - 1)
      let s : State := { s with hbm := { s.hbm with scrubbing := setBits s.hbm.scrubbing st st last } }
      match SMap.find s.hbm.ecc word with
      | some .correctable => (s.corrected word).clearEcc word
      | some .uncorrectable => s.foundUe word
      | _ => s

/-- CE_HOUR_ROLLOVER (R802, R809): a whole hour of power-on time has passed on a stack. -/
def execCeHourRollover (stack : Nat) (s : State) : Result :=
  run s fun s =>
    if 8 ≤ stack then s
    else { s with hbm := { s.hbm with
      ceLast := SMap.put s.hbm.ceLast stack (SMap.getD s.hbm.ceHour stack 0)
      ceHour := SMap.del s.hbm.ceHour stack } }

/-- MEM_COMMIT (R807). -/
def execMemCommit (fn : Nat) (s : State) : Result :=
  run s fun s => s.commit fn .MEM_COMMIT (fun s => s.regF .MEM_ECC_CFG 31 16 != 0 && s.regF .MEM_SCRUB_CFG 7 0 != 0)
    (fun s => s.setFlag .MEM_ERR 5) [.MEM_ECC_CFG, .MEM_SCRUB_CFG]

/-- MEM_INJECT_ARM (R810): a write of `MEM_INJECT_CTRL`. A written ARM of 0 leaves ARM as it is, and KIND 0 disarms. -/
def execMemInjectArm (fn value : Nat) (s : State) : Result :=
  run s fun s => s.expert fn Reg.MEM_INJECT_CTRL.addr 4 fun s =>
    let s := s.setRegF .MEM_INJECT_CTRL 1 0 (value % 4)
    if value % 4 = 0 then s.setRegF .MEM_INJECT_CTRL 31 31 0
    else if bit value 31 then s.setRegF .MEM_INJECT_CTRL 31 31 1 else s

end Sys2Proof.Machine
end

