-- ==== Sys2Proof/Machine/EngineRows.lean ====
section
/-!
DEFINITION. The commands of groups, the tree, transit programs, wick queues, barriers and mailboxes (R395 to R443, R457 to R475,
R567 to R594).
-/

namespace Sys2Proof.Machine

/-! ## Groups (R395 to R398, R408) -/

/-- DEFINE_GROUP (R395, R396): its reply comes when every member has issued it. -/
def execDefineGroup (p k : Nat) (s : State) : Result :=
  run s fun s => s.adminRun p k 0x0050 anySel anyAuth fun s c ps =>
    if c.stage = 1 then .wait c s
    else if (s.group (par ps 0)).isSome then .fail 0x80 s
    else if par ps 2 = 0 ∨ 131072 < par ps 2 then .fail 0x81 s
    else match s.admRead p k c (par ps 3) (4 * par ps 2) with
    | (none, c, s) => .wait c s
    | (some none, c, s) => .reply ((c.data.fail.map (·.1)).getD stTranslationFault) 0 [] s
    | (some (some b), c, s) => s.defineGroup p k (par ps 0) (par ps 1) c (listOf b (par ps 2))

/-- RELEASE_GROUP (R396, R398): on a group that is still being defined it ends that wait. -/
def execReleaseGroup (p k : Nat) (s : State) : Result :=
  run s fun s => s.adminRun p k 0x0051 anySel anyAuth fun s _ ps =>
    let g := par ps 0
    match s.group g with
    | none => .fail 0x80 s
    | some x =>
      match x.waiting with
      | some w => .ok [] ((s.dropGroup g).reply w.1 w.2 stAborted 0 [])
      | none => if s.groupBusy g x then .fail 0x81 s else .ok [] (s.dropGroup g)

/-- SET_COLLECTIVE_POLICY (R408, R415). -/
def execSetCollectivePolicy (p k : Nat) (s : State) : Result :=
  run s fun s => s.adminRun p k 0x0052 anySel anyAuth fun s _ ps =>
    match s.definedGroup (par ps 0) with
    | none => .fail 0x80 s
    | some x =>
      if par ps 2 = 0 then .fail 0x81 s
      else .ok [] (s.setGroup (par ps 0) { x with crossover := par ps 1, weight := par ps 2 })


/-- COL_COMMIT (R434): refused when LANES or RETRY_US is 0. -/
def execColCommit (fn : Nat) (s : State) : Result :=
  run s fun s => s.commit fn .COL_COMMIT (fun s => s.regF .COL_LANE_CFG 7 0 != 0 && s.regF .COL_TREE_CFG 31 16 != 0)
    (fun s => s.setFlag .COL_ERR 3) [.COL_LANE_CFG, .COL_TREE_CFG]

/-! ## The tree (R77, R425, R794, R797) -/

/-- TREE_UP_RETRY (R425): a member without its TREE_DOWN sends its TREE_UP again, or its GROUP_SETUP, which stands for it (log 29). -/
def execTreeUpRetry (kind root tree seq : Nat) (s : State) : Result :=
  run s fun s =>
    if kind = tkGroupDefine then
      match s.group tree with
      | some x => if x.waiting.isSome && x.list.headD s.me == root && root != s.me then s.sendSetup tree x else s
      | none => s
    else match s.treeOp kind root tree seq with
    | none => s
    | some t => if !t.sentUp ∨ t.down ∨ t.finished ∨ tkAcks kind then s else s.treeAgain t

/-- TREE_ACK_TIMEOUT (R794): a member that has not acknowledged is marked LOST. -/
def execTreeAckTimeout (kind root tree seq m : Nat) (s : State) : Result := run s fun s => s.ackTimeout kind root tree seq m

/-- REVOKE_DRAIN_DONE (R77, R86): the requests accepted before a revocation or a freeing have been performed. -/
def execRevokeDrainDone (kind root tree : Nat) (s : State) : Result := run s fun s => s.drainDone kind root tree

/-- SNAPSHOT_DRAIN_DONE (R797): nothing of the partition is in flight or running here. -/
def execSnapshotDrainDone (partition : Nat) (s : State) : Result := run s fun s => s.snapDrainDone partition

/-! ## Transit programs (R462, R463, R470 to R475, R480, R487) -/

/-- Whether a wait of an image names a wick queue that does not exist or is of another partition (R462 check 8). -/
def State.waitBad (s : State) (b : Bytes) (partition : Nat) : Bool :=
  (imgWaits b).any fun w => match s.wick w.1 with
    | some q => q.partition != partition
    | none => true

/-- LOAD_TRANSIT_PROGRAM (R462, R463). The number is a free choice (log 23). -/
def execLoadTransitProgram (p k : Nat) (s : State) : Result :=
  run s fun s => s.adminRun p k 0x0060 anySel (instAuth p 0) fun s c ps =>
    let n := par ps 0
    let units := par ps 2
    if (s.inst n).isNone ∨ par ps 1 = 0 then .field s else
      match s.admRead p k c (par ps 3) (64 * min 64 units) with
      | (none, c, s) => .wait c s
      | (some none, _, s) => .fail 0x81 s
      | (some (some b), _, s) =>
        match imageFail b units with
        | some d => .reply 0x80 d [] s
        | none =>
          if s.waitBad b (par ps 1) then .reply 0x80 8 [] s
          else match s.pickNumber s.trn.programs 1024 with
            | none => .fail stResource s
            | some m =>
              let pr : Program := ⟨n, par ps 1, b, beNat ((sha384 b).take 8), false⟩
              .ok [(16, m)] { s.drawn with trn := { s.trn with programs := SMap.put s.trn.programs m pr } }

/-- UNLOAD_TRANSIT_PROGRAM (R463, R557): refused while an entry names the program. -/
def execUnloadTransitProgram (p k : Nat) (s : State) : Result :=
  run s fun s => s.adminRun p k 0x0061 anySel
    (fun s ps => ((s.program (par ps 0)).map fun x => reach p x.inst).getD true) fun s _ ps =>
    let m := par ps 0
    match s.program m with
    | none => .fail 0x80 s
    | some _ =>
      if !(s.entriesOf m).isEmpty then .fail 0x81 s
      else .ok [] { s with
        trn := { s.trn with programs := SMap.del s.trn.programs m }
        plc := { s.plc with pins := SMap.del s.plc.pins m, heat := SMap.keep s.plc.heat fun k _ => k / 8 != m } }

/-- The tile-pair domains of an entry's tiles. -/
def State.entryDomains (s : State) (die : Nat) (e : TEntry) : List Nat :=
  match e.tiles with
  | none => []
  | some t => ((List.range (s.tilesOf e)).map fun i => domTile die (t + i)).eraseDups

/-- TILE_ALLOCATION (R474): the first READY entry of a die is given its tiles; tile pairs that are off are woken for it (R749). -/
def execTileAllocation (die : Nat) (s : State) : Result :=
  run s fun s =>
    let s := s.allocateTiles die
    (List.range 256).foldl (fun (s : State) i => match s.entry (entryKey die i) with
      | some e => if e.state = 4 then (s.entryDomains die e).foldl State.wakeDom s else s
      | none => s) s

/-- What a read of tile SRAM found for an entry (R803, R804): `sram` 1 a corrected word, 2 an uncorrectable one, which ends the program
POISONED. -/
def State.sramFound (s : State) (die entry sram tile offset : Nat) : State :=
  let unit := 64 * die + tile % 64
  if sram = 1 then s.count .MEM_SRAM_CE_COUNT
  else if sram = 2 then
    (((s.count .MEM_SRAM_UE_COUNT).ecc 2 1 unit offset).elog elSramUe unit 0 offset).failEntry (entryKey die entry) stPoisoned 0 false
  else s

/-- OPERATOR_CHUNK_DONE (R475): a chunk of an operator is done, or, with `sram` 2, has read a word of a tile's SRAM that cannot be
corrected, at a byte offset (R444, R803). The program's steps wait while a tile pair of it is not on or its die's clock relocks (R44,
R762). -/
def execOperatorChunkDone (die entry op sram tile offset : Nat) (s : State) : Result :=
  run s fun s =>
    match s.entry (entryKey die entry) with
    | none => s
    | some e =>
      if (s.entryDomains die e).any (fun d => !s.domOn d) ∨ s.pwr.relock.contains die then s
      else if e.state ≠ 4 ∨ e.ending.isSome then s
      else
        let s := s.sramFound die entry sram tile offset
        if sram = 2 then s else s.chunkDone (entryKey die entry) op

/-- TRANSIT_WAIT_TIMEOUT (R470): the WAIT_LIMIT_US of a WAITING entry expires, and it completes TIMEOUT. -/
def execTransitWaitTimeout (die entry : Nat) (s : State) : Result :=
  run s fun s =>
    let k := entryKey die entry
    match s.entry k with
    | none => s
    | some e =>
      if e.state ≠ 2 ∨ imgWaitLimit (s.image e) = 0 then s
      else ((s.dropEntryWaits k).setEntry k { e with ending := some (stTimeout, 0, false) }).endEntry k

/-- TRANSIT_PRIORITY_PROMOTION (R474): a READY entry rises by one priority level, up to 3. -/
def execTransitPriorityPromotion (die entry : Nat) (s : State) : Result :=
  run s fun s =>
    let k := entryKey die entry
    match s.entry k with
    | none => s
    | some e => if e.state = 3 ∧ e.prio < 3 then s.setEntry k { e with prio := e.prio + 1 } else s

/-- TRN_CANCEL_WRITE (R471, R487): a write to `TRN_CANCEL` of a die cancels an entry. -/
def execTrnCancelWrite (fn die value : Nat) (s : State) : Result :=
  run s fun s => s.expert fn (Reg.TRN_CANCEL die).addr 4 fun s =>
    let k := entryKey die (value % 256)
    match s.entry k with
    | none => s.setFlag (.TRN_ERR die) 2
    | some _ => s.cancelEntry k stAborted dCancel false false

/-- TRN_COMMIT (R480): refused when AGE_LIMIT or AGE_PROMOTE_US is 0, or RESERVED_TILES exceeds 32. -/
def execTrnCommit (fn die : Nat) (s : State) : Result :=
  run s fun s => s.commit fn (.TRN_COMMIT die)
    (fun s => s.regF (.TRN_ARB_CFG die) 11 0 != 0 && s.regF (.TRN_SCHED_CFG die) 23 16 != 0 &&
      decide (s.regF (.TRN_SCHED_CFG die) 6 0 ≤ 32))
    (fun s => s.setFlag (.TRN_ERR die) 0) [.TRN_ARB_CFG die, .TRN_SCHED_CFG die]

/-! ## Wick queues (R567, R573) -/

/-- CREATE_WICK_QUEUE (R567): the lowest free number. -/
def execCreateWickQueue (p k : Nat) (s : State) : Result :=
  run s fun s => s.adminRun p k 0x0080 anySel (instAuth p 0) fun s _ ps =>
    let n := par ps 0
    let depth := par ps 2 % 2 ^ 24
    if (s.inst n).isNone ∨ par ps 1 = 0 then .field s
    else if depth = 0 then .fail 0x80 s
    else if !s.hasRoom n 4096 (·.wickPool) (fun i => countIn s.syn.wicks fun w => w.inst == i) (fun _ => true) then .fail stResource s
    else match SMap.freeFrom s.syn.wicks 4096 0 with
      | none => .fail stResource s
      | some m => .ok [(16, m)] (s.setWick m
          ⟨n, par ps 1, depth, bit (par ps 2) 24, 0, 0, 0, 0, 0, 0, false, false, s.epochNow (par ps 1), [], true⟩)

/-- DESTROY_WICK_QUEUE (R573): every waiter completes ABORTED, detail CANCEL. -/
def execDestroyWickQueue (p k : Nat) (s : State) : Result :=
  run s fun s => s.adminRun p k 0x0081 anySel
    (fun s ps => ((s.wick (par ps 0)).map fun w => reach p w.inst).getD true) fun s _ ps =>
    match s.wick (par ps 0) with
    | none => .fail 0x80 s
    | some _ => .ok [] (s.removeWick (par ps 0) stAborted dCancel)

/-! ## Barriers (R580 to R583) -/

/-- DEFINE_BARRIER (R581): a barrier that replaces a VACANT one keeps the arrival that the VACANT one has made. -/
def execDefineBarrier (p k : Nat) (s : State) : Result :=
  run s fun s => s.adminRun p k 0x0082 anySel (instAuth p 0) fun s _ ps =>
    let g := par ps 1
    let fresh : Barrier := ⟨par ps 0, par ps 2 = 1, false, 1, 1, 0, 0, 0, false, none, none, []⟩
    if (s.inst (par ps 0)).isNone then .field s
    else if (s.definedGroup g).isNone then .fail 0x80 s
    else match s.bar g with
      | none => .ok [(16, g)] (s.setBar g fresh)
      | some b =>
        if !b.vacant then .fail stResource s
        else .ok [(16, g)] (s.setBar g { fresh with instance_ := b.instance_, sent := b.sent, releaseAt := b.releaseAt, due := b.due })

/-- SYN_BAR_PARTICIPANTS_WRITE (R583): by the barrier's owner through its own BAR0, or by the manager as an expert register. The
value applies from the next instance on. -/
def execSynBarParticipantsWrite (fn g value : Nat) (s : State) : Result :=
  mmio s fun s =>
    let r := Reg.SYN_BAR_PARTICIPANTS g
    let set (s : State) : State := match s.bar g with
      | some b => (s.setBar g { b with next := max 1 (value % 65536) }).setReg r (BitVec.ofNat 64 (max 1 (value % 65536)))
      | none => s.setFlag .SYN_ERR 3
    if !isPf fn ∧ (s.inst fn).isNone then s.accessLog akNoInstance 0 fn 4 r.addr
    else if ((s.bar g).map (·.inst)) = some fn then set s
    else if fn = 0 then s.expert fn r.addr 4 set
    else s.setFlag .SYN_ERR 3

/-! ## Mailboxes (R584 to R588, R593) -/

/-- MAILBOX_SEND (R585, R593): a write of a transmit control register, UP (`dir` 0) or DOWN (1); it sends when SEND is set. -/
def execMailboxSend (fn dir value : Nat) (s : State) : Result :=
  mmio s fun s =>
    let ctrl := if dir = 0 then Reg.VRT_MBX_UP_TX_CTRL else .VRT_MBX_DOWN_TX_CTRL
    let tx := if dir = 0 then Reg.VRT_MBX_UP_TX else .VRT_MBX_DOWN_TX
    if (s.inst fn).isNone then s.accessLog akNoInstance 0 fn 4 ctrl.addr
    else match s.mbxChild fn dir with
      | none => if dir = 0 ∨ !isPf fn then s else s.countOf fn .VRT_MBX_DROP_COUNT 1
      | some c =>
        let s := s.setRegOf fn ctrl (BitVec.ofNat 64 (value &&& 0x00FFFF02))
        if bit value 0 then s.mbxSend c (dir == 1) (s.regOf fn tx).toNat (bits value 23 8) (bit value 1) else s

/-- MAILBOX_RECEIVE (R586): a read of bits 63:32 of a receive register, of the slot from the parent (`dir` 0) or from the selected
child (1), which empties the slot. -/
def execMailboxReceive (fn dir : Nat) (s : State) : Result :=
  mmio s fun s =>
    match s.mbxChild fn dir with
    | none => s.emit (.readData (portOf fn) fn (zeros 8) false)
    | some c =>
      let m := (s.mbx c (dir == 0)).message
      (s.emit (.readData (portOf fn) fn (leBytes 8 m) false)).mbxRead c (dir == 0)

end Sys2Proof.Machine
end

