-- ==== Sys2Proof/Machine/HifRows.lean ====
section
/-!
DEFINITION. The commands of the host interface: register writes, window accesses, and the events of PCIe functions and ports
(R691, R716 to R747).
-/

namespace Sys2Proof.Machine

/-! ## Accesses to a BAR (R723 to R728, R733) -/

/-- REGISTER_WRITE (R13, R723): a write request to BAR0, whose enabled bytes from a dword offset on are those set in `lanes`. -/
def execRegisterWrite (fn offset lanes value : Nat) (s : State) : Result := run s fun s => s.bar0Write fn offset lanes value

/-- WINDOW_ACCESS (R726, R728): a read or write of `len` bytes of a function's window, of which those set in `lanes` are enabled. -/
def execWindowAccess (fn : Nat) (write : Bool) (offset len lanes : Nat) (data : Bytes) (s : State) : Result :=
  run s fun s =>
    let len := min len (windowBytes fn - offset)
    let enabled := (List.range len).map fun i => bit lanes i
    if !bit s.boot.dies 3 then s
    else if write then s.windowWrite fn offset (slice data 0 len) enabled else s.windowRead fn offset enabled

/-- HIF_WIN_BASE_WRITE (R727, R721): a base is accepted with VALID 0, or within a range that the function may name. Its reserved bits are
ignored (R7), so that the base that ADDRESS gives is always 2 MiB aligned (log 83). -/
def execHifWinBaseWrite (fn value : Nat) (s : State) : Result :=
  mmio s fun s =>
    let named := match s.rangeOf (bits value 38 21 * 2 ^ 21) with
      | some e => mayName fn e.1
      | none => false
    if !isPf fn ∧ (s.inst fn).isNone then s.accessLog akNoInstance 0 fn 8 0x1010
    else if !bit value 0 || named then
      s.setRegOf fn .HIF_WIN_BASE (BitVec.ofNat 64 value &&& 0x7FFFE00001)
    else s.accessLog akRange 0 fn 8 (if isPf fn then 0x100010 else 0x1010)

/-- Whether a port accepts an inbound memory request from a requester ID to a BAR (0 BAR0, 1 BAR2, 2 BAR4) (R733). -/
def State.ridAccepted (s : State) (p rid bar : Nat) : Bool :=
  s.comF (.HIF_PORT_CFG p) 31 31 == 0 || (s.port p).rootRid == some rid ||
    (s.comF (.HIF_PORT_RID p) 31 31 == 1 && s.comF (.HIF_PORT_RID p) 15 0 == rid && bar != 0)

/-- INBOUND_REQUEST_REFUSED (R733): a memory request from a requester ID that the port does not accept is refused. -/
def execInboundRequestRefused (fn rid bar offset bytes : Nat) (write : Bool) (s : State) : Result :=
  run s fun s =>
    let p := portOf fn
    if s.ridAccepted p rid bar then s
    else
      let f := s.fn fn
      let s := if write then s.setFn fn { f with aer := if f.aer.contains 2 then f.aer else f.aer ++ [2] } else s.emit (.unsupported p)
      s.accessLog akRefusedRid bar fn bytes offset

/-! ## Configuration (R691, R716, R733, R735 to R739) -/

/-- The configuration of a port's functions (R716): TotalVFs, First VF Offset and VF Stride, and the device ID of a function. -/
def totalVfs : Nat := 127
def firstVfOffset : Nat := 1
def vfStride : Nat := 1
def deviceId (fn : Nat) : Nat := if isPf fn then 0x4B38 else 0x4B39

/-- The functions of a port that the host has enabled, physical function first, by their number in the port (R691, R716). -/
def State.functionsOf (s : State) (port : Nat) : List Nat :=
  0 :: (List.range (min totalVfs (s.port port).vfEnabled)).map fun i => firstVfOffset + i * vfStride

/-- A configuration request that comes before the host die is up is answered with Request Retry Status (R717). -/
def State.configRetry (s : State) (fn : Nat) : State := if bit s.boot.dies 3 then s else s.emit (.configRetry (portOf fn))

/-- Whether configuration requests reach a function: the host die is up (R717), its port's link is up and, for a virtual function, the host has enabled it (R691,
R716). -/
def State.present (s : State) (fn : Nat) : Bool :=
  decide (fn < 512) && bit s.boot.dies 3 && (s.port (portOf fn)).link == 2 && (s.functionsOf (portOf fn)).contains (fn % 128)

/-- FIRST_CONFIG_WRITE (R733): the requester ID of the first configuration write after the link comes up is ROOT_RID. -/
def execFirstConfigWrite (port rid : Nat) (s : State) : Result :=
  run s fun s =>
    let x := s.port port
    if !s.present (128 * port) then s.configRetry (128 * port)
    else if x.rootRid = none then s.setPort port { x with rootRid := some (rid % 65536) } else s

/-- BUS_MASTER_ENABLE_CLEAR (R737). -/
def execBusMasterEnableClear (fn : Nat) (s : State) : Result :=
  run s fun s =>
    if !s.present fn then s.configRetry fn
    else if (s.fn fn).busMaster then (s.setFn fn { s.fn fn with busMaster := false }).holdFn fn else s

/-- BUS_MASTER_ENABLE_SET (R739). -/
def execBusMasterEnableSet (fn : Nat) (s : State) : Result :=
  run s fun s => if s.present fn then (s.setFn fn { s.fn fn with busMaster := true }).resumeFn fn else s.configRetry fn

/-- D3HOT_ENTRY (R737). -/
def execD3hotEntry (fn : Nat) (s : State) : Result :=
  run s fun s => if s.present fn then (s.setFn fn { s.fn fn with d3hot := true }).holdFn fn else s.configRetry fn

/-- D3HOT_EXIT (R737, R739): a return to D0 with Bus Master Enable set lets the function go on. -/
def execD3hotExit (fn : Nat) (s : State) : Result :=
  run s fun s => if s.present fn then (s.setFn fn { s.fn fn with d3hot := false }).resumeFn fn else s.configRetry fn

/-- MSIX_UNMASK (R735, R736): MSI-X Enable and Function Mask as written, and a vector whose mask is cleared; a pending message then goes. -/
def execMsixUnmask (fn vector : Nat) (enable mask : Bool) (s : State) : Result :=
  run s fun s =>
    if !s.present fn then s.configRetry fn
    else
      let f := { s.fn fn with msixEnable := enable, fnMask := mask }
      let f := if vector < vectorsOf fn then { f with table := SMap.put f.table vector { f.entry vector with masked := false } } else f
      (s.setFn fn f).msixFlush fn

/-- VF_ENABLE (R691): the host enables the first `count` virtual functions of a port. -/
def execVfEnable (port count : Nat) (s : State) : Result :=
  run s fun s =>
    if !s.present (128 * port) then s.configRetry (128 * port)
    else if (s.port port).vfEnabled = 0 ∧ count ≤ totalVfs then s.setPort port { s.port port with vfEnabled := count } else s

/-- VF_DISABLE (R691). -/
def execVfDisable (port : Nat) (s : State) : Result := run s fun s => if s.present (128 * port) then s.vfsOff port else s.configRetry (128 * port)

/-- FUNCTION_LEVEL_RESET_VF (R699, R740). -/
def execFunctionLevelResetVf (fn : Nat) (s : State) : Result :=
  run s fun s =>
    if !s.present fn then s.configRetry fn
    else if isPf fn then s else (s.resetInst fn false []).clearFn fn

/-- FUNCTION_LEVEL_RESET_PF (R740). -/
def execFunctionLevelResetPf (port : Nat) (s : State) : Result := run s fun s => if s.present (128 * port) then s.pfReset port else s.configRetry (128 * port)

/-! ## Ports (R716, R741, R746) -/

/-- PCIE_LINK_UP (R716, R746): the link of a port that trains comes up. -/
def execPcieLinkUp (port width rate : Nat) (s : State) : Result :=
  run s fun s =>
    let x := s.port port
    if x.link = 1 ∧ [4, 8, 16].contains width ∧ [64, 128].contains rate then s.setPort port { x with link := 2, width, rate } else s

/-- The valid peer windows of a port in the shadow, as (first byte, byte after the last) (R734, R747). -/
def State.peerWindows (s : State) (p : Nat) : List (Nat × Nat) :=
  ((List.range 4).filter fun w => s.regF (.HIF_PEER_BASE p w) 0 0 == 1).map fun w =>
    (s.regF (.HIF_PEER_BASE p w) 63 12 * 4096, s.regF (.HIF_PEER_LIMIT p w) 63 12 * 4096 + 4096)

/-- Whether no window of a list overlaps a later one. -/
def disjointWindows : List (Nat × Nat) → Bool
  | [] => true
  | x :: l => l.all (fun y => decide (x.2 ≤ y.1) || decide (y.2 ≤ x.1)) && disjointWindows l

/-- Whether the shadowed set of HIF may be taken into use (R741). -/
def State.hifGood (s : State) : Bool :=
  (List.range 4).all fun p =>
    let t := s.regF (.HIF_PORT_CFG p) 15 0
    decide (50 ≤ t) && decide (t ≤ 50000) && (s.peerWindows p).all (fun w => decide (w.1 < w.2)) && disjointWindows (s.peerWindows p)

/-- The registers that HIF_COMMIT takes into use (R741). -/
def hifSet : List Reg :=
  (List.range 4).flatMap fun p => [.HIF_PORT_CFG p, .HIF_PORT_RID p] ++
    (List.range 4).flatMap fun w => [.HIF_PEER_BASE p w, .HIF_PEER_LIMIT p w]

/-- HIF_COMMIT (R741). -/
def execHifCommit (fn : Nat) (s : State) : Result :=
  run s fun s => s.commit fn .HIF_COMMIT State.hifGood (fun s => s.setFlagOf 0 .HIF_ERR 7) hifSet

end Sys2Proof.Machine
end

