-- ==== Sys2Proof/Machine/PlacementRows.lean ====
section
/-!
DEFINITION. The commands of skylights, hall pages and placement (R58, R68 to R86, R537 to R564).
-/

namespace Sys2Proof.Machine

/-! ## Skylights (R68 to R85) -/

/-- A skylight that is open or revoking under a key (R83). -/
def State.skyOf (s : State) (key : Nat) : Option Sky :=
  (SMap.find s.hall.sky (key % 2 ^ 20)).filter fun k => k.tag == key / 2 ^ 20 && k.state != .revoked

/-- The skylights that an instance's quota pays for: open or revoking ones (R71). -/
def State.skiesOf (s : State) (n : Nat) : Nat :=
  (s.hall.sky.filter fun e => e.2.inst == n && e.2.state != .revoked).length

/-- The index that OPEN_SKYLIGHT takes: one never used, else the one revoked longest ago (R70). -/
def State.skyIndex (s : State) : Option Nat :=
  match SMap.freeFrom s.hall.sky (2 ^ 20) 0 with
  | some i => some i
  | none => ((s.hall.sky.filter fun e => e.2.state == .revoked).foldl (fun (b : Option (Nat × Sky)) e =>
      match b with
      | some x => if e.2.revokedAt < x.2.revokedAt then some e else b
      | none => some e) none).map (·.1)

/-- A tag drawn for an index: any but the one last used there (R69). -/
def State.skyTag (s : State) (i : Nat) : Nat :=
  match SMap.find s.hall.sky i with
  | some k => let v := s.freeVal % 4095; if k.tag ≤ v then v + 1 else v
  | none => s.freeVal % 4096

/-- Whether the range of a skylight is refused (R68, R226). -/
def State.skyBadRange (s : State) (hall : Bool) (base len : Nat) : Bool :=
  base % 4096 != 0 || len % 4096 != 0 || len == 0 || decide (2 ^ 48 < len) ||
    (hall && (base / 2 ^ 44 != s.me || decide (2 ^ 44 < base % 2 ^ 44 + len)))

/-- OPEN_SKYLIGHT (R68 to R71, R226). -/
def execOpenSkylight (p k : Nat) (s : State) : Result :=
  run s fun s => s.adminRun p k 0x0030 anySel (instAuth p 0) fun s c ps =>
    let n := par ps 0
    let hall := par ps 1 == 1
    if (s.inst n).isNone ∨ par ps 3 = 0 then .field s
    else if s.skyBadRange hall (par ps 4) (par ps 5) then .fail 0x80 s
    else if par ps 2 = 0 then .fail 0x81 s
    else if s.sec.entropy = 2 ∨ !s.hasRoom n (2 ^ 20) (·.skyQuota) s.skiesOf (fun _ => true) then .fail stResource s
    else if s.sec.due.contains 2 then .wait c s
    else match s.skyIndex with
      | none => .fail stResource s
      | some i =>
        let tag := s.skyTag i
        let x : Sky := ⟨.open_, tag, hall, n, par ps 4, par ps 5, par ps 3, par ps 2, 0, []⟩
        .ok [(32, tag * 2 ^ 20 + i)] ((s.drawn).setSky i x)

/-- The authority of a command that names a skylight key (R210). -/
def skyAuth (p : Nat) (s : State) (ps : List Nat) : Bool := ((s.skyOf (par ps 0)).map fun k => reach p k.inst).getD true

/-- REVOKE_SKYLIGHT (R77, R83): it replies when the revocation completes. -/
def execRevokeSkylight (p k : Nat) (s : State) : Result :=
  run s fun s => s.adminRun p k 0x0031 anySel (skyAuth p) fun s c ps =>
    if c.stage = 1 then .wait c s
    else
      let i := par ps 0 % 2 ^ 20
      match s.skyOf (par ps 0) with
      | none => .fail 0x80 s
      | some x =>
        if x.state = .revoking then .wait { c with stage := 1 } (s.setSky i { x with waiting := x.waiting ++ [(p, k)] })
        else .wait { c with stage := 1 } (s.beginRevoke i x [(p, k)])

/-- QUERY_SKYLIGHT (R226). -/
def execQuerySkylight (p k : Nat) (s : State) : Result :=
  run s fun s => s.adminRun p k 0x0032 anySel (skyAuth p) fun s _ ps =>
    match s.skyOf (par ps 0) with
    | none => .fail 0x80 s
    | some x => .ok [(8, b2n (x.state == .revoking)), (8, x.rights), (16, x.partition), (9, x.inst), (64, x.len)] s

/-! ## Hall pages (R58, R86, R529) -/

/-- Allocate one hall page on its home: an entry in state HOME, with its home frame (R62, R529, R530, R542). -/
def State.allocPage (s : State) (i partition : Nat) (readOnly : Bool) : Option State :=
  match s.takeFrame (.home i) with
  | none => none
  | some (f, s) =>
    let g : Page := { (default : Page) with
      state := .home, before := .home, readOnly, partition, seq := 1, writer := s.me, lastChange := s.nowUs, frame := f }
    let h : Held := { (default : Held) with frame := f, seq := 1, partition, readOnly, home := s.me }
    some ((s.setPage i g).setHeld (pageKey s.me i) h)

/-- ALLOCATE_HALL_PAGES (R58, R228). -/
def execAllocateHallPages (p k : Nat) (s : State) : Result :=
  run s fun s => s.adminRun p k 0x0070 anySel anyAuth fun s _ ps =>
    let first := par ps 2
    let count := par ps 3
    if par ps 0 = 0 then .field s
    else if count = 0 ∨ 2 ^ 23 < first + count then .fail 0x80 s
    else if s.hall.pages.any fun e => decide (first ≤ e.1) && decide (e.1 < first + count) then .fail 0x81 s
    else if 262144 < s.hall.pages.length + count ∨ s.freeFrames < count then .fail stResource s
    else
      let all := (List.range count).foldl (fun (o : Option State) i => o.bind fun s => s.allocPage (first + i) (par ps 0) (par ps 1 == 1))
        (some s)
      match all with
      | none => .fail stResource s
      | some t => .ok [(64, pageAddress s.me first)] t

/-- Whether every page of a range is allocated here. -/
def State.allAllocated (s : State) (first count : Nat) : Bool :=
  (s.hall.pages.filter fun e => decide (first ≤ e.1) && decide (e.1 < first + count)).length == count

/-- FREE_HALL_PAGES (R86): it replies when every module of the scope has acknowledged. -/
def execFreeHallPages (p k : Nat) (s : State) : Result :=
  run s fun s => s.adminRun p k 0x0071 anySel anyAuth fun s c ps =>
    if c.stage = 1 then .wait c s
    else if par ps 1 = 0 ∨ 2 ^ 23 < par ps 0 + par ps 1 then .fail 0x80 s
    else if !s.allAllocated (par ps 0) (par ps 1) then .fail 0x81 s
    else .wait { c with stage := 1 } (s.beginFree p k (par ps 0) (par ps 1))

/-! ## Pins (R556, R557) -/

/-- The page range of a PIN_PLACEMENT is outside its limits, or its ACTION is (R556). -/
def pinField (ps : List Nat) : Bool :=
  decide (3 < par ps 0) || par ps 3 == 0 || decide (2 ^ 23 < par ps 2 + par ps 3)

/-- The pages of a range of this home, with their indices. -/
def State.pagesIn (s : State) (first count : Nat) : List (Nat × Page) :=
  s.hall.pages.filter fun e => decide (first ≤ e.1) && decide (e.1 < first + count)

/-- Whether the home's record of a holder's free reserve is too small for the pages of a range not already held there (R540,
R556). -/
def State.pinNoReserve (s : State) (holder : Nat) (pages : List (Nat × Page)) : Bool :=
  let away := pages.filter fun e => e.2.writer != holder && !e.2.replicas.contains holder
  holder != s.me && away.any fun e =>
    match SMap.find s.plc.reserves (e.2.partition * 2 ^ 17 + holder) with
    | some r => decide (r < (away.filter fun d => d.2.partition == e.2.partition).length)
    | none => false

/-- Pin one page (R557). -/
def State.pinPage (s : State) (holder i : Nat) : State :=
  let s := s.updPage i fun g => { g with pinned := true, pinHolder := holder, pinWait := g.writer != holder, pinNoted := false }
  match s.page i with
  | some g => if g.state = .replicated ∧ !g.collapsing then s.change (.collapse i) i else s.pinMove i false
  | none => s

/-- PIN_PAGES (R556, R557): ACTION 1. An ACTION that names nothing is refused here too. -/
def execPinPages (p k : Nat) (s : State) : Result :=
  run s fun s => s.adminRun p k 0x0072 (fun ps => par ps 0 == 1 || decide (3 < par ps 0)) anyAuth fun s _ ps =>
    let holder := par ps 1
    let pages := s.pagesIn (par ps 2) (par ps 3)
    if pinField ps then .field s
    else if !s.allAllocated (par ps 2) (par ps 3) then .fail 0x80 s
    else if pages.any fun e => !s.member e.2.partition holder then .fail 0x81 s
    else if s.pinNoReserve holder pages then .fail 0x82 s
    else .ok [] (pages.foldl (fun (s : State) e => s.pinPage holder e.1) s)

/-- UNPIN_PAGES (R556, R557): ACTION 0. -/
def execUnpinPages (p k : Nat) (s : State) : Result :=
  run s fun s => s.adminRun p k 0x0072 (fun ps => par ps 0 == 0) anyAuth fun s _ ps =>
    if pinField ps then .field s
    else if !s.allAllocated (par ps 2) (par ps 3) then .fail 0x80 s
    else .ok [] ((s.pagesIn (par ps 2) (par ps 3)).foldl (fun (s : State) e =>
      s.updPage e.1 fun g => { g with pinned := false, pinWait := false, pinNoted := false }) s)

/-- PIN_PROGRAM (R556, R557): ACTION 3. -/
def execPinProgram (p k : Nat) (s : State) : Result :=
  run s fun s => s.adminRun p k 0x0072 (fun ps => par ps 0 == 3) anyAuth fun s _ ps =>
    if pinField ps then .field s else
    match SMap.find s.trn.programs (par ps 4) with
    | none => .fail 0x83 s
    | some g =>
      if !s.member g.partition (par ps 1) then .fail 0x81 s
      else .ok [] { s with plc := { s.plc with pins := SMap.put s.plc.pins (par ps 4) (par ps 1) } }

/-- UNPIN_PROGRAM (R556, R557): ACTION 2. -/
def execUnpinProgram (p k : Nat) (s : State) : Result :=
  run s fun s => s.adminRun p k 0x0072 (fun ps => par ps 0 == 2) anyAuth fun s _ ps =>
    if pinField ps then .field s
    else if !SMap.has s.trn.programs (par ps 4) then .fail 0x83 s
    else .ok [] { s with plc := { s.plc with pins := SMap.del s.plc.pins (par ps 4) } }

/-! ## Policies, heat and time (R537 to R557) -/

/-- SET_PLACEMENT_POLICY (R539 to R541). -/
def execSetPlacementPolicy (p k : Nat) (s : State) : Result :=
  run s fun s => s.adminRun p k 0x0073 anySel anyAuth fun s _ ps =>
    let n := par ps 0
    if !s.member n s.me || decide (12 < par ps 3) || par ps 5 == 0 || decide (s.reserveOf n + s.freeFrames < par ps 4) then
      .fail 0x80 s
    else
      let x : Policy := ⟨par ps 1 == 1, par ps 2 == 1, par ps 3, par ps 5, par ps 4⟩
      .ok [] { s with plc := { s.plc with policies := SMap.put s.plc.policies n x } }

/-- PLC_COMMIT (R562). -/
def execPlcCommit (fn : Nat) (s : State) : Result :=
  run s fun s => s.commit fn .PLC_COMMIT
    (fun s => s.regF .PLC_HEAT_CFG 31 16 != 0 && s.regF .PLC_HEAT_CFG 15 0 != 0 && s.regF .PLC_MOVE_CFG 31 24 != 0 &&
      s.regF .PLC_MOVE_CFG 15 8 != 0 && decide (s.regF .PLC_MOVE_CFG 15 8 ≤ 16) && s.regF .PLC_FORWARD_CFG 15 0 != 0)
    (fun s => s.setFlag .PLC_ERR 0) [.PLC_HEAT_CFG, .PLC_MOVE_CFG, .PLC_FORWARD_CFG]

/-- HEAT_DECAY (R537, R541, R555): a period of DECAY_US ends. -/
def execHeatDecay (s : State) : Result := run s State.decay

/-- FORWARDING_ENTRY_EXPIRY (R543): a forwarding entry has lived for HOLD_MS. -/
def execForwardingEntryExpiry (home page : Nat) (s : State) : Result :=
  run s fun s => { s with plc := { s.plc with forward := SMap.del s.plc.forward (pageKey home page) } }

/-- PIN_WAIT_RETRY (R557): a page of this home that waits for its pin is tried again. -/
def execPinWaitRetry (page : Nat) (s : State) : Result := run s fun s => s.pinMove page true

/-- PROGRAM_EXCLUSION_EXPIRY (R554): the hold-off of an excluded module ends. -/
def execProgramExclusionExpiry (program m : Nat) (s : State) : Result :=
  run s fun s => { s with plc := { s.plc with absent := s.plc.absent.filter (· != (program, m)) } }

end Sys2Proof.Machine
end

