-- ==== Sys2Proof/Machine/QpCmds.lean ====
section
/-!
DEFINITION. The commands on queue pairs and their context store (R247 to R255, R274, R279, R285), and SNUFF_QUEUE (R183).
-/

namespace Sys2Proof.Machine

/-! ## SNUFF_QUEUE (R183) -/

/-- SNUFF_QUEUE (R183): it replies when the snuff's records are written; one that meets a snuff in progress waits with it. -/
def execSnuffQueue (p k : Nat) (s : State) : Result :=
  run s fun s => s.adminRun p k 0x0017 anySel (wqAuth p) fun s c ps =>
    if c.stage = 1 then .wait c s
    else match s.wq (par ps 1) with
      | none => s.noQueue (par ps 0)
      | some w =>
        if w.inst ≠ par ps 0 then s.noQueue (par ps 0)
        else
          let n := par ps 1
          let s := if w.state = .snuffing then s else s.snuff n stAborted dSnuff
          match s.wq n with
          | some w =>
            if w.state = .snuffing then .wait { c with stage := 1 } (s.setWq n { w with snuffers := w.snuffers ++ [(p, k)] })
            else .ok [(8, w.gen), (24, w.snuffed.1), (24, w.snuffed.2)] s
          | none => s.noQueue (par ps 0)

/-! ## Queue pairs (R247 to R255) -/

/-- The slots of a port's context store; 0 while its base or its size is not set (R274, R295). -/
def State.qpSlots (s : State) (port : Nat) : Nat :=
  let l := fld (s.regOf (port * 128) .QPE_QPC_SIZE) 4 0
  if l = 0 ∨ !SMap.has s.regs.shadow (regKey (port * 128 + 1) .QPE_QPC_BASE) then 0 else 2 ^ l

/-- Whether a key slot holds a key of an instance (R226, R666). -/
def State.keyOf (s : State) (slot inst : Nat) : Bool := ((SMap.find s.sec.keys slot).map (·.inst)) == some inst

/-- The authority of a command that names an instance, a work queue, a completion queue and, in the forerunner form, a key slot (R210). -/
def bindAuth (p : Nat) (s : State) (ps : List Nat) : Bool :=
  reach p (par ps 0) && reach p (((s.wq (par ps 1)).map (·.inst)).getD (par ps 0)) &&
    reach p (((s.cq (par ps 2)).map (·.inst)).getD (par ps 0)) &&
    (par ps 3 != 1 || reach p (((SMap.find s.sec.keys (par ps 6)).map (·.inst)).getD (par ps 0)))

/-- The body of CREATE_QP (R226, R248, R249, R656, R660). It waits while no context may leave a full cache (R276). -/
def State.createQp (s : State) (c : Cmd) (n wq cq form tc partition slot : Nat) : AdmRes :=
  match s.inst n with
  | none => .field s
  | some i =>
    let port := portOf n
    let badWq : Bool := wq != 0xFFFF && match s.wq wq with
      | some w => w.inst != n || w.qp.isSome
      | none => true
    let badCq : Bool := match s.cq cq with
      | some c => c.inst != n || c.state == .error
      | none => true
    if !s.member partition s.me then .field s
    else if badWq || badCq then .fail 0x80 s
    else if form = 1 ∧ (!s.hasCap capCipher || !s.keyOf slot n) then .fail 0x81 s
    else if !s.hasRoom n (s.qpSlots port - 1) (·.qpQuota) (fun i => countIn s.qpe.qps fun q => q.inst == i)
        (fun i => portOf i == port) then .fail stResource s
    else match SMap.freeFrom s.qpe.qps (s.qpSlots port - 1) (port * 2 ^ 22 + 1) with
      | none => .fail stResource s
      | some qpn =>
        match s.evictCtx with
        | none => .wait c s
        | some s =>
        let q : Qp := { (default : Qp) with
          inst := n, instGen := i.gen, wq := if wq = 0xFFFF then none else some wq, cq, forerunner := form == 1, tc, partition,
          keySlot := if form = 1 then slot else 0, sendSegment := 1, engine := if form = 1 then s.pickEngine else none,
          cached := true, dirty := true }
        let s := (s.setQp qpn q).touchCtx qpn
        let s := match q.engine with
          | some e => s.wakeDom (domCipher (e / 8))
          | none => s
        .ok [(24, qpn)] (if wq = 0xFFFF then s else s.updWq wq fun w => { w with qp := some qpn })

/-- CREATE_QP (R249). -/
def execCreateQp (p k : Nat) (s : State) : Result :=
  run s fun s => s.adminRun p k 0x0020 anySel (bindAuth p) fun s c ps =>
    s.createQp c (par ps 0) (par ps 1) (par ps 2) (par ps 3) (par ps 4) (par ps 5) (par ps 6)

/-- The authority of a command that names a queue pair (R210, R248). -/
def qpAuth (p : Nat) (s : State) (ps : List Nat) : Bool :=
  match s.qp (par ps 0) with
  | some q => reach p q.inst
  | none => p == 0 || par ps 0 / 2 ^ 22 == p

/-- The connection fields of a MODIFY_QP. What was begun with the former peer is not gone on with. -/
def Qp.connect (q : Qp) (module qpn send expect : Nat) : Qp :=
  { q with
    remoteModule := module, remoteQpn := qpn, sendPsn := send, dirty := true
    rx := { q.rx with expect, segment := [], accepting := none, parts := [], replay := none } }

/-- A queue pair cleared of its transport state and its held operations (R251). Operations held in its work queue complete ABORTED
(log 32), and the segment numbers begin at 1 again (R329; log 99). -/
def State.clearQp (s : State) (n : Nat) (q : Qp) : State :=
  let s := s.setQp n { q with rx := default, sendSegment := 1, recvSegment := 0, conf := 0, lastAck := 0, dirty := true, failed := false }
  match q.wq.bind s.wq with
  | some w => w.ops.foldl (fun (s : State) o => if o.phase = .ready then s.opFail (q.wq.getD 0) o.id stAborted 0 else s) s
  | none => s

/-- The body of MODIFY_QP (R247, R251). It waits for a context that is not in the cache (R276; log 79). -/
def State.modifyQp (s : State) (c : Cmd) (n target module qpn send expect : Nat) : AdmRes :=
  if 2 < target then .field s
  else
    match s.qp n with
    | none => .fail 0x80 s
    | some q =>
      if !q.cached then .wait c (s.fillCtx n q false).2 else
      let ok (q : Qp) (s : State) : AdmRes := .ok [(8, q.state)] (s.setQp n q)
      match q.state, target with
      | 0, 0 => ok (q.connect module qpn send expect) s
      | 0, 1 =>
        if qpn = 0 ∧ (module ≠ 0 ∨ send ≠ 0 ∨ expect ≠ 0 ∨ q.forerunner) then .fail 0x81 s
        else ok { q.connect module qpn send expect with state := 1, joined := qpn != 0 } s
      | 1, 0 => if s.qpTxns n ≠ [] then .fail 0x81 s else ok { q with state := 0, joined := false, dirty := true } s
      | 2, 0 =>
        let s := s.clearQp n { q.connect module qpn send expect with state := 0, joined := false }
        .ok [(8, 0)] (s.setQp n { (s.qp n).getD q with rx := { (default : RStream) with expect } })
      | 0, 2 => .ok [(8, 2)] (s.qpError n stAborted stAborted)
      | 1, 2 => .ok [(8, 2)] (s.qpError n stAborted stAborted)
      | _, _ => .fail 0x81 s

/-- MODIFY_QP (R251). -/
def execModifyQp (p k : Nat) (s : State) : Result :=
  run s fun s => s.adminRun p k 0x0021 anySel (qpAuth p) fun s c ps =>
    s.modifyQp c (par ps 0) (par ps 1) (par ps 2) (par ps 3) (par ps 4) (par ps 5)

/-- QUERY_QP (R226). -/
def execQueryQp (p k : Nat) (s : State) : Result :=
  run s fun s => s.adminRun p k 0x0022 anySel (qpAuth p) fun s _ ps =>
    match s.qp (par ps 0) with
    | none => .fail 0x80 s
    | some q => .ok [(8, q.state), (24, q.sendPsn), (24, q.rx.expect), (24, q.remoteQpn)] s

/-- DESTROY_QP (R255). -/
def execDestroyQp (p k : Nat) (s : State) : Result :=
  run s fun s => s.adminRun p k 0x0023 anySel (qpAuth p) fun s _ ps =>
    match s.qp (par ps 0) with
    | none => .fail 0x80 s
    | some q =>
      if q.state = 1 ∨ s.qpTxns (par ps 0) ≠ [] then .fail 0x81 s
      else
        let s := match q.wq with
          | some w => s.updWq w fun x => { x with qp := none }
          | none => s
        .ok [] (s.removeQp (par ps 0))

/-! ## The context store and the commit (R279, R285) -/

/-- QPC_STORE_WRITE (R279): a physical function writes its copy of `QPE_QPC_BASE` (`size` false) or `QPE_QPC_SIZE`. -/
def execQpcStoreWrite (fn : Nat) (size : Bool) (value : Nat) (s : State) : Result :=
  mmio s fun s =>
    let r := if size then Reg.QPE_QPC_SIZE else .QPE_QPC_BASE
    if !isPf fn then s.accessLog akUnbacked 0 fn 8 r.addr
    else
      let l := value % 32
      if s.qpe.qps.any (fun e => e.1 / 2 ^ 22 == portOf fn) || (size && l != 0 && (decide (l < 10) || decide (22 < l))) then
        s.setFlag .QPE_ERR 1
      else if size then s.setRegOf fn r (BitVec.ofNat 64 l)
      else s.setRegOf fn r (BitVec.ofNat 64 (value / 4096 * 4096))

/-- QPE_COMMIT (R285): COMMIT takes `QPE_SB_CFG` and `QPE_CACHE_CFG` into use, unless a value lies outside its range. -/
def execQpeCommit (fn : Nat) (s : State) : Result :=
  run s fun s => s.commit fn .QPE_COMMIT
    (fun s => decide (s.regF .QPE_SB_CFG 14 0 ≤ 16384) && decide (1 ≤ s.regF .QPE_SB_CFG 27 16) &&
      decide (64 ≤ s.regF .QPE_CACHE_CFG 15 0) && decide (s.regF .QPE_CACHE_CFG 15 0 ≤ 16384))
    (fun s => s.setFlag .QPE_ERR 0) [.QPE_SB_CFG, .QPE_CACHE_CFG]

end Sys2Proof.Machine
end

