-- ==== Sys2Proof/Machine/InstRows.lean ====
section
/-!
DEFINITION. The commands of the instances: creation and removal, shares, hold and restore (R688 to R714).
-/

namespace Sys2Proof.Machine

/-! ## CREATE_INSTANCE (R692 to R694, R702, R703) -/

/-- What the instances of a scope take of a pool: their allotments, and what the physical functions use. -/
def State.poolTaken (s : State) (quota : Inst → Nat) (used : Nat → Nat) (scope : Nat → Bool) : Nat :=
  sumList (s.vrt.insts.map fun e => if !scope e.1 then 0 else if isPf e.1 then used e.1 else quota e.2)

/-- Whether a doorbell page is granted to no instance and holds no work queue (R692). -/
def State.pageFree (s : State) (g : Nat) : Bool := s.vrt.insts.all (fun e => !e.2.dbPages.contains g) && s.q.wqs.all fun e => e.1 / 512 != g

/-- The frames that the instances of a port hold (R710). -/
def State.portFrames (s : State) (p : Nat) : Nat :=
  (s.hbm.frames.filter fun f => match f.2 with | .inst n => portOf n == p | .pf n => portOf n == p | _ => false).length

/-- The indices of destroyed instances whose revocations still run: they are not back in the pool (R704). -/
def State.strandedSkies (s : State) : Nat :=
  (s.hall.sky.filter fun e => e.2.state != .revoked && (s.inst e.2.inst).isNone).length

/-- Whether every pool and limit has room for a new instance of port `p` (R694 check 3): its frames, and the allotments QP_QUOTA,
SKYLIGHT_QUOTA, CQ_POOL, LQ_POOL, WICK_POOL and DOORBELL_PAGES. -/
def State.poolsHold (s : State) (p frames : Nat) (a : List Nat) : Bool :=
  let all (_ : Nat) : Bool := true
  let fits (i total : Nat) (quota : Inst → Nat) (used : Nat → Nat) (scope : Nat → Bool) : Bool :=
    decide (a.getD i 0 + s.poolTaken quota used scope ≤ total)
  decide (frames ≤ s.freeFrames) && s.qpSlots p != 0 &&
    fits 0 (s.qpSlots p - 1) (·.qpQuota) (fun i => countIn s.qpe.qps fun q => q.inst == i) (fun i => portOf i == p) &&
    fits 1 (2 ^ 20 - s.strandedSkies) (·.skyQuota) s.skiesOf all &&
    fits 2 65536 (·.cqPool) (fun i => countIn s.q.cqs fun q => q.inst == i) all &&
    fits 3 512 (·.lqPool) (fun i => countIn s.q.lqs fun q => q.inst == i) all &&
    fits 4 4096 (·.wickPool) (fun i => countIn s.syn.wicks fun w => w.inst == i) all &&
    decide (a.getD 5 0 ≤ ((List.range 128).filter s.pageFree).length) &&
    decide (frames + s.portFrames p ≤ s.comF (.VRT_PORT_LIMIT p) 63 32) &&
    decide (a.getD 1 0 + sumList (s.vrt.insts.map fun e => if portOf e.1 = p ∧ !isPf e.1 then e.2.skyQuota else 0) ≤
      s.comF (.VRT_PORT_LIMIT p) 20 0)

/-- The lowest address at which a range of module HBM addresses is free of the ranges of instances and of the frames of physical
functions (log 38). -/
def State.hbmPlace (s : State) (bytes : Nat) : Nat :=
  let taken := (s.vrt.insts.map fun e => (e.2.hbmBase, e.2.hbmBase + frameBytes * e.2.frames.length)) ++
    s.hbm.frames.filterMap fun f => match f.2 with
      | .pf _ => some (f.1 * frameBytes, (f.1 + 1) * frameBytes)
      | _ => none
  let free (a : Nat) : Bool := taken.all fun r => decide (r.2 ≤ a) || decide (a + bytes ≤ r.1) || r.1 == r.2
  let ends := (0 :: taken.map (·.2)).filter free
  minList (ends.headD 0) ends

/-- Take `k` frames for an instance, one at a time (R542, R693). -/
def State.takeFrames (s : State) (n : Nat) : Nat → List Nat × State
  | 0 => ([], s)
  | k + 1 =>
    match s.takeFrame (.inst n) with
    | none => ([], s)
    | some r => let t := r.2.takeFrames n k; (r.1 :: t.1, t.2)

/-- CREATE_INSTANCE (R694, R703). A generation in quarantine makes it wait (R702). -/
def execCreateInstance (p k : Nat) (s : State) : Result :=
  run s fun s => s.adminRun p k 0x00B0 anySel (fun _ ps => reach p (par ps 0 * 128 + par ps 1)) fun s c ps =>
    let port := par ps 0
    let n := port * 128 + par ps 1
    let bytes := par ps 2
    let frames := bytes / frameBytes
    let a := (List.range 6).map fun i => par ps (3 + i)
    let gen := match SMap.find s.vrt.lastGen n with
      | some g => (g + 1) % 256
      | none => 0
    if par ps 1 = 0 ∨ bytes < frameBytes ∨ bytes % frameBytes ≠ 0 ∨ (s.port port).vfEnabled < par ps 1 then .field s
    else if (s.inst n).isSome then .fail 0x80 s
    else if !s.poolsHold port frames a then .fail stResource s
    else if s.genQuarantined n gen then .wait c (s.setFlag .VRT_ERR 1)
    else
      let base := s.hbmPlace bytes
      let r := s.takeFrames n frames
      let i : Inst := { (default : Inst) with
        state := .active, gen, share := 256, hbmBase := base, frames := r.1, qpQuota := a.getD 0 0, skyQuota := a.getD 1 0,
        cqPool := a.getD 2 0, lqPool := a.getD 3 0, wickPool := a.getD 4 0,
        dbPages := ((List.range 128).filter s.pageFree).take (a.getD 5 0) }
      let s := { r.2 with vrt := { r.2.vrt with lastGen := SMap.put r.2.vrt.lastGen n gen } }
      .ok [(9, n), (8, gen)] ((s.setInst n i).giveRoot n)

/-! ## DESTROY_INSTANCE, RESET_INSTANCE and shares (R690, R695, R697 to R704) -/

/-- DESTROY_INSTANCE (R704): it replies at the end of the steps. -/
def execDestroyInstance (p k : Nat) (s : State) : Result :=
  run s fun s => s.adminRun p k 0x00B1 anySel (instAuth p 0) fun s c ps =>
    if c.stage = 1 then .wait c s
    else if (s.inst (par ps 0)).isNone then .fail 0x80 s
    else if isPf (par ps 0) then .fail 0x81 s
    else
      let c := { c with stage := 1 }
      .wait c ((s.setCmd p k c).resetInst (par ps 0) true [(p, k)])

/-- RESET_INSTANCE (R697 to R700): it replies with the new generation at the end of the steps. -/
def execResetInstance (p k : Nat) (s : State) : Result :=
  run s fun s => s.adminRun p k 0x00B2 anySel (instAuth p 0) fun s c ps =>
    if c.stage = 1 then .wait c s
    else if (s.inst (par ps 0)).isNone then .fail 0x80 s
    else if isPf (par ps 0) then .fail 0x81 s
    else
      let c := { c with stage := 1 }
      .wait c ((s.setCmd p k c).resetInst (par ps 0) false [(p, k)])

/-- GENERATION_QUARANTINE_END (R702): a reset that has waited for its generation goes on. -/
def execGenerationQuarantineEnd (inst : Nat) (s : State) : Result := run s fun s => s.resumeReset inst

/-- SET_INSTANCE_SHARE (R695). -/
def execSetInstanceShare (p k : Nat) (s : State) : Result :=
  run s fun s => s.adminRun p k 0x00B3 anySel (instAuth p 0) fun s _ ps =>
    if par ps 1 = 0 then .field s
    else if (s.inst (par ps 0)).isNone then .fail 0x80 s
    else .ok [] (s.updInst (par ps 0) fun i => { i with share := par ps 1 })

/-- VRT_COMMIT (R710). -/
def execVrtCommit (fn : Nat) (s : State) : Result :=
  run s fun s => s.commit fn .VRT_COMMIT
    (fun s => s.regF .VRT_SHARE_CFG 31 24 != 0 && decide (64 ≤ s.regF .VRT_SHARE_CFG 12 0) && decide (s.regF .VRT_SHARE_CFG 12 0 ≤ 4096) &&
      s.regF .VRT_GEN_CFG 15 0 != 0)
    (fun s => s.setFlag .VRT_ERR 0) [.VRT_SHARE_CFG, .VRT_GEN_CFG, .VRT_PORT_LIMIT 0, .VRT_PORT_LIMIT 1, .VRT_PORT_LIMIT 2, .VRT_PORT_LIMIT 3]

/-! ## Hold and restore (R705 to R708) -/

/-- VRT_HOLD_WRITE (R705, R712): a write of `VRT_INST_CTRL` for the selected instance. -/
def execVrtHoldWrite (fn value : Nat) (s : State) : Result :=
  run s fun s => s.expert fn Reg.VRT_INST_CTRL.addr 4 fun s =>
    let n := s.regF .VRT_INST_SEL 8 0
    match s.inst n with
    | none => s.expertDrop Reg.VRT_INST_CTRL.addr
    | some i => s.setInst n { i with hold := bit value 0 }

/-- Whether an instance has HOLD set. -/
def State.holds (s : State) (n : Nat) : Bool := ((s.inst n).map (·.hold)).getD false

/-- The result of a restore once its target is found (R708): its owner, whether it is fresh, whether its values are in range, and
whether its generation is free. -/
def State.restoreResult (s : State) (owner : Nat) (fresh range free : Bool) : Nat :=
  if !s.holds owner then 1 else if !fresh then 3 else if !range then 4 else if !free then 5 else 0

/-- Apply a restore of a target with values (R707, R708): the result and the state after. -/
def State.restore (s : State) (kind n first second gen : Nat) : Nat × State :=
  let quarantined := s.vrt.retiredWqGens.any fun r => r.1 == n * 256 + gen && decide (s.now < r.2 + s.comF .VRT_GEN_CFG 15 0 * 1000000)
  match kind with
  | 0 => match s.wq n with
    | none => (2, s)
    | some w =>
      let r := s.restoreResult w.inst w.fresh (decide (distance first second ≤ 2 ^ w.log2)) (!quarantined)
      (r, if r = 0 then s.setWq n { w with head := first, fetch := first, judged := first, doorbell := second, gen } else s)
  | 1 => match s.cq n with
    | none => (2, s)
    | some q =>
      let r := s.restoreResult q.inst q.fresh (decide (distance second first ≤ 2 ^ q.log2)) true
      (r, if r = 0 then s.setCq n { q with producer := first, consumer := second, armed := false, armedSol := false } else s)
  | 2 => match s.lq n with
    | none => (2, s)
    | some l =>
      let r := s.restoreResult l.inst l.fresh (decide (distance second first ≤ 2 ^ l.log2)) true
      (r, if r = 0 then s.setLq n { l with producer := first, consumer := second, armed := false } else s)
  | _ => match s.wick n with
    | none => (2, s)
    | some w =>
      let r := s.restoreResult w.inst w.fresh (decide (first ≤ w.depth)) true
      (r, if r = 0 then s.setWick n { w with count := first } else s)

/-- RESTORE_APPLY (R707, R708): a write of `VRT_RESTORE_TARGET` with APPLY 1. -/
def execRestoreApply (fn value : Nat) (s : State) : Result :=
  run s fun s => s.expert fn Reg.VRT_RESTORE_TARGET.addr 4 fun s =>
    let v (hi lo : Nat) : Nat := s.regF .VRT_RESTORE_VALUE hi lo
    let r := s.restore (bits value 29 28) (bits value 15 0) (v 23 0) (v 47 24) (v 63 56)
    let s := r.2.setReg .VRT_RESTORE_TARGET (BitVec.ofNat 64 (bits value 29 28 * 2 ^ 28 + r.1 * 2 ^ 24 + bits value 15 0))
    if r.1 = 0 then s else s.setFlag .VRT_ERR 2

end Sys2Proof.Machine
end

