-- ==== Sys2Proof/Machine/PacketRows.lean ====
section
/-!
DEFINITION. The commands of arriving packets, of the transport's timers and of the throttle (R305, R310 to R324, R369, R370,
R788).
-/

namespace Sys2Proof.Machine

/-! ## Requests (R265, R310, R314, R569) -/

/-- WRITE_REQ (R310). -/
def execWriteReq (p : Pkt) (s : State) : Result := run s fun s => s.requestRow 0x01 false p

/-- READ_REQ (R310). -/
def execReadReq (p : Pkt) (s : State) : Result := run s fun s => s.requestRow 0x02 false p

/-- ATOMIC_REQ (R265, R310). -/
def execAtomicReq (p : Pkt) (s : State) : Result := run s fun s => s.requestRow 0x04 false p

/-- TOKEN_REQ (R310, R569). -/
def execTokenReq (p : Pkt) (s : State) : Result := run s fun s => s.requestRow 0x06 false p

/-- FORWARDED_REQUEST (R314): a request of any type with FORWARDED set. -/
def execForwardedRequest (p : Pkt) (s : State) : Result := run s fun s => s.requestRow p.typ true p

/-! ## Control requests of the tree, the collectives, job domains, transit and placement (R305, R310) -/

/-- COLL_DATA (R406, R427). -/
def execCollData (p : Pkt) (s : State) : Result := run s fun s => s.requestRow 0x10 false p

/-- GROUP_SETUP (R396). -/
def execGroupSetup (p : Pkt) (s : State) : Result := run s fun s => s.requestRow 0x11 false p

/-- TREE_UP (R424, R426). -/
def execTreeUp (p : Pkt) (s : State) : Result := run s fun s => s.requestRow 0x12 false p

/-- TREE_DOWN (R424, R426). -/
def execTreeDown (p : Pkt) (s : State) : Result := run s fun s => s.requestRow 0x13 false p

/-- TRANSIT_LAUNCH (R466). -/
def execTransitLaunch (p : Pkt) (s : State) : Result := run s fun s => s.requestRow 0x20 false p

/-- TRANSIT_CANCEL (R466, R472). -/
def execTransitCancel (p : Pkt) (s : State) : Result := run s fun s => s.requestRow 0x21 false p

/-- TRANSIT_DONE (R466). -/
def execTransitDone (p : Pkt) (s : State) : Result := run s fun s => s.requestRow 0x22 false p

/-- PLACE_PROPOSE (R538). -/
def execPlacePropose (p : Pkt) (s : State) : Result := run s fun s => s.requestRow 0x28 false p

/-- MOVE_START (R543, R558). -/
def execMoveStart (p : Pkt) (s : State) : Result := run s fun s => s.requestRow 0x29 false p

/-- MOVE_COPY (R543). -/
def execMoveCopy (p : Pkt) (s : State) : Result := run s fun s => s.requestRow 0x2A false p

/-- MOVE_DONE (R543). -/
def execMoveDone (p : Pkt) (s : State) : Result := run s fun s => s.requestRow 0x2B false p

/-- MOVE_END (R543). -/
def execMoveEnd (p : Pkt) (s : State) : Result := run s fun s => s.requestRow 0x2C false p

/-- THATCH_HINT (R534). -/
def execThatchHint (p : Pkt) (s : State) : Result := run s fun s => s.requestRow 0x2D false p

/-- COLLAPSE_NOTE (R547). -/
def execCollapseNote (p : Pkt) (s : State) : Result := run s fun s => s.requestRow 0x2E false p

/-- COLLAPSE_DONE (R548). -/
def execCollapseDone (p : Pkt) (s : State) : Result := run s fun s => s.requestRow 0x2F false p

/-- DOMAIN_SETUP (R789). -/
def execDomainSetup (p : Pkt) (s : State) : Result := run s fun s => s.requestRow 0x30 false p

/-- DOMAIN_READY (R789). -/
def execDomainReady (p : Pkt) (s : State) : Result := run s fun s => s.requestRow 0x31 false p

/-! ## Responses and unsequenced packets (R317, R322 to R324, R369) -/

/-- ACK (R317). -/
def execAck (p : Pkt) (s : State) : Result :=
  run s fun s => if p.typ ≠ 0x07 then s else s.arrive p fun s => s.ackIn p

/-- READ_RESP (R317): its data lands and it resolves the entry that its TXN names. -/
def execReadResp (p : Pkt) (s : State) : Result :=
  run s fun s => if p.typ ≠ 0x03 then s else s.arrive p fun s => s.dataResponse p 0x02

/-- ATOMIC_RESP (R317). -/
def execAtomicResp (p : Pkt) (s : State) : Result :=
  run s fun s => if p.typ ≠ 0x05 then s else s.arrive p fun s => s.dataResponse p 0x04

/-- EPOCH_PROBE (R322, R323): it is answered with EPOCH_NOTICE. -/
def execEpochProbe (p : Pkt) (s : State) : Result :=
  run s fun s => if p.typ ≠ 0x08 then s else s.arrive p fun s => s.epochNotice p.src

/-- EPOCH_NOTICE (R323, R324): an epoch that is not newer changes nothing. -/
def execEpochNotice (p : Pkt) (s : State) : Result :=
  run s fun s => if p.typ ≠ 0x09 then s else
    let s := s.ejected p
    if p.version ≠ 0x10 then s.gutter gVersion else s.takeEpoch p.src p.srcEpoch

/-- CONGESTION (R369): a mark for the flow that its payload names. -/
def execCongestion (p : Pkt) (s : State) : Result :=
  run s fun s => if p.typ ≠ 0x0A then s else s.arrive p fun s =>
    s.markFlow (beNat (slice p.payload 5 3) % 2 ^ 17) (beNat (slice p.payload 4 1) % 8)

/-- UNKNOWN_TYPE_PACKET (R305). -/
def execUnknownTypePacket (p : Pkt) (s : State) : Result :=
  run s fun s => if typeKnown p.typ then s else s.arrive p fun s => s

/-! ## Timers (R315, R318, R319, R322, R788) -/

/-- RETRANSMIT_TIMEOUT (R318, R612): the timer of an entry that may still be retransmitted, which runs once its first frame has left. -/
def execRetransmitTimeout (k : Nat) (s : State) : Result :=
  run s fun s =>
    match SMap.find s.qpe.txns k with
    | none => s
    | some t => if t.accepted ∨ s.firstWaits k t ∨ s.regF .QPE_XPT_TIMER 27 24 ≤ t.attempts then s else s.retransmit k

/-- RETRY_LIMIT_TIMEOUT (R319, R612): the timer of an entry that has been retransmitted RETRY_LIMIT times. -/
def execRetryLimitTimeout (k : Nat) (s : State) : Result :=
  run s fun s =>
    match SMap.find s.qpe.txns k with
    | none => s
    | some t => if t.accepted ∨ s.firstWaits k t ∨ t.attempts < s.regF .QPE_XPT_TIMER 27 24 then s else s.txnTimeout k

/-- ACK_DELAY_EXPIRY (R315): the answer that a stream owes is sent. `conn` is 1 for the stream of connected queue pair `key`, and 0
for the stream of key 8 × source + class. -/
def execAckDelayExpiry (conn key : Nat) (s : State) : Result :=
  run s fun s =>
    let i := if conn = 1 then StreamId.qp key else StreamId.module key
    if (s.rstream i).unanswered = 0 then s else s.sendAck i

/-- The messages that wait for the epoch of a module complete TIMEOUT (R263, R322), which may raise a job fault (R335, R340). -/
def State.probeLost (s : State) (m : Nat) : State :=
  let s := { s with qpe := { s.qpe with probes := SMap.del s.qpe.probes m } }
  let waits := s.qpe.control.filter fun c => c.2.dst == m
  let ends : List Resolved := waits.map fun c => ⟨c.1, m, stTimeout, 0, false, []⟩
  let s := { s with qpe := { s.qpe with
    control := s.qpe.control.filter fun c => c.2.dst != m, resolved := s.qpe.resolved ++ ends
    forwards := s.qpe.forwards.filter fun p => p.dst != m } }
  let s := waits.foldl (fun (s : State) c => s.timeoutFault c.2.partition m) s
  s.q.wqs.foldl (fun (s : State) w => w.2.ops.foldl (fun (s : State) o =>
    match w.2.qp with
    | none => s
    | some qpn =>
      if dOp o.desc = 0x20 ∧ o.phase = .ready ∧ ((s.wq w.1).map fun w => (w.ops.takeWhile fun x => x.id != o.id).all Op.passed) = some true then
        match s.program (leAt o.desc 8 2), s.qp qpn with
        | some pr, some q =>
          if s.executor (leAt o.desc 8 2) q.partition (leAt o.desc 11 1) pr.image
              (operandsOf (dOperands o.desc) (leAt o.desc 10 1)) = some m then
            (s.timeoutFault q.partition m).opFail w.1 o.id stTimeout 0
          else s
        | _, _ => s
      else if o.phase ≠ .active then s else
        (List.range o.msgs.length).foldl (fun (s : State) k =>
          match o.msgs[k]? with
          | none => s
          | some x =>
            let noted := dOp o.desc = 3 ∧ dWickModule o.desc = m
            if x.state = .waiting ∧ (noted ∨ s.msgTarget qpn o x = some m) then
              (s.timeoutFault (((s.qp qpn).map (·.partition)).getD 0) m).msgEnd w.1 o.id k stTimeout 0 false
            else s) s) s) s

/-- EPOCH_PROBE_TIMEOUT (R318, R322): a probe is repeated, or after RETRY_LIMIT repeats what waits for the module ends. -/
def execEpochProbeTimeout (m : Nat) (s : State) : Result :=
  run s fun s =>
    match SMap.find s.qpe.probes m with
    | none => s
    | some n =>
      if s.regF .QPE_XPT_TIMER 27 24 ≤ n then s.probeLost m
      else
        let s := { s with qpe := { s.qpe with probes := SMap.put s.qpe.probes m (n + 1) } }
        s.inject { s.blank 0x08 m 0 with dstEpoch := 0 }

/-- EPOCH_TABLE_AGING (R788): the entry of a module that nothing has refreshed for 60 s returns to 0. -/
def execEpochTableAging (m : Nat) (s : State) : Result :=
  run s fun s => { s with qpe := { s.qpe with peers := SMap.del s.qpe.peers m } }

/-! ## The throttle (R369, R370) -/

/-- THROTTLE_TICK (R369, R370): one microsecond of every entry's rate law; entries that have recovered are freed. -/
def execThrottleTick (s : State) : Result :=
  run s fun s =>
    let now := s.hallTime
    let period := s.comF .RTR_THROTTLE_CFG1 31 16
    let tick (t : Throttle) : Throttle := (t.fill s.now s.capShare).tick now period (s.comF .RTR_THROTTLE_CFG0 31 28)
      (s.comF .RTR_THROTTLE_CFG2 31 16) (s.comF .RTR_THROTTLE_CFG0 27 24) (s.comF .RTR_THROTTLE_CFG2 15 0)
    let free (t : Throttle) : Bool := t.rate == maxRate && t.target == maxRate && decide (4 * period * 1000 ≤ since64 now t.lastMark)
    { s with rtr := { s.rtr with throttle := SMap.keep (SMap.mapv s.rtr.throttle fun _ t => tick t) fun _ t => !free t } }

end Sys2Proof.Machine
end

