-- ==== Sys2Proof/Machine/QueueRows.lean ====
section
/-!
DEFINITION. The commands that create, destroy, stop and resume queues, and the doorbell and consumer writes of tenants (R158 to R164,
R169, R170, R173, R174, R176 to R186).
-/

namespace Sys2Proof.Machine

/-! ## Creation (R177, R178) -/

/-- CREATE_WORK_QUEUE (R177). -/
def execCreateWorkQueue (p k : Nat) (s : State) : Result :=
  run s fun s => s.adminRun p k 0x0010 anySel (fun s ps => reach p (par ps 0) && reach p (((s.cq (par ps 3)).map (·.inst)).getD (par ps 0))) fun s _ ps => s.createWq (par ps 0) (par ps 1) (par ps 2) (par ps 3)

/-- CREATE_COMPLETION_QUEUE (R177). -/
def execCreateCompletionQueue (p k : Nat) (s : State) : Result :=
  run s fun s => s.adminRun p k 0x0012 anySel (fun s ps => reach p (par ps 0) && reach p (((s.lq (par ps 3)).map (·.inst)).getD (par ps 0))) fun s _ ps => s.createCq (par ps 0) (par ps 1) (par ps 2) (par ps 3)

/-- CREATE_EVENT_QUEUE (R177). -/
def execCreateEventQueue (p k : Nat) (s : State) : Result :=
  run s fun s => s.adminRun p k 0x0014 anySel (instAuth p 0) fun s _ ps =>
    s.createLq (par ps 0) (par ps 1) (par ps 2) (par ps 3) (par ps 4)

/-! ## Destruction (R178, R179) -/

/-- DESTROY_WORK_QUEUE (R178, R179). -/
def execDestroyWorkQueue (p k : Nat) (s : State) : Result :=
  run s fun s => s.adminRun p k 0x0011 anySel
    (fun s ps => reach p (((s.wq (par ps 1)).map (·.inst)).getD (par ps 0)) && reach p (par ps 0)) fun s _ ps =>
      match s.wq (par ps 1) with
      | none => s.noQueue (par ps 0)
      | some w =>
        if w.inst ≠ par ps 0 then s.noQueue (par ps 0)
        else if w.state ≠ .idle then .fail 0x83 s
        else .ok [] (s.removeWq (par ps 1))

/-- DESTROY_COMPLETION_QUEUE (R178, R179). -/
def execDestroyCompletionQueue (p k : Nat) (s : State) : Result :=
  run s fun s => s.adminRun p k 0x0013 anySel
    (fun s ps => reach p (((s.cq (par ps 1)).map (·.inst)).getD (par ps 0)) && reach p (par ps 0)) fun s _ ps =>
      match s.cq (par ps 1) with
      | none => s.noQueue (par ps 0)
      | some q =>
        if q.inst ≠ par ps 0 then s.noQueue (par ps 0)
        else if s.q.wqs.any fun e => e.2.cq == par ps 1 then .fail 0x84 s
        else .ok [] (s.removeCq (par ps 1))

/-- DESTROY_EVENT_QUEUE (R178, R179). -/
def execDestroyEventQueue (p k : Nat) (s : State) : Result :=
  run s fun s => s.adminRun p k 0x0015 anySel
    (fun s ps => reach p (((s.lq (par ps 1)).map (·.inst)).getD (par ps 0)) && reach p (par ps 0)) fun s _ ps =>
      match s.lq (par ps 1) with
      | none => s.noQueue (par ps 0)
      | some l =>
        if l.inst ≠ par ps 0 then s.noQueue (par ps 0)
        else if s.q.cqs.any fun e => e.2.lantern == par ps 1 then .fail 0x84 s
        else .ok [] (s.removeLq (par ps 1))

/-! ## Quiesce and resume (R181, R182, R186) -/

/-- QUIESCE (R181): the queue drains, and the command replies when it is IDLE. -/
def execQuiesce (p k : Nat) (s : State) : Result :=
  run s fun s => s.adminRun p k 0x0016 (fun ps => par ps 2 != 1) (wqAuth p) fun s c ps =>
    if c.stage = 1 then .wait c s
    else if par ps 2 ≠ 0 then .field s
    else
      let n := par ps 1
      match s.wq n with
      | none => s.noQueue (par ps 0)
      | some w =>
        if w.inst ≠ par ps 0 then s.noQueue (par ps 0) else
          let s := s.quiesceWq n
          match s.wq n with
          | some w =>
            if w.state = .idle then .ok []  s
            else .wait { c with stage := 1 } (s.setWq n { w with quiesce := w.quiesce ++ [(p, k)] })
          | none => s.noQueue (par ps 0)

/-- RESUME (R181): an IDLE queue returns to ENABLED. -/
def execResume (p k : Nat) (s : State) : Result :=
  run s fun s => s.adminRun p k 0x0016 (fun ps => par ps 2 == 1) (wqAuth p) fun s _ ps =>
    match s.wq (par ps 1) with
    | none => s.noQueue (par ps 0)
    | some w =>
      if w.inst ≠ par ps 0 then s.noQueue (par ps 0)
      else if w.state ≠ .idle then .fail 0x83 s
      else .ok [] (s.resumeWq (par ps 1))

/-- QUIESCE_WAIT_LIMIT (R181): the wait of a QUIESCE expires; the queue stays as it is. -/
def execQuiesceWaitLimit (p k : Nat) (s : State) : Result :=
  run s fun s =>
    match SMap.find (s.adm1 p).cmds k with
    | none => s
    | some c =>
      if opcodeOf c.pkt ≠ 0x0016 ∨ c.stage ≠ 1 ∨ par c.params 3 = 0 ∨ !s.cpRuns then s else
        let n := par c.params 1
        let s := s.updWq n fun w => { w with quiesce := w.quiesce.filter (· != (p, k)) }
        (s.reply p k 0x85 0 []).admStopped p

/-- The offset of a write of `size` bytes that holds ENABLE, bit 62 of `QPE_WQ_STATE`: the register's, or its high dword's (R189, R723). -/
def wqStateAt (n size : Nat) : Nat := (Reg.QPE_WQ_STATE n).addr + (8 - size)

/-- WQ_ENABLE_CLEAR (R186): a QUIESCE with no wait limit and no reply. `write` is the work queue with the bytes written. -/
def execWqEnableClear (fn : Nat) (write : Nat × Nat) (s : State) : Result :=
  run s fun s => s.expert fn (wqStateAt write.1 write.2) write.2 fun s => s.quiesceWq write.1

/-- WQ_ENABLE_SET (R186): a RESUME in IDLE, a dropped expert write in DRAINING, ERROR and SNUFFING. `write` is the work queue with the bytes
written. -/
def execWqEnableSet (fn : Nat) (write : Nat × Nat) (s : State) : Result :=
  let n := write.1
  run s fun s => s.expert fn (wqStateAt n write.2) write.2 fun s =>
    match s.wq n with
    | none => s
    | some w =>
      if w.state = .idle then s.resumeWq n
      else if w.state = .enabled then s else s.expertDrop (wqStateAt n write.2)

/-! ## Doorbells and consumers (R158 to R164, R169, R170, R173, R174, R195) -/

/-- WQ_DOORBELL (R158 to R161, R722): a 64-bit doorbell write of a function. -/
def execWqDoorbell (fn n value : Nat) (s : State) : Result :=
  mmio s fun s => s.doorbell fn n value

/-- DOORBELL_HIGH_DWORD_WRITE (R159, R725): a write to some bytes of a work queue's doorbell, those set in the second number of `bell`, which has no
effect. One of the high dword is dropped and counted, one within a dword is logged as NARROW_WRITE, and any other as MISALIGNED. WQ_DOORBELL
is the write of the low dword or of the whole doorbell. -/
def execDoorbellHighDwordWrite (fn : Nat) (bell : Nat × Nat) (s : State) : Result :=
  mmio s fun s =>
    let n := bell.1
    let lanes := bell.2
    if lanes = 240 then s.bellDropped 1
    else s.accessLog (if lanes < 16 ∨ lanes % 16 = 0 then akNarrow else akMisaligned) 2 fn (popcount 8 lanes)
      (8 * n + if lanes % 16 = 0 then 4 else 0)

/-- CQ_CONSUMER_UPDATE (R169): a doorbell write with CQ_UPDATE set. -/
def execCqConsumerUpdate (fn n value : Nat) (s : State) : Result :=
  mmio s fun s => s.doorbell fn n (setBits value 32 32 1)

/-- CQ_ARM (R170): a doorbell write that arms for any record. -/
def execCqArm (fn n value : Nat) (s : State) : Result :=
  mmio s fun s => s.doorbell fn n (setBits value 33 33 1)

/-- CQ_ARM_SOLICITED (R170): a doorbell write that arms for solicited records. -/
def execCqArmSolicited (fn n value : Nat) (s : State) : Result :=
  mmio s fun s => s.doorbell fn n (setBits (setBits value 33 33 0) 34 34 1)

/-- CQ_FULL_WAIT_EXPIRY (R169): a full queue's hold reaches WAIT_US, and the queue enters ERROR. -/
def execCqFullWaitExpiry (c : Nat) (s : State) : Result :=
  run s fun s =>
    match s.cq c with
    | some q => if q.state = .fullWait then s.cqFail c qrCqOverflow else s
    | none => s

/-- LQ_CONSUMER_WRITE (R173, R174): the consumer index moves, and held events are written. -/
def execLqConsumerWrite (fn n index : Nat) (s : State) : Result :=
  mmio s fun s => s.ownLq fn n fun l s =>
    let i := index % ringMod
    if distance l.consumer i ≤ distance l.consumer l.producer then
      State.lqDrain n (l.held.length + 1) (s.setLq n { l with consumer := i })
    else s.setFlag .QPE_QUEUE_ERR 3

/-- LQ_ARM (R173): the queue is armed, and its message is sent at once when records lie beyond the consumer. -/
def execLqArm (fn n : Nat) (s : State) : Result :=
  mmio s fun s => s.ownLq fn n fun l s =>
    let l := { l with armed := true }
    if l.consumer = l.producer then s.setLq n l else s.lqSignal n l

/-- LQ_LOST_CLEAR (R174): the owner writes 1 to LOST. -/
def execLqLostClear (fn n : Nat) (s : State) : Result :=
  mmio s fun s => s.ownLq fn n fun l s => s.setLq n { l with lost := false }

/-- DESCRIPTOR_FETCH (R162, R164): one fetch read of the work queue whose turn it is; of another there is none (log 80). -/
def execDescriptorFetch (n : Nat) (s : State) : Result :=
  run s fun s => if s.fetchTurn n then State.fetchWq { s with q := { s.q with turn := n } } n else s

/-- DESCRIPTOR_ARRIVAL (R163, R187): the next descriptor of the prefetch buffer is judged. -/
def execDescriptorArrival (n : Nat) (s : State) : Result :=
  run s fun s => (s.judge n).drained n

end Sys2Proof.Machine
end

