-- ==== Sys2Proof/Machine/SchedRows.lean ====
section
/-!
DEFINITION. The commands of the scheduler, of hall time and of the router (R377, R391, R595 to R620).
-/

namespace Sys2Proof.Machine

/-! ## The passing of time (R37) -/

/-- The outcome of a nanosecond (R37): what waits for a token bucket is tried again (R371). -/
def passTime (s : State) : Result := runAlways s State.clock

/-! ## Gate lists (R608 to R613) -/

/-- The entries of a list as it lies in memory (R608). -/
def gateEntries (b : Bytes) (n : Nat) : List GateEntry :=
  (List.range n).map fun i => ⟨leAt b (8 * i) 4, leAt b (8 * i + 4) 1, bit (leAt b (8 * i + 5) 1) 0⟩

/-- SET_GATE_LIST's own part once its list has been read (R609, R611). -/
def State.loadGates (s : State) (g n base : Nat) (b : Bytes) : AdmRes :=
  let es := gateEntries b n
  let s := s.gateSwitch g
  if (List.range n).any fun i => leAt b (8 * i + 7) 1 != 0x10 then .reply stVersion 0 [] s
  else if (es.any fun e => decide (e.interval < 32) || decide (1000000000 < e.interval)) ∨ 4294967295 < cycleOf es then .fail 0x80 s
  else if base < s.hallTime + 10000 then .fail 0x81 s
  else .ok [] (s.setGates g { s.gates g with pending := some ⟨es, base, false⟩ })

/-- SET_GATE_LIST (R608, R609, R611). -/
def execSetGateList (p k : Nat) (s : State) : Result :=
  run s fun s => s.adminRun p k 0x0090 anySel anyAuth fun s c ps =>
    let n := par ps 1
    if 7 < par ps 0 then .field s
    else if n = 0 ∨ 1024 < n then .fail 0x80 s
    else match s.admRead p k c (par ps 2) (8 * n) with
      | (none, c, s) => .wait c s
      | (some none, _, s) => .fail 0x82 s
      | (some (some b), _, s) => s.loadGates (par ps 0) n (par ps 3) b

/-- GATE_SWITCH (R610, R613): the switch time of a group's pending list has come. -/
def execGateSwitch (group : Nat) (s : State) : Result := run s fun s => s.gateSwitch group

/-! ## Classes (R614 to R619) -/

/-- SET_CLASS_QUANTA (R616). -/
def execSetClassQuanta (p k : Nat) (s : State) : Result :=
  run s fun s => s.adminRun p k 0x0091 anySel anyAuth fun s _ ps =>
    let g := par ps 0
    let qs := (List.range 8).map fun c => par ps (c + 1)
    if 7 < g ∧ g ≠ 0xFF then .field s
    else if qs.any fun q => decide (q < 64) || decide (1048576 < q) then .fail 0x80 s
    else
      let set (s : State) (g c : Nat) : State :=
        let r := Reg.SCH_CLASS_CFG g c
        (s.setReg r (setFld (s.reg r) 20 0 (qs.getD c 64))).setCom r (setFld (s.com r) 20 0 (qs.getD c 64))
      let gs := if g = 0xFF then List.range 8 else [g]
      .ok [] (gs.foldl (fun (s : State) g => (List.range 8).foldl (fun (s : State) c => set s g c) s) s)

/-- FRAME_START (R366, R614, R615): a link of a group can start a frame. -/
def execFrameStart (group link : Nat) (s : State) : Result := run s fun s => s.frameStart group link

/-- TX_UNDERRUN (R636, R637): the transmit buffer of a link runs empty within the frame that it would send next. -/
def execTxUnderrun (group link : Nat) (s : State) : Result := run s fun s => s.underrun group link

/-- QUEUE_SAMPLE_PERIOD (R619). -/
def execQueueSamplePeriod (s : State) : Result := run s fun s => s.samplePeriod

/-- Whether the shadow of a class is consistent (R620). -/
def State.classOk (s : State) (g c : Nat) : Bool :=
  let f := s.regF (.SCH_CLASS_CFG g c)
  decide (64 ≤ f 20 0) && decide (f 20 0 ≤ 1048576) && decide (f 47 38 ≤ 800) && decide (f 63 54 ≤ 800)

/-- SCH_COMMIT (R617, R618, R620): the time configuration and every class are taken into use together; the buckets fill up to then at the old rates. -/
def execSchCommit (fn : Nat) (s : State) : Result :=
  let classes := (List.range 8).flatMap fun g => (List.range 8).map fun c => (g, c)
  run s fun s => s.fillAll.commit fn .SCH_COMMIT
    (fun s => classes.all (fun x => s.classOk x.1 x.2) && s.regF .SCH_TIME_CFG 31 24 != 0 && s.regF .SCH_TIME_CFG 7 0 != 0 &&
      decide (s.regF .SCH_TIME_CFG 7 0 < s.regF .SCH_TIME_CFG 23 12 * 16))
    (fun s => s.setFlag .SCH_ERR 5) (.SCH_TIME_CFG :: classes.map fun x => .SCH_CLASS_CFG x.1 x.2)

/-- RTR_COMMIT (R377). -/
def execRtrCommit (fn : Nat) (s : State) : Result :=
  run s fun s => s.commit fn .RTR_COMMIT
    (fun s =>
      ((List.range 4).all fun d => s.regF .RTR_DIM_CTL (8 * d + 7) (8 * d + 7) == 0 ||
        decide (s.regF .RTR_DIM_CTL (8 * d + 4) (8 * d) < s.ring d)) &&
      decide (s.regF .RTR_MARK_CFG 11 0 < s.regF .RTR_MARK_CFG 23 12) &&
      decide (8 ≤ s.regF .RTR_LINK_FC 15 8) && decide (s.regF .RTR_LINK_FC 15 8 ≤ 32) &&
      decide (s.regF .RTR_LINK_FC 7 0 < s.regF .RTR_LINK_FC 15 8) && s.regF .RTR_LINK_FC 23 16 != 0 &&
      s.regF .RTR_THROTTLE_CFG0 31 28 != 0 && decide (100 ≤ s.regF .RTR_THROTTLE_CFG0 19 0) &&
      decide (s.regF .RTR_THROTTLE_CFG0 19 0 ≤ 100000) && s.regF .RTR_THROTTLE_CFG1 31 16 != 0 && s.regF .RTR_THROTTLE_CFG2 31 16 != 0)
    (fun s => s.setFlag .RTR_ERR 4)
    [.RTR_DIM_CTL, .RTR_MARK_CFG, .RTR_LINK_FC, .RTR_THROTTLE_CFG0, .RTR_THROTTLE_CFG1, .RTR_THROTTLE_CFG2]

/-- RTR_CLEAR_WATERMARKS (R391): a write of 1 to `RTR_CTRL.CLEAR_WATERMARKS` sets every high-water mark to the occupancy. -/
def execRtrClearWatermarks (fn : Nat) (s : State) : Result :=
  run s fun s => s.expert fn Reg.RTR_CTRL.addr 4 fun s =>
    { s with rtr := { s.rtr with depth := SMap.mapv s.rtr.depth fun k _ => s.queueBytes k } }

/-! ## Cadences and count epochs (R574, R603 to R607) -/

/-- SET_CADENCE (R603 to R605). -/
def execSetCadence (p k : Nat) (s : State) : Result :=
  run s fun s => s.adminRun p k 0x0092 anySel anyAuth fun s _ ps =>
    let q := par ps 0
    let period := par ps 1
    let start := par ps 2
    if period < 100000 ∨ 1000000000 < period then .fail 0x80 s
    else if !s.member q s.me then .field s
    else if start < s.hallTime + 10000 then .fail 0x81 s
    else match SMap.find s.sch.cadences q with
      | some c => .ok [] { s with sch := { s.sch with cadences := SMap.put s.sch.cadences q { c with next := some (start, period) } } }
      | none =>
        match (List.range 16).find? fun i => s.sch.cadences.all fun e => e.2.slot != i with
        | none => .fail stResource s
        | some slot =>
          let c : Cadence := ⟨slot, start, period, none, 0, []⟩
          .ok [] ({ s with sch := { s.sch with cadences := SMap.put s.sch.cadences q c } }.wickReindex fun w => w.partition == q)

/-- CADENCE_BOUNDARY (R601, R605, R606): hall time has reached a boundary of a partition's cadence. -/
def execCadenceBoundary (partition : Nat) (s : State) : Result := run s fun s => s.cadenceBoundary partition

/-- A multiple of COUNT_EPOCH: a boundary of every wick queue without a cadence whose index is older, and of all of them where it is the first
multiple of a new value (R574, R577). -/
def State.countBoundary (s : State) : State :=
  let n := s.epochValue
  let idx := epochIndex s.hallTime none n
  let first := s.feat.epochDue && decide (s.feat.epochFrom ≤ s.hallTime)
  let s := if first then { s with feat := { s.feat with epochDue := false } } else s
  s.wickBoundaries (fun w => !SMap.has s.sch.cadences w.partition && n != 0 && (first || seqNewer idx w.index)) fun _ => idx

/-- COUNT_EPOCH_BOUNDARY (R574, R577): hall time has reached a multiple of COUNT_EPOCH. -/
def execCountEpochBoundary (s : State) : Result := run s State.countBoundary

/-! ## Hall time (R595 to R600, R620, R817) -/

/-- PPS_EDGE (R597, R817). -/
def execPpsEdge (s : State) : Result := run s fun s => s.ppsEdge

/-- TOD_MESSAGE (R597, R817). -/
def execTodMessage (data : Bytes) (s : State) : Result := run s fun s => s.todIn data

/-- PPS_SOURCE_LOST (R596, R817). -/
def execPpsSourceLost (s : State) : Result := run s fun s => s.ppsLost

/-- SYNC_SEND (R598). -/
def execSyncSend (s : State) : Result := run s fun s => s.syncSend

/-- PARENT_SYNC_LOST (R596, R599). -/
def execParentSyncLost (s : State) : Result := run s fun s => s.parentLost

/-- Whether a frame carries a PTP message of a type (R598). -/
def isPtp (b : Bytes) (typ : Nat) : Bool := beNat (slice b 12 2) == 0x88F7 && beNat (slice b 14 1) % 16 == typ

/-- PTP_SYNC (R598 to R600): a frame with a Sync message arrives on a link. -/
def execPtpSync (group link : Nat) (data : Bytes) (s : State) : Result :=
  run s fun s => if isPtp data 0 then s.frameIn group link data true none else s

/-- PTP_PDELAY_REQ (R598): a frame with a Pdelay_Req arrives on a link and is answered. -/
def execPtpPdelayReq (group link : Nat) (data : Bytes) (s : State) : Result :=
  run s fun s => if isPtp data 2 then s.frameIn group link data true none else s

/-- PTP_PDELAY_RESP (R598): a frame with a Pdelay_Resp arrives on a link. -/
def execPtpPdelayResp (group link : Nat) (data : Bytes) (s : State) : Result :=
  run s fun s => if isPtp data 3 then s.frameIn group link data true none else s

/-- SCH_HALL_TIME_LATCH_READ (R620): a 32-bit read of the low dword latches the high dword for the function. The block is in the BAR0
of port 0's physical function only; elsewhere the read returns 0. -/
def execSchHallTimeLatchRead (fn : Nat) (s : State) : Result :=
  mmio s fun s =>
    if fn ≠ 0 then s.emit (.readData (portOf fn) fn (zeros 4) false)
    else
      { s with sch := { s.sch with latch := SMap.put s.sch.latch fn (s.hallTime / 2 ^ 32) } }.emit
        (.readData (portOf fn) fn (leBytes 4 s.hallTime) false)

end Sys2Proof.Machine
end

