-- ==== Sys2Proof/Machine/SecRows.lean ====
section
/-!
DEFINITION. The commands of the key slots, the cipher engines and the entropy source, and SET_FEATURE (R224, R348, R659 to R687).
-/

namespace Sys2Proof.Machine

/-! ## SET_FEATURE (R224, R348) -/

/-- Whether a link group is in service, which locks MODULE_NUMBER and TOPOLOGY (R224). -/
def State.anyService (s : State) : Bool := (List.range 8).any fun g => s.liveLinks g != []

/-- The switched groups and ring sizes that a TOPOLOGY value gives, if it is allowed (R347, R348). -/
def State.topology (s : State) (v : Bytes) : Option (Nat × List Nat) :=
  let kinds := (List.range 8).map fun g => leAt v g 1
  let rings := (List.range 4).map fun d => leAt v (8 + d) 1
  let ok := (List.range 4).all fun d => decide (1 ≤ rings.getD d 0) && decide (rings.getD d 0 ≤ if d = 3 then 32 else 16) &&
    decide (coord s.me d < rings.getD d 0)
  let mask : Option Nat :=
    if kinds = [0, 0, 0, 0, 0, 0, 0, 0] then some 0
    else if kinds = [1, 1, 1, 1, 1, 1, 1, 1] then some 0xFF
    else if kinds = [0, 0, 0, 0, 1, 1, 1, 1] then some 0xF0 else none
  if ok then mask.map fun m => (m, rings) else none

/-- The state with a feature set, or none when the value is not allowed. -/
def State.withFeature (s : State) (p f : Nat) (v : Bytes) : Option State :=
  match f with
  | 1 => if 2 ^ 17 ≤ leAt v 0 4 ∨ !s.inTorus (leAt v 0 4) then none else some { s with feat := { s.feat with moduleNumber := leAt v 0 4 } }
  | 2 => (s.topology v).map fun x =>
    let s := { s with feat := { s.feat with switched := x.1, rings := x.2 } }
    (List.range 8).foldl (fun (s : State) g => s.groupJudge g) s
  | 3 => some { s with feat := { s.feat with udpPort := leAt v 0 2 } }
  | 4 =>
    if 1 < leAt v 0 1 then none
    else
      let on := leAt v 0 1 == 1
      let s := { s with feat := { s.feat with timeMaster := on } }
      let s := if on then s else { s with sch := { s.sch with todValid := false, todNext := none } }
      some s.chooseTime
  | 5 =>
    let n := leAt v 0 4
    if n ≠ 0 ∧ (n < 100 ∨ 1000000000 < n) then none
    else
      let f := { s.feat with
        countEpoch := n, epochOld := s.epochValue, epochFrom := if n = 0 then 0 else (s.hallTime / (n * 1000) + 1) * (n * 1000), epochDue := n != 0 }
      let s := { s with feat := f }
      some (if n = 0 then s.wickReindex fun w => !SMap.has s.sch.cadences w.partition else s)
  | _ => if 1 < leAt v 0 1 then none else some (s.setAdm p { s.adm1 p with events := leAt v 0 1 == 1 })

/-- SET_FEATURE (R224, R348): it returns the previous value. Of a value that is not allowed and a locked feature, the value is judged
first, in the order of the statuses. -/
def execSetFeature (p k : Nat) (s : State) : Result :=
  run s fun s => s.adminRun p k 0x0004 anySel (fun _ ps => p == 0 || par ps 0 == 0 || decide (5 < par ps 0)) fun s _ ps =>
    let f := par ps 0
    match s.featureValue p f with
    | none => .fail 0x80 s
    | some old =>
      match s.withFeature p f (leBytes 16 (par ps 1)) with
      | none => .fail 0x82 s
      | some t => if (f = 1 ∨ f = 2) ∧ s.anyService then .fail 0x83 s else .reply stSuccess 0 old t

/-! ## Key slots (R665 to R667) -/

/-- The queue pairs bound to a key slot. -/
def State.keyBound (s : State) (slot : Nat) : Nat := countIn s.qpe.qps fun q => q.forerunner && q.keySlot == slot

/-- LOAD_KEY (R231, R666): the module's copy of the packet goes with the command. It waits while the generator of the masks does. -/
def execLoadKey (p k : Nat) (s : State) : Result :=
  run s fun s => s.adminRun p k 0x00A0 anySel
    (fun s ps => reach p (par ps 0) && reach p (((SMap.find s.sec.keys (par ps 1)).map (·.inst)).getD (par ps 0))) fun s c ps =>
    let n := par ps 0
    match s.inst n with
    | none => .field s
    | some i =>
      if 16384 ≤ par ps 1 then .field s
      else if SMap.has s.sec.keys (par ps 1) then .fail 0x80 s
      else if !isPf n ∧ i.qpQuota ≤ countIn s.sec.keys (fun x => x.inst == n) then .fail stResource s
      else if s.sec.due.contains 2 then .wait c s
      else
        let k : KeySlot := ⟨n, leBytes 32 (par ps 2), zeros 32, leBytes 4 (par ps 3), false⟩
        .ok [] { s with draws := s.draws + 4, sec := { s.sec with keys := SMap.put s.sec.keys (par ps 1) (k.remask s.freeMask) } }

/-- DESTROY_KEY (R667). -/
def execDestroyKey (p k : Nat) (s : State) : Result :=
  run s fun s => s.adminRun p k 0x00A1 anySel
    (fun s ps => ((SMap.find s.sec.keys (par ps 0)).map fun x => reach p x.inst).getD true) fun s _ ps =>
    if !SMap.has s.sec.keys (par ps 0) then .fail 0x80 s
    else if s.keyBound (par ps 0) ≠ 0 then .fail 0x81 s
    else .ok [] { s with sec := { s.sec with keys := SMap.del s.sec.keys (par ps 0) } }

/-! ## Engines and entropy (R669 to R672, R684) -/

/-- SEC_ENGINE_SELF_TEST (R684): a write to `SEC_ENGINE_FAIL`. Each failed engine named runs its self-test; `passed` are those that pass
it, and they return to service. -/
def execSecEngineSelfTest (fn value passed : Nat) (s : State) : Result :=
  run s fun s => s.expert fn Reg.SEC_ENGINE_FAIL.addr 4 fun s =>
    let back := s.regF .SEC_ENGINE_FAIL 15 0 &&& bits value 15 0 &&& passed
    { s.setRegF .SEC_ENGINE_FAIL 15 0 (s.regF .SEC_ENGINE_FAIL 15 0 - back) with sec := { s.sec with engines := s.sec.engines ||| back } }

/-- A generator is seeded (R671): its requests and its time begin anew. -/
def State.seedDrbg (s : State) (g : Nat) : State :=
  { s with sec := { s.sec with due := s.sec.due.filter (· != g), drbgs := SMap.put s.sec.drbgs g (0, s.now) } }

/-- Whether the reseed of a generator is due: after 2^20 generate requests or 1 s (R671). -/
def State.reseedDue (s : State) (g : Nat) : Bool :=
  let d := SMap.getD s.sec.drbgs g (0, 0)
  s.sec.due.contains g || decide (2 ^ 20 ≤ d.1) || decide (d.2 + 1000000000 ≤ s.now)

/-- ENTROPY_STARTUP_PASS (R672): the source is OK, and the generators that wait are seeded. -/
def execEntropyStartupPass (s : State) : Result :=
  run s fun s => if s.sec.entropy ≠ 0 then s else
    s.sec.due.foldl State.seedDrbg { s with sec := { s.sec with entropy := 1, entropyFails := 0 } }

/-- ENTROPY_HEALTH_FAIL (R672): a health test fails, at start-up or in OK. -/
def execEntropyHealthFail (s : State) : Result :=
  run s fun s =>
    match s.sec.entropy with
    | 1 => ({ s with sec := { s.sec with entropy := 0, entropyFails := 0 } }.setFlag .SEC_ERR 4).count .SEC_ENTROPY_RESTART_COUNT
    | 0 =>
      if 2 ≤ s.sec.entropyFails then { s with sec := { s.sec with entropy := 2, entropyFails := 3 } }.setFlag .SEC_ERR 5
      else { s with sec := { s.sec with entropyFails := s.sec.entropyFails + 1 } }
    | _ => s

/-- DRBG_RESEED (R671, R672): a generator whose reseed is due is seeded. While the source is not OK it waits, and its consumers with it. -/
def execDrbgReseed (generator : Nat) (s : State) : Result :=
  run s fun s =>
    if 2 < generator ∨ !s.reseedDue generator then s
    else if s.sec.entropy = 1 then s.seedDrbg generator
    else { s with sec := { s.sec with due := (generator :: s.sec.due).eraseDups } }

end Sys2Proof.Machine
end

