-- ==== Sys2Proof/Machine/ServiceRows.lean ====
section
/-!
DEFINITION. Service: the life log, calibration, test multiplexers, the service button, PLDM and recovery (R813 to R833).
-/

namespace Sys2Proof.Machine

/-! ## The life log (R827, R828) -/

/-- The bytes of the life-log image (R827). -/
def lifeLogBytes : Nat := 1114112

/-- A byte of the life-log image (R827). -/
def State.lifeByte (s : State) (i : Nat) : Byte :=
  let v := s.svc
  if 0x10000 ≤ i then (SMap.getD v.lifeRing ((i - 0x10000) / 64) []).getD (i % 64) 0
  else if 0x1000 ≤ i then
    let j := (i - 0x1000) / 4
    if j < 96 then (leBytes 4 (v.written.getD (22 + j) 0)).getD (i % 4) 0 else 0
  else if 0x200 ≤ i then
    let j := (i - 0x200) / 8
    if j < 22 then (leBytes 8 (v.written.getD j 0)).getD (i % 8) 0 else 0
  else if 0x100 ≤ i then (leBytes 4 v.lastEpoch).getD (i - 0x100) 0
  else
    (leBytes 4 0x10 ++ leBytes 4 v.lifeHead ++ leBytes 8 v.lifeRecords ++ beBytes 16 Config.serial.toNat).getD i 0

/-- READ_LIFE_LOG (R827). -/
def execReadLifeLog (p k : Nat) (s : State) : Result :=
  run s fun s => s.adminRun p k 0x00D0 anySel anyAuth fun s _ ps =>
    let off := par ps 0
    let n := par ps 1
    if lifeLogBytes < off + n then .fail 0x80 s
    else
      let w := s.admWrite p (par ps 2) ((List.range n).map fun i => s.lifeByte (off + i))
      if w.1 then .ok [(32, n)] w.2 else .fail 0x81 w.2

/-- LIFE_LOG_HOURLY (R827, R828): an hour of powered time has passed, and the counters and histograms are written, `ok` with success. -/
def execLifeLogHourly (ok : Bool) (s : State) : Result :=
  run s fun s =>
    let s := s.lifeCount 0
    if !s.cpRuns then s
    else if ok then { s with svc := { s.svc with written := s.svc.live } } else s.setFlag .DBG_ERR 1

/-! ## Calibration (R825, R826) -/

/-- The bytes of a calibration item, 0 when there is none of that number (R825). -/
def calSize (item : Nat) : Nat := [256, 16, 16, 408, 8, 56, 1312, 136, 1024, 2048].getD item 0

/-- A signed two-byte number. -/
def int16At (b : Bytes) (off : Nat) : Int :=
  let v := leAt b off 2
  if 32768 ≤ v then (v : Int) - 65536 else v

/-- Whether a list of numbers never rises. -/
def neverRises : List Nat → Bool
  | a :: b :: l => decide (b ≤ a) && neverRises (b :: l)
  | _ => true

/-- Whether a list of numbers always rises. -/
def alwaysRises : List Int → Bool
  | a :: b :: l => decide (a < b) && alwaysRises (b :: l)
  | _ => true

/-- The validity rule of an item (R825). -/
def calValid (item : Nat) (b : Bytes) : Bool :=
  let word (i : Nat) : Nat := leAt b (2 * i) 2
  match item with
  | 1 | 2 =>
    let l := (List.range 8).map word
    l.all (fun v => decide (600 ≤ v) && decide (v ≤ 950)) && neverRises l
  | 3 => (List.range 68).all fun i =>
    let t (j : Nat) : Int := int16At b (6 * i + 2 * j)
    decide (t 0 < t 1) && decide (t 1 < t 2) && decide (t 2 ≤ int16At shippedThermal (6 * i + 4))
  | 4 => (List.range 4).all fun i => decide (500 ≤ word i) && decide (word i ≤ 900)
  | 5 => (List.range 14).all fun i =>
    let v := leAt b (4 * i) 4
    decide (v ≤ 0x47C35000) || v == 0x80000000
  | 6 => alwaysRises ((List.range 8).map fun i => int16At b (2 * i))
  | 7 => (List.range 68).all fun i => decide (-80 ≤ int16At b (2 * i)) && decide (int16At b (2 * i) ≤ 80)
  | 8 => (List.range 256).all fun i => leAt b (4 * i + 2) 2 == 0
  | 9 => b.all fun x => decide (x.toNat ≤ 0x3F)
  | _ => false

/-- The INDEX item (R825). -/
def State.calIndex (s : State) : Bytes :=
  ((List.range 9).flatMap fun i =>
    let x := SMap.getD s.svc.calInfo (i + 1) (0, 0)
    leBytes 4 (calSize (i + 1)) ++ leBytes 4 x.1 ++ leBytes 8 x.2) ++ zeros 112

/-- CAL_READ (R825, R826): the stored value. -/
def execCalRead (p k : Nat) (s : State) : Result :=
  run s fun s => s.adminRun p k 0x00D1 anySel anyAuth fun s _ ps =>
    let item := par ps 0
    let n := par ps 1
    if 9 < item ∨ calSize item < n then .fail 0x80 s
    else
      let b := if item = 0 then s.calIndex else SMap.getD s.svc.cal item []
      let w := s.admWrite p (par ps 2) (slice b 0 n)
      if w.1 then .ok [(32, n)] w.2 else .fail 0x81 w.2

/-- CAL_WRITE (R825, R826): the checks, and the start of the write. -/
def execCalWrite (p k : Nat) (s : State) : Result :=
  run s fun s => s.adminRun p k 0x00D2 anySel anyAuth fun s c ps =>
    let item := par ps 0
    if c.stage = 1 then .wait c s
    else if item = 0 ∨ 9 < item ∨ par ps 2 ≠ calSize item then .fail 0x80 s
    else if par ps 1 ≠ 0x43414C57 then .fail 0x82 s
    else match s.admRead p k c (par ps 3) (par ps 2) with
      | (none, c, s) => .wait c s
      | (some none, _, s) => .fail 0x81 s
      | (some (some b), c, s) =>
        if !calValid item b then .fail 0x83 s
        else .wait { c with stage := 1 } { s with svc := { s.svc with job := some (.cal p k item b) } }

/-! ## Test multiplexers (R829, R830, R832) -/

/-- The nominal frequency of a CLOCK tap in MHz (R37, R830); 0 where there is no such tap. -/
def tapClock (die index : Nat) : Nat :=
  if die = 0 then [1600, 800, 200, 1000].getD index 0
  else if die = 3 then [1600, 1000, 1000, 1000, 1000].getD index 0
  else if index = 0 then 1200 else 0

/-- Whether R830 lists a tap of a class other than CLOCK. -/
def tapListed (die cls index : Nat) : Bool :=
  if cls = 0 then decide (index < 2)
  else if cls = 2 then
    if die = 0 then decide (index < 0x0C)
    else if die = 3 then decide (index < 8)
    else decide (index < 3) || (decide (0x10 ≤ index) && decide (index < 0x14))
  else if cls = 3 then
    if die = 0 then decide (index < 0x19) else if die = 3 then decide (index < 8) else decide (index < 4)
  else false

/-- Whether a SOURCE may drive pin `k`, of which 8 is DCLK, with a DIVIDE (R830). -/
def tapFits (k source divide : Nat) : Bool :=
  let die := bits source 15 12
  let cls := bits source 11 8
  let index := bits source 7 0
  if 4 ≤ die then false
  else if k = 8 then source == 0 || (cls == 1 && tapClock die index != 0 && decide (tapClock die index ≤ 250 * 2 ^ divide))
  else tapListed die cls index

/-- SET_DEBUG_MUX (R236, R829, R830): a DIVIDE is kept. -/
def execSetDebugMux (p k : Nat) (s : State) : Result :=
  run s fun s => s.adminRun p k 0x00D3 anySel anyAuth fun s _ ps =>
    let pin := par ps 0
    let i := if pin = 0xFF then 8 else pin
    if 8 ≤ pin ∧ pin ≠ 0xFF then .field s
    else if !s.hasCap capDebugOpen then .fail 0x80 s
    else if !tapFits i (par ps 1) (s.comF (.DBG_MUX i) 19 16) then .fail 0x81 s
    else
      let set (w : Word) : Word := setFld w 15 0 (par ps 1)
      .ok [] ((s.setCom (.DBG_MUX i) (set (s.com (.DBG_MUX i)))).setReg (.DBG_MUX i) (set (s.reg (.DBG_MUX i))))

/-- DBG_COMMIT (R832). -/
def execDbgCommit (fn : Nat) (s : State) : Result :=
  run s fun s => s.commit fn .DBG_COMMIT
    (fun s => (List.range 9).all fun k => tapFits k (s.regF (.DBG_MUX k) 15 0) (s.regF (.DBG_MUX k) 19 16))
    (fun s => s.setFlag .DBG_ERR 0) ((List.range 9).map Reg.DBG_MUX)

/-! ## The service button (R822) -/

/-- A reported press of the service button, with its kind and its duration in ms (R818, R822). -/
def State.pressed (s : State) (kind ms : Nat) : State :=
  ((s.raise .pfs evServiceButton (kind * 2 ^ 24) ms 0).bmc evServiceButton (leBytes 4 (kind * 2 ^ 24) ++ leBytes 8 ms)).count .DBG_BUTTON_COUNT

/-- SERVICE_BUTTON_SHORT (R822): a press released after `ms` milliseconds; one of 2 s or more is not SHORT. -/
def execServiceButtonShort (ms : Nat) (s : State) : Result := run s fun s => if ms < 2000 then s.pressed 1 ms else s

/-- SERVICE_BUTTON_LONG (R822): a press has been held for 5 s. -/
def execServiceButtonLong (s : State) : Result := run s fun s => s.pressed 2 5000

/-! ## PLDM (R818, R819, R821, R831; the codes are PRESUMED from the DMTF standards, log 45) -/

/-- Whether the boot ROM answers in the firmware's place, because no bank loads (R831). -/
def State.recovery (s : State) : Bool := s.boot.state == 2 && !s.boot.loaded

/-- Answer a PLDM command. -/
def State.pldmAnswer (s : State) (typ cmd : Nat) (data : Bytes) : State := s.emit (.pldm typ cmd data)

/-- Answer a PLDM command that the module does not take: ERROR_UNSUPPORTED_PLDM_CMD. -/
def State.unsupported (s : State) (typ cmd : Nat) : State := s.pldmAnswer typ cmd [5]

/-- A PLDM command that the firmware answers, while the control processor runs (R45). -/
def State.pldmRun (s : State) (typ cmd : Nat) (f : State → State) : State :=
  if s.recovery then s.unsupported typ cmd else if s.cpRuns then f s else s

/-- A PLDM command to the module power effecter, by which the BMC also resets a module whose control processor stays halted, and powers on
one that is off (R767, R779; log 78). -/
def State.pldmPower (s : State) (f : State → State) : State := if s.recovery then s.unsupported 2 0x39 else f s

/-- The commands that the module answers, by PLDM type (R818, R831). -/
def pldmCommands (typ : Nat) : List Nat :=
  if typ = 0 then [0x02, 0x03, 0x04, 0x05]
  else if typ = 2 then [0x0A, 0x11, 0x31, 0x32, 0x39, 0x3A, 0x50, 0x51]
  else if typ = 5 then [0x10, 0x13, 0x14, 0x15, 0x16, 0x17, 0x18, 0x1A]
  else []

/-- A set of numbers as a bit field of `n` bytes. -/
def bitField (n : Nat) (l : List Nat) : Bytes := leBytes n (sumList (l.map fun i => 2 ^ i))

/-- GET_TID (R818). -/
def execGetTid (s : State) : Result := run s fun s => s.pldmRun 0 0x02 fun s => s.pldmAnswer 0 0x02 [0, 0]

/-- GET_PLDM_VERSION of a type (R818). -/
def execGetPldmVersion (typ : Nat) (s : State) : Result :=
  run s fun s => s.pldmRun 0 0x03 fun s =>
    if pldmCommands typ = [] then s.pldmAnswer 0 0x03 [0x83] else s.pldmAnswer 0 0x03 ([0] ++ leBytes 4 (Config.pldmVersion typ).toNat)

/-- GET_PLDM_TYPES (R818). -/
def execGetPldmTypes (s : State) : Result := run s fun s => s.pldmRun 0 0x04 fun s => s.pldmAnswer 0 0x04 ([0] ++ bitField 8 [0, 2, 5])

/-- GET_PLDM_COMMANDS of a type (R818). -/
def execGetPldmCommands (typ : Nat) (s : State) : Result :=
  run s fun s => s.pldmRun 0 0x05 fun s =>
    if pldmCommands typ = [] then s.pldmAnswer 0 0x05 [0x83] else s.pldmAnswer 0 0x05 ([0] ++ bitField 32 (pldmCommands typ))

/-- GET_PDR_REPOSITORY_INFO (R818): what the repository holds is not stated (log 45). -/
def execGetPdrRepositoryInfo (s : State) : Result :=
  run s fun s => s.pldmRun 2 0x50 fun s => s.drawn.pldmAnswer 2 0x50 ([0] ++ leBytes 8 s.freeVal)

/-- GET_PDR of a record (R818): what the repository holds is not stated (log 45). -/
def execGetPdr (record : Nat) (s : State) : Result :=
  run s fun s => s.pldmRun 2 0x51 fun s => s.drawn.pldmAnswer 2 0x51 ([0] ++ leBytes 4 record ++ leBytes 8 s.freeVal)

/-- GET_SENSOR_READING (R818): the sensors are numbered as input voltage, current and power, then the 68 temperatures (log 45). -/
def execGetSensorReading (sensor : Nat) (s : State) : Result :=
  run s fun s => s.pldmRun 2 0x11 fun s =>
    if 71 ≤ sensor then s.pldmAnswer 2 0x11 [0x80]
    else
      let v := if sensor = 0 then s.pwr.volts else if sensor = 1 then s.pwr.amps else if sensor = 2 then s.pwr.measured
        else int16 (s.temp (sensor - 3))
      s.pldmAnswer 2 0x11 ([0] ++ leBytes 2 v)

/-- GET_STATE_EFFECTER_STATES (R818, R819, R821): effecter 0 is the module power effecter, and effecter 1 is LOCATE (log 45). -/
def execGetStateEffecterStates (effecter : Nat) (s : State) : Result :=
  run s fun s => s.pldmRun 2 0x3A fun s =>
    if effecter = 0 then s.pldmAnswer 2 0x3A [0, 1]
    else if effecter = 1 then s.pldmAnswer 2 0x3A [0, BitVec.ofNat 8 (1 + b2n s.svc.locate)]
    else s.pldmAnswer 2 0x3A [0x80]

/-- MODULE_POWER_ON (R767, R819): state 1 of the module power effecter. -/
def execModulePowerOn (s : State) : Result :=
  runAlways s fun s => s.pldmPower fun s =>
    let s := s.pldmAnswer 2 0x39 [0]
    if s.pwr.off && (s.pwr.cause == 3 || s.pwr.cause == 4) then s.setPwr { s.pwr with woken := true } else s

/-- MODULE_POWER_OFF (R766, R819): state 2 of the module power effecter. -/
def execModulePowerOff (s : State) : Result :=
  run s fun s => s.pldmPower fun s => (s.pldmAnswer 2 0x39 [0]).finish.shutDown 4 0

/-- MODULE_POWER_RESET (R778, R819): state 3 of the module power effecter. -/
def execModulePowerReset (burn : Bool) (s : State) : Result :=
  run s fun s => s.pldmPower fun s => (s.pldmAnswer 2 0x39 [0]).moduleReset false burn

/-- LOCATE_EFFECTER_SET (R818, R821). -/
def execLocateEffecterSet (lit : Bool) (s : State) : Result :=
  run s fun s => s.pldmRun 2 0x39 fun s => ({ s with svc := { s.svc with locate := lit } }).pldmAnswer 2 0x39 [0]

/-- SET_NUMERIC_EFFECTER_VALUE (R753, R818): the cap effecter takes 300 to 1,100 W. -/
def execSetNumericEffecterValue (value : Nat) (s : State) : Result :=
  run s fun s => s.pldmRun 2 0x31 fun s =>
    if value < 300 ∨ 1100 < value then s.pldmAnswer 2 0x31 [2] else (s.setCap value).pldmAnswer 2 0x31 [0]

/-- GET_NUMERIC_EFFECTER_VALUE (R818). -/
def execGetNumericEffecterValue (s : State) : Result :=
  run s fun s => s.pldmRun 2 0x32 fun s => s.pldmAnswer 2 0x32 ([0] ++ leBytes 2 (s.comF .PWR_LIMIT_CFG 10 0))

/-- UNSUPPORTED_PLDM_COMMAND (R818): any other PLDM type or command. -/
def execUnsupportedPldmCommand (typ cmd : Nat) (s : State) : Result :=
  run s fun s => if (pldmCommands typ).contains cmd then s else s.pldmRun typ cmd fun s => s.unsupported typ cmd

/-! ## Recovery (R831) -/

/-- A command of recovery: taken only in recovery, and, unless the BMC may send it at any step, only at a step of the update. -/
def State.recover (s : State) (cmd : Nat) (steps : List Nat) (f : State → State) : State :=
  if !s.recovery then s.pldmRun 5 cmd fun s => s.unsupported 5 cmd
  else if !steps.contains s.svc.update then s.pldmAnswer 5 cmd [0x84]
  else f s

/-- Go to a step of the update. -/
def State.updateStep (s : State) (n : Nat) : State := { s with svc := { s.svc with update := n } }

/-- REQUEST_UPDATE (R831): a new session takes the place of one that has not come to its end. -/
def execRequestUpdate (s : State) : Result :=
  run s fun s => s.recover 0x10 [0, 1, 2, 3, 4, 5, 6] fun s =>
    ({ s with svc := { s.svc with update := 1, updateImage := [] } }).pldmAnswer 5 0x10 [0]

/-- PASS_COMPONENT_TABLE (R831): one component. -/
def execPassComponentTable (s : State) : Result := run s fun s => s.recover 0x13 [1] fun s => (s.updateStep 2).pldmAnswer 5 0x13 [0]

/-- UPDATE_COMPONENT (R831). -/
def execUpdateComponent (s : State) : Result := run s fun s => s.recover 0x14 [2] fun s => (s.updateStep 3).pldmAnswer 5 0x14 [0]

/-- REQUEST_FIRMWARE_DATA (R831): the next block of the image arrives. -/
def execRequestFirmwareData (data : Bytes) (s : State) : Result :=
  run s fun s => if s.recovery && s.svc.update == 3 then
      { s with svc := { s.svc with updateImage := s.svc.updateImage ++ data } } else s

/-- TRANSFER_COMPLETE (R831). -/
def execTransferComplete (s : State) : Result :=
  run s fun s => if s.recovery && s.svc.update == 3 then (s.updateStep 4).pldmAnswer 5 0x16 [0] else s

/-- VERIFY_COMPLETE (R679, R831): a good image is written to bank 0; a failing one leaves flash as it was. -/
def execVerifyComplete (s : State) : Result :=
  run s fun s =>
    if s.recovery && s.svc.update == 4 then
      let i := s.svc.updateImage
      if i.length ≤ 4194304 ∧ i.length = 512 + leAt i 8 4 ∧ s.imageGood i then ((s.setBank 0 ⟨i, false⟩).updateStep 5).pldmAnswer 5 0x17 [0]
      else ({ s with svc := { s.svc with update := 0, updateImage := [] } }).pldmAnswer 5 0x17 [1]
    else s

/-- APPLY_COMPLETE (R831). -/
def execApplyComplete (s : State) : Result :=
  run s fun s => if s.recovery && s.svc.update == 5 then (s.updateStep 6).pldmAnswer 5 0x18 [0] else s

/-- ACTIVATE_FIRMWARE (R676, R831): a load starts, and the boot goes on from it. The operands are those of POWER_ON_RESET. -/
def execActivateFirmware (deadDies deadStacks engines : Nat) (burn : Bool) (s : State) : Result :=
  run s fun s => s.recover 0x1A [6] fun s =>
    let s := ({ s with svc := { s.svc with update := 0, updateImage := [] } }).pldmAnswer 5 0x1A [0]
    let s := s.loadFirmware burn
    if s.boot.loaded then s.bootRest deadDies deadStacks engines else s

end Sys2Proof.Machine
end

