-- ==== Sys2Proof/Machine/Dispatch.lean ====
section
/-!
DEFINITION. The dispatch of a command to its meaning.
-/

namespace Sys2Proof.Machine

/-- The effect of a command on everything but the queue of commands. -/
def exec (i : Instr) (s : State) : Host.Outcome State Fault Refusal :=
  match i with
  | .admCmdProducerWrite port value => Sys2Proof.Machine.execAdmCmdProducerWrite port value s
  | .adminCommandFetch port => Sys2Proof.Machine.execAdminCommandFetch port s
  | .admCtrlEnableSet port value => Sys2Proof.Machine.execAdmCtrlEnableSet port value s
  | .admCtrlEnableClear port value => Sys2Proof.Machine.execAdmCtrlEnableClear port value s
  | .admReplyConsumerWrite port value => Sys2Proof.Machine.execAdmReplyConsumerWrite port value s
  | .unlistedAdminOpcode port cmd => Sys2Proof.Machine.execUnlistedAdminOpcode port cmd s
  | .identify port cmd => Sys2Proof.Machine.execIdentify port cmd s
  | .negotiateVersion port cmd => Sys2Proof.Machine.execNegotiateVersion port cmd s
  | .getFeature port cmd => Sys2Proof.Machine.execGetFeature port cmd s
  | .setFeature port cmd => Sys2Proof.Machine.execSetFeature port cmd s
  | .expertUnlock port cmd => Sys2Proof.Machine.execExpertUnlock port cmd s
  | .expertLock port cmd => Sys2Proof.Machine.execExpertLock port cmd s
  | .createWorkQueue port cmd => Sys2Proof.Machine.execCreateWorkQueue port cmd s
  | .destroyWorkQueue port cmd => Sys2Proof.Machine.execDestroyWorkQueue port cmd s
  | .createCompletionQueue port cmd => Sys2Proof.Machine.execCreateCompletionQueue port cmd s
  | .destroyCompletionQueue port cmd => Sys2Proof.Machine.execDestroyCompletionQueue port cmd s
  | .createEventQueue port cmd => Sys2Proof.Machine.execCreateEventQueue port cmd s
  | .destroyEventQueue port cmd => Sys2Proof.Machine.execDestroyEventQueue port cmd s
  | .quiesce port cmd => Sys2Proof.Machine.execQuiesce port cmd s
  | .resume port cmd => Sys2Proof.Machine.execResume port cmd s
  | .quiesceWaitLimit port cmd => Sys2Proof.Machine.execQuiesceWaitLimit port cmd s
  | .snuffQueue port cmd => Sys2Proof.Machine.execSnuffQueue port cmd s
  | .createQp port cmd => Sys2Proof.Machine.execCreateQp port cmd s
  | .modifyQp port cmd => Sys2Proof.Machine.execModifyQp port cmd s
  | .queryQp port cmd => Sys2Proof.Machine.execQueryQp port cmd s
  | .destroyQp port cmd => Sys2Proof.Machine.execDestroyQp port cmd s
  | .openSkylight port cmd => Sys2Proof.Machine.execOpenSkylight port cmd s
  | .revokeSkylight port cmd => Sys2Proof.Machine.execRevokeSkylight port cmd s
  | .querySkylight port cmd => Sys2Proof.Machine.execQuerySkylight port cmd s
  | .mapPages port cmd => Sys2Proof.Machine.execMapPages port cmd s
  | .unmapPages port cmd => Sys2Proof.Machine.execUnmapPages port cmd s
  | .dirtyLogEnable port cmd => Sys2Proof.Machine.execDirtyLogEnable port cmd s
  | .dirtyLogSwitch port cmd => Sys2Proof.Machine.execDirtyLogSwitch port cmd s
  | .dirtyLogDisable port cmd => Sys2Proof.Machine.execDirtyLogDisable port cmd s
  | .defineGroup port cmd => Sys2Proof.Machine.execDefineGroup port cmd s
  | .releaseGroup port cmd => Sys2Proof.Machine.execReleaseGroup port cmd s
  | .setCollectivePolicy port cmd => Sys2Proof.Machine.execSetCollectivePolicy port cmd s
  | .loadTransitProgram port cmd => Sys2Proof.Machine.execLoadTransitProgram port cmd s
  | .unloadTransitProgram port cmd => Sys2Proof.Machine.execUnloadTransitProgram port cmd s
  | .allocateHallPages port cmd => Sys2Proof.Machine.execAllocateHallPages port cmd s
  | .freeHallPages port cmd => Sys2Proof.Machine.execFreeHallPages port cmd s
  | .pinPages port cmd => Sys2Proof.Machine.execPinPages port cmd s
  | .unpinPages port cmd => Sys2Proof.Machine.execUnpinPages port cmd s
  | .pinProgram port cmd => Sys2Proof.Machine.execPinProgram port cmd s
  | .unpinProgram port cmd => Sys2Proof.Machine.execUnpinProgram port cmd s
  | .setPlacementPolicy port cmd => Sys2Proof.Machine.execSetPlacementPolicy port cmd s
  | .createWickQueue port cmd => Sys2Proof.Machine.execCreateWickQueue port cmd s
  | .destroyWickQueue port cmd => Sys2Proof.Machine.execDestroyWickQueue port cmd s
  | .defineBarrier port cmd => Sys2Proof.Machine.execDefineBarrier port cmd s
  | .setGateList port cmd => Sys2Proof.Machine.execSetGateList port cmd s
  | .setClassQuanta port cmd => Sys2Proof.Machine.execSetClassQuanta port cmd s
  | .setCadence port cmd => Sys2Proof.Machine.execSetCadence port cmd s
  | .loadKey port cmd => Sys2Proof.Machine.execLoadKey port cmd s
  | .destroyKey port cmd => Sys2Proof.Machine.execDestroyKey port cmd s
  | .createInstance port cmd => Sys2Proof.Machine.execCreateInstance port cmd s
  | .destroyInstance port cmd => Sys2Proof.Machine.execDestroyInstance port cmd s
  | .resetInstance port cmd => Sys2Proof.Machine.execResetInstance port cmd s
  | .generationQuarantineEnd inst => Sys2Proof.Machine.execGenerationQuarantineEnd inst s
  | .setInstanceShare port cmd => Sys2Proof.Machine.execSetInstanceShare port cmd s
  | .powerHintCommand port cmd => Sys2Proof.Machine.execPowerHintCommand port cmd s
  | .setPowerCap port cmd => Sys2Proof.Machine.execSetPowerCap port cmd s
  | .readLifeLog port cmd => Sys2Proof.Machine.execReadLifeLog port cmd s
  | .calRead port cmd => Sys2Proof.Machine.execCalRead port cmd s
  | .calWrite port cmd => Sys2Proof.Machine.execCalWrite port cmd s
  | .setDebugMux port cmd => Sys2Proof.Machine.execSetDebugMux port cmd s
  | .firmwareStage port cmd => Sys2Proof.Machine.execFirmwareStage port cmd s
  | .firmwareActivateNextPowerOn port cmd => Sys2Proof.Machine.execFirmwareActivateNextPowerOn port cmd s
  | .firmwareActivateNow port cmd => Sys2Proof.Machine.execFirmwareActivateNow port cmd s
  | .jobDomainCreate port cmd => Sys2Proof.Machine.execJobDomainCreate port cmd s
  | .jobDomainFault port cmd => Sys2Proof.Machine.execJobDomainFault port cmd s
  | .snapshot port cmd => Sys2Proof.Machine.execSnapshot port cmd s
  | .wqDoorbell fn wq value => Sys2Proof.Machine.execWqDoorbell fn wq value s
  | .doorbellHighDwordWrite fn bell => Sys2Proof.Machine.execDoorbellHighDwordWrite fn bell s
  | .cqConsumerUpdate fn wq value => Sys2Proof.Machine.execCqConsumerUpdate fn wq value s
  | .cqArm fn wq value => Sys2Proof.Machine.execCqArm fn wq value s
  | .cqArmSolicited fn wq value => Sys2Proof.Machine.execCqArmSolicited fn wq value s
  | .cqFullWaitExpiry cq => Sys2Proof.Machine.execCqFullWaitExpiry cq s
  | .descriptorFetch wq => Sys2Proof.Machine.execDescriptorFetch wq s
  | .descriptorArrival wq => Sys2Proof.Machine.execDescriptorArrival wq s
  | .lqConsumerWrite fn lq index => Sys2Proof.Machine.execLqConsumerWrite fn lq index s
  | .lqArm fn lq => Sys2Proof.Machine.execLqArm fn lq s
  | .lqLostClear fn lq => Sys2Proof.Machine.execLqLostClear fn lq s
  | .wqEnableClear fn write => Sys2Proof.Machine.execWqEnableClear fn write s
  | .wqEnableSet fn write => Sys2Proof.Machine.execWqEnableSet fn write s
  | .nop wq op => Sys2Proof.Machine.execNop wq op s
  | .read wq op => Sys2Proof.Machine.execRead wq op s
  | .write wq op => Sys2Proof.Machine.execWrite wq op s
  | .writeNotify wq op => Sys2Proof.Machine.execWriteNotify wq op s
  | .atomicFadd wq op => Sys2Proof.Machine.execAtomicFadd wq op s
  | .atomicCas wq op => Sys2Proof.Machine.execAtomicCas wq op s
  | .fence wq op => Sys2Proof.Machine.execFence wq op s
  | .tokenProduce wq op => Sys2Proof.Machine.execTokenProduce wq op s
  | .tokenConsume wq op => Sys2Proof.Machine.execTokenConsume wq op s
  | .tokenBarrier wq op => Sys2Proof.Machine.execTokenBarrier wq op s
  | .tokenCadence wq op => Sys2Proof.Machine.execTokenCadence wq op s
  | .tokenWaitTimeout wq op => Sys2Proof.Machine.execTokenWaitTimeout wq op s
  | .chain wq op => Sys2Proof.Machine.execChain wq op s
  | .chainListArrival wq op => Sys2Proof.Machine.execChainListArrival wq op s
  | .powerHintDescriptor wq op => Sys2Proof.Machine.execPowerHintDescriptor wq op s
  | .allReduce wq op => Sys2Proof.Machine.execAllReduce wq op s
  | .reduce wq op => Sys2Proof.Machine.execReduce wq op s
  | .reduceScatter wq op => Sys2Proof.Machine.execReduceScatter wq op s
  | .allGather wq op => Sys2Proof.Machine.execAllGather wq op s
  | .broadcast wq op => Sys2Proof.Machine.execBroadcast wq op s
  | .allToAll wq op => Sys2Proof.Machine.execAllToAll wq op s
  | .transit wq op => Sys2Proof.Machine.execTransit wq op s
  | .messageIssue wq op msg => Sys2Proof.Machine.execMessageIssue wq op msg s
  | .contextFillReturn qpn data => Sys2Proof.Machine.execContextFillReturn qpn data s
  | .hostReadCompletion port tag status data => Sys2Proof.Machine.execHostReadCompletion port tag status data s
  | .completionTimeout port tag => Sys2Proof.Machine.execCompletionTimeout port tag s
  | .writeReq pkt => Sys2Proof.Machine.execWriteReq pkt s
  | .readReq pkt => Sys2Proof.Machine.execReadReq pkt s
  | .atomicReq pkt => Sys2Proof.Machine.execAtomicReq pkt s
  | .tokenReq pkt => Sys2Proof.Machine.execTokenReq pkt s
  | .forwardedRequest pkt => Sys2Proof.Machine.execForwardedRequest pkt s
  | .ack pkt => Sys2Proof.Machine.execAck pkt s
  | .readResp pkt => Sys2Proof.Machine.execReadResp pkt s
  | .atomicResp pkt => Sys2Proof.Machine.execAtomicResp pkt s
  | .epochProbe pkt => Sys2Proof.Machine.execEpochProbe pkt s
  | .epochNotice pkt => Sys2Proof.Machine.execEpochNotice pkt s
  | .epochProbeTimeout module => Sys2Proof.Machine.execEpochProbeTimeout module s
  | .epochTableAging module => Sys2Proof.Machine.execEpochTableAging module s
  | .congestion pkt => Sys2Proof.Machine.execCongestion pkt s
  | .unknownTypePacket pkt => Sys2Proof.Machine.execUnknownTypePacket pkt s
  | .retransmitTimeout txn => Sys2Proof.Machine.execRetransmitTimeout txn s
  | .retryLimitTimeout txn => Sys2Proof.Machine.execRetryLimitTimeout txn s
  | .ackDelayExpiry conn key => Sys2Proof.Machine.execAckDelayExpiry conn key s
  | .throttleTick => Sys2Proof.Machine.execThrottleTick s
  | .collData pkt => Sys2Proof.Machine.execCollData pkt s
  | .groupSetup pkt => Sys2Proof.Machine.execGroupSetup pkt s
  | .treeUp pkt => Sys2Proof.Machine.execTreeUp pkt s
  | .treeDown pkt => Sys2Proof.Machine.execTreeDown pkt s
  | .revokeDrainDone kind root tree => Sys2Proof.Machine.execRevokeDrainDone kind root tree s
  | .snapshotDrainDone partition => Sys2Proof.Machine.execSnapshotDrainDone partition s
  | .treeUpRetry kind root tree seq => Sys2Proof.Machine.execTreeUpRetry kind root tree seq s
  | .treeAckTimeout kind root tree seq member => Sys2Proof.Machine.execTreeAckTimeout kind root tree seq member s
  | .domainSetup pkt => Sys2Proof.Machine.execDomainSetup pkt s
  | .domainReady pkt => Sys2Proof.Machine.execDomainReady pkt s
  | .transitLaunch pkt => Sys2Proof.Machine.execTransitLaunch pkt s
  | .transitCancel pkt => Sys2Proof.Machine.execTransitCancel pkt s
  | .transitDone pkt => Sys2Proof.Machine.execTransitDone pkt s
  | .tileAllocation die => Sys2Proof.Machine.execTileAllocation die s
  | .operatorChunkDone die entry op sram tile offset => Sys2Proof.Machine.execOperatorChunkDone die entry op sram tile offset s
  | .transitWaitTimeout die entry => Sys2Proof.Machine.execTransitWaitTimeout die entry s
  | .transitPriorityPromotion die entry => Sys2Proof.Machine.execTransitPriorityPromotion die entry s
  | .trnCancelWrite fn die value => Sys2Proof.Machine.execTrnCancelWrite fn die value s
  | .heatDecay => Sys2Proof.Machine.execHeatDecay s
  | .placePropose pkt => Sys2Proof.Machine.execPlacePropose pkt s
  | .moveStart pkt => Sys2Proof.Machine.execMoveStart pkt s
  | .moveCopy pkt => Sys2Proof.Machine.execMoveCopy pkt s
  | .moveDone pkt => Sys2Proof.Machine.execMoveDone pkt s
  | .moveEnd pkt => Sys2Proof.Machine.execMoveEnd pkt s
  | .thatchHint pkt => Sys2Proof.Machine.execThatchHint pkt s
  | .collapseNote pkt => Sys2Proof.Machine.execCollapseNote pkt s
  | .collapseDone pkt => Sys2Proof.Machine.execCollapseDone pkt s
  | .forwardingEntryExpiry home page => Sys2Proof.Machine.execForwardingEntryExpiry home page s
  | .pinWaitRetry page => Sys2Proof.Machine.execPinWaitRetry page s
  | .programExclusionExpiry program module => Sys2Proof.Machine.execProgramExclusionExpiry program module s
  | .cadenceBoundary partition => Sys2Proof.Machine.execCadenceBoundary partition s
  | .countEpochBoundary => Sys2Proof.Machine.execCountEpochBoundary s
  | .gateSwitch group => Sys2Proof.Machine.execGateSwitch group s
  | .frameStart group link => Sys2Proof.Machine.execFrameStart group link s
  | .queueSamplePeriod => Sys2Proof.Machine.execQueueSamplePeriod s
  | .ppsEdge => Sys2Proof.Machine.execPpsEdge s
  | .todMessage data => Sys2Proof.Machine.execTodMessage data s
  | .ppsSourceLost => Sys2Proof.Machine.execPpsSourceLost s
  | .ptpSync group link data => Sys2Proof.Machine.execPtpSync group link data s
  | .ptpPdelayReq group link data => Sys2Proof.Machine.execPtpPdelayReq group link data s
  | .ptpPdelayResp group link data => Sys2Proof.Machine.execPtpPdelayResp group link data s
  | .syncSend => Sys2Proof.Machine.execSyncSend s
  | .parentSyncLost => Sys2Proof.Machine.execParentSyncLost s
  | .mailboxSend fn dir value => Sys2Proof.Machine.execMailboxSend fn dir value s
  | .mailboxReceive fn dir => Sys2Proof.Machine.execMailboxReceive fn dir s
  | .frameReceive group link data ok note => Sys2Proof.Machine.execFrameReceive group link data ok note s
  | .pauseExpiry group link prio => Sys2Proof.Machine.execPauseExpiry group link prio s
  | .pauseRefresh group link prio => Sys2Proof.Machine.execPauseRefresh group link prio s
  | .txUnderrun group link => Sys2Proof.Machine.execTxUnderrun group link s
  | .opticalPowerStable group link => Sys2Proof.Machine.execOpticalPowerStable group link s
  | .linkLock group link => Sys2Proof.Machine.execLinkLock group link s
  | .trainingStepTimeout group link => Sys2Proof.Machine.execTrainingStepTimeout group link s
  | .hello group link data => Sys2Proof.Machine.execHello group link data s
  | .helloSend group link => Sys2Proof.Machine.execHelloSend group link s
  | .helloLost group link => Sys2Proof.Machine.execHelloLost group link s
  | .signalLost group link signal => Sys2Proof.Machine.execSignalLost group link signal s
  | .alignLost group link => Sys2Proof.Machine.execAlignLost group link s
  | .fecDegrade group link count => Sys2Proof.Machine.execFecDegrade group link count s
  | .heldLinkRetry group link => Sys2Proof.Machine.execHeldLinkRetry group link s
  | .lpiIdleExpiry group => Sys2Proof.Machine.execLpiIdleExpiry group s
  | .lpiWake group => Sys2Proof.Machine.execLpiWake group s
  | .wakeTimeout group => Sys2Proof.Machine.execWakeTimeout group s
  | .connectorOpen group => Sys2Proof.Machine.execConnectorOpen group s
  | .connectorClose group => Sys2Proof.Machine.execConnectorClose group s
  | .connectorDebounce group => Sys2Proof.Machine.execConnectorDebounce group s
  | .lnkGroupEnableClear fn group value => Sys2Proof.Machine.execLnkGroupEnableClear fn group value s
  | .lnkGroupEnableSet fn group value => Sys2Proof.Machine.execLnkGroupEnableSet fn group value s
  | .lnkGroupRetrain fn group value => Sys2Proof.Machine.execLnkGroupRetrain fn group value s
  | .lpiEnableWrite fn group value => Sys2Proof.Machine.execLpiEnableWrite fn group value s
  | .lnkLinkDisable fn group link => Sys2Proof.Machine.execLnkLinkDisable fn group link s
  | .lnkLinkEnable fn group link => Sys2Proof.Machine.execLnkLinkEnable fn group link s
  | .lnkLinkRetrain fn group link value => Sys2Proof.Machine.execLnkLinkRetrain fn group link value s
  | .txThresholdRestore fn group value => Sys2Proof.Machine.execTxThresholdRestore fn group value s
  | .xltCommit fn => Sys2Proof.Machine.execXltCommit fn s
  | .qpeCommit fn => Sys2Proof.Machine.execQpeCommit fn s
  | .rtrCommit fn => Sys2Proof.Machine.execRtrCommit fn s
  | .colCommit fn => Sys2Proof.Machine.execColCommit fn s
  | .trnCommit fn die => Sys2Proof.Machine.execTrnCommit fn die s
  | .plcCommit fn => Sys2Proof.Machine.execPlcCommit fn s
  | .schCommit fn => Sys2Proof.Machine.execSchCommit fn s
  | .lnkCommit fn group => Sys2Proof.Machine.execLnkCommit fn group s
  | .vrtCommit fn => Sys2Proof.Machine.execVrtCommit fn s
  | .hifCommit fn => Sys2Proof.Machine.execHifCommit fn s
  | .pwrCommit fn => Sys2Proof.Machine.execPwrCommit fn s
  | .memCommit fn => Sys2Proof.Machine.execMemCommit fn s
  | .dbgCommit fn => Sys2Proof.Machine.execDbgCommit fn s
  | .xltInvalAll fn => Sys2Proof.Machine.execXltInvalAll fn s
  | .xltInvalInstance fn inst => Sys2Proof.Machine.execXltInvalInstance fn inst s
  | .tableWalkDone walk => Sys2Proof.Machine.execTableWalkDone walk s
  | .translationDrainDone inst => Sys2Proof.Machine.execTranslationDrainDone inst s
  | .rtrClearWatermarks fn => Sys2Proof.Machine.execRtrClearWatermarks fn s
  | .qpcStoreWrite fn size value => Sys2Proof.Machine.execQpcStoreWrite fn size value s
  | .synBarParticipantsWrite fn group value => Sys2Proof.Machine.execSynBarParticipantsWrite fn group value s
  | .vrtHoldWrite fn value => Sys2Proof.Machine.execVrtHoldWrite fn value s
  | .restoreApply fn value => Sys2Proof.Machine.execRestoreApply fn value s
  | .schHallTimeLatchRead fn => Sys2Proof.Machine.execSchHallTimeLatchRead fn s
  | .memInjectArm fn value => Sys2Proof.Machine.execMemInjectArm fn value s
  | .secEngineSelfTest fn value passed => Sys2Proof.Machine.execSecEngineSelfTest fn value passed s
  | .elsClearLatch fn value => Sys2Proof.Machine.execElsClearLatch fn value s
  | .elsDisableWrite fn value => Sys2Proof.Machine.execElsDisableWrite fn value s
  | .hifWinBaseWrite fn value => Sys2Proof.Machine.execHifWinBaseWrite fn value s
  | .registerWrite fn offset lanes value => Sys2Proof.Machine.execRegisterWrite fn offset lanes value s
  | .windowAccess fn write offset len lanes data => Sys2Proof.Machine.execWindowAccess fn write offset len lanes data s
  | .inboundRequestRefused fn rid bar offset bytes write => Sys2Proof.Machine.execInboundRequestRefused fn rid bar offset bytes write s
  | .firstConfigWrite port rid => Sys2Proof.Machine.execFirstConfigWrite port rid s
  | .busMasterEnableClear fn => Sys2Proof.Machine.execBusMasterEnableClear fn s
  | .busMasterEnableSet fn => Sys2Proof.Machine.execBusMasterEnableSet fn s
  | .d3hotEntry fn => Sys2Proof.Machine.execD3hotEntry fn s
  | .msixUnmask fn vector enable mask => Sys2Proof.Machine.execMsixUnmask fn vector enable mask s
  | .functionLevelResetVf fn => Sys2Proof.Machine.execFunctionLevelResetVf fn s
  | .functionLevelResetPf port => Sys2Proof.Machine.execFunctionLevelResetPf port s
  | .vfDisable port => Sys2Proof.Machine.execVfDisable port s
  | .portLinkLoss port burn => Sys2Proof.Machine.execPortLinkLoss port burn s
  | .perstAssert port burn => Sys2Proof.Machine.execPerstAssert port burn s
  | .perstRelease port => Sys2Proof.Machine.execPerstRelease port s
  | .powerOnReset deadDies deadStacks engines burn => Sys2Proof.Machine.execPowerOnReset deadDies deadStacks engines burn s
  | .moduleReset loss burn => Sys2Proof.Machine.execModuleReset loss burn s
  | .watchdogExpiry addr => Sys2Proof.Machine.execWatchdogExpiry addr s
  | .codeWrite addr => Sys2Proof.Machine.execCodeWrite addr s
  | .sramUe addr offset => Sys2Proof.Machine.execSramUe addr offset s
  | .cpFault addr => Sys2Proof.Machine.execCpFault addr s
  | .cpRestart burn => Sys2Proof.Machine.execCpRestart burn s
  | .scrubRead word => Sys2Proof.Machine.execScrubRead word s
  | .ceHourRollover stack => Sys2Proof.Machine.execCeHourRollover stack s
  | .entropyStartupPass => Sys2Proof.Machine.execEntropyStartupPass s
  | .entropyHealthFail => Sys2Proof.Machine.execEntropyHealthFail s
  | .drbgReseed generator => Sys2Proof.Machine.execDrbgReseed generator s
  | .estimatorTick counts => Sys2Proof.Machine.execEstimatorTick counts s
  | .calGainUpdate volts amps watts => Sys2Proof.Machine.execCalGainUpdate volts amps watts s
  | .powerHintEffect => Sys2Proof.Machine.execPowerHintEffect s
  | .domainIdleOff domain => Sys2Proof.Machine.execDomainIdleOff domain s
  | .domainWakeStart => Sys2Proof.Machine.execDomainWakeStart s
  | .droopDetect die => Sys2Proof.Machine.execDroopDetect die s
  | .droopSkipEnd die => Sys2Proof.Machine.execDroopSkipEnd die s
  | .sensorSample temps => Sys2Proof.Machine.execSensorSample temps s
  | .vpointStepDown die => Sys2Proof.Machine.execVpointStepDown die s
  | .vpointStepUp die => Sys2Proof.Machine.execVpointStepUp die s
  | .oeRepower group => Sys2Proof.Machine.execOeRepower group s
  | .elsPresenceClose bay => Sys2Proof.Machine.execElsPresenceClose bay s
  | .elsRampStart bay => Sys2Proof.Machine.execElsRampStart bay s
  | .elsTrip bay => Sys2Proof.Machine.execElsTrip bay s
  | .elsPresenceOpen bay => Sys2Proof.Machine.execElsPresenceOpen bay s
  | .supplyLow => Sys2Proof.Machine.execSupplyLow s
  | .supplyFault high => Sys2Proof.Machine.execSupplyFault high s
  | .powerUp => Sys2Proof.Machine.execPowerUp s
  | .serviceButtonShort ms => Sys2Proof.Machine.execServiceButtonShort ms s
  | .serviceButtonLong => Sys2Proof.Machine.execServiceButtonLong s
  | .lifeLogHourly ok => Sys2Proof.Machine.execLifeLogHourly ok s
  | .getTid => Sys2Proof.Machine.execGetTid s
  | .getPldmVersion typ => Sys2Proof.Machine.execGetPldmVersion typ s
  | .getPldmTypes => Sys2Proof.Machine.execGetPldmTypes s
  | .getPldmCommands typ => Sys2Proof.Machine.execGetPldmCommands typ s
  | .getPdrRepositoryInfo => Sys2Proof.Machine.execGetPdrRepositoryInfo s
  | .getPdr record => Sys2Proof.Machine.execGetPdr record s
  | .getSensorReading sensor => Sys2Proof.Machine.execGetSensorReading sensor s
  | .getStateEffecterStates effecter => Sys2Proof.Machine.execGetStateEffecterStates effecter s
  | .modulePowerOn => Sys2Proof.Machine.execModulePowerOn s
  | .modulePowerOff => Sys2Proof.Machine.execModulePowerOff s
  | .modulePowerReset burn => Sys2Proof.Machine.execModulePowerReset burn s
  | .locateEffecterSet lit => Sys2Proof.Machine.execLocateEffecterSet lit s
  | .setNumericEffecterValue value => Sys2Proof.Machine.execSetNumericEffecterValue value s
  | .getNumericEffecterValue => Sys2Proof.Machine.execGetNumericEffecterValue s
  | .unsupportedPldmCommand typ cmd => Sys2Proof.Machine.execUnsupportedPldmCommand typ cmd s
  | .requestUpdate => Sys2Proof.Machine.execRequestUpdate s
  | .passComponentTable => Sys2Proof.Machine.execPassComponentTable s
  | .updateComponent => Sys2Proof.Machine.execUpdateComponent s
  | .requestFirmwareData data => Sys2Proof.Machine.execRequestFirmwareData data s
  | .transferComplete => Sys2Proof.Machine.execTransferComplete s
  | .verifyComplete => Sys2Proof.Machine.execVerifyComplete s
  | .applyComplete => Sys2Proof.Machine.execApplyComplete s
  | .activateFirmware deadDies deadStacks engines burn => Sys2Proof.Machine.execActivateFirmware deadDies deadStacks engines burn s
  | .switchedLinkInService group link => Sys2Proof.Machine.execSwitchedLinkInService group link s
  | .elsContactOpen bay => Sys2Proof.Machine.execElsContactOpen bay s
  | .elsRampEnd bay => Sys2Proof.Machine.execElsRampEnd bay s
  | .domainWakeDone domain => Sys2Proof.Machine.execDomainWakeDone domain s
  | .tclkRelockDone die => Sys2Proof.Machine.execTclkRelockDone die s
  | .supplyGood => Sys2Proof.Machine.execSupplyGood s
  | .pcieLinkUp port width rate => Sys2Proof.Machine.execPcieLinkUp port width rate s
  | .vfEnable port count => Sys2Proof.Machine.execVfEnable port count s
  | .d3hotExit fn => Sys2Proof.Machine.execD3hotExit fn s
  | .flashWriteDone ok => Sys2Proof.Machine.execFlashWriteDone ok s

end Sys2Proof.Machine
end

