-- ==== Sys2Proof/Machine/Step.lean ====
section
/-!
DEFINITION. One step of the module: the command at the front of the queue, or one nanosecond of hall time.
-/

namespace Sys2Proof.Machine

/-- One step (logs 1, 4): the front command with the rest of the queue, or, with none waiting, one HTCLK cycle (R37), after which what has waited for a
token bucket may go (R371). -/
def step (s : State) : Host.Outcome State Fault Refusal :=
  match s.pending with
  | [] => passTime s
  | c :: cs => exec c { s with pending := cs }

/-- The state with the command that a word spells put in front of the queue. The opcode table gives no row any bits, so
no word spells a command (log 5). -/
def State.withFetchWord (s : State) (nbits w : Nat) : State :=
  match Sys2Proof.decodeTableWord nbits w with
  | some i => { s with pending := i :: s.pending }
  | none => s

end Sys2Proof.Machine
end

