-- ==== Sys2Proof/Machine/Views.lean ====
section
/-!
DEFINITION. What the registers read: the read-only fields of the register tables as functions of the state (R49 to R54, R132 to R144,
R190 to R200, R237 to R246, R285 to R298, R336, R374 to R394, R434 to R443, R480 to R491, R562 to R566, R589 to R594, R620 to R626,
R649 to R654, R681 to R686, R710 to R715, R741 to R748, R769 to R774, R807 to R812, R821, R832, R833). The command table has no row for
a plain register read; these functions say what such a read returns.
-/

namespace Sys2Proof.Machine

/-- A register value put together from its fields, each (lowest bit, width, value). -/
def pack (fs : List (Nat × Nat × Nat)) : Word := BitVec.ofNat 64 (sumList (fs.map fun f => f.2.2 % 2 ^ f.2.1 * 2 ^ f.1))

/-- A bit for each of the numbers below `n` that satisfy a condition. -/
def maskOf (n : Nat) (p : Nat → Bool) : Nat := sumList ((List.range n).map fun i => if p i then 2 ^ i else 0)

/-- What a read of a function's BAR4 returns, whatever its width: zeros in the lanes that it addresses (R159, R725). -/
def doorbellRead (bytes : Nat) : Bytes := zeros bytes

/-! ## GLB (R49 to R54) -/

/-- GLB_DIE_STATUS (R54): nothing but FABRIC_UP and HOST_UP after a module reset whose load fails (R678, R777). The model takes an optical
engine to be in service while its group's domain is on and any one link of the group is in service or in low-power idle (log 103). -/
def State.viewDieStatus (s : State) : Word :=
  if s.boot.dark then 9 else
  pack [(0, 4, s.boot.dies), (4, 8, maskOf 8 s.stackServes), (12, 8, maskOf 8 fun g => s.domOn (domGroup g) &&
    (List.range 8).any fun j => [.inService, .quiet, .waking].contains (s.link g j).state)]

/-! ## HIF (R741 to R748) -/

def State.viewFnStatus (s : State) (fn : Nat) : Word :=
  let f := s.fn fn
  pack [(31, 1, b2n f.busMaster), (30, 1, b2n f.msixEnable), (29, 1, b2n f.fnMask), (28, 1, b2n f.d3hot), (27, 1, b2n f.held), (16, 9, fn),
    (8, 8, s.instGen fn)]

def State.viewPortInfo (s : State) (p : Nat) : Word :=
  let x := s.port p
  pack [(30, 2, x.link), (25, 5, x.width), (17, 8, x.rate), (16, 1, b2n x.rootRid.isSome), (0, 16, x.losses)]

def State.viewPortRid (s : State) (p : Nat) : Word := s.reg (.HIF_PORT_RID p) ||| pack [(32, 16, ((s.port p).rootRid).getD 0)]

/-! ## ADM (R237 to R246) -/

/-- The code of an admin queue's state (R240). -/
def AdmState.code : AdmState → Nat
  | .disabled => 0
  | .running => 1
  | .stopping => 2
  | .error => 3

def State.viewAdmStatus (s : State) (p : Nat) : Word :=
  let a := s.adm1 p
  pack [(29, 3, a.state.code), (16, 8, a.negotiated), (8, 8, if a.state = .error then a.reason else 0),
    (0, 7, (a.cmds.filter fun e => !e.2.orphan).length + a.held.length)]

/-! ## XLT (R132 to R144) -/

def State.viewXltStatus (s : State) : Word :=
  pack [(8, 9, s.xlt.missQueue.length), (6, 1, b2n !s.xlt.invalWait.isEmpty), (0, 6, s.xlt.walks.length)]

/-- The fault-log entry that `XLT_FAULT_SEL` selects. -/
def State.shownFault (s : State) : Option FaultEntry := SMap.find s.xlt.faults (s.regF .XLT_FAULT_SEL 3 0)

def State.viewFaultInfo (s : State) : Word :=
  match s.shownFault with
  | none => 0
  | some e => pack [(31, 1, 1), (24, 4, e.kind), (16, 8, e.gen), (0, 9, e.inst)]

/-! ## QPE (R190 to R200, R285 to R298) -/

/-- The code of a work queue's state (R197). -/
def WqState.code : WqState → Nat
  | .idle => 0
  | .enabled => 1
  | .draining => 2
  | .error => 3
  | .snuffing => 4

def State.viewWqState (s : State) (n : Nat) : Word :=
  match s.wq n with
  | none => 0
  | some w => pack [(63, 1, 1), (62, 1, b2n w.enable), (59, 3, w.state.code), (48, 8, w.gen),
      (40, 8, if w.state = .error then w.reason else 0), (24, 16, w.cq), (0, 24, w.doorbell)]

def State.viewWqIndex (s : State) (n : Nat) : Word :=
  match s.wq n with
  | none => 0
  | some w => pack [(24, 24, w.fetch), (0, 24, w.head)]

/-- The code of a completion queue's state (R199). -/
def CqState.code : CqState → Nat
  | .active => 0
  | .fullWait => 1
  | .error => 2

def State.viewCqState (s : State) (n : Nat) : Word :=
  match s.cq n with
  | none => 0
  | some c => pack [(63, 1, 1), (62, 1, b2n c.armed), (61, 1, b2n c.armedSol), (59, 2, c.state.code),
      (40, 8, if c.state = .error then c.reason else 0), (0, 9, c.lantern)]

def State.viewCqIndex (s : State) (n : Nat) : Word :=
  match s.cq n with
  | none => 0
  | some c => pack [(24, 24, c.consumer), (0, 24, c.producer)]

def State.viewLqState (s : State) (n : Nat) : Word :=
  match s.lq n with
  | none => 0
  | some l => pack [(63, 1, 1), (62, 1, b2n l.lost), (61, 1, b2n l.error), (48, 8, l.held.length), (40, 8, if l.error then l.reason else 0),
      (0, 24, l.producer)]

/-- `QPE_LQ_CONSUMER` as function `fn` reads it: zero unless it owns the queue (R195, R720). -/
def State.viewLqConsumer (s : State) (fn n : Nat) : Word :=
  match s.lq n with
  | none => 0
  | some l => if l.inst ≠ fn then 0 else pack [(33, 1, b2n l.lost), (32, 1, b2n l.armed), (0, 24, l.consumer)]

def State.viewQpeStatus (s : State) : Word :=
  pack [(16, 16, (s.qpe.qps.filter fun e => e.2.cached).length), (0, 16, (s.qpe.qps.filter fun e => s.pinned e.1).length)]

def State.viewQpInfo (s : State) : Word :=
  let n := s.regF .QPE_QP_SEL 23 0
  match s.qp n with
  | none => 0
  | some q => pack [(31, 1, 1), (28, 3, q.state), (27, 1, b2n q.cached), (26, 1, b2n (q.cached && q.dirty)), (25, 1, b2n (s.pinned n)),
      (24, 1, b2n q.joined),
      (0, 17, (s.qpTxns n).length)]

def State.viewQpcUsed (s : State) (p : Nat) : Word := pack [(0, 23, (s.qpe.qps.filter fun e => portOf e.2.inst == p).length)]

/-! ## RTR (R374 to R394) -/

def State.viewRtrStatus (s : State) : Word :=
  pack [(8, 8, maskOf 8 fun g => s.lnk.paused.any fun e => e.1 / 64 == g && decide (s.now < e.2)),
    (0, 8, maskOf 8 fun g => !(s.liveLinks g).isEmpty)]

def State.viewRingSize (s : State) : Word :=
  let n (i : Nat) : Nat := s.feat.rings.getD i 1
  pack [(24, 6, n 3), (16, 5, n 2), (8, 5, n 1), (0, 5, n 0)]

def State.viewTopo (s : State) : Word :=
  pack [(8, 2, if s.feat.switched = 0 then 0 else if s.feat.switched = 255 then 1 else 2), (0, 8, s.feat.switched)]

/-- An occupancy and a high-water mark in bytes as whole KiB (R394). -/
def depthWord (now high : Nat) : Word := pack [(16, 16, min 0xFFFF ((high + 1023) / 1024)), (0, 16, min 0xFFFF ((now + 1023) / 1024))]

def State.viewQdepth (s : State) (key : Nat) : Word := depthWord (s.queueBytes key) (SMap.getD s.rtr.depth key 0)

/-! ## LNK (R649 to R654) -/

def State.viewGstatus (s : State) (g : Nat) : Word :=
  let x := s.lgroup g
  pack [(31, 1, b2n x.plugged), (30, 1, b2n (s.domOn (domGroup g))), (29, 1, b2n (s.groupLight g)), (27, 2, x.lpi),
    (16, 8, maskOf 8 fun j => (s.link g j).state == .inService), (0, 16, x.wakeUs)]

def State.viewLstatus (s : State) (g j : Nat) : Word :=
  let x := s.link g j
  pack [(28, 4, x.state.code), (24, 4, if x.state = .held then x.held else 0), (16, 8, if x.state.routable then x.version else 0),
    (8, 8, x.reason), (4, 4, x.signal), (3, 1, b2n x.pcs), (2, 1, b2n x.fec)]

def State.viewLpeer (s : State) (g j : Nat) : Word :=
  let x := s.link g j
  if s.switchedGroup g then (if x.state.routable then pack [(63, 1, 1), (62, 1, 1)] else 0)
  else match x.peer with
    | none => 0
    | some y => pack [(63, 1, 1), (40, 12, min 4095 (y.rtt * 5 / 8)), (32, 8, y.versionMax), (20, 3, y.grp), (17, 3, y.lnk), (0, 17, y.mod)]

/-! ## COL (R434 to R443) -/

def State.viewColStatus (s : State) : Word :=
  pack [(16, 9, (s.col.groups.filter fun e => e.2.waiting.isNone).length), (0, 9, (s.col.groups.filter fun e => e.2.coll.isSome).length)]

/-- The group that `COL_GROUP_SEL` selects, if it is defined. -/
def State.shownGroup (s : State) : Option Group := s.definedGroup (s.regF .COL_GROUP_SEL 7 0)

/-- Whether this module is its rack's combiner for a group: the member of the rack nearest in X to the root (R424). -/
def State.isCombiner (s : State) (x : Group) (g : Nat) : Bool :=
  s.combiner (s.newTree tkGroupDefine (x.list.headD s.me) g 0 x.partition) (rackOf s.me) == some s.me

def State.viewGroupInfo (s : State) : Word :=
  match s.shownGroup with
  | none => 0
  | some x => pack [(63, 1, 1), (62, 1, b2n x.box), (61, 1, b2n (x.rank == 0)), (60, 1, b2n (s.isCombiner x (s.regF .COL_GROUP_SEL 7 0))),
      (48, 8, x.weight), (24, 18, x.list.length), (0, 17, x.rank)]

/-! ## TRN (R480 to R491) -/

def State.viewTrnStatus (s : State) (die : Nat) : Word :=
  let es := s.trn.entries.filter fun e => e.1 / 256 == die
  pack [(24, 7, (s.tilesBusy die).length), (9, 9, (es.filter fun e => 4 ≤ e.2.state).length), (0, 9, es.length)]

def State.viewProgInfo (s : State) (die : Nat) : Word :=
  let n := s.regF (.TRN_PROG_SEL die) 9 0
  match s.program n with
  | none => 0
  | some p => pack [(63, 1, 1), (61, 2, imgPriority p.image), (48, 7, 2 ^ imgTilesLog2 p.image), (44, 4, imgOps p.image - 1),
      (40, 3, imgOperands p.image - 1), (24, 16, p.partition),
      (12, 9, (s.trn.entries.filter fun e => e.1 / 256 == die && e.2.program == n).length), (0, 9, p.inst)]

def State.viewProgDigest (s : State) (die : Nat) : Word :=
  BitVec.ofNat 64 (((s.program (s.regF (.TRN_PROG_SEL die) 9 0)).map (·.digest)).getD 0)

def State.viewEntryInfo (s : State) (die : Nat) : Word :=
  match s.entry (entryKey die (s.regF (.TRN_ENTRY_SEL die) 7 0)) with
  | none => 0
  | some e =>
    let remote := match e.by_ with
      | .remote _ _ => true
      | .op _ _ => false
    pack [(63, 1, 1), (60, 3, e.state), (58, 2, e.prio), (57, 1, b2n remote), (32, 16, maskOf 16 e.done.contains), (12, 10, e.program),
      (0, 9, if remote then 0 else e.inst)]

/-! ## PLC (R562 to R566) -/

def State.viewPlcStatus (s : State) : Word :=
  pack [(24, 8, (s.plc.held.filter fun e => e.2.copyTo.isSome).length), (16, 8, s.plc.incoming.length), (0, 8, s.plc.shoots.length)]

def State.viewThatchInfo (s : State) : Word :=
  match s.page (s.regF .PLC_PAGE_SEL 22 0) with
  | none => 0
  | some p =>
    let b := p.stateByte
    pack [(63, 1, 1), (61, 2, b), (60, 1, b2n p.pinned), (59, 1, b2n p.collapsing), (58, 1, b2n p.readOnly), (57, 1, b2n p.poisoned),
      (56, 1, b2n p.pinWait), (52, 4, p.replicas.length), (35, 17, if p.state = .moving then p.target else 0), (17, 17, p.writer),
      (0, 16, p.partition)]

def State.viewHeatInfo (s : State) : Word :=
  match s.heldPage (s.me * 2 ^ 23 + s.regF .PLC_PAGE_SEL 22 0) with
  | none => 0
  | some h => pack [(32, 32, h.heat.reads), (0, 32, h.heat.writes)]

def State.viewReserveInfo (s : State) : Word :=
  let p := s.regF .PLC_RESERVE_SEL 15 0
  pack [(32, 32, s.reserveOf p), (0, 32, s.reserveUsed p)]

def State.viewOperandHeat (s : State) : Word :=
  let n := s.regF .PLC_PROG_SEL 9 0
  if (s.program n).isNone then 0 else pack [(0, 32, SMap.getD s.plc.heat (8 * n + s.regF .PLC_PROG_SEL 12 10) 0)]

/-! ## SYN and mailboxes (R589 to R594) -/

/-- Whether a waiter of a wick queue is a CONSUME. -/
def WaiterKind.isConsume : WaiterKind → Bool
  | .consume _ _ => true
  | .program _ _ => false

def State.viewSynStatus (s : State) : Word :=
  pack [(16, 13, s.syn.wicks.length), (0, 13, sumList (s.syn.wicks.map fun e => (e.2.waiters.filter fun w => w.kind.isConsume).length))]

/-- The wick queue that `SYN_WICK_SEL` selects. -/
def State.shownWick (s : State) : Option Wick := s.wick (s.regF .SYN_WICK_SEL 11 0)

/-- The value of one of the wick registers, 0 for a queue that does not exist (R591). -/
def State.wickView (s : State) (f : Wick → Word) : Word := (s.shownWick.map f).getD 0

def State.viewWickInfo (s : State) : Word :=
  s.wickView fun w => pack [(63, 1, 1), (62, 1, b2n w.realign), (61, 1, b2n w.drift), (60, 1, b2n w.overflow), (48, 9, w.inst), (32, 16, w.partition),
    (0, 24, w.count)]

def State.viewBarInfo (s : State) : Word :=
  match s.bar (s.regF .SYN_BAR_SEL 7 0) with
  | none => 0
  | some b => pack [(63, 1, 1), (62, 1, b2n b.vacant), (61, 1, b2n b.periodic), (60, 1, b2n b.sent), (48, 9, b.inst), (32, 16, b.arrived),
      (0, 32, b.instance_)]

/-- A mailbox register of function `fn` facing its parent (`dir` 0) or its selected child (1), 0 without such a side (R593). -/
def State.mbxView (s : State) (fn dir : Nat) (f : Nat → Word) : Word := ((s.mbxChild fn dir).map f).getD 0

/-- The message that waits for a function; what the register holds once it has been read is what was read (R586). -/
def State.viewMbxRx (s : State) (fn dir : Nat) : Word := s.mbxView fn dir fun c => BitVec.ofNat 64 (s.mbx c (dir == 0)).message

def State.viewMbxRxInfo (s : State) (fn dir : Nat) : Word :=
  s.mbxView fn dir fun c =>
    let x := s.mbx c (dir == 0)
    pack [(31, 1, b2n x.full), (8, 16, x.tag), (0, 8, x.gen)]

def State.viewMbxTxCtrl (s : State) (fn dir : Nat) : Word :=
  s.mbxView fn dir fun c =>
    s.regOf fn (if dir = 0 then .VRT_MBX_UP_TX_CTRL else .VRT_MBX_DOWN_TX_CTRL) ||| pack [(31, 1, b2n (s.mbx c (dir == 1)).full)]

def State.viewMbxDownSel (s : State) (fn : Nat) : Word :=
  if !isPf fn then 0 else
  let n := fld (s.regOf fn .VRT_MBX_DOWN_SEL) 8 0
  pack [(16, 8, if isPf fn ∧ parentOf n = some fn then s.instGen n else 0), (0, 9, n)]

def State.viewMbxPending (s : State) (fn k : Nat) : Word :=
  pack [(0, 32, maskOf 32 fun i => parentOf (32 * k + i) == some fn && (s.mbx (32 * k + i) false).full)]

/-! ## SCH (R620 to R626) -/

def State.viewSchStatus (s : State) : Word :=
  pack [(16, 8, maskOf 8 fun g => (s.gates g).pending.isSome), (8, 8, maskOf 8 fun g => (s.gates g).active.isSome), (0, 5, s.sch.cadences.length)]

def State.viewTimeStatus (s : State) : Word :=
  let p := s.sch.parent.getD 0
  pack [(30, 2, s.sch.tstate), (29, 1, b2n (s.sch.master == some s.me)), (28, 1, b2n s.sch.todValid), (16, 8, s.sch.steps), (4, 3, p / 8), (0, 3, p % 8)]

/-- A signed number as a field of 32 bits. -/
def int32 (t : Int) : Nat := (t % 4294967296).toNat

/-- The cadence in the slot that `SCH_CADENCE_SEL` selects, with its partition. -/
def State.shownCadence (s : State) : Option (Nat × Cadence) := s.sch.cadences.find? fun e => e.2.slot == s.regF .SCH_CADENCE_SEL 3 0

/-- The next boundary of a cadence after a hall time: START of a replacement, where that is earlier (R601, R605). -/
def Cadence.nextAt (c : Cadence) (t : Nat) : Nat :=
  let c := (c.replace t).1
  let n := if t < c.start then c.start else c.start + ((t - c.start) / c.period + 1) * c.period
  match c.next with
  | some (start, _) => min n start
  | none => n

def State.cadView (s : State) (f : Nat × Cadence → Word) : Word := (s.shownCadence.map f).getD 0

def State.viewGateStatus (s : State) (g : Nat) : Word :=
  let x := s.gates g
  match x.active with
  | none => pack [(31, 1, b2n x.pending.isSome), (30, 1, 1), (0, 8, 0xFF)]
  | some l =>
    let i := (l.at_ s.hallTime).1
    let e := l.entries.getD i default
    pack [(31, 1, b2n x.pending.isSome), (19, 11, l.entries.length), (9, 10, i), (8, 1, b2n e.guard), (0, 8, e.opens)]

def State.viewSample (s : State) (key : Nat) : Word :=
  let x := s.sample key
  pack [(48, 16, min 0xFFFF x.meanDepth), (24, 24, min 0xFFFFFF x.maxSojourn), (0, 24, min 0xFFFFFF x.meanSojourn)]

/-! ## SEC (R681 to R686) -/

def State.viewSecStatus (s : State) : Word :=
  pack [(30, 2, s.sec.entropy), (29, 1, s.boot.bank), (27, 2, s.boot.fwKey), (25, 2, s.boot.state), (0, 16, s.sec.engines)]

def State.viewKeyInfo (s : State) : Word :=
  let n := s.regF .SEC_KEY_SEL 13 0
  match SMap.find s.sec.keys n with
  | none => 0
  | some k => pack [(63, 1, 1), (62, 1, b2n k.poisoned),
      (32, 16, min 65535 (s.qpe.qps.filter fun e => e.2.forerunner && e.2.keySlot == n).length), (0, 9, k.inst)]

def State.viewFwInfo (s : State) : Word :=
  pack [(16, 16, s.boot.fwBuild), (15, 1, b2n s.boot.burnFailed), (8, 6, s.boot.fwSvn), (0, 6, s.boot.fuseSvn)]

/-! ## VRT (R710 to R715) -/

/-- The code of an instance's state (R697). -/
def InstState.code : InstState → Nat
  | .active => 1
  | .resetting => 2
  | .destroying => 3

def State.viewVrtStatus (s : State) : Word :=
  pack [(16, 10, s.vrt.insts.length), (0, 10, (s.vrt.insts.filter fun e => e.2.hold).length)]

/-- How many operations of a work queue wait to begin: those that wait on a wick token, a barrier or a gate, and those that one of them holds
(R181, R273, R705). `held` says that one of them stands earlier. -/
def waitsToBegin (held : Bool) : List Op → Nat
  | [] => 0
  | o :: os =>
    if o.phase == .waiting then 1 + waitsToBegin true os
    else b2n (held && o.phase == .ready) + waitsToBegin held os

/-- How many descriptors from index `i` to the fetch index count as fetched though they are not judged (R162): those whose last unit a read
that has been issued carries; units whose descriptor has not come count as one. -/
def unjudged (w : Wq) : Nat → Nat → Nat
  | 0, _ => 0
  | fuel + 1, i =>
    let left := distance i w.fetch
    if left = 0 then 0
    else match SMap.find w.units i with
      | none => 1
      | some d => if dLen d = 0 then 1 else if left < dLen d then 0 else 1 + unjudged w fuel (advance i (dLen d))

/-- The descriptors of a work queue that are fetched and not judged. -/
def Wq.unjudged (w : Wq) : Nat := Sys2Proof.Machine.unjudged w 64 w.judged

def State.instInfo (s : State) (n : Nat) (i : Inst) : Word :=
  let ws := (s.q.wqs.filter fun e => e.2.inst == n).map (·.2)
  let fetched := sumList (ws.map fun w => w.ops.length + w.unjudged)
  let waits := sumList (ws.map fun w => waitsToBegin false w.ops)
  pack [(63, 1, 1), (61, 2, i.state.code), (60, 1, b2n i.hold), (59, 1, b2n (waits == fetched)), (32, 16, i.share), (24, 8, i.gen),
    (16, 8, min 255 waits), (0, 16, min 65535 fetched)]

/-- The value of a register of the selected instance, 0 for an ABSENT one (R713), or for one of another port than that of the physical
function `fn`, if that is not port 0's (R710). -/
def State.instView (s : State) (fn : Nat) (f : Nat → Inst → Word) : Word :=
  let n := s.regF .VRT_INST_SEL 8 0
  if fn ≠ 0 ∧ portOf n ≠ portOf fn then 0
  else match s.inst n with
    | none => 0
    | some i => f n i

def State.viewPoolUsed (s : State) (n : Nat) : Word :=
  let pages := ((s.q.wqs.filter fun e => e.2.inst == n).map fun e => e.1 / 512).eraseDups
  pack [(48, 8, pages.length), (32, 16, (s.syn.wicks.filter fun e => e.2.inst == n).length), (16, 16, (s.q.lqs.filter fun e => e.2.inst == n).length),
    (0, 16, (s.q.cqs.filter fun e => e.2.inst == n).length)]

def State.viewSkyUsed (s : State) (n : Nat) : Nat := (s.hall.sky.filter fun e => e.2.inst == n && e.2.state != .revoked).length

/-! ## PWR (R769 to R774) -/

def State.viewPwrStatus (s : State) : Word :=
  let p := s.pwr
  pack [(30, 2, b2n p.low), (29, 1, b2n (p.bubbles != 0)), (28, 1, b2n (p.tallowW != 0)), (27, 1, b2n p.unmet), (26, 1, b2n p.keepWarm),
    (0, 7, p.hints.length)]

def State.viewPwrPower (s : State) : Word :=
  pack [(48, 16, s.pwr.measured), (32, 16, s.pwr.pEst), (16, 16, s.pwr.pWin), (0, 7, s.pwr.bubbles)]

def State.viewDomainOn (s : State) : Word :=
  pack [(8, 8, maskOf 8 fun g => s.domOn (64 + g)), (4, 4, maskOf 4 fun p => s.domOn (72 + p)), (2, 2, maskOf 2 fun c => s.domOn (78 + c)),
    (0, 2, maskOf 2 fun c => s.domOn (76 + c))]

/-- The frequency of a voltage-table point in MHz (R763). -/
def pointMhz (pt : Nat) : Nat := [1200, 1100, 1000, 900, 800, 700, 600, 400].getD pt 0

def State.viewVpoint (s : State) : Word :=
  let mhz (die : Nat) : Nat := if bit s.boot.dies (1 + die) then pointMhz (s.point die) else 0
  pack [(28, 4, s.point 1), (16, 12, mhz 1), (12, 4, s.point 0), (0, 12, mhz 0)]

def State.viewThermInfo (s : State) : Word :=
  let i := s.regF .PWR_THERM_SEL 6 0
  if 68 ≤ i then 0
  else
    let x := SMap.getD s.pwr.sensors i default
    pack [(48, 16, int16 x.temp), (32, 16, int16 x.max), (16, 16, int16 (s.threshold i 2)), (14, 2, x.level)]

def State.viewElsStatus (s : State) : Word :=
  let bay (b : Nat) : Nat :=
    let x := s.bay b
    128 * b2n x.present + 64 * b2n x.powered + 32 * b2n x.latched + 16 * b2n x.limiting
  pack [(8, 8, bay 1), (0, 8, bay 0)]

/-! ## MEM (R807 to R812) -/

def State.viewMemStatus (s : State) : Word :=
  pack [(16, 8, maskOf 8 s.stackServes), (8, 8, s.hbm.scrubbing),
    (0, 8, maskOf 8 fun st => decide (2 ≤ (SMap.getD s.pwr.sensors (42 + st) default).level))]

def State.viewStackInfo (s : State) : Word :=
  let st := s.regF .MEM_STACK_SEL 2 0
  let up := s.stackServes st
  pack [(62, 2, SMap.getD s.hbm.stackUp st 0), (61, 1, bits s.hbm.refresh2x st st), (32, 16, if up then framesPerStack - s.stackFree st else 0),
    (0, 32, if up then SMap.getD s.hbm.ceLast st 0 else 0)]

/-- The error-log entry that `MEM_ELOG_SEL` selects: its time and its record (R811). -/
def State.shownElog (s : State) : Nat × Nat := SMap.getD s.hbm.elog (s.regF .MEM_ELOG_SEL 5 0) (0, 0)

/-! ## DBG and the lamps (R821, R832, R833) -/

/-- The place of the first condition of a lamp's table that holds, counted from 1. -/
def firstTrue (l : List Bool) : Nat := (l.findIdx? id).map (· + 1) |>.getD l.length

def State.moduleLamp (s : State) : Nat :=
  firstTrue [s.pwr.off, s.boot.state == 2 || (List.range 8).any fun st => SMap.getD s.hbm.stackUp st 0 == 3,
    s.svc.locate || s.regF .DBG_LAMP_CTL 0 0 == 1,
    s.pwr.low || s.pwr.sensors.any (fun e => decide (2 ≤ e.2.level)) || s.pwr.bays.any (fun e => e.2.latched), !bit s.boot.dies 3, true]

def State.groupLamp (s : State) (g : Nat) : Nat :=
  let links := (List.range 8).map fun j => (s.link g j).state
  firstTrue [bit (s.regF .DBG_LAMP_CTL 8 1) g, !s.domOn (domGroup g) || !(s.lgroup g).plugged, links.any (· == .held), (s.liveLinks g).isEmpty,
    (s.lgroup g).lpi == 2, links.any fun l => !l.routable, true]

def State.elsLamp (s : State) (b : Nat) : Nat :=
  firstTrue [bit (s.regF .DBG_LAMP_CTL 10 9) b, !(s.bay b).present, (s.bay b).latched, s.bayDisabled b, true]

def State.viewLampState (s : State) : Word :=
  if s.pwr.off then 0
  else pack ([(0, 4, s.moduleLamp), (36, 4, s.elsLamp 0), (40, 4, s.elsLamp 1)] ++ (List.range 8).map fun g => (4 + 4 * g, 4, s.groupLamp g))

/-! ## Reads -/

/-- What a register reads whose value follows the state: the register of a name whose copy at offset `x` from its first one is read by
function `fn`; none for one that reads what is stored. -/
def State.view (s : State) (fn : Nat) (name : String) (x : Nat) : Option Word :=
  let p := portOf fn
  match name with
  | "GLB_VARIANT" => some (BitVec.ofNat 64 s.variantByte)
  | "GLB_CAP0" => some (BitVec.ofNat 64 s.cap0)
  | "GLB_DIE_STATUS" => some s.viewDieStatus
  | "HIF_FN_STATUS" => some (s.viewFnStatus fn)
  | "HIF_PORT_INFO" => some (s.viewPortInfo (x / 0x100))
  | "HIF_PORT_RID" => some (s.viewPortRid (x / 0x100))
  | "ADM_STATUS" => some (s.viewAdmStatus p)
  | "ADM_CMD_PRODUCER" => some (BitVec.ofNat 64 (s.adm1 p).producer)
  | "ADM_CMD_FETCH" => some (BitVec.ofNat 64 (s.adm1 p).fetch)
  | "ADM_REPLY_CONSUMER" => some (BitVec.ofNat 64 (s.adm1 p).replyConsumer)
  | "ADM_REPLY_PRODUCER" => some (BitVec.ofNat 64 (s.adm1 p).replyProducer)
  | "ADM_EXPERT_UNLOCKED" => some (BitVec.ofNat 64 (if fn = 0 then s.adm.unlocked else 0))
  | "XLT_STATUS" => some s.viewXltStatus
  | "XLT_FAULT_ADDR" => some (BitVec.ofNat 64 ((s.shownFault.map (·.addr)).getD 0))
  | "XLT_FAULT_INFO" => some s.viewFaultInfo
  | "XLT_FAULT_HEAD" => some (BitVec.ofNat 64 s.xlt.faultNext)
  | "QPE_WQ_STATE" => some (s.viewWqState (x / 8))
  | "QPE_WQ_INDEX" => some (s.viewWqIndex (x / 8))
  | "QPE_CQ_STATE" => some (s.viewCqState (x / 8))
  | "QPE_CQ_INDEX" => some (s.viewCqIndex (x / 8))
  | "QPE_LQ_STATE" => some (s.viewLqState (x / 8))
  | "QPE_LQ_CONSUMER" => some (s.viewLqConsumer fn (x / 8))
  | "QPE_STATUS" => some s.viewQpeStatus
  | "QPE_SCOREBOARD_USED" => some (BitVec.ofNat 64 s.qpe.txns.length)
  | "QPE_QPC_USED" => some (s.viewQpcUsed p)
  | "QPE_QP_INFO" => some s.viewQpInfo
  | "QPE_MODULE_EPOCH" => some (BitVec.ofNat 64 s.qpe.epoch)
  | "QPE_GUTTER_CAUSE_COUNT" => some (BitVec.ofNat 64 (s.selCount (s.regF .QPE_GUTTER_SEL 7 0) .QPE_GUTTER_CAUSE_COUNT))
  | "RTR_STATUS" => some s.viewRtrStatus
  | "RTR_COORD" => some (BitVec.ofNat 64 s.feat.moduleNumber)
  | "RTR_RING_SIZE" => some s.viewRingSize
  | "RTR_TOPO" => some s.viewTopo
  | "RTR_THROTTLE_STATUS" => some (BitVec.ofNat 64 s.rtr.throttle.length)
  | "RTR_CABLE_ERR" => some (BitVec.ofNat 64 s.rtr.cableErr)
  | "RTR_PORT_PKT_COUNT" => some (BitVec.ofNat 64 (s.selCount (s.regF .RTR_PORT_SEL 3 0) .RTR_PORT_PKT_COUNT))
  | "RTR_PORT_BYTE_COUNT" => some (BitVec.ofNat 64 (s.selCount (s.regF .RTR_PORT_SEL 3 0) .RTR_PORT_BYTE_COUNT))
  | "RTR_PORT_STALL_PAUSE_COUNT" =>
    some (BitVec.ofNat 64 (s.selCount (s.regF .RTR_PORT_SEL 3 0) .RTR_PORT_STALL_PAUSE_COUNT))
  | "RTR_PORT_STALL_ARB_COUNT" => some (BitVec.ofNat 64 (s.selCount (s.regF .RTR_PORT_SEL 3 0) .RTR_PORT_STALL_ARB_COUNT))
  | "RTR_PORT_MARK_COUNT" => some (BitVec.ofNat 64 (s.selCount (s.regF .RTR_PORT_SEL 3 0) .RTR_PORT_MARK_COUNT))
  | "RTR_QDEPTH" => some (s.viewQdepth (8 * (x / 32) + x / 4 % 8))
  | "RTR_EJECT_QDEPTH" => some (s.viewQdepth (64 + x / 4))
  | "LNK_GSTATUS" => some (s.viewGstatus (x / 0x20000))
  | "COL_STATUS" => some s.viewColStatus
  | "COL_GROUP_INFO" => some s.viewGroupInfo
  | "COL_GROUP_SEQ" => some (BitVec.ofNat 64 ((s.shownGroup.map (·.seq)).getD 0))
  | "COL_GROUP_CROSSOVER" => some (BitVec.ofNat 64 ((s.shownGroup.map (·.crossover)).getD 0))
  | "PLC_STATUS" => some s.viewPlcStatus
  | "PLC_THATCH_INFO" => some s.viewThatchInfo
  | "PLC_HEAT_INFO" => some s.viewHeatInfo
  | "PLC_RESERVE_INFO" => some s.viewReserveInfo
  | "PLC_OPERAND_HEAT" => some s.viewOperandHeat
  | "SYN_STATUS" => some s.viewSynStatus
  | "SYN_WICK_INFO" => some s.viewWickInfo
  | "SYN_WICK_DEPTH" => some (s.wickView fun w => pack [(48, 16, w.waiters.length), (24, 24, w.pend), (0, 24, w.depth)])
  | "SYN_WICK_CURRENT" => some (s.wickView fun w => pack [(32, 32, w.produced), (0, 32, w.consumed)])
  | "SYN_WICK_LAST" => some (s.wickView fun w => pack [(32, 32, w.lastProduced), (0, 32, w.lastConsumed)])
  | "SYN_WICK_INDEX" => some (s.wickView fun w => BitVec.ofNat 64 w.index)
  | "SYN_BAR_INFO" => some s.viewBarInfo
  | "SYN_BAR_PARTICIPANTS" => some (BitVec.ofNat 64 (((s.bar (x / 4)).map (·.next)).getD 1))
  | "VRT_MBX_UP_RX" => some (s.viewMbxRx fn 0)
  | "VRT_MBX_UP_RX_INFO" => some (s.viewMbxRxInfo fn 0)
  | "VRT_MBX_UP_TX_CTRL" => some (s.viewMbxTxCtrl fn 0)
  | "VRT_MBX_DOWN_RX" => some (s.viewMbxRx fn 1)
  | "VRT_MBX_DOWN_RX_INFO" => some (s.viewMbxRxInfo fn 1)
  | "VRT_MBX_DOWN_TX_CTRL" => some (s.viewMbxTxCtrl fn 1)
  | "VRT_MBX_DOWN_SEL" => some (s.viewMbxDownSel fn)
  | "VRT_MBX_PENDING" => some (s.viewMbxPending fn (x / 4))
  | "SCH_STATUS" => some s.viewSchStatus
  | "SCH_TIME_STATUS" => some s.viewTimeStatus
  | "SCH_TIME_OFFSET" => some (BitVec.ofNat 64 (int32 s.sch.offset))
  | "SCH_TIME_MASTER_INFO" => some (match s.sch.master with | some m => pack [(31, 1, 1), (0, 17, m)] | none => 0)
  | "SCH_HALL_TIME" => some (BitVec.ofNat 64 s.hallTime)
  | "SCH_CADENCE_INFO" => some (s.cadView fun e => pack [(63, 1, 1), (62, 1, b2n e.2.next.isSome), (32, 16, e.1), (0, 32, e.2.period)])
  | "SCH_CADENCE_START" => some (s.cadView fun e => BitVec.ofNat 64 e.2.start)
  | "SCH_CADENCE_NEXT" => some (s.cadView fun e => BitVec.ofNat 64 (e.2.nextAt s.hallTime))
  | "SEC_CAP" => some (if s.variant = .noCipher then 0 else 0x10101010)
  | "SEC_STATUS" => some s.viewSecStatus
  | "SEC_KEY_STATUS" => some (BitVec.ofNat 64 s.sec.keys.length)
  | "SEC_KEY_INFO" => some s.viewKeyInfo
  | "SEC_FW_INFO" => some s.viewFwInfo
  | "SEC_FW_DIGEST" => some (BitVec.ofNat 64 (leAt s.boot.digest x 8))
  | "VRT_STATUS" => some s.viewVrtStatus
  | "VRT_INST_INFO" => some (s.instView fn s.instInfo)
  | "VRT_INST_CTRL" => some (s.instView fn fun _ i => BitVec.ofNat 64 (b2n i.hold))
  | "VRT_INST_HBM_BASE" => some (s.instView fn fun _ i => BitVec.ofNat 64 i.hbmBase)
  | "VRT_INST_HBM" => some (s.instView fn fun _ i => pack [(32, 32, i.frames.length), (0, 32, i.tables.length)])
  | "VRT_INST_QP" =>
    some (s.instView fn fun n i => pack [(32, 32, i.qpQuota), (0, 32, (s.qpe.qps.filter fun e => e.2.inst == n).length)])
  | "VRT_INST_SKYLIGHT" => some (s.instView fn fun n i => pack [(32, 32, i.skyQuota), (0, 32, s.viewSkyUsed n)])
  | "VRT_INST_POOL_LIMIT" =>
    some (s.instView fn fun _ i => pack [(48, 8, i.dbPages.length), (32, 16, i.wickPool), (16, 16, i.lqPool), (0, 16, i.cqPool)])
  | "VRT_INST_POOL_USED" => some (s.instView fn fun n _ => s.viewPoolUsed n)
  | "VRT_INST_ISSUE_COUNT" => some (s.instView fn fun _ i => BitVec.ofNat 64 (i.issued % 2 ^ 40))
  | "PWR_STATUS" => some s.viewPwrStatus
  | "PWR_POWER" => some s.viewPwrPower
  | "PWR_SUPPLY" => some (pack [(16, 16, s.pwr.volts), (0, 16, s.pwr.amps)])
  | "PWR_CAL_GAIN" => some (BitVec.ofNat 64 s.pwr.gain)
  | "PWR_TILE_ON" => some (BitVec.ofNat 64 (maskOf 64 s.domOn))
  | "PWR_DOMAIN_ON" => some s.viewDomainOn
  | "PWR_VPOINT" => some s.viewVpoint
  | "PWR_THERM_INFO" => some s.viewThermInfo
  | "PWR_ELS_STATUS" => some s.viewElsStatus
  | "MEM_STATUS" => some s.viewMemStatus
  | "MEM_STACK_INFO" => some s.viewStackInfo
  | "MEM_ELOG_HEAD" => some (pack [(31, 1, b2n s.hbm.elogWrapped), (0, 6, s.hbm.elogNext)])
  | "MEM_ELOG_TIME" => some (BitVec.ofNat 64 s.shownElog.1)
  | "MEM_ELOG_ENTRY" => some (BitVec.ofNat 64 s.shownElog.2)
  | "DBG_STATUS" => some (pack [(31, 1, b2n (s.hasCap capDebugOpen))])
  | "DBG_LAMP_STATE" => some s.viewLampState
  | "LNK_LSTATUS" => some (s.viewLstatus (x / 0x20000) (x % 0x20000 / 32))
  | "LNK_LPEER" => some (s.viewLpeer (x / 0x20000) (x % 0x20000 / 32))
  | "TRN_STATUS" => some (s.viewTrnStatus (x / 0x100000))
  | "TRN_PROG_INFO" => some (s.viewProgInfo (x / 0x100000))
  | "TRN_PROG_DIGEST" => some (s.viewProgDigest (x / 0x100000))
  | "TRN_ENTRY_INFO" => some (s.viewEntryInfo (x / 0x100000))
  | "SCH_GATE_STATUS" => some (s.viewGateStatus (x / 256))
  | "SCH_GATE_BASE" => some (BitVec.ofNat 64 (((s.gates (x / 256)).active.map (·.base)).getD 0))
  | "SCH_GATE_PENDING_TIME" => some (BitVec.ofNat 64 (((s.gates (x / 256)).pending.map (·.base)).getD 0))
  | "SCH_QSAMPLE" => some (s.viewSample (x / 256 * 8 + x % 256 / 8))
  | "SCH_EJECT_QSAMPLE" => some (s.viewSample (64 + x / 8))
  | _ => none

/-- Whether boot has failed with the host die up: every physical function then reads GLB and SEC (R678, R717). -/
def State.bootFailed (s : State) : Bool := bit s.boot.dies 3 && !s.boot.loaded

/-- What an aligned read of 4 or 8 bytes by a function returns, at an offset of its own BAR0: the register there, or 0 (R13, R717, R719, R720).
The selecting reads and clearing reads that some chapters describe have no row in the command table; this is the value alone. -/
def State.readReg (s : State) (fn off size : Nat) : Word :=
  match if isPf fn then some off else vfOffset off with
  | none => 0
  | some o =>
    if !s.barAnswers o || (fn != 0 && managerOnly o && !(isPf fn && s.bootFailed && decide (o / 0x400000 = 11))) then 0
    else match findReg o with
      | none => 0
      | some (r, a) =>
        if s.mbxGone fn r.name then 0 else
        let stored := SMap.getD s.regs.shadow (r.copy fn a) r.reg.reset
        let v := if r.name == "SCH_HALL_TIME" && size == 4 && o != a then
            BitVec.ofNat 64 ((SMap.getD s.sch.latch fn (s.hallTime / 2 ^ 32)) * 2 ^ 32)
          else ((s.view fn r.name (a - r.reg.addr)).getD stored) &&& ~~~r.wo
        BitVec.ofNat 64 (v.toNat / 2 ^ (8 * (o - a)) % 2 ^ (8 * size))

end Sys2Proof.Machine
end

