-- ==== Sys2Proof/WellFormed.lean ====
section
/-!
DEFINITION. Which commands can reach the module: every operand within the range that the spec gives it (four ports, 512 functions and
instances, eight link groups of eight links, 65,536 work queues, 24-bit queue pair numbers, and so on). The meanings are total, and no
meaning relies on these ranges.
-/

namespace Sys2Proof

open Sys2Proof.Machine (Pkt)

/-- Whether every field of a packet fits its place in the header (R304). -/
def Machine.Pkt.wf (p : Pkt) : Bool :=
  decide (p.version < 256) && decide (p.typ < 256) && decide (p.form < 2) && decide (p.tc < 8) && decide (p.ecn < 4) && decide (p.route < 256) &&
  decide (p.hops < 256) && decide (p.partition < 65536) && decide (p.src < 131072) && decide (p.dst < 131072) && decide (p.stream < 131072) &&
  decide (p.srcInstGen < 256) && decide (p.srcEpoch < 2 ^ 32) && decide (p.dstEpoch < 2 ^ 32) && decide (p.srcQpn < 2 ^ 24) &&
  decide (p.dstQpn < 2 ^ 24) && decide (p.psn < 2 ^ 24) && decide (p.srcQueueGen < 256) && decide (p.confPsn < 2 ^ 24) &&
  decide (p.status < 256) && decide (p.reason < 256) && decide (p.crypt < 256) && decide (p.txn < 65536) && decide (p.length < 65536) &&
  decide (p.key < 2 ^ 32) && decide (p.remote < 2 ^ 64)

/-- Whether every operand of a command is within its range. -/
def Instr.wf : Instr → Bool
  | .admCmdProducerWrite port value => decide (port < 4) && decide (value < 2 ^ 64)
  | .adminCommandFetch port => decide (port < 4)
  | .admCtrlEnableSet port value => decide (port < 4) && decide (value < 2 ^ 64)
  | .admCtrlEnableClear port value => decide (port < 4) && decide (value < 2 ^ 64)
  | .admReplyConsumerWrite port value => decide (port < 4) && decide (value < 2 ^ 64)
  | .unlistedAdminOpcode port _ => decide (port < 4)
  | .identify port _ => decide (port < 4)
  | .negotiateVersion port _ => decide (port < 4)
  | .getFeature port _ => decide (port < 4)
  | .setFeature port _ => decide (port < 4)
  | .expertUnlock port _ => decide (port < 4)
  | .expertLock port _ => decide (port < 4)
  | .createWorkQueue port _ => decide (port < 4)
  | .destroyWorkQueue port _ => decide (port < 4)
  | .createCompletionQueue port _ => decide (port < 4)
  | .destroyCompletionQueue port _ => decide (port < 4)
  | .createEventQueue port _ => decide (port < 4)
  | .destroyEventQueue port _ => decide (port < 4)
  | .quiesce port _ => decide (port < 4)
  | .resume port _ => decide (port < 4)
  | .quiesceWaitLimit port _ => decide (port < 4)
  | .snuffQueue port _ => decide (port < 4)
  | .createQp port _ => decide (port < 4)
  | .modifyQp port _ => decide (port < 4)
  | .queryQp port _ => decide (port < 4)
  | .destroyQp port _ => decide (port < 4)
  | .openSkylight port _ => decide (port < 4)
  | .revokeSkylight port _ => decide (port < 4)
  | .querySkylight port _ => decide (port < 4)
  | .mapPages port _ => decide (port < 4)
  | .unmapPages port _ => decide (port < 4)
  | .dirtyLogEnable port _ => decide (port < 4)
  | .dirtyLogSwitch port _ => decide (port < 4)
  | .dirtyLogDisable port _ => decide (port < 4)
  | .defineGroup port _ => decide (port < 4)
  | .releaseGroup port _ => decide (port < 4)
  | .setCollectivePolicy port _ => decide (port < 4)
  | .loadTransitProgram port _ => decide (port < 4)
  | .unloadTransitProgram port _ => decide (port < 4)
  | .allocateHallPages port _ => decide (port < 4)
  | .freeHallPages port _ => decide (port < 4)
  | .pinPages port _ => decide (port < 4)
  | .unpinPages port _ => decide (port < 4)
  | .pinProgram port _ => decide (port < 4)
  | .unpinProgram port _ => decide (port < 4)
  | .setPlacementPolicy port _ => decide (port < 4)
  | .createWickQueue port _ => decide (port < 4)
  | .destroyWickQueue port _ => decide (port < 4)
  | .defineBarrier port _ => decide (port < 4)
  | .setGateList port _ => decide (port < 4)
  | .setClassQuanta port _ => decide (port < 4)
  | .setCadence port _ => decide (port < 4)
  | .loadKey port _ => decide (port < 4)
  | .destroyKey port _ => decide (port < 4)
  | .createInstance port _ => decide (port < 4)
  | .destroyInstance port _ => decide (port < 4)
  | .resetInstance port _ => decide (port < 4)
  | .generationQuarantineEnd inst => decide (inst < 512)
  | .setInstanceShare port _ => decide (port < 4)
  | .powerHintCommand port _ => decide (port < 4)
  | .setPowerCap port _ => decide (port < 4)
  | .readLifeLog port _ => decide (port < 4)
  | .calRead port _ => decide (port < 4)
  | .calWrite port _ => decide (port < 4)
  | .setDebugMux port _ => decide (port < 4)
  | .firmwareStage port _ => decide (port < 4)
  | .firmwareActivateNextPowerOn port _ => decide (port < 4)
  | .firmwareActivateNow port _ => decide (port < 4)
  | .jobDomainCreate port _ => decide (port < 4)
  | .jobDomainFault port _ => decide (port < 4)
  | .snapshot port _ => decide (port < 4)
  | .wqDoorbell fn wq value => decide (fn < 512) && decide (wq < 65536) && decide (value < 2 ^ 64)
  | .doorbellHighDwordWrite fn (wq, lanes) => decide (fn < 512) && decide (wq < 65536) && decide (lanes < 256) && lanes != 0 && lanes != 15 && lanes != 255
  | .cqConsumerUpdate fn wq value => decide (fn < 512) && decide (wq < 65536) && decide (value < 2 ^ 64)
  | .cqArm fn wq value => decide (fn < 512) && decide (wq < 65536) && decide (value < 2 ^ 64)
  | .cqArmSolicited fn wq value => decide (fn < 512) && decide (wq < 65536) && decide (value < 2 ^ 64)
  | .cqFullWaitExpiry cq => decide (cq < 65536)
  | .descriptorFetch wq => decide (wq < 65536)
  | .descriptorArrival wq => decide (wq < 65536)
  | .lqConsumerWrite fn lq index => decide (fn < 512) && decide (lq < 512) && decide (index < 2 ^ 32)
  | .lqArm fn lq => decide (fn < 512) && decide (lq < 512)
  | .lqLostClear fn lq => decide (fn < 512) && decide (lq < 512)
  | .wqEnableClear fn (wq, size) => decide (fn < 512) && decide (wq < 65536) && (size == 4 || size == 8)
  | .wqEnableSet fn (wq, size) => decide (fn < 512) && decide (wq < 65536) && (size == 4 || size == 8)
  | .nop wq _ => decide (wq < 65536)
  | .read wq _ => decide (wq < 65536)
  | .write wq _ => decide (wq < 65536)
  | .writeNotify wq _ => decide (wq < 65536)
  | .atomicFadd wq _ => decide (wq < 65536)
  | .atomicCas wq _ => decide (wq < 65536)
  | .fence wq _ => decide (wq < 65536)
  | .tokenProduce wq _ => decide (wq < 65536)
  | .tokenConsume wq _ => decide (wq < 65536)
  | .tokenBarrier wq _ => decide (wq < 65536)
  | .tokenCadence wq _ => decide (wq < 65536)
  | .tokenWaitTimeout wq _ => decide (wq < 65536)
  | .chain wq _ => decide (wq < 65536)
  | .chainListArrival wq _ => decide (wq < 65536)
  | .powerHintDescriptor wq _ => decide (wq < 65536)
  | .allReduce wq _ => decide (wq < 65536)
  | .reduce wq _ => decide (wq < 65536)
  | .reduceScatter wq _ => decide (wq < 65536)
  | .allGather wq _ => decide (wq < 65536)
  | .broadcast wq _ => decide (wq < 65536)
  | .allToAll wq _ => decide (wq < 65536)
  | .transit wq _ => decide (wq < 65536)
  | .messageIssue wq _ msg => decide (wq < 65536) && decide (msg < 2 ^ 32)
  | .contextFillReturn qpn _ => decide (qpn < 2 ^ 24)
  | .hostReadCompletion port tag status _ => decide (port < 4) && decide (tag < 16384) && decide (status < 3)
  | .completionTimeout port tag => decide (port < 4) && decide (tag < 16384)
  | .writeReq pkt => pkt.wf
  | .readReq pkt => pkt.wf
  | .atomicReq pkt => pkt.wf
  | .tokenReq pkt => pkt.wf
  | .forwardedRequest pkt => pkt.wf
  | .ack pkt => pkt.wf
  | .readResp pkt => pkt.wf
  | .atomicResp pkt => pkt.wf
  | .epochProbe pkt => pkt.wf
  | .epochNotice pkt => pkt.wf
  | .epochProbeTimeout module => decide (module < 131072)
  | .epochTableAging module => decide (module < 131072)
  | .congestion pkt => pkt.wf
  | .unknownTypePacket pkt => pkt.wf
  | .retransmitTimeout txn => decide (txn < 65536)
  | .retryLimitTimeout txn => decide (txn < 65536)
  | .ackDelayExpiry conn _ => decide (conn < 2)
  | .throttleTick => true
  | .collData pkt => pkt.wf
  | .groupSetup pkt => pkt.wf
  | .treeUp pkt => pkt.wf
  | .treeDown pkt => pkt.wf
  | .revokeDrainDone kind root tree => decide (kind < 256) && decide (root < 131072) && decide (tree < 65536)
  | .snapshotDrainDone partition => decide (partition < 65536)
  | .treeUpRetry kind root tree seq => decide (kind < 256) && decide (root < 131072) && decide (tree < 65536) && decide (seq < 2 ^ 32)
  | .treeAckTimeout kind root tree seq member => decide (kind < 256) && decide (root < 131072) && decide (tree < 65536) && decide (seq < 2 ^ 32) && decide (member < 131072)
  | .domainSetup pkt => pkt.wf
  | .domainReady pkt => pkt.wf
  | .transitLaunch pkt => pkt.wf
  | .transitCancel pkt => pkt.wf
  | .transitDone pkt => pkt.wf
  | .tileAllocation die => decide (die < 2)
  | .operatorChunkDone die entry op sram tile offset => decide (die < 2) && decide (entry < 256) && decide (op < 16) && decide (sram < 3) && decide (tile < 64) && decide (offset < 2 ^ 40)
  | .transitWaitTimeout die entry => decide (die < 2) && decide (entry < 256)
  | .transitPriorityPromotion die entry => decide (die < 2) && decide (entry < 256)
  | .trnCancelWrite fn die value => decide (fn < 512) && decide (die < 2) && decide (value < 2 ^ 64)
  | .heatDecay => true
  | .placePropose pkt => pkt.wf
  | .moveStart pkt => pkt.wf
  | .moveCopy pkt => pkt.wf
  | .moveDone pkt => pkt.wf
  | .moveEnd pkt => pkt.wf
  | .thatchHint pkt => pkt.wf
  | .collapseNote pkt => pkt.wf
  | .collapseDone pkt => pkt.wf
  | .forwardingEntryExpiry home page => decide (home < 131072) && decide (page < 2 ^ 23)
  | .pinWaitRetry page => decide (page < 2 ^ 23)
  | .programExclusionExpiry program module => decide (program < 1024) && decide (module < 131072)
  | .cadenceBoundary partition => decide (partition < 65536)
  | .countEpochBoundary => true
  | .gateSwitch group => decide (group < 8)
  | .frameStart group link => decide (group < 8) && decide (link < 8)
  | .queueSamplePeriod => true
  | .ppsEdge => true
  | .todMessage _ => true
  | .ppsSourceLost => true
  | .ptpSync group link _ => decide (group < 8) && decide (link < 8)
  | .ptpPdelayReq group link _ => decide (group < 8) && decide (link < 8)
  | .ptpPdelayResp group link _ => decide (group < 8) && decide (link < 8)
  | .syncSend => true
  | .parentSyncLost => true
  | .mailboxSend fn dir value => decide (fn < 512) && decide (dir < 2) && decide (value < 2 ^ 64)
  | .mailboxReceive fn dir => decide (fn < 512) && decide (dir < 2)
  | .frameReceive group link _ _ _ => decide (group < 8) && decide (link < 8)
  | .pauseExpiry group link prio => decide (group < 8) && decide (link < 8) && decide (prio < 8)
  | .pauseRefresh group link prio => decide (group < 8) && decide (link < 8) && decide (prio < 8)
  | .txUnderrun group link => decide (group < 8) && decide (link < 8)
  | .opticalPowerStable group link => decide (group < 8) && decide (link < 8)
  | .linkLock group link => decide (group < 8) && decide (link < 8)
  | .trainingStepTimeout group link => decide (group < 8) && decide (link < 8)
  | .hello group link _ => decide (group < 8) && decide (link < 8)
  | .helloSend group link => decide (group < 8) && decide (link < 8)
  | .helloLost group link => decide (group < 8) && decide (link < 8)
  | .signalLost group link signal => decide (group < 8) && decide (link < 8) && decide (signal < 16)
  | .alignLost group link => decide (group < 8) && decide (link < 8)
  | .fecDegrade group link _ => decide (group < 8) && decide (link < 8)
  | .heldLinkRetry group link => decide (group < 8) && decide (link < 8)
  | .lpiIdleExpiry group => decide (group < 8)
  | .lpiWake group => decide (group < 8)
  | .wakeTimeout group => decide (group < 8)
  | .connectorOpen group => decide (group < 8)
  | .connectorClose group => decide (group < 8)
  | .connectorDebounce group => decide (group < 8)
  | .lnkGroupEnableClear fn group value => decide (fn < 512) && decide (group < 8) && decide (value < 2 ^ 64)
  | .lnkGroupEnableSet fn group value => decide (fn < 512) && decide (group < 8) && decide (value < 2 ^ 64)
  | .lnkGroupRetrain fn group value => decide (fn < 512) && decide (group < 8) && decide (value < 2 ^ 64)
  | .lpiEnableWrite fn group value => decide (fn < 512) && decide (group < 8) && decide (value < 2 ^ 64)
  | .lnkLinkDisable fn group link => decide (fn < 512) && decide (group < 8) && decide (link < 8)
  | .lnkLinkEnable fn group link => decide (fn < 512) && decide (group < 8) && decide (link < 8)
  | .lnkLinkRetrain fn group link value => decide (fn < 512) && decide (group < 8) && decide (link < 8) && decide (value < 2 ^ 64)
  | .txThresholdRestore fn group value => decide (fn < 512) && decide (group < 8) && decide (value < 2 ^ 64)
  | .xltCommit fn => decide (fn < 512)
  | .qpeCommit fn => decide (fn < 512)
  | .rtrCommit fn => decide (fn < 512)
  | .colCommit fn => decide (fn < 512)
  | .trnCommit fn die => decide (fn < 512) && decide (die < 2)
  | .plcCommit fn => decide (fn < 512)
  | .schCommit fn => decide (fn < 512)
  | .lnkCommit fn group => decide (fn < 512) && decide (group < 8)
  | .vrtCommit fn => decide (fn < 512)
  | .hifCommit fn => decide (fn < 512)
  | .pwrCommit fn => decide (fn < 512)
  | .memCommit fn => decide (fn < 512)
  | .dbgCommit fn => decide (fn < 512)
  | .xltInvalAll fn => decide (fn < 512)
  | .xltInvalInstance fn inst => decide (fn < 512) && decide (inst < 512)
  | .tableWalkDone _ => true
  | .translationDrainDone inst => decide (inst < 512)
  | .rtrClearWatermarks fn => decide (fn < 512)
  | .qpcStoreWrite fn _ value => decide (fn < 512) && decide (value < 2 ^ 64)
  | .synBarParticipantsWrite fn group value => decide (fn < 512) && decide (group < 256) && decide (value < 2 ^ 64)
  | .vrtHoldWrite fn value => decide (fn < 512) && decide (value < 2 ^ 64)
  | .restoreApply fn value => decide (fn < 512) && decide (value < 2 ^ 64)
  | .schHallTimeLatchRead fn => decide (fn < 512)
  | .memInjectArm fn value => decide (fn < 512) && decide (value < 2 ^ 64)
  | .secEngineSelfTest fn value passed => decide (fn < 512) && decide (value < 2 ^ 64) && decide (passed < 65536)
  | .elsClearLatch fn value => decide (fn < 512) && decide (value < 2 ^ 64)
  | .elsDisableWrite fn value => decide (fn < 512) && decide (value < 2 ^ 64)
  | .hifWinBaseWrite fn value => decide (fn < 512) && decide (value < 2 ^ 64)
  | .registerWrite fn offset lanes value => decide (fn < 512) && decide (offset < 2 ^ 40) && decide (lanes < 2 ^ 64) && decide (value < 2 ^ 512)
  | .windowAccess fn _ offset len _ _ => decide (fn < 512) && decide (offset < 2 ^ 40) && decide (len < 2 ^ 32)
  | .inboundRequestRefused fn rid bar offset bytes _ => decide (fn < 512) && decide (rid < 65536) && decide (bar < 8) && decide (offset < 2 ^ 40) && decide (bytes < 8192)
  | .firstConfigWrite port rid => decide (port < 4) && decide (rid < 65536)
  | .busMasterEnableClear fn => decide (fn < 512)
  | .busMasterEnableSet fn => decide (fn < 512)
  | .d3hotEntry fn => decide (fn < 512)
  | .msixUnmask fn vector _ _ => decide (fn < 512) && decide (vector < 2048)
  | .functionLevelResetVf fn => decide (fn < 512)
  | .functionLevelResetPf port => decide (port < 4)
  | .vfDisable port => decide (port < 4)
  | .portLinkLoss port _ => decide (port < 4)
  | .perstAssert port _ => decide (port < 4)
  | .perstRelease port => decide (port < 4)
  | .powerOnReset deadDies deadStacks engines _ => decide (deadDies < 16) && decide (deadStacks < 256) && decide (engines < 65536)
  | .moduleReset _ _ => true
  | .watchdogExpiry addr => decide (addr < 2 ^ 32)
  | .codeWrite addr => decide (addr < 2 ^ 32)
  | .sramUe addr offset => decide (addr < 2 ^ 32) && decide (offset < 2 ^ 40)
  | .cpFault addr => decide (addr < 2 ^ 32)
  | .cpRestart _ => true
  | .scrubRead word => decide (word < 2 ^ 34)
  | .ceHourRollover stack => decide (stack < 8)
  | .entropyStartupPass => true
  | .entropyHealthFail => true
  | .drbgReseed generator => decide (generator < 3)
  | .estimatorTick _ => true
  | .calGainUpdate volts amps watts => decide (volts < 65536) && decide (amps < 65536) && decide (watts < 65536)
  | .powerHintEffect => true
  | .domainIdleOff domain => decide (domain < 80)
  | .domainWakeStart => true
  | .droopDetect die => decide (die < 4)
  | .droopSkipEnd die => decide (die < 4)
  | .sensorSample temps => temps.length == 68
  | .vpointStepDown die => decide (die < 2)
  | .vpointStepUp die => decide (die < 2)
  | .oeRepower group => decide (group < 8)
  | .elsPresenceClose bay => decide (bay < 2)
  | .elsRampStart bay => decide (bay < 2)
  | .elsTrip bay => decide (bay < 2)
  | .elsPresenceOpen bay => decide (bay < 2)
  | .supplyLow => true
  | .supplyFault _ => true
  | .powerUp => true
  | .serviceButtonShort _ => true
  | .serviceButtonLong => true
  | .lifeLogHourly _ => true
  | .getTid => true
  | .getPldmVersion typ => decide (typ < 256)
  | .getPldmTypes => true
  | .getPldmCommands typ => decide (typ < 256)
  | .getPdrRepositoryInfo => true
  | .getPdr record => decide (record < 2 ^ 32)
  | .getSensorReading sensor => decide (sensor < 65536)
  | .getStateEffecterStates effecter => decide (effecter < 65536)
  | .modulePowerOn => true
  | .modulePowerOff => true
  | .modulePowerReset _ => true
  | .locateEffecterSet _ => true
  | .setNumericEffecterValue value => decide (value < 65536)
  | .getNumericEffecterValue => true
  | .unsupportedPldmCommand typ cmd => decide (typ < 256) && decide (cmd < 256)
  | .requestUpdate => true
  | .passComponentTable => true
  | .updateComponent => true
  | .requestFirmwareData _ => true
  | .transferComplete => true
  | .verifyComplete => true
  | .applyComplete => true
  | .activateFirmware deadDies deadStacks engines _ => decide (deadDies < 16) && decide (deadStacks < 256) && decide (engines < 65536)
  | .switchedLinkInService group link => decide (group < 8) && decide (link < 8)
  | .elsContactOpen bay => decide (bay < 2)
  | .elsRampEnd bay => decide (bay < 2)
  | .domainWakeDone domain => decide (domain < 80)
  | .tclkRelockDone die => decide (die < 2)
  | .supplyGood => true
  | .pcieLinkUp port width rate => decide (port < 4) && decide (width < 32) && decide (rate < 256)
  | .vfEnable port count => decide (port < 4) && decide (count < 128)
  | .d3hotExit fn => decide (fn < 512)
  | .flashWriteDone _ => true

end Sys2Proof
end

