-- ==== Sys2Proof/Safety.lean ====
section
/-!
DEFINITION. What counts as a safe run, and the words in which claims about the module are stated: when a command may run at once, what a
module at rest is, and the canonical form that every step keeps.
-/

namespace Sys2Proof.Machine

/-! ## Safe runs -/

/-- A step that neither faults nor is refused. -/
def SafeStep (s : State) : Prop := ∃ t, step s = .next t

/-- A module whose next `n` steps are safe. -/
def SafeFor : Nat → State → Prop
  | 0, _ => True
  | n + 1, s => ∃ t, step s = .next t ∧ SafeFor n t

/-! ## Canonical forms -/

/-- The byte of module HBM at a physical address. -/
def State.byteAt (s : State) (a : Nat) : Byte := SMap.getD s.hbm.mem a 0

/-- The register store in canonical form. -/
def Regs.wf (r : Regs) : Bool := SMap.wf r.shadow && SMap.wf r.committed

/-- The invariant of every step: memory and the register store are in their canonical forms, and the fuse SVN is one that 63 fuses can hold
(R674). -/
def State.Canonical (s : State) : Prop := Memory.wf s.hbm.mem = true ∧ s.regs.wf = true ∧ s.svc.svn ≤ 63

/-! ## A module at rest -/

/-- Whether an owner of a transaction is a transit launch. -/
def TxnOwner.isLaunch : TxnOwner → Bool
  | .launch _ _ => true
  | _ => false

/-- Whether nothing that a command sets off remains to be done, and nothing waits that the end of a command would look at again: then the
end of a command changes nothing. -/
def State.calm (s : State) : Bool :=
  s.events.isEmpty && s.qpe.resolved.isEmpty && s.qpe.inbox.isEmpty && s.qpe.control.isEmpty && s.qpe.errors.isEmpty &&
  s.qpe.txns.all (fun e => !e.2.owner.isLaunch && e.2.got.getLast?.all (fun x => !x.2.encrypted)) && s.col.todo.isEmpty && s.jobs.faults.isEmpty && s.syn.rose.isEmpty &&
  s.plc.changes.isEmpty && s.trn.entries.isEmpty && s.jobs.domains.all (fun e => ((s.domain e.1).bind (·.fault)).isNone) &&
  s.q.wqs.all (fun e => e.2.ops.isEmpty && e.2.state != .snuffing) && s.syn.wicks.all (fun e => e.2.waiters.isEmpty) &&
  s.syn.bars.all (fun e => e.2.waits.isEmpty) && s.sch.cadences.all (fun e => e.2.waits.isEmpty) &&
  s.lnk.groups.all (fun e => (s.lgroup e.1).lpi == 0 && !(s.lgroup e.1).acked) && s.lnk.links.all (fun e => !e.2.owed && e.2.state.code == e.2.prev) &&
  s.lnk.pausing.isEmpty && s.qpe.answers.isEmpty && s.qpe.forwards.isEmpty && s.hif.refused.isEmpty &&
  s.qpe.arrivals.all (fun e => e.2.stage != .sky) && s.plc.starts.isEmpty && s.hall.pages.all (fun e => !e.2.pinWait) &&
  s.qpe.unsealed.isEmpty && s.xlt.drains.isEmpty && s.xlt.dirtyHeld.isEmpty && s.sch.drr.isEmpty

/-! ## Commands that may run -/

/-- Whether the module's functions are served: it is on, and the host die is up with firmware loaded (R54, R717, R766). -/
def State.serves (s : State) : Prop := s.pwr.off = false ∧ s.barOpen = true

/-- Whether an expert write of function `fn` at an offset takes effect (R233, R719): BAR0 answers there, the function is the manager's, and
the block is unlocked. -/
def State.expertOpen (s : State) (fn addr : Nat) : Prop :=
  s.pwr.off = false ∧ s.barAnswers addr = true ∧ fn = 0 ∧ s.unlockedAt addr = true

/-- Parameter `i` of a command. -/
def Cmd.arg (c : Cmd) (i : Nat) : Nat := par c.params i

/-- The command as begun. -/
def Cmd.begun (c : Cmd) : Cmd := { c with started := true }

/-- The module with a command begun. -/
def State.begin (s : State) (p k : Nat) (c : Cmd) : State := s.setCmd p k c.begun

/-- Whether fetched command `c`, which is command `k` of port `p`, starts now as a command of opcode `op` that meets every header check
(R210, R215, R216, R219): then its own part begins in `s.begin p k c`. -/
structure CmdReady (s : State) (p k op : Nat) (sel : List Nat → Bool) (auth : State → List Nat → Bool) (c : Cmd) : Prop where
  on : s.pwr.off = false
  fetched : SMap.find (s.adm1 p).cmds k = some c
  runs : s.cpRuns = true
  free : (s.fn (p * 128)).held = false
  opcode : opcodeOf c.pkt = op
  chosen : sel c.params = true
  fresh : c.started = false
  quiet : s.boot.activating = false
  turn : s.mayStart p k c = true
  header : s.headerFail p c.pkt (auth s) = none

/-- A work queue bound to a new queue pair, unless the pair is made with none (R249). -/
def State.bindWq (s : State) (wq qpn : Nat) : State := if wq = 0xFFFF then s else s.updWq wq fun w => { w with qp := some qpn }

/-- What the MAC has noted of a frame before it judges it: the codewords that it spans may have had symbols corrected (R654; log 61), and any frame but
a HELLO, PTP or MAC Control one ends the idle time of its group (R641). -/
def State.frameSeen (s : State) (g j : Nat) (data : Bytes) : State :=
  let t := s.fecCorrected g j data.length
  let body := data.take (data.length - 4)
  if beNat (slice data 12 2) = 0x8808 ∨ beNat (slice data 12 2) = 0x88F7 ∨ s.isControl body = true ∧ beNat (slice body 15 1) = 1 then t
  else t.setGroupL g { t.lgroup g with idle := false }

/-- A command answered. -/
def State.replied (s : State) (p k status detail : Nat) (result : Bytes) : State := (s.reply p k status detail result).admStopped p

/-- A command kept for later, with its progress, unless it has ended meanwhile. -/
def State.keep (s : State) (p k : Nat) (c : Cmd) : State := if SMap.has (s.adm1 p).cmds k then s.setCmd p k c else s

/-- Whether operation `id` of work queue `n`, with a descriptor of opcode `op`, is next at issue on a queue pair that runs (R250)
and whose context is in the cache (R276). -/
structure OpReady (s : State) (n id op : Nat) (w : Wq) (o : Op) (qn : Nat) (q : Qp) : Prop where
  on : s.pwr.off = false
  begins : s.beginOp n id op = some (w, o, qn, q)
  running : q.state ≠ 2
  cached : q.cached = true

/-- Whether an arriving packet passes the checks that every packet meets (R310, R323). -/
structure Accepts (s : State) (p : Pkt) : Prop where
  on : s.pwr.off = false
  version : p.version = 0x10
  known : typeKnown p.typ = true
  dst : p.dstEpoch = (s.ejected p).qpe.epoch ∨ p.typ = 0x08 ∨ p.typ = 0x09
  src : p.srcEpoch = (s.ejected p).peerEpoch p.src ∨ epochNewer p.srcEpoch ((s.ejected p).peerEpoch p.src) = true

/-- The state in which an accepted packet is acted on. -/
def State.admitted (s : State) (p : Pkt) : State := (s.ejected p).takeEpoch p.src p.srcEpoch

/-- The stream of a request with its expected PSN moved to the packet's CONF_PSN (R308). -/
def State.inStream (s : State) (p : Pkt) : RStream := ((s.admitted p).rstream (streamOf p)).advanceConf p.confPsn

/-- The state in which an accepted request meets its turn: its stream has moved on, and the records below CONF_PSN are dropped (R308,
R312). -/
def State.turn (s : State) (p : Pkt) : State := (s.admitted p).setStream (streamOf p) ((s.inStream p).dropBelow p.confPsn)

/-- Whether an arriving request outside the connections has its turn in its stream, and nothing else of the stream waits (R307, R310). -/
structure InTurn (s : State) (p : Pkt) : Prop where
  accepts : Accepts s p
  request : p.response = false
  direct : p.forwarded = false
  unconnected : p.dstQpn = 0
  plain : p.encrypted = false
  first : p.first = true
  next : psnDist p.psn (s.inStream p).expect = 0
  idle : (s.inStream p).busy = []
  whole : (s.inStream p).segment = []
  alone : (s.inStream p).held = []
  room : (s.turn p).canRecord (streamOf p) = true

/-- The state in which a request that has its turn is performed. -/
def State.performing (s : State) (p : Pkt) : State := (s.turn p).newArrival.2

/-- What follows, in state `t`, once a request that has its turn has been performed as number `arr`, under decision `d` on its message: it
is recorded and answered as its stream asks, kept while it waits, or passed on (R310, R312, R315); the payload of a message that is acted on
whole is kept until its last packet (R306). -/
def State.settled (t : State) (p : Pkt) (arr : Nat) (r : Perf) (d : Option Decision) : State :=
  State.takeHeld (streamOf p) 2 ((t.keepPart (streamOf p) p).performed (streamOf p) p arr r d)

/-- The same of a request performed with an outcome. -/
def State.answered (t : State) (p : Pkt) (d : Option Decision) (status reason : Nat) (data : Bytes) : State :=
  t.settled p 0 (.done status reason data) d

/-! ## Words of the statements -/

/-- The commands that count also while the module is off (R749, R765 to R767, R819). -/
def countsWhenOff : Instr → Bool
  | .perstAssert _ _ | .perstRelease _ | .elsPresenceClose _ | .elsContactOpen _ | .supplyFault _ | .supplyGood | .powerUp
  | .modulePowerOn => true
  | _ => false

/-- A new lantern queue, which with DEFAULT 1 becomes its instance's default queue and takes the mailbox's waiting event (R178). -/
def State.withLq (s : State) (dflt m : Nat) (l : Lq) : State :=
  if dflt = 1 then (((s.drawn).setLq m l).updInst l.inst fun i => { i with dfltLq := some m }).mbxNewQueue l.inst else (s.drawn).setLq m l

/-- The poison that walks have met in their tables is announced with what waited for them (R24, R115). -/
def State.poisonsMet (s : State) : State := (s.xlt.ends.filter fun e => e.fault == fkTablePoison).foldl State.poisonMet s

/-- A new queue pair in the context cache, which has room, as the most recently used; the cipher cluster of its engine wakes (R249, R660, R749). -/
def State.withQp (s : State) (qpn : Nat) (q : Qp) : State :=
  match q.engine with
  | some e => ((s.setQp qpn q).touchCtx qpn).wakeDom (domCipher (e / 8))
  | none => (s.setQp qpn q).touchCtx qpn

/-- The authority of a command that destroys a queue, by the instance that owns the queue (R210). -/
def destroyAuth (p : Nat) (owner : State → Nat → Option Nat) (s : State) (ps : List Nat) : Bool :=
  reach p ((owner s (par ps 1)).getD (par ps 0)) && reach p (par ps 0)

/-- The authority of a command that creates a queue, over its instance and over the owner of the queue that it is to feed (R210). -/
def createAuth (p : Nat) (owner : State → Nat → Option Nat) (s : State) (ps : List Nat) : Bool :=
  reach p (par ps 0) && reach p ((owner s (par ps 3)).getD (par ps 0))

/-- The commands that are expert writes and nothing else, each with the function that writes, the offset and the bytes written
(R233). -/
def expertRow : Instr → Option (Nat × Nat × Nat)
  | .xltCommit fn => some (fn, Reg.XLT_COMMIT.addr, 4)
  | .xltInvalAll fn => some (fn, Reg.XLT_INVAL.addr, 4)
  | .xltInvalInstance fn _ => some (fn, Reg.XLT_INVAL.addr, 4)
  | .qpeCommit fn => some (fn, Reg.QPE_COMMIT.addr, 4)
  | .wqEnableClear fn (n, size) => some (fn, wqStateAt n size, size)
  | .wqEnableSet fn (n, size) => some (fn, wqStateAt n size, size)
  | .rtrCommit fn => some (fn, Reg.RTR_COMMIT.addr, 4)
  | .rtrClearWatermarks fn => some (fn, Reg.RTR_CTRL.addr, 4)
  | .colCommit fn => some (fn, Reg.COL_COMMIT.addr, 4)
  | .trnCommit fn die => some (fn, (Reg.TRN_COMMIT die).addr, 4)
  | .trnCancelWrite fn die _ => some (fn, (Reg.TRN_CANCEL die).addr, 4)
  | .plcCommit fn => some (fn, Reg.PLC_COMMIT.addr, 4)
  | .schCommit fn => some (fn, Reg.SCH_COMMIT.addr, 4)
  | .lnkCommit fn g => if g < 8 then some (fn, (Reg.LNK_COMMIT g).addr, 4) else none
  | .lnkGroupEnableClear fn g _ => if g < 8 then some (fn, (Reg.LNK_GCTL g).addr, 4) else none
  | .lnkGroupEnableSet fn g _ => if g < 8 then some (fn, (Reg.LNK_GCTL g).addr, 4) else none
  | .lnkGroupRetrain fn g _ => if g < 8 then some (fn, (Reg.LNK_GCTL g).addr, 4) else none
  | .lpiEnableWrite fn g _ => if g < 8 then some (fn, (Reg.LNK_GCTL g).addr, 4) else none
  | .lnkLinkDisable fn g j => if g < 8 ∧ j < 8 then some (fn, (Reg.LNK_LCTL g j).addr, 4) else none
  | .lnkLinkEnable fn g j => if g < 8 ∧ j < 8 then some (fn, (Reg.LNK_LCTL g j).addr, 4) else none
  | .lnkLinkRetrain fn g j _ => if g < 8 ∧ j < 8 then some (fn, (Reg.LNK_LCTL g j).addr, 4) else none
  | .txThresholdRestore fn g _ => if g < 8 then some (fn, (Reg.LNK_TX_THRESHOLD g).addr, 4) else none
  | .vrtCommit fn => some (fn, Reg.VRT_COMMIT.addr, 4)
  | .vrtHoldWrite fn _ => some (fn, Reg.VRT_INST_CTRL.addr, 4)
  | .restoreApply fn _ => some (fn, Reg.VRT_RESTORE_TARGET.addr, 4)
  | .hifCommit fn => some (fn, Reg.HIF_COMMIT.addr, 4)
  | .pwrCommit fn => some (fn, Reg.PWR_COMMIT.addr, 4)
  | .elsClearLatch fn _ => some (fn, Reg.PWR_ELS_CTRL.addr, 4)
  | .elsDisableWrite fn _ => some (fn, Reg.PWR_ELS_CTRL.addr, 4)
  | .memCommit fn => some (fn, Reg.MEM_COMMIT.addr, 4)
  | .memInjectArm fn _ => some (fn, Reg.MEM_INJECT_CTRL.addr, 4)
  | .secEngineSelfTest fn _ _ => some (fn, Reg.SEC_ENGINE_FAIL.addr, 4)
  | .dbgCommit fn => some (fn, Reg.DBG_COMMIT.addr, 4)
  | _ => none

/-- A refused commit: the block's own flag, and the administration's (R235). -/
def State.commitRefused (s : State) (r : Reg) (flag : Nat) : State := (s.setFlag r flag).setFlagOf 0 .ADM_ERR 3

/-- The commands of the control requests of the fabric, each with its packet type (R305). -/
def controlRows (p : Pkt) : List (Instr × Nat) :=
  [(.collData p, 0x10), (.groupSetup p, 0x11), (.treeUp p, 0x12), (.treeDown p, 0x13), (.transitLaunch p, 0x20), (.transitCancel p, 0x21),
    (.transitDone p, 0x22), (.placePropose p, 0x28), (.moveStart p, 0x29), (.moveCopy p, 0x2A), (.moveDone p, 0x2B), (.moveEnd p, 0x2C),
    (.thatchHint p, 0x2D), (.collapseNote p, 0x2E), (.collapseDone p, 0x2F), (.domainSetup p, 0x30), (.domainReady p, 0x31)]

/-- The state in which a forwarded request meets its turn: what is kept of the requests of its source that it confirms is dropped (R314). -/
def State.forwardedTurn (s : State) (p : Pkt) : State :=
  let t := s.admitted p
  t.setFstream (fwdKey p) ((t.fstream (fwdKey p)).dropBelow p.confPsn)

/-- Whether a forwarded request has arrived that is accepted, and has neither been performed nor waits (R314). -/
structure ForwardedNew (s : State) (p : Pkt) : Prop where
  accepts : Accepts s p
  request : p.response = false
  forwarded : p.forwarded = true
  unknown : ((s.forwardedTurn p).fstream (fwdKey p)).records.all (fun o => o.psn != p.psn) = true
  unpassed : ((s.forwardedTurn p).fstream (fwdKey p)).passed.all (fun x => x.psn != p.psn) = true
  idle : (s.forwardedTurn p).qpe.arrivals = []
  room : (s.forwardedTurn p).canRecordForward (fwdKey p) = true

end Sys2Proof.Machine
end

