-- ==== Sys2Proof/Certificates/Slice0/Obligations.lean ====
section
/-!
DEFINITION. The statements about the module. In each, `exec` is what a command does, and `State.finish` is the end of every command: what it
has set off inside the module is done, and its events are delivered; `FinishOfCalm` says when that changes nothing. A state written as
`{ s with … }`, or by a named update, says also what stays as it was; `UpdatesKeepTheRest` says what the named updates leave alone.
-/

open Sys2Proof Sys2Proof.Machine

/-! ## The machine as a whole -/

/-- A step takes the command at the front of the queue, and does what that command does to the state with the rest of the queue.

The model's choices in it: log 1. -/
def Obligations.StepRunsTheFrontCommand : Prop :=
  ∀ (s : State) (i : Instr) (rest : List Instr), s.pending = i :: rest → step s = exec i { s with pending := rest }

/-- With no command waiting, a step is one cycle of HTCLK, at whose end what waited for a token bucket goes on (the model's choice, log 4). In
the cycle itself, where no program's entry drains, the module's time goes on by one nanosecond, no byte of memory, committed register, queue
or queue pair changes and nothing is sent; and where moreover no arbiter holds a request and nothing waits for an allocation, a link, the
crossbar or the guard, the time is all that moves.

The model's choices in it: log 4. -/
def Obligations.AnEmptyQueueIdles : Prop :=
  ∀ s : State, s.pending = [] →
    (s.clock.pwr.off = false → step s = .next s.clock.finish) ∧ (s.clock.pwr.off = true → step s = .next s.clock) ∧
    ((∀ e ∈ s.trn.entries, e.2.state ≠ 5) → (∀ k e, s.entry k = some e → e.state ≠ 5) →
      (s.clock.now = s.now + 1 ∧ s.clock.pending = [] ∧ s.clock.hbm.mem = s.hbm.mem ∧ s.clock.regs.committed = s.regs.committed ∧
        s.clock.q = s.q ∧ s.clock.qpe = s.qpe ∧ s.clock.out = s.out) ∧
      (s.hbm.arbs = [] → s.qpe.allocWait = [] → (∀ p < 10, s.lostToPause p = false ∧ s.lostToArb p = false) →
        (∀ g < 8, s.guardHolds g = false) → s.clock = s.tick))

/-- Every command runs in every state: none faults and none is refused.

The model's choices in it: log 9. -/
def Obligations.EveryCommandCompletes : Prop := ∀ (i : Instr) (s : State), ∃ t, exec i s = .next t

/-- A module that has shut down does nothing (R766): every command but the eight that bear on its power-up leaves the whole state as it
was.

The model's choices in it: log 8. -/
def Obligations.AModuleThatIsOffDoesNothing : Prop :=
  ∀ (i : Instr) (s : State), s.pwr.off = true → countsWhenOff i = false → exec i s = .next s

/-- Each step keeps the canonical form of memory and of the registers, and a fuse SVN of at most 63.

The model's choices in it: logs 11, 14. -/
def Obligations.StepKeepsCanonical : Prop := ∀ s t : State, s.Canonical → step s = .next t → t.Canonical

/-- The state after reset is canonical.

The model's choices in it: logs 42, 43. -/
def Obligations.ResetIsCanonical : Prop := State.reset.Canonical

/-- A step takes at most the front command from the queue, puts none in, and leaves the variant of the part as it was.

The model's choices in it: log 1. -/
def Obligations.StepTakesOnlyTheFront : Prop :=
  ∀ s t : State, step s = .next t → t.pending = s.pending.tail ∧ t.variant = s.variant

/-- The fuse SVN never falls (R674): whatever the command, the state after a step holds at least the SVN that it held before. -/
def Obligations.FuseSvnNeverFalls : Prop := ∀ s t : State, step s = .next t → s.svc.svn ≤ t.svc.svn

/-- The end of a command changes nothing in a module in which nothing is left to do and no event waits.

The model's choices in it: log 10. -/
def Obligations.FinishOfCalm : Prop := ∀ s : State, s.calm = true → s.finish = s

/-- A packet written as its header and payload (R304) and read back is the packet, for every packet whose fields fit their places. -/
def Obligations.PacketHeaderRoundTrip : Prop :=
  ∀ p : Pkt, p.wf = true → parsePkt (p.header ++ p.payload) p.note = p

/-! ## Words, rings and registers -/

/-- Ring indices (R147): an index names the slot of its low bits, and distances between indices are taken modulo 2^24. -/
def Obligations.RingIndices : Prop :=
  (∀ index log2 : Nat, slotOf index log2 = index &&& ((1 <<< log2) - 1)) ∧
  (∀ src dst : Nat, src < 2 ^ 24 → dst < 2 ^ 24 → (distance src dst : Int) = ((dst : Int) - src) % 2 ^ 24) ∧
  ∀ index n : Nat, (advance index n) = (index + n) % 2 ^ 24

/-- Bytes stored in HBM at a physical address are read back there, and every other byte of memory is as it was. So it is of every write but a
program's own through its CL port, whose bytes are stored as its accesses enter the command queue.

The model's choices in it: logs 14, 81. -/
def Obligations.MemoryReadsBackWhatWasWritten : Prop :=
  (∀ (s : State) (a : Nat) (data : Bytes), Memory.wf s.hbm.mem = true →
    memBytes (s.physStore a data).hbm.mem a data.length = data ∧
    ∀ x, x < a ∨ a + data.length ≤ x → (s.physStore a data).byteAt x = s.byteAt x) ∧
  ∀ (s : State) (a : Nat) (data : Bytes), Memory.wf s.hbm.mem = true → (∀ e order first tiles, s.hbm.client ≠ .tile e order first tiles) →
    memBytes (s.physWrite a data).hbm.mem a data.length = data ∧
    ∀ x, x < a ∨ a + data.length ≤ x → (s.physWrite a data).byteAt x = s.byteAt x

/-- What the named updates leave alone: each changes the one part of the state that it names, and nothing else. -/
def Obligations.UpdatesKeepTheRest : Prop :=
  ∀ s : State,
    (∀ (n : Nat) (r : Reg) (v : Word), ∃ m, s.setRegOf n r v = { s with regs := { s.regs with shadow := m } }) ∧
    (∀ (r : Reg) (v : Word), ∃ m, s.setCom r v = { s with regs := { s.regs with committed := m } }) ∧
    (∀ rs : List Reg, ∃ m, s.commitRegs rs = { s with regs := { s.regs with committed := m } }) ∧
    (∀ (n : Nat) (r : Reg) (i : Nat), ∃ m, s.setFlagOf n r i = { s with regs := { s.regs with shadow := m } }) ∧
    (∀ (p : Nat) (a : AdmQ), ∃ m, s.setAdm p a = { s with adm := { s.adm with queues := m } }) ∧
    (∀ (n : Nat) (x : Wq), ∃ m, s.setWq n x = { s with q := { s.q with wqs := m } }) ∧
    (∀ (n : Nat) (x : Cq), ∃ m, s.setCq n x = { s with q := { s.q with cqs := m } }) ∧
    (∀ (n : Nat) (x : Lq), ∃ m, s.setLq n x = { s with q := { s.q with lqs := m } }) ∧
    (∀ (n : Nat) (x : Qp), ∃ m, s.setQp n x = { s with qpe := { s.qpe with qps := m } }) ∧
    (∀ (n : Nat) (x : Inst), ∃ m, s.setInst n x = { s with vrt := { s.vrt with insts := m } }) ∧
    (∀ (p : Nat) (x : Port), ∃ m, s.setPort p x = { s with hif := { s.hif with ports := m } }) ∧
    (∀ (n : Nat) (x : Fn), ∃ m, s.setFn n x = { s with hif := { s.hif with fns := m } }) ∧
    (∀ (n : Nat) (x : Wick), ∃ m, s.setWick n x = { s with syn := { s.syn with wicks := m } }) ∧
    (∀ (n : Nat) (x : Barrier), ∃ m, s.setBar n x = { s with syn := { s.syn with bars := m } }) ∧
    (∀ (n : Nat) (x : Group), ∃ m, s.setGroup n x = { s with col := { s.col with groups := m } }) ∧
    (∀ (n : Nat) (x : Sky), ∃ m, s.setSky n x = { s with hall := { s.hall with sky := m } }) ∧
    (∀ (n : Nat) (x : TEntry), ∃ m, s.setEntry n x = { s with trn := { s.trn with entries := m } }) ∧
    (∀ x : Pwr, s.setPwr x = { s with pwr := x }) ∧
    ∀ o : Out, ∃ l, s.emit o = { s with out := l }

/-- The values that the spec gives for reset: nothing waits and nothing has been sent, the module's number and features are the defaults, no
queue, instance beyond the four physical functions, skylight, page or program exists, and no stack, engine or die is in service.

The model's choices in it: log 42. -/
def Obligations.ResetValues : Prop :=
  State.reset.pending = [] ∧ State.reset.out = [] ∧ State.reset.hbm.mem = [] ∧ State.reset.boot.dies = 0 ∧
  State.reset.boot.loaded = false ∧ State.reset.sec.engines = 0 ∧ State.reset.adm.unlocked = 0 ∧ State.reset.adm.queues = [] ∧
  State.reset.q.wqs = [] ∧ State.reset.q.cqs = [] ∧ State.reset.q.lqs = [] ∧ State.reset.qpe.qps = [] ∧ State.reset.hall.sky = [] ∧
  State.reset.hall.pages = [] ∧ State.reset.trn.programs = [] ∧ State.reset.sec.keys = [] ∧ State.reset.syn.wicks = [] ∧
  State.reset.regs.committed = [] ∧ State.reset.regs.shadow = []

/-- `GLB_CAP0` (R53) reads, in every function, the value of the module's variant. -/
def Obligations.CapabilitiesByVariant : Prop :=
  ∀ (s : State) (fn : Nat), s.barAnswers Reg.GLB_CAP0.addr = true →
    s.readReg fn Reg.GLB_CAP0.addr 4 = match s.variant with
      | .standard => 0x00001FFF
      | .noCipher => 0x00000FFF
      | .sample => 0x00003FFF

/-- What a commit takes into use (R235): each committed register of the set has the value of its shadow, and each register outside the set
keeps its committed value. -/
def Obligations.CommitTakesTheSetIntoUse : Prop :=
  ∀ (s : State) (set : List Reg) (r : Reg),
    (r ∈ set → (∀ x ∈ set, x.addr = r.addr → x = r) → (s.commitRegs set).com r = s.reg r) ∧
    ((∀ x ∈ set, x.addr ≠ r.addr) → (s.commitRegs set).com r = s.com r)

/-! ## Admin queues -/

/-- The indices of a running admin queue (R203, R204): a producer index within a ring's length of FETCH and not behind the previous one is
taken, a reply consumer index that does not pass the producer is taken, and a fetch takes the packet in front once it has been read.

Enabling and disabling an admin queue (R202, R206): a DISABLED queue with both sizes from 6 to 12 runs with every index at 0 and no
command; clearing ENABLE stops the fetching, and a queue with no command left is DISABLED.

The model's choices in it: logs 7, 16, 80. -/
def Obligations.AdminQueuesRunAndStop : Prop :=
  ((∀ (s : State) (p value : Nat), s.serves → (s.adm1 p).state = .running →
    distance (s.adm1 p).fetch (value % ringMod) ≤ 2 ^ s.admCtrl p 3 0 →
    distance (s.adm1 p).fetch (s.adm1 p).producer ≤ distance (s.adm1 p).fetch (value % ringMod) →
    exec (.admCmdProducerWrite p value) s = .next (s.setAdm p { s.adm1 p with producer := value % ringMod }).finish) ∧
  (∀ (s : State) (p value : Nat), s.serves → (s.adm1 p).state = .running →
    2 ^ s.admCtrl p 3 0 < distance (s.adm1 p).fetch (value % ringMod) →
    exec (.admCmdProducerWrite p value) s =
      .next ((s.setAdm p { s.adm1 p with producer := value % ringMod }).admError p 1).finish) ∧
  (∀ (s : State) (p value : Nat), s.serves → (s.adm1 p).state = .running →
    distance (s.adm1 p).fetch (value % ringMod) ≤ 2 ^ s.admCtrl p 3 0 →
    distance (s.adm1 p).fetch (value % ringMod) < distance (s.adm1 p).fetch (s.adm1 p).producer →
    exec (.admCmdProducerWrite p value) s =
      .next ((s.setAdm p { s.adm1 p with producer := value % ringMod }).admError p 2).finish) ∧
  (∀ (s : State) (p value : Nat), s.serves →
    distance (s.adm1 p).replyConsumer (value % ringMod) ≤ distance (s.adm1 p).replyConsumer (s.adm1 p).replyProducer →
    exec (.admReplyConsumerWrite p value) s = .next (s.setAdm p { s.adm1 p with replyConsumer := value % ringMod }).finish) ∧
  (∀ (s : State) (p value : Nat), s.serves →
    distance (s.adm1 p).replyConsumer (s.adm1 p).replyProducer < distance (s.adm1 p).replyConsumer (value % ringMod) →
    exec (.admReplyConsumerWrite p value) s = .next (s.setFlagOf (p * 128) .ADM_ERR 0).finish) ∧
  (∀ (s : State) (p len : Nat), s.pwr.off = false → s.cpRuns = true → s.admTurn p = true → (s.adm1 p).state = .running →
    ((s.adm1 p).cmds.filter fun e => !e.2.orphan).length + (s.adm1 p).held.length < 64 →
    distance (s.adm1 p).replyConsumer (s.adm1 p).replyProducer + ((s.adm1 p).cmds.filter fun e => !e.2.orphan).length +
      (s.adm1 p).held.length < 2 ^ s.admCtrl p 11 8 →
    (s.adm1 p).frontLen = some len → len ≠ 0 → len ≤ 2 ^ s.admCtrl p 3 0 * 32 → len ≤ (s.adm1 p).units.length →
    exec (.adminCommandFetch p) s = .next (({ s with adm := { s.adm with seq := s.adm.seq + 1, turn := p } }).setAdm p
      { s.adm1 p with
        cmds := SMap.put (s.adm1 p).cmds s.adm.seq
          ⟨(s.adm1 p).fetch, s.adm.seq, (s.adm1 p).units.take len, false, 0, RBuf.empty, 0, false, none⟩
        units := (s.adm1 p).units.drop len
        fetch := advance (s.adm1 p).fetch (len / 32) }).finish)) ∧
  ((∀ (s : State) (p value : Nat), s.serves → (s.adm1 p).state = .disabled →
    6 ≤ (s.admCtrlFields p value).admCtrl p 3 0 → (s.admCtrlFields p value).admCtrl p 3 0 ≤ 12 →
    6 ≤ (s.admCtrlFields p value).admCtrl p 11 8 → (s.admCtrlFields p value).admCtrl p 11 8 ≤ 12 →
    exec (.admCtrlEnableSet p value) s = .next (((s.admCtrlFields p value).setRegOf (p * 128) .ADM_CTRL
      (setFld ((s.admCtrlFields p value).regOf (p * 128) .ADM_CTRL) 31 31 1)).setAdm p
      { state := .running, reason := 0, producer := 0, fetch := 0, replyProducer := 0, replyConsumer := 0, negotiated := 0x10, events := false,
        cmds := (s.adm1 p).cmds.filter (·.2.orphan), units := [], reading := 0, held := [] }).finish) ∧
  (∀ (s : State) (p value : Nat), s.serves → (s.adm1 p).state = .running →
    exec (.admCtrlEnableClear p value) s = .next (((((s.admCtrlFields p value).setRegOf (p * 128) .ADM_CTRL
      (setFld ((s.admCtrlFields p value).regOf (p * 128) .ADM_CTRL) 31 31 0)).setAdm p
        { s.adm1 p with state := .stopping, reason := 0, reading := 0, units := [] }).disown
          fun q => match q with | .admUnit n => n == p | _ => false).admStopped p).finish))

/-- A reply (R211 to R213) of a running queue, when its function may issue and no other reply waits: the command leaves the queue, its 32-byte
record with the phase of its slot is written at the reply ring's producer index, which advances, the queue's vector is signalled where
REPLY_IRQ asks for it, and ADMIN_DONE follows where EVENT or ADMIN_EVENTS does. Nothing else changes.

The identification commands: IDENTIFY (R223) answers SUCCESS with what names the part; NEGOTIATE_VERSION (R220) answers SUCCESS, with version 1.0
negotiated, where the range that it offers holds it, VERSION where the range does not, and BAD_DESCRIPTOR, detail FIELD, where it is no
range; GET_FEATURE answers SUCCESS with the feature's value; and SET_FEATURE (R224), of a value that the feature allows, with the value
before it.

EXPERT_UNLOCK (R232) unlocks or locks the blocks that it names and answers with those that are unlocked; a command of the module's version
whose opcode no table lists is answered BAD_DESCRIPTOR, detail OPCODE (R230).

The model's choices in it: logs 7, 57. -/
def Obligations.AdminCommandsAreAnswered : Prop :=
  (∀ (s t : State) (p k status detail : Nat) (result r : Bytes) (c : Cmd),
    s.cpRuns = true → SMap.find (s.adm1 p).cmds k = some c → SMap.wf s.adm.queues = true → c.orphan = false → (s.adm1 p).state = .running →
    (s.adm1 p).held = [] → s.canIssue (p * 128) = true →
    r = slice c.pkt 4 4 ++ slice c.pkt 2 2 ++ leBytes 1 status ++ leBytes 1 detail ++ leBytes 3 c.index ++ leBytes 1 (s.adm1 p).negotiated ++
      leBytes 1 (phaseAt (s.adm1 p).replyProducer (s.admCtrl p 11 8)) ++ zeros 3 ++ (if status = 0 then slice result 0 16 else zeros 16) →
    t = (((s.emit (.hostWrite p (p * 128) ((s.regOf (p * 128) .ADM_REPLY_BASE).toNat / 4096 * 4096 +
      slotOf (s.adm1 p).replyProducer (s.admCtrl p 11 8) * 32) r false false)).setAdm p
        { s.adm1 p with cmds := SMap.del (s.adm1 p).cmds k, replyProducer := advance (s.adm1 p).replyProducer 1 }).admIrq p) →
    s.reply p k status detail result =
      if (bit (leAt c.pkt 8 1) 0 || (s.adm1 p).events) = true then
        t.raise (.inst (p * 128)) evAdminDone (leAt c.pkt 2 2)
          (leAt c.pkt 4 4 + status % 256 * 2 ^ 32 + c.index % 2 ^ 24 * 2 ^ 40) 0
      else t) ∧
  ((∀ (s : State) (p k : Nat) (c : Cmd), CmdReady s p k 0x0001 anySel anyAuth c → let b := s.begin p k c;
    exec (.identify p k) s = .next (b.replied p k stSuccess 0
      (slice (ascii "KG8-M1-L48-" ++ leBytes 1 b.variantByte ++ ascii "B" ++ leBytes 1 0x10 ++ leBytes 2 b.boot.fwBuild) 0 16)).finish) ∧
  (∀ (s : State) (p k : Nat) (c : Cmd), CmdReady s p k 0x0002 anySel anyAuth c → let b := s.begin p k c; c.arg 0 ≤ 0x10 → 0x10 ≤ c.arg 1 →
    exec (.negotiateVersion p k) s = .next ((b.setAdm p { b.adm1 p with negotiated := 0x10 }).replied p k
      stSuccess 0 (resultBytes [(8, 0x10), (8, 0x10), (8, 0x10)])).finish) ∧
  (∀ (s : State) (p k : Nat) (c : Cmd), CmdReady s p k 0x0002 anySel anyAuth c → let b := s.begin p k c; c.arg 0 ≤ c.arg 1 → (c.arg 1 < 0x10 ∨ 0x10 < c.arg 0) →
    exec (.negotiateVersion p k) s = .next (b.replied p k stVersion 0 []).finish) ∧
  (∀ (s : State) (p k : Nat) (c : Cmd), CmdReady s p k 0x0002 anySel anyAuth c → let b := s.begin p k c; c.arg 1 < c.arg 0 →
    exec (.negotiateVersion p k) s = .next (b.replied p k stBadDescriptor dField []).finish) ∧
  (∀ (s : State) (p k : Nat) (c : Cmd) (v : Bytes), CmdReady s p k 0x0003 anySel anyAuth c → let b := s.begin p k c;
    b.featureValue p (c.arg 0) = some v →
    exec (.getFeature p k) s = .next (b.replied p k stSuccess 0 v).finish) ∧
  (∀ (s : State) (p k : Nat) (c : Cmd) (old : Bytes) (t : State),
    CmdReady s p k 0x0004 anySel (fun _ ps => p == 0 || par ps 0 == 0 || decide (5 < par ps 0)) c → let b := s.begin p k c;
    b.featureValue p (c.arg 0) = some old →
    b.withFeature p (c.arg 0) (leBytes 16 (c.arg 1)) = some t →
    ((c.arg 0 = 1 ∨ c.arg 0 = 2) → b.anyService = false) →
    exec (.setFeature p k) s = .next (t.replied p k stSuccess 0 old).finish)) ∧
  ((∀ (s : State) (p k : Nat) (c : Cmd), CmdReady s p k 0x0005 (fun ps => par ps 0 != 0) anyAuth c → let b := s.begin p k c; c.arg 0 = 1 → c.arg 2 = 0x45585054 →
    exec (.expertUnlock p k) s = .next (({ b with adm := { b.adm with
      unlocked := b.adm.unlocked ||| b.expertBlocks (c.arg 1) } }).replied p k stSuccess 0
        (resultBytes [(32, b.adm.unlocked ||| b.expertBlocks (c.arg 1))])).finish) ∧
  (∀ (s : State) (p k : Nat) (c : Cmd), CmdReady s p k 0x0005 (fun ps => par ps 0 == 0) anyAuth c → let b := s.begin p k c; c.arg 2 = 0x45585054 →
    exec (.expertLock p k) s = .next (({ b with adm := { b.adm with
      unlocked := b.adm.unlocked &&& (0x7FFF ^^^ b.expertBlocks (c.arg 1)) } }).replied p k stSuccess 0
        (resultBytes [(32, b.adm.unlocked &&& (0x7FFF ^^^ b.expertBlocks (c.arg 1)))])).finish) ∧
  (∀ (s : State) (p k : Nat) (c : Cmd), s.pwr.off = false → SMap.find (s.adm1 p).cmds k = some c → s.cpRuns = true →
    (s.fn (p * 128)).held = false → c.started = false → s.boot.activating = false → s.mayStart p k c = true →
    leAt c.pkt 0 1 = 0x10 → 0x10 ≤ (s.adm1 p).negotiated → admSpec (opcodeOf c.pkt) = none →
    exec (.unlistedAdminOpcode p k) s = .next (s.reply p k stBadDescriptor dOpcode []).finish))

/-! ## Queues -/

/-- The creation of queues (R177, R178): with its ring mapped and aligned, its size allowed, the queue it feeds its instance's own and in
order, and a number free, a queue is there, fresh, and its number is the answer.

The destruction of queues (R178, R179): an IDLE work queue, a completion queue that no work queue feeds, and a lantern queue that no
completion queue feeds are removed.

The model's choices in it: log 23. -/
def Obligations.QueuesAreCreatedAndDestroyed : Prop :=
  ((∀ (s : State) (p k : Nat) (c : Cmd) (i : Inst) (q : Cq) (w : Nat),
    CmdReady s p k 0x0010 anySel (createAuth p fun s n => (s.cq n).map (·.inst)) c → let b := s.begin p k c;
    b.inst (c.arg 0) = some i → b.cq (c.arg 3) = some q → q.inst = c.arg 0 → 6 ≤ c.arg 2 → c.arg 2 ≤ 16 → q.state ≠ .error →
    b.ringMapped (c.arg 0) (c.arg 1) (64 * 2 ^ c.arg 2) .read = true → b.pickWq (c.arg 0) = some w →
    exec (.createWorkQueue p k) s = .next (((b.drawn).setWq w
      ⟨c.arg 0, SMap.getD b.q.wqGens w 0, .enabled, true, 0, c.arg 3, c.arg 1, c.arg 2, 0, 0, 0, [], [], 0, [], none, [],
        [], true, [], (0, 0)⟩).replied
        p k stSuccess 0 (resultBytes [(16, w), (8, SMap.getD b.q.wqGens w 0), (32, 8 * w)])).finish) ∧
  (∀ (s : State) (p k : Nat) (c : Cmd) (i : Inst) (l : Lq) (m : Nat),
    CmdReady s p k 0x0012 anySel (createAuth p fun s n => (s.lq n).map (·.inst)) c → let b := s.begin p k c;
    b.inst (c.arg 0) = some i → b.lq (c.arg 3) = some l → l.inst = c.arg 0 → 6 ≤ c.arg 2 → c.arg 2 ≤ 20 → l.error = false →
    b.ringMapped (c.arg 0) (c.arg 1) (32 * 2 ^ c.arg 2) .write = true →
    b.hasRoom (c.arg 0) 65536 (·.cqPool) (fun i => countIn b.q.cqs fun q => q.inst == i) (fun _ => true) = true →
    b.pickNumber b.q.cqs 65536 = some m →
    exec (.createCompletionQueue p k) s = .next (((b.drawn).setCq m
      ⟨c.arg 0, c.arg 1, c.arg 2, c.arg 3, .active, 0, 0, 0, false, false, [], [], true⟩).replied p k stSuccess 0
        (resultBytes [(16, m)])).finish) ∧
  (∀ (s : State) (p k : Nat) (c : Cmd) (i : Inst) (m : Nat), CmdReady s p k 0x0014 anySel (instAuth p 0) c → let b := s.begin p k c;
    b.inst (c.arg 0) = some i → c.arg 3 < vectorsOf (c.arg 0) → 6 ≤ c.arg 2 → c.arg 2 ≤ 16 →
    b.ringMapped (c.arg 0) (c.arg 1) (32 * 2 ^ c.arg 2) .write = true →
    b.hasRoom (c.arg 0) 512 (·.lqPool) (fun i => countIn b.q.lqs fun q => q.inst == i) (fun _ => true) = true →
    b.pickNumber b.q.lqs 512 = some m →
    exec (.createEventQueue p k) s = .next ((b.withLq (c.arg 4) m
      ⟨c.arg 0, c.arg 1, c.arg 2, c.arg 3, 0, 0, false, false, false, 0, [], true⟩).replied p k stSuccess 0
        (resultBytes [(9, m), (32, consumerOffset (c.arg 0) m)])).finish)) ∧
  ((∀ (s : State) (p k : Nat) (c : Cmd) (w : Wq), CmdReady s p k 0x0011 anySel (destroyAuth p fun s n => (s.wq n).map (·.inst)) c → let b := s.begin p k c;
    b.wq (c.arg 1) = some w → w.inst = c.arg 0 → w.state = .idle →
    exec (.destroyWorkQueue p k) s = .next ((b.removeWq (c.arg 1)).replied p k stSuccess 0 (resultBytes [])).finish) ∧
  (∀ (s : State) (p k : Nat) (c : Cmd) (q : Cq), CmdReady s p k 0x0013 anySel (destroyAuth p fun s n => (s.cq n).map (·.inst)) c → let b := s.begin p k c;
    b.cq (c.arg 1) = some q → q.inst = c.arg 0 → (b.q.wqs.any fun e => e.2.cq == c.arg 1) = false →
    exec (.destroyCompletionQueue p k) s = .next ((b.removeCq (c.arg 1)).replied p k stSuccess 0 (resultBytes [])).finish) ∧
  (∀ (s : State) (p k : Nat) (c : Cmd) (l : Lq), CmdReady s p k 0x0015 anySel (destroyAuth p fun s n => (s.lq n).map (·.inst)) c → let b := s.begin p k c;
    b.lq (c.arg 1) = some l → l.inst = c.arg 0 → (b.q.cqs.any fun e => e.2.lantern == c.arg 1) = false →
    exec (.destroyEventQueue p k) s = .next ((b.removeLq (c.arg 1)).replied p k stSuccess 0 (resultBytes [])).finish) ∧
  ∀ (s : State) (n : Nat), SMap.wf s.q.wqs = true → SMap.wf s.q.cqs = true → SMap.wf s.q.lqs = true →
    ((s.removeWq n).wq n = none ∧ (s.removeCq n).cq n = none ∧ (s.removeLq n).lq n = none))

/-- Stopping and resuming a work queue (R181, R183, R186): a QUIESCE of a queue that drains waits for it, one of a queue that is IDLE after it
answers; a RESUME of an IDLE queue enables it; a SNUFF_QUEUE waits while its records are written; the two expert writes of ENABLE do the same
without a reply, where a set of ENABLE changes nothing in a queue that is enabled and is a dropped write in one that drains, snuffs or is in
error; and the wait limit of a QUIESCE ends its wait with status 0x85.

The model's choices in it: logs 7, 15, 77. -/
def Obligations.WorkQueuesStopAndResume : Prop :=
  (∀ (s : State) (p k : Nat) (c : Cmd) (w v : Wq), CmdReady s p k 0x0016 (fun ps => par ps 2 != 1) (wqAuth p) c → let b := s.begin p k c;
    c.stage = 0 → c.arg 2 = 0 → b.wq (c.arg 1) = some w → w.inst = c.arg 0 →
    (b.quiesceWq (c.arg 1)).wq (c.arg 1) = some v → v.state ≠ .idle →
    exec (.quiesce p k) s = .next (((b.quiesceWq (c.arg 1)).setWq (c.arg 1)
      { v with quiesce := v.quiesce ++ [(p, k)] }).keep p k { c.begun with stage := 1 }).finish) ∧
  (∀ (s : State) (p k : Nat) (c : Cmd) (w v : Wq), CmdReady s p k 0x0016 (fun ps => par ps 2 != 1) (wqAuth p) c → let b := s.begin p k c;
    c.stage = 0 → c.arg 2 = 0 → b.wq (c.arg 1) = some w → w.inst = c.arg 0 →
    (b.quiesceWq (c.arg 1)).wq (c.arg 1) = some v → v.state = .idle →
    exec (.quiesce p k) s = .next ((b.quiesceWq (c.arg 1)).replied p k stSuccess 0 (resultBytes [])).finish) ∧
  (∀ (s : State) (p k : Nat) (c : Cmd) (w : Wq), CmdReady s p k 0x0016 (fun ps => par ps 2 == 1) (wqAuth p) c → let b := s.begin p k c;
    b.wq (c.arg 1) = some w → w.inst = c.arg 0 → w.state = .idle →
    exec (.resume p k) s = .next ((b.resumeWq (c.arg 1)).replied p k stSuccess 0 (resultBytes [])).finish) ∧
  (∀ (s : State) (p k : Nat) (c : Cmd) (w v : Wq), CmdReady s p k 0x0017 anySel (wqAuth p) c → let b := s.begin p k c;
    c.stage = 0 → b.wq (c.arg 1) = some w → w.inst = c.arg 0 → w.state ≠ .snuffing →
    (b.snuff (c.arg 1) stAborted dSnuff).wq (c.arg 1) = some v → v.state = .snuffing →
    exec (.snuffQueue p k) s = .next (((b.snuff (c.arg 1) stAborted dSnuff).setWq (c.arg 1)
      { v with snuffers := v.snuffers ++ [(p, k)] }).keep p k { c.begun with stage := 1 }).finish) ∧
  (∀ (s : State) (p k : Nat) (c : Cmd), s.pwr.off = false → SMap.find (s.adm1 p).cmds k = some c → s.cpRuns = true →
    opcodeOf c.pkt = 0x0016 → c.stage = 1 → c.arg 3 ≠ 0 →
    exec (.quiesceWaitLimit p k) s = .next ((s.updWq (c.arg 1) fun w =>
      { w with quiesce := w.quiesce.filter (· != (p, k)) }).replied p k 0x85 0 []).finish) ∧
  (∀ (s : State) (n size : Nat), s.expertOpen 0 (wqStateAt n size) →
    exec (.wqEnableClear 0 (n, size)) s = .next (s.quiesceWq n).finish) ∧
  (∀ (s : State) (n size : Nat) (w : Wq), s.expertOpen 0 (wqStateAt n size) → s.wq n = some w → w.state = .idle →
    exec (.wqEnableSet 0 (n, size)) s = .next (s.resumeWq n).finish) ∧
  (∀ (s : State) (n size : Nat) (w : Wq), s.expertOpen 0 (wqStateAt n size) → s.wq n = some w → w.state = .enabled →
    exec (.wqEnableSet 0 (n, size)) s = .next s.finish) ∧
  (∀ (s : State) (n size : Nat) (w : Wq), s.expertOpen 0 (wqStateAt n size) → s.wq n = some w → w.state ≠ .idle → w.state ≠ .enabled →
    exec (.wqEnableSet 0 (n, size)) s = .next (s.expertDrop (wqStateAt n size)).finish)

/-- Doorbells (R158 to R161): one of the function's own work queue and of its generation, whose index lies within the ring and not behind the
last, becomes the queue's DOORBELL; one of another queue or generation, and a write of the high dword alone, is dropped and counted; and the CQ
fields move the completion queue's consumer or arm it.

Completion and lantern queues (R169, R173, R174): a full queue's hold that reaches its limit fails the queue; a consumer index that does
not pass the producer is taken and held events are written; an arm of a queue with records beyond the consumer signals at once; and LOST is
cleared.

The model's choices in it: log 77. -/
def Obligations.DoorbellsAndQueueIndicesMove : Prop :=
  ((∀ (s : State) (fn n value : Nat) (w : Wq), s.serves → s.wq n = some w → w.gen = bits value 31 24 → w.inst = fn →
    w.state ≠ .error → w.state ≠ .snuffing → bits value 23 0 ≠ w.doorbell → distance w.head (bits value 23 0) ≤ 2 ^ w.log2 →
    distance w.head w.doorbell ≤ distance w.head (bits value 23 0) →
    bit value 32 = false → bit value 33 = false → bit value 34 = false →
    exec (.wqDoorbell fn n value) s = .next (s.setWq n { w with
      doorbell := bits value 23 0
      bellLog := w.bellLog ++ [(bits value 23 0,
        (s.q.wqs.filter fun e => e.2.inst == w.inst && e.1 != n).map fun e => (e.1, e.2.doorbell))] }).finish) ∧
  (∀ (s : State) (fn n value : Nat) (w : Wq), s.serves → s.wq n = some w → (w.gen ≠ bits value 31 24 ∨ w.inst ≠ fn) →
    exec (.wqDoorbell fn n value) s = .next ((s.count .QPE_DOORBELL_DROP_COUNT).setFlag .QPE_QUEUE_ERR 0).finish) ∧
  (∀ (s : State) (fn n : Nat), s.serves →
    exec (.doorbellHighDwordWrite fn (n, 0xF0)) s = .next ((s.count .QPE_DOORBELL_DROP_COUNT).setFlag .QPE_QUEUE_ERR 1).finish) ∧
  (∀ (s : State) (fn n lanes : Nat), s.serves → lanes < 16 →
    exec (.doorbellHighDwordWrite fn (n, lanes)) s =
      .next (s.accessLog akNarrow 2 fn (popcount 8 lanes) (8 * n + if lanes % 16 = 0 then 4 else 0)).finish) ∧
  (∀ (s : State) (fn n lanes : Nat), s.serves → 16 ≤ lanes → lanes % 16 ≠ 0 →
    exec (.doorbellHighDwordWrite fn (n, lanes)) s = .next (s.accessLog akMisaligned 2 fn (popcount 8 lanes) (8 * n)).finish) ∧
  (∀ (s : State) (fn n value v : Nat) (w : Wq) (q : Cq), s.serves → v = setBits value 32 32 1 → bit v 33 = false → bit v 34 = false →
    s.wq n = some w → w.gen = bits v 31 24 → w.inst = fn → w.state ≠ .error → w.state ≠ .snuffing → bits v 23 0 = w.doorbell →
    s.cq w.cq = some q → distance q.consumer (bits v 63 40) ≤ distance q.consumer q.producer →
    exec (.cqConsumerUpdate fn n value) s = .next (State.cqDrain w.cq (q.held.length + 1) (s.setCq w.cq { q with
      consumer := bits v 63 40
      solicitedAt := q.solicitedAt.filter fun i => decide (distance q.consumer (bits v 63 40) ≤ distance q.consumer i) })).finish) ∧
  (∀ (s : State) (fn n value v : Nat) (w : Wq) (q : Cq), s.serves → v = setBits value 33 33 1 → bit v 32 = false →
    s.wq n = some w → w.gen = bits v 31 24 → w.inst = fn → w.state ≠ .error → w.state ≠ .snuffing → bits v 23 0 = w.doorbell →
    SMap.wf s.q.cqs = true → s.cq w.cq = some q → q.consumer = q.producer → q.solicitedAt = [] →
    exec (.cqArm fn n value) s = .next (s.setCq w.cq { q with armed := true }).finish) ∧
  (∀ (s : State) (fn n value v : Nat) (w : Wq) (q : Cq), s.serves → v = setBits (setBits value 33 33 0) 34 34 1 → bit v 32 = false →
    s.wq n = some w → w.gen = bits v 31 24 → w.inst = fn → w.state ≠ .error → w.state ≠ .snuffing → bits v 23 0 = w.doorbell →
    SMap.wf s.q.cqs = true → s.cq w.cq = some q → q.solicitedAt = [] →
    exec (.cqArmSolicited fn n value) s = .next (s.setCq w.cq { q with armedSol := true }).finish)) ∧
  ((∀ (s : State) (c : Nat) (q : Cq), s.pwr.off = false → s.cq c = some q → q.state = .fullWait →
    exec (.cqFullWaitExpiry c) s = .next (s.cqFail c qrCqOverflow).finish) ∧
  (∀ (s : State) (fn n index : Nat) (l : Lq), s.serves → s.lq n = some l → l.inst = fn →
    distance l.consumer (index % ringMod) ≤ distance l.consumer l.producer →
    exec (.lqConsumerWrite fn n index) s =
      .next (State.lqDrain n (l.held.length + 1) (s.setLq n { l with consumer := index % ringMod })).finish) ∧
  (∀ (s : State) (fn n : Nat) (l : Lq), s.serves → s.lq n = some l → l.inst = fn → l.consumer = l.producer →
    exec (.lqArm fn n) s = .next (s.setLq n { l with armed := true }).finish) ∧
  (∀ (s : State) (fn n : Nat) (l : Lq), s.serves → s.lq n = some l → l.inst = fn → l.consumer ≠ l.producer →
    exec (.lqArm fn n) s = .next ((s.setLq n { l with armed := false }).msix l.inst l.vector).finish) ∧
  (∀ (s : State) (fn n : Nat) (l : Lq), s.serves → s.lq n = some l → l.inst = fn →
    exec (.lqLostClear fn n) s = .next (s.setLq n { l with lost := false }).finish))

/-- The fetch and the judgement of descriptors (R162, R165, R188): one fetch reads the units up to the doorbell, the ring's end, a page's end, 16
units and the prefetch limit, and a whole descriptor of a right length is taken and judged as a new operation of its queue.

The model's choices in it: logs 7, 80. -/
def Obligations.DescriptorsAreFetchedAndJudged : Prop :=
  (∀ (s u : State) (n k t : Nat) (w : Wq) (i : Inst), s.pwr.off = false → s.fetchTurn n = true → s.wq n = some w → w.state = .enabled → s.inst w.inst = some i →
    i.hold = false → i.state = .active → (s.fn w.inst).held = false → s.snapStopped w = false →
    k = min (min (distance w.fetch w.doorbell) (2 ^ w.log2 - slotOf w.fetch w.log2))
      (min (64 - slotOf w.fetch w.log2 % 64) (min 16 (32 - w.prefetched))) → k ≠ 0 →
    ({ s with q := { s.q with turn := n } }).lookup (.ringFetch n w.fetch) w.inst (w.ring + slotOf w.fetch w.log2 * 64) .read =
      (.ok .hbm t, u) → (u.hbmRead t (k * 64)).2.1 = false →
    exec (.descriptorFetch n) s = .next ((u.hbmRead t (k * 64)).2.2.setWq n { w with
      fetch := advance w.fetch k, fresh := false, units := putUnits w.units w.fetch (u.hbmRead t (k * 64)).1 k }).finish) ∧
  (∀ (s : State) (n len : Nat) (w : Wq) (u0 d : Bytes), s.pwr.off = false → s.wq n = some w → SMap.find w.units w.judged = some u0 →
    w.wholeNext = true → len = dLen u0 → len ≠ 0 → len ≤ 16 → slotOf w.judged w.log2 + len ≤ 2 ^ w.log2 →
    d = (List.range len).flatMap (fun i => SMap.getD w.units (advance w.judged i) []) →
    (({ s with q := { s.q with nextOp := s.q.nextOp + 1 } }).setWq n { w with
        ops := w.ops ++ [mkOp s.q.nextOp w.judged len d .ready none (w.bellsAt w.judged)]
        units := (List.range len).foldl (fun m i => SMap.del m (advance w.judged i)) w.units
        judged := advance w.judged len }).judgeDesc w.gen d = none →
    exec (.descriptorArrival n) s = .next (((({ s with q := { s.q with nextOp := s.q.nextOp + 1 } }).setWq n { w with
        ops := w.ops ++ [mkOp s.q.nextOp w.judged len d .ready none (w.bellsAt w.judged)]
        units := (List.range len).foldl (fun m i => SMap.del m (advance w.judged i)) w.units
        judged := advance w.judged len })).drained n).finish)

/-- Queue pairs (R249, R251, R255): they are created at the lowest free number of their port, connected and moved between their states, read
and destroyed; and a physical function sets where its context store lies (R279).

The model's choices in it: logs 32, 79. -/
def Obligations.QueuePairsAreManaged : Prop :=
  (∀ (s e : State) (p k : Nat) (c : Cmd) (i : Inst) (q : Cq) (qpn : Nat), CmdReady s p k 0x0020 anySel (bindAuth p) c → let b := s.begin p k c;
    b.inst (c.arg 0) = some i → b.member (c.arg 5) b.me = true →
    (c.arg 1 = 0xFFFF ∨ ∃ w, b.wq (c.arg 1) = some w ∧ w.inst = c.arg 0 ∧ w.qp = none) →
    b.cq (c.arg 2) = some q → q.inst = c.arg 0 → q.state ≠ .error →
    (c.arg 3 = 1 → b.hasCap capCipher = true ∧ b.keyOf (c.arg 6) (c.arg 0) = true) →
    b.hasRoom (c.arg 0) (b.qpSlots (portOf (c.arg 0)) - 1) (·.qpQuota) (fun i => countIn b.qpe.qps fun q => q.inst == i)
      (fun i => portOf i == portOf (c.arg 0)) = true →
    SMap.freeFrom b.qpe.qps (b.qpSlots (portOf (c.arg 0)) - 1) (portOf (c.arg 0) * 2 ^ 22 + 1) = some qpn → b.evictCtx = some e →
    exec (.createQp p k) s = .next (((e.withQp qpn { (default : Qp) with
      inst := c.arg 0, instGen := i.gen, wq := if c.arg 1 = 0xFFFF then none else some (c.arg 1), cq := c.arg 2, forerunner := c.arg 3 == 1
      tc := c.arg 4, partition := c.arg 5, keySlot := if c.arg 3 = 1 then c.arg 6 else 0, sendSegment := 1
      engine := if c.arg 3 = 1 then e.pickEngine else none, cached := true, dirty := true }).bindWq (c.arg 1) qpn).replied p k stSuccess 0
        (resultBytes [(24, qpn)])).finish) ∧
  (∀ (s : State) (p k : Nat) (c : Cmd) (q : Qp), CmdReady s p k 0x0021 anySel (qpAuth p) c → let b := s.begin p k c;
    b.qp (c.arg 0) = some q → q.cached = true → q.state = 0 → c.arg 1 = 1 → c.arg 3 ≠ 0 →
    exec (.modifyQp p k) s = .next ((b.setQp (c.arg 0) { q.connect (c.arg 2) (c.arg 3) (c.arg 4) (c.arg 5) with state := 1, joined := true }).replied p k
      stSuccess 0 (resultBytes [(8, 1)])).finish) ∧
  (∀ (s : State) (p k : Nat) (c : Cmd) (q : Qp), CmdReady s p k 0x0021 anySel (qpAuth p) c → let b := s.begin p k c;
    b.qp (c.arg 0) = some q → q.cached = true → q.state = 1 → c.arg 1 = 0 → b.qpTxns (c.arg 0) = [] →
    exec (.modifyQp p k) s = .next ((b.setQp (c.arg 0) { q with state := 0, joined := false, dirty := true }).replied p k
      stSuccess 0 (resultBytes [(8, 0)])).finish) ∧
  (∀ (s : State) (p k : Nat) (c : Cmd) (q : Qp), CmdReady s p k 0x0022 anySel (qpAuth p) c → let b := s.begin p k c;
    b.qp (c.arg 0) = some q →
    exec (.queryQp p k) s = .next (b.replied p k stSuccess 0
      (resultBytes [(8, q.state), (24, q.sendPsn), (24, q.rx.expect), (24, q.remoteQpn)])).finish) ∧
  (∀ (s : State) (p k : Nat) (c : Cmd) (q : Qp), CmdReady s p k 0x0023 anySel (qpAuth p) c → let b := s.begin p k c;
    b.qp (c.arg 0) = some q → q.state ≠ 1 → b.qpTxns (c.arg 0) = [] → q.wq = none →
    exec (.destroyQp p k) s = .next ((b.removeQp (c.arg 0)).replied p k stSuccess 0 (resultBytes [])).finish) ∧
  (∀ (s : State) (p value : Nat), s.serves → isPf (128 * p) = true → portOf (128 * p) = p →
    (s.qpe.qps.any fun e => e.1 / 2 ^ 22 == p) = false →
    exec (.qpcStoreWrite (128 * p) false value) s =
      .next (s.setRegOf (128 * p) .QPE_QPC_BASE (BitVec.ofNat 64 (value / 4096 * 4096))).finish) ∧
  (∀ (s : State) (p value : Nat), s.serves → isPf (128 * p) = true → portOf (128 * p) = p →
    (s.qpe.qps.any fun e => e.1 / 2 ^ 22 == p) = false → 10 ≤ value % 32 → value % 32 ≤ 22 →
    exec (.qpcStoreWrite (128 * p) true value) s = .next (s.setRegOf (128 * p) .QPE_QPC_SIZE (BitVec.ofNat 64 (value % 32))).finish)

/-! ## Skylights, hall pages and placement -/

/-- Skylights (R68 to R71, R77, R83): opening one takes an index and a drawn tag; revoking one that is open begins its revocation, and one
that is revoking is joined; and a query answers with what it holds.

The model's choices in it: logs 60, 63, 72. -/
def Obligations.SkylightsAreOpenedAndRevoked : Prop :=
  (∀ (s : State) (p k : Nat) (c : Cmd) (i : Inst) (n : Nat), CmdReady s p k 0x0030 anySel (instAuth p 0) c → let b := s.begin p k c;
    b.inst (c.arg 0) = some i → c.arg 3 ≠ 0 → b.skyBadRange (c.arg 1 == 1) (c.arg 4) (c.arg 5) = false → c.arg 2 ≠ 0 → b.sec.entropy ≠ 2 →
    b.hasRoom (c.arg 0) (2 ^ 20) (·.skyQuota) b.skiesOf (fun _ => true) = true → b.sec.due.contains 2 = false → b.skyIndex = some n →
    exec (.openSkylight p k) s = .next (((b.drawn).setSky n
      { state := .open_, tag := b.skyTag n, hall := c.arg 1 == 1, inst := c.arg 0, base := c.arg 4, len := c.arg 5, partition := c.arg 3
        rights := c.arg 2, revokedAt := 0, waiting := [] }).replied p k stSuccess 0 (resultBytes [(32, b.skyTag n * 2 ^ 20 + n)])).finish) ∧
  (∀ (s : State) (p k : Nat) (c : Cmd) (x : Sky), CmdReady s p k 0x0031 anySel (skyAuth p) c → let b := s.begin p k c;
    c.stage = 0 → b.skyOf (c.arg 0) = some x → x.state ≠ .revoking →
    exec (.revokeSkylight p k) s = .next ((b.beginRevoke (c.arg 0 % 2 ^ 20) x [(p, k)]).keep p k { c.begun with stage := 1 }).finish) ∧
  (∀ (s : State) (p k : Nat) (c : Cmd) (x : Sky), CmdReady s p k 0x0031 anySel (skyAuth p) c → let b := s.begin p k c;
    c.stage = 0 → b.skyOf (c.arg 0) = some x → x.state = .revoking →
    exec (.revokeSkylight p k) s = .next ((b.setSky (c.arg 0 % 2 ^ 20) { x with waiting := x.waiting ++ [(p, k)] }).keep p k
      { c.begun with stage := 1 }).finish) ∧
  (∀ (s : State) (p k : Nat) (c : Cmd) (x : Sky), CmdReady s p k 0x0032 anySel (skyAuth p) c → let b := s.begin p k c;
    b.skyOf (c.arg 0) = some x →
    exec (.querySkylight p k) s = .next (b.replied p k stSuccess 0
      (resultBytes [(8, b2n (x.state == .revoking)), (8, x.rights), (16, x.partition), (9, x.inst), (64, x.len)])).finish)

/-- Hall pages (R58, R86): allocation makes each page a HOME page with a frame and answers with the first address; freeing begins over the
whole scope and waits for it.

The targets of a MAP_PAGES (R119): consecutive from its address, or a list in the issuer's memory once that has been read.

The model's choices in it: log 63. -/
def Obligations.HallPagesAreAllocatedAndMapped : Prop :=
  ((∀ (s : State) (p k : Nat) (c : Cmd) (t : State), CmdReady s p k 0x0070 anySel anyAuth c → let b := s.begin p k c;
    c.arg 0 ≠ 0 → c.arg 3 ≠ 0 → c.arg 2 + c.arg 3 ≤ 2 ^ 23 →
    (b.hall.pages.any fun e => decide (c.arg 2 ≤ e.1) && decide (e.1 < c.arg 2 + c.arg 3)) = false →
    b.hall.pages.length + c.arg 3 ≤ 262144 → c.arg 3 ≤ b.freeFrames →
    (List.range (c.arg 3)).foldl (fun (o : Option State) i => o.bind fun s => s.allocPage (c.arg 2 + i) (c.arg 0) (c.arg 1 == 1))
      (some b) = some t →
    exec (.allocateHallPages p k) s = .next (t.replied p k stSuccess 0 (resultBytes [(64, pageAddress b.me (c.arg 2))])).finish) ∧
  (∀ (s : State) (p k : Nat) (c : Cmd), CmdReady s p k 0x0071 anySel anyAuth c → let b := s.begin p k c;
    c.stage = 0 → c.arg 1 ≠ 0 → c.arg 0 + c.arg 1 ≤ 2 ^ 23 → b.allAllocated (c.arg 0) (c.arg 1) = true →
    exec (.freeHallPages p k) s = .next ((b.beginFree p k (c.arg 0) (c.arg 1)).keep p k { c.begun with stage := 1 }).finish) ∧
  (∀ (s t : State) (i partition f : Nat) (readOnly : Bool), s.takeFrame (.home i) = some (f, t) →
    s.allocPage i partition readOnly = some ((t.setPage i { (default : Page) with
      state := .home, before := .home, readOnly, partition, seq := 1, writer := t.me, lastChange := t.nowUs, frame := f }).setHeld
        (pageKey t.me i) { (default : Held) with frame := f, seq := 1, partition, readOnly, home := t.me }))) ∧
  ((∀ (s : State) (p k : Nat) (c c0 : Cmd) (u t v : State) (i : Inst) (targets : List Nat) (fresh : List (Nat × Leaf))
      (maps : SMap Leaf) (tables : SMap Nat),
    CmdReady s p k 0x0040 anySel (instAuth p 0) c → let b := s.begin p k c; c.stage = 0 → (b.inst (c.arg 0)).isSome = true → c.arg 3 ≠ 0 → c.arg 3 ≤ 65536 →
    (c.arg 5 ≠ 0 ∨ c.arg 6 ≠ 0) → c.arg 4 ≠ 3 → c.arg 1 + c.arg 3 * pageBytes (c.arg 2) ≤ 2 ^ 48 →
    ((c.arg 8 = 0 ∧ c0 = c.begun ∧ u = b ∧ targets = (List.range (c.arg 3)).map fun j => c.arg 9 + j * pageBytes (c.arg 2)) ∨
     (c.arg 8 ≠ 0 ∧ ∃ l, b.admRead p k c.begun (c.arg 9) (8 * c.arg 3) = (some (some l), c0, u) ∧
       targets = (List.range (c.arg 3)).map fun j => leAt l (8 * j) 8)) →
    u.inst (c.arg 0) = some i → c.arg 1 % pageBytes (c.arg 2) = 0 → (targets.any fun a => a % pageBytes (c.arg 2) != 0) = false →
    (targets.any fun a => !u.targetOk (c.arg 0) i (kindOf (c.arg 4)) a (pageBytes (c.arg 2))) = false →
    overlapping i.maps (c.arg 1) (c.arg 1 + c.arg 3 * pageBytes (c.arg 2)) = [] → isPf (c.arg 0) = false →
    fresh = targets.mapIdx (fun j a =>
      (c.arg 1 + j * pageBytes (c.arg 2), (⟨c.arg 2, kindOf (c.arg 4), a, c.arg 5 == 1, c.arg 6 == 1⟩ : Leaf))) →
    maps = fresh.foldl (fun m e => SMap.put m e.1 e.2)
      (apart i.maps (c.arg 1) (c.arg 1 + c.arg 3 * pageBytes (c.arg 2))) →
    (u.takeNamed (c.arg 0) []).placeTables (c.arg 0) i maps
      (((tablesFor maps).map (·.1)).filter fun key => !SMap.has (SMap.keep i.tables fun key _ => SMap.has (tablesFor maps) key) key)
      (SMap.keep i.tables fun key _ => SMap.has (tablesFor maps) key) = some (tables, t) →
    v = (t.setMaps (c.arg 0) i maps tables).forgetEnds (c.arg 0) (c.arg 1) (c.arg 1 + c.arg 3 * pageBytes (c.arg 2)) →
    exec (.mapPages p k) s = .next (v.replied p k stSuccess 0
      (resultBytes [(32, c.arg 3), (32, v.tablesLeft (c.arg 0))])).finish) ∧
  (∀ (s : State) (p k : Nat) (c : Cmd) (i : Inst) (hi : Nat), CmdReady s p k 0x0041 anySel (instAuth p 0) c → let b := s.begin p k c;
    c.stage = 0 → b.inst (c.arg 0) = some i → c.arg 3 ≠ 0 → c.arg 3 ≤ 65536 → hi = c.arg 1 + c.arg 3 * pageBytes (c.arg 2) → hi ≤ 2 ^ 48 →
    exec (.unmapPages p k) s = .next (((((b.setMaps (c.arg 0) i (apart i.maps (c.arg 1) hi)
      (SMap.keep i.tables fun key _ => SMap.has (tablesFor (apart i.maps (c.arg 1) hi)) key)).invalidate (c.arg 0) (c.arg 1) hi).beginDrain
        (c.arg 0) (drainTarget ((overlapping i.maps (c.arg 1) hi).map (·.2))) (some (p, k))
        (resultBytes [(32, (overlapping i.maps (c.arg 1) hi).length)]))).keep p k { c.begun with stage := 1 }).finish))

/-- Pins and policies (R539 to R541, R556, R557): pages and programs are pinned to a member and unpinned, and a partition's policy is set.

Placement in time (R537, R543, R554, R557): a decay period halves the heat, and forwarding entries, pins that wait and exclusions come to
their end.

The model's choices in it: logs 22, 86. -/
def Obligations.PlacementIsDirectedAndRuns : Prop :=
  ((∀ (s : State) (p k : Nat) (c : Cmd), CmdReady s p k 0x0072 (fun ps => par ps 0 == 1 || decide (3 < par ps 0)) anyAuth c → let b := s.begin p k c;
    pinField c.params = false → b.allAllocated (c.arg 2) (c.arg 3) = true →
    ((b.pagesIn (c.arg 2) (c.arg 3)).any fun e => !b.member e.2.partition (c.arg 1)) = false →
    b.pinNoReserve (c.arg 1) (b.pagesIn (c.arg 2) (c.arg 3)) = false →
    exec (.pinPages p k) s = .next (((b.pagesIn (c.arg 2) (c.arg 3)).foldl (fun (s : State) e => s.pinPage (c.arg 1) e.1) b).replied p k
      stSuccess 0 (resultBytes [])).finish) ∧
  (∀ (s : State) (p k : Nat) (c : Cmd), CmdReady s p k 0x0072 (fun ps => par ps 0 == 0) anyAuth c → let b := s.begin p k c;
    pinField c.params = false → b.allAllocated (c.arg 2) (c.arg 3) = true →
    exec (.unpinPages p k) s = .next (((b.pagesIn (c.arg 2) (c.arg 3)).foldl (fun (s : State) e =>
      s.updPage e.1 fun g => { g with pinned := false, pinWait := false, pinNoted := false }) b).replied p k
        stSuccess 0 (resultBytes [])).finish) ∧
  (∀ (s : State) (p k : Nat) (c : Cmd) (g : Program), CmdReady s p k 0x0072 (fun ps => par ps 0 == 3) anyAuth c → let b := s.begin p k c;
    pinField c.params = false → SMap.find b.trn.programs (c.arg 4) = some g → b.member g.partition (c.arg 1) = true →
    exec (.pinProgram p k) s = .next (({ b with plc := { b.plc with pins := SMap.put b.plc.pins (c.arg 4) (c.arg 1) } }).replied p k
      stSuccess 0 (resultBytes [])).finish) ∧
  (∀ (s : State) (p k : Nat) (c : Cmd), CmdReady s p k 0x0072 (fun ps => par ps 0 == 2) anyAuth c → let b := s.begin p k c;
    pinField c.params = false → SMap.has b.trn.programs (c.arg 4) = true →
    exec (.unpinProgram p k) s = .next (({ b with plc := { b.plc with pins := SMap.del b.plc.pins (c.arg 4) } }).replied p k
      stSuccess 0 (resultBytes [])).finish) ∧
  (∀ (s : State) (p k : Nat) (c : Cmd), CmdReady s p k 0x0073 anySel anyAuth c → let b := s.begin p k c;
    b.member (c.arg 0) b.me = true → c.arg 3 ≤ 12 → c.arg 5 ≠ 0 → c.arg 4 ≤ b.reserveOf (c.arg 0) + b.freeFrames →
    exec (.setPlacementPolicy p k) s = .next (({ b with
      plc := { b.plc with policies := SMap.put b.plc.policies (c.arg 0) ⟨c.arg 1 == 1, c.arg 2 == 1, c.arg 3, c.arg 5, c.arg 4⟩ } }).replied
        p k stSuccess 0 (resultBytes [])).finish)) ∧
  ((∀ s : State, s.pwr.off = false → exec .heatDecay s = .next s.decay.finish) ∧
  (∀ (s : State) (home page : Nat), s.pwr.off = false →
    exec (.forwardingEntryExpiry home page) s =
      .next ({ s with plc := { s.plc with forward := SMap.del s.plc.forward (pageKey home page) } }).finish) ∧
  (∀ (s : State) (page : Nat) (x : Page), s.pwr.off = false → s.page page = some x → ((s.domain x.partition).map (·.stopped)).getD false = false →
    x.pinWait = true → x.step = 0 → x.freeing = false → x.state ≠ .replicated → x.state ≠ .moving → x.writer ≠ x.pinHolder →
    s.member x.partition x.pinHolder = true → s.shooting page = false →
    s.copiesOf x.writer < s.comF .PLC_MOVE_CFG 15 8 →
    exec (.pinWaitRetry page) s = .next (s.beginMove page x.pinHolder false).finish) ∧
  (∀ (s : State) (program m : Nat), s.pwr.off = false →
    exec (.programExclusionExpiry program m) s =
      .next ({ s with plc := { s.plc with absent := s.plc.absent.filter (· != (program, m)) } }).finish))

/-! ## Translation -/

/-- Dirty logs (R127, R130, R131): enabling a slot starts it empty, switching retires a bitmap whose lines are written, and disabling frees the
slot.

Walks, drains and invalidation (R112, R123, R139): a walk that has read its tables answers, a drain whose uses have ended replies, and a
write of `XLT_INVAL` invalidates all translations or an instance's and waits for the walks in progress.

The model's choices in it: logs 12, 66, 69, 70, 71. -/
def Obligations.DirtyLogsAndTranslationsAreKept : Prop :=
  ((∀ (s : State) (p k : Nat) (c : Cmd) (i : Inst),
    CmdReady s p k 0x0042 (fun ps => par ps 0 == 0 || decide (2 < par ps 0)) (instAuth p 1) c → let b := s.begin p k c;
    b.inst (c.arg 1) = some i → c.arg 0 ≤ 2 → c.arg 3 % 4096 = 0 → c.arg 4 % 4096 = 0 → c.arg 4 ≠ 0 → c.arg 4 ≤ 2 ^ 40 →
    c.arg 5 % 64 = 0 → c.arg 6 % 64 = 0 → SMap.has i.dirty (c.arg 2) = false →
    (i.dirty.any fun d => decide (d.2.iva < c.arg 3 + c.arg 4) && decide (c.arg 3 < d.2.iva + d.2.len)) = false →
    exec (.dirtyLogEnable p k) s = .next ((b.setSlot (c.arg 1) (c.arg 2)
      ⟨c.arg 3, c.arg 4, c.arg 5, c.arg 6, p * 128, false, [], 0, false, false, false, []⟩).replied p k stSuccess 0 (resultBytes [])).finish) ∧
  (∀ (s : State) (p k : Nat) (c : Cmd) (d e : DirtySlot), CmdReady s p k 0x0042 (fun ps => par ps 0 == 1) (instAuth p 1) c → let b := s.begin p k c;
    b.dirtySlot (c.arg 1) (c.arg 2) = some d → d.stopped = false → b.dirtyConfirming (c.arg 1) (c.arg 2) = false →
    (b.dirtyFlush (c.arg 1) (c.arg 2)).dirtySlot (c.arg 1) (c.arg 2) = some e → e.stopped = false → e.lines = [] →
    (b.dirtyFlush (c.arg 1) (c.arg 2)).dirtyAwaits (c.arg 1) (c.arg 2) = false → e.posted = [] →
    exec (.dirtyLogSwitch p k) s = .next (((b.dirtyFlush (c.arg 1) (c.arg 2)).setSlot (c.arg 1) (c.arg 2) e.swap).replied p k stSuccess 0
      (resultBytes [(32, e.newBits)])).finish) ∧
  (∀ (s : State) (p k : Nat) (c : Cmd) (d e : DirtySlot), CmdReady s p k 0x0042 (fun ps => par ps 0 == 1) (instAuth p 1) c → let b := s.begin p k c;
    b.dirtySlot (c.arg 1) (c.arg 2) = some d → d.stopped = false → b.dirtyConfirming (c.arg 1) (c.arg 2) = false →
    (b.dirtyFlush (c.arg 1) (c.arg 2)).dirtySlot (c.arg 1) (c.arg 2) = some e → e.stopped = false → e.lines = [] →
    (b.dirtyFlush (c.arg 1) (c.arg 2)).dirtyAwaits (c.arg 1) (c.arg 2) = false → e.posted ≠ [] →
    exec (.dirtyLogSwitch p k) s =
      .next (((b.dirtyFlush (c.arg 1) (c.arg 2)).dirtyConfirm (c.arg 1) (c.arg 2)).keep p k c.begun).finish) ∧
  (∀ (s : State) (p k : Nat) (c : Cmd), CmdReady s p k 0x0042 (fun ps => par ps 0 == 2) (instAuth p 1) c → let b := s.begin p k c;
    (b.dirtySlot (c.arg 1) (c.arg 2)).isSome = true → ((b.dirtyClose (c.arg 1) (c.arg 2)).dirtySlot (c.arg 1) (c.arg 2)).isNone = true →
    exec (.dirtyLogDisable p k) s = .next ((b.dirtyClose (c.arg 1) (c.arg 2)).replied p k stSuccess 0 (resultBytes [])).finish)) ∧
  ((∀ (s u : State) (walk : Nat) (w : Walk) (i : Inst) (e : Nat × Leaf), s.pwr.off = false → SMap.find s.xlt.walks walk = some w →
    s.inst w.inst = some i → i.gen = w.gen → s.overtaken w.inst w.seq = false →
    s.walkFrom w.inst i w.iva w.level = (.inl e, u) →
    exec (.tableWalkDone walk) s = .next (((u.fillTlb w.inst i.gen e).walkEnds w (some e) 0).walkerFree walk).poisonsMet.finish) ∧
  (∀ (s u : State) (walk kind : Nat) (w : Walk) (i : Inst), s.pwr.off = false → SMap.find s.xlt.walks walk = some w →
    s.inst w.inst = some i → i.gen = w.gen → s.overtaken w.inst w.seq = false → s.walkFrom w.inst i w.iva w.level = (.inr kind, u) →
    exec (.tableWalkDone walk) s = .next ((u.walkEnds w none kind).walkerFree walk).poisonsMet.finish) ∧
  (∀ (s : State) (n : Nat) (d : UseDrain) (w : Nat × Nat), s.pwr.off = false →
    (s.xlt.drains.find? fun d => d.inst == n && d.over && !s.writesLeft n) = some d → d.who = some w →
    exec (.translationDrainDone n) s =
      .next (({ s with xlt := { s.xlt with drains := s.xlt.drains.erase d } }).replied w.1 w.2 stSuccess 0 d.result).finish) ∧
  (∀ s : State, s.expertOpen 0 Reg.XLT_INVAL.addr → s.xlt.invalWait = [] →
    exec (.xltInvalAll 0) s = .next ({ s.invalidateAll with
      xlt := { s.invalidateAll.xlt with invalWait := s.xlt.walks.map fun (e : Nat × Walk) => e.1 } }).finish) ∧
  (∀ (s : State) (n : Nat), s.expertOpen 0 Reg.XLT_INVAL.addr → s.xlt.invalWait = [] →
    exec (.xltInvalInstance 0 n) s = .next ({ s.invalidate (n % 512) 0 (2 ^ 48) with
      xlt := { (s.invalidate (n % 512) 0 (2 ^ 48)).xlt with invalWait := s.xlt.walks.map fun (e : Nat × Walk) => e.1 } }).finish) ∧
  (∀ s : State, s.expertOpen 0 Reg.XLT_INVAL.addr → s.xlt.invalWait ≠ [] →
    exec (.xltInvalAll 0) s = .next (s.expertDrop Reg.XLT_INVAL.addr).finish))

/-! ## Groups, transit programs, wick queues and barriers -/

/-- Groups (R395 to R398, R408): a definition whose list is good joins the members' and waits for them, a release of a group that rests drops it,
a release of one still being defined ends that definition, and a policy is set.

The tree (R77, R86, R425, R794, R797): a TREE_UP that no TREE_DOWN has answered is sent again, a member that has not acknowledged is marked
LOST, and the drains of revocations, freeings and snapshots end.

The model's choices in it: logs 26, 27, 29, 72. -/
def Obligations.GroupsAndTreesComeAndGo : Prop :=
  ((∀ (s : State) (p k : Nat) (c c0 : Cmd) (t : State) (l : Bytes) (ms : List Nat) (x : Group) (d : Domain),
    CmdReady s p k 0x0050 anySel anyAuth c → let b := s.begin p k c; c.stage = 0 → b.group (c.arg 0) = none → c.arg 2 ≠ 0 → c.arg 2 ≤ 131072 →
    b.admRead p k c.begun (c.arg 3) (4 * c.arg 2) = (some (some l), c0, t) → ms = listOf l (c.arg 2) →
    ms.eraseDups.length = ms.length → t.domain (c.arg 1) = some d → d.ready = true →
    (ms.all fun m => t.inTorus m && d.members.contains m) = true → ms.contains t.me = true →
    x = { partition := c.arg 1, list := ms, rank := ms.findIdx (· == t.me), box := isBox ms, crossover := 65536, weight := 16, seq := 0
          waiting := some (p, k), coll := none, early := [], aborted := [] } →
    exec (.defineGroup p k) s = .next (((((((t.dropGroupTrees (c.arg 0)).setCmd p k { c0 with stage := 1 }).setGroup (c.arg 0) x).sendSetup
      (c.arg 0) x).setupCheck (c.arg 0))).keep p k { c0 with stage := 1 }).finish) ∧
  (∀ (s : State) (p k : Nat) (c : Cmd) (x : Group), CmdReady s p k 0x0051 anySel anyAuth c → let b := s.begin p k c;
    b.group (c.arg 0) = some x → x.waiting = none → b.groupBusy (c.arg 0) x = false →
    exec (.releaseGroup p k) s = .next ((b.dropGroup (c.arg 0)).replied p k stSuccess 0 (resultBytes [])).finish) ∧
  (∀ (s : State) (p k : Nat) (c : Cmd) (x : Group) (w : Nat × Nat), CmdReady s p k 0x0051 anySel anyAuth c → let b := s.begin p k c;
    b.group (c.arg 0) = some x → x.waiting = some w →
    exec (.releaseGroup p k) s = .next (((b.dropGroup (c.arg 0)).reply w.1 w.2 stAborted 0 []).replied p k stSuccess 0 (resultBytes [])).finish) ∧
  (∀ (s : State) (p k : Nat) (c : Cmd) (x : Group), CmdReady s p k 0x0052 anySel anyAuth c → let b := s.begin p k c;
    b.definedGroup (c.arg 0) = some x → c.arg 2 ≠ 0 →
    exec (.setCollectivePolicy p k) s = .next ((b.setGroup (c.arg 0) { x with crossover := c.arg 1, weight := c.arg 2 }).replied p k
      stSuccess 0 (resultBytes [])).finish)) ∧
  ((∀ (s : State) (kind root tree seq : Nat) (t : TreeOp), s.pwr.off = false → s.treeOp kind root tree seq = some t →
    kind ≠ tkGroupDefine → t.sentUp = true → t.down = false → t.finished = false → tkAcks kind = false → t.passedUp = false →
    s.upTo t ≠ s.me → exec (.treeUpRetry kind root tree seq) s = .next ((s.count .COL_TREE_RETRY_COUNT).ownUp t).finish) ∧
  (∀ (s : State) (kind root tree seq : Nat) (t : TreeOp), s.pwr.off = false → s.treeOp kind root tree seq = some t →
    kind ≠ tkGroupDefine → t.sentUp = true → t.down = false → t.finished = false → tkAcks kind = false → t.passedUp = true → t.root ≠ s.me →
    exec (.treeUpRetry kind root tree seq) s = .next ((s.count .COL_TREE_RETRY_COUNT).sendUp t t.root
      ((s.treeAlive t).filter fun m => rackOf m == rackOf s.me).length).finish) ∧
  (∀ (s : State) (root tree seq : Nat) (x : Group), s.pwr.off = false → s.group tree = some x → x.waiting.isSome = true →
    x.list.headD s.me = root → root ≠ s.me →
    exec (.treeUpRetry tkGroupDefine root tree seq) s = .next (s.sendSetup tree x).finish) ∧
  (∀ (s : State) (kind root tree seq m : Nat) (t : TreeOp), s.pwr.off = false → s.treeOp kind root tree seq = some t → tkAcks kind = true →
    t.down = true → t.finished = false → m ≠ s.me → root = s.me → t.extra.contains m = true → t.counted.contains m = false →
    exec (.treeAckTimeout kind root tree seq m) s = .next (s.ridge { t with gone := t.gone ++ [m] }).finish) ∧
  (∀ (s : State) (kind root tree seq m : Nat) (t : TreeOp), s.pwr.off = false → s.treeOp kind root tree seq = some t → tkAcks kind = true →
    t.down = true → t.finished = false → m ≠ s.me → (s.treeAlive t).contains m = true → t.extra.contains m = false →
    ((rackOf m = rackOf s.me ∧ s.combiner t (rackOf s.me) = some s.me ∧ t.counted.contains m = false) ∨
      (root = s.me ∧ s.combiner t (rackOf m) = some m ∧ t.racks.contains (rackOf m) = false)) →
    exec (.treeAckTimeout kind root tree seq m) s = .next ((s.setTree { t with lost := t.lost ++ [m] }).markLost t.partition m).finish) ∧
  (∀ (s : State) (root tree : Nat) (d : Drain), s.pwr.off = false →
    (s.hall.drains.find? fun d => d.kind == tkRevoke && d.root == root && d.tree == tree) = some d →
    s.drainHeld d = false →
    exec (.revokeDrainDone tkRevoke root tree) s = .next (({ s with hall := { s.hall with
      drains := s.hall.drains.filter (· != d), copies := SMap.del s.hall.copies (root * 2 ^ 20 + tree % 2 ^ 20) } }).treeArrive
        tkRevoke root tree d.seq d.partition).finish) ∧
  (∀ (s : State) (partition root seq : Nat) (d : Domain), s.pwr.off = false → s.domain partition = some d → d.drain = some (root, seq) →
    s.snapDrained partition = true →
    exec (.snapshotDrainDone partition) s =
      .next ((s.setDomain partition { d with drain := none }).treeArrive tkSnapshot root partition seq partition).finish))

/-- Transit programs (R462, R463, R470, R471, R474, R475): a good image is loaded under a free number and unloaded again; tiles are allocated;
a chunk done moves its program on; a wait that reaches its limit ends the entry TIMEOUT; a READY entry rises in priority; and the register
cancels an entry.

The model's choices in it: logs 23, 63, 87, 88. -/
def Obligations.TransitProgramsRun : Prop :=
  (∀ (s : State) (p k : Nat) (c c0 : Cmd) (t : State) (i : Inst) (l : Bytes) (m : Nat), CmdReady s p k 0x0060 anySel (instAuth p 0) c → let b := s.begin p k c;
    b.inst (c.arg 0) = some i → c.arg 1 ≠ 0 → b.admRead p k c.begun (c.arg 3) (64 * min 64 (c.arg 2)) = (some (some l), c0, t) →
    imageFail l (c.arg 2) = none → t.waitBad l (c.arg 1) = false → t.pickNumber t.trn.programs 1024 = some m →
    exec (.loadTransitProgram p k) s = .next (({ t.drawn with trn := { t.trn with
      programs := SMap.put t.trn.programs m ⟨c.arg 0, c.arg 1, l, beNat ((sha384 l).take 8), false⟩ } }).replied p k stSuccess 0
        (resultBytes [(16, m)])).finish) ∧
  (∀ (s : State) (p k : Nat) (c : Cmd) (x : Program),
    CmdReady s p k 0x0061 anySel (fun s ps => ((s.program (par ps 0)).map fun x => reach p x.inst).getD true) c → let b := s.begin p k c;
    b.program (c.arg 0) = some x → b.entriesOf (c.arg 0) = [] →
    exec (.unloadTransitProgram p k) s = .next (({ b with
      trn := { b.trn with programs := SMap.del b.trn.programs (c.arg 0) }
      plc := { b.plc with pins := SMap.del b.plc.pins (c.arg 0), heat := SMap.keep b.plc.heat fun k _ => k / 8 != c.arg 0 } }).replied p k
        stSuccess 0 (resultBytes [])).finish) ∧
  (∀ (s : State) (die : Nat), s.pwr.off = false →
    exec (.tileAllocation die) s = .next ((List.range 256).foldl (fun (s : State) i => match s.entry (entryKey die i) with
      | some e => if e.state = 4 then (s.entryDomains die e).foldl State.wakeDom s else s
      | none => s) (s.allocateTiles die)).finish) ∧
  (∀ (s : State) (die entry op tile offset : Nat) (e : TEntry), s.pwr.off = false → s.entry (entryKey die entry) = some e → e.state = 4 →
    e.ending = none → ((s.entryDomains die e).any fun d => !s.domOn d) = false → s.pwr.relock.contains die = false →
    exec (.operatorChunkDone die entry op 0 tile offset) s = .next (s.chunkDone (entryKey die entry) op).finish) ∧
  (∀ (s : State) (die entry op tile offset : Nat) (e : TEntry), s.pwr.off = false → s.entry (entryKey die entry) = some e → e.state = 4 →
    e.ending = none → ((s.entryDomains die e).any fun d => !s.domOn d) = false → s.pwr.relock.contains die = false →
    exec (.operatorChunkDone die entry op 2 tile offset) s = .next ((((s.count .MEM_SRAM_UE_COUNT).ecc 2 1 (64 * die + tile % 64) offset).elog
      elSramUe (64 * die + tile % 64) 0 offset).failEntry (entryKey die entry) stPoisoned 0 false).finish) ∧
  (∀ (s : State) (die entry : Nat) (e : TEntry), s.pwr.off = false → s.entry (entryKey die entry) = some e → e.state = 2 →
    imgWaitLimit (s.image e) ≠ 0 →
    exec (.transitWaitTimeout die entry) s = .next (((s.dropEntryWaits (entryKey die entry)).setEntry (entryKey die entry)
      { e with ending := some (stTimeout, 0, false) }).endEntry (entryKey die entry)).finish) ∧
  (∀ (s : State) (die entry : Nat) (e : TEntry), s.pwr.off = false → s.entry (entryKey die entry) = some e → e.state = 3 → e.prio < 3 →
    exec (.transitPriorityPromotion die entry) s = .next (s.setEntry (entryKey die entry) { e with prio := e.prio + 1 }).finish) ∧
  (∀ (s : State) (die value : Nat) (e : TEntry), s.expertOpen 0 (Reg.TRN_CANCEL die).addr → s.entry (entryKey die (value % 256)) = some e →
    exec (.trnCancelWrite 0 die value) s = .next (s.cancelEntry (entryKey die (value % 256)) stAborted dCancel false false).finish)

/-- Wick queues, barriers and mailboxes (R567, R573, R581, R583 to R586): a wick queue is made under the lowest free number and removed, a barrier is
defined over a group, also in place of a vacant one, its participants are set from the next instance on, and a mailbox word is sent and received. -/
def Obligations.WicksBarriersAndMailboxes : Prop :=
  (∀ (s : State) (p k : Nat) (c : Cmd) (i : Inst) (m : Nat), CmdReady s p k 0x0080 anySel (instAuth p 0) c → let b := s.begin p k c;
    b.inst (c.arg 0) = some i → c.arg 1 ≠ 0 → c.arg 2 % 2 ^ 24 ≠ 0 →
    b.hasRoom (c.arg 0) 4096 (·.wickPool) (fun i => countIn b.syn.wicks fun w => w.inst == i) (fun _ => true) = true →
    SMap.freeFrom b.syn.wicks 4096 0 = some m →
    exec (.createWickQueue p k) s = .next ((b.setWick m ⟨c.arg 0, c.arg 1, c.arg 2 % 2 ^ 24, bit (c.arg 2) 24, 0, 0, 0, 0, 0, 0, false, false,
      b.epochNow (c.arg 1), [], true⟩).replied p k stSuccess 0 (resultBytes [(16, m)])).finish) ∧
  (∀ (s : State) (p k : Nat) (c : Cmd) (x : Wick),
    CmdReady s p k 0x0081 anySel (fun s ps => ((s.wick (par ps 0)).map fun w => reach p w.inst).getD true) c → let b := s.begin p k c;
    b.wick (c.arg 0) = some x →
    exec (.destroyWickQueue p k) s = .next ((b.removeWick (c.arg 0) stAborted dCancel).replied p k stSuccess 0 (resultBytes [])).finish) ∧
  (∀ (s : State) (p k : Nat) (c : Cmd) (i : Inst) (g : Group), CmdReady s p k 0x0082 anySel (instAuth p 0) c → let b := s.begin p k c;
    b.inst (c.arg 0) = some i → b.definedGroup (c.arg 1) = some g → b.bar (c.arg 1) = none →
    exec (.defineBarrier p k) s = .next ((b.setBar (c.arg 1) ⟨c.arg 0, c.arg 2 = 1, false, 1, 1, 0, 0, 0, false, none, none, []⟩).replied p k
      stSuccess 0 (resultBytes [(16, c.arg 1)])).finish) ∧
  (∀ (s : State) (p k : Nat) (c : Cmd) (i : Inst) (g : Group) (x : Barrier), CmdReady s p k 0x0082 anySel (instAuth p 0) c → let b := s.begin p k c;
    b.inst (c.arg 0) = some i → b.definedGroup (c.arg 1) = some g → b.bar (c.arg 1) = some x → x.vacant = true →
    exec (.defineBarrier p k) s = .next ((b.setBar (c.arg 1) ⟨c.arg 0, c.arg 2 = 1, false, 1, 1, x.instance_, 0, 0, x.sent, x.releaseAt, x.due,
      []⟩).replied p k stSuccess 0 (resultBytes [(16, c.arg 1)])).finish) ∧
  (∀ (s : State) (fn g value : Nat) (x : Barrier), s.serves → (isPf fn = true ∨ (s.inst fn).isSome = true) → s.bar g = some x → x.inst = fn →
    exec (.synBarParticipantsWrite fn g value) s = .next ((s.setBar g { x with next := max 1 (value % 65536) }).setReg
      (.SYN_BAR_PARTICIPANTS g) (BitVec.ofNat 64 (max 1 (value % 65536)))).finish) ∧
  (∀ (s : State) (fn dir value child : Nat) (i : Inst), s.serves → dir < 2 → s.inst fn = some i → s.mbxChild fn dir = some child →
    bit value 0 = false →
    exec (.mailboxSend fn dir value) s = .next (s.setRegOf fn (if dir = 0 then Reg.VRT_MBX_UP_TX_CTRL else .VRT_MBX_DOWN_TX_CTRL)
      (BitVec.ofNat 64 (value &&& 0x00FFFF02))).finish) ∧
  (∀ (s : State) (fn value child : Nat) (i : Inst), s.serves → s.inst fn = some i → s.mbxChild fn 0 = some child → bit value 0 = true →
    exec (.mailboxSend fn 0 value) s = .next ((s.setRegOf fn .VRT_MBX_UP_TX_CTRL (BitVec.ofNat 64 (value &&& 0x00FFFF02))).mbxSend child false
      ((s.setRegOf fn .VRT_MBX_UP_TX_CTRL (BitVec.ofNat 64 (value &&& 0x00FFFF02))).regOf fn .VRT_MBX_UP_TX).toNat (bits value 23 8)
      (bit value 1)).finish) ∧
  (∀ (s : State) (fn dir child : Nat), s.serves → s.mbxChild fn dir = some child →
    exec (.mailboxReceive fn dir) s = .next ((s.emit (.readData (portOf fn) fn
      (leBytes 8 (s.mbx child (dir == 0)).message) false)).mbxRead child (dir == 0)).finish)

/-! ## Cadences, gates and hall time -/

/-- Gate lists, quanta and cadences (R603, R605, R609 to R611, R616): a good list is pending until its base time, the quanta of a group's classes
are written in the shadow and the committed set, and a cadence begins or is replaced.

Boundaries and samples (R574, R601, R606, R607, R619): a cadence boundary takes its index, sends and meets the barriers that it owes, moves
the partition's wick queues on and completes the TOKENs that waited for it; a count-epoch boundary moves on the wick queues without a cadence
whose index is older, and all of them where it is the first boundary of a new period; and a sample period publishes its samples.

Frames on their way (R366, R614, R636, R637): a link in service starts the frame that is picked, and a frame that the buffer cannot feed is
underrun: it is sent bad, counted, flagged, and the start threshold rises.

The model's choices in it: logs 28, 37. -/
def Obligations.SchedulesAndFramesRun : Prop :=
  ((∀ (s : State) (p k : Nat) (c c0 : Cmd) (t : State) (l : Bytes), CmdReady s p k 0x0090 anySel anyAuth c → let b := s.begin p k c;
    c.arg 0 ≤ 7 → c.arg 1 ≠ 0 → c.arg 1 ≤ 1024 → b.admRead p k c.begun (c.arg 2) (8 * c.arg 1) = (some (some l), c0, t) →
    ((List.range (c.arg 1)).any fun i => leAt l (8 * i + 7) 1 != 0x10) = false →
    ((gateEntries l (c.arg 1)).any fun e => decide (e.interval < 32) || decide (1000000000 < e.interval)) = false →
    cycleOf (gateEntries l (c.arg 1)) ≤ 4294967295 → (t.gateSwitch (c.arg 0)).hallTime + 10000 ≤ c.arg 3 →
    exec (.setGateList p k) s = .next (((t.gateSwitch (c.arg 0)).setGates (c.arg 0)
      { (t.gateSwitch (c.arg 0)).gates (c.arg 0) with pending := some ⟨gateEntries l (c.arg 1), c.arg 3, false⟩ }).replied p k stSuccess 0
        (resultBytes [])).finish) ∧
  (∀ (s : State) (g : Nat) (l : GateList), s.pwr.off = false → (s.gates g).pending = some l → l.base ≤ s.hallTime → l.late = false →
    exec (.gateSwitch g) s = .next (((s.setGates g ⟨some { l with late := false }, none⟩).count .SCH_GATE_SWITCH_COUNT).raise .pfs
      evGateSwitched g l.base l.entries.length).finish) ∧
  (∀ (s : State) (p k : Nat) (c : Cmd) (qs : List Nat), CmdReady s p k 0x0091 anySel anyAuth c → let b := s.begin p k c;
    (c.arg 0 ≤ 7 ∨ c.arg 0 = 0xFF) → qs = (List.range 8).map (fun i => c.arg (i + 1)) →
    (qs.any fun q => decide (q < 64) || decide (1048576 < q)) = false →
    exec (.setClassQuanta p k) s = .next (((if c.arg 0 = 0xFF then List.range 8 else [c.arg 0]).foldl (fun (s : State) g =>
      (List.range 8).foldl (fun (s : State) i =>
        (s.setReg (.SCH_CLASS_CFG g i) (setFld (s.reg (.SCH_CLASS_CFG g i)) 20 0 (qs.getD i 64))).setCom (.SCH_CLASS_CFG g i)
          (setFld (s.com (.SCH_CLASS_CFG g i)) 20 0 (qs.getD i 64))) s) b).replied p k stSuccess 0 (resultBytes [])).finish) ∧
  (∀ (s : State) (p k : Nat) (c : Cmd) (x : Cadence), CmdReady s p k 0x0092 anySel anyAuth c → let b := s.begin p k c;
    100000 ≤ c.arg 1 → c.arg 1 ≤ 1000000000 → b.member (c.arg 0) b.me = true → b.hallTime + 10000 ≤ c.arg 2 →
    SMap.find b.sch.cadences (c.arg 0) = some x →
    exec (.setCadence p k) s = .next (({ b with sch := { b.sch with
      cadences := SMap.put b.sch.cadences (c.arg 0) { x with next := some (c.arg 2, c.arg 1) } } }).replied p k stSuccess 0
        (resultBytes [])).finish) ∧
  (∀ (s : State) (p k : Nat) (c : Cmd) (slot : Nat), CmdReady s p k 0x0092 anySel anyAuth c → let b := s.begin p k c;
    100000 ≤ c.arg 1 → c.arg 1 ≤ 1000000000 → b.member (c.arg 0) b.me = true → b.hallTime + 10000 ≤ c.arg 2 →
    SMap.find b.sch.cadences (c.arg 0) = none →
    ((List.range 16).find? fun i => b.sch.cadences.all fun e => e.2.slot != i) = some slot →
    exec (.setCadence p k) s = .next ((({ b with sch := { b.sch with
      cadences := SMap.put b.sch.cadences (c.arg 0) ⟨slot, c.arg 2, c.arg 1, none, 0, []⟩ } }).wickReindex fun w =>
        w.partition == c.arg 0).replied p k stSuccess 0 (resultBytes [])).finish)) ∧
  ((∀ (s : State) (partition n : Nat) (c : Cadence), s.pwr.off = false → SMap.find s.sch.cadences partition = some c → c.next = none →
    n = boundaryIndex s.hallTime c.start c.period → n = c.last + 1 →
    exec (.cadenceBoundary partition) s = .next ((c.waits.foldl (fun (s : State) w => s.opDone w.1 w.2 stSuccess 0 false 0 0)
      (((({ s with sch := { s.sch with cadences := SMap.put s.sch.cadences partition { c with last := n, waits := [] } } }).barsSend
        partition).barsDue partition).wickBoundaries (fun w => w.partition == partition) fun _ => n % 2 ^ 32)).count
          .SCH_BOUNDARY_COUNT).finish) ∧
  (∀ (s : State) (index : Nat), s.pwr.off = false → index = epochIndex s.hallTime none s.epochValue → s.feat.epochDue = false →
    exec .countEpochBoundary s = .next (s.wickBoundaries (fun w => !SMap.has s.sch.cadences w.partition && s.epochValue != 0 &&
      seqNewer index w.index) fun _ => index).finish) ∧
  (∀ (s t : State) (index : Nat), s.pwr.off = false → index = epochIndex s.hallTime none s.feat.countEpoch → s.feat.epochDue = true →
    s.feat.epochFrom ≤ s.hallTime → t = { s with feat := { s.feat with epochDue := false } } →
    exec .countEpochBoundary s = .next (t.wickBoundaries (fun w => !SMap.has s.sch.cadences w.partition && s.feat.countEpoch != 0)
      fun _ => index).finish) ∧
  (∀ (s t : State), s.pwr.off = false → t = (List.range 72).foldl (fun (s : State) k => s.sampled k) s →
    exec .queueSamplePeriod s = .next ({ t with rtr := { t.rtr with
      sampleStart := t.now, samples := SMap.mapv t.rtr.samples fun _ x => x.publish (max 1 (s.now - s.rtr.sampleStart)) t.now } }).finish)) ∧
  ((∀ (s t : State) (g j : Nat) (o : OutPkt), s.pwr.off = false → (s.link g j).state = .inService → s.addressed g = true →
    s.pickFrame g j = (some o, t) →
    exec (.frameStart g j) s = .next (t.startFrame g j o false).finish) ∧
  (∀ (s t : State) (g j : Nat) (o : OutPkt), s.pwr.off = false → (s.link g j).state = .inService → s.addressed g = true →
    s.pickFrame g j = (some o, t) → s.regF (.LNK_TX_THRESHOLD g) 28 16 < o.bytes →
    exec (.txUnderrun g j) s = .next ((((t.startFrame g j o true).lcount g j 10 1).setFlag (.LNK_GERR g) 3).setRegF (.LNK_TX_THRESHOLD g) 28 16
      (min 4352 (s.regF (.LNK_TX_THRESHOLD g) 28 16 + 256))).finish))

/-- Hall time (R596 to R600, R620): a good message names the second of the next edge, an edge of the time master that it names is measured
against hall time, the loss of the source or of the parent puts a module that keeps time in HOLDOVER, Sync messages go out on the direct links
in service, and a read of the low dword latches the high one.

Frames of time (R598): a good frame with a Sync, a Pdelay_Req or a Pdelay_Resp that arrives on a direct link in service is counted and its message
taken; on any other link it is ignored and counted.

The model's choices in it: logs 35, 36. -/
def Obligations.HallTimeIsKept : Prop :=
  ((∀ (s : State) (data : Bytes) (t : Nat), s.pwr.off = false → s.feat.timeMaster = true → s.sch.lastEdge = some t → t + 100000000 ≤ s.now →
    s.now ≤ t + 900000000 → slice data 0 3 = [0x4B, 0x54, 0x10] → bit (leAt data 3 1) 0 = true → leAt data 14 2 = crc16 (slice data 0 14) →
    exec (.todMessage data) s = .next ({ s with sch := { s.sch with todNext := some (leAt data 4 8) } }).finish) ∧
  (∀ (s u : State) (sec : Nat), s.pwr.off = false → s.feat.timeMaster = true → s.sch.lastEdge = none → s.sch.todNext = some sec →
    u = ({ s with sch := { s.sch with lastEdge := some s.now, todNext := none, edgesBare := 0, todValid := true } }).chooseTime →
    u.sch.master = some u.me → u.sch.tstate ≠ 0 →
    exec .ppsEdge s = .next (u.measure ((u.hallTime : Int) - (sec * 10 ^ 9 : Nat))).finish) ∧
  (∀ s : State, s.pwr.off = false → s.feat.timeMaster = true → s.sch.master = some s.me → (s.sch.tstate = 1 ∨ s.sch.tstate = 2) →
    exec .ppsSourceLost s = .next (s.setTime 3).finish) ∧
  (∀ (s : State) (k : Nat), s.pwr.off = false → s.sch.parent = some k → (s.sch.tstate = 1 ∨ s.sch.tstate = 2) →
    exec .parentSyncLost s = .next (({ s with sch := { s.sch with
      master := none, parent := none, heard := SMap.del s.sch.heard k } }).setTime 3).finish) ∧
  (∀ (s t : State), s.pwr.off = false → t = ((List.range 64).filter fun k =>
      !s.switchedGroup (k / 8) && (s.link (k / 8) (k % 8)).state == .inService).foldl (fun (s' : State) k =>
        if s.sch.syncs % 8 == 0 then (s'.sendSync (k / 8) (k % 8)).sendPdelay (k / 8) (k % 8) else s'.sendSync (k / 8) (k % 8)) s →
    exec .syncSend s = .next ({ t with sch := { t.sch with syncs := t.sch.syncs + 1 } }).finish) ∧
  (∀ (s : State), s.serves →
    exec (.schHallTimeLatchRead 0) s = .next (({ s with sch := { s.sch with latch := SMap.put s.sch.latch 0 (s.hallTime / 2 ^ 32) } }).emit
      (.readData (portOf 0) 0 (leBytes 4 s.hallTime) false)).finish)) ∧
  (∀ (s u : State) (g j : Nat) (data body : Bytes), s.pwr.off = false → (s.link g j).state ≠ .off → (s.link g j).state ≠ .down →
    64 ≤ data.length → data.length ≤ 4224 → body = data.take (data.length - 4) → data.drop (data.length - 4) ≠ frameCheck body true →
    data.drop (data.length - 4) = frameCheck body false → u = ((s.frameSeen g j data).lcount g j 0 1).lcount g j 1 data.length →
    (s.switchedGroup g = false → (s.link g j).state = .inService →
      (isPtp data 0 = true → exec (.ptpSync g j data) s = .next (u.syncIn g j (body.drop 14)).finish) ∧
      (isPtp data 2 = true → exec (.ptpPdelayReq g j data) s = .next (u.pdelayReqIn g j (body.drop 14)).finish) ∧
      (isPtp data 3 = true → exec (.ptpPdelayResp g j data) s = .next (u.pdelayRespIn g j (body.drop 14)).finish)) ∧
    ((s.switchedGroup g = true ∨ (s.link g j).state ≠ .inService) →
      (isPtp data 0 = true → exec (.ptpSync g j data) s = .next u.ptpIgnored.finish) ∧
      (isPtp data 2 = true → exec (.ptpPdelayReq g j data) s = .next u.ptpIgnored.finish) ∧
      (isPtp data 3 = true → exec (.ptpPdelayResp g j data) s = .next u.ptpIgnored.finish)))

/-! ## Keys and instances -/

/-- Key slots (R665 to R667), cipher engines (R684) and entropy (R671, R672): a key is loaded into a free slot as two masked shares, which a fresh
mask leaves the same key, and destroyed in a slot that nothing binds; an engine that passes its self-test is back in service; the source starts
up, restarts, and fails for good at the third failure in a row; and a generator whose reseed is due, after 2^20 requests or 1 s, is seeded while
the source is OK, and waits for it otherwise.

The model's choices in it: log 100. -/
def Obligations.KeysEnginesAndEntropy : Prop :=
  (∀ (s : State) (p k : Nat) (c : Cmd) (i : Inst) (x : KeySlot), CmdReady s p k 0x00A0 anySel
      (fun s ps => reach p (par ps 0) && reach p (((SMap.find s.sec.keys (par ps 1)).map (·.inst)).getD (par ps 0))) c → let b := s.begin p k c;
    b.inst (c.arg 0) = some i → c.arg 1 < 16384 → SMap.has b.sec.keys (c.arg 1) = false →
    (isPf (c.arg 0) = true ∨ countIn b.sec.keys (fun x => x.inst == c.arg 0) < i.qpQuota) → b.sec.due.contains 2 = false →
    x = KeySlot.remask ⟨c.arg 0, leBytes 32 (c.arg 2), zeros 32, leBytes 4 (c.arg 3), false⟩ b.freeMask →
    exec (.loadKey p k) s = .next (({ b with
      draws := b.draws + 4, sec := { b.sec with keys := SMap.put b.sec.keys (c.arg 1) x } }).replied p k stSuccess 0 (resultBytes [])).finish) ∧
  (∀ (key : KeySlot) (mask : Bytes), key.share0.length = 32 → key.share1.length = 32 → mask.length = 32 → (key.remask mask).key = key.key) ∧
  (∀ (s : State) (p k : Nat) (c : Cmd),
    CmdReady s p k 0x00A1 anySel (fun s ps => ((SMap.find s.sec.keys (par ps 0)).map fun x => reach p x.inst).getD true) c → let b := s.begin p k c;
    SMap.has b.sec.keys (c.arg 0) = true → b.keyBound (c.arg 0) = 0 →
    exec (.destroyKey p k) s = .next (({ b with sec := { b.sec with keys := SMap.del b.sec.keys (c.arg 0) } }).replied p k stSuccess 0
      (resultBytes [])).finish) ∧
  (∀ (s : State) (value passed back : Nat), s.expertOpen 0 Reg.SEC_ENGINE_FAIL.addr →
    back = s.regF .SEC_ENGINE_FAIL 15 0 &&& bits value 15 0 &&& passed →
    exec (.secEngineSelfTest 0 value passed) s = .next ({ s.setRegF .SEC_ENGINE_FAIL 15 0 (s.regF .SEC_ENGINE_FAIL 15 0 - back) with
      sec := { s.sec with engines := s.sec.engines ||| back } }).finish) ∧
  (∀ s : State, s.pwr.off = false → s.sec.entropy = 0 →
    exec .entropyStartupPass s =
      .next (s.sec.due.foldl State.seedDrbg { s with sec := { s.sec with entropy := 1, entropyFails := 0 } }).finish) ∧
  (∀ (s : State) (generator : Nat), (s.seedDrbg generator).sec.due = s.sec.due.filter (· != generator)) ∧
  (∀ s : State, s.pwr.off = false → s.sec.entropy = 1 →
    exec .entropyHealthFail s = .next ((({ s with sec := { s.sec with entropy := 0, entropyFails := 0 } }).setFlag .SEC_ERR 4).count
      .SEC_ENTROPY_RESTART_COUNT).finish) ∧
  (∀ s : State, s.pwr.off = false → s.sec.entropy = 0 → 2 ≤ s.sec.entropyFails →
    exec .entropyHealthFail s = .next (({ s with sec := { s.sec with entropy := 2, entropyFails := 3 } }).setFlag .SEC_ERR 5).finish) ∧
  (∀ (s : State) (generator : Nat), s.pwr.off = false → generator ≤ 2 → s.reseedDue generator = true → s.sec.entropy ≠ 1 →
    exec (.drbgReseed generator) s = .next ({ s with sec := { s.sec with due := (generator :: s.sec.due).eraseDups } }).finish) ∧
  (∀ (s : State) (generator : Nat), s.pwr.off = false → generator ≤ 2 → s.reseedDue generator = true → s.sec.entropy = 1 →
    exec (.drbgReseed generator) s = .next ({ s with sec := { s.sec with
      due := s.sec.due.filter (· != generator), drbgs := SMap.put s.sec.drbgs generator (0, s.now) } }).finish) ∧
  (∀ (s : State) (generator : Nat), (∃ r, SMap.find s.sec.drbgs generator = some r ∧ (2 ^ 20 ≤ r.1 ∨ r.2 + 1000000000 ≤ s.now)) →
    s.reseedDue generator = true)

/-- Instances (R694, R695, R697 to R704): creation takes frames, a generation and doorbell pages; resets and removals begin their steps and wait
for them; a share is set; and a reset that waited for its generation goes on.

Hold and restore (R705 to R708): the manager holds the selected instance, and a restore of a held, fresh work queue sets its indices and
generation and answers RESULT 0.

The model's choices in it: logs 38, 71, 87. -/
def Obligations.InstancesAreManaged : Prop :=
  ((∀ (s : State) (p k : Nat) (c : Cmd) (n gen : Nat) (a : List Nat) (r : List Nat × State),
    CmdReady s p k 0x00B0 anySel (fun _ ps => reach p (par ps 0 * 128 + par ps 1)) c → let b := s.begin p k c;
    n = c.arg 0 * 128 + c.arg 1 → c.arg 1 ≠ 0 → frameBytes ≤ c.arg 2 → c.arg 2 % frameBytes = 0 → c.arg 1 ≤ (b.port (c.arg 0)).vfEnabled →
    b.inst n = none → a = (List.range 6).map (fun i => c.arg (3 + i)) → b.poolsHold (c.arg 0) (c.arg 2 / frameBytes) a = true →
    gen = (match SMap.find b.vrt.lastGen n with | some g => (g + 1) % 256 | none => 0) → b.genQuarantined n gen = false →
    r = b.takeFrames n (c.arg 2 / frameBytes) →
    exec (.createInstance p k) s = .next (((({ r.2 with vrt := { r.2.vrt with lastGen := SMap.put r.2.vrt.lastGen n gen } }).setInst n
      { (default : Inst) with
        state := .active, gen, share := 256, hbmBase := b.hbmPlace (c.arg 2), frames := r.1, qpQuota := a.getD 0 0, skyQuota := a.getD 1 0
        cqPool := a.getD 2 0, lqPool := a.getD 3 0, wickPool := a.getD 4 0
        dbPages := ((List.range 128).filter b.pageFree).take (a.getD 5 0) }).giveRoot n).replied p k stSuccess 0
          (resultBytes [(9, n), (8, gen)])).finish) ∧
  (∀ (s : State) (p k : Nat) (c : Cmd) (i : Inst), CmdReady s p k 0x00B1 anySel (instAuth p 0) c → let b := s.begin p k c;
    c.stage = 0 → b.inst (c.arg 0) = some i → isPf (c.arg 0) = false →
    exec (.destroyInstance p k) s = .next (((b.setCmd p k { c.begun with stage := 1 }).resetInst (c.arg 0) true [(p, k)]).keep p k
      { c.begun with stage := 1 }).finish) ∧
  (∀ (s : State) (p k : Nat) (c : Cmd) (i : Inst), CmdReady s p k 0x00B2 anySel (instAuth p 0) c → let b := s.begin p k c;
    c.stage = 0 → b.inst (c.arg 0) = some i → isPf (c.arg 0) = false →
    exec (.resetInstance p k) s = .next (((b.setCmd p k { c.begun with stage := 1 }).resetInst (c.arg 0) false [(p, k)]).keep p k
      { c.begun with stage := 1 }).finish) ∧
  (∀ (s : State) (n : Nat) (i : Inst), s.pwr.off = false → s.inst n = some i → i.quarantined = true →
    s.genQuarantined n ((i.gen + 1) % 256) = false →
    exec (.generationQuarantineEnd n) s = .next (s.resetSteps n).finish) ∧
  (∀ (s : State) (p k : Nat) (c : Cmd) (i : Inst), CmdReady s p k 0x00B3 anySel (instAuth p 0) c → let b := s.begin p k c;
    c.arg 1 ≠ 0 → b.inst (c.arg 0) = some i →
    exec (.setInstanceShare p k) s = .next ((b.updInst (c.arg 0) fun i => { i with share := c.arg 1 }).replied p k stSuccess 0
      (resultBytes [])).finish)) ∧
  ((∀ (s : State) (value n : Nat) (i : Inst), s.expertOpen 0 Reg.VRT_INST_CTRL.addr → n = s.regF .VRT_INST_SEL 8 0 → s.inst n = some i →
    exec (.vrtHoldWrite 0 value) s = .next (s.setInst n { i with hold := bit value 0 }).finish) ∧
  (∀ (s : State) (value n first second gen : Nat) (w : Wq), s.expertOpen 0 Reg.VRT_RESTORE_TARGET.addr → bits value 29 28 = 0 →
    n = bits value 15 0 → first = s.regF .VRT_RESTORE_VALUE 23 0 → second = s.regF .VRT_RESTORE_VALUE 47 24 →
    gen = s.regF .VRT_RESTORE_VALUE 63 56 → s.wq n = some w → s.holds w.inst = true → w.fresh = true → distance first second ≤ 2 ^ w.log2 →
    (s.vrt.retiredWqGens.any fun r => r.1 == n * 256 + gen && decide (s.now < r.2 + s.comF .VRT_GEN_CFG 15 0 * 1000000)) = false →
    exec (.restoreApply 0 value) s = .next ((s.setWq n { w with
      head := first, fetch := first, judged := first, doorbell := second, gen }).setReg .VRT_RESTORE_TARGET (BitVec.ofNat 64 n)).finish))

/-! ## Commits and expert writes -/

/-- The commits of the shadowed sets (R139, R235, R377, R434, R480, R562, R649, R710, R741, R769, R807, R832): an open commit of a consistent
set takes the whole set into use, and one of a set that breaks a rule of its chapter is refused, with the block's flag and
`ADM_ERR.COMMIT_REJECTED` set and the committed set kept. -/
def Obligations.CommitsTakeConsistentSetsOnly : Prop :=
  (∀ s t : State, s.expertOpen 0 Reg.XLT_COMMIT.addr →
    t = (if 4 * s.regF .XLT_WALK_CFG 3 0 + s.regF .XLT_WALK_CFG 13 8 = 32 then s.commitRegs [.XLT_WALK_CFG] else s.commitRefused .XLT_ERR 0) →
    exec (.xltCommit 0) s = .next (serveMisses t.xlt.missQueue t).finish) ∧
  (∀ s : State, s.expertOpen 0 Reg.QPE_COMMIT.addr → exec (.qpeCommit 0) s = .next
    (if s.regF .QPE_SB_CFG 14 0 ≤ 16384 ∧ s.regF .QPE_SB_CFG 27 16 ≠ 0 ∧ 64 ≤ s.regF .QPE_CACHE_CFG 15 0 ∧ s.regF .QPE_CACHE_CFG 15 0 ≤ 16384
      then s.commitRegs [.QPE_SB_CFG, .QPE_CACHE_CFG] else s.commitRefused .QPE_ERR 0).finish) ∧
  (∀ s : State, s.expertOpen 0 Reg.RTR_COMMIT.addr → exec (.rtrCommit 0) s = .next
    (if (∀ d ∈ List.range 4, s.regF .RTR_DIM_CTL (8 * d + 7) (8 * d + 7) ≠ 0 → s.regF .RTR_DIM_CTL (8 * d + 4) (8 * d) < s.ring d) ∧
        s.regF .RTR_MARK_CFG 11 0 < s.regF .RTR_MARK_CFG 23 12 ∧ 8 ≤ s.regF .RTR_LINK_FC 15 8 ∧ s.regF .RTR_LINK_FC 15 8 ≤ 32 ∧
        s.regF .RTR_LINK_FC 7 0 < s.regF .RTR_LINK_FC 15 8 ∧ s.regF .RTR_LINK_FC 23 16 ≠ 0 ∧ s.regF .RTR_THROTTLE_CFG0 31 28 ≠ 0 ∧
        100 ≤ s.regF .RTR_THROTTLE_CFG0 19 0 ∧ s.regF .RTR_THROTTLE_CFG0 19 0 ≤ 100000 ∧ s.regF .RTR_THROTTLE_CFG1 31 16 ≠ 0 ∧
        s.regF .RTR_THROTTLE_CFG2 31 16 ≠ 0
      then s.commitRegs [.RTR_DIM_CTL, .RTR_MARK_CFG, .RTR_LINK_FC, .RTR_THROTTLE_CFG0, .RTR_THROTTLE_CFG1, .RTR_THROTTLE_CFG2]
      else s.commitRefused .RTR_ERR 4).finish) ∧
  (∀ s : State, s.expertOpen 0 Reg.COL_COMMIT.addr → exec (.colCommit 0) s = .next
    (if s.regF .COL_LANE_CFG 7 0 ≠ 0 ∧ s.regF .COL_TREE_CFG 31 16 ≠ 0 then s.commitRegs [.COL_LANE_CFG, .COL_TREE_CFG]
      else s.commitRefused .COL_ERR 3).finish) ∧
  (∀ (s : State) (die : Nat), s.expertOpen 0 (Reg.TRN_COMMIT die).addr → exec (.trnCommit 0 die) s = .next
    (if s.regF (.TRN_ARB_CFG die) 11 0 ≠ 0 ∧ s.regF (.TRN_SCHED_CFG die) 23 16 ≠ 0 ∧ s.regF (.TRN_SCHED_CFG die) 6 0 ≤ 32
      then s.commitRegs [.TRN_ARB_CFG die, .TRN_SCHED_CFG die] else s.commitRefused (.TRN_ERR die) 0).finish) ∧
  (∀ s : State, s.expertOpen 0 Reg.PLC_COMMIT.addr → exec (.plcCommit 0) s = .next
    (if s.regF .PLC_HEAT_CFG 31 16 ≠ 0 ∧ s.regF .PLC_HEAT_CFG 15 0 ≠ 0 ∧ s.regF .PLC_MOVE_CFG 31 24 ≠ 0 ∧ s.regF .PLC_MOVE_CFG 15 8 ≠ 0 ∧
        s.regF .PLC_MOVE_CFG 15 8 ≤ 16 ∧ s.regF .PLC_FORWARD_CFG 15 0 ≠ 0
      then s.commitRegs [.PLC_HEAT_CFG, .PLC_MOVE_CFG, .PLC_FORWARD_CFG] else s.commitRefused .PLC_ERR 0).finish) ∧
  (∀ s : State, s.expertOpen 0 Reg.SCH_COMMIT.addr → exec (.schCommit 0) s = .next
    (if (∀ g ∈ List.range 8, ∀ c ∈ List.range 8, s.classOk g c = true) ∧ s.regF .SCH_TIME_CFG 31 24 ≠ 0 ∧ s.regF .SCH_TIME_CFG 7 0 ≠ 0 ∧
        s.regF .SCH_TIME_CFG 7 0 < s.regF .SCH_TIME_CFG 23 12 * 16
      then s.commitRegs (.SCH_TIME_CFG :: (List.range 8).flatMap fun g => (List.range 8).map fun c => .SCH_CLASS_CFG g c)
      else s.commitRefused .SCH_ERR 5).finish) ∧
  (∀ (s : State) (g : Nat), g < 8 → s.expertOpen 0 (Reg.LNK_COMMIT g).addr → exec (.lnkCommit 0 g) s = .next
    (if s.regF (.LNK_GCFG0 g) 31 16 ≠ 0 ∧ 8 ≤ s.regF (.LNK_GCFG0 g) 15 8 ∧ s.regF (.LNK_GCFG0 g) 15 8 ≤ 128 ∧
        s.regF (.LNK_GCFG0 g) 7 0 < s.regF (.LNK_GCFG0 g) 15 8 ∧ s.regF (.LNK_GCFG1 g) 31 30 ≠ 3 ∧ 20 ≤ s.regF (.LNK_GCFG1 g) 25 16 ∧
        s.regF (.LNK_GCFG1 g) 25 16 ≤ 1000 ∧ s.regF (.LNK_GCFG1 g) 7 0 ≠ 0
      then s.commitRegs [.LNK_GCFG0 g, .LNK_GCFG1 g] else s.commitRefused (.LNK_GERR g) 4).finish) ∧
  (∀ s : State, s.expertOpen 0 Reg.VRT_COMMIT.addr → exec (.vrtCommit 0) s = .next
    (if s.regF .VRT_SHARE_CFG 31 24 ≠ 0 ∧ 64 ≤ s.regF .VRT_SHARE_CFG 12 0 ∧ s.regF .VRT_SHARE_CFG 12 0 ≤ 4096 ∧ s.regF .VRT_GEN_CFG 15 0 ≠ 0
      then s.commitRegs
        [.VRT_SHARE_CFG, .VRT_GEN_CFG, .VRT_PORT_LIMIT 0, .VRT_PORT_LIMIT 1, .VRT_PORT_LIMIT 2, .VRT_PORT_LIMIT 3]
      else s.commitRefused .VRT_ERR 0).finish) ∧
  (∀ s : State, s.expertOpen 0 Reg.HIF_COMMIT.addr → exec (.hifCommit 0) s = .next
    (if ∀ p ∈ List.range 4, 50 ≤ s.regF (.HIF_PORT_CFG p) 15 0 ∧ s.regF (.HIF_PORT_CFG p) 15 0 ≤ 50000 ∧ (∀ w ∈ s.peerWindows p, w.1 < w.2) ∧
        disjointWindows (s.peerWindows p) = true
      then s.commitRegs hifSet else (s.setFlagOf 0 .HIF_ERR 7).setFlagOf 0 .ADM_ERR 3).finish) ∧
  (∀ s : State, s.expertOpen 0 Reg.PWR_COMMIT.addr → exec (.pwrCommit 0) s = .next
    (if 300 ≤ s.regF .PWR_LIMIT_CFG 10 0 ∧ s.regF .PWR_LIMIT_CFG 10 0 ≤ 1100 ∧ 1 ≤ s.regF .PWR_LIMIT_CFG 19 16 ∧
        s.regF .PWR_LIMIT_CFG 19 16 ≤ 10 ∧ s.regF .PWR_LIMIT_CFG 27 24 ≠ 0 ∧ s.regF .PWR_TALLOW_CFG 31 21 ≤ s.regF .PWR_LIMIT_CFG 10 0 ∧
        (s.regF .PWR_TALLOW_CFG 10 0 = 0 → s.regF .PWR_TALLOW_CFG 31 21 = 0) ∧ 1 ≤ s.regF .PWR_DOMAIN_CFG 7 4 ∧
        s.regF .PWR_DOMAIN_CFG 7 4 ≤ 8 ∧ s.regF .PWR_DOMAIN_CFG 31 24 ≠ 0
      then s.commitRegs [.PWR_LIMIT_CFG, .PWR_TALLOW_CFG, .PWR_DOMAIN_CFG, .PWR_VPOINT_LIMIT] else s.commitRefused .PWR_ERR 7).finish) ∧
  (∀ s : State, s.expertOpen 0 Reg.MEM_COMMIT.addr → exec (.memCommit 0) s = .next
    (if s.regF .MEM_ECC_CFG 31 16 ≠ 0 ∧ s.regF .MEM_SCRUB_CFG 7 0 ≠ 0 then s.commitRegs [.MEM_ECC_CFG, .MEM_SCRUB_CFG]
      else s.commitRefused .MEM_ERR 5).finish) ∧
  (∀ s : State, s.expertOpen 0 Reg.DBG_COMMIT.addr → exec (.dbgCommit 0) s = .next
    (if ∀ k ∈ List.range 9, tapFits k (s.regF (.DBG_MUX k) 15 0) (s.regF (.DBG_MUX k) 19 16) = true then s.commitRegs ((List.range 9).map Reg.DBG_MUX)
      else s.commitRefused .DBG_ERR 0).finish)

/-- Expert writes that may not take effect (R233, R717, R719, R720): one of the manager's function to a locked block is dropped and counted,
one of another function is dropped and logged, or ignored where its BAR0 does not show the register, and one at a BAR0 that does not answer does
nothing.

Expert writes that take effect: the clearing of the watermarks (R391), the arming and disarming of error injection (R810), the load switches
(R765, R773), the controls of a link group and of a link, after which a group that one of its QUIET links has left is quiet no more (R633, R641,
R643, R644, R650, R653), and the restoring of a transmit threshold (R652).

The model's choices in it: logs 40, 59. -/
def Obligations.ExpertWritesAreGuardedAndTakeEffect : Prop :=
  (∀ (i : Instr) (s : State) (fn a n : Nat), expertRow i = some (fn, a, n) → s.pwr.off = false →
    (s.barAnswers a = false → exec i s = .next s.finish) ∧
    (s.barAnswers a = true → fn = 0 → s.unlockedAt a = false → exec i s = .next (s.expertDrop a).finish) ∧
    (s.barAnswers a = true → fn ≠ 0 → shownTo fn a = true →
      exec i s = .next (s.accessLog akNotManager 0 fn n a).finish) ∧
    (fn ≠ 0 → shownTo fn a = false → exec i s = .next s.finish)) ∧
  ((∀ s : State, s.expertOpen 0 Reg.RTR_CTRL.addr →
    exec (.rtrClearWatermarks 0) s = .next
      { s with rtr := { s.rtr with depth := SMap.mapv s.rtr.depth fun k _ => s.queueBytes k } }.finish) ∧
  (∀ (s : State) (value : Nat), s.expertOpen 0 Reg.MEM_INJECT_CTRL.addr → value % 4 ≠ 0 → bit value 31 = true →
    exec (.memInjectArm 0 value) s = .next ((s.setRegF .MEM_INJECT_CTRL 1 0 (value % 4)).setRegF .MEM_INJECT_CTRL 31 31 1).finish) ∧
  (∀ (s : State) (value : Nat), s.expertOpen 0 Reg.MEM_INJECT_CTRL.addr → value % 4 = 0 →
    exec (.memInjectArm 0 value) s = .next ((s.setRegF .MEM_INJECT_CTRL 1 0 0).setRegF .MEM_INJECT_CTRL 31 31 0).finish) ∧
  (∀ (s : State) (value : Nat), s.expertOpen 0 Reg.MEM_INJECT_CTRL.addr → value % 4 ≠ 0 → bit value 31 = false →
    exec (.memInjectArm 0 value) s = .next (s.setRegF .MEM_INJECT_CTRL 1 0 (value % 4)).finish) ∧
  (∀ (s : State) (value : Nat), s.expertOpen 0 Reg.PWR_ELS_CTRL.addr → (s.bay 0).latched = false → (s.bay 1).latched = false →
    value &&& 0x30 = 0 →
    exec (.elsClearLatch 0 value) s = .next (s.setReg .PWR_ELS_CTRL 0).finish) ∧
  (∀ (s : State) (value : Nat) (x : Bay), s.expertOpen 0 Reg.PWR_ELS_CTRL.addr → s.bay 0 = x → x.latched = true →
    (s.bay 1).latched = false → value % 2 = 1 → value &&& 0x30 = 0 →
    exec (.elsClearLatch 0 value) s = .next ((s.setReg .PWR_ELS_CTRL 0).setBay 0 { x with latched := false, ramping := x.present }).finish) ∧
  (∀ (s u : State) (value : Nat), s.expertOpen 0 Reg.PWR_ELS_CTRL.addr → value &&& 0x30 = 0x30 →
    u = (s.setReg .PWR_ELS_CTRL 0x30).bayOff 0 → u.bayDisabled 1 = true →
    exec (.elsDisableWrite 0 value) s = .next (u.bayOff 1).finish) ∧
  (∀ (s t : State) (g value : Nat), g < 8 → s.expertOpen 0 (Reg.LNK_GCTL g).addr → bit value 28 = false → s.groupEnabled g = true →
    t = s.setReg (.LNK_GCTL g) (BitVec.ofNat 64 (bits value 30 29 * 2 ^ 29 + bits value 23 0)) → t.groupEnabled g = false →
    exec (.lnkGroupEnableClear 0 g value) s = .next ((t.groupLeave g 8).groupDown g 8).finish) ∧
  (∀ (s t : State) (g value : Nat), g < 8 → s.expertOpen 0 (Reg.LNK_GCTL g).addr → bit value 28 = false → s.groupEnabled g = false →
    t = s.setReg (.LNK_GCTL g) (BitVec.ofNat 64 (2 ^ 31 + bits value 30 29 * 2 ^ 29 + bits value 23 0)) → t.groupEnabled g = true →
    exec (.lnkGroupEnableSet 0 g value) s = .next (t.groupJudge g).finish) ∧
  (∀ (s t : State) (g value : Nat), g < 8 → s.expertOpen 0 (Reg.LNK_GCTL g).addr →
    t = ((List.range 8).foldl (fun (s : State) j => s.linkLeave g j 0x0A)
      (s.setReg (.LNK_GCTL g) (BitVec.ofNat 64 (bits value 31 29 * 2 ^ 29 + bits value 23 0)))).lpiLeft g →
    t.groupEnabled g = s.groupEnabled g →
    exec (.lnkGroupRetrain 0 g value) s = .next t.finish) ∧
  (∀ (s t : State) (g value : Nat), g < 8 → s.expertOpen 0 (Reg.LNK_GCTL g).addr → bit value 28 = false →
    t = s.setReg (.LNK_GCTL g) (BitVec.ofNat 64 (bits value 31 29 * 2 ^ 29 + bits value 23 0)) → t.groupEnabled g = s.groupEnabled g →
    exec (.lpiEnableWrite 0 g value) s = .next t.finish) ∧
  (∀ (s : State) (g j : Nat), g < 8 → j < 8 → s.expertOpen 0 (Reg.LNK_LCTL g j).addr → s.linkDisabled g j = false →
    (s.setReg (.LNK_LCTL g j) 2).linkDisabled g j = true →
    exec (.lnkLinkDisable 0 g j) s = .next (((s.setReg (.LNK_LCTL g j) 2).linkLeave g j 8).lpiLeft g).finish) ∧
  (∀ (s : State) (g j : Nat), g < 8 → j < 8 → s.expertOpen 0 (Reg.LNK_LCTL g j).addr → s.linkDisabled g j = true →
    (s.setReg (.LNK_LCTL g j) 0).linkDisabled g j = false →
    exec (.lnkLinkEnable 0 g j) s = .next (((s.setReg (.LNK_LCTL g j) 0).groupRetry g).lpiLeft g).finish) ∧
  (∀ (s t : State) (g j value : Nat), g < 8 → j < 8 → s.expertOpen 0 (Reg.LNK_LCTL g j).addr →
    t = (s.setReg (.LNK_LCTL g j) (BitVec.ofNat 64 (bits value 1 1 * 2))).linkLeave g j 0x0A → t.linkDisabled g j = s.linkDisabled g j →
    exec (.lnkLinkRetrain 0 g j value) s = .next (t.lpiLeft g).finish) ∧
  (∀ (s : State) (g value : Nat), g < 8 → s.expertOpen 0 (Reg.LNK_TX_THRESHOLD g).addr → 128 ≤ value → value ≤ 4352 →
    exec (.txThresholdRestore 0 g value) s = .next
      ((s.setRegF (.LNK_TX_THRESHOLD g) 12 0 value).setRegF (.LNK_TX_THRESHOLD g) 28 16 value).finish))

/-! ## Power -/

/-- One microsecond of the power estimator (R751, R754 to R757). At rest (no tallow, no excess) it only measures; in general the bubbles are those
that the excess over the cap and the electrical design limit asks for.

The gain of the estimator (R752): it moves by a sixteenth toward the ratio of the measured mean to the estimated one, within 0.75 and 1.25, and
keeps its value while the estimate is below 50 W.

The model's choices in it: logs 46, 51. -/
def Obligations.TheEstimatorCapsPower : Prop :=
  ((∀ (s u : State) (counts window : List Nat) (raw pairs est : Nat), s.pwr.off = false → s.rawPower counts = (raw, pairs, u) →
    est = u.pwr.gain * raw / (4096 * 1000000) → u.comF .PWR_DOMAIN_CFG 2 2 = 0 → u.pwr.tallow = none → u.pwr.tallowW = 0 →
    window = (est :: u.pwr.window).take (u.comF .PWR_LIMIT_CFG 19 16 * 1000) → 1 ≤ u.comF .PWR_LIMIT_CFG 19 16 →
    meanOf window ≤ u.comF .PWR_LIMIT_CFG 10 0 → est ≤ 1250 →
    exec (.estimatorTick counts) s = .next ((u.fillBuckets false).setPwr { u.pwr with
      pEst := est, pWin := meanOf window, window, rawSum := u.pwr.rawSum + raw, rawN := u.pwr.rawN + 1, bubbles := 0, maxFor := 0
      quietFor := u.pwr.quietFor + 1, unmet := false, excess := 0, tallow := none, tallowW := 0 }).finish) ∧
  ∀ (s u : State) (counts window : List Nat) (raw pairs est ctrl e : Nat), s.pwr.off = false → s.rawPower counts = (raw, pairs, u) →
    est = u.pwr.gain * raw / (4096 * 1000000) → ctrl = u.pwr.gain * pairs / (4096 * 1000000) → u.comF .PWR_DOMAIN_CFG 2 2 = 0 →
    window = (est :: u.pwr.window).take (u.comF .PWR_LIMIT_CFG 19 16 * 1000) →
    e = max (meanOf window - u.comF .PWR_LIMIT_CFG 10 0) (est - 1250) →
    ∃ t : State, exec (.estimatorTick counts) s = .next t.finish ∧ t.pwr.pEst = est ∧ t.pwr.pWin = meanOf window ∧ t.pwr.excess = e ∧
      t.pwr.bubbles = bubblesFor (e - u.pwr.tallowW) ctrl (4 * u.comF .PWR_LIMIT_CFG 27 24)) ∧
  ((∀ (s u : State) (volts amps watts : Nat), s.pwr.off = false → u = { s with svc := { s.svc with
      energy := (s.svc.energy + watts) % 36000
      live := s.svc.live.set 21 (s.svc.live.getD 21 0 + (s.svc.energy + watts) / 36000) } } →
    (s.pwr.rawN = 0 ∨ s.pwr.rawSum / s.pwr.rawN < 50000000) →
    exec (.calGainUpdate volts amps watts) s = .next
      (u.setPwr { s.pwr with volts, amps, measured := volts * amps / 10000, rawSum := 0, rawN := 0 }).finish) ∧
  (∀ (s u : State) (volts amps watts mean ratio : Nat), s.pwr.off = false → u = { s with svc := { s.svc with
      energy := (s.svc.energy + watts) % 36000
      live := s.svc.live.set 21 (s.svc.live.getD 21 0 + (s.svc.energy + watts) / 36000) } } →
    s.pwr.rawN ≠ 0 → mean = s.pwr.rawSum / s.pwr.rawN → 50000000 ≤ mean → ratio = watts * 4096 * 1000000 / mean → 3072 ≤ ratio → ratio ≤ 5120 →
    exec (.calGainUpdate volts amps watts) s = .next (u.setPwr { s.pwr with
      volts, amps, measured := volts * amps / 10000, rawSum := 0, rawN := 0
      gain := max 3072 (min 5120 ((s.pwr.gain : Int) + ((ratio : Int) - s.pwr.gain) / 16).toNat) }).finish))

/-- The power commands and hints (R229, R753, R758, R759): SET_POWER_CAP writes the cap in both sets and answers the previous one; a hint takes
effect at once or waits for its time, of which 64 may.

Power domains and droop (R749, R750, R760): an idle domain goes off; the first that waits begins to wake within the limit of its
microsecond, and is on when it has woken, when a link group begins its bring-up and a host port trains; a droop skips the clock of its die, and more
than 256 in a millisecond ask for a step down of a transit die.

The model's choices in it: log 78. -/
def Obligations.PowerIsCommanded : Prop :=
  ((∀ (s : State) (p k : Nat) (c : Cmd), CmdReady s p k 0x00C1 anySel anyAuth c → let b := s.begin p k c; 300 ≤ c.arg 0 → c.arg 0 ≤ 1100 →
    exec (.setPowerCap p k) s = .next (((b.setCom .PWR_LIMIT_CFG (setFld (b.com .PWR_LIMIT_CFG) 10 0 (c.arg 0))).setReg .PWR_LIMIT_CFG
      (setFld (b.reg .PWR_LIMIT_CFG) 10 0 (c.arg 0))).replied p k stSuccess 0 (resultBytes [(16, b.comF .PWR_LIMIT_CFG 10 0)])).finish) ∧
  (∀ (s : State) (p k : Nat) (c : Cmd), CmdReady s p k 0x00C0 anySel anyAuth c → let b := s.begin p k c; 1 ≤ c.arg 0 → c.arg 0 ≤ 4 →
    (c.arg 1 = 0 ∨ c.arg 1 ≤ b.hallTime) →
    exec (.powerHintCommand p k) s = .next ((b.hintEffect (c.arg 0)).replied p k stSuccess 0 (resultBytes [])).finish) ∧
  (∀ (s : State) (p k : Nat) (c : Cmd), CmdReady s p k 0x00C0 anySel anyAuth c → let b := s.begin p k c; 1 ≤ c.arg 0 → c.arg 0 ≤ 4 →
    c.arg 1 ≠ 0 → b.hallTime < c.arg 1 → b.pwr.hints.length < 64 →
    exec (.powerHintCommand p k) s = .next ((b.setPwr { b.pwr with hints := b.pwr.hints ++ [(c.arg 0, c.arg 1)] }).replied p k stSuccess 0
      (resultBytes [])).finish) ∧
  (∀ (s : State) (p k : Nat) (c : Cmd), CmdReady s p k 0x00C0 anySel anyAuth c → let b := s.begin p k c; 1 ≤ c.arg 0 → c.arg 0 ≤ 4 →
    c.arg 1 ≠ 0 → b.hallTime < c.arg 1 → 64 ≤ b.pwr.hints.length →
    exec (.powerHintCommand p k) s = .next (b.keep p k c.begun).finish) ∧
  (∀ (s : State) (h at_ : Nat), s.pwr.off = false → s.pwr.hints = [(h, at_)] → at_ ≤ s.hallTime →
    exec .powerHintEffect s = .next ((s.setPwr { s.pwr with hints := [] }).hintEffect h).finish)) ∧
  ((∀ (s : State) (d : Nat), s.pwr.off = false → s.domOn d = true → d < 80 → s.domIdle d = true →
    exec (.domainIdleOff d) s = .next (s.domOff d).finish) ∧
  (∀ (s : State) (d begun : Nat) (ds : List Nat), s.pwr.off = false → s.pwr.wakeQueue = d :: ds →
    begun = (if s.pwr.wakes.1 = s.now / 1000 then s.pwr.wakes.2 else 0) → begun < s.comF .PWR_DOMAIN_CFG 7 4 →
    exec .domainWakeStart s = .next (s.setPwr { s.pwr with
      wakeQueue := ds, waking := s.pwr.waking ++ [d], wakes := (s.now / 1000, begun + 1) }).finish) ∧
  (∀ (s : State) (d : Nat), s.pwr.off = false → s.pwr.waking.contains d = true → (d < 64 ∨ 76 ≤ d) →
    exec (.domainWakeDone d) s = .next (s.domStart d).finish) ∧
  (∀ (s : State) (g : Nat), s.pwr.off = false → s.pwr.waking.contains (64 + g) = true → g < 8 →
    exec (.domainWakeDone (64 + g)) s = .next ((s.domStart (64 + g)).groupUp g).finish) ∧
  (∀ (s : State) (p : Nat), s.pwr.off = false → s.pwr.waking.contains (72 + p) = true → p < 4 → (s.port p).perst = false →
    exec (.domainWakeDone (72 + p)) s = .next ((s.domStart (72 + p)).setPort p { s.port p with link := 1 }).finish) ∧
  (∀ (s : State) (die n : Nat), s.pwr.off = false → die < 4 → s.pwr.droopSkip.contains die = false →
    n = (if (SMap.getD s.pwr.droops die (0, 0)).1 = s.now / 1000000 then (SMap.getD s.pwr.droops die (0, 0)).2 + 1 else 1) → n ≠ 257 →
    exec (.droopDetect die) s = .next ((((s.setPwr { s.pwr with
      droopSkip := s.pwr.droopSkip ++ [die], droops := SMap.put s.pwr.droops die (s.now / 1000000, n) }).count
        .PWR_DROOP_COUNT).setFlag .PWR_ERR 3).powerEvent prDroop die 1000000).finish) ∧
  (∀ (s : State) (die : Nat), s.pwr.off = false → die < 2 → SMap.getD s.pwr.droops die (0, 0) = (s.now / 1000000, 256) →
    s.pwr.droopSkip.contains die = true → s.pwr.drooped.contains die = false →
    exec (.droopDetect die) s = .next ((((s.setPwr { s.pwr with
      droops := SMap.put s.pwr.droops die (s.now / 1000000, 257), drooped := s.pwr.drooped ++ [die] }).count
        .PWR_DROOP_COUNT).setFlag .PWR_ERR 3).powerEvent prDroop die 1000000).finish) ∧
  (∀ (s : State) (die : Nat), s.pwr.off = false →
    exec (.droopSkipEnd die) s = .next (s.setPwr { s.pwr with droopSkip := s.pwr.droopSkip.filter (· != die) }).finish))

/-- Temperatures and voltage points (R761, R762, R763, R771): a level is entered at its threshold and left 5 °C below it, a CRITICAL level of
any sensor but an optical engine's shuts the module down, a transit die steps down one point for a cause and up one without any, and an
optical engine that has cooled is powered again.

The load switches of the external lasers (R646, R765, R773, R827).

The supply (R766, R767): a low input is reported, an input out of range shuts the module down with its cause, whose time is the moment of the
fault, and the input back in range for 100 ms lets a module that is off power up, from what the flash and the fuses hold.

The model's choices in it: logs 41, 47, 78. -/
def Obligations.TemperatureAndSupplyAreWatched : Prop :=
  ((∀ (th : Nat → Int) (old k : Nat) (t : Int), 1 ≤ k → k ≤ 3 → th 1 ≤ th 2 → th 2 ≤ th 3 → th k ≤ t → k ≤ levelAt th old t) ∧
  (∀ (th : Nat → Int) (old : Nat) (t : Int), old ≤ 3 → th 1 ≤ th 2 → th 2 ≤ th 3 → t < th 1 → (old ≠ 0 → th old - 40 < t) → levelAt th old t = old) ∧
  (∀ (th : Nat → Int) (old : Nat) (t : Int), th 1 ≤ th 2 → th 2 ≤ th 3 → t ≤ th 1 - 40 → levelAt th old t = 0) ∧
  (∀ (s t : State) (temps : List Int), s.pwr.off = false → (s.now - 100000) / 1000000000 = s.now / 1000000000 → s.sensorsTake temps = t →
    (∀ e ∈ t.pwr.sensors, e.2.level = 3 → 50 ≤ e.1 ∧ e.1 < 66) →
    exec (.sensorSample temps) s = .next t.finish) ∧
  (∀ (s t : State) (temps : List Int), s.pwr.off = false → (s.now - 100000) / 1000000000 < s.now / 1000000000 → s.sensorsTake temps = t →
    (∀ e ∈ t.histograms.pwr.sensors, e.2.level = 3 → 50 ≤ e.1 ∧ e.1 < 66) →
    exec (.sensorSample temps) s = .next t.histograms.finish) ∧
  (∀ (s t : State) (temps : List Int) (i : Nat) (x : Sensor) (rest : SMap Sensor), s.pwr.off = false →
    (s.now - 100000) / 1000000000 = s.now / 1000000000 → s.sensorsTake temps = t → t.pwr.sensors = (i, x) :: rest → x.level = 3 →
    (i < 50 ∨ 66 ≤ i) →
    exec (.sensorSample temps) s = .next (t.finish.shutDown 3 i).finish) ∧
  (∀ (s : State) (die : Nat), s.pwr.off = false → die < 2 → s.pwr.relock.contains die = false → s.point die < 7 → s.downCause die = true →
    exec (.vpointStepDown die) s = .next ((((s.setPwr { s.pwr with
      points := SMap.put s.pwr.points die (s.point die + 1), relock := s.pwr.relock ++ [die]
      drooped := s.pwr.drooped.filter (· != die) }).count .PWR_THROTTLE_COUNT).setFlag .PWR_ERR 1)).finish) ∧
  (∀ (s : State) (die : Nat), s.pwr.off = false → die < 2 → s.pwr.relock.contains die = false → s.downCause die = false →
    s.fastest die < s.point die →
    exec (.vpointStepUp die) s = .next (s.setPwr { s.pwr with
      points := SMap.put s.pwr.points die (s.point die - 1), relock := s.pwr.relock ++ [die] }).finish) ∧
  (∀ (s : State) (die : Nat), s.pwr.off = false →
    exec (.tclkRelockDone die) s = .next (s.setPwr { s.pwr with relock := s.pwr.relock.filter (· != die) }).finish) ∧
  (∀ (s : State) (g : Nat), s.pwr.off = false → s.pwr.hot.contains g = true → s.temp (50 + 2 * g) < s.threshold (50 + 2 * g) 1 →
    s.temp (51 + 2 * g) < s.threshold (51 + 2 * g) 1 →
    exec (.oeRepower g) s = .next ((s.setPwr { s.pwr with hot := s.pwr.hot.filter (· != g) }).groupJudge g).finish)) ∧
  ((∀ (s : State) (b : Nat), s.pwr.off = false → b < 2 → (s.bay b).present = false →
    exec (.elsPresenceClose b) s = .next ((s.setBay b { s.bay b with present := true }).lifeCount (8 + b)).finish) ∧
  (∀ (s : State) (b : Nat) (x : Bay), s.pwr.off = false → s.bay b = x → x.present = true → x.ramping = false → x.powered = false →
    x.latched = false → s.bayDisabled b = false →
    exec (.elsRampStart b) s = .next (s.setBay b { x with ramping := true }).finish) ∧
  (∀ (s : State) (b : Nat) (x : Bay), s.pwr.off = false → s.bay b = x → x.ramping = true →
    exec (.elsRampEnd b) s = .next ((s.setBay b { x with ramping := false, powered := true }).lightBack b).finish) ∧
  (∀ (s t : State) (b : Nat), s.pwr.off = false → ((s.bay b).ramping = true ∨ (s.bay b).powered = true) → s.bayDisabled b = false →
    t = s.bayOff b →
    exec (.elsTrip b) s = .next (((((t.setBay b { t.bay b with latched := true }).setFlag .PWR_ERR 2).count .PWR_ELS_TRIP_COUNT).lifeCount
      (10 + b)).powerEvent prElsTrip b 1000000).finish) ∧
  (∀ (s t : State) (b : Nat), s.pwr.off = false → b < 2 → t = (s.setBay b { s.bay b with present := false }).bayOff b → t.pwr.off = false →
    exec (.elsContactOpen b) s = .next t.finish) ∧
  (∀ (s : State) (b : Nat), s.pwr.off = false → (s.bay b).present = false → s.bayDisabled b = false →
    exec (.elsPresenceOpen b) s = .next (s.setBay b { s.bay b with latched := false }).finish)) ∧
  ((∀ s : State, s.pwr.off = false →
    exec .supplyLow s = .next (((s.setPwr { s.pwr with low := true }).setFlag .PWR_ERR 0).powerEvent prSupplyLow 0 1000000).finish) ∧
  (∀ (s u : State) (high : Bool), s.pwr.off = false → u = (s.setPwr { s.pwr with lost := true }).finish → u.pwr.off = false →
    ∃ t : State, exec (.supplyFault high) s = .next t ∧ t.pwr.off = true ∧ t.pwr.cause = (if high then 2 else 1) ∧ t.pwr.offAt = u.now ∧
      t.regs = State.reset.regs ∧ t.hbm.mem = State.reset.hbm.mem) ∧
  (∀ s : State, s.pwr.off = false → s.pwr.lost = false →
    exec .supplyGood s = .next (s.setPwr { s.pwr with low := false }).finish) ∧
  (∀ s : State, s.pwr.off = true → s.pwr.lost = true →
    exec .supplyGood s = .next (s.setPwr { s.pwr with low := false, lost := false, goodAt := s.now, woken := true })) ∧
  (∀ s : State, s.pwr.off = true → s.pwr.lost = false → s.pwr.offAt + 100000000 ≤ s.now → s.pwr.goodAt + 100000000 ≤ s.now →
    (s.pwr.woken = true ∨ s.pwr.cause < 3) →
    exec .powerUp s = .next s.cold.finish ∧ s.cold.pwr.off = false ∧ s.cold.svc.cal = s.svc.cal ∧ s.cold.regs = State.reset.regs))

/-! ## Service -/

/-- The life log and calibration commands (R825 to R828): a read writes the bytes asked for to the buffer, or fails when they cannot be written; a
valid calibration item with its key is written to flash, and answered when the flash has it.

Test pins and the service button (R236, R822, R829, R830): a multiplexer takes a listed source in both sets where the debug capability is
open, and a press of under 2 s or one held for 5 s is reported; what is due to the BMC while the control processor does not run is owed to it (R45).

The model's choices in it: logs 41, 56, 78. -/
def Obligations.TheModuleIsServiced : Prop :=
  ((∀ (s : State) (p k : Nat) (c : Cmd) (t : State), CmdReady s p k 0x00D0 anySel anyAuth c → let b := s.begin p k c; c.arg 0 + c.arg 1 ≤ 1114112 →
    b.admWrite p (c.arg 2) ((List.range (c.arg 1)).map fun i => b.lifeByte (c.arg 0 + i)) = (true, t) →
    exec (.readLifeLog p k) s = .next (t.replied p k stSuccess 0 (resultBytes [(32, c.arg 1)])).finish) ∧
  (∀ (s : State) (p k : Nat) (c : Cmd), CmdReady s p k 0x00D0 anySel anyAuth c → let b := s.begin p k c; 1114112 < c.arg 0 + c.arg 1 →
    exec (.readLifeLog p k) s = .next (b.replied p k 0x80 0 []).finish) ∧
  (∀ s : State, s.pwr.off = false → s.cpRuns = true →
    exec (.lifeLogHourly true) s = .next { s.lifeCount 0 with svc := { (s.lifeCount 0).svc with written := (s.lifeCount 0).svc.live } }.finish ∧
    exec (.lifeLogHourly false) s = .next ((s.lifeCount 0).setFlag .DBG_ERR 1).finish) ∧
  (∀ (s : State) (ok : Bool), s.pwr.off = false → s.cpRuns = false →
    exec (.lifeLogHourly ok) s = .next (s.lifeCount 0).finish) ∧
  (∀ (s : State) (p k : Nat) (c : Cmd) (t : State), CmdReady s p k 0x00D1 anySel anyAuth c → let b := s.begin p k c; 1 ≤ c.arg 0 → c.arg 0 ≤ 9 →
    c.arg 1 ≤ calSize (c.arg 0) → b.admWrite p (c.arg 2) (slice (SMap.getD b.svc.cal (c.arg 0) []) 0 (c.arg 1)) = (true, t) →
    exec (.calRead p k) s = .next (t.replied p k stSuccess 0 (resultBytes [(32, c.arg 1)])).finish) ∧
  (∀ (s : State) (p k : Nat) (c c' : Cmd) (t : State) (v : Bytes), CmdReady s p k 0x00D2 anySel anyAuth c → let b := s.begin p k c; c.stage = 0 →
    1 ≤ c.arg 0 → c.arg 0 ≤ 9 → c.arg 2 = calSize (c.arg 0) → c.arg 1 = 0x43414C57 →
    b.admRead p k c.begun (c.arg 3) (c.arg 2) = (some (some v), c', t) → calValid (c.arg 0) v = true →
    exec (.calWrite p k) s = .next (({ t with svc := { t.svc with job := some (.cal p k (c.arg 0) v) } }).keep p k
      { c' with stage := 1 }).finish) ∧
  (∀ (s : State) (p k item n : Nat) (v : Bytes) (t : State), s.pwr.off = false → s.cpRuns = true → s.svc.job = some (.cal p k item v) →
    n = (SMap.getD s.svc.calInfo item (0, 0)).1 + 1 →
    t = { s with svc := { s.svc with
      job := none, cal := SMap.put s.svc.cal item v, calInfo := SMap.put s.svc.calInfo item (n, s.hallTime) } } →
    exec (.flashWriteDone true) s = .next ((t.lifeLog 5 (leBytes 2 item ++ zeros 2 ++ leBytes 4 n)).replied p k stSuccess 0 []).finish)) ∧
  ((∀ (s : State) (p k : Nat) (c : Cmd), CmdReady s p k 0x00D3 anySel anyAuth c → let b := s.begin p k c; c.arg 0 < 8 → b.hasCap capDebugOpen = true →
    tapFits (c.arg 0) (c.arg 1) (b.comF (.DBG_MUX (c.arg 0)) 19 16) = true →
    exec (.setDebugMux p k) s = .next (((b.setCom (.DBG_MUX (c.arg 0)) (setFld (b.com (.DBG_MUX (c.arg 0))) 15 0 (c.arg 1))).setReg
      (.DBG_MUX (c.arg 0)) (setFld (b.reg (.DBG_MUX (c.arg 0))) 15 0 (c.arg 1))).replied p k stSuccess 0 (resultBytes [])).finish) ∧
  (∀ (s : State) (p k : Nat) (c : Cmd), CmdReady s p k 0x00D3 anySel anyAuth c → let b := s.begin p k c; c.arg 0 = 0xFF → b.hasCap capDebugOpen = true →
    tapFits 8 (c.arg 1) (b.comF (.DBG_MUX 8) 19 16) = true →
    exec (.setDebugMux p k) s = .next (((b.setCom (.DBG_MUX 8) (setFld (b.com (.DBG_MUX 8)) 15 0 (c.arg 1))).setReg
      (.DBG_MUX 8) (setFld (b.reg (.DBG_MUX 8)) 15 0 (c.arg 1))).replied p k stSuccess 0 (resultBytes [])).finish) ∧
  (∀ (s : State) (p k : Nat) (c : Cmd), CmdReady s p k 0x00D3 anySel anyAuth c → let b := s.begin p k c; c.arg 0 < 8 → b.hasCap capDebugOpen = false →
    exec (.setDebugMux p k) s = .next (b.replied p k 0x80 0 []).finish) ∧
  (∀ (s : State) (ms : Nat), s.pwr.off = false → ms < 2000 →
    exec (.serviceButtonShort ms) s = .next (((s.raise .pfs evServiceButton (2 ^ 24) ms 0).bmc evServiceButton
      (leBytes 4 (2 ^ 24) ++ leBytes 8 ms)).count .DBG_BUTTON_COUNT).finish) ∧
  (∀ s : State, s.pwr.off = false →
    exec .serviceButtonLong s = .next (((s.raise .pfs evServiceButton (2 * 2 ^ 24) 5000 0).bmc evServiceButton
      (leBytes 4 (2 * 2 ^ 24) ++ leBytes 8 5000)).count .DBG_BUTTON_COUNT).finish) ∧
  (∀ (s : State) (kind : Nat) (d : Bytes),
    (s.cpRuns = true → s.bmc kind d = s.emit (.pldmEvent kind d)) ∧
    (s.cpRuns = false → s.bmc kind d = { s with svc := { s.svc with bmcOwed := s.svc.bmcOwed ++ [(kind, d)] } })))

/-- The answers to the BMC (R818, R819, R821): each PLDM command that the firmware takes is answered with its completion code and data. The codes
are the model's (log 45).

The BMC and the module's power (R766, R767, R778, R819): power off shuts the module down with cause 4, reset resets it, and power on lets a
module that the BMC or a CRITICAL temperature shut down power up.

The model's choices in it: logs 45, 78. -/
def Obligations.TheBmcIsAnswered : Prop :=
  (∀ s : State, s.pwr.off = false → s.recovery = false → s.cpRuns = true →
    exec .getTid s = .next (s.emit (.pldm 0 0x02 [0, 0])).finish ∧
    (∀ typ ∈ [0, 2, 5], exec (.getPldmVersion typ) s =
      .next (s.emit (.pldm 0 0x03 ([0] ++ leBytes 4 (Config.pldmVersion typ).toNat))).finish) ∧
    exec .getPldmTypes s = .next (s.emit (.pldm 0 0x04 ([0] ++ leBytes 8 (2 ^ 0 + 2 ^ 2 + 2 ^ 5)))).finish ∧
    (∀ typ ∈ [0, 2, 5], exec (.getPldmCommands typ) s = .next (s.emit (.pldm 0 0x05 ([0] ++ bitField 32 (pldmCommands typ)))).finish) ∧
    exec .getPdrRepositoryInfo s = .next (s.drawn.emit (.pldm 2 0x50 ([0] ++ leBytes 8 s.freeVal))).finish ∧
    (∀ n, exec (.getPdr n) s = .next (s.drawn.emit (.pldm 2 0x51 ([0] ++ leBytes 4 n ++ leBytes 8 s.freeVal))).finish) ∧
    (∀ i < 68, exec (.getSensorReading (3 + i)) s = .next (s.emit (.pldm 2 0x11 ([0] ++ leBytes 2 (int16 (s.temp i))))).finish) ∧
    exec (.getSensorReading 0) s = .next (s.emit (.pldm 2 0x11 ([0] ++ leBytes 2 s.pwr.volts))).finish ∧
    exec (.getSensorReading 1) s = .next (s.emit (.pldm 2 0x11 ([0] ++ leBytes 2 s.pwr.amps))).finish ∧
    exec (.getSensorReading 2) s = .next (s.emit (.pldm 2 0x11 ([0] ++ leBytes 2 s.pwr.measured))).finish ∧
    exec (.getStateEffecterStates 0) s = .next (s.emit (.pldm 2 0x3A [0, 1])).finish ∧
    exec (.getStateEffecterStates 1) s = .next (s.emit (.pldm 2 0x3A [0, if s.svc.locate then 2 else 1])).finish ∧
    (∀ lit, exec (.locateEffecterSet lit) s = .next
      (({ s with svc := { s.svc with locate := lit } }).emit (.pldm 2 0x39 [0])).finish) ∧
    (∀ w, 300 ≤ w → w ≤ 1100 → exec (.setNumericEffecterValue w) s = .next ((s.setCap w).emit (.pldm 2 0x31 [0])).finish) ∧
    exec .getNumericEffecterValue s = .next (s.emit (.pldm 2 0x32 ([0] ++ leBytes 2 (s.comF .PWR_LIMIT_CFG 10 0)))).finish ∧
    (∀ typ cmd, cmd ∉ pldmCommands typ → exec (.unsupportedPldmCommand typ cmd) s = .next (s.emit (.pldm typ cmd [5])).finish)) ∧
  ((∀ s : State, s.pwr.off = false → s.recovery = false →
    exec .modulePowerOff s = .next ((s.emit (.pldm 2 0x39 [0])).finish.shutDown 4 0).finish) ∧
  (∀ (s : State) (burn : Bool), s.pwr.off = false → s.recovery = false →
    exec (.modulePowerReset burn) s = .next ((s.emit (.pldm 2 0x39 [0])).moduleReset false burn).finish) ∧
  (∀ s : State, s.pwr.off = false → s.recovery = false →
    exec .modulePowerOn s = .next (s.emit (.pldm 2 0x39 [0])).finish) ∧
  (∀ s : State, s.pwr.off = true → s.recovery = false → (s.pwr.cause = 3 ∨ s.pwr.cause = 4) →
    exec .modulePowerOn s = .next ((s.emit (.pldm 2 0x39 [0])).setPwr { s.pwr with woken := true })))

/-- The update of the firmware in recovery (R679, R831): its steps in their order, of which the verification writes a good image to bank 0 and
leaves flash as it was for any other; and in recovery the firmware's commands are unsupported.

The model's choices in it: logs 18, 44, 45. -/
def Obligations.RecoveryUpdatesTheFirmware : Prop :=
  ∀ s : State, s.pwr.off = false → s.recovery = true →
    (s.svc.update ≤ 6 → exec .requestUpdate s = .next (({ s with svc := { s.svc with update := 1, updateImage := [] } }).emit (.pldm 5 0x10 [0])).finish) ∧
    (s.svc.update = 1 → exec .passComponentTable s = .next
      (({ s with svc := { s.svc with update := 2 } }).emit (.pldm 5 0x13 [0])).finish) ∧
    (s.svc.update = 2 → exec .updateComponent s = .next
      (({ s with svc := { s.svc with update := 3 } }).emit (.pldm 5 0x14 [0])).finish) ∧
    (s.svc.update = 3 → ∀ d, exec (.requestFirmwareData d) s = .next
      { s with svc := { s.svc with updateImage := s.svc.updateImage ++ d } }.finish) ∧
    (s.svc.update = 3 → exec .transferComplete s = .next
      (({ s with svc := { s.svc with update := 4 } }).emit (.pldm 5 0x16 [0])).finish) ∧
    (s.svc.update = 4 → exec .verifyComplete s = .next (if s.svc.updateImage.length ≤ 4194304 ∧
        s.svc.updateImage.length = 512 + leAt s.svc.updateImage 8 4 ∧ s.imageGood s.svc.updateImage = true
      then ((s.setBank 0 ⟨s.svc.updateImage, false⟩).updateStep 5).emit (.pldm 5 0x17 [0])
      else ({ s with svc := { s.svc with update := 0, updateImage := [] } }).emit (.pldm 5 0x17 [1])).finish) ∧
    (s.svc.update = 5 → exec .applyComplete s = .next
      (({ s with svc := { s.svc with update := 6 } }).emit (.pldm 5 0x18 [0])).finish) ∧
    (s.svc.update = 6 → ∀ (dies dead engines : Nat) (burn : Bool) (t : State),
      t = State.loadFirmware (({ s with svc := { s.svc with update := 0, updateImage := [] } }).emit (.pldm 5 0x1A [0])) burn →
      exec (.activateFirmware dies dead engines burn) s = .next (if t.boot.loaded then t.bootRest dies dead engines else t).finish) ∧
    exec .getTid s = .next (s.emit (.pldm 0 0x02 [5])).finish

/-! ## Reset, boot and errors -/

/-- Power-on and module reset (R777, R778, R781, R782): the module boots from what power leaves, a lost fabric or host die leaves it in recovery,
and a module reset locks the expert registers again, forgets the halts, and gives every register of the blocks that it resets its reset value.

PERST# (R740, R749, R815): its assertion takes the port's link and its domain, and its release wakes the domain once the host die is up; both
count also while the module is off.

Halts of the control processor (R676, R779, R780, R803): each cause is logged and halts it, the third halt within 10 s for good, with the module
failed; a halted processor restarts, and a FIRMWARE_ACTIVATE that has replied restarts it once no command is in progress.

The model's choices in it: logs 43, 53, 54, 55, 82. -/
def Obligations.TheModuleIsResetAndHalts : Prop :=
  ((∀ (s : State) (dies dead engines : Nat) (burn : Bool), s.pwr.off = false →
    exec (.powerOnReset dies dead engines burn) s = .next ((((s.cold.lifeCount 1).loadFirmware burn).bootRest dies dead engines)).finish) ∧
  (∀ (s : State) (dies dead engines : Nat), (bit dies 0 = true ∨ bit dies 3 = true) →
    s.bootRest dies dead engines = { s with boot := { s.boot with state := 2, loaded := false, dies := 0 } }) ∧
  (∀ s : State, s.cold.hbm = State.reset.hbm ∧ s.cold.regs = State.reset.regs ∧ s.cold.q = State.reset.q ∧ s.cold.boot = State.reset.boot ∧
    s.cold.svc.banks = s.svc.banks ∧ s.cold.svc.svn = s.svc.svn ∧ s.cold.svc.live = s.svc.written ∧ s.cold.svc.calNow = s.svc.cal) ∧
  (∀ (s : State) (loss burn : Bool), s.pwr.off = false →
    exec (.moduleReset loss burn) s = .next (s.moduleReset loss burn).finish ∧ (s.moduleReset loss burn).adm.unlocked = 0 ∧
      (s.moduleReset loss burn).boot.halts = [] ∧ (s.moduleReset loss burn).hif.fns = []) ∧
  (∀ (s : State) (burn : Bool), s.pwr.off = false → (s.port 0).link ≠ 0 →
    exec (.portLinkLoss 0 burn) s = .next (s.moduleReset true burn).finish) ∧
  (∀ (s : State) (p : Nat) (burn : Bool), s.pwr.off = false → 1 ≤ p → p < 4 → (s.port p).link ≠ 0 →
    exec (.portLinkLoss p burn) s = .next (s.portLoss p).finish)) ∧
  ((∀ (s t : State) (p : Nat) (burn : Bool), s.pwr.off = false → p < 4 → (s.port p).perst = false → (s.port p).link = 0 →
    t = (s.setPort p { s.port p with perst := true, link := 0 }).domOff (domPort p) →
    exec (.perstAssert p burn) s = .next t.finish) ∧
  (∀ (s t : State) (p : Nat) (burn : Bool), s.pwr.off = false → 1 ≤ p → p < 4 → (s.port p).perst = false → (s.port p).link ≠ 0 →
    t = (State.portLoss (s.setPort p { s.port p with perst := true, link := 0 }) p).domOff (domPort p) → t.pwr.off = false →
    exec (.perstAssert p burn) s = .next t.finish) ∧
  (∀ (s t : State) (burn : Bool), s.pwr.off = false → (s.port 0).perst = false → (s.port 0).link ≠ 0 →
    t = (State.moduleReset (s.setPort 0 { s.port 0 with perst := true, link := 0 }) true burn).domOff (domPort 0) → t.pwr.off = false →
    exec (.perstAssert 0 burn) s = .next t.finish) ∧
  (∀ (s : State) (p : Nat) (burn : Bool), s.pwr.off = true → p < 4 → (s.port p).perst = false →
    exec (.perstAssert p burn) s = .next (s.setPort p { s.port p with perst := true, link := 0 })) ∧
  (∀ (s t : State) (p : Nat), s.pwr.off = false → p < 4 → bit s.boot.dies 3 = true →
    t = (s.setPort p { s.port p with perst := false }).wakeDom (domPort p) → t.pwr.off = false →
    exec (.perstRelease p) s = .next t.finish) ∧
  (∀ (s : State) (p : Nat), s.pwr.off = true → p < 4 →
    exec (.perstRelease p) s = .next (s.setPort p { s.port p with perst := false }))) ∧
  ((∀ (s t : State) (addr cause : Nat) (i : Instr), (i, cause) ∈ [(Instr.watchdogExpiry addr, 1), (.codeWrite addr, 2), (.cpFault addr, 4)] →
    s.pwr.off = false → s.cpRuns = true → t = s.elog elCpHalt 0 cause addr →
    (t.boot.halts.filter fun h => decide (t.now < h + 10000000000)).length < 2 →
    exec i s = .next { t with boot := { t.boot with
      cpHalted := true, cause, stuck := false
      halts := t.now :: t.boot.halts.filter fun h => decide (t.now < h + 10000000000) } }.finish) ∧
  (∀ (s t : State) (addr cause : Nat) (i : Instr), (i, cause) ∈ [(Instr.watchdogExpiry addr, 1), (.codeWrite addr, 2), (.cpFault addr, 4)] →
    s.pwr.off = false → s.cpRuns = true → t = s.elog elCpHalt 0 cause addr →
    2 ≤ (t.boot.halts.filter fun h => decide (t.now < h + 10000000000)).length →
    exec i s = .next (({ t with boot := { t.boot with
      cpHalted := true, cause, stuck := true, state := 2
      halts := t.now :: t.boot.halts.filter fun h => decide (t.now < h + 10000000000) } }).fwEvent 5
        t.boot.fwBuild t.boot.fwSvn t.boot.bank cause).finish) ∧
  (∀ (s : State) (addr off : Nat), s.pwr.off = false → s.cpRuns = true →
    exec (.sramUe addr off) s = .next ((s.ecc 2 5 0 off).cpHalt 3 addr).finish) ∧
  (∀ (s : State) (burn : Bool), s.pwr.off = false → s.boot.cpHalted = true → s.boot.stuck = false → s.cpRuns = false →
    exec (.cpRestart burn) s = .next (s.cpRestart burn).finish) ∧
  (∀ (s : State) (burn : Bool), s.pwr.off = false → s.cpRuns = true → s.boot.activating = true → s.inProgress = [] →
    exec (.cpRestart burn) s = .next ((s.cpHalt 5 0).cpRestart burn).finish))

/-- Firmware (R679, R783 to R786): a good image, and no other, is staged in the bank that does not run, and answered once flash holds it; an activation names the
staged bank, for the next power-on or at once.

The model's choices in it: logs 18, 44, 57. -/
def Obligations.FirmwareIsStagedAndActivated : Prop :=
  (∀ (s : State) (p k : Nat) (c c' : Cmd) (t : State) (i : Bytes), CmdReady s p k 0x00E0 anySel anyAuth c → let b := s.begin p k c; c.stage = 0 →
    b.admRead p k c.begun (c.arg 1) (c.arg 0) = (some (some i), c', t) →
    exec (.firmwareStage p k) s = .next (if 4194304 < c.arg 0 ∨ c.arg 0 ≠ 512 + leAt i 8 4 then t.replied p k 0x81 0 []
      else if t.imageGood i = true then ({ t.setBank (1 - t.boot.bank) ⟨[], false⟩ with
        svc := { (t.setBank (1 - t.boot.bank) ⟨[], false⟩).svc with job := some (.stage p k (1 - t.boot.bank) i) } }).keep p k
          { c' with stage := 1 }
      else t.replied p k 0x82 0 []).finish) ∧
  (∀ (s t : State) (p k b : Nat) (i : Bytes), s.pwr.off = false → s.cpRuns = true → s.svc.job = some (.stage p k b i) →
    t = { s with svc := { s.svc with job := none } } →
    exec (.flashWriteDone true) s = .next (((t.setBank b ⟨i, true⟩).fwEvent 1 (imageBuild i) (imageSvn i) b 0).replied p k stSuccess 0
      (resultBytes [(32, imageVersion i b)])).finish ∧
    exec (.flashWriteDone false) s = .next ((t.setBank b ⟨[], false⟩).replied p k 0x83 0 []).finish) ∧
  (∀ (s : State) (p k : Nat) (c : Cmd) (n : Nat), CmdReady s p k 0x00E1 (fun ps => par ps 0 != 1) anyAuth c → let b := s.begin p k c; c.arg 0 = 0 →
    b.stagedBank = some n →
    exec (.firmwareActivateNextPowerOn p k) s = .next (({ b with svc := { b.svc with bootBank := n } }).replied p k stSuccess 0
      (resultBytes [])).finish) ∧
  (∀ (s : State) (p k : Nat) (c : Cmd) (n : Nat), CmdReady s p k 0x00E1 (fun ps => par ps 0 == 1) anyAuth c → let b := s.begin p k c;
    b.stagedBank = some n →
    exec (.firmwareActivateNow p k) s = .next (({ b with
      svc := { b.svc with bootBank := n }, boot := { b.boot with activating := true } }).replied p k stSuccess 0 (resultBytes [])).finish) ∧
  (∀ (s : State) (p k : Nat) (c : Cmd), CmdReady s p k 0x00E1 (fun ps => par ps 0 == 1) anyAuth c → let b := s.begin p k c; b.stagedBank = none →
    exec (.firmwareActivateNow p k) s = .next (b.replied p k 0x80 0 []).finish)

/-- Job domains (R789 to R791, R797): a creation sends DOMAIN_SETUP to the members and waits for DOMAIN_READY, a fault command waits until the fault
clears, and a snapshot waits for its tree.

The patrol scrub and the hour of the correctable errors (R800 to R802, R809): a scrub read of a stack in service corrects a correctable word and
poisons an uncorrectable one, and an hour's count takes the place of the last.

The model's choices in it: logs 15, 48. -/
def Obligations.JobDomainsAndMemoryAreTended : Prop :=
  ((∀ (s : State) (p k partition n : Nat) (c c' : Cmd) (t : State) (d : Bytes) (ms : List Nat), CmdReady s p k 0x00F0 anySel anyAuth c → let b := s.begin p k c;
    c.stage = 0 → partition = c.arg 0 → n = c.arg 1 → partition ≠ 0 → n ≠ 0 → n ≤ 131072 → b.partitionInUse partition = false →
    b.admRead p k c.begun (c.arg 2) (4 * n) = (some (some d), c', t) → ms = listOf d n → ms.eraseDups.length = ms.length →
    ms.all t.inTorus = true → ms.contains t.me = true → t.jobs.domains.length < 64 →
    exec (.jobDomainCreate p k) s = .next ((((t.setCmd p k { c' with stage := 1 }).setDomain partition (newDomain ms p k)).sendDomainSetup
      partition ms).keep p k { c' with stage := 1 }).finish) ∧
  (∀ (s : State) (p k : Nat) (c : Cmd) (d : Domain), CmdReady s p k 0x00F1 anySel anyAuth c → let b := s.begin p k c; c.stage = 0 →
    (c.arg 1 = 0 ∨ 0x7F < c.arg 1) → b.domain (c.arg 0) = some d → d.waiting = none →
    exec (.jobDomainFault p k) s = .next (((b.setDomain (c.arg 0) { d with faultCmds := d.faultCmds ++ [(p, k)] }).jobFault (c.arg 0)
      (c.arg 1) 0).keep p k { c.begun with stage := 1 }).finish) ∧
  (∀ (s : State) (p k seq : Nat) (c : Cmd) (t : State) (d : Domain), CmdReady s p k 0x00F2 anySel anyAuth c → let b := s.begin p k c; c.stage = 0 →
    b.domain (c.arg 0) = some d → d.ready = true → d.snap = none → d.stopped = false → d.fault = none →
    seq = (2 * b.col.rooted + 2) % 2 ^ 32 →
    t = (b.setCmd p k { c.begun with stage := 1 }).setDomain (c.arg 0) { d with snap := some (p, k) } →
    exec (.snapshot p k) s = .next ((({ t with col := { t.col with rooted := t.col.rooted + 1 } }).treeStart tkSnapshot (c.arg 0) seq (c.arg 0)
      [] (beBytes 1 1 ++ zeros 15)).keep p k { c.begun with stage := 1 }).finish)) ∧
  ((∀ (s t : State) (w : Nat), s.pwr.off = false → w < 2 ^ 34 → s.stackServes (stackOf (w * 32)) = true → s.comF .MEM_SCRUB_CFG 31 31 = 1 →
    t = { s with hbm := { s.hbm with
      scrubbing := setBits s.hbm.scrubbing (stackOf (w * 32)) (stackOf (w * 32)) (if w % 2 ^ 31 = 2 ^ 31 - 1 then 0 else 1) } } →
    (SMap.find s.hbm.ecc w = none → exec (.scrubRead w) s = .next t.finish) ∧
    (SMap.find s.hbm.ecc w = some .correctable → exec (.scrubRead w) s = .next ((t.corrected w).clearEcc w).finish) ∧
    (SMap.find s.hbm.ecc w = some .uncorrectable → exec (.scrubRead w) s = .next (t.foundUe w).finish)) ∧
  (∀ (s : State) (st : Nat), s.pwr.off = false → st < 8 →
    exec (.ceHourRollover st) s = .next { s with hbm := { s.hbm with
      ceLast := SMap.put s.hbm.ceLast st (SMap.getD s.hbm.ceHour st 0)
      ceHour := SMap.del s.hbm.ceHour st } }.finish))

/-! ## Links -/

/-- The MAC's judgement of a received frame on a link that is neither OFF nor DOWN, in its order (R635, R636): each frame that is dropped is
counted, and a copy of it that had begun to leave is ended as bad, as only a link in service has (log 75); one that passes is counted and goes to
its receiver by its EtherType; a HELLO's epoch is taken, and one of a direct link is acted on.

The pauses of a link (R639): a received pause ends when its time has run out, and one that this end still holds is sent again after half of
its time.

The model's choices in it: logs 21, 35, 75. -/
def Obligations.FramesAreJudged : Prop :=
  (∀ (s v : State) (g j : Nat) (data body : Bytes) (ok : Bool) (note : Option (Nat × Nat × Nat)), s.pwr.off = false →
    (s.link g j).state ≠ .off → (s.link g j).state ≠ .down → body = data.take (data.length - 4) → v = s.frameSeen g j data →
    (data.length < 64 → exec (.frameReceive g j data ok note) s = .next (v.lcount g j 4 1).finish) ∧
    (4224 < data.length → exec (.frameReceive g j data ok note) s = .next ((v.lcount g j 5 1).cutThrough g j (data.take 4220) note).finish) ∧
    (64 ≤ data.length → data.length ≤ 4224 → ok = true → data.drop (data.length - 4) = frameCheck body true →
      exec (.frameReceive g j data ok note) s = .next ((v.lcount g j 3 1).cutThrough g j body note).finish) ∧
    (64 ≤ data.length → data.length ≤ 4224 →
      ok = false ∨ (data.drop (data.length - 4) ≠ frameCheck body true ∧ data.drop (data.length - 4) ≠ frameCheck body false) →
      exec (.frameReceive g j data ok note) s = .next ((v.lcount g j 2 1).cutThrough g j body note).finish) ∧
    (64 ≤ data.length → data.length ≤ 4224 → ok = true → data.drop (data.length - 4) ≠ frameCheck body true →
      data.drop (data.length - 4) = frameCheck body false → ∀ (typ : Nat) (u : State), typ = beNat (slice data 12 2) →
      u = (v.lcount g j 0 1).lcount g j 1 data.length →
      (typ = 0x8808 → exec (.frameReceive g j data ok note) s = .next (u.macControlIn g j (body.drop 14)).finish) ∧
      (typ = 0x88F7 → exec (.frameReceive g j data ok note) s = .next (u.ptpIn g j (body.drop 14)).finish) ∧
      (typ ≠ 0x8808 → typ ≠ 0x88F7 → s.isControl body = true → beNat (slice body 15 1) = 1 → s.switchedGroup g = false →
        exec (.frameReceive g j data ok note) s = .next
          ((u.takeEpoch (parseHello (body.drop 14)).mod (parseHello (body.drop 14)).epoch).helloLink g j (parseHello (body.drop 14))).finish) ∧
      (typ ≠ 0x8808 → typ ≠ 0x88F7 → s.isControl body = true → beNat (slice body 15 1) = 1 → s.switchedGroup g = false →
        s.isControl data = true → exec (.hello g j data) s = .next
          ((u.takeEpoch (parseHello (body.drop 14)).mod (parseHello (body.drop 14)).epoch).helloLink g j (parseHello (body.drop 14))).finish) ∧
      (typ ≠ 0x8808 → typ ≠ 0x88F7 → s.isControl body = true → beNat (slice body 15 1) = 1 → s.switchedGroup g = true →
        exec (.frameReceive g j data ok note) s = .next
          (u.takeEpoch (parseHello (body.drop 14)).mod (parseHello (body.drop 14)).epoch).finish) ∧
      (typ ≠ 0x8808 → typ ≠ 0x88F7 → s.isControl body = true → beNat (slice body 15 1) ≠ 1 →
        exec (.frameReceive g j data ok note) s = .next (v.lcount g j 7 1).finish) ∧
      (typ ≠ 0x8808 → typ ≠ 0x88F7 → s.isControl body = false → (s.link g j).state ≠ .inService →
        exec (.frameReceive g j data ok note) s = .next (v.lcount g j 7 1).finish) ∧
      (typ ≠ 0x8808 → typ ≠ 0x88F7 → s.isControl body = false → (s.link g j).state = .inService → s.switchedGroup g = false →
        typ = s.etherType →
        exec (.frameReceive g j data ok note) s = .next (u.packetIn g j data.length (parsePkt (body.drop 14) note)).finish))) ∧
  (∀ (s : State) (g j : Nat) (body : Bytes) (note : Option (Nat × Nat × Nat)), (s.link g j).state ≠ .inService →
    s.cutThrough g j body note = s) ∧
  ((∀ (s : State) (g j prio : Nat), s.pwr.off = false →
    exec (.pauseExpiry g j prio) s = .next
      { s with lnk := { s.lnk with paused := SMap.del s.lnk.paused (8 * (8 * g + j) + prio) } }.finish) ∧
  (∀ (s : State) (g j prio : Nat), s.pwr.off = false → s.lnk.pausing.contains (8 * (8 * g + j) + prio) = true →
    exec (.pauseRefresh g j prio) s = .next (s.sendPause g j prio (s.comF (.LNK_GCFG0 g) 31 16)).finish) ∧
  (∀ (s : State) (g j prio : Nat), s.pwr.off = false → s.lnk.pausing.contains (8 * (8 * g + j) + prio) = false →
    exec (.pauseRefresh g j prio) s = .next s.finish))

/-- The bring-up of a link (R629, R630, R642): light, then lock, then HELLOs on a direct link, which ask for low-power idle where its conditions
hold, and a switched link enters service after its lock; a step that overruns begins again, and a HELD link does so too.

The departures of a link in service (R633, R645): each with its reason, which is UNPLUGGED when the connector opened within the last 10 ms;
a link that is not in service stays as it is but for what is seen of its light and lock.

The model's choices in it: log 50. -/
def Obligations.LinksComeAndGo : Prop :=
  ((∀ (s : State) (g j : Nat) (l : Link), s.pwr.off = false → s.link g j = l → l.state = .training → l.step = 1 →
    exec (.opticalPowerStable g j) s = .next (s.setLink g j { l with signal := 0xF, step := 2 }).finish) ∧
  (∀ (s : State) (g j : Nat) (l : Link), s.pwr.off = false → s.link g j = l → l.state = .training → l.step = 2 → s.switchedGroup g = false →
    (s.lgroup g).lpi ≠ 3 →
    exec (.linkLock g j) s = .next (s.setLink g j { l with pcs := true, fec := true, step := 3, state := .exchange }).finish) ∧
  (∀ (s : State) (g j : Nat) (l : Link), s.pwr.off = false → s.link g j = l → l.state = .training → l.step = 2 → s.switchedGroup g = true →
    (s.lgroup g).lpi ≠ 3 →
    exec (.linkLock g j) s = .next (s.setLink g j { l with pcs := true, fec := true, step := 3 }).finish) ∧
  (∀ (s : State) (g j : Nat) (l : Link), s.pwr.off = false → s.link g j = l → l.state = .training → l.step = 3 → s.switchedGroup g = true →
    exec (.switchedLinkInService g j) s = .next (s.linkIn g j 0x10 none).finish) ∧
  (∀ (s : State) (g j : Nat), s.pwr.off = false → 2 ≤ (s.link g j).step →
    exec (.trainingStepTimeout g j) s = .next (((s.linkRest g j).setFlag (.LNK_GERR g) 0).lcount g j 15 1).finish) ∧
  (∀ (s : State) (g j : Nat), s.pwr.off = false → s.switchedGroup g = false →
    (s.link g j).state ∈ [LinkState.exchange, .held, .inService, .waking] →
    (s.lgroup g).lpi ≠ 1 → s.lpiHolds g = false →
    exec (.helloSend g j) s = .next (s.sendHello g j false false).finish) ∧
  (∀ (s : State) (g j : Nat), s.pwr.off = false → s.switchedGroup g = false → (s.link g j).state = .inService → (s.lgroup g).lpi = 1 →
    exec (.helloSend g j) s = .next ((s.setGroupL g { s.lgroup g with asked := true }).sendHello g j true false).finish) ∧
  (∀ (s t : State) (g j : Nat), s.pwr.off = false → s.switchedGroup g = false → (s.link g j).state = .inService → (s.lgroup g).lpi = 0 →
    (s.lgroup g).acked = false → s.lpiHolds g = true → t = s.setGroupL g { s.lgroup g with lpi := 1 } →
    exec (.helloSend g j) s = .next ((t.setGroupL g { t.lgroup g with asked := true }).sendHello g j true false).finish) ∧
  (∀ (s : State) (g j : Nat), s.pwr.off = false → (s.link g j).state = .held →
    exec (.heldLinkRetry g j) s = .next ((s.linkRest g j).linkEvent g j).finish)) ∧
  ((∀ (s : State) (g j : Nat), s.pwr.off = false → (s.link g j).state = .inService → s.switchedGroup g = false → (s.lgroup g).openedAt = none →
    exec (.helloLost g j) s = .next (s.linkLeave g j 4).finish) ∧
  (∀ (s : State) (g j t : Nat), s.pwr.off = false → (s.link g j).state = .inService → s.switchedGroup g = false →
    (s.lgroup g).openedAt = some t → s.now ≤ t + 10000000 →
    exec (.helloLost g j) s = .next (s.linkLeave g j 6).finish) ∧
  (∀ (s t : State) (g j signal : Nat), s.pwr.off = false → t = s.setLink g j { s.link g j with signal := signal % 16 } →
    (s.link g j).state = .inService → (s.lgroup g).openedAt = none →
    exec (.signalLost g j signal) s = .next (t.linkLeave g j 1).finish) ∧
  (∀ (s t : State) (g j : Nat), s.pwr.off = false → t = s.setLink g j { s.link g j with pcs := false } →
    (s.link g j).state = .inService → (s.lgroup g).openedAt = none →
    exec (.alignLost g j) s = .next (t.linkLeave g j 2).finish) ∧
  (∀ (s t : State) (g j : Nat), s.pwr.off = false → t = s.setLink g j { s.link g j with pcs := false } →
    (s.link g j).state ≠ .inService →
    exec (.alignLost g j) s = .next t.finish) ∧
  (∀ (s t : State) (g j n : Nat), s.pwr.off = false → t = s.lcount g j 13 n → (s.link g j).state = .inService → (s.lgroup g).openedAt = none →
    t.comF (.LNK_GCFG1 g) 7 0 < n →
    exec (.fecDegrade g j n) s = .next ((t.setFlag (.LNK_GERR g) 1).linkLeave g j 3).finish) ∧
  (∀ (s t : State) (g j n : Nat), s.pwr.off = false → t = s.lcount g j 13 n → n ≤ t.comF (.LNK_GCFG1 g) 7 0 →
    exec (.fecDegrade g j n) s = .next t.finish))

/-- Low-power idle and connectors (R641 to R643, R645): a group whose idle time is over while its conditions hold asks for low-power idle; a QUIET
group that light reaches wakes its links, and shines only where its connector is mated; a wake that overruns takes its waking links out of
service; and a connector that opens, closes and settles is noted, reported and followed by its links. -/
def Obligations.GroupsSleepAndArePlugged : Prop :=
  (∀ (s t : State) (g : Nat), s.pwr.off = false → t = s.setGroupL g { s.lgroup g with idle := true } → (s.lgroup g).lpi = 0 →
    t.lpiHolds g = true →
    exec (.lpiIdleExpiry g) s = .next (t.setGroupL g { t.lgroup g with lpi := 1 }).finish) ∧
  (∀ (s : State) (g : Nat), s.pwr.off = false → (s.lgroup g).lpi = 2 →
    exec (.lpiWake g) s = .next ((List.range 8).foldl (fun (s : State) j =>
      if (s.link g j).state = .quiet then s.updLink g j fun l => { l with state := .waking, pcs := false, fec := false, hellos := 0 } else s)
      (s.setGroupL g { s.lgroup g with lpi := 3, lit := (s.lgroup g).contact && (s.lgroup g).plugged })).finish) ∧
  (∀ (s : State) (g : Nat), s.pwr.off = false → (s.lgroup g).lpi = 3 →
    exec (.wakeTimeout g) s = .next ((((List.range 8).filter fun j => (s.link g j).state == .waking).foldl
      (fun (s : State) j => s.linkLeave g j 9) (s.setGroupL g { s.lgroup g with lpi := 0 })).groupEvent g 4).finish) ∧
  (∀ (s : State) (g : Nat), s.pwr.off = false →
    exec (.connectorOpen g) s = .next (s.setGroupL g { s.lgroup g with contact := false, openedAt := some s.now, lit := false }).finish) ∧
  (∀ (s : State) (g : Nat), s.pwr.off = false →
    exec (.connectorClose g) s = .next ((s.setGroupL g { s.lgroup g with
      contact := true, lit := (s.lgroup g).plugged && s.domOn (64 + g) && (s.lgroup g).lpi != 2 }).groupRestart g).finish) ∧
  (∀ (s : State) (g : Nat), s.pwr.off = false → (s.lgroup g).contact = true → (s.lgroup g).plugged = false →
    exec (.connectorDebounce g) s = .next ((((s.setGroupL g { s.lgroup g with plugged := true, lit := s.domOn (64 + g) }).lifeCount
      (12 + g)).groupEvent g 1).groupRetry g).finish) ∧
  (∀ (s : State) (g : Nat), s.pwr.off = false → (s.lgroup g).contact = false → (s.lgroup g).plugged = true →
    exec (.connectorDebounce g) s = .next (((s.setGroupL g { s.lgroup g with plugged := false }).groupEvent g 2).groupLeave g 6).finish)

/-! ## Packets -/

/-- Requests in their turn (R265, R310, R312, R315, R536, R569): a read, a write and an atomic of a page held here, which is not frozen and of
which no note must go first, are performed and answered, POISONED where a word read is poisoned; one that its checks refuse is answered with their
status and reason; and a token is produced, or answered with the reason for which it is not. A forwarded request that is new is performed with what
was decided on its message.

The model's choices in it: logs 21, 30, 72, 93. -/
def Obligations.RequestsArePerformed : Prop :=
  (∀ (s u : State) (p : Pkt) (key byte : Nat) (h : Held) (d : Decision) (r : Bytes × Bool × State), InTurn s p → p.typ = 0x02 → p.note = none →
    (s.performing p).checkPkt p = (.accept (.page key byte), u) → u.servePage key p.src false = .inr h → h.frozen = false →
    d = .accept (.page key byte) p.remote p.sky → r = (u.heat key p.src (wireUnits p) false).pageRead key h byte p.length →
    exec (.readReq p) s = .next (if r.2.1 then (r.2.2.holdSelf p stPoisoned).answered p (some d) stPoisoned rsPoison []
      else r.2.2.answered p (some d) 0 0 r.1).finish) ∧
  (∀ (s u v : State) (p : Pkt) (key byte : Nat) (h : Held) (d : Decision), InTurn s p → p.typ = 0x01 → p.note = none →
    (s.performing p).checkPkt p = (.accept (.page key byte), u) → u.servePage key p.src true = .inr h → h.frozen = false →
    d = .accept (.page key byte) p.remote p.sky →
    v = ((u.heat key p.src (wireUnits p) true).pageWrite key h byte (p.payload.take p.length)).afterWrite key byte p.length →
    v.mustNote key = false →
    exec (.writeReq p) s = .next (v.answered p (some d) 0 0 []).finish) ∧
  (∀ (s u v : State) (p : Pkt) (key byte x width : Nat) (h : Held) (d : Decision), InTurn s p → p.typ = 0x04 → p.note = none →
    (s.performing p).checkPkt p = (.accept (.page key byte), u) → u.servePage key p.src true = .inr h → h.frozen = false →
    d = .accept (.page key byte) p.remote p.sky → width = beNat (slice p.payload 1 1) →
    (u.heat key p.src 1 true).pageAtomic key h byte (beNat (slice p.payload 0 1)) width (beNat (slice p.payload 8 8))
      (beNat (slice p.payload 16 8)) = (some x, v) → (v.afterWrite key byte width).mustNote key = false →
    exec (.atomicReq p) s = .next ((v.afterWrite key byte width).answered p (some d) 0 0 (leBytes 8 x)).finish) ∧
  (∀ (s u v : State) (p : Pkt) (key byte : Nat) (h : Held) (d : Decision), InTurn s p → p.typ = 0x04 → p.note = none →
    (s.performing p).checkPkt p = (.accept (.page key byte), u) → u.servePage key p.src true = .inr h → h.frozen = false →
    d = .accept (.page key byte) p.remote p.sky →
    (u.heat key p.src 1 true).pageAtomic key h byte (beNat (slice p.payload 0 1)) (beNat (slice p.payload 1 1)) (beNat (slice p.payload 8 8))
      (beNat (slice p.payload 16 8)) = (none, v) →
    exec (.atomicReq p) s = .next ((v.holdSelf p stPoisoned).answered p (some d) stPoisoned rsPoison []).finish) ∧
  (∀ (s u : State) (p : Pkt) (i : Instr) (typ status reason : Nat), (i, typ) ∈ [(Instr.writeReq p, 0x01), (.readReq p, 0x02), (.atomicReq p, 0x04)] →
    InTurn s p → p.typ = typ → (s.performing p).checkPkt p = (.refuse status reason, u) → status ≠ 0 →
    exec i s = .next ((u.holdSelf p status).answered p (some (.refuse status reason)) status reason []).finish) ∧
  (∀ (s u : State) (p : Pkt), InTurn s p → p.typ = 0x06 →
    (s.performing p).produce (beNat (slice p.payload 0 2) % 4096) (beNat (slice p.payload 2 2)) (beNat (slice p.payload 4 4)) p.partition =
      (none, u) →
    exec (.tokenReq p) s = .next (u.answered p none 0 0 []).finish) ∧
  (∀ (s u : State) (p : Pkt) (r : Nat), InTurn s p → p.typ = 0x06 →
    (s.performing p).produce (beNat (slice p.payload 0 2) % 4096) (beNat (slice p.payload 2 2)) (beNat (slice p.payload 4 4)) p.partition =
      (some r, u) →
    exec (.tokenReq p) s = .next (u.answered p none stRemoteAccess r []).finish) ∧
  (∀ (s u : State) (p : Pkt) (r : Perf) (d : Option Decision), ForwardedNew s p →
    (s.forwardedTurn p).newArrival.2.perform p (s.forwardedTurn p).qpe.nextArrival ((s.forwardedTurn p).forwardDecision p) = (r, d, u) →
    exec (.forwardedRequest p) s = .next (u.performedForward p (s.forwardedTurn p).qpe.nextArrival r d).finish)

/-- Control requests in their turn (R305, R312): one that is accepted is answered and handed to its unit at the end of the command, one that is
refused is answered with its reason, and one for which there is no room is dropped unanswered, so that it is retransmitted.

What is done with an accepted control request (R396, R406, R424, R466, R471, R534, R543, R545 to R548, R789). The control requests are those of
COLL_DATA, GROUP_SETUP, TREE_UP, TREE_DOWN, DOMAIN_SETUP, DOMAIN_READY, TRANSIT_LAUNCH, TRANSIT_CANCEL, TRANSIT_DONE, PLACE_PROPOSE, MOVE_START,
MOVE_COPY, MOVE_DONE, MOVE_END, THATCH_HINT, COLLAPSE_NOTE and COLLAPSE_DONE.

The model's choices in it: logs 22, 26, 29. -/
def Obligations.ControlRequestsAreTaken : Prop :=
  ((∀ (s : State) (p : Pkt) (i : Instr) (typ : Nat) (d : Bytes), (i, typ) ∈ controlRows p → InTurn s p → p.typ = typ →
    (s.performing p).verdict p = .accept d →
    exec i s = .next (if p.last = true then State.answered { s.performing p with
      qpe := { (s.performing p).qpe with inbox := (s.performing p).qpe.inbox ++ [p] } } p none 0 0 d
      else (s.performing p).answered p none 0 0 []).finish) ∧
  (∀ (s u : State) (p : Pkt) (i : Instr) (typ st rs : Nat) (d : Bytes), (i, typ) ∈ controlRows p → InTurn s p → p.typ = typ →
    (s.performing p).verdict p = .refuse st rs d u →
    exec i s = .next (u.answered p (some (.refuse st rs)) st rs d).finish) ∧
  (∀ (s : State) (p : Pkt) (i : Instr) (typ : Nat), (i, typ) ∈ controlRows p → InTurn s p → p.typ = typ → (s.performing p).verdict p = .busy →
    exec i s = .next ((s.performing p).gutter gResponderBusy).finish) ∧
  (∀ (s : State) (p : Pkt), p.typ ∈ [0x11, 0x13, 0x21, 0x22, 0x28, 0x2A, 0x2B, 0x2C, 0x2D, 0x2F, 0x30, 0x31] → s.verdict p = .accept []) ∧
  (∀ (s : State) (p : Pkt), p.typ = 0x10 → s.definedGroup (leAt p.payload 0 1) = none →
    s.verdict p = .refuse stRemoteAccess rsKeyUnknown [] (s.setFlag .COL_ERR 2))) ∧
  ((∀ (s : State) (p : Pkt) (x : Group) (c : Coll) (m : CMsg), p.typ = 0x10 → s.group (beNat (slice p.payload 0 1)) = some x →
    x.coll = some c → m = readColl p → m.seq = c.seq →
    (m.check = c.check → s.handIn p =
      (s.setColl (beNat (slice p.payload 0 1)) { c with inbox := c.inbox ++ [m] }).collGo (beNat (slice p.payload 0 1))) ∧
    (m.check ≠ c.check → s.handIn p =
      { s.setFlag .COL_ERR 0 with jobs := { s.jobs with faults := s.jobs.faults ++ [(x.partition, 3, s.me)] } })) ∧
  (∀ (s : State) (p : Pkt) (g : Nat), p.typ = 0x11 → g = beNat (slice p.payload 0 1) → s.definedGroup g = none →
    s.handIn p = State.setupCheck { s with col := { s.col with
      setups := (s.col.setups.filter fun e => !(e.1 == g && e.2.1 == p.src)) ++ [(g, p.src, beNat (slice p.payload 4 4))] } } g) ∧
  (∀ (s : State) (p : Pkt) (k : Nat) (e : TEntry), p.typ = 0x21 →
    (s.trn.entries.find? fun e => e.2.by_ == .remote p.src p.txn) = some (k, e) →
    s.handIn p = s.cancelEntry k (leAt p.payload 0 1) (leAt p.payload 1 1) false false) ∧
  (∀ (s u : State) (p : Pkt) (t : Txn) (n id : Nat) (w : Wq) (o : Op) (pr : Program), p.typ = 0x22 → SMap.find s.qpe.txns p.txn = some t →
    t.owner = .launch n id → t.dst = p.src → leAt p.payload 0 1 = 0 → u = s.freeTxn p.txn → u.wq n = some w → w.op id = some o →
    u.program (leAt o.desc 8 2) = some pr →
    s.handIn p = (u.operandHeat (leAt o.desc 8 2) p.src pr.image (operandsOf (dOperands o.desc) (leAt o.desc 10 1))).opDone n id 0
      (leAt p.payload 1 1) false (beNat (slice p.payload 4 4)) (p.src + beNat (slice p.payload 8 4) * 2 ^ 32)) ∧
  (∀ (s : State) (p : Pkt) (t : Txn) (n id st : Nat), p.typ = 0x22 → SMap.find s.qpe.txns p.txn = some t → t.owner = .launch n id →
    t.dst = p.src → st = leAt p.payload 0 1 → st ≠ stSuccess → st ≠ stInexact →
    s.handIn p = (s.freeTxn p.txn).opDone n id st (leAt p.payload 1 1) (decide (3 ≤ st) && decide (st ≤ 6)) (beNat (slice p.payload 4 4))
      (p.src + beNat (slice p.payload 8 4) * 2 ^ 32)) ∧
  (∀ (s u : State) (p : Pkt) (key f : Nat), p.typ = 0x29 → plcByte p 16 = 0 → key = pageKey (plcHome p) (plcPage p) →
    s.knowsNewer key (plcSeq p) = false →
    (s.releaseIncoming key).takeFrame (.foreign (plcHome p) (plcPage p)) = some (f, u) →
    s.handIn p = { u with
      plc := { u.plc with incoming := SMap.put u.plc.incoming key ⟨f, plcByte p 17 == 1, plcSeq p, p.partition, plcByte p 21 == 1⟩ } }) ∧
  (∀ (s : State) (p : Pkt) (key : Nat) (h : Incoming), p.typ = 0x2A → key = pageKey (plcHome p) (plcPage p) →
    SMap.find s.plc.incoming key = some h → seqNewer h.seq (plcSeq p) = false → beNat (slice p.payload 20 16) = 0 → key / 2 ^ 23 ≠ s.me →
    s.handIn p = ((s.via .move).physWrite (h.frame * frameBytes + beNat (slice p.payload 16 4) % frameBytes) (slice p.payload 64 4096)).via .fab) ∧
  (∀ (s : State) (p : Pkt) (key off : Nat) (h : Incoming), p.typ = 0x2A → key = pageKey (plcHome p) (plcPage p) →
    SMap.find s.plc.incoming key = some h → seqNewer h.seq (plcSeq p) = false → beNat (slice p.payload 20 16) = 0 → key / 2 ^ 23 = s.me →
    off = beNat (slice p.payload 16 4) % frameBytes →
    s.handIn p = (((s.via .move).physWrite (h.frame * frameBytes + off) (slice p.payload 64 4096)).via .fab).updPage (key % 2 ^ 23)
      fun g => g.cleaned ((List.range 128).map (off / 32 + ·))) ∧
  (∀ (s : State) (p : Pkt) (key : Nat) (h : Incoming), p.typ = 0x2A → key = pageKey (plcHome p) (plcPage p) →
    SMap.find s.plc.incoming key = some h → seqNewer h.seq (plcSeq p) = true →
    s.handIn p = s.proposalDropped) ∧
  (∀ (s : State) (p : Pkt) (key : Nat) (h : Held), p.typ = 0x2C → key = pageKey (plcHome p) (plcPage p) → s.heldPage key = some h →
    seqNewer h.seq (plcSeq p) = false → plcByte p 16 = 0 → plcModule p 18 ≠ s.me →
    s.handIn p = State.resumePage { s.releaseHeld key with
      plc := { (s.releaseHeld key).plc with forward := SMap.put (s.releaseHeld key).plc.forward key (plcModule p 18) } } key) ∧
  (∀ (s : State) (p : Pkt), p.typ = 0x2D → s.cached (plcHome p) (plcPage p) = none → s.member p.partition s.me = true →
    s.handIn p = s.cachePut ⟨plcHome p, plcPage p, plcSeq p, plcModule p 16, plcModule p 20⟩) ∧
  (∀ (s : State) (p : Pkt) (e : PlcEntry), p.typ = 0x2D → s.cached (plcHome p) (plcPage p) = some e → seqNewer e.seq (plcSeq p) = true →
    s.handIn p = s.proposalDropped) ∧
  (∀ (s : State) (p : Pkt) (key : Nat), key = pageKey (plcHome p) (plcPage p) → s.knowsNewer key (plcSeq p) = true →
    (p.typ = 0x29 ∨ p.typ = 0x2F) → s.handIn p = s.proposalDropped) ∧
  (∀ (s : State) (p : Pkt), p.typ = 0x2F → s.heldPage (pageKey (plcHome p) (plcPage p)) = none →
    s.knowsNewer (pageKey (plcHome p) (plcPage p)) (plcSeq p) = false →
    s.handIn p = { s with plc := { s.plc with watch := s.plc.watch.filter fun w =>
      !(w.home == plcHome p && w.page == plcPage p && !seqNewer w.seq (plcSeq p)) } }) ∧
  (∀ (s t : State) (p : Pkt) (d : Domain) (port k : Nat), p.typ = 0x31 → t = s.learnEpoch p.src (beNat (slice p.payload 8 4)) →
    t.domain (beNat (slice p.payload 0 2)) = some d → d.waiting = some (port, k) → beNat (slice p.payload 4 1) ≠ 0 →
    s.handIn p = (t.delDomain (beNat (slice p.payload 0 2))).replied port k (beNat (slice p.payload 4 1)) 0 []))

/-- Packets that are not accepted (R305, R310, R323): a version or a type that is not known, and an epoch that is stale, go to the gutter under
their causes, and a stale destination epoch is answered with the module's own.

Epochs and congestion (R305, R322 to R324, R369, R370): a probe is answered, a notice of a newer epoch is learned and an older one changes
nothing, a CONGESTION packet marks the flow that it names, and a packet of no known type goes to the gutter.

The model's choices in it: log 17. -/
def Obligations.PacketsAreChecked : Prop :=
  (∀ (s : State) (p : Pkt) (i : Instr), (i, p.typ) ∈ [(Instr.writeReq p, 0x01), (.readReq p, 0x02), (.atomicReq p, 0x04), (.tokenReq p, 0x06)] ++
      controlRows p → s.pwr.off = false → p.response = false → p.forwarded = false →
    (p.version ≠ 0x10 → exec i s = .next ((s.ejected p).gutter gVersion).finish) ∧
    (p.version = 0x10 → p.dstEpoch ≠ (s.ejected p).qpe.epoch →
      exec i s = .next (((s.ejected p).gutter gStaleDstEpoch).epochNotice p.src).finish) ∧
    (p.version = 0x10 → p.dstEpoch = (s.ejected p).qpe.epoch → p.srcEpoch ≠ (s.ejected p).peerEpoch p.src →
      epochNewer p.srcEpoch ((s.ejected p).peerEpoch p.src) = false →
      exec i s = .next ((s.ejected p).gutter gStaleSrcEpoch).finish)) ∧
  ((∀ (s : State) (p : Pkt), Accepts s p → p.typ = 0x08 → exec (.epochProbe p) s = .next ((s.admitted p).epochNotice p.src).finish) ∧
  (∀ (s : State) (p : Pkt), s.pwr.off = false → p.typ = 0x09 → p.version = 0x10 →
    exec (.epochNotice p) s = .next ((s.ejected p).takeEpoch p.src p.srcEpoch).finish) ∧
  (∀ (s : State) (m e : Nat), epochNewer e (s.peerEpoch m) = false → s.takeEpoch m e = s) ∧
  (∀ (s t : State) (p : Pkt) (dst tc : Nat), Accepts s p → p.typ = 0x0A → t = s.admitted p → dst = beNat (slice p.payload 5 3) % 2 ^ 17 →
    tc = beNat (slice p.payload 4 1) % 8 →
    exec (.congestion p) s = .next (t.markFlow dst tc).finish) ∧
  (∀ (t : Throttle) (now gap least shift : Nat), (t.lastCut = 0 ∨ gap * 1000 ≤ since64 now t.lastCut) →
    t.mark now gap least shift = { t with
      lastMark := now, target := t.rate, rate := max least (t.rate - t.rate * t.alpha / 2 ^ 17)
      alpha := t.alpha + (65535 - t.alpha) / 2 ^ shift, steps := 0, lastCut := now, lastInc := now }) ∧
  (∀ (s : State) (p : Pkt), s.pwr.off = false → p.version = 0x10 → typeKnown p.typ = false →
    exec (.unknownTypePacket p) s = .next ((s.ejected p).gutter gUnknownType).finish))

/-- Responses (R317, R318): an ACK of a forwarded request resolves the entry of its own PSN alone with its outcome, one of a stream resolves what
it covers and then serves its SACK bitmap, and the data of a plain response of one packet ends the entry that its TXN names; a response to no entry
goes to the gutter, as one of an old generation where a reset has taken its entry back (R701).

The model's choices in it: log 72. -/
def Obligations.ResponsesResolveTransactions : Prop :=
  (∀ (s t : State) (p : Pkt) (k : Nat) (x : Txn), Accepts s p → p.typ = 0x07 → p.ecn ≠ 3 → p.forwarded = true →
    t = (s.admitted p).noteAck (if p.dstQpn ≠ 0 then some p.dstQpn else none) →
    (t.qpe.txns.filter fun e => e.2.inStream (if p.dstQpn ≠ 0 then some p.dstQpn else none) p.stream p.tc) = [(k, x)] → x.psn = p.psn →
    t.staleResponse x p = false →
    exec (.ack p) s = .next (t.ackEntry p true k x).finish) ∧
  (∀ (s t u : State) (p : Pkt) (k : Nat) (x : Txn), Accepts s p → p.typ = 0x07 → p.ecn ≠ 3 → p.forwarded = false →
    t = (s.admitted p).noteAck (if p.dstQpn ≠ 0 then some p.dstQpn else none) →
    (t.qpe.txns.filter fun e => e.2.inStream (if p.dstQpn ≠ 0 then some p.dstQpn else none) p.stream p.tc) = [(k, x)] → x.psn = p.psn →
    t.staleResponse x p = false → u = t.ackEntry p (x.typ == 0x29) k x →
    exec (.ack p) s = .next (u.sack p ((u.qpe.txns.filter fun e =>
      e.2.inStream (if p.dstQpn ≠ 0 then some p.dstQpn else none) p.stream p.tc).filter fun e => !psnLe e.2.psn p.psn)).finish) ∧
  (∀ (t : State) (p : Pkt) (k : Nat) (x : Txn), x.psn = p.psn → p.status ≠ 0 → p.status ≠ stTagFailure → p.forwarded = true →
    t.ackEntry p true k x = t.endTxn k p.status p.reason true (if x.typ = 0x29 then slice p.payload 8 4 else [])) ∧
  (∀ (s t : State) (p : Pkt), Accepts s p → p.typ = 0x03 → p.ecn ≠ 3 → t = s.admitted p → SMap.find t.qpe.txns p.txn = none →
    t.qpe.reclaimed.contains p.txn = false → exec (.readResp p) s = .next (t.gutter gReleasedTxn).finish) ∧
  (∀ (s t : State) (p : Pkt), Accepts s p → p.typ = 0x03 → p.ecn ≠ 3 → t = s.admitted p → SMap.find t.qpe.txns p.txn = none →
    t.qpe.reclaimed.contains p.txn = true → exec (.readResp p) s = .next (t.gutter gStaleGeneration).finish) ∧
  (∀ (s t : State) (p : Pkt) (i : Instr) (rtyp ptyp off : Nat) (x : Txn), (i, ptyp, rtyp) ∈ [(Instr.readResp p, 0x03, 0x02),
      (.atomicResp p, 0x05, 0x04)] → Accepts s p → p.typ = ptyp → p.ecn ≠ 3 → t = s.admitted p → SMap.find t.qpe.txns p.txn = some x →
    x.typ = rtyp → x.inStream (if p.dstQpn ≠ 0 then some p.dstQpn else none) p.stream p.tc = true → x.psn = p.psn →
    t.staleResponse x p = false → p.encrypted = false → x.connected = false → x.got = [] → p.first = true → p.last = true →
    (ptyp = 0x03 → p.length = (x.pkts.head?.map (·.length)).getD 0) →
    off = (if ptyp = 0x05 then 0 else (p.remote + 2 ^ 64 - ((x.pkts.head?.map (·.remote)).getD 0)) % 2 ^ 64) →
    exec i s = .next (State.endTxn { t with qpe := { t.qpe with txns := SMap.put t.qpe.txns p.txn { x with got := [(off, p)] } } } p.txn
      p.status p.reason true (if ptyp = 0x05 then leBytes 8 (beNat (slice (p.payload.take p.length) 0 8))
        else p.payload.take p.length)).finish)

/-- The timers of the transport and of the throttle (R315, R318, R319, R322, R370, R612, R788): a request that has not been accepted is sent again
up to its limit, or counts an attempt where it is known to be held, and then fails, but the time of one whose first packet still waits for its frame
has not begun; an acknowledgement that was held back is sent; an epoch is asked for again up to the limit; an aged epoch is forgotten; and a
throttled flow's rate rises again. -/
def Obligations.TransportTimersRun : Prop :=
  (∀ (s : State) (k : Nat) (t : Txn), s.pwr.off = false → SMap.find s.qpe.txns k = some t → t.accepted = false → t.held = false →
    s.firstWaits k t = false →
    t.attempts < s.regF .QPE_XPT_TIMER 27 24 →
    exec (.retransmitTimeout k) s = .next ((State.count { s with
      qpe := { s.qpe with txns := SMap.put s.qpe.txns k { t with attempts := t.attempts + 1 } } } .QPE_RETX_COUNT).sendTxn k true).finish) ∧
  (∀ (s : State) (k : Nat) (t : Txn), s.pwr.off = false → SMap.find s.qpe.txns k = some t → t.accepted = false → t.held = true →
    s.firstWaits k t = false → t.attempts < s.regF .QPE_XPT_TIMER 27 24 →
    exec (.retransmitTimeout k) s = .next (State.finish { s with
      qpe := { s.qpe with txns := SMap.put s.qpe.txns k { t with attempts := t.attempts + 1 } } })) ∧
  (∀ (s : State) (k : Nat) (t : Txn), s.pwr.off = false → SMap.find s.qpe.txns k = some t → s.firstWaits k t = true →
    exec (.retransmitTimeout k) s = .next s.finish ∧ exec (.retryLimitTimeout k) s = .next s.finish) ∧
  (∀ (s : State) (k : Nat) (t : Txn), s.pwr.off = false → SMap.find s.qpe.txns k = some t → t.accepted = false → s.firstWaits k t = false →
    s.regF .QPE_XPT_TIMER 27 24 ≤ t.attempts →
    exec (.retryLimitTimeout k) s = .next (s.txnTimeout k).finish) ∧
  (∀ (s : State) (key : Nat), s.pwr.off = false → (s.rstream (.module key)).unanswered ≠ 0 →
    exec (.ackDelayExpiry 0 key) s = .next (s.sendAck (.module key)).finish) ∧
  (∀ (s : State) (n : Nat), s.pwr.off = false → (s.rstream (.qp n)).unanswered ≠ 0 →
    exec (.ackDelayExpiry 1 n) s = .next (s.sendAck (.qp n)).finish) ∧
  (∀ (s t : State) (m n : Nat), s.pwr.off = false → SMap.find s.qpe.probes m = some n → n < s.regF .QPE_XPT_TIMER 27 24 →
    t = { s with qpe := { s.qpe with probes := SMap.put s.qpe.probes m (n + 1) } } →
    exec (.epochProbeTimeout m) s = .next (t.inject { t.blank 0x08 m 0 with dstEpoch := 0 }).finish) ∧
  (∀ (s : State) (m n : Nat), s.pwr.off = false → SMap.find s.qpe.probes m = some n → s.regF .QPE_XPT_TIMER 27 24 ≤ n →
    exec (.epochProbeTimeout m) s = .next (s.probeLost m).finish) ∧
  (∀ (s : State) (m : Nat), s.pwr.off = false →
    exec (.epochTableAging m) s = .next { s with qpe := { s.qpe with peers := SMap.del s.qpe.peers m } }.finish) ∧
  (∀ (s : State) (k : Nat) (t u : Throttle), s.pwr.off = false → s.rtr.throttle = [(k, t)] →
    u = (t.fill s.now s.capShare).tick s.hallTime (s.comF .RTR_THROTTLE_CFG1 31 16) (s.comF .RTR_THROTTLE_CFG0 31 28)
      (s.comF .RTR_THROTTLE_CFG2 31 16) (s.comF .RTR_THROTTLE_CFG0 27 24) (s.comF .RTR_THROTTLE_CFG2 15 0) →
    exec .throttleTick s = .next (if u.rate = maxRate ∧ u.target = maxRate ∧
        4 * s.comF .RTR_THROTTLE_CFG1 31 16 * 1000 ≤ since64 s.hallTime u.lastMark
      then { s with rtr := { s.rtr with throttle := [] } } else { s with rtr := { s.rtr with throttle := [(k, u)] } }).finish) ∧
  (∀ (t : Throttle) (now ap shift ip fast ai : Nat), ap * 1000 ≤ since64 now t.lastMark → ap * 1000 ≤ since64 now t.lastAlpha →
    ip * 1000 ≤ since64 now t.lastInc → fast ≤ t.steps →
    t.tick now ap shift ip fast ai = { t with
      alpha := t.alpha - t.alpha / 2 ^ shift, lastAlpha := now, target := min maxRate (t.target + ai)
      rate := (t.rate + min maxRate (t.target + ai)) / 2, steps := min 255 (t.steps + 1), lastInc := now })

/-! ## The host interface -/

/-- Writes to BAR0 (R13, R719, R723, R724): a whole dword writes the register that holds it, through its mask of writable bits; one to three bytes
are dropped and logged as NARROW_WRITE, a request that crosses a dword is dropped, logged as MISALIGNED and reported through AER, an offset that
holds no register ignores the write, and a BAR0 that does not answer does nothing.

The HBM window (R717, R726, R727): a write reaches the bytes that are backed, a read returns them, a write of bytes that are not backed is
logged, a base is accepted within a range that the function may name, whatever its reserved bits, and any other base is logged and changes
nothing.

The model's choices in it: logs 40, 52, 83. -/
def Obligations.RegisterWritesAreClassified : Prop :=
  ((∀ (s : State) (off value : Nat) (r : RegSpec) (old new : Word), s.pwr.off = false → off % 4 = 0 → s.barAnswers off = true →
    msixPlace 0 off = none → findReg off = some (r, off) → ownRow r.name = false → r.isExpert = false → r.scope = .module → value < 2 ^ 32 →
    old = SMap.getD s.regs.shadow off r.reg.reset → new = r.write old (BitVec.ofNat 64 value) 0xFFFFFFFF →
    exec (.registerWrite 0 off 15 value) s =
      .next (if old = new then s else { s with regs := { s.regs with shadow := SMap.put s.regs.shadow off new } }).finish) ∧
  (∀ (s : State) (off value : Nat) (r : RegSpec), s.pwr.off = false → off % 4 = 0 → s.barAnswers off = true → msixPlace 0 off = none →
    findReg off = some (r, off) → ownRow r.name = false → r.isExpert = true → r.rw ≠ 0 → s.unlockedAt off = false →
    exec (.registerWrite 0 off 15 value) s = .next (s.expertDrop off).finish) ∧
  (∀ (s : State) (off lanes value : Nat), s.pwr.off = false → off % 4 = 0 → s.barAnswers off = true → 0 < lanes → lanes < 15 →
    exec (.registerWrite 0 off lanes value) s = .next (s.accessLog akNarrow 0 0 (popcount 64 lanes) off).finish) ∧
  (∀ (s : State) (off lanes value : Nat), s.pwr.off = false → off % 4 = 0 → s.barAnswers off = true → lanes % 16 ≠ 0 → 15 < lanes →
    lanes < 255 → (s.fn 0).aer = [] →
    exec (.registerWrite 0 off lanes value) s = .next ((s.setFn 0 { s.fn 0 with aer := [2] }).accessLog akMisaligned 0 0
      (popcount 64 lanes) off).finish) ∧
  (∀ (s : State) (off value : Nat), s.pwr.off = false → off % 4 = 0 → msixPlace 0 off = none → findReg off = none →
    exec (.registerWrite 0 off 15 value) s = .next s.finish) ∧
  (∀ (s : State) (off lanes value : Nat), s.pwr.off = false → off % 4 = 0 → lanes % 16 ≠ 0 → s.barAnswers off = false →
    exec (.registerWrite 0 off lanes value) s = .next s.finish)) ∧
  ((∀ (s : State) (fn off len lanes a : Nat) (data : Bytes), s.pwr.off = false → bit s.boot.dies 3 = true → 0 < len → off + len ≤ windowBytes fn →
    data.length = len → (∀ i < len, bit lanes i = true) → (∀ i < len, s.windowAt fn (off + i) = some (a + i)) →
    exec (.windowAccess fn true off len lanes data) s = .next (s.hbmWrite a data).finish) ∧
  (∀ (s : State) (fn off len lanes a : Nat) (data : Bytes) (r : Bytes × Bool × State), s.pwr.off = false → bit s.boot.dies 3 = true → 0 < len →
    off + len ≤ windowBytes fn → (∀ i < len, bit lanes i = true) → (∀ i < len, s.windowAt fn (off + i) = some (a + i)) → r = s.hbmRead a len →
    exec (.windowAccess fn false off len lanes data) s =
      .next (r.2.2.emit (.readData (portOf fn) fn (overlay (zeros len) 0 r.1) r.2.1)).finish) ∧
  (∀ (s : State) (fn off len lanes : Nat) (data : Bytes), s.pwr.off = false → bit s.boot.dies 3 = true → 0 < len → off + len ≤ windowBytes fn →
    data.length = len → (∀ i < len, bit lanes i = true) → (∀ i < len, s.windowAt fn (off + i) = none) →
    exec (.windowAccess fn true off len lanes data) s = .next (s.accessLog akUnbacked 1 fn len off).finish) ∧
  (∀ (s : State) (fn value n : Nat) (i : Inst), s.serves → ((s.inst fn).isSome = true ∨ isPf fn = true) → value < 2 ^ 64 → value % 2 = 1 →
    s.rangeOf (value / 2 ^ 21 % 2 ^ 18 * 2 ^ 21) = some (n, i) → mayName fn n = true →
    exec (.hifWinBaseWrite fn value) s = .next (s.setRegOf fn .HIF_WIN_BASE (BitVec.ofNat 64 value &&& 0x7FFFE00001)).finish) ∧
  (∀ (s : State) (fn value : Nat), s.serves → ((s.inst fn).isSome = true ∨ isPf fn = true) → value % 2 = 0 →
    exec (.hifWinBaseWrite fn value) s = .next (s.setRegOf fn .HIF_WIN_BASE (BitVec.ofNat 64 value &&& 0x7FFFE00001)).finish) ∧
  (∀ (s : State) (fn value n : Nat) (i : Inst), s.serves → isPf fn = true → value < 2 ^ 64 → value % 2 = 1 →
    s.rangeOf (value / 2 ^ 21 % 2 ^ 18 * 2 ^ 21) = some (n, i) → mayName fn n = false →
    exec (.hifWinBaseWrite fn value) s = .next (s.accessLog akRange 0 fn 8 0x100010).finish))

/-- Configuration and requester filtering (R717, R733, R735 to R739): before the host die is up a configuration request is answered with Request
Retry Status; the first configuration write names the root, a function whose Bus Master Enable is cleared or that enters D3hot is held, and goes on
once it has both again, an unmasked vector sends its pending message, and a request from a requester that the port does not accept is refused and
logged.

Virtual functions, Function Level Resets and links of ports (R691, R699, R716, R740, R746).

The model's choices in it: logs 39, 92. -/
def Obligations.FunctionsAreConfigured : Prop :=
  ((∀ (s : State) (p rid : Nat), s.pwr.off = false → s.present (128 * p) = true → (s.port p).rootRid = none →
    exec (.firstConfigWrite p rid) s = .next (s.setPort p { s.port p with rootRid := some (rid % 65536) }).finish) ∧
  (∀ (s t : State) (fn : Nat), s.pwr.off = false → s.present fn = true → (s.fn fn).busMaster = true → (s.fn fn).held = false →
    t = s.setFn fn { s.fn fn with busMaster := false } →
    exec (.busMasterEnableClear fn) s = .next (State.retireTags (t.setFn fn { t.fn fn with held := true }) fn).finish) ∧
  (∀ (s : State) (fn : Nat), s.pwr.off = false → s.present fn = true → (s.fn fn).busMaster = true → (s.fn fn).held = true →
    exec (.busMasterEnableClear fn) s = .next (s.setFn fn { s.fn fn with busMaster := false }).finish) ∧
  (∀ (s : State) (fn : Nat), s.pwr.off = false → s.present fn = true →
    exec (.busMasterEnableSet fn) s = .next ((s.setFn fn { s.fn fn with busMaster := true }).resumeFn fn).finish) ∧
  (∀ (s t : State) (fn : Nat), s.pwr.off = false → s.present fn = true → (s.fn fn).held = false →
    t = s.setFn fn { s.fn fn with d3hot := true } →
    exec (.d3hotEntry fn) s = .next (State.retireTags (t.setFn fn { t.fn fn with held := true }) fn).finish) ∧
  (∀ (s : State) (fn : Nat), s.pwr.off = false → s.present fn = true → (s.fn fn).held = true →
    exec (.d3hotEntry fn) s = .next (s.setFn fn { s.fn fn with d3hot := true }).finish) ∧
  (∀ (s : State) (i : Instr) (fn v n rid : Nat) (enable mask : Bool), i ∈ [Instr.busMasterEnableClear fn, .busMasterEnableSet fn, .d3hotEntry fn,
      .d3hotExit fn, .msixUnmask fn v enable mask, .functionLevelResetVf fn] ∨ fn = 128 * n ∧ i ∈ [Instr.firstConfigWrite n rid, .vfEnable n v,
      .vfDisable n, .functionLevelResetPf n] → s.pwr.off = false → bit s.boot.dies 3 = false →
    exec i s = .next (s.emit (.configRetry (portOf fn))).finish) ∧
  (∀ (s : State) (fn : Nat), s.pwr.off = false → s.present fn = true →
    exec (.d3hotExit fn) s = .next ((s.setFn fn { s.fn fn with d3hot := false }).resumeFn fn).finish) ∧
  (∀ (s t : State) (fn v : Nat), s.pwr.off = false → s.present fn = true → v < vectorsOf fn →
    t = s.setFn fn { s.fn fn with
      msixEnable := true, fnMask := false, table := SMap.put (s.fn fn).table v { (s.fn fn).entry v with masked := false } } →
    exec (.msixUnmask fn v true false) s = .next (t.msixFlush fn).finish) ∧
  (∀ (s : State) (fn v : Nat), (s.fn fn).pending = [v] → s.msixOpen fn v = true →
    s.msixFlush fn = (s.setFn fn { s.fn fn with pending := [] }).emit
      (.msix (portOf fn) fn v ((s.fn fn).entry v).addr ((s.fn fn).entry v).data)) ∧
  (∀ (s : State) (fn rid bar off n : Nat), s.pwr.off = false → s.ridAccepted (portOf fn) rid bar = false →
    exec (.inboundRequestRefused fn rid bar off n false) s =
      .next ((s.emit (.unsupported (portOf fn))).accessLog akRefusedRid bar fn n off).finish) ∧
  (∀ (s : State) (fn rid bar off n : Nat), s.pwr.off = false → s.ridAccepted (portOf fn) rid bar = false → (s.fn fn).aer = [] →
    exec (.inboundRequestRefused fn rid bar off n true) s =
      .next ((s.setFn fn { s.fn fn with aer := [2] }).accessLog akRefusedRid bar fn n off).finish)) ∧
  ((∀ (s : State) (p n : Nat), s.pwr.off = false → s.present (128 * p) = true → (s.port p).vfEnabled = 0 → n ≤ totalVfs →
    exec (.vfEnable p n) s = .next (s.setPort p { s.port p with vfEnabled := n }).finish) ∧
  (∀ (s : State) (p : Nat), s.pwr.off = false → s.present (128 * p) = true →
    exec (.vfDisable p) s = .next (s.vfsOff p).finish) ∧
  (∀ (s : State) (fn : Nat), s.pwr.off = false → s.present fn = true → isPf fn = false →
    exec (.functionLevelResetVf fn) s = .next ((s.resetInst fn false []).clearFn fn).finish) ∧
  (∀ (s : State) (p : Nat), s.pwr.off = false → 1 ≤ p → s.present (128 * p) = true →
    exec (.functionLevelResetPf p) s = .next (((((s.resetInst (128 * p) false []).vfsOff p).admReset p).clearFn (128 * p))).finish) ∧
  (∀ (s t : State), s.pwr.off = false → s.present 0 = true → t = (((s.resetInst 0 false []).vfsOff 0).admReset 0).clearFn 0 →
    exec (.functionLevelResetPf 0) s = .next { t with adm := { t.adm with unlocked := 0 } }.finish) ∧
  (∀ (s : State) (p width rate : Nat), s.pwr.off = false → (s.port p).link = 1 → width ∈ [4, 8, 16] → rate ∈ [64, 128] →
    exec (.pcieLinkUp p width rate) s = .next (s.setPort p { s.port p with link := 2, width, rate }).finish))

/-! ## Work descriptors -/

/-- Descriptors that touch no memory (R94, R250, R256, R267, R268, R758): NOP completes, FENCE begins, POWER_HINT completes once its hint is taken,
and an operation of a queue pair in ERROR completes ABORTED when it reaches issue.

The model's choices in it: logs 20, 79, 85, 89. -/
def Obligations.PlainDescriptorsComplete : Prop :=
  (∀ (s : State) (n id qn : Nat) (w : Wq) (o : Op) (q : Qp), OpReady s n id 0x00 w o qn q →
    exec (.nop n id) s = .next (s.opDone n o.id stSuccess 0 false 0 0).finish) ∧
  (∀ (s : State) (n id qn : Nat) (w : Wq) (o : Op) (q : Qp), OpReady s n id 0x06 w o qn q →
    exec (.fence n id) s = .next (s.updOp n o.id fun o => { o with phase := .active }).finish) ∧
  (∀ (s t : State) (n id qn : Nat) (w : Wq) (o : Op) (q : Qp), OpReady s n id 0x0C w o qn q → 1 ≤ leAt o.desc 8 1 → leAt o.desc 8 1 ≤ 4 →
    s.takeHint (leAt o.desc 8 1) (leAt o.desc 16 8) = some t →
    exec (.powerHintDescriptor n id) s = .next (t.opDone n o.id stSuccess 0 false 0 0).finish) ∧
  (∀ (s : State) (n id qn : Nat) (w : Wq) (o : Op) (q : Qp), OpReady s n id 0x0C w o qn q → 4 < leAt o.desc 8 1 →
    exec (.powerHintDescriptor n id) s = .next (s.opFail n o.id stBadDescriptor dField).finish) ∧
  (∀ (s : State) (n id op qn : Nat) (i : Instr) (w : Wq) (o : Op) (q : Qp), (i, op) ∈ [(Instr.nop n id, 0x00), (.read n id, 0x01),
      (.write n id, 0x02), (.writeNotify n id, 0x03), (.atomicFadd n id, 0x04), (.atomicCas n id, 0x05), (.fence n id, 0x06),
      (.tokenProduce n id, 0x07), (.tokenConsume n id, 0x07), (.tokenBarrier n id, 0x07), (.tokenCadence n id, 0x07), (.chain n id, 0x08),
      (.powerHintDescriptor n id, 0x0C), (.transit n id, 0x20)] → s.pwr.off = false → s.beginOp n id op = some (w, o, qn, q) → q.state = 2 →
    exec i s = .next (s.opFail n id stAborted 0).finish)

/-- Transfers and atomics (R257 to R261, R263 to R266, R281): after their checks they begin with one message for each 4 KiB of the remote address
that they touch, and a check that fails completes the operation with its status; a message whose data, context, destination and epoch are there goes to
be sent, and leaves where its queue pair and the scoreboard have room, the injection port takes it, its flow's bucket holds it and the turn is its
own; and the token of this module's own wick queue is produced at once.

TOKENs (R267, R430, R570, R571, R582, R607): a producer begins with one token message, a consumer waits at its wick queue and is tested, an arrival
waits at its barrier and a cadence wait at its cadence, once a boundary that is due has been applied, each with its WAIT_LIMIT, and a wait that
overruns it, and that no boundary due then ends, fails TIMEOUT.

The model's choices in it: logs 20, 21, 76, 79, 89. -/
def Obligations.TransfersAndTokensBegin : Prop :=
  ((∀ (s u : State) (n id qn op : Nat) (i : Instr) (acc : Access) (w : Wq) (o : Op) (q : Qp), (i, op, acc) ∈ [(Instr.read n id, 0x01, Access.write),
      (.write n id, 0x02, .read), (.writeNotify n id, 0x03, .read)] → OpReady s n id op w o qn q → dOp o.desc = op →
    s.targetFail q (dForm o.desc) (dRemote o.desc) (dBytes o.desc) (dModule o.desc) (op == 0x03 && s.wickBad q (dWickModule o.desc)) = none →
    (if dInline o.desc then (none, s) else s.localCheck w.inst (dLocal o.desc) (firstStep (dLocal o.desc) (dBytes o.desc)) acc) = (none, u) →
    exec i s = .next (u.updOp n o.id fun x => { x with
      phase := .active, msgs := cutMsgs (dRemote o.desc) (dBytes o.desc) (dModule o.desc) }).finish) ∧
  (∀ (s : State) (n id qn op st d : Nat) (i : Instr) (w : Wq) (o : Op) (q : Qp), (i, op) ∈ [(Instr.read n id, 0x01), (.write n id, 0x02),
      (.writeNotify n id, 0x03)] → OpReady s n id op w o qn q →
    s.targetFail q (dForm o.desc) (dRemote o.desc) (dBytes o.desc) (dModule o.desc) (op == 0x03 && s.wickBad q (dWickModule o.desc)) =
      some (st, d) →
    exec i s = .next (s.opFail n o.id st d).finish) ∧
  (∀ remote len dst : Nat, 0 < len → remote % 4096 + len ≤ 4096 →
    cutMsgs remote len dst = [⟨0, len, remote, dst, .waiting, RBuf.empty, 0, 0, false⟩]) ∧
  (∀ (s u : State) (n id qn op : Nat) (i : Instr) (w : Wq) (o : Op) (q : Qp), (i, op) ∈ [(Instr.atomicFadd n id, 0x04), (.atomicCas n id, 0x05)] →
    OpReady s n id op w o qn q → s.targetFail q (dForm o.desc) (dRemote o.desc) (dWidth o.desc) (dModule o.desc) false = none →
    (if dLocal o.desc = 0 then (none, s) else s.localCheck w.inst (dLocal o.desc) (dWidth o.desc) .write) = (none, u) →
    exec i s = .next (u.updOp n o.id fun x => { x with
      phase := .active, msgs := [⟨0, dWidth o.desc, dRemote o.desc, dModule o.desc, .waiting, RBuf.empty, 0, 0, false⟩] }).finish) ∧
  (∀ (s u : State) (n id k qn : Nat) (w : Wq) (o : Op) (q : Qp) (m : Msg) (data : Bytes), s.pwr.off = false → s.wq n = some w →
    w.op id = some o → w.qp = some qn → s.qp qn = some q → o.msgs[k]? = some m → o.phase = .active → m.state = .waiting →
    ((w.ops.takeWhile fun x => x.id != id).all Op.passed && (o.msgs.take k).all fun x => x.state != .waiting) = true → q.state = 1 →
    o.affected = false → m.isToken = false → dForm o.desc ≠ 0 → dOp o.desc ≠ 7 → dOp o.desc ≠ 3 → q.cached = true →
    s.msgData n w o k m = (some (.inr data), u) → (u.initPinned qn || u.pinRoom) = true → (u.touchCtx qn).epochKnown m.dst = true →
    exec (.messageIssue n id k) s = .next ((u.touchCtx qn).sendMsg n w o qn q k m m.dst none data).finish) ∧
  (∀ (s t u : State) (n k qn e dst : Nat) (w : Wq) (o : Op) (q : Qp) (m : Msg) (page : Option Nat) (data : Bytes) (p r : Pkt),
    s.qpRoom qn = true → s.freeEntry (.op n o.id k) = some e → q.forerunner = false → r = s.requestPkt w o n q qn m dst →
    p = { r with ackReq := r.ackReq || s.lastInStream n o.id k qn q dst } → s.injectHeld p = false →
    s.bucket dst q.tc (if p.typ = 0x02 then m.len else data.length) = some t → t.grant (.op n o.id k) = (true, u) →
    s.sendMsg n w o qn q k m dst page data = (u.updOp n o.id fun o => { o with msgs := o.msgs.mapIdx fun j x =>
      if j = k then { x with state := .sent e, dst, data := RBuf.empty } else x }).startTxn e (.op n o.id k) (some qn) q.connected page p data
        m.off (if p.typ = 0x01 then dBytes o.desc else 0)) ∧
  (∀ (s u v : State) (n id k qn : Nat) (w : Wq) (o : Op) (q : Qp) (m : Msg) (data : Bytes), s.pwr.off = false → s.wq n = some w →
    w.op id = some o → w.qp = some qn → s.qp qn = some q → o.msgs[k]? = some m → o.phase = .active → m.state = .waiting →
    ((w.ops.takeWhile fun x => x.id != id).all Op.passed && (o.msgs.take k).all fun x => x.state != .waiting) = true → q.state = 1 →
    o.affected = false → m.isToken = true → q.cached = true → s.msgData n w o k m = (some (.inr data), u) →
    (u.initPinned qn || u.pinRoom) = true →
    dWickModule o.desc = (u.touchCtx qn).me →
    (u.touchCtx qn).produce (dWick o.desc) (dTokens o.desc) ((u.touchCtx qn).epochNow q.partition) q.partition = (none, v) →
    exec (.messageIssue n id k) s = .next (v.msgEnd n id k stSuccess 0 false).finish)) ∧
  ((∀ (s : State) (n id qn : Nat) (w : Wq) (o : Op) (q : Qp), OpReady s n id 0x07 w o qn q → dAction o.desc = 0 →
    s.inTorus (dWickModule o.desc) = true → (q.connected = true → dWickModule o.desc = q.remoteModule) →
    exec (.tokenProduce n id) s = .next (s.updOp n o.id fun x => { x with
      phase := .active, msgs := [⟨0, 0, 0, dWickModule o.desc, .waiting, RBuf.empty, 0, 0, true⟩] }).finish) ∧
  (∀ (s t : State) (n id qn : Nat) (w : Wq) (o : Op) (q : Qp) (x : Wick), OpReady s n id 0x07 w o qn q → dAction o.desc = 1 →
    (s.initPinned qn || s.pinRoom) = true →
    s.wick (dWick o.desc) = some x → dWickModule o.desc = s.me → dTokens o.desc ≤ x.depth → q.partition = x.partition → s.consumes < 4096 →
    t = s.updOp n o.id (fun o => o.waitFrom s.now) →
    exec (.tokenConsume n id) s = .next (((t.setWick (dWick o.desc) { x with
      waiters := x.waiters ++ [⟨.consume n o.id, dTokens o.desc⟩] }).testWick (dWick o.desc)).endNewWaits n).finish) ∧
  (∀ (s t u : State) (n id qn g : Nat) (w : Wq) (o : Op) (q : Qp) (b : Barrier) (x : Group), OpReady s n id 0x07 w o qn q → dAction o.desc = 2 →
    (s.initPinned qn || s.pinRoom) = true →
    g = leAt o.desc 16 2 → s.bar g = some b → b.vacant = false → s.group g = some x → q.partition = x.partition →
    t = s.updOp n o.id (fun o => o.waitFrom s.now) → t.barArrive g n o.id = some u →
    exec (.tokenBarrier n id) s = .next (u.endNewWaits n).finish) ∧
  (∀ (s t u : State) (n id qn : Nat) (w : Wq) (o : Op) (q : Qp) (c : Cadence), OpReady s n id 0x07 w o qn q → dAction o.desc = 3 →
    (s.initPinned qn || s.pinRoom) = true → t = s.cadenceBoundary q.partition →
    SMap.find t.sch.cadences q.partition = some c → u = t.updOp n o.id (fun o => o.waitFrom t.now) →
    exec (.tokenCadence n id) s = .next (State.endNewWaits { u with
      sch := { u.sch with cadences := SMap.put u.sch.cadences q.partition { c with waits := c.waits ++ [(n, o.id)] } } } n).finish) ∧
  (∀ (o : Op) (now : Nat), (o.waitFrom now).phase = .waiting ∧
    (o.waitFrom now).waitEnd = if dWaitLimit o.desc = 0 then 0 else now + dWaitLimit o.desc) ∧
  (∀ (s t : State) (n id : Nat) (w : Wq) (o : Op), s.pwr.off = false → t = s.boundaryFirst n id → t.wq n = some w → w.op id = some o →
    dOp o.desc = 7 → o.phase = .waiting → o.waitEnd ≠ 0 → w.behind id = none →
    exec (.tokenWaitTimeout n id) s = .next ((t.dropWaits n id).opFail n id stTimeout 0).finish) ∧
  (∀ (s t : State) (n id : Nat) (w : Wq) (o x : Op), s.pwr.off = false → t = s.boundaryFirst n id → t.wq n = some w → w.op id = some o →
    dOp o.desc = 7 → o.phase = .waiting → o.waitEnd ≠ 0 → w.behind id = some x →
    exec (.tokenWaitTimeout n id) s = .next (((t.dropWaits n id).opFail n id stTimeout 0).abortBehind n x).finish))

/-- Continuation lists, context fills and the completions of reads (R104, R154 to R157, R276 to R278, R729 to R732): a CHAIN asks for its list, and a
list that is there or has failed is judged; a fill with a right CHECK and QPN makes its slot the context, and any other fails; a completion frees its
tag and reaches what the request was for, one that reports an error reaches it with its detail, one for a retired tag is counted as late, and a
timeout retires the tag.

The model's choices in it: logs 12, 19, 34, 67, 70. -/
def Obligations.ReadsComeBack : Prop :=
  (∀ (s : State) (n id qn : Nat) (w : Wq) (o : Op) (q : Qp) (r : Bool × RBuf × State), OpReady s n id 0x08 w o qn q →
    r = s.readIva w.inst w.inst (leAt o.desc 8 8) (leAt o.desc 16 4 * 64) false (fun off => .chainList n o.id off) o.list →
    exec (.chain n id) s = .next
      ((r.2.2.updOp n o.id fun o => { o with phase := .listRead, list := r.2.1, hops := max 1 o.hops }).holdPoison n o.id r.2.1).finish) ∧
  (∀ (s : State) (n id : Nat) (w : Wq) (o : Op), s.pwr.off = false → s.wq n = some w → w.op id = some o → o.phase = .listRead →
    (o.list.fail.isSome = true ∨ (o.list.ready = true ∧ o.list.bytes.length = leAt o.desc 16 4 * 64)) → s.listAwaited n id = false →
    exec (.chainListArrival n id) s = .next (s.listArrived n w o).finish) ∧
  (∀ (s : State) (qpn p t : Nat) (data : Bytes), s.pwr.off = false →
    (s.hif.ports.findSome? fun e => (e.2.tags.find? fun t : Nat × Tag => t.2.waits.isNone && match t.2.purpose with
      | .context n => n == qpn
      | _ => false).map fun t => (e.1, t.1)) = some (p, t) →
    exec (.contextFillReturn qpn data) s = .next ((s.freeTag p t).fillDone qpn data).finish) ∧
  (∀ (s : State) (n : Nat) (q x : Qp) (d : Bytes), s.qp n = some q → q.filling = true → leAt d 252 4 = crc32 (slice d 0 252) → leAt d 0 3 = n →
    x = { q with
      filling := false, initFill := false, cached := true
      dirty := (q.state == 2 && leAt d 4 1 != 2) || (q.wq.isNone && leAt d 24 2 != 0xFFFF)
      joined := bit (leAt d 5 1) 7, state := if q.state = 2 then 2 else min 2 (leAt d 4 1), forerunner := bit (leAt d 5 1) 6
      tc := leAt d 5 1 % 8, partition := leAt d 6 2, remoteModule := leAt d 8 4 % 2 ^ 17, remoteQpn := leAt d 12 3, sendPsn := leAt d 16 3
      wq := if leAt d 24 2 = 0xFFFF ∨ q.wq.isNone then none else some (leAt d 24 2), cq := leAt d 26 2, keySlot := leAt d 32 2 } →
    (leAt d 12 3 = 0 → s.fillDone n d = (s.setQp n x).touchCtx n) ∧
    (leAt d 12 3 ≠ 0 → s.fillDone n d = (s.setQp n { x with
      rx := { x.rx with
        expect := leAt d 20 3, records := (List.range (min 7 (leAt d 71 1 % 16))).map fun i => slotOutcome d (96 + 16 * i) }
      conf := leAt d 68 3, sendSegment := leAt d 72 8, recvSegment := leAt d 80 8, lastAck := leAt d 88 4 }).touchCtx n)) ∧
  (∀ (s : State) (n : Nat) (q : Qp) (d : Bytes), s.qp n = some q → q.filling = true →
    (leAt d 252 4 ≠ crc32 (slice d 0 252) ∨ leAt d 0 3 ≠ n) → s.fillDone n d = s.fillFail n) ∧
  (∀ (s : State) (p t : Nat) (x : Tag) (data : Bytes), s.pwr.off = false → s.liveTag p t = some x →
    exec (.hostReadCompletion p t 0 data) s = .next ((s.freeTag p t).arrived x (.inl (slice data 0 x.len))).finish) ∧
  (∀ (s u : State) (p t status : Nat) (x : Tag) (data : Bytes), s.pwr.off = false → s.liveTag p t = some x →
    (status = 1 ∨ status = 2) → u = (s.freeTag p t).count (.HIF_ERR_CPL_COUNT p) → (u.fn x.fn).aer = [] →
    exec (.hostReadCompletion p t status data) s = .next ((u.setFn x.fn { u.fn x.fn with aer := [status - 1] }).arrived x
      (.inr (status + 1))).finish) ∧
  (∀ (s u : State) (p t fn : Nat) (status : Nat) (data : Bytes), s.pwr.off = false → SMap.find (s.port p).tags t = none →
    (s.port p).retired = [(t, fn)] → u = (s.setPort p { s.port p with retired := [] }).issueNext p →
    exec (.hostReadCompletion p t status data) s = .next ((u.count (.HIF_LATE_CPL_COUNT p)).setFlagOf fn .HIF_ERR 5).finish) ∧
  (∀ (s u : State) (p t : Nat) (x : Tag), s.pwr.off = false → s.liveTag p t = some x → u = s.freeTag p t →
    exec (.completionTimeout p t) s = .next (((u.setPort p { u.port p with retired := (u.port p).retired ++ [(t, x.fn)] }).count
      (.HIF_CPL_TIMEOUT_COUNT p)).arrived x (.inr 1)).finish) ∧
  (∀ (s : State) (x : Tag) (n id off : Nat) (b : Bytes), x.purpose = .chainList n id off →
    s.arrived x (.inl b) = s.updOp n id fun o => { o with list := o.list.land off b }) ∧
  (∀ (s : State) (x : Tag) (n id off e : Nat), x.purpose = .chainList n id off →
    s.arrived x (.inr e) = s.updOp n id fun o => { o with list := o.list.failed stHostMemoryError e })

/-- Collectives and transit launches (R41, R269, R270, R399, R400, R464 to R466): a COLLECTIVE wakes the adders and waits for them, fails with the
first check that it does not meet, and is posted in its group when no other collective runs there, its buffers translated as their data move
(R116); a TRANSIT whose operands nothing of its queue pair still touches is launched at its executor, or here where its executor had no program for
it (R554).

The model's choices in it: logs 33, 89, 91. -/
def Obligations.CollectivesAndTransitsAreLaunched : Prop :=
  (∀ (s : State) (n id qn code g : Nat) (i : Instr) (w : Wq) (o : Op) (q : Qp) (x : Group), (i, code) ∈ [(Instr.allReduce n id, coAllReduce),
      (.reduce n id, coReduce), (.reduceScatter n id, coReduceScatter), (.allGather n id, coAllGather), (.broadcast n id, coBroadcast),
      (.allToAll n id, coAllToAll)] → OpReady s n id 0x10 w o qn q → leAt o.desc 9 1 = code → g = leAt o.desc 8 1 →
    s.pwr.on.contains 78 = true → s.pwr.on.contains 79 = true → s.collFail q o.desc = none → s.group g = some x → x.coll = none →
    exec i s = .next (s.collPost n id w o q g x).finish) ∧
  (∀ (s : State) (n id qn code st d : Nat) (i : Instr) (w : Wq) (o : Op) (q : Qp), (i, code) ∈ [(Instr.allReduce n id, coAllReduce),
      (.reduce n id, coReduce), (.reduceScatter n id, coReduceScatter), (.allGather n id, coAllGather), (.broadcast n id, coBroadcast),
      (.allToAll n id, coAllToAll)] → OpReady s n id 0x10 w o qn q → leAt o.desc 9 1 = code → s.pwr.on.contains 78 = true →
    s.pwr.on.contains 79 = true → s.collFail q o.desc = some (st, d) →
    exec i s = .next (s.opFail n id st d).finish) ∧
  (∀ (s t : State) (n id qn code : Nat) (i : Instr) (w : Wq) (o : Op) (q : Qp), (i, code) ∈ [(Instr.allReduce n id, coAllReduce),
      (.reduce n id, coReduce), (.reduceScatter n id, coReduceScatter), (.allGather n id, coAllGather), (.broadcast n id, coBroadcast),
      (.allToAll n id, coAllToAll)] → OpReady s n id 0x10 w o qn q → leAt o.desc 9 1 = code → t = (s.wakeDom 78).wakeDom 79 →
    (t.domOn 78 && t.domOn 79) = false →
    exec i s = .next t.finish) ∧
  (∀ (s u : State) (n id qn m : Nat) (w : Wq) (o : Op) (q : Qp) (pr : Program), OpReady s n id 0x20 w o qn q →
    s.transitFail q o.desc = (none, u) → u.program (leAt o.desc 8 2) = some pr →
    ((operandsOf (dOperands o.desc) (leAt o.desc 10 1)).zipIdx.any fun x => u.operBusy qn x.1 (imgSlot pr.image x.2).2.2) = false →
    u.executor (leAt o.desc 8 2) q.partition (leAt o.desc 11 1) pr.image (operandsOf (dOperands o.desc) (leAt o.desc 10 1)) = some m →
    exec (.transit n id) s = .next (if m = u.me ∨ o.here = true then u.launchHere n id q o.desc else u.launchAt n id w qn q pr o.desc m).finish) ∧
  (∀ (s u : State) (n id qn st d : Nat) (w : Wq) (o : Op) (q : Qp), OpReady s n id 0x20 w o qn q →
    s.transitFail q o.desc = (some (st, d), u) →
    exec (.transit n id) s = .next (u.opFail n id st d).finish)

/-! ## The channel arbiters -/

/-- A cycle of an HBM channel arbiter (R477, R478): the winner is a request presented in an earlier cycle, no such request ranks above it, and
among those that rank with it its port is the first after the port last granted; it enters the command queue, the arbiter parks on its port, and
it counts as a late withdrawal where it was withdrawn. A request presented to a parked arbiter enters at once in a cycle without a winner, and
counts; a full command queue takes nothing; the park ends with PARK_CYCLES or with the withdrawal of the request that holds it; and a request
eligible for AGE_LIMIT cycles ranks with priority 3.

The model's choices in it: log 81. -/
def Obligations.ArbitersGrantAndPark : Prop :=
  (∀ (b : Arb) (c : ArbCfg) (p : Nat) (r : ArbReq), b.winner c = some (p, r) →
    p < 10 ∧ b.queue < 32 ∧ b.head p = some r ∧ r.shown ≠ 0 ∧
    (∀ (x : Nat) (y : ArbReq), x < 10 → b.head x = some y → y.shown ≠ 0 → c.rank x y ≤ c.rank p r ∧
      (b.last < 10 → c.rank x y = c.rank p r → (p + 9 - b.last) % 10 ≤ (x + 9 - b.last) % 10)) ∧
    (b.cycle c).1.queue = b.queue + 1 ∧ (b.cycle c).1.last = p ∧ (b.cycle c).1.park = (if c.park = 0 then none else some (p, 0)) ∧
    (b.cycle c).2 = (b2n r.withdrawn, 0)) ∧
  (∀ (b : Arb) (c : ArbCfg) (p x : Nat) (r : ArbReq), b.winner c = some (p, r) → SMap.wf b.ports = true →
    SMap.getD (b.cycle c).1.ports x [] =
      ((if x = p then (SMap.getD b.ports x []).tail else agedReqs (SMap.getD b.ports x [])).filter fun y => !y.withdrawn)) ∧
  (∀ (b : Arb) (c : ArbCfg) (x : Nat) (y : ArbReq), b.winner c = none → b.queue < 32 → x < 10 → b.head x = some y → y.shown = 0) ∧
  (∀ (b : Arb) (c : ArbCfg) (p idle : Nat) (r : ArbReq), b.winner c = none → b.queue < 32 → c.park ≠ 0 → b.park = some (p, idle) →
    b.head p = some r → r.shown = 0 → r.withdrawn = false →
    (b.cycle c).1.queue = b.queue + 1 ∧ (b.cycle c).1.last = b.last ∧ (b.cycle c).1.park = some (p, 0) ∧ (b.cycle c).2 = (0, 1)) ∧
  (∀ (b : Arb) (c : ArbCfg), 32 ≤ b.queue → (b.cycle c).1.queue = b.queue ∧ (b.cycle c).1.last = b.last ∧ (b.cycle c).2 = (0, 0)) ∧
  (∀ (b : Arb) (c : ArbCfg) (p idle : Nat), b.winner c = none → b.park = some (p, idle) → b.head p = none →
    (b.cycle c).1.park = if c.park ≤ idle + 1 then none else some (p, idle + 1)) ∧
  (∀ (b : Arb) (c : ArbCfg) (p idle : Nat) (r : ArbReq), b.winner c = none → b.park = some (p, idle) → b.head p = some r → r.withdrawn = true →
    (b.cycle c).1.park = none) ∧
  (∀ (c : ArbCfg) (p : Nat) (r : ArbReq), c.age < r.shown → c.rank p r = 3) ∧
  ∀ (c : ArbCfg) (p : Nat) (r : ArbReq), r.shown ≤ c.age → c.rank p r = c.prio p r
end

