-- ==== Sys2Proof/Laws/Bits.lean ====
section
/-!
SUPPORT. Laws of single bits and of byte strings.
-/

namespace Sys2Proof.Machine

/-! ## Single bits -/

theorem bits_one (n i : Nat) : bits n i i = n / 2 ^ i % 2 := by
  unfold bits
  rw [Nat.shiftRight_eq_div_pow, show i + 1 - i = 1 by omega, pow_one]

theorem bit_eq (n i : Nat) : bit n i = n.testBit i := by
  unfold bit
  rw [bits_one, Nat.testBit_eq_decide_div_mod_eq]
  simp [BEq.beq]

theorem setBits_one (n i v : Nat) : setBits n i i v = n % 2 ^ i + (v % 2) * 2 ^ i + n / 2 ^ (i + 1) * 2 ^ (i + 1) := by
  unfold setBits bits
  simp only [Nat.shiftRight_eq_div_pow, pow_zero, Nat.div_one, show i + 1 - i = 1 by omega, pow_one]
  by_cases h : i = 0
  · subst h
    simp [Nat.mod_one]
  · rw [if_neg h, show i - 1 + 1 - 0 = i by omega, mul_one]

/-- Writing one bit changes that bit alone. -/
theorem setBits_testBit (n i v j : Nat) : (setBits n i i v).testBit j = if j = i then decide (v % 2 = 1) else n.testBit j := by
  have e : setBits n i i v = 2 ^ i * (v % 2 + 2 * (n / 2 ^ (i + 1))) + n % 2 ^ i := by
    rw [setBits_one, pow_succ]
    ring
  rw [e, Nat.testBit_two_pow_mul_add _ (Nat.mod_lt _ (Nat.two_pow_pos i))]
  by_cases h : j < i
  · rw [if_pos h, if_neg (by omega), Nat.testBit_mod_two_pow]
    simp [h]
  · rw [if_neg h]
    by_cases h2 : j = i
    · subst h2
      simp [Nat.testBit_zero, Nat.add_mul_mod_self_left]
    · rw [if_neg h2]
      obtain ⟨k, rfl⟩ : ∃ k, j = i + 1 + k := ⟨j - i - 1, by omega⟩
      rw [show i + 1 + k - i = k + 1 by omega, Nat.testBit_succ,
        show (v % 2 + 2 * (n / 2 ^ (i + 1))) / 2 = n / 2 ^ (i + 1) by omega, Nat.testBit_div_two_pow]
      congr 1
      omega

theorem bit_setBits (n i v j : Nat) : bit (setBits n i i v) j = if j = i then decide (v % 2 = 1) else bit n j := by
  rw [bit_eq, bit_eq, setBits_testBit]

/-! ## Byte strings -/

@[simp] theorem leBytes_length (n v : Nat) : (leBytes n v).length = n := by
  induction n generalizing v with
  | zero => rfl
  | succ n ih => simp [leBytes, ih]

theorem leNat_leBytes (n v : Nat) : leNat (leBytes n v) = v % 256 ^ n := by
  induction n generalizing v with
  | zero =>
    simp [leBytes, leNat]
    omega
  | succ n ih =>
    simp only [leBytes, leNat, ih, BitVec.toNat_ofNat]
    rw [show 256 ^ (n + 1) = 256 * 256 ^ n by ring, Nat.mod_mul]

@[simp] theorem beBytes_length (n v : Nat) : (beBytes n v).length = n := by
  simp [beBytes]

/-- A big-endian field behind a prefix reads back, cut to its width. -/
theorem beNat_slice (pre rest : Bytes) (n v off : Nat) (h : pre.length = off) :
    beNat (slice (pre ++ (beBytes n v ++ rest)) off n) = v % 256 ^ n := by
  unfold slice
  dsimp only
  rw [← h, List.drop_left, List.take_append_of_le_length (by simp), List.take_of_length_le (by simp)]
  simp [beNat, beBytes, leNat_leBytes]

/-- A field at the front reads back, cut to its width. -/
theorem beNat_front (rest : Bytes) (n v : Nat) : beNat (slice (beBytes n v ++ rest) 0 n) = v % 256 ^ n := by
  simpa using beNat_slice [] rest n v 0 (by simp)

/-- A place behind a field is the place less the field's width in what follows it. -/
theorem slice_behind (rest : Bytes) (n v off len : Nat) (h : n ≤ off) : slice (beBytes n v ++ rest) off len = slice rest (off - n) len := by
  unfold slice
  have : List.drop off (beBytes n v ++ rest) = List.drop (off - n) rest := by
    rw [List.drop_append]
    simp [h]
  rw [this]

end Sys2Proof.Machine
end

