-- ==== Sys2Proof/Laws/Finish.lean ====
section
/-!
SUPPORT. The end of a command changes nothing in a module at rest.
-/

namespace Sys2Proof.Machine

theorem mapv_id {α : Type} (m : SMap α) (f : Nat → α → α) (h : ∀ e ∈ m, f e.1 e.2 = e.2) : SMap.mapv m f = m := by
  induction m with
  | nil => rfl
  | cons e m ih =>
    have h1 := h e (List.mem_cons_self ..)
    have h2 := ih fun x hx => h x (List.mem_cons_of_mem _ hx)
    unfold SMap.mapv at h2 ⊢
    rw [List.map_cons, h2, h1]

theorem foldl_id {α β : Type} (l : List α) (g : β → α → β) (b : β) (h : ∀ a ∈ l, g b a = b) : l.foldl g b = b := by
  induction l with
  | nil => rfl
  | cons a l ih =>
    rw [List.foldl_cons, h a (List.mem_cons_self ..)]
    exact ih fun x hx => h x (List.mem_cons_of_mem _ hx)

/-- What `State.calm` says, part by part. -/
structure Calm (s : State) : Prop where
  events : s.events = []
  resolved : s.qpe.resolved = []
  inbox : s.qpe.inbox = []
  control : s.qpe.control = []
  errors : s.qpe.errors = []
  txns : ∀ e ∈ s.qpe.txns, e.2.owner.isLaunch = false
  todo : s.col.todo = []
  faults : s.jobs.faults = []
  rose : s.syn.rose = []
  changes : s.plc.changes = []
  entries : s.trn.entries = []
  domains : ∀ e ∈ s.jobs.domains, (s.domain e.1).bind (·.fault) = none
  wqs : ∀ e ∈ s.q.wqs, e.2.ops = [] ∧ e.2.state ≠ .snuffing
  wicks : ∀ e ∈ s.syn.wicks, e.2.waiters = []
  bars : ∀ e ∈ s.syn.bars, e.2.waits = []
  cadences : ∀ e ∈ s.sch.cadences, e.2.waits = []
  groups : ∀ e ∈ s.lnk.groups, (s.lgroup e.1).lpi = 0 ∧ (s.lgroup e.1).acked = false
  links : ∀ e ∈ s.lnk.links, e.2.owed = false ∧ e.2.state.code = e.2.prev
  pausing : s.lnk.pausing = []
  answers : s.qpe.answers = []
  forwards : s.qpe.forwards = []
  refused : s.hif.refused = []
  opened : ∀ e ∈ s.qpe.txns, ∀ x, e.2.got.getLast? = some x → x.2.encrypted = false
  sky : ∀ e ∈ s.qpe.arrivals, e.2.stage ≠ .sky
  starts : s.plc.starts = []
  pins : ∀ e ∈ s.hall.pages, e.2.pinWait = false
  unsealed : s.qpe.unsealed = []
  drains : s.xlt.drains = []
  dirtyHeld : s.xlt.dirtyHeld = []
  turns : s.sch.drr = []

theorem calm_parts {s : State} (h : s.calm = true) : Calm s := by
  simp only [State.calm, Bool.and_eq_true, List.isEmpty_iff, List.all_eq_true, Bool.not_eq_true', Option.isNone_iff_eq_none, bne_iff_ne,
    beq_iff_eq, Option.all_eq_true] at h
  have ht : ∀ x ∈ s.qpe.txns, x.2.owner.isLaunch = false ∧ ∀ y : Nat × Pkt, x.2.got.getLast? = some y → y.2.encrypted = false :=
    h.1.1.1.1.1.1.1.1.1.1.1.1.1.1.1.1.1.1.1.1.1.1.1.2
  constructor <;> first | tauto | exact fun e he => (ht e he).1 | exact fun e he => (ht e he).2 |
    exact fun e he => by simp_all only [ne_eq, not_false_eq_true, and_self]

theorem pruneWaits_calm {s : State} (h : Calm s) : s.pruneWaits = s := by
  unfold State.pruneWaits
  dsimp only
  rw [mapv_id s.syn.wicks _ fun e he => by simp only [h.wicks e he, List.filter_nil]; rw [← h.wicks e he],
    mapv_id s.syn.bars _ fun e he => by simp only [h.bars e he, List.filter_nil]; rw [← h.bars e he],
    mapv_id s.sch.cadences _ fun e he => by simp only [h.cadences e he, List.filter_nil]; rw [← h.cadences e he]]

theorem pruneLaunches_calm {s : State} (h : Calm s) : s.pruneLaunches = s := by
  unfold State.pruneLaunches State.cancelLaunches
  rw [h.entries, List.foldl_nil]
  refine foldl_id _ _ _ fun e he => ?_
  have h1 := h.txns e he
  cases ho : e.2.owner <;> simp only [ho, TxnOwner.isLaunch, Bool.true_eq_false] at h1 ⊢

theorem find_mem {α : Type} {m : SMap α} {k : Nat} {v : α} (h : SMap.find m k = some v) : (k, v) ∈ m := by
  induction m with
  | nil => cases h
  | cons e m ih =>
    unfold SMap.find at h
    split at h
    · rename_i hk
      cases h
      exact hk ▸ List.mem_cons_self ..
    · split at h
      · cases h
      · exact List.mem_cons_of_mem _ (ih h)

theorem openWaiting_calm {s : State} (h : Calm s) : s.openWaiting = s := by
  unfold State.openWaiting
  refine foldl_id _ _ _ fun e _ => ?_
  split
  · rfl
  · rename_i t hf
    split
    · rename_i x hl
      rw [h.opened _ (find_mem hf) x hl, if_neg Bool.false_ne_true]
    · rfl

theorem endNewWaits_calm {s : State} (h : Calm s) (n : Nat) : s.endNewWaits n = s := by
  unfold State.endNewWaits State.endWaits
  cases hf : s.wq n with
  | none => simp
  | some w =>
    have ho : w.ops = [] := (h.wqs _ (find_mem hf)).1
    simp only [ho, List.foldl_nil, ite_self]

theorem fences_calm {s : State} (h : Calm s) : s.fences = s := by
  unfold State.fences
  refine foldl_id _ _ _ fun e he => ?_
  rw [(h.wqs e he).1, List.foldl_nil]

theorem errorRecords_calm {s : State} (h : Calm s) : s.errorRecords = s := by
  unfold State.errorRecords
  simp only [h.errors, List.filter_nil, List.foldl_nil]
  rw [← h.errors]

theorem dueStarts_calm {s : State} (h : Calm s) : s.dueStarts = s := by
  unfold State.dueStarts
  rw [h.starts, List.foldl_nil]

theorem duePins_calm {s : State} (h : Calm s) : s.duePins = s := by
  unfold State.duePins
  have e : (s.hall.pages.filter fun e => e.2.pinWait) = [] := by
    rw [List.filter_eq_nil_iff]
    exact fun a ha => by simp [h.pins a ha]
  rw [e, List.foldl_nil]

theorem pump_calm {s : State} (h : Calm s) : s.pump = s := by
  have hp : s.passWaiting = s := by
    unfold State.passWaiting
    rw [h.forwards]
    simp only [List.filter_nil, List.foldl_nil]
    rw [← h.forwards]
  unfold State.pump
  simp only [hp, h.control, List.foldl_nil, List.filter_nil, List.map_nil, List.eraseDups_nil]

theorem sendWaiting_calm {s : State} (h : Calm s) : s.sendWaiting = s := by
  unfold State.sendWaiting
  rw [h.answers, List.foldl_nil, ← h.answers]

theorem sealWaiting_calm {s : State} (h : Calm s) : s.sealWaiting = s := by
  unfold State.sealWaiting
  rw [h.unsealed, List.foldl_nil]

theorem drainsOwed_calm {s : State} (h : Calm s) : s.drainsOwed = s := by
  unfold State.drainsOwed
  dsimp only
  rw [h.drains, List.foldl_nil, ← h.drains]

theorem heldWrites_calm {s : State} (h : Calm s) : s.heldWrites = s := by
  unfold State.heldWrites
  rw [if_pos h.dirtyHeld]

theorem round_calm {s : State} (h : Calm s) : s.round = s := by
  unfold State.round
  rw [h.refused, List.foldl_nil, openWaiting_calm h]
  extract_lets s0 rs q1 s1 ps q2 s2 ts q3 s3 js q4 s4 s5 s5' s6 s7 s8 s9
  have h1 : s = s1 := by
    show s = rs.foldl _ _
    rw [show rs = [] from h.resolved, List.foldl_nil, ← h.resolved]
  clear_value s1
  subst h1
  have h2 : s = s2 := by
    show s = ps.foldl _ _
    rw [show ps = [] from h.inbox, List.foldl_nil, ← h.inbox]
  clear_value s2
  subst h2
  have h3 : s = s3 := by
    show s = ts.foldl _ _
    rw [show ts = [] from h.todo, List.foldl_nil, ← h.todo]
  clear_value s3
  subst h3
  have h4 : s = s4 := by
    show s = js.foldl _ _
    rw [show js = [] from h.faults, List.foldl_nil, ← h.faults]
  clear_value s4
  subst h4
  have h5 : s = s5 := by
    show s = s.testRose
    unfold State.testRose
    rw [h.rose]
    simp only [List.eraseDups_nil, List.foldl_nil]
    rw [← h.rose]
  clear_value s5
  subst h5
  have h5' : s = s5' := (foldl_id _ _ _ fun e _ => endNewWaits_calm h e.1).symm
  clear_value s5'
  subst h5'
  have h6 : s = s6 := by
    show s = (s.pruneWaits.pruneLaunches).fences
    rw [pruneWaits_calm h, pruneLaunches_calm h, fences_calm h]
  clear_value s6
  subst h6
  have h7 : s = s7 := by
    show s = s.errorRecords
    rw [errorRecords_calm h]
  clear_value s7
  subst h7
  have h8 : s = s8 := by
    refine (foldl_id _ _ _ fun e he => ?_).symm
    have hn : s.errorsOf e.1 = false := by simp only [State.errorsOf, h.errors, List.any_nil]
    rw [hn, if_neg Bool.false_ne_true]
    have hd := h.domains e he
    unfold State.quenchGo
    cases hx : s.domain e.1 with
    | none => rfl
    | some d =>
      rw [hx] at hd
      simp only [Option.bind_some] at hd
      simp only [hd]
  clear_value s8
  subst h8
  have h9 : s = s9 := by
    refine (foldl_id _ _ _ fun e he => ?_).symm
    rw [if_neg (h.wqs e he).2]
  clear_value s9
  subst h9
  unfold State.dueChanges
  rw [h.changes, List.foldl_nil]
  rw [dueStarts_calm h, duePins_calm h, pump_calm h, sendWaiting_calm h, sealWaiting_calm h, drainsOwed_calm h, heldWrites_calm h]

theorem skyCome_calm {s : State} (h : Calm s) : s.skyCome = s := by
  unfold State.skyCome
  have e : (s.qpe.arrivals.filterMap fun a =>
      if a.2.stage = .sky then some (a.2.pkt.stream, a.2.pkt.key % 2 ^ 20) else none) = [] := by
    rw [List.filterMap_eq_nil_iff]
    exact fun a ha => if_neg (h.sky a ha)
  simp only [e, List.eraseDups_nil, List.foldl_nil]

theorem pauseSettle_calm {s : State} (h : Calm s) : s.pauseSettle = s := by
  unfold State.pauseSettle
  simp only [h.pausing, List.all_nil, if_true, List.map_nil, List.eraseDups_nil, List.foldl_nil]

theorem drrSettle_calm {s : State} (h : Calm s) : s.drrSettle = s := by
  unfold State.drrSettle
  rw [h.turns, List.foldl_nil]

theorem lpiSettle_calm {s : State} (h : Calm s) : s.lpiSettle = s := by
  unfold State.lpiSettle
  refine foldl_id _ _ _ fun e he => ?_
  have h1 := h.groups e he
  simp [h1.1, h1.2]

theorem linkOwed_calm {s : State} (h : Calm s) : s.linkOwed = s := by
  unfold State.linkOwed
  refine foldl_id _ _ _ fun e he => ?_
  simp [h.links e he]

theorem settle_calm {s : State} (h : Calm s) : s.settle = s := by
  unfold State.settle
  rw [h.events]
  show State.deliver (63 + 1) s = s
  unfold State.deliver
  rw [h.events]

/-- The end of a command changes nothing in a module at rest. -/
theorem finish_of_calm {s : State} (hs : s.calm = true) : s.finish = s := by
  have h := calm_parts hs
  have hb : s.busy = false := by
    simp [State.busy, h.refused, h.resolved, h.inbox, h.todo, h.faults, h.rose, h.errors]
  have hr : rounds 16 s = s := by
    show rounds (15 + 1) s = s
    unfold rounds
    simp only [round_calm h, hb, Bool.false_eq_true, if_false]
  unfold State.finish
  rw [skyCome_calm h, hr, errorRecords_calm h, lpiSettle_calm h, pauseSettle_calm h, drrSettle_calm h, linkOwed_calm h, settle_calm h]

end Sys2Proof.Machine
end

