-- ==== Sys2Proof/Laws/SMap.lean ====
section
/-!
SUPPORT. The laws of sparse tables: what a lookup answers after an update, and that every update keeps the canonical form.
-/

namespace Sys2Proof.Machine

variable {α : Type}

@[simp] theorem find_put_same (m : SMap α) (k : Nat) (v : α) : SMap.find (SMap.put m k v) k = some v := by
  induction m with
  | nil => simp [SMap.put, SMap.find]
  | cons e m ih =>
    obtain ⟨j, w⟩ := e
    by_cases h1 : k < j
    · simp [SMap.put, SMap.find, h1]
    · by_cases h2 : k = j
      · simp [SMap.put, SMap.find, h2]
      · have h3 : ¬ j = k := fun h => h2 h.symm
        simp [SMap.put, SMap.find, h1, h2, h3, ih]

theorem find_put_other (m : SMap α) {k a : Nat} (v : α) (h : a ≠ k) : SMap.find (SMap.put m k v) a = SMap.find m a := by
  induction m with
  | nil =>
    have h1 : ¬ k = a := fun x => h x.symm
    simp [SMap.put, SMap.find, h1]
  | cons e m ih =>
    obtain ⟨j, w⟩ := e
    have h0 : ¬ k = a := fun x => h x.symm
    by_cases h1 : k < j
    · by_cases h2 : a < k
      · have h3 : ¬ j = a := by omega
        have h4 : a < j := by omega
        simp [SMap.put, SMap.find, h1, h0, h2, h3, h4]
      · simp [SMap.put, SMap.find, h1, h0, h2]
    · by_cases h2 : k = j
      · subst h2
        simp [SMap.put, SMap.find, h0]
      · simp [SMap.put, SMap.find, h1, h2, ih]

theorem sortedFrom_mono {lo lo' : Nat} (m : SMap α) (h : lo' ≤ lo) (hm : SMap.sortedFrom lo m = true) : SMap.sortedFrom lo' m = true := by
  cases m with
  | nil => rfl
  | cons e m =>
    simp only [SMap.sortedFrom, Bool.and_eq_true, decide_eq_true_eq] at hm ⊢
    exact ⟨le_trans h hm.1, hm.2⟩

theorem sortedFrom_put {lo k : Nat} (m : SMap α) (v : α) (hk : lo ≤ k) (hm : SMap.sortedFrom lo m = true) :
    SMap.sortedFrom lo (SMap.put m k v) = true := by
  induction m generalizing lo with
  | nil => simp [SMap.put, SMap.sortedFrom, hk]
  | cons e m ih =>
    obtain ⟨j, w⟩ := e
    simp only [SMap.sortedFrom, Bool.and_eq_true, decide_eq_true_eq] at hm
    by_cases h1 : k < j
    · simp [SMap.put, h1, SMap.sortedFrom, hk, hm.2, Nat.succ_le_of_lt h1]
    · by_cases h2 : k = j
      · subst h2
        simp [SMap.put, SMap.sortedFrom, hk, hm.2]
      · have h3 := ih (lo := j + 1) (by omega) hm.2
        simp [SMap.put, h1, h2, SMap.sortedFrom, hm.1, h3]

theorem sortedFrom_del {lo : Nat} (m : SMap α) (k : Nat) (hm : SMap.sortedFrom lo m = true) : SMap.sortedFrom lo (SMap.del m k) = true := by
  induction m generalizing lo with
  | nil => rfl
  | cons e m ih =>
    obtain ⟨j, w⟩ := e
    simp only [SMap.sortedFrom, Bool.and_eq_true, decide_eq_true_eq] at hm
    by_cases h : j = k
    · simpa [SMap.del, h] using sortedFrom_mono m (by omega) hm.2
    · simp [SMap.del, h, SMap.sortedFrom, hm.1, ih hm.2]

theorem sortedFrom_filter {lo : Nat} (m : SMap α) (p : Nat × α → Bool) (hm : SMap.sortedFrom lo m = true) :
    SMap.sortedFrom lo (m.filter p) = true := by
  induction m generalizing lo with
  | nil => rfl
  | cons e m ih =>
    simp only [SMap.sortedFrom, Bool.and_eq_true, decide_eq_true_eq] at hm
    by_cases h : p e
    · simp [h, SMap.sortedFrom, hm.1, ih hm.2]
    · simpa [h] using sortedFrom_mono _ (by omega) (ih hm.2)

theorem sortedFrom_mapv {lo : Nat} (m : SMap α) (f : Nat → α → α) (hm : SMap.sortedFrom lo m = true) :
    SMap.sortedFrom lo (SMap.mapv m f) = true := by
  induction m generalizing lo with
  | nil => rfl
  | cons e m ih =>
    simp only [SMap.sortedFrom, Bool.and_eq_true, decide_eq_true_eq] at hm
    simpa [SMap.mapv, SMap.sortedFrom, hm.1] using ih hm.2

theorem find_below {lo k : Nat} (m : SMap α) (hm : SMap.sortedFrom lo m = true) (h : k < lo) : SMap.find m k = none := by
  cases m with
  | nil => rfl
  | cons e m =>
    simp only [SMap.sortedFrom, Bool.and_eq_true, decide_eq_true_eq] at hm
    have h1 : ¬ e.1 = k := by omega
    have h2 : k < e.1 := by omega
    obtain ⟨j, w⟩ := e
    simp_all [SMap.find]

theorem find_del_same {lo : Nat} (m : SMap α) (k : Nat) (hm : SMap.sortedFrom lo m = true) : SMap.find (SMap.del m k) k = none := by
  induction m generalizing lo with
  | nil => rfl
  | cons e m ih =>
    obtain ⟨j, w⟩ := e
    simp only [SMap.sortedFrom, Bool.and_eq_true, decide_eq_true_eq] at hm
    by_cases h : j = k
    · simpa [SMap.del, h] using find_below m hm.2 (by omega)
    · simp [SMap.del, h, SMap.find, ih hm.2]

theorem find_del_other {lo k a : Nat} (m : SMap α) (hm : SMap.sortedFrom lo m = true) (h : a ≠ k) :
    SMap.find (SMap.del m k) a = SMap.find m a := by
  induction m generalizing lo with
  | nil => rfl
  | cons e m ih =>
    obtain ⟨j, w⟩ := e
    simp only [SMap.sortedFrom, Bool.and_eq_true, decide_eq_true_eq] at hm
    by_cases h1 : j = k
    · subst h1
      have h2 : ¬ j = a := fun x => h x.symm
      by_cases h3 : a < j
      · simp [SMap.del, SMap.find, h2, h3, find_below m hm.2 (show a < j + 1 by omega)]
      · simp [SMap.del, SMap.find, h2, h3]
    · simp [SMap.del, h1, SMap.find, ih hm.2]

theorem wf_put (m : SMap α) (k : Nat) (v : α) (hm : SMap.wf m = true) : SMap.wf (SMap.put m k v) = true :=
  sortedFrom_put m v (Nat.zero_le k) hm

theorem wf_del (m : SMap α) (k : Nat) (hm : SMap.wf m = true) : SMap.wf (SMap.del m k) = true := sortedFrom_del m k hm

theorem wf_keep (m : SMap α) (p : Nat → α → Bool) (hm : SMap.wf m = true) : SMap.wf (SMap.keep m p) = true :=
  sortedFrom_filter m _ hm

theorem wf_mapv (m : SMap α) (f : Nat → α → α) (hm : SMap.wf m = true) : SMap.wf (SMap.mapv m f) = true := sortedFrom_mapv m f hm

theorem all_put (m : SMap α) (k : Nat) (v : α) (p : Nat × α → Bool) (hv : p (k, v) = true) (hm : m.all p = true) :
    (SMap.put m k v).all p = true := by
  induction m with
  | nil => simp [SMap.put, hv]
  | cons e m ih =>
    obtain ⟨j, w⟩ := e
    simp only [List.all_cons, Bool.and_eq_true] at hm
    by_cases h1 : k < j
    · simp_all [SMap.put]
    · by_cases h2 : k = j
      · simp_all [SMap.put]
      · simp only [SMap.put, h1, h2, if_false, List.all_cons, hm.1, ih hm.2, Bool.and_self]

theorem all_del (m : SMap α) (k : Nat) (p : Nat × α → Bool) (hm : m.all p = true) : (SMap.del m k).all p = true := by
  induction m with
  | nil => rfl
  | cons e m ih =>
    obtain ⟨j, w⟩ := e
    simp only [List.all_cons, Bool.and_eq_true] at hm
    by_cases h : j = k
    · simp only [SMap.del, h, if_true, hm.2]
    · simp only [SMap.del, h, if_false, List.all_cons, hm.1, ih hm.2, Bool.and_self]

/-- A table whose unlisted keys read as `d` keeps its canonical form. -/
theorem wfD_putD [DecidableEq α] (d : α) (m : SMap α) (k : Nat) (v : α) (hm : SMap.wfD d m = true) :
    SMap.wfD d (SMap.putD d m k v) = true := by
  simp only [SMap.wfD, Bool.and_eq_true] at hm ⊢
  by_cases h : v = d
  · simp only [SMap.putD, h, if_true]
    exact ⟨wf_del m k hm.1, all_del m k _ hm.2⟩
  · simp only [SMap.putD, h, if_false]
    exact ⟨wf_put m k v hm.1, all_put m k v _ (by simp [h]) hm.2⟩

theorem getD_putD_same [DecidableEq α] (d : α) (m : SMap α) (k : Nat) (v : α) (hm : SMap.wf m = true) :
    SMap.getD (SMap.putD d m k v) k d = v := by
  by_cases h : v = d
  · simp [SMap.putD, h, SMap.getD, find_del_same m k hm]
  · simp [SMap.putD, h, SMap.getD]

theorem getD_putD_other [DecidableEq α] (d : α) (m : SMap α) {k a : Nat} (v : α) (hm : SMap.wf m = true) (h : a ≠ k) :
    SMap.getD (SMap.putD d m k v) a d = SMap.getD m a d := by
  by_cases hv : v = d
  · simp [SMap.putD, hv, SMap.getD, find_del_other m hm h]
  · simp [SMap.putD, hv, SMap.getD, find_put_other m v h]

theorem getD_put_same (m : SMap α) (k : Nat) (v d : α) : SMap.getD (SMap.put m k v) k d = v := by simp [SMap.getD]

theorem getD_put_other (m : SMap α) {k a : Nat} (v d : α) (h : a ≠ k) : SMap.getD (SMap.put m k v) a d = SMap.getD m a d := by
  simp [SMap.getD, find_put_other m v h]

end Sys2Proof.Machine
end

