-- ==== Sys2Proof/Laws/Memory.lean ====
section
/-!
SUPPORT. The laws of memory: a write of bytes keeps the canonical form, reads back what was written, and leaves every other byte alone.
-/

namespace Sys2Proof.Machine

theorem memPut_wf (m : SMap Byte) (a : Nat) (bs : Bytes) (h : Memory.wf m = true) : Memory.wf (memPut m a bs) = true := by
  induction bs generalizing m a with
  | nil => exact h
  | cons b bs ih => exact ih _ _ (wfD_putD 0 m a b h)

theorem memory_wf_sorted {m : SMap Byte} (h : Memory.wf m = true) : SMap.wf m = true := by
  simp only [Memory.wf, SMap.wfD, Bool.and_eq_true] at h
  exact h.1

theorem memPut_other (m : SMap Byte) {a x : Nat} (bs : Bytes) (h : Memory.wf m = true) (hx : x < a ∨ a + bs.length ≤ x) :
    SMap.getD (memPut m a bs) x 0 = SMap.getD m x 0 := by
  induction bs generalizing m a with
  | nil => rfl
  | cons b bs ih =>
    simp only [List.length_cons] at hx
    have h1 : x ≠ a := by omega
    have h2 := ih (SMap.putD 0 m a b) (a := a + 1) (wfD_putD 0 m a b h) (by omega)
    exact h2.trans (getD_putD_other 0 m b (memory_wf_sorted h) h1)

theorem memBytes_memPut (m : SMap Byte) (a : Nat) (bs : Bytes) (h : Memory.wf m = true) : memBytes (memPut m a bs) a bs.length = bs := by
  induction bs generalizing m a with
  | nil => rfl
  | cons b bs ih =>
    have h1 := ih (SMap.putD 0 m a b) (a + 1) (wfD_putD 0 m a b h)
    have h2 : SMap.getD (memPut (SMap.putD 0 m a b) (a + 1) bs) a 0 = SMap.getD (SMap.putD 0 m a b) a 0 :=
      memPut_other _ bs (wfD_putD 0 m a b h) (by omega)
    simp only [List.length_cons, memBytes, memPut, h1, h2, getD_putD_same 0 m a b (memory_wf_sorted h)]

end Sys2Proof.Machine
end

