-- ==== Sys2Proof/Laws/Keep.lean ====
section
/-!
SUPPORT. What every operation of the module keeps: it leaves the queue of commands and the fused variant alone, it never lowers the fuse SVN
(R674) nor raises it past 63, and it keeps memory and the register store in their canonical forms. `Keeps s t` says so of two states; the other files of this kind say it of every operation.
-/

namespace Sys2Proof.Machine

/-- What is kept from `s`, of the five parts of a later state that can break it. -/
structure Kept (s : State) (p : List Instr) (v : Variant) (m : SMap Byte) (r : Regs) (n : Nat) : Prop where
  pending : p = s.pending
  variant : v = s.variant
  mem : Memory.wf s.hbm.mem = true → Memory.wf m = true
  regs : s.regs.wf = true → r.wf = true
  svn : s.svc.svn ≤ n
  cap : s.svc.svn ≤ 63 → n ≤ 63

/-- `t` keeps what a step must keep of `s`. -/
def Keeps (s t : State) : Prop := Kept s t.pending t.variant t.hbm.mem t.regs t.svc.svn

theorem Keeps.refl (s : State) : Keeps s s := ⟨rfl, rfl, id, id, le_rfl, id⟩

theorem Keeps.fold {s t : State} (h : Keeps s t) : Kept s t.pending t.variant t.hbm.mem t.regs t.svc.svn := h

theorem Keeps.pending {s t : State} (h : Keeps s t) : t.pending = s.pending := Kept.pending h

theorem Keeps.variant {s t : State} (h : Keeps s t) : t.variant = s.variant := Kept.variant h

theorem Keeps.canonical {s t : State} (h : Keeps s t) (hs : s.Canonical) : t.Canonical :=
  ⟨Kept.mem h hs.1, Kept.regs h hs.2.1, Kept.cap h hs.2.2⟩

theorem Keeps.svn {s t : State} (h : Keeps s t) : s.svc.svn ≤ t.svc.svn := Kept.svn h

theorem keeps_mk {s0 : State} {a b c d e f g h i j k l m n o p q r s t u v w x y z a1 b1 c1} :
    Keeps s0 (State.mk a b c d e f g h i j k l m n o p q r s t u v w x y z a1 b1 c1) = Kept s0 a g t.mem h u.svn := rfl

theorem keeps_ite {s a b : State} {c : Prop} [Decidable c] (ha : Keeps s a) (hb : Keeps s b) : Keeps s (if c then a else b) := by
  split
  · exact ha
  · exact hb

/-- The same of an optional state. -/
structure KeepsOpt (s : State) (x : Option State) : Prop where
  of : ∀ t, x = some t → Keeps s t

theorem keepsOpt_none {s : State} : KeepsOpt s none := ⟨fun _ h => by cases h⟩

theorem keepsOpt_some {s t : State} (h : Keeps s t) : KeepsOpt s (some t) := ⟨fun _ e => by cases e; exact h⟩

theorem keeps_of_some {s t : State} {x : Option State} (e : x = some t) (h : KeepsOpt s x) : Keeps s t := h.of t e

theorem keepsOpt_of_eq {s : State} {x y : Option State} (e : x = y) (h : KeepsOpt s x) : KeepsOpt s y := e ▸ h

theorem keeps_getD {s t : State} {x : Option State} (h : KeepsOpt s x) (ht : Keeps s t) : Keeps s (x.getD t) := by
  cases x with
  | none => exact ht
  | some u => exact h.of u rfl

theorem keepsOpt_bind {s : State} {x : Option State} {f : State → Option State} (h : KeepsOpt s x) (hf : ∀ t, Keeps s t → KeepsOpt s (f t)) :
    KeepsOpt s (x.bind f) := by
  cases x with
  | none => exact keepsOpt_none
  | some u => exact hf u (h.of u rfl)

theorem keepsOpt_map {α : Type} {s : State} {x : Option α} {f : α → State} (hf : ∀ a, Keeps s (f a)) : KeepsOpt s (x.map f) := by
  cases x with
  | none => exact keepsOpt_none
  | some u => exact keepsOpt_some (hf u)

theorem keeps_of_pair {α : Type} {s t : State} {a : α} {r : α × State} (e : r = (a, t)) (h : Keeps s r.2) : Keeps s t := by
  subst e; exact h

theorem keeps_of_triple {α β : Type} {s t : State} {a : α} {b : β} {r : α × β × State} (e : r = (a, b, t)) (h : Keeps s r.2.2) :
    Keeps s t := by subst e; exact h

/-- The same of an optional pair. -/
structure KeepsOpt2 {α : Type} (s : State) (x : Option (α × State)) : Prop where
  of : ∀ a t, x = some (a, t) → Keeps s t

theorem keepsOpt2_none {α : Type} {s : State} : KeepsOpt2 s (none : Option (α × State)) := ⟨fun _ _ h => by cases h⟩

theorem keepsOpt2_some {α : Type} {s t : State} {a : α} (h : Keeps s t) : KeepsOpt2 s (some (a, t)) :=
  ⟨fun _ _ e => by cases e; exact h⟩

theorem keeps_of_some2 {α : Type} {s t : State} {a : α} {x : Option (α × State)} (e : x = some (a, t)) (h : KeepsOpt2 s x) : Keeps s t :=
  h.of a t e

theorem keepsOpt2_map {α β : Type} {s : State} {x : Option α} {f : α → β × State} (hf : ∀ a, Keeps s (f a).2) : KeepsOpt2 s (x.map f) := by
  cases x with
  | none => exact keepsOpt2_none
  | some u => exact keepsOpt2_some (hf u)

theorem keepsOpt2_mapPair {α β : Type} {s : State} {x : Option (α × State)} {f : α × State → β × State} (h : KeepsOpt2 s x)
    (hf : ∀ r, Keeps s r.2 → Keeps s (f r).2) : KeepsOpt2 s (x.map f) := by
  cases x with
  | none => exact keepsOpt2_none
  | some u => exact keepsOpt2_some (hf u (h.of u.1 u.2 rfl))

/-- The same of the outcome of a command's own part. -/
inductive KeepsAdm (s : State) : AdmRes → Prop
  | reply (a b : Nat) (c : Bytes) (t : State) (h : Keeps s t) : KeepsAdm s (.reply a b c t)
  | wait (c : Cmd) (t : State) (h : Keeps s t) : KeepsAdm s (.wait c t)

theorem keepsAdm_reply {s t : State} {a b : Nat} {c : Bytes} (h : Keeps s t) : KeepsAdm s (.reply a b c t) := .reply _ _ _ _ h

theorem keepsAdm_wait {s t : State} {c : Cmd} (h : Keeps s t) : KeepsAdm s (.wait c t) := .wait _ _ h

theorem keepsAdm_fail {s t : State} {a : Nat} (h : Keeps s t) : KeepsAdm s (.fail a t) := .reply _ _ _ _ h

theorem keepsAdm_field {s t : State} (h : Keeps s t) : KeepsAdm s (.field t) := .reply _ _ _ _ h

theorem keepsAdm_ok {s t : State} {l : List (Nat × Nat)} (h : Keeps s t) : KeepsAdm s (.ok l t) := .reply _ _ _ _ h

theorem keeps_of_reply {s t : State} {a b : Nat} {c : Bytes} {r : AdmRes} (e : r = .reply a b c t) (h : KeepsAdm s r) : Keeps s t := by
  subst e; cases h; assumption

theorem keeps_of_wait {s t : State} {c : Cmd} {r : AdmRes} (e : r = .wait c t) (h : KeepsAdm s r) : Keeps s t := by
  subst e; cases h; assumption

/-- The same of a verdict on a control request. -/
inductive KeepsVerd (s : State) : Verd → Prop
  | accept (d : Bytes) : KeepsVerd s (.accept d)
  | refuse (a b : Nat) (d : Bytes) (t : State) (h : Keeps s t) : KeepsVerd s (.refuse a b d t)
  | busy : KeepsVerd s .busy

theorem keepsVerd_accept {s : State} {d : Bytes} : KeepsVerd s (.accept d) := .accept d

theorem keepsVerd_refuse {s t : State} {a b : Nat} {d : Bytes} (h : Keeps s t) : KeepsVerd s (.refuse a b d t) := .refuse _ _ _ _ h

theorem keepsVerd_busy {s : State} : KeepsVerd s .busy := .busy

theorem keeps_of_refuse {s t : State} {a b : Nat} {d : Bytes} {r : Verd} (e : r = .refuse a b d t) (h : KeepsVerd s r) : Keeps s t := by
  subst e; cases h; assumption

/-- The same of an outcome. -/
inductive KeepsOut (s : State) : Result → Prop
  | next (t : State) (h : Keeps s t) : KeepsOut s (.next t)

theorem keepsOut_next {s t : State} (h : Keeps s t) : KeepsOut s (.next t) := .next t h

theorem keeps_foldl {ι : Type} {s t : State} {g : State → ι → State} {l : List ι} (h : Keeps s t) (hg : ∀ x a, Keeps s x → Keeps s (g x a)) :
    Keeps s (l.foldl g t) := by
  induction l generalizing t with
  | nil => exact h
  | cons a l ih => exact ih (hg t a h)

theorem keeps_foldl_pair {ι α : Type} {s : State} {t : α × State} {g : α × State → ι → α × State} {l : List ι} (h : Keeps s t.2)
    (hg : ∀ x a, Keeps s x.2 → Keeps s (g x a).2) : Keeps s (l.foldl g t).2 := by
  induction l generalizing t with
  | nil => exact h
  | cons a l ih => exact ih (hg t a h)

theorem keeps_foldl_triple {ι α β : Type} {s : State} {t : α × β × State} {g : α × β × State → ι → α × β × State} {l : List ι}
    (h : Keeps s t.2.2) (hg : ∀ x a, Keeps s x.2.2 → Keeps s (g x a).2.2) : Keeps s (l.foldl g t).2.2 := by
  induction l generalizing t with
  | nil => exact h
  | cons a l ih => exact ih (hg t a h)

theorem keepsOpt_foldl {ι : Type} {s : State} {t : Option State} {g : Option State → ι → Option State} {l : List ι} (h : KeepsOpt s t)
    (hg : ∀ x a, KeepsOpt s x → KeepsOpt s (g x a)) : KeepsOpt s (l.foldl g t) := by
  induction l generalizing t with
  | nil => exact h
  | cons a l ih => exact ih (hg t a h)

end Sys2Proof.Machine
end

