-- ==== Sys2Proof/Laws/KeepBase.lean ====
section
/-!
SUPPORT. What the operations of Machine/Base.lean keep.
-/

namespace Sys2Proof.Machine

set_option linter.unusedTactic false
set_option linter.unreachableTactic false
set_option linter.unusedVariables false

theorem State.drawn_keeps {s0 : State} {s : State} (h0 : Keeps s0 s) :
    Keeps s0 (State.drawn s) := by
  unfold State.drawn
  try dsimp only
  repeat' (first | with_reducible assumption | (simp only [keeps_mk]; with_reducible refine Keeps.fold ?_))

theorem State.emit_keeps {s0 : State} {s : State} {o : Out} (h0 : Keeps s0 s) :
    Keeps s0 (State.emit s o) := by
  unfold State.emit
  try dsimp only
  repeat' (first | with_reducible assumption | (simp only [keeps_mk]; with_reducible refine Keeps.fold ?_))

theorem regs_put_shadow {r : Regs} (k : Nat) (v : Word) (h : r.wf = true) : Regs.wf { r with shadow := SMap.put r.shadow k v } = true := by
  simp only [Regs.wf, Bool.and_eq_true] at h ⊢
  exact ⟨wf_put _ _ _ h.1, h.2⟩

theorem regs_put_committed {r : Regs} (k : Nat) (v : Word) (h : r.wf = true) :
    Regs.wf { r with committed := SMap.put r.committed k v } = true := by
  simp only [Regs.wf, Bool.and_eq_true] at h ⊢
  exact ⟨h.1, wf_put _ _ _ h.2⟩

theorem State.setReg_keeps {s0 : State} {s : State} {r : Reg} {v : Word} (h : Keeps s0 s) : Keeps s0 (s.setReg r v) :=
  ⟨Kept.pending h, Kept.variant h, Kept.mem h, fun w => regs_put_shadow _ _ (Kept.regs h w), Kept.svn h, Kept.cap h⟩

theorem State.setCom_keeps {s0 : State} {s : State} {r : Reg} {v : Word} (h : Keeps s0 s) : Keeps s0 (s.setCom r v) :=
  ⟨Kept.pending h, Kept.variant h, Kept.mem h, fun w => regs_put_committed _ _ (Kept.regs h w), Kept.svn h, Kept.cap h⟩

theorem State.setRegOf_keeps {s0 : State} {s : State} {n : Nat} {r : Reg} {v : Word} (h : Keeps s0 s) : Keeps s0 (s.setRegOf n r v) :=
  ⟨Kept.pending h, Kept.variant h, Kept.mem h, fun w => regs_put_shadow _ _ (Kept.regs h w), Kept.svn h, Kept.cap h⟩

theorem State.unsetRegOf_keeps {s0 : State} {s : State} {n : Nat} {r : Reg} (h : Keeps s0 s) : Keeps s0 (s.unsetRegOf n r) := by
  refine ⟨Kept.pending h, Kept.variant h, Kept.mem h, fun w => ?_, Kept.svn h, Kept.cap h⟩
  have := Kept.regs h w
  simp only [Regs.wf, Bool.and_eq_true] at this
  simp only [State.unsetRegOf, Regs.wf, Bool.and_eq_true]
  exact ⟨wf_del _ _ this.1, this.2⟩

theorem State.setRegF_keeps {s0 : State} {s : State} {r : Reg} {hi lo v : Nat} (h0 : Keeps s0 s) :
    Keeps s0 (State.setRegF s r hi lo v) := by
  unfold State.setRegF
  repeat' (first | with_reducible assumption | with_reducible apply State.setReg_keeps)

theorem State.setFlag_keeps {s0 : State} {s : State} {r : Reg} {i : Nat} (h0 : Keeps s0 s) :
    Keeps s0 (State.setFlag s r i) := by
  unfold State.setFlag
  repeat' (first | with_reducible assumption | with_reducible apply State.setReg_keeps)

theorem State.setFlagOf_keeps {s0 : State} {s : State} {n : Nat} {r : Reg} {i : Nat} (h0 : Keeps s0 s) :
    Keeps s0 (State.setFlagOf s n r i) := by
  unfold State.setFlagOf
  repeat' (first | with_reducible assumption | with_reducible apply State.setRegOf_keeps)

theorem State.setBoth_keeps {s0 : State} {s : State} {r : Reg} {v : Word} (h0 : Keeps s0 s) :
    Keeps s0 (State.setBoth s r v) := by
  unfold State.setBoth
  repeat' (first | with_reducible assumption | with_reducible apply State.setReg_keeps | with_reducible apply State.setCom_keeps)

theorem State.commitRegs_keeps {s0 : State} {s : State} {rs : List Reg} (h0 : Keeps s0 s) :
    Keeps s0 (State.commitRegs s rs) := by
  unfold State.commitRegs
  repeat' (first | with_reducible assumption | (intro _; try dsimp only) | with_reducible apply State.setCom_keeps
                 | with_reducible apply keeps_foldl | with_reducible apply keeps_foldl_pair | with_reducible apply keeps_foldl_triple)

theorem State.resetRegs_keeps {s0 : State} {s : State} {lo hi : Nat} (h : Keeps s0 s) : Keeps s0 (s.resetRegs lo hi) := by
  refine ⟨Kept.pending h, Kept.variant h, Kept.mem h, fun w => ?_, Kept.svn h, Kept.cap h⟩
  have := Kept.regs h w
  simp only [Regs.wf, Bool.and_eq_true] at this
  simp only [State.resetRegs, Regs.wf, Bool.and_eq_true]
  exact ⟨wf_keep _ _ this.1, wf_keep _ _ this.2⟩

theorem State.resetRegsOf_keeps {s0 : State} {s : State} {n lo hi : Nat} (h : Keeps s0 s) : Keeps s0 (s.resetRegsOf n lo hi) := by
  refine ⟨Kept.pending h, Kept.variant h, Kept.mem h, fun w => ?_, Kept.svn h, Kept.cap h⟩
  have := Kept.regs h w
  simp only [Regs.wf, Bool.and_eq_true] at this
  simp only [State.resetRegsOf, Regs.wf, Bool.and_eq_true]
  exact ⟨wf_keep _ _ this.1, this.2⟩

theorem State.raise_keeps {s0 : State} {s : State} {dest : EventTo} {typ source data0 data1 : Nat} (h0 : Keeps s0 s) :
    Keeps s0 (State.raise s dest typ source data0 data1) := by
  unfold State.raise
  try dsimp only
  repeat' (first | with_reducible assumption | (simp only [keeps_mk]; with_reducible refine Keeps.fold ?_))

theorem State.raiseAll_keeps {s0 : State} {s : State} {es : List (EventTo × Event)} (h0 : Keeps s0 s) :
    Keeps s0 (State.raiseAll s es) := by
  unfold State.raiseAll
  try dsimp only
  repeat' (first | with_reducible assumption | (intro _; try dsimp only)
                 | (simp only [keeps_mk]; with_reducible refine Keeps.fold ?_) | with_reducible apply keeps_ite)

theorem State.addCounter_keeps {s0 : State} {s : State} {key addr sel n : Nat} (h : Keeps s0 s) : Keeps s0 (s.addCounter key addr sel n) := by
  unfold State.addCounter
  dsimp only
  split
  · apply State.raise_keeps
    exact ⟨Kept.pending h, Kept.variant h, Kept.mem h, fun w => regs_put_shadow _ _ (Kept.regs h w), Kept.svn h, Kept.cap h⟩
  · exact ⟨Kept.pending h, Kept.variant h, Kept.mem h, fun w => regs_put_shadow _ _ (Kept.regs h w), Kept.svn h, Kept.cap h⟩

theorem State.countN_keeps {s0 : State} {s : State} {r : Reg} {n : Nat} (h0 : Keeps s0 s) :
    Keeps s0 (State.countN s r n) := by
  unfold State.countN
  repeat' (first | with_reducible assumption | with_reducible apply State.addCounter_keeps)

theorem State.count_keeps {s0 : State} {s : State} {r : Reg} (h0 : Keeps s0 s) :
    Keeps s0 (State.count s r) := by
  unfold State.count
  repeat' (first | with_reducible assumption | with_reducible apply State.countN_keeps)

theorem State.countOf_keeps {s0 : State} {s : State} {k : Nat} {r : Reg} {n : Nat} (h0 : Keeps s0 s) :
    Keeps s0 (State.countOf s k r n) := by
  unfold State.countOf
  repeat' (first | with_reducible assumption | with_reducible apply State.addCounter_keeps)

theorem State.countSel_keeps {s0 : State} {s : State} {sel : Nat} {r : Reg} {n : Nat} (h0 : Keeps s0 s) :
    Keeps s0 (State.countSel s sel r n) := by
  unfold State.countSel
  repeat' (first | with_reducible assumption | with_reducible apply State.addCounter_keeps)

theorem State.gutter_keeps {s0 : State} {s : State} {cause : Nat} (h0 : Keeps s0 s) :
    Keeps s0 (State.gutter s cause) := by
  unfold State.gutter
  repeat' (first | with_reducible assumption | with_reducible apply State.count_keeps | with_reducible apply State.countSel_keeps)

theorem State.bmc_keeps {s0 : State} {s : State} {kind : Nat} {data : Bytes} (h0 : Keeps s0 s) :
    Keeps s0 (State.bmc s kind data) := by
  unfold State.bmc
  try dsimp only
  repeat' (first | with_reducible assumption | (intro _; try dsimp only) | with_reducible apply State.emit_keeps
                 | (simp only [keeps_mk]; with_reducible refine Keeps.fold ?_) | with_reducible apply keeps_ite
                 | (split <;> try dsimp only) | with_reducible refine keeps_of_pair (by assumption) ?_
                 | with_reducible refine keeps_of_some (by assumption) ?_ | with_reducible refine keeps_of_some2 (by assumption) ?_)

theorem State.setPort_keeps {s0 : State} {s : State} {p : Nat} {x : Port} (h0 : Keeps s0 s) :
    Keeps s0 (State.setPort s p x) := by
  unfold State.setPort
  try dsimp only
  repeat' (first | with_reducible assumption | (simp only [keeps_mk]; with_reducible refine Keeps.fold ?_))

theorem State.setFn_keeps {s0 : State} {s : State} {n : Nat} {x : Fn} (h0 : Keeps s0 s) :
    Keeps s0 (State.setFn s n x) := by
  unfold State.setFn
  try dsimp only
  repeat' (first | with_reducible assumption | (simp only [keeps_mk]; with_reducible refine Keeps.fold ?_))

theorem State.setInst_keeps {s0 : State} {s : State} {n : Nat} {i : Inst} (h0 : Keeps s0 s) :
    Keeps s0 (State.setInst s n i) := by
  unfold State.setInst
  try dsimp only
  repeat' (first | with_reducible assumption | (simp only [keeps_mk]; with_reducible refine Keeps.fold ?_))

theorem State.updInst_keeps {s0 : State} {s : State} {n : Nat} {f : Inst → Inst} (h0 : Keeps s0 s) :
    Keeps s0 (State.updInst s n f) := by
  unfold State.updInst
  try dsimp only
  repeat' (first | with_reducible assumption | (simp only [keeps_mk]; with_reducible refine Keeps.fold ?_))

end Sys2Proof.Machine
end

