-- ==== Sys2Proof/Laws/KeepMem.lean ====
section
/-!
SUPPORT. What the operations of Machine/Mem.lean keep.
-/

namespace Sys2Proof.Machine

set_option linter.unusedTactic false
set_option linter.unreachableTactic false
set_option linter.unusedVariables false

theorem State.lifeWrite_keeps {s0 : State} {s : State} {r : Bytes} (h0 : Keeps s0 s) :
    Keeps s0 (State.lifeWrite s r) := by
  unfold State.lifeWrite
  try dsimp only
  repeat' (first | with_reducible assumption | (intro _; try dsimp only) | with_reducible apply State.bmc_keeps
                 | (simp only [keeps_mk]; with_reducible refine Keeps.fold ?_) | with_reducible apply keeps_ite
                 | (split <;> try dsimp only) | with_reducible refine keeps_of_pair (by assumption) ?_
                 | with_reducible refine keeps_of_some (by assumption) ?_ | with_reducible refine keeps_of_some2 (by assumption) ?_)

theorem State.lifeLog_keeps {s0 : State} {s : State} {kind : Nat} {data : Bytes} (h0 : Keeps s0 s) :
    Keeps s0 (State.lifeLog s kind data) := by
  unfold State.lifeLog
  try dsimp only
  repeat' (first | with_reducible assumption | (intro _; try dsimp only) | with_reducible apply State.lifeWrite_keeps
                 | with_reducible apply keeps_getD | (simp only [keeps_mk]; with_reducible refine Keeps.fold ?_)
                 | with_reducible apply keeps_ite | (split <;> try dsimp only)
                 | with_reducible refine keeps_of_pair (by assumption) ?_ | with_reducible refine keeps_of_some (by assumption) ?_
                 | with_reducible refine keeps_of_some2 (by assumption) ?_)

theorem State.lifeOwedWrite_keeps {s0 : State} {s : State} (h0 : Keeps s0 s) :
    Keeps s0 (State.lifeOwedWrite s) := by
  unfold State.lifeOwedWrite
  try dsimp only
  repeat' (first | with_reducible assumption | (intro _; try dsimp only) | with_reducible apply State.bmc_keeps
                 | with_reducible apply State.lifeWrite_keeps | with_reducible apply keeps_foldl
                 | with_reducible apply keeps_foldl_pair | with_reducible apply keeps_foldl_triple
                 | with_reducible apply keepsOpt_foldl | (simp only [keeps_mk]; with_reducible refine Keeps.fold ?_)
                 | with_reducible apply keeps_ite)

theorem State.lifeCount_keeps {s0 : State} {s : State} {i : Nat} (h0 : Keeps s0 s) :
    Keeps s0 (State.lifeCount s i) := by
  unfold State.lifeCount
  try dsimp only
  repeat' (first | with_reducible assumption | with_reducible apply keeps_getD
                 | (simp only [keeps_mk]; with_reducible refine Keeps.fold ?_))

theorem State.elog_keeps {s0 : State} {s : State} {kind unit detail info : Nat} (h0 : Keeps s0 s) :
    Keeps s0 (State.elog s kind unit detail info) := by
  unfold State.elog
  try dsimp only
  repeat' (first | with_reducible assumption | with_reducible apply State.lifeLog_keeps | with_reducible apply State.emit_keeps
                 | (simp only [keeps_mk]; with_reducible refine Keeps.fold ?_))

theorem State.ecc_keeps {s0 : State} {s : State} {kind memory unit data0 : Nat} (h0 : Keeps s0 s) :
    Keeps s0 (State.ecc s kind memory unit data0) := by
  unfold State.ecc
  try dsimp only
  repeat' (first | with_reducible assumption | with_reducible apply State.raise_keeps | with_reducible apply keeps_getD
                 | (simp only [keeps_mk]; with_reducible refine Keeps.fold ?_) | with_reducible apply keeps_ite
                 | (split <;> try dsimp only) | with_reducible refine keeps_of_pair (by assumption) ?_
                 | with_reducible refine keeps_of_triple (by assumption) ?_ | with_reducible refine keeps_of_some (by assumption) ?_
                 | with_reducible refine keeps_of_some2 (by assumption) ?_)

theorem State.setEcc_keeps {s0 : State} {s : State} {w : Nat} {e : Ecc} (h0 : Keeps s0 s) :
    Keeps s0 (State.setEcc s w e) := by
  unfold State.setEcc
  try dsimp only
  repeat' (first | with_reducible assumption | with_reducible apply State.ecc_keeps
                 | (simp only [keeps_mk]; with_reducible refine Keeps.fold ?_))

theorem State.clearEcc_keeps {s0 : State} {s : State} {w : Nat} (h0 : Keeps s0 s) :
    Keeps s0 (State.clearEcc s w) := by
  unfold State.clearEcc
  try dsimp only
  repeat' (first | with_reducible assumption | with_reducible apply State.ecc_keeps
                 | (simp only [keeps_mk]; with_reducible refine Keeps.fold ?_))

theorem State.corrected_keeps {s0 : State} {s : State} {w : Nat} (h0 : Keeps s0 s) :
    Keeps s0 (State.corrected s w) := by
  unfold State.corrected
  try dsimp only
  repeat' (first | with_reducible assumption | with_reducible apply State.count_keeps | with_reducible apply State.ecc_keeps
                 | with_reducible apply State.setFlag_keeps | with_reducible apply State.elog_keeps | with_reducible apply keeps_getD
                 | (simp only [keeps_mk]; with_reducible refine Keeps.fold ?_) | with_reducible apply keeps_ite
                 | (split <;> try dsimp only))

theorem State.foundUe_keeps {s0 : State} {s : State} {w : Nat} (h0 : Keeps s0 s) :
    Keeps s0 (State.foundUe s w) := by
  unfold State.foundUe
  try dsimp only
  repeat' (first | with_reducible assumption | with_reducible apply State.count_keeps | with_reducible apply State.setFlag_keeps
                 | with_reducible apply State.setEcc_keeps | with_reducible apply State.ecc_keeps | with_reducible apply State.elog_keeps
                 | with_reducible apply State.lifeCount_keeps)

theorem State.readWord_keeps {s0 : State} {s : State} {w : Nat} (h0 : Keeps s0 s) :
    Keeps s0 (State.readWord s w).2 := by
  unfold State.readWord
  try dsimp only
  repeat' (first | with_reducible assumption | with_reducible apply State.ecc_keeps | with_reducible apply State.corrected_keeps
                 | with_reducible apply State.foundUe_keeps | with_reducible apply State.count_keeps
                 | with_reducible apply State.setFlag_keeps | (simp only [keeps_mk]; with_reducible refine Keeps.fold ?_)
                 | with_reducible apply keeps_ite | (split <;> try dsimp only) | with_reducible refine keeps_of_pair (by assumption) ?_
                 | with_reducible refine keeps_of_triple (by assumption) ?_ | with_reducible refine keeps_of_some (by assumption) ?_
                 | with_reducible refine keeps_of_some2 (by assumption) ?_)

theorem State.writeWord_keeps {s0 : State} {s : State} {w : Nat} {full : Bool} (h0 : Keeps s0 s) :
    Keeps s0 (State.writeWord s w full) := by
  unfold State.writeWord
  try dsimp only
  repeat' (first | with_reducible assumption | with_reducible apply State.ecc_keeps | with_reducible apply State.clearEcc_keeps
                 | with_reducible apply State.corrected_keeps | with_reducible apply State.count_keeps
                 | with_reducible apply State.foundUe_keeps | (simp only [keeps_mk]; with_reducible refine Keeps.fold ?_)
                 | with_reducible apply keeps_ite | (split <;> try dsimp only) | with_reducible refine keeps_of_pair (by assumption) ?_
                 | with_reducible refine keeps_of_triple (by assumption) ?_ | with_reducible refine keeps_of_some (by assumption) ?_
                 | with_reducible refine keeps_of_some2 (by assumption) ?_)

theorem State.armedInject_keeps {s0 : State} {s : State} {w : Nat} (h0 : Keeps s0 s) :
    Keeps s0 (State.armedInject s w) := by
  unfold State.armedInject
  try dsimp only
  repeat' (first | with_reducible assumption | with_reducible apply State.setRegF_keeps | with_reducible apply State.setEcc_keeps
                 | with_reducible apply keeps_ite | (split <;> try dsimp only))

theorem State.via_keeps {s0 : State} {s : State} {c : Client} (h0 : Keeps s0 s) :
    Keeps s0 (State.via s c) := by
  unfold State.via
  try dsimp only
  repeat' (first | with_reducible assumption | (intro _; try dsimp only)
                 | (simp only [keeps_mk]; with_reducible refine Keeps.fold ?_) | with_reducible apply keeps_ite)

theorem State.viaFab_keeps {s0 : State} {s : State} {f : State → State} (h0 : Keeps s0 s) (h1 : ∀ t, Keeps s0 t → Keeps s0 (f t)) :
    Keeps s0 (State.viaFab s f) := by
  unfold State.viaFab
  try dsimp only
  repeat' (first | with_reducible assumption | (intro _; try dsimp only) | (with_reducible apply h1)
                 | with_reducible apply State.via_keeps | (simp only [keeps_mk]; with_reducible refine Keeps.fold ?_)
                 | with_reducible apply keeps_ite)

theorem State.arbAsk_keeps {s0 : State} {s : State} {a : Nat} {len : Nat} {data : Option Bytes} (h0 : Keeps s0 s) :
    Keeps s0 (State.arbAsk s a len data) := by
  unfold State.arbAsk
  try dsimp only
  repeat' (first | with_reducible assumption | (intro _; try dsimp only) | with_reducible exact keepsOpt_none
                 | with_reducible exact keepsOpt2_none | with_reducible apply keepsOpt_some | with_reducible apply keepsOpt2_some
                 | with_reducible apply keepsOpt_map | with_reducible apply keepsOpt2_mapPair | with_reducible apply keepsOpt2_map
                 | with_reducible apply keeps_foldl | with_reducible apply keeps_foldl_pair
                 | with_reducible apply keeps_foldl_triple | with_reducible apply keepsOpt_foldl | with_reducible apply keeps_getD
                 | (simp only [keeps_mk]; with_reducible refine Keeps.fold ?_) | with_reducible apply keeps_ite
                 | (split <;> try dsimp only) | with_reducible refine keeps_of_pair (by assumption) ?_
                 | with_reducible refine keeps_of_triple (by assumption) ?_ | with_reducible refine keeps_of_some (by assumption) ?_
                 | with_reducible refine keeps_of_some2 (by assumption) ?_)

theorem State.physRead_keeps {s0 : State} {s : State} {a : Nat} {len : Nat} (h0 : Keeps s0 s) :
    Keeps s0 (State.physRead s a len).2.2 := by
  unfold State.physRead
  try dsimp only
  repeat' (first | with_reducible assumption | (intro _; try dsimp only) | with_reducible apply State.readWord_keeps
                 | with_reducible apply State.arbAsk_keeps | with_reducible apply keeps_foldl
                 | with_reducible apply keeps_foldl_pair | with_reducible apply keeps_foldl_triple
                 | with_reducible apply keepsOpt_foldl | (simp only [keeps_mk]; with_reducible refine Keeps.fold ?_)
                 | with_reducible apply keeps_ite)

theorem State.physStore_keeps {s0 : State} {s : State} {a : Nat} {data : Bytes} (h : Keeps s0 s) : Keeps s0 (s.physStore a data) := by
  unfold State.physStore
  have h1 : Keeps s0 ((wordsOf a data.length).foldl (fun s w =>
      (s.writeWord w (decide (a ≤ w * 32) && decide (w * 32 + 32 ≤ a + data.length))).armedInject w) s) :=
    keeps_foldl h fun x w hx => State.armedInject_keeps (State.writeWord_keeps hx)
  exact ⟨Kept.pending h1, Kept.variant h1, fun w => memPut_wf _ _ _ (Kept.mem h1 w), Kept.regs h1, Kept.svn h1, Kept.cap h1⟩

theorem State.physWrite_keeps {s0 : State} {s : State} {a : Nat} {data : Bytes} (h : Keeps s0 s) : Keeps s0 (s.physWrite a data) := by
  unfold State.physWrite
  dsimp only
  repeat' (first | with_reducible assumption | (intro _; try dsimp only) | with_reducible apply State.arbAsk_keeps
                 | with_reducible apply State.physStore_keeps | with_reducible apply keeps_foldl | with_reducible apply keeps_ite
                 | (split <;> try dsimp only))

theorem State.hbmRead_keeps {s0 : State} {s : State} {a len : Nat} (h0 : Keeps s0 s) :
    Keeps s0 (State.hbmRead s a len).2.2 := by
  unfold State.hbmRead
  try dsimp only
  repeat' (first | with_reducible assumption | (intro _; try dsimp only) | with_reducible apply State.physRead_keeps
                 | with_reducible apply keeps_foldl | with_reducible apply keeps_foldl_pair | with_reducible apply keeps_foldl_triple)

theorem State.hbmWrite_keeps {s0 : State} {s : State} {a : Nat} {data : Bytes} (h0 : Keeps s0 s) :
    Keeps s0 (State.hbmWrite s a data) := by
  unfold State.hbmWrite
  try dsimp only
  repeat' (first | with_reducible assumption | (intro _; try dsimp only) | with_reducible apply State.physWrite_keeps
                 | with_reducible apply keeps_foldl | with_reducible apply keeps_foldl_pair | with_reducible apply keeps_foldl_triple)

theorem State.reencoded_keeps {s0 : State} {s : State} {a : Nat} {len : Nat} (h0 : Keeps s0 s) :
    Keeps s0 (State.reencoded s a len) := by
  unfold State.reencoded
  try dsimp only
  repeat' (first | with_reducible assumption | (intro _; try dsimp only) | with_reducible apply State.ecc_keeps
                 | with_reducible apply State.clearEcc_keeps | with_reducible apply keeps_foldl
                 | with_reducible apply keeps_foldl_pair | with_reducible apply keeps_foldl_triple
                 | with_reducible apply keepsOpt_foldl | (simp only [keeps_mk]; with_reducible refine Keeps.fold ?_)
                 | with_reducible apply keeps_ite | (split <;> try dsimp only)
                 | with_reducible refine keeps_of_pair (by assumption) ?_ | with_reducible refine keeps_of_triple (by assumption) ?_
                 | with_reducible refine keeps_of_some (by assumption) ?_ | with_reducible refine keeps_of_some2 (by assumption) ?_)

theorem State.physAtomic_keeps {s0 : State} {s : State} {a : Nat} {op : Nat} {width : Nat} {operand : Nat} {swap : Nat} (h0 : Keeps s0 s) :
    Keeps s0 (State.physAtomic s a op width operand swap).2 := by
  unfold State.physAtomic
  try dsimp only
  repeat' (first | with_reducible assumption | (intro _; try dsimp only) | with_reducible apply State.physRead_keeps
                 | with_reducible apply State.physWrite_keeps | with_reducible apply State.reencoded_keeps
                 | with_reducible exact keepsOpt_none | with_reducible exact keepsOpt2_none | with_reducible apply keepsOpt_some
                 | with_reducible apply keepsOpt2_some | (simp only [keeps_mk]; with_reducible refine Keeps.fold ?_)
                 | with_reducible apply keeps_ite | (split <;> try dsimp only)
                 | with_reducible refine keeps_of_pair (by assumption) ?_ | with_reducible refine keeps_of_triple (by assumption) ?_
                 | with_reducible refine keeps_of_some (by assumption) ?_ | with_reducible refine keeps_of_some2 (by assumption) ?_)

end Sys2Proof.Machine
end

