-- ==== Sys2Proof/Laws/KeepArbiter.lean ====
section
/-!
SUPPORT. What the operations of Machine/Arbiter.lean keep.
-/

namespace Sys2Proof.Machine

set_option linter.unusedTactic false
set_option linter.unreachableTactic false
set_option linter.unusedVariables false

theorem State.accessEntered_keeps {s0 : State} {s : State} {r : ArbReq} (h0 : Keeps s0 s) :
    Keeps s0 (State.accessEntered s r) := by
  unfold State.accessEntered
  try dsimp only
  repeat' (first | with_reducible assumption | (intro _; try dsimp only) | with_reducible apply State.physStore_keeps
                 | (simp only [keeps_mk]; with_reducible refine Keeps.fold ?_) | with_reducible apply keeps_ite
                 | (split <;> try dsimp only) | with_reducible refine keeps_of_pair (by assumption) ?_
                 | with_reducible refine keeps_of_triple (by assumption) ?_ | with_reducible refine keeps_of_some (by assumption) ?_
                 | with_reducible refine keeps_of_some2 (by assumption) ?_)

theorem State.arbStep_keeps {s0 : State} {s : State} {ch : Nat} {b : Arb} (h0 : Keeps s0 s) :
    Keeps s0 (State.arbStep s ch b) := by
  unfold State.arbStep
  try dsimp only
  repeat' (first | with_reducible assumption | (intro _; try dsimp only) | with_reducible apply State.countN_keeps
                 | with_reducible apply State.accessEntered_keeps | with_reducible apply keeps_foldl
                 | with_reducible apply keeps_foldl_pair | with_reducible apply keeps_foldl_triple
                 | with_reducible apply keepsOpt_foldl | (simp only [keeps_mk]; with_reducible refine Keeps.fold ?_)
                 | with_reducible apply keeps_ite)

theorem State.arbTick_keeps {s0 : State} {s : State} (h0 : Keeps s0 s) :
    Keeps s0 (State.arbTick s) := by
  unfold State.arbTick
  try dsimp only
  repeat' (first | with_reducible assumption | (intro _; try dsimp only) | with_reducible apply State.arbStep_keeps
                 | with_reducible apply keeps_foldl | with_reducible apply keeps_foldl_pair
                 | with_reducible apply keeps_foldl_triple | with_reducible apply keepsOpt_foldl
                 | (simp only [keeps_mk]; with_reducible refine Keeps.fold ?_) | with_reducible apply keeps_ite)

theorem State.withdraw_keeps {s0 : State} {s : State} {k : Nat} {order : Nat} (h0 : Keeps s0 s) :
    Keeps s0 (State.withdraw s k order) := by
  unfold State.withdraw
  try dsimp only
  repeat' (first | with_reducible assumption | (intro _; try dsimp only) | with_reducible apply keepsOpt_map
                 | with_reducible apply keepsOpt2_mapPair | with_reducible apply keepsOpt2_map
                 | (simp only [keeps_mk]; with_reducible refine Keeps.fold ?_) | with_reducible apply keeps_ite
                 | (split <;> try dsimp only) | with_reducible refine keeps_of_pair (by assumption) ?_
                 | with_reducible refine keeps_of_some (by assumption) ?_ | with_reducible refine keeps_of_some2 (by assumption) ?_)

end Sys2Proof.Machine
end

