-- ==== Sys2Proof/Laws/KeepHost.lean ====
section
/-!
SUPPORT. What the operations of Machine/Host.lean keep.
-/

namespace Sys2Proof.Machine

set_option linter.unusedTactic false
set_option linter.unreachableTactic false
set_option linter.unusedVariables false

theorem State.request_keeps {s0 : State} {s : State} {fn len : Nat} {purpose : Purpose} {useInst : Option Nat} {mk : Nat → Out} (h0 : Keeps s0 s) :
    KeepsOpt s0 (State.request s fn len purpose useInst mk) := by
  unfold State.request
  try dsimp only
  repeat' (first | with_reducible assumption | (intro _; try dsimp only) | with_reducible apply State.setPort_keeps
                 | with_reducible apply State.emit_keeps | with_reducible apply keepsOpt_map | with_reducible apply keepsOpt2_mapPair
                 | with_reducible apply keepsOpt2_map | with_reducible exact keepsOpt_none | with_reducible exact keepsOpt2_none
                 | with_reducible apply keepsOpt_some | with_reducible apply keepsOpt2_some | with_reducible apply keeps_foldl
                 | with_reducible apply keeps_foldl_pair | with_reducible apply keeps_foldl_triple
                 | (simp only [keeps_mk]; with_reducible refine Keeps.fold ?_) | with_reducible apply keeps_ite
                 | (split <;> try dsimp only) | with_reducible refine keeps_of_pair (by assumption) ?_
                 | with_reducible refine keeps_of_triple (by assumption) ?_ | with_reducible refine keeps_of_some (by assumption) ?_
                 | with_reducible refine keeps_of_some2 (by assumption) ?_)

theorem State.issueNext_keeps {s0 : State} {s : State} {p : Nat} (h0 : Keeps s0 s) :
    Keeps s0 (State.issueNext s p) := by
  unfold State.issueNext
  try dsimp only
  repeat' (first | with_reducible assumption | (intro _; try dsimp only) | with_reducible apply State.emit_keeps
                 | with_reducible apply State.setPort_keeps | (simp only [keeps_mk]; with_reducible refine Keeps.fold ?_)
                 | with_reducible apply keeps_ite | (split <;> try dsimp only)
                 | with_reducible refine keeps_of_pair (by assumption) ?_ | with_reducible refine keeps_of_triple (by assumption) ?_
                 | with_reducible refine keeps_of_some (by assumption) ?_ | with_reducible refine keeps_of_some2 (by assumption) ?_
                 | with_reducible refine keeps_of_reply (by assumption) ?_ | with_reducible refine keeps_of_wait (by assumption) ?_)

theorem State.giveUp_keeps {s0 : State} {s : State} {p : Nat} {q : Tag → Bool} (h0 : Keeps s0 s) :
    Keeps s0 (State.giveUp s p q) := by
  unfold State.giveUp
  try dsimp only
  repeat' (first | with_reducible assumption | (intro _; try dsimp only) | with_reducible apply State.setPort_keeps
                 | with_reducible apply keepsOpt_map | with_reducible apply keepsOpt2_mapPair | with_reducible apply keepsOpt2_map
                 | (simp only [keeps_mk]; with_reducible refine Keeps.fold ?_) | with_reducible apply keeps_ite)

theorem State.freeTag_keeps {s0 : State} {s : State} {p : Nat} {t : Nat} (h0 : Keeps s0 s) :
    Keeps s0 (State.freeTag s p t) := by
  unfold State.freeTag
  try dsimp only
  repeat' (first | with_reducible assumption | (intro _; try dsimp only) | with_reducible apply State.setPort_keeps
                 | with_reducible apply State.issueNext_keeps | with_reducible apply keepsOpt_map
                 | with_reducible apply keepsOpt2_mapPair | with_reducible apply keepsOpt2_map
                 | (simp only [keeps_mk]; with_reducible refine Keeps.fold ?_) | with_reducible apply keeps_ite)

theorem State.hostRead_keeps {s0 : State} {s : State} {fn addr len : Nat} {peer : Bool} {purpose : Purpose} {useInst : Option Nat} (h0 : Keeps s0 s) :
    KeepsOpt s0 (State.hostRead s fn addr len peer purpose useInst) := by
  unfold State.hostRead
  repeat' (first | with_reducible assumption | (intro _; try dsimp only) | with_reducible apply State.request_keeps
                 | with_reducible exact keepsOpt_none | with_reducible exact keepsOpt2_none | with_reducible apply keepsOpt_some
                 | with_reducible apply keepsOpt2_some)

theorem State.disown_keeps {s0 : State} {s : State} {q : Purpose → Bool} (h0 : Keeps s0 s) :
    Keeps s0 (State.disown s q) := by
  unfold State.disown
  try dsimp only
  repeat' (first | with_reducible assumption | (intro _; try dsimp only) | with_reducible apply keepsOpt_map
                 | with_reducible apply keepsOpt2_mapPair | with_reducible apply keepsOpt2_map
                 | (simp only [keeps_mk]; with_reducible refine Keeps.fold ?_) | with_reducible apply keeps_ite
                 | (split <;> try dsimp only))

theorem State.msix_keeps {s0 : State} {s : State} {fn v : Nat} (h0 : Keeps s0 s) :
    Keeps s0 (State.msix s fn v) := by
  unfold State.msix
  try dsimp only
  repeat' (first | with_reducible assumption | with_reducible apply State.emit_keeps | with_reducible apply State.setFn_keeps
                 | (simp only [keeps_mk]; with_reducible refine Keeps.fold ?_) | with_reducible apply keeps_ite
                 | (split <;> try dsimp only))

theorem State.msixFlush_keeps {s0 : State} {s : State} {fn : Nat} (h0 : Keeps s0 s) :
    Keeps s0 (State.msixFlush s fn) := by
  unfold State.msixFlush
  try dsimp only
  repeat' (first | with_reducible assumption | (intro _; try dsimp only) | with_reducible apply State.setFn_keeps
                 | with_reducible apply State.emit_keeps | with_reducible apply State.msix_keeps | with_reducible apply keeps_foldl
                 | with_reducible apply keeps_foldl_pair | with_reducible apply keeps_foldl_triple
                 | (simp only [keeps_mk]; with_reducible refine Keeps.fold ?_) | with_reducible apply keeps_ite
                 | (split <;> try dsimp only))

end Sys2Proof.Machine
end

