-- ==== Sys2Proof/Laws/KeepXlt.lean ====
section
/-!
SUPPORT. What the operations of Machine/Xlt.lean keep.
-/

namespace Sys2Proof.Machine

set_option linter.unusedTactic false
set_option linter.unreachableTactic false
set_option linter.unusedVariables false

theorem State.logFault_keeps {s0 : State} {s : State} {n iva kind : Nat} (h0 : Keeps s0 s) :
    Keeps s0 (State.logFault s n iva kind) := by
  unfold State.logFault
  try dsimp only
  repeat' (first | with_reducible assumption | with_reducible apply State.count_keeps
                 | (simp only [keeps_mk]; with_reducible refine Keeps.fold ?_))

theorem State.readLine_keeps {s0 : State} {s : State} {i : Inst} {l : Nat} {iva : Nat} (h0 : Keeps s0 s) :
    Keeps s0 (State.readLine s i l iva).2 := by
  unfold State.readLine
  try dsimp only
  repeat' (first | with_reducible assumption | (intro _; try dsimp only) | with_reducible apply State.count_keeps
                 | with_reducible apply State.via_keeps | with_reducible apply State.physRead_keeps
                 | with_reducible apply keeps_getD | (simp only [keeps_mk]; with_reducible refine Keeps.fold ?_)
                 | with_reducible apply keeps_ite)

theorem State.cacheTable_keeps {s0 : State} {s : State} {n : Nat} {gen : Nat} {l : Nat} {iva : Nat} (h0 : Keeps s0 s) :
    Keeps s0 (State.cacheTable s n gen l iva) := by
  unfold State.cacheTable
  try dsimp only
  repeat' (first | with_reducible assumption | (intro _; try dsimp only) | with_reducible apply State.drawn_keeps
                 | (simp only [keeps_mk]; with_reducible refine Keeps.fold ?_) | with_reducible apply keeps_ite)

theorem State.walkFrom_keeps {s0 : State} {s : State} {n : Nat} {i : Inst} {iva : Nat} {y0 : Nat} (h0 : Keeps s0 s) :
    Keeps s0 (State.walkFrom s n i iva y0).2 := by
  induction y0 generalizing s n i iva with
  | zero =>
    unfold State.walkFrom
    try dsimp only
    repeat' (first | with_reducible assumption | (intro _; try dsimp only) | with_reducible apply State.elog_keeps
                   | with_reducible apply State.readLine_keeps | with_reducible apply State.cacheTable_keeps
                   | with_reducible apply keepsOpt_map | with_reducible apply keepsOpt2_mapPair | with_reducible apply keepsOpt2_map
                   | with_reducible apply keeps_getD | (simp only [keeps_mk]; with_reducible refine Keeps.fold ?_)
                   | with_reducible apply keeps_ite | (split <;> try dsimp only)
                   | with_reducible refine keeps_of_pair (by assumption) ?_
                   | with_reducible refine keeps_of_triple (by assumption) ?_
                   | with_reducible refine keeps_of_some (by assumption) ?_
                   | with_reducible refine keeps_of_some2 (by assumption) ?_)
  | succ _ ih =>
    unfold State.walkFrom
    try dsimp only
    repeat' (first | with_reducible assumption | (intro _; try dsimp only) | with_reducible apply ih
                   | with_reducible apply State.elog_keeps | with_reducible apply State.readLine_keeps
                   | with_reducible apply State.cacheTable_keeps | with_reducible apply keepsOpt_map
                   | with_reducible apply keepsOpt2_mapPair | with_reducible apply keepsOpt2_map | with_reducible apply keeps_getD
                   | (simp only [keeps_mk]; with_reducible refine Keeps.fold ?_) | with_reducible apply keeps_ite
                   | (split <;> try dsimp only) | with_reducible refine keeps_of_pair (by assumption) ?_
                   | with_reducible refine keeps_of_triple (by assumption) ?_
                   | with_reducible refine keeps_of_some (by assumption) ?_
                   | with_reducible refine keeps_of_some2 (by assumption) ?_)

theorem State.fillTlb_keeps {s0 : State} {s : State} {n : Nat} {gen : Nat} {e : Nat × Leaf} (h0 : Keeps s0 s) :
    Keeps s0 (State.fillTlb s n gen e) := by
  unfold State.fillTlb
  try dsimp only
  repeat' (first | with_reducible assumption | (intro _; try dsimp only) | with_reducible apply State.drawn_keeps
                 | (simp only [keeps_mk]; with_reducible refine Keeps.fold ?_) | with_reducible apply keeps_ite)

theorem State.tlbServed_keeps {s0 : State} {s : State} {e : TlbEntry} (h0 : Keeps s0 s) :
    Keeps s0 (State.tlbServed s e) := by
  unfold State.tlbServed
  try dsimp only
  repeat' (first | with_reducible assumption | (intro _; try dsimp only) | with_reducible apply State.count_keeps
                 | (simp only [keeps_mk]; with_reducible refine Keeps.fold ?_) | with_reducible apply keeps_ite)

theorem State.answer_keeps {s0 : State} {s : State} {n iva : Nat} {acc : Access} {start : Nat} {l : Leaf} (h0 : Keeps s0 s) :
    Keeps s0 (State.answer s n iva acc start l).2 := by
  unfold State.answer
  try dsimp only
  repeat' (first | with_reducible assumption | with_reducible apply State.logFault_keeps
                 | (simp only [keeps_mk]; with_reducible refine Keeps.fold ?_) | with_reducible apply keeps_ite
                 | (split <;> try dsimp only) | with_reducible refine keeps_of_pair (by assumption) ?_
                 | with_reducible refine keeps_of_triple (by assumption) ?_ | with_reducible refine keeps_of_some (by assumption) ?_
                 | with_reducible refine keeps_of_some2 (by assumption) ?_)

theorem State.serveMiss_keeps {s0 : State} {s : State} {w : Walk} (h0 : Keeps s0 s) :
    KeepsOpt s0 (State.serveMiss s w) := by
  unfold State.serveMiss
  try dsimp only
  repeat' (first | with_reducible assumption | (intro _; try dsimp only) | with_reducible exact keepsOpt_none
                 | with_reducible exact keepsOpt2_none | with_reducible apply keepsOpt_some | with_reducible apply keepsOpt2_some
                 | (simp only [keeps_mk]; with_reducible refine Keeps.fold ?_) | with_reducible apply keeps_ite
                 | (split <;> try dsimp only) | with_reducible refine keeps_of_pair (by assumption) ?_
                 | with_reducible refine keeps_of_triple (by assumption) ?_ | with_reducible refine keeps_of_some (by assumption) ?_
                 | with_reducible refine keeps_of_some2 (by assumption) ?_ | with_reducible refine keeps_of_reply (by assumption) ?_
                 | with_reducible refine keeps_of_wait (by assumption) ?_)

theorem State.startWalk_keeps {s0 : State} {s : State} {who : Purpose} {n : Nat} {i : Inst} {iva : Nat} (h0 : Keeps s0 s) :
    Keeps s0 (State.startWalk s who n i iva) := by
  unfold State.startWalk
  try dsimp only
  repeat' (first | with_reducible assumption | (intro _; try dsimp only) | with_reducible apply State.serveMiss_keeps
                 | with_reducible apply keeps_getD | (simp only [keeps_mk]; with_reducible refine Keeps.fold ?_)
                 | with_reducible apply keeps_ite)

theorem State.lookup_keeps {s0 : State} {s : State} {who : Purpose} {n : Nat} {iva : Nat} {acc : Access} (h0 : Keeps s0 s) :
    Keeps s0 (State.lookup s who n iva acc).2 := by
  unfold State.lookup
  try dsimp only
  repeat' (first | with_reducible assumption | (intro _; try dsimp only) | with_reducible apply State.count_keeps
                 | with_reducible apply State.logFault_keeps | with_reducible apply State.tlbServed_keeps
                 | with_reducible apply State.answer_keeps | with_reducible apply State.startWalk_keeps
                 | (simp only [keeps_mk]; with_reducible refine Keeps.fold ?_) | with_reducible apply keeps_ite
                 | (split <;> try dsimp only) | with_reducible refine keeps_of_pair (by assumption) ?_
                 | with_reducible refine keeps_of_triple (by assumption) ?_ | with_reducible refine keeps_of_some (by assumption) ?_
                 | with_reducible refine keeps_of_some2 (by assumption) ?_ | with_reducible refine keeps_of_reply (by assumption) ?_
                 | with_reducible refine keeps_of_wait (by assumption) ?_)

theorem State.lookupNow_keeps {s0 : State} {s : State} {n : Nat} {iva : Nat} {acc : Access} (h0 : Keeps s0 s) :
    Keeps s0 (State.lookupNow s n iva acc).2 := by
  unfold State.lookupNow
  try dsimp only
  repeat' (first | with_reducible assumption | (intro _; try dsimp only) | with_reducible apply State.count_keeps
                 | with_reducible apply State.logFault_keeps | with_reducible apply State.walkFrom_keeps
                 | with_reducible apply State.fillTlb_keeps | with_reducible apply State.tlbServed_keeps
                 | with_reducible apply State.answer_keeps | (simp only [keeps_mk]; with_reducible refine Keeps.fold ?_)
                 | with_reducible apply keeps_ite | (split <;> try dsimp only)
                 | with_reducible refine keeps_of_pair (by assumption) ?_ | with_reducible refine keeps_of_triple (by assumption) ?_
                 | with_reducible refine keeps_of_some (by assumption) ?_ | with_reducible refine keeps_of_some2 (by assumption) ?_)

theorem serveMisses_keeps {s0 : State} {y0 : List Walk} {y1 : State} (h0 : Keeps s0 y1) :
    Keeps s0 (serveMisses y0 y1) := by
  induction y0 generalizing y1 with
  | nil =>
    unfold serveMisses
    try dsimp only
    repeat' (first | with_reducible assumption | (intro _; try dsimp only) | with_reducible apply State.serveMiss_keeps
                   | (simp only [keeps_mk]; with_reducible refine Keeps.fold ?_) | with_reducible apply keeps_ite
                   | (split <;> try dsimp only) | with_reducible refine keeps_of_pair (by assumption) ?_
                   | with_reducible refine keeps_of_triple (by assumption) ?_
                   | with_reducible refine keeps_of_some (by assumption) ?_
                   | with_reducible refine keeps_of_some2 (by assumption) ?_)
  | cons _ _ ih =>
    unfold serveMisses
    try dsimp only
    repeat' (first | with_reducible assumption | (intro _; try dsimp only) | with_reducible apply ih
                   | with_reducible apply State.serveMiss_keeps | (simp only [keeps_mk]; with_reducible refine Keeps.fold ?_)
                   | with_reducible apply keeps_ite | (split <;> try dsimp only)
                   | with_reducible refine keeps_of_pair (by assumption) ?_
                   | with_reducible refine keeps_of_triple (by assumption) ?_
                   | with_reducible refine keeps_of_some (by assumption) ?_
                   | with_reducible refine keeps_of_some2 (by assumption) ?_)

theorem State.linesRead_keeps {s0 : State} {s : State} {w : Walk} (h0 : Keeps s0 s) :
    Keeps s0 (State.linesRead s w) := by
  unfold State.linesRead
  try dsimp only
  repeat' (first | with_reducible assumption | (intro _; try dsimp only) | with_reducible apply State.drawn_keeps
                 | with_reducible apply State.countN_keeps | (simp only [keeps_mk]; with_reducible refine Keeps.fold ?_)
                 | with_reducible apply keeps_ite)

theorem State.walkerFree_keeps {s0 : State} {s : State} {k : Nat} (h0 : Keeps s0 s) :
    Keeps s0 (State.walkerFree s k) := by
  unfold State.walkerFree
  try dsimp only
  repeat' (first | with_reducible assumption | (intro _; try dsimp only) | with_reducible apply serveMisses_keeps
                 | (simp only [keeps_mk]; with_reducible refine Keeps.fold ?_) | with_reducible apply keeps_ite)

theorem State.walkEnds_keeps {s0 : State} {s : State} {w : Walk} {leaf : Option (Nat × Leaf)} {fault : Nat} (h0 : Keeps s0 s) :
    Keeps s0 (State.walkEnds s w leaf fault) := by
  unfold State.walkEnds
  try dsimp only
  repeat' (first | with_reducible assumption | (intro _; try dsimp only) | with_reducible apply keepsOpt_map
                 | with_reducible apply keepsOpt2_mapPair | with_reducible apply keepsOpt2_map
                 | (simp only [keeps_mk]; with_reducible refine Keeps.fold ?_) | with_reducible apply keeps_ite
                 | (split <;> try dsimp only) | with_reducible refine keeps_of_pair (by assumption) ?_
                 | with_reducible refine keeps_of_triple (by assumption) ?_ | with_reducible refine keeps_of_some (by assumption) ?_
                 | with_reducible refine keeps_of_some2 (by assumption) ?_ | with_reducible refine keeps_of_reply (by assumption) ?_
                 | with_reducible refine keeps_of_wait (by assumption) ?_)

theorem State.walkDone_keeps {s0 : State} {s : State} {k : Nat} (h0 : Keeps s0 s) :
    Keeps s0 (State.walkDone s k) := by
  unfold State.walkDone
  try dsimp only
  repeat' (first | with_reducible assumption | (intro _; try dsimp only) | with_reducible apply State.walkFrom_keeps
                 | with_reducible apply State.fillTlb_keeps | with_reducible apply State.linesRead_keeps
                 | with_reducible apply State.walkerFree_keeps | with_reducible apply State.walkEnds_keeps
                 | (simp only [keeps_mk]; with_reducible refine Keeps.fold ?_) | with_reducible apply keeps_ite
                 | (split <;> try dsimp only) | with_reducible refine keeps_of_pair (by assumption) ?_
                 | with_reducible refine keeps_of_triple (by assumption) ?_ | with_reducible refine keeps_of_some (by assumption) ?_
                 | with_reducible refine keeps_of_some2 (by assumption) ?_)

theorem State.forgetEnds_keeps {s0 : State} {s : State} {n : Nat} {lo : Nat} {hi : Nat} (h0 : Keeps s0 s) :
    Keeps s0 (State.forgetEnds s n lo hi) := by
  unfold State.forgetEnds
  try dsimp only
  repeat' (first | with_reducible assumption | (intro _; try dsimp only)
                 | (simp only [keeps_mk]; with_reducible refine Keeps.fold ?_) | with_reducible apply keeps_ite)

theorem State.invalidate_keeps {s0 : State} {s : State} {n : Nat} {lo : Nat} {hi : Nat} (h0 : Keeps s0 s) :
    Keeps s0 (State.invalidate s n lo hi) := by
  unfold State.invalidate
  try dsimp only
  repeat' (first | with_reducible assumption | (intro _; try dsimp only) | with_reducible apply State.forgetEnds_keeps
                 | (simp only [keeps_mk]; with_reducible refine Keeps.fold ?_) | with_reducible apply keeps_ite)

theorem State.invalidateAll_keeps {s0 : State} {s : State} (h0 : Keeps s0 s) :
    Keeps s0 (State.invalidateAll s) := by
  unfold State.invalidateAll
  try dsimp only
  repeat' (first | with_reducible assumption | (simp only [keeps_mk]; with_reducible refine Keeps.fold ?_))

theorem State.setSlot_keeps {s0 : State} {s : State} {n k : Nat} {d : DirtySlot} (h0 : Keeps s0 s) :
    Keeps s0 (State.setSlot s n k d) := by
  unfold State.setSlot
  try dsimp only
  repeat' (first | with_reducible assumption | (intro _; try dsimp only) | with_reducible apply State.updInst_keeps
                 | (simp only [keeps_mk]; with_reducible refine Keeps.fold ?_))

theorem State.dirtyFull_keeps {s0 : State} {s : State} {issuer : Nat} (h0 : Keeps s0 s) :
    Keeps s0 (State.dirtyFull s issuer) := by
  unfold State.dirtyFull
  try dsimp only
  repeat' (first | with_reducible assumption | with_reducible apply State.drawn_keeps | with_reducible apply State.raise_keeps)

theorem State.addNewBits_keeps {s0 : State} {s : State} {n k added : Nat} (h0 : Keeps s0 s) :
    Keeps s0 (State.addNewBits s n k added) := by
  unfold State.addNewBits
  try dsimp only
  repeat' (first | with_reducible assumption | with_reducible apply State.setSlot_keeps | with_reducible apply State.dirtyFull_keeps
                 | (simp only [keeps_mk]; with_reducible refine Keeps.fold ?_) | with_reducible apply keeps_ite
                 | (split <;> try dsimp only) | with_reducible refine keeps_of_pair (by assumption) ?_
                 | with_reducible refine keeps_of_triple (by assumption) ?_ | with_reducible refine keeps_of_some (by assumption) ?_
                 | with_reducible refine keeps_of_some2 (by assumption) ?_)

theorem State.dirtyBase_keeps {s0 : State} {s : State} {n k line base : Nat} (h0 : Keeps s0 s) :
    Keeps s0 (State.dirtyBase s n k line base) := by
  unfold State.dirtyBase
  try dsimp only
  repeat' (first | with_reducible assumption | (intro _; try dsimp only) | with_reducible apply State.setSlot_keeps
                 | with_reducible apply State.addNewBits_keeps | with_reducible apply keepsOpt_bind
                 | (simp only [keeps_mk]; with_reducible refine Keeps.fold ?_) | with_reducible apply keeps_ite
                 | (split <;> try dsimp only) | with_reducible refine keeps_of_pair (by assumption) ?_
                 | with_reducible refine keeps_of_triple (by assumption) ?_ | with_reducible refine keeps_of_some (by assumption) ?_
                 | with_reducible refine keeps_of_some2 (by assumption) ?_)

theorem State.dirtyStop_keeps {s0 : State} {s : State} {n k : Nat} (h0 : Keeps s0 s) :
    Keeps s0 (State.dirtyStop s n k) := by
  unfold State.dirtyStop
  try dsimp only
  repeat' (first | with_reducible assumption | (intro _; try dsimp only) | with_reducible apply State.setSlot_keeps
                 | with_reducible apply State.setFlag_keeps | with_reducible apply State.dirtyFull_keeps
                 | with_reducible apply keepsOpt_bind | (simp only [keeps_mk]; with_reducible refine Keeps.fold ?_)
                 | with_reducible apply keeps_ite | (split <;> try dsimp only) | with_reducible refine keeps_of_pair (by assumption) ?_
                 | with_reducible refine keeps_of_triple (by assumption) ?_ | with_reducible refine keeps_of_some (by assumption) ?_
                 | with_reducible refine keeps_of_some2 (by assumption) ?_)

theorem State.dirtyWriteBack_keeps {s0 : State} {s : State} {n : Nat} {k : Nat} {line : Nat} (h0 : Keeps s0 s) :
    Keeps s0 (State.dirtyWriteBack s n k line) := by
  unfold State.dirtyWriteBack
  try dsimp only
  repeat' (first | with_reducible assumption | (intro _; try dsimp only) | with_reducible apply State.emit_keeps
                 | with_reducible apply State.viaFab_keeps | with_reducible apply State.hbmWrite_keeps
                 | with_reducible apply State.lookupNow_keeps | with_reducible apply State.setSlot_keeps
                 | with_reducible apply State.dirtyStop_keeps | with_reducible apply keepsOpt_bind
                 | with_reducible apply keepsOpt_map | with_reducible apply keepsOpt2_mapPair | with_reducible apply keepsOpt2_map
                 | (simp only [keeps_mk]; with_reducible refine Keeps.fold ?_) | with_reducible apply keeps_ite
                 | (split <;> try dsimp only) | with_reducible refine keeps_of_pair (by assumption) ?_
                 | with_reducible refine keeps_of_triple (by assumption) ?_ | with_reducible refine keeps_of_some (by assumption) ?_
                 | with_reducible refine keeps_of_some2 (by assumption) ?_)

theorem State.dirtyFree_keeps {s0 : State} {s : State} {n k : Nat} (h0 : Keeps s0 s) :
    Keeps s0 (State.dirtyFree s n k) := by
  unfold State.dirtyFree
  try dsimp only
  repeat' (first | with_reducible assumption | (intro _; try dsimp only) | with_reducible apply State.updInst_keeps
                 | (simp only [keeps_mk]; with_reducible refine Keeps.fold ?_) | with_reducible apply keeps_ite
                 | (split <;> try dsimp only) | with_reducible refine keeps_of_pair (by assumption) ?_
                 | with_reducible refine keeps_of_triple (by assumption) ?_ | with_reducible refine keeps_of_some (by assumption) ?_
                 | with_reducible refine keeps_of_some2 (by assumption) ?_)

theorem State.dirtyRoom_keeps {s0 : State} {s : State} (h0 : Keeps s0 s) :
    KeepsOpt s0 (State.dirtyRoom s) := by
  unfold State.dirtyRoom
  try dsimp only
  repeat' (first | with_reducible assumption | (intro _; try dsimp only) | with_reducible apply State.dirtyWriteBack_keeps
                 | with_reducible exact keepsOpt_none | with_reducible exact keepsOpt2_none | with_reducible apply keepsOpt_some
                 | with_reducible apply keepsOpt2_some | with_reducible apply keepsOpt_map | with_reducible apply keepsOpt2_mapPair
                 | with_reducible apply keepsOpt2_map | (simp only [keeps_mk]; with_reducible refine Keeps.fold ?_)
                 | with_reducible apply keeps_ite | (split <;> try dsimp only)
                 | with_reducible refine keeps_of_pair (by assumption) ?_ | with_reducible refine keeps_of_some (by assumption) ?_
                 | with_reducible refine keeps_of_some2 (by assumption) ?_)

theorem State.dirtyLineFail_keeps {s0 : State} {s : State} {n : Nat} {k : Nat} {line : Nat} (h0 : Keeps s0 s) :
    Keeps s0 (State.dirtyLineFail s n k line) := by
  unfold State.dirtyLineFail
  try dsimp only
  repeat' (first | with_reducible assumption | (intro _; try dsimp only) | with_reducible apply State.updInst_keeps
                 | with_reducible apply State.dirtyStop_keeps | with_reducible apply State.dirtyFree_keeps
                 | (simp only [keeps_mk]; with_reducible refine Keeps.fold ?_) | with_reducible apply keeps_ite)

theorem State.dirtyLoad_keeps {s0 : State} {s : State} {n : Nat} {k : Nat} {line : Nat} (h0 : Keeps s0 s) :
    Keeps s0 (State.dirtyLoad s n k line) := by
  unfold State.dirtyLoad
  try dsimp only
  repeat' (first | with_reducible assumption | (intro _; try dsimp only) | with_reducible apply State.via_keeps
                 | with_reducible apply State.hbmRead_keeps | with_reducible apply State.hostRead_keeps
                 | with_reducible apply State.lookupNow_keeps | with_reducible apply State.dirtyBase_keeps
                 | with_reducible apply State.dirtyLineFail_keeps | with_reducible apply keepsOpt_bind
                 | with_reducible apply keepsOpt_map | with_reducible apply keepsOpt2_mapPair | with_reducible apply keepsOpt2_map
                 | with_reducible apply keeps_getD | (simp only [keeps_mk]; with_reducible refine Keeps.fold ?_)
                 | with_reducible apply keeps_ite | (split <;> try dsimp only)
                 | with_reducible refine keeps_of_pair (by assumption) ?_ | with_reducible refine keeps_of_triple (by assumption) ?_
                 | with_reducible refine keeps_of_some (by assumption) ?_ | with_reducible refine keeps_of_some2 (by assumption) ?_)

theorem State.dirtyBit_keeps {s0 : State} {s : State} {n : Nat} {k : Nat} {page : Nat} (h0 : Keeps s0 s) :
    Keeps s0 (State.dirtyBit s n k page) := by
  unfold State.dirtyBit
  try dsimp only
  repeat' (first | with_reducible assumption | (intro _; try dsimp only) | with_reducible apply State.updInst_keeps
                 | with_reducible apply State.setSlot_keeps | with_reducible apply State.addNewBits_keeps
                 | with_reducible apply State.dirtyRoom_keeps | with_reducible apply State.dirtyLoad_keeps
                 | with_reducible apply keepsOpt_bind | with_reducible apply keepsOpt_map | with_reducible apply keepsOpt2_mapPair
                 | with_reducible apply keepsOpt2_map | (simp only [keeps_mk]; with_reducible refine Keeps.fold ?_)
                 | with_reducible apply keeps_ite | (split <;> try dsimp only)
                 | with_reducible refine keeps_of_pair (by assumption) ?_ | with_reducible refine keeps_of_triple (by assumption) ?_
                 | with_reducible refine keeps_of_some (by assumption) ?_ | with_reducible refine keeps_of_some2 (by assumption) ?_)

theorem State.dirtyServe_keeps {s0 : State} {s : State} (h0 : Keeps s0 s) :
    Keeps s0 (State.dirtyServe s) := by
  unfold State.dirtyServe
  try dsimp only
  repeat' (first | with_reducible assumption | (intro _; try dsimp only) | with_reducible apply State.dirtyBit_keeps
                 | with_reducible apply keeps_foldl | with_reducible apply keeps_foldl_pair
                 | with_reducible apply keeps_foldl_triple | with_reducible apply keepsOpt_foldl
                 | (simp only [keeps_mk]; with_reducible refine Keeps.fold ?_) | with_reducible apply keeps_ite)

theorem State.dirtyFlush_keeps {s0 : State} {s : State} {n : Nat} {k : Nat} (h0 : Keeps s0 s) :
    Keeps s0 (State.dirtyFlush s n k) := by
  unfold State.dirtyFlush
  try dsimp only
  repeat' (first | with_reducible assumption | (intro _; try dsimp only) | with_reducible apply State.dirtyWriteBack_keeps
                 | with_reducible apply State.dirtyServe_keeps | with_reducible apply keepsOpt_bind
                 | with_reducible apply keepsOpt_map | with_reducible apply keepsOpt2_mapPair | with_reducible apply keepsOpt2_map
                 | with_reducible apply keeps_foldl | with_reducible apply keeps_foldl_pair
                 | with_reducible apply keeps_foldl_triple | with_reducible apply keepsOpt_foldl
                 | (simp only [keeps_mk]; with_reducible refine Keeps.fold ?_) | with_reducible apply keeps_ite
                 | (split <;> try dsimp only) | with_reducible refine keeps_of_pair (by assumption) ?_
                 | with_reducible refine keeps_of_triple (by assumption) ?_ | with_reducible refine keeps_of_some (by assumption) ?_
                 | with_reducible refine keeps_of_some2 (by assumption) ?_)

theorem State.dirtyClose_keeps {s0 : State} {s : State} {n k : Nat} (h0 : Keeps s0 s) :
    Keeps s0 (State.dirtyClose s n k) := by
  unfold State.dirtyClose
  try dsimp only
  repeat' (first | with_reducible assumption | (intro _; try dsimp only) | with_reducible apply State.updInst_keeps
                 | with_reducible apply State.dirtyFlush_keeps | with_reducible apply State.dirtyFree_keeps
                 | (simp only [keeps_mk]; with_reducible refine Keeps.fold ?_))

theorem State.dirtyArrived_keeps {s0 : State} {s : State} {n : Nat} {k : Nat} {line : Nat} {data : Option Bytes} (h0 : Keeps s0 s) :
    Keeps s0 (State.dirtyArrived s n k line data) := by
  unfold State.dirtyArrived
  try dsimp only
  repeat' (first | with_reducible assumption | (intro _; try dsimp only) | with_reducible apply State.dirtyBase_keeps
                 | with_reducible apply State.dirtyWriteBack_keeps | with_reducible apply State.dirtyFree_keeps
                 | with_reducible apply State.dirtyLineFail_keeps | with_reducible apply State.dirtyServe_keeps
                 | with_reducible apply keepsOpt_bind | with_reducible apply keepsOpt_map | with_reducible apply keepsOpt2_mapPair
                 | with_reducible apply keepsOpt2_map | (simp only [keeps_mk]; with_reducible refine Keeps.fold ?_)
                 | with_reducible apply keeps_ite | (split <;> try dsimp only)
                 | with_reducible refine keeps_of_pair (by assumption) ?_ | with_reducible refine keeps_of_triple (by assumption) ?_
                 | with_reducible refine keeps_of_some (by assumption) ?_ | with_reducible refine keeps_of_some2 (by assumption) ?_)

theorem State.logDirty_keeps {s0 : State} {s : State} {n iva len : Nat} (h0 : Keeps s0 s) :
    Keeps s0 (State.logDirty s n iva len) := by
  unfold State.logDirty
  try dsimp only
  repeat' (first | with_reducible assumption | (intro _; try dsimp only) | with_reducible apply State.dirtyBit_keeps
                 | with_reducible apply keeps_foldl | with_reducible apply keeps_foldl_pair | with_reducible apply keeps_foldl_triple
                 | (simp only [keeps_mk]; with_reducible refine Keeps.fold ?_) | with_reducible apply keeps_ite
                 | (split <;> try dsimp only) | with_reducible refine keeps_of_pair (by assumption) ?_
                 | with_reducible refine keeps_of_triple (by assumption) ?_ | with_reducible refine keeps_of_some (by assumption) ?_
                 | with_reducible refine keeps_of_some2 (by assumption) ?_)

theorem State.doWrite_keeps {s0 : State} {s : State} {x : HeldWrite} (h0 : Keeps s0 s) :
    Keeps s0 (State.doWrite s x) := by
  unfold State.doWrite
  try dsimp only
  repeat' (first | with_reducible assumption | (intro _; try dsimp only) | with_reducible apply State.emit_keeps
                 | with_reducible apply State.hbmWrite_keeps | (simp only [keeps_mk]; with_reducible refine Keeps.fold ?_)
                 | with_reducible apply keeps_ite | (split <;> try dsimp only)
                 | with_reducible refine keeps_of_pair (by assumption) ?_ | with_reducible refine keeps_of_some (by assumption) ?_
                 | with_reducible refine keeps_of_some2 (by assumption) ?_)

theorem State.writeOrHold_keeps {s0 : State} {s : State} {x : HeldWrite} (h0 : Keeps s0 s) :
    Keeps s0 (State.writeOrHold s x) := by
  unfold State.writeOrHold
  try dsimp only
  repeat' (first | with_reducible assumption | (intro _; try dsimp only) | with_reducible apply State.doWrite_keeps
                 | (simp only [keeps_mk]; with_reducible refine Keeps.fold ?_) | with_reducible apply keeps_ite
                 | (split <;> try dsimp only) | with_reducible refine keeps_of_pair (by assumption) ?_
                 | with_reducible refine keeps_of_some (by assumption) ?_ | with_reducible refine keeps_of_some2 (by assumption) ?_)

theorem State.heldWrites_keeps {s0 : State} {s : State} (h0 : Keeps s0 s) :
    Keeps s0 (State.heldWrites s) := by
  unfold State.heldWrites
  try dsimp only
  repeat' (first | with_reducible assumption | (intro _; try dsimp only) | with_reducible apply State.issueNext_keeps
                 | with_reducible apply State.writeOrHold_keeps | with_reducible apply keeps_foldl
                 | with_reducible apply keeps_foldl_pair | with_reducible apply keeps_foldl_triple
                 | with_reducible apply keepsOpt_foldl | (simp only [keeps_mk]; with_reducible refine Keeps.fold ?_)
                 | with_reducible apply keeps_ite | (split <;> try dsimp only)
                 | with_reducible refine keeps_of_pair (by assumption) ?_ | with_reducible refine keeps_of_triple (by assumption) ?_
                 | with_reducible refine keeps_of_some (by assumption) ?_ | with_reducible refine keeps_of_some2 (by assumption) ?_)

theorem State.ivaWritePiece_keeps {s0 : State} {s : State} {n : Nat} {iva : Nat} {data : Bytes} {payload : Bool} (h0 : Keeps s0 s) :
    Keeps s0 (State.ivaWritePiece s n iva data payload).2 := by
  unfold State.ivaWritePiece
  try dsimp only
  repeat' (first | with_reducible assumption | (intro _; try dsimp only) | with_reducible apply State.lookupNow_keeps
                 | with_reducible apply State.logDirty_keeps | with_reducible apply State.writeOrHold_keeps
                 | with_reducible exact keepsOpt_none | with_reducible exact keepsOpt2_none | with_reducible apply keepsOpt_some
                 | with_reducible apply keepsOpt2_some | (simp only [keeps_mk]; with_reducible refine Keeps.fold ?_)
                 | with_reducible apply keeps_ite | (split <;> try dsimp only)
                 | with_reducible refine keeps_of_pair (by assumption) ?_ | with_reducible refine keeps_of_triple (by assumption) ?_
                 | with_reducible refine keeps_of_some (by assumption) ?_ | with_reducible refine keeps_of_some2 (by assumption) ?_
                 | with_reducible refine keeps_of_reply (by assumption) ?_ | with_reducible refine keeps_of_wait (by assumption) ?_)

theorem State.ivaWritePieces_keeps {s0 : State} {n iva : Nat} {data : Bytes} {payload : Bool} {fuel : List (Nat × Nat)} {y1 : State} (h0 : Keeps s0 y1) :
    Keeps s0 (State.ivaWritePieces n iva data payload fuel y1).2 := by
  induction fuel generalizing n iva data payload y1 with
  | nil =>
    unfold State.ivaWritePieces
    try dsimp only
    repeat' (first | with_reducible assumption | with_reducible apply State.ivaWritePiece_keeps | with_reducible exact keepsOpt_none
                   | with_reducible exact keepsOpt2_none | with_reducible apply keepsOpt_some | with_reducible apply keepsOpt2_some
                   | (simp only [keeps_mk]; with_reducible refine Keeps.fold ?_) | with_reducible apply keeps_ite
                   | (split <;> try dsimp only) | with_reducible refine keeps_of_pair (by assumption) ?_
                   | with_reducible refine keeps_of_triple (by assumption) ?_ | with_reducible refine keeps_of_some (by assumption) ?_
                   | with_reducible refine keeps_of_some2 (by assumption) ?_)
  | cons _ _ ih =>
    unfold State.ivaWritePieces
    try dsimp only
    repeat' (first | with_reducible assumption
                   | with_reducible apply ih | with_reducible apply State.ivaWritePiece_keeps | with_reducible exact keepsOpt_none
                   | with_reducible exact keepsOpt2_none | with_reducible apply keepsOpt_some | with_reducible apply keepsOpt2_some
                   | (simp only [keeps_mk]; with_reducible refine Keeps.fold ?_) | with_reducible apply keeps_ite
                   | (split <;> try dsimp only) | with_reducible refine keeps_of_pair (by assumption) ?_
                   | with_reducible refine keeps_of_triple (by assumption) ?_ | with_reducible refine keeps_of_some (by assumption) ?_
                   | with_reducible refine keeps_of_some2 (by assumption) ?_)

theorem State.ivaWrite_keeps {s0 : State} {s : State} {n iva : Nat} {data : Bytes} {payload : Bool} (h0 : Keeps s0 s) :
    Keeps s0 (State.ivaWrite s n iva data payload).2 := by
  unfold State.ivaWrite
  repeat' (first | with_reducible assumption | with_reducible apply State.ivaWritePieces_keeps | with_reducible exact keepsOpt_none
                 | with_reducible exact keepsOpt2_none | with_reducible apply keepsOpt_some | with_reducible apply keepsOpt2_some)

theorem State.readPiece_keeps {s0 : State} {s : State} {n : Nat} {fn : Nat} {iva : Nat} {now : Bool} {purpose : Nat → Purpose} {b : RBuf} {off : Nat} {len : Nat} (h0 : Keeps s0 s) :
    Keeps s0 (State.readPiece s n fn iva now purpose b off len).2 := by
  unfold State.readPiece
  try dsimp only
  repeat' (first | with_reducible assumption | (intro _; try dsimp only) | with_reducible apply State.hbmRead_keeps
                 | with_reducible apply State.hostRead_keeps | with_reducible apply State.lookup_keeps
                 | with_reducible apply State.lookupNow_keeps | with_reducible exact keepsOpt_none
                 | with_reducible exact keepsOpt2_none | with_reducible apply keepsOpt_some | with_reducible apply keepsOpt2_some
                 | (simp only [keeps_mk]; with_reducible refine Keeps.fold ?_) | with_reducible apply keeps_ite
                 | (split <;> try dsimp only) | with_reducible refine keeps_of_pair (by assumption) ?_
                 | with_reducible refine keeps_of_triple (by assumption) ?_ | with_reducible refine keeps_of_some (by assumption) ?_
                 | with_reducible refine keeps_of_some2 (by assumption) ?_ | with_reducible refine keeps_of_reply (by assumption) ?_
                 | with_reducible refine keeps_of_wait (by assumption) ?_)

theorem State.readPiece_keeps1 {s0 : State} {s : State} {n fn iva : Nat} {now : Bool} {purpose : Nat → Purpose} {b : RBuf} {off len : Nat}
    (h0 : Keeps s0 s) : KeepsOpt2 s0 (State.readPiece s n fn iva now purpose b off len).1 := by
  unfold State.readPiece
  repeat' (first | with_reducible assumption
                 | with_reducible apply State.lookupNow_keeps | with_reducible apply State.lookup_keeps | with_reducible apply State.hostRead_keeps
                 | with_reducible apply State.hbmRead_keeps | with_reducible exact keepsOpt2_none
                 | with_reducible apply keepsOpt2_some | (split <;> try dsimp only)
                 | with_reducible refine keeps_of_pair (by assumption) ?_ | with_reducible refine keeps_of_some (by assumption) ?_)

theorem keeps_of_somePair {α : Type} {s t u : State} {a : α} {r : Option (α × State) × State} (e : r = (some (a, t), u))
    (h : KeepsOpt2 s r.1) : Keeps s t := by
  subst e; exact h.of a t rfl

theorem State.readPieces_keeps {s0 : State} {n fn iva : Nat} {now : Bool} {purpose : Nat → Purpose} {l : List (Nat × Nat)} {b : RBuf}
    {s : State} (h0 : Keeps s0 s) : Keeps s0 (State.readPieces n fn iva now purpose l b s).2.2 := by
  induction l generalizing b s with
  | nil => exact h0
  | cons p ps ih =>
    unfold State.readPieces
    split
    · exact h0
    · split
      · exact ih (keeps_of_somePair (by assumption) (State.readPiece_keeps1 h0))
      · exact keeps_of_pair (by assumption) (State.readPiece_keeps h0)

theorem State.readIva_keeps {s0 : State} {s : State} {n fn iva len : Nat} {now : Bool} {purpose : Nat → Purpose} {b : RBuf} (h0 : Keeps s0 s) :
    Keeps s0 (State.readIva s n fn iva len now purpose b).2.2 := by
  unfold State.readIva
  repeat' (first | with_reducible assumption | with_reducible apply State.readPieces_keeps)

end Sys2Proof.Machine
end

