-- ==== Sys2Proof/Laws/KeepQueue.lean ====
section
/-!
SUPPORT. What the operations of Machine/Queue.lean keep.
-/

namespace Sys2Proof.Machine

set_option linter.unusedTactic false
set_option linter.unreachableTactic false
set_option linter.unusedVariables false

theorem State.setLq_keeps {s0 : State} {s : State} {n : Nat} {x : Lq} (h0 : Keeps s0 s) :
    Keeps s0 (State.setLq s n x) := by
  unfold State.setLq
  try dsimp only
  repeat' (first | with_reducible assumption | (simp only [keeps_mk]; with_reducible refine Keeps.fold ?_))

theorem State.setCq_keeps {s0 : State} {s : State} {n : Nat} {x : Cq} (h0 : Keeps s0 s) :
    Keeps s0 (State.setCq s n x) := by
  unfold State.setCq
  try dsimp only
  repeat' (first | with_reducible assumption | (simp only [keeps_mk]; with_reducible refine Keeps.fold ?_))

theorem State.setWq_keeps {s0 : State} {s : State} {n : Nat} {x : Wq} (h0 : Keeps s0 s) :
    Keeps s0 (State.setWq s n x) := by
  unfold State.setWq
  try dsimp only
  repeat' (first | with_reducible assumption | (simp only [keeps_mk]; with_reducible refine Keeps.fold ?_))

theorem State.updWq_keeps {s0 : State} {s : State} {n : Nat} {f : Wq → Wq} (h0 : Keeps s0 s) :
    Keeps s0 (State.updWq s n f) := by
  unfold State.updWq
  try dsimp only
  repeat' (first | with_reducible assumption | (simp only [keeps_mk]; with_reducible refine Keeps.fold ?_))

theorem State.eventLost_keeps {s0 : State} {s : State} (h0 : Keeps s0 s) :
    Keeps s0 (State.eventLost s) := by
  unfold State.eventLost
  repeat' (first | with_reducible assumption | with_reducible apply State.count_keeps)

theorem State.queueError_keeps {s0 : State} {s : State} {dest : EventTo} {kind num reason index gen : Nat} (h0 : Keeps s0 s) :
    Keeps s0 (State.queueError s dest kind num reason index gen) := by
  unfold State.queueError
  repeat' (first | with_reducible assumption | with_reducible apply State.raise_keeps)

theorem State.lqFail_keeps {s0 : State} {s : State} {n reason : Nat} (h0 : Keeps s0 s) :
    Keeps s0 (State.lqFail s n reason) := by
  unfold State.lqFail
  try dsimp only
  repeat' (first | with_reducible assumption | with_reducible apply State.setLq_keeps | with_reducible apply State.countN_keeps
                 | with_reducible apply State.queueError_keeps | with_reducible apply keepsOpt_bind
                 | (simp only [keeps_mk]; with_reducible refine Keeps.fold ?_) | with_reducible apply keeps_ite
                 | (split <;> try dsimp only) | with_reducible refine keeps_of_pair (by assumption) ?_
                 | with_reducible refine keeps_of_triple (by assumption) ?_ | with_reducible refine keeps_of_some (by assumption) ?_
                 | with_reducible refine keeps_of_some2 (by assumption) ?_)

theorem State.lqHold_keeps {s0 : State} {s : State} {n : Nat} {l : Lq} {e : Event} (h0 : Keeps s0 s) :
    Keeps s0 (State.lqHold s n l e) := by
  unfold State.lqHold
  try dsimp only
  repeat' (first | with_reducible assumption | with_reducible apply State.setLq_keeps | with_reducible apply State.eventLost_keeps
                 | (simp only [keeps_mk]; with_reducible refine Keeps.fold ?_) | with_reducible apply keeps_ite
                 | (split <;> try dsimp only))

theorem State.lqSignal_keeps {s0 : State} {s : State} {n : Nat} {l : Lq} (h0 : Keeps s0 s) :
    Keeps s0 (State.lqSignal s n l) := by
  unfold State.lqSignal
  try dsimp only
  repeat' (first | with_reducible assumption | with_reducible apply State.setLq_keeps | with_reducible apply State.msix_keeps
                 | (simp only [keeps_mk]; with_reducible refine Keeps.fold ?_))

theorem State.lqPut_keeps {s0 : State} {s : State} {n : Nat} {l : Lq} {e : Event} (h0 : Keeps s0 s) :
    Keeps s0 (State.lqPut s n l e).2 := by
  unfold State.lqPut
  try dsimp only
  repeat' (first | with_reducible assumption | with_reducible apply State.ivaWrite_keeps | with_reducible apply State.setLq_keeps
                 | with_reducible apply State.lqSignal_keeps | with_reducible apply State.lqFail_keeps
                 | with_reducible apply State.eventLost_keeps | (simp only [keeps_mk]; with_reducible refine Keeps.fold ?_)
                 | with_reducible apply keeps_ite | (split <;> try dsimp only) | with_reducible refine keeps_of_pair (by assumption) ?_
                 | with_reducible refine keeps_of_triple (by assumption) ?_ | with_reducible refine keeps_of_some (by assumption) ?_
                 | with_reducible refine keeps_of_some2 (by assumption) ?_)

theorem State.lqDeliver_keeps {s0 : State} {s : State} {n : Nat} {e : Event} (h0 : Keeps s0 s) :
    Keeps s0 (State.lqDeliver s n e) := by
  unfold State.lqDeliver
  try dsimp only
  repeat' (first | with_reducible assumption | with_reducible apply State.eventLost_keeps | with_reducible apply State.lqPut_keeps
                 | with_reducible apply State.lqHold_keeps | (simp only [keeps_mk]; with_reducible refine Keeps.fold ?_)
                 | with_reducible apply keeps_ite | (split <;> try dsimp only) | with_reducible refine keeps_of_pair (by assumption) ?_
                 | with_reducible refine keeps_of_triple (by assumption) ?_ | with_reducible refine keeps_of_some (by assumption) ?_
                 | with_reducible refine keeps_of_some2 (by assumption) ?_)

theorem State.lqDrain_keeps {s0 : State} {n : Nat} {fuel : Nat} {y1 : State} (h0 : Keeps s0 y1) :
    Keeps s0 (State.lqDrain n fuel y1) := by
  induction fuel generalizing n y1 with
  | zero =>
    unfold State.lqDrain
    try dsimp only
    repeat' (first | with_reducible assumption | with_reducible apply State.setLq_keeps | with_reducible apply State.lqPut_keeps
                   | (simp only [keeps_mk]; with_reducible refine Keeps.fold ?_) | with_reducible apply keeps_ite
                   | (split <;> try dsimp only) | with_reducible refine keeps_of_pair (by assumption) ?_
                   | with_reducible refine keeps_of_triple (by assumption) ?_ | with_reducible refine keeps_of_some (by assumption) ?_
                   | with_reducible refine keeps_of_some2 (by assumption) ?_)
  | succ _ ih =>
    unfold State.lqDrain
    try dsimp only
    repeat' (first | with_reducible assumption
                   | with_reducible apply ih | with_reducible apply State.setLq_keeps | with_reducible apply State.lqPut_keeps
                   | (simp only [keeps_mk]; with_reducible refine Keeps.fold ?_) | with_reducible apply keeps_ite
                   | (split <;> try dsimp only) | with_reducible refine keeps_of_pair (by assumption) ?_
                   | with_reducible refine keeps_of_triple (by assumption) ?_ | with_reducible refine keeps_of_some (by assumption) ?_
                   | with_reducible refine keeps_of_some2 (by assumption) ?_)

theorem State.deliver_keeps {s0 : State} {fuel : Nat} {y1 : State} (h0 : Keeps s0 y1) :
    Keeps s0 (State.deliver fuel y1) := by
  induction fuel generalizing y1 with
  | zero =>
    unfold State.deliver
    try dsimp only
    repeat' (first | with_reducible assumption | (intro _; try dsimp only) | with_reducible apply State.lqDeliver_keeps
                   | with_reducible apply State.eventLost_keeps | with_reducible apply keeps_foldl | with_reducible apply keeps_foldl_pair
                   | with_reducible apply keeps_foldl_triple | (simp only [keeps_mk]; with_reducible refine Keeps.fold ?_)
                   | with_reducible apply keeps_ite | (split <;> try dsimp only) | with_reducible refine keeps_of_pair (by assumption) ?_
                   | with_reducible refine keeps_of_triple (by assumption) ?_ | with_reducible refine keeps_of_some (by assumption) ?_
                   | with_reducible refine keeps_of_some2 (by assumption) ?_)
  | succ _ ih =>
    unfold State.deliver
    try dsimp only
    repeat' (first | with_reducible assumption
                   | with_reducible apply ih | (intro _; try dsimp only) | with_reducible apply State.lqDeliver_keeps
                   | with_reducible apply State.eventLost_keeps | with_reducible apply keeps_foldl | with_reducible apply keeps_foldl_pair
                   | with_reducible apply keeps_foldl_triple | (simp only [keeps_mk]; with_reducible refine Keeps.fold ?_)
                   | with_reducible apply keeps_ite | (split <;> try dsimp only) | with_reducible refine keeps_of_pair (by assumption) ?_
                   | with_reducible refine keeps_of_triple (by assumption) ?_ | with_reducible refine keeps_of_some (by assumption) ?_
                   | with_reducible refine keeps_of_some2 (by assumption) ?_)

theorem State.settle_keeps {s0 : State} {s : State} (h0 : Keeps s0 s) :
    Keeps s0 (State.settle s) := by
  unfold State.settle
  repeat' (first | with_reducible assumption | with_reducible apply State.deliver_keeps)

theorem State.wqError_keeps {s0 : State} {s : State} {n reason : Nat} (h0 : Keeps s0 s) :
    Keeps s0 (State.wqError s n reason) := by
  unfold State.wqError
  try dsimp only
  repeat' (first | with_reducible assumption | with_reducible apply State.setWq_keeps | with_reducible apply State.queueError_keeps
                 | (simp only [keeps_mk]; with_reducible refine Keeps.fold ?_) | with_reducible apply keeps_ite
                 | (split <;> try dsimp only) | with_reducible refine keeps_of_pair (by assumption) ?_
                 | with_reducible refine keeps_of_triple (by assumption) ?_ | with_reducible refine keeps_of_some (by assumption) ?_
                 | with_reducible refine keeps_of_some2 (by assumption) ?_)

theorem State.cqErrorWqs_keeps {s0 : State} {s : State} {c : Nat} (h0 : Keeps s0 s) :
    Keeps s0 (State.cqErrorWqs s c) := by
  unfold State.cqErrorWqs
  try dsimp only
  repeat' (first | with_reducible assumption | (intro _; try dsimp only) | with_reducible apply State.updWq_keeps
                 | with_reducible apply State.wqError_keeps | with_reducible apply keeps_foldl | with_reducible apply keeps_foldl_pair
                 | with_reducible apply keeps_foldl_triple | (simp only [keeps_mk]; with_reducible refine Keeps.fold ?_)
                 | with_reducible apply keeps_ite | (split <;> try dsimp only))

theorem State.cqFail_keeps {s0 : State} {s : State} {c : Nat} {reason : Nat} (h0 : Keeps s0 s) :
    Keeps s0 (State.cqFail s c reason) := by
  unfold State.cqFail
  try dsimp only
  repeat' (first | with_reducible assumption | (intro _; try dsimp only) | with_reducible apply State.raiseAll_keeps
                 | with_reducible apply State.gutter_keeps | with_reducible apply State.setCq_keeps
                 | with_reducible apply State.queueError_keeps | with_reducible apply State.cqErrorWqs_keeps
                 | with_reducible apply keeps_foldl | with_reducible apply keeps_foldl_pair
                 | with_reducible apply keeps_foldl_triple | with_reducible apply keepsOpt_foldl
                 | (simp only [keeps_mk]; with_reducible refine Keeps.fold ?_) | with_reducible apply keeps_ite
                 | (split <;> try dsimp only) | with_reducible refine keeps_of_pair (by assumption) ?_
                 | with_reducible refine keeps_of_triple (by assumption) ?_ | with_reducible refine keeps_of_some (by assumption) ?_
                 | with_reducible refine keeps_of_some2 (by assumption) ?_)

theorem State.cqNotify_keeps {s0 : State} {s : State} {c : Nat} {q : Cq} (h0 : Keeps s0 s) :
    Keeps s0 (State.cqNotify s c q) := by
  unfold State.cqNotify
  try dsimp only
  repeat' (first | with_reducible assumption | with_reducible apply State.setCq_keeps | with_reducible apply State.raise_keeps
                 | (simp only [keeps_mk]; with_reducible refine Keeps.fold ?_))

theorem State.cqPut_keeps {s0 : State} {s : State} {c : Nat} {q : Cq} {r : CRecord} (h0 : Keeps s0 s) :
    Keeps s0 (State.cqPut s c q r).2 := by
  unfold State.cqPut
  try dsimp only
  repeat' (first | with_reducible assumption | (intro _; try dsimp only) | with_reducible apply State.raiseAll_keeps
                 | with_reducible apply State.gutter_keeps | with_reducible apply State.ivaWrite_keeps
                 | with_reducible apply State.setCq_keeps | with_reducible apply State.cqFail_keeps
                 | with_reducible apply State.cqNotify_keeps | (simp only [keeps_mk]; with_reducible refine Keeps.fold ?_)
                 | with_reducible apply keeps_ite | (split <;> try dsimp only)
                 | with_reducible refine keeps_of_pair (by assumption) ?_ | with_reducible refine keeps_of_triple (by assumption) ?_
                 | with_reducible refine keeps_of_some (by assumption) ?_ | with_reducible refine keeps_of_some2 (by assumption) ?_)

theorem State.cqFull_keeps {s0 : State} {s : State} {c : Nat} {q : Cq} (h0 : Keeps s0 s) :
    Keeps s0 (State.cqFull s c q) := by
  unfold State.cqFull
  try dsimp only
  repeat' (first | with_reducible assumption | (intro _; try dsimp only) | with_reducible apply State.setCq_keeps
                 | with_reducible apply State.cqFail_keeps | (simp only [keeps_mk]; with_reducible refine Keeps.fold ?_)
                 | with_reducible apply keeps_ite | (split <;> try dsimp only)
                 | with_reducible refine keeps_of_pair (by assumption) ?_ | with_reducible refine keeps_of_some (by assumption) ?_
                 | with_reducible refine keeps_of_some2 (by assumption) ?_)

theorem State.cqHold_keeps {s0 : State} {s : State} {c : Nat} {q : Cq} {r : CRecord} {full : Bool} (h0 : Keeps s0 s) :
    Keeps s0 (State.cqHold s c q r full) := by
  unfold State.cqHold
  try dsimp only
  repeat' (first | with_reducible assumption | (intro _; try dsimp only) | with_reducible apply State.setCq_keeps
                 | with_reducible apply State.cqFull_keeps | (simp only [keeps_mk]; with_reducible refine Keeps.fold ?_)
                 | with_reducible apply keeps_ite | (split <;> try dsimp only)
                 | with_reducible refine keeps_of_pair (by assumption) ?_ | with_reducible refine keeps_of_some (by assumption) ?_
                 | with_reducible refine keeps_of_some2 (by assumption) ?_)

theorem State.cqPost_keeps {s0 : State} {s : State} {c : Nat} {r : CRecord} (h0 : Keeps s0 s) :
    Keeps s0 (State.cqPost s c r) := by
  unfold State.cqPost
  try dsimp only
  repeat' (first | with_reducible assumption | (intro _; try dsimp only) | with_reducible apply State.raiseAll_keeps
                 | with_reducible apply State.gutter_keeps | with_reducible apply State.cqPut_keeps
                 | with_reducible apply State.cqHold_keeps | (simp only [keeps_mk]; with_reducible refine Keeps.fold ?_)
                 | with_reducible apply keeps_ite | (split <;> try dsimp only)
                 | with_reducible refine keeps_of_pair (by assumption) ?_ | with_reducible refine keeps_of_triple (by assumption) ?_
                 | with_reducible refine keeps_of_some (by assumption) ?_ | with_reducible refine keeps_of_some2 (by assumption) ?_)

theorem State.cqDrain_keeps {s0 : State} {c : Nat} {y0 : Nat} {y1 : State} (h0 : Keeps s0 y1) :
    Keeps s0 (State.cqDrain c y0 y1) := by
  induction y0 generalizing y1 c with
  | zero =>
    unfold State.cqDrain
    try dsimp only
    repeat' (first | with_reducible assumption | (intro _; try dsimp only) | with_reducible apply State.setCq_keeps
                   | with_reducible apply State.cqPut_keeps | with_reducible apply State.cqFull_keeps
                   | (simp only [keeps_mk]; with_reducible refine Keeps.fold ?_) | with_reducible apply keeps_ite
                   | (split <;> try dsimp only) | with_reducible refine keeps_of_pair (by assumption) ?_
                   | with_reducible refine keeps_of_triple (by assumption) ?_
                   | with_reducible refine keeps_of_some (by assumption) ?_
                   | with_reducible refine keeps_of_some2 (by assumption) ?_)
  | succ _ ih =>
    unfold State.cqDrain
    try dsimp only
    repeat' (first | with_reducible assumption | (intro _; try dsimp only) | with_reducible apply ih
                   | with_reducible apply State.setCq_keeps | with_reducible apply State.cqPut_keeps
                   | with_reducible apply State.cqFull_keeps | (simp only [keeps_mk]; with_reducible refine Keeps.fold ?_)
                   | with_reducible apply keeps_ite | (split <;> try dsimp only)
                   | with_reducible refine keeps_of_pair (by assumption) ?_
                   | with_reducible refine keeps_of_triple (by assumption) ?_
                   | with_reducible refine keeps_of_some (by assumption) ?_
                   | with_reducible refine keeps_of_some2 (by assumption) ?_)

theorem State.setAdm_keeps {s0 : State} {s : State} {p : Nat} {a : AdmQ} (h0 : Keeps s0 s) :
    Keeps s0 (State.setAdm s p a) := by
  unfold State.setAdm
  try dsimp only
  repeat' (first | with_reducible assumption | (simp only [keeps_mk]; with_reducible refine Keeps.fold ?_))

theorem State.admIrq_keeps {s0 : State} {s : State} {p : Nat} (h0 : Keeps s0 s) :
    Keeps s0 (State.admIrq s p) := by
  unfold State.admIrq
  repeat' (first | with_reducible assumption | with_reducible apply State.msix_keeps | with_reducible apply keeps_ite
                 | (split <;> try dsimp only))

theorem State.admError_keeps {s0 : State} {s : State} {p reason : Nat} (h0 : Keeps s0 s) :
    Keeps s0 (State.admError s p reason) := by
  unfold State.admError
  try dsimp only
  repeat' (first | with_reducible assumption | with_reducible apply State.setAdm_keeps | with_reducible apply State.admIrq_keeps
                 | (simp only [keeps_mk]; with_reducible refine Keeps.fold ?_) | with_reducible apply keeps_ite
                 | (split <;> try dsimp only))

theorem State.admStopped_keeps {s0 : State} {s : State} {p : Nat} (h0 : Keeps s0 s) :
    Keeps s0 (State.admStopped s p) := by
  unfold State.admStopped
  try dsimp only
  repeat' (first | with_reducible assumption | with_reducible apply State.setAdm_keeps
                 | (simp only [keeps_mk]; with_reducible refine Keeps.fold ?_) | with_reducible apply keeps_ite
                 | (split <;> try dsimp only))

theorem State.adminDone_keeps {s0 : State} {s : State} {p : Nat} {r : Bytes} (h0 : Keeps s0 s) :
    Keeps s0 (State.adminDone s p r) := by
  unfold State.adminDone
  repeat' (first | with_reducible assumption | with_reducible apply State.raise_keeps)

theorem State.replyPut_keeps {s0 : State} {s : State} {p : Nat} {r : Bytes} {done : Bool} (h0 : Keeps s0 s) :
    Keeps s0 (State.replyPut s p r done) := by
  unfold State.replyPut
  try dsimp only
  repeat' (first | with_reducible assumption | with_reducible apply State.emit_keeps | with_reducible apply State.setAdm_keeps
                 | with_reducible apply State.admIrq_keeps | with_reducible apply State.adminDone_keeps
                 | (simp only [keeps_mk]; with_reducible refine Keeps.fold ?_) | with_reducible apply keeps_ite
                 | (split <;> try dsimp only))

theorem State.repliesDrain_keeps {s0 : State} {s : State} {p : Nat} (h0 : Keeps s0 s) :
    Keeps s0 (State.repliesDrain s p) := by
  unfold State.repliesDrain
  try dsimp only
  repeat' (first | with_reducible assumption | (intro _; try dsimp only) | with_reducible apply State.setAdm_keeps
                 | with_reducible apply State.replyPut_keeps | with_reducible apply State.admStopped_keeps
                 | with_reducible apply keeps_foldl | with_reducible apply keeps_foldl_pair | with_reducible apply keeps_foldl_triple
                 | (simp only [keeps_mk]; with_reducible refine Keeps.fold ?_) | with_reducible apply keeps_ite
                 | (split <;> try dsimp only))

theorem State.reply_keeps {s0 : State} {s : State} {p k status detail : Nat} {result : Bytes} (h0 : Keeps s0 s) :
    Keeps s0 (State.reply s p k status detail result) := by
  unfold State.reply
  try dsimp only
  repeat' (first | with_reducible assumption | with_reducible apply State.setAdm_keeps | with_reducible apply State.gutter_keeps
                 | with_reducible apply State.repliesDrain_keeps | (simp only [keeps_mk]; with_reducible refine Keeps.fold ?_)
                 | with_reducible apply keeps_ite | (split <;> try dsimp only) | with_reducible refine keeps_of_pair (by assumption) ?_
                 | with_reducible refine keeps_of_triple (by assumption) ?_ | with_reducible refine keeps_of_some (by assumption) ?_
                 | with_reducible refine keeps_of_some2 (by assumption) ?_)

end Sys2Proof.Machine
end

