-- ==== Sys2Proof/Laws/KeepAdmin.lean ====
section
/-!
SUPPORT. What the operations of Machine/Admin.lean keep.
-/

namespace Sys2Proof.Machine

set_option linter.unusedTactic false
set_option linter.unreachableTactic false
set_option linter.unusedVariables false

theorem AdmRes.fail_keeps {s0 : State} {status : Nat} {s : State} (h0 : Keeps s0 s) :
    KeepsAdm s0 (AdmRes.fail status s) := by
  unfold AdmRes.fail
  repeat' (first | with_reducible assumption | with_reducible apply State.reply_keeps | with_reducible apply keepsAdm_reply)

theorem AdmRes.field_keeps {s0 : State} {s : State} (h0 : Keeps s0 s) :
    KeepsAdm s0 (AdmRes.field s) := by
  unfold AdmRes.field
  repeat' (first | with_reducible assumption | with_reducible apply State.reply_keeps | with_reducible apply keepsAdm_reply)

theorem State.noQueue_keeps {s0 : State} {s : State} {n : Nat} (h0 : Keeps s0 s) :
    KeepsAdm s0 (State.noQueue s n) := by
  unfold State.noQueue
  try dsimp only
  repeat' (first | with_reducible assumption | (intro _; try dsimp only) | with_reducible apply AdmRes.fail_keeps
                 | with_reducible apply AdmRes.field_keeps | with_reducible exact keepsOpt_none
                 | with_reducible exact keepsOpt2_none | with_reducible apply keepsOpt_some | with_reducible apply keepsOpt2_some
                 | with_reducible apply keepsAdm_reply | with_reducible apply keepsAdm_wait | with_reducible apply keepsAdm_fail
                 | with_reducible apply keepsAdm_field | with_reducible apply keepsAdm_ok
                 | (simp only [keeps_mk]; with_reducible refine Keeps.fold ?_) | with_reducible apply keeps_ite
                 | (split <;> try dsimp only) | with_reducible refine keeps_of_pair (by assumption) ?_
                 | with_reducible refine keeps_of_some (by assumption) ?_ | with_reducible refine keeps_of_some2 (by assumption) ?_)

theorem AdmRes.ok_keeps {s0 : State} {fs : List (Nat × Nat)} {s : State} (h0 : Keeps s0 s) :
    KeepsAdm s0 (AdmRes.ok fs s) := by
  unfold AdmRes.ok
  repeat' (first | with_reducible assumption | with_reducible apply State.reply_keeps | with_reducible apply keepsAdm_reply)

theorem State.setCmd_keeps {s0 : State} {s : State} {p k : Nat} {c : Cmd} (h0 : Keeps s0 s) :
    Keeps s0 (State.setCmd s p k c) := by
  unfold State.setCmd
  try dsimp only
  repeat' (first | with_reducible assumption | with_reducible apply State.setAdm_keeps
                 | (simp only [keeps_mk]; with_reducible refine Keeps.fold ?_))

theorem State.adminRun_keeps {s0 : State} {s : State} {p k op : Nat} {sel : List Nat → Bool} {auth : State → List Nat → Bool} {body : State → Cmd → List Nat → AdmRes} (h0 : Keeps s0 s) (h1 : ∀ t c ps, Keeps s0 t → KeepsAdm s0 (body t c ps)) :
    Keeps s0 (State.adminRun s p k op sel auth body) := by
  unfold State.adminRun
  try dsimp only
  repeat' (first | with_reducible assumption | (intro _; try dsimp only) | with_reducible apply h1
                 | with_reducible apply State.reply_keeps | with_reducible apply State.setCmd_keeps
                 | with_reducible apply State.admStopped_keeps | (simp only [keeps_mk]; with_reducible refine Keeps.fold ?_)
                 | with_reducible apply keeps_ite | (split <;> try dsimp only) | with_reducible refine keeps_of_pair (by assumption) ?_
                 | with_reducible refine keeps_of_triple (by assumption) ?_ | with_reducible refine keeps_of_some (by assumption) ?_
                 | with_reducible refine keeps_of_some2 (by assumption) ?_ | with_reducible refine keeps_of_reply (by assumption) ?_
                 | with_reducible refine keeps_of_wait (by assumption) ?_)

theorem State.admRead_keeps {s0 : State} {s : State} {p k : Nat} {c : Cmd} {iva len : Nat} (h0 : Keeps s0 s) :
    Keeps s0 (State.admRead s p k c iva len).2.2 := by
  unfold State.admRead
  try dsimp only
  repeat' (first | with_reducible assumption | (intro _; try dsimp only) | with_reducible apply State.readIva_keeps
                 | with_reducible apply State.setCmd_keeps | with_reducible exact keepsOpt_none | with_reducible exact keepsOpt2_none
                 | with_reducible apply keepsOpt_some | with_reducible apply keepsOpt2_some
                 | (simp only [keeps_mk]; with_reducible refine Keeps.fold ?_) | with_reducible apply keeps_ite
                 | (split <;> try dsimp only))

theorem State.admWrite_keeps {s0 : State} {s : State} {p : Nat} {iva : Nat} {data : Bytes} (h0 : Keeps s0 s) :
    Keeps s0 (State.admWrite s p iva data).2 := by
  unfold State.admWrite
  try dsimp only
  repeat' (first | with_reducible assumption | (intro _; try dsimp only) | with_reducible apply State.lookupNow_keeps
                 | with_reducible apply State.ivaWrite_keeps | (simp only [keeps_mk]; with_reducible refine Keeps.fold ?_)
                 | with_reducible apply keeps_ite | (split <;> try dsimp only)
                 | with_reducible refine keeps_of_pair (by assumption) ?_ | with_reducible refine keeps_of_triple (by assumption) ?_
                 | with_reducible refine keeps_of_some (by assumption) ?_ | with_reducible refine keeps_of_some2 (by assumption) ?_)

end Sys2Proof.Machine
end

