-- ==== Sys2Proof/Laws/KeepRouter.lean ====
section
/-!
SUPPORT. What the operations of Machine/Router.lean keep.
-/

namespace Sys2Proof.Machine

set_option linter.unusedTactic false
set_option linter.unreachableTactic false
set_option linter.unusedVariables false

theorem State.countPort_keeps {s0 : State} {s : State} {port : Nat} {r : Reg} {n : Nat} (h0 : Keeps s0 s) :
    Keeps s0 (State.countPort s port r n) := by
  unfold State.countPort
  repeat' (first | with_reducible assumption | with_reducible apply State.countSel_keeps)

theorem State.shouldMark_keeps {s0 : State} {s : State} {q : Nat} (h0 : Keeps s0 s) :
    Keeps s0 (State.shouldMark s q).2 := by
  unfold State.shouldMark
  try dsimp only
  repeat' (first | with_reducible assumption | (intro _; try dsimp only)
                 | (simp only [keeps_mk]; with_reducible refine Keeps.fold ?_) | with_reducible apply keeps_ite
                 | (split <;> try dsimp only) | with_reducible refine keeps_of_pair (by assumption) ?_
                 | with_reducible refine keeps_of_triple (by assumption) ?_ | with_reducible refine keeps_of_some (by assumption) ?_
                 | with_reducible refine keeps_of_some2 (by assumption) ?_)

theorem State.markPkt_keeps {s0 : State} {s : State} {p : Pkt} {port q : Nat} (h0 : Keeps s0 s) :
    Keeps s0 (State.markPkt s p port q).2 := by
  unfold State.markPkt
  try dsimp only
  repeat' (first | with_reducible assumption | with_reducible apply State.shouldMark_keeps | with_reducible apply State.countPort_keeps
                 | (simp only [keeps_mk]; with_reducible refine Keeps.fold ?_) | with_reducible apply keeps_ite
                 | (split <;> try dsimp only))

theorem State.watermark_keeps {s0 : State} {s : State} {key n : Nat} (h0 : Keeps s0 s) :
    Keeps s0 (State.watermark s key n) := by
  unfold State.watermark
  try dsimp only
  repeat' (first | with_reducible assumption | with_reducible apply keeps_getD
                 | (simp only [keeps_mk]; with_reducible refine Keeps.fold ?_))

theorem State.sampled_keeps {s0 : State} {s : State} {key : Nat} (h0 : Keeps s0 s) :
    Keeps s0 (State.sampled s key) := by
  unfold State.sampled
  try dsimp only
  repeat' (first | with_reducible assumption | (simp only [keeps_mk]; with_reducible refine Keeps.fold ?_))

theorem State.sampleLeft_keeps {s0 : State} {s : State} {key since : Nat} (h0 : Keeps s0 s) :
    Keeps s0 (State.sampleLeft s key since) := by
  unfold State.sampleLeft
  try dsimp only
  repeat' (first | with_reducible assumption | (simp only [keeps_mk]; with_reducible refine Keeps.fold ?_))

theorem State.noRoute_keeps {s0 : State} {s : State} (h0 : Keeps s0 s) :
    Keeps s0 (State.noRoute s) := by
  unfold State.noRoute
  repeat' (first | with_reducible assumption | with_reducible apply State.count_keeps | with_reducible apply State.setFlag_keeps)

theorem State.enqueueEject_keeps {s0 : State} {s : State} {p : Pkt} {input : Nat} {vcIn : Nat} (h0 : Keeps s0 s) :
    Keeps s0 (State.enqueueEject s p input vcIn) := by
  unfold State.enqueueEject
  try dsimp only
  repeat' (first | with_reducible assumption | (intro _; try dsimp only) | with_reducible apply State.markPkt_keeps
                 | with_reducible apply State.watermark_keeps | with_reducible apply State.sampled_keeps
                 | (simp only [keeps_mk]; with_reducible refine Keeps.fold ?_) | with_reducible apply keeps_ite)

theorem State.enqueueOut_keeps {s0 : State} {s : State} {p : Pkt} {g input vcIn : Nat} (h0 : Keeps s0 s) :
    Keeps s0 (State.enqueueOut s p g input vcIn) := by
  unfold State.enqueueOut
  try dsimp only
  repeat' (first | with_reducible assumption | with_reducible apply State.noRoute_keeps | with_reducible apply State.count_keeps
                 | with_reducible apply State.setFlag_keeps | with_reducible apply State.sampled_keeps
                 | with_reducible apply State.markPkt_keeps | with_reducible apply State.watermark_keeps | with_reducible apply keeps_getD
                 | (simp only [keeps_mk]; with_reducible refine Keeps.fold ?_) | with_reducible apply keeps_ite
                 | (split <;> try dsimp only))

theorem State.place_keeps {s0 : State} {s : State} {p : Pkt} {inGroup : Option Nat} {input : Nat} {vcIn : Nat} (h0 : Keeps s0 s) :
    Keeps s0 (State.place s p inGroup input vcIn) := by
  unfold State.place
  try dsimp only
  repeat' (first | with_reducible assumption | (intro _; try dsimp only) | with_reducible apply State.noRoute_keeps
                 | with_reducible apply State.enqueueEject_keeps | with_reducible apply State.enqueueOut_keeps
                 | (simp only [keeps_mk]; with_reducible refine Keeps.fold ?_) | with_reducible apply keeps_ite
                 | (split <;> try dsimp only) | with_reducible refine keeps_of_pair (by assumption) ?_
                 | with_reducible refine keeps_of_triple (by assumption) ?_ | with_reducible refine keeps_of_some (by assumption) ?_
                 | with_reducible refine keeps_of_some2 (by assumption) ?_)

theorem State.injectRaw_keeps {s0 : State} {s : State} {p : Pkt} (h0 : Keeps s0 s) :
    Keeps s0 (State.injectRaw s p) := by
  unfold State.injectRaw
  try dsimp only
  repeat' (first | with_reducible assumption | (intro _; try dsimp only) | with_reducible apply State.countPort_keeps
                 | with_reducible apply State.place_keeps | (simp only [keeps_mk]; with_reducible refine Keeps.fold ?_)
                 | with_reducible apply keeps_ite | (split <;> try dsimp only))

theorem State.notify_keeps {s0 : State} {s : State} {p : Pkt} {port q : Nat} (h0 : Keeps s0 s) :
    Keeps s0 (State.notify s p port q) := by
  unfold State.notify
  try dsimp only
  repeat' (first | with_reducible assumption | (intro _; try dsimp only) | with_reducible apply State.injectRaw_keeps
                 | (simp only [keeps_mk]; with_reducible refine Keeps.fold ?_) | with_reducible apply keeps_ite
                 | (split <;> try dsimp only))

theorem State.placeNotify_keeps {s0 : State} {s : State} {p : Pkt} {inGroup : Option Nat} {input vcIn : Nat} (h0 : Keeps s0 s) :
    Keeps s0 (State.placeNotify s p inGroup input vcIn) := by
  unfold State.placeNotify
  try dsimp only
  repeat' (first | with_reducible assumption | with_reducible apply State.place_keeps | with_reducible apply State.notify_keeps
                 | with_reducible apply State.noRoute_keeps | (simp only [keeps_mk]; with_reducible refine Keeps.fold ?_)
                 | with_reducible apply keeps_ite | (split <;> try dsimp only) | with_reducible refine keeps_of_pair (by assumption) ?_
                 | with_reducible refine keeps_of_triple (by assumption) ?_ | with_reducible refine keeps_of_some (by assumption) ?_
                 | with_reducible refine keeps_of_some2 (by assumption) ?_)

theorem State.inject_keeps {s0 : State} {s : State} {p : Pkt} (h0 : Keeps s0 s) :
    Keeps s0 (State.inject s p) := by
  unfold State.inject
  try dsimp only
  repeat' (first | with_reducible assumption | with_reducible apply State.injectRaw_keeps | with_reducible apply State.notify_keeps
                 | with_reducible apply State.noRoute_keeps | (simp only [keeps_mk]; with_reducible refine Keeps.fold ?_)
                 | with_reducible apply keeps_ite | (split <;> try dsimp only) | with_reducible refine keeps_of_pair (by assumption) ?_
                 | with_reducible refine keeps_of_triple (by assumption) ?_ | with_reducible refine keeps_of_some (by assumption) ?_
                 | with_reducible refine keeps_of_some2 (by assumption) ?_)

theorem State.setThrottle_keeps {s0 : State} {s : State} {k : Nat} {t : Throttle} (h0 : Keeps s0 s) :
    Keeps s0 (State.setThrottle s k t) := by
  unfold State.setThrottle
  try dsimp only
  repeat' (first | with_reducible assumption | (simp only [keeps_mk]; with_reducible refine Keeps.fold ?_))

theorem State.markFlow_keeps {s0 : State} {s : State} {dst tc : Nat} (h0 : Keeps s0 s) :
    Keeps s0 (State.markFlow s dst tc) := by
  unfold State.markFlow
  try dsimp only
  repeat' (first | with_reducible assumption | (intro _; try dsimp only) | with_reducible apply State.setThrottle_keeps
                 | with_reducible apply keeps_foldl | with_reducible apply keeps_foldl_pair | with_reducible apply keeps_foldl_triple
                 | (simp only [keeps_mk]; with_reducible refine Keeps.fold ?_) | with_reducible apply keeps_ite
                 | (split <;> try dsimp only) | with_reducible refine keeps_of_pair (by assumption) ?_
                 | with_reducible refine keeps_of_triple (by assumption) ?_ | with_reducible refine keeps_of_some (by assumption) ?_
                 | with_reducible refine keeps_of_some2 (by assumption) ?_)

theorem State.fillBuckets_keeps {s0 : State} {s : State} {unmet : Bool} (h0 : Keeps s0 s) :
    Keeps s0 (State.fillBuckets s unmet) := by
  unfold State.fillBuckets
  try dsimp only
  repeat' (first | with_reducible assumption | (intro _; try dsimp only) | with_reducible apply keepsOpt_map
                 | with_reducible apply keepsOpt2_mapPair | with_reducible apply keepsOpt2_map
                 | (simp only [keeps_mk]; with_reducible refine Keeps.fold ?_) | with_reducible apply keeps_ite
                 | (split <;> try dsimp only))

theorem State.bucket_keeps {s0 : State} {s : State} {dst tc bytes : Nat} (h0 : Keeps s0 s) :
    KeepsOpt s0 (State.bucket s dst tc bytes) := by
  unfold State.bucket
  try dsimp only
  repeat' (first | with_reducible assumption | with_reducible apply State.setThrottle_keeps | with_reducible exact keepsOpt_none
                 | with_reducible exact keepsOpt2_none | with_reducible apply keepsOpt_some | with_reducible apply keepsOpt2_some
                 | (simp only [keeps_mk]; with_reducible refine Keeps.fold ?_) | with_reducible apply keeps_ite
                 | (split <;> try dsimp only) | with_reducible refine keeps_of_pair (by assumption) ?_
                 | with_reducible refine keeps_of_triple (by assumption) ?_ | with_reducible refine keeps_of_some (by assumption) ?_
                 | with_reducible refine keeps_of_some2 (by assumption) ?_)

end Sys2Proof.Machine
end

