-- ==== Sys2Proof/Laws/KeepHall.lean ====
section
/-!
SUPPORT. What the operations of Machine/Hall.lean keep.
-/

namespace Sys2Proof.Machine

set_option linter.unusedTactic false
set_option linter.unreachableTactic false
set_option linter.unusedVariables false

theorem State.setPage_keeps {s0 : State} {s : State} {i : Nat} {p : Page} (h0 : Keeps s0 s) :
    Keeps s0 (State.setPage s i p) := by
  unfold State.setPage
  try dsimp only
  repeat' (first | with_reducible assumption | (simp only [keeps_mk]; with_reducible refine Keeps.fold ?_))

theorem State.setHeld_keeps {s0 : State} {s : State} {key : Nat} {h : Held} (h0 : Keeps s0 s) :
    Keeps s0 (State.setHeld s key h) := by
  unfold State.setHeld
  try dsimp only
  repeat' (first | with_reducible assumption | (simp only [keeps_mk]; with_reducible refine Keeps.fold ?_))

theorem State.cacheUsed_keeps {s0 : State} {s : State} {home : Nat} {page : Nat} (h0 : Keeps s0 s) :
    Keeps s0 (State.cacheUsed s home page) := by
  unfold State.cacheUsed
  try dsimp only
  repeat' (first | with_reducible assumption | (intro _; try dsimp only)
                 | (simp only [keeps_mk]; with_reducible refine Keeps.fold ?_) | with_reducible apply keeps_ite
                 | (split <;> try dsimp only) | with_reducible refine keeps_of_pair (by assumption) ?_
                 | with_reducible refine keeps_of_triple (by assumption) ?_ | with_reducible refine keeps_of_some (by assumption) ?_
                 | with_reducible refine keeps_of_some2 (by assumption) ?_)

theorem State.cachePut_keeps {s0 : State} {s : State} {e : PlcEntry} (h0 : Keeps s0 s) :
    Keeps s0 (State.cachePut s e) := by
  unfold State.cachePut
  try dsimp only
  repeat' (first | with_reducible assumption | (intro _; try dsimp only) | (simp only [keeps_mk]; with_reducible refine Keeps.fold ?_))

theorem State.pageRead_keeps {s0 : State} {s : State} {key : Nat} {h : Held} {byte len : Nat} (h0 : Keeps s0 s) :
    Keeps s0 (State.pageRead s key h byte len).2.2 := by
  unfold State.pageRead
  try dsimp only
  repeat' (first | with_reducible assumption | with_reducible apply State.physRead_keeps)

theorem State.pageWrite_keeps {s0 : State} {s : State} {key : Nat} {h : Held} {byte : Nat} {data : Bytes} (h0 : Keeps s0 s) :
    Keeps s0 (State.pageWrite s key h byte data) := by
  unfold State.pageWrite
  try dsimp only
  repeat' (first | with_reducible assumption | (intro _; try dsimp only) | with_reducible apply State.physWrite_keeps
                 | with_reducible apply State.setPage_keeps | (simp only [keeps_mk]; with_reducible refine Keeps.fold ?_)
                 | with_reducible apply keeps_ite | (split <;> try dsimp only) | with_reducible refine keeps_of_pair (by assumption) ?_
                 | with_reducible refine keeps_of_triple (by assumption) ?_ | with_reducible refine keeps_of_some (by assumption) ?_
                 | with_reducible refine keeps_of_some2 (by assumption) ?_)

theorem State.pageAtomic_keeps {s0 : State} {s : State} {key : Nat} {h : Held} {byte op width operand swap : Nat} (h0 : Keeps s0 s) :
    Keeps s0 (State.pageAtomic s key h byte op width operand swap).2 := by
  unfold State.pageAtomic
  repeat' (first | with_reducible assumption | with_reducible apply State.physAtomic_keeps | with_reducible exact keepsOpt_none
                 | with_reducible exact keepsOpt2_none | with_reducible apply keepsOpt_some | with_reducible apply keepsOpt2_some
                 | with_reducible apply keeps_ite | (split <;> try dsimp only))

theorem State.heat_keeps {s0 : State} {s : State} {key src units : Nat} {write : Bool} (h0 : Keeps s0 s) :
    Keeps s0 (State.heat s key src units write) := by
  unfold State.heat
  try dsimp only
  repeat' (first | with_reducible assumption | with_reducible apply State.setHeld_keeps | with_reducible apply State.count_keeps
                 | (simp only [keeps_mk]; with_reducible refine Keeps.fold ?_) | with_reducible apply keeps_ite
                 | (split <;> try dsimp only) | with_reducible refine keeps_of_pair (by assumption) ?_
                 | with_reducible refine keeps_of_triple (by assumption) ?_ | with_reducible refine keeps_of_some (by assumption) ?_
                 | with_reducible refine keeps_of_some2 (by assumption) ?_)

theorem State.skyFor_keeps {s0 : State} {s : State} {home : Nat} {index : Nat} (h0 : Keeps s0 s) :
    Keeps s0 (State.skyFor s home index).2 := by
  unfold State.skyFor
  try dsimp only
  repeat' (first | with_reducible assumption | (intro _; try dsimp only) | with_reducible apply State.drawn_keeps
                 | (simp only [keeps_mk]; with_reducible refine Keeps.fold ?_) | with_reducible apply keeps_ite
                 | (split <;> try dsimp only) | with_reducible refine keeps_of_pair (by assumption) ?_
                 | with_reducible refine keeps_of_triple (by assumption) ?_ | with_reducible refine keeps_of_some (by assumption) ?_
                 | with_reducible refine keeps_of_some2 (by assumption) ?_)

theorem State.skyFetched_keeps {s0 : State} {s : State} {home : Nat} {index : Nat} (h0 : Keeps s0 s) :
    Keeps s0 (State.skyFetched s home index) := by
  unfold State.skyFetched
  try dsimp only
  repeat' (first | with_reducible assumption | (intro _; try dsimp only) | with_reducible apply State.drawn_keeps
                 | with_reducible exact keepsOpt_none | with_reducible exact keepsOpt2_none | with_reducible apply keepsOpt_some
                 | with_reducible apply keepsOpt2_some | with_reducible apply keeps_getD
                 | (simp only [keeps_mk]; with_reducible refine Keeps.fold ?_) | with_reducible apply keeps_ite
                 | (split <;> try dsimp only) | with_reducible refine keeps_of_pair (by assumption) ?_
                 | with_reducible refine keeps_of_triple (by assumption) ?_ | with_reducible refine keeps_of_some (by assumption) ?_
                 | with_reducible refine keeps_of_some2 (by assumption) ?_)

theorem State.checkSky_keeps {s0 : State} {s : State} {owner src partition typ key off len : Nat} (h0 : Keeps s0 s) :
    Keeps s0 (State.checkSky s owner src partition typ key off len).2 := by
  unfold State.checkSky
  try dsimp only
  repeat' (first | with_reducible assumption | (intro _; try dsimp only) | with_reducible apply State.skyFor_keeps
                 | with_reducible apply keepsOpt_map | with_reducible apply keepsOpt2_mapPair | with_reducible apply keepsOpt2_map
                 | (simp only [keeps_mk]; with_reducible refine Keeps.fold ?_) | with_reducible apply keeps_ite
                 | (split <;> try dsimp only) | with_reducible refine keeps_of_pair (by assumption) ?_
                 | with_reducible refine keeps_of_triple (by assumption) ?_ | with_reducible refine keeps_of_some (by assumption) ?_
                 | with_reducible refine keeps_of_some2 (by assumption) ?_)

theorem State.checkPkt_keeps {s0 : State} {s : State} {p : Pkt} (h0 : Keeps s0 s) :
    Keeps s0 (State.checkPkt s p).2 := by
  unfold State.checkPkt
  try dsimp only
  repeat' (first | with_reducible assumption | with_reducible apply State.checkSky_keeps | with_reducible apply State.elog_keeps
                 | with_reducible apply keepsOpt_map | with_reducible apply keepsOpt2_mapPair | with_reducible apply keepsOpt2_map
                 | with_reducible apply keeps_getD | (simp only [keeps_mk]; with_reducible refine Keeps.fold ?_)
                 | with_reducible apply keeps_ite | (split <;> try dsimp only) | with_reducible refine keeps_of_pair (by assumption) ?_
                 | with_reducible refine keeps_of_triple (by assumption) ?_ | with_reducible refine keeps_of_some (by assumption) ?_
                 | with_reducible refine keeps_of_some2 (by assumption) ?_)

end Sys2Proof.Machine
end

