-- ==== Sys2Proof/Laws/KeepPower.lean ====
section
/-!
SUPPORT. What the operations of Machine/Power.lean keep.
-/

namespace Sys2Proof.Machine

set_option linter.unusedTactic false
set_option linter.unreachableTactic false
set_option linter.unusedVariables false

theorem State.setPwr_keeps {s0 : State} {s : State} {p : Pwr} (h0 : Keeps s0 s) :
    Keeps s0 (State.setPwr s p) := by
  unfold State.setPwr
  try dsimp only
  repeat' (first | with_reducible assumption | (simp only [keeps_mk]; with_reducible refine Keeps.fold ?_))

theorem State.wakeDom_keeps {s0 : State} {s : State} {d : Nat} (h0 : Keeps s0 s) :
    Keeps s0 (State.wakeDom s d) := by
  unfold State.wakeDom
  try dsimp only
  repeat' (first | with_reducible assumption | with_reducible apply State.setPwr_keeps
                 | (simp only [keeps_mk]; with_reducible refine Keeps.fold ?_) | with_reducible apply keeps_ite
                 | (split <;> try dsimp only))

theorem State.domOff_keeps {s0 : State} {s : State} {d : Nat} (h0 : Keeps s0 s) :
    Keeps s0 (State.domOff s d) := by
  unfold State.domOff
  try dsimp only
  repeat' (first | with_reducible assumption | with_reducible apply State.setPwr_keeps
                 | (simp only [keeps_mk]; with_reducible refine Keeps.fold ?_))

theorem State.domStart_keeps {s0 : State} {s : State} {d : Nat} (h0 : Keeps s0 s) :
    Keeps s0 (State.domStart s d) := by
  unfold State.domStart
  try dsimp only
  repeat' (first | with_reducible assumption | with_reducible apply State.domOff_keeps | with_reducible apply State.setPwr_keeps
                 | (simp only [keeps_mk]; with_reducible refine Keeps.fold ?_))

theorem State.powerEvent_keeps {s0 : State} {s : State} {reason : Nat} {about : Nat} {gap : Nat} (h0 : Keeps s0 s) :
    Keeps s0 (State.powerEvent s reason about gap) := by
  unfold State.powerEvent
  try dsimp only
  repeat' (first | with_reducible assumption | (intro _; try dsimp only) | with_reducible apply State.raise_keeps
                 | with_reducible apply State.bmc_keeps | with_reducible apply State.setPwr_keeps
                 | with_reducible exact keepsOpt_none | with_reducible exact keepsOpt2_none | with_reducible apply keepsOpt_some
                 | with_reducible apply keepsOpt2_some | (simp only [keeps_mk]; with_reducible refine Keeps.fold ?_)
                 | with_reducible apply keeps_ite | (split <;> try dsimp only)
                 | with_reducible refine keeps_of_pair (by assumption) ?_ | with_reducible refine keeps_of_triple (by assumption) ?_
                 | with_reducible refine keeps_of_some (by assumption) ?_ | with_reducible refine keeps_of_some2 (by assumption) ?_)

theorem State.tallowTrigger_keeps {s0 : State} {s : State} (h0 : Keeps s0 s) :
    Keeps s0 (State.tallowTrigger s) := by
  unfold State.tallowTrigger
  try dsimp only
  repeat' (first | with_reducible assumption | with_reducible apply State.setPwr_keeps | with_reducible apply keepsOpt_map
                 | with_reducible apply keepsOpt2_mapPair | with_reducible apply keepsOpt2_map | with_reducible apply keeps_getD
                 | (simp only [keeps_mk]; with_reducible refine Keeps.fold ?_) | with_reducible apply keeps_ite
                 | (split <;> try dsimp only))

theorem State.tallowBarrier_keeps {s0 : State} {s : State} (h0 : Keeps s0 s) :
    Keeps s0 (State.tallowBarrier s) := by
  unfold State.tallowBarrier
  repeat' (first | with_reducible assumption | with_reducible apply State.tallowTrigger_keeps | with_reducible apply keeps_ite
                 | (split <;> try dsimp only))

theorem State.hintEffect_keeps {s0 : State} {s : State} {h : Nat} (h0 : Keeps s0 s) :
    Keeps s0 (State.hintEffect s h) := by
  unfold State.hintEffect
  try dsimp only
  repeat' (first | with_reducible assumption | (intro _; try dsimp only) | with_reducible apply State.wakeDom_keeps
                 | with_reducible apply State.setPwr_keeps | with_reducible apply State.tallowTrigger_keeps
                 | with_reducible apply keepsOpt_map | with_reducible apply keepsOpt2_mapPair | with_reducible apply keepsOpt2_map
                 | with_reducible apply keeps_foldl | with_reducible apply keeps_foldl_pair | with_reducible apply keeps_foldl_triple
                 | (simp only [keeps_mk]; with_reducible refine Keeps.fold ?_) | with_reducible apply keeps_ite
                 | (split <;> try dsimp only))

theorem State.takeHint_keeps {s0 : State} {s : State} {h at_ : Nat} (h0 : Keeps s0 s) :
    KeepsOpt s0 (State.takeHint s h at_) := by
  unfold State.takeHint
  try dsimp only
  repeat' (first | with_reducible assumption | with_reducible apply State.hintEffect_keeps | with_reducible apply State.setPwr_keeps
                 | with_reducible exact keepsOpt_none | with_reducible exact keepsOpt2_none | with_reducible apply keepsOpt_some
                 | with_reducible apply keepsOpt2_some | (simp only [keeps_mk]; with_reducible refine Keeps.fold ?_)
                 | with_reducible apply keeps_ite | (split <;> try dsimp only))

end Sys2Proof.Machine
end

