-- ==== Sys2Proof/Laws/KeepTransport.lean ====
section
/-!
SUPPORT. What the operations of Machine/Transport.lean keep.
-/

namespace Sys2Proof.Machine

set_option linter.unusedTactic false
set_option linter.unreachableTactic false
set_option linter.unusedVariables false

theorem State.probe_keeps {s0 : State} {s : State} {m : Nat} (h0 : Keeps s0 s) :
    Keeps s0 (State.probe s m) := by
  unfold State.probe
  try dsimp only
  repeat' (first | with_reducible assumption | with_reducible apply State.inject_keeps
                 | (simp only [keeps_mk]; with_reducible refine Keeps.fold ?_) | with_reducible apply keeps_ite
                 | (split <;> try dsimp only))

theorem State.epochNotice_keeps {s0 : State} {s : State} {m : Nat} (h0 : Keeps s0 s) :
    Keeps s0 (State.epochNotice s m) := by
  unfold State.epochNotice
  try dsimp only
  repeat' (first | with_reducible assumption | with_reducible apply State.inject_keeps
                 | (simp only [keeps_mk]; with_reducible refine Keeps.fold ?_) | with_reducible apply keeps_ite
                 | (split <;> try dsimp only) | with_reducible refine keeps_of_pair (by assumption) ?_
                 | with_reducible refine keeps_of_triple (by assumption) ?_ | with_reducible refine keeps_of_some (by assumption) ?_
                 | with_reducible refine keeps_of_some2 (by assumption) ?_)

theorem State.setQp_keeps {s0 : State} {s : State} {n : Nat} {q : Qp} (h0 : Keeps s0 s) :
    Keeps s0 (State.setQp s n q) := by
  unfold State.setQp
  try dsimp only
  repeat' (first | with_reducible assumption | (simp only [keeps_mk]; with_reducible refine Keeps.fold ?_))

theorem State.updCtx_keeps {s0 : State} {s : State} {n : Nat} {f : Qp → Qp} (h0 : Keeps s0 s) :
    Keeps s0 (State.updCtx s n f) := by
  unfold State.updCtx
  try dsimp only
  repeat' (first | with_reducible assumption | (intro _; try dsimp only)
                 | (simp only [keeps_mk]; with_reducible refine Keeps.fold ?_) | with_reducible apply keeps_ite)

theorem State.drbgUse_keeps {s0 : State} {s : State} {g : Nat} (h0 : Keeps s0 s) :
    Keeps s0 (State.drbgUse s g) := by
  unfold State.drbgUse
  try dsimp only
  repeat' (first | with_reducible assumption | (intro _; try dsimp only) | with_reducible apply keeps_getD
                 | (simp only [keeps_mk]; with_reducible refine Keeps.fold ?_) | with_reducible apply keeps_ite)

theorem State.bindEngine_keeps {s0 : State} {s : State} {n : Nat} (h0 : Keeps s0 s) :
    Keeps s0 (State.bindEngine s n) := by
  unfold State.bindEngine
  try dsimp only
  repeat' (first | with_reducible assumption | with_reducible apply State.wakeDom_keeps | with_reducible apply State.setQp_keeps
                 | (simp only [keeps_mk]; with_reducible refine Keeps.fold ?_) | with_reducible apply keeps_ite
                 | (split <;> try dsimp only) | with_reducible refine keeps_of_pair (by assumption) ?_
                 | with_reducible refine keeps_of_triple (by assumption) ?_ | with_reducible refine keeps_of_some (by assumption) ?_
                 | with_reducible refine keeps_of_some2 (by assumption) ?_)

theorem State.retireEngine_keeps {s0 : State} {s : State} {e : Nat} (h0 : Keeps s0 s) :
    Keeps s0 (State.retireEngine s e) := by
  unfold State.retireEngine
  simp only [keeps_mk]
  refine Keeps.fold ?_
  exact State.setFlag_keeps (State.setRegF_keeps h0)

theorem State.keyUse_keeps {s0 : State} {s : State} {n : Nat} (h0 : Keeps s0 s) :
    Keeps s0 (State.keyUse s n).2 := by
  unfold State.keyUse
  try dsimp only
  repeat' (first | with_reducible assumption | (intro _; try dsimp only) | with_reducible apply State.drawn_keeps
                 | with_reducible apply State.setFlag_keeps | with_reducible apply State.elog_keeps
                 | with_reducible apply State.ecc_keeps | with_reducible apply State.drbgUse_keeps
                 | (simp only [keeps_mk]; with_reducible refine Keeps.fold ?_) | with_reducible apply keeps_ite
                 | (split <;> try dsimp only) | with_reducible refine keeps_of_pair (by assumption) ?_
                 | with_reducible refine keeps_of_triple (by assumption) ?_ | with_reducible refine keeps_of_some (by assumption) ?_
                 | with_reducible refine keeps_of_some2 (by assumption) ?_)

theorem State.throughEngine_keeps {s0 : State} {s : State} {n : Nat} (h0 : Keeps s0 s) :
    Keeps s0 (State.throughEngine s n).2 := by
  unfold State.throughEngine
  try dsimp only
  repeat' (first | with_reducible assumption | (intro _; try dsimp only) | with_reducible apply State.drawn_keeps
                 | with_reducible apply State.setFlag_keeps | with_reducible apply State.count_keeps
                 | with_reducible apply State.retireEngine_keeps | with_reducible apply State.keyUse_keeps
                 | with_reducible apply keepsOpt_bind | with_reducible apply keepsOpt_map | with_reducible apply keepsOpt2_mapPair
                 | with_reducible apply keepsOpt2_map | (simp only [keeps_mk]; with_reducible refine Keeps.fold ?_)
                 | with_reducible apply keeps_ite | (split <;> try dsimp only)
                 | with_reducible refine keeps_of_pair (by assumption) ?_ | with_reducible refine keeps_of_triple (by assumption) ?_
                 | with_reducible refine keeps_of_some (by assumption) ?_ | with_reducible refine keeps_of_some2 (by assumption) ?_)

theorem State.sealNumber_keeps {s0 : State} {n : Nat} {y0 : Nat} {y1 : State} (h0 : Keeps s0 y1) :
    Keeps s0 (State.sealNumber n y0 y1).2 := by
  induction y0 generalizing y1 n with
  | zero =>
    unfold State.sealNumber
    try dsimp only
    repeat' (first | with_reducible assumption | (intro _; try dsimp only) | with_reducible apply State.updCtx_keeps
                   | with_reducible apply State.bindEngine_keeps | with_reducible apply State.throughEngine_keeps
                   | with_reducible exact keepsOpt_none | with_reducible exact keepsOpt2_none | with_reducible apply keepsOpt_some
                   | with_reducible apply keepsOpt2_some | with_reducible apply keepsOpt_bind | with_reducible apply keepsOpt_map
                   | with_reducible apply keepsOpt2_mapPair | with_reducible apply keepsOpt2_map
                   | (simp only [keeps_mk]; with_reducible refine Keeps.fold ?_) | with_reducible apply keeps_ite
                   | (split <;> try dsimp only) | with_reducible refine keeps_of_pair (by assumption) ?_
                   | with_reducible refine keeps_of_triple (by assumption) ?_
                   | with_reducible refine keeps_of_some (by assumption) ?_
                   | with_reducible refine keeps_of_some2 (by assumption) ?_)
  | succ _ ih =>
    unfold State.sealNumber
    try dsimp only
    repeat' (first | with_reducible assumption | (intro _; try dsimp only) | with_reducible apply ih
                   | with_reducible apply State.updCtx_keeps | with_reducible apply State.bindEngine_keeps
                   | with_reducible apply State.throughEngine_keeps | with_reducible exact keepsOpt_none
                   | with_reducible exact keepsOpt2_none | with_reducible apply keepsOpt_some | with_reducible apply keepsOpt2_some
                   | with_reducible apply keepsOpt_bind | with_reducible apply keepsOpt_map | with_reducible apply keepsOpt2_mapPair
                   | with_reducible apply keepsOpt2_map | (simp only [keeps_mk]; with_reducible refine Keeps.fold ?_)
                   | with_reducible apply keeps_ite | (split <;> try dsimp only)
                   | with_reducible refine keeps_of_pair (by assumption) ?_
                   | with_reducible refine keeps_of_triple (by assumption) ?_
                   | with_reducible refine keeps_of_some (by assumption) ?_
                   | with_reducible refine keeps_of_some2 (by assumption) ?_)

theorem State.sendSealed_keeps {s0 : State} {s : State} {key : Bytes} {salt : Bytes} {num : Nat} {before : List Pkt} {ps : List Pkt} (h0 : Keeps s0 s) :
    Keeps s0 (State.sendSealed s key salt num before ps) := by
  unfold State.sendSealed
  try dsimp only
  repeat' (first | with_reducible assumption | (intro _; try dsimp only) | with_reducible apply State.countN_keeps
                 | with_reducible apply State.inject_keeps | with_reducible apply keeps_foldl
                 | with_reducible apply keeps_foldl_pair | with_reducible apply keeps_foldl_triple
                 | with_reducible apply keepsOpt_foldl | (simp only [keeps_mk]; with_reducible refine Keeps.fold ?_)
                 | with_reducible apply keeps_ite)

theorem State.awaitCipher_keeps {s0 : State} {s : State} {k : Nat} {fresh : Bool} (h0 : Keeps s0 s) :
    Keeps s0 (State.awaitCipher s k fresh) := by
  unfold State.awaitCipher
  try dsimp only
  repeat' (first | with_reducible assumption | (intro _; try dsimp only)
                 | (simp only [keeps_mk]; with_reducible refine Keeps.fold ?_) | with_reducible apply keeps_ite)

theorem State.setSegment_keeps {s0 : State} {s : State} {w : Nat} {id : Nat} {k : Nat} {num : Nat} {ps : List Pkt} (h0 : Keeps s0 s) :
    Keeps s0 (State.setSegment s w id k num ps) := by
  unfold State.setSegment
  try dsimp only
  repeat' (first | with_reducible assumption | (intro _; try dsimp only) | with_reducible apply State.updWq_keeps
                 | with_reducible apply keepsOpt_map | with_reducible apply keepsOpt2_mapPair | with_reducible apply keepsOpt2_map
                 | (simp only [keeps_mk]; with_reducible refine Keeps.fold ?_) | with_reducible apply keeps_ite
                 | (split <;> try dsimp only) | with_reducible refine keeps_of_pair (by assumption) ?_
                 | with_reducible refine keeps_of_some (by assumption) ?_ | with_reducible refine keeps_of_some2 (by assumption) ?_)

theorem State.sendSegment_keeps {s0 : State} {s : State} {txn : Nat} {n : Nat} {key : Bytes} {salt : Bytes} {top : Nat} {w : Nat} {id : Nat} {k : Nat} {ps : List Pkt} {fresh : Bool} (h0 : Keeps s0 s) :
    Keeps s0 (State.sendSegment s txn n key salt top w id k ps fresh) := by
  unfold State.sendSegment
  try dsimp only
  repeat' (first | with_reducible assumption | (intro _; try dsimp only) | with_reducible apply State.sealNumber_keeps
                 | with_reducible apply State.sendSealed_keeps | with_reducible apply State.awaitCipher_keeps
                 | with_reducible apply State.setSegment_keeps | with_reducible exact keepsOpt_none
                 | with_reducible exact keepsOpt2_none | with_reducible apply keepsOpt_some | with_reducible apply keepsOpt2_some
                 | with_reducible apply keepsOpt_bind | with_reducible apply keepsOpt_map | with_reducible apply keepsOpt2_mapPair
                 | with_reducible apply keepsOpt2_map | with_reducible apply keeps_getD
                 | (simp only [keeps_mk]; with_reducible refine Keeps.fold ?_) | with_reducible apply keeps_ite
                 | (split <;> try dsimp only) | with_reducible refine keeps_of_pair (by assumption) ?_
                 | with_reducible refine keeps_of_triple (by assumption) ?_ | with_reducible refine keeps_of_some (by assumption) ?_
                 | with_reducible refine keeps_of_some2 (by assumption) ?_)

theorem State.setPsn_keeps {s0 : State} {s : State} {qpn : Option Nat} {m : Nat} {tc : Nat} {v : Nat} (h0 : Keeps s0 s) :
    Keeps s0 (State.setPsn s qpn m tc v) := by
  unfold State.setPsn
  try dsimp only
  repeat' (first | with_reducible assumption | (intro _; try dsimp only) | with_reducible apply State.updCtx_keeps
                 | (simp only [keeps_mk]; with_reducible refine Keeps.fold ?_) | with_reducible apply keeps_ite
                 | (split <;> try dsimp only) | with_reducible refine keeps_of_pair (by assumption) ?_
                 | with_reducible refine keeps_of_triple (by assumption) ?_ | with_reducible refine keeps_of_some (by assumption) ?_
                 | with_reducible refine keeps_of_some2 (by assumption) ?_)

theorem State.unsend_keeps {s0 : State} {s : State} {t : Txn} (h0 : Keeps s0 s) :
    Keeps s0 (State.unsend s t) := by
  unfold State.unsend
  try dsimp only
  repeat' (first | with_reducible assumption | (intro _; try dsimp only)
                 | (simp only [keeps_mk]; with_reducible refine Keeps.fold ?_) | with_reducible apply keeps_ite)

theorem State.sendTxn_keeps {s0 : State} {s : State} {k : Nat} {fresh : Bool} (h0 : Keeps s0 s) :
    Keeps s0 (State.sendTxn s k fresh) := by
  unfold State.sendTxn
  try dsimp only
  repeat' (first | with_reducible assumption | (intro _; try dsimp only) | with_reducible apply State.inject_keeps
                 | with_reducible apply State.bindEngine_keeps | with_reducible apply State.sealNumber_keeps
                 | with_reducible apply State.sendSealed_keeps | with_reducible apply State.awaitCipher_keeps
                 | with_reducible apply State.sendSegment_keeps | with_reducible apply State.unsend_keeps
                 | with_reducible exact keepsOpt_none | with_reducible exact keepsOpt2_none | with_reducible apply keepsOpt_some
                 | with_reducible apply keepsOpt2_some | with_reducible apply keepsOpt_bind | with_reducible apply keepsOpt_map
                 | with_reducible apply keepsOpt2_mapPair | with_reducible apply keepsOpt2_map | with_reducible apply keeps_foldl
                 | with_reducible apply keeps_foldl_pair | with_reducible apply keeps_foldl_triple
                 | with_reducible apply keepsOpt_foldl | with_reducible apply keeps_getD
                 | (simp only [keeps_mk]; with_reducible refine Keeps.fold ?_) | with_reducible apply keeps_ite
                 | (split <;> try dsimp only) | with_reducible refine keeps_of_pair (by assumption) ?_
                 | with_reducible refine keeps_of_triple (by assumption) ?_ | with_reducible refine keeps_of_some (by assumption) ?_
                 | with_reducible refine keeps_of_some2 (by assumption) ?_)

theorem State.countIssued_keeps {s0 : State} {s : State} {n : Option Nat} {units : Nat} (h0 : Keeps s0 s) :
    Keeps s0 (State.countIssued s n units) := by
  unfold State.countIssued
  try dsimp only
  repeat' (first | with_reducible assumption | (intro _; try dsimp only) | with_reducible apply State.raise_keeps
                 | with_reducible apply State.setInst_keeps | (simp only [keeps_mk]; with_reducible refine Keeps.fold ?_)
                 | with_reducible apply keeps_ite | (split <;> try dsimp only)
                 | with_reducible refine keeps_of_pair (by assumption) ?_ | with_reducible refine keeps_of_triple (by assumption) ?_
                 | with_reducible refine keeps_of_some (by assumption) ?_ | with_reducible refine keeps_of_some2 (by assumption) ?_)

theorem State.txnsChanged_keeps {s0 : State} {s : State} {qpn : Option Nat} (h0 : Keeps s0 s) :
    Keeps s0 (State.txnsChanged s qpn) := by
  unfold State.txnsChanged
  try dsimp only
  repeat' (first | with_reducible assumption | (intro _; try dsimp only) | with_reducible apply State.updCtx_keeps
                 | (simp only [keeps_mk]; with_reducible refine Keeps.fold ?_) | with_reducible apply keeps_ite
                 | (split <;> try dsimp only) | with_reducible refine keeps_of_pair (by assumption) ?_
                 | with_reducible refine keeps_of_triple (by assumption) ?_ | with_reducible refine keeps_of_some (by assumption) ?_
                 | with_reducible refine keeps_of_some2 (by assumption) ?_)

theorem State.startTxn_keeps {s0 : State} {s : State} {k : Nat} {owner : TxnOwner} {qpn : Option Nat} {connected : Bool} {page : Option Nat} {p : Pkt} {data : Bytes} {opOff : Nat} {opLen : Nat} (h0 : Keeps s0 s) :
    Keeps s0 (State.startTxn s k owner qpn connected page p data opOff opLen) := by
  unfold State.startTxn
  try dsimp only
  repeat' (first | with_reducible assumption | (intro _; try dsimp only) | with_reducible apply State.count_keeps
                 | with_reducible apply State.setPsn_keeps | with_reducible apply State.sendTxn_keeps
                 | with_reducible apply State.countIssued_keeps | with_reducible apply State.txnsChanged_keeps
                 | with_reducible apply keepsOpt_map | with_reducible apply keepsOpt2_mapPair | with_reducible apply keepsOpt2_map
                 | (simp only [keeps_mk]; with_reducible refine Keeps.fold ?_) | with_reducible apply keeps_ite
                 | (split <;> try dsimp only) | with_reducible refine keeps_of_pair (by assumption) ?_
                 | with_reducible refine keeps_of_some (by assumption) ?_ | with_reducible refine keeps_of_some2 (by assumption) ?_)

theorem State.allocWaits_keeps {s0 : State} {s : State} {o : TxnOwner} (h0 : Keeps s0 s) :
    Keeps s0 (State.allocWaits s o) := by
  unfold State.allocWaits
  try dsimp only
  repeat' (first | with_reducible assumption | (intro _; try dsimp only)
                 | (simp only [keeps_mk]; with_reducible refine Keeps.fold ?_) | with_reducible apply keeps_ite
                 | (split <;> try dsimp only) | with_reducible refine keeps_of_pair (by assumption) ?_
                 | with_reducible refine keeps_of_some (by assumption) ?_ | with_reducible refine keeps_of_some2 (by assumption) ?_)

theorem State.allocDone_keeps {s0 : State} {s : State} {o : TxnOwner} (h0 : Keeps s0 s) :
    Keeps s0 (State.allocDone s o) := by
  unfold State.allocDone
  try dsimp only
  repeat' (first | with_reducible assumption | (intro _; try dsimp only)
                 | (simp only [keeps_mk]; with_reducible refine Keeps.fold ?_) | with_reducible apply keeps_ite)

theorem State.freeTxn_keeps {s0 : State} {s : State} {k : Nat} (h0 : Keeps s0 s) :
    Keeps s0 (State.freeTxn s k) := by
  unfold State.freeTxn
  try dsimp only
  repeat' (first | with_reducible assumption | (intro _; try dsimp only) | with_reducible apply State.txnsChanged_keeps
                 | with_reducible apply keepsOpt_bind | with_reducible apply keepsOpt_map | with_reducible apply keepsOpt2_mapPair
                 | with_reducible apply keepsOpt2_map | (simp only [keeps_mk]; with_reducible refine Keeps.fold ?_)
                 | with_reducible apply keeps_ite)

theorem State.endTxn_keeps {s0 : State} {s : State} {k status reason : Nat} {remote : Bool} {data : Bytes} (h0 : Keeps s0 s) :
    Keeps s0 (State.endTxn s k status reason remote data) := by
  unfold State.endTxn
  try dsimp only
  repeat' (first | with_reducible assumption | with_reducible apply State.freeTxn_keeps
                 | (simp only [keeps_mk]; with_reducible refine Keeps.fold ?_) | with_reducible apply keeps_ite
                 | (split <;> try dsimp only) | with_reducible refine keeps_of_pair (by assumption) ?_
                 | with_reducible refine keeps_of_triple (by assumption) ?_ | with_reducible refine keeps_of_some (by assumption) ?_
                 | with_reducible refine keeps_of_some2 (by assumption) ?_)

theorem State.copyBucket_keeps {s0 : State} {s : State} {owner : TxnOwner} {bytes : Nat} (h0 : Keeps s0 s) :
    KeepsOpt s0 (State.copyBucket s owner bytes) := by
  unfold State.copyBucket
  try dsimp only
  repeat' (first | with_reducible assumption | (intro _; try dsimp only) | with_reducible exact keepsOpt_none
                 | with_reducible exact keepsOpt2_none | with_reducible apply keepsOpt_some | with_reducible apply keepsOpt2_some
                 | (simp only [keeps_mk]; with_reducible refine Keeps.fold ?_) | with_reducible apply keeps_ite
                 | (split <;> try dsimp only) | with_reducible refine keeps_of_pair (by assumption) ?_
                 | with_reducible refine keeps_of_some (by assumption) ?_ | with_reducible refine keeps_of_some2 (by assumption) ?_)

theorem State.tryControl_keeps {s0 : State} {s : State} {owner : TxnOwner} {p : Pkt} (h0 : Keeps s0 s) :
    Keeps s0 (State.tryControl s owner p).2 := by
  unfold State.tryControl
  try dsimp only
  repeat' (first | with_reducible assumption | (intro _; try dsimp only) | with_reducible apply State.bucket_keeps
                 | with_reducible apply State.probe_keeps | with_reducible apply State.startTxn_keeps
                 | with_reducible apply State.allocWaits_keeps | with_reducible apply State.copyBucket_keeps
                 | with_reducible apply keepsOpt_bind | with_reducible apply keepsOpt_map | with_reducible apply keepsOpt2_mapPair
                 | with_reducible apply keepsOpt2_map | (simp only [keeps_mk]; with_reducible refine Keeps.fold ?_)
                 | with_reducible apply keeps_ite | (split <;> try dsimp only)
                 | with_reducible refine keeps_of_pair (by assumption) ?_ | with_reducible refine keeps_of_triple (by assumption) ?_
                 | with_reducible refine keeps_of_some (by assumption) ?_ | with_reducible refine keeps_of_some2 (by assumption) ?_)

theorem State.ask_keeps {s0 : State} {s : State} {owner : TxnOwner} {p : Pkt} (h0 : Keeps s0 s) :
    Keeps s0 (State.ask s owner p) := by
  unfold State.ask
  try dsimp only
  repeat' (first | with_reducible assumption | (intro _; try dsimp only) | with_reducible apply State.tryControl_keeps
                 | (simp only [keeps_mk]; with_reducible refine Keeps.fold ?_) | with_reducible apply keeps_ite
                 | (split <;> try dsimp only) | with_reducible refine keeps_of_pair (by assumption) ?_
                 | with_reducible refine keeps_of_triple (by assumption) ?_ | with_reducible refine keeps_of_some (by assumption) ?_
                 | with_reducible refine keeps_of_some2 (by assumption) ?_)

theorem State.control_keeps {s0 : State} {s : State} {owner : TxnOwner} {typ dst tc partition : Nat} {payload : Bytes} (h0 : Keeps s0 s) :
    Keeps s0 (State.control s owner typ dst tc partition payload) := by
  unfold State.control
  try dsimp only
  repeat' (first | with_reducible assumption | with_reducible apply State.ask_keeps
                 | (simp only [keeps_mk]; with_reducible refine Keeps.fold ?_))

theorem State.passWaiting_keeps {s0 : State} {s : State} (h0 : Keeps s0 s) :
    Keeps s0 (State.passWaiting s) := by
  unfold State.passWaiting
  try dsimp only
  repeat' (first | with_reducible assumption | (intro _; try dsimp only) | with_reducible apply State.inject_keeps
                 | with_reducible apply keeps_foldl | with_reducible apply keeps_foldl_pair
                 | with_reducible apply keeps_foldl_triple | with_reducible apply keepsOpt_foldl
                 | (simp only [keeps_mk]; with_reducible refine Keeps.fold ?_) | with_reducible apply keeps_ite)

theorem State.tryWaiting_keeps {s0 : State} {s : State} {c : TxnOwner × Pkt} (h0 : Keeps s0 s) :
    Keeps s0 (State.tryWaiting s c) := by
  unfold State.tryWaiting
  try dsimp only
  repeat' (first | with_reducible assumption | (intro _; try dsimp only) | with_reducible apply State.tryControl_keeps
                 | with_reducible apply State.control_keeps | (simp only [keeps_mk]; with_reducible refine Keeps.fold ?_)
                 | with_reducible apply keeps_ite | (split <;> try dsimp only)
                 | with_reducible refine keeps_of_pair (by assumption) ?_ | with_reducible refine keeps_of_triple (by assumption) ?_
                 | with_reducible refine keeps_of_some (by assumption) ?_ | with_reducible refine keeps_of_some2 (by assumption) ?_)

theorem State.serveLane_keeps {s0 : State} {k : Nat} {y0 : Nat} {y1 : State} (h0 : Keeps s0 y1) :
    Keeps s0 (State.serveLane k y0 y1) := by
  induction y0 generalizing y1 k with
  | zero =>
    unfold State.serveLane
    try dsimp only
    repeat' (first | with_reducible assumption | (intro _; try dsimp only) | with_reducible apply State.tryWaiting_keeps
                   | with_reducible apply keepsOpt_bind | with_reducible apply keepsOpt_map | with_reducible apply keepsOpt2_mapPair
                   | with_reducible apply keepsOpt2_map | with_reducible apply keeps_getD
                   | (simp only [keeps_mk]; with_reducible refine Keeps.fold ?_) | with_reducible apply keeps_ite
                   | (split <;> try dsimp only) | with_reducible refine keeps_of_pair (by assumption) ?_
                   | with_reducible refine keeps_of_triple (by assumption) ?_
                   | with_reducible refine keeps_of_some (by assumption) ?_
                   | with_reducible refine keeps_of_some2 (by assumption) ?_)
  | succ _ ih =>
    unfold State.serveLane
    try dsimp only
    repeat' (first | with_reducible assumption | (intro _; try dsimp only) | with_reducible apply ih
                   | with_reducible apply State.tryWaiting_keeps | with_reducible apply keepsOpt_bind
                   | with_reducible apply keepsOpt_map | with_reducible apply keepsOpt2_mapPair | with_reducible apply keepsOpt2_map
                   | with_reducible apply keeps_getD | (simp only [keeps_mk]; with_reducible refine Keeps.fold ?_)
                   | with_reducible apply keeps_ite | (split <;> try dsimp only)
                   | with_reducible refine keeps_of_pair (by assumption) ?_
                   | with_reducible refine keeps_of_triple (by assumption) ?_
                   | with_reducible refine keeps_of_some (by assumption) ?_
                   | with_reducible refine keeps_of_some2 (by assumption) ?_)

theorem State.pump_keeps {s0 : State} {s : State} (h0 : Keeps s0 s) :
    Keeps s0 (State.pump s) := by
  unfold State.pump
  try dsimp only
  repeat' (first | with_reducible assumption | (intro _; try dsimp only) | with_reducible apply State.control_keeps
                 | with_reducible apply State.passWaiting_keeps | with_reducible apply State.tryWaiting_keeps
                 | with_reducible apply State.serveLane_keeps | with_reducible apply keepsOpt_map
                 | with_reducible apply keepsOpt2_mapPair | with_reducible apply keepsOpt2_map | with_reducible apply keeps_foldl
                 | with_reducible apply keeps_foldl_pair | with_reducible apply keeps_foldl_triple
                 | with_reducible apply keepsOpt_foldl | (simp only [keeps_mk]; with_reducible refine Keeps.fold ?_)
                 | with_reducible apply keeps_ite | (split <;> try dsimp only)
                 | with_reducible refine keeps_of_pair (by assumption) ?_ | with_reducible refine keeps_of_triple (by assumption) ?_
                 | with_reducible refine keeps_of_some (by assumption) ?_ | with_reducible refine keeps_of_some2 (by assumption) ?_)

theorem State.qpErrorRecord_keeps {s0 : State} {s : State} {n : Nat} {cq : Nat} {status : Nat} (h0 : Keeps s0 s) :
    Keeps s0 (State.qpErrorRecord s n cq status) := by
  unfold State.qpErrorRecord
  try dsimp only
  repeat' (first | with_reducible assumption | (intro _; try dsimp only) | with_reducible apply State.cqPost_keeps
                 | (simp only [keeps_mk]; with_reducible refine Keeps.fold ?_) | with_reducible apply keeps_ite)

theorem State.qpError_keeps {s0 : State} {s : State} {n status others : Nat} (h0 : Keeps s0 s) :
    Keeps s0 (State.qpError s n status others) := by
  unfold State.qpError
  try dsimp only
  repeat' (first | with_reducible assumption | (intro _; try dsimp only) | with_reducible apply State.setQp_keeps
                 | with_reducible apply State.count_keeps | with_reducible apply State.endTxn_keeps | with_reducible apply keeps_foldl
                 | with_reducible apply keeps_foldl_pair | with_reducible apply keeps_foldl_triple
                 | (simp only [keeps_mk]; with_reducible refine Keeps.fold ?_) | with_reducible apply keeps_ite
                 | (split <;> try dsimp only) | with_reducible refine keeps_of_pair (by assumption) ?_
                 | with_reducible refine keeps_of_triple (by assumption) ?_ | with_reducible refine keeps_of_some (by assumption) ?_
                 | with_reducible refine keeps_of_some2 (by assumption) ?_)

theorem State.sealWaiting_keeps {s0 : State} {s : State} (h0 : Keeps s0 s) :
    Keeps s0 (State.sealWaiting s) := by
  unfold State.sealWaiting
  try dsimp only
  repeat' (first | with_reducible assumption | (intro _; try dsimp only) | with_reducible apply State.sendTxn_keeps
                 | with_reducible apply keepsOpt_bind | with_reducible apply keepsOpt_map | with_reducible apply keepsOpt2_mapPair
                 | with_reducible apply keepsOpt2_map | with_reducible apply keeps_foldl | with_reducible apply keeps_foldl_pair
                 | with_reducible apply keeps_foldl_triple | with_reducible apply keepsOpt_foldl
                 | (simp only [keeps_mk]; with_reducible refine Keeps.fold ?_) | with_reducible apply keeps_ite
                 | (split <;> try dsimp only) | with_reducible refine keeps_of_pair (by assumption) ?_
                 | with_reducible refine keeps_of_triple (by assumption) ?_ | with_reducible refine keeps_of_some (by assumption) ?_
                 | with_reducible refine keeps_of_some2 (by assumption) ?_)

theorem State.retransmit_keeps {s0 : State} {s : State} {k : Nat} (h0 : Keeps s0 s) :
    Keeps s0 (State.retransmit s k) := by
  unfold State.retransmit
  try dsimp only
  repeat' (first | with_reducible assumption | with_reducible apply State.count_keeps | with_reducible apply State.sendTxn_keeps
                 | (simp only [keeps_mk]; with_reducible refine Keeps.fold ?_) | with_reducible apply keeps_ite
                 | (split <;> try dsimp only) | with_reducible refine keeps_of_pair (by assumption) ?_
                 | with_reducible refine keeps_of_triple (by assumption) ?_ | with_reducible refine keeps_of_some (by assumption) ?_
                 | with_reducible refine keeps_of_some2 (by assumption) ?_)

theorem State.timeoutFault_keeps {s0 : State} {s : State} {part : Nat} {dst : Nat} (h0 : Keeps s0 s) :
    Keeps s0 (State.timeoutFault s part dst) := by
  unfold State.timeoutFault
  try dsimp only
  repeat' (first | with_reducible assumption | (intro _; try dsimp only)
                 | (simp only [keeps_mk]; with_reducible refine Keeps.fold ?_) | with_reducible apply keeps_ite
                 | (split <;> try dsimp only) | with_reducible refine keeps_of_pair (by assumption) ?_
                 | with_reducible refine keeps_of_some (by assumption) ?_ | with_reducible refine keeps_of_some2 (by assumption) ?_)

theorem State.txnTimeout_keeps {s0 : State} {s : State} {k : Nat} (h0 : Keeps s0 s) :
    Keeps s0 (State.txnTimeout s k) := by
  unfold State.txnTimeout
  try dsimp only
  repeat' (first | with_reducible assumption | (intro _; try dsimp only) | with_reducible apply State.count_keeps
                 | with_reducible apply State.setPsn_keeps | with_reducible apply State.endTxn_keeps
                 | with_reducible apply State.qpError_keeps | with_reducible apply State.timeoutFault_keeps
                 | with_reducible apply keepsOpt_map | with_reducible apply keepsOpt2_mapPair | with_reducible apply keepsOpt2_map
                 | with_reducible apply keeps_foldl | with_reducible apply keeps_foldl_pair
                 | with_reducible apply keeps_foldl_triple | with_reducible apply keepsOpt_foldl
                 | (simp only [keeps_mk]; with_reducible refine Keeps.fold ?_) | with_reducible apply keeps_ite
                 | (split <;> try dsimp only) | with_reducible refine keeps_of_pair (by assumption) ?_
                 | with_reducible refine keeps_of_triple (by assumption) ?_ | with_reducible refine keeps_of_some (by assumption) ?_
                 | with_reducible refine keeps_of_some2 (by assumption) ?_)

end Sys2Proof.Machine
end

