-- ==== Sys2Proof/Laws/KeepTree.lean ====
section
/-!
SUPPORT. What the operations of Machine/Tree.lean keep.
-/

namespace Sys2Proof.Machine

set_option linter.unusedTactic false
set_option linter.unreachableTactic false
set_option linter.unusedVariables false

theorem State.setTree_keeps {s0 : State} {s : State} {t : TreeOp} (h0 : Keeps s0 s) :
    Keeps s0 (State.setTree s t) := by
  unfold State.setTree
  try dsimp only
  repeat' (first | with_reducible assumption | (intro _; try dsimp only) | (simp only [keeps_mk]; with_reducible refine Keeps.fold ?_))

theorem State.treeTell_keeps {s0 : State} {s : State} {e : TreeEv} (h0 : Keeps s0 s) :
    Keeps s0 (State.treeTell s e) := by
  unfold State.treeTell
  try dsimp only
  repeat' (first | with_reducible assumption | (simp only [keeps_mk]; with_reducible refine Keeps.fold ?_))

theorem State.sendUp_keeps {s0 : State} {s : State} {t : TreeOp} {dst count : Nat} (h0 : Keeps s0 s) :
    Keeps s0 (State.sendUp s t dst count) := by
  unfold State.sendUp
  repeat' (first | with_reducible assumption | with_reducible apply State.control_keeps | with_reducible apply State.count_keeps)

theorem State.ridge_keeps {s0 : State} {s : State} {t : TreeOp} (h0 : Keeps s0 s) :
    Keeps s0 (State.ridge s t) := by
  unfold State.ridge
  try dsimp only
  repeat' (first | with_reducible assumption | (intro _; try dsimp only) | with_reducible apply State.setTree_keeps
                 | with_reducible apply State.treeTell_keeps | with_reducible apply keepsOpt_map | with_reducible apply keepsOpt2_mapPair
                 | with_reducible apply keepsOpt2_map | with_reducible apply keeps_getD
                 | (simp only [keeps_mk]; with_reducible refine Keeps.fold ?_) | with_reducible apply keeps_ite
                 | (split <;> try dsimp only))

theorem State.rackUp_keeps {s0 : State} {s : State} {t : TreeOp} {rack : Nat} {lost : List Nat} (h0 : Keeps s0 s) :
    Keeps s0 (State.rackUp s t rack lost) := by
  unfold State.rackUp
  try dsimp only
  repeat' (first | with_reducible assumption | with_reducible apply State.ridge_keeps
                 | (simp only [keeps_mk]; with_reducible refine Keeps.fold ?_))

theorem State.combine_keeps {s0 : State} {s : State} {t : TreeOp} (h0 : Keeps s0 s) :
    Keeps s0 (State.combine s t) := by
  unfold State.combine
  try dsimp only
  repeat' (first | with_reducible assumption | (intro _; try dsimp only) | with_reducible apply State.rackUp_keeps
                 | with_reducible apply State.setTree_keeps | with_reducible apply State.sendUp_keeps
                 | with_reducible apply State.ridge_keeps | with_reducible exact keepsOpt_none | with_reducible exact keepsOpt2_none
                 | with_reducible apply keepsOpt_some | with_reducible apply keepsOpt2_some
                 | (simp only [keeps_mk]; with_reducible refine Keeps.fold ?_) | with_reducible apply keeps_ite
                 | (split <;> try dsimp only))

theorem State.countUp_keeps {s0 : State} {s : State} {t : TreeOp} {m : Nat} (h0 : Keeps s0 s) :
    Keeps s0 (State.countUp s t m) := by
  unfold State.countUp
  try dsimp only
  repeat' (first | with_reducible assumption | with_reducible apply State.combine_keeps
                 | (simp only [keeps_mk]; with_reducible refine Keeps.fold ?_))

theorem State.ownUp_keeps {s0 : State} {s : State} {t : TreeOp} (h0 : Keeps s0 s) :
    Keeps s0 (State.ownUp s t) := by
  unfold State.ownUp
  try dsimp only
  repeat' (first | with_reducible assumption | with_reducible apply State.countUp_keeps | with_reducible apply State.setTree_keeps
                 | with_reducible apply State.sendUp_keeps | with_reducible apply keeps_getD
                 | (simp only [keeps_mk]; with_reducible refine Keeps.fold ?_) | with_reducible apply keeps_ite
                 | (split <;> try dsimp only))

theorem State.ownUpAgain_keeps {s0 : State} {s : State} {t : TreeOp} (h0 : Keeps s0 s) :
    Keeps s0 (State.ownUpAgain s t) := by
  unfold State.ownUpAgain
  try dsimp only
  repeat' (first | with_reducible assumption | (intro _; try dsimp only) | with_reducible apply State.count_keeps
                 | with_reducible apply State.ownUp_keeps | (simp only [keeps_mk]; with_reducible refine Keeps.fold ?_)
                 | with_reducible apply keeps_ite | (split <;> try dsimp only)
                 | with_reducible refine keeps_of_pair (by assumption) ?_ | with_reducible refine keeps_of_some (by assumption) ?_
                 | with_reducible refine keeps_of_some2 (by assumption) ?_)

theorem State.treeAgain_keeps {s0 : State} {s : State} {t : TreeOp} (h0 : Keeps s0 s) :
    Keeps s0 (State.treeAgain s t) := by
  unfold State.treeAgain
  try dsimp only
  repeat' (first | with_reducible assumption | (intro _; try dsimp only) | with_reducible apply State.count_keeps
                 | with_reducible apply State.sendUp_keeps | with_reducible apply State.ownUpAgain_keeps
                 | (simp only [keeps_mk]; with_reducible refine Keeps.fold ?_) | with_reducible apply keeps_ite
                 | (split <;> try dsimp only) | with_reducible refine keeps_of_pair (by assumption) ?_
                 | with_reducible refine keeps_of_some (by assumption) ?_ | with_reducible refine keeps_of_some2 (by assumption) ?_)

theorem State.treeArrive_keeps {s0 : State} {s : State} {kind root tree seq partition : Nat} (h0 : Keeps s0 s) :
    Keeps s0 (State.treeArrive s kind root tree seq partition) := by
  unfold State.treeArrive
  try dsimp only
  repeat' (first | with_reducible assumption | with_reducible apply State.ownUp_keeps | with_reducible apply keeps_ite
                 | (split <;> try dsimp only))

theorem State.sendDown_keeps {s0 : State} {s : State} {cls partition : Nat} {payload : Bytes} {ms : List Nat} (h0 : Keeps s0 s) :
    Keeps s0 (State.sendDown s cls partition payload ms) := by
  unfold State.sendDown
  repeat' (first | with_reducible assumption | (intro _; try dsimp only) | with_reducible apply State.control_keeps
                 | with_reducible apply keeps_foldl | with_reducible apply keeps_foldl_pair | with_reducible apply keeps_foldl_triple)

theorem State.treeDown_keeps {s0 : State} {s : State} {t : TreeOp} {cls : Nat} {more : Bytes} (h0 : Keeps s0 s) :
    Keeps s0 (State.treeDown s t cls more) := by
  unfold State.treeDown
  try dsimp only
  repeat' (first | with_reducible assumption | (intro _; try dsimp only) | with_reducible apply State.setTree_keeps
                 | with_reducible apply State.sendDown_keeps | with_reducible apply State.treeTell_keeps
                 | with_reducible apply keeps_foldl | with_reducible apply keeps_foldl_pair | with_reducible apply keeps_foldl_triple
                 | (simp only [keeps_mk]; with_reducible refine Keeps.fold ?_))

theorem State.treeStart_keeps {s0 : State} {s : State} {kind tree seq partition : Nat} {extra : List Nat} {more : Bytes} (h0 : Keeps s0 s) :
    Keeps s0 (State.treeStart s kind tree seq partition extra more) := by
  unfold State.treeStart
  try dsimp only
  repeat' (first | with_reducible assumption | with_reducible apply State.treeDown_keeps
                 | (simp only [keeps_mk]; with_reducible refine Keeps.fold ?_))

theorem State.treeDownIn_keeps {s0 : State} {s : State} {p : Pkt} (h0 : Keeps s0 s) :
    Keeps s0 (State.treeDownIn s p) := by
  unfold State.treeDownIn
  try dsimp only
  repeat' (first | with_reducible assumption | with_reducible apply State.sendDown_keeps | with_reducible apply State.setTree_keeps
                 | with_reducible apply State.treeTell_keeps | with_reducible apply keeps_getD
                 | (simp only [keeps_mk]; with_reducible refine Keeps.fold ?_) | with_reducible apply keeps_ite
                 | (split <;> try dsimp only))

theorem State.treeUpIn_keeps {s0 : State} {s : State} {p : Pkt} (h0 : Keeps s0 s) :
    Keeps s0 (State.treeUpIn s p) := by
  unfold State.treeUpIn
  try dsimp only
  repeat' (first | with_reducible assumption | with_reducible apply State.sendDown_keeps | with_reducible apply State.rackUp_keeps
                 | with_reducible apply State.countUp_keeps | with_reducible apply keeps_ite | (split <;> try dsimp only))

theorem State.treeLeft_keeps {s0 : State} {s : State} {partition : Nat} {m : Nat} (h0 : Keeps s0 s) :
    Keeps s0 (State.treeLeft s partition m) := by
  unfold State.treeLeft
  try dsimp only
  repeat' (first | with_reducible assumption | (intro _; try dsimp only) | with_reducible apply State.combine_keeps
                 | with_reducible apply State.ownUpAgain_keeps | with_reducible apply keeps_foldl
                 | with_reducible apply keeps_foldl_pair | with_reducible apply keeps_foldl_triple
                 | with_reducible apply keepsOpt_foldl | with_reducible apply keeps_getD
                 | (simp only [keeps_mk]; with_reducible refine Keeps.fold ?_) | with_reducible apply keeps_ite
                 | (split <;> try dsimp only) | with_reducible refine keeps_of_pair (by assumption) ?_
                 | with_reducible refine keeps_of_triple (by assumption) ?_ | with_reducible refine keeps_of_some (by assumption) ?_
                 | with_reducible refine keeps_of_some2 (by assumption) ?_)

theorem State.treeUpLost_keeps {s0 : State} {s : State} {kind : Nat} {root : Nat} {tree : Nat} {seq : Nat} {dst : Nat} (h0 : Keeps s0 s) :
    Keeps s0 (State.treeUpLost s kind root tree seq dst) := by
  unfold State.treeUpLost
  try dsimp only
  repeat' (first | with_reducible assumption | (intro _; try dsimp only) | with_reducible apply State.ownUpAgain_keeps
                 | (simp only [keeps_mk]; with_reducible refine Keeps.fold ?_) | with_reducible apply keeps_ite
                 | (split <;> try dsimp only) | with_reducible refine keeps_of_pair (by assumption) ?_
                 | with_reducible refine keeps_of_triple (by assumption) ?_ | with_reducible refine keeps_of_some (by assumption) ?_
                 | with_reducible refine keeps_of_some2 (by assumption) ?_)

theorem State.markLost_keeps {s0 : State} {s : State} {partition m : Nat} (h0 : Keeps s0 s) :
    Keeps s0 (State.markLost s partition m) := by
  unfold State.markLost
  try dsimp only
  repeat' (first | with_reducible assumption | with_reducible apply State.treeLeft_keeps
                 | (simp only [keeps_mk]; with_reducible refine Keeps.fold ?_) | with_reducible apply keeps_ite
                 | (split <;> try dsimp only) | with_reducible refine keeps_of_pair (by assumption) ?_
                 | with_reducible refine keeps_of_triple (by assumption) ?_ | with_reducible refine keeps_of_some (by assumption) ?_
                 | with_reducible refine keeps_of_some2 (by assumption) ?_)

theorem State.ackTimeout_keeps {s0 : State} {s : State} {kind : Nat} {root : Nat} {tree : Nat} {seq : Nat} {m : Nat} (h0 : Keeps s0 s) :
    Keeps s0 (State.ackTimeout s kind root tree seq m) := by
  unfold State.ackTimeout
  try dsimp only
  repeat' (first | with_reducible assumption | (intro _; try dsimp only) | with_reducible apply State.setTree_keeps
                 | with_reducible apply State.ridge_keeps | with_reducible apply State.markLost_keeps
                 | (simp only [keeps_mk]; with_reducible refine Keeps.fold ?_) | with_reducible apply keeps_ite
                 | (split <;> try dsimp only) | with_reducible refine keeps_of_pair (by assumption) ?_
                 | with_reducible refine keeps_of_triple (by assumption) ?_ | with_reducible refine keeps_of_some (by assumption) ?_
                 | with_reducible refine keeps_of_some2 (by assumption) ?_)

theorem State.dropGroupTrees_keeps {s0 : State} {s : State} {g : Nat} (h0 : Keeps s0 s) :
    Keeps s0 (State.dropGroupTrees s g) := by
  unfold State.dropGroupTrees
  try dsimp only
  repeat' (first | with_reducible assumption | (intro _; try dsimp only) | (simp only [keeps_mk]; with_reducible refine Keeps.fold ?_))

end Sys2Proof.Machine
end

