-- ==== Sys2Proof/Laws/KeepContext.lean ====
section
/-!
SUPPORT. What the operations of Machine/Context.lean keep.
-/

namespace Sys2Proof.Machine

set_option linter.unusedTactic false
set_option linter.unreachableTactic false
set_option linter.unusedVariables false

theorem State.touchCtx_keeps {s0 : State} {s : State} {n : Nat} (h0 : Keeps s0 s) :
    Keeps s0 (State.touchCtx s n) := by
  unfold State.touchCtx
  try dsimp only
  repeat' (first | with_reducible assumption | (intro _; try dsimp only)
                 | (simp only [keeps_mk]; with_reducible refine Keeps.fold ?_) | with_reducible apply keeps_ite)

theorem State.evictCtx_keeps {s0 : State} {s : State} (h0 : Keeps s0 s) :
    KeepsOpt s0 (State.evictCtx s) := by
  unfold State.evictCtx
  try dsimp only
  repeat' (first | with_reducible assumption | (intro _; try dsimp only) | with_reducible apply State.emit_keeps
                 | with_reducible apply State.count_keeps | with_reducible apply State.setQp_keeps
                 | with_reducible exact keepsOpt_none | with_reducible exact keepsOpt2_none | with_reducible apply keepsOpt_some
                 | with_reducible apply keepsOpt2_some | with_reducible apply keeps_foldl | with_reducible apply keeps_foldl_pair
                 | with_reducible apply keeps_foldl_triple | with_reducible apply keepsOpt_foldl
                 | (simp only [keeps_mk]; with_reducible refine Keeps.fold ?_) | with_reducible apply keeps_ite
                 | (split <;> try dsimp only) | with_reducible refine keeps_of_pair (by assumption) ?_
                 | with_reducible refine keeps_of_triple (by assumption) ?_ | with_reducible refine keeps_of_some (by assumption) ?_
                 | with_reducible refine keeps_of_some2 (by assumption) ?_)

theorem State.fillCtx_keeps {s0 : State} {s : State} {n : Nat} {q : Qp} {initiator : Bool} (h0 : Keeps s0 s) :
    Keeps s0 (State.fillCtx s n q initiator).2 := by
  unfold State.fillCtx
  try dsimp only
  repeat' (first | with_reducible assumption | (intro _; try dsimp only) | with_reducible apply State.count_keeps
                 | with_reducible apply State.hostRead_keeps | with_reducible apply State.setQp_keeps
                 | with_reducible apply State.evictCtx_keeps | (simp only [keeps_mk]; with_reducible refine Keeps.fold ?_)
                 | with_reducible apply keeps_ite | (split <;> try dsimp only)
                 | with_reducible refine keeps_of_pair (by assumption) ?_ | with_reducible refine keeps_of_triple (by assumption) ?_
                 | with_reducible refine keeps_of_some (by assumption) ?_ | with_reducible refine keeps_of_some2 (by assumption) ?_)

theorem State.needCtx_keeps {s0 : State} {s : State} {n : Nat} {q : Qp} (h0 : Keeps s0 s) :
    Keeps s0 (State.needCtx s n q).2 := by
  unfold State.needCtx
  try dsimp only
  repeat' (first | with_reducible assumption | (intro _; try dsimp only) | with_reducible apply State.touchCtx_keeps
                 | with_reducible apply State.fillCtx_keeps | (simp only [keeps_mk]; with_reducible refine Keeps.fold ?_)
                 | with_reducible apply keeps_ite | (split <;> try dsimp only)
                 | with_reducible refine keeps_of_pair (by assumption) ?_ | with_reducible refine keeps_of_triple (by assumption) ?_
                 | with_reducible refine keeps_of_some (by assumption) ?_ | with_reducible refine keeps_of_some2 (by assumption) ?_)

end Sys2Proof.Machine
end

