-- ==== Sys2Proof/Laws/KeepWorkQueue.lean ====
section
/-!
SUPPORT. What the operations of Machine/WorkQueue.lean keep.
-/

namespace Sys2Proof.Machine

set_option linter.unusedTactic false
set_option linter.unreachableTactic false
set_option linter.unusedVariables false

theorem State.updOp_keeps {s0 : State} {s : State} {n id : Nat} {f : Op → Op} (h0 : Keeps s0 s) :
    Keeps s0 (State.updOp s n id f) := by
  unfold State.updOp
  try dsimp only
  repeat' (first | with_reducible assumption | (intro _; try dsimp only) | with_reducible apply State.updWq_keeps
                 | with_reducible apply keepsOpt_map | with_reducible apply keepsOpt2_mapPair | with_reducible apply keepsOpt2_map
                 | (simp only [keeps_mk]; with_reducible refine Keeps.fold ?_) | with_reducible apply keeps_ite
                 | (split <;> try dsimp only))

theorem State.opPost_keeps {s0 : State} {s : State} {n : Nat} {cq : Nat} {o : Op} (h0 : Keeps s0 s) :
    Keeps s0 (State.opPost s n cq o) := by
  unfold State.opPost
  try dsimp only
  repeat' (first | with_reducible assumption | (intro _; try dsimp only) | with_reducible apply State.raiseAll_keeps
                 | with_reducible apply State.cqPost_keeps | (simp only [keeps_mk]; with_reducible refine Keeps.fold ?_)
                 | with_reducible apply keeps_ite | (split <;> try dsimp only)
                 | with_reducible refine keeps_of_pair (by assumption) ?_ | with_reducible refine keeps_of_some (by assumption) ?_
                 | with_reducible refine keeps_of_some2 (by assumption) ?_)

theorem State.holdEcc_keeps {s0 : State} {s : State} {n : Nat} {id : Nat} (h0 : Keeps s0 s) :
    Keeps s0 (State.holdEcc s n id) := by
  unfold State.holdEcc
  try dsimp only
  repeat' (first | with_reducible assumption | (intro _; try dsimp only) | with_reducible apply State.updOp_keeps
                 | with_reducible apply keepsOpt_bind | with_reducible apply keepsOpt_map | with_reducible apply keepsOpt2_mapPair
                 | with_reducible apply keepsOpt2_map | (simp only [keeps_mk]; with_reducible refine Keeps.fold ?_)
                 | with_reducible apply keeps_ite | (split <;> try dsimp only)
                 | with_reducible refine keeps_of_pair (by assumption) ?_ | with_reducible refine keeps_of_triple (by assumption) ?_
                 | with_reducible refine keeps_of_some (by assumption) ?_ | with_reducible refine keeps_of_some2 (by assumption) ?_)

theorem State.holdPoison_keeps {s0 : State} {s : State} {n : Nat} {id : Nat} {b : RBuf} (h0 : Keeps s0 s) :
    Keeps s0 (State.holdPoison s n id b) := by
  unfold State.holdPoison
  try dsimp only
  repeat' (first | with_reducible assumption | (intro _; try dsimp only) | with_reducible apply AdmRes.fail_keeps
                 | with_reducible apply State.holdEcc_keeps | with_reducible apply keepsOpt_map
                 | with_reducible apply keepsOpt2_mapPair | with_reducible apply keepsOpt2_map
                 | (simp only [keeps_mk]; with_reducible refine Keeps.fold ?_) | with_reducible apply keeps_ite
                 | (split <;> try dsimp only) | with_reducible refine keeps_of_pair (by assumption) ?_
                 | with_reducible refine keeps_of_some (by assumption) ?_ | with_reducible refine keeps_of_some2 (by assumption) ?_)

theorem State.retireOps_keeps {s0 : State} {n : Nat} {fuel : Nat} {y1 : State} (h0 : Keeps s0 y1) :
    Keeps s0 (State.retireOps n fuel y1) := by
  induction fuel generalizing n y1 with
  | zero =>
    unfold State.retireOps
    try dsimp only
    repeat' (first | with_reducible assumption | (intro _; try dsimp only) | with_reducible apply State.setWq_keeps
                   | with_reducible apply State.opPost_keeps | (simp only [keeps_mk]; with_reducible refine Keeps.fold ?_)
                   | with_reducible apply keeps_ite | (split <;> try dsimp only) | with_reducible refine keeps_of_pair (by assumption) ?_
                   | with_reducible refine keeps_of_triple (by assumption) ?_ | with_reducible refine keeps_of_some (by assumption) ?_
                   | with_reducible refine keeps_of_some2 (by assumption) ?_)
  | succ _ ih =>
    unfold State.retireOps
    try dsimp only
    repeat' (first | with_reducible assumption
                   | with_reducible apply ih | (intro _; try dsimp only) | with_reducible apply State.setWq_keeps
                   | with_reducible apply State.opPost_keeps | (simp only [keeps_mk]; with_reducible refine Keeps.fold ?_)
                   | with_reducible apply keeps_ite | (split <;> try dsimp only) | with_reducible refine keeps_of_pair (by assumption) ?_
                   | with_reducible refine keeps_of_triple (by assumption) ?_ | with_reducible refine keeps_of_some (by assumption) ?_
                   | with_reducible refine keeps_of_some2 (by assumption) ?_)

theorem State.drained_keeps {s0 : State} {s : State} {n : Nat} (h0 : Keeps s0 s) :
    Keeps s0 (State.drained s n) := by
  unfold State.drained
  try dsimp only
  repeat' (first | with_reducible assumption | (intro _; try dsimp only) | with_reducible apply State.setWq_keeps
                 | with_reducible apply State.reply_keeps | with_reducible apply State.admStopped_keeps | with_reducible apply keeps_foldl
                 | with_reducible apply keeps_foldl_pair | with_reducible apply keeps_foldl_triple
                 | (simp only [keeps_mk]; with_reducible refine Keeps.fold ?_) | with_reducible apply keeps_ite
                 | (split <;> try dsimp only) | with_reducible refine keeps_of_pair (by assumption) ?_
                 | with_reducible refine keeps_of_triple (by assumption) ?_ | with_reducible refine keeps_of_some (by assumption) ?_
                 | with_reducible refine keeps_of_some2 (by assumption) ?_ | with_reducible refine keeps_of_reply (by assumption) ?_
                 | with_reducible refine keeps_of_wait (by assumption) ?_)

theorem State.retire_keeps {s0 : State} {s : State} {n : Nat} (h0 : Keeps s0 s) :
    Keeps s0 (State.retire s n) := by
  unfold State.retire
  try dsimp only
  repeat' (first | with_reducible assumption | with_reducible apply State.retireOps_keeps | with_reducible apply State.drained_keeps
                 | (simp only [keeps_mk]; with_reducible refine Keeps.fold ?_) | with_reducible apply keeps_ite
                 | (split <;> try dsimp only) | with_reducible refine keeps_of_pair (by assumption) ?_
                 | with_reducible refine keeps_of_triple (by assumption) ?_ | with_reducible refine keeps_of_some (by assumption) ?_
                 | with_reducible refine keeps_of_some2 (by assumption) ?_)

theorem State.opDone_keeps {s0 : State} {s : State} {n id status detail : Nat} {remote : Bool} {byteCount result : Nat} (h0 : Keeps s0 s) :
    Keeps s0 (State.opDone s n id status detail remote byteCount result) := by
  unfold State.opDone
  try dsimp only
  repeat' (first | with_reducible assumption | (intro _; try dsimp only) | with_reducible apply State.updOp_keeps
                 | with_reducible apply State.updWq_keeps | with_reducible apply State.retire_keeps | with_reducible apply keepsOpt_bind
                 | (simp only [keeps_mk]; with_reducible refine Keeps.fold ?_) | with_reducible apply keeps_ite
                 | (split <;> try dsimp only) | with_reducible refine keeps_of_pair (by assumption) ?_
                 | with_reducible refine keeps_of_triple (by assumption) ?_ | with_reducible refine keeps_of_some (by assumption) ?_
                 | with_reducible refine keeps_of_some2 (by assumption) ?_)

theorem State.opFail_keeps {s0 : State} {s : State} {n id status detail : Nat} (h0 : Keeps s0 s) :
    Keeps s0 (State.opFail s n id status detail) := by
  unfold State.opFail
  repeat' (first | with_reducible assumption | with_reducible apply State.opDone_keeps)

theorem State.opEnd_keeps {s0 : State} {s : State} {n : Nat} {id : Nat} {status : Nat} {detail : Nat} (h0 : Keeps s0 s) :
    Keeps s0 (State.opEnd s n id status detail) := by
  unfold State.opEnd
  try dsimp only
  repeat' (first | with_reducible assumption | (intro _; try dsimp only) | with_reducible apply State.opDone_keeps
                 | (simp only [keeps_mk]; with_reducible refine Keeps.fold ?_) | with_reducible apply keeps_ite)

theorem State.runOp_keeps {s0 : State} {s : State} {n : Nat} {id : Nat} {opcode : Nat} {f : State → Wq → Op → Nat → Qp → State} (h0 : Keeps s0 s) (h1 : ∀ t a1 a2 a3 a4, Keeps s0 t → Keeps s0 (f t a1 a2 a3 a4)) :
    Keeps s0 (State.runOp s n id opcode f) := by
  unfold State.runOp
  try dsimp only
  repeat' (first | with_reducible assumption | (intro _; try dsimp only) | (with_reducible apply h1)
                 | with_reducible apply State.fillCtx_keeps | with_reducible apply State.opFail_keeps
                 | (simp only [keeps_mk]; with_reducible refine Keeps.fold ?_) | with_reducible apply keeps_ite
                 | (split <;> try dsimp only) | with_reducible refine keeps_of_pair (by assumption) ?_
                 | with_reducible refine keeps_of_triple (by assumption) ?_ | with_reducible refine keeps_of_some (by assumption) ?_
                 | with_reducible refine keeps_of_some2 (by assumption) ?_)

theorem State.judge_keeps {s0 : State} {s : State} {n : Nat} (h0 : Keeps s0 s) :
    Keeps s0 (State.judge s n) := by
  unfold State.judge
  try dsimp only
  repeat' (first | with_reducible assumption | (intro _; try dsimp only) | with_reducible apply State.setWq_keeps
                 | with_reducible apply State.wqError_keeps | with_reducible apply State.retire_keeps
                 | with_reducible apply State.opFail_keeps | with_reducible apply keeps_foldl | with_reducible apply keeps_foldl_pair
                 | with_reducible apply keeps_foldl_triple | with_reducible apply keeps_getD
                 | (simp only [keeps_mk]; with_reducible refine Keeps.fold ?_) | with_reducible apply keeps_ite
                 | (split <;> try dsimp only) | with_reducible refine keeps_of_pair (by assumption) ?_
                 | with_reducible refine keeps_of_triple (by assumption) ?_ | with_reducible refine keeps_of_some (by assumption) ?_
                 | with_reducible refine keeps_of_some2 (by assumption) ?_)

theorem State.endWaits_keeps {s0 : State} {s : State} {n : Nat} (h0 : Keeps s0 s) :
    Keeps s0 (State.endWaits s n) := by
  unfold State.endWaits
  try dsimp only
  repeat' (first | with_reducible assumption | (intro _; try dsimp only) | with_reducible apply State.opEnd_keeps
                 | with_reducible apply keeps_foldl | with_reducible apply keeps_foldl_pair
                 | with_reducible apply keeps_foldl_triple | with_reducible apply keepsOpt_foldl
                 | (simp only [keeps_mk]; with_reducible refine Keeps.fold ?_) | with_reducible apply keeps_ite
                 | (split <;> try dsimp only) | with_reducible refine keeps_of_pair (by assumption) ?_
                 | with_reducible refine keeps_of_triple (by assumption) ?_ | with_reducible refine keeps_of_some (by assumption) ?_
                 | with_reducible refine keeps_of_some2 (by assumption) ?_ | with_reducible refine keeps_of_reply (by assumption) ?_
                 | with_reducible refine keeps_of_wait (by assumption) ?_)

theorem State.endNewWaits_keeps {s0 : State} {s : State} {n : Nat} (h0 : Keeps s0 s) :
    Keeps s0 (State.endNewWaits s n) := by
  unfold State.endNewWaits
  try dsimp only
  repeat' (first | with_reducible assumption | (intro _; try dsimp only) | with_reducible apply State.endWaits_keeps
                 | with_reducible exact keepsOpt_none | with_reducible exact keepsOpt2_none | with_reducible apply keepsOpt_some
                 | with_reducible apply keepsOpt2_some | with_reducible apply keepsOpt_map | with_reducible apply keepsOpt2_mapPair
                 | with_reducible apply keepsOpt2_map | (simp only [keeps_mk]; with_reducible refine Keeps.fold ?_)
                 | with_reducible apply keeps_ite | (split <;> try dsimp only)
                 | with_reducible refine keeps_of_pair (by assumption) ?_ | with_reducible refine keeps_of_some (by assumption) ?_
                 | with_reducible refine keeps_of_some2 (by assumption) ?_)

theorem State.quiesceWq_keeps {s0 : State} {s : State} {n : Nat} (h0 : Keeps s0 s) :
    Keeps s0 (State.quiesceWq s n) := by
  unfold State.quiesceWq
  try dsimp only
  repeat' (first | with_reducible assumption | with_reducible apply State.setWq_keeps | with_reducible apply State.endWaits_keeps
                 | with_reducible apply State.drained_keeps | (simp only [keeps_mk]; with_reducible refine Keeps.fold ?_)
                 | with_reducible apply keeps_ite | (split <;> try dsimp only) | with_reducible refine keeps_of_pair (by assumption) ?_
                 | with_reducible refine keeps_of_triple (by assumption) ?_ | with_reducible refine keeps_of_some (by assumption) ?_
                 | with_reducible refine keeps_of_some2 (by assumption) ?_)

theorem State.resumeWq_keeps {s0 : State} {s : State} {n : Nat} (h0 : Keeps s0 s) :
    Keeps s0 (State.resumeWq s n) := by
  unfold State.resumeWq
  try dsimp only
  repeat' (first | with_reducible assumption | (intro _; try dsimp only) | with_reducible apply State.updWq_keeps
                 | (simp only [keeps_mk]; with_reducible refine Keeps.fold ?_) | with_reducible apply keeps_ite
                 | (split <;> try dsimp only))

theorem State.bellDropped_keeps {s0 : State} {s : State} {flag : Nat} (h0 : Keeps s0 s) :
    Keeps s0 (State.bellDropped s flag) := by
  unfold State.bellDropped
  repeat' (first | with_reducible assumption | with_reducible apply State.count_keeps | with_reducible apply State.setFlag_keeps)

theorem State.bellCq_keeps {s0 : State} {s : State} {c value : Nat} (h0 : Keeps s0 s) :
    Keeps s0 (State.bellCq s c value) := by
  unfold State.bellCq
  try dsimp only
  repeat' (first | with_reducible assumption | (intro _; try dsimp only) | with_reducible apply State.cqDrain_keeps
                 | with_reducible apply State.setCq_keeps | with_reducible apply State.setFlag_keeps
                 | with_reducible apply State.cqNotify_keeps | (simp only [keeps_mk]; with_reducible refine Keeps.fold ?_)
                 | with_reducible apply keeps_ite | (split <;> try dsimp only) | with_reducible refine keeps_of_pair (by assumption) ?_
                 | with_reducible refine keeps_of_triple (by assumption) ?_ | with_reducible refine keeps_of_some (by assumption) ?_
                 | with_reducible refine keeps_of_some2 (by assumption) ?_)

theorem State.doorbell_keeps {s0 : State} {s : State} {fn n value : Nat} (h0 : Keeps s0 s) :
    Keeps s0 (State.doorbell s fn n value) := by
  unfold State.doorbell
  try dsimp only
  repeat' (first | with_reducible assumption | (intro _; try dsimp only) | with_reducible apply State.bellDropped_keeps
                 | with_reducible apply State.wqError_keeps | with_reducible apply State.setWq_keeps
                 | with_reducible apply State.bellCq_keeps | with_reducible apply keepsOpt_map | with_reducible apply keepsOpt2_mapPair
                 | with_reducible apply keepsOpt2_map | (simp only [keeps_mk]; with_reducible refine Keeps.fold ?_)
                 | with_reducible apply keeps_ite | (split <;> try dsimp only) | with_reducible refine keeps_of_pair (by assumption) ?_
                 | with_reducible refine keeps_of_triple (by assumption) ?_ | with_reducible refine keeps_of_some (by assumption) ?_
                 | with_reducible refine keeps_of_some2 (by assumption) ?_)

theorem State.fetchWq_keeps {s0 : State} {s : State} {n : Nat} (h0 : Keeps s0 s) :
    Keeps s0 (State.fetchWq s n) := by
  unfold State.fetchWq
  try dsimp only
  repeat' (first | with_reducible assumption | (intro _; try dsimp only) | with_reducible apply State.doorbell_keeps
                 | with_reducible apply State.lookup_keeps | with_reducible apply State.wqError_keeps
                 | with_reducible apply State.hbmRead_keeps | with_reducible apply State.setWq_keeps
                 | with_reducible apply State.hostRead_keeps | with_reducible apply keepsOpt_map | with_reducible apply keepsOpt2_mapPair
                 | with_reducible apply keepsOpt2_map | with_reducible exact keepsOpt_none | with_reducible exact keepsOpt2_none
                 | with_reducible apply keepsOpt_some | with_reducible apply keepsOpt2_some | with_reducible apply keeps_getD
                 | (simp only [keeps_mk]; with_reducible refine Keeps.fold ?_) | with_reducible apply keeps_ite
                 | (split <;> try dsimp only) | with_reducible refine keeps_of_pair (by assumption) ?_
                 | with_reducible refine keeps_of_triple (by assumption) ?_ | with_reducible refine keeps_of_some (by assumption) ?_
                 | with_reducible refine keeps_of_some2 (by assumption) ?_)

theorem State.listOps_keeps {s0 : State} {s : State} {w : Wq} {chain : Op} {y0 : Nat} {y1 : Nat} {y2 : Bytes} (h0 : Keeps s0 s) :
    Keeps s0 (State.listOps s w chain y0 y1 y2).2 := by
  induction y0 generalizing y1 y2 s w chain with
  | zero =>
    unfold State.listOps
    try dsimp only
    repeat' (first | with_reducible assumption | (intro _; try dsimp only) | with_reducible exact keepsOpt_none
                   | with_reducible exact keepsOpt2_none | with_reducible apply keepsOpt_some | with_reducible apply keepsOpt2_some
                   | (simp only [keeps_mk]; with_reducible refine Keeps.fold ?_) | with_reducible apply keeps_ite
                   | (split <;> try dsimp only) | with_reducible refine keeps_of_pair (by assumption) ?_
                   | with_reducible refine keeps_of_triple (by assumption) ?_
                   | with_reducible refine keeps_of_some (by assumption) ?_
                   | with_reducible refine keeps_of_some2 (by assumption) ?_)
  | succ _ ih =>
    unfold State.listOps
    try dsimp only
    repeat' (first | with_reducible assumption | (intro _; try dsimp only) | with_reducible apply ih
                   | with_reducible exact keepsOpt_none | with_reducible exact keepsOpt2_none | with_reducible apply keepsOpt_some
                   | with_reducible apply keepsOpt2_some | (simp only [keeps_mk]; with_reducible refine Keeps.fold ?_)
                   | with_reducible apply keeps_ite | (split <;> try dsimp only)
                   | with_reducible refine keeps_of_pair (by assumption) ?_
                   | with_reducible refine keeps_of_triple (by assumption) ?_
                   | with_reducible refine keeps_of_some (by assumption) ?_
                   | with_reducible refine keeps_of_some2 (by assumption) ?_)

theorem State.readList_keeps {s0 : State} {s : State} {n : Nat} {w : Wq} {o : Op} (h0 : Keeps s0 s) :
    Keeps s0 (State.readList s n w o) := by
  unfold State.readList
  try dsimp only
  repeat' (first | with_reducible assumption | (intro _; try dsimp only) | with_reducible apply State.readIva_keeps
                 | with_reducible apply State.updOp_keeps | with_reducible apply State.holdPoison_keeps
                 | (simp only [keeps_mk]; with_reducible refine Keeps.fold ?_) | with_reducible apply keeps_ite)

theorem State.listArrived_keeps {s0 : State} {s : State} {n : Nat} {w : Wq} {o : Op} (h0 : Keeps s0 s) :
    Keeps s0 (State.listArrived s n w o) := by
  unfold State.listArrived
  try dsimp only
  repeat' (first | with_reducible assumption | (intro _; try dsimp only) | with_reducible apply State.updWq_keeps
                 | with_reducible apply AdmRes.fail_keeps | with_reducible apply State.retire_keeps
                 | with_reducible apply State.listOps_keeps | with_reducible apply keeps_getD
                 | (simp only [keeps_mk]; with_reducible refine Keeps.fold ?_) | with_reducible apply keeps_ite
                 | (split <;> try dsimp only) | with_reducible refine keeps_of_pair (by assumption) ?_
                 | with_reducible refine keeps_of_some (by assumption) ?_ | with_reducible refine keeps_of_some2 (by assumption) ?_)

end Sys2Proof.Machine
end

