-- ==== Sys2Proof/Laws/KeepWicks.lean ====
section
/-!
SUPPORT. What the operations of Machine/Wicks.lean keep.
-/

namespace Sys2Proof.Machine

set_option linter.unusedTactic false
set_option linter.unreachableTactic false
set_option linter.unusedVariables false

theorem State.setWick_keeps {s0 : State} {s : State} {n : Nat} {w : Wick} (h0 : Keeps s0 s) :
    Keeps s0 (State.setWick s n w) := by
  unfold State.setWick
  try dsimp only
  repeat' (first | with_reducible assumption | (simp only [keeps_mk]; with_reducible refine Keeps.fold ?_))

theorem State.addTokens_keeps {s0 : State} {s : State} {n tokens : Nat} (h0 : Keeps s0 s) :
    Keeps s0 (State.addTokens s n tokens) := by
  unfold State.addTokens
  try dsimp only
  repeat' (first | with_reducible assumption | with_reducible apply State.count_keeps | with_reducible apply State.setWick_keeps
                 | with_reducible apply State.setFlag_keeps | with_reducible apply State.countN_keeps
                 | (simp only [keeps_mk]; with_reducible refine Keeps.fold ?_) | with_reducible apply keeps_ite
                 | (split <;> try dsimp only) | with_reducible refine keeps_of_pair (by assumption) ?_
                 | with_reducible refine keeps_of_triple (by assumption) ?_ | with_reducible refine keeps_of_some (by assumption) ?_
                 | with_reducible refine keeps_of_some2 (by assumption) ?_)

theorem State.produce_keeps {s0 : State} {s : State} {n tokens tag partition : Nat} (h0 : Keeps s0 s) :
    Keeps s0 (State.produce s n tokens tag partition).2 := by
  unfold State.produce
  try dsimp only
  repeat' (first | with_reducible assumption | (intro _; try dsimp only) | with_reducible apply State.countN_keeps
                 | with_reducible apply State.setWick_keeps | with_reducible apply State.addTokens_keeps
                 | with_reducible apply State.setFlag_keeps | with_reducible exact keepsOpt_none | with_reducible exact keepsOpt2_none
                 | with_reducible apply keepsOpt_some | with_reducible apply keepsOpt2_some
                 | (simp only [keeps_mk]; with_reducible refine Keeps.fold ?_) | with_reducible apply keeps_ite
                 | (split <;> try dsimp only) | with_reducible refine keeps_of_pair (by assumption) ?_
                 | with_reducible refine keeps_of_triple (by assumption) ?_ | with_reducible refine keeps_of_some (by assumption) ?_
                 | with_reducible refine keeps_of_some2 (by assumption) ?_)

theorem State.setBar_keeps {s0 : State} {s : State} {g : Nat} {b : Barrier} (h0 : Keeps s0 s) :
    Keeps s0 (State.setBar s g b) := by
  unfold State.setBar
  try dsimp only
  repeat' (first | with_reducible assumption | (simp only [keeps_mk]; with_reducible refine Keeps.fold ?_))

theorem State.dropWaits_keeps {s0 : State} {s : State} {n id : Nat} (h0 : Keeps s0 s) :
    Keeps s0 (State.dropWaits s n id) := by
  unfold State.dropWaits
  try dsimp only
  repeat' (first | with_reducible assumption | (intro _; try dsimp only) | with_reducible apply keepsOpt_map
                 | with_reducible apply keepsOpt2_mapPair | with_reducible apply keepsOpt2_map
                 | (simp only [keeps_mk]; with_reducible refine Keeps.fold ?_))

end Sys2Proof.Machine
end

