-- ==== Sys2Proof/Laws/KeepGroups.lean ====
section
/-!
SUPPORT. What the operations of Machine/Groups.lean keep.
-/

namespace Sys2Proof.Machine

set_option linter.unusedTactic false
set_option linter.unreachableTactic false
set_option linter.unusedVariables false

theorem State.setGroup_keeps {s0 : State} {s : State} {g : Nat} {x : Group} (h0 : Keeps s0 s) :
    Keeps s0 (State.setGroup s g x) := by
  unfold State.setGroup
  try dsimp only
  repeat' (first | with_reducible assumption | (simp only [keeps_mk]; with_reducible refine Keeps.fold ?_))

theorem State.sendSetup_keeps {s0 : State} {s : State} {g : Nat} {x : Group} (h0 : Keeps s0 s) :
    Keeps s0 (State.sendSetup s g x) := by
  unfold State.sendSetup
  try dsimp only
  repeat' (first | with_reducible assumption | with_reducible apply State.control_keeps
                 | (simp only [keeps_mk]; with_reducible refine Keeps.fold ?_) | with_reducible apply keeps_ite
                 | (split <;> try dsimp only))

theorem State.setupCheck_keeps {s0 : State} {s : State} {g : Nat} (h0 : Keeps s0 s) :
    Keeps s0 (State.setupCheck s g) := by
  unfold State.setupCheck
  try dsimp only
  repeat' (first | with_reducible assumption | (intro _; try dsimp only) | with_reducible apply State.treeDown_keeps
                 | with_reducible apply keepsOpt_map | with_reducible apply keepsOpt2_mapPair | with_reducible apply keepsOpt2_map
                 | (simp only [keeps_mk]; with_reducible refine Keeps.fold ?_) | with_reducible apply keeps_ite
                 | (split <;> try dsimp only) | with_reducible refine keeps_of_pair (by assumption) ?_
                 | with_reducible refine keeps_of_triple (by assumption) ?_ | with_reducible refine keeps_of_some (by assumption) ?_
                 | with_reducible refine keeps_of_some2 (by assumption) ?_)

theorem State.setupIn_keeps {s0 : State} {s : State} {p : Pkt} (h0 : Keeps s0 s) :
    Keeps s0 (State.setupIn s p) := by
  unfold State.setupIn
  try dsimp only
  repeat' (first | with_reducible assumption | (intro _; try dsimp only) | with_reducible apply State.sendDown_keeps
                 | with_reducible apply State.setupCheck_keeps | (simp only [keeps_mk]; with_reducible refine Keeps.fold ?_)
                 | with_reducible apply keeps_ite | (split <;> try dsimp only) | with_reducible refine keeps_of_pair (by assumption) ?_
                 | with_reducible refine keeps_of_triple (by assumption) ?_ | with_reducible refine keeps_of_some (by assumption) ?_
                 | with_reducible refine keeps_of_some2 (by assumption) ?_)

theorem State.dropGroup_keeps {s0 : State} {s : State} {g : Nat} (h0 : Keeps s0 s) :
    Keeps s0 (State.dropGroup s g) := by
  unfold State.dropGroup
  try dsimp only
  repeat' (first | with_reducible assumption | with_reducible apply State.dropGroupTrees_keeps
                 | (simp only [keeps_mk]; with_reducible refine Keeps.fold ?_))

theorem State.groupDefined_keeps {s0 : State} {s : State} {g status : Nat} (h0 : Keeps s0 s) :
    Keeps s0 (State.groupDefined s g status) := by
  unfold State.groupDefined
  try dsimp only
  repeat' (first | with_reducible assumption | with_reducible apply State.setGroup_keeps | with_reducible apply State.reply_keeps
                 | with_reducible apply State.dropGroup_keeps | (simp only [keeps_mk]; with_reducible refine Keeps.fold ?_)
                 | with_reducible apply keeps_ite | (split <;> try dsimp only) | with_reducible refine keeps_of_pair (by assumption) ?_
                 | with_reducible refine keeps_of_triple (by assumption) ?_ | with_reducible refine keeps_of_some (by assumption) ?_
                 | with_reducible refine keeps_of_some2 (by assumption) ?_ | with_reducible refine keeps_of_reply (by assumption) ?_
                 | with_reducible refine keeps_of_wait (by assumption) ?_)

theorem State.defineGroup_keeps {s0 : State} {s : State} {p k g partition : Nat} {c : Cmd} {ms : List Nat} (h0 : Keeps s0 s) :
    KeepsAdm s0 (State.defineGroup s p k g partition c ms) := by
  unfold State.defineGroup
  try dsimp only
  repeat' (first | with_reducible assumption | (intro _; try dsimp only) | with_reducible apply State.dropGroupTrees_keeps
                 | with_reducible apply State.setCmd_keeps | with_reducible apply State.setGroup_keeps
                 | with_reducible apply State.sendSetup_keeps | with_reducible apply State.setupCheck_keeps
                 | with_reducible apply keepsAdm_fail | with_reducible apply keepsAdm_wait
                 | (simp only [keeps_mk]; with_reducible refine Keeps.fold ?_) | with_reducible apply keeps_ite
                 | (split <;> try dsimp only) | with_reducible refine keeps_of_pair (by assumption) ?_
                 | with_reducible refine keeps_of_triple (by assumption) ?_ | with_reducible refine keeps_of_some (by assumption) ?_
                 | with_reducible refine keeps_of_some2 (by assumption) ?_)

end Sys2Proof.Machine
end

