-- ==== Sys2Proof/Laws/KeepRma.lean ====
section
/-!
SUPPORT. What the operations of Machine/Rma.lean keep.
-/

namespace Sys2Proof.Machine

set_option linter.unusedTactic false
set_option linter.unreachableTactic false
set_option linter.unusedVariables false

theorem State.faultAt_keeps {s0 : State} {s : State} {n : Nat} {iva : Nat} {kind : Nat} {acc : Access} (h0 : Keeps s0 s) :
    Keeps s0 (State.faultAt s n iva kind acc).2 := by
  unfold State.faultAt
  try dsimp only
  repeat' (first | with_reducible assumption | (intro _; try dsimp only) | with_reducible apply State.lookupNow_keeps
                 | (simp only [keeps_mk]; with_reducible refine Keeps.fold ?_) | with_reducible apply keeps_ite
                 | (split <;> try dsimp only) | with_reducible refine keeps_of_pair (by assumption) ?_
                 | with_reducible refine keeps_of_triple (by assumption) ?_ | with_reducible refine keeps_of_some (by assumption) ?_
                 | with_reducible refine keeps_of_some2 (by assumption) ?_)

theorem State.lookPieces_keeps {s0 : State} {n : Nat} {iva : Nat} {acc : Access} {y0 : List (Nat × Nat)} {y1 : State} (h0 : Keeps s0 y1) :
    Keeps s0 (State.lookPieces n iva acc y0 y1).2 := by
  induction y0 generalizing y1 n iva acc with
  | nil =>
    unfold State.lookPieces
    try dsimp only
    repeat' (first | with_reducible assumption | (intro _; try dsimp only) | with_reducible apply State.lookupNow_keeps
                   | with_reducible exact keepsOpt_none | with_reducible exact keepsOpt2_none | with_reducible apply keepsOpt_some
                   | with_reducible apply keepsOpt2_some | (simp only [keeps_mk]; with_reducible refine Keeps.fold ?_)
                   | with_reducible apply keeps_ite | (split <;> try dsimp only)
                   | with_reducible refine keeps_of_pair (by assumption) ?_
                   | with_reducible refine keeps_of_triple (by assumption) ?_
                   | with_reducible refine keeps_of_some (by assumption) ?_
                   | with_reducible refine keeps_of_some2 (by assumption) ?_)
  | cons _ _ ih =>
    unfold State.lookPieces
    try dsimp only
    repeat' (first | with_reducible assumption | (intro _; try dsimp only) | with_reducible apply ih
                   | with_reducible apply State.lookupNow_keeps | with_reducible exact keepsOpt_none
                   | with_reducible exact keepsOpt2_none | with_reducible apply keepsOpt_some | with_reducible apply keepsOpt2_some
                   | (simp only [keeps_mk]; with_reducible refine Keeps.fold ?_) | with_reducible apply keeps_ite
                   | (split <;> try dsimp only) | with_reducible refine keeps_of_pair (by assumption) ?_
                   | with_reducible refine keeps_of_triple (by assumption) ?_
                   | with_reducible refine keeps_of_some (by assumption) ?_
                   | with_reducible refine keeps_of_some2 (by assumption) ?_)

theorem State.localCheck_keeps {s0 : State} {s : State} {n : Nat} {iva : Nat} {len : Nat} {acc : Access} (h0 : Keeps s0 s) :
    Keeps s0 (State.localCheck s n iva len acc).2 := by
  unfold State.localCheck
  try dsimp only
  repeat' (first | with_reducible assumption | (intro _; try dsimp only) | with_reducible apply State.faultAt_keeps
                 | with_reducible apply State.lookPieces_keeps | with_reducible exact keepsOpt_none
                 | with_reducible exact keepsOpt2_none | with_reducible apply keepsOpt_some | with_reducible apply keepsOpt2_some
                 | with_reducible apply keepsOpt_map | with_reducible apply keepsOpt2_mapPair | with_reducible apply keepsOpt2_map
                 | (simp only [keeps_mk]; with_reducible refine Keeps.fold ?_) | with_reducible apply keeps_ite
                 | (split <;> try dsimp only) | with_reducible refine keeps_of_pair (by assumption) ?_
                 | with_reducible refine keeps_of_triple (by assumption) ?_ | with_reducible refine keeps_of_some (by assumption) ?_
                 | with_reducible refine keeps_of_some2 (by assumption) ?_)

theorem State.beginMsgs_keeps {s0 : State} {s : State} {n id : Nat} {msgs : List Msg} (h0 : Keeps s0 s) :
    Keeps s0 (State.beginMsgs s n id msgs) := by
  unfold State.beginMsgs
  try dsimp only
  repeat' (first | with_reducible assumption | (intro _; try dsimp only) | with_reducible apply State.updOp_keeps
                 | (simp only [keeps_mk]; with_reducible refine Keeps.fold ?_))

theorem State.beginTransfer_keeps {s0 : State} {s : State} {n : Nat} {w : Wq} {o : Op} {q : Qp} {acc : Access} (h0 : Keeps s0 s) :
    Keeps s0 (State.beginTransfer s n w o q acc) := by
  unfold State.beginTransfer
  try dsimp only
  repeat' (first | with_reducible assumption | with_reducible apply State.opFail_keeps | with_reducible apply State.localCheck_keeps
                 | with_reducible apply State.beginMsgs_keeps | (simp only [keeps_mk]; with_reducible refine Keeps.fold ?_)
                 | with_reducible apply keeps_ite | (split <;> try dsimp only) | with_reducible refine keeps_of_pair (by assumption) ?_
                 | with_reducible refine keeps_of_triple (by assumption) ?_ | with_reducible refine keeps_of_some (by assumption) ?_
                 | with_reducible refine keeps_of_some2 (by assumption) ?_)

theorem State.beginAtomic_keeps {s0 : State} {s : State} {n : Nat} {w : Wq} {o : Op} {q : Qp} (h0 : Keeps s0 s) :
    Keeps s0 (State.beginAtomic s n w o q) := by
  unfold State.beginAtomic
  try dsimp only
  repeat' (first | with_reducible assumption | with_reducible apply State.opFail_keeps | with_reducible apply State.localCheck_keeps
                 | with_reducible apply State.beginMsgs_keeps | (simp only [keeps_mk]; with_reducible refine Keeps.fold ?_)
                 | with_reducible apply keeps_ite | (split <;> try dsimp only) | with_reducible refine keeps_of_pair (by assumption) ?_
                 | with_reducible refine keeps_of_triple (by assumption) ?_ | with_reducible refine keeps_of_some (by assumption) ?_
                 | with_reducible refine keeps_of_some2 (by assumption) ?_)

theorem State.opCheck_keeps {s0 : State} {s : State} {n id : Nat} (h0 : Keeps s0 s) :
    Keeps s0 (State.opCheck s n id) := by
  unfold State.opCheck
  try dsimp only
  repeat' (first | with_reducible assumption | (intro _; try dsimp only) | with_reducible apply State.opDone_keeps
                 | with_reducible apply State.updOp_keeps | with_reducible apply keepsOpt_map | with_reducible apply keepsOpt2_mapPair
                 | with_reducible apply keepsOpt2_map | with_reducible apply keepsOpt_bind
                 | (simp only [keeps_mk]; with_reducible refine Keeps.fold ?_) | with_reducible apply keeps_ite
                 | (split <;> try dsimp only) | with_reducible refine keeps_of_pair (by assumption) ?_
                 | with_reducible refine keeps_of_triple (by assumption) ?_ | with_reducible refine keeps_of_some (by assumption) ?_
                 | with_reducible refine keeps_of_some2 (by assumption) ?_)

theorem State.msgEnd_keeps {s0 : State} {s : State} {n id k status reason : Nat} {remote : Bool} (h0 : Keeps s0 s) :
    Keeps s0 (State.msgEnd s n id k status reason remote) := by
  unfold State.msgEnd
  try dsimp only
  repeat' (first | with_reducible assumption | (intro _; try dsimp only) | with_reducible apply State.updOp_keeps
                 | with_reducible apply State.opCheck_keeps | with_reducible apply keepsOpt_map | with_reducible apply keepsOpt2_mapPair
                 | with_reducible apply keepsOpt2_map | (simp only [keeps_mk]; with_reducible refine Keeps.fold ?_)
                 | with_reducible apply keeps_ite | (split <;> try dsimp only))

theorem State.msgLocalFail_keeps {s0 : State} {s : State} {n id k status detail : Nat} (h0 : Keeps s0 s) :
    Keeps s0 (State.msgLocalFail s n id k status detail) := by
  unfold State.msgLocalFail
  try dsimp only
  repeat' (first | with_reducible assumption | (intro _; try dsimp only) | with_reducible apply State.updOp_keeps
                 | with_reducible apply State.opCheck_keeps | with_reducible apply keepsOpt_map | with_reducible apply keepsOpt2_mapPair
                 | with_reducible apply keepsOpt2_map | (simp only [keeps_mk]; with_reducible refine Keeps.fold ?_)
                 | with_reducible apply keeps_ite | (split <;> try dsimp only))

theorem State.land_keeps {s0 : State} {s : State} {n : Nat} {id : Nat} {k : Nat} {data : Bytes} (h0 : Keeps s0 s) :
    Keeps s0 (State.land s n id k data) := by
  unfold State.land
  try dsimp only
  repeat' (first | with_reducible assumption | (intro _; try dsimp only) | with_reducible apply State.ivaWrite_keeps
                 | with_reducible apply State.updOp_keeps | with_reducible apply State.holdEcc_keeps
                 | with_reducible apply State.msgEnd_keeps | with_reducible apply keeps_getD
                 | (simp only [keeps_mk]; with_reducible refine Keeps.fold ?_) | with_reducible apply keeps_ite
                 | (split <;> try dsimp only) | with_reducible refine keeps_of_pair (by assumption) ?_
                 | with_reducible refine keeps_of_triple (by assumption) ?_ | with_reducible refine keeps_of_some (by assumption) ?_
                 | with_reducible refine keeps_of_some2 (by assumption) ?_)

theorem State.fillMet_keeps {s0 : State} {s : State} {q : Qp} (h0 : Keeps s0 s) :
    Keeps s0 (State.fillMet s q) := by
  unfold State.fillMet
  try dsimp only
  repeat' (first | with_reducible assumption | (intro _; try dsimp only) | with_reducible apply State.opFail_keeps
                 | with_reducible apply State.msgLocalFail_keeps | with_reducible apply keepsOpt_bind
                 | with_reducible apply keepsOpt_map | with_reducible apply keepsOpt2_mapPair | with_reducible apply keepsOpt2_map
                 | with_reducible apply keeps_getD | (simp only [keeps_mk]; with_reducible refine Keeps.fold ?_)
                 | with_reducible apply keeps_ite | (split <;> try dsimp only)
                 | with_reducible refine keeps_of_pair (by assumption) ?_ | with_reducible refine keeps_of_triple (by assumption) ?_
                 | with_reducible refine keeps_of_some (by assumption) ?_ | with_reducible refine keeps_of_some2 (by assumption) ?_)

theorem State.fillFail_keeps {s0 : State} {s : State} {n : Nat} (h0 : Keeps s0 s) :
    Keeps s0 (State.fillFail s n) := by
  unfold State.fillFail
  try dsimp only
  repeat' (first | with_reducible assumption | (intro _; try dsimp only) | with_reducible apply State.setFlag_keeps
                 | with_reducible apply State.setQp_keeps | with_reducible apply State.qpError_keeps
                 | with_reducible apply State.fillMet_keeps | (simp only [keeps_mk]; with_reducible refine Keeps.fold ?_)
                 | with_reducible apply keeps_ite | (split <;> try dsimp only)
                 | with_reducible refine keeps_of_pair (by assumption) ?_ | with_reducible refine keeps_of_triple (by assumption) ?_
                 | with_reducible refine keeps_of_some (by assumption) ?_ | with_reducible refine keeps_of_some2 (by assumption) ?_)

theorem State.fillDone_keeps {s0 : State} {s : State} {n : Nat} {data : Bytes} (h0 : Keeps s0 s) :
    Keeps s0 (State.fillDone s n data) := by
  unfold State.fillDone
  try dsimp only
  repeat' (first | with_reducible assumption | with_reducible apply State.fillFail_keeps | with_reducible apply State.setQp_keeps
                 | with_reducible apply State.touchCtx_keeps | (simp only [keeps_mk]; with_reducible refine Keeps.fold ?_)
                 | with_reducible apply keeps_ite | (split <;> try dsimp only) | with_reducible refine keeps_of_pair (by assumption) ?_
                 | with_reducible refine keeps_of_triple (by assumption) ?_ | with_reducible refine keeps_of_some (by assumption) ?_
                 | with_reducible refine keeps_of_some2 (by assumption) ?_)

theorem State.msgFault_keeps {s0 : State} {s : State} {n : Nat} {id : Nat} {k : Nat} {x : Nat} {detail : Nat} (h0 : Keeps s0 s) :
    Keeps s0 (State.msgFault s n id k x detail) := by
  unfold State.msgFault
  try dsimp only
  repeat' (first | with_reducible assumption | (intro _; try dsimp only) | with_reducible apply State.updOp_keeps
                 | with_reducible apply State.msgLocalFail_keeps | with_reducible apply keepsOpt_map
                 | with_reducible apply keepsOpt2_mapPair | with_reducible apply keepsOpt2_map
                 | (simp only [keeps_mk]; with_reducible refine Keeps.fold ?_) | with_reducible apply keeps_ite
                 | (split <;> try dsimp only) | with_reducible refine keeps_of_pair (by assumption) ?_
                 | with_reducible refine keeps_of_some (by assumption) ?_ | with_reducible refine keeps_of_some2 (by assumption) ?_)

theorem State.msgData_keeps {s0 : State} {s : State} {n : Nat} {w : Wq} {o : Op} {k : Nat} {m : Msg} (h0 : Keeps s0 s) :
    Keeps s0 (State.msgData s n w o k m).2 := by
  unfold State.msgData
  try dsimp only
  repeat' (first | with_reducible assumption | (intro _; try dsimp only) | with_reducible apply State.readIva_keeps
                 | with_reducible apply AdmRes.fail_keeps | with_reducible apply State.updOp_keeps
                 | with_reducible apply State.holdEcc_keeps | with_reducible apply State.holdPoison_keeps
                 | with_reducible apply State.lookPieces_keeps | with_reducible apply State.msgFault_keeps
                 | with_reducible exact keepsOpt_none | with_reducible exact keepsOpt2_none | with_reducible apply keepsOpt_some
                 | with_reducible apply keepsOpt2_some | with_reducible apply keepsOpt_bind | with_reducible apply keepsOpt_map
                 | with_reducible apply keepsOpt2_mapPair | with_reducible apply keepsOpt2_map | with_reducible apply keeps_getD
                 | (simp only [keeps_mk]; with_reducible refine Keeps.fold ?_) | with_reducible apply keeps_ite
                 | (split <;> try dsimp only) | with_reducible refine keeps_of_pair (by assumption) ?_
                 | with_reducible refine keeps_of_triple (by assumption) ?_ | with_reducible refine keeps_of_some (by assumption) ?_
                 | with_reducible refine keeps_of_some2 (by assumption) ?_)

theorem State.grant_keeps {s0 : State} {s : State} {o : TxnOwner} (h0 : Keeps s0 s) :
    Keeps s0 (State.grant s o).2 := by
  unfold State.grant
  try dsimp only
  repeat' (first | with_reducible assumption | (intro _; try dsimp only) | with_reducible apply State.updInst_keeps
                 | with_reducible apply keepsOpt_bind | with_reducible apply keepsOpt_map | with_reducible apply keepsOpt2_mapPair
                 | with_reducible apply keepsOpt2_map | with_reducible apply keeps_getD
                 | (simp only [keeps_mk]; with_reducible refine Keeps.fold ?_) | with_reducible apply keeps_ite
                 | (split <;> try dsimp only) | with_reducible refine keeps_of_pair (by assumption) ?_
                 | with_reducible refine keeps_of_triple (by assumption) ?_ | with_reducible refine keeps_of_some (by assumption) ?_
                 | with_reducible refine keeps_of_some2 (by assumption) ?_)

theorem State.sendMsg_keeps {s0 : State} {s : State} {n : Nat} {w : Wq} {o : Op} {qpn : Nat} {q : Qp} {k : Nat} {m : Msg} {dst : Nat} {page : Option Nat} {data : Bytes} (h0 : Keeps s0 s) :
    Keeps s0 (State.sendMsg s n w o qpn q k m dst page data) := by
  unfold State.sendMsg
  try dsimp only
  repeat' (first | with_reducible assumption | (intro _; try dsimp only) | with_reducible apply State.bucket_keeps
                 | with_reducible apply State.wakeDom_keeps | with_reducible apply State.bindEngine_keeps
                 | with_reducible apply State.startTxn_keeps | with_reducible apply State.allocWaits_keeps
                 | with_reducible apply State.allocDone_keeps | with_reducible apply State.grant_keeps
                 | with_reducible apply State.updOp_keeps | with_reducible exact keepsOpt_none | with_reducible exact keepsOpt2_none
                 | with_reducible apply keepsOpt_some | with_reducible apply keepsOpt2_some | with_reducible apply keepsOpt_bind
                 | with_reducible apply keepsOpt_map | with_reducible apply keepsOpt2_mapPair | with_reducible apply keepsOpt2_map
                 | with_reducible apply keeps_getD | (simp only [keeps_mk]; with_reducible refine Keeps.fold ?_)
                 | with_reducible apply keeps_ite | (split <;> try dsimp only)
                 | with_reducible refine keeps_of_pair (by assumption) ?_ | with_reducible refine keeps_of_triple (by assumption) ?_
                 | with_reducible refine keeps_of_some (by assumption) ?_ | with_reducible refine keeps_of_some2 (by assumption) ?_)

theorem State.issueMsg_keeps {s0 : State} {s : State} {n : Nat} {id : Nat} {k : Nat} (h0 : Keeps s0 s) :
    Keeps s0 (State.issueMsg s n id k) := by
  unfold State.issueMsg
  try dsimp only
  repeat' (first | with_reducible assumption | (intro _; try dsimp only) | with_reducible apply State.cacheUsed_keeps
                 | with_reducible apply State.probe_keeps | with_reducible apply State.needCtx_keeps
                 | with_reducible apply State.produce_keeps | with_reducible apply State.msgEnd_keeps
                 | with_reducible apply State.msgLocalFail_keeps | with_reducible apply State.msgData_keeps
                 | with_reducible apply State.sendMsg_keeps | with_reducible exact keepsOpt_none
                 | with_reducible exact keepsOpt2_none | with_reducible apply keepsOpt_some | with_reducible apply keepsOpt2_some
                 | (simp only [keeps_mk]; with_reducible refine Keeps.fold ?_) | with_reducible apply keeps_ite
                 | (split <;> try dsimp only) | with_reducible refine keeps_of_pair (by assumption) ?_
                 | with_reducible refine keeps_of_triple (by assumption) ?_ | with_reducible refine keeps_of_some (by assumption) ?_
                 | with_reducible refine keeps_of_some2 (by assumption) ?_ | with_reducible refine keeps_of_reply (by assumption) ?_
                 | with_reducible refine keeps_of_wait (by assumption) ?_)

theorem State.fences_keeps {s0 : State} {s : State} (h0 : Keeps s0 s) :
    Keeps s0 (State.fences s) := by
  unfold State.fences
  try dsimp only
  repeat' (first | with_reducible assumption | (intro _; try dsimp only) | with_reducible apply State.opDone_keeps
                 | with_reducible apply keeps_foldl | with_reducible apply keeps_foldl_pair | with_reducible apply keeps_foldl_triple
                 | (simp only [keeps_mk]; with_reducible refine Keeps.fold ?_) | with_reducible apply keeps_ite
                 | (split <;> try dsimp only) | with_reducible refine keeps_of_pair (by assumption) ?_
                 | with_reducible refine keeps_of_triple (by assumption) ?_ | with_reducible refine keeps_of_some (by assumption) ?_
                 | with_reducible refine keeps_of_some2 (by assumption) ?_)

end Sys2Proof.Machine
end

