-- ==== Sys2Proof/Laws/KeepCollective.lean ====
section
/-!
SUPPORT. What the operations of Machine/Collective.lean keep.
-/

namespace Sys2Proof.Machine

set_option linter.unusedTactic false
set_option linter.unreachableTactic false
set_option linter.unusedVariables false

theorem State.setColl_keeps {s0 : State} {s : State} {g : Nat} {c : Coll} (h0 : Keeps s0 s) :
    Keeps s0 (State.setColl s g c) := by
  unfold State.setColl
  try dsimp only
  repeat' (first | with_reducible assumption | (intro _; try dsimp only) | (simp only [keeps_mk]; with_reducible refine Keeps.fold ?_))

theorem State.roundUnit_keeps {s0 : State} {s : State} {c : Coll} {ranks i : Nat} {v : UVal} (h0 : Keeps s0 s) :
    Keeps s0 (State.roundUnit s c ranks i v).2.2 := by
  unfold State.roundUnit
  try dsimp only
  repeat' (first | with_reducible assumption | (intro _; try dsimp only) | with_reducible apply State.countN_keeps
                 | with_reducible apply keepsOpt_map | with_reducible apply keepsOpt2_mapPair | with_reducible apply keepsOpt2_map
                 | (simp only [keeps_mk]; with_reducible refine Keeps.fold ?_) | with_reducible apply keeps_ite
                 | (split <;> try dsimp only) | with_reducible refine keeps_of_pair (by assumption) ?_
                 | with_reducible refine keeps_of_triple (by assumption) ?_ | with_reducible refine keeps_of_some (by assumption) ?_
                 | with_reducible refine keeps_of_some2 (by assumption) ?_)

theorem State.roundPieces_keeps {s0 : State} {s : State} {c : Coll} {ranks : Nat} {ps : List UPiece} (h0 : Keeps s0 s) :
    Keeps s0 (State.roundPieces s c ranks ps).2 := by
  unfold State.roundPieces
  try dsimp only
  repeat' (first | with_reducible assumption | (intro _; try dsimp only) | with_reducible apply State.roundUnit_keeps
                 | with_reducible apply keeps_foldl | with_reducible apply keeps_foldl_pair | with_reducible apply keeps_foldl_triple
                 | (simp only [keeps_mk]; with_reducible refine Keeps.fold ?_) | with_reducible apply keeps_ite
                 | (split <;> try dsimp only) | with_reducible refine keeps_of_pair (by assumption) ?_
                 | with_reducible refine keeps_of_triple (by assumption) ?_ | with_reducible refine keeps_of_some (by assumption) ?_
                 | with_reducible refine keeps_of_some2 (by assumption) ?_)

theorem State.sendPiece_keeps {s0 : State} {s : State} {g : Nat} {x : Group} {c : Coll} {dst stage step : Nat} {p : UPiece} (h0 : Keeps s0 s) :
    Keeps s0 (State.sendPiece s g x c dst stage step p).2 := by
  unfold State.sendPiece
  try dsimp only
  repeat' (first | with_reducible assumption | (intro _; try dsimp only) | with_reducible apply State.count_keeps
                 | with_reducible apply State.control_keeps | with_reducible apply keepsOpt_map | with_reducible apply keepsOpt2_mapPair
                 | with_reducible apply keepsOpt2_map | with_reducible apply keeps_foldl | with_reducible apply keeps_foldl_pair
                 | with_reducible apply keeps_foldl_triple | with_reducible apply keeps_getD
                 | (simp only [keeps_mk]; with_reducible refine Keeps.fold ?_) | with_reducible apply keeps_ite
                 | (split <;> try dsimp only) | with_reducible refine keeps_of_pair (by assumption) ?_
                 | with_reducible refine keeps_of_triple (by assumption) ?_ | with_reducible refine keeps_of_some (by assumption) ?_
                 | with_reducible refine keeps_of_some2 (by assumption) ?_)

theorem State.absorb_keeps {s0 : State} {s : State} {c : Coll} {ranks : Nat} {combine : Bool} {m : CMsg} (h0 : Keeps s0 s) :
    Keeps s0 (State.absorb s c ranks combine m).2.2 := by
  unfold State.absorb
  try dsimp only
  repeat' (first | with_reducible assumption | (intro _; try dsimp only) | with_reducible apply State.place_keeps
                 | with_reducible apply State.combine_keeps | with_reducible apply State.countN_keeps | with_reducible apply keeps_foldl
                 | with_reducible apply keeps_foldl_pair | with_reducible apply keeps_foldl_triple
                 | (simp only [keeps_mk]; with_reducible refine Keeps.fold ?_) | with_reducible apply keeps_ite
                 | (split <;> try dsimp only) | with_reducible refine keeps_of_pair (by assumption) ?_
                 | with_reducible refine keeps_of_triple (by assumption) ?_ | with_reducible refine keeps_of_some (by assumption) ?_
                 | with_reducible refine keeps_of_some2 (by assumption) ?_)

theorem trackGo_keeps {s0 : State} {g : Nat} {x : Group} {k : Nat} {fuel : Nat} {y1 : Coll × State} (h0 : Keeps s0 y1.2) :
    Keeps s0 (trackGo g x k fuel y1).2 := by
  induction fuel generalizing g x k y1 with
  | zero =>
    unfold trackGo
    try dsimp only
    repeat' (first | with_reducible assumption | (intro _; try dsimp only) | with_reducible apply State.roundPieces_keeps
                   | with_reducible apply State.sendPiece_keeps | with_reducible apply State.absorb_keeps
                   | with_reducible apply State.combine_keeps | with_reducible apply keeps_foldl | with_reducible apply keeps_foldl_pair
                   | with_reducible apply keeps_foldl_triple | (simp only [keeps_mk]; with_reducible refine Keeps.fold ?_)
                   | with_reducible apply keeps_ite | (split <;> try dsimp only) | with_reducible refine keeps_of_pair (by assumption) ?_
                   | with_reducible refine keeps_of_triple (by assumption) ?_ | with_reducible refine keeps_of_some (by assumption) ?_
                   | with_reducible refine keeps_of_some2 (by assumption) ?_)
  | succ _ ih =>
    unfold trackGo
    try dsimp only
    repeat' (first | with_reducible assumption
                   | with_reducible apply ih | (intro _; try dsimp only) | with_reducible apply State.roundPieces_keeps
                   | with_reducible apply State.sendPiece_keeps | with_reducible apply State.absorb_keeps
                   | with_reducible apply State.combine_keeps | with_reducible apply keeps_foldl | with_reducible apply keeps_foldl_pair
                   | with_reducible apply keeps_foldl_triple | (simp only [keeps_mk]; with_reducible refine Keeps.fold ?_)
                   | with_reducible apply keeps_ite | (split <;> try dsimp only) | with_reducible refine keeps_of_pair (by assumption) ?_
                   | with_reducible refine keeps_of_triple (by assumption) ?_ | with_reducible refine keeps_of_some (by assumption) ?_
                   | with_reducible refine keeps_of_some2 (by assumption) ?_)

theorem State.collResult_keeps {s0 : State} {s : State} {x : Group} {c : Coll} (h0 : Keeps s0 s) :
    Keeps s0 (State.collResult s x c).2.2 := by
  unfold State.collResult
  try dsimp only
  repeat' (first | with_reducible assumption | (intro _; try dsimp only) | with_reducible apply State.roundUnit_keeps
                 | with_reducible apply keeps_foldl | with_reducible apply keeps_foldl_pair | with_reducible apply keeps_foldl_triple
                 | (simp only [keeps_mk]; with_reducible refine Keeps.fold ?_) | with_reducible apply keeps_ite
                 | (split <;> try dsimp only) | with_reducible refine keeps_of_pair (by assumption) ?_
                 | with_reducible refine keeps_of_triple (by assumption) ?_ | with_reducible refine keeps_of_some (by assumption) ?_
                 | with_reducible refine keeps_of_some2 (by assumption) ?_)

theorem State.sendAbort_keeps {s0 : State} {s : State} {g : Nat} {x : Group} {seq : Nat} {tc : Nat} (h0 : Keeps s0 s) :
    Keeps s0 (State.sendAbort s g x seq tc) := by
  unfold State.sendAbort
  try dsimp only
  repeat' (first | with_reducible assumption | (intro _; try dsimp only) | with_reducible apply State.setFlag_keeps
                 | with_reducible apply State.treeDown_keeps | (simp only [keeps_mk]; with_reducible refine Keeps.fold ?_)
                 | with_reducible apply keeps_ite)

theorem State.dropColl_keeps {s0 : State} {s : State} {g : Nat} (h0 : Keeps s0 s) :
    Keeps s0 (State.dropColl s g) := by
  unfold State.dropColl
  try dsimp only
  repeat' (first | with_reducible assumption | (intro _; try dsimp only) | with_reducible apply State.disown_keeps
                 | (simp only [keeps_mk]; with_reducible refine Keeps.fold ?_) | with_reducible apply keeps_ite
                 | (split <;> try dsimp only) | with_reducible refine keeps_of_pair (by assumption) ?_
                 | with_reducible refine keeps_of_triple (by assumption) ?_ | with_reducible refine keeps_of_some (by assumption) ?_
                 | with_reducible refine keeps_of_some2 (by assumption) ?_)

theorem State.collAbort_keeps {s0 : State} {s : State} {g : Nat} {status : Nat} {detail : Nat} {remote : Bool} (h0 : Keeps s0 s) :
    Keeps s0 (State.collAbort s g status detail remote) := by
  unfold State.collAbort
  try dsimp only
  repeat' (first | with_reducible assumption | (intro _; try dsimp only) | with_reducible apply State.opDone_keeps
                 | with_reducible apply State.sendAbort_keeps | with_reducible apply State.dropColl_keeps
                 | (simp only [keeps_mk]; with_reducible refine Keeps.fold ?_) | with_reducible apply keeps_ite
                 | (split <;> try dsimp only) | with_reducible refine keeps_of_pair (by assumption) ?_
                 | with_reducible refine keeps_of_triple (by assumption) ?_ | with_reducible refine keeps_of_some (by assumption) ?_
                 | with_reducible refine keeps_of_some2 (by assumption) ?_)

theorem State.hallAsk_keeps {s0 : State} {s : State} {owner : TxnOwner} {partition : Nat} {tc : Nat} {srcGen : Nat} {addr : Nat} {data : Bytes ⊕ Nat} (h0 : Keeps s0 s) :
    Keeps s0 (State.hallAsk s owner partition tc srcGen addr data) := by
  unfold State.hallAsk
  try dsimp only
  repeat' (first | with_reducible assumption | (intro _; try dsimp only) | with_reducible apply State.cacheUsed_keeps
                 | with_reducible apply State.ask_keeps | with_reducible exact keepsOpt_none | with_reducible exact keepsOpt2_none
                 | with_reducible apply keepsOpt_some | with_reducible apply keepsOpt2_some
                 | (simp only [keeps_mk]; with_reducible refine Keeps.fold ?_) | with_reducible apply keeps_ite
                 | (split <;> try dsimp only) | with_reducible refine keeps_of_pair (by assumption) ?_
                 | with_reducible refine keeps_of_triple (by assumption) ?_ | with_reducible refine keeps_of_some (by assumption) ?_
                 | with_reducible refine keeps_of_some2 (by assumption) ?_)

theorem State.collWrite_keeps {s0 : State} {s : State} {g : Nat} {x : Group} {c : Coll} (h0 : Keeps s0 s) :
    Keeps s0 (State.collWrite s g x c) := by
  unfold State.collWrite
  try dsimp only
  repeat' (first | with_reducible assumption | (intro _; try dsimp only) | with_reducible apply State.ivaWrite_keeps
                 | with_reducible apply State.holdEcc_keeps | with_reducible apply State.setColl_keeps
                 | with_reducible apply State.collResult_keeps | with_reducible apply State.collAbort_keeps
                 | with_reducible apply State.hallAsk_keeps | with_reducible apply keeps_foldl
                 | with_reducible apply keeps_foldl_pair | with_reducible apply keeps_foldl_triple
                 | with_reducible apply keepsOpt_foldl | (simp only [keeps_mk]; with_reducible refine Keeps.fold ?_)
                 | with_reducible apply keeps_ite | (split <;> try dsimp only)
                 | with_reducible refine keeps_of_pair (by assumption) ?_ | with_reducible refine keeps_of_triple (by assumption) ?_
                 | with_reducible refine keeps_of_some (by assumption) ?_ | with_reducible refine keeps_of_some2 (by assumption) ?_)

theorem State.collEnd_keeps {s0 : State} {s : State} {g : Nat} (h0 : Keeps s0 s) :
    Keeps s0 (State.collEnd s g) := by
  unfold State.collEnd
  try dsimp only
  repeat' (first | with_reducible assumption | with_reducible apply State.dropColl_keeps | with_reducible apply State.count_keeps
                 | with_reducible apply State.opDone_keeps | (simp only [keeps_mk]; with_reducible refine Keeps.fold ?_)
                 | with_reducible apply keeps_ite | (split <;> try dsimp only) | with_reducible refine keeps_of_pair (by assumption) ?_
                 | with_reducible refine keeps_of_triple (by assumption) ?_ | with_reducible refine keeps_of_some (by assumption) ?_
                 | with_reducible refine keeps_of_some2 (by assumption) ?_)

theorem State.collGo_keeps {s0 : State} {s : State} {g : Nat} (h0 : Keeps s0 s) :
    Keeps s0 (State.collGo s g) := by
  unfold State.collGo
  try dsimp only
  repeat' (first | with_reducible assumption | (intro _; try dsimp only) | with_reducible apply trackGo_keeps
                 | with_reducible apply State.setColl_keeps | with_reducible apply State.collWrite_keeps
                 | with_reducible apply State.collEnd_keeps | with_reducible apply keepsOpt_map | with_reducible apply keepsOpt2_mapPair
                 | with_reducible apply keepsOpt2_map | with_reducible apply keeps_foldl | with_reducible apply keeps_foldl_pair
                 | with_reducible apply keeps_foldl_triple | (simp only [keeps_mk]; with_reducible refine Keeps.fold ?_)
                 | with_reducible apply keeps_ite | (split <;> try dsimp only) | with_reducible refine keeps_of_pair (by assumption) ?_
                 | with_reducible refine keeps_of_triple (by assumption) ?_ | with_reducible refine keeps_of_some (by assumption) ?_
                 | with_reducible refine keeps_of_some2 (by assumption) ?_)

theorem State.collLoad_keeps {s0 : State} {s : State} {g : Nat} (h0 : Keeps s0 s) :
    Keeps s0 (State.collLoad s g) := by
  unfold State.collLoad
  try dsimp only
  repeat' (first | with_reducible assumption | (intro _; try dsimp only) | with_reducible apply State.count_keeps
                 | with_reducible apply State.readIva_keeps | with_reducible apply AdmRes.fail_keeps
                 | with_reducible apply State.holdPoison_keeps | with_reducible apply State.setColl_keeps
                 | with_reducible apply State.collAbort_keeps | with_reducible apply State.collGo_keeps
                 | with_reducible apply keepsOpt_map | with_reducible apply keepsOpt2_mapPair | with_reducible apply keepsOpt2_map
                 | with_reducible apply keeps_getD | (simp only [keeps_mk]; with_reducible refine Keeps.fold ?_)
                 | with_reducible apply keeps_ite | (split <;> try dsimp only)
                 | with_reducible refine keeps_of_pair (by assumption) ?_ | with_reducible refine keeps_of_triple (by assumption) ?_
                 | with_reducible refine keeps_of_some (by assumption) ?_ | with_reducible refine keeps_of_some2 (by assumption) ?_)

theorem State.collPost_keeps {s0 : State} {s : State} {n id : Nat} {w : Wq} {o : Op} {q : Qp} {g : Nat} {x : Group} (h0 : Keeps s0 s) :
    Keeps s0 (State.collPost s n id w o q g x) := by
  unfold State.collPost
  try dsimp only
  repeat' (first | with_reducible assumption | (intro _; try dsimp only) | with_reducible apply State.count_keeps
                 | with_reducible apply State.setGroup_keeps | with_reducible apply State.opFail_keeps
                 | with_reducible apply State.updOp_keeps | with_reducible apply State.hallAsk_keeps
                 | with_reducible apply State.setFlag_keeps | with_reducible apply State.collLoad_keeps
                 | with_reducible apply keepsOpt_map | with_reducible apply keepsOpt2_mapPair | with_reducible apply keepsOpt2_map
                 | with_reducible apply keeps_foldl | with_reducible apply keeps_foldl_pair | with_reducible apply keeps_foldl_triple
                 | (simp only [keeps_mk]; with_reducible refine Keeps.fold ?_) | with_reducible apply keeps_ite
                 | (split <;> try dsimp only))

theorem State.collective_keeps {s0 : State} {s : State} {n id oper : Nat} (h0 : Keeps s0 s) :
    Keeps s0 (State.collective s n id oper) := by
  unfold State.collective
  try dsimp only
  repeat' (first | with_reducible assumption | (intro _; try dsimp only) | with_reducible apply State.collLoad_keeps
                 | with_reducible apply State.runOp_keeps | with_reducible apply State.opFail_keeps
                 | with_reducible apply State.count_keeps | with_reducible apply State.localCheck_keeps
                 | with_reducible apply State.collPost_keeps | with_reducible apply keepsOpt_bind
                 | (simp only [keeps_mk]; with_reducible refine Keeps.fold ?_) | with_reducible apply keeps_ite
                 | (split <;> try dsimp only) | with_reducible refine keeps_of_pair (by assumption) ?_
                 | with_reducible refine keeps_of_triple (by assumption) ?_ | with_reducible refine keeps_of_some (by assumption) ?_
                 | with_reducible refine keeps_of_some2 (by assumption) ?_)

theorem State.collIn_keeps {s0 : State} {s : State} {p : Pkt} (h0 : Keeps s0 s) :
    Keeps s0 (State.collIn s p) := by
  unfold State.collIn
  try dsimp only
  repeat' (first | with_reducible assumption | with_reducible apply State.setColl_keeps | with_reducible apply State.collGo_keeps
                 | with_reducible apply State.setFlag_keeps | with_reducible apply State.setGroup_keeps
                 | (simp only [keeps_mk]; with_reducible refine Keeps.fold ?_) | with_reducible apply keeps_ite
                 | (split <;> try dsimp only) | with_reducible refine keeps_of_pair (by assumption) ?_
                 | with_reducible refine keeps_of_triple (by assumption) ?_ | with_reducible refine keeps_of_some (by assumption) ?_
                 | with_reducible refine keeps_of_some2 (by assumption) ?_)

theorem State.collAcked_keeps {s0 : State} {s : State} {g seq what off status reason : Nat} {data : Bytes} (h0 : Keeps s0 s) :
    Keeps s0 (State.collAcked s g seq what off status reason data) := by
  unfold State.collAcked
  try dsimp only
  repeat' (first | with_reducible assumption | with_reducible apply State.collAbort_keeps | with_reducible apply State.setColl_keeps
                 | with_reducible apply State.land_keeps | with_reducible apply State.collLoad_keeps
                 | with_reducible apply State.collEnd_keeps | (simp only [keeps_mk]; with_reducible refine Keeps.fold ?_)
                 | with_reducible apply keeps_ite | (split <;> try dsimp only) | with_reducible refine keeps_of_pair (by assumption) ?_
                 | with_reducible refine keeps_of_triple (by assumption) ?_ | with_reducible refine keeps_of_some (by assumption) ?_
                 | with_reducible refine keeps_of_some2 (by assumption) ?_)

theorem State.collAborted_keeps {s0 : State} {s : State} {g seq : Nat} {own : Bool} (h0 : Keeps s0 s) :
    Keeps s0 (State.collAborted s g seq own) := by
  unfold State.collAborted
  try dsimp only
  repeat' (first | with_reducible assumption | with_reducible apply State.setFlag_keeps | with_reducible apply State.count_keeps
                 | with_reducible apply State.dropColl_keeps | with_reducible apply State.opDone_keeps
                 | with_reducible apply State.setGroup_keeps | (simp only [keeps_mk]; with_reducible refine Keeps.fold ?_)
                 | with_reducible apply keeps_ite | (split <;> try dsimp only) | with_reducible refine keeps_of_pair (by assumption) ?_
                 | with_reducible refine keeps_of_triple (by assumption) ?_ | with_reducible refine keeps_of_some (by assumption) ?_
                 | with_reducible refine keeps_of_some2 (by assumption) ?_)

theorem State.abortUnposted_keeps {s0 : State} {s : State} {n : Nat} {o : Op} (h0 : Keeps s0 s) :
    Keeps s0 (State.abortUnposted s n o) := by
  unfold State.abortUnposted
  try dsimp only
  repeat' (first | with_reducible assumption | (intro _; try dsimp only) | with_reducible apply State.setGroup_keeps
                 | with_reducible apply State.sendAbort_keeps | (simp only [keeps_mk]; with_reducible refine Keeps.fold ?_)
                 | with_reducible apply keeps_ite | (split <;> try dsimp only)
                 | with_reducible refine keeps_of_pair (by assumption) ?_ | with_reducible refine keeps_of_triple (by assumption) ?_
                 | with_reducible refine keeps_of_some (by assumption) ?_ | with_reducible refine keeps_of_some2 (by assumption) ?_)

theorem State.collQuench_keeps {s0 : State} {s : State} {g : Nat} (h0 : Keeps s0 s) :
    Keeps s0 (State.collQuench s g) := by
  unfold State.collQuench
  try dsimp only
  repeat' (first | with_reducible assumption | (intro _; try dsimp only) | with_reducible apply State.setFlag_keeps
                 | with_reducible apply State.reply_keeps | with_reducible apply State.opDone_keeps
                 | with_reducible apply State.setGroup_keeps | with_reducible apply State.dropGroup_keeps
                 | (simp only [keeps_mk]; with_reducible refine Keeps.fold ?_) | with_reducible apply keeps_ite
                 | (split <;> try dsimp only) | with_reducible refine keeps_of_pair (by assumption) ?_
                 | with_reducible refine keeps_of_triple (by assumption) ?_ | with_reducible refine keeps_of_some (by assumption) ?_
                 | with_reducible refine keeps_of_some2 (by assumption) ?_ | with_reducible refine keeps_of_reply (by assumption) ?_
                 | with_reducible refine keeps_of_wait (by assumption) ?_)

end Sys2Proof.Machine
end

