-- ==== Sys2Proof/Laws/KeepExpert.lean ====
section
/-!
SUPPORT. What the operations of Machine/Expert.lean keep.
-/

namespace Sys2Proof.Machine

set_option linter.unusedTactic false
set_option linter.unreachableTactic false
set_option linter.unusedVariables false

theorem State.accessLog_keeps {s0 : State} {s : State} {kind bar fn bytes offset : Nat} (h0 : Keeps s0 s) :
    Keeps s0 (State.accessLog s kind bar fn bytes offset) := by
  unfold State.accessLog
  try dsimp only
  repeat' (first | with_reducible assumption | with_reducible apply State.setReg_keeps | with_reducible apply State.setFlagOf_keeps
                 | with_reducible apply State.count_keeps | with_reducible apply keeps_ite | (split <;> try dsimp only))

theorem State.expertDrop_keeps {s0 : State} {s : State} {addr : Nat} (h0 : Keeps s0 s) :
    Keeps s0 (State.expertDrop s addr) := by
  unfold State.expertDrop
  repeat' (first | with_reducible assumption | with_reducible apply State.countOf_keeps | with_reducible apply State.setRegOf_keeps
                 | with_reducible apply State.setFlagOf_keeps)

theorem State.expert_keeps {s0 : State} {s : State} {fn addr bytes : Nat} {f : State → State} (h0 : Keeps s0 s) (h1 : ∀ t, Keeps s0 t → Keeps s0 (f t)) :
    Keeps s0 (State.expert s fn addr bytes f) := by
  unfold State.expert
  repeat' (first | with_reducible assumption | (intro _; try dsimp only) | with_reducible apply h1
                 | with_reducible apply State.accessLog_keeps | with_reducible apply State.expertDrop_keeps
                 | with_reducible apply keeps_ite | (split <;> try dsimp only))

theorem State.commit_keeps {s0 : State} {s : State} {fn : Nat} {r : Reg} {good : State → Bool} {rejected : State → State} {set : List Reg} (h0 : Keeps s0 s) (h1 : ∀ t, Keeps s0 t → Keeps s0 (rejected t)) :
    Keeps s0 (State.commit s fn r good rejected set) := by
  unfold State.commit
  repeat' (first | with_reducible assumption | (intro _; try dsimp only) | with_reducible apply h1
                 | with_reducible apply State.expert_keeps | with_reducible apply State.commitRegs_keeps
                 | with_reducible apply State.setFlagOf_keeps | with_reducible apply keeps_ite | (split <;> try dsimp only))

end Sys2Proof.Machine
end

