-- ==== Sys2Proof/Laws/KeepFrames.lean ====
section
/-!
SUPPORT. What the operations of Machine/Frames.lean keep.
-/

namespace Sys2Proof.Machine

set_option linter.unusedTactic false
set_option linter.unreachableTactic false
set_option linter.unusedVariables false

theorem State.takeFrame_keeps {s0 : State} {s : State} {use_ : FrameUse} (h0 : Keeps s0 s) :
    KeepsOpt2 s0 (State.takeFrame s use_) := by
  unfold State.takeFrame
  try dsimp only
  repeat' (first | with_reducible assumption | (intro _; try dsimp only) | with_reducible apply keepsOpt_map
                 | with_reducible apply keepsOpt2_mapPair | with_reducible apply keepsOpt2_map | with_reducible exact keepsOpt_none
                 | with_reducible exact keepsOpt2_none | with_reducible apply keepsOpt_some | with_reducible apply keepsOpt2_some
                 | (simp only [keeps_mk]; with_reducible refine Keeps.fold ?_) | with_reducible apply keeps_ite
                 | (split <;> try dsimp only))

theorem State.freeFrame_keeps {s0 : State} {s : State} {f : Nat} (h0 : Keeps s0 s) :
    Keeps s0 (State.freeFrame s f) := by
  unfold State.freeFrame
  try dsimp only
  repeat' (first | with_reducible assumption | (simp only [keeps_mk]; with_reducible refine Keeps.fold ?_))

end Sys2Proof.Machine
end

