-- ==== Sys2Proof/Laws/KeepMoves.lean ====
section
/-!
SUPPORT. What the operations of Machine/Moves.lean keep.
-/

namespace Sys2Proof.Machine

set_option linter.unusedTactic false
set_option linter.unreachableTactic false
set_option linter.unusedVariables false

theorem State.plcSend_keeps {s0 : State} {s : State} {owner : TxnOwner} {typ dst key seq partition : Nat} {more : Bytes} (h0 : Keeps s0 s) :
    Keeps s0 (State.plcSend s owner typ dst key seq partition more) := by
  unfold State.plcSend
  try dsimp only
  repeat' (first | with_reducible assumption | with_reducible apply State.control_keeps
                 | (simp only [keeps_mk]; with_reducible refine Keeps.fold ?_) | with_reducible apply keeps_ite
                 | (split <;> try dsimp only))

theorem State.sendUnit_keeps {s0 : State} {s : State} {key : Nat} {h : Held} {dst : Nat} {u : Nat} {pass : Bool} (h0 : Keeps s0 s) :
    Keeps s0 (State.sendUnit s key h dst u pass) := by
  unfold State.sendUnit
  try dsimp only
  repeat' (first | with_reducible assumption | (intro _; try dsimp only) | with_reducible apply State.via_keeps
                 | with_reducible apply State.physRead_keeps | with_reducible apply State.control_keeps
                 | (simp only [keeps_mk]; with_reducible refine Keeps.fold ?_) | with_reducible apply keeps_ite)

theorem State.stopCopy_keeps {s0 : State} {s : State} {key : Nat} (h0 : Keeps s0 s) :
    Keeps s0 (State.stopCopy s key) := by
  unfold State.stopCopy
  try dsimp only
  repeat' (first | with_reducible assumption | (intro _; try dsimp only) | with_reducible apply State.setHeld_keeps
                 | with_reducible apply State.control_keeps | with_reducible exact keepsOpt_none
                 | with_reducible exact keepsOpt2_none | with_reducible apply keepsOpt_some | with_reducible apply keepsOpt2_some
                 | (simp only [keeps_mk]; with_reducible refine Keeps.fold ?_) | with_reducible apply keeps_ite
                 | (split <;> try dsimp only) | with_reducible refine keeps_of_pair (by assumption) ?_
                 | with_reducible refine keeps_of_triple (by assumption) ?_ | with_reducible refine keeps_of_some (by assumption) ?_
                 | with_reducible refine keeps_of_some2 (by assumption) ?_)

theorem State.afterWrite_keeps {s0 : State} {s : State} {key : Nat} {byte : Nat} {len : Nat} (h0 : Keeps s0 s) :
    Keeps s0 (State.afterWrite s key byte len) := by
  unfold State.afterWrite
  try dsimp only
  repeat' (first | with_reducible assumption | (intro _; try dsimp only) | with_reducible apply State.setHeld_keeps
                 | with_reducible apply State.control_keeps | with_reducible apply State.plcSend_keeps
                 | with_reducible apply State.sendUnit_keeps | with_reducible apply State.stopCopy_keeps
                 | with_reducible apply keepsOpt_map | with_reducible apply keepsOpt2_mapPair | with_reducible apply keepsOpt2_map
                 | with_reducible apply keeps_foldl | with_reducible apply keeps_foldl_pair
                 | with_reducible apply keeps_foldl_triple | with_reducible apply keepsOpt_foldl
                 | (simp only [keeps_mk]; with_reducible refine Keeps.fold ?_) | with_reducible apply keeps_ite
                 | (split <;> try dsimp only) | with_reducible refine keeps_of_pair (by assumption) ?_
                 | with_reducible refine keeps_of_triple (by assumption) ?_ | with_reducible refine keeps_of_some (by assumption) ?_
                 | with_reducible refine keeps_of_some2 (by assumption) ?_)

theorem State.sendNote_keeps {s0 : State} {s : State} {owner : TxnOwner} {dst key role src qpn : Nat} (h0 : Keeps s0 s) :
    Keeps s0 (State.sendNote s owner dst key role src qpn) := by
  unfold State.sendNote
  try dsimp only
  repeat' (first | with_reducible assumption | with_reducible apply State.plcSend_keeps
                 | (simp only [keeps_mk]; with_reducible refine Keeps.fold ?_) | with_reducible apply keeps_ite
                 | (split <;> try dsimp only) | with_reducible refine keeps_of_pair (by assumption) ?_
                 | with_reducible refine keeps_of_triple (by assumption) ?_ | with_reducible refine keeps_of_some (by assumption) ?_
                 | with_reducible refine keeps_of_some2 (by assumption) ?_)

theorem State.sendHint_keeps {s0 : State} {s : State} {page : Nat} {p : Page} {dst : Nat} (h0 : Keeps s0 s) :
    Keeps s0 (State.sendHint s page p dst) := by
  unfold State.sendHint
  repeat' (first | with_reducible assumption | with_reducible apply State.plcSend_keeps | with_reducible apply State.control_keeps)

theorem State.hintOnce_keeps {s0 : State} {s : State} {page src : Nat} (h0 : Keeps s0 s) :
    Keeps s0 (State.hintOnce s page src) := by
  unfold State.hintOnce
  try dsimp only
  repeat' (first | with_reducible assumption | with_reducible apply State.setPage_keeps | with_reducible apply State.sendHint_keeps
                 | (simp only [keeps_mk]; with_reducible refine Keeps.fold ?_) | with_reducible apply keeps_ite
                 | (split <;> try dsimp only) | with_reducible refine keeps_of_pair (by assumption) ?_
                 | with_reducible refine keeps_of_triple (by assumption) ?_ | with_reducible refine keeps_of_some (by assumption) ?_
                 | with_reducible refine keeps_of_some2 (by assumption) ?_)

end Sys2Proof.Machine
end

