-- ==== Sys2Proof/Laws/KeepTransit.lean ====
section
/-!
SUPPORT. What the operations of Machine/Transit.lean keep.
-/

namespace Sys2Proof.Machine

set_option linter.unusedTactic false
set_option linter.unreachableTactic false
set_option linter.unusedVariables false

theorem State.setEntry_keeps {s0 : State} {s : State} {k : Nat} {e : TEntry} (h0 : Keeps s0 s) :
    Keeps s0 (State.setEntry s k e) := by
  unfold State.setEntry
  try dsimp only
  repeat' (first | with_reducible assumption | (simp only [keeps_mk]; with_reducible refine Keeps.fold ?_))

theorem State.placement_keeps {s0 : State} {s : State} {reason mod data0 data1 : Nat} (h0 : Keeps s0 s) :
    Keeps s0 (State.placement s reason mod data0 data1) := by
  unfold State.placement
  repeat' (first | with_reducible assumption | with_reducible apply State.raise_keeps | with_reducible apply keeps_ite
                 | (split <;> try dsimp only))

theorem State.dropEntryWaits_keeps {s0 : State} {s : State} {k : Nat} (h0 : Keeps s0 s) :
    Keeps s0 (State.dropEntryWaits s k) := by
  unfold State.dropEntryWaits
  try dsimp only
  repeat' (first | with_reducible assumption | (intro _; try dsimp only) | with_reducible apply keepsOpt_map
                 | with_reducible apply keepsOpt2_mapPair | with_reducible apply keepsOpt2_map
                 | (simp only [keeps_mk]; with_reducible refine Keeps.fold ?_))

theorem State.entryTest_keeps {s0 : State} {s : State} {k : Nat} (h0 : Keeps s0 s) :
    Keeps s0 (State.entryTest s k) := by
  unfold State.entryTest
  try dsimp only
  repeat' (first | with_reducible assumption | (intro _; try dsimp only) | with_reducible apply State.count_keeps
                 | with_reducible apply State.setWick_keeps | with_reducible apply State.dropEntryWaits_keeps
                 | with_reducible apply State.setEntry_keeps | with_reducible apply State.updOp_keeps | with_reducible apply keeps_foldl
                 | with_reducible apply keeps_foldl_pair | with_reducible apply keeps_foldl_triple
                 | (simp only [keeps_mk]; with_reducible refine Keeps.fold ?_) | with_reducible apply keeps_ite
                 | (split <;> try dsimp only) | with_reducible refine keeps_of_pair (by assumption) ?_
                 | with_reducible refine keeps_of_triple (by assumption) ?_ | with_reducible refine keeps_of_some (by assumption) ?_
                 | with_reducible refine keeps_of_some2 (by assumption) ?_)

theorem State.aborted_keeps {s0 : State} {s : State} {k : Nat} (h0 : Keeps s0 s) :
    Keeps s0 (State.aborted s k) := by
  unfold State.aborted
  repeat' (first | with_reducible assumption | with_reducible apply State.count_keeps)

theorem State.unloadDead_keeps {s0 : State} {s : State} {n : Nat} (h0 : Keeps s0 s) :
    Keeps s0 (State.unloadDead s n) := by
  unfold State.unloadDead
  try dsimp only
  repeat' (first | with_reducible assumption | (intro _; try dsimp only) | with_reducible apply State.heat_keeps
                 | (simp only [keeps_mk]; with_reducible refine Keeps.fold ?_) | with_reducible apply keeps_ite
                 | (split <;> try dsimp only) | with_reducible refine keeps_of_pair (by assumption) ?_
                 | with_reducible refine keeps_of_triple (by assumption) ?_ | with_reducible refine keeps_of_some (by assumption) ?_
                 | with_reducible refine keeps_of_some2 (by assumption) ?_)

theorem State.endEntry_keeps {s0 : State} {s : State} {k : Nat} (h0 : Keeps s0 s) :
    Keeps s0 (State.endEntry s k) := by
  unfold State.endEntry
  try dsimp only
  repeat' (first | with_reducible assumption | (intro _; try dsimp only) | with_reducible apply State.disown_keeps
                 | with_reducible apply State.setFlag_keeps | with_reducible apply State.unloadDead_keeps
                 | with_reducible apply State.opDone_keeps | with_reducible apply State.ask_keeps
                 | with_reducible apply State.control_keeps | with_reducible apply keeps_getD
                 | (simp only [keeps_mk]; with_reducible refine Keeps.fold ?_) | with_reducible apply keeps_ite
                 | (split <;> try dsimp only) | with_reducible refine keeps_of_pair (by assumption) ?_
                 | with_reducible refine keeps_of_triple (by assumption) ?_ | with_reducible refine keeps_of_some (by assumption) ?_
                 | with_reducible refine keeps_of_some2 (by assumption) ?_)

theorem State.drainEntry_keeps {s0 : State} {s : State} {k : Nat} (h0 : Keeps s0 s) :
    Keeps s0 (State.drainEntry s k) := by
  unfold State.drainEntry
  try dsimp only
  repeat' (first | with_reducible assumption | with_reducible apply State.endEntry_keeps
                 | (simp only [keeps_mk]; with_reducible refine Keeps.fold ?_) | with_reducible apply keeps_ite
                 | (split <;> try dsimp only) | with_reducible refine keeps_of_pair (by assumption) ?_
                 | with_reducible refine keeps_of_triple (by assumption) ?_ | with_reducible refine keeps_of_some (by assumption) ?_
                 | with_reducible refine keeps_of_some2 (by assumption) ?_)

theorem State.arbsWork_keeps {s0 : State} {s : State} (h0 : Keeps s0 s) :
    Keeps s0 (State.arbsWork s) := by
  unfold State.arbsWork
  try dsimp only
  repeat' (first | with_reducible assumption | (intro _; try dsimp only) | with_reducible apply State.arbTick_keeps
                 | with_reducible apply State.drainEntry_keeps | with_reducible apply keeps_foldl
                 | with_reducible apply keeps_foldl_pair | with_reducible apply keeps_foldl_triple
                 | with_reducible apply keepsOpt_foldl | (simp only [keeps_mk]; with_reducible refine Keeps.fold ?_)
                 | with_reducible apply keeps_ite)

theorem State.toDraining_keeps {s0 : State} {s : State} {k : Nat} (h0 : Keeps s0 s) :
    Keeps s0 (State.toDraining s k) := by
  unfold State.toDraining
  try dsimp only
  repeat' (first | with_reducible assumption | with_reducible apply State.setEntry_keeps | with_reducible apply State.drainEntry_keeps
                 | (simp only [keeps_mk]; with_reducible refine Keeps.fold ?_) | with_reducible apply keeps_ite
                 | (split <;> try dsimp only) | with_reducible refine keeps_of_pair (by assumption) ?_
                 | with_reducible refine keeps_of_triple (by assumption) ?_ | with_reducible refine keeps_of_some (by assumption) ?_
                 | with_reducible refine keeps_of_some2 (by assumption) ?_)

theorem State.failEntry_keeps {s0 : State} {s : State} {k : Nat} {status : Nat} {detail : Nat} {remote : Bool} (h0 : Keeps s0 s) :
    Keeps s0 (State.failEntry s k status detail remote) := by
  unfold State.failEntry
  try dsimp only
  repeat' (first | with_reducible assumption | (intro _; try dsimp only) | with_reducible apply State.holdEcc_keeps
                 | with_reducible apply State.setEntry_keeps | with_reducible apply State.toDraining_keeps
                 | (simp only [keeps_mk]; with_reducible refine Keeps.fold ?_) | with_reducible apply keeps_ite
                 | (split <;> try dsimp only) | with_reducible refine keeps_of_pair (by assumption) ?_
                 | with_reducible refine keeps_of_triple (by assumption) ?_ | with_reducible refine keeps_of_some (by assumption) ?_
                 | with_reducible refine keeps_of_some2 (by assumption) ?_)

theorem State.cancelEntry_keeps {s0 : State} {s : State} {k : Nat} {status : Nat} {detail : Nat} {remote : Bool} {silent : Bool} (h0 : Keeps s0 s) :
    Keeps s0 (State.cancelEntry s k status detail remote silent) := by
  unfold State.cancelEntry
  try dsimp only
  repeat' (first | with_reducible assumption | (intro _; try dsimp only) | with_reducible apply State.withdraw_keeps
                 | with_reducible apply State.addTokens_keeps | with_reducible apply State.setEntry_keeps
                 | with_reducible apply State.dropEntryWaits_keeps | with_reducible apply State.aborted_keeps
                 | with_reducible apply State.endEntry_keeps | with_reducible apply State.drainEntry_keeps
                 | with_reducible apply State.toDraining_keeps | with_reducible apply keeps_foldl
                 | with_reducible apply keeps_foldl_pair | with_reducible apply keeps_foldl_triple
                 | with_reducible apply keepsOpt_foldl | (simp only [keeps_mk]; with_reducible refine Keeps.fold ?_)
                 | with_reducible apply keeps_ite | (split <;> try dsimp only)
                 | with_reducible refine keeps_of_pair (by assumption) ?_ | with_reducible refine keeps_of_triple (by assumption) ?_
                 | with_reducible refine keeps_of_some (by assumption) ?_ | with_reducible refine keeps_of_some2 (by assumption) ?_)

theorem State.startEntry_keeps {s0 : State} {s : State} {program : Nat} {by_ : Launcher} {inst partition tc : Nat} {opers : List TOper} (h0 : Keeps s0 s) :
    Keeps s0 (State.startEntry s program by_ inst partition tc opers).2 := by
  unfold State.startEntry
  try dsimp only
  repeat' (first | with_reducible assumption | (intro _; try dsimp only) | with_reducible apply State.setEntry_keeps
                 | with_reducible apply State.count_keeps | with_reducible apply State.setWick_keeps | with_reducible apply keepsOpt_map
                 | with_reducible apply keepsOpt2_mapPair | with_reducible apply keepsOpt2_map | with_reducible apply keeps_foldl
                 | with_reducible apply keeps_foldl_pair | with_reducible apply keeps_foldl_triple
                 | (simp only [keeps_mk]; with_reducible refine Keeps.fold ?_) | with_reducible apply keeps_ite
                 | (split <;> try dsimp only) | with_reducible refine keeps_of_pair (by assumption) ?_
                 | with_reducible refine keeps_of_triple (by assumption) ?_ | with_reducible refine keeps_of_some (by assumption) ?_
                 | with_reducible refine keeps_of_some2 (by assumption) ?_)

theorem State.skyAsk_keeps {s0 : State} {s : State} {owner : TxnOwner} {partition tc srcGen mod key off : Nat} {data : Bytes ⊕ Nat} (h0 : Keeps s0 s) :
    Keeps s0 (State.skyAsk s owner partition tc srcGen mod key off data) := by
  unfold State.skyAsk
  try dsimp only
  repeat' (first | with_reducible assumption | with_reducible apply State.ask_keeps
                 | (simp only [keeps_mk]; with_reducible refine Keeps.fold ?_) | with_reducible apply keeps_ite
                 | (split <;> try dsimp only) | with_reducible refine keeps_of_pair (by assumption) ?_
                 | with_reducible refine keeps_of_triple (by assumption) ?_ | with_reducible refine keeps_of_some (by assumption) ?_
                 | with_reducible refine keeps_of_some2 (by assumption) ?_)

theorem State.operAsk_keeps {s0 : State} {s : State} {k : Nat} {e : TEntry} {o : TOper} {slot off : Nat} {data : Bytes ⊕ Nat} (h0 : Keeps s0 s) :
    Keeps s0 (State.operAsk s k e o slot off data) := by
  unfold State.operAsk
  try dsimp only
  repeat' (first | with_reducible assumption | with_reducible apply State.hallAsk_keeps | with_reducible apply State.skyAsk_keeps
                 | (simp only [keeps_mk]; with_reducible refine Keeps.fold ?_) | with_reducible apply keeps_ite
                 | (split <;> try dsimp only) | with_reducible refine keeps_of_pair (by assumption) ?_
                 | with_reducible refine keeps_of_triple (by assumption) ?_ | with_reducible refine keeps_of_some (by assumption) ?_
                 | with_reducible refine keeps_of_some2 (by assumption) ?_)

theorem State.readLocalOper_keeps {s0 : State} {s : State} {k : Nat} {i : Nat} (h0 : Keeps s0 s) :
    Keeps s0 (State.readLocalOper s k i) := by
  unfold State.readLocalOper
  try dsimp only
  repeat' (first | with_reducible assumption | (intro _; try dsimp only) | with_reducible apply State.via_keeps
                 | with_reducible apply State.readPieces_keeps | with_reducible apply AdmRes.fail_keeps
                 | with_reducible apply State.setEntry_keeps | with_reducible apply State.failEntry_keeps
                 | with_reducible apply keeps_getD | (simp only [keeps_mk]; with_reducible refine Keeps.fold ?_)
                 | with_reducible apply keeps_ite | (split <;> try dsimp only)
                 | with_reducible refine keeps_of_pair (by assumption) ?_ | with_reducible refine keeps_of_triple (by assumption) ?_
                 | with_reducible refine keeps_of_some (by assumption) ?_ | with_reducible refine keeps_of_some2 (by assumption) ?_)

theorem State.readOpers_keeps {s0 : State} {s : State} {k : Nat} (h0 : Keeps s0 s) :
    Keeps s0 (State.readOpers s k) := by
  unfold State.readOpers
  try dsimp only
  repeat' (first | with_reducible assumption | (intro _; try dsimp only) | with_reducible apply State.readLocalOper_keeps
                 | with_reducible apply State.setEntry_keeps | with_reducible apply State.operAsk_keeps
                 | with_reducible apply keepsOpt_map | with_reducible apply keepsOpt2_mapPair | with_reducible apply keepsOpt2_map
                 | with_reducible apply keeps_foldl | with_reducible apply keeps_foldl_pair | with_reducible apply keeps_foldl_triple
                 | (simp only [keeps_mk]; with_reducible refine Keeps.fold ?_) | with_reducible apply keeps_ite
                 | (split <;> try dsimp only) | with_reducible refine keeps_of_pair (by assumption) ?_
                 | with_reducible refine keeps_of_triple (by assumption) ?_ | with_reducible refine keeps_of_some (by assumption) ?_
                 | with_reducible refine keeps_of_some2 (by assumption) ?_)

theorem State.issueChunks_keeps {s0 : State} {s : State} {k : Nat} (h0 : Keeps s0 s) :
    Keeps s0 (State.issueChunks s k) := by
  unfold State.issueChunks
  try dsimp only
  repeat' (first | with_reducible assumption | (intro _; try dsimp only) | with_reducible apply State.setEntry_keeps
                 | with_reducible apply keeps_foldl | with_reducible apply keeps_foldl_pair
                 | with_reducible apply keeps_foldl_triple | with_reducible apply keepsOpt_foldl
                 | (simp only [keeps_mk]; with_reducible refine Keeps.fold ?_) | with_reducible apply keeps_ite
                 | (split <;> try dsimp only) | with_reducible refine keeps_of_pair (by assumption) ?_
                 | with_reducible refine keeps_of_triple (by assumption) ?_ | with_reducible refine keeps_of_some (by assumption) ?_
                 | with_reducible refine keeps_of_some2 (by assumption) ?_)

theorem State.goOn_keeps {s0 : State} {s : State} {k : Nat} (h0 : Keeps s0 s) :
    Keeps s0 (State.goOn s k) := by
  unfold State.goOn
  try dsimp only
  repeat' (first | with_reducible assumption | (intro _; try dsimp only) | with_reducible apply State.readOpers_keeps
                 | with_reducible apply State.issueChunks_keeps | (simp only [keeps_mk]; with_reducible refine Keeps.fold ?_)
                 | with_reducible apply keeps_ite)

theorem State.writeEnded_keeps {s0 : State} {s : State} {k : Nat} {op : Nat} {r : Nat ⊕ (Nat × Nat × Bool)} (h0 : Keeps s0 s) :
    Keeps s0 (State.writeEnded s k op r) := by
  unfold State.writeEnded
  try dsimp only
  repeat' (first | with_reducible assumption | (intro _; try dsimp only) | with_reducible apply State.setEntry_keeps
                 | with_reducible apply State.drainEntry_keeps | with_reducible apply State.failEntry_keeps
                 | with_reducible apply keeps_getD | (simp only [keeps_mk]; with_reducible refine Keeps.fold ?_)
                 | with_reducible apply keeps_ite | (split <;> try dsimp only)
                 | with_reducible refine keeps_of_pair (by assumption) ?_ | with_reducible refine keeps_of_triple (by assumption) ?_
                 | with_reducible refine keeps_of_some (by assumption) ?_ | with_reducible refine keeps_of_some2 (by assumption) ?_)

theorem State.operConfirmed_keeps {s0 : State} {s : State} {k : Nat} {order : Nat} {op : Nat} {r : Nat ⊕ (Nat × Nat)} (h0 : Keeps s0 s) :
    Keeps s0 (State.operConfirmed s k order op r) := by
  unfold State.operConfirmed
  try dsimp only
  repeat' (first | with_reducible assumption | (intro _; try dsimp only) | with_reducible apply State.writeEnded_keeps
                 | (simp only [keeps_mk]; with_reducible refine Keeps.fold ?_) | with_reducible apply keeps_ite
                 | (split <;> try dsimp only) | with_reducible refine keeps_of_pair (by assumption) ?_
                 | with_reducible refine keeps_of_triple (by assumption) ?_ | with_reducible refine keeps_of_some (by assumption) ?_
                 | with_reducible refine keeps_of_some2 (by assumption) ?_)

theorem State.writeOper_keeps {s0 : State} {s : State} {k : Nat} {i : Nat} {data : Bytes} (h0 : Keeps s0 s) :
    Keeps s0 (State.writeOper s k i data) := by
  unfold State.writeOper
  try dsimp only
  repeat' (first | with_reducible assumption | (intro _; try dsimp only) | with_reducible apply State.via_keeps
                 | with_reducible apply State.hostRead_keeps | with_reducible apply State.ivaWrite_keeps
                 | with_reducible apply State.setEntry_keeps | with_reducible apply State.failEntry_keeps
                 | with_reducible apply State.operAsk_keeps | with_reducible apply State.writeEnded_keeps
                 | with_reducible apply keepsOpt_map | with_reducible apply keepsOpt2_mapPair | with_reducible apply keepsOpt2_map
                 | with_reducible apply keeps_foldl | with_reducible apply keeps_foldl_pair
                 | with_reducible apply keeps_foldl_triple | with_reducible apply keepsOpt_foldl | with_reducible apply keeps_getD
                 | (simp only [keeps_mk]; with_reducible refine Keeps.fold ?_) | with_reducible apply keeps_ite
                 | (split <;> try dsimp only) | with_reducible refine keeps_of_pair (by assumption) ?_
                 | with_reducible refine keeps_of_triple (by assumption) ?_ | with_reducible refine keeps_of_some (by assumption) ?_
                 | with_reducible refine keeps_of_some2 (by assumption) ?_)

theorem State.heatUnits_keeps {s0 : State} {s : State} {program : Nat} {slot : Nat} {n : Nat} (h0 : Keeps s0 s) :
    Keeps s0 (State.heatUnits s program slot n) := by
  unfold State.heatUnits
  try dsimp only
  repeat' (first | with_reducible assumption | (intro _; try dsimp only) | with_reducible apply State.heat_keeps
                 | with_reducible apply keeps_getD | (simp only [keeps_mk]; with_reducible refine Keeps.fold ?_)
                 | with_reducible apply keeps_ite | (split <;> try dsimp only)
                 | with_reducible refine keeps_of_pair (by assumption) ?_ | with_reducible refine keeps_of_some (by assumption) ?_
                 | with_reducible refine keeps_of_some2 (by assumption) ?_)

theorem State.operandMoved_keeps {s0 : State} {s : State} {die : Nat} {en : Nat} {what : Nat} {arg : Nat} {r : Resolved} (h0 : Keeps s0 s) :
    Keeps s0 (State.operandMoved s die en what arg r) := by
  unfold State.operandMoved
  try dsimp only
  repeat' (first | with_reducible assumption | (intro _; try dsimp only) | with_reducible apply State.heatUnits_keeps
                 | (simp only [keeps_mk]; with_reducible refine Keeps.fold ?_) | with_reducible apply keeps_ite
                 | (split <;> try dsimp only) | with_reducible refine keeps_of_pair (by assumption) ?_
                 | with_reducible refine keeps_of_triple (by assumption) ?_ | with_reducible refine keeps_of_some (by assumption) ?_
                 | with_reducible refine keeps_of_some2 (by assumption) ?_)

theorem State.transitAcked_keeps {s0 : State} {s : State} {die : Nat} {en : Nat} {what : Nat} {arg : Nat} {status : Nat} {reason : Nat} {remote : Bool} {data : Bytes} (h0 : Keeps s0 s) :
    Keeps s0 (State.transitAcked s die en what arg status reason remote data) := by
  unfold State.transitAcked
  try dsimp only
  repeat' (first | with_reducible assumption | (intro _; try dsimp only) | with_reducible apply State.land_keeps
                 | with_reducible apply State.setEntry_keeps | with_reducible apply State.failEntry_keeps
                 | with_reducible apply State.goOn_keeps | with_reducible apply State.writeEnded_keeps
                 | with_reducible apply keeps_getD | (simp only [keeps_mk]; with_reducible refine Keeps.fold ?_)
                 | with_reducible apply keeps_ite | (split <;> try dsimp only)
                 | with_reducible refine keeps_of_pair (by assumption) ?_ | with_reducible refine keeps_of_triple (by assumption) ?_
                 | with_reducible refine keeps_of_some (by assumption) ?_ | with_reducible refine keeps_of_some2 (by assumption) ?_)

theorem State.allocateTiles_keeps {s0 : State} {s : State} {die : Nat} (h0 : Keeps s0 s) :
    Keeps s0 (State.allocateTiles s die) := by
  unfold State.allocateTiles
  try dsimp only
  repeat' (first | with_reducible assumption | (intro _; try dsimp only) | with_reducible apply State.setEntry_keeps
                 | with_reducible apply State.goOn_keeps | (simp only [keeps_mk]; with_reducible refine Keeps.fold ?_)
                 | with_reducible apply keeps_ite | (split <;> try dsimp only)
                 | with_reducible refine keeps_of_pair (by assumption) ?_ | with_reducible refine keeps_of_triple (by assumption) ?_
                 | with_reducible refine keeps_of_some (by assumption) ?_ | with_reducible refine keeps_of_some2 (by assumption) ?_)

theorem State.operatorDone_keeps {s0 : State} {s : State} {k op : Nat} {e : TEntry} {ins : List Bytes} (h0 : Keeps s0 s) :
    Keeps s0 (State.operatorDone s k op e ins) := by
  unfold State.operatorDone
  try dsimp only
  repeat' (first | with_reducible assumption | (intro _; try dsimp only) | with_reducible apply State.drawn_keeps
                 | with_reducible apply State.setEntry_keeps | with_reducible apply State.countN_keeps
                 | with_reducible apply State.writeOper_keeps | with_reducible apply State.toDraining_keeps
                 | with_reducible apply keeps_foldl | with_reducible apply keeps_foldl_pair | with_reducible apply keeps_foldl_triple
                 | (simp only [keeps_mk]; with_reducible refine Keeps.fold ?_) | with_reducible apply keeps_ite
                 | (split <;> try dsimp only) | with_reducible refine keeps_of_pair (by assumption) ?_
                 | with_reducible refine keeps_of_triple (by assumption) ?_ | with_reducible refine keeps_of_some (by assumption) ?_
                 | with_reducible refine keeps_of_some2 (by assumption) ?_)

theorem State.chunkDone_keeps {s0 : State} {s : State} {k : Nat} {op : Nat} (h0 : Keeps s0 s) :
    Keeps s0 (State.chunkDone s k op) := by
  unfold State.chunkDone
  try dsimp only
  repeat' (first | with_reducible assumption | (intro _; try dsimp only) | with_reducible apply State.setEntry_keeps
                 | with_reducible apply State.goOn_keeps | with_reducible apply State.operatorDone_keeps
                 | (simp only [keeps_mk]; with_reducible refine Keeps.fold ?_) | with_reducible apply keeps_ite
                 | (split <;> try dsimp only) | with_reducible refine keeps_of_pair (by assumption) ?_
                 | with_reducible refine keeps_of_triple (by assumption) ?_ | with_reducible refine keeps_of_some (by assumption) ?_
                 | with_reducible refine keeps_of_some2 (by assumption) ?_)

theorem State.transitFail_keeps {s0 : State} {s : State} {q : Qp} {d : Bytes} (h0 : Keeps s0 s) :
    Keeps s0 (State.transitFail s q d).2 := by
  unfold State.transitFail
  try dsimp only
  repeat' (first | with_reducible assumption | (intro _; try dsimp only) | with_reducible apply State.localCheck_keeps
                 | with_reducible apply keepsOpt_map | with_reducible apply keepsOpt2_mapPair | with_reducible apply keepsOpt2_map
                 | with_reducible exact keepsOpt_none | with_reducible exact keepsOpt2_none | with_reducible apply keepsOpt_some
                 | with_reducible apply keepsOpt2_some | with_reducible apply keeps_foldl | with_reducible apply keeps_foldl_pair
                 | with_reducible apply keeps_foldl_triple | with_reducible apply keepsOpt_foldl | with_reducible apply keeps_getD
                 | (simp only [keeps_mk]; with_reducible refine Keeps.fold ?_) | with_reducible apply keeps_ite
                 | (split <;> try dsimp only) | with_reducible refine keeps_of_pair (by assumption) ?_
                 | with_reducible refine keeps_of_triple (by assumption) ?_ | with_reducible refine keeps_of_some (by assumption) ?_
                 | with_reducible refine keeps_of_some2 (by assumption) ?_)

theorem State.operandsUsed_keeps {s0 : State} {s : State} {opers : List TOper} (h0 : Keeps s0 s) :
    Keeps s0 (State.operandsUsed s opers) := by
  unfold State.operandsUsed
  try dsimp only
  repeat' (first | with_reducible assumption | (intro _; try dsimp only) | with_reducible apply State.cacheUsed_keeps
                 | with_reducible apply keeps_foldl | with_reducible apply keeps_foldl_pair
                 | with_reducible apply keeps_foldl_triple | with_reducible apply keepsOpt_foldl
                 | (simp only [keeps_mk]; with_reducible refine Keeps.fold ?_) | with_reducible apply keeps_ite
                 | (split <;> try dsimp only) | with_reducible refine keeps_of_pair (by assumption) ?_
                 | with_reducible refine keeps_of_triple (by assumption) ?_ | with_reducible refine keeps_of_some (by assumption) ?_
                 | with_reducible refine keeps_of_some2 (by assumption) ?_)

theorem State.operandHeat_keeps {s0 : State} {s : State} {program : Nat} {exec_ : Nat} {image : Bytes} {opers : List TOper} (h0 : Keeps s0 s) :
    Keeps s0 (State.operandHeat s program exec_ image opers) := by
  unfold State.operandHeat
  try dsimp only
  repeat' (first | with_reducible assumption | (intro _; try dsimp only) | with_reducible apply State.heatUnits_keeps
                 | with_reducible exact keepsOpt_none | with_reducible exact keepsOpt2_none | with_reducible apply keepsOpt_some
                 | with_reducible apply keepsOpt2_some | with_reducible apply keeps_foldl | with_reducible apply keeps_foldl_pair
                 | with_reducible apply keeps_foldl_triple | with_reducible apply keepsOpt_foldl | with_reducible apply keeps_getD
                 | (simp only [keeps_mk]; with_reducible refine Keeps.fold ?_) | with_reducible apply keeps_ite
                 | (split <;> try dsimp only) | with_reducible refine keeps_of_pair (by assumption) ?_
                 | with_reducible refine keeps_of_triple (by assumption) ?_ | with_reducible refine keeps_of_some (by assumption) ?_
                 | with_reducible refine keeps_of_some2 (by assumption) ?_)

theorem State.launchHere_keeps {s0 : State} {s : State} {n : Nat} {id : Nat} {q : Qp} {d : Bytes} (h0 : Keeps s0 s) :
    Keeps s0 (State.launchHere s n id q d) := by
  unfold State.launchHere
  try dsimp only
  repeat' (first | with_reducible assumption | (intro _; try dsimp only) | with_reducible apply State.updOp_keeps
                 | with_reducible apply State.opFail_keeps | with_reducible apply State.startEntry_keeps
                 | with_reducible apply State.operandsUsed_keeps | with_reducible exact keepsOpt_none
                 | with_reducible exact keepsOpt2_none | with_reducible apply keepsOpt_some | with_reducible apply keepsOpt2_some
                 | (simp only [keeps_mk]; with_reducible refine Keeps.fold ?_) | with_reducible apply keeps_ite
                 | (split <;> try dsimp only) | with_reducible refine keeps_of_pair (by assumption) ?_
                 | with_reducible refine keeps_of_triple (by assumption) ?_ | with_reducible refine keeps_of_some (by assumption) ?_
                 | with_reducible refine keeps_of_some2 (by assumption) ?_ | with_reducible refine keeps_of_reply (by assumption) ?_
                 | with_reducible refine keeps_of_wait (by assumption) ?_)

theorem State.launchAt_keeps {s0 : State} {s : State} {n : Nat} {id : Nat} {w : Wq} {qn : Nat} {q : Qp} {pr : Program} {d : Bytes} {dst : Nat} (h0 : Keeps s0 s) :
    Keeps s0 (State.launchAt s n id w qn q pr d dst) := by
  unfold State.launchAt
  try dsimp only
  repeat' (first | with_reducible assumption | (intro _; try dsimp only) | with_reducible apply State.bucket_keeps
                 | with_reducible apply State.probe_keeps | with_reducible apply State.startTxn_keeps
                 | with_reducible apply State.allocWaits_keeps | with_reducible apply State.allocDone_keeps
                 | with_reducible apply State.needCtx_keeps | with_reducible apply State.updOp_keeps
                 | with_reducible apply State.grant_keeps | with_reducible apply State.operandsUsed_keeps
                 | (simp only [keeps_mk]; with_reducible refine Keeps.fold ?_) | with_reducible apply keeps_ite
                 | (split <;> try dsimp only) | with_reducible refine keeps_of_pair (by assumption) ?_
                 | with_reducible refine keeps_of_triple (by assumption) ?_ | with_reducible refine keeps_of_some (by assumption) ?_
                 | with_reducible refine keeps_of_some2 (by assumption) ?_)

theorem State.transit_keeps {s0 : State} {s : State} {n id : Nat} (h0 : Keeps s0 s) :
    Keeps s0 (State.transit s n id) := by
  unfold State.transit
  try dsimp only
  repeat' (first | with_reducible assumption | (intro _; try dsimp only) | with_reducible apply State.runOp_keeps
                 | with_reducible apply State.transitFail_keeps | with_reducible apply State.opFail_keeps
                 | with_reducible apply State.launchHere_keeps | with_reducible apply State.launchAt_keeps
                 | (simp only [keeps_mk]; with_reducible refine Keeps.fold ?_) | with_reducible apply keeps_ite
                 | (split <;> try dsimp only) | with_reducible refine keeps_of_pair (by assumption) ?_
                 | with_reducible refine keeps_of_triple (by assumption) ?_ | with_reducible refine keeps_of_some (by assumption) ?_
                 | with_reducible refine keeps_of_some2 (by assumption) ?_)

theorem State.launchEnded_keeps {s0 : State} {s : State} {n id dst status reason : Nat} {remote : Bool} (h0 : Keeps s0 s) :
    Keeps s0 (State.launchEnded s n id dst status reason remote) := by
  unfold State.launchEnded
  try dsimp only
  repeat' (first | with_reducible assumption | (intro _; try dsimp only) | with_reducible apply State.placement_keeps
                 | with_reducible apply State.updOp_keeps | with_reducible apply State.launchHere_keeps
                 | with_reducible apply State.opDone_keeps | with_reducible apply keepsOpt_bind
                 | (simp only [keeps_mk]; with_reducible refine Keeps.fold ?_) | with_reducible apply keeps_ite
                 | (split <;> try dsimp only) | with_reducible refine keeps_of_pair (by assumption) ?_
                 | with_reducible refine keeps_of_triple (by assumption) ?_ | with_reducible refine keeps_of_some (by assumption) ?_
                 | with_reducible refine keeps_of_some2 (by assumption) ?_)

theorem State.launchIn_keeps {s0 : State} {s : State} {p : Pkt} (h0 : Keeps s0 s) :
    Keeps s0 (State.launchIn s p) := by
  unfold State.launchIn
  try dsimp only
  repeat' (first | with_reducible assumption | (intro _; try dsimp only) | with_reducible apply State.startEntry_keeps
                 | (simp only [keeps_mk]; with_reducible refine Keeps.fold ?_) | with_reducible apply keeps_ite
                 | (split <;> try dsimp only) | with_reducible refine keeps_of_pair (by assumption) ?_
                 | with_reducible refine keeps_of_triple (by assumption) ?_ | with_reducible refine keeps_of_some (by assumption) ?_
                 | with_reducible refine keeps_of_some2 (by assumption) ?_)

theorem State.cancelIn_keeps {s0 : State} {s : State} {p : Pkt} (h0 : Keeps s0 s) :
    Keeps s0 (State.cancelIn s p) := by
  unfold State.cancelIn
  try dsimp only
  repeat' (first | with_reducible assumption | (intro _; try dsimp only) | with_reducible apply State.cancelEntry_keeps
                 | (simp only [keeps_mk]; with_reducible refine Keeps.fold ?_) | with_reducible apply keeps_ite
                 | (split <;> try dsimp only) | with_reducible refine keeps_of_pair (by assumption) ?_
                 | with_reducible refine keeps_of_triple (by assumption) ?_ | with_reducible refine keeps_of_some (by assumption) ?_
                 | with_reducible refine keeps_of_some2 (by assumption) ?_)

theorem State.doneIn_keeps {s0 : State} {s : State} {p : Pkt} (h0 : Keeps s0 s) :
    Keeps s0 (State.doneIn s p) := by
  unfold State.doneIn
  try dsimp only
  repeat' (first | with_reducible assumption | (intro _; try dsimp only) | with_reducible apply State.freeTxn_keeps
                 | with_reducible apply State.opDone_keeps | with_reducible apply State.operandHeat_keeps
                 | with_reducible exact keepsOpt_none | with_reducible exact keepsOpt2_none | with_reducible apply keepsOpt_some
                 | with_reducible apply keepsOpt2_some | with_reducible apply keepsOpt_bind | with_reducible apply keepsOpt_map
                 | with_reducible apply keepsOpt2_mapPair | with_reducible apply keepsOpt2_map
                 | (simp only [keeps_mk]; with_reducible refine Keeps.fold ?_) | with_reducible apply keeps_ite
                 | (split <;> try dsimp only) | with_reducible refine keeps_of_pair (by assumption) ?_
                 | with_reducible refine keeps_of_triple (by assumption) ?_ | with_reducible refine keeps_of_some (by assumption) ?_
                 | with_reducible refine keeps_of_some2 (by assumption) ?_)

theorem State.sendCancel_keeps {s0 : State} {s : State} {k : Nat} {t : Txn} {status detail : Nat} (h0 : Keeps s0 s) :
    Keeps s0 (State.sendCancel s k t status detail) := by
  unfold State.sendCancel
  try dsimp only
  repeat' (first | with_reducible assumption | with_reducible apply State.ask_keeps | with_reducible apply State.control_keeps
                 | with_reducible apply keepsOpt_map | with_reducible apply keepsOpt2_mapPair | with_reducible apply keepsOpt2_map
                 | with_reducible apply keeps_getD | (simp only [keeps_mk]; with_reducible refine Keeps.fold ?_))

theorem State.cancelLaunches_keeps {s0 : State} {s : State} {p : Nat → Nat → Bool} {status : Nat} {detail : Nat} (h0 : Keeps s0 s) :
    Keeps s0 (State.cancelLaunches s p status detail) := by
  unfold State.cancelLaunches
  try dsimp only
  repeat' (first | with_reducible assumption | (intro _; try dsimp only) | with_reducible apply State.freeTxn_keeps
                 | with_reducible apply State.cancelEntry_keeps | with_reducible apply State.sendCancel_keeps
                 | with_reducible apply keeps_foldl | with_reducible apply keeps_foldl_pair
                 | with_reducible apply keeps_foldl_triple | with_reducible apply keepsOpt_foldl
                 | (simp only [keeps_mk]; with_reducible refine Keeps.fold ?_) | with_reducible apply keeps_ite
                 | (split <;> try dsimp only) | with_reducible refine keeps_of_pair (by assumption) ?_
                 | with_reducible refine keeps_of_triple (by assumption) ?_ | with_reducible refine keeps_of_some (by assumption) ?_
                 | with_reducible refine keeps_of_some2 (by assumption) ?_)

theorem State.pruneLaunches_keeps {s0 : State} {s : State} (h0 : Keeps s0 s) :
    Keeps s0 (State.pruneLaunches s) := by
  unfold State.pruneLaunches
  try dsimp only
  repeat' (first | with_reducible assumption | (intro _; try dsimp only) | with_reducible apply State.cancelLaunches_keeps
                 | (simp only [keeps_mk]; with_reducible refine Keeps.fold ?_) | with_reducible apply keeps_ite)

theorem State.cancelOperands_keeps {s0 : State} {s : State} {p : TOper → Nat → Bool} (h0 : Keeps s0 s) :
    Keeps s0 (State.cancelOperands s p) := by
  unfold State.cancelOperands
  try dsimp only
  repeat' (first | with_reducible assumption | (intro _; try dsimp only) | with_reducible apply State.cancelEntry_keeps
                 | with_reducible apply State.sendCancel_keeps | with_reducible apply keepsOpt_map
                 | with_reducible apply keepsOpt2_mapPair | with_reducible apply keepsOpt2_map | with_reducible apply keeps_foldl
                 | with_reducible apply keeps_foldl_pair | with_reducible apply keeps_foldl_triple | with_reducible apply keepsOpt_foldl
                 | with_reducible apply keeps_getD | (simp only [keeps_mk]; with_reducible refine Keeps.fold ?_)
                 | with_reducible apply keeps_ite | (split <;> try dsimp only) | with_reducible refine keeps_of_pair (by assumption) ?_
                 | with_reducible refine keeps_of_triple (by assumption) ?_ | with_reducible refine keeps_of_some (by assumption) ?_
                 | with_reducible refine keeps_of_some2 (by assumption) ?_)

theorem State.cancelPartition_keeps {s0 : State} {s : State} {partition : Nat} (h0 : Keeps s0 s) :
    Keeps s0 (State.cancelPartition s partition) := by
  unfold State.cancelPartition
  try dsimp only
  repeat' (first | with_reducible assumption | (intro _; try dsimp only) | with_reducible apply State.cancelEntry_keeps
                 | with_reducible apply keeps_foldl | with_reducible apply keeps_foldl_pair | with_reducible apply keeps_foldl_triple
                 | with_reducible apply keeps_ite | (split <;> try dsimp only))

end Sys2Proof.Machine
end

