-- ==== Sys2Proof/Laws/KeepVerdict.lean ====
section
/-!
SUPPORT. What the operations of Machine/Verdict.lean keep.
-/

namespace Sys2Proof.Machine

set_option linter.unusedTactic false
set_option linter.unreachableTactic false
set_option linter.unusedVariables false

theorem State.unknownGroup_keeps {s0 : State} {s : State} (h0 : Keeps s0 s) :
    KeepsVerd s0 (State.unknownGroup s) := by
  unfold State.unknownGroup
  repeat' (first | with_reducible assumption | with_reducible apply State.setFlag_keeps | with_reducible exact keepsVerd_accept
                 | with_reducible exact keepsVerd_busy | with_reducible apply keepsVerd_refuse)

theorem State.moveVerdict_keeps {s0 : State} {s : State} {p : Pkt} (h0 : Keeps s0 s) :
    KeepsVerd s0 (State.moveVerdict s p) := by
  unfold State.moveVerdict
  try dsimp only
  repeat' (first | with_reducible assumption | with_reducible exact keepsVerd_accept | with_reducible exact keepsVerd_busy
                 | with_reducible apply keepsVerd_refuse | with_reducible apply keeps_ite | (split <;> try dsimp only))

theorem State.noteVerdict_keeps {s0 : State} {s : State} {p : Pkt} (h0 : Keeps s0 s) :
    KeepsVerd s0 (State.noteVerdict s p) := by
  unfold State.noteVerdict
  try dsimp only
  repeat' (first | with_reducible assumption | with_reducible exact keepsVerd_accept | with_reducible exact keepsVerd_busy
                 | with_reducible apply keepsVerd_refuse | (simp only [keeps_mk]; with_reducible refine Keeps.fold ?_)
                 | with_reducible apply keeps_ite | (split <;> try dsimp only) | with_reducible refine keeps_of_pair (by assumption) ?_
                 | with_reducible refine keeps_of_triple (by assumption) ?_ | with_reducible refine keeps_of_some (by assumption) ?_
                 | with_reducible refine keeps_of_some2 (by assumption) ?_)

theorem State.verdict_keeps {s0 : State} {s : State} {p : Pkt} (h0 : Keeps s0 s) :
    KeepsVerd s0 (State.verdict s p) := by
  unfold State.verdict
  try dsimp only
  repeat' (first | with_reducible assumption | (intro _; try dsimp only) | with_reducible apply State.unknownGroup_keeps
                 | with_reducible apply State.moveVerdict_keeps | with_reducible apply State.noteVerdict_keeps
                 | with_reducible exact keepsVerd_accept | with_reducible exact keepsVerd_busy | with_reducible apply keepsVerd_refuse
                 | (simp only [keeps_mk]; with_reducible refine Keeps.fold ?_) | with_reducible apply keeps_ite
                 | (split <;> try dsimp only) | with_reducible refine keeps_of_pair (by assumption) ?_
                 | with_reducible refine keeps_of_triple (by assumption) ?_ | with_reducible refine keeps_of_some (by assumption) ?_
                 | with_reducible refine keeps_of_some2 (by assumption) ?_)

end Sys2Proof.Machine
end

