-- ==== Sys2Proof/Laws/KeepRespond.lean ====
section
/-!
SUPPORT. What the operations of Machine/Respond.lean keep.
-/

namespace Sys2Proof.Machine

set_option linter.unusedTactic false
set_option linter.unreachableTactic false
set_option linter.unusedVariables false

theorem State.setStream_keeps {s0 : State} {s : State} {i : StreamId} {r : RStream} (h0 : Keeps s0 s) :
    Keeps s0 (State.setStream s i r) := by
  unfold State.setStream
  try dsimp only
  repeat' (first | with_reducible assumption | (intro _; try dsimp only) | (simp only [keeps_mk]; with_reducible refine Keeps.fold ?_)
                 | with_reducible apply keeps_ite | (split <;> try dsimp only) | with_reducible refine keeps_of_pair (by assumption) ?_
                 | with_reducible refine keeps_of_triple (by assumption) ?_ | with_reducible refine keeps_of_some (by assumption) ?_
                 | with_reducible refine keeps_of_some2 (by assumption) ?_)

theorem State.ackWith_keeps {s0 : State} {s : State} {p : Pkt} {r : RStream} {psn status reason txn : Nat} {marked : Bool} (h0 : Keeps s0 s) :
    Keeps s0 (State.ackWith s p r psn status reason txn marked) := by
  unfold State.ackWith
  try dsimp only
  repeat' (first | with_reducible assumption | (intro _; try dsimp only) | with_reducible apply State.inject_keeps
                 | (simp only [keeps_mk]; with_reducible refine Keeps.fold ?_) | with_reducible apply keeps_ite
                 | (split <;> try dsimp only) | with_reducible refine keeps_of_pair (by assumption) ?_
                 | with_reducible refine keeps_of_triple (by assumption) ?_ | with_reducible refine keeps_of_some (by assumption) ?_
                 | with_reducible refine keeps_of_some2 (by assumption) ?_)

theorem State.sendAck_keeps {s0 : State} {s : State} {i : StreamId} (h0 : Keeps s0 s) :
    Keeps s0 (State.sendAck s i) := by
  unfold State.sendAck
  try dsimp only
  repeat' (first | with_reducible assumption | (intro _; try dsimp only) | with_reducible apply State.setStream_keeps
                 | with_reducible apply State.ackWith_keeps | with_reducible apply keepsOpt_map | with_reducible apply keepsOpt2_mapPair
                 | with_reducible apply keepsOpt2_map | with_reducible apply keeps_getD
                 | (simp only [keeps_mk]; with_reducible refine Keeps.fold ?_) | with_reducible apply keeps_ite
                 | (split <;> try dsimp only) | with_reducible refine keeps_of_pair (by assumption) ?_
                 | with_reducible refine keeps_of_triple (by assumption) ?_ | with_reducible refine keeps_of_some (by assumption) ?_
                 | with_reducible refine keeps_of_some2 (by assumption) ?_)

theorem State.keepAnswer_keeps {s0 : State} {s : State} {base : Pkt} {data : Bytes} (h0 : Keeps s0 s) :
    Keeps s0 (State.keepAnswer s base data) := by
  unfold State.keepAnswer
  try dsimp only
  repeat' (first | with_reducible assumption | (intro _; try dsimp only)
                 | (simp only [keeps_mk]; with_reducible refine Keeps.fold ?_) | with_reducible apply keeps_ite)

theorem State.sendBase_keeps {s0 : State} {s : State} {base : Pkt} {data : Bytes} (h0 : Keeps s0 s) :
    Keeps s0 (State.sendBase s base data) := by
  unfold State.sendBase
  try dsimp only
  repeat' (first | with_reducible assumption | (intro _; try dsimp only) | with_reducible apply State.inject_keeps
                 | with_reducible apply State.bindEngine_keeps | with_reducible apply State.sealNumber_keeps
                 | with_reducible apply State.sendSealed_keeps | with_reducible apply State.keepAnswer_keeps
                 | with_reducible exact keepsOpt_none | with_reducible exact keepsOpt2_none | with_reducible apply keepsOpt_some
                 | with_reducible apply keepsOpt2_some | with_reducible apply keepsOpt_bind | with_reducible apply keepsOpt_map
                 | with_reducible apply keepsOpt2_mapPair | with_reducible apply keepsOpt2_map | with_reducible apply keeps_foldl
                 | with_reducible apply keeps_foldl_pair | with_reducible apply keeps_foldl_triple
                 | with_reducible apply keepsOpt_foldl | (simp only [keeps_mk]; with_reducible refine Keeps.fold ?_)
                 | with_reducible apply keeps_ite | (split <;> try dsimp only)
                 | with_reducible refine keeps_of_pair (by assumption) ?_ | with_reducible refine keeps_of_triple (by assumption) ?_
                 | with_reducible refine keeps_of_some (by assumption) ?_ | with_reducible refine keeps_of_some2 (by assumption) ?_)

theorem State.sendResp_keeps {s0 : State} {s : State} {p : Pkt} {typ : Nat} {status : Nat} {reason : Nat} {data : Bytes} (h0 : Keeps s0 s) :
    Keeps s0 (State.sendResp s p typ status reason data) := by
  unfold State.sendResp
  try dsimp only
  repeat' (first | with_reducible assumption | (intro _; try dsimp only) | with_reducible apply State.sendBase_keeps
                 | with_reducible apply keepsOpt_map | with_reducible apply keepsOpt2_mapPair | with_reducible apply keepsOpt2_map
                 | with_reducible apply keeps_getD | (simp only [keeps_mk]; with_reducible refine Keeps.fold ?_)
                 | with_reducible apply keeps_ite)

theorem State.sendData_keeps {s0 : State} {s : State} {p : Pkt} {typ : Nat} {data : Bytes} (h0 : Keeps s0 s) :
    Keeps s0 (State.sendData s p typ data) := by
  unfold State.sendData
  try dsimp only
  repeat' (first | with_reducible assumption | (intro _; try dsimp only) | with_reducible apply State.sendResp_keeps
                 | (simp only [keeps_mk]; with_reducible refine Keeps.fold ?_) | with_reducible apply keeps_ite)

theorem State.sendWaiting_keeps {s0 : State} {s : State} (h0 : Keeps s0 s) :
    Keeps s0 (State.sendWaiting s) := by
  unfold State.sendWaiting
  try dsimp only
  repeat' (first | with_reducible assumption | (intro _; try dsimp only) | with_reducible apply State.sendBase_keeps
                 | with_reducible apply keeps_foldl | with_reducible apply keeps_foldl_pair
                 | with_reducible apply keeps_foldl_triple | with_reducible apply keepsOpt_foldl
                 | (simp only [keeps_mk]; with_reducible refine Keeps.fold ?_) | with_reducible apply keeps_ite)

theorem State.forwardPkt_keeps {s0 : State} {s : State} {p : Pkt} {dst : Nat} (h0 : Keeps s0 s) :
    Keeps s0 (State.forwardPkt s p dst) := by
  unfold State.forwardPkt
  try dsimp only
  repeat' (first | with_reducible assumption | (intro _; try dsimp only) | with_reducible apply State.count_keeps
                 | with_reducible apply State.inject_keeps | with_reducible apply State.probe_keeps
                 | with_reducible exact keepsOpt_none | with_reducible exact keepsOpt2_none | with_reducible apply keepsOpt_some
                 | with_reducible apply keepsOpt2_some | (simp only [keeps_mk]; with_reducible refine Keeps.fold ?_)
                 | with_reducible apply keeps_ite | (split <;> try dsimp only)
                 | with_reducible refine keeps_of_pair (by assumption) ?_ | with_reducible refine keeps_of_some (by assumption) ?_
                 | with_reducible refine keeps_of_some2 (by assumption) ?_)

theorem State.passOn_keeps {s0 : State} {s : State} {p : Pkt} {dst : Nat} (h0 : Keeps s0 s) :
    Keeps s0 (State.passOn s p dst).2 := by
  unfold State.passOn
  try dsimp only
  repeat' (first | with_reducible assumption | (intro _; try dsimp only) | with_reducible apply State.hintOnce_keeps
                 | with_reducible apply State.forwardPkt_keeps | with_reducible exact keepsOpt_none
                 | with_reducible exact keepsOpt2_none | with_reducible apply keepsOpt_some | with_reducible apply keepsOpt2_some
                 | (simp only [keeps_mk]; with_reducible refine Keeps.fold ?_) | with_reducible apply keeps_ite
                 | (split <;> try dsimp only) | with_reducible refine keeps_of_pair (by assumption) ?_
                 | with_reducible refine keeps_of_triple (by assumption) ?_ | with_reducible refine keeps_of_some (by assumption) ?_
                 | with_reducible refine keeps_of_some2 (by assumption) ?_)

theorem State.performPage_keeps {s0 : State} {s : State} {p : Pkt} {key : Nat} {h : Held} {byte : Nat} (h0 : Keeps s0 s) :
    Keeps s0 (State.performPage s p key h byte).2 := by
  unfold State.performPage
  try dsimp only
  repeat' (first | with_reducible assumption | (intro _; try dsimp only) | with_reducible apply State.pageRead_keeps
                 | with_reducible apply State.pageWrite_keeps | with_reducible apply State.pageAtomic_keeps
                 | with_reducible apply State.heat_keeps | with_reducible apply State.afterWrite_keeps
                 | (simp only [keeps_mk]; with_reducible refine Keeps.fold ?_) | with_reducible apply keeps_ite
                 | (split <;> try dsimp only) | with_reducible refine keeps_of_pair (by assumption) ?_
                 | with_reducible refine keeps_of_triple (by assumption) ?_ | with_reducible refine keeps_of_some (by assumption) ?_
                 | with_reducible refine keeps_of_some2 (by assumption) ?_ | with_reducible refine keeps_of_reply (by assumption) ?_
                 | with_reducible refine keeps_of_wait (by assumption) ?_)

theorem State.performSky_keeps {s0 : State} {s : State} {p : Pkt} {arr : Nat} {inst : Nat} {addr : Nat} (h0 : Keeps s0 s) :
    Keeps s0 (State.performSky s p arr inst addr).2 := by
  unfold State.performSky
  try dsimp only
  repeat' (first | with_reducible assumption | (intro _; try dsimp only) | with_reducible apply State.physAtomic_keeps
                 | with_reducible apply State.request_keeps | with_reducible apply State.hostRead_keeps
                 | with_reducible apply State.lookupNow_keeps | with_reducible apply State.logDirty_keeps
                 | with_reducible apply State.ivaWrite_keeps | with_reducible apply State.readIva_keeps
                 | with_reducible apply AdmRes.fail_keeps | with_reducible apply AdmRes.ok_keeps
                 | with_reducible exact keepsOpt_none | with_reducible exact keepsOpt2_none | with_reducible apply keepsOpt_some
                 | with_reducible apply keepsOpt2_some | (simp only [keeps_mk]; with_reducible refine Keeps.fold ?_)
                 | with_reducible apply keeps_ite | (split <;> try dsimp only)
                 | with_reducible refine keeps_of_pair (by assumption) ?_ | with_reducible refine keeps_of_triple (by assumption) ?_
                 | with_reducible refine keeps_of_some (by assumption) ?_ | with_reducible refine keeps_of_some2 (by assumption) ?_
                 | with_reducible refine keeps_of_reply (by assumption) ?_ | with_reducible refine keeps_of_wait (by assumption) ?_)

theorem State.performPlace_keeps {s0 : State} {s : State} {p : Pkt} {arr : Nat} {x : Place} (h0 : Keeps s0 s) :
    Keeps s0 (State.performPlace s p arr x).2 := by
  unfold State.performPlace
  try dsimp only
  repeat' (first | with_reducible assumption | (intro _; try dsimp only) | with_reducible apply State.passOn_keeps
                 | with_reducible apply State.performPage_keeps | with_reducible apply State.performSky_keeps
                 | (simp only [keeps_mk]; with_reducible refine Keeps.fold ?_) | with_reducible apply keeps_ite
                 | (split <;> try dsimp only) | with_reducible refine keeps_of_pair (by assumption) ?_
                 | with_reducible refine keeps_of_triple (by assumption) ?_ | with_reducible refine keeps_of_some (by assumption) ?_
                 | with_reducible refine keeps_of_some2 (by assumption) ?_ | with_reducible refine keeps_of_reply (by assumption) ?_
                 | with_reducible refine keeps_of_wait (by assumption) ?_)

theorem State.checkReq_keeps {s0 : State} {s : State} {p : Pkt} (h0 : Keeps s0 s) :
    Keeps s0 (State.checkReq s p).2 := by
  unfold State.checkReq
  try dsimp only
  repeat' (first | with_reducible assumption | (intro _; try dsimp only) | with_reducible apply State.checkPkt_keeps
                 | with_reducible exact keepsOpt_none | with_reducible exact keepsOpt2_none | with_reducible apply keepsOpt_some
                 | with_reducible apply keepsOpt2_some | (simp only [keeps_mk]; with_reducible refine Keeps.fold ?_)
                 | with_reducible apply keeps_ite | (split <;> try dsimp only)
                 | with_reducible refine keeps_of_pair (by assumption) ?_ | with_reducible refine keeps_of_triple (by assumption) ?_
                 | with_reducible refine keeps_of_some (by assumption) ?_ | with_reducible refine keeps_of_some2 (by assumption) ?_)

theorem State.judgeReq_keeps {s0 : State} {s : State} {p : Pkt} (h0 : Keeps s0 s) :
    Keeps s0 (State.judgeReq s p).2 := by
  unfold State.judgeReq
  try dsimp only
  repeat' (first | with_reducible assumption | (intro _; try dsimp only) | with_reducible apply State.checkReq_keeps
                 | with_reducible exact keepsOpt_none | with_reducible exact keepsOpt2_none | with_reducible apply keepsOpt_some
                 | with_reducible apply keepsOpt2_some | (simp only [keeps_mk]; with_reducible refine Keeps.fold ?_)
                 | with_reducible apply keeps_ite | (split <;> try dsimp only)
                 | with_reducible refine keeps_of_pair (by assumption) ?_ | with_reducible refine keeps_of_triple (by assumption) ?_
                 | with_reducible refine keeps_of_some (by assumption) ?_ | with_reducible refine keeps_of_some2 (by assumption) ?_)

theorem State.follow_keeps {s0 : State} {s : State} {p : Pkt} {arr : Nat} {d : Decision} (h0 : Keeps s0 s) :
    Keeps s0 (State.follow s p arr d).2 := by
  unfold State.follow
  try dsimp only
  repeat' (first | with_reducible assumption | (intro _; try dsimp only) | with_reducible apply State.passOn_keeps
                 | with_reducible apply State.performPlace_keeps | (simp only [keeps_mk]; with_reducible refine Keeps.fold ?_)
                 | with_reducible apply keeps_ite | (split <;> try dsimp only)
                 | with_reducible refine keeps_of_pair (by assumption) ?_ | with_reducible refine keeps_of_triple (by assumption) ?_
                 | with_reducible refine keeps_of_some (by assumption) ?_ | with_reducible refine keeps_of_some2 (by assumption) ?_)

theorem State.holdSelf_keeps {s0 : State} {s : State} {p : Pkt} {status : Nat} (h0 : Keeps s0 s) :
    Keeps s0 (State.holdSelf s p status) := by
  unfold State.holdSelf
  try dsimp only
  repeat' (first | with_reducible assumption | (intro _; try dsimp only) | with_reducible apply State.holdEcc_keeps
                 | with_reducible apply keepsOpt_bind | with_reducible apply keepsOpt_map | with_reducible apply keepsOpt2_mapPair
                 | with_reducible apply keepsOpt2_map | (simp only [keeps_mk]; with_reducible refine Keeps.fold ?_)
                 | with_reducible apply keeps_ite | (split <;> try dsimp only)
                 | with_reducible refine keeps_of_pair (by assumption) ?_ | with_reducible refine keeps_of_triple (by assumption) ?_
                 | with_reducible refine keeps_of_some (by assumption) ?_ | with_reducible refine keeps_of_some2 (by assumption) ?_)

theorem State.performAccess_keeps {s0 : State} {s : State} {p : Pkt} {arr : Nat} {decided : Option Decision} (h0 : Keeps s0 s) :
    Keeps s0 (State.performAccess s p arr decided).2.2 := by
  unfold State.performAccess
  try dsimp only
  repeat' (first | with_reducible assumption | (intro _; try dsimp only) | with_reducible apply State.judgeReq_keeps
                 | with_reducible apply State.follow_keeps | with_reducible apply State.holdSelf_keeps
                 | with_reducible exact keepsOpt_none | with_reducible exact keepsOpt2_none | with_reducible apply keepsOpt_some
                 | with_reducible apply keepsOpt2_some | (simp only [keeps_mk]; with_reducible refine Keeps.fold ?_)
                 | with_reducible apply keeps_ite | (split <;> try dsimp only)
                 | with_reducible refine keeps_of_pair (by assumption) ?_ | with_reducible refine keeps_of_triple (by assumption) ?_
                 | with_reducible refine keeps_of_some (by assumption) ?_ | with_reducible refine keeps_of_some2 (by assumption) ?_
                 | with_reducible refine keeps_of_reply (by assumption) ?_ | with_reducible refine keeps_of_wait (by assumption) ?_)

theorem State.performToken_keeps {s0 : State} {s : State} {p : Pkt} (h0 : Keeps s0 s) :
    Keeps s0 (State.performToken s p).2 := by
  unfold State.performToken
  try dsimp only
  repeat' (first | with_reducible assumption | with_reducible apply State.produce_keeps
                 | (simp only [keeps_mk]; with_reducible refine Keeps.fold ?_) | with_reducible apply keeps_ite
                 | (split <;> try dsimp only) | with_reducible refine keeps_of_pair (by assumption) ?_
                 | with_reducible refine keeps_of_triple (by assumption) ?_ | with_reducible refine keeps_of_some (by assumption) ?_
                 | with_reducible refine keeps_of_some2 (by assumption) ?_)

theorem State.answerReq_keeps {s0 : State} {s : State} {i : StreamId} {p : Pkt} {d : Option Decision} {status : Nat} {reason : Nat} {data : Bytes} (h0 : Keeps s0 s) :
    Keeps s0 (State.answerReq s i p d status reason data) := by
  unfold State.answerReq
  try dsimp only
  repeat' (first | with_reducible assumption | (intro _; try dsimp only) | with_reducible apply State.setStream_keeps
                 | with_reducible apply State.sendAck_keeps | with_reducible apply State.sendData_keeps
                 | with_reducible exact keepsOpt_none | with_reducible exact keepsOpt2_none | with_reducible apply keepsOpt_some
                 | with_reducible apply keepsOpt2_some | with_reducible apply keepsOpt_bind | with_reducible apply keepsOpt_map
                 | with_reducible apply keepsOpt2_mapPair | with_reducible apply keepsOpt2_map
                 | (simp only [keeps_mk]; with_reducible refine Keeps.fold ?_) | with_reducible apply keeps_ite
                 | (split <;> try dsimp only) | with_reducible refine keeps_of_pair (by assumption) ?_
                 | with_reducible refine keeps_of_some (by assumption) ?_ | with_reducible refine keeps_of_some2 (by assumption) ?_)

theorem State.consumeReq_keeps {s0 : State} {s : State} {i : StreamId} {p : Pkt} {dst : Nat} {d : Option Decision} (h0 : Keeps s0 s) :
    Keeps s0 (State.consumeReq s i p dst d) := by
  unfold State.consumeReq
  try dsimp only
  repeat' (first | with_reducible assumption | (intro _; try dsimp only) | with_reducible apply State.setStream_keeps
                 | with_reducible exact keepsOpt_none | with_reducible exact keepsOpt2_none | with_reducible apply keepsOpt_some
                 | with_reducible apply keepsOpt2_some | with_reducible apply keepsOpt_bind | with_reducible apply keepsOpt_map
                 | with_reducible apply keepsOpt2_mapPair | with_reducible apply keepsOpt2_map
                 | (simp only [keeps_mk]; with_reducible refine Keeps.fold ?_) | with_reducible apply keeps_ite
                 | (split <;> try dsimp only) | with_reducible refine keeps_of_pair (by assumption) ?_
                 | with_reducible refine keeps_of_some (by assumption) ?_ | with_reducible refine keeps_of_some2 (by assumption) ?_)

theorem State.keepArrival_keeps {s0 : State} {s : State} {arr : Nat} {i : StreamId} {p : Pkt} {stage : ArrStage} {buf : RBuf} {d : Option Decision} {page : Option Nat} {again : Bool} (h0 : Keeps s0 s) :
    Keeps s0 (State.keepArrival s arr i p stage buf d page again) := by
  unfold State.keepArrival
  try dsimp only
  repeat' (first | with_reducible assumption | (intro _; try dsimp only) | with_reducible apply State.setStream_keeps
                 | with_reducible exact keepsOpt_none | with_reducible exact keepsOpt2_none | with_reducible apply keepsOpt_some
                 | with_reducible apply keepsOpt2_some | (simp only [keeps_mk]; with_reducible refine Keeps.fold ?_)
                 | with_reducible apply keeps_ite | (split <;> try dsimp only)
                 | with_reducible refine keeps_of_pair (by assumption) ?_ | with_reducible refine keeps_of_triple (by assumption) ?_
                 | with_reducible refine keeps_of_some (by assumption) ?_ | with_reducible refine keeps_of_some2 (by assumption) ?_)

theorem State.relay_keeps {s0 : State} {s : State} {arr : Nat} {p : Pkt} {dst : Nat} (h0 : Keeps s0 s) :
    Keeps s0 (State.relay s arr p dst) := by
  unfold State.relay
  try dsimp only
  repeat' (first | with_reducible assumption | (intro _; try dsimp only) | with_reducible apply State.ask_keeps
                 | with_reducible exact keepsOpt_none | with_reducible exact keepsOpt2_none | with_reducible apply keepsOpt_some
                 | with_reducible apply keepsOpt2_some | (simp only [keeps_mk]; with_reducible refine Keeps.fold ?_)
                 | with_reducible apply keeps_ite | (split <;> try dsimp only)
                 | with_reducible refine keeps_of_pair (by assumption) ?_ | with_reducible refine keeps_of_some (by assumption) ?_
                 | with_reducible refine keeps_of_some2 (by assumption) ?_)

theorem State.startWait_keeps {s0 : State} {s : State} {arr : Nat} {p : Pkt} {stage : ArrStage} {page : Option Nat} (h0 : Keeps s0 s) :
    Keeps s0 (State.startWait s arr p stage page) := by
  unfold State.startWait
  try dsimp only
  repeat' (first | with_reducible assumption | with_reducible apply State.setHeld_keeps | with_reducible apply State.sendNote_keeps
                 | with_reducible apply State.startTxn_keeps | with_reducible apply State.control_keeps
                 | with_reducible apply keepsOpt_map | with_reducible apply keepsOpt2_mapPair | with_reducible apply keepsOpt2_map
                 | with_reducible apply keeps_getD | (simp only [keeps_mk]; with_reducible refine Keeps.fold ?_)
                 | with_reducible apply keeps_ite | (split <;> try dsimp only) | with_reducible refine keeps_of_pair (by assumption) ?_
                 | with_reducible refine keeps_of_triple (by assumption) ?_ | with_reducible refine keeps_of_some (by assumption) ?_
                 | with_reducible refine keeps_of_some2 (by assumption) ?_)

theorem State.newArrival_keeps {s0 : State} {s : State} (h0 : Keeps s0 s) :
    Keeps s0 (State.newArrival s).2 := by
  unfold State.newArrival
  try dsimp only
  repeat' (first | with_reducible assumption | (simp only [keeps_mk]; with_reducible refine Keeps.fold ?_))

theorem State.noteToken_keeps {s0 : State} {s : State} {p : Pkt} (h0 : Keeps s0 s) :
    Keeps s0 (State.noteToken s p).2 := by
  unfold State.noteToken
  try dsimp only
  repeat' (first | with_reducible assumption | with_reducible apply State.produce_keeps | with_reducible exact keepsOpt_none
                 | with_reducible exact keepsOpt2_none | with_reducible apply keepsOpt_some | with_reducible apply keepsOpt2_some
                 | (simp only [keeps_mk]; with_reducible refine Keeps.fold ?_) | with_reducible apply keeps_ite
                 | (split <;> try dsimp only) | with_reducible refine keeps_of_pair (by assumption) ?_
                 | with_reducible refine keeps_of_triple (by assumption) ?_ | with_reducible refine keeps_of_some (by assumption) ?_
                 | with_reducible refine keeps_of_some2 (by assumption) ?_)

theorem State.perform_keeps {s0 : State} {s : State} {p : Pkt} {arr : Nat} {decided : Option Decision} (h0 : Keeps s0 s) :
    Keeps s0 (State.perform s p arr decided).2.2 := by
  unfold State.perform
  try dsimp only
  repeat' (first | with_reducible assumption | (intro _; try dsimp only) | with_reducible apply State.verdict_keeps
                 | with_reducible apply State.performAccess_keeps | with_reducible apply State.performToken_keeps
                 | with_reducible apply State.noteToken_keeps | with_reducible exact keepsVerd_accept
                 | with_reducible exact keepsVerd_busy | with_reducible apply keepsVerd_refuse | with_reducible apply keepsOpt_bind
                 | with_reducible apply keepsOpt_map | with_reducible apply keepsOpt2_mapPair | with_reducible apply keepsOpt2_map
                 | (simp only [keeps_mk]; with_reducible refine Keeps.fold ?_) | with_reducible apply keeps_ite
                 | (split <;> try dsimp only) | with_reducible refine keeps_of_pair (by assumption) ?_
                 | with_reducible refine keeps_of_triple (by assumption) ?_ | with_reducible refine keeps_of_some (by assumption) ?_
                 | with_reducible refine keeps_of_some2 (by assumption) ?_ | with_reducible refine keeps_of_reply (by assumption) ?_
                 | with_reducible refine keeps_of_wait (by assumption) ?_ | with_reducible refine keeps_of_refuse (by assumption) ?_)

theorem State.answerForwarded_keeps {s0 : State} {s : State} {p : Pkt} {status reason : Nat} {data : Bytes} (h0 : Keeps s0 s) :
    Keeps s0 (State.answerForwarded s p status reason data) := by
  unfold State.answerForwarded
  repeat' (first | with_reducible assumption | with_reducible apply State.sendData_keeps | with_reducible apply State.ackWith_keeps
                 | with_reducible apply keeps_ite | (split <;> try dsimp only))

theorem State.ackDup_keeps {s0 : State} {s : State} {i : StreamId} {p : Pkt} {status : Nat} {reason : Nat} {txn : Nat} (h0 : Keeps s0 s) :
    Keeps s0 (State.ackDup s i p status reason txn) := by
  unfold State.ackDup
  try dsimp only
  repeat' (first | with_reducible assumption | (intro _; try dsimp only) | with_reducible apply State.setStream_keeps
                 | with_reducible apply State.ackWith_keeps | (simp only [keeps_mk]; with_reducible refine Keeps.fold ?_)
                 | with_reducible apply keeps_ite | (split <;> try dsimp only)
                 | with_reducible refine keeps_of_pair (by assumption) ?_ | with_reducible refine keeps_of_some (by assumption) ?_
                 | with_reducible refine keeps_of_some2 (by assumption) ?_)

theorem State.answerAgain_keeps {s0 : State} {s : State} {p : Pkt} {status : Nat} {reason : Nat} {data : Bytes} (h0 : Keeps s0 s) :
    Keeps s0 (State.answerAgain s p status reason data) := by
  unfold State.answerAgain
  try dsimp only
  repeat' (first | with_reducible assumption | (intro _; try dsimp only) | with_reducible apply State.sendAck_keeps
                 | with_reducible apply State.sendData_keeps | with_reducible apply State.answerForwarded_keeps
                 | with_reducible apply State.ackDup_keeps | (simp only [keeps_mk]; with_reducible refine Keeps.fold ?_)
                 | with_reducible apply keeps_ite | (split <;> try dsimp only)
                 | with_reducible refine keeps_of_pair (by assumption) ?_ | with_reducible refine keeps_of_some (by assumption) ?_
                 | with_reducible refine keeps_of_some2 (by assumption) ?_)

theorem State.readAgain_keeps {s0 : State} {s : State} {p : Pkt} (h0 : Keeps s0 s) :
    Keeps s0 (State.readAgain s p) := by
  unfold State.readAgain
  try dsimp only
  repeat' (first | with_reducible assumption | (intro _; try dsimp only) | with_reducible apply State.performPlace_keeps
                 | with_reducible apply State.keepArrival_keeps | with_reducible apply State.relay_keeps
                 | with_reducible apply State.newArrival_keeps | with_reducible apply State.answerAgain_keeps
                 | (simp only [keeps_mk]; with_reducible refine Keeps.fold ?_) | with_reducible apply keeps_ite
                 | (split <;> try dsimp only) | with_reducible refine keeps_of_pair (by assumption) ?_
                 | with_reducible refine keeps_of_triple (by assumption) ?_ | with_reducible refine keeps_of_some (by assumption) ?_
                 | with_reducible refine keeps_of_some2 (by assumption) ?_ | with_reducible refine keeps_of_reply (by assumption) ?_
                 | with_reducible refine keeps_of_wait (by assumption) ?_)

theorem State.duplicate_keeps {s0 : State} {s : State} {i : StreamId} {p : Pkt} (h0 : Keeps s0 s) :
    Keeps s0 (State.duplicate s i p) := by
  unfold State.duplicate
  try dsimp only
  repeat' (first | with_reducible assumption | (intro _; try dsimp only) | with_reducible apply State.sendAck_keeps
                 | with_reducible apply State.sendResp_keeps | with_reducible apply State.forwardPkt_keeps
                 | with_reducible apply State.ackDup_keeps | with_reducible apply State.readAgain_keeps
                 | (simp only [keeps_mk]; with_reducible refine Keeps.fold ?_) | with_reducible apply keeps_ite
                 | (split <;> try dsimp only) | with_reducible refine keeps_of_pair (by assumption) ?_
                 | with_reducible refine keeps_of_triple (by assumption) ?_ | with_reducible refine keeps_of_some (by assumption) ?_
                 | with_reducible refine keeps_of_some2 (by assumption) ?_)

theorem State.setAccepting_keeps {s0 : State} {s : State} {i : StreamId} {d : Option Decision} (h0 : Keeps s0 s) :
    Keeps s0 (State.setAccepting s i d) := by
  unfold State.setAccepting
  try dsimp only
  repeat' (first | with_reducible assumption | (intro _; try dsimp only) | with_reducible apply State.setStream_keeps
                 | (simp only [keeps_mk]; with_reducible refine Keeps.fold ?_) | with_reducible apply keeps_ite
                 | (split <;> try dsimp only) | with_reducible refine keeps_of_pair (by assumption) ?_
                 | with_reducible refine keeps_of_triple (by assumption) ?_ | with_reducible refine keeps_of_some (by assumption) ?_
                 | with_reducible refine keeps_of_some2 (by assumption) ?_)

theorem State.gather_keeps {s0 : State} {s : State} {i : StreamId} {p : Pkt} (h0 : Keeps s0 s) :
    Keeps s0 (State.gather s i p) := by
  unfold State.gather
  try dsimp only
  repeat' (first | with_reducible assumption | (intro _; try dsimp only) | with_reducible apply State.setStream_keeps
                 | (simp only [keeps_mk]; with_reducible refine Keeps.fold ?_) | with_reducible apply keeps_ite)

theorem State.performed_keeps {s0 : State} {s : State} {i : StreamId} {p : Pkt} {arr : Nat} {r : Perf} {d : Option Decision} (h0 : Keeps s0 s) :
    Keeps s0 (State.performed s i p arr r d) := by
  unfold State.performed
  try dsimp only
  repeat' (first | with_reducible assumption | (intro _; try dsimp only) | with_reducible apply State.gutter_keeps
                 | with_reducible apply State.setStream_keeps | with_reducible apply State.answerReq_keeps
                 | with_reducible apply State.consumeReq_keeps | with_reducible apply State.keepArrival_keeps
                 | with_reducible apply State.relay_keeps | with_reducible apply State.startWait_keeps
                 | with_reducible apply State.setAccepting_keeps | with_reducible apply State.gather_keeps
                 | (simp only [keeps_mk]; with_reducible refine Keeps.fold ?_) | with_reducible apply keeps_ite
                 | (split <;> try dsimp only) | with_reducible refine keeps_of_pair (by assumption) ?_
                 | with_reducible refine keeps_of_triple (by assumption) ?_ | with_reducible refine keeps_of_some (by assumption) ?_
                 | with_reducible refine keeps_of_some2 (by assumption) ?_ | with_reducible refine keeps_of_reply (by assumption) ?_
                 | with_reducible refine keeps_of_wait (by assumption) ?_)

theorem State.keepPart_keeps {s0 : State} {s : State} {i : StreamId} {p : Pkt} (h0 : Keeps s0 s) :
    Keeps s0 (State.keepPart s i p) := by
  unfold State.keepPart
  try dsimp only
  repeat' (first | with_reducible assumption | (intro _; try dsimp only) | with_reducible apply State.setStream_keeps
                 | with_reducible exact keepsOpt_none | with_reducible exact keepsOpt2_none | with_reducible apply keepsOpt_some
                 | with_reducible apply keepsOpt2_some | (simp only [keeps_mk]; with_reducible refine Keeps.fold ?_)
                 | with_reducible apply keeps_ite | (split <;> try dsimp only)
                 | with_reducible refine keeps_of_pair (by assumption) ?_ | with_reducible refine keeps_of_some (by assumption) ?_
                 | with_reducible refine keeps_of_some2 (by assumption) ?_)

theorem State.performInOrder_keeps {s0 : State} {s : State} {i : StreamId} {p : Pkt} (h0 : Keeps s0 s) :
    Keeps s0 (State.performInOrder s i p) := by
  unfold State.performInOrder
  try dsimp only
  repeat' (first | with_reducible assumption | (intro _; try dsimp only) | with_reducible apply State.gutter_keeps
                 | with_reducible apply State.newArrival_keeps | with_reducible apply State.perform_keeps
                 | with_reducible apply State.performed_keeps | with_reducible apply State.keepPart_keeps
                 | (simp only [keeps_mk]; with_reducible refine Keeps.fold ?_) | with_reducible apply keeps_ite
                 | (split <;> try dsimp only) | with_reducible refine keeps_of_pair (by assumption) ?_
                 | with_reducible refine keeps_of_some (by assumption) ?_ | with_reducible refine keeps_of_some2 (by assumption) ?_)

theorem State.tagFailed_keeps {s0 : State} {s : State} (h0 : Keeps s0 s) : Keeps s0 (State.tagFailed s) :=
  State.setFlag_keeps (State.count_keeps h0)

theorem State.laterPkt_keeps {s0 : State} {s : State} {p : Pkt} (h0 : Keeps s0 s) :
    Keeps s0 (State.laterPkt s p) := by
  unfold State.laterPkt
  try dsimp only
  repeat' (first | with_reducible assumption | (intro _; try dsimp only) | with_reducible apply State.watermark_keeps
                 | with_reducible apply State.sampled_keeps | (simp only [keeps_mk]; with_reducible refine Keeps.fold ?_)
                 | with_reducible apply keeps_ite)

theorem State.segmentTurn_keeps {s0 : State} {s : State} {i : StreamId} {p : Pkt} (h0 : Keeps s0 s) :
    Keeps s0 (State.segmentTurn s i p).2 := by
  unfold State.segmentTurn
  try dsimp only
  repeat' (first | with_reducible assumption | (intro _; try dsimp only) | with_reducible apply State.gutter_keeps
                 | with_reducible apply State.setStream_keeps | with_reducible exact keepsOpt_none
                 | with_reducible exact keepsOpt2_none | with_reducible apply keepsOpt_some | with_reducible apply keepsOpt2_some
                 | with_reducible apply keepsOpt_map | with_reducible apply keepsOpt2_mapPair | with_reducible apply keepsOpt2_map
                 | with_reducible apply keeps_getD | (simp only [keeps_mk]; with_reducible refine Keeps.fold ?_)
                 | with_reducible apply keeps_ite | (split <;> try dsimp only)
                 | with_reducible refine keeps_of_pair (by assumption) ?_ | with_reducible refine keeps_of_triple (by assumption) ?_
                 | with_reducible refine keeps_of_some (by assumption) ?_ | with_reducible refine keeps_of_some2 (by assumption) ?_)

theorem State.segmentPkt_keeps {s0 : State} {s : State} {n : Nat} {q : Qp} {p : Pkt} (h0 : Keeps s0 s) :
    Keeps s0 (State.segmentPkt s n q p) := by
  unfold State.segmentPkt
  try dsimp only
  repeat' (first | with_reducible assumption | (intro _; try dsimp only) | with_reducible apply State.countN_keeps
                 | with_reducible apply State.gutter_keeps | with_reducible apply State.updCtx_keeps
                 | with_reducible apply State.throughEngine_keeps | with_reducible apply State.qpError_keeps
                 | with_reducible apply State.setStream_keeps | with_reducible apply State.ackWith_keeps
                 | with_reducible apply State.performInOrder_keeps | with_reducible apply State.tagFailed_keeps
                 | with_reducible apply State.laterPkt_keeps | with_reducible exact keepsOpt_none
                 | with_reducible exact keepsOpt2_none | with_reducible apply keepsOpt_some | with_reducible apply keepsOpt2_some
                 | with_reducible apply keepsOpt_map | with_reducible apply keepsOpt2_mapPair | with_reducible apply keepsOpt2_map
                 | with_reducible apply keeps_foldl | with_reducible apply keeps_foldl_pair
                 | with_reducible apply keeps_foldl_triple | with_reducible apply keepsOpt_foldl | with_reducible apply keeps_getD
                 | (simp only [keeps_mk]; with_reducible refine Keeps.fold ?_) | with_reducible apply keeps_ite
                 | (split <;> try dsimp only) | with_reducible refine keeps_of_pair (by assumption) ?_
                 | with_reducible refine keeps_of_triple (by assumption) ?_ | with_reducible refine keeps_of_some (by assumption) ?_
                 | with_reducible refine keeps_of_some2 (by assumption) ?_)

theorem State.takeInOrder_keeps {s0 : State} {s : State} {i : StreamId} {p : Pkt} (h0 : Keeps s0 s) :
    Keeps s0 (State.takeInOrder s i p) := by
  unfold State.takeInOrder
  try dsimp only
  repeat' (first | with_reducible assumption | (intro _; try dsimp only) | with_reducible apply State.gutter_keeps
                 | with_reducible apply State.performInOrder_keeps | with_reducible apply State.segmentPkt_keeps
                 | (simp only [keeps_mk]; with_reducible refine Keeps.fold ?_) | with_reducible apply keeps_ite
                 | (split <;> try dsimp only) | with_reducible refine keeps_of_pair (by assumption) ?_
                 | with_reducible refine keeps_of_triple (by assumption) ?_ | with_reducible refine keeps_of_some (by assumption) ?_
                 | with_reducible refine keeps_of_some2 (by assumption) ?_)

theorem State.takeHeld_keeps {s0 : State} {i : StreamId} {y0 : Nat} {y1 : State} (h0 : Keeps s0 y1) :
    Keeps s0 (State.takeHeld i y0 y1) := by
  induction y0 generalizing y1 i with
  | zero =>
    unfold State.takeHeld
    try dsimp only
    repeat' (first | with_reducible assumption | (intro _; try dsimp only) | with_reducible apply State.gutter_keeps
                   | with_reducible apply State.setStream_keeps | with_reducible apply State.takeInOrder_keeps
                   | (simp only [keeps_mk]; with_reducible refine Keeps.fold ?_) | with_reducible apply keeps_ite
                   | (split <;> try dsimp only) | with_reducible refine keeps_of_pair (by assumption) ?_
                   | with_reducible refine keeps_of_triple (by assumption) ?_
                   | with_reducible refine keeps_of_some (by assumption) ?_
                   | with_reducible refine keeps_of_some2 (by assumption) ?_)
  | succ _ ih =>
    unfold State.takeHeld
    try dsimp only
    repeat' (first | with_reducible assumption | (intro _; try dsimp only) | with_reducible apply ih
                   | with_reducible apply State.gutter_keeps | with_reducible apply State.setStream_keeps
                   | with_reducible apply State.takeInOrder_keeps | (simp only [keeps_mk]; with_reducible refine Keeps.fold ?_)
                   | with_reducible apply keeps_ite | (split <;> try dsimp only)
                   | with_reducible refine keeps_of_pair (by assumption) ?_
                   | with_reducible refine keeps_of_triple (by assumption) ?_
                   | with_reducible refine keeps_of_some (by assumption) ?_
                   | with_reducible refine keeps_of_some2 (by assumption) ?_)

theorem State.noteConf_keeps {s0 : State} {s : State} {i : StreamId} {conf : Nat} (h0 : Keeps s0 s) :
    Keeps s0 (State.noteConf s i conf) := by
  unfold State.noteConf
  try dsimp only
  repeat' (first | with_reducible assumption | (intro _; try dsimp only) | with_reducible apply State.updCtx_keeps
                 | (simp only [keeps_mk]; with_reducible refine Keeps.fold ?_) | with_reducible apply keeps_ite
                 | (split <;> try dsimp only) | with_reducible refine keeps_of_pair (by assumption) ?_
                 | with_reducible refine keeps_of_triple (by assumption) ?_ | with_reducible refine keeps_of_some (by assumption) ?_
                 | with_reducible refine keeps_of_some2 (by assumption) ?_)

theorem State.takeOrHold_keeps {s0 : State} {s : State} {i : StreamId} {p : Pkt} (h0 : Keeps s0 s) :
    Keeps s0 (State.takeOrHold s i p) := by
  unfold State.takeOrHold
  try dsimp only
  repeat' (first | with_reducible assumption | (intro _; try dsimp only) | with_reducible apply State.gutter_keeps
                 | with_reducible apply State.setStream_keeps | with_reducible apply State.sendAck_keeps
                 | with_reducible apply State.takeInOrder_keeps | with_reducible apply State.takeHeld_keeps
                 | (simp only [keeps_mk]; with_reducible refine Keeps.fold ?_) | with_reducible apply keeps_ite
                 | (split <;> try dsimp only) | with_reducible refine keeps_of_pair (by assumption) ?_
                 | with_reducible refine keeps_of_some (by assumption) ?_ | with_reducible refine keeps_of_some2 (by assumption) ?_)

theorem State.classify_keeps {s0 : State} {s : State} {i : StreamId} {p : Pkt} (h0 : Keeps s0 s) :
    Keeps s0 (State.classify s i p) := by
  unfold State.classify
  try dsimp only
  repeat' (first | with_reducible assumption | (intro _; try dsimp only) | with_reducible apply State.gutter_keeps
                 | with_reducible apply State.setStream_keeps | with_reducible apply State.duplicate_keeps
                 | with_reducible apply State.segmentTurn_keeps | with_reducible apply State.takeHeld_keeps
                 | with_reducible apply State.noteConf_keeps | with_reducible apply State.takeOrHold_keeps
                 | (simp only [keeps_mk]; with_reducible refine Keeps.fold ?_) | with_reducible apply keeps_ite
                 | (split <;> try dsimp only) | with_reducible refine keeps_of_pair (by assumption) ?_
                 | with_reducible refine keeps_of_triple (by assumption) ?_ | with_reducible refine keeps_of_some (by assumption) ?_
                 | with_reducible refine keeps_of_some2 (by assumption) ?_)

theorem State.setFstream_keeps {s0 : State} {s : State} {k : Nat} {f : FStream} (h0 : Keeps s0 s) :
    Keeps s0 (State.setFstream s k f) := by
  unfold State.setFstream
  try dsimp only
  repeat' (first | with_reducible assumption | (intro _; try dsimp only)
                 | (simp only [keeps_mk]; with_reducible refine Keeps.fold ?_) | with_reducible apply keeps_ite)

theorem State.forwardedDone_keeps {s0 : State} {s : State} {p : Pkt} {status : Nat} {reason : Nat} {data : Bytes} (h0 : Keeps s0 s) :
    Keeps s0 (State.forwardedDone s p status reason data) := by
  unfold State.forwardedDone
  try dsimp only
  repeat' (first | with_reducible assumption | (intro _; try dsimp only) | with_reducible apply State.answerForwarded_keeps
                 | with_reducible apply State.setFstream_keeps | (simp only [keeps_mk]; with_reducible refine Keeps.fold ?_)
                 | with_reducible apply keeps_ite)

theorem State.setDecided_keeps {s0 : State} {s : State} {p : Pkt} {d : Option Decision} (h0 : Keeps s0 s) :
    Keeps s0 (State.setDecided s p d) := by
  unfold State.setDecided
  try dsimp only
  repeat' (first | with_reducible assumption | (intro _; try dsimp only) | with_reducible apply State.setFstream_keeps
                 | with_reducible exact keepsOpt_none | with_reducible exact keepsOpt2_none | with_reducible apply keepsOpt_some
                 | with_reducible apply keepsOpt2_some | with_reducible apply keepsOpt_map | with_reducible apply keepsOpt2_mapPair
                 | with_reducible apply keepsOpt2_map | (simp only [keeps_mk]; with_reducible refine Keeps.fold ?_)
                 | with_reducible apply keeps_ite | (split <;> try dsimp only)
                 | with_reducible refine keeps_of_pair (by assumption) ?_ | with_reducible refine keeps_of_some (by assumption) ?_
                 | with_reducible refine keeps_of_some2 (by assumption) ?_)

theorem State.performedForward_keeps {s0 : State} {s : State} {p : Pkt} {arr : Nat} {r : Perf} {d : Option Decision} (h0 : Keeps s0 s) :
    Keeps s0 (State.performedForward s p arr r d) := by
  unfold State.performedForward
  try dsimp only
  repeat' (first | with_reducible assumption | (intro _; try dsimp only) | with_reducible apply State.keepArrival_keeps
                 | with_reducible apply State.relay_keeps | with_reducible apply State.startWait_keeps
                 | with_reducible apply State.setFstream_keeps | with_reducible apply State.forwardedDone_keeps
                 | with_reducible apply State.setDecided_keeps | (simp only [keeps_mk]; with_reducible refine Keeps.fold ?_)
                 | with_reducible apply keeps_ite | (split <;> try dsimp only)
                 | with_reducible refine keeps_of_pair (by assumption) ?_ | with_reducible refine keeps_of_triple (by assumption) ?_
                 | with_reducible refine keeps_of_some (by assumption) ?_ | with_reducible refine keeps_of_some2 (by assumption) ?_
                 | with_reducible refine keeps_of_reply (by assumption) ?_ | with_reducible refine keeps_of_wait (by assumption) ?_)

theorem State.forwarded_keeps {s0 : State} {s : State} {p : Pkt} (h0 : Keeps s0 s) :
    Keeps s0 (State.forwarded s p) := by
  unfold State.forwarded
  try dsimp only
  repeat' (first | with_reducible assumption | (intro _; try dsimp only) | with_reducible apply State.gutter_keeps
                 | with_reducible apply State.forwardPkt_keeps | with_reducible apply State.newArrival_keeps
                 | with_reducible apply State.perform_keeps | with_reducible apply State.answerForwarded_keeps
                 | with_reducible apply State.readAgain_keeps | with_reducible apply State.setFstream_keeps
                 | with_reducible apply State.performedForward_keeps | (simp only [keeps_mk]; with_reducible refine Keeps.fold ?_)
                 | with_reducible apply keeps_ite | (split <;> try dsimp only)
                 | with_reducible refine keeps_of_pair (by assumption) ?_ | with_reducible refine keeps_of_triple (by assumption) ?_
                 | with_reducible refine keeps_of_some (by assumption) ?_ | with_reducible refine keeps_of_some2 (by assumption) ?_)

theorem State.ejected_keeps {s0 : State} {s : State} {p : Pkt} (h0 : Keeps s0 s) :
    Keeps s0 (State.ejected s p) := by
  unfold State.ejected
  try dsimp only
  repeat' (first | with_reducible assumption | with_reducible apply State.sampled_keeps | with_reducible apply State.sampleLeft_keeps
                 | with_reducible apply State.countPort_keeps | with_reducible apply keeps_getD
                 | (simp only [keeps_mk]; with_reducible refine Keeps.fold ?_) | with_reducible apply keeps_ite
                 | (split <;> try dsimp only))

theorem State.arrivalDone_keeps {s0 : State} {s : State} {arr : Nat} {status : Nat} {reason : Nat} {data : Bytes} (h0 : Keeps s0 s) :
    Keeps s0 (State.arrivalDone s arr status reason data) := by
  unfold State.arrivalDone
  try dsimp only
  repeat' (first | with_reducible assumption | (intro _; try dsimp only) | with_reducible apply State.holdSelf_keeps
                 | with_reducible apply State.answerReq_keeps | with_reducible apply State.answerAgain_keeps
                 | with_reducible apply State.takeHeld_keeps | with_reducible apply State.forwardedDone_keeps
                 | with_reducible apply State.forwarded_keeps | with_reducible exact keepsOpt_none
                 | with_reducible exact keepsOpt2_none | with_reducible apply keepsOpt_some | with_reducible apply keepsOpt2_some
                 | (simp only [keeps_mk]; with_reducible refine Keeps.fold ?_) | with_reducible apply keeps_ite
                 | (split <;> try dsimp only) | with_reducible refine keeps_of_pair (by assumption) ?_
                 | with_reducible refine keeps_of_triple (by assumption) ?_ | with_reducible refine keeps_of_some (by assumption) ?_
                 | with_reducible refine keeps_of_some2 (by assumption) ?_)

theorem State.arrivalPerformed_keeps {s0 : State} {s : State} {arr : Nat} {data : Bytes} (h0 : Keeps s0 s) :
    Keeps s0 (State.arrivalPerformed s arr data) := by
  unfold State.arrivalPerformed
  try dsimp only
  repeat' (first | with_reducible assumption | with_reducible apply State.arrivalDone_keeps | with_reducible apply State.noteToken_keeps
                 | with_reducible apply State.startWait_keeps | (simp only [keeps_mk]; with_reducible refine Keeps.fold ?_)
                 | with_reducible apply keeps_ite | (split <;> try dsimp only) | with_reducible refine keeps_of_pair (by assumption) ?_
                 | with_reducible refine keeps_of_triple (by assumption) ?_ | with_reducible refine keeps_of_some (by assumption) ?_
                 | with_reducible refine keeps_of_some2 (by assumption) ?_)

end Sys2Proof.Machine
end

