-- ==== Sys2Proof/Laws/KeepPlacement.lean ====
section
/-!
SUPPORT. What the operations of Machine/Placement.lean keep.
-/

namespace Sys2Proof.Machine

set_option linter.unusedTactic false
set_option linter.unreachableTactic false
set_option linter.unusedVariables false

theorem State.pageEvent_keeps {s0 : State} {s : State} {reason i mod : Nat} (h0 : Keeps s0 s) :
    Keeps s0 (State.pageEvent s reason i mod) := by
  unfold State.pageEvent
  try dsimp only
  repeat' (first | with_reducible assumption | with_reducible apply State.placement_keeps
                 | (simp only [keeps_mk]; with_reducible refine Keeps.fold ?_) | with_reducible apply keeps_ite
                 | (split <;> try dsimp only) | with_reducible refine keeps_of_pair (by assumption) ?_
                 | with_reducible refine keeps_of_triple (by assumption) ?_ | with_reducible refine keeps_of_some (by assumption) ?_
                 | with_reducible refine keeps_of_some2 (by assumption) ?_)

theorem State.proposalDropped_keeps {s0 : State} {s : State} (h0 : Keeps s0 s) :
    Keeps s0 (State.proposalDropped s) := by
  unfold State.proposalDropped
  repeat' (first | with_reducible assumption | with_reducible apply State.count_keeps)

theorem State.updPage_keeps {s0 : State} {s : State} {i : Nat} {f : Page → Page} (h0 : Keeps s0 s) :
    Keeps s0 (State.updPage s i f) := by
  unfold State.updPage
  try dsimp only
  repeat' (first | with_reducible assumption | with_reducible apply State.setPage_keeps
                 | (simp only [keeps_mk]; with_reducible refine Keeps.fold ?_) | with_reducible apply keeps_ite
                 | (split <;> try dsimp only) | with_reducible refine keeps_of_pair (by assumption) ?_
                 | with_reducible refine keeps_of_triple (by assumption) ?_ | with_reducible refine keeps_of_some (by assumption) ?_
                 | with_reducible refine keeps_of_some2 (by assumption) ?_)

theorem State.seqAdvanced_keeps {s0 : State} {s : State} {i : Nat} (h0 : Keeps s0 s) :
    Keeps s0 (State.seqAdvanced s i) := by
  unfold State.seqAdvanced
  try dsimp only
  repeat' (first | with_reducible assumption | (intro _; try dsimp only) | with_reducible apply State.updPage_keeps
                 | (simp only [keeps_mk]; with_reducible refine Keeps.fold ?_) | with_reducible apply keeps_ite)

theorem State.changedNow_keeps {s0 : State} {s : State} {i : Nat} (h0 : Keeps s0 s) :
    Keeps s0 (State.changedNow s i) := by
  unfold State.changedNow
  try dsimp only
  repeat' (first | with_reducible assumption | (intro _; try dsimp only) | with_reducible apply State.updPage_keeps
                 | (simp only [keeps_mk]; with_reducible refine Keeps.fold ?_) | with_reducible apply keeps_ite)

theorem State.holdersChanged_keeps {s0 : State} {s : State} {i : Nat} (h0 : Keeps s0 s) :
    Keeps s0 (State.holdersChanged s i) := by
  unfold State.holdersChanged
  try dsimp only
  repeat' (first | with_reducible assumption | (intro _; try dsimp only) | with_reducible apply State.seqAdvanced_keeps
                 | with_reducible apply State.changedNow_keeps | (simp only [keeps_mk]; with_reducible refine Keeps.fold ?_)
                 | with_reducible apply keeps_ite)

theorem State.rerunArrival_keeps {s0 : State} {s : State} {arr : Nat} (h0 : Keeps s0 s) :
    Keeps s0 (State.rerunArrival s arr) := by
  unfold State.rerunArrival
  try dsimp only
  repeat' (first | with_reducible assumption | (intro _; try dsimp only) | with_reducible apply State.perform_keeps
                 | with_reducible apply State.readAgain_keeps | with_reducible apply State.performed_keeps
                 | with_reducible apply State.takeHeld_keeps | with_reducible apply State.performedForward_keeps
                 | with_reducible apply State.forwarded_keeps | with_reducible exact keepsOpt_none
                 | with_reducible exact keepsOpt2_none | with_reducible apply keepsOpt_some | with_reducible apply keepsOpt2_some
                 | (simp only [keeps_mk]; with_reducible refine Keeps.fold ?_) | with_reducible apply keeps_ite
                 | (split <;> try dsimp only) | with_reducible refine keeps_of_pair (by assumption) ?_
                 | with_reducible refine keeps_of_triple (by assumption) ?_ | with_reducible refine keeps_of_some (by assumption) ?_
                 | with_reducible refine keeps_of_some2 (by assumption) ?_)

theorem State.skyCome_keeps {s0 : State} {s : State} (h0 : Keeps s0 s) :
    Keeps s0 (State.skyCome s) := by
  unfold State.skyCome
  try dsimp only
  repeat' (first | with_reducible assumption | (intro _; try dsimp only) | with_reducible apply State.drawn_keeps
                 | with_reducible apply State.skyFetched_keeps | with_reducible apply State.rerunArrival_keeps
                 | with_reducible apply keeps_foldl | with_reducible apply keeps_foldl_pair
                 | with_reducible apply keeps_foldl_triple | with_reducible apply keepsOpt_foldl
                 | (simp only [keeps_mk]; with_reducible refine Keeps.fold ?_) | with_reducible apply keeps_ite
                 | (split <;> try dsimp only) | with_reducible refine keeps_of_pair (by assumption) ?_
                 | with_reducible refine keeps_of_triple (by assumption) ?_ | with_reducible refine keeps_of_some (by assumption) ?_
                 | with_reducible refine keeps_of_some2 (by assumption) ?_)

theorem State.resumePage_keeps {s0 : State} {s : State} {key : Nat} (h0 : Keeps s0 s) :
    Keeps s0 (State.resumePage s key) := by
  unfold State.resumePage
  try dsimp only
  repeat' (first | with_reducible assumption | (intro _; try dsimp only) | with_reducible apply State.rerunArrival_keeps
                 | with_reducible apply keeps_foldl | with_reducible apply keeps_foldl_pair | with_reducible apply keeps_foldl_triple)

theorem State.releaseHeld_keeps {s0 : State} {s : State} {key : Nat} (h0 : Keeps s0 s) :
    Keeps s0 (State.releaseHeld s key) := by
  unfold State.releaseHeld
  try dsimp only
  repeat' (first | with_reducible assumption | with_reducible apply State.freeFrame_keeps
                 | (simp only [keeps_mk]; with_reducible refine Keeps.fold ?_) | with_reducible apply keeps_ite
                 | (split <;> try dsimp only) | with_reducible refine keeps_of_pair (by assumption) ?_
                 | with_reducible refine keeps_of_triple (by assumption) ?_ | with_reducible refine keeps_of_some (by assumption) ?_
                 | with_reducible refine keeps_of_some2 (by assumption) ?_)

theorem State.releaseIncoming_keeps {s0 : State} {s : State} {key : Nat} (h0 : Keeps s0 s) :
    Keeps s0 (State.releaseIncoming s key) := by
  unfold State.releaseIncoming
  try dsimp only
  repeat' (first | with_reducible assumption | with_reducible apply State.freeFrame_keeps
                 | (simp only [keeps_mk]; with_reducible refine Keeps.fold ?_) | with_reducible apply keeps_ite
                 | (split <;> try dsimp only) | with_reducible refine keeps_of_pair (by assumption) ?_
                 | with_reducible refine keeps_of_triple (by assumption) ?_ | with_reducible refine keeps_of_some (by assumption) ?_
                 | with_reducible refine keeps_of_some2 (by assumption) ?_)

theorem State.startCopy_keeps {s0 : State} {s : State} {key dst : Nat} {replica : Bool} (h0 : Keeps s0 s) :
    Keeps s0 (State.startCopy s key dst replica) := by
  unfold State.startCopy
  try dsimp only
  repeat' (first | with_reducible assumption | (intro _; try dsimp only) | with_reducible apply State.setHeld_keeps
                 | with_reducible apply State.sendUnit_keeps | with_reducible apply keeps_foldl | with_reducible apply keeps_foldl_pair
                 | with_reducible apply keeps_foldl_triple | (simp only [keeps_mk]; with_reducible refine Keeps.fold ?_)
                 | with_reducible apply keeps_ite | (split <;> try dsimp only) | with_reducible refine keeps_of_pair (by assumption) ?_
                 | with_reducible refine keeps_of_triple (by assumption) ?_ | with_reducible refine keeps_of_some (by assumption) ?_
                 | with_reducible refine keeps_of_some2 (by assumption) ?_)

theorem State.copyDone_keeps {s0 : State} {s : State} {key : Nat} (h0 : Keeps s0 s) :
    Keeps s0 (State.copyDone s key) := by
  unfold State.copyDone
  try dsimp only
  repeat' (first | with_reducible assumption | with_reducible apply State.setHeld_keeps | with_reducible apply State.plcSend_keeps
                 | with_reducible apply State.control_keeps | (simp only [keeps_mk]; with_reducible refine Keeps.fold ?_)
                 | with_reducible apply keeps_ite | (split <;> try dsimp only) | with_reducible refine keeps_of_pair (by assumption) ?_
                 | with_reducible refine keeps_of_triple (by assumption) ?_ | with_reducible refine keeps_of_some (by assumption) ?_
                 | with_reducible refine keeps_of_some2 (by assumption) ?_)

theorem State.copyAcked_keeps {s0 : State} {s : State} {key : Nat} {run : Nat} {u : Nat} {status : Nat} (h0 : Keeps s0 s) :
    Keeps s0 (State.copyAcked s key run u status) := by
  unfold State.copyAcked
  try dsimp only
  repeat' (first | with_reducible assumption | (intro _; try dsimp only) | with_reducible apply State.setHeld_keeps
                 | with_reducible apply State.copyDone_keeps | (simp only [keeps_mk]; with_reducible refine Keeps.fold ?_)
                 | with_reducible apply keeps_ite | (split <;> try dsimp only)
                 | with_reducible refine keeps_of_pair (by assumption) ?_ | with_reducible refine keeps_of_triple (by assumption) ?_
                 | with_reducible refine keeps_of_some (by assumption) ?_ | with_reducible refine keeps_of_some2 (by assumption) ?_)

theorem State.moveCopyIn_keeps {s0 : State} {s : State} {p : Pkt} (h0 : Keeps s0 s) :
    Keeps s0 (State.moveCopyIn s p) := by
  unfold State.moveCopyIn
  try dsimp only
  repeat' (first | with_reducible assumption | (intro _; try dsimp only) | with_reducible apply State.setEcc_keeps
                 | with_reducible apply State.via_keeps | with_reducible apply State.physWrite_keeps
                 | with_reducible apply State.proposalDropped_keeps | with_reducible apply State.updPage_keeps
                 | with_reducible apply keepsOpt_map | with_reducible apply keepsOpt2_mapPair | with_reducible apply keepsOpt2_map
                 | with_reducible apply keeps_foldl | with_reducible apply keeps_foldl_pair
                 | with_reducible apply keeps_foldl_triple | with_reducible apply keepsOpt_foldl
                 | (simp only [keeps_mk]; with_reducible refine Keeps.fold ?_) | with_reducible apply keeps_ite
                 | (split <;> try dsimp only) | with_reducible refine keeps_of_pair (by assumption) ?_
                 | with_reducible refine keeps_of_triple (by assumption) ?_ | with_reducible refine keeps_of_some (by assumption) ?_
                 | with_reducible refine keeps_of_some2 (by assumption) ?_)

theorem State.moveStartIn_keeps {s0 : State} {s : State} {p : Pkt} (h0 : Keeps s0 s) :
    Keeps s0 (State.moveStartIn s p) := by
  unfold State.moveStartIn
  try dsimp only
  repeat' (first | with_reducible assumption | with_reducible apply State.releaseIncoming_keeps
                 | with_reducible apply State.takeFrame_keeps | with_reducible apply State.proposalDropped_keeps
                 | with_reducible apply State.startCopy_keeps | (simp only [keeps_mk]; with_reducible refine Keeps.fold ?_)
                 | with_reducible apply keeps_ite | (split <;> try dsimp only) | with_reducible refine keeps_of_pair (by assumption) ?_
                 | with_reducible refine keeps_of_triple (by assumption) ?_ | with_reducible refine keeps_of_some (by assumption) ?_
                 | with_reducible refine keeps_of_some2 (by assumption) ?_)

theorem State.becomeHolder_keeps {s0 : State} {s : State} {key seq : Nat} (h0 : Keeps s0 s) :
    Keeps s0 (State.becomeHolder s key seq) := by
  unfold State.becomeHolder
  try dsimp only
  repeat' (first | with_reducible assumption | (simp only [keeps_mk]; with_reducible refine Keeps.fold ?_)
                 | with_reducible apply keeps_ite | (split <;> try dsimp only) | with_reducible refine keeps_of_pair (by assumption) ?_
                 | with_reducible refine keeps_of_triple (by assumption) ?_ | with_reducible refine keeps_of_some (by assumption) ?_
                 | with_reducible refine keeps_of_some2 (by assumption) ?_)

theorem State.moveEndIn_keeps {s0 : State} {s : State} {p : Pkt} (h0 : Keeps s0 s) :
    Keeps s0 (State.moveEndIn s p) := by
  unfold State.moveEndIn
  try dsimp only
  repeat' (first | with_reducible assumption | (intro _; try dsimp only) | with_reducible apply State.setHeld_keeps
                 | with_reducible apply State.stopCopy_keeps | with_reducible apply State.proposalDropped_keeps
                 | with_reducible apply State.resumePage_keeps | with_reducible apply State.releaseHeld_keeps
                 | with_reducible apply State.releaseIncoming_keeps | with_reducible apply State.becomeHolder_keeps
                 | (simp only [keeps_mk]; with_reducible refine Keeps.fold ?_) | with_reducible apply keeps_ite
                 | (split <;> try dsimp only) | with_reducible refine keeps_of_pair (by assumption) ?_
                 | with_reducible refine keeps_of_triple (by assumption) ?_ | with_reducible refine keeps_of_some (by assumption) ?_
                 | with_reducible refine keeps_of_some2 (by assumption) ?_)

theorem State.hintIn_keeps {s0 : State} {s : State} {p : Pkt} (h0 : Keeps s0 s) :
    Keeps s0 (State.hintIn s p) := by
  unfold State.hintIn
  try dsimp only
  repeat' (first | with_reducible assumption | with_reducible apply State.proposalDropped_keeps
                 | with_reducible apply State.cachePut_keeps | (simp only [keeps_mk]; with_reducible refine Keeps.fold ?_)
                 | with_reducible apply keeps_ite | (split <;> try dsimp only) | with_reducible refine keeps_of_pair (by assumption) ?_
                 | with_reducible refine keeps_of_triple (by assumption) ?_ | with_reducible refine keeps_of_some (by assumption) ?_
                 | with_reducible refine keeps_of_some2 (by assumption) ?_)

theorem State.watchNote_keeps {s0 : State} {s : State} {p : Pkt} (h0 : Keeps s0 s) :
    Keeps s0 (State.watchNote s p) := by
  unfold State.watchNote
  try dsimp only
  repeat' (first | with_reducible assumption | with_reducible apply keepsOpt_map | with_reducible apply keepsOpt2_mapPair
                 | with_reducible apply keepsOpt2_map | with_reducible apply keeps_getD
                 | (simp only [keeps_mk]; with_reducible refine Keeps.fold ?_))

theorem State.collapseDoneIn_keeps {s0 : State} {s : State} {p : Pkt} (h0 : Keeps s0 s) :
    Keeps s0 (State.collapseDoneIn s p) := by
  unfold State.collapseDoneIn
  try dsimp only
  repeat' (first | with_reducible assumption | (intro _; try dsimp only) | with_reducible apply State.setHeld_keeps
                 | with_reducible apply State.proposalDropped_keeps | (simp only [keeps_mk]; with_reducible refine Keeps.fold ?_)
                 | with_reducible apply keeps_ite | (split <;> try dsimp only)
                 | with_reducible refine keeps_of_pair (by assumption) ?_ | with_reducible refine keeps_of_triple (by assumption) ?_
                 | with_reducible refine keeps_of_some (by assumption) ?_ | with_reducible refine keeps_of_some2 (by assumption) ?_)

theorem State.pageShot_keeps {s0 : State} {s : State} {key : Nat} (h0 : Keeps s0 s) :
    Keeps s0 (State.pageShot s key) := by
  unfold State.pageShot
  try dsimp only
  repeat' (first | with_reducible assumption | (intro _; try dsimp only) | with_reducible apply keepsOpt_map
                 | with_reducible apply keepsOpt2_mapPair | with_reducible apply keepsOpt2_map
                 | (simp only [keeps_mk]; with_reducible refine Keeps.fold ?_) | with_reducible apply keeps_ite
                 | (split <;> try dsimp only) | with_reducible refine keeps_of_pair (by assumption) ?_
                 | with_reducible refine keeps_of_some (by assumption) ?_ | with_reducible refine keeps_of_some2 (by assumption) ?_)

theorem State.shootNotice_keeps {s0 : State} {s : State} {root : Nat} {page : Nat} {seq : Nat} {payload : Bytes} {partition : Nat} (h0 : Keeps s0 s) :
    Keeps s0 (State.shootNotice s root page seq payload partition) := by
  unfold State.shootNotice
  try dsimp only
  repeat' (first | with_reducible assumption | (intro _; try dsimp only) | with_reducible apply State.setHeld_keeps
                 | with_reducible apply State.cachePut_keeps | with_reducible apply State.treeArrive_keeps
                 | with_reducible apply State.proposalDropped_keeps | with_reducible apply State.releaseHeld_keeps
                 | with_reducible apply State.pageShot_keeps | with_reducible exact keepsOpt_none
                 | with_reducible exact keepsOpt2_none | with_reducible apply keepsOpt_some | with_reducible apply keepsOpt2_some
                 | (simp only [keeps_mk]; with_reducible refine Keeps.fold ?_) | with_reducible apply keeps_ite
                 | (split <;> try dsimp only) | with_reducible refine keeps_of_pair (by assumption) ?_
                 | with_reducible refine keeps_of_triple (by assumption) ?_ | with_reducible refine keeps_of_some (by assumption) ?_
                 | with_reducible refine keeps_of_some2 (by assumption) ?_)

theorem State.sendEnd_keeps {s0 : State} {s : State} {i dst : Nat} {cancel : Bool} (h0 : Keeps s0 s) :
    Keeps s0 (State.sendEnd s i dst cancel) := by
  unfold State.sendEnd
  try dsimp only
  repeat' (first | with_reducible assumption | with_reducible apply State.plcSend_keeps | with_reducible apply State.control_keeps
                 | (simp only [keeps_mk]; with_reducible refine Keeps.fold ?_) | with_reducible apply keeps_ite
                 | (split <;> try dsimp only) | with_reducible refine keeps_of_pair (by assumption) ?_
                 | with_reducible refine keeps_of_triple (by assumption) ?_ | with_reducible refine keeps_of_some (by assumption) ?_
                 | with_reducible refine keeps_of_some2 (by assumption) ?_)

theorem State.sendStart_keeps {s0 : State} {s : State} {i dst role : Nat} (h0 : Keeps s0 s) :
    Keeps s0 (State.sendStart s i dst role) := by
  unfold State.sendStart
  try dsimp only
  repeat' (first | with_reducible assumption | with_reducible apply State.plcSend_keeps | with_reducible apply State.control_keeps
                 | (simp only [keeps_mk]; with_reducible refine Keeps.fold ?_) | with_reducible apply keeps_ite
                 | (split <;> try dsimp only) | with_reducible refine keeps_of_pair (by assumption) ?_
                 | with_reducible refine keeps_of_triple (by assumption) ?_ | with_reducible refine keeps_of_some (by assumption) ?_
                 | with_reducible refine keeps_of_some2 (by assumption) ?_)

theorem State.beginCopy_keeps {s0 : State} {s : State} {i : Nat} (h0 : Keeps s0 s) :
    Keeps s0 (State.beginCopy s i) := by
  unfold State.beginCopy
  try dsimp only
  repeat' (first | with_reducible assumption | with_reducible apply State.setPage_keeps | with_reducible apply State.sendStart_keeps
                 | (simp only [keeps_mk]; with_reducible refine Keeps.fold ?_) | with_reducible apply keeps_ite
                 | (split <;> try dsimp only) | with_reducible refine keeps_of_pair (by assumption) ?_
                 | with_reducible refine keeps_of_triple (by assumption) ?_ | with_reducible refine keeps_of_some (by assumption) ?_
                 | with_reducible refine keeps_of_some2 (by assumption) ?_)

theorem State.takeHome_keeps {s0 : State} {s : State} {i : Nat} (h0 : Keeps s0 s) :
    Keeps s0 (State.takeHome s i) := by
  unfold State.takeHome
  try dsimp only
  repeat' (first | with_reducible assumption | (intro _; try dsimp only) | with_reducible apply State.beginCopy_keeps
                 | (simp only [keeps_mk]; with_reducible refine Keeps.fold ?_) | with_reducible apply keeps_ite
                 | (split <;> try dsimp only) | with_reducible refine keeps_of_pair (by assumption) ?_
                 | with_reducible refine keeps_of_triple (by assumption) ?_ | with_reducible refine keeps_of_some (by assumption) ?_
                 | with_reducible refine keeps_of_some2 (by assumption) ?_)

theorem State.beginMove_keeps {s0 : State} {s : State} {i : Nat} {target : Nat} {replica : Bool} (h0 : Keeps s0 s) :
    Keeps s0 (State.beginMove s i target replica) := by
  unfold State.beginMove
  try dsimp only
  repeat' (first | with_reducible assumption | (intro _; try dsimp only) | with_reducible apply State.setPage_keeps
                 | with_reducible apply State.sendStart_keeps | with_reducible apply State.takeHome_keeps
                 | (simp only [keeps_mk]; with_reducible refine Keeps.fold ?_) | with_reducible apply keeps_ite
                 | (split <;> try dsimp only) | with_reducible refine keeps_of_pair (by assumption) ?_
                 | with_reducible refine keeps_of_triple (by assumption) ?_ | with_reducible refine keeps_of_some (by assumption) ?_
                 | with_reducible refine keeps_of_some2 (by assumption) ?_)

theorem State.dueStarts_keeps {s0 : State} {s : State} (h0 : Keeps s0 s) :
    Keeps s0 (State.dueStarts s) := by
  unfold State.dueStarts
  try dsimp only
  repeat' (first | with_reducible assumption | (intro _; try dsimp only) | with_reducible apply State.startCopy_keeps
                 | with_reducible apply State.takeHome_keeps | with_reducible apply keeps_foldl
                 | with_reducible apply keeps_foldl_pair | with_reducible apply keeps_foldl_triple
                 | with_reducible apply keepsOpt_foldl | (simp only [keeps_mk]; with_reducible refine Keeps.fold ?_)
                 | with_reducible apply keeps_ite | (split <;> try dsimp only)
                 | with_reducible refine keeps_of_pair (by assumption) ?_ | with_reducible refine keeps_of_triple (by assumption) ?_
                 | with_reducible refine keeps_of_some (by assumption) ?_ | with_reducible refine keeps_of_some2 (by assumption) ?_)

theorem State.cancelMove_keeps {s0 : State} {s : State} {i : Nat} {toOld toTarget : Bool} (h0 : Keeps s0 s) :
    Keeps s0 (State.cancelMove s i toOld toTarget) := by
  unfold State.cancelMove
  try dsimp only
  repeat' (first | with_reducible assumption | (intro _; try dsimp only) | with_reducible apply State.sendEnd_keeps
                 | with_reducible apply State.updPage_keeps | (simp only [keeps_mk]; with_reducible refine Keeps.fold ?_)
                 | with_reducible apply keeps_ite | (split <;> try dsimp only) | with_reducible refine keeps_of_pair (by assumption) ?_
                 | with_reducible refine keeps_of_triple (by assumption) ?_ | with_reducible refine keeps_of_some (by assumption) ?_
                 | with_reducible refine keeps_of_some2 (by assumption) ?_)

theorem State.pinMove_keeps {s0 : State} {s : State} {i : Nat} {again : Bool} (h0 : Keeps s0 s) :
    Keeps s0 (State.pinMove s i again) := by
  unfold State.pinMove
  try dsimp only
  repeat' (first | with_reducible assumption | (intro _; try dsimp only) | with_reducible apply State.setPage_keeps
                 | with_reducible apply State.beginMove_keeps | with_reducible apply keepsOpt_map
                 | with_reducible apply keepsOpt2_mapPair | with_reducible apply keepsOpt2_map | with_reducible apply keeps_getD
                 | (simp only [keeps_mk]; with_reducible refine Keeps.fold ?_) | with_reducible apply keeps_ite
                 | (split <;> try dsimp only) | with_reducible refine keeps_of_pair (by assumption) ?_
                 | with_reducible refine keeps_of_triple (by assumption) ?_ | with_reducible refine keeps_of_some (by assumption) ?_
                 | with_reducible refine keeps_of_some2 (by assumption) ?_)

theorem State.duePins_keeps {s0 : State} {s : State} (h0 : Keeps s0 s) :
    Keeps s0 (State.duePins s) := by
  unfold State.duePins
  try dsimp only
  repeat' (first | with_reducible assumption | (intro _; try dsimp only) | with_reducible apply State.pinMove_keeps
                 | with_reducible apply keeps_foldl | with_reducible apply keeps_foldl_pair
                 | with_reducible apply keeps_foldl_triple | with_reducible apply keepsOpt_foldl
                 | (simp only [keeps_mk]; with_reducible refine Keeps.fold ?_) | with_reducible apply keeps_ite)

theorem State.moveReply_keeps {s0 : State} {s : State} {key status : Nat} {data : Bytes} (h0 : Keeps s0 s) :
    Keeps s0 (State.moveReply s key status data) := by
  unfold State.moveReply
  try dsimp only
  repeat' (first | with_reducible assumption | (intro _; try dsimp only) | with_reducible apply State.beginCopy_keeps
                 | with_reducible apply State.updPage_keeps | with_reducible apply State.count_keeps
                 | with_reducible apply State.setFlag_keeps | with_reducible apply State.pageEvent_keeps
                 | (simp only [keeps_mk]; with_reducible refine Keeps.fold ?_) | with_reducible apply keeps_ite
                 | (split <;> try dsimp only) | with_reducible refine keeps_of_pair (by assumption) ?_
                 | with_reducible refine keeps_of_triple (by assumption) ?_ | with_reducible refine keeps_of_some (by assumption) ?_
                 | with_reducible refine keeps_of_some2 (by assumption) ?_)

theorem State.shoot_keeps {s0 : State} {s : State} {c : Change} {i flags removed about : Nat} (h0 : Keeps s0 s) :
    Keeps s0 (State.shoot s c i flags removed about) := by
  unfold State.shoot
  try dsimp only
  repeat' (first | with_reducible assumption | with_reducible apply State.treeStart_keeps
                 | (simp only [keeps_mk]; with_reducible refine Keeps.fold ?_) | with_reducible apply keeps_ite
                 | (split <;> try dsimp only) | with_reducible refine keeps_of_pair (by assumption) ?_
                 | with_reducible refine keeps_of_triple (by assumption) ?_ | with_reducible refine keeps_of_some (by assumption) ?_
                 | with_reducible refine keeps_of_some2 (by assumption) ?_)

theorem State.unreplicate_keeps {s0 : State} {s : State} {i : Nat} (h0 : Keeps s0 s) :
    Keeps s0 (State.unreplicate s i) := by
  unfold State.unreplicate
  try dsimp only
  repeat' (first | with_reducible assumption | (intro _; try dsimp only) | with_reducible apply State.updPage_keeps
                 | (simp only [keeps_mk]; with_reducible refine Keeps.fold ?_))

theorem State.makeChange_keeps {s0 : State} {s : State} {c : Change} (h0 : Keeps s0 s) :
    Keeps s0 (State.makeChange s c) := by
  unfold State.makeChange
  try dsimp only
  repeat' (first | with_reducible assumption | (intro _; try dsimp only) | with_reducible apply State.setFlag_keeps
                 | with_reducible apply State.count_keeps | with_reducible apply State.setPage_keeps
                 | with_reducible apply State.hintOnce_keeps | with_reducible apply State.pageEvent_keeps
                 | with_reducible apply State.updPage_keeps | with_reducible apply State.seqAdvanced_keeps
                 | with_reducible apply State.holdersChanged_keeps | with_reducible apply State.sendEnd_keeps
                 | with_reducible apply State.cancelMove_keeps | with_reducible apply State.shoot_keeps
                 | with_reducible apply State.unreplicate_keeps | with_reducible exact keepsOpt_none
                 | with_reducible exact keepsOpt2_none | with_reducible apply keepsOpt_some | with_reducible apply keepsOpt2_some
                 | (simp only [keeps_mk]; with_reducible refine Keeps.fold ?_) | with_reducible apply keeps_ite
                 | (split <;> try dsimp only) | with_reducible refine keeps_of_pair (by assumption) ?_
                 | with_reducible refine keeps_of_triple (by assumption) ?_ | with_reducible refine keeps_of_some (by assumption) ?_
                 | with_reducible refine keeps_of_some2 (by assumption) ?_)

theorem State.change_keeps {s0 : State} {s : State} {c : Change} {i : Nat} (h0 : Keeps s0 s) :
    Keeps s0 (State.change s c i) := by
  unfold State.change
  try dsimp only
  repeat' (first | with_reducible assumption | with_reducible apply State.makeChange_keeps
                 | (simp only [keeps_mk]; with_reducible refine Keeps.fold ?_) | with_reducible apply keeps_ite
                 | (split <;> try dsimp only))

theorem State.dueChanges_keeps {s0 : State} {s : State} (h0 : Keeps s0 s) :
    Keeps s0 (State.dueChanges s) := by
  unfold State.dueChanges
  try dsimp only
  repeat' (first | with_reducible assumption | (intro _; try dsimp only) | with_reducible apply State.makeChange_keeps
                 | with_reducible apply keeps_foldl | with_reducible apply keeps_foldl_pair | with_reducible apply keeps_foldl_triple
                 | (simp only [keeps_mk]; with_reducible refine Keeps.fold ?_) | with_reducible apply keeps_ite
                 | (split <;> try dsimp only))

theorem State.sendCollapseDone_keeps {s0 : State} {s : State} {i : Nat} {p : Page} {dst : Nat} (h0 : Keeps s0 s) :
    Keeps s0 (State.sendCollapseDone s i p dst) := by
  unfold State.sendCollapseDone
  repeat' (first | with_reducible assumption | with_reducible apply State.plcSend_keeps | with_reducible apply State.control_keeps)

theorem State.shootDone_keeps {s0 : State} {s : State} {i : Nat} {seq : Nat} (h0 : Keeps s0 s) :
    Keeps s0 (State.shootDone s i seq) := by
  unfold State.shootDone
  try dsimp only
  repeat' (first | with_reducible assumption | (intro _; try dsimp only) | with_reducible apply State.count_keeps
                 | with_reducible apply State.setHeld_keeps | with_reducible apply State.pageEvent_keeps
                 | with_reducible apply State.updPage_keeps | with_reducible apply State.changedNow_keeps
                 | with_reducible apply State.pinMove_keeps | with_reducible apply State.unreplicate_keeps
                 | with_reducible apply State.change_keeps | with_reducible apply State.dueChanges_keeps
                 | with_reducible apply State.sendCollapseDone_keeps | with_reducible exact keepsOpt_none
                 | with_reducible exact keepsOpt2_none | with_reducible apply keepsOpt_some | with_reducible apply keepsOpt2_some
                 | with_reducible apply keeps_foldl | with_reducible apply keeps_foldl_pair
                 | with_reducible apply keeps_foldl_triple | with_reducible apply keepsOpt_foldl
                 | (simp only [keeps_mk]; with_reducible refine Keeps.fold ?_) | with_reducible apply keeps_ite
                 | (split <;> try dsimp only) | with_reducible refine keeps_of_pair (by assumption) ?_
                 | with_reducible refine keeps_of_triple (by assumption) ?_ | with_reducible refine keeps_of_some (by assumption) ?_
                 | with_reducible refine keeps_of_some2 (by assumption) ?_)

theorem State.moveDoneIn_keeps {s0 : State} {s : State} {p : Pkt} (h0 : Keeps s0 s) :
    Keeps s0 (State.moveDoneIn s p) := by
  unfold State.moveDoneIn
  try dsimp only
  repeat' (first | with_reducible assumption | (intro _; try dsimp only) | with_reducible apply State.count_keeps
                 | with_reducible apply State.setPage_keeps | with_reducible apply State.hintOnce_keeps
                 | with_reducible apply State.pageEvent_keeps | with_reducible apply State.proposalDropped_keeps
                 | with_reducible apply State.updPage_keeps | with_reducible apply State.changedNow_keeps
                 | with_reducible apply State.holdersChanged_keeps | with_reducible apply State.sendEnd_keeps
                 | with_reducible apply State.change_keeps | (simp only [keeps_mk]; with_reducible refine Keeps.fold ?_)
                 | with_reducible apply keeps_ite | (split <;> try dsimp only)
                 | with_reducible refine keeps_of_pair (by assumption) ?_ | with_reducible refine keeps_of_triple (by assumption) ?_
                 | with_reducible refine keeps_of_some (by assumption) ?_ | with_reducible refine keeps_of_some2 (by assumption) ?_)

theorem State.homeNote_keeps {s0 : State} {s : State} {p : Pkt} (h0 : Keeps s0 s) :
    Keeps s0 (State.homeNote s p) := by
  unfold State.homeNote
  try dsimp only
  repeat' (first | with_reducible assumption | with_reducible apply State.sendCollapseDone_keeps
                 | with_reducible apply State.setPage_keeps | with_reducible apply State.change_keeps
                 | (simp only [keeps_mk]; with_reducible refine Keeps.fold ?_) | with_reducible apply keeps_ite
                 | (split <;> try dsimp only) | with_reducible refine keeps_of_pair (by assumption) ?_
                 | with_reducible refine keeps_of_triple (by assumption) ?_ | with_reducible refine keeps_of_some (by assumption) ?_
                 | with_reducible refine keeps_of_some2 (by assumption) ?_)

theorem State.propose_keeps {s0 : State} {s : State} {i kind target seq src : Nat} (h0 : Keeps s0 s) :
    Keeps s0 (State.propose s i kind target seq src) := by
  unfold State.propose
  repeat' (first | with_reducible assumption | with_reducible apply State.proposalDropped_keeps | with_reducible apply State.change_keeps
                 | with_reducible apply State.beginMove_keeps | with_reducible apply keeps_ite | (split <;> try dsimp only))

theorem State.proposeIn_keeps {s0 : State} {s : State} {p : Pkt} (h0 : Keeps s0 s) :
    Keeps s0 (State.proposeIn s p) := by
  unfold State.proposeIn
  repeat' (first | with_reducible assumption | with_reducible apply State.propose_keeps | with_reducible apply keeps_ite
                 | (split <;> try dsimp only))

theorem State.holderLost_keeps {s0 : State} {s : State} {m : Nat} (h0 : Keeps s0 s) :
    Keeps s0 (State.holderLost s m) := by
  unfold State.holderLost
  try dsimp only
  repeat' (first | with_reducible assumption | (intro _; try dsimp only) | with_reducible apply State.releaseIncoming_keeps
                 | with_reducible apply State.cancelMove_keeps | with_reducible apply State.change_keeps
                 | with_reducible exact keepsOpt_none | with_reducible exact keepsOpt2_none | with_reducible apply keepsOpt_some
                 | with_reducible apply keepsOpt2_some | with_reducible apply keeps_foldl | with_reducible apply keeps_foldl_pair
                 | with_reducible apply keeps_foldl_triple | with_reducible apply keepsOpt_foldl
                 | (simp only [keeps_mk]; with_reducible refine Keeps.fold ?_) | with_reducible apply keeps_ite
                 | (split <;> try dsimp only) | with_reducible refine keeps_of_pair (by assumption) ?_
                 | with_reducible refine keeps_of_triple (by assumption) ?_ | with_reducible refine keeps_of_some (by assumption) ?_
                 | with_reducible refine keeps_of_some2 (by assumption) ?_)

theorem State.placementReset_keeps {s0 : State} {s : State} (h0 : Keeps s0 s) :
    Keeps s0 (State.placementReset s) := by
  unfold State.placementReset
  try dsimp only
  repeat' (first | with_reducible assumption | (intro _; try dsimp only) | with_reducible apply State.stopCopy_keeps
                 | with_reducible apply State.resumePage_keeps | with_reducible apply State.releaseHeld_keeps
                 | with_reducible apply State.releaseIncoming_keeps | with_reducible apply State.cancelMove_keeps
                 | with_reducible apply State.shoot_keeps | with_reducible apply State.change_keeps
                 | with_reducible apply keeps_foldl | with_reducible apply keeps_foldl_pair
                 | with_reducible apply keeps_foldl_triple | with_reducible apply keepsOpt_foldl
                 | (simp only [keeps_mk]; with_reducible refine Keeps.fold ?_) | with_reducible apply keeps_ite
                 | (split <;> try dsimp only) | with_reducible refine keeps_of_pair (by assumption) ?_
                 | with_reducible refine keeps_of_triple (by assumption) ?_ | with_reducible refine keeps_of_some (by assumption) ?_
                 | with_reducible refine keeps_of_some2 (by assumption) ?_)

theorem State.sendPropose_keeps {s0 : State} {s : State} {key : Nat} {h : Held} {kind target : Nat} (h0 : Keeps s0 s) :
    Keeps s0 (State.sendPropose s key h kind target) := by
  unfold State.sendPropose
  repeat' (first | with_reducible assumption | with_reducible apply State.propose_keeps | with_reducible apply State.plcSend_keeps
                 | with_reducible apply State.control_keeps | with_reducible apply keeps_ite | (split <;> try dsimp only))

theorem State.decay_keeps {s0 : State} {s : State} (h0 : Keeps s0 s) :
    Keeps s0 (State.decay s) := by
  unfold State.decay
  try dsimp only
  repeat' (first | with_reducible assumption | (intro _; try dsimp only) | with_reducible apply State.sendPropose_keeps
                 | with_reducible apply State.setHeld_keeps | with_reducible apply State.heat_keeps | with_reducible apply keepsOpt_map
                 | with_reducible apply keepsOpt2_mapPair | with_reducible apply keepsOpt2_map | with_reducible apply keeps_foldl
                 | with_reducible apply keeps_foldl_pair | with_reducible apply keeps_foldl_triple
                 | (simp only [keeps_mk]; with_reducible refine Keeps.fold ?_) | with_reducible apply keeps_ite
                 | (split <;> try dsimp only) | with_reducible refine keeps_of_pair (by assumption) ?_
                 | with_reducible refine keeps_of_triple (by assumption) ?_ | with_reducible refine keeps_of_some (by assumption) ?_
                 | with_reducible refine keeps_of_some2 (by assumption) ?_)

end Sys2Proof.Machine
end

