-- ==== Sys2Proof/Laws/KeepSync.lean ====
section
/-!
SUPPORT. What the operations of Machine/Sync.lean keep.
-/

namespace Sys2Proof.Machine

set_option linter.unusedTactic false
set_option linter.unreachableTactic false
set_option linter.unusedVariables false

theorem State.testWaiter_keeps {s0 : State} {s : State} {n : Nat} {x : Waiter} (h0 : Keeps s0 s) :
    Keeps s0 (State.testWaiter s n x) := by
  unfold State.testWaiter
  try dsimp only
  repeat' (first | with_reducible assumption | with_reducible apply State.count_keeps | with_reducible apply State.setWick_keeps
                 | with_reducible apply State.opDone_keeps | with_reducible apply State.entryTest_keeps
                 | (simp only [keeps_mk]; with_reducible refine Keeps.fold ?_) | with_reducible apply keeps_ite
                 | (split <;> try dsimp only) | with_reducible refine keeps_of_pair (by assumption) ?_
                 | with_reducible refine keeps_of_triple (by assumption) ?_ | with_reducible refine keeps_of_some (by assumption) ?_
                 | with_reducible refine keeps_of_some2 (by assumption) ?_)

theorem State.testWick_keeps {s0 : State} {s : State} {n : Nat} (h0 : Keeps s0 s) :
    Keeps s0 (State.testWick s n) := by
  unfold State.testWick
  try dsimp only
  repeat' (first | with_reducible assumption | (intro _; try dsimp only) | with_reducible apply State.testWaiter_keeps
                 | with_reducible apply keeps_foldl | with_reducible apply keeps_foldl_pair | with_reducible apply keeps_foldl_triple
                 | (simp only [keeps_mk]; with_reducible refine Keeps.fold ?_) | with_reducible apply keeps_ite
                 | (split <;> try dsimp only) | with_reducible refine keeps_of_pair (by assumption) ?_
                 | with_reducible refine keeps_of_triple (by assumption) ?_ | with_reducible refine keeps_of_some (by assumption) ?_
                 | with_reducible refine keeps_of_some2 (by assumption) ?_)

theorem State.testRose_keeps {s0 : State} {s : State} (h0 : Keeps s0 s) :
    Keeps s0 (State.testRose s) := by
  unfold State.testRose
  try dsimp only
  repeat' (first | with_reducible assumption | (intro _; try dsimp only) | with_reducible apply State.testWick_keeps
                 | with_reducible apply keeps_foldl | with_reducible apply keeps_foldl_pair | with_reducible apply keeps_foldl_triple
                 | (simp only [keeps_mk]; with_reducible refine Keeps.fold ?_))

theorem State.endWaiter_keeps {s0 : State} {s : State} {n : Nat} {x : Waiter} {status detail : Nat} (h0 : Keeps s0 s) :
    Keeps s0 (State.endWaiter s n x status detail) := by
  unfold State.endWaiter
  try dsimp only
  repeat' (first | with_reducible assumption | with_reducible apply State.setWick_keeps | with_reducible apply State.opFail_keeps
                 | with_reducible apply State.cancelEntry_keeps | (simp only [keeps_mk]; with_reducible refine Keeps.fold ?_)
                 | with_reducible apply keeps_ite | (split <;> try dsimp only) | with_reducible refine keeps_of_pair (by assumption) ?_
                 | with_reducible refine keeps_of_triple (by assumption) ?_ | with_reducible refine keeps_of_some (by assumption) ?_
                 | with_reducible refine keeps_of_some2 (by assumption) ?_)

theorem State.removeWick_keeps {s0 : State} {s : State} {n status detail : Nat} (h0 : Keeps s0 s) :
    Keeps s0 (State.removeWick s n status detail) := by
  unfold State.removeWick
  try dsimp only
  repeat' (first | with_reducible assumption | (intro _; try dsimp only) | with_reducible apply State.endWaiter_keeps
                 | with_reducible apply keeps_foldl | with_reducible apply keeps_foldl_pair | with_reducible apply keeps_foldl_triple
                 | (simp only [keeps_mk]; with_reducible refine Keeps.fold ?_) | with_reducible apply keeps_ite
                 | (split <;> try dsimp only) | with_reducible refine keeps_of_pair (by assumption) ?_
                 | with_reducible refine keeps_of_triple (by assumption) ?_ | with_reducible refine keeps_of_some (by assumption) ?_
                 | with_reducible refine keeps_of_some2 (by assumption) ?_)

theorem State.wickBoundary_keeps {s0 : State} {s : State} {n : Nat} {index : Nat} {drift : Bool} (h0 : Keeps s0 s) :
    Keeps s0 (State.wickBoundary s n index drift) := by
  unfold State.wickBoundary
  try dsimp only
  repeat' (first | with_reducible assumption | (intro _; try dsimp only) | with_reducible apply State.setFlag_keeps
                 | with_reducible apply State.count_keeps | with_reducible apply State.setWick_keeps
                 | with_reducible apply State.endWaiter_keeps | with_reducible exact keepsOpt_none
                 | with_reducible exact keepsOpt2_none | with_reducible apply keepsOpt_some | with_reducible apply keepsOpt2_some
                 | with_reducible apply keeps_foldl | with_reducible apply keeps_foldl_pair
                 | with_reducible apply keeps_foldl_triple | with_reducible apply keepsOpt_foldl
                 | (simp only [keeps_mk]; with_reducible refine Keeps.fold ?_) | with_reducible apply keeps_ite
                 | (split <;> try dsimp only) | with_reducible refine keeps_of_pair (by assumption) ?_
                 | with_reducible refine keeps_of_triple (by assumption) ?_ | with_reducible refine keeps_of_some (by assumption) ?_
                 | with_reducible refine keeps_of_some2 (by assumption) ?_ | with_reducible refine keeps_of_reply (by assumption) ?_
                 | with_reducible refine keeps_of_wait (by assumption) ?_)

theorem State.wickBoundaries_keeps {s0 : State} {s : State} {p : Wick → Bool} {index : Wick → Nat} (h0 : Keeps s0 s) :
    Keeps s0 (State.wickBoundaries s p index) := by
  unfold State.wickBoundaries
  try dsimp only
  repeat' (first | with_reducible assumption | (intro _; try dsimp only) | with_reducible apply State.testWick_keeps
                 | with_reducible apply State.wickBoundary_keeps | with_reducible apply keeps_foldl
                 | with_reducible apply keeps_foldl_pair | with_reducible apply keeps_foldl_triple
                 | with_reducible apply keepsOpt_foldl | (simp only [keeps_mk]; with_reducible refine Keeps.fold ?_)
                 | with_reducible apply keeps_ite | (split <;> try dsimp only)
                 | with_reducible refine keeps_of_pair (by assumption) ?_ | with_reducible refine keeps_of_triple (by assumption) ?_
                 | with_reducible refine keeps_of_some (by assumption) ?_ | with_reducible refine keeps_of_some2 (by assumption) ?_)

theorem State.wickReindex_keeps {s0 : State} {s : State} {p : Wick → Bool} (h0 : Keeps s0 s) :
    Keeps s0 (State.wickReindex s p) := by
  unfold State.wickReindex
  try dsimp only
  repeat' (first | with_reducible assumption | with_reducible apply keepsOpt_map | with_reducible apply keepsOpt2_mapPair
                 | with_reducible apply keepsOpt2_map | (simp only [keeps_mk]; with_reducible refine Keeps.fold ?_)
                 | with_reducible apply keeps_ite | (split <;> try dsimp only))

theorem State.wickOwnerReset_keeps {s0 : State} {s : State} {inst : Nat} (h0 : Keeps s0 s) :
    Keeps s0 (State.wickOwnerReset s inst) := by
  unfold State.wickOwnerReset
  try dsimp only
  repeat' (first | with_reducible assumption | (intro _; try dsimp only) | with_reducible apply State.countN_keeps
                 | with_reducible apply State.removeWick_keeps | with_reducible apply keepsOpt_map
                 | with_reducible apply keepsOpt2_mapPair | with_reducible apply keepsOpt2_map | with_reducible apply keeps_foldl
                 | with_reducible apply keeps_foldl_pair | with_reducible apply keeps_foldl_triple | with_reducible apply keeps_getD
                 | with_reducible apply keeps_ite | (split <;> try dsimp only))

theorem State.barGo_keeps {s0 : State} {s : State} {g : Nat} (h0 : Keeps s0 s) :
    Keeps s0 (State.barGo s g) := by
  unfold State.barGo
  try dsimp only
  repeat' (first | with_reducible assumption | with_reducible apply State.setBar_keeps | with_reducible apply State.tallowBarrier_keeps
                 | with_reducible apply State.treeArrive_keeps | (simp only [keeps_mk]; with_reducible refine Keeps.fold ?_)
                 | with_reducible apply keeps_ite | (split <;> try dsimp only) | with_reducible refine keeps_of_pair (by assumption) ?_
                 | with_reducible refine keeps_of_triple (by assumption) ?_ | with_reducible refine keeps_of_some (by assumption) ?_
                 | with_reducible refine keeps_of_some2 (by assumption) ?_)

theorem State.barArrive_keeps {s0 : State} {s : State} {g wq op : Nat} (h0 : Keeps s0 s) :
    KeepsOpt s0 (State.barArrive s g wq op) := by
  unfold State.barArrive
  try dsimp only
  repeat' (first | with_reducible assumption | with_reducible apply State.setBar_keeps | with_reducible apply State.barGo_keeps
                 | with_reducible exact keepsOpt_none | with_reducible exact keepsOpt2_none | with_reducible apply keepsOpt_some
                 | with_reducible apply keepsOpt2_some | (simp only [keeps_mk]; with_reducible refine Keeps.fold ?_)
                 | with_reducible apply keeps_ite | (split <;> try dsimp only) | with_reducible refine keeps_of_pair (by assumption) ?_
                 | with_reducible refine keeps_of_triple (by assumption) ?_ | with_reducible refine keeps_of_some (by assumption) ?_
                 | with_reducible refine keeps_of_some2 (by assumption) ?_)

theorem State.barRelease_keeps {s0 : State} {s : State} {g : Nat} (h0 : Keeps s0 s) :
    Keeps s0 (State.barRelease s g) := by
  unfold State.barRelease
  try dsimp only
  repeat' (first | with_reducible assumption | (intro _; try dsimp only) | with_reducible apply State.setBar_keeps
                 | with_reducible apply State.opDone_keeps | with_reducible apply State.barGo_keeps | with_reducible apply keeps_foldl
                 | with_reducible apply keeps_foldl_pair | with_reducible apply keeps_foldl_triple
                 | (simp only [keeps_mk]; with_reducible refine Keeps.fold ?_) | with_reducible apply keeps_ite
                 | (split <;> try dsimp only) | with_reducible refine keeps_of_pair (by assumption) ?_
                 | with_reducible refine keeps_of_triple (by assumption) ?_ | with_reducible refine keeps_of_some (by assumption) ?_
                 | with_reducible refine keeps_of_some2 (by assumption) ?_)

theorem State.sendRelease_keeps {s0 : State} {s : State} {g seq partition t : Nat} (h0 : Keeps s0 s) :
    Keeps s0 (State.sendRelease s g seq partition t) := by
  unfold State.sendRelease
  repeat' (first | with_reducible assumption | with_reducible apply State.treeDown_keeps)

theorem State.barDone_keeps {s0 : State} {s : State} {g seq partition : Nat} (h0 : Keeps s0 s) :
    Keeps s0 (State.barDone s g seq partition) := by
  unfold State.barDone
  try dsimp only
  repeat' (first | with_reducible assumption | with_reducible apply State.sendRelease_keeps | with_reducible apply State.setBar_keeps
                 | with_reducible exact keepsOpt_none | with_reducible exact keepsOpt2_none | with_reducible apply keepsOpt_some
                 | with_reducible apply keepsOpt2_some | (simp only [keeps_mk]; with_reducible refine Keeps.fold ?_)
                 | with_reducible apply keeps_ite | (split <;> try dsimp only) | with_reducible refine keeps_of_pair (by assumption) ?_
                 | with_reducible refine keeps_of_triple (by assumption) ?_ | with_reducible refine keeps_of_some (by assumption) ?_
                 | with_reducible refine keeps_of_some2 (by assumption) ?_)

theorem State.barNotice_keeps {s0 : State} {s : State} {g seq : Nat} {payload : Bytes} (h0 : Keeps s0 s) :
    Keeps s0 (State.barNotice s g seq payload) := by
  unfold State.barNotice
  try dsimp only
  repeat' (first | with_reducible assumption | with_reducible apply State.barRelease_keeps | with_reducible apply State.setBar_keeps
                 | (simp only [keeps_mk]; with_reducible refine Keeps.fold ?_) | with_reducible apply keeps_ite
                 | (split <;> try dsimp only) | with_reducible refine keeps_of_pair (by assumption) ?_
                 | with_reducible refine keeps_of_triple (by assumption) ?_ | with_reducible refine keeps_of_some (by assumption) ?_
                 | with_reducible refine keeps_of_some2 (by assumption) ?_)

theorem State.barsDue_keeps {s0 : State} {s : State} {partition : Nat} (h0 : Keeps s0 s) :
    Keeps s0 (State.barsDue s partition) := by
  unfold State.barsDue
  try dsimp only
  repeat' (first | with_reducible assumption | (intro _; try dsimp only) | with_reducible apply State.barRelease_keeps
                 | with_reducible apply keepsOpt_map | with_reducible apply keepsOpt2_mapPair | with_reducible apply keepsOpt2_map
                 | with_reducible apply keeps_foldl | with_reducible apply keeps_foldl_pair | with_reducible apply keeps_foldl_triple
                 | with_reducible apply keepsOpt_bind | (simp only [keeps_mk]; with_reducible refine Keeps.fold ?_)
                 | with_reducible apply keeps_ite | (split <;> try dsimp only) | with_reducible refine keeps_of_pair (by assumption) ?_
                 | with_reducible refine keeps_of_triple (by assumption) ?_ | with_reducible refine keeps_of_some (by assumption) ?_
                 | with_reducible refine keeps_of_some2 (by assumption) ?_)

theorem State.barsSend_keeps {s0 : State} {s : State} {partition : Nat} (h0 : Keeps s0 s) :
    Keeps s0 (State.barsSend s partition) := by
  unfold State.barsSend
  try dsimp only
  repeat' (first | with_reducible assumption | (intro _; try dsimp only) | with_reducible apply State.setBar_keeps
                 | with_reducible apply State.sendRelease_keeps | with_reducible apply keepsOpt_map
                 | with_reducible apply keepsOpt2_mapPair | with_reducible apply keepsOpt2_map | with_reducible exact keepsOpt_none
                 | with_reducible exact keepsOpt2_none | with_reducible apply keepsOpt_some | with_reducible apply keepsOpt2_some
                 | with_reducible apply keeps_foldl | with_reducible apply keeps_foldl_pair | with_reducible apply keeps_foldl_triple
                 | with_reducible apply keepsOpt_bind | (simp only [keeps_mk]; with_reducible refine Keeps.fold ?_)
                 | with_reducible apply keeps_ite | (split <;> try dsimp only) | with_reducible refine keeps_of_pair (by assumption) ?_
                 | with_reducible refine keeps_of_triple (by assumption) ?_ | with_reducible refine keeps_of_some (by assumption) ?_
                 | with_reducible refine keeps_of_some2 (by assumption) ?_)

theorem State.barOwnerReset_keeps {s0 : State} {s : State} {inst : Nat} (h0 : Keeps s0 s) :
    Keeps s0 (State.barOwnerReset s inst) := by
  unfold State.barOwnerReset
  try dsimp only
  repeat' (first | with_reducible assumption | (intro _; try dsimp only) | with_reducible apply State.countN_keeps
                 | with_reducible apply State.setBar_keeps | with_reducible apply State.opFail_keeps
                 | with_reducible apply State.barGo_keeps | with_reducible apply keeps_foldl | with_reducible apply keeps_foldl_pair
                 | with_reducible apply keeps_foldl_triple | (simp only [keeps_mk]; with_reducible refine Keeps.fold ?_)
                 | with_reducible apply keeps_ite | (split <;> try dsimp only) | with_reducible refine keeps_of_pair (by assumption) ?_
                 | with_reducible refine keeps_of_triple (by assumption) ?_ | with_reducible refine keeps_of_some (by assumption) ?_
                 | with_reducible refine keeps_of_some2 (by assumption) ?_)

theorem State.removeCadence_keeps {s0 : State} {s : State} {partition : Nat} (h0 : Keeps s0 s) :
    Keeps s0 (State.removeCadence s partition) := by
  unfold State.removeCadence
  try dsimp only
  repeat' (first | with_reducible assumption | (intro _; try dsimp only) | with_reducible apply State.wickReindex_keeps
                 | (simp only [keeps_mk]; with_reducible refine Keeps.fold ?_))

theorem State.cadenceBoundary_keeps {s0 : State} {s : State} {partition : Nat} (h0 : Keeps s0 s) :
    Keeps s0 (State.cadenceBoundary s partition) := by
  unfold State.cadenceBoundary
  try dsimp only
  repeat' (first | with_reducible assumption | (intro _; try dsimp only) | with_reducible apply State.barsDue_keeps
                 | with_reducible apply State.setFlag_keeps | with_reducible apply State.countN_keeps
                 | with_reducible apply State.barsSend_keeps | with_reducible apply State.wickBoundaries_keeps
                 | with_reducible apply State.opDone_keeps | with_reducible apply State.count_keeps | with_reducible apply keeps_foldl
                 | with_reducible apply keeps_foldl_pair | with_reducible apply keeps_foldl_triple
                 | (simp only [keeps_mk]; with_reducible refine Keeps.fold ?_) | with_reducible apply keeps_ite
                 | (split <;> try dsimp only) | with_reducible refine keeps_of_pair (by assumption) ?_
                 | with_reducible refine keeps_of_triple (by assumption) ?_ | with_reducible refine keeps_of_some (by assumption) ?_
                 | with_reducible refine keeps_of_some2 (by assumption) ?_)

theorem State.setMbx_keeps {s0 : State} {s : State} {child : Nat} {down : Bool} {x : MbxSlot} (h0 : Keeps s0 s) :
    Keeps s0 (State.setMbx s child down x) := by
  unfold State.setMbx
  try dsimp only
  repeat' (first | with_reducible assumption | (simp only [keeps_mk]; with_reducible refine Keeps.fold ?_))

theorem State.mbxArrived_keeps {s0 : State} {s : State} {child : Nat} {down : Bool} (h0 : Keeps s0 s) :
    Keeps s0 (State.mbxArrived s child down) := by
  unfold State.mbxArrived
  try dsimp only
  repeat' (first | with_reducible assumption | with_reducible apply State.raise_keeps)

theorem State.mbxSend_keeps {s0 : State} {s : State} {child : Nat} {down : Bool} {message tag : Nat} {notify : Bool} (h0 : Keeps s0 s) :
    Keeps s0 (State.mbxSend s child down message tag notify) := by
  unfold State.mbxSend
  try dsimp only
  repeat' (first | with_reducible assumption | with_reducible apply State.countOf_keeps | with_reducible apply State.setMbx_keeps
                 | with_reducible apply State.notify_keeps | with_reducible apply State.mbxArrived_keeps | with_reducible apply keeps_ite
                 | (split <;> try dsimp only))

theorem State.mbxRead_keeps {s0 : State} {s : State} {child : Nat} {down : Bool} (h0 : Keeps s0 s) :
    Keeps s0 (State.mbxRead s child down) := by
  unfold State.mbxRead
  try dsimp only
  repeat' (first | with_reducible assumption | with_reducible apply State.setMbx_keeps | with_reducible apply State.notify_keeps
                 | with_reducible apply State.raise_keeps | (simp only [keeps_mk]; with_reducible refine Keeps.fold ?_)
                 | with_reducible apply keeps_ite | (split <;> try dsimp only))

theorem State.mbxNewQueue_keeps {s0 : State} {s : State} {inst : Nat} (h0 : Keeps s0 s) :
    Keeps s0 (State.mbxNewQueue s inst) := by
  unfold State.mbxNewQueue
  try dsimp only
  repeat' (first | with_reducible assumption | (intro _; try dsimp only) | with_reducible apply State.mbxArrived_keeps
                 | with_reducible apply keeps_foldl | with_reducible apply keeps_foldl_pair | with_reducible apply keeps_foldl_triple
                 | with_reducible apply keeps_ite | (split <;> try dsimp only))

theorem State.mbxClear_keeps {s0 : State} {s : State} {inst : Nat} (h0 : Keeps s0 s) :
    Keeps s0 (State.mbxClear s inst) := by
  unfold State.mbxClear
  try dsimp only
  repeat' (first | with_reducible assumption | (simp only [keeps_mk]; with_reducible refine Keeps.fold ?_))

end Sys2Proof.Machine
end

