-- ==== Sys2Proof/Laws/KeepQueueCmds.lean ====
section
/-!
SUPPORT. What the operations of Machine/QueueCmds.lean keep.
-/

namespace Sys2Proof.Machine

set_option linter.unusedTactic false
set_option linter.unreachableTactic false
set_option linter.unusedVariables false

theorem State.createWq_keeps {s0 : State} {s : State} {n ring log2 c : Nat} (h0 : Keeps s0 s) :
    KeepsAdm s0 (State.createWq s n ring log2 c) := by
  unfold State.createWq
  try dsimp only
  repeat' (first | with_reducible assumption | with_reducible apply State.drawn_keeps | with_reducible apply State.setWq_keeps
                 | with_reducible apply keepsAdm_ok | with_reducible apply keepsAdm_fail | with_reducible apply keepsAdm_field
                 | with_reducible apply keeps_getD | (simp only [keeps_mk]; with_reducible refine Keeps.fold ?_)
                 | with_reducible apply keeps_ite | (split <;> try dsimp only) | with_reducible refine keeps_of_pair (by assumption) ?_
                 | with_reducible refine keeps_of_triple (by assumption) ?_ | with_reducible refine keeps_of_some (by assumption) ?_
                 | with_reducible refine keeps_of_some2 (by assumption) ?_)

theorem State.createCq_keeps {s0 : State} {s : State} {n ring log2 lantern : Nat} (h0 : Keeps s0 s) :
    KeepsAdm s0 (State.createCq s n ring log2 lantern) := by
  unfold State.createCq
  try dsimp only
  repeat' (first | with_reducible assumption | (intro _; try dsimp only) | with_reducible apply State.drawn_keeps
                 | with_reducible apply State.setCq_keeps | with_reducible apply keepsAdm_ok | with_reducible apply keepsAdm_fail
                 | with_reducible apply keepsAdm_field | (simp only [keeps_mk]; with_reducible refine Keeps.fold ?_)
                 | with_reducible apply keeps_ite | (split <;> try dsimp only) | with_reducible refine keeps_of_pair (by assumption) ?_
                 | with_reducible refine keeps_of_triple (by assumption) ?_ | with_reducible refine keeps_of_some (by assumption) ?_
                 | with_reducible refine keeps_of_some2 (by assumption) ?_)

theorem State.createLq_keeps {s0 : State} {s : State} {n ring log2 vector dflt : Nat} (h0 : Keeps s0 s) :
    KeepsAdm s0 (State.createLq s n ring log2 vector dflt) := by
  unfold State.createLq
  try dsimp only
  repeat' (first | with_reducible assumption | (intro _; try dsimp only) | with_reducible apply State.drawn_keeps
                 | with_reducible apply State.setLq_keeps | with_reducible apply State.updInst_keeps
                 | with_reducible apply State.mbxNewQueue_keeps | with_reducible apply keepsAdm_ok | with_reducible apply keepsAdm_fail
                 | with_reducible apply keepsAdm_field | (simp only [keeps_mk]; with_reducible refine Keeps.fold ?_)
                 | with_reducible apply keeps_ite | (split <;> try dsimp only) | with_reducible refine keeps_of_pair (by assumption) ?_
                 | with_reducible refine keeps_of_triple (by assumption) ?_ | with_reducible refine keeps_of_some (by assumption) ?_
                 | with_reducible refine keeps_of_some2 (by assumption) ?_)

theorem State.retireWqGen_keeps {s0 : State} {s : State} {n gen : Nat} (h0 : Keeps s0 s) :
    Keeps s0 (State.retireWqGen s n gen) := by
  unfold State.retireWqGen
  try dsimp only
  repeat' (first | with_reducible assumption | (simp only [keeps_mk]; with_reducible refine Keeps.fold ?_))

theorem State.removeWq_keeps {s0 : State} {s : State} {n : Nat} (h0 : Keeps s0 s) :
    Keeps s0 (State.removeWq s n) := by
  unfold State.removeWq
  try dsimp only
  repeat' (first | with_reducible assumption | (intro _; try dsimp only) | with_reducible apply State.retireWqGen_keeps
                 | with_reducible apply State.disown_keeps | with_reducible apply keepsOpt_map | with_reducible apply keepsOpt2_mapPair
                 | with_reducible apply keepsOpt2_map | (simp only [keeps_mk]; with_reducible refine Keeps.fold ?_)
                 | with_reducible apply keeps_ite | (split <;> try dsimp only) | with_reducible refine keeps_of_pair (by assumption) ?_
                 | with_reducible refine keeps_of_triple (by assumption) ?_ | with_reducible refine keeps_of_some (by assumption) ?_
                 | with_reducible refine keeps_of_some2 (by assumption) ?_)

theorem State.removeCq_keeps {s0 : State} {s : State} {c : Nat} (h0 : Keeps s0 s) :
    Keeps s0 (State.removeCq s c) := by
  unfold State.removeCq
  try dsimp only
  repeat' (first | with_reducible assumption | (intro _; try dsimp only) | with_reducible apply State.raiseAll_keeps
                 | with_reducible apply State.gutter_keeps | with_reducible apply keeps_foldl
                 | with_reducible apply keeps_foldl_pair | with_reducible apply keeps_foldl_triple
                 | with_reducible apply keepsOpt_foldl | (simp only [keeps_mk]; with_reducible refine Keeps.fold ?_)
                 | with_reducible apply keeps_ite | (split <;> try dsimp only)
                 | with_reducible refine keeps_of_pair (by assumption) ?_ | with_reducible refine keeps_of_triple (by assumption) ?_
                 | with_reducible refine keeps_of_some (by assumption) ?_ | with_reducible refine keeps_of_some2 (by assumption) ?_)

theorem State.removeLq_keeps {s0 : State} {s : State} {l : Nat} (h0 : Keeps s0 s) :
    Keeps s0 (State.removeLq s l) := by
  unfold State.removeLq
  try dsimp only
  repeat' (first | with_reducible assumption | (intro _; try dsimp only) | with_reducible apply State.updInst_keeps
                 | with_reducible apply State.countN_keeps | (simp only [keeps_mk]; with_reducible refine Keeps.fold ?_)
                 | with_reducible apply keeps_ite | (split <;> try dsimp only) | with_reducible refine keeps_of_pair (by assumption) ?_
                 | with_reducible refine keeps_of_triple (by assumption) ?_ | with_reducible refine keeps_of_some (by assumption) ?_
                 | with_reducible refine keeps_of_some2 (by assumption) ?_)

theorem State.ownLq_keeps {s0 : State} {s : State} {fn n : Nat} {f : Lq → State → State} (h0 : Keeps s0 s) (h1 : ∀ l t, Keeps s0 t → Keeps s0 (f l t)) :
    Keeps s0 (State.ownLq s fn n f) := by
  unfold State.ownLq
  try dsimp only
  repeat' (first | with_reducible assumption | (intro _; try dsimp only) | with_reducible apply h1
                 | with_reducible apply State.count_keeps | (simp only [keeps_mk]; with_reducible refine Keeps.fold ?_)
                 | with_reducible apply keeps_ite | (split <;> try dsimp only) | with_reducible refine keeps_of_pair (by assumption) ?_
                 | with_reducible refine keeps_of_triple (by assumption) ?_ | with_reducible refine keeps_of_some (by assumption) ?_
                 | with_reducible refine keeps_of_some2 (by assumption) ?_)

end Sys2Proof.Machine
end

