-- ==== Sys2Proof/Laws/KeepRevoke.lean ====
section
/-!
SUPPORT. What the operations of Machine/Revoke.lean keep.
-/

namespace Sys2Proof.Machine

set_option linter.unusedTactic false
set_option linter.unreachableTactic false
set_option linter.unusedVariables false

theorem State.setSky_keeps {s0 : State} {s : State} {i : Nat} {k : Sky} (h0 : Keeps s0 s) :
    Keeps s0 (State.setSky s i k) := by
  unfold State.setSky
  try dsimp only
  repeat' (first | with_reducible assumption | (simp only [keeps_mk]; with_reducible refine Keeps.fold ?_))

theorem State.nextRevoke_keeps {s0 : State} {s : State} (h0 : Keeps s0 s) :
    Keeps s0 (State.nextRevoke s) := by
  unfold State.nextRevoke
  try dsimp only
  repeat' (first | with_reducible assumption | (simp only [keeps_mk]; with_reducible refine Keeps.fold ?_))

theorem State.beginRevoke_keeps {s0 : State} {s : State} {i : Nat} {k : Sky} {waiting : List (Nat × Nat)} (h0 : Keeps s0 s) :
    Keeps s0 (State.beginRevoke s i k waiting) := by
  unfold State.beginRevoke
  try dsimp only
  repeat' (first | with_reducible assumption | with_reducible apply State.nextRevoke_keeps | with_reducible apply State.setSky_keeps
                 | with_reducible apply State.treeStart_keeps | (simp only [keeps_mk]; with_reducible refine Keeps.fold ?_))

theorem State.addDrain_keeps {s0 : State} {s : State} {d : Drain} (h0 : Keeps s0 s) :
    Keeps s0 (State.addDrain s d) := by
  unfold State.addDrain
  try dsimp only
  repeat' (first | with_reducible assumption | (simp only [keeps_mk]; with_reducible refine Keeps.fold ?_)
                 | with_reducible apply keeps_ite | (split <;> try dsimp only))

theorem State.revokeNotice_keeps {s0 : State} {s : State} {root key seq partition : Nat} (h0 : Keeps s0 s) :
    Keeps s0 (State.revokeNotice s root key seq partition) := by
  unfold State.revokeNotice
  try dsimp only
  repeat' (first | with_reducible assumption | (intro _; try dsimp only) | with_reducible apply State.addDrain_keeps
                 | with_reducible apply State.cancelOperands_keeps | (simp only [keeps_mk]; with_reducible refine Keeps.fold ?_)
                 | with_reducible apply keeps_ite | (split <;> try dsimp only))

theorem State.revokeDone_keeps {s0 : State} {s : State} {key : Nat} (h0 : Keeps s0 s) :
    Keeps s0 (State.revokeDone s key) := by
  unfold State.revokeDone
  try dsimp only
  repeat' (first | with_reducible assumption | (intro _; try dsimp only) | with_reducible apply State.nextRevoke_keeps
                 | with_reducible apply State.setSky_keeps | with_reducible apply State.reply_keeps
                 | with_reducible apply State.admStopped_keeps | with_reducible apply keeps_foldl | with_reducible apply keeps_foldl_pair
                 | with_reducible apply keeps_foldl_triple | (simp only [keeps_mk]; with_reducible refine Keeps.fold ?_)
                 | with_reducible apply keeps_ite | (split <;> try dsimp only) | with_reducible refine keeps_of_pair (by assumption) ?_
                 | with_reducible refine keeps_of_triple (by assumption) ?_ | with_reducible refine keeps_of_some (by assumption) ?_
                 | with_reducible refine keeps_of_some2 (by assumption) ?_ | with_reducible refine keeps_of_reply (by assumption) ?_
                 | with_reducible refine keeps_of_wait (by assumption) ?_)

theorem State.freeNotice_keeps {s0 : State} {s : State} {root first count seq partition : Nat} (h0 : Keeps s0 s) :
    Keeps s0 (State.freeNotice s root first count seq partition) := by
  unfold State.freeNotice
  try dsimp only
  repeat' (first | with_reducible assumption | (intro _; try dsimp only) | with_reducible apply State.addDrain_keeps
                 | with_reducible apply State.count_keeps | with_reducible apply State.cancelOperands_keeps)

theorem State.forgetPages_keeps {s0 : State} {s : State} {home : Nat} {first : Nat} {count : Nat} (h0 : Keeps s0 s) :
    Keeps s0 (State.forgetPages s home first count) := by
  unfold State.forgetPages
  try dsimp only
  repeat' (first | with_reducible assumption | (intro _; try dsimp only) | with_reducible apply State.count_keeps
                 | (simp only [keeps_mk]; with_reducible refine Keeps.fold ?_) | with_reducible apply keeps_ite)

theorem State.dropPage_keeps {s0 : State} {s : State} {key : Nat} (h0 : Keeps s0 s) :
    Keeps s0 (State.dropPage s key) := by
  unfold State.dropPage
  try dsimp only
  repeat' (first | with_reducible assumption | (intro _; try dsimp only) | with_reducible apply State.releaseHeld_keeps
                 | with_reducible apply State.releaseIncoming_keeps | with_reducible apply State.forgetPages_keeps
                 | (simp only [keeps_mk]; with_reducible refine Keeps.fold ?_) | with_reducible apply keeps_ite)

theorem State.drainDone_keeps {s0 : State} {s : State} {kind : Nat} {root : Nat} {tree : Nat} (h0 : Keeps s0 s) :
    Keeps s0 (State.drainDone s kind root tree) := by
  unfold State.drainDone
  try dsimp only
  repeat' (first | with_reducible assumption | (intro _; try dsimp only) | with_reducible apply State.count_keeps
                 | with_reducible apply State.treeArrive_keeps | with_reducible apply State.forgetPages_keeps
                 | with_reducible apply State.dropPage_keeps | with_reducible exact keepsOpt_none
                 | with_reducible exact keepsOpt2_none | with_reducible apply keepsOpt_some | with_reducible apply keepsOpt2_some
                 | with_reducible apply keepsOpt_map | with_reducible apply keepsOpt2_mapPair | with_reducible apply keepsOpt2_map
                 | with_reducible apply keeps_foldl | with_reducible apply keeps_foldl_pair
                 | with_reducible apply keeps_foldl_triple | with_reducible apply keepsOpt_foldl
                 | (simp only [keeps_mk]; with_reducible refine Keeps.fold ?_) | with_reducible apply keeps_ite
                 | (split <;> try dsimp only) | with_reducible refine keeps_of_pair (by assumption) ?_
                 | with_reducible refine keeps_of_triple (by assumption) ?_ | with_reducible refine keeps_of_some (by assumption) ?_
                 | with_reducible refine keeps_of_some2 (by assumption) ?_)

theorem State.deletePage_keeps {s0 : State} {s : State} {i : Nat} (h0 : Keeps s0 s) :
    Keeps s0 (State.deletePage s i) := by
  unfold State.deletePage
  try dsimp only
  repeat' (first | with_reducible assumption | (intro _; try dsimp only) | with_reducible apply State.dropPage_keeps
                 | with_reducible apply State.freeFrame_keeps | with_reducible apply State.resumePage_keeps
                 | (simp only [keeps_mk]; with_reducible refine Keeps.fold ?_) | with_reducible apply keeps_ite
                 | (split <;> try dsimp only) | with_reducible refine keeps_of_pair (by assumption) ?_
                 | with_reducible refine keeps_of_triple (by assumption) ?_ | with_reducible refine keeps_of_some (by assumption) ?_
                 | with_reducible refine keeps_of_some2 (by assumption) ?_)

theorem State.beginFree_keeps {s0 : State} {s : State} {p k first count : Nat} (h0 : Keeps s0 s) :
    Keeps s0 (State.beginFree s p k first count) := by
  unfold State.beginFree
  try dsimp only
  repeat' (first | with_reducible assumption | (intro _; try dsimp only) | with_reducible apply State.count_keeps
                 | with_reducible apply State.cancelMove_keeps | with_reducible apply State.updPage_keeps
                 | with_reducible apply State.nextRevoke_keeps | with_reducible apply State.treeStart_keeps
                 | with_reducible apply keepsOpt_map | with_reducible apply keepsOpt2_mapPair | with_reducible apply keepsOpt2_map
                 | with_reducible apply keeps_foldl | with_reducible apply keeps_foldl_pair | with_reducible apply keeps_foldl_triple
                 | with_reducible apply keeps_getD | (simp only [keeps_mk]; with_reducible refine Keeps.fold ?_)
                 | with_reducible apply keeps_ite | (split <;> try dsimp only))

theorem State.freeDone_keeps {s0 : State} {s : State} {first seq : Nat} (h0 : Keeps s0 s) :
    Keeps s0 (State.freeDone s first seq) := by
  unfold State.freeDone
  try dsimp only
  repeat' (first | with_reducible assumption | (intro _; try dsimp only) | with_reducible apply State.count_keeps
                 | with_reducible apply State.deletePage_keeps | with_reducible apply State.reply_keeps
                 | with_reducible apply State.admStopped_keeps | with_reducible apply keeps_foldl | with_reducible apply keeps_foldl_pair
                 | with_reducible apply keeps_foldl_triple | (simp only [keeps_mk]; with_reducible refine Keeps.fold ?_)
                 | with_reducible apply keeps_ite | (split <;> try dsimp only) | with_reducible refine keeps_of_pair (by assumption) ?_
                 | with_reducible refine keeps_of_triple (by assumption) ?_ | with_reducible refine keeps_of_some (by assumption) ?_
                 | with_reducible refine keeps_of_some2 (by assumption) ?_ | with_reducible refine keeps_of_reply (by assumption) ?_
                 | with_reducible refine keeps_of_wait (by assumption) ?_)

end Sys2Proof.Machine
end

