-- ==== Sys2Proof/Laws/KeepTables.lean ====
section
/-!
SUPPORT. What the operations of Machine/Tables.lean keep.
-/

namespace Sys2Proof.Machine

set_option linter.unusedTactic false
set_option linter.unreachableTactic false
set_option linter.unusedVariables false

theorem State.placePfTable_keeps {s0 : State} {s : State} {n : Nat} {tables : SMap Nat} {key : Nat} (h0 : Keeps s0 s) :
    KeepsOpt2 s0 (State.placePfTable s n tables key) := by
  unfold State.placePfTable
  try dsimp only
  repeat' (first | with_reducible assumption | (intro _; try dsimp only) | with_reducible apply State.place_keeps
                 | with_reducible apply State.takeFrame_keeps | with_reducible apply keepsOpt_map | with_reducible apply keepsOpt2_mapPair
                 | with_reducible apply keepsOpt2_map | with_reducible exact keepsOpt_none | with_reducible exact keepsOpt2_none
                 | with_reducible apply keepsOpt_some | with_reducible apply keepsOpt2_some
                 | (simp only [keeps_mk]; with_reducible refine Keeps.fold ?_) | with_reducible apply keeps_ite
                 | (split <;> try dsimp only) | with_reducible refine keeps_of_pair (by assumption) ?_
                 | with_reducible refine keeps_of_triple (by assumption) ?_ | with_reducible refine keeps_of_some (by assumption) ?_
                 | with_reducible refine keeps_of_some2 (by assumption) ?_)

theorem State.placeTables_keeps {s0 : State} {s : State} {n : Nat} {i : Inst} {maps : SMap Leaf} {fuel : List Nat} {y1 : SMap Nat} (h0 : Keeps s0 s) :
    KeepsOpt2 s0 (State.placeTables s n i maps fuel y1) := by
  induction fuel generalizing s n i maps y1 with
  | nil =>
    unfold State.placeTables
    try dsimp only
    repeat' (first | with_reducible assumption | with_reducible apply State.placePfTable_keeps | with_reducible exact keepsOpt_none
                   | with_reducible exact keepsOpt2_none | with_reducible apply keepsOpt_some | with_reducible apply keepsOpt2_some
                   | (simp only [keeps_mk]; with_reducible refine Keeps.fold ?_) | with_reducible apply keeps_ite
                   | (split <;> try dsimp only) | with_reducible refine keeps_of_pair (by assumption) ?_
                   | with_reducible refine keeps_of_triple (by assumption) ?_ | with_reducible refine keeps_of_some (by assumption) ?_
                   | with_reducible refine keeps_of_some2 (by assumption) ?_)
  | cons _ _ ih =>
    unfold State.placeTables
    try dsimp only
    repeat' (first | with_reducible assumption
                   | with_reducible apply ih | with_reducible apply State.placePfTable_keeps | with_reducible exact keepsOpt_none
                   | with_reducible exact keepsOpt2_none | with_reducible apply keepsOpt_some | with_reducible apply keepsOpt2_some
                   | (simp only [keeps_mk]; with_reducible refine Keeps.fold ?_) | with_reducible apply keeps_ite
                   | (split <;> try dsimp only) | with_reducible refine keeps_of_pair (by assumption) ?_
                   | with_reducible refine keeps_of_triple (by assumption) ?_ | with_reducible refine keeps_of_some (by assumption) ?_
                   | with_reducible refine keeps_of_some2 (by assumption) ?_)

theorem State.setMaps_keeps {s0 : State} {s : State} {n : Nat} {i : Inst} {maps : SMap Leaf} {tables : SMap Nat} (h0 : Keeps s0 s) :
    Keeps s0 (State.setMaps s n i maps tables) := by
  unfold State.setMaps
  try dsimp only
  repeat' (first | with_reducible assumption | (intro _; try dsimp only) | with_reducible apply State.setInst_keeps
                 | with_reducible apply State.hbmWrite_keeps | with_reducible apply keepsOpt_map | with_reducible apply keepsOpt2_mapPair
                 | with_reducible apply keepsOpt2_map | with_reducible apply keeps_foldl | with_reducible apply keeps_foldl_pair
                 | with_reducible apply keeps_foldl_triple | (simp only [keeps_mk]; with_reducible refine Keeps.fold ?_)
                 | with_reducible apply keeps_ite | (split <;> try dsimp only))

theorem State.clearMaps_keeps {s0 : State} {s : State} {n : Nat} (h0 : Keeps s0 s) :
    Keeps s0 (State.clearMaps s n) := by
  unfold State.clearMaps
  try dsimp only
  repeat' (first | with_reducible assumption | (intro _; try dsimp only) | with_reducible apply State.setMaps_keeps
                 | (simp only [keeps_mk]; with_reducible refine Keeps.fold ?_) | with_reducible apply keeps_ite
                 | (split <;> try dsimp only) | with_reducible refine keeps_of_pair (by assumption) ?_
                 | with_reducible refine keeps_of_triple (by assumption) ?_ | with_reducible refine keeps_of_some (by assumption) ?_
                 | with_reducible refine keeps_of_some2 (by assumption) ?_)

theorem State.takeNamed_keeps {s0 : State} {s : State} {n : Nat} {fs : List Nat} (h0 : Keeps s0 s) :
    Keeps s0 (State.takeNamed s n fs) := by
  unfold State.takeNamed
  try dsimp only
  repeat' (first | with_reducible assumption | (intro _; try dsimp only) | with_reducible apply keeps_foldl
                 | with_reducible apply keeps_foldl_pair | with_reducible apply keeps_foldl_triple
                 | (simp only [keeps_mk]; with_reducible refine Keeps.fold ?_))

theorem State.giveRoot_keeps {s0 : State} {s : State} {n : Nat} (h0 : Keeps s0 s) :
    Keeps s0 (State.giveRoot s n) := by
  unfold State.giveRoot
  try dsimp only
  repeat' (first | with_reducible assumption | with_reducible apply State.placeTables_keeps | with_reducible apply State.setMaps_keeps
                 | (simp only [keeps_mk]; with_reducible refine Keeps.fold ?_) | with_reducible apply keeps_ite
                 | (split <;> try dsimp only) | with_reducible refine keeps_of_pair (by assumption) ?_
                 | with_reducible refine keeps_of_triple (by assumption) ?_ | with_reducible refine keeps_of_some (by assumption) ?_
                 | with_reducible refine keeps_of_some2 (by assumption) ?_)

end Sys2Proof.Machine
end

