-- ==== Sys2Proof/Laws/KeepReset.lean ====
section
/-!
SUPPORT. What the operations of Machine/Reset.lean keep.
-/

namespace Sys2Proof.Machine

set_option linter.unusedTactic false
set_option linter.unreachableTactic false
set_option linter.unusedVariables false

theorem judgeAll_keeps {s0 : State} {n : Nat} {fuel : Nat} {y1 : State} (h0 : Keeps s0 y1) :
    Keeps s0 (judgeAll n fuel y1) := by
  induction fuel generalizing n y1 with
  | zero =>
    unfold judgeAll
    try dsimp only
    repeat' (first | with_reducible assumption | with_reducible apply State.judge_keeps
                   | (simp only [keeps_mk]; with_reducible refine Keeps.fold ?_) | with_reducible apply keeps_ite
                   | (split <;> try dsimp only) | with_reducible refine keeps_of_pair (by assumption) ?_
                   | with_reducible refine keeps_of_triple (by assumption) ?_ | with_reducible refine keeps_of_some (by assumption) ?_
                   | with_reducible refine keeps_of_some2 (by assumption) ?_)
  | succ _ ih =>
    unfold judgeAll
    try dsimp only
    repeat' (first | with_reducible assumption
                   | with_reducible apply ih | with_reducible apply State.judge_keeps
                   | (simp only [keeps_mk]; with_reducible refine Keeps.fold ?_) | with_reducible apply keeps_ite
                   | (split <;> try dsimp only) | with_reducible refine keeps_of_pair (by assumption) ?_
                   | with_reducible refine keeps_of_triple (by assumption) ?_ | with_reducible refine keeps_of_some (by assumption) ?_
                   | with_reducible refine keeps_of_some2 (by assumption) ?_)

theorem State.snuffOp_keeps {s0 : State} {s : State} {n : Nat} {id : Nat} {status : Nat} {detail : Nat} (h0 : Keeps s0 s) :
    Keeps s0 (State.snuffOp s n id status detail) := by
  unfold State.snuffOp
  try dsimp only
  repeat' (first | with_reducible assumption | (intro _; try dsimp only) | with_reducible apply State.opDone_keeps
                 | with_reducible apply State.dropWaits_keeps | with_reducible apply State.collAbort_keeps
                 | with_reducible apply State.abortUnposted_keeps | with_reducible apply State.cancelLaunches_keeps
                 | with_reducible exact keepsOpt_none | with_reducible exact keepsOpt2_none | with_reducible apply keepsOpt_some
                 | with_reducible apply keepsOpt2_some | with_reducible apply keepsOpt_bind | with_reducible apply keepsOpt_map
                 | with_reducible apply keepsOpt2_mapPair | with_reducible apply keepsOpt2_map
                 | (simp only [keeps_mk]; with_reducible refine Keeps.fold ?_) | with_reducible apply keeps_ite
                 | (split <;> try dsimp only) | with_reducible refine keeps_of_pair (by assumption) ?_
                 | with_reducible refine keeps_of_triple (by assumption) ?_ | with_reducible refine keeps_of_some (by assumption) ?_
                 | with_reducible refine keeps_of_some2 (by assumption) ?_)

theorem State.snuffEnd_keeps {s0 : State} {s : State} {n : Nat} (h0 : Keeps s0 s) :
    Keeps s0 (State.snuffEnd s n) := by
  unfold State.snuffEnd
  try dsimp only
  repeat' (first | with_reducible assumption | (intro _; try dsimp only) | with_reducible apply State.setWq_keeps
                 | with_reducible apply State.reply_keeps | with_reducible apply State.admStopped_keeps
                 | with_reducible apply State.wqError_keeps | with_reducible apply keepsOpt_map | with_reducible apply keepsOpt2_mapPair
                 | with_reducible apply keepsOpt2_map | with_reducible apply keeps_foldl | with_reducible apply keeps_foldl_pair
                 | with_reducible apply keeps_foldl_triple | (simp only [keeps_mk]; with_reducible refine Keeps.fold ?_)
                 | with_reducible apply keeps_ite | (split <;> try dsimp only) | with_reducible refine keeps_of_pair (by assumption) ?_
                 | with_reducible refine keeps_of_triple (by assumption) ?_ | with_reducible refine keeps_of_some (by assumption) ?_
                 | with_reducible refine keeps_of_some2 (by assumption) ?_ | with_reducible refine keeps_of_reply (by assumption) ?_
                 | with_reducible refine keeps_of_wait (by assumption) ?_)

theorem State.fetchedPart_keeps {s0 : State} {s : State} {n : Nat} (h0 : Keeps s0 s) :
    Keeps s0 (State.fetchedPart s n) := by
  unfold State.fetchedPart
  try dsimp only
  repeat' (first | with_reducible assumption | (intro _; try dsimp only) | with_reducible apply State.setWq_keeps
                 | (simp only [keeps_mk]; with_reducible refine Keeps.fold ?_) | with_reducible apply keeps_ite
                 | (split <;> try dsimp only) | with_reducible refine keeps_of_pair (by assumption) ?_
                 | with_reducible refine keeps_of_triple (by assumption) ?_ | with_reducible refine keeps_of_some (by assumption) ?_
                 | with_reducible refine keeps_of_some2 (by assumption) ?_)

theorem State.snuff_keeps {s0 : State} {s : State} {n : Nat} {status : Nat} {detail : Nat} (h0 : Keeps s0 s) :
    Keeps s0 (State.snuff s n status detail) := by
  unfold State.snuff
  try dsimp only
  repeat' (first | with_reducible assumption | (intro _; try dsimp only) | with_reducible apply State.setWq_keeps
                 | with_reducible apply State.updWq_keeps | with_reducible apply State.retire_keeps
                 | with_reducible apply State.doorbell_keeps | with_reducible apply State.retireWqGen_keeps
                 | with_reducible apply judgeAll_keeps | with_reducible apply State.snuffOp_keeps
                 | with_reducible apply State.snuffEnd_keeps | with_reducible apply State.fetchedPart_keeps
                 | with_reducible apply keepsOpt_map | with_reducible apply keepsOpt2_mapPair | with_reducible apply keepsOpt2_map
                 | with_reducible apply keeps_foldl | with_reducible apply keeps_foldl_pair
                 | with_reducible apply keeps_foldl_triple | with_reducible apply keepsOpt_foldl
                 | (simp only [keeps_mk]; with_reducible refine Keeps.fold ?_) | with_reducible apply keeps_ite
                 | (split <;> try dsimp only) | with_reducible refine keeps_of_pair (by assumption) ?_
                 | with_reducible refine keeps_of_triple (by assumption) ?_ | with_reducible refine keeps_of_some (by assumption) ?_
                 | with_reducible refine keeps_of_some2 (by assumption) ?_)

theorem State.ownWaits_keeps {s0 : State} {s : State} {n : Nat} (h0 : Keeps s0 s) :
    Keeps s0 (State.ownWaits s n) := by
  unfold State.ownWaits
  try dsimp only
  repeat' (first | with_reducible assumption | (intro _; try dsimp only) | with_reducible apply State.gutter_keeps
                 | with_reducible apply State.countN_keeps | with_reducible apply keepsOpt_map | with_reducible apply keepsOpt2_mapPair
                 | with_reducible apply keepsOpt2_map | with_reducible apply keeps_foldl | with_reducible apply keeps_foldl_pair
                 | with_reducible apply keeps_foldl_triple | (simp only [keeps_mk]; with_reducible refine Keeps.fold ?_)
                 | with_reducible apply keeps_ite | (split <;> try dsimp only) | with_reducible refine keeps_of_pair (by assumption) ?_
                 | with_reducible refine keeps_of_triple (by assumption) ?_ | with_reducible refine keeps_of_some (by assumption) ?_
                 | with_reducible refine keeps_of_some2 (by assumption) ?_)

theorem State.dropWq_keeps {s0 : State} {s : State} {n : Nat} (h0 : Keeps s0 s) :
    Keeps s0 (State.dropWq s n) := by
  unfold State.dropWq
  try dsimp only
  repeat' (first | with_reducible assumption | (intro _; try dsimp only) | with_reducible apply State.raiseAll_keeps
                 | with_reducible apply State.updWq_keeps | with_reducible apply State.admStopped_keeps
                 | with_reducible apply State.reply_keeps | with_reducible apply State.dropWaits_keeps
                 | with_reducible apply State.sendAbort_keeps | with_reducible apply State.dropColl_keeps
                 | with_reducible apply State.abortUnposted_keeps | with_reducible apply State.retireWqGen_keeps
                 | with_reducible apply State.removeWq_keeps | with_reducible apply keeps_foldl
                 | with_reducible apply keeps_foldl_pair | with_reducible apply keeps_foldl_triple
                 | with_reducible apply keepsOpt_foldl | (simp only [keeps_mk]; with_reducible refine Keeps.fold ?_)
                 | with_reducible apply keeps_ite | (split <;> try dsimp only)
                 | with_reducible refine keeps_of_pair (by assumption) ?_ | with_reducible refine keeps_of_triple (by assumption) ?_
                 | with_reducible refine keeps_of_some (by assumption) ?_ | with_reducible refine keeps_of_some2 (by assumption) ?_
                 | with_reducible refine keeps_of_reply (by assumption) ?_ | with_reducible refine keeps_of_wait (by assumption) ?_)

theorem State.releaseQp_keeps {s0 : State} {s : State} {n : Nat} (h0 : Keeps s0 s) :
    Keeps s0 (State.releaseQp s n) := by
  unfold State.releaseQp
  try dsimp only
  repeat' (first | with_reducible assumption | (intro _; try dsimp only) | with_reducible apply State.freeTxn_keeps
                 | with_reducible apply keeps_foldl | with_reducible apply keeps_foldl_pair | with_reducible apply keeps_foldl_triple
                 | (simp only [keeps_mk]; with_reducible refine Keeps.fold ?_))

theorem State.removeQp_keeps {s0 : State} {s : State} {n : Nat} (h0 : Keeps s0 s) :
    Keeps s0 (State.removeQp s n) := by
  unfold State.removeQp
  try dsimp only
  repeat' (first | with_reducible assumption | (intro _; try dsimp only) | with_reducible apply State.releaseQp_keeps
                 | with_reducible apply State.disown_keeps | (simp only [keeps_mk]; with_reducible refine Keeps.fold ?_)
                 | with_reducible apply keeps_ite | (split <;> try dsimp only) | with_reducible refine keeps_of_pair (by assumption) ?_
                 | with_reducible refine keeps_of_triple (by assumption) ?_ | with_reducible refine keeps_of_some (by assumption) ?_
                 | with_reducible refine keeps_of_some2 (by assumption) ?_)

theorem State.drainRead_keeps {s0 : State} {s : State} {n : Nat} {target : Option (Nat × Bool)} (h0 : Keeps s0 s) :
    Keeps s0 (State.drainRead s n target).2 := by
  unfold State.drainRead
  try dsimp only
  repeat' (first | with_reducible assumption | (intro _; try dsimp only) | with_reducible apply State.hostRead_keeps
                 | with_reducible exact keepsOpt_none | with_reducible exact keepsOpt2_none | with_reducible apply keepsOpt_some
                 | with_reducible apply keepsOpt2_some | (simp only [keeps_mk]; with_reducible refine Keeps.fold ?_)
                 | with_reducible apply keeps_ite | (split <;> try dsimp only)
                 | with_reducible refine keeps_of_pair (by assumption) ?_ | with_reducible refine keeps_of_triple (by assumption) ?_
                 | with_reducible refine keeps_of_some (by assumption) ?_ | with_reducible refine keeps_of_some2 (by assumption) ?_)

theorem State.beginDrain_keeps {s0 : State} {s : State} {n : Nat} {target : Option (Nat × Bool)} {who : Option (Nat × Nat)} {result : Bytes} (h0 : Keeps s0 s) :
    Keeps s0 (State.beginDrain s n target who result) := by
  unfold State.beginDrain
  try dsimp only
  repeat' (first | with_reducible assumption | (intro _; try dsimp only) | with_reducible apply State.drainRead_keeps
                 | (simp only [keeps_mk]; with_reducible refine Keeps.fold ?_) | with_reducible apply keeps_ite
                 | (split <;> try dsimp only) | with_reducible refine keeps_of_pair (by assumption) ?_
                 | with_reducible refine keeps_of_some (by assumption) ?_ | with_reducible refine keeps_of_some2 (by assumption) ?_)

theorem State.drainsOwed_keeps {s0 : State} {s : State} (h0 : Keeps s0 s) :
    Keeps s0 (State.drainsOwed s) := by
  unfold State.drainsOwed
  try dsimp only
  repeat' (first | with_reducible assumption | (intro _; try dsimp only) | with_reducible apply State.drainRead_keeps
                 | with_reducible apply keeps_foldl | with_reducible apply keeps_foldl_pair
                 | with_reducible apply keeps_foldl_triple | with_reducible apply keepsOpt_foldl
                 | (simp only [keeps_mk]; with_reducible refine Keeps.fold ?_) | with_reducible apply keeps_ite
                 | (split <;> try dsimp only) | with_reducible refine keeps_of_pair (by assumption) ?_
                 | with_reducible refine keeps_of_triple (by assumption) ?_ | with_reducible refine keeps_of_some (by assumption) ?_
                 | with_reducible refine keeps_of_some2 (by assumption) ?_)

theorem State.freeFramesOf_keeps {s0 : State} {s : State} {u : FrameUse} (h0 : Keeps s0 s) :
    Keeps s0 (State.freeFramesOf s u) := by
  unfold State.freeFramesOf
  try dsimp only
  repeat' (first | with_reducible assumption | (intro _; try dsimp only) | (simp only [keeps_mk]; with_reducible refine Keeps.fold ?_))

theorem State.reclaim_keeps {s0 : State} {s : State} {n : Nat} (h0 : Keeps s0 s) :
    Keeps s0 (State.reclaim s n) := by
  unfold State.reclaim
  try dsimp only
  repeat' (first | with_reducible assumption | (intro _; try dsimp only) | with_reducible apply keepsOpt_map
                 | with_reducible apply keepsOpt2_mapPair | with_reducible apply keepsOpt2_map
                 | (simp only [keeps_mk]; with_reducible refine Keeps.fold ?_) | with_reducible apply keeps_ite)

theorem State.resetSteps_keeps {s0 : State} {s : State} {n : Nat} (h0 : Keeps s0 s) :
    Keeps s0 (State.resetSteps s n) := by
  unfold State.resetSteps
  try dsimp only
  repeat' (first | with_reducible assumption | (intro _; try dsimp only) | with_reducible apply State.count_keeps
                 | with_reducible apply State.setInst_keeps | with_reducible apply State.updInst_keeps
                 | with_reducible apply State.giveUp_keeps | with_reducible apply State.dirtyClose_keeps
                 | with_reducible apply State.unloadDead_keeps | with_reducible apply State.pruneLaunches_keeps
                 | with_reducible apply State.wickOwnerReset_keeps | with_reducible apply State.barOwnerReset_keeps
                 | with_reducible apply State.removeCq_keeps | with_reducible apply State.removeLq_keeps
                 | with_reducible apply State.beginRevoke_keeps | with_reducible apply State.clearMaps_keeps
                 | with_reducible apply State.ownWaits_keeps | with_reducible apply State.dropWq_keeps
                 | with_reducible apply State.removeQp_keeps | with_reducible apply State.beginDrain_keeps
                 | with_reducible apply State.reclaim_keeps | with_reducible apply keepsOpt_map
                 | with_reducible apply keepsOpt2_mapPair | with_reducible apply keepsOpt2_map | with_reducible apply keeps_foldl
                 | with_reducible apply keeps_foldl_pair | with_reducible apply keeps_foldl_triple
                 | with_reducible apply keepsOpt_foldl | (simp only [keeps_mk]; with_reducible refine Keeps.fold ?_)
                 | with_reducible apply keeps_ite | (split <;> try dsimp only)
                 | with_reducible refine keeps_of_pair (by assumption) ?_ | with_reducible refine keeps_of_triple (by assumption) ?_
                 | with_reducible refine keeps_of_some (by assumption) ?_ | with_reducible refine keeps_of_some2 (by assumption) ?_)

theorem State.resetInst_keeps {s0 : State} {s : State} {n : Nat} {destroy : Bool} {who : List (Nat × Nat)} (h0 : Keeps s0 s) :
    Keeps s0 (State.resetInst s n destroy who) := by
  unfold State.resetInst
  try dsimp only
  repeat' (first | with_reducible assumption | (intro _; try dsimp only) | with_reducible apply State.setInst_keeps
                 | with_reducible apply State.setFlag_keeps | with_reducible apply State.updInst_keeps
                 | with_reducible apply State.resetSteps_keeps | (simp only [keeps_mk]; with_reducible refine Keeps.fold ?_)
                 | with_reducible apply keeps_ite | (split <;> try dsimp only) | with_reducible refine keeps_of_pair (by assumption) ?_
                 | with_reducible refine keeps_of_triple (by assumption) ?_ | with_reducible refine keeps_of_some (by assumption) ?_
                 | with_reducible refine keeps_of_some2 (by assumption) ?_)

theorem State.resumeReset_keeps {s0 : State} {s : State} {n : Nat} (h0 : Keeps s0 s) :
    Keeps s0 (State.resumeReset s n) := by
  unfold State.resumeReset
  try dsimp only
  repeat' (first | with_reducible assumption | with_reducible apply State.resetSteps_keeps
                 | (simp only [keeps_mk]; with_reducible refine Keeps.fold ?_) | with_reducible apply keeps_ite
                 | (split <;> try dsimp only) | with_reducible refine keeps_of_pair (by assumption) ?_
                 | with_reducible refine keeps_of_triple (by assumption) ?_ | with_reducible refine keeps_of_some (by assumption) ?_
                 | with_reducible refine keeps_of_some2 (by assumption) ?_)

theorem State.closeWindows_keeps {s0 : State} {s : State} {i : Inst} (h0 : Keeps s0 s) :
    Keeps s0 (State.closeWindows s i) := by
  unfold State.closeWindows
  try dsimp only
  repeat' (first | with_reducible assumption | (intro _; try dsimp only) | with_reducible apply State.setRegOf_keeps
                 | with_reducible apply keeps_foldl | with_reducible apply keeps_foldl_pair | with_reducible apply keeps_foldl_triple
                 | with_reducible apply keeps_ite | (split <;> try dsimp only))

theorem State.endReset_keeps {s0 : State} {s : State} {n : Nat} (h0 : Keeps s0 s) :
    Keeps s0 (State.endReset s n) := by
  unfold State.endReset
  try dsimp only
  repeat' (first | with_reducible assumption | (intro _; try dsimp only) | with_reducible apply State.setInst_keeps
                 | with_reducible apply State.admStopped_keeps | with_reducible apply State.reply_keeps
                 | with_reducible apply State.mbxClear_keeps | with_reducible apply State.freeFramesOf_keeps
                 | with_reducible apply State.resetInst_keeps | with_reducible apply State.closeWindows_keeps
                 | with_reducible exact keepsOpt_none | with_reducible exact keepsOpt2_none | with_reducible apply keepsOpt_some
                 | with_reducible apply keepsOpt2_some | with_reducible apply keepsOpt_map | with_reducible apply keepsOpt2_mapPair
                 | with_reducible apply keepsOpt2_map | with_reducible apply keeps_foldl | with_reducible apply keeps_foldl_pair
                 | with_reducible apply keeps_foldl_triple | with_reducible apply keepsOpt_foldl | with_reducible apply keeps_getD
                 | (simp only [keeps_mk]; with_reducible refine Keeps.fold ?_) | with_reducible apply keeps_ite
                 | (split <;> try dsimp only) | with_reducible refine keeps_of_pair (by assumption) ?_
                 | with_reducible refine keeps_of_triple (by assumption) ?_ | with_reducible refine keeps_of_some (by assumption) ?_
                 | with_reducible refine keeps_of_some2 (by assumption) ?_ | with_reducible refine keeps_of_reply (by assumption) ?_
                 | with_reducible refine keeps_of_wait (by assumption) ?_)

theorem State.useDrainDone_keeps {s0 : State} {s : State} {n : Nat} (h0 : Keeps s0 s) :
    Keeps s0 (State.useDrainDone s n) := by
  unfold State.useDrainDone
  try dsimp only
  repeat' (first | with_reducible assumption | (intro _; try dsimp only) | with_reducible apply State.reply_keeps
                 | with_reducible apply State.admStopped_keeps | with_reducible apply State.endReset_keeps
                 | with_reducible apply keepsOpt_map | with_reducible apply keepsOpt2_mapPair | with_reducible apply keepsOpt2_map
                 | with_reducible apply keeps_getD | (simp only [keeps_mk]; with_reducible refine Keeps.fold ?_)
                 | with_reducible apply keeps_ite | (split <;> try dsimp only) | with_reducible refine keeps_of_pair (by assumption) ?_
                 | with_reducible refine keeps_of_triple (by assumption) ?_ | with_reducible refine keeps_of_some (by assumption) ?_
                 | with_reducible refine keeps_of_some2 (by assumption) ?_ | with_reducible refine keeps_of_reply (by assumption) ?_
                 | with_reducible refine keeps_of_wait (by assumption) ?_)

end Sys2Proof.Machine
end

