-- ==== Sys2Proof/Laws/KeepJobs.lean ====
section
/-!
SUPPORT. What the operations of Machine/Jobs.lean keep.
-/

namespace Sys2Proof.Machine

set_option linter.unusedTactic false
set_option linter.unreachableTactic false
set_option linter.unusedVariables false

theorem State.setDomain_keeps {s0 : State} {s : State} {p : Nat} {d : Domain} (h0 : Keeps s0 s) :
    Keeps s0 (State.setDomain s p d) := by
  unfold State.setDomain
  try dsimp only
  repeat' (first | with_reducible assumption | (simp only [keeps_mk]; with_reducible refine Keeps.fold ?_))

theorem State.updDomain_keeps {s0 : State} {s : State} {p : Nat} {f : Domain → Domain} (h0 : Keeps s0 s) :
    Keeps s0 (State.updDomain s p f) := by
  unfold State.updDomain
  try dsimp only
  repeat' (first | with_reducible assumption | (simp only [keeps_mk]; with_reducible refine Keeps.fold ?_))

theorem State.delDomain_keeps {s0 : State} {s : State} {p : Nat} (h0 : Keeps s0 s) :
    Keeps s0 (State.delDomain s p) := by
  unfold State.delDomain
  try dsimp only
  repeat' (first | with_reducible assumption | (simp only [keeps_mk]; with_reducible refine Keeps.fold ?_))

theorem State.learnEpoch_keeps {s0 : State} {s : State} {m e : Nat} (h0 : Keeps s0 s) :
    Keeps s0 (State.learnEpoch s m e) := by
  unfold State.learnEpoch
  try dsimp only
  repeat' (first | with_reducible assumption | (simp only [keeps_mk]; with_reducible refine Keeps.fold ?_)
                 | with_reducible apply keeps_ite | (split <;> try dsimp only))

theorem State.readyAt_keeps {s0 : State} {s : State} {partition status : Nat} (h0 : Keeps s0 s) :
    Keeps s0 (State.readyAt s partition status) := by
  unfold State.readyAt
  try dsimp only
  repeat' (first | with_reducible assumption | with_reducible apply State.setDomain_keeps | with_reducible apply State.reply_keeps
                 | with_reducible apply State.admStopped_keeps | with_reducible apply State.delDomain_keeps
                 | (simp only [keeps_mk]; with_reducible refine Keeps.fold ?_) | with_reducible apply keeps_ite
                 | (split <;> try dsimp only) | with_reducible refine keeps_of_pair (by assumption) ?_
                 | with_reducible refine keeps_of_triple (by assumption) ?_ | with_reducible refine keeps_of_some (by assumption) ?_
                 | with_reducible refine keeps_of_some2 (by assumption) ?_ | with_reducible refine keeps_of_reply (by assumption) ?_
                 | with_reducible refine keeps_of_wait (by assumption) ?_)

theorem State.sendReady_keeps {s0 : State} {s : State} {partition m status : Nat} (h0 : Keeps s0 s) :
    Keeps s0 (State.sendReady s partition m status) := by
  unfold State.sendReady
  repeat' (first | with_reducible assumption | with_reducible apply State.readyAt_keeps | with_reducible apply State.control_keeps
                 | with_reducible apply keeps_ite | (split <;> try dsimp only))

theorem State.jobFault_keeps {s0 : State} {s : State} {partition reason about : Nat} (h0 : Keeps s0 s) :
    Keeps s0 (State.jobFault s partition reason about) := by
  unfold State.jobFault
  try dsimp only
  repeat' (first | with_reducible assumption | (simp only [keeps_mk]; with_reducible refine Keeps.fold ?_))

theorem State.domainCheck_keeps {s0 : State} {s : State} {partition : Nat} (h0 : Keeps s0 s) :
    Keeps s0 (State.domainCheck s partition) := by
  unfold State.domainCheck
  try dsimp only
  repeat' (first | with_reducible assumption | (intro _; try dsimp only) | with_reducible apply State.sendReady_keeps
                 | with_reducible apply State.jobFault_keeps | with_reducible apply keepsOpt_map | with_reducible apply keepsOpt2_mapPair
                 | with_reducible apply keepsOpt2_map | with_reducible apply keeps_foldl | with_reducible apply keeps_foldl_pair
                 | with_reducible apply keeps_foldl_triple | (simp only [keeps_mk]; with_reducible refine Keeps.fold ?_)
                 | with_reducible apply keeps_ite | (split <;> try dsimp only) | with_reducible refine keeps_of_pair (by assumption) ?_
                 | with_reducible refine keeps_of_triple (by assumption) ?_ | with_reducible refine keeps_of_some (by assumption) ?_
                 | with_reducible refine keeps_of_some2 (by assumption) ?_)

theorem State.domainSetupIn_keeps {s0 : State} {s : State} {partition m crc epoch : Nat} (h0 : Keeps s0 s) :
    Keeps s0 (State.domainSetupIn s partition m crc epoch) := by
  unfold State.domainSetupIn
  try dsimp only
  repeat' (first | with_reducible assumption | (intro _; try dsimp only) | with_reducible apply State.learnEpoch_keeps
                 | with_reducible apply State.domainCheck_keeps | (simp only [keeps_mk]; with_reducible refine Keeps.fold ?_))

theorem State.sendDomainSetup_keeps {s0 : State} {s : State} {partition : Nat} {ms : List Nat} (h0 : Keeps s0 s) :
    Keeps s0 (State.sendDomainSetup s partition ms) := by
  unfold State.sendDomainSetup
  try dsimp only
  repeat' (first | with_reducible assumption | with_reducible apply State.domainSetupIn_keeps | with_reducible apply State.control_keeps
                 | with_reducible apply keeps_ite | (split <;> try dsimp only))

theorem State.faultEvent_keeps {s0 : State} {s : State} {kind partition : Nat} {q : Quench} (h0 : Keeps s0 s) :
    Keeps s0 (State.faultEvent s kind partition q) := by
  unfold State.faultEvent
  try dsimp only
  repeat' (first | with_reducible assumption | (intro _; try dsimp only) | with_reducible apply State.raise_keeps
                 | with_reducible apply keepsOpt_map | with_reducible apply keepsOpt2_mapPair | with_reducible apply keepsOpt2_map
                 | with_reducible apply keeps_foldl | with_reducible apply keeps_foldl_pair | with_reducible apply keeps_foldl_triple
                 | with_reducible apply keeps_getD)

theorem State.raiseFault_keeps {s0 : State} {s : State} {partition reason about : Nat} (h0 : Keeps s0 s) :
    Keeps s0 (State.raiseFault s partition reason about) := by
  unfold State.raiseFault
  try dsimp only
  repeat' (first | with_reducible assumption | with_reducible apply State.setDomain_keeps | with_reducible apply State.treeStart_keeps
                 | (simp only [keeps_mk]; with_reducible refine Keeps.fold ?_) | with_reducible apply keeps_ite
                 | (split <;> try dsimp only) | with_reducible refine keeps_of_pair (by assumption) ?_
                 | with_reducible refine keeps_of_triple (by assumption) ?_ | with_reducible refine keeps_of_some (by assumption) ?_
                 | with_reducible refine keeps_of_some2 (by assumption) ?_)

theorem State.quench_keeps {s0 : State} {s : State} {partition : Nat} (h0 : Keeps s0 s) :
    Keeps s0 (State.quench s partition) := by
  unfold State.quench
  try dsimp only
  repeat' (first | with_reducible assumption | (intro _; try dsimp only) | with_reducible apply State.collQuench_keeps
                 | with_reducible apply State.dropGroupTrees_keeps | with_reducible apply State.opFail_keeps
                 | with_reducible apply State.setBar_keeps | with_reducible apply State.snuff_keeps
                 | with_reducible apply State.qpError_keeps | with_reducible apply State.freeTxn_keeps
                 | with_reducible apply State.endWaiter_keeps | with_reducible apply State.setWick_keeps
                 | with_reducible apply State.count_keeps | with_reducible apply State.cancelPartition_keeps
                 | with_reducible apply State.cancelMove_keeps | with_reducible apply State.barGo_keeps
                 | with_reducible apply keepsOpt_map | with_reducible apply keepsOpt2_mapPair | with_reducible apply keepsOpt2_map
                 | with_reducible apply keeps_foldl | with_reducible apply keeps_foldl_pair | with_reducible apply keeps_foldl_triple
                 | with_reducible apply keeps_getD | (simp only [keeps_mk]; with_reducible refine Keeps.fold ?_)
                 | with_reducible apply keeps_ite | (split <;> try dsimp only) | with_reducible refine keeps_of_pair (by assumption) ?_
                 | with_reducible refine keeps_of_triple (by assumption) ?_ | with_reducible refine keeps_of_some (by assumption) ?_
                 | with_reducible refine keeps_of_some2 (by assumption) ?_)

theorem State.quenchSnap_keeps {s0 : State} {s : State} {partition : Nat} (h0 : Keeps s0 s) :
    Keeps s0 (State.quenchSnap s partition) := by
  unfold State.quenchSnap
  try dsimp only
  repeat' (first | with_reducible assumption | with_reducible apply State.setDomain_keeps | with_reducible apply State.reply_keeps
                 | with_reducible apply State.admStopped_keeps | (simp only [keeps_mk]; with_reducible refine Keeps.fold ?_)
                 | with_reducible apply keeps_ite | (split <;> try dsimp only) | with_reducible refine keeps_of_pair (by assumption) ?_
                 | with_reducible refine keeps_of_triple (by assumption) ?_ | with_reducible refine keeps_of_some (by assumption) ?_
                 | with_reducible refine keeps_of_some2 (by assumption) ?_ | with_reducible refine keeps_of_reply (by assumption) ?_
                 | with_reducible refine keeps_of_wait (by assumption) ?_)

theorem State.quenchGo_keeps {s0 : State} {s : State} {partition : Nat} (h0 : Keeps s0 s) :
    Keeps s0 (State.quenchGo s partition) := by
  unfold State.quenchGo
  try dsimp only
  repeat' (first | with_reducible assumption | with_reducible apply State.setDomain_keeps | with_reducible apply State.faultEvent_keeps
                 | with_reducible apply State.treeArrive_keeps | (simp only [keeps_mk]; with_reducible refine Keeps.fold ?_)
                 | with_reducible apply keeps_ite | (split <;> try dsimp only) | with_reducible refine keeps_of_pair (by assumption) ?_
                 | with_reducible refine keeps_of_triple (by assumption) ?_ | with_reducible refine keeps_of_some (by assumption) ?_
                 | with_reducible refine keeps_of_some2 (by assumption) ?_)

theorem State.leaveDomain_keeps {s0 : State} {s : State} {partition : Nat} (h0 : Keeps s0 s) :
    Keeps s0 (State.leaveDomain s partition) := by
  unfold State.leaveDomain
  try dsimp only
  repeat' (first | with_reducible assumption | (intro _; try dsimp only) | with_reducible apply State.removeCadence_keeps
                 | with_reducible apply State.dropGroup_keeps | with_reducible apply State.delDomain_keeps
                 | with_reducible apply keeps_foldl | with_reducible apply keeps_foldl_pair | with_reducible apply keeps_foldl_triple
                 | (simp only [keeps_mk]; with_reducible refine Keeps.fold ?_))

theorem State.faultClear_keeps {s0 : State} {s : State} {partition root seq : Nat} (h0 : Keeps s0 s) :
    Keeps s0 (State.faultClear s partition root seq) := by
  unfold State.faultClear
  try dsimp only
  repeat' (first | with_reducible assumption | (intro _; try dsimp only) | with_reducible apply State.faultEvent_keeps
                 | with_reducible apply State.setDomain_keeps | with_reducible apply State.leaveDomain_keeps
                 | with_reducible apply State.reply_keeps | with_reducible apply State.admStopped_keeps
                 | with_reducible apply State.jobFault_keeps | with_reducible apply keeps_foldl | with_reducible apply keeps_foldl_pair
                 | with_reducible apply keeps_foldl_triple | (simp only [keeps_mk]; with_reducible refine Keeps.fold ?_)
                 | with_reducible apply keeps_ite | (split <;> try dsimp only) | with_reducible refine keeps_of_pair (by assumption) ?_
                 | with_reducible refine keeps_of_triple (by assumption) ?_ | with_reducible refine keeps_of_some (by assumption) ?_
                 | with_reducible refine keeps_of_some2 (by assumption) ?_ | with_reducible refine keeps_of_reply (by assumption) ?_
                 | with_reducible refine keeps_of_wait (by assumption) ?_)

theorem State.faultNotice_keeps {s0 : State} {s : State} {partition root seq : Nat} {payload : Bytes} (h0 : Keeps s0 s) :
    Keeps s0 (State.faultNotice s partition root seq payload) := by
  unfold State.faultNotice
  try dsimp only
  repeat' (first | with_reducible assumption | (intro _; try dsimp only) | with_reducible apply State.treeArrive_keeps
                 | with_reducible apply State.faultClear_keeps | with_reducible apply State.setDomain_keeps
                 | with_reducible apply State.elog_keeps | with_reducible apply State.markLost_keeps
                 | with_reducible apply State.quenchSnap_keeps | with_reducible apply State.quench_keeps
                 | with_reducible apply keepsOpt_map | with_reducible apply keepsOpt2_mapPair | with_reducible apply keepsOpt2_map
                 | with_reducible apply keeps_foldl | with_reducible apply keeps_foldl_pair | with_reducible apply keeps_foldl_triple
                 | (simp only [keeps_mk]; with_reducible refine Keeps.fold ?_) | with_reducible apply keeps_ite
                 | (split <;> try dsimp only) | with_reducible refine keeps_of_pair (by assumption) ?_
                 | with_reducible refine keeps_of_triple (by assumption) ?_ | with_reducible refine keeps_of_some (by assumption) ?_
                 | with_reducible refine keeps_of_some2 (by assumption) ?_)

theorem State.faultDone_keeps {s0 : State} {s : State} {partition seq : Nat} {payload : Bytes} {lost : List Nat} (h0 : Keeps s0 s) :
    Keeps s0 (State.faultDone s partition seq payload lost) := by
  unfold State.faultDone
  try dsimp only
  repeat' (first | with_reducible assumption | (intro _; try dsimp only) | with_reducible apply State.updDomain_keeps
                 | with_reducible apply State.treeDown_keeps | (simp only [keeps_mk]; with_reducible refine Keeps.fold ?_)
                 | with_reducible apply keeps_ite | (split <;> try dsimp only) | with_reducible refine keeps_of_pair (by assumption) ?_
                 | with_reducible refine keeps_of_triple (by assumption) ?_ | with_reducible refine keeps_of_some (by assumption) ?_
                 | with_reducible refine keeps_of_some2 (by assumption) ?_)

theorem State.snapNotice_keeps {s0 : State} {s : State} {partition root seq : Nat} {payload : Bytes} (h0 : Keeps s0 s) :
    Keeps s0 (State.snapNotice s partition root seq payload) := by
  unfold State.snapNotice
  try dsimp only
  repeat' (first | with_reducible assumption | with_reducible apply State.treeArrive_keeps | with_reducible apply State.setDomain_keeps
                 | (simp only [keeps_mk]; with_reducible refine Keeps.fold ?_) | with_reducible apply keeps_ite
                 | (split <;> try dsimp only) | with_reducible refine keeps_of_pair (by assumption) ?_
                 | with_reducible refine keeps_of_triple (by assumption) ?_ | with_reducible refine keeps_of_some (by assumption) ?_
                 | with_reducible refine keeps_of_some2 (by assumption) ?_)

theorem State.snapDrainDone_keeps {s0 : State} {s : State} {partition : Nat} (h0 : Keeps s0 s) :
    Keeps s0 (State.snapDrainDone s partition) := by
  unfold State.snapDrainDone
  try dsimp only
  repeat' (first | with_reducible assumption | with_reducible apply State.setDomain_keeps | with_reducible apply State.treeArrive_keeps
                 | (simp only [keeps_mk]; with_reducible refine Keeps.fold ?_) | with_reducible apply keeps_ite
                 | (split <;> try dsimp only) | with_reducible refine keeps_of_pair (by assumption) ?_
                 | with_reducible refine keeps_of_triple (by assumption) ?_ | with_reducible refine keeps_of_some (by assumption) ?_
                 | with_reducible refine keeps_of_some2 (by assumption) ?_)

theorem State.snapDone_keeps {s0 : State} {s : State} {partition seq : Nat} {payload : Bytes} (h0 : Keeps s0 s) :
    Keeps s0 (State.snapDone s partition seq payload) := by
  unfold State.snapDone
  try dsimp only
  repeat' (first | with_reducible assumption | with_reducible apply State.treeStart_keeps | with_reducible apply State.setDomain_keeps
                 | with_reducible apply State.reply_keeps | with_reducible apply State.admStopped_keeps
                 | (simp only [keeps_mk]; with_reducible refine Keeps.fold ?_) | with_reducible apply keeps_ite
                 | (split <;> try dsimp only) | with_reducible refine keeps_of_pair (by assumption) ?_
                 | with_reducible refine keeps_of_triple (by assumption) ?_ | with_reducible refine keeps_of_some (by assumption) ?_
                 | with_reducible refine keeps_of_some2 (by assumption) ?_ | with_reducible refine keeps_of_reply (by assumption) ?_
                 | with_reducible refine keeps_of_wait (by assumption) ?_)

end Sys2Proof.Machine
end

