-- ==== Sys2Proof/Laws/KeepEpoch.lean ====
section
/-!
SUPPORT. What the operations of Machine/Epoch.lean keep.
-/

namespace Sys2Proof.Machine

set_option linter.unusedTactic false
set_option linter.unreachableTactic false
set_option linter.unusedVariables false

theorem State.setBase_keeps {s0 : State} {s : State} {base : Nat} (h0 : Keeps s0 s) :
    Keeps s0 (State.setBase s base) := by
  unfold State.setBase
  try dsimp only
  repeat' (first | with_reducible assumption | with_reducible apply State.lifeLog_keeps
                 | (simp only [keeps_mk]; with_reducible refine Keeps.fold ?_))

theorem State.advanceEpoch_keeps {s0 : State} {s : State} (h0 : Keeps s0 s) :
    Keeps s0 (State.advanceEpoch s) := by
  unfold State.advanceEpoch
  try dsimp only
  repeat' (first | with_reducible assumption | with_reducible apply State.setBase_keeps | with_reducible apply State.placementReset_keeps
                 | (simp only [keeps_mk]; with_reducible refine Keeps.fold ?_) | with_reducible apply keeps_ite
                 | (split <;> try dsimp only))

end Sys2Proof.Machine
end

