-- ==== Sys2Proof/Laws/KeepTime.lean ====
section
/-!
SUPPORT. What the operations of Machine/Time.lean keep.
-/

namespace Sys2Proof.Machine

set_option linter.unusedTactic false
set_option linter.unreachableTactic false
set_option linter.unusedVariables false

theorem State.sendFrame_keeps {s0 : State} {s : State} {g : Nat} {j : Nat} {data : Bytes} {note : Option (Nat × Nat × Nat)} (h0 : Keeps s0 s) :
    Keeps s0 (State.sendFrame s g j data note) := by
  unfold State.sendFrame
  try dsimp only
  repeat' (first | with_reducible assumption | (intro _; try dsimp only) | with_reducible apply State.emit_keeps
                 | with_reducible apply State.countN_keeps | with_reducible apply State.count_keeps
                 | (simp only [keeps_mk]; with_reducible refine Keeps.fold ?_) | with_reducible apply keeps_ite
                 | (split <;> try dsimp only) | with_reducible refine keeps_of_pair (by assumption) ?_
                 | with_reducible refine keeps_of_some (by assumption) ?_ | with_reducible refine keeps_of_some2 (by assumption) ?_)

theorem State.tick_keeps {s0 : State} {s : State} (h0 : Keeps s0 s) :
    Keeps s0 (State.tick s) := by
  unfold State.tick
  try dsimp only
  repeat' (first | with_reducible assumption | (simp only [keeps_mk]; with_reducible refine Keeps.fold ?_)
                 | with_reducible apply keeps_ite | (split <;> try dsimp only))

theorem State.setTime_keeps {s0 : State} {s : State} {st : Nat} (h0 : Keeps s0 s) :
    Keeps s0 (State.setTime s st) := by
  unfold State.setTime
  try dsimp only
  repeat' (first | with_reducible assumption | with_reducible apply State.setFlag_keeps
                 | (simp only [keeps_mk]; with_reducible refine Keeps.fold ?_) | with_reducible apply keeps_ite
                 | (split <;> try dsimp only))

theorem State.loadTime_keeps {s0 : State} {s : State} {t : Nat} (h0 : Keeps s0 s) :
    Keeps s0 (State.loadTime s t) := by
  unfold State.loadTime
  try dsimp only
  repeat' (first | with_reducible assumption | (intro _; try dsimp only) | with_reducible apply State.setFlag_keeps
                 | with_reducible apply State.count_keeps | with_reducible apply keepsOpt_map | with_reducible apply keepsOpt2_mapPair
                 | with_reducible apply keepsOpt2_map | (simp only [keeps_mk]; with_reducible refine Keeps.fold ?_)
                 | with_reducible apply keeps_ite | (split <;> try dsimp only))

theorem State.measure_keeps {s0 : State} {s : State} {off : Int} (h0 : Keeps s0 s) :
    Keeps s0 (State.measure s off) := by
  unfold State.measure
  try dsimp only
  repeat' (first | with_reducible assumption | (intro _; try dsimp only) | with_reducible apply State.loadTime_keeps
                 | with_reducible apply State.setTime_keeps | (simp only [keeps_mk]; with_reducible refine Keeps.fold ?_)
                 | with_reducible apply keeps_ite | (split <;> try dsimp only) | with_reducible refine keeps_of_pair (by assumption) ?_
                 | with_reducible refine keeps_of_triple (by assumption) ?_ | with_reducible refine keeps_of_some (by assumption) ?_
                 | with_reducible refine keeps_of_some2 (by assumption) ?_)

theorem State.chooseTime_keeps {s0 : State} {s : State} (h0 : Keeps s0 s) :
    Keeps s0 (State.chooseTime s) := by
  unfold State.chooseTime
  try dsimp only
  repeat' (first | with_reducible assumption | with_reducible apply State.setTime_keeps | with_reducible apply keeps_getD
                 | (simp only [keeps_mk]; with_reducible refine Keeps.fold ?_) | with_reducible apply keeps_ite
                 | (split <;> try dsimp only) | with_reducible refine keeps_of_pair (by assumption) ?_
                 | with_reducible refine keeps_of_triple (by assumption) ?_ | with_reducible refine keeps_of_some (by assumption) ?_
                 | with_reducible refine keeps_of_some2 (by assumption) ?_)

theorem State.timeLost_keeps {s0 : State} {s : State} {g j : Nat} (h0 : Keeps s0 s) :
    Keeps s0 (State.timeLost s g j) := by
  unfold State.timeLost
  try dsimp only
  repeat' (first | with_reducible assumption | with_reducible apply State.chooseTime_keeps
                 | (simp only [keeps_mk]; with_reducible refine Keeps.fold ?_))

theorem State.sendPtp_keeps {s0 : State} {s : State} {g j : Nat} {dst msg : Bytes} (h0 : Keeps s0 s) :
    Keeps s0 (State.sendPtp s g j dst msg) := by
  unfold State.sendPtp
  repeat' (first | with_reducible assumption | with_reducible apply State.sendFrame_keeps)

theorem State.sendSync_keeps {s0 : State} {s : State} {g j : Nat} (h0 : Keeps s0 s) :
    Keeps s0 (State.sendSync s g j) := by
  unfold State.sendSync
  try dsimp only
  repeat' (first | with_reducible assumption | with_reducible apply State.sendPtp_keeps | with_reducible apply keeps_getD)

theorem State.sendPdelay_keeps {s0 : State} {s : State} {g j : Nat} (h0 : Keeps s0 s) :
    Keeps s0 (State.sendPdelay s g j) := by
  unfold State.sendPdelay
  try dsimp only
  repeat' (first | with_reducible assumption | with_reducible apply State.sendPtp_keeps
                 | (simp only [keeps_mk]; with_reducible refine Keeps.fold ?_))

theorem State.syncSend_keeps {s0 : State} {s : State} (h0 : Keeps s0 s) :
    Keeps s0 (State.syncSend s) := by
  unfold State.syncSend
  try dsimp only
  repeat' (first | with_reducible assumption | (intro _; try dsimp only) | with_reducible apply State.ask_keeps
                 | with_reducible apply State.sendSync_keeps | with_reducible apply State.sendPdelay_keeps
                 | with_reducible apply keeps_foldl | with_reducible apply keeps_foldl_pair | with_reducible apply keeps_foldl_triple
                 | (simp only [keeps_mk]; with_reducible refine Keeps.fold ?_) | with_reducible apply keeps_ite
                 | (split <;> try dsimp only))

theorem State.ptpIgnored_keeps {s0 : State} {s : State} (h0 : Keeps s0 s) :
    Keeps s0 (State.ptpIgnored s) := by
  unfold State.ptpIgnored
  repeat' (first | with_reducible assumption | with_reducible apply State.count_keeps)

theorem State.syncIn_keeps {s0 : State} {s : State} {g j : Nat} {m : Bytes} (h0 : Keeps s0 s) :
    Keeps s0 (State.syncIn s g j m) := by
  unfold State.syncIn
  try dsimp only
  repeat' (first | with_reducible assumption | with_reducible apply State.ptpIgnored_keeps | with_reducible apply State.chooseTime_keeps
                 | with_reducible apply State.measure_keeps | (simp only [keeps_mk]; with_reducible refine Keeps.fold ?_)
                 | with_reducible apply keeps_ite | (split <;> try dsimp only) | with_reducible refine keeps_of_pair (by assumption) ?_
                 | with_reducible refine keeps_of_triple (by assumption) ?_ | with_reducible refine keeps_of_some (by assumption) ?_
                 | with_reducible refine keeps_of_some2 (by assumption) ?_)

theorem State.pdelayReqIn_keeps {s0 : State} {s : State} {g j : Nat} {m : Bytes} (h0 : Keeps s0 s) :
    Keeps s0 (State.pdelayReqIn s g j m) := by
  unfold State.pdelayReqIn
  repeat' (first | with_reducible assumption | with_reducible apply State.ptpIgnored_keeps | with_reducible apply State.sendPtp_keeps
                 | with_reducible apply keeps_ite | (split <;> try dsimp only))

theorem State.pdelayRespIn_keeps {s0 : State} {s : State} {g j : Nat} {m : Bytes} (h0 : Keeps s0 s) :
    Keeps s0 (State.pdelayRespIn s g j m) := by
  unfold State.pdelayRespIn
  try dsimp only
  repeat' (first | with_reducible assumption | with_reducible apply State.ptpIgnored_keeps
                 | (simp only [keeps_mk]; with_reducible refine Keeps.fold ?_) | with_reducible apply keeps_ite
                 | (split <;> try dsimp only) | with_reducible refine keeps_of_pair (by assumption) ?_
                 | with_reducible refine keeps_of_triple (by assumption) ?_ | with_reducible refine keeps_of_some (by assumption) ?_
                 | with_reducible refine keeps_of_some2 (by assumption) ?_)

theorem State.ptpIn_keeps {s0 : State} {s : State} {g j : Nat} {m : Bytes} (h0 : Keeps s0 s) :
    Keeps s0 (State.ptpIn s g j m) := by
  unfold State.ptpIn
  try dsimp only
  repeat' (first | with_reducible assumption | with_reducible apply State.syncIn_keeps | with_reducible apply State.pdelayReqIn_keeps
                 | with_reducible apply State.pdelayRespIn_keeps | with_reducible apply State.ptpIgnored_keeps
                 | (simp only [keeps_mk]; with_reducible refine Keeps.fold ?_) | with_reducible apply keeps_ite
                 | (split <;> try dsimp only) | with_reducible refine keeps_of_pair (by assumption) ?_
                 | with_reducible refine keeps_of_triple (by assumption) ?_ | with_reducible refine keeps_of_some (by assumption) ?_
                 | with_reducible refine keeps_of_some2 (by assumption) ?_)

theorem State.ppsEdge_keeps {s0 : State} {s : State} (h0 : Keeps s0 s) :
    Keeps s0 (State.ppsEdge s) := by
  unfold State.ppsEdge
  try dsimp only
  repeat' (first | with_reducible assumption | with_reducible apply State.chooseTime_keeps | with_reducible apply State.setTime_keeps
                 | with_reducible apply State.measure_keeps | with_reducible exact keepsOpt_none | with_reducible exact keepsOpt2_none
                 | with_reducible apply keepsOpt_some | with_reducible apply keepsOpt2_some
                 | (simp only [keeps_mk]; with_reducible refine Keeps.fold ?_) | with_reducible apply keeps_ite
                 | (split <;> try dsimp only) | with_reducible refine keeps_of_pair (by assumption) ?_
                 | with_reducible refine keeps_of_triple (by assumption) ?_ | with_reducible refine keeps_of_some (by assumption) ?_
                 | with_reducible refine keeps_of_some2 (by assumption) ?_)

theorem State.todIn_keeps {s0 : State} {s : State} {m : Bytes} (h0 : Keeps s0 s) :
    Keeps s0 (State.todIn s m) := by
  unfold State.todIn
  try dsimp only
  repeat' (first | with_reducible assumption | (simp only [keeps_mk]; with_reducible refine Keeps.fold ?_)
                 | with_reducible apply keeps_ite | (split <;> try dsimp only) | with_reducible refine keeps_of_pair (by assumption) ?_
                 | with_reducible refine keeps_of_triple (by assumption) ?_ | with_reducible refine keeps_of_some (by assumption) ?_
                 | with_reducible refine keeps_of_some2 (by assumption) ?_)

theorem State.ppsLost_keeps {s0 : State} {s : State} (h0 : Keeps s0 s) :
    Keeps s0 (State.ppsLost s) := by
  unfold State.ppsLost
  repeat' (first | with_reducible assumption | with_reducible apply State.setTime_keeps | with_reducible exact keepsOpt_none
                 | with_reducible exact keepsOpt2_none | with_reducible apply keepsOpt_some | with_reducible apply keepsOpt2_some
                 | with_reducible apply keeps_ite | (split <;> try dsimp only))

theorem State.parentLost_keeps {s0 : State} {s : State} (h0 : Keeps s0 s) :
    Keeps s0 (State.parentLost s) := by
  unfold State.parentLost
  try dsimp only
  repeat' (first | with_reducible assumption | with_reducible apply State.setTime_keeps
                 | (simp only [keeps_mk]; with_reducible refine Keeps.fold ?_) | with_reducible apply keeps_ite
                 | (split <;> try dsimp only) | with_reducible refine keeps_of_pair (by assumption) ?_
                 | with_reducible refine keeps_of_triple (by assumption) ?_ | with_reducible refine keeps_of_some (by assumption) ?_
                 | with_reducible refine keeps_of_some2 (by assumption) ?_)

end Sys2Proof.Machine
end

