-- ==== Sys2Proof/Laws/KeepLinks.lean ====
section
/-!
SUPPORT. What the operations of Machine/Links.lean keep.
-/

namespace Sys2Proof.Machine

set_option linter.unusedTactic false
set_option linter.unreachableTactic false
set_option linter.unusedVariables false

theorem State.setGroupL_keeps {s0 : State} {s : State} {g : Nat} {x : LinkGroup} (h0 : Keeps s0 s) :
    Keeps s0 (State.setGroupL s g x) := by
  unfold State.setGroupL
  try dsimp only
  repeat' (first | with_reducible assumption | (simp only [keeps_mk]; with_reducible refine Keeps.fold ?_))

theorem State.setLink_keeps {s0 : State} {s : State} {g j : Nat} {x : Link} (h0 : Keeps s0 s) :
    Keeps s0 (State.setLink s g j x) := by
  unfold State.setLink
  try dsimp only
  repeat' (first | with_reducible assumption | (simp only [keeps_mk]; with_reducible refine Keeps.fold ?_))

theorem State.updLink_keeps {s0 : State} {s : State} {g j : Nat} {f : Link → Link} (h0 : Keeps s0 s) :
    Keeps s0 (State.updLink s g j f) := by
  unfold State.updLink
  repeat' (first | with_reducible assumption | with_reducible apply State.setLink_keeps)

theorem State.lcount_keeps {s0 : State} {s : State} {g j k n : Nat} (h0 : Keeps s0 s) :
    Keeps s0 (State.lcount s g j k n) := by
  unfold State.lcount
  repeat' (first | with_reducible assumption | with_reducible apply State.countN_keeps)

theorem State.linkRecord_keeps {s0 : State} {s : State} {g j : Nat} (h0 : Keeps s0 s) :
    Keeps s0 (State.linkRecord s g j) := by
  unfold State.linkRecord
  try dsimp only
  repeat' (first | with_reducible assumption | with_reducible apply State.setLink_keeps | with_reducible apply State.raise_keeps
                 | with_reducible apply keepsOpt_map | with_reducible apply keepsOpt2_mapPair | with_reducible apply keepsOpt2_map
                 | with_reducible exact keepsOpt_none | with_reducible exact keepsOpt2_none | with_reducible apply keepsOpt_some
                 | with_reducible apply keepsOpt2_some | with_reducible apply keeps_getD
                 | (simp only [keeps_mk]; with_reducible refine Keeps.fold ?_) | with_reducible apply keeps_ite
                 | (split <;> try dsimp only))

theorem State.linkEvent_keeps {s0 : State} {s : State} {g j : Nat} (h0 : Keeps s0 s) :
    Keeps s0 (State.linkEvent s g j) := by
  unfold State.linkEvent
  try dsimp only
  repeat' (first | with_reducible assumption | (intro _; try dsimp only) | with_reducible apply State.linkRecord_keeps
                 | with_reducible apply State.updLink_keeps | (simp only [keeps_mk]; with_reducible refine Keeps.fold ?_)
                 | with_reducible apply keeps_ite | (split <;> try dsimp only))

theorem State.linkOwed_keeps {s0 : State} {s : State} (h0 : Keeps s0 s) :
    Keeps s0 (State.linkOwed s) := by
  unfold State.linkOwed
  try dsimp only
  repeat' (first | with_reducible assumption | (intro _; try dsimp only) | with_reducible apply State.linkRecord_keeps
                 | with_reducible apply keeps_foldl | with_reducible apply keeps_foldl_pair | with_reducible apply keeps_foldl_triple
                 | with_reducible apply keeps_ite | (split <;> try dsimp only))

theorem State.groupEvent_keeps {s0 : State} {s : State} {g kind : Nat} (h0 : Keeps s0 s) :
    Keeps s0 (State.groupEvent s g kind) := by
  unfold State.groupEvent
  repeat' (first | with_reducible assumption | with_reducible apply State.raise_keeps)

theorem State.drrEmpty_keeps {s0 : State} {s : State} {g : Nat} {c : Nat} (h0 : Keeps s0 s) :
    Keeps s0 (State.drrEmpty s g c) := by
  unfold State.drrEmpty
  try dsimp only
  repeat' (first | with_reducible assumption | (intro _; try dsimp only)
                 | (simp only [keeps_mk]; with_reducible refine Keeps.fold ?_) | with_reducible apply keeps_ite
                 | (split <;> try dsimp only) | with_reducible refine keeps_of_pair (by assumption) ?_
                 | with_reducible refine keeps_of_some (by assumption) ?_ | with_reducible refine keeps_of_some2 (by assumption) ?_)

theorem State.drrSettle_keeps {s0 : State} {s : State} (h0 : Keeps s0 s) :
    Keeps s0 (State.drrSettle s) := by
  unfold State.drrSettle
  try dsimp only
  repeat' (first | with_reducible assumption | (intro _; try dsimp only) | with_reducible apply State.drrEmpty_keeps
                 | with_reducible apply keeps_foldl | with_reducible apply keeps_foldl_pair
                 | with_reducible apply keeps_foldl_triple | with_reducible apply keepsOpt_foldl
                 | (simp only [keeps_mk]; with_reducible refine Keeps.fold ?_) | with_reducible apply keeps_ite)

theorem State.reassign_keeps {s0 : State} {s : State} {g : Nat} (h0 : Keeps s0 s) :
    Keeps s0 (State.reassign s g) := by
  unfold State.reassign
  try dsimp only
  repeat' (first | with_reducible assumption | (intro _; try dsimp only) | with_reducible apply State.sampled_keeps
                 | with_reducible apply State.noRoute_keeps | with_reducible apply keeps_foldl | with_reducible apply keeps_foldl_pair
                 | with_reducible apply keeps_foldl_triple | with_reducible apply keeps_getD
                 | (simp only [keeps_mk]; with_reducible refine Keeps.fold ?_) | with_reducible apply keeps_ite
                 | (split <;> try dsimp only))

theorem State.clearBuffers_keeps {s0 : State} {s : State} {g : Nat} (h0 : Keeps s0 s) :
    Keeps s0 (State.clearBuffers s g) := by
  unfold State.clearBuffers
  try dsimp only
  repeat' (first | with_reducible assumption | (intro _; try dsimp only) | with_reducible apply State.sampled_keeps
                 | with_reducible apply keepsOpt_map | with_reducible apply keepsOpt2_mapPair | with_reducible apply keepsOpt2_map
                 | with_reducible apply keeps_foldl | with_reducible apply keeps_foldl_pair
                 | with_reducible apply keeps_foldl_triple | with_reducible apply keepsOpt_foldl
                 | (simp only [keeps_mk]; with_reducible refine Keeps.fold ?_) | with_reducible apply keeps_ite)

theorem State.clearPause_keeps {s0 : State} {s : State} {g j : Nat} (h0 : Keeps s0 s) :
    Keeps s0 (State.clearPause s g j) := by
  unfold State.clearPause
  try dsimp only
  repeat' (first | with_reducible assumption | (intro _; try dsimp only) | (simp only [keeps_mk]; with_reducible refine Keeps.fold ?_))

theorem State.linkRest_keeps {s0 : State} {s : State} {g j : Nat} (h0 : Keeps s0 s) :
    Keeps s0 (State.linkRest s g j) := by
  unfold State.linkRest
  try dsimp only
  repeat' (first | with_reducible assumption | (intro _; try dsimp only) | with_reducible apply State.updLink_keeps
                 | with_reducible apply keeps_ite | (split <;> try dsimp only))

theorem State.partFrame_keeps {s0 : State} {s : State} {g : Nat} {j : Nat} (h0 : Keeps s0 s) :
    Keeps s0 (State.partFrame s g j) := by
  unfold State.partFrame
  try dsimp only
  repeat' (first | with_reducible assumption | (intro _; try dsimp only) | with_reducible apply State.drawn_keeps
                 | with_reducible apply State.lcount_keeps | with_reducible exact keepsOpt_none
                 | with_reducible exact keepsOpt2_none | with_reducible apply keepsOpt_some | with_reducible apply keepsOpt2_some
                 | (simp only [keeps_mk]; with_reducible refine Keeps.fold ?_) | with_reducible apply keeps_ite
                 | (split <;> try dsimp only) | with_reducible refine keeps_of_pair (by assumption) ?_
                 | with_reducible refine keeps_of_some (by assumption) ?_ | with_reducible refine keeps_of_some2 (by assumption) ?_)

theorem State.linkLeave_keeps {s0 : State} {s : State} {g : Nat} {j : Nat} {reason : Nat} (h0 : Keeps s0 s) :
    Keeps s0 (State.linkLeave s g j reason) := by
  unfold State.linkLeave
  try dsimp only
  repeat' (first | with_reducible assumption | (intro _; try dsimp only) | with_reducible apply State.timeLost_keeps
                 | with_reducible apply State.updLink_keeps | with_reducible apply State.lcount_keeps
                 | with_reducible apply State.linkEvent_keeps | with_reducible apply State.reassign_keeps
                 | with_reducible apply State.clearPause_keeps | with_reducible apply State.linkRest_keeps
                 | with_reducible apply State.partFrame_keeps | with_reducible exact keepsOpt_none
                 | with_reducible exact keepsOpt2_none | with_reducible apply keepsOpt_some | with_reducible apply keepsOpt2_some
                 | (simp only [keeps_mk]; with_reducible refine Keeps.fold ?_) | with_reducible apply keeps_ite
                 | (split <;> try dsimp only) | with_reducible refine keeps_of_pair (by assumption) ?_
                 | with_reducible refine keeps_of_some (by assumption) ?_ | with_reducible refine keeps_of_some2 (by assumption) ?_)

theorem State.groupLeave_keeps {s0 : State} {s : State} {g : Nat} {reason : Nat} (h0 : Keeps s0 s) :
    Keeps s0 (State.groupLeave s g reason) := by
  unfold State.groupLeave
  try dsimp only
  repeat' (first | with_reducible assumption | (intro _; try dsimp only) | with_reducible apply State.setGroupL_keeps
                 | with_reducible apply State.groupEvent_keeps | with_reducible apply State.linkLeave_keeps
                 | with_reducible apply keeps_foldl | with_reducible apply keeps_foldl_pair
                 | with_reducible apply keeps_foldl_triple | with_reducible apply keepsOpt_foldl
                 | (simp only [keeps_mk]; with_reducible refine Keeps.fold ?_) | with_reducible apply keeps_ite
                 | (split <;> try dsimp only) | with_reducible refine keeps_of_pair (by assumption) ?_
                 | with_reducible refine keeps_of_triple (by assumption) ?_ | with_reducible refine keeps_of_some (by assumption) ?_
                 | with_reducible refine keeps_of_some2 (by assumption) ?_)

theorem State.linkTimeout_keeps {s0 : State} {s : State} {g j : Nat} (h0 : Keeps s0 s) :
    Keeps s0 (State.linkTimeout s g j) := by
  unfold State.linkTimeout
  repeat' (first | with_reducible assumption | with_reducible apply State.linkRest_keeps | with_reducible apply State.setFlag_keeps
                 | with_reducible apply State.lcount_keeps)

theorem State.linkIn_keeps {s0 : State} {s : State} {g j version : Nat} {peer : Option LinkPeer} (h0 : Keeps s0 s) :
    Keeps s0 (State.linkIn s g j version peer) := by
  unfold State.linkIn
  try dsimp only
  repeat' (first | with_reducible assumption | (intro _; try dsimp only) | with_reducible apply State.updLink_keeps
                 | with_reducible apply State.setGroupL_keeps | with_reducible apply State.advanceEpoch_keeps
                 | with_reducible apply State.linkEvent_keeps | with_reducible apply State.reassign_keeps
                 | with_reducible apply State.chooseTime_keeps | (simp only [keeps_mk]; with_reducible refine Keeps.fold ?_)
                 | with_reducible apply keeps_ite | (split <;> try dsimp only))

theorem State.groupRetry_keeps {s0 : State} {s : State} {g : Nat} (h0 : Keeps s0 s) :
    Keeps s0 (State.groupRetry s g) := by
  unfold State.groupRetry
  try dsimp only
  repeat' (first | with_reducible assumption | (intro _; try dsimp only) | with_reducible apply State.linkRest_keeps
                 | with_reducible apply keeps_foldl | with_reducible apply keeps_foldl_pair | with_reducible apply keeps_foldl_triple
                 | with_reducible apply keeps_ite | (split <;> try dsimp only))

theorem State.groupRestart_keeps {s0 : State} {s : State} {g : Nat} (h0 : Keeps s0 s) :
    Keeps s0 (State.groupRestart s g) := by
  unfold State.groupRestart
  try dsimp only
  repeat' (first | with_reducible assumption | (intro _; try dsimp only) | with_reducible apply State.linkRest_keeps
                 | with_reducible apply keeps_foldl | with_reducible apply keeps_foldl_pair
                 | with_reducible apply keeps_foldl_triple | with_reducible apply keepsOpt_foldl
                 | (simp only [keeps_mk]; with_reducible refine Keeps.fold ?_) | with_reducible apply keeps_ite
                 | (split <;> try dsimp only) | with_reducible refine keeps_of_pair (by assumption) ?_
                 | with_reducible refine keeps_of_triple (by assumption) ?_ | with_reducible refine keeps_of_some (by assumption) ?_
                 | with_reducible refine keeps_of_some2 (by assumption) ?_)

theorem State.groupDown_keeps {s0 : State} {s : State} {g : Nat} {reason : Nat} (h0 : Keeps s0 s) :
    Keeps s0 (State.groupDown s g reason) := by
  unfold State.groupDown
  try dsimp only
  repeat' (first | with_reducible assumption | (intro _; try dsimp only) | with_reducible apply State.domOff_keeps
                 | with_reducible apply State.setGroupL_keeps | with_reducible apply State.clearBuffers_keeps
                 | with_reducible apply State.linkRest_keeps | with_reducible apply State.groupLeave_keeps
                 | with_reducible apply keeps_foldl | with_reducible apply keeps_foldl_pair
                 | with_reducible apply keeps_foldl_triple | with_reducible apply keepsOpt_foldl
                 | (simp only [keeps_mk]; with_reducible refine Keeps.fold ?_) | with_reducible apply keeps_ite)

theorem State.groupUp_keeps {s0 : State} {s : State} {g : Nat} (h0 : Keeps s0 s) :
    Keeps s0 (State.groupUp s g) := by
  unfold State.groupUp
  try dsimp only
  repeat' (first | with_reducible assumption | with_reducible apply State.setGroupL_keeps | with_reducible apply State.groupRetry_keeps
                 | (simp only [keeps_mk]; with_reducible refine Keeps.fold ?_))

theorem State.groupJudge_keeps {s0 : State} {s : State} {g : Nat} (h0 : Keeps s0 s) :
    Keeps s0 (State.groupJudge s g) := by
  unfold State.groupJudge
  try dsimp only
  repeat' (first | with_reducible assumption | (intro _; try dsimp only) | with_reducible apply State.wakeDom_keeps
                 | with_reducible apply State.domOff_keeps | with_reducible apply State.setGroupL_keeps
                 | with_reducible apply State.groupDown_keeps | with_reducible apply State.groupUp_keeps
                 | (simp only [keeps_mk]; with_reducible refine Keeps.fold ?_) | with_reducible apply keeps_ite
                 | (split <;> try dsimp only) | with_reducible refine keeps_of_pair (by assumption) ?_
                 | with_reducible refine keeps_of_some (by assumption) ?_ | with_reducible refine keeps_of_some2 (by assumption) ?_)

theorem State.sendHello_keeps {s0 : State} {s : State} {g j : Nat} {req ack : Bool} (h0 : Keeps s0 s) :
    Keeps s0 (State.sendHello s g j req ack) := by
  unfold State.sendHello
  try dsimp only
  repeat' (first | with_reducible assumption | (intro _; try dsimp only) | with_reducible apply State.setLink_keeps
                 | with_reducible apply State.sendFrame_keeps | with_reducible apply keepsOpt_map | with_reducible apply keepsOpt2_mapPair
                 | with_reducible apply keepsOpt2_map | with_reducible apply keeps_getD
                 | (simp only [keeps_mk]; with_reducible refine Keeps.fold ?_))

theorem State.linkHeld_keeps {s0 : State} {s : State} {g j reason : Nat} {cable : Bool} {peer : Nat} (h0 : Keeps s0 s) :
    Keeps s0 (State.linkHeld s g j reason cable peer) := by
  unfold State.linkHeld
  try dsimp only
  repeat' (first | with_reducible assumption | (intro _; try dsimp only) | with_reducible apply State.updLink_keeps
                 | with_reducible apply State.setFlag_keeps | with_reducible apply State.linkEvent_keeps
                 | with_reducible apply State.sendHello_keeps | (simp only [keeps_mk]; with_reducible refine Keeps.fold ?_)
                 | with_reducible apply keeps_ite | (split <;> try dsimp only))

theorem State.linkJudge_keeps {s0 : State} {s : State} {g j : Nat} {h : Hello} (h0 : Keeps s0 s) :
    Keeps s0 (State.linkJudge s g j h) := by
  unfold State.linkJudge
  try dsimp only
  repeat' (first | with_reducible assumption | (intro _; try dsimp only) | with_reducible apply State.linkHeld_keeps
                 | with_reducible apply State.updLink_keeps | with_reducible apply State.sendHello_keeps
                 | with_reducible apply State.linkIn_keeps | (simp only [keeps_mk]; with_reducible refine Keeps.fold ?_)
                 | with_reducible apply keeps_ite | (split <;> try dsimp only) | with_reducible refine keeps_of_pair (by assumption) ?_
                 | with_reducible refine keeps_of_triple (by assumption) ?_ | with_reducible refine keeps_of_some (by assumption) ?_
                 | with_reducible refine keeps_of_some2 (by assumption) ?_)

theorem State.helloDue_keeps {s0 : State} {s : State} {g : Nat} {j : Nat} (h0 : Keeps s0 s) :
    Keeps s0 (State.helloDue s g j) := by
  unfold State.helloDue
  try dsimp only
  repeat' (first | with_reducible assumption | (intro _; try dsimp only) | with_reducible apply State.ask_keeps
                 | with_reducible apply State.setGroupL_keeps | with_reducible apply State.sendHello_keeps
                 | with_reducible exact keepsOpt_none | with_reducible exact keepsOpt2_none | with_reducible apply keepsOpt_some
                 | with_reducible apply keepsOpt2_some | (simp only [keeps_mk]; with_reducible refine Keeps.fold ?_)
                 | with_reducible apply keeps_ite | (split <;> try dsimp only)
                 | with_reducible refine keeps_of_pair (by assumption) ?_ | with_reducible refine keeps_of_some (by assumption) ?_
                 | with_reducible refine keeps_of_some2 (by assumption) ?_)

theorem State.lpiAsk_keeps {s0 : State} {s : State} {g : Nat} (h0 : Keeps s0 s) :
    Keeps s0 (State.lpiAsk s g) := by
  unfold State.lpiAsk
  try dsimp only
  repeat' (first | with_reducible assumption | with_reducible apply State.setGroupL_keeps
                 | (simp only [keeps_mk]; with_reducible refine Keeps.fold ?_) | with_reducible apply keeps_ite
                 | (split <;> try dsimp only))

theorem State.lpiDrop_keeps {s0 : State} {s : State} {g j : Nat} (h0 : Keeps s0 s) :
    Keeps s0 (State.lpiDrop s g j) := by
  unfold State.lpiDrop
  try dsimp only
  repeat' (first | with_reducible assumption | with_reducible apply State.setGroupL_keeps | with_reducible apply State.sendHello_keeps
                 | (simp only [keeps_mk]; with_reducible refine Keeps.fold ?_))

theorem State.lpiQuiet_keeps {s0 : State} {s : State} {g : Nat} {j : Nat} {wakeUs : Nat} (h0 : Keeps s0 s) :
    Keeps s0 (State.lpiQuiet s g j wakeUs) := by
  unfold State.lpiQuiet
  try dsimp only
  repeat' (first | with_reducible assumption | (intro _; try dsimp only) | with_reducible apply State.timeLost_keeps
                 | with_reducible apply State.setGroupL_keeps | with_reducible apply State.updLink_keeps
                 | with_reducible apply State.groupEvent_keeps | with_reducible apply State.clearBuffers_keeps
                 | with_reducible apply State.clearPause_keeps | with_reducible apply State.sendHello_keeps
                 | with_reducible apply keeps_foldl | with_reducible apply keeps_foldl_pair
                 | with_reducible apply keeps_foldl_triple | with_reducible apply keepsOpt_foldl
                 | (simp only [keeps_mk]; with_reducible refine Keeps.fold ?_) | with_reducible apply keeps_ite
                 | (split <;> try dsimp only) | with_reducible refine keeps_of_pair (by assumption) ?_
                 | with_reducible refine keeps_of_triple (by assumption) ?_ | with_reducible refine keeps_of_some (by assumption) ?_
                 | with_reducible refine keeps_of_some2 (by assumption) ?_)

theorem State.lpiWake_keeps {s0 : State} {s : State} {g : Nat} (h0 : Keeps s0 s) :
    Keeps s0 (State.lpiWake s g) := by
  unfold State.lpiWake
  try dsimp only
  repeat' (first | with_reducible assumption | (intro _; try dsimp only) | with_reducible apply State.updLink_keeps
                 | with_reducible apply State.setGroupL_keeps | with_reducible apply keeps_foldl | with_reducible apply keeps_foldl_pair
                 | with_reducible apply keeps_foldl_triple | (simp only [keeps_mk]; with_reducible refine Keeps.fold ?_)
                 | with_reducible apply keeps_ite | (split <;> try dsimp only))

theorem State.lpiLeft_keeps {s0 : State} {s : State} {g : Nat} (h0 : Keeps s0 s) :
    Keeps s0 (State.lpiLeft s g) := by
  unfold State.lpiLeft
  try dsimp only
  repeat' (first | with_reducible assumption | (intro _; try dsimp only) | with_reducible apply State.setGroupL_keeps
                 | with_reducible apply State.groupEvent_keeps | with_reducible apply State.lpiWake_keeps
                 | (simp only [keeps_mk]; with_reducible refine Keeps.fold ?_) | with_reducible apply keeps_ite
                 | (split <;> try dsimp only) | with_reducible refine keeps_of_pair (by assumption) ?_
                 | with_reducible refine keeps_of_some (by assumption) ?_ | with_reducible refine keeps_of_some2 (by assumption) ?_)

theorem State.lpiWoken_keeps {s0 : State} {s : State} {g : Nat} (h0 : Keeps s0 s) :
    Keeps s0 (State.lpiWoken s g) := by
  unfold State.lpiWoken
  try dsimp only
  repeat' (first | with_reducible assumption | (intro _; try dsimp only) | with_reducible apply State.updLink_keeps
                 | with_reducible apply State.setGroupL_keeps | with_reducible apply State.advanceEpoch_keeps
                 | with_reducible apply State.count_keeps | with_reducible apply State.groupEvent_keeps
                 | with_reducible apply State.chooseTime_keeps | with_reducible apply keeps_foldl | with_reducible apply keeps_foldl_pair
                 | with_reducible apply keeps_foldl_triple | (simp only [keeps_mk]; with_reducible refine Keeps.fold ?_)
                 | with_reducible apply keeps_ite | (split <;> try dsimp only))

theorem State.wakeFailed_keeps {s0 : State} {s : State} {g : Nat} (h0 : Keeps s0 s) :
    Keeps s0 (State.wakeFailed s g) := by
  unfold State.wakeFailed
  try dsimp only
  repeat' (first | with_reducible assumption | (intro _; try dsimp only) | with_reducible apply State.linkLeave_keeps
                 | with_reducible apply State.setGroupL_keeps | with_reducible apply State.groupEvent_keeps
                 | with_reducible apply keeps_foldl | with_reducible apply keeps_foldl_pair | with_reducible apply keeps_foldl_triple
                 | (simp only [keeps_mk]; with_reducible refine Keeps.fold ?_) | with_reducible apply keeps_ite
                 | (split <;> try dsimp only))

theorem State.lpiFlags_keeps {s0 : State} {s : State} {g j : Nat} {h : Hello} (h0 : Keeps s0 s) :
    Keeps s0 (State.lpiFlags s g j h) := by
  unfold State.lpiFlags
  try dsimp only
  repeat' (first | with_reducible assumption | with_reducible apply State.lpiQuiet_keeps | with_reducible apply State.lpiDrop_keeps
                 | with_reducible apply State.setGroupL_keeps | with_reducible apply State.sendHello_keeps
                 | (simp only [keeps_mk]; with_reducible refine Keeps.fold ?_) | with_reducible apply keeps_ite
                 | (split <;> try dsimp only))

theorem State.lpiSettle_keeps {s0 : State} {s : State} (h0 : Keeps s0 s) :
    Keeps s0 (State.lpiSettle s) := by
  unfold State.lpiSettle
  try dsimp only
  repeat' (first | with_reducible assumption | (intro _; try dsimp only) | with_reducible apply State.lpiWake_keeps
                 | with_reducible apply State.lpiDrop_keeps | with_reducible apply State.setGroupL_keeps
                 | with_reducible apply keeps_foldl | with_reducible apply keeps_foldl_pair | with_reducible apply keeps_foldl_triple
                 | (simp only [keeps_mk]; with_reducible refine Keeps.fold ?_) | with_reducible apply keeps_ite
                 | (split <;> try dsimp only) | with_reducible refine keeps_of_pair (by assumption) ?_
                 | with_reducible refine keeps_of_triple (by assumption) ?_ | with_reducible refine keeps_of_some (by assumption) ?_
                 | with_reducible refine keeps_of_some2 (by assumption) ?_)

theorem State.helloLink_keeps {s0 : State} {s : State} {g j : Nat} {h : Hello} (h0 : Keeps s0 s) :
    Keeps s0 (State.helloLink s g j h) := by
  unfold State.helloLink
  try dsimp only
  repeat' (first | with_reducible assumption | with_reducible apply State.setLink_keeps | with_reducible apply State.linkJudge_keeps
                 | with_reducible apply State.linkLeave_keeps | with_reducible apply State.lpiFlags_keeps
                 | with_reducible apply State.lpiWoken_keeps | (simp only [keeps_mk]; with_reducible refine Keeps.fold ?_)
                 | with_reducible apply keeps_ite | (split <;> try dsimp only) | with_reducible refine keeps_of_pair (by assumption) ?_
                 | with_reducible refine keeps_of_triple (by assumption) ?_ | with_reducible refine keeps_of_some (by assumption) ?_
                 | with_reducible refine keeps_of_some2 (by assumption) ?_)

theorem State.lightStable_keeps {s0 : State} {s : State} {g j : Nat} (h0 : Keeps s0 s) :
    Keeps s0 (State.lightStable s g j) := by
  unfold State.lightStable
  try dsimp only
  repeat' (first | with_reducible assumption | with_reducible apply State.setLink_keeps
                 | (simp only [keeps_mk]; with_reducible refine Keeps.fold ?_) | with_reducible apply keeps_ite
                 | (split <;> try dsimp only))

theorem State.linkLock_keeps {s0 : State} {s : State} {g j : Nat} (h0 : Keeps s0 s) :
    Keeps s0 (State.linkLock s g j) := by
  unfold State.linkLock
  try dsimp only
  repeat' (first | with_reducible assumption | with_reducible apply State.setLink_keeps
                 | (simp only [keeps_mk]; with_reducible refine Keeps.fold ?_) | with_reducible apply keeps_ite
                 | (split <;> try dsimp only))

theorem State.switchedIn_keeps {s0 : State} {s : State} {g j : Nat} (h0 : Keeps s0 s) :
    Keeps s0 (State.switchedIn s g j) := by
  unfold State.switchedIn
  try dsimp only
  repeat' (first | with_reducible assumption | with_reducible apply State.linkIn_keeps | with_reducible apply keeps_ite
                 | (split <;> try dsimp only))

theorem State.linkLost_keeps {s0 : State} {s : State} {g j code : Nat} (h0 : Keeps s0 s) :
    Keeps s0 (State.linkLost s g j code) := by
  unfold State.linkLost
  repeat' (first | with_reducible assumption | with_reducible apply State.linkLeave_keeps | with_reducible apply keeps_ite
                 | (split <;> try dsimp only))

theorem State.contactOpen_keeps {s0 : State} {s : State} {g : Nat} (h0 : Keeps s0 s) :
    Keeps s0 (State.contactOpen s g) := by
  unfold State.contactOpen
  try dsimp only
  repeat' (first | with_reducible assumption | with_reducible apply State.setGroupL_keeps | with_reducible exact keepsOpt_none
                 | with_reducible exact keepsOpt2_none | with_reducible apply keepsOpt_some | with_reducible apply keepsOpt2_some
                 | (simp only [keeps_mk]; with_reducible refine Keeps.fold ?_))

theorem State.contactClose_keeps {s0 : State} {s : State} {g : Nat} (h0 : Keeps s0 s) :
    Keeps s0 (State.contactClose s g) := by
  unfold State.contactClose
  try dsimp only
  repeat' (first | with_reducible assumption | (intro _; try dsimp only) | with_reducible apply State.setGroupL_keeps
                 | with_reducible apply State.groupRestart_keeps | (simp only [keeps_mk]; with_reducible refine Keeps.fold ?_)
                 | with_reducible apply keeps_ite)

theorem State.contactHeld_keeps {s0 : State} {s : State} {g : Nat} (h0 : Keeps s0 s) :
    Keeps s0 (State.contactHeld s g) := by
  unfold State.contactHeld
  try dsimp only
  repeat' (first | with_reducible assumption | with_reducible apply State.setGroupL_keeps | with_reducible apply State.lifeCount_keeps
                 | with_reducible apply State.groupEvent_keeps | with_reducible apply State.groupRetry_keeps
                 | with_reducible apply State.groupLeave_keeps | (simp only [keeps_mk]; with_reducible refine Keeps.fold ?_)
                 | with_reducible apply keeps_ite | (split <;> try dsimp only))

theorem State.lightLost_keeps {s0 : State} {s : State} {bay : Nat} (h0 : Keeps s0 s) :
    Keeps s0 (State.lightLost s bay) := by
  unfold State.lightLost
  repeat' (first | with_reducible assumption | (intro _; try dsimp only) | with_reducible apply State.groupLeave_keeps
                 | with_reducible apply keeps_foldl | with_reducible apply keeps_foldl_pair | with_reducible apply keeps_foldl_triple)

theorem State.lightBack_keeps {s0 : State} {s : State} {bay : Nat} (h0 : Keeps s0 s) :
    Keeps s0 (State.lightBack s bay) := by
  unfold State.lightBack
  repeat' (first | with_reducible assumption | (intro _; try dsimp only) | with_reducible apply State.groupRetry_keeps
                 | with_reducible apply keeps_foldl | with_reducible apply keeps_foldl_pair | with_reducible apply keeps_foldl_triple)

theorem State.sendPause_keeps {s0 : State} {s : State} {g j prio quanta : Nat} (h0 : Keeps s0 s) :
    Keeps s0 (State.sendPause s g j prio quanta) := by
  unfold State.sendPause
  try dsimp only
  repeat' (first | with_reducible assumption | with_reducible apply State.sendFrame_keeps | with_reducible apply State.lcount_keeps
                 | with_reducible apply keeps_ite | (split <;> try dsimp only))

theorem State.pauseCheck_keeps {s0 : State} {s : State} {g j : Nat} (h0 : Keeps s0 s) :
    Keeps s0 (State.pauseCheck s g j) := by
  unfold State.pauseCheck
  try dsimp only
  repeat' (first | with_reducible assumption | (intro _; try dsimp only) | with_reducible apply State.sendPause_keeps
                 | with_reducible apply keeps_foldl | with_reducible apply keeps_foldl_pair | with_reducible apply keeps_foldl_triple
                 | (simp only [keeps_mk]; with_reducible refine Keeps.fold ?_) | with_reducible apply keeps_ite
                 | (split <;> try dsimp only))

theorem State.pauseSettle_keeps {s0 : State} {s : State} (h0 : Keeps s0 s) :
    Keeps s0 (State.pauseSettle s) := by
  unfold State.pauseSettle
  try dsimp only
  repeat' (first | with_reducible assumption | (intro _; try dsimp only) | with_reducible apply State.pauseCheck_keeps
                 | with_reducible apply keepsOpt_map | with_reducible apply keepsOpt2_mapPair | with_reducible apply keepsOpt2_map
                 | with_reducible apply keeps_foldl | with_reducible apply keeps_foldl_pair
                 | with_reducible apply keeps_foldl_triple | with_reducible apply keepsOpt_foldl
                 | (simp only [keeps_mk]; with_reducible refine Keeps.fold ?_) | with_reducible apply keeps_ite)

theorem State.pauseRefresh_keeps {s0 : State} {s : State} {g j prio : Nat} (h0 : Keeps s0 s) :
    Keeps s0 (State.pauseRefresh s g j prio) := by
  unfold State.pauseRefresh
  repeat' (first | with_reducible assumption | with_reducible apply State.sendPause_keeps | with_reducible apply keeps_ite
                 | (split <;> try dsimp only))

theorem State.pauseApply_keeps {s0 : State} {s : State} {g j prio quanta : Nat} (h0 : Keeps s0 s) :
    Keeps s0 (State.pauseApply s g j prio quanta) := by
  unfold State.pauseApply
  try dsimp only
  repeat' (first | with_reducible assumption | (simp only [keeps_mk]; with_reducible refine Keeps.fold ?_)
                 | with_reducible apply keeps_ite | (split <;> try dsimp only))

theorem State.macControlIn_keeps {s0 : State} {s : State} {g j : Nat} {b : Bytes} (h0 : Keeps s0 s) :
    Keeps s0 (State.macControlIn s g j b) := by
  unfold State.macControlIn
  try dsimp only
  repeat' (first | with_reducible assumption | (intro _; try dsimp only) | with_reducible apply State.lcount_keeps
                 | with_reducible apply State.pauseApply_keeps | with_reducible apply keeps_foldl | with_reducible apply keeps_foldl_pair
                 | with_reducible apply keeps_foldl_triple | with_reducible apply keeps_ite | (split <;> try dsimp only))

end Sys2Proof.Machine
end

