-- ==== Sys2Proof/Laws/KeepArrive.lean ====
section
/-!
SUPPORT. What the operations of Machine/Arrive.lean keep.
-/

namespace Sys2Proof.Machine

set_option linter.unusedTactic false
set_option linter.unreachableTactic false
set_option linter.unusedVariables false

theorem State.endResponse_keeps {s0 : State} {s : State} {t : Txn} {p : Pkt} {typ : Nat} {r : RespData} (h0 : Keeps s0 s) :
    Keeps s0 (State.endResponse s t p typ r) := by
  unfold State.endResponse
  try dsimp only
  repeat' (first | with_reducible assumption | (intro _; try dsimp only) | with_reducible apply State.countN_keeps
                 | with_reducible apply AdmRes.ok_keeps | with_reducible apply State.updCtx_keeps
                 | with_reducible apply State.endTxn_keeps | with_reducible apply State.qpError_keeps
                 | with_reducible apply State.tagFailed_keeps | with_reducible exact keepsOpt_none
                 | with_reducible exact keepsOpt2_none | with_reducible apply keepsOpt_some | with_reducible apply keepsOpt2_some
                 | (simp only [keeps_mk]; with_reducible refine Keeps.fold ?_) | with_reducible apply keeps_ite
                 | (split <;> try dsimp only) | with_reducible refine keeps_of_pair (by assumption) ?_
                 | with_reducible refine keeps_of_triple (by assumption) ?_ | with_reducible refine keeps_of_some (by assumption) ?_
                 | with_reducible refine keeps_of_some2 (by assumption) ?_)

theorem State.gotResponse_keeps {s0 : State} {s : State} {t : Txn} {p : Pkt} {typ : Nat} (h0 : Keeps s0 s) :
    Keeps s0 (State.gotResponse s t p typ) := by
  unfold State.gotResponse
  try dsimp only
  repeat' (first | with_reducible assumption | (intro _; try dsimp only) | with_reducible apply State.bindEngine_keeps
                 | with_reducible apply State.throughEngine_keeps | with_reducible apply State.endResponse_keeps
                 | with_reducible exact keepsOpt_none | with_reducible exact keepsOpt2_none | with_reducible apply keepsOpt_some
                 | with_reducible apply keepsOpt2_some | with_reducible apply keepsOpt_bind | with_reducible apply keepsOpt_map
                 | with_reducible apply keepsOpt2_mapPair | with_reducible apply keepsOpt2_map | with_reducible apply keeps_getD
                 | (simp only [keeps_mk]; with_reducible refine Keeps.fold ?_) | with_reducible apply keeps_ite
                 | (split <;> try dsimp only) | with_reducible refine keeps_of_pair (by assumption) ?_
                 | with_reducible refine keeps_of_triple (by assumption) ?_ | with_reducible refine keeps_of_some (by assumption) ?_
                 | with_reducible refine keeps_of_some2 (by assumption) ?_)

theorem State.openWaiting_keeps {s0 : State} {s : State} (h0 : Keeps s0 s) :
    Keeps s0 (State.openWaiting s) := by
  unfold State.openWaiting
  try dsimp only
  repeat' (first | with_reducible assumption | (intro _; try dsimp only) | with_reducible apply State.gotResponse_keeps
                 | with_reducible apply keeps_foldl | with_reducible apply keeps_foldl_pair
                 | with_reducible apply keeps_foldl_triple | with_reducible apply keepsOpt_foldl
                 | (simp only [keeps_mk]; with_reducible refine Keeps.fold ?_) | with_reducible apply keeps_ite
                 | (split <;> try dsimp only) | with_reducible refine keeps_of_pair (by assumption) ?_
                 | with_reducible refine keeps_of_triple (by assumption) ?_ | with_reducible refine keeps_of_some (by assumption) ?_
                 | with_reducible refine keeps_of_some2 (by assumption) ?_)

theorem State.ringArrived_keeps {s0 : State} {s : State} {n : Nat} {index : Nat} {r : Bytes ⊕ Nat} (h0 : Keeps s0 s) :
    Keeps s0 (State.ringArrived s n index r) := by
  unfold State.ringArrived
  try dsimp only
  repeat' (first | with_reducible assumption | (intro _; try dsimp only) | with_reducible apply State.setWq_keeps
                 | with_reducible apply State.wqError_keeps | with_reducible apply State.drained_keeps
                 | (simp only [keeps_mk]; with_reducible refine Keeps.fold ?_) | with_reducible apply keeps_ite
                 | (split <;> try dsimp only) | with_reducible refine keeps_of_pair (by assumption) ?_
                 | with_reducible refine keeps_of_triple (by assumption) ?_ | with_reducible refine keeps_of_some (by assumption) ?_
                 | with_reducible refine keeps_of_some2 (by assumption) ?_)

theorem State.skyArrived_keeps {s0 : State} {s : State} {arr : Nat} {off : Option Nat} {r : Bytes ⊕ Nat} (h0 : Keeps s0 s) :
    Keeps s0 (State.skyArrived s arr off r) := by
  unfold State.skyArrived
  try dsimp only
  repeat' (first | with_reducible assumption | (intro _; try dsimp only) | with_reducible apply State.land_keeps
                 | with_reducible apply State.arrivalDone_keeps | with_reducible apply State.arrivalPerformed_keeps
                 | (simp only [keeps_mk]; with_reducible refine Keeps.fold ?_) | with_reducible apply keeps_ite
                 | (split <;> try dsimp only) | with_reducible refine keeps_of_pair (by assumption) ?_
                 | with_reducible refine keeps_of_triple (by assumption) ?_ | with_reducible refine keeps_of_some (by assumption) ?_
                 | with_reducible refine keeps_of_some2 (by assumption) ?_)

theorem State.confirmed_keeps {s0 : State} {s : State} {p : Nat} {arr : Nat} (h0 : Keeps s0 s) :
    Keeps s0 (State.confirmed s p arr) := by
  unfold State.confirmed
  try dsimp only
  repeat' (first | with_reducible assumption | (intro _; try dsimp only) | with_reducible apply State.arrivalPerformed_keeps
                 | with_reducible apply keeps_foldl | with_reducible apply keeps_foldl_pair
                 | with_reducible apply keeps_foldl_triple | with_reducible apply keepsOpt_foldl
                 | (simp only [keeps_mk]; with_reducible refine Keeps.fold ?_) | with_reducible apply keeps_ite
                 | (split <;> try dsimp only) | with_reducible refine keeps_of_pair (by assumption) ?_
                 | with_reducible refine keeps_of_triple (by assumption) ?_ | with_reducible refine keeps_of_some (by assumption) ?_
                 | with_reducible refine keeps_of_some2 (by assumption) ?_)

theorem State.arrived_keeps {s0 : State} {s : State} {t : Tag} {r : Bytes ⊕ Nat} (h0 : Keeps s0 s) :
    Keeps s0 (State.arrived s t r) := by
  unfold State.arrived
  try dsimp only
  repeat' (first | with_reducible assumption | (intro _; try dsimp only) | with_reducible apply State.dirtyStop_keeps
                 | with_reducible apply State.dirtyArrived_keeps | with_reducible apply State.setAdm_keeps
                 | with_reducible apply State.admError_keeps | with_reducible apply State.updOp_keeps
                 | with_reducible apply State.msgLocalFail_keeps | with_reducible apply State.land_keeps
                 | with_reducible apply State.fillFail_keeps | with_reducible apply State.fillDone_keeps
                 | with_reducible apply State.setColl_keeps | with_reducible apply State.collLoad_keeps
                 | with_reducible apply State.setEntry_keeps | with_reducible apply State.failEntry_keeps
                 | with_reducible apply State.readLocalOper_keeps | with_reducible apply State.goOn_keeps
                 | with_reducible apply State.operConfirmed_keeps | with_reducible apply State.ringArrived_keeps
                 | with_reducible apply State.skyArrived_keeps | with_reducible apply State.confirmed_keeps
                 | with_reducible apply keepsOpt_map | with_reducible apply keepsOpt2_mapPair | with_reducible apply keepsOpt2_map
                 | (simp only [keeps_mk]; with_reducible refine Keeps.fold ?_) | with_reducible apply keeps_ite
                 | (split <;> try dsimp only) | with_reducible refine keeps_of_pair (by assumption) ?_
                 | with_reducible refine keeps_of_triple (by assumption) ?_ | with_reducible refine keeps_of_some (by assumption) ?_
                 | with_reducible refine keeps_of_some2 (by assumption) ?_)

theorem State.peerRefused_keeps {s0 : State} {s : State} {x : Nat × Nat} (h0 : Keeps s0 s) :
    Keeps s0 (State.peerRefused s x) := by
  unfold State.peerRefused
  try dsimp only
  repeat' (first | with_reducible assumption | (intro _; try dsimp only) | with_reducible apply State.freeTag_keeps
                 | with_reducible apply State.arrived_keeps | (simp only [keeps_mk]; with_reducible refine Keeps.fold ?_)
                 | with_reducible apply keeps_ite | (split <;> try dsimp only)
                 | with_reducible refine keeps_of_pair (by assumption) ?_ | with_reducible refine keeps_of_triple (by assumption) ?_
                 | with_reducible refine keeps_of_some (by assumption) ?_ | with_reducible refine keeps_of_some2 (by assumption) ?_)

end Sys2Proof.Machine
end

