-- ==== Sys2Proof/Laws/KeepFinish.lean ====
section
/-!
SUPPORT. What the operations of Machine/Finish.lean keep.
-/

namespace Sys2Proof.Machine

set_option linter.unusedTactic false
set_option linter.unreachableTactic false
set_option linter.unusedVariables false

theorem State.handResolved_keeps {s0 : State} {s : State} {r : Resolved} (h0 : Keeps s0 s) :
    Keeps s0 (State.handResolved s r) := by
  unfold State.handResolved
  try dsimp only
  repeat' (first | with_reducible assumption | (intro _; try dsimp only) | with_reducible apply State.control_keeps
                 | with_reducible apply State.treeUpLost_keeps | with_reducible apply State.msgEnd_keeps
                 | with_reducible apply State.land_keeps | with_reducible apply State.collAcked_keeps
                 | with_reducible apply State.sendNote_keeps | with_reducible apply State.operandMoved_keeps
                 | with_reducible apply State.transitAcked_keeps | with_reducible apply State.transit_keeps
                 | with_reducible apply State.launchEnded_keeps | with_reducible apply State.relay_keeps
                 | with_reducible apply State.arrivalDone_keeps | with_reducible apply State.arrivalPerformed_keeps
                 | with_reducible apply State.copyAcked_keeps | with_reducible apply State.moveReply_keeps
                 | with_reducible exact keepsOpt_none | with_reducible exact keepsOpt2_none | with_reducible apply keepsOpt_some
                 | with_reducible apply keepsOpt2_some | with_reducible apply keepsOpt_bind | with_reducible apply keepsOpt_map
                 | with_reducible apply keepsOpt2_mapPair | with_reducible apply keepsOpt2_map | with_reducible apply keeps_getD
                 | (simp only [keeps_mk]; with_reducible refine Keeps.fold ?_) | with_reducible apply keeps_ite
                 | (split <;> try dsimp only) | with_reducible refine keeps_of_pair (by assumption) ?_
                 | with_reducible refine keeps_of_triple (by assumption) ?_ | with_reducible refine keeps_of_some (by assumption) ?_
                 | with_reducible refine keeps_of_some2 (by assumption) ?_)

theorem State.handIn_keeps {s0 : State} {s : State} {p : Pkt} (h0 : Keeps s0 s) :
    Keeps s0 (State.handIn s p) := by
  unfold State.handIn
  try dsimp only
  repeat' (first | with_reducible assumption | with_reducible apply State.collIn_keeps | with_reducible apply State.setupIn_keeps
                 | with_reducible apply State.treeUpIn_keeps | with_reducible apply State.treeDownIn_keeps
                 | with_reducible apply State.launchIn_keeps | with_reducible apply State.cancelIn_keeps
                 | with_reducible apply State.doneIn_keeps | with_reducible apply State.proposeIn_keeps
                 | with_reducible apply State.moveStartIn_keeps | with_reducible apply State.moveCopyIn_keeps
                 | with_reducible apply State.moveDoneIn_keeps | with_reducible apply State.moveEndIn_keeps
                 | with_reducible apply State.hintIn_keeps | with_reducible apply State.watchNote_keeps
                 | with_reducible apply State.homeNote_keeps | with_reducible apply State.collapseDoneIn_keeps
                 | with_reducible apply State.domainSetupIn_keeps | with_reducible apply State.learnEpoch_keeps
                 | with_reducible apply State.readyAt_keeps | (simp only [keeps_mk]; with_reducible refine Keeps.fold ?_)
                 | with_reducible apply keeps_ite | (split <;> try dsimp only) | with_reducible refine keeps_of_pair (by assumption) ?_
                 | with_reducible refine keeps_of_triple (by assumption) ?_ | with_reducible refine keeps_of_some (by assumption) ?_
                 | with_reducible refine keeps_of_some2 (by assumption) ?_)

theorem State.handTree_keeps {s0 : State} {s : State} {e : TreeEv} (h0 : Keeps s0 s) :
    Keeps s0 (State.handTree s e) := by
  unfold State.handTree
  try dsimp only
  repeat' (first | with_reducible assumption | with_reducible apply State.barNotice_keeps | with_reducible apply State.groupDefined_keeps
                 | with_reducible apply State.revokeNotice_keeps | with_reducible apply State.freeNotice_keeps
                 | with_reducible apply State.shootNotice_keeps | with_reducible apply State.faultNotice_keeps
                 | with_reducible apply State.snapNotice_keeps | with_reducible apply State.collAborted_keeps
                 | with_reducible apply State.barDone_keeps | with_reducible apply State.revokeDone_keeps
                 | with_reducible apply State.freeDone_keeps | with_reducible apply State.shootDone_keeps
                 | with_reducible apply State.faultDone_keeps | with_reducible apply State.snapDone_keeps
                 | with_reducible apply State.jobFault_keeps | (simp only [keeps_mk]; with_reducible refine Keeps.fold ?_)
                 | with_reducible apply keeps_ite | (split <;> try dsimp only) | with_reducible refine keeps_of_pair (by assumption) ?_
                 | with_reducible refine keeps_of_triple (by assumption) ?_ | with_reducible refine keeps_of_some (by assumption) ?_
                 | with_reducible refine keeps_of_some2 (by assumption) ?_)

theorem State.pruneWaits_keeps {s0 : State} {s : State} (h0 : Keeps s0 s) :
    Keeps s0 (State.pruneWaits s) := by
  unfold State.pruneWaits
  try dsimp only
  repeat' (first | with_reducible assumption | (intro _; try dsimp only) | with_reducible apply keepsOpt_map
                 | with_reducible apply keepsOpt2_mapPair | with_reducible apply keepsOpt2_map | with_reducible apply keepsOpt_bind
                 | (simp only [keeps_mk]; with_reducible refine Keeps.fold ?_) | with_reducible apply keeps_ite
                 | (split <;> try dsimp only) | with_reducible refine keeps_of_pair (by assumption) ?_
                 | with_reducible refine keeps_of_triple (by assumption) ?_ | with_reducible refine keeps_of_some (by assumption) ?_
                 | with_reducible refine keeps_of_some2 (by assumption) ?_)

theorem State.errorRecords_keeps {s0 : State} {s : State} (h0 : Keeps s0 s) :
    Keeps s0 (State.errorRecords s) := by
  unfold State.errorRecords
  try dsimp only
  repeat' (first | with_reducible assumption | (intro _; try dsimp only) | with_reducible apply State.qpErrorRecord_keeps
                 | with_reducible apply keeps_foldl | with_reducible apply keeps_foldl_pair | with_reducible apply keeps_foldl_triple
                 | (simp only [keeps_mk]; with_reducible refine Keeps.fold ?_) | with_reducible apply keeps_ite
                 | (split <;> try dsimp only) | with_reducible refine keeps_of_pair (by assumption) ?_
                 | with_reducible refine keeps_of_triple (by assumption) ?_ | with_reducible refine keeps_of_some (by assumption) ?_
                 | with_reducible refine keeps_of_some2 (by assumption) ?_)

theorem State.round_keeps {s0 : State} {s : State} (h0 : Keeps s0 s) :
    Keeps s0 (State.round s) := by
  unfold State.round
  try dsimp only
  repeat' (first | with_reducible assumption | (intro _; try dsimp only) | with_reducible apply State.heldWrites_keeps
                 | with_reducible apply State.pump_keeps | with_reducible apply State.sealWaiting_keeps
                 | with_reducible apply State.endNewWaits_keeps | with_reducible apply State.fences_keeps
                 | with_reducible apply State.pruneLaunches_keeps | with_reducible apply State.sendWaiting_keeps
                 | with_reducible apply State.dueStarts_keeps | with_reducible apply State.duePins_keeps
                 | with_reducible apply State.dueChanges_keeps | with_reducible apply State.testRose_keeps
                 | with_reducible apply State.snuffEnd_keeps | with_reducible apply State.drainsOwed_keeps
                 | with_reducible apply State.raiseFault_keeps | with_reducible apply State.quenchGo_keeps
                 | with_reducible apply State.openWaiting_keeps | with_reducible apply State.peerRefused_keeps
                 | with_reducible apply State.handResolved_keeps | with_reducible apply State.handIn_keeps
                 | with_reducible apply State.handTree_keeps | with_reducible apply State.pruneWaits_keeps
                 | with_reducible apply State.errorRecords_keeps | with_reducible apply keeps_foldl
                 | with_reducible apply keeps_foldl_pair | with_reducible apply keeps_foldl_triple
                 | with_reducible apply keepsOpt_foldl | (simp only [keeps_mk]; with_reducible refine Keeps.fold ?_)
                 | with_reducible apply keeps_ite | (split <;> try dsimp only)
                 | with_reducible refine keeps_of_pair (by assumption) ?_ | with_reducible refine keeps_of_triple (by assumption) ?_
                 | with_reducible refine keeps_of_some (by assumption) ?_ | with_reducible refine keeps_of_some2 (by assumption) ?_)

theorem rounds_keeps {s0 : State} {fuel : Nat} {y1 : State} (h0 : Keeps s0 y1) :
    Keeps s0 (rounds fuel y1) := by
  induction fuel generalizing y1 with
  | zero =>
    unfold rounds
    try dsimp only
    repeat' (first | with_reducible assumption | with_reducible apply State.round_keeps | with_reducible apply keeps_ite
                   | (split <;> try dsimp only))
  | succ _ ih =>
    unfold rounds
    try dsimp only
    repeat' (first | with_reducible assumption
                   | with_reducible apply ih | with_reducible apply State.round_keeps | with_reducible apply keeps_ite
                   | (split <;> try dsimp only))

theorem State.finish_keeps {s0 : State} {s : State} (h0 : Keeps s0 s) :
    Keeps s0 (State.finish s) := by
  unfold State.finish
  try dsimp only
  repeat' (first | with_reducible assumption | (intro _; try dsimp only) | with_reducible apply State.settle_keeps
                 | with_reducible apply State.skyCome_keeps | with_reducible apply State.linkOwed_keeps
                 | with_reducible apply State.drrSettle_keeps | with_reducible apply State.lpiSettle_keeps
                 | with_reducible apply State.pauseSettle_keeps | with_reducible apply State.errorRecords_keeps
                 | with_reducible apply rounds_keeps | (simp only [keeps_mk]; with_reducible refine Keeps.fold ?_)
                 | with_reducible apply keeps_ite)

theorem run_keeps {s0 : State} {s : State} {f : State → State} (h0 : Keeps s0 s) (h1 : ∀ t, Keeps s0 t → Keeps s0 (f t)) :
    KeepsOut s0 (run s f) := by
  unfold run
  repeat' (first | with_reducible assumption | (intro _; try dsimp only) | with_reducible apply h1
                 | with_reducible apply State.finish_keeps | with_reducible apply keepsOut_next | with_reducible apply keeps_ite
                 | (split <;> try dsimp only))

theorem runAlways_keeps {s0 : State} {s : State} {f : State → State} (h0 : Keeps s0 s) (h1 : ∀ t, Keeps s0 t → Keeps s0 (f t)) :
    KeepsOut s0 (runAlways s f) := by
  unfold runAlways
  try dsimp only
  repeat' (first | with_reducible assumption | (intro _; try dsimp only) | with_reducible apply h1
                 | with_reducible apply State.finish_keeps | with_reducible apply keepsOut_next | with_reducible apply keeps_ite
                 | (split <;> try dsimp only))

theorem mmio_keeps {s0 : State} {s : State} {f : State → State} (h0 : Keeps s0 s) (h1 : ∀ t, Keeps s0 t → Keeps s0 (f t)) :
    KeepsOut s0 (mmio s f) := by
  unfold mmio
  repeat' (first | with_reducible assumption | (intro _; try dsimp only) | with_reducible apply h1 | with_reducible apply run_keeps
                 | with_reducible apply keepsOut_next | with_reducible apply keeps_ite | (split <;> try dsimp only))

end Sys2Proof.Machine
end

