-- ==== Sys2Proof/Laws/KeepAdminQueue.lean ====
section
/-!
SUPPORT. What the operations of Machine/AdminQueue.lean keep.
-/

namespace Sys2Proof.Machine

set_option linter.unusedTactic false
set_option linter.unreachableTactic false
set_option linter.unusedVariables false

theorem State.admFlag_keeps {s0 : State} {s : State} {p i : Nat} (h0 : Keeps s0 s) :
    Keeps s0 (State.admFlag s p i) := by
  unfold State.admFlag
  repeat' (first | with_reducible assumption | with_reducible apply State.setFlagOf_keeps)

theorem execAdmCmdProducerWrite_keeps {s0 : State} {p value : Nat} {s : State} (h0 : Keeps s0 s) :
    KeepsOut s0 (execAdmCmdProducerWrite p value s) := by
  unfold execAdmCmdProducerWrite
  try dsimp only
  repeat' (first | with_reducible assumption | (intro _; try dsimp only) | with_reducible apply mmio_keeps
                 | with_reducible apply State.setAdm_keeps | with_reducible apply State.admError_keeps
                 | with_reducible apply keepsOut_next | (simp only [keeps_mk]; with_reducible refine Keeps.fold ?_)
                 | with_reducible apply keeps_ite | (split <;> try dsimp only))

theorem State.admTake_keeps {s0 : State} {s : State} {p len : Nat} (h0 : Keeps s0 s) :
    Keeps s0 (State.admTake s p len) := by
  unfold State.admTake
  try dsimp only
  repeat' (first | with_reducible assumption | with_reducible apply State.setAdm_keeps
                 | (simp only [keeps_mk]; with_reducible refine Keeps.fold ?_))

theorem State.admReadUnits_keeps {s0 : State} {s : State} {p : Nat} (h0 : Keeps s0 s) :
    Keeps s0 (State.admReadUnits s p) := by
  unfold State.admReadUnits
  try dsimp only
  repeat' (first | with_reducible assumption | with_reducible apply State.hostRead_keeps | with_reducible apply State.setAdm_keeps
                 | with_reducible exact keepsOpt_none | with_reducible exact keepsOpt2_none | with_reducible apply keepsOpt_some
                 | with_reducible apply keepsOpt2_some | (simp only [keeps_mk]; with_reducible refine Keeps.fold ?_)
                 | with_reducible apply keeps_ite | (split <;> try dsimp only) | with_reducible refine keeps_of_pair (by assumption) ?_
                 | with_reducible refine keeps_of_triple (by assumption) ?_ | with_reducible refine keeps_of_some (by assumption) ?_
                 | with_reducible refine keeps_of_some2 (by assumption) ?_)

theorem execAdminCommandFetch_keeps {s0 : State} {p : Nat} {s : State} (h0 : Keeps s0 s) :
    KeepsOut s0 (execAdminCommandFetch p s) := by
  unfold execAdminCommandFetch
  try dsimp only
  repeat' (first | with_reducible assumption | (intro _; try dsimp only) | with_reducible apply run_keeps
                 | with_reducible apply State.admReadUnits_keeps | with_reducible apply State.admError_keeps
                 | with_reducible apply State.admTake_keeps | with_reducible apply keepsOut_next
                 | (simp only [keeps_mk]; with_reducible refine Keeps.fold ?_) | with_reducible apply keeps_ite
                 | (split <;> try dsimp only) | with_reducible refine keeps_of_pair (by assumption) ?_
                 | with_reducible refine keeps_of_triple (by assumption) ?_ | with_reducible refine keeps_of_some (by assumption) ?_
                 | with_reducible refine keeps_of_some2 (by assumption) ?_ | with_reducible refine keeps_of_reply (by assumption) ?_
                 | with_reducible refine keeps_of_wait (by assumption) ?_)

theorem State.admCtrlFields_keeps {s0 : State} {s : State} {p value : Nat} (h0 : Keeps s0 s) :
    Keeps s0 (State.admCtrlFields s p value) := by
  unfold State.admCtrlFields
  try dsimp only
  repeat' (first | with_reducible assumption | with_reducible apply State.setRegOf_keeps | with_reducible apply State.admFlag_keeps
                 | with_reducible apply keeps_ite | (split <;> try dsimp only))

theorem execAdmCtrlEnableSet_keeps {s0 : State} {p value : Nat} {s : State} (h0 : Keeps s0 s) :
    KeepsOut s0 (execAdmCtrlEnableSet p value s) := by
  unfold execAdmCtrlEnableSet
  try dsimp only
  repeat' (first | with_reducible assumption | (intro _; try dsimp only) | with_reducible apply mmio_keeps
                 | with_reducible apply State.admCtrlFields_keeps | with_reducible apply State.admFlag_keeps
                 | with_reducible apply State.setRegOf_keeps | with_reducible apply State.setAdm_keeps
                 | with_reducible apply keepsOut_next | with_reducible apply keeps_ite | (split <;> try dsimp only))

theorem execAdmCtrlEnableClear_keeps {s0 : State} {p value : Nat} {s : State} (h0 : Keeps s0 s) :
    KeepsOut s0 (execAdmCtrlEnableClear p value s) := by
  unfold execAdmCtrlEnableClear
  try dsimp only
  repeat' (first | with_reducible assumption | (intro _; try dsimp only) | with_reducible apply mmio_keeps
                 | with_reducible apply State.admCtrlFields_keeps | with_reducible apply State.setRegOf_keeps
                 | with_reducible apply State.setAdm_keeps | with_reducible apply State.disown_keeps
                 | with_reducible apply State.admStopped_keeps | with_reducible apply keepsOut_next
                 | (simp only [keeps_mk]; with_reducible refine Keeps.fold ?_) | with_reducible apply keeps_ite
                 | (split <;> try dsimp only) | with_reducible refine keeps_of_pair (by assumption) ?_
                 | with_reducible refine keeps_of_triple (by assumption) ?_ | with_reducible refine keeps_of_some (by assumption) ?_
                 | with_reducible refine keeps_of_some2 (by assumption) ?_)

theorem State.admReset_keeps {s0 : State} {s : State} {p : Nat} (h0 : Keeps s0 s) :
    Keeps s0 (State.admReset s p) := by
  unfold State.admReset
  try dsimp only
  repeat' (first | with_reducible assumption | (intro _; try dsimp only) | with_reducible apply State.setAdm_keeps
                 | with_reducible apply State.disown_keeps | with_reducible apply State.gutter_keeps
                 | with_reducible apply State.resetRegsOf_keeps | with_reducible apply State.countOf_keeps
                 | with_reducible apply keepsOpt_map | with_reducible apply keepsOpt2_mapPair | with_reducible apply keepsOpt2_map
                 | with_reducible apply keeps_foldl | with_reducible apply keeps_foldl_pair | with_reducible apply keeps_foldl_triple
                 | (simp only [keeps_mk]; with_reducible refine Keeps.fold ?_) | with_reducible apply keeps_ite
                 | (split <;> try dsimp only) | with_reducible refine keeps_of_pair (by assumption) ?_
                 | with_reducible refine keeps_of_triple (by assumption) ?_ | with_reducible refine keeps_of_some (by assumption) ?_
                 | with_reducible refine keeps_of_some2 (by assumption) ?_)

theorem execAdmReplyConsumerWrite_keeps {s0 : State} {p value : Nat} {s : State} (h0 : Keeps s0 s) :
    KeepsOut s0 (execAdmReplyConsumerWrite p value s) := by
  unfold execAdmReplyConsumerWrite
  try dsimp only
  repeat' (first | with_reducible assumption | (intro _; try dsimp only) | with_reducible apply mmio_keeps
                 | with_reducible apply State.setAdm_keeps | with_reducible apply State.admFlag_keeps | with_reducible apply keepsOut_next
                 | (simp only [keeps_mk]; with_reducible refine Keeps.fold ?_) | with_reducible apply keeps_ite
                 | (split <;> try dsimp only))

theorem execUnlistedAdminOpcode_keeps {s0 : State} {p k : Nat} {s : State} (h0 : Keeps s0 s) :
    KeepsOut s0 (execUnlistedAdminOpcode p k s) := by
  unfold execUnlistedAdminOpcode
  try dsimp only
  repeat' (first | with_reducible assumption | (intro _; try dsimp only) | with_reducible apply run_keeps
                 | with_reducible apply State.adminRun_keeps | with_reducible apply State.reply_keeps
                 | with_reducible apply keepsAdm_reply | with_reducible apply keepsOut_next
                 | (simp only [keeps_mk]; with_reducible refine Keeps.fold ?_) | with_reducible apply keeps_ite
                 | (split <;> try dsimp only) | with_reducible refine keeps_of_pair (by assumption) ?_
                 | with_reducible refine keeps_of_triple (by assumption) ?_ | with_reducible refine keeps_of_some (by assumption) ?_
                 | with_reducible refine keeps_of_some2 (by assumption) ?_ | with_reducible refine keeps_of_reply (by assumption) ?_
                 | with_reducible refine keeps_of_wait (by assumption) ?_)

theorem execIdentify_keeps {s0 : State} {p k : Nat} {s : State} (h0 : Keeps s0 s) :
    KeepsOut s0 (execIdentify p k s) := by
  unfold execIdentify
  repeat' (first | with_reducible assumption | (intro _; try dsimp only) | with_reducible apply run_keeps
                 | with_reducible apply State.adminRun_keeps | with_reducible apply State.reply_keeps
                 | with_reducible apply keepsAdm_reply | with_reducible apply keepsOut_next)

theorem execNegotiateVersion_keeps {s0 : State} {p k : Nat} {s : State} (h0 : Keeps s0 s) :
    KeepsOut s0 (execNegotiateVersion p k s) := by
  unfold execNegotiateVersion
  try dsimp only
  repeat' (first | with_reducible assumption | (intro _; try dsimp only) | with_reducible apply run_keeps
                 | with_reducible apply State.adminRun_keeps | with_reducible apply State.setAdm_keeps | with_reducible apply keepsAdm_ok
                 | with_reducible apply keepsAdm_fail | with_reducible apply keepsAdm_field | with_reducible apply keepsOut_next
                 | (simp only [keeps_mk]; with_reducible refine Keeps.fold ?_) | with_reducible apply keeps_ite
                 | (split <;> try dsimp only))

theorem execGetFeature_keeps {s0 : State} {p k : Nat} {s : State} (h0 : Keeps s0 s) :
    KeepsOut s0 (execGetFeature p k s) := by
  unfold execGetFeature
  try dsimp only
  repeat' (first | with_reducible assumption | (intro _; try dsimp only) | with_reducible apply run_keeps
                 | with_reducible apply State.adminRun_keeps | with_reducible apply State.reply_keeps | with_reducible apply keepsAdm_fail
                 | with_reducible apply keepsAdm_reply | with_reducible apply keepsOut_next
                 | (simp only [keeps_mk]; with_reducible refine Keeps.fold ?_) | with_reducible apply keeps_ite
                 | (split <;> try dsimp only) | with_reducible refine keeps_of_pair (by assumption) ?_
                 | with_reducible refine keeps_of_triple (by assumption) ?_ | with_reducible refine keeps_of_some (by assumption) ?_
                 | with_reducible refine keeps_of_some2 (by assumption) ?_ | with_reducible refine keeps_of_reply (by assumption) ?_
                 | with_reducible refine keeps_of_wait (by assumption) ?_)

theorem execExpertUnlock_keeps {s0 : State} {p k : Nat} {s : State} (h0 : Keeps s0 s) :
    KeepsOut s0 (execExpertUnlock p k s) := by
  unfold execExpertUnlock
  try dsimp only
  repeat' (first | with_reducible assumption | (intro _; try dsimp only) | with_reducible apply run_keeps
                 | with_reducible apply State.adminRun_keeps | with_reducible apply keepsAdm_ok | with_reducible apply keepsAdm_fail
                 | with_reducible apply keepsAdm_field | with_reducible apply keepsOut_next
                 | (simp only [keeps_mk]; with_reducible refine Keeps.fold ?_) | with_reducible apply keeps_ite
                 | (split <;> try dsimp only))

theorem execExpertLock_keeps {s0 : State} {p k : Nat} {s : State} (h0 : Keeps s0 s) :
    KeepsOut s0 (execExpertLock p k s) := by
  unfold execExpertLock
  try dsimp only
  repeat' (first | with_reducible assumption | (intro _; try dsimp only) | with_reducible apply run_keeps
                 | with_reducible apply State.adminRun_keeps | with_reducible apply keepsAdm_ok | with_reducible apply keepsAdm_fail
                 | with_reducible apply keepsOut_next | (simp only [keeps_mk]; with_reducible refine Keeps.fold ?_)
                 | with_reducible apply keeps_ite | (split <;> try dsimp only))

end Sys2Proof.Machine
end

