-- ==== Sys2Proof/Laws/KeepReceive.lean ====
section
/-!
SUPPORT. What the operations of Machine/Receive.lean keep.
-/

namespace Sys2Proof.Machine

set_option linter.unusedTactic false
set_option linter.unreachableTactic false
set_option linter.unusedVariables false

theorem State.peerChanged_keeps {s0 : State} {s : State} {m e : Nat} (h0 : Keeps s0 s) :
    Keeps s0 (State.peerChanged s m e) := by
  unfold State.peerChanged
  try dsimp only
  repeat' (first | with_reducible assumption | (intro _; try dsimp only) | with_reducible apply State.qpError_keeps
                 | with_reducible apply State.endTxn_keeps | with_reducible apply State.gutter_keeps
                 | with_reducible apply State.jobFault_keeps | with_reducible apply State.holderLost_keeps
                 | with_reducible apply keepsOpt_map | with_reducible apply keepsOpt2_mapPair | with_reducible apply keepsOpt2_map
                 | with_reducible apply keeps_foldl | with_reducible apply keeps_foldl_pair | with_reducible apply keeps_foldl_triple
                 | (simp only [keeps_mk]; with_reducible refine Keeps.fold ?_) | with_reducible apply keeps_ite
                 | (split <;> try dsimp only))

theorem State.takeEpoch_keeps {s0 : State} {s : State} {m e : Nat} (h0 : Keeps s0 s) :
    Keeps s0 (State.takeEpoch s m e) := by
  unfold State.takeEpoch
  try dsimp only
  repeat' (first | with_reducible assumption | with_reducible apply State.peerChanged_keeps
                 | (simp only [keeps_mk]; with_reducible refine Keeps.fold ?_) | with_reducible apply keeps_ite
                 | (split <;> try dsimp only))

theorem State.arrive_keeps {s0 : State} {s : State} {p : Pkt} {f : State → State} (h0 : Keeps s0 s) (h1 : ∀ t, Keeps s0 t → Keeps s0 (f t)) :
    Keeps s0 (State.arrive s p f) := by
  unfold State.arrive
  try dsimp only
  repeat' (first | with_reducible assumption | (intro _; try dsimp only) | with_reducible apply h1
                 | with_reducible apply State.ejected_keeps | with_reducible apply State.gutter_keeps
                 | with_reducible apply State.epochNotice_keeps | with_reducible apply State.takeEpoch_keeps
                 | with_reducible apply keeps_ite | (split <;> try dsimp only))

theorem State.connectedRequest_keeps {s0 : State} {s : State} {n : Nat} {p : Pkt} (h0 : Keeps s0 s) :
    Keeps s0 (State.connectedRequest s n p) := by
  unfold State.connectedRequest
  try dsimp only
  repeat' (first | with_reducible assumption | with_reducible apply State.bindEngine_keeps | with_reducible apply State.gutter_keeps | with_reducible apply State.fillCtx_keeps
                 | with_reducible apply State.laterPkt_keeps | with_reducible apply State.wakeDom_keeps
                 | with_reducible apply State.touchCtx_keeps | with_reducible apply State.classify_keeps | with_reducible apply keeps_getD
                 | (simp only [keeps_mk]; with_reducible refine Keeps.fold ?_) | with_reducible apply keeps_ite
                 | (split <;> try dsimp only) | with_reducible refine keeps_of_pair (by assumption) ?_
                 | with_reducible refine keeps_of_triple (by assumption) ?_ | with_reducible refine keeps_of_some (by assumption) ?_
                 | with_reducible refine keeps_of_some2 (by assumption) ?_)

theorem State.request310_keeps {s0 : State} {s : State} {p : Pkt} (h0 : Keeps s0 s) :
    Keeps s0 (State.request310 s p) := by
  unfold State.request310
  try dsimp only
  repeat' (first | with_reducible assumption | with_reducible apply State.forwarded_keeps
                 | with_reducible apply State.connectedRequest_keeps | with_reducible apply State.gutter_keeps
                 | with_reducible apply State.classify_keeps | (simp only [keeps_mk]; with_reducible refine Keeps.fold ?_)
                 | with_reducible apply keeps_ite | (split <;> try dsimp only) | with_reducible refine keeps_of_pair (by assumption) ?_
                 | with_reducible refine keeps_of_triple (by assumption) ?_ | with_reducible refine keeps_of_some (by assumption) ?_
                 | with_reducible refine keeps_of_some2 (by assumption) ?_)

theorem State.requestRow_keeps {s0 : State} {s : State} {typ : Nat} {forwarded : Bool} {p : Pkt} (h0 : Keeps s0 s) :
    Keeps s0 (State.requestRow s typ forwarded p) := by
  unfold State.requestRow
  repeat' (first | with_reducible assumption | (intro _; try dsimp only) | with_reducible apply State.forwarded_keeps
                 | with_reducible apply State.arrive_keeps | with_reducible apply State.request310_keeps | with_reducible apply keeps_ite
                 | (split <;> try dsimp only))

theorem State.dropStale_keeps {s0 : State} {s : State} {k : Nat} (h0 : Keeps s0 s) :
    Keeps s0 (State.dropStale s k) := by
  unfold State.dropStale
  repeat' (first | with_reducible assumption | with_reducible apply State.gutter_keeps | with_reducible apply State.endTxn_keeps)

theorem State.ackEntry_keeps {s0 : State} {s : State} {p : Pkt} {bare : Bool} {k : Nat} {t : Txn} (h0 : Keeps s0 s) :
    Keeps s0 (State.ackEntry s p bare k t) := by
  unfold State.ackEntry
  try dsimp only
  repeat' (first | with_reducible assumption | (intro _; try dsimp only) | with_reducible apply State.endTxn_keeps
                 | with_reducible apply State.qpError_keeps | with_reducible exact keepsOpt_none
                 | with_reducible exact keepsOpt2_none | with_reducible apply keepsOpt_some | with_reducible apply keepsOpt2_some
                 | (simp only [keeps_mk]; with_reducible refine Keeps.fold ?_) | with_reducible apply keeps_ite
                 | (split <;> try dsimp only) | with_reducible refine keeps_of_pair (by assumption) ?_
                 | with_reducible refine keeps_of_triple (by assumption) ?_ | with_reducible refine keeps_of_some (by assumption) ?_
                 | with_reducible refine keeps_of_some2 (by assumption) ?_)

theorem State.sack_keeps {s0 : State} {s : State} {p : Pkt} {es : List (Nat × Txn)} (h0 : Keeps s0 s) :
    Keeps s0 (State.sack s p es) := by
  unfold State.sack
  try dsimp only
  repeat' (first | with_reducible assumption | (intro _; try dsimp only) | with_reducible apply State.retransmit_keeps
                 | with_reducible apply keeps_foldl | with_reducible apply keeps_foldl_pair | with_reducible apply keeps_foldl_triple
                 | (simp only [keeps_mk]; with_reducible refine Keeps.fold ?_) | with_reducible apply keeps_ite
                 | (split <;> try dsimp only))

theorem State.noteAck_keeps {s0 : State} {s : State} {qpn : Option Nat} (h0 : Keeps s0 s) :
    Keeps s0 (State.noteAck s qpn) := by
  unfold State.noteAck
  try dsimp only
  repeat' (first | with_reducible assumption | (intro _; try dsimp only) | with_reducible apply State.updCtx_keeps
                 | (simp only [keeps_mk]; with_reducible refine Keeps.fold ?_) | with_reducible apply keeps_ite
                 | (split <;> try dsimp only) | with_reducible refine keeps_of_pair (by assumption) ?_
                 | with_reducible refine keeps_of_triple (by assumption) ?_ | with_reducible refine keeps_of_some (by assumption) ?_
                 | with_reducible refine keeps_of_some2 (by assumption) ?_)

theorem State.freeResponse_keeps {s0 : State} {s : State} {p : Pkt} (h0 : Keeps s0 s) :
    Keeps s0 (State.freeResponse s p) := by
  unfold State.freeResponse
  try dsimp only
  repeat' (first | with_reducible assumption | (intro _; try dsimp only) | with_reducible apply State.gutter_keeps
                 | (simp only [keeps_mk]; with_reducible refine Keeps.fold ?_) | with_reducible apply keeps_ite
                 | (split <;> try dsimp only) | with_reducible refine keeps_of_pair (by assumption) ?_
                 | with_reducible refine keeps_of_some (by assumption) ?_ | with_reducible refine keeps_of_some2 (by assumption) ?_)

theorem State.ackIn_keeps {s0 : State} {s : State} {p : Pkt} (h0 : Keeps s0 s) :
    Keeps s0 (State.ackIn s p) := by
  unfold State.ackIn
  try dsimp only
  repeat' (first | with_reducible assumption | (intro _; try dsimp only) | with_reducible apply State.markFlow_keeps
                 | with_reducible apply State.forwarded_keeps | with_reducible apply State.dropStale_keeps
                 | with_reducible apply State.ackEntry_keeps | with_reducible apply State.sack_keeps
                 | with_reducible apply State.noteAck_keeps | with_reducible apply State.freeResponse_keeps
                 | with_reducible exact keepsOpt_none | with_reducible exact keepsOpt2_none | with_reducible apply keepsOpt_some
                 | with_reducible apply keepsOpt2_some | with_reducible apply keeps_foldl | with_reducible apply keeps_foldl_pair
                 | with_reducible apply keeps_foldl_triple | with_reducible apply keepsOpt_foldl
                 | (simp only [keeps_mk]; with_reducible refine Keeps.fold ?_) | with_reducible apply keeps_ite
                 | (split <;> try dsimp only) | with_reducible refine keeps_of_pair (by assumption) ?_
                 | with_reducible refine keeps_of_triple (by assumption) ?_ | with_reducible refine keeps_of_some (by assumption) ?_
                 | with_reducible refine keeps_of_some2 (by assumption) ?_)

theorem State.dataResponse_keeps {s0 : State} {s : State} {p : Pkt} {typ : Nat} (h0 : Keeps s0 s) :
    Keeps s0 (State.dataResponse s p typ) := by
  unfold State.dataResponse
  try dsimp only
  repeat' (first | with_reducible assumption | (intro _; try dsimp only) | with_reducible apply State.gutter_keeps
                 | with_reducible apply State.markFlow_keeps | with_reducible apply State.gotResponse_keeps
                 | with_reducible apply State.dropStale_keeps | with_reducible apply State.freeResponse_keeps
                 | with_reducible exact keepsOpt_none | with_reducible exact keepsOpt2_none | with_reducible apply keepsOpt_some
                 | with_reducible apply keepsOpt2_some | with_reducible apply keepsOpt_bind | with_reducible apply keepsOpt_map
                 | with_reducible apply keepsOpt2_mapPair | with_reducible apply keepsOpt2_map | with_reducible apply keeps_getD
                 | (simp only [keeps_mk]; with_reducible refine Keeps.fold ?_) | with_reducible apply keeps_ite
                 | (split <;> try dsimp only) | with_reducible refine keeps_of_pair (by assumption) ?_
                 | with_reducible refine keeps_of_triple (by assumption) ?_ | with_reducible refine keeps_of_some (by assumption) ?_
                 | with_reducible refine keeps_of_some2 (by assumption) ?_)

end Sys2Proof.Machine
end

