-- ==== Sys2Proof/Laws/KeepSched.lean ====
section
/-!
SUPPORT. What the operations of Machine/Sched.lean keep.
-/

namespace Sys2Proof.Machine

set_option linter.unusedTactic false
set_option linter.unreachableTactic false
set_option linter.unusedVariables false

theorem State.setGates_keeps {s0 : State} {s : State} {g : Nat} {x : Gates} (h0 : Keeps s0 s) :
    Keeps s0 (State.setGates s g x) := by
  unfold State.setGates
  try dsimp only
  repeat' (first | with_reducible assumption | (simp only [keeps_mk]; with_reducible refine Keeps.fold ?_))

theorem State.gateSwitch_keeps {s0 : State} {s : State} {g : Nat} (h0 : Keeps s0 s) :
    Keeps s0 (State.gateSwitch s g) := by
  unfold State.gateSwitch
  try dsimp only
  repeat' (first | with_reducible assumption | with_reducible apply State.setGates_keeps | with_reducible apply State.setFlag_keeps
                 | with_reducible apply State.count_keeps | with_reducible apply State.raise_keeps
                 | (simp only [keeps_mk]; with_reducible refine Keeps.fold ?_) | with_reducible apply keeps_ite
                 | (split <;> try dsimp only) | with_reducible refine keeps_of_pair (by assumption) ?_
                 | with_reducible refine keeps_of_triple (by assumption) ?_ | with_reducible refine keeps_of_some (by assumption) ?_
                 | with_reducible refine keeps_of_some2 (by assumption) ?_)

theorem State.fillAll_keeps {s0 : State} {s : State} (h0 : Keeps s0 s) :
    Keeps s0 (State.fillAll s) := by
  unfold State.fillAll
  try dsimp only
  repeat' (first | with_reducible assumption | (intro _; try dsimp only) | with_reducible apply keepsOpt_map
                 | with_reducible apply keepsOpt2_mapPair | with_reducible apply keepsOpt2_map
                 | (simp only [keeps_mk]; with_reducible refine Keeps.fold ?_))

theorem State.shape_keeps {s0 : State} {s : State} {g c bytes : Nat} (h0 : Keeps s0 s) :
    Keeps s0 (State.shape s g c bytes) := by
  unfold State.shape
  try dsimp only
  repeat' (first | with_reducible assumption | (simp only [keeps_mk]; with_reducible refine Keeps.fold ?_)
                 | with_reducible apply keeps_ite | (split <;> try dsimp only))

theorem State.police_keeps {s0 : State} {s : State} {g c bytes : Nat} (h0 : Keeps s0 s) :
    Keeps s0 (State.police s g c bytes).2 := by
  unfold State.police
  try dsimp only
  repeat' (first | with_reducible assumption | with_reducible apply State.count_keeps | with_reducible apply State.setFlag_keeps
                 | (simp only [keeps_mk]; with_reducible refine Keeps.fold ?_) | with_reducible apply keeps_ite
                 | (split <;> try dsimp only))

theorem State.pickFrame_keeps {s0 : State} {s : State} {g j : Nat} (h0 : Keeps s0 s) :
    Keeps s0 (State.pickFrame s g j).2 := by
  unfold State.pickFrame
  try dsimp only
  repeat' (first | with_reducible assumption | (intro _; try dsimp only) | with_reducible apply State.countPort_keeps
                 | with_reducible apply State.count_keeps | with_reducible apply keepsOpt_map | with_reducible apply keepsOpt2_mapPair
                 | with_reducible apply keepsOpt2_map | with_reducible exact keepsOpt_none | with_reducible exact keepsOpt2_none
                 | with_reducible apply keepsOpt_some | with_reducible apply keepsOpt2_some | with_reducible apply keeps_getD
                 | (simp only [keeps_mk]; with_reducible refine Keeps.fold ?_) | with_reducible apply keeps_ite
                 | (split <;> try dsimp only) | with_reducible refine keeps_of_pair (by assumption) ?_
                 | with_reducible refine keeps_of_triple (by assumption) ?_ | with_reducible refine keeps_of_some (by assumption) ?_
                 | with_reducible refine keeps_of_some2 (by assumption) ?_)

theorem State.startFrame_keeps {s0 : State} {s : State} {g j : Nat} {o : OutPkt} {stomped : Bool} (h0 : Keeps s0 s) :
    Keeps s0 (State.startFrame s g j o stomped) := by
  unfold State.startFrame
  try dsimp only
  repeat' (first | with_reducible assumption | with_reducible apply State.sampled_keeps | with_reducible apply State.sampleLeft_keeps
                 | with_reducible apply State.shape_keeps | with_reducible apply State.drrEmpty_keeps
                 | with_reducible apply State.countPort_keeps | with_reducible apply State.setGroupL_keeps
                 | with_reducible apply State.sendFrame_keeps | with_reducible apply State.pauseCheck_keeps
                 | (simp only [keeps_mk]; with_reducible refine Keeps.fold ?_) | with_reducible apply keeps_ite
                 | (split <;> try dsimp only))

theorem State.frameStart_keeps {s0 : State} {s : State} {g j : Nat} (h0 : Keeps s0 s) :
    Keeps s0 (State.frameStart s g j) := by
  unfold State.frameStart
  try dsimp only
  repeat' (first | with_reducible assumption | with_reducible apply State.pickFrame_keeps | with_reducible apply State.startFrame_keeps
                 | (simp only [keeps_mk]; with_reducible refine Keeps.fold ?_) | with_reducible apply keeps_ite
                 | (split <;> try dsimp only) | with_reducible refine keeps_of_pair (by assumption) ?_
                 | with_reducible refine keeps_of_triple (by assumption) ?_ | with_reducible refine keeps_of_some (by assumption) ?_
                 | with_reducible refine keeps_of_some2 (by assumption) ?_)

theorem State.underrun_keeps {s0 : State} {s : State} {g j : Nat} (h0 : Keeps s0 s) :
    Keeps s0 (State.underrun s g j) := by
  unfold State.underrun
  try dsimp only
  repeat' (first | with_reducible assumption | with_reducible apply State.pickFrame_keeps | with_reducible apply State.startFrame_keeps
                 | with_reducible apply State.lcount_keeps | with_reducible apply State.setFlag_keeps
                 | with_reducible apply State.setRegF_keeps | (simp only [keeps_mk]; with_reducible refine Keeps.fold ?_)
                 | with_reducible apply keeps_ite | (split <;> try dsimp only) | with_reducible refine keeps_of_pair (by assumption) ?_
                 | with_reducible refine keeps_of_triple (by assumption) ?_ | with_reducible refine keeps_of_some (by assumption) ?_
                 | with_reducible refine keeps_of_some2 (by assumption) ?_)

theorem State.lostCycles_keeps {s0 : State} {s : State} {n : Nat} (h0 : Keeps s0 s) :
    Keeps s0 (State.lostCycles s n) := by
  unfold State.lostCycles
  try dsimp only
  repeat' (first | with_reducible assumption | (intro _; try dsimp only) | with_reducible apply State.countN_keeps
                 | with_reducible apply State.countPort_keeps | with_reducible exact keepsOpt_none
                 | with_reducible exact keepsOpt2_none | with_reducible apply keepsOpt_some | with_reducible apply keepsOpt2_some
                 | with_reducible apply keeps_foldl | with_reducible apply keeps_foldl_pair
                 | with_reducible apply keeps_foldl_triple | with_reducible apply keepsOpt_foldl
                 | (simp only [keeps_mk]; with_reducible refine Keeps.fold ?_) | with_reducible apply keeps_ite
                 | (split <;> try dsimp only) | with_reducible refine keeps_of_pair (by assumption) ?_
                 | with_reducible refine keeps_of_triple (by assumption) ?_ | with_reducible refine keeps_of_some (by assumption) ?_
                 | with_reducible refine keeps_of_some2 (by assumption) ?_)

theorem State.clock_keeps {s0 : State} {s : State} (h0 : Keeps s0 s) :
    Keeps s0 (State.clock s) := by
  unfold State.clock
  try dsimp only
  repeat' (first | with_reducible assumption | (intro _; try dsimp only) | with_reducible apply State.arbsWork_keeps
                 | with_reducible apply State.tick_keeps | with_reducible apply State.lostCycles_keeps
                 | (simp only [keeps_mk]; with_reducible refine Keeps.fold ?_) | with_reducible apply keeps_ite)

theorem State.samplePeriod_keeps {s0 : State} {s : State} (h0 : Keeps s0 s) :
    Keeps s0 (State.samplePeriod s) := by
  unfold State.samplePeriod
  try dsimp only
  repeat' (first | with_reducible assumption | (intro _; try dsimp only) | with_reducible apply State.sampled_keeps
                 | with_reducible apply keepsOpt_map | with_reducible apply keepsOpt2_mapPair | with_reducible apply keepsOpt2_map
                 | with_reducible apply keeps_foldl | with_reducible apply keeps_foldl_pair | with_reducible apply keeps_foldl_triple
                 | (simp only [keeps_mk]; with_reducible refine Keeps.fold ?_))

theorem State.packetIn_keeps {s0 : State} {s : State} {g j bytes : Nat} {p : Pkt} (h0 : Keeps s0 s) :
    Keeps s0 (State.packetIn s g j bytes p) := by
  unfold State.packetIn
  try dsimp only
  repeat' (first | with_reducible assumption | (intro _; try dsimp only) | with_reducible apply State.police_keeps
                 | with_reducible apply State.count_keeps | with_reducible apply State.setFlag_keeps
                 | with_reducible apply State.placeNotify_keeps | with_reducible apply State.pauseCheck_keeps
                 | with_reducible apply keepsOpt_map | with_reducible apply keepsOpt2_mapPair | with_reducible apply keepsOpt2_map
                 | with_reducible apply keeps_ite | (split <;> try dsimp only))

theorem State.helloIn_keeps {s0 : State} {s : State} {g j : Nat} {h : Hello} (h0 : Keeps s0 s) :
    Keeps s0 (State.helloIn s g j h) := by
  unfold State.helloIn
  repeat' (first | with_reducible assumption | with_reducible apply State.takeEpoch_keeps | with_reducible apply State.helloLink_keeps
                 | with_reducible apply keeps_ite | (split <;> try dsimp only))

theorem State.cutThrough_keeps {s0 : State} {s : State} {g : Nat} {j : Nat} {body : Bytes} {note : Option (Nat × Nat × Nat)} (h0 : Keeps s0 s) :
    Keeps s0 (State.cutThrough s g j body note) := by
  unfold State.cutThrough
  try dsimp only
  repeat' (first | with_reducible assumption | (intro _; try dsimp only) | with_reducible apply State.drawn_keeps
                 | with_reducible apply State.pickFrame_keeps | with_reducible apply State.startFrame_keeps
                 | with_reducible apply State.packetIn_keeps | with_reducible apply keepsOpt_map
                 | with_reducible apply keepsOpt2_mapPair | with_reducible apply keepsOpt2_map
                 | (simp only [keeps_mk]; with_reducible refine Keeps.fold ?_) | with_reducible apply keeps_ite
                 | (split <;> try dsimp only) | with_reducible refine keeps_of_pair (by assumption) ?_
                 | with_reducible refine keeps_of_triple (by assumption) ?_ | with_reducible refine keeps_of_some (by assumption) ?_
                 | with_reducible refine keeps_of_some2 (by assumption) ?_)

theorem State.fecCorrected_keeps {s0 : State} {s : State} {g : Nat} {j : Nat} {n : Nat} (h0 : Keeps s0 s) :
    Keeps s0 (State.fecCorrected s g j n) := by
  unfold State.fecCorrected
  try dsimp only
  repeat' (first | with_reducible assumption | (intro _; try dsimp only) | with_reducible apply State.drawn_keeps
                 | with_reducible apply State.lcount_keeps | (simp only [keeps_mk]; with_reducible refine Keeps.fold ?_)
                 | with_reducible apply keeps_ite)

theorem State.frameIn_keeps {s0 : State} {s : State} {g : Nat} {j : Nat} {data : Bytes} {ok : Bool} {note : Option (Nat × Nat × Nat)} (h0 : Keeps s0 s) :
    Keeps s0 (State.frameIn s g j data ok note) := by
  unfold State.frameIn
  try dsimp only
  repeat' (first | with_reducible assumption | (intro _; try dsimp only) | with_reducible apply State.gutter_keeps
                 | with_reducible apply AdmRes.ok_keeps | with_reducible apply State.ptpIn_keeps
                 | with_reducible apply State.setGroupL_keeps | with_reducible apply State.lcount_keeps
                 | with_reducible apply State.macControlIn_keeps | with_reducible apply State.packetIn_keeps
                 | with_reducible apply State.helloIn_keeps | with_reducible apply State.cutThrough_keeps
                 | with_reducible apply State.fecCorrected_keeps | with_reducible exact keepsOpt_none
                 | with_reducible exact keepsOpt2_none | with_reducible apply keepsOpt_some | with_reducible apply keepsOpt2_some
                 | (simp only [keeps_mk]; with_reducible refine Keeps.fold ?_) | with_reducible apply keeps_ite
                 | (split <;> try dsimp only) | with_reducible refine keeps_of_pair (by assumption) ?_
                 | with_reducible refine keeps_of_triple (by assumption) ?_ | with_reducible refine keeps_of_some (by assumption) ?_
                 | with_reducible refine keeps_of_some2 (by assumption) ?_)

end Sys2Proof.Machine
end

