-- ==== Sys2Proof/Laws/KeepLinkRows.lean ====
section
/-!
SUPPORT. What the operations of Machine/LinkRows.lean keep.
-/

namespace Sys2Proof.Machine

set_option linter.unusedTactic false
set_option linter.unreachableTactic false
set_option linter.unusedVariables false

theorem execFrameReceive_keeps {s0 : State} {group link : Nat} {data : Bytes} {ok : Bool} {note : Option (Nat × Nat × Nat)} {s : State} (h0 : Keeps s0 s) :
    KeepsOut s0 (execFrameReceive group link data ok note s) := by
  unfold execFrameReceive
  repeat' (first | with_reducible assumption | (intro _; try dsimp only) | with_reducible apply run_keeps
                 | with_reducible apply State.frameIn_keeps | with_reducible apply keepsOut_next)

theorem execPauseExpiry_keeps {s0 : State} {group link prio : Nat} {s : State} (h0 : Keeps s0 s) :
    KeepsOut s0 (execPauseExpiry group link prio s) := by
  unfold execPauseExpiry
  try dsimp only
  repeat' (first | with_reducible assumption | (intro _; try dsimp only) | with_reducible apply run_keeps
                 | with_reducible apply keepsOut_next | (simp only [keeps_mk]; with_reducible refine Keeps.fold ?_))

theorem execPauseRefresh_keeps {s0 : State} {group link prio : Nat} {s : State} (h0 : Keeps s0 s) :
    KeepsOut s0 (execPauseRefresh group link prio s) := by
  unfold execPauseRefresh
  repeat' (first | with_reducible assumption | (intro _; try dsimp only) | with_reducible apply run_keeps
                 | with_reducible apply State.pauseRefresh_keeps | with_reducible apply keepsOut_next)

theorem execOpticalPowerStable_keeps {s0 : State} {group link : Nat} {s : State} (h0 : Keeps s0 s) :
    KeepsOut s0 (execOpticalPowerStable group link s) := by
  unfold execOpticalPowerStable
  repeat' (first | with_reducible assumption | (intro _; try dsimp only) | with_reducible apply run_keeps
                 | with_reducible apply State.lightStable_keeps | with_reducible apply keepsOut_next)

theorem execLinkLock_keeps {s0 : State} {group link : Nat} {s : State} (h0 : Keeps s0 s) :
    KeepsOut s0 (execLinkLock group link s) := by
  unfold execLinkLock
  repeat' (first | with_reducible assumption | (intro _; try dsimp only) | with_reducible apply run_keeps
                 | with_reducible apply State.linkLock_keeps | with_reducible apply State.lpiWoken_keeps
                 | with_reducible apply keepsOut_next)

theorem execSwitchedLinkInService_keeps {s0 : State} {group link : Nat} {s : State} (h0 : Keeps s0 s) :
    KeepsOut s0 (execSwitchedLinkInService group link s) := by
  unfold execSwitchedLinkInService
  repeat' (first | with_reducible assumption | (intro _; try dsimp only) | with_reducible apply run_keeps
                 | with_reducible apply State.switchedIn_keeps | with_reducible apply keepsOut_next)

theorem execTrainingStepTimeout_keeps {s0 : State} {group link : Nat} {s : State} (h0 : Keeps s0 s) :
    KeepsOut s0 (execTrainingStepTimeout group link s) := by
  unfold execTrainingStepTimeout
  repeat' (first | with_reducible assumption | (intro _; try dsimp only) | with_reducible apply run_keeps
                 | with_reducible apply State.linkTimeout_keeps | with_reducible apply keepsOut_next | with_reducible apply keeps_ite
                 | (split <;> try dsimp only))

theorem execHello_keeps {s0 : State} {group link : Nat} {data : Bytes} {s : State} (h0 : Keeps s0 s) :
    KeepsOut s0 (execHello group link data s) := by
  unfold execHello
  repeat' (first | with_reducible assumption | (intro _; try dsimp only) | with_reducible apply run_keeps
                 | with_reducible apply State.frameIn_keeps | with_reducible apply keepsOut_next | with_reducible apply keeps_ite
                 | (split <;> try dsimp only))

theorem execHelloSend_keeps {s0 : State} {group link : Nat} {s : State} (h0 : Keeps s0 s) :
    KeepsOut s0 (execHelloSend group link s) := by
  unfold execHelloSend
  repeat' (first | with_reducible assumption | (intro _; try dsimp only) | with_reducible apply run_keeps
                 | with_reducible apply State.helloDue_keeps | with_reducible apply keepsOut_next)

theorem execHelloLost_keeps {s0 : State} {group link : Nat} {s : State} (h0 : Keeps s0 s) :
    KeepsOut s0 (execHelloLost group link s) := by
  unfold execHelloLost
  repeat' (first | with_reducible assumption | (intro _; try dsimp only) | with_reducible apply run_keeps
                 | with_reducible apply State.linkLost_keeps | with_reducible apply keepsOut_next | with_reducible apply keeps_ite
                 | (split <;> try dsimp only))

theorem execSignalLost_keeps {s0 : State} {group link signal : Nat} {s : State} (h0 : Keeps s0 s) :
    KeepsOut s0 (execSignalLost group link signal s) := by
  unfold execSignalLost
  try dsimp only
  repeat' (first | with_reducible assumption | (intro _; try dsimp only) | with_reducible apply run_keeps
                 | with_reducible apply State.updLink_keeps | with_reducible apply State.linkLost_keeps
                 | with_reducible apply keepsOut_next | (simp only [keeps_mk]; with_reducible refine Keeps.fold ?_))

theorem execAlignLost_keeps {s0 : State} {group link : Nat} {s : State} (h0 : Keeps s0 s) :
    KeepsOut s0 (execAlignLost group link s) := by
  unfold execAlignLost
  try dsimp only
  repeat' (first | with_reducible assumption | (intro _; try dsimp only) | with_reducible apply run_keeps
                 | with_reducible apply State.updLink_keeps | with_reducible apply State.linkLost_keeps
                 | with_reducible apply keepsOut_next | (simp only [keeps_mk]; with_reducible refine Keeps.fold ?_))

theorem execFecDegrade_keeps {s0 : State} {group link count : Nat} {s : State} (h0 : Keeps s0 s) :
    KeepsOut s0 (execFecDegrade group link count s) := by
  unfold execFecDegrade
  try dsimp only
  repeat' (first | with_reducible assumption | (intro _; try dsimp only) | with_reducible apply run_keeps
                 | with_reducible apply State.lcount_keeps | with_reducible apply State.count_keeps
                 | with_reducible apply State.setFlag_keeps | with_reducible apply State.linkLost_keeps
                 | with_reducible apply keepsOut_next | with_reducible apply keeps_ite | (split <;> try dsimp only))

theorem execHeldLinkRetry_keeps {s0 : State} {group link : Nat} {s : State} (h0 : Keeps s0 s) :
    KeepsOut s0 (execHeldLinkRetry group link s) := by
  unfold execHeldLinkRetry
  repeat' (first | with_reducible assumption | (intro _; try dsimp only) | with_reducible apply run_keeps
                 | with_reducible apply State.linkRest_keeps | with_reducible apply State.linkEvent_keeps
                 | with_reducible apply keepsOut_next | with_reducible apply keeps_ite | (split <;> try dsimp only))

theorem execLpiIdleExpiry_keeps {s0 : State} {group : Nat} {s : State} (h0 : Keeps s0 s) :
    KeepsOut s0 (execLpiIdleExpiry group s) := by
  unfold execLpiIdleExpiry
  repeat' (first | with_reducible assumption | (intro _; try dsimp only) | with_reducible apply run_keeps
                 | with_reducible apply State.lpiAsk_keeps | with_reducible apply keepsOut_next)

theorem execLpiWake_keeps {s0 : State} {group : Nat} {s : State} (h0 : Keeps s0 s) :
    KeepsOut s0 (execLpiWake group s) := by
  unfold execLpiWake
  repeat' (first | with_reducible assumption | (intro _; try dsimp only) | with_reducible apply run_keeps
                 | with_reducible apply State.lpiWake_keeps | with_reducible apply keepsOut_next)

theorem execWakeTimeout_keeps {s0 : State} {group : Nat} {s : State} (h0 : Keeps s0 s) :
    KeepsOut s0 (execWakeTimeout group s) := by
  unfold execWakeTimeout
  repeat' (first | with_reducible assumption | (intro _; try dsimp only) | with_reducible apply run_keeps
                 | with_reducible apply State.wakeFailed_keeps | with_reducible apply keepsOut_next)

theorem execConnectorOpen_keeps {s0 : State} {group : Nat} {s : State} (h0 : Keeps s0 s) :
    KeepsOut s0 (execConnectorOpen group s) := by
  unfold execConnectorOpen
  repeat' (first | with_reducible assumption | (intro _; try dsimp only) | with_reducible apply run_keeps
                 | with_reducible apply State.contactOpen_keeps | with_reducible apply keepsOut_next)

theorem execConnectorClose_keeps {s0 : State} {group : Nat} {s : State} (h0 : Keeps s0 s) :
    KeepsOut s0 (execConnectorClose group s) := by
  unfold execConnectorClose
  repeat' (first | with_reducible assumption | (intro _; try dsimp only) | with_reducible apply run_keeps
                 | with_reducible apply State.contactClose_keeps | with_reducible apply keepsOut_next)

theorem execConnectorDebounce_keeps {s0 : State} {group : Nat} {s : State} (h0 : Keeps s0 s) :
    KeepsOut s0 (execConnectorDebounce group s) := by
  unfold execConnectorDebounce
  repeat' (first | with_reducible assumption | (intro _; try dsimp only) | with_reducible apply run_keeps
                 | with_reducible apply State.contactHeld_keeps | with_reducible apply keepsOut_next)

theorem State.gctl_keeps {s0 : State} {s : State} {g : Nat} {value : Nat} (h0 : Keeps s0 s) :
    Keeps s0 (State.gctl s g value) := by
  unfold State.gctl
  try dsimp only
  repeat' (first | with_reducible assumption | (intro _; try dsimp only) | with_reducible apply State.setReg_keeps
                 | with_reducible apply State.linkLeave_keeps | with_reducible apply State.groupLeave_keeps
                 | with_reducible apply State.groupDown_keeps | with_reducible apply State.groupJudge_keeps
                 | with_reducible apply State.lpiLeft_keeps | with_reducible exact keepsOpt_none
                 | with_reducible exact keepsOpt2_none | with_reducible apply keepsOpt_some | with_reducible apply keepsOpt2_some
                 | with_reducible apply keeps_foldl | with_reducible apply keeps_foldl_pair
                 | with_reducible apply keeps_foldl_triple | with_reducible apply keepsOpt_foldl
                 | (simp only [keeps_mk]; with_reducible refine Keeps.fold ?_) | with_reducible apply keeps_ite
                 | (split <;> try dsimp only) | with_reducible refine keeps_of_pair (by assumption) ?_
                 | with_reducible refine keeps_of_triple (by assumption) ?_ | with_reducible refine keeps_of_some (by assumption) ?_
                 | with_reducible refine keeps_of_some2 (by assumption) ?_)

theorem State.gctlWrite_keeps {s0 : State} {s : State} {fn g value : Nat} (h0 : Keeps s0 s) :
    Keeps s0 (State.gctlWrite s fn g value) := by
  unfold State.gctlWrite
  repeat' (first | with_reducible assumption | (intro _; try dsimp only) | with_reducible apply State.expert_keeps
                 | with_reducible apply State.gctl_keeps | with_reducible apply keeps_ite | (split <;> try dsimp only))

theorem execLnkGroupEnableClear_keeps {s0 : State} {fn group value : Nat} {s : State} (h0 : Keeps s0 s) :
    KeepsOut s0 (execLnkGroupEnableClear fn group value s) := by
  unfold execLnkGroupEnableClear
  repeat' (first | with_reducible assumption | (intro _; try dsimp only) | with_reducible apply run_keeps
                 | with_reducible apply State.gctlWrite_keeps | with_reducible apply keepsOut_next)

theorem execLnkGroupEnableSet_keeps {s0 : State} {fn group value : Nat} {s : State} (h0 : Keeps s0 s) :
    KeepsOut s0 (execLnkGroupEnableSet fn group value s) := by
  unfold execLnkGroupEnableSet
  repeat' (first | with_reducible assumption | (intro _; try dsimp only) | with_reducible apply run_keeps
                 | with_reducible apply State.gctlWrite_keeps | with_reducible apply keepsOut_next)

theorem execLnkGroupRetrain_keeps {s0 : State} {fn group value : Nat} {s : State} (h0 : Keeps s0 s) :
    KeepsOut s0 (execLnkGroupRetrain fn group value s) := by
  unfold execLnkGroupRetrain
  repeat' (first | with_reducible assumption | (intro _; try dsimp only) | with_reducible apply run_keeps
                 | with_reducible apply State.gctlWrite_keeps | with_reducible apply keepsOut_next)

theorem execLpiEnableWrite_keeps {s0 : State} {fn group value : Nat} {s : State} (h0 : Keeps s0 s) :
    KeepsOut s0 (execLpiEnableWrite fn group value s) := by
  unfold execLpiEnableWrite
  repeat' (first | with_reducible assumption | (intro _; try dsimp only) | with_reducible apply run_keeps
                 | with_reducible apply State.gctlWrite_keeps | with_reducible apply keepsOut_next)

theorem State.lctl_keeps {s0 : State} {s : State} {g : Nat} {j : Nat} {value : Nat} (h0 : Keeps s0 s) :
    Keeps s0 (State.lctl s g j value) := by
  unfold State.lctl
  try dsimp only
  repeat' (first | with_reducible assumption | (intro _; try dsimp only) | with_reducible apply State.setReg_keeps
                 | with_reducible apply State.linkLeave_keeps | with_reducible apply State.groupRetry_keeps
                 | with_reducible apply State.lpiLeft_keeps | with_reducible exact keepsOpt_none
                 | with_reducible exact keepsOpt2_none | with_reducible apply keepsOpt_some | with_reducible apply keepsOpt2_some
                 | (simp only [keeps_mk]; with_reducible refine Keeps.fold ?_) | with_reducible apply keeps_ite
                 | (split <;> try dsimp only) | with_reducible refine keeps_of_pair (by assumption) ?_
                 | with_reducible refine keeps_of_some (by assumption) ?_ | with_reducible refine keeps_of_some2 (by assumption) ?_)

theorem State.lctlWrite_keeps {s0 : State} {s : State} {fn g j value : Nat} (h0 : Keeps s0 s) :
    Keeps s0 (State.lctlWrite s fn g j value) := by
  unfold State.lctlWrite
  repeat' (first | with_reducible assumption | (intro _; try dsimp only) | with_reducible apply State.expert_keeps
                 | with_reducible apply State.lctl_keeps | with_reducible apply keeps_ite | (split <;> try dsimp only))

theorem execLnkLinkDisable_keeps {s0 : State} {fn group link : Nat} {s : State} (h0 : Keeps s0 s) :
    KeepsOut s0 (execLnkLinkDisable fn group link s) := by
  unfold execLnkLinkDisable
  repeat' (first | with_reducible assumption | (intro _; try dsimp only) | with_reducible apply run_keeps
                 | with_reducible apply State.lctlWrite_keeps | with_reducible apply keepsOut_next)

theorem execLnkLinkEnable_keeps {s0 : State} {fn group link : Nat} {s : State} (h0 : Keeps s0 s) :
    KeepsOut s0 (execLnkLinkEnable fn group link s) := by
  unfold execLnkLinkEnable
  repeat' (first | with_reducible assumption | (intro _; try dsimp only) | with_reducible apply run_keeps
                 | with_reducible apply State.lctlWrite_keeps | with_reducible apply keepsOut_next)

theorem execLnkLinkRetrain_keeps {s0 : State} {fn group link value : Nat} {s : State} (h0 : Keeps s0 s) :
    KeepsOut s0 (execLnkLinkRetrain fn group link value s) := by
  unfold execLnkLinkRetrain
  repeat' (first | with_reducible assumption | (intro _; try dsimp only) | with_reducible apply run_keeps
                 | with_reducible apply State.lctlWrite_keeps | with_reducible apply keepsOut_next)

theorem State.txThreshold_keeps {s0 : State} {s : State} {g value : Nat} (h0 : Keeps s0 s) :
    Keeps s0 (State.txThreshold s g value) := by
  unfold State.txThreshold
  try dsimp only
  repeat' (first | with_reducible assumption | with_reducible apply State.setRegF_keeps | with_reducible apply keeps_ite
                 | (split <;> try dsimp only))

theorem execTxThresholdRestore_keeps {s0 : State} {fn group value : Nat} {s : State} (h0 : Keeps s0 s) :
    KeepsOut s0 (execTxThresholdRestore fn group value s) := by
  unfold execTxThresholdRestore
  repeat' (first | with_reducible assumption | (intro _; try dsimp only) | with_reducible apply run_keeps
                 | with_reducible apply State.expert_keeps | with_reducible apply State.txThreshold_keeps
                 | with_reducible apply keepsOut_next | with_reducible apply keeps_ite | (split <;> try dsimp only))

theorem execLnkCommit_keeps {s0 : State} {fn group : Nat} {s : State} (h0 : Keeps s0 s) :
    KeepsOut s0 (execLnkCommit fn group s) := by
  unfold execLnkCommit
  try dsimp only
  repeat' (first | with_reducible assumption | (intro _; try dsimp only) | with_reducible apply run_keeps
                 | with_reducible apply State.commit_keeps | with_reducible apply State.setFlag_keeps | with_reducible apply keepsOut_next
                 | with_reducible apply keeps_ite | (split <;> try dsimp only))

end Sys2Proof.Machine
end

