-- ==== Sys2Proof/Laws/KeepWorkRows.lean ====
section
/-!
SUPPORT. What the operations of Machine/WorkRows.lean keep.
-/

namespace Sys2Proof.Machine

set_option linter.unusedTactic false
set_option linter.unreachableTactic false
set_option linter.unusedVariables false

theorem execNop_keeps {s0 : State} {n id : Nat} {s : State} (h0 : Keeps s0 s) :
    KeepsOut s0 (execNop n id s) := by
  unfold execNop
  repeat' (first | with_reducible assumption | (intro _; try dsimp only) | with_reducible apply run_keeps
                 | with_reducible apply State.runOp_keeps | with_reducible apply State.opDone_keeps | with_reducible apply keepsOut_next)

theorem execFence_keeps {s0 : State} {n id : Nat} {s : State} (h0 : Keeps s0 s) :
    KeepsOut s0 (execFence n id s) := by
  unfold execFence
  try dsimp only
  repeat' (first | with_reducible assumption | (intro _; try dsimp only) | with_reducible apply run_keeps
                 | with_reducible apply State.runOp_keeps | with_reducible apply State.updOp_keeps | with_reducible apply keepsOut_next
                 | (simp only [keeps_mk]; with_reducible refine Keeps.fold ?_))

theorem execPowerHintDescriptor_keeps {s0 : State} {n id : Nat} {s : State} (h0 : Keeps s0 s) :
    KeepsOut s0 (execPowerHintDescriptor n id s) := by
  unfold execPowerHintDescriptor
  try dsimp only
  repeat' (first | with_reducible assumption | (intro _; try dsimp only) | with_reducible apply run_keeps
                 | with_reducible apply State.runOp_keeps | with_reducible apply State.opFail_keeps
                 | with_reducible apply State.takeHint_keeps | with_reducible apply State.opDone_keeps
                 | with_reducible exact keepsOpt_none | with_reducible exact keepsOpt2_none | with_reducible apply keepsOpt_some
                 | with_reducible apply keepsOpt2_some | with_reducible apply keepsOut_next
                 | (simp only [keeps_mk]; with_reducible refine Keeps.fold ?_) | with_reducible apply keeps_ite
                 | (split <;> try dsimp only) | with_reducible refine keeps_of_pair (by assumption) ?_
                 | with_reducible refine keeps_of_triple (by assumption) ?_ | with_reducible refine keeps_of_some (by assumption) ?_
                 | with_reducible refine keeps_of_some2 (by assumption) ?_)

theorem execRead_keeps {s0 : State} {n id : Nat} {s : State} (h0 : Keeps s0 s) :
    KeepsOut s0 (execRead n id s) := by
  unfold execRead
  repeat' (first | with_reducible assumption | (intro _; try dsimp only) | with_reducible apply run_keeps
                 | with_reducible apply State.runOp_keeps | with_reducible apply State.beginTransfer_keeps
                 | with_reducible apply keepsOut_next)

theorem execWrite_keeps {s0 : State} {n id : Nat} {s : State} (h0 : Keeps s0 s) :
    KeepsOut s0 (execWrite n id s) := by
  unfold execWrite
  repeat' (first | with_reducible assumption | (intro _; try dsimp only) | with_reducible apply run_keeps
                 | with_reducible apply State.runOp_keeps | with_reducible apply State.beginTransfer_keeps
                 | with_reducible apply keepsOut_next)

theorem execWriteNotify_keeps {s0 : State} {n id : Nat} {s : State} (h0 : Keeps s0 s) :
    KeepsOut s0 (execWriteNotify n id s) := by
  unfold execWriteNotify
  repeat' (first | with_reducible assumption | (intro _; try dsimp only) | with_reducible apply run_keeps
                 | with_reducible apply State.runOp_keeps | with_reducible apply State.beginTransfer_keeps
                 | with_reducible apply keepsOut_next)

theorem execAtomicFadd_keeps {s0 : State} {n id : Nat} {s : State} (h0 : Keeps s0 s) :
    KeepsOut s0 (execAtomicFadd n id s) := by
  unfold execAtomicFadd
  repeat' (first | with_reducible assumption | (intro _; try dsimp only) | with_reducible apply run_keeps
                 | with_reducible apply State.runOp_keeps | with_reducible apply State.beginAtomic_keeps
                 | with_reducible apply keepsOut_next)

theorem execAtomicCas_keeps {s0 : State} {n id : Nat} {s : State} (h0 : Keeps s0 s) :
    KeepsOut s0 (execAtomicCas n id s) := by
  unfold execAtomicCas
  repeat' (first | with_reducible assumption | (intro _; try dsimp only) | with_reducible apply run_keeps
                 | with_reducible apply State.runOp_keeps | with_reducible apply State.beginAtomic_keeps
                 | with_reducible apply keepsOut_next)

theorem execMessageIssue_keeps {s0 : State} {n id k : Nat} {s : State} (h0 : Keeps s0 s) :
    KeepsOut s0 (execMessageIssue n id k s) := by
  unfold execMessageIssue
  repeat' (first | with_reducible assumption | (intro _; try dsimp only) | with_reducible apply run_keeps
                 | with_reducible apply State.issueMsg_keeps | with_reducible apply keepsOut_next)

theorem State.tokenOp_keeps {s0 : State} {s : State} {n id action : Nat} {f : State → Wq → Op → Nat → Qp → State} (h0 : Keeps s0 s) (h1 : ∀ t w o k q, Keeps s0 t → Keeps s0 (f t w o k q)) :
    Keeps s0 (State.tokenOp s n id action f) := by
  unfold State.tokenOp
  repeat' (first | with_reducible assumption | (intro _; try dsimp only) | with_reducible apply h1
                 | with_reducible apply State.runOp_keeps | with_reducible apply keeps_ite | (split <;> try dsimp only))

theorem State.waitOp_keeps {s0 : State} {s : State} {n : Nat} {id : Nat} {action : Nat} {f : State → Wq → Op → Nat → Qp → State} (h0 : Keeps s0 s) (h1 : ∀ t a1 a2 a3 a4, Keeps s0 t → Keeps s0 (f t a1 a2 a3 a4)) :
    Keeps s0 (State.waitOp s n id action f) := by
  unfold State.waitOp
  try dsimp only
  repeat' (first | with_reducible assumption | (intro _; try dsimp only) | (with_reducible apply h1)
                 | with_reducible apply State.tokenOp_keeps | (simp only [keeps_mk]; with_reducible refine Keeps.fold ?_)
                 | with_reducible apply keeps_ite | (split <;> try dsimp only)
                 | with_reducible refine keeps_of_pair (by assumption) ?_ | with_reducible refine keeps_of_some (by assumption) ?_
                 | with_reducible refine keeps_of_some2 (by assumption) ?_)

theorem execTokenProduce_keeps {s0 : State} {n id : Nat} {s : State} (h0 : Keeps s0 s) :
    KeepsOut s0 (execTokenProduce n id s) := by
  unfold execTokenProduce
  try dsimp only
  repeat' (first | with_reducible assumption | (intro _; try dsimp only) | with_reducible apply run_keeps
                 | with_reducible apply State.tokenOp_keeps | with_reducible apply State.opFail_keeps
                 | with_reducible apply State.beginMsgs_keeps | with_reducible apply keepsOut_next | with_reducible apply keeps_ite
                 | (split <;> try dsimp only))

theorem execTokenConsume_keeps {s0 : State} {n : Nat} {id : Nat} {s : State} (h0 : Keeps s0 s) :
    KeepsOut s0 (execTokenConsume n id s) := by
  unfold execTokenConsume
  try dsimp only
  repeat' (first | with_reducible assumption | (intro _; try dsimp only) | with_reducible apply State.updOp_keeps
                 | with_reducible apply State.opFail_keeps | with_reducible apply State.endNewWaits_keeps
                 | with_reducible apply State.setWick_keeps | with_reducible apply State.testWick_keeps
                 | with_reducible apply run_keeps | with_reducible apply State.waitOp_keeps | with_reducible apply keepsOut_next
                 | with_reducible apply keepsOpt_map | with_reducible apply keepsOpt2_mapPair | with_reducible apply keepsOpt2_map
                 | (simp only [keeps_mk]; with_reducible refine Keeps.fold ?_) | with_reducible apply keeps_ite
                 | (split <;> try dsimp only) | with_reducible refine keeps_of_pair (by assumption) ?_
                 | with_reducible refine keeps_of_triple (by assumption) ?_ | with_reducible refine keeps_of_some (by assumption) ?_
                 | with_reducible refine keeps_of_some2 (by assumption) ?_ | with_reducible refine keeps_of_reply (by assumption) ?_
                 | with_reducible refine keeps_of_wait (by assumption) ?_)

theorem execTokenBarrier_keeps {s0 : State} {n : Nat} {id : Nat} {s : State} (h0 : Keeps s0 s) :
    KeepsOut s0 (execTokenBarrier n id s) := by
  unfold execTokenBarrier
  try dsimp only
  repeat' (first | with_reducible assumption | (intro _; try dsimp only) | with_reducible apply State.updOp_keeps
                 | with_reducible apply State.opFail_keeps | with_reducible apply State.endNewWaits_keeps
                 | with_reducible apply State.barArrive_keeps | with_reducible apply run_keeps
                 | with_reducible apply State.waitOp_keeps | with_reducible apply keepsOut_next | with_reducible apply keeps_getD
                 | (simp only [keeps_mk]; with_reducible refine Keeps.fold ?_) | with_reducible apply keeps_ite
                 | (split <;> try dsimp only) | with_reducible refine keeps_of_pair (by assumption) ?_
                 | with_reducible refine keeps_of_triple (by assumption) ?_ | with_reducible refine keeps_of_some (by assumption) ?_
                 | with_reducible refine keeps_of_some2 (by assumption) ?_ | with_reducible refine keeps_of_reply (by assumption) ?_
                 | with_reducible refine keeps_of_wait (by assumption) ?_)

theorem execTokenCadence_keeps {s0 : State} {n : Nat} {id : Nat} {s : State} (h0 : Keeps s0 s) :
    KeepsOut s0 (execTokenCadence n id s) := by
  unfold execTokenCadence
  try dsimp only
  repeat' (first | with_reducible assumption | (intro _; try dsimp only) | with_reducible apply State.updOp_keeps
                 | with_reducible apply State.opFail_keeps | with_reducible apply State.endNewWaits_keeps
                 | with_reducible apply State.cadenceBoundary_keeps | with_reducible apply run_keeps
                 | with_reducible apply State.waitOp_keeps | with_reducible apply keepsOut_next
                 | (simp only [keeps_mk]; with_reducible refine Keeps.fold ?_) | with_reducible apply keeps_ite
                 | (split <;> try dsimp only) | with_reducible refine keeps_of_pair (by assumption) ?_
                 | with_reducible refine keeps_of_triple (by assumption) ?_ | with_reducible refine keeps_of_some (by assumption) ?_
                 | with_reducible refine keeps_of_some2 (by assumption) ?_ | with_reducible refine keeps_of_reply (by assumption) ?_
                 | with_reducible refine keeps_of_wait (by assumption) ?_)

theorem State.abortBehind_keeps {s0 : State} {s : State} {n : Nat} {o : Op} (h0 : Keeps s0 s) :
    Keeps s0 (State.abortBehind s n o) := by
  unfold State.abortBehind
  try dsimp only
  repeat' (first | with_reducible assumption | (intro _; try dsimp only) | with_reducible apply State.opFail_keeps
                 | with_reducible apply State.collAbort_keeps | with_reducible apply State.abortUnposted_keeps
                 | (simp only [keeps_mk]; with_reducible refine Keeps.fold ?_) | with_reducible apply keeps_ite
                 | (split <;> try dsimp only) | with_reducible refine keeps_of_pair (by assumption) ?_
                 | with_reducible refine keeps_of_triple (by assumption) ?_ | with_reducible refine keeps_of_some (by assumption) ?_
                 | with_reducible refine keeps_of_some2 (by assumption) ?_)

theorem State.boundaryFirst_keeps {s0 : State} {s : State} {n : Nat} {id : Nat} (h0 : Keeps s0 s) :
    Keeps s0 (State.boundaryFirst s n id) := by
  unfold State.boundaryFirst
  try dsimp only
  repeat' (first | with_reducible assumption | (intro _; try dsimp only) | with_reducible apply State.cadenceBoundary_keeps
                 | with_reducible apply keepsOpt_bind | with_reducible apply keepsOpt_map | with_reducible apply keepsOpt2_mapPair
                 | with_reducible apply keepsOpt2_map | (simp only [keeps_mk]; with_reducible refine Keeps.fold ?_)
                 | with_reducible apply keeps_ite | (split <;> try dsimp only)
                 | with_reducible refine keeps_of_pair (by assumption) ?_ | with_reducible refine keeps_of_triple (by assumption) ?_
                 | with_reducible refine keeps_of_some (by assumption) ?_ | with_reducible refine keeps_of_some2 (by assumption) ?_
                 | with_reducible refine keeps_of_reply (by assumption) ?_ | with_reducible refine keeps_of_wait (by assumption) ?_)

theorem execTokenWaitTimeout_keeps {s0 : State} {n : Nat} {id : Nat} {s : State} (h0 : Keeps s0 s) :
    KeepsOut s0 (execTokenWaitTimeout n id s) := by
  unfold execTokenWaitTimeout
  try dsimp only
  repeat' (first | with_reducible assumption | (intro _; try dsimp only) | with_reducible apply State.opFail_keeps
                 | with_reducible apply State.dropWaits_keeps | with_reducible apply run_keeps
                 | with_reducible apply State.abortBehind_keeps | with_reducible apply State.boundaryFirst_keeps
                 | with_reducible apply keepsOut_next | (simp only [keeps_mk]; with_reducible refine Keeps.fold ?_)
                 | with_reducible apply keeps_ite | (split <;> try dsimp only)
                 | with_reducible refine keeps_of_pair (by assumption) ?_ | with_reducible refine keeps_of_triple (by assumption) ?_
                 | with_reducible refine keeps_of_some (by assumption) ?_ | with_reducible refine keeps_of_some2 (by assumption) ?_
                 | with_reducible refine keeps_of_reply (by assumption) ?_ | with_reducible refine keeps_of_wait (by assumption) ?_)

theorem execChain_keeps {s0 : State} {n id : Nat} {s : State} (h0 : Keeps s0 s) :
    KeepsOut s0 (execChain n id s) := by
  unfold execChain
  repeat' (first | with_reducible assumption | (intro _; try dsimp only) | with_reducible apply run_keeps
                 | with_reducible apply State.runOp_keeps | with_reducible apply State.readList_keeps | with_reducible apply keepsOut_next)

theorem execChainListArrival_keeps {s0 : State} {n id : Nat} {s : State} (h0 : Keeps s0 s) :
    KeepsOut s0 (execChainListArrival n id s) := by
  unfold execChainListArrival
  try dsimp only
  repeat' (first | with_reducible assumption | (intro _; try dsimp only) | with_reducible apply run_keeps
                 | with_reducible apply State.listArrived_keeps | with_reducible apply State.readList_keeps
                 | with_reducible apply keepsOut_next | (simp only [keeps_mk]; with_reducible refine Keeps.fold ?_)
                 | with_reducible apply keeps_ite | (split <;> try dsimp only) | with_reducible refine keeps_of_pair (by assumption) ?_
                 | with_reducible refine keeps_of_triple (by assumption) ?_ | with_reducible refine keeps_of_some (by assumption) ?_
                 | with_reducible refine keeps_of_some2 (by assumption) ?_)

theorem execContextFillReturn_keeps {s0 : State} {qpn : Nat} {data : Bytes} {s : State} (h0 : Keeps s0 s) :
    KeepsOut s0 (execContextFillReturn qpn data s) := by
  unfold execContextFillReturn
  try dsimp only
  repeat' (first | with_reducible assumption | (intro _; try dsimp only) | with_reducible apply run_keeps
                 | with_reducible apply State.freeTag_keeps | with_reducible apply State.fillDone_keeps
                 | with_reducible apply keepsOpt_map | with_reducible apply keepsOpt2_mapPair | with_reducible apply keepsOpt2_map
                 | with_reducible apply keepsOut_next | (simp only [keeps_mk]; with_reducible refine Keeps.fold ?_)
                 | with_reducible apply keeps_ite | (split <;> try dsimp only) | with_reducible refine keeps_of_pair (by assumption) ?_
                 | with_reducible refine keeps_of_triple (by assumption) ?_ | with_reducible refine keeps_of_some (by assumption) ?_
                 | with_reducible refine keeps_of_some2 (by assumption) ?_)

theorem execHostReadCompletion_keeps {s0 : State} {p : Nat} {t : Nat} {status : Nat} {data : Bytes} {s : State} (h0 : Keeps s0 s) :
    KeepsOut s0 (execHostReadCompletion p t status data s) := by
  unfold execHostReadCompletion
  try dsimp only
  repeat' (first | with_reducible assumption | (intro _; try dsimp only) | with_reducible apply State.setFlagOf_keeps
                 | with_reducible apply State.count_keeps | with_reducible apply State.setPort_keeps
                 | with_reducible apply State.setFn_keeps | with_reducible apply State.issueNext_keeps
                 | with_reducible apply State.freeTag_keeps | with_reducible apply State.arrived_keeps
                 | with_reducible apply run_keeps | with_reducible exact keepsOpt_none | with_reducible exact keepsOpt2_none
                 | with_reducible apply keepsOpt_some | with_reducible apply keepsOpt2_some | with_reducible apply keepsOut_next
                 | (simp only [keeps_mk]; with_reducible refine Keeps.fold ?_) | with_reducible apply keeps_ite
                 | (split <;> try dsimp only) | with_reducible refine keeps_of_pair (by assumption) ?_
                 | with_reducible refine keeps_of_triple (by assumption) ?_ | with_reducible refine keeps_of_some (by assumption) ?_
                 | with_reducible refine keeps_of_some2 (by assumption) ?_)

theorem execCompletionTimeout_keeps {s0 : State} {p t : Nat} {s : State} (h0 : Keeps s0 s) :
    KeepsOut s0 (execCompletionTimeout p t s) := by
  unfold execCompletionTimeout
  try dsimp only
  repeat' (first | with_reducible assumption | (intro _; try dsimp only) | with_reducible apply run_keeps
                 | with_reducible apply State.freeTag_keeps | with_reducible apply State.setPort_keeps
                 | with_reducible apply State.count_keeps | with_reducible apply State.arrived_keeps | with_reducible apply keepsOut_next
                 | (simp only [keeps_mk]; with_reducible refine Keeps.fold ?_) | with_reducible apply keeps_ite
                 | (split <;> try dsimp only) | with_reducible refine keeps_of_pair (by assumption) ?_
                 | with_reducible refine keeps_of_triple (by assumption) ?_ | with_reducible refine keeps_of_some (by assumption) ?_
                 | with_reducible refine keeps_of_some2 (by assumption) ?_)

theorem State.collRow_keeps {s0 : State} {s : State} {n id oper : Nat} (h0 : Keeps s0 s) :
    Keeps s0 (State.collRow s n id oper) := by
  unfold State.collRow
  try dsimp only
  repeat' (first | with_reducible assumption | (intro _; try dsimp only) | with_reducible apply State.collective_keeps
                 | with_reducible apply State.wakeDom_keeps | with_reducible apply keepsOpt_bind
                 | (simp only [keeps_mk]; with_reducible refine Keeps.fold ?_) | with_reducible apply keeps_ite
                 | (split <;> try dsimp only) | with_reducible refine keeps_of_pair (by assumption) ?_
                 | with_reducible refine keeps_of_triple (by assumption) ?_ | with_reducible refine keeps_of_some (by assumption) ?_
                 | with_reducible refine keeps_of_some2 (by assumption) ?_)

theorem execAllReduce_keeps {s0 : State} {n id : Nat} {s : State} (h0 : Keeps s0 s) :
    KeepsOut s0 (execAllReduce n id s) := by
  unfold execAllReduce
  repeat' (first | with_reducible assumption | (intro _; try dsimp only) | with_reducible apply run_keeps
                 | with_reducible apply State.collRow_keeps | with_reducible apply keepsOut_next)

theorem execReduce_keeps {s0 : State} {n id : Nat} {s : State} (h0 : Keeps s0 s) :
    KeepsOut s0 (execReduce n id s) := by
  unfold execReduce
  repeat' (first | with_reducible assumption | (intro _; try dsimp only) | with_reducible apply run_keeps
                 | with_reducible apply State.collRow_keeps | with_reducible apply keepsOut_next)

theorem execReduceScatter_keeps {s0 : State} {n id : Nat} {s : State} (h0 : Keeps s0 s) :
    KeepsOut s0 (execReduceScatter n id s) := by
  unfold execReduceScatter
  repeat' (first | with_reducible assumption | (intro _; try dsimp only) | with_reducible apply run_keeps
                 | with_reducible apply State.collRow_keeps | with_reducible apply keepsOut_next)

theorem execAllGather_keeps {s0 : State} {n id : Nat} {s : State} (h0 : Keeps s0 s) :
    KeepsOut s0 (execAllGather n id s) := by
  unfold execAllGather
  repeat' (first | with_reducible assumption | (intro _; try dsimp only) | with_reducible apply run_keeps
                 | with_reducible apply State.collRow_keeps | with_reducible apply keepsOut_next)

theorem execBroadcast_keeps {s0 : State} {n id : Nat} {s : State} (h0 : Keeps s0 s) :
    KeepsOut s0 (execBroadcast n id s) := by
  unfold execBroadcast
  repeat' (first | with_reducible assumption | (intro _; try dsimp only) | with_reducible apply run_keeps
                 | with_reducible apply State.collRow_keeps | with_reducible apply keepsOut_next)

theorem execAllToAll_keeps {s0 : State} {n id : Nat} {s : State} (h0 : Keeps s0 s) :
    KeepsOut s0 (execAllToAll n id s) := by
  unfold execAllToAll
  repeat' (first | with_reducible assumption | (intro _; try dsimp only) | with_reducible apply run_keeps
                 | with_reducible apply State.collRow_keeps | with_reducible apply keepsOut_next)

theorem execTransit_keeps {s0 : State} {n id : Nat} {s : State} (h0 : Keeps s0 s) :
    KeepsOut s0 (execTransit n id s) := by
  unfold execTransit
  repeat' (first | with_reducible assumption | (intro _; try dsimp only) | with_reducible apply run_keeps
                 | with_reducible apply State.transit_keeps | with_reducible apply keepsOut_next)

end Sys2Proof.Machine
end

