-- ==== Sys2Proof/Laws/KeepXltRows.lean ====
section
/-!
SUPPORT. What the operations of Machine/XltRows.lean keep.
-/

namespace Sys2Proof.Machine

set_option linter.unusedTactic false
set_option linter.unreachableTactic false
set_option linter.unusedVariables false

theorem State.mapPages_keeps {s0 : State} {s : State} {p : Nat} {k : Nat} {c : Cmd} {ps : List Nat} {targets : List Nat} (h0 : Keeps s0 s) :
    KeepsAdm s0 (State.mapPages s p k c ps targets) := by
  unfold State.mapPages
  try dsimp only
  repeat' (first | with_reducible assumption | (intro _; try dsimp only) | with_reducible apply State.forgetEnds_keeps
                 | with_reducible apply State.invalidate_keeps | with_reducible apply State.reply_keeps
                 | with_reducible apply AdmRes.fail_keeps | with_reducible apply AdmRes.field_keeps
                 | with_reducible apply State.placeTables_keeps | with_reducible apply State.setMaps_keeps
                 | with_reducible apply State.takeNamed_keeps | with_reducible apply State.beginDrain_keeps
                 | with_reducible exact keepsOpt_none | with_reducible exact keepsOpt2_none | with_reducible apply keepsOpt_some
                 | with_reducible apply keepsOpt2_some | with_reducible apply keepsAdm_reply | with_reducible apply keepsAdm_wait
                 | with_reducible apply keepsAdm_fail | with_reducible apply keepsAdm_field | with_reducible apply keepsAdm_ok
                 | with_reducible apply keepsOpt_map | with_reducible apply keepsOpt2_mapPair | with_reducible apply keepsOpt2_map
                 | with_reducible apply keeps_foldl | with_reducible apply keeps_foldl_pair
                 | with_reducible apply keeps_foldl_triple | with_reducible apply keepsOpt_foldl
                 | (simp only [keeps_mk]; with_reducible refine Keeps.fold ?_) | with_reducible apply keeps_ite
                 | (split <;> try dsimp only) | with_reducible refine keeps_of_pair (by assumption) ?_
                 | with_reducible refine keeps_of_triple (by assumption) ?_ | with_reducible refine keeps_of_some (by assumption) ?_
                 | with_reducible refine keeps_of_some2 (by assumption) ?_ | with_reducible refine keeps_of_reply (by assumption) ?_
                 | with_reducible refine keeps_of_wait (by assumption) ?_)

theorem execMapPages_keeps {s0 : State} {p k : Nat} {s : State} (h0 : Keeps s0 s) :
    KeepsOut s0 (execMapPages p k s) := by
  unfold execMapPages
  try dsimp only
  repeat' (first | with_reducible assumption | (intro _; try dsimp only) | with_reducible apply run_keeps
                 | with_reducible apply State.adminRun_keeps | with_reducible apply State.count_keeps
                 | with_reducible apply State.mapPages_keeps | with_reducible apply State.admRead_keeps
                 | with_reducible apply keepsAdm_fail | with_reducible apply keepsAdm_field | with_reducible apply keepsAdm_wait
                 | with_reducible apply keepsOpt_map | with_reducible apply keepsOpt2_mapPair | with_reducible apply keepsOpt2_map
                 | with_reducible apply keepsOut_next | (simp only [keeps_mk]; with_reducible refine Keeps.fold ?_)
                 | with_reducible apply keeps_ite | (split <;> try dsimp only) | with_reducible refine keeps_of_pair (by assumption) ?_
                 | with_reducible refine keeps_of_triple (by assumption) ?_ | with_reducible refine keeps_of_some (by assumption) ?_
                 | with_reducible refine keeps_of_some2 (by assumption) ?_)

theorem execUnmapPages_keeps {s0 : State} {p k : Nat} {s : State} (h0 : Keeps s0 s) :
    KeepsOut s0 (execUnmapPages p k s) := by
  unfold execUnmapPages
  try dsimp only
  repeat' (first | with_reducible assumption | (intro _; try dsimp only) | with_reducible apply run_keeps
                 | with_reducible apply State.adminRun_keeps | with_reducible apply State.setMaps_keeps
                 | with_reducible apply State.invalidate_keeps | with_reducible apply State.beginDrain_keeps
                 | with_reducible apply keepsAdm_field | with_reducible apply keepsAdm_wait | with_reducible apply keepsOpt_map
                 | with_reducible apply keepsOpt2_mapPair | with_reducible apply keepsOpt2_map | with_reducible apply keepsOut_next
                 | (simp only [keeps_mk]; with_reducible refine Keeps.fold ?_) | with_reducible apply keeps_ite
                 | (split <;> try dsimp only) | with_reducible refine keeps_of_pair (by assumption) ?_
                 | with_reducible refine keeps_of_triple (by assumption) ?_ | with_reducible refine keeps_of_some (by assumption) ?_
                 | with_reducible refine keeps_of_some2 (by assumption) ?_)

theorem execDirtyLogEnable_keeps {s0 : State} {p k : Nat} {s : State} (h0 : Keeps s0 s) :
    KeepsOut s0 (execDirtyLogEnable p k s) := by
  unfold execDirtyLogEnable
  try dsimp only
  repeat' (first | with_reducible assumption | (intro _; try dsimp only) | with_reducible apply run_keeps
                 | with_reducible apply State.adminRun_keeps | with_reducible apply State.setSlot_keeps | with_reducible apply keepsAdm_ok
                 | with_reducible apply keepsAdm_fail | with_reducible apply keepsAdm_field | with_reducible apply keepsOut_next
                 | (simp only [keeps_mk]; with_reducible refine Keeps.fold ?_) | with_reducible apply keeps_ite
                 | (split <;> try dsimp only) | with_reducible refine keeps_of_pair (by assumption) ?_
                 | with_reducible refine keeps_of_triple (by assumption) ?_ | with_reducible refine keeps_of_some (by assumption) ?_
                 | with_reducible refine keeps_of_some2 (by assumption) ?_)

theorem State.dirtyConfirm_keeps {s0 : State} {s : State} {n : Nat} {k : Nat} (h0 : Keeps s0 s) :
    Keeps s0 (State.dirtyConfirm s n k) := by
  unfold State.dirtyConfirm
  try dsimp only
  repeat' (first | with_reducible assumption | (intro _; try dsimp only) | with_reducible apply State.updInst_keeps
                 | with_reducible apply State.hostRead_keeps | with_reducible apply State.dirtyStop_keeps
                 | with_reducible apply keepsOpt_bind | with_reducible apply keepsOpt_map | with_reducible apply keepsOpt2_mapPair
                 | with_reducible apply keepsOpt2_map | with_reducible apply keeps_foldl | with_reducible apply keeps_foldl_pair
                 | with_reducible apply keeps_foldl_triple | with_reducible apply keepsOpt_foldl
                 | (simp only [keeps_mk]; with_reducible refine Keeps.fold ?_) | with_reducible apply keeps_ite
                 | (split <;> try dsimp only) | with_reducible refine keeps_of_pair (by assumption) ?_
                 | with_reducible refine keeps_of_triple (by assumption) ?_ | with_reducible refine keeps_of_some (by assumption) ?_
                 | with_reducible refine keeps_of_some2 (by assumption) ?_)

theorem execDirtyLogSwitch_keeps {s0 : State} {p : Nat} {k : Nat} {s : State} (h0 : Keeps s0 s) :
    KeepsOut s0 (execDirtyLogSwitch p k s) := by
  unfold execDirtyLogSwitch
  try dsimp only
  repeat' (first | with_reducible assumption | (intro _; try dsimp only) | with_reducible apply State.setSlot_keeps
                 | with_reducible apply State.dirtyFlush_keeps | with_reducible apply AdmRes.fail_keeps
                 | with_reducible apply AdmRes.field_keeps | with_reducible apply AdmRes.ok_keeps
                 | with_reducible apply State.adminRun_keeps | with_reducible apply run_keeps
                 | with_reducible apply State.dirtyConfirm_keeps | with_reducible apply keepsAdm_reply
                 | with_reducible apply keepsAdm_wait | with_reducible apply keepsAdm_fail | with_reducible apply keepsAdm_field
                 | with_reducible apply keepsAdm_ok | with_reducible apply keepsOut_next
                 | (simp only [keeps_mk]; with_reducible refine Keeps.fold ?_) | with_reducible apply keeps_ite
                 | (split <;> try dsimp only) | with_reducible refine keeps_of_pair (by assumption) ?_
                 | with_reducible refine keeps_of_triple (by assumption) ?_ | with_reducible refine keeps_of_some (by assumption) ?_
                 | with_reducible refine keeps_of_some2 (by assumption) ?_ | with_reducible refine keeps_of_reply (by assumption) ?_
                 | with_reducible refine keeps_of_wait (by assumption) ?_)

theorem execDirtyLogDisable_keeps {s0 : State} {p k : Nat} {s : State} (h0 : Keeps s0 s) :
    KeepsOut s0 (execDirtyLogDisable p k s) := by
  unfold execDirtyLogDisable
  try dsimp only
  repeat' (first | with_reducible assumption | (intro _; try dsimp only) | with_reducible apply run_keeps
                 | with_reducible apply State.adminRun_keeps | with_reducible apply State.dirtyClose_keeps
                 | with_reducible apply keepsAdm_ok | with_reducible apply keepsAdm_field | with_reducible apply keepsAdm_wait
                 | with_reducible apply keepsOut_next | (simp only [keeps_mk]; with_reducible refine Keeps.fold ?_)
                 | with_reducible apply keeps_ite | (split <;> try dsimp only))

theorem State.poisonMet_keeps {s0 : State} {s : State} {e : WalkEnd} (h0 : Keeps s0 s) :
    Keeps s0 (State.poisonMet s e) := by
  unfold State.poisonMet
  try dsimp only
  repeat' (first | with_reducible assumption | (intro _; try dsimp only) | with_reducible apply State.readList_keeps
                 | with_reducible apply State.issueMsg_keeps | with_reducible apply State.collLoad_keeps
                 | with_reducible apply State.readLocalOper_keeps | (simp only [keeps_mk]; with_reducible refine Keeps.fold ?_)
                 | with_reducible apply keeps_ite | (split <;> try dsimp only)
                 | with_reducible refine keeps_of_pair (by assumption) ?_ | with_reducible refine keeps_of_triple (by assumption) ?_
                 | with_reducible refine keeps_of_some (by assumption) ?_ | with_reducible refine keeps_of_some2 (by assumption) ?_)

theorem execTableWalkDone_keeps {s0 : State} {walk : Nat} {s : State} (h0 : Keeps s0 s) :
    KeepsOut s0 (execTableWalkDone walk s) := by
  unfold execTableWalkDone
  try dsimp only
  repeat' (first | with_reducible assumption | (intro _; try dsimp only) | with_reducible apply State.walkDone_keeps
                 | with_reducible apply run_keeps | with_reducible apply State.poisonMet_keeps | with_reducible apply keepsOut_next
                 | with_reducible apply keeps_foldl | with_reducible apply keeps_foldl_pair
                 | with_reducible apply keeps_foldl_triple | with_reducible apply keepsOpt_foldl
                 | (simp only [keeps_mk]; with_reducible refine Keeps.fold ?_) | with_reducible apply keeps_ite)

theorem execTranslationDrainDone_keeps {s0 : State} {n : Nat} {s : State} (h0 : Keeps s0 s) :
    KeepsOut s0 (execTranslationDrainDone n s) := by
  unfold execTranslationDrainDone
  repeat' (first | with_reducible assumption | (intro _; try dsimp only) | with_reducible apply run_keeps
                 | with_reducible apply State.useDrainDone_keeps | with_reducible apply keepsOut_next)

theorem execXltCommit_keeps {s0 : State} {fn : Nat} {s : State} (h0 : Keeps s0 s) :
    KeepsOut s0 (execXltCommit fn s) := by
  unfold execXltCommit
  try dsimp only
  repeat' (first | with_reducible assumption | (intro _; try dsimp only) | with_reducible apply State.setFlag_keeps
                 | with_reducible apply serveMisses_keeps | with_reducible apply State.commit_keeps | with_reducible apply run_keeps
                 | with_reducible apply keepsOut_next | (simp only [keeps_mk]; with_reducible refine Keeps.fold ?_)
                 | with_reducible apply keeps_ite)

theorem State.xltInval_keeps {s0 : State} {s : State} {fn : Nat} {f : State → State} (h0 : Keeps s0 s) (h1 : ∀ t, Keeps s0 t → Keeps s0 (f t)) :
    Keeps s0 (State.xltInval s fn f) := by
  unfold State.xltInval
  try dsimp only
  repeat' (first | with_reducible assumption | (intro _; try dsimp only) | with_reducible apply h1
                 | with_reducible apply State.expert_keeps | with_reducible apply State.expertDrop_keeps
                 | with_reducible apply keepsOpt_map | with_reducible apply keepsOpt2_mapPair | with_reducible apply keepsOpt2_map
                 | (simp only [keeps_mk]; with_reducible refine Keeps.fold ?_) | with_reducible apply keeps_ite
                 | (split <;> try dsimp only))

theorem execXltInvalAll_keeps {s0 : State} {fn : Nat} {s : State} (h0 : Keeps s0 s) :
    KeepsOut s0 (execXltInvalAll fn s) := by
  unfold execXltInvalAll
  repeat' (first | with_reducible assumption | (intro _; try dsimp only) | with_reducible apply run_keeps
                 | with_reducible apply State.xltInval_keeps | with_reducible apply State.invalidateAll_keeps
                 | with_reducible apply keepsOut_next)

theorem execXltInvalInstance_keeps {s0 : State} {fn n : Nat} {s : State} (h0 : Keeps s0 s) :
    KeepsOut s0 (execXltInvalInstance fn n s) := by
  unfold execXltInvalInstance
  repeat' (first | with_reducible assumption | (intro _; try dsimp only) | with_reducible apply run_keeps
                 | with_reducible apply State.xltInval_keeps | with_reducible apply State.invalidate_keeps
                 | with_reducible apply keepsOut_next)

end Sys2Proof.Machine
end

