-- ==== Sys2Proof/Laws/KeepHifOps.lean ====
section
/-!
SUPPORT. What the operations of Machine/HifOps.lean keep.
-/

namespace Sys2Proof.Machine

set_option linter.unusedTactic false
set_option linter.unreachableTactic false
set_option linter.unusedVariables false

theorem State.unserved_keeps {s0 : State} {s : State} {p : Nat} {t : Tag} (h0 : Keeps s0 s) :
    Keeps s0 (State.unserved s p t) := by
  unfold State.unserved
  try dsimp only
  repeat' (first | with_reducible assumption | (intro _; try dsimp only) | with_reducible apply State.setPort_keeps
                 | with_reducible apply State.updInst_keeps | with_reducible apply State.setAdm_keeps
                 | with_reducible apply State.updOp_keeps | with_reducible apply State.msgEnd_keeps
                 | with_reducible apply State.collAbort_keeps | with_reducible apply State.failEntry_keeps
                 | with_reducible apply State.operConfirmed_keeps | with_reducible apply State.skyArrived_keeps
                 | with_reducible apply State.dirtyConfirm_keeps | with_reducible apply keepsOpt_map
                 | with_reducible apply keepsOpt2_mapPair | with_reducible apply keepsOpt2_map
                 | (simp only [keeps_mk]; with_reducible refine Keeps.fold ?_) | with_reducible apply keeps_ite
                 | (split <;> try dsimp only) | with_reducible refine keeps_of_pair (by assumption) ?_
                 | with_reducible refine keeps_of_triple (by assumption) ?_ | with_reducible refine keeps_of_some (by assumption) ?_
                 | with_reducible refine keeps_of_some2 (by assumption) ?_)

theorem State.dropWaiting_keeps {s0 : State} {s : State} {p : Nat} {q : Tag → Bool} (h0 : Keeps s0 s) :
    Keeps s0 (State.dropWaiting s p q) := by
  unfold State.dropWaiting
  try dsimp only
  repeat' (first | with_reducible assumption | (intro _; try dsimp only) | with_reducible apply State.freeTag_keeps
                 | with_reducible apply State.unserved_keeps | with_reducible apply keeps_foldl
                 | with_reducible apply keeps_foldl_pair | with_reducible apply keeps_foldl_triple
                 | with_reducible apply keepsOpt_foldl | (simp only [keeps_mk]; with_reducible refine Keeps.fold ?_)
                 | with_reducible apply keeps_ite)

theorem State.retireIssued_keeps {s0 : State} {s : State} {p : Nat} {q : Tag → Bool} (h0 : Keeps s0 s) :
    Keeps s0 (State.retireIssued s p q) := by
  unfold State.retireIssued
  try dsimp only
  repeat' (first | with_reducible assumption | (intro _; try dsimp only) | with_reducible apply State.setPort_keeps
                 | with_reducible apply State.freeTag_keeps | with_reducible apply State.unserved_keeps
                 | with_reducible apply keeps_foldl | with_reducible apply keeps_foldl_pair
                 | with_reducible apply keeps_foldl_triple | with_reducible apply keepsOpt_foldl
                 | (simp only [keeps_mk]; with_reducible refine Keeps.fold ?_) | with_reducible apply keeps_ite)

theorem State.retireTags_keeps {s0 : State} {s : State} {fn : Nat} (h0 : Keeps s0 s) :
    Keeps s0 (State.retireTags s fn) := by
  unfold State.retireTags
  try dsimp only
  repeat' (first | with_reducible assumption | (intro _; try dsimp only) | with_reducible apply State.dropWaiting_keeps
                 | with_reducible apply State.retireIssued_keeps | (simp only [keeps_mk]; with_reducible refine Keeps.fold ?_)
                 | with_reducible apply keeps_ite)

theorem State.holdFn_keeps {s0 : State} {s : State} {fn : Nat} (h0 : Keeps s0 s) :
    Keeps s0 (State.holdFn s fn) := by
  unfold State.holdFn
  try dsimp only
  repeat' (first | with_reducible assumption | with_reducible apply State.setFn_keeps | with_reducible apply State.retireTags_keeps
                 | (simp only [keeps_mk]; with_reducible refine Keeps.fold ?_) | with_reducible apply keeps_ite
                 | (split <;> try dsimp only))

theorem State.ringAgain_keeps {s0 : State} {s : State} {n : Nat} {x : Nat × Nat} (h0 : Keeps s0 s) :
    Keeps s0 (State.ringAgain s n x) := by
  unfold State.ringAgain
  try dsimp only
  repeat' (first | with_reducible assumption | (intro _; try dsimp only) | with_reducible apply State.hbmRead_keeps
                 | with_reducible apply State.hostRead_keeps | with_reducible apply State.lookupNow_keeps
                 | with_reducible apply State.updWq_keeps | with_reducible apply State.wqError_keeps
                 | with_reducible apply AdmRes.ok_keeps | with_reducible apply State.ringArrived_keeps
                 | with_reducible apply keeps_getD | (simp only [keeps_mk]; with_reducible refine Keeps.fold ?_)
                 | with_reducible apply keeps_ite | (split <;> try dsimp only)
                 | with_reducible refine keeps_of_pair (by assumption) ?_ | with_reducible refine keeps_of_triple (by assumption) ?_
                 | with_reducible refine keeps_of_some (by assumption) ?_ | with_reducible refine keeps_of_some2 (by assumption) ?_)

theorem State.dirtyAgain_keeps {s0 : State} {s : State} {fn : Nat} (h0 : Keeps s0 s) :
    Keeps s0 (State.dirtyAgain s fn) := by
  unfold State.dirtyAgain
  try dsimp only
  repeat' (first | with_reducible assumption | (intro _; try dsimp only) | with_reducible apply State.dirtyLoad_keeps
                 | with_reducible apply keeps_foldl | with_reducible apply keeps_foldl_pair
                 | with_reducible apply keeps_foldl_triple | with_reducible apply keepsOpt_foldl
                 | (simp only [keeps_mk]; with_reducible refine Keeps.fold ?_) | with_reducible apply keeps_ite
                 | (split <;> try dsimp only) | with_reducible refine keeps_of_pair (by assumption) ?_
                 | with_reducible refine keeps_of_triple (by assumption) ?_ | with_reducible refine keeps_of_some (by assumption) ?_
                 | with_reducible refine keeps_of_some2 (by assumption) ?_)

theorem State.resumeFn_keeps {s0 : State} {s : State} {fn : Nat} (h0 : Keeps s0 s) :
    Keeps s0 (State.resumeFn s fn) := by
  unfold State.resumeFn
  try dsimp only
  repeat' (first | with_reducible assumption | (intro _; try dsimp only) | with_reducible apply State.setPort_keeps
                 | with_reducible apply State.setFn_keeps | with_reducible apply State.msixFlush_keeps
                 | with_reducible apply State.lqDrain_keeps | with_reducible apply State.cqDrain_keeps
                 | with_reducible apply State.repliesDrain_keeps | with_reducible apply State.opCheck_keeps
                 | with_reducible apply State.dirtyConfirm_keeps | with_reducible apply State.ringAgain_keeps
                 | with_reducible apply State.dirtyAgain_keeps | with_reducible exact keepsOpt_none
                 | with_reducible exact keepsOpt2_none | with_reducible apply keepsOpt_some | with_reducible apply keepsOpt2_some
                 | with_reducible apply keeps_foldl | with_reducible apply keeps_foldl_pair
                 | with_reducible apply keeps_foldl_triple | with_reducible apply keepsOpt_foldl
                 | (simp only [keeps_mk]; with_reducible refine Keeps.fold ?_) | with_reducible apply keeps_ite
                 | (split <;> try dsimp only) | with_reducible refine keeps_of_pair (by assumption) ?_
                 | with_reducible refine keeps_of_triple (by assumption) ?_ | with_reducible refine keeps_of_some (by assumption) ?_
                 | with_reducible refine keeps_of_some2 (by assumption) ?_)

theorem State.clearFn_keeps {s0 : State} {s : State} {fn : Nat} (h0 : Keeps s0 s) :
    Keeps s0 (State.clearFn s fn) := by
  unfold State.clearFn
  try dsimp only
  repeat' (first | with_reducible assumption | with_reducible apply State.resetRegsOf_keeps
                 | (simp only [keeps_mk]; with_reducible refine Keeps.fold ?_))

theorem State.vfsOff_keeps {s0 : State} {s : State} {p : Nat} (h0 : Keeps s0 s) :
    Keeps s0 (State.vfsOff s p) := by
  unfold State.vfsOff
  try dsimp only
  repeat' (first | with_reducible assumption | (intro _; try dsimp only) | with_reducible apply State.setPort_keeps
                 | with_reducible apply State.resetInst_keeps | with_reducible apply State.clearFn_keeps
                 | with_reducible apply keepsOpt_map | with_reducible apply keepsOpt2_mapPair | with_reducible apply keepsOpt2_map
                 | with_reducible apply keeps_foldl | with_reducible apply keeps_foldl_pair | with_reducible apply keeps_foldl_triple
                 | (simp only [keeps_mk]; with_reducible refine Keeps.fold ?_))

theorem State.pfReset_keeps {s0 : State} {s : State} {p : Nat} (h0 : Keeps s0 s) :
    Keeps s0 (State.pfReset s p) := by
  unfold State.pfReset
  try dsimp only
  repeat' (first | with_reducible assumption | with_reducible apply State.resetInst_keeps | with_reducible apply State.vfsOff_keeps
                 | with_reducible apply State.admReset_keeps | with_reducible apply State.clearFn_keeps
                 | (simp only [keeps_mk]; with_reducible refine Keeps.fold ?_) | with_reducible apply keeps_ite
                 | (split <;> try dsimp only))

theorem State.dirtyLost_keeps {s0 : State} {s : State} {p : Nat} (h0 : Keeps s0 s) :
    Keeps s0 (State.dirtyLost s p) := by
  unfold State.dirtyLost
  try dsimp only
  repeat' (first | with_reducible assumption | (intro _; try dsimp only) | with_reducible apply State.updInst_keeps
                 | with_reducible apply State.dirtyStop_keeps | with_reducible apply State.useDrainDone_keeps
                 | with_reducible apply keeps_foldl | with_reducible apply keeps_foldl_pair | with_reducible apply keeps_foldl_triple
                 | (simp only [keeps_mk]; with_reducible refine Keeps.fold ?_) | with_reducible apply keeps_ite
                 | (split <;> try dsimp only))

theorem State.portLoss_keeps {s0 : State} {s : State} {p : Nat} (h0 : Keeps s0 s) :
    Keeps s0 (State.portLoss s p) := by
  unfold State.portLoss
  try dsimp only
  repeat' (first | with_reducible assumption | (intro _; try dsimp only) | with_reducible apply State.unsetRegOf_keeps
                 | with_reducible apply State.setPort_keeps | with_reducible apply State.dropWaiting_keeps
                 | with_reducible apply State.pfReset_keeps | with_reducible apply State.dirtyLost_keeps
                 | with_reducible exact keepsOpt_none | with_reducible exact keepsOpt2_none | with_reducible apply keepsOpt_some
                 | with_reducible apply keepsOpt2_some | (simp only [keeps_mk]; with_reducible refine Keeps.fold ?_)
                 | with_reducible apply keeps_ite | (split <;> try dsimp only)
                 | with_reducible refine keeps_of_pair (by assumption) ?_ | with_reducible refine keeps_of_some (by assumption) ?_
                 | with_reducible refine keeps_of_some2 (by assumption) ?_)

theorem State.windowRead_keeps {s0 : State} {s : State} {fn off : Nat} {lanes : List Bool} (h0 : Keeps s0 s) :
    Keeps s0 (State.windowRead s fn off lanes) := by
  unfold State.windowRead
  try dsimp only
  repeat' (first | with_reducible assumption | (intro _; try dsimp only) | with_reducible apply State.hbmRead_keeps
                 | with_reducible apply State.emit_keeps | with_reducible apply keepsOpt_map | with_reducible apply keepsOpt2_mapPair
                 | with_reducible apply keepsOpt2_map | with_reducible apply keeps_foldl | with_reducible apply keeps_foldl_pair
                 | with_reducible apply keeps_foldl_triple | (simp only [keeps_mk]; with_reducible refine Keeps.fold ?_)
                 | with_reducible apply keeps_ite | (split <;> try dsimp only) | with_reducible refine keeps_of_pair (by assumption) ?_
                 | with_reducible refine keeps_of_triple (by assumption) ?_ | with_reducible refine keeps_of_some (by assumption) ?_
                 | with_reducible refine keeps_of_some2 (by assumption) ?_)

theorem State.windowWrite_keeps {s0 : State} {s : State} {fn off : Nat} {data : Bytes} {lanes : List Bool} (h0 : Keeps s0 s) :
    Keeps s0 (State.windowWrite s fn off data lanes) := by
  unfold State.windowWrite
  try dsimp only
  repeat' (first | with_reducible assumption | (intro _; try dsimp only) | with_reducible apply State.hbmWrite_keeps
                 | with_reducible apply State.accessLog_keeps | with_reducible apply keepsOpt_map | with_reducible apply keepsOpt2_mapPair
                 | with_reducible apply keepsOpt2_map | with_reducible apply keeps_foldl | with_reducible apply keeps_foldl_pair
                 | with_reducible apply keeps_foldl_triple | (simp only [keeps_mk]; with_reducible refine Keeps.fold ?_)
                 | with_reducible apply keeps_ite | (split <;> try dsimp only) | with_reducible refine keeps_of_pair (by assumption) ?_
                 | with_reducible refine keeps_of_triple (by assumption) ?_ | with_reducible refine keeps_of_some (by assumption) ?_
                 | with_reducible refine keeps_of_some2 (by assumption) ?_)

theorem State.msixWrite_keeps {s0 : State} {s : State} {fn vector word value : Nat} (h0 : Keeps s0 s) :
    Keeps s0 (State.msixWrite s fn vector word value) := by
  unfold State.msixWrite
  try dsimp only
  repeat' (first | with_reducible assumption | with_reducible apply State.setFn_keeps | with_reducible apply State.msixFlush_keeps
                 | (simp only [keeps_mk]; with_reducible refine Keeps.fold ?_) | with_reducible apply keeps_ite
                 | (split <;> try dsimp only) | with_reducible refine keeps_of_pair (by assumption) ?_
                 | with_reducible refine keeps_of_triple (by assumption) ?_ | with_reducible refine keeps_of_some (by assumption) ?_
                 | with_reducible refine keeps_of_some2 (by assumption) ?_)

theorem keeps_putReg {s0 s : State} {k : Nat} {v : Word} (h : Keeps s0 s) :
    Keeps s0 { s with regs := { s.regs with shadow := SMap.put s.regs.shadow k v } } :=
  ⟨Kept.pending h, Kept.variant h, Kept.mem h, fun w => regs_put_shadow _ _ (Kept.regs h w), Kept.svn h, Kept.cap h⟩

theorem State.regStore_keeps {s0 : State} {s : State} {r : RegSpec} {fn a off size value : Nat} (h0 : Keeps s0 s) :
    Keeps s0 (State.regStore s r fn a off size value) := by
  unfold State.regStore
  dsimp only
  split
  · exact h0
  · exact keeps_putReg h0

theorem State.regAccess_keeps {s0 : State} {s : State} {fn : Nat} {off : Nat} {size : Nat} {value : Nat} (h0 : Keeps s0 s) :
    Keeps s0 (State.regAccess s fn off size value) := by
  unfold State.regAccess
  try dsimp only
  repeat' (first | with_reducible assumption | (intro _; try dsimp only) | with_reducible apply State.countOf_keeps
                 | with_reducible apply State.accessLog_keeps | with_reducible apply State.expert_keeps
                 | with_reducible apply State.admFlag_keeps | with_reducible apply State.regStore_keeps
                 | (simp only [keeps_mk]; with_reducible refine Keeps.fold ?_) | with_reducible apply keeps_ite
                 | (split <;> try dsimp only) | with_reducible refine keeps_of_pair (by assumption) ?_
                 | with_reducible refine keeps_of_triple (by assumption) ?_ | with_reducible refine keeps_of_some (by assumption) ?_
                 | with_reducible refine keeps_of_some2 (by assumption) ?_)

theorem State.bar0Access_keeps {s0 : State} {s : State} {fn off size value : Nat} (h0 : Keeps s0 s) :
    Keeps s0 (State.bar0Access s fn off size value) := by
  unfold State.bar0Access
  try dsimp only
  repeat' (first | with_reducible assumption | with_reducible apply State.msixWrite_keeps | with_reducible apply State.regAccess_keeps
                 | with_reducible apply State.accessLog_keeps | (simp only [keeps_mk]; with_reducible refine Keeps.fold ?_)
                 | with_reducible apply keeps_ite | (split <;> try dsimp only) | with_reducible refine keeps_of_pair (by assumption) ?_
                 | with_reducible refine keeps_of_triple (by assumption) ?_ | with_reducible refine keeps_of_some (by assumption) ?_
                 | with_reducible refine keeps_of_some2 (by assumption) ?_)

theorem State.bar0Write_keeps {s0 : State} {s : State} {fn off lanes v : Nat} (h0 : Keeps s0 s) :
    Keeps s0 (State.bar0Write s fn off lanes v) := by
  unfold State.bar0Write
  try dsimp only
  repeat' (first | with_reducible assumption | with_reducible apply State.bar0Access_keeps | with_reducible apply State.accessLog_keeps
                 | with_reducible apply State.setFn_keeps | with_reducible apply keepsOpt_bind | with_reducible apply keeps_getD
                 | (simp only [keeps_mk]; with_reducible refine Keeps.fold ?_) | with_reducible apply keeps_ite
                 | (split <;> try dsimp only) | with_reducible refine keeps_of_pair (by assumption) ?_
                 | with_reducible refine keeps_of_triple (by assumption) ?_ | with_reducible refine keeps_of_some (by assumption) ?_
                 | with_reducible refine keeps_of_some2 (by assumption) ?_)

end Sys2Proof.Machine
end

