-- ==== Sys2Proof/Laws/KeepStart.lean ====
section
/-!
SUPPORT. What the operations of Machine/Start.lean keep.
-/

namespace Sys2Proof.Machine

set_option linter.unusedTactic false
set_option linter.unreachableTactic false
set_option linter.unusedVariables false

theorem State.setBank_keeps {s0 : State} {s : State} {b : Nat} {x : Bank} (h0 : Keeps s0 s) :
    Keeps s0 (State.setBank s b x) := by
  unfold State.setBank
  try dsimp only
  repeat' (first | with_reducible assumption | (simp only [keeps_mk]; with_reducible refine Keeps.fold ?_))

theorem State.fwEvent_keeps {s0 : State} {s : State} {kind build svn bank cause : Nat} (h0 : Keeps s0 s) :
    Keeps s0 (State.fwEvent s kind build svn bank cause) := by
  unfold State.fwEvent
  repeat' (first | with_reducible assumption | with_reducible apply State.raise_keeps)

theorem State.fwLife_keeps {s0 : State} {s : State} {build svn bank what : Nat} (h0 : Keeps s0 s) :
    Keeps s0 (State.fwLife s build svn bank what) := by
  unfold State.fwLife
  repeat' (first | with_reducible assumption | with_reducible apply State.lifeLog_keeps)

theorem State.fwRejected_keeps {s0 : State} {s : State} {b : Nat} (h0 : Keeps s0 s) :
    Keeps s0 (State.fwRejected s b) := by
  unfold State.fwRejected
  try dsimp only
  repeat' (first | with_reducible assumption | with_reducible apply State.elog_keeps | with_reducible apply State.fwLife_keeps
                 | with_reducible apply State.fwEvent_keeps | with_reducible apply keeps_ite | (split <;> try dsimp only))

theorem State.bmc_banks (s : State) (kind : Nat) (data : Bytes) : (s.bmc kind data).svc.banks = s.svc.banks := by
  unfold State.bmc
  split <;> rfl

theorem State.lifeWrite_banks (s : State) (r : Bytes) : (s.lifeWrite r).svc.banks = s.svc.banks := by
  unfold State.lifeWrite
  dsimp only
  split
  · exact State.bmc_banks _ _ _
  · rfl

theorem State.lifeLog_banks (s : State) (kind : Nat) (data : Bytes) : (s.lifeLog kind data).svc.banks = s.svc.banks := by
  unfold State.lifeLog
  dsimp only
  split
  · exact State.lifeWrite_banks _ _
  · rfl

theorem State.fwRejected_bank (s : State) (a b : Nat) : (s.fwRejected a).bank b = s.bank b := by
  unfold State.fwRejected
  dsimp only
  split
  · rfl
  · show SMap.getD (State.fwLife _ _ _ _ _).svc.banks b _ = SMap.getD s.svc.banks b _
    unfold State.fwLife State.elog
    rw [State.lifeLog_banks, State.lifeLog_banks]

theorem State.loadFrom_keeps {s0 : State} {s : State} {b : Nat} {burn : Bool} (h0 : Keeps s0 s) (hb : imageSvn (s.bank b).image < 64) :
    Keeps s0 (State.loadFrom s b burn) := by
  have h1 : s0.svc.svn ≤ (if (bit (leAt (s.bank b).image 6 1) 0 && decide (s.svc.svn < imageSvn (s.bank b).image)) && burn then
      imageSvn (s.bank b).image else s.svc.svn) := by
    split
    · rename_i h
      simp only [Bool.and_eq_true, decide_eq_true_eq] at h
      exact le_trans (Kept.svn h0) (le_of_lt h.1.2)
    · exact Kept.svn h0
  have h2 : s0.svc.svn ≤ 63 → (if (bit (leAt (s.bank b).image 6 1) 0 && decide (s.svc.svn < imageSvn (s.bank b).image)) && burn then
      imageSvn (s.bank b).image else s.svc.svn) ≤ 63 := by
    intro w
    split
    · omega
    · exact Kept.cap h0 w
  unfold State.loadFrom
  dsimp only
  apply keeps_ite
  · apply State.fwEvent_keeps
    apply State.fwLife_keeps
    apply State.setBank_keeps
    apply State.lifeOwedWrite_keeps
    exact ⟨Kept.pending h0, Kept.variant h0, Kept.mem h0, Kept.regs h0, h1, h2⟩
  · apply State.lifeOwedWrite_keeps
    exact ⟨Kept.pending h0, Kept.variant h0, Kept.mem h0, Kept.regs h0, h1, h2⟩

theorem State.loadFailed_keeps {s0 : State} {s : State} (h0 : Keeps s0 s) :
    Keeps s0 (State.loadFailed s) := by
  unfold State.loadFailed
  try dsimp only
  repeat' (first | with_reducible assumption | (simp only [keeps_mk]; with_reducible refine Keeps.fold ?_))

theorem State.bankGood_svn {s : State} {b : Nat} (h : s.bankGood b = true) : imageSvn (s.bank b).image < 64 := by
  simp only [State.bankGood, State.imageGood, Bool.and_eq_true, decide_eq_true_eq] at h
  exact h.2.1.2

theorem State.loadFirmware_keeps {s0 : State} {s : State} {burn : Bool} (h0 : Keeps s0 s) : Keeps s0 (State.loadFirmware s burn) := by
  unfold State.loadFirmware
  dsimp only
  split
  · rename_i h
    exact State.loadFrom_keeps h0 (State.bankGood_svn h)
  · split
    · rename_i h
      refine State.loadFrom_keeps (State.fwRejected_keeps h0) ?_
      rw [State.fwRejected_bank]
      exact State.bankGood_svn h
    · exact State.loadFailed_keeps (State.fwRejected_keeps (State.fwRejected_keeps h0))

theorem State.cold_keeps {s0 : State} {s : State} (h0 : Keeps s0 s) : Keeps s0 s.cold :=
  ⟨Kept.pending h0, Kept.variant h0, fun _ => rfl, fun _ => rfl, Kept.svn h0, Kept.cap h0⟩

theorem State.stackBoot_keeps {s0 : State} {s : State} {st : Nat} {up : Bool} (h0 : Keeps s0 s) :
    Keeps s0 (State.stackBoot s st up) := by
  unfold State.stackBoot
  try dsimp only
  repeat' (first | with_reducible assumption | with_reducible apply State.setFlag_keeps | with_reducible apply State.elog_keeps
                 | with_reducible apply State.ecc_keeps | (simp only [keeps_mk]; with_reducible refine Keeps.fold ?_)
                 | with_reducible apply keeps_ite | (split <;> try dsimp only))

theorem State.wakePorts_keeps {s0 : State} {s : State} (h0 : Keeps s0 s) :
    Keeps s0 (State.wakePorts s) := by
  unfold State.wakePorts
  repeat' (first | with_reducible assumption | (intro _; try dsimp only) | with_reducible apply State.wakeDom_keeps
                 | with_reducible apply keeps_foldl | with_reducible apply keeps_foldl_pair | with_reducible apply keeps_foldl_triple
                 | with_reducible apply keeps_ite | (split <;> try dsimp only))

theorem State.bootRest_keeps {s0 : State} {s : State} {deadDies deadStacks engines : Nat} (h0 : Keeps s0 s) :
    Keeps s0 (State.bootRest s deadDies deadStacks engines) := by
  unfold State.bootRest
  try dsimp only
  repeat' (first | with_reducible assumption | (intro _; try dsimp only) | with_reducible apply State.wakePorts_keeps
                 | with_reducible apply State.setBase_keeps | with_reducible apply State.stackBoot_keeps
                 | with_reducible apply State.giveRoot_keeps | with_reducible apply State.groupJudge_keeps
                 | with_reducible apply keeps_foldl | with_reducible apply keeps_foldl_pair | with_reducible apply keeps_foldl_triple
                 | (simp only [keeps_mk]; with_reducible refine Keeps.fold ?_) | with_reducible apply keeps_ite
                 | (split <;> try dsimp only))

theorem State.shutDown_keeps {s0 : State} {s : State} {cause sensor : Nat} (h0 : Keeps s0 s) :
    Keeps s0 (State.shutDown s cause sensor) := by
  unfold State.shutDown
  try dsimp only
  repeat' (first | with_reducible assumption | with_reducible apply State.lifeCount_keeps | with_reducible apply State.lifeLog_keeps
                 | with_reducible apply State.cold_keeps | (simp only [keeps_mk]; with_reducible refine Keeps.fold ?_)
                 | with_reducible apply keeps_ite | (split <;> try dsimp only))

theorem State.abortCommands_keeps {s0 : State} {s : State} (h0 : Keeps s0 s) :
    Keeps s0 (State.abortCommands s) := by
  unfold State.abortCommands
  try dsimp only
  repeat' (first | with_reducible assumption | (intro _; try dsimp only) | with_reducible apply State.reply_keeps
                 | with_reducible apply State.admStopped_keeps | with_reducible apply keeps_foldl | with_reducible apply keeps_foldl_pair
                 | with_reducible apply keeps_foldl_triple | (simp only [keeps_mk]; with_reducible refine Keeps.fold ?_)
                 | with_reducible apply keeps_ite | (split <;> try dsimp only) | with_reducible refine keeps_of_pair (by assumption) ?_
                 | with_reducible refine keeps_of_triple (by assumption) ?_ | with_reducible refine keeps_of_some (by assumption) ?_
                 | with_reducible refine keeps_of_some2 (by assumption) ?_ | with_reducible refine keeps_of_reply (by assumption) ?_
                 | with_reducible refine keeps_of_wait (by assumption) ?_)

theorem State.cpHalt_keeps {s0 : State} {s : State} {cause addr : Nat} (h0 : Keeps s0 s) :
    Keeps s0 (State.cpHalt s cause addr) := by
  unfold State.cpHalt
  try dsimp only
  repeat' (first | with_reducible assumption | (intro _; try dsimp only) | with_reducible apply State.elog_keeps
                 | with_reducible apply State.fwEvent_keeps | (simp only [keeps_mk]; with_reducible refine Keeps.fold ?_)
                 | with_reducible apply keeps_ite | (split <;> try dsimp only))

theorem State.cpRestart_keeps {s0 : State} {s : State} {burn : Bool} (h0 : Keeps s0 s) :
    Keeps s0 (State.cpRestart s burn) := by
  unfold State.cpRestart
  try dsimp only
  repeat' (first | with_reducible assumption | with_reducible apply State.loadFirmware_keeps | with_reducible apply State.count_keeps
                 | with_reducible apply State.lifeCount_keeps | with_reducible apply State.fwEvent_keeps
                 | with_reducible apply State.abortCommands_keeps | with_reducible apply keeps_ite | (split <;> try dsimp only))

theorem State.endDrains_keeps {s0 : State} {s : State} (h0 : Keeps s0 s) :
    Keeps s0 (State.endDrains s) := by
  unfold State.endDrains
  try dsimp only
  repeat' (first | with_reducible assumption | (intro _; try dsimp only) | with_reducible apply State.useDrainDone_keeps
                 | with_reducible apply State.dropWaiting_keeps | with_reducible apply State.retireIssued_keeps
                 | with_reducible apply keepsOpt_map | with_reducible apply keepsOpt2_mapPair | with_reducible apply keepsOpt2_map
                 | with_reducible apply keeps_foldl | with_reducible apply keeps_foldl_pair
                 | with_reducible apply keeps_foldl_triple | with_reducible apply keepsOpt_foldl
                 | (simp only [keeps_mk]; with_reducible refine Keeps.fold ?_) | with_reducible apply keeps_ite)

theorem State.moduleReset_keeps {s0 : State} {s : State} {loss burn : Bool} (h0 : Keeps s0 s) :
    Keeps s0 (State.moduleReset s loss burn) := by
  unfold State.moduleReset
  try dsimp only
  repeat' (first | with_reducible assumption | (intro _; try dsimp only) | with_reducible apply State.portLoss_keeps
                 | with_reducible apply State.setPort_keeps | with_reducible apply State.pfReset_keeps
                 | with_reducible apply State.dirtyLost_keeps | with_reducible apply State.endDrains_keeps
                 | with_reducible apply State.advanceEpoch_keeps | with_reducible apply State.loadFirmware_keeps
                 | with_reducible apply State.count_keeps | with_reducible apply State.abortCommands_keeps
                 | with_reducible apply State.lifeCount_keeps | with_reducible apply State.resetRegs_keeps
                 | with_reducible apply keeps_foldl | with_reducible apply keeps_foldl_pair | with_reducible apply keeps_foldl_triple
                 | (simp only [keeps_mk]; with_reducible refine Keeps.fold ?_) | with_reducible apply keeps_ite
                 | (split <;> try dsimp only))

end Sys2Proof.Machine
end

