-- ==== Sys2Proof/Laws/KeepPowerRows.lean ====
section
/-!
SUPPORT. What the operations of Machine/PowerRows.lean keep.
-/

namespace Sys2Proof.Machine

set_option linter.unusedTactic false
set_option linter.unreachableTactic false
set_option linter.unusedVariables false

theorem State.leakages_keeps {s0 : State} {s : State} {ds : List Nat} (h0 : Keeps s0 s) :
    Keeps s0 (State.leakages s ds).2 := by
  unfold State.leakages
  try dsimp only
  repeat' (first | with_reducible assumption | (intro _; try dsimp only) | with_reducible apply State.drawn_keeps
                 | with_reducible apply keeps_foldl | with_reducible apply keeps_foldl_pair | with_reducible apply keeps_foldl_triple
                 | (simp only [keeps_mk]; with_reducible refine Keeps.fold ?_) | with_reducible apply keeps_ite
                 | (split <;> try dsimp only) | with_reducible refine keeps_of_pair (by assumption) ?_
                 | with_reducible refine keeps_of_triple (by assumption) ?_ | with_reducible refine keeps_of_some (by assumption) ?_
                 | with_reducible refine keeps_of_some2 (by assumption) ?_)

theorem State.rawPower_keeps {s0 : State} {s : State} {counts : List Nat} (h0 : Keeps s0 s) :
    Keeps s0 (State.rawPower s counts).2.2 := by
  unfold State.rawPower
  try dsimp only
  repeat' (first | with_reducible assumption | with_reducible apply State.leakages_keeps)

theorem execEstimatorTick_keeps {s0 : State} {counts : List Nat} {s : State} (h0 : Keeps s0 s) :
    KeepsOut s0 (execEstimatorTick counts s) := by
  unfold execEstimatorTick
  try dsimp only
  repeat' (first | with_reducible assumption | (intro _; try dsimp only) | with_reducible apply run_keeps
                 | with_reducible apply State.rawPower_keeps | with_reducible apply State.tallowTrigger_keeps
                 | with_reducible apply State.fillBuckets_keeps | with_reducible apply State.setPwr_keeps
                 | with_reducible apply State.count_keeps | with_reducible apply State.powerEvent_keeps
                 | with_reducible apply State.setFlag_keeps | with_reducible apply State.wakeDom_keeps
                 | with_reducible apply keepsOut_next | with_reducible apply keeps_foldl | with_reducible apply keeps_foldl_pair
                 | with_reducible apply keeps_foldl_triple | (simp only [keeps_mk]; with_reducible refine Keeps.fold ?_)
                 | with_reducible apply keeps_ite | (split <;> try dsimp only) | with_reducible refine keeps_of_pair (by assumption) ?_
                 | with_reducible refine keeps_of_triple (by assumption) ?_ | with_reducible refine keeps_of_some (by assumption) ?_
                 | with_reducible refine keeps_of_some2 (by assumption) ?_)

theorem execCalGainUpdate_keeps {s0 : State} {volts amps watts : Nat} {s : State} (h0 : Keeps s0 s) :
    KeepsOut s0 (execCalGainUpdate volts amps watts s) := by
  unfold execCalGainUpdate
  try dsimp only
  repeat' (first | with_reducible assumption | (intro _; try dsimp only) | with_reducible apply run_keeps
                 | with_reducible apply State.setPwr_keeps | with_reducible apply State.setFlag_keeps
                 | with_reducible apply State.powerEvent_keeps | with_reducible apply keepsOut_next | with_reducible apply keeps_getD
                 | (simp only [keeps_mk]; with_reducible refine Keeps.fold ?_) | with_reducible apply keeps_ite
                 | (split <;> try dsimp only))

theorem State.setCap_keeps {s0 : State} {s : State} {w : Nat} (h0 : Keeps s0 s) :
    Keeps s0 (State.setCap s w) := by
  unfold State.setCap
  repeat' (first | with_reducible assumption | with_reducible apply State.setCom_keeps | with_reducible apply State.setReg_keeps)

theorem execSetPowerCap_keeps {s0 : State} {p k : Nat} {s : State} (h0 : Keeps s0 s) :
    KeepsOut s0 (execSetPowerCap p k s) := by
  unfold execSetPowerCap
  repeat' (first | with_reducible assumption | (intro _; try dsimp only) | with_reducible apply run_keeps
                 | with_reducible apply State.adminRun_keeps | with_reducible apply State.setCap_keeps | with_reducible apply keepsAdm_ok
                 | with_reducible apply keepsAdm_fail | with_reducible apply keepsOut_next | with_reducible apply keeps_ite
                 | (split <;> try dsimp only))

theorem execPwrCommit_keeps {s0 : State} {fn : Nat} {s : State} (h0 : Keeps s0 s) :
    KeepsOut s0 (execPwrCommit fn s) := by
  unfold execPwrCommit
  try dsimp only
  repeat' (first | with_reducible assumption | (intro _; try dsimp only) | with_reducible apply run_keeps
                 | with_reducible apply State.commit_keeps | with_reducible apply State.setFlag_keeps | with_reducible apply keepsOut_next)

theorem execPowerHintCommand_keeps {s0 : State} {p k : Nat} {s : State} (h0 : Keeps s0 s) :
    KeepsOut s0 (execPowerHintCommand p k s) := by
  unfold execPowerHintCommand
  try dsimp only
  repeat' (first | with_reducible assumption | (intro _; try dsimp only) | with_reducible apply run_keeps
                 | with_reducible apply State.adminRun_keeps | with_reducible apply State.takeHint_keeps
                 | with_reducible apply keepsAdm_ok | with_reducible apply keepsAdm_fail | with_reducible apply keepsAdm_wait
                 | with_reducible exact keepsOpt_none | with_reducible exact keepsOpt2_none | with_reducible apply keepsOpt_some
                 | with_reducible apply keepsOpt2_some | with_reducible apply keepsOut_next
                 | (simp only [keeps_mk]; with_reducible refine Keeps.fold ?_) | with_reducible apply keeps_ite
                 | (split <;> try dsimp only) | with_reducible refine keeps_of_pair (by assumption) ?_
                 | with_reducible refine keeps_of_triple (by assumption) ?_ | with_reducible refine keeps_of_some (by assumption) ?_
                 | with_reducible refine keeps_of_some2 (by assumption) ?_)

theorem execPowerHintEffect_keeps {s0 : State} {s : State} (h0 : Keeps s0 s) :
    KeepsOut s0 (execPowerHintEffect s) := by
  unfold execPowerHintEffect
  try dsimp only
  repeat' (first | with_reducible assumption | (intro _; try dsimp only) | with_reducible apply run_keeps
                 | with_reducible apply State.setPwr_keeps | with_reducible apply State.hintEffect_keeps
                 | with_reducible apply keepsOut_next | with_reducible apply keeps_foldl | with_reducible apply keeps_foldl_pair
                 | with_reducible apply keeps_foldl_triple | (simp only [keeps_mk]; with_reducible refine Keeps.fold ?_))

theorem execDomainIdleOff_keeps {s0 : State} {domain : Nat} {s : State} (h0 : Keeps s0 s) :
    KeepsOut s0 (execDomainIdleOff domain s) := by
  unfold execDomainIdleOff
  repeat' (first | with_reducible assumption | (intro _; try dsimp only) | with_reducible apply run_keeps
                 | with_reducible apply State.domOff_keeps | with_reducible apply keepsOut_next | with_reducible apply keeps_ite
                 | (split <;> try dsimp only))

theorem execDomainWakeStart_keeps {s0 : State} {s : State} (h0 : Keeps s0 s) :
    KeepsOut s0 (execDomainWakeStart s) := by
  unfold execDomainWakeStart
  try dsimp only
  repeat' (first | with_reducible assumption | (intro _; try dsimp only) | with_reducible apply run_keeps
                 | with_reducible apply State.setPwr_keeps | with_reducible apply keepsOut_next
                 | (simp only [keeps_mk]; with_reducible refine Keeps.fold ?_) | with_reducible apply keeps_ite
                 | (split <;> try dsimp only) | with_reducible refine keeps_of_pair (by assumption) ?_
                 | with_reducible refine keeps_of_triple (by assumption) ?_ | with_reducible refine keeps_of_some (by assumption) ?_
                 | with_reducible refine keeps_of_some2 (by assumption) ?_)

theorem execDomainWakeDone_keeps {s0 : State} {domain : Nat} {s : State} (h0 : Keeps s0 s) :
    KeepsOut s0 (execDomainWakeDone domain s) := by
  unfold execDomainWakeDone
  try dsimp only
  repeat' (first | with_reducible assumption | (intro _; try dsimp only) | with_reducible apply run_keeps
                 | with_reducible apply State.domStart_keeps | with_reducible apply State.groupUp_keeps
                 | with_reducible apply State.setPort_keeps | with_reducible apply keepsOut_next
                 | (simp only [keeps_mk]; with_reducible refine Keeps.fold ?_) | with_reducible apply keeps_ite
                 | (split <;> try dsimp only))

theorem execDroopDetect_keeps {s0 : State} {die : Nat} {s : State} (h0 : Keeps s0 s) :
    KeepsOut s0 (execDroopDetect die s) := by
  unfold execDroopDetect
  try dsimp only
  repeat' (first | with_reducible assumption | (intro _; try dsimp only) | with_reducible apply run_keeps
                 | with_reducible apply State.setPwr_keeps | with_reducible apply State.count_keeps
                 | with_reducible apply State.setFlag_keeps | with_reducible apply State.powerEvent_keeps
                 | with_reducible apply keepsOut_next | with_reducible apply keeps_getD
                 | (simp only [keeps_mk]; with_reducible refine Keeps.fold ?_) | with_reducible apply keeps_ite
                 | (split <;> try dsimp only))

theorem execDroopSkipEnd_keeps {s0 : State} {die : Nat} {s : State} (h0 : Keeps s0 s) :
    KeepsOut s0 (execDroopSkipEnd die s) := by
  unfold execDroopSkipEnd
  try dsimp only
  repeat' (first | with_reducible assumption | (intro _; try dsimp only) | with_reducible apply run_keeps
                 | with_reducible apply State.setPwr_keeps | with_reducible apply keepsOut_next
                 | (simp only [keeps_mk]; with_reducible refine Keeps.fold ?_))

theorem State.thermal_keeps {s0 : State} {s : State} {i : Nat} {old : Nat} {new : Nat} (h0 : Keeps s0 s) :
    Keeps s0 (State.thermal s i old new) := by
  unfold State.thermal
  try dsimp only
  repeat' (first | with_reducible assumption | (intro _; try dsimp only) | with_reducible apply State.raise_keeps
                 | with_reducible apply State.bmc_keeps | with_reducible apply State.setPwr_keeps
                 | with_reducible exact keepsOpt_none | with_reducible exact keepsOpt2_none | with_reducible apply keepsOpt_some
                 | with_reducible apply keepsOpt2_some | with_reducible apply keeps_getD
                 | (simp only [keeps_mk]; with_reducible refine Keeps.fold ?_) | with_reducible apply keeps_ite
                 | (split <;> try dsimp only) | with_reducible refine keeps_of_pair (by assumption) ?_
                 | with_reducible refine keeps_of_triple (by assumption) ?_ | with_reducible refine keeps_of_some (by assumption) ?_
                 | with_reducible refine keeps_of_some2 (by assumption) ?_)

theorem State.sensorAt_keeps {s0 : State} {s : State} {i : Nat} {t : Int} (h0 : Keeps s0 s) :
    Keeps s0 (State.sensorAt s i t) := by
  unfold State.sensorAt
  try dsimp only
  repeat' (first | with_reducible assumption | with_reducible apply State.setPwr_keeps | with_reducible apply State.thermal_keeps
                 | with_reducible apply State.drawn_keeps | with_reducible apply State.groupDown_keeps | with_reducible apply keepsOpt_map
                 | with_reducible apply keepsOpt2_mapPair | with_reducible apply keepsOpt2_map | with_reducible apply keeps_getD
                 | (simp only [keeps_mk]; with_reducible refine Keeps.fold ?_) | with_reducible apply keeps_ite
                 | (split <;> try dsimp only) | with_reducible refine keeps_of_pair (by assumption) ?_
                 | with_reducible refine keeps_of_triple (by assumption) ?_ | with_reducible refine keeps_of_some (by assumption) ?_
                 | with_reducible refine keeps_of_some2 (by assumption) ?_)

theorem State.histogram_keeps {s0 : State} {s : State} {h v : Nat} (h0 : Keeps s0 s) :
    Keeps s0 (State.histogram s h v) := by
  unfold State.histogram
  try dsimp only
  repeat' (first | with_reducible assumption | with_reducible apply keeps_getD
                 | (simp only [keeps_mk]; with_reducible refine Keeps.fold ?_))

theorem State.sensorsTake_keeps {s0 : State} {s : State} {temps : List Int} (h0 : Keeps s0 s) :
    Keeps s0 (State.sensorsTake s temps) := by
  unfold State.sensorsTake
  try dsimp only
  repeat' (first | with_reducible assumption | (intro _; try dsimp only) | with_reducible apply State.sensorAt_keeps
                 | with_reducible apply keeps_foldl | with_reducible apply keeps_foldl_pair | with_reducible apply keeps_foldl_triple)

theorem State.histograms_keeps {s0 : State} {s : State} (h0 : Keeps s0 s) :
    Keeps s0 (State.histograms s) := by
  unfold State.histograms
  repeat' (first | with_reducible assumption | with_reducible apply State.histogram_keeps | with_reducible apply keepsOpt_map
                 | with_reducible apply keepsOpt2_mapPair | with_reducible apply keepsOpt2_map)

theorem State.tooHot_keeps {s0 : State} {s : State} (h0 : Keeps s0 s) :
    Keeps s0 (State.tooHot s) := by
  unfold State.tooHot
  try dsimp only
  repeat' (first | with_reducible assumption | (intro _; try dsimp only) | with_reducible apply State.finish_keeps
                 | with_reducible apply State.shutDown_keeps | (simp only [keeps_mk]; with_reducible refine Keeps.fold ?_)
                 | with_reducible apply keeps_ite | (split <;> try dsimp only) | with_reducible refine keeps_of_pair (by assumption) ?_
                 | with_reducible refine keeps_of_triple (by assumption) ?_ | with_reducible refine keeps_of_some (by assumption) ?_
                 | with_reducible refine keeps_of_some2 (by assumption) ?_)

theorem execSensorSample_keeps {s0 : State} {temps : List Int} {s : State} (h0 : Keeps s0 s) :
    KeepsOut s0 (execSensorSample temps s) := by
  unfold execSensorSample
  try dsimp only
  repeat' (first | with_reducible assumption | (intro _; try dsimp only) | with_reducible apply run_keeps
                 | with_reducible apply State.sensorsTake_keeps | with_reducible apply State.histograms_keeps
                 | with_reducible apply State.tooHot_keeps | with_reducible apply keepsOut_next | with_reducible apply keeps_ite
                 | (split <;> try dsimp only))

theorem execOeRepower_keeps {s0 : State} {group : Nat} {s : State} (h0 : Keeps s0 s) :
    KeepsOut s0 (execOeRepower group s) := by
  unfold execOeRepower
  try dsimp only
  repeat' (first | with_reducible assumption | (intro _; try dsimp only) | with_reducible apply run_keeps
                 | with_reducible apply State.setPwr_keeps | with_reducible apply State.groupJudge_keeps
                 | with_reducible apply keepsOut_next | (simp only [keeps_mk]; with_reducible refine Keeps.fold ?_)
                 | with_reducible apply keeps_ite | (split <;> try dsimp only))

theorem State.toPoint_keeps {s0 : State} {s : State} {die pt : Nat} (h0 : Keeps s0 s) :
    Keeps s0 (State.toPoint s die pt) := by
  unfold State.toPoint
  try dsimp only
  repeat' (first | with_reducible assumption | with_reducible apply State.setPwr_keeps
                 | (simp only [keeps_mk]; with_reducible refine Keeps.fold ?_))

theorem execVpointStepDown_keeps {s0 : State} {die : Nat} {s : State} (h0 : Keeps s0 s) :
    KeepsOut s0 (execVpointStepDown die s) := by
  unfold execVpointStepDown
  try dsimp only
  repeat' (first | with_reducible assumption | (intro _; try dsimp only) | with_reducible apply run_keeps
                 | with_reducible apply State.toPoint_keeps | with_reducible apply State.setPwr_keeps
                 | with_reducible apply State.count_keeps | with_reducible apply State.setFlag_keeps | with_reducible apply keepsOut_next
                 | (simp only [keeps_mk]; with_reducible refine Keeps.fold ?_) | with_reducible apply keeps_ite
                 | (split <;> try dsimp only))

theorem execVpointStepUp_keeps {s0 : State} {die : Nat} {s : State} (h0 : Keeps s0 s) :
    KeepsOut s0 (execVpointStepUp die s) := by
  unfold execVpointStepUp
  repeat' (first | with_reducible assumption | (intro _; try dsimp only) | with_reducible apply run_keeps
                 | with_reducible apply State.toPoint_keeps | with_reducible apply keepsOut_next | with_reducible apply keeps_ite
                 | (split <;> try dsimp only))

theorem execTclkRelockDone_keeps {s0 : State} {die : Nat} {s : State} (h0 : Keeps s0 s) :
    KeepsOut s0 (execTclkRelockDone die s) := by
  unfold execTclkRelockDone
  try dsimp only
  repeat' (first | with_reducible assumption | (intro _; try dsimp only) | with_reducible apply run_keeps
                 | with_reducible apply State.setPwr_keeps | with_reducible apply keepsOut_next
                 | (simp only [keeps_mk]; with_reducible refine Keeps.fold ?_))

theorem State.setBay_keeps {s0 : State} {s : State} {b : Nat} {x : Bay} (h0 : Keeps s0 s) :
    Keeps s0 (State.setBay s b x) := by
  unfold State.setBay
  try dsimp only
  repeat' (first | with_reducible assumption | with_reducible apply State.setPwr_keeps
                 | (simp only [keeps_mk]; with_reducible refine Keeps.fold ?_))

theorem State.bayOff_keeps {s0 : State} {s : State} {b : Nat} (h0 : Keeps s0 s) :
    Keeps s0 (State.bayOff s b) := by
  unfold State.bayOff
  try dsimp only
  repeat' (first | with_reducible assumption | with_reducible apply State.setBay_keeps | with_reducible apply State.lightLost_keeps
                 | (simp only [keeps_mk]; with_reducible refine Keeps.fold ?_) | with_reducible apply keeps_ite
                 | (split <;> try dsimp only))

theorem execElsPresenceClose_keeps {s0 : State} {bay : Nat} {s : State} (h0 : Keeps s0 s) :
    KeepsOut s0 (execElsPresenceClose bay s) := by
  unfold execElsPresenceClose
  try dsimp only
  repeat' (first | with_reducible assumption | (intro _; try dsimp only) | with_reducible apply runAlways_keeps
                 | with_reducible apply State.setBay_keeps | with_reducible apply State.lifeCount_keeps
                 | with_reducible apply keepsOut_next | (simp only [keeps_mk]; with_reducible refine Keeps.fold ?_)
                 | with_reducible apply keeps_ite | (split <;> try dsimp only))

theorem execElsRampStart_keeps {s0 : State} {bay : Nat} {s : State} (h0 : Keeps s0 s) :
    KeepsOut s0 (execElsRampStart bay s) := by
  unfold execElsRampStart
  try dsimp only
  repeat' (first | with_reducible assumption | (intro _; try dsimp only) | with_reducible apply run_keeps
                 | with_reducible apply State.setBay_keeps | with_reducible apply keepsOut_next
                 | (simp only [keeps_mk]; with_reducible refine Keeps.fold ?_) | with_reducible apply keeps_ite
                 | (split <;> try dsimp only))

theorem execElsRampEnd_keeps {s0 : State} {bay : Nat} {s : State} (h0 : Keeps s0 s) :
    KeepsOut s0 (execElsRampEnd bay s) := by
  unfold execElsRampEnd
  try dsimp only
  repeat' (first | with_reducible assumption | (intro _; try dsimp only) | with_reducible apply run_keeps
                 | with_reducible apply State.setBay_keeps | with_reducible apply State.lightBack_keeps
                 | with_reducible apply keepsOut_next | (simp only [keeps_mk]; with_reducible refine Keeps.fold ?_)
                 | with_reducible apply keeps_ite | (split <;> try dsimp only))

theorem execElsTrip_keeps {s0 : State} {bay : Nat} {s : State} (h0 : Keeps s0 s) :
    KeepsOut s0 (execElsTrip bay s) := by
  unfold execElsTrip
  try dsimp only
  repeat' (first | with_reducible assumption | (intro _; try dsimp only) | with_reducible apply run_keeps
                 | with_reducible apply State.bayOff_keeps | with_reducible apply State.setBay_keeps
                 | with_reducible apply State.setFlag_keeps | with_reducible apply State.count_keeps
                 | with_reducible apply State.lifeCount_keeps | with_reducible apply State.powerEvent_keeps
                 | with_reducible apply keepsOut_next | (simp only [keeps_mk]; with_reducible refine Keeps.fold ?_)
                 | with_reducible apply keeps_ite | (split <;> try dsimp only))

theorem execElsContactOpen_keeps {s0 : State} {bay : Nat} {s : State} (h0 : Keeps s0 s) :
    KeepsOut s0 (execElsContactOpen bay s) := by
  unfold execElsContactOpen
  try dsimp only
  repeat' (first | with_reducible assumption | (intro _; try dsimp only) | with_reducible apply runAlways_keeps
                 | with_reducible apply State.setBay_keeps | with_reducible apply State.bayOff_keeps | with_reducible apply keepsOut_next
                 | (simp only [keeps_mk]; with_reducible refine Keeps.fold ?_) | with_reducible apply keeps_ite
                 | (split <;> try dsimp only))

theorem execElsPresenceOpen_keeps {s0 : State} {bay : Nat} {s : State} (h0 : Keeps s0 s) :
    KeepsOut s0 (execElsPresenceOpen bay s) := by
  unfold execElsPresenceOpen
  try dsimp only
  repeat' (first | with_reducible assumption | (intro _; try dsimp only) | with_reducible apply run_keeps
                 | with_reducible apply State.setBay_keeps | with_reducible apply keepsOut_next
                 | (simp only [keeps_mk]; with_reducible refine Keeps.fold ?_) | with_reducible apply keeps_ite
                 | (split <;> try dsimp only))

theorem State.elsCtl_keeps {s0 : State} {s : State} {value : Nat} (h0 : Keeps s0 s) :
    Keeps s0 (State.elsCtl s value) := by
  unfold State.elsCtl
  try dsimp only
  repeat' (first | with_reducible assumption | (intro _; try dsimp only) | with_reducible apply State.setReg_keeps
                 | with_reducible apply State.bayOff_keeps | with_reducible apply State.setBay_keeps | with_reducible apply keeps_foldl
                 | with_reducible apply keeps_foldl_pair | with_reducible apply keeps_foldl_triple
                 | (simp only [keeps_mk]; with_reducible refine Keeps.fold ?_) | with_reducible apply keeps_ite
                 | (split <;> try dsimp only))

theorem execElsClearLatch_keeps {s0 : State} {fn value : Nat} {s : State} (h0 : Keeps s0 s) :
    KeepsOut s0 (execElsClearLatch fn value s) := by
  unfold execElsClearLatch
  repeat' (first | with_reducible assumption | (intro _; try dsimp only) | with_reducible apply run_keeps
                 | with_reducible apply State.expert_keeps | with_reducible apply State.elsCtl_keeps | with_reducible apply keepsOut_next)

theorem execElsDisableWrite_keeps {s0 : State} {fn value : Nat} {s : State} (h0 : Keeps s0 s) :
    KeepsOut s0 (execElsDisableWrite fn value s) := by
  unfold execElsDisableWrite
  repeat' (first | with_reducible assumption | (intro _; try dsimp only) | with_reducible apply run_keeps
                 | with_reducible apply State.expert_keeps | with_reducible apply State.elsCtl_keeps | with_reducible apply keepsOut_next)

theorem execSupplyLow_keeps {s0 : State} {s : State} (h0 : Keeps s0 s) :
    KeepsOut s0 (execSupplyLow s) := by
  unfold execSupplyLow
  try dsimp only
  repeat' (first | with_reducible assumption | (intro _; try dsimp only) | with_reducible apply run_keeps
                 | with_reducible apply State.setPwr_keeps | with_reducible apply State.setFlag_keeps
                 | with_reducible apply State.powerEvent_keeps | with_reducible apply keepsOut_next
                 | (simp only [keeps_mk]; with_reducible refine Keeps.fold ?_))

theorem execSupplyFault_keeps {s0 : State} {high : Bool} {s : State} (h0 : Keeps s0 s) :
    KeepsOut s0 (execSupplyFault high s) := by
  unfold execSupplyFault
  try dsimp only
  repeat' (first | with_reducible assumption | (intro _; try dsimp only) | with_reducible apply runAlways_keeps
                 | with_reducible apply State.setPwr_keeps | with_reducible apply State.finish_keeps
                 | with_reducible apply State.shutDown_keeps | with_reducible apply keepsOut_next
                 | (simp only [keeps_mk]; with_reducible refine Keeps.fold ?_) | with_reducible apply keeps_ite
                 | (split <;> try dsimp only))

theorem execSupplyGood_keeps {s0 : State} {s : State} (h0 : Keeps s0 s) :
    KeepsOut s0 (execSupplyGood s) := by
  unfold execSupplyGood
  try dsimp only
  repeat' (first | with_reducible assumption | (intro _; try dsimp only) | with_reducible apply runAlways_keeps
                 | with_reducible apply State.setPwr_keeps | with_reducible apply keepsOut_next
                 | (simp only [keeps_mk]; with_reducible refine Keeps.fold ?_) | with_reducible apply keeps_ite
                 | (split <;> try dsimp only))

theorem execPowerUp_keeps {s0 : State} {s : State} (h0 : Keeps s0 s) :
    KeepsOut s0 (execPowerUp s) := by
  unfold execPowerUp
  repeat' (first | with_reducible assumption | (intro _; try dsimp only) | with_reducible apply runAlways_keeps
                 | with_reducible apply State.cold_keeps | with_reducible apply keepsOut_next | with_reducible apply keeps_ite
                 | (split <;> try dsimp only))

end Sys2Proof.Machine
end

