-- ==== Sys2Proof/Laws/KeepBootRows.lean ====
section
/-!
SUPPORT. What the operations of Machine/BootRows.lean keep.
-/

namespace Sys2Proof.Machine

set_option linter.unusedTactic false
set_option linter.unreachableTactic false
set_option linter.unusedVariables false

theorem execPowerOnReset_keeps {s0 : State} {deadDies deadStacks engines : Nat} {burn : Bool} {s : State} (h0 : Keeps s0 s) :
    KeepsOut s0 (execPowerOnReset deadDies deadStacks engines burn s) := by
  unfold execPowerOnReset
  repeat' (first | with_reducible assumption | (intro _; try dsimp only) | with_reducible apply run_keeps
                 | with_reducible apply State.cold_keeps | with_reducible apply State.lifeCount_keeps
                 | with_reducible apply State.loadFirmware_keeps | with_reducible apply State.bootRest_keeps
                 | with_reducible apply keepsOut_next)

theorem execModuleReset_keeps {s0 : State} {loss burn : Bool} {s : State} (h0 : Keeps s0 s) :
    KeepsOut s0 (execModuleReset loss burn s) := by
  unfold execModuleReset
  repeat' (first | with_reducible assumption | (intro _; try dsimp only) | with_reducible apply run_keeps
                 | with_reducible apply State.moduleReset_keeps | with_reducible apply keepsOut_next)

theorem execPortLinkLoss_keeps {s0 : State} {port : Nat} {burn : Bool} {s : State} (h0 : Keeps s0 s) :
    KeepsOut s0 (execPortLinkLoss port burn s) := by
  unfold execPortLinkLoss
  repeat' (first | with_reducible assumption | (intro _; try dsimp only) | with_reducible apply run_keeps
                 | with_reducible apply State.moduleReset_keeps | with_reducible apply State.portLoss_keeps
                 | with_reducible apply keepsOut_next | with_reducible apply keeps_ite | (split <;> try dsimp only))

theorem execPerstAssert_keeps {s0 : State} {port : Nat} {burn : Bool} {s : State} (h0 : Keeps s0 s) :
    KeepsOut s0 (execPerstAssert port burn s) := by
  unfold execPerstAssert
  try dsimp only
  repeat' (first | with_reducible assumption | (intro _; try dsimp only) | with_reducible apply runAlways_keeps
                 | with_reducible apply State.setPort_keeps | with_reducible apply State.moduleReset_keeps
                 | with_reducible apply State.portLoss_keeps | with_reducible apply State.domOff_keeps
                 | with_reducible apply keepsOut_next | (simp only [keeps_mk]; with_reducible refine Keeps.fold ?_)
                 | with_reducible apply keeps_ite | (split <;> try dsimp only))

theorem execPerstRelease_keeps {s0 : State} {port : Nat} {s : State} (h0 : Keeps s0 s) :
    KeepsOut s0 (execPerstRelease port s) := by
  unfold execPerstRelease
  try dsimp only
  repeat' (first | with_reducible assumption | (intro _; try dsimp only) | with_reducible apply runAlways_keeps
                 | with_reducible apply State.setPort_keeps | with_reducible apply State.wakeDom_keeps
                 | with_reducible apply keepsOut_next | (simp only [keeps_mk]; with_reducible refine Keeps.fold ?_)
                 | with_reducible apply keeps_ite | (split <;> try dsimp only))

theorem execWatchdogExpiry_keeps {s0 : State} {addr : Nat} {s : State} (h0 : Keeps s0 s) :
    KeepsOut s0 (execWatchdogExpiry addr s) := by
  unfold execWatchdogExpiry
  repeat' (first | with_reducible assumption | (intro _; try dsimp only) | with_reducible apply run_keeps
                 | with_reducible apply State.cpHalt_keeps | with_reducible apply keepsOut_next)

theorem execCodeWrite_keeps {s0 : State} {addr : Nat} {s : State} (h0 : Keeps s0 s) :
    KeepsOut s0 (execCodeWrite addr s) := by
  unfold execCodeWrite
  repeat' (first | with_reducible assumption | (intro _; try dsimp only) | with_reducible apply run_keeps
                 | with_reducible apply State.cpHalt_keeps | with_reducible apply keepsOut_next)

theorem execSramUe_keeps {s0 : State} {addr offset : Nat} {s : State} (h0 : Keeps s0 s) :
    KeepsOut s0 (execSramUe addr offset s) := by
  unfold execSramUe
  repeat' (first | with_reducible assumption | (intro _; try dsimp only) | with_reducible apply run_keeps
                 | with_reducible apply State.ecc_keeps | with_reducible apply State.cpHalt_keeps | with_reducible apply keepsOut_next
                 | with_reducible apply keeps_ite | (split <;> try dsimp only))

theorem execCpFault_keeps {s0 : State} {addr : Nat} {s : State} (h0 : Keeps s0 s) :
    KeepsOut s0 (execCpFault addr s) := by
  unfold execCpFault
  repeat' (first | with_reducible assumption | (intro _; try dsimp only) | with_reducible apply run_keeps
                 | with_reducible apply State.cpHalt_keeps | with_reducible apply keepsOut_next)

theorem execCpRestart_keeps {s0 : State} {burn : Bool} {s : State} (h0 : Keeps s0 s) :
    KeepsOut s0 (execCpRestart burn s) := by
  unfold execCpRestart
  repeat' (first | with_reducible assumption | (intro _; try dsimp only) | with_reducible apply run_keeps
                 | with_reducible apply State.cpHalt_keeps | with_reducible apply State.cpRestart_keeps
                 | with_reducible apply keepsOut_next | with_reducible apply keeps_ite | (split <;> try dsimp only))

theorem execFirmwareStage_keeps {s0 : State} {p k : Nat} {s : State} (h0 : Keeps s0 s) :
    KeepsOut s0 (execFirmwareStage p k s) := by
  unfold execFirmwareStage
  try dsimp only
  repeat' (first | with_reducible assumption | (intro _; try dsimp only) | with_reducible apply run_keeps
                 | with_reducible apply State.adminRun_keeps | with_reducible apply State.admRead_keeps
                 | with_reducible apply State.setBank_keeps | with_reducible apply keepsAdm_fail | with_reducible apply keepsAdm_wait
                 | with_reducible apply keepsOut_next | (simp only [keeps_mk]; with_reducible refine Keeps.fold ?_)
                 | with_reducible apply keeps_ite | (split <;> try dsimp only) | with_reducible refine keeps_of_pair (by assumption) ?_
                 | with_reducible refine keeps_of_triple (by assumption) ?_ | with_reducible refine keeps_of_some (by assumption) ?_
                 | with_reducible refine keeps_of_some2 (by assumption) ?_)

theorem execFlashWriteDone_keeps {s0 : State} {ok : Bool} {s : State} (h0 : Keeps s0 s) :
    KeepsOut s0 (execFlashWriteDone ok s) := by
  unfold execFlashWriteDone
  try dsimp only
  repeat' (first | with_reducible assumption | (intro _; try dsimp only) | with_reducible apply run_keeps
                 | with_reducible apply State.setBank_keeps | with_reducible apply State.fwEvent_keeps
                 | with_reducible apply State.reply_keeps | with_reducible apply State.admStopped_keeps
                 | with_reducible apply State.lifeLog_keeps | with_reducible apply keepsOut_next | with_reducible apply keeps_getD
                 | (simp only [keeps_mk]; with_reducible refine Keeps.fold ?_) | with_reducible apply keeps_ite
                 | (split <;> try dsimp only) | with_reducible refine keeps_of_pair (by assumption) ?_
                 | with_reducible refine keeps_of_triple (by assumption) ?_ | with_reducible refine keeps_of_some (by assumption) ?_
                 | with_reducible refine keeps_of_some2 (by assumption) ?_ | with_reducible refine keeps_of_reply (by assumption) ?_
                 | with_reducible refine keeps_of_wait (by assumption) ?_)

theorem execFirmwareActivateNextPowerOn_keeps {s0 : State} {p k : Nat} {s : State} (h0 : Keeps s0 s) :
    KeepsOut s0 (execFirmwareActivateNextPowerOn p k s) := by
  unfold execFirmwareActivateNextPowerOn
  try dsimp only
  repeat' (first | with_reducible assumption | (intro _; try dsimp only) | with_reducible apply run_keeps
                 | with_reducible apply State.adminRun_keeps | with_reducible apply keepsAdm_ok | with_reducible apply keepsAdm_fail
                 | with_reducible apply keepsAdm_field | with_reducible apply keepsOut_next
                 | (simp only [keeps_mk]; with_reducible refine Keeps.fold ?_) | with_reducible apply keeps_ite
                 | (split <;> try dsimp only) | with_reducible refine keeps_of_pair (by assumption) ?_
                 | with_reducible refine keeps_of_triple (by assumption) ?_ | with_reducible refine keeps_of_some (by assumption) ?_
                 | with_reducible refine keeps_of_some2 (by assumption) ?_)

theorem execFirmwareActivateNow_keeps {s0 : State} {p k : Nat} {s : State} (h0 : Keeps s0 s) :
    KeepsOut s0 (execFirmwareActivateNow p k s) := by
  unfold execFirmwareActivateNow
  try dsimp only
  repeat' (first | with_reducible assumption | (intro _; try dsimp only) | with_reducible apply run_keeps
                 | with_reducible apply State.adminRun_keeps | with_reducible apply keepsAdm_ok | with_reducible apply keepsAdm_fail
                 | with_reducible apply keepsOut_next | (simp only [keeps_mk]; with_reducible refine Keeps.fold ?_)
                 | with_reducible apply keeps_ite | (split <;> try dsimp only) | with_reducible refine keeps_of_pair (by assumption) ?_
                 | with_reducible refine keeps_of_triple (by assumption) ?_ | with_reducible refine keeps_of_some (by assumption) ?_
                 | with_reducible refine keeps_of_some2 (by assumption) ?_)

theorem execJobDomainCreate_keeps {s0 : State} {p k : Nat} {s : State} (h0 : Keeps s0 s) :
    KeepsOut s0 (execJobDomainCreate p k s) := by
  unfold execJobDomainCreate
  try dsimp only
  repeat' (first | with_reducible assumption | (intro _; try dsimp only) | with_reducible apply run_keeps
                 | with_reducible apply State.adminRun_keeps | with_reducible apply State.admRead_keeps
                 | with_reducible apply State.reply_keeps | with_reducible apply State.setCmd_keeps
                 | with_reducible apply State.setDomain_keeps | with_reducible apply State.sendDomainSetup_keeps
                 | with_reducible apply keepsAdm_fail | with_reducible apply keepsAdm_field | with_reducible apply keepsAdm_reply
                 | with_reducible apply keepsAdm_wait | with_reducible apply keepsOpt_map | with_reducible apply keepsOpt2_mapPair
                 | with_reducible apply keepsOpt2_map | with_reducible apply keepsOut_next | with_reducible apply keeps_getD
                 | (simp only [keeps_mk]; with_reducible refine Keeps.fold ?_) | with_reducible apply keeps_ite
                 | (split <;> try dsimp only) | with_reducible refine keeps_of_pair (by assumption) ?_
                 | with_reducible refine keeps_of_triple (by assumption) ?_ | with_reducible refine keeps_of_some (by assumption) ?_
                 | with_reducible refine keeps_of_some2 (by assumption) ?_ | with_reducible refine keeps_of_reply (by assumption) ?_
                 | with_reducible refine keeps_of_wait (by assumption) ?_)

theorem execJobDomainFault_keeps {s0 : State} {p k : Nat} {s : State} (h0 : Keeps s0 s) :
    KeepsOut s0 (execJobDomainFault p k s) := by
  unfold execJobDomainFault
  try dsimp only
  repeat' (first | with_reducible assumption | (intro _; try dsimp only) | with_reducible apply run_keeps
                 | with_reducible apply State.adminRun_keeps | with_reducible apply State.delDomain_keeps
                 | with_reducible apply State.reply_keeps | with_reducible apply State.admStopped_keeps
                 | with_reducible apply State.setDomain_keeps | with_reducible apply State.jobFault_keeps
                 | with_reducible apply keepsAdm_ok | with_reducible apply keepsAdm_fail | with_reducible apply keepsAdm_field
                 | with_reducible apply keepsAdm_reply | with_reducible apply keepsAdm_wait | with_reducible apply keepsOut_next
                 | (simp only [keeps_mk]; with_reducible refine Keeps.fold ?_) | with_reducible apply keeps_ite
                 | (split <;> try dsimp only) | with_reducible refine keeps_of_pair (by assumption) ?_
                 | with_reducible refine keeps_of_triple (by assumption) ?_ | with_reducible refine keeps_of_some (by assumption) ?_
                 | with_reducible refine keeps_of_some2 (by assumption) ?_ | with_reducible refine keeps_of_reply (by assumption) ?_
                 | with_reducible refine keeps_of_wait (by assumption) ?_)

theorem execSnapshot_keeps {s0 : State} {p k : Nat} {s : State} (h0 : Keeps s0 s) :
    KeepsOut s0 (execSnapshot p k s) := by
  unfold execSnapshot
  try dsimp only
  repeat' (first | with_reducible assumption | (intro _; try dsimp only) | with_reducible apply run_keeps
                 | with_reducible apply State.adminRun_keeps | with_reducible apply State.setCmd_keeps
                 | with_reducible apply State.setDomain_keeps | with_reducible apply State.treeStart_keeps
                 | with_reducible apply keepsAdm_fail | with_reducible apply keepsAdm_wait | with_reducible apply keepsOut_next
                 | (simp only [keeps_mk]; with_reducible refine Keeps.fold ?_) | with_reducible apply keeps_ite
                 | (split <;> try dsimp only) | with_reducible refine keeps_of_pair (by assumption) ?_
                 | with_reducible refine keeps_of_triple (by assumption) ?_ | with_reducible refine keeps_of_some (by assumption) ?_
                 | with_reducible refine keeps_of_some2 (by assumption) ?_)

theorem execScrubRead_keeps {s0 : State} {word : Nat} {s : State} (h0 : Keeps s0 s) :
    KeepsOut s0 (execScrubRead word s) := by
  unfold execScrubRead
  try dsimp only
  repeat' (first | with_reducible assumption | (intro _; try dsimp only) | with_reducible apply run_keeps
                 | with_reducible apply State.ecc_keeps | with_reducible apply State.corrected_keeps
                 | with_reducible apply State.clearEcc_keeps | with_reducible apply State.foundUe_keeps
                 | with_reducible apply keepsOut_next | (simp only [keeps_mk]; with_reducible refine Keeps.fold ?_)
                 | with_reducible apply keeps_ite | (split <;> try dsimp only) | with_reducible refine keeps_of_pair (by assumption) ?_
                 | with_reducible refine keeps_of_triple (by assumption) ?_ | with_reducible refine keeps_of_some (by assumption) ?_
                 | with_reducible refine keeps_of_some2 (by assumption) ?_)

theorem execCeHourRollover_keeps {s0 : State} {stack : Nat} {s : State} (h0 : Keeps s0 s) :
    KeepsOut s0 (execCeHourRollover stack s) := by
  unfold execCeHourRollover
  try dsimp only
  repeat' (first | with_reducible assumption | (intro _; try dsimp only) | with_reducible apply run_keeps
                 | with_reducible apply keepsOut_next | with_reducible apply keeps_getD
                 | (simp only [keeps_mk]; with_reducible refine Keeps.fold ?_) | with_reducible apply keeps_ite
                 | (split <;> try dsimp only))

theorem execMemCommit_keeps {s0 : State} {fn : Nat} {s : State} (h0 : Keeps s0 s) :
    KeepsOut s0 (execMemCommit fn s) := by
  unfold execMemCommit
  repeat' (first | with_reducible assumption | (intro _; try dsimp only) | with_reducible apply run_keeps
                 | with_reducible apply State.commit_keeps | with_reducible apply State.setFlag_keeps | with_reducible apply keepsOut_next)

theorem execMemInjectArm_keeps {s0 : State} {fn value : Nat} {s : State} (h0 : Keeps s0 s) :
    KeepsOut s0 (execMemInjectArm fn value s) := by
  unfold execMemInjectArm
  try dsimp only
  repeat' (first | with_reducible assumption | (intro _; try dsimp only) | with_reducible apply run_keeps
                 | with_reducible apply State.expert_keeps | with_reducible apply State.setRegF_keeps | with_reducible apply keepsOut_next
                 | with_reducible apply keeps_ite | (split <;> try dsimp only))

end Sys2Proof.Machine
end

