-- ==== Sys2Proof/Laws/KeepEngineRows.lean ====
section
/-!
SUPPORT. What the operations of Machine/EngineRows.lean keep.
-/

namespace Sys2Proof.Machine

set_option linter.unusedTactic false
set_option linter.unreachableTactic false
set_option linter.unusedVariables false

theorem execDefineGroup_keeps {s0 : State} {p k : Nat} {s : State} (h0 : Keeps s0 s) :
    KeepsOut s0 (execDefineGroup p k s) := by
  unfold execDefineGroup
  try dsimp only
  repeat' (first | with_reducible assumption | (intro _; try dsimp only) | with_reducible apply run_keeps
                 | with_reducible apply State.adminRun_keeps | with_reducible apply State.admRead_keeps
                 | with_reducible apply State.reply_keeps | with_reducible apply State.defineGroup_keeps
                 | with_reducible apply keepsAdm_fail | with_reducible apply keepsAdm_reply | with_reducible apply keepsAdm_wait
                 | with_reducible apply keepsOpt_map | with_reducible apply keepsOpt2_mapPair | with_reducible apply keepsOpt2_map
                 | with_reducible apply keepsOut_next | with_reducible apply keeps_getD
                 | (simp only [keeps_mk]; with_reducible refine Keeps.fold ?_) | with_reducible apply keeps_ite
                 | (split <;> try dsimp only) | with_reducible refine keeps_of_pair (by assumption) ?_
                 | with_reducible refine keeps_of_triple (by assumption) ?_ | with_reducible refine keeps_of_some (by assumption) ?_
                 | with_reducible refine keeps_of_some2 (by assumption) ?_ | with_reducible refine keeps_of_reply (by assumption) ?_
                 | with_reducible refine keeps_of_wait (by assumption) ?_)

theorem execReleaseGroup_keeps {s0 : State} {p k : Nat} {s : State} (h0 : Keeps s0 s) :
    KeepsOut s0 (execReleaseGroup p k s) := by
  unfold execReleaseGroup
  try dsimp only
  repeat' (first | with_reducible assumption | (intro _; try dsimp only) | with_reducible apply run_keeps
                 | with_reducible apply State.adminRun_keeps | with_reducible apply State.dropGroup_keeps
                 | with_reducible apply State.reply_keeps | with_reducible apply keepsAdm_ok | with_reducible apply keepsAdm_fail
                 | with_reducible apply keepsAdm_reply | with_reducible apply keepsAdm_wait | with_reducible apply keepsOut_next
                 | (simp only [keeps_mk]; with_reducible refine Keeps.fold ?_) | with_reducible apply keeps_ite
                 | (split <;> try dsimp only) | with_reducible refine keeps_of_pair (by assumption) ?_
                 | with_reducible refine keeps_of_triple (by assumption) ?_ | with_reducible refine keeps_of_some (by assumption) ?_
                 | with_reducible refine keeps_of_some2 (by assumption) ?_ | with_reducible refine keeps_of_reply (by assumption) ?_
                 | with_reducible refine keeps_of_wait (by assumption) ?_)

theorem execSetCollectivePolicy_keeps {s0 : State} {p k : Nat} {s : State} (h0 : Keeps s0 s) :
    KeepsOut s0 (execSetCollectivePolicy p k s) := by
  unfold execSetCollectivePolicy
  try dsimp only
  repeat' (first | with_reducible assumption | (intro _; try dsimp only) | with_reducible apply run_keeps
                 | with_reducible apply State.adminRun_keeps | with_reducible apply State.setGroup_keeps
                 | with_reducible apply keepsAdm_ok | with_reducible apply keepsAdm_fail | with_reducible apply keepsOut_next
                 | (simp only [keeps_mk]; with_reducible refine Keeps.fold ?_) | with_reducible apply keeps_ite
                 | (split <;> try dsimp only) | with_reducible refine keeps_of_pair (by assumption) ?_
                 | with_reducible refine keeps_of_triple (by assumption) ?_ | with_reducible refine keeps_of_some (by assumption) ?_
                 | with_reducible refine keeps_of_some2 (by assumption) ?_)

theorem execColCommit_keeps {s0 : State} {fn : Nat} {s : State} (h0 : Keeps s0 s) :
    KeepsOut s0 (execColCommit fn s) := by
  unfold execColCommit
  repeat' (first | with_reducible assumption | (intro _; try dsimp only) | with_reducible apply run_keeps
                 | with_reducible apply State.commit_keeps | with_reducible apply State.setFlag_keeps | with_reducible apply keepsOut_next)

theorem execTreeUpRetry_keeps {s0 : State} {kind : Nat} {root : Nat} {tree : Nat} {seq : Nat} {s : State} (h0 : Keeps s0 s) :
    KeepsOut s0 (execTreeUpRetry kind root tree seq s) := by
  unfold execTreeUpRetry
  try dsimp only
  repeat' (first | with_reducible assumption | (intro _; try dsimp only) | with_reducible apply State.treeAgain_keeps
                 | with_reducible apply State.sendSetup_keeps | with_reducible apply run_keeps | with_reducible apply keepsOut_next
                 | (simp only [keeps_mk]; with_reducible refine Keeps.fold ?_) | with_reducible apply keeps_ite
                 | (split <;> try dsimp only) | with_reducible refine keeps_of_pair (by assumption) ?_
                 | with_reducible refine keeps_of_triple (by assumption) ?_ | with_reducible refine keeps_of_some (by assumption) ?_
                 | with_reducible refine keeps_of_some2 (by assumption) ?_ | with_reducible refine keeps_of_reply (by assumption) ?_
                 | with_reducible refine keeps_of_wait (by assumption) ?_)

theorem execTreeAckTimeout_keeps {s0 : State} {kind root tree seq m : Nat} {s : State} (h0 : Keeps s0 s) :
    KeepsOut s0 (execTreeAckTimeout kind root tree seq m s) := by
  unfold execTreeAckTimeout
  repeat' (first | with_reducible assumption | (intro _; try dsimp only) | with_reducible apply run_keeps
                 | with_reducible apply State.ackTimeout_keeps | with_reducible apply keepsOut_next)

theorem execRevokeDrainDone_keeps {s0 : State} {kind root tree : Nat} {s : State} (h0 : Keeps s0 s) :
    KeepsOut s0 (execRevokeDrainDone kind root tree s) := by
  unfold execRevokeDrainDone
  repeat' (first | with_reducible assumption | (intro _; try dsimp only) | with_reducible apply run_keeps
                 | with_reducible apply State.drainDone_keeps | with_reducible apply keepsOut_next)

theorem execSnapshotDrainDone_keeps {s0 : State} {partition : Nat} {s : State} (h0 : Keeps s0 s) :
    KeepsOut s0 (execSnapshotDrainDone partition s) := by
  unfold execSnapshotDrainDone
  repeat' (first | with_reducible assumption | (intro _; try dsimp only) | with_reducible apply run_keeps
                 | with_reducible apply State.snapDrainDone_keeps | with_reducible apply keepsOut_next)

theorem execLoadTransitProgram_keeps {s0 : State} {p k : Nat} {s : State} (h0 : Keeps s0 s) :
    KeepsOut s0 (execLoadTransitProgram p k s) := by
  unfold execLoadTransitProgram
  try dsimp only
  repeat' (first | with_reducible assumption | (intro _; try dsimp only) | with_reducible apply run_keeps
                 | with_reducible apply State.adminRun_keeps | with_reducible apply State.admRead_keeps
                 | with_reducible apply State.reply_keeps | with_reducible apply State.drawn_keeps | with_reducible apply keepsAdm_ok
                 | with_reducible apply keepsAdm_fail | with_reducible apply keepsAdm_field | with_reducible apply keepsAdm_reply
                 | with_reducible apply keepsAdm_wait | with_reducible apply keepsOut_next
                 | (simp only [keeps_mk]; with_reducible refine Keeps.fold ?_) | with_reducible apply keeps_ite
                 | (split <;> try dsimp only) | with_reducible refine keeps_of_pair (by assumption) ?_
                 | with_reducible refine keeps_of_triple (by assumption) ?_ | with_reducible refine keeps_of_some (by assumption) ?_
                 | with_reducible refine keeps_of_some2 (by assumption) ?_ | with_reducible refine keeps_of_reply (by assumption) ?_
                 | with_reducible refine keeps_of_wait (by assumption) ?_)

theorem execUnloadTransitProgram_keeps {s0 : State} {p k : Nat} {s : State} (h0 : Keeps s0 s) :
    KeepsOut s0 (execUnloadTransitProgram p k s) := by
  unfold execUnloadTransitProgram
  try dsimp only
  repeat' (first | with_reducible assumption | (intro _; try dsimp only) | with_reducible apply run_keeps
                 | with_reducible apply State.adminRun_keeps | with_reducible apply State.heat_keeps | with_reducible apply keepsAdm_ok
                 | with_reducible apply keepsAdm_fail | with_reducible apply keepsOpt_map | with_reducible apply keepsOpt2_mapPair
                 | with_reducible apply keepsOpt2_map | with_reducible apply keepsOut_next | with_reducible apply keeps_getD
                 | (simp only [keeps_mk]; with_reducible refine Keeps.fold ?_) | with_reducible apply keeps_ite
                 | (split <;> try dsimp only) | with_reducible refine keeps_of_pair (by assumption) ?_
                 | with_reducible refine keeps_of_triple (by assumption) ?_ | with_reducible refine keeps_of_some (by assumption) ?_
                 | with_reducible refine keeps_of_some2 (by assumption) ?_)

theorem execTileAllocation_keeps {s0 : State} {die : Nat} {s : State} (h0 : Keeps s0 s) :
    KeepsOut s0 (execTileAllocation die s) := by
  unfold execTileAllocation
  try dsimp only
  repeat' (first | with_reducible assumption | (intro _; try dsimp only) | with_reducible apply run_keeps
                 | with_reducible apply State.allocateTiles_keeps | with_reducible apply State.wakeDom_keeps
                 | with_reducible apply keepsOut_next | with_reducible apply keeps_foldl | with_reducible apply keeps_foldl_pair
                 | with_reducible apply keeps_foldl_triple | (simp only [keeps_mk]; with_reducible refine Keeps.fold ?_)
                 | with_reducible apply keeps_ite | (split <;> try dsimp only) | with_reducible refine keeps_of_pair (by assumption) ?_
                 | with_reducible refine keeps_of_triple (by assumption) ?_ | with_reducible refine keeps_of_some (by assumption) ?_
                 | with_reducible refine keeps_of_some2 (by assumption) ?_)

theorem State.sramFound_keeps {s0 : State} {s : State} {die entry sram tile offset : Nat} (h0 : Keeps s0 s) :
    Keeps s0 (State.sramFound s die entry sram tile offset) := by
  unfold State.sramFound
  try dsimp only
  repeat' (first | with_reducible assumption | with_reducible apply State.count_keeps | with_reducible apply State.ecc_keeps
                 | with_reducible apply State.elog_keeps | with_reducible apply State.failEntry_keeps | with_reducible apply keeps_ite
                 | (split <;> try dsimp only))

theorem execOperatorChunkDone_keeps {s0 : State} {die entry op sram tile offset : Nat} {s : State} (h0 : Keeps s0 s) :
    KeepsOut s0 (execOperatorChunkDone die entry op sram tile offset s) := by
  unfold execOperatorChunkDone
  try dsimp only
  repeat' (first | with_reducible assumption | (intro _; try dsimp only) | with_reducible apply run_keeps
                 | with_reducible apply State.sramFound_keeps | with_reducible apply State.chunkDone_keeps
                 | with_reducible apply keepsOut_next | (simp only [keeps_mk]; with_reducible refine Keeps.fold ?_)
                 | with_reducible apply keeps_ite | (split <;> try dsimp only) | with_reducible refine keeps_of_pair (by assumption) ?_
                 | with_reducible refine keeps_of_triple (by assumption) ?_ | with_reducible refine keeps_of_some (by assumption) ?_
                 | with_reducible refine keeps_of_some2 (by assumption) ?_)

theorem execTransitWaitTimeout_keeps {s0 : State} {die entry : Nat} {s : State} (h0 : Keeps s0 s) :
    KeepsOut s0 (execTransitWaitTimeout die entry s) := by
  unfold execTransitWaitTimeout
  try dsimp only
  repeat' (first | with_reducible assumption | (intro _; try dsimp only) | with_reducible apply run_keeps
                 | with_reducible apply State.dropEntryWaits_keeps | with_reducible apply State.setEntry_keeps
                 | with_reducible apply State.endEntry_keeps | with_reducible apply keepsOut_next
                 | (simp only [keeps_mk]; with_reducible refine Keeps.fold ?_) | with_reducible apply keeps_ite
                 | (split <;> try dsimp only) | with_reducible refine keeps_of_pair (by assumption) ?_
                 | with_reducible refine keeps_of_triple (by assumption) ?_ | with_reducible refine keeps_of_some (by assumption) ?_
                 | with_reducible refine keeps_of_some2 (by assumption) ?_)

theorem execTransitPriorityPromotion_keeps {s0 : State} {die entry : Nat} {s : State} (h0 : Keeps s0 s) :
    KeepsOut s0 (execTransitPriorityPromotion die entry s) := by
  unfold execTransitPriorityPromotion
  try dsimp only
  repeat' (first | with_reducible assumption | (intro _; try dsimp only) | with_reducible apply run_keeps
                 | with_reducible apply State.setEntry_keeps | with_reducible apply keepsOut_next
                 | (simp only [keeps_mk]; with_reducible refine Keeps.fold ?_) | with_reducible apply keeps_ite
                 | (split <;> try dsimp only) | with_reducible refine keeps_of_pair (by assumption) ?_
                 | with_reducible refine keeps_of_triple (by assumption) ?_ | with_reducible refine keeps_of_some (by assumption) ?_
                 | with_reducible refine keeps_of_some2 (by assumption) ?_)

theorem execTrnCancelWrite_keeps {s0 : State} {fn die value : Nat} {s : State} (h0 : Keeps s0 s) :
    KeepsOut s0 (execTrnCancelWrite fn die value s) := by
  unfold execTrnCancelWrite
  try dsimp only
  repeat' (first | with_reducible assumption | (intro _; try dsimp only) | with_reducible apply run_keeps
                 | with_reducible apply State.expert_keeps | with_reducible apply State.setFlag_keeps
                 | with_reducible apply State.cancelEntry_keeps | with_reducible apply keepsOut_next
                 | (simp only [keeps_mk]; with_reducible refine Keeps.fold ?_) | with_reducible apply keeps_ite
                 | (split <;> try dsimp only) | with_reducible refine keeps_of_pair (by assumption) ?_
                 | with_reducible refine keeps_of_triple (by assumption) ?_ | with_reducible refine keeps_of_some (by assumption) ?_
                 | with_reducible refine keeps_of_some2 (by assumption) ?_)

theorem execTrnCommit_keeps {s0 : State} {fn die : Nat} {s : State} (h0 : Keeps s0 s) :
    KeepsOut s0 (execTrnCommit fn die s) := by
  unfold execTrnCommit
  repeat' (first | with_reducible assumption | (intro _; try dsimp only) | with_reducible apply run_keeps
                 | with_reducible apply State.commit_keeps | with_reducible apply State.setFlag_keeps | with_reducible apply keepsOut_next)

theorem execCreateWickQueue_keeps {s0 : State} {p k : Nat} {s : State} (h0 : Keeps s0 s) :
    KeepsOut s0 (execCreateWickQueue p k s) := by
  unfold execCreateWickQueue
  try dsimp only
  repeat' (first | with_reducible assumption | (intro _; try dsimp only) | with_reducible apply run_keeps
                 | with_reducible apply State.adminRun_keeps | with_reducible apply State.setWick_keeps | with_reducible apply keepsAdm_ok
                 | with_reducible apply keepsAdm_fail | with_reducible apply keepsAdm_field | with_reducible apply keepsOut_next
                 | (simp only [keeps_mk]; with_reducible refine Keeps.fold ?_) | with_reducible apply keeps_ite
                 | (split <;> try dsimp only) | with_reducible refine keeps_of_pair (by assumption) ?_
                 | with_reducible refine keeps_of_triple (by assumption) ?_ | with_reducible refine keeps_of_some (by assumption) ?_
                 | with_reducible refine keeps_of_some2 (by assumption) ?_)

theorem execDestroyWickQueue_keeps {s0 : State} {p k : Nat} {s : State} (h0 : Keeps s0 s) :
    KeepsOut s0 (execDestroyWickQueue p k s) := by
  unfold execDestroyWickQueue
  try dsimp only
  repeat' (first | with_reducible assumption | (intro _; try dsimp only) | with_reducible apply run_keeps
                 | with_reducible apply State.adminRun_keeps | with_reducible apply State.removeWick_keeps
                 | with_reducible apply keepsAdm_ok | with_reducible apply keepsAdm_fail | with_reducible apply keepsOpt_map
                 | with_reducible apply keepsOpt2_mapPair | with_reducible apply keepsOpt2_map | with_reducible apply keepsOut_next
                 | with_reducible apply keeps_getD | (simp only [keeps_mk]; with_reducible refine Keeps.fold ?_)
                 | with_reducible apply keeps_ite | (split <;> try dsimp only) | with_reducible refine keeps_of_pair (by assumption) ?_
                 | with_reducible refine keeps_of_triple (by assumption) ?_ | with_reducible refine keeps_of_some (by assumption) ?_
                 | with_reducible refine keeps_of_some2 (by assumption) ?_)

theorem execDefineBarrier_keeps {s0 : State} {p k : Nat} {s : State} (h0 : Keeps s0 s) :
    KeepsOut s0 (execDefineBarrier p k s) := by
  unfold execDefineBarrier
  try dsimp only
  repeat' (first | with_reducible assumption | (intro _; try dsimp only) | with_reducible apply run_keeps
                 | with_reducible apply State.adminRun_keeps | with_reducible apply State.setBar_keeps | with_reducible apply keepsAdm_ok
                 | with_reducible apply keepsAdm_fail | with_reducible apply keepsAdm_field | with_reducible apply keepsOut_next
                 | (simp only [keeps_mk]; with_reducible refine Keeps.fold ?_) | with_reducible apply keeps_ite
                 | (split <;> try dsimp only) | with_reducible refine keeps_of_pair (by assumption) ?_
                 | with_reducible refine keeps_of_triple (by assumption) ?_ | with_reducible refine keeps_of_some (by assumption) ?_
                 | with_reducible refine keeps_of_some2 (by assumption) ?_)

theorem execSynBarParticipantsWrite_keeps {s0 : State} {fn : Nat} {g : Nat} {value : Nat} {s : State} (h0 : Keeps s0 s) :
    KeepsOut s0 (execSynBarParticipantsWrite fn g value s) := by
  unfold execSynBarParticipantsWrite
  try dsimp only
  repeat' (first | with_reducible assumption | (intro _; try dsimp only) | with_reducible apply State.setReg_keeps
                 | with_reducible apply State.setFlag_keeps | with_reducible apply State.setBar_keeps
                 | with_reducible apply State.accessLog_keeps | with_reducible apply State.expert_keeps
                 | with_reducible apply mmio_keeps | with_reducible exact keepsOpt_none | with_reducible exact keepsOpt2_none
                 | with_reducible apply keepsOpt_some | with_reducible apply keepsOpt2_some | with_reducible apply keepsOut_next
                 | with_reducible apply keepsOpt_map | with_reducible apply keepsOpt2_mapPair | with_reducible apply keepsOpt2_map
                 | (simp only [keeps_mk]; with_reducible refine Keeps.fold ?_) | with_reducible apply keeps_ite
                 | (split <;> try dsimp only) | with_reducible refine keeps_of_pair (by assumption) ?_
                 | with_reducible refine keeps_of_triple (by assumption) ?_ | with_reducible refine keeps_of_some (by assumption) ?_
                 | with_reducible refine keeps_of_some2 (by assumption) ?_)

theorem execMailboxSend_keeps {s0 : State} {fn dir value : Nat} {s : State} (h0 : Keeps s0 s) :
    KeepsOut s0 (execMailboxSend fn dir value s) := by
  unfold execMailboxSend
  try dsimp only
  repeat' (first | with_reducible assumption | (intro _; try dsimp only) | with_reducible apply mmio_keeps
                 | with_reducible apply State.accessLog_keeps | with_reducible apply State.countOf_keeps
                 | with_reducible apply State.setRegOf_keeps | with_reducible apply State.mbxSend_keeps
                 | with_reducible apply keepsOut_next | (simp only [keeps_mk]; with_reducible refine Keeps.fold ?_)
                 | with_reducible apply keeps_ite | (split <;> try dsimp only) | with_reducible refine keeps_of_pair (by assumption) ?_
                 | with_reducible refine keeps_of_triple (by assumption) ?_ | with_reducible refine keeps_of_some (by assumption) ?_
                 | with_reducible refine keeps_of_some2 (by assumption) ?_)

theorem execMailboxReceive_keeps {s0 : State} {fn dir : Nat} {s : State} (h0 : Keeps s0 s) :
    KeepsOut s0 (execMailboxReceive fn dir s) := by
  unfold execMailboxReceive
  try dsimp only
  repeat' (first | with_reducible assumption | (intro _; try dsimp only) | with_reducible apply mmio_keeps
                 | with_reducible apply State.emit_keeps | with_reducible apply State.mbxRead_keeps | with_reducible apply keepsOut_next
                 | (simp only [keeps_mk]; with_reducible refine Keeps.fold ?_) | with_reducible apply keeps_ite
                 | (split <;> try dsimp only) | with_reducible refine keeps_of_pair (by assumption) ?_
                 | with_reducible refine keeps_of_triple (by assumption) ?_ | with_reducible refine keeps_of_some (by assumption) ?_
                 | with_reducible refine keeps_of_some2 (by assumption) ?_)

end Sys2Proof.Machine
end

