-- ==== Sys2Proof/Laws/KeepHifRows.lean ====
section
/-!
SUPPORT. What the operations of Machine/HifRows.lean keep.
-/

namespace Sys2Proof.Machine

set_option linter.unusedTactic false
set_option linter.unreachableTactic false
set_option linter.unusedVariables false

theorem execRegisterWrite_keeps {s0 : State} {fn offset lanes value : Nat} {s : State} (h0 : Keeps s0 s) :
    KeepsOut s0 (execRegisterWrite fn offset lanes value s) := by
  unfold execRegisterWrite
  repeat' (first | with_reducible assumption | (intro _; try dsimp only) | with_reducible apply run_keeps
                 | with_reducible apply State.bar0Write_keeps | with_reducible apply keepsOut_next)

theorem execWindowAccess_keeps {s0 : State} {fn : Nat} {write : Bool} {offset len lanes : Nat} {data : Bytes} {s : State} (h0 : Keeps s0 s) :
    KeepsOut s0 (execWindowAccess fn write offset len lanes data s) := by
  unfold execWindowAccess
  try dsimp only
  repeat' (first | with_reducible assumption | (intro _; try dsimp only) | with_reducible apply run_keeps
                 | with_reducible apply State.windowWrite_keeps | with_reducible apply State.windowRead_keeps
                 | with_reducible apply keepsOpt_map | with_reducible apply keepsOpt2_mapPair | with_reducible apply keepsOpt2_map
                 | with_reducible apply keepsOut_next | with_reducible apply keeps_ite | (split <;> try dsimp only))

theorem execHifWinBaseWrite_keeps {s0 : State} {fn value : Nat} {s : State} (h0 : Keeps s0 s) :
    KeepsOut s0 (execHifWinBaseWrite fn value s) := by
  unfold execHifWinBaseWrite
  try dsimp only
  repeat' (first | with_reducible assumption | (intro _; try dsimp only) | with_reducible apply mmio_keeps
                 | with_reducible apply State.accessLog_keeps | with_reducible apply State.setRegOf_keeps
                 | with_reducible apply keepsOut_next | (simp only [keeps_mk]; with_reducible refine Keeps.fold ?_)
                 | with_reducible apply keeps_ite | (split <;> try dsimp only) | with_reducible refine keeps_of_pair (by assumption) ?_
                 | with_reducible refine keeps_of_triple (by assumption) ?_ | with_reducible refine keeps_of_some (by assumption) ?_
                 | with_reducible refine keeps_of_some2 (by assumption) ?_)

theorem execInboundRequestRefused_keeps {s0 : State} {fn rid bar offset bytes : Nat} {write : Bool} {s : State} (h0 : Keeps s0 s) :
    KeepsOut s0 (execInboundRequestRefused fn rid bar offset bytes write s) := by
  unfold execInboundRequestRefused
  try dsimp only
  repeat' (first | with_reducible assumption | (intro _; try dsimp only) | with_reducible apply run_keeps
                 | with_reducible apply State.setFn_keeps | with_reducible apply State.emit_keeps
                 | with_reducible apply State.accessLog_keeps | with_reducible apply keepsOut_next
                 | (simp only [keeps_mk]; with_reducible refine Keeps.fold ?_) | with_reducible apply keeps_ite
                 | (split <;> try dsimp only))

theorem State.configRetry_keeps {s0 : State} {s : State} {fn : Nat} (h0 : Keeps s0 s) :
    Keeps s0 (State.configRetry s fn) := by
  unfold State.configRetry
  try dsimp only
  repeat' (first | with_reducible assumption | (intro _; try dsimp only) | with_reducible apply State.emit_keeps
                 | with_reducible exact keepsOpt_none | with_reducible exact keepsOpt2_none | with_reducible apply keepsOpt_some
                 | with_reducible apply keepsOpt2_some | (simp only [keeps_mk]; with_reducible refine Keeps.fold ?_)
                 | with_reducible apply keeps_ite | (split <;> try dsimp only)
                 | with_reducible refine keeps_of_pair (by assumption) ?_ | with_reducible refine keeps_of_some (by assumption) ?_
                 | with_reducible refine keeps_of_some2 (by assumption) ?_)

theorem execFirstConfigWrite_keeps {s0 : State} {port : Nat} {rid : Nat} {s : State} (h0 : Keeps s0 s) :
    KeepsOut s0 (execFirstConfigWrite port rid s) := by
  unfold execFirstConfigWrite
  try dsimp only
  repeat' (first | with_reducible assumption | (intro _; try dsimp only) | with_reducible apply State.setPort_keeps
                 | with_reducible apply run_keeps | with_reducible apply State.configRetry_keeps
                 | with_reducible apply keepsOut_next | (simp only [keeps_mk]; with_reducible refine Keeps.fold ?_)
                 | with_reducible apply keeps_ite | (split <;> try dsimp only)
                 | with_reducible refine keeps_of_pair (by assumption) ?_ | with_reducible refine keeps_of_some (by assumption) ?_
                 | with_reducible refine keeps_of_some2 (by assumption) ?_)

theorem execBusMasterEnableClear_keeps {s0 : State} {fn : Nat} {s : State} (h0 : Keeps s0 s) :
    KeepsOut s0 (execBusMasterEnableClear fn s) := by
  unfold execBusMasterEnableClear
  try dsimp only
  repeat' (first | with_reducible assumption | (intro _; try dsimp only) | with_reducible apply State.setFn_keeps
                 | with_reducible apply run_keeps | with_reducible apply State.holdFn_keeps
                 | with_reducible apply State.configRetry_keeps | with_reducible apply keepsOut_next
                 | (simp only [keeps_mk]; with_reducible refine Keeps.fold ?_) | with_reducible apply keeps_ite
                 | (split <;> try dsimp only) | with_reducible refine keeps_of_pair (by assumption) ?_
                 | with_reducible refine keeps_of_some (by assumption) ?_ | with_reducible refine keeps_of_some2 (by assumption) ?_)

theorem execBusMasterEnableSet_keeps {s0 : State} {fn : Nat} {s : State} (h0 : Keeps s0 s) :
    KeepsOut s0 (execBusMasterEnableSet fn s) := by
  unfold execBusMasterEnableSet
  try dsimp only
  repeat' (first | with_reducible assumption | (intro _; try dsimp only) | with_reducible apply State.setFn_keeps
                 | with_reducible apply run_keeps | with_reducible apply State.resumeFn_keeps
                 | with_reducible apply State.configRetry_keeps | with_reducible apply keepsOut_next
                 | (simp only [keeps_mk]; with_reducible refine Keeps.fold ?_) | with_reducible apply keeps_ite
                 | (split <;> try dsimp only) | with_reducible refine keeps_of_pair (by assumption) ?_
                 | with_reducible refine keeps_of_some (by assumption) ?_ | with_reducible refine keeps_of_some2 (by assumption) ?_)

theorem execD3hotEntry_keeps {s0 : State} {fn : Nat} {s : State} (h0 : Keeps s0 s) :
    KeepsOut s0 (execD3hotEntry fn s) := by
  unfold execD3hotEntry
  try dsimp only
  repeat' (first | with_reducible assumption | (intro _; try dsimp only) | with_reducible apply State.setFn_keeps
                 | with_reducible apply run_keeps | with_reducible apply State.holdFn_keeps
                 | with_reducible apply State.configRetry_keeps | with_reducible apply keepsOut_next
                 | (simp only [keeps_mk]; with_reducible refine Keeps.fold ?_) | with_reducible apply keeps_ite
                 | (split <;> try dsimp only) | with_reducible refine keeps_of_pair (by assumption) ?_
                 | with_reducible refine keeps_of_some (by assumption) ?_ | with_reducible refine keeps_of_some2 (by assumption) ?_)

theorem execD3hotExit_keeps {s0 : State} {fn : Nat} {s : State} (h0 : Keeps s0 s) :
    KeepsOut s0 (execD3hotExit fn s) := by
  unfold execD3hotExit
  try dsimp only
  repeat' (first | with_reducible assumption | (intro _; try dsimp only) | with_reducible apply State.setFn_keeps
                 | with_reducible apply run_keeps | with_reducible apply State.resumeFn_keeps
                 | with_reducible apply State.configRetry_keeps | with_reducible apply keepsOut_next
                 | (simp only [keeps_mk]; with_reducible refine Keeps.fold ?_) | with_reducible apply keeps_ite
                 | (split <;> try dsimp only) | with_reducible refine keeps_of_pair (by assumption) ?_
                 | with_reducible refine keeps_of_some (by assumption) ?_ | with_reducible refine keeps_of_some2 (by assumption) ?_)

theorem execMsixUnmask_keeps {s0 : State} {fn : Nat} {vector : Nat} {enable : Bool} {mask : Bool} {s : State} (h0 : Keeps s0 s) :
    KeepsOut s0 (execMsixUnmask fn vector enable mask s) := by
  unfold execMsixUnmask
  try dsimp only
  repeat' (first | with_reducible assumption | (intro _; try dsimp only) | with_reducible apply State.setFn_keeps
                 | with_reducible apply State.msixFlush_keeps | with_reducible apply run_keeps
                 | with_reducible apply State.configRetry_keeps | with_reducible exact keepsOpt_none
                 | with_reducible exact keepsOpt2_none | with_reducible apply keepsOpt_some | with_reducible apply keepsOpt2_some
                 | with_reducible apply keepsOut_next | (simp only [keeps_mk]; with_reducible refine Keeps.fold ?_)
                 | with_reducible apply keeps_ite | (split <;> try dsimp only)
                 | with_reducible refine keeps_of_pair (by assumption) ?_ | with_reducible refine keeps_of_some (by assumption) ?_
                 | with_reducible refine keeps_of_some2 (by assumption) ?_)

theorem execVfEnable_keeps {s0 : State} {port : Nat} {count : Nat} {s : State} (h0 : Keeps s0 s) :
    KeepsOut s0 (execVfEnable port count s) := by
  unfold execVfEnable
  try dsimp only
  repeat' (first | with_reducible assumption | (intro _; try dsimp only) | with_reducible apply State.count_keeps
                 | with_reducible apply State.setPort_keeps | with_reducible apply run_keeps
                 | with_reducible apply State.configRetry_keeps | with_reducible apply keepsOut_next
                 | (simp only [keeps_mk]; with_reducible refine Keeps.fold ?_) | with_reducible apply keeps_ite
                 | (split <;> try dsimp only) | with_reducible refine keeps_of_pair (by assumption) ?_
                 | with_reducible refine keeps_of_some (by assumption) ?_ | with_reducible refine keeps_of_some2 (by assumption) ?_)

theorem execVfDisable_keeps {s0 : State} {port : Nat} {s : State} (h0 : Keeps s0 s) :
    KeepsOut s0 (execVfDisable port s) := by
  unfold execVfDisable
  try dsimp only
  repeat' (first | with_reducible assumption | (intro _; try dsimp only) | with_reducible apply run_keeps
                 | with_reducible apply State.vfsOff_keeps | with_reducible apply State.configRetry_keeps
                 | with_reducible apply keepsOut_next | (simp only [keeps_mk]; with_reducible refine Keeps.fold ?_)
                 | with_reducible apply keeps_ite | (split <;> try dsimp only)
                 | with_reducible refine keeps_of_pair (by assumption) ?_ | with_reducible refine keeps_of_some (by assumption) ?_
                 | with_reducible refine keeps_of_some2 (by assumption) ?_)

theorem execFunctionLevelResetVf_keeps {s0 : State} {fn : Nat} {s : State} (h0 : Keeps s0 s) :
    KeepsOut s0 (execFunctionLevelResetVf fn s) := by
  unfold execFunctionLevelResetVf
  try dsimp only
  repeat' (first | with_reducible assumption | (intro _; try dsimp only) | with_reducible apply State.resetInst_keeps
                 | with_reducible apply run_keeps | with_reducible apply State.clearFn_keeps
                 | with_reducible apply State.configRetry_keeps | with_reducible apply keepsOut_next
                 | (simp only [keeps_mk]; with_reducible refine Keeps.fold ?_) | with_reducible apply keeps_ite
                 | (split <;> try dsimp only) | with_reducible refine keeps_of_pair (by assumption) ?_
                 | with_reducible refine keeps_of_some (by assumption) ?_ | with_reducible refine keeps_of_some2 (by assumption) ?_)

theorem execFunctionLevelResetPf_keeps {s0 : State} {port : Nat} {s : State} (h0 : Keeps s0 s) :
    KeepsOut s0 (execFunctionLevelResetPf port s) := by
  unfold execFunctionLevelResetPf
  try dsimp only
  repeat' (first | with_reducible assumption | (intro _; try dsimp only) | with_reducible apply run_keeps
                 | with_reducible apply State.pfReset_keeps | with_reducible apply State.configRetry_keeps
                 | with_reducible apply keepsOut_next | (simp only [keeps_mk]; with_reducible refine Keeps.fold ?_)
                 | with_reducible apply keeps_ite | (split <;> try dsimp only)
                 | with_reducible refine keeps_of_pair (by assumption) ?_ | with_reducible refine keeps_of_some (by assumption) ?_
                 | with_reducible refine keeps_of_some2 (by assumption) ?_)

theorem execPcieLinkUp_keeps {s0 : State} {port width rate : Nat} {s : State} (h0 : Keeps s0 s) :
    KeepsOut s0 (execPcieLinkUp port width rate s) := by
  unfold execPcieLinkUp
  try dsimp only
  repeat' (first | with_reducible assumption | (intro _; try dsimp only) | with_reducible apply run_keeps
                 | with_reducible apply State.setPort_keeps | with_reducible apply keepsOut_next
                 | (simp only [keeps_mk]; with_reducible refine Keeps.fold ?_) | with_reducible apply keeps_ite
                 | (split <;> try dsimp only))

theorem execHifCommit_keeps {s0 : State} {fn : Nat} {s : State} (h0 : Keeps s0 s) :
    KeepsOut s0 (execHifCommit fn s) := by
  unfold execHifCommit
  repeat' (first | with_reducible assumption | (intro _; try dsimp only) | with_reducible apply run_keeps
                 | with_reducible apply State.commit_keeps | with_reducible apply State.setFlagOf_keeps
                 | with_reducible apply keepsOut_next)

end Sys2Proof.Machine
end

