-- ==== Sys2Proof/Laws/KeepPlacementRows.lean ====
section
/-!
SUPPORT. What the operations of Machine/PlacementRows.lean keep.
-/

namespace Sys2Proof.Machine

set_option linter.unusedTactic false
set_option linter.unreachableTactic false
set_option linter.unusedVariables false

theorem execOpenSkylight_keeps {s0 : State} {p k : Nat} {s : State} (h0 : Keeps s0 s) :
    KeepsOut s0 (execOpenSkylight p k s) := by
  unfold execOpenSkylight
  try dsimp only
  repeat' (first | with_reducible assumption | (intro _; try dsimp only) | with_reducible apply run_keeps
                 | with_reducible apply State.adminRun_keeps | with_reducible apply State.drawn_keeps
                 | with_reducible apply State.setSky_keeps | with_reducible apply keepsAdm_ok | with_reducible apply keepsAdm_fail
                 | with_reducible apply keepsAdm_field | with_reducible apply keepsAdm_wait | with_reducible apply keepsOut_next
                 | (simp only [keeps_mk]; with_reducible refine Keeps.fold ?_) | with_reducible apply keeps_ite
                 | (split <;> try dsimp only) | with_reducible refine keeps_of_pair (by assumption) ?_
                 | with_reducible refine keeps_of_triple (by assumption) ?_ | with_reducible refine keeps_of_some (by assumption) ?_
                 | with_reducible refine keeps_of_some2 (by assumption) ?_)

theorem execRevokeSkylight_keeps {s0 : State} {p k : Nat} {s : State} (h0 : Keeps s0 s) :
    KeepsOut s0 (execRevokeSkylight p k s) := by
  unfold execRevokeSkylight
  try dsimp only
  repeat' (first | with_reducible assumption | (intro _; try dsimp only) | with_reducible apply run_keeps
                 | with_reducible apply State.adminRun_keeps | with_reducible apply State.setSky_keeps
                 | with_reducible apply State.beginRevoke_keeps | with_reducible apply keepsAdm_fail | with_reducible apply keepsAdm_wait
                 | with_reducible apply keepsOut_next | (simp only [keeps_mk]; with_reducible refine Keeps.fold ?_)
                 | with_reducible apply keeps_ite | (split <;> try dsimp only) | with_reducible refine keeps_of_pair (by assumption) ?_
                 | with_reducible refine keeps_of_triple (by assumption) ?_ | with_reducible refine keeps_of_some (by assumption) ?_
                 | with_reducible refine keeps_of_some2 (by assumption) ?_)

theorem execQuerySkylight_keeps {s0 : State} {p k : Nat} {s : State} (h0 : Keeps s0 s) :
    KeepsOut s0 (execQuerySkylight p k s) := by
  unfold execQuerySkylight
  try dsimp only
  repeat' (first | with_reducible assumption | (intro _; try dsimp only) | with_reducible apply run_keeps
                 | with_reducible apply State.adminRun_keeps | with_reducible apply keepsAdm_ok | with_reducible apply keepsAdm_fail
                 | with_reducible apply keepsOut_next | (simp only [keeps_mk]; with_reducible refine Keeps.fold ?_)
                 | with_reducible apply keeps_ite | (split <;> try dsimp only) | with_reducible refine keeps_of_pair (by assumption) ?_
                 | with_reducible refine keeps_of_triple (by assumption) ?_ | with_reducible refine keeps_of_some (by assumption) ?_
                 | with_reducible refine keeps_of_some2 (by assumption) ?_)

theorem State.allocPage_keeps {s0 : State} {s : State} {i partition : Nat} {readOnly : Bool} (h0 : Keeps s0 s) :
    KeepsOpt s0 (State.allocPage s i partition readOnly) := by
  unfold State.allocPage
  try dsimp only
  repeat' (first | with_reducible assumption | with_reducible apply State.takeFrame_keeps | with_reducible apply State.setPage_keeps
                 | with_reducible apply State.setHeld_keeps | with_reducible exact keepsOpt_none | with_reducible exact keepsOpt2_none
                 | with_reducible apply keepsOpt_some | with_reducible apply keepsOpt2_some
                 | (simp only [keeps_mk]; with_reducible refine Keeps.fold ?_) | with_reducible apply keeps_ite
                 | (split <;> try dsimp only) | with_reducible refine keeps_of_pair (by assumption) ?_
                 | with_reducible refine keeps_of_triple (by assumption) ?_ | with_reducible refine keeps_of_some (by assumption) ?_
                 | with_reducible refine keeps_of_some2 (by assumption) ?_)

theorem execAllocateHallPages_keeps {s0 : State} {p k : Nat} {s : State} (h0 : Keeps s0 s) :
    KeepsOut s0 (execAllocateHallPages p k s) := by
  unfold execAllocateHallPages
  try dsimp only
  repeat' (first | with_reducible assumption | (intro _; try dsimp only) | with_reducible apply run_keeps
                 | with_reducible apply State.adminRun_keeps | with_reducible apply State.count_keeps
                 | with_reducible apply State.allocPage_keeps | with_reducible apply keepsAdm_ok | with_reducible apply keepsAdm_fail
                 | with_reducible apply keepsAdm_field | with_reducible exact keepsOpt_none | with_reducible exact keepsOpt2_none
                 | with_reducible apply keepsOpt_some | with_reducible apply keepsOpt2_some | with_reducible apply keepsOut_next
                 | with_reducible apply keeps_foldl | with_reducible apply keeps_foldl_pair | with_reducible apply keeps_foldl_triple
                 | with_reducible apply keepsOpt_foldl | with_reducible apply keepsOpt_bind
                 | (simp only [keeps_mk]; with_reducible refine Keeps.fold ?_) | with_reducible apply keeps_ite
                 | (split <;> try dsimp only) | with_reducible refine keeps_of_pair (by assumption) ?_
                 | with_reducible refine keeps_of_triple (by assumption) ?_ | with_reducible refine keeps_of_some (by assumption) ?_
                 | with_reducible refine keeps_of_some2 (by assumption) ?_)

theorem execFreeHallPages_keeps {s0 : State} {p k : Nat} {s : State} (h0 : Keeps s0 s) :
    KeepsOut s0 (execFreeHallPages p k s) := by
  unfold execFreeHallPages
  try dsimp only
  repeat' (first | with_reducible assumption | (intro _; try dsimp only) | with_reducible apply run_keeps
                 | with_reducible apply State.adminRun_keeps | with_reducible apply State.beginFree_keeps
                 | with_reducible apply keepsAdm_fail | with_reducible apply keepsAdm_wait | with_reducible apply keepsOut_next
                 | (simp only [keeps_mk]; with_reducible refine Keeps.fold ?_) | with_reducible apply keeps_ite
                 | (split <;> try dsimp only))

theorem State.pinPage_keeps {s0 : State} {s : State} {holder i : Nat} (h0 : Keeps s0 s) :
    Keeps s0 (State.pinPage s holder i) := by
  unfold State.pinPage
  try dsimp only
  repeat' (first | with_reducible assumption | (intro _; try dsimp only) | with_reducible apply State.updPage_keeps
                 | with_reducible apply State.change_keeps | with_reducible apply State.pinMove_keeps
                 | (simp only [keeps_mk]; with_reducible refine Keeps.fold ?_) | with_reducible apply keeps_ite
                 | (split <;> try dsimp only) | with_reducible refine keeps_of_pair (by assumption) ?_
                 | with_reducible refine keeps_of_triple (by assumption) ?_ | with_reducible refine keeps_of_some (by assumption) ?_
                 | with_reducible refine keeps_of_some2 (by assumption) ?_)

theorem execPinPages_keeps {s0 : State} {p k : Nat} {s : State} (h0 : Keeps s0 s) :
    KeepsOut s0 (execPinPages p k s) := by
  unfold execPinPages
  try dsimp only
  repeat' (first | with_reducible assumption | (intro _; try dsimp only) | with_reducible apply run_keeps
                 | with_reducible apply State.adminRun_keeps | with_reducible apply State.pinPage_keeps | with_reducible apply keepsAdm_ok
                 | with_reducible apply keepsAdm_fail | with_reducible apply keepsAdm_field | with_reducible apply keepsOut_next
                 | with_reducible apply keeps_foldl | with_reducible apply keeps_foldl_pair | with_reducible apply keeps_foldl_triple
                 | with_reducible apply keeps_ite | (split <;> try dsimp only))

theorem execUnpinPages_keeps {s0 : State} {p k : Nat} {s : State} (h0 : Keeps s0 s) :
    KeepsOut s0 (execUnpinPages p k s) := by
  unfold execUnpinPages
  try dsimp only
  repeat' (first | with_reducible assumption | (intro _; try dsimp only) | with_reducible apply run_keeps
                 | with_reducible apply State.adminRun_keeps | with_reducible apply State.updPage_keeps | with_reducible apply keepsAdm_ok
                 | with_reducible apply keepsAdm_fail | with_reducible apply keepsAdm_field | with_reducible apply keepsOut_next
                 | with_reducible apply keeps_foldl | with_reducible apply keeps_foldl_pair | with_reducible apply keeps_foldl_triple
                 | (simp only [keeps_mk]; with_reducible refine Keeps.fold ?_) | with_reducible apply keeps_ite
                 | (split <;> try dsimp only))

theorem execPinProgram_keeps {s0 : State} {p : Nat} {k : Nat} {s : State} (h0 : Keeps s0 s) :
    KeepsOut s0 (execPinProgram p k s) := by
  unfold execPinProgram
  try dsimp only
  repeat' (first | with_reducible assumption | (intro _; try dsimp only) | with_reducible apply AdmRes.fail_keeps
                 | with_reducible apply AdmRes.field_keeps | with_reducible apply AdmRes.ok_keeps
                 | with_reducible apply State.adminRun_keeps | with_reducible apply run_keeps | with_reducible apply keepsAdm_reply
                 | with_reducible apply keepsAdm_wait | with_reducible apply keepsAdm_fail | with_reducible apply keepsAdm_field
                 | with_reducible apply keepsAdm_ok | with_reducible apply keepsOut_next
                 | (simp only [keeps_mk]; with_reducible refine Keeps.fold ?_) | with_reducible apply keeps_ite
                 | (split <;> try dsimp only) | with_reducible refine keeps_of_pair (by assumption) ?_
                 | with_reducible refine keeps_of_triple (by assumption) ?_ | with_reducible refine keeps_of_some (by assumption) ?_
                 | with_reducible refine keeps_of_some2 (by assumption) ?_)

theorem execUnpinProgram_keeps {s0 : State} {p : Nat} {k : Nat} {s : State} (h0 : Keeps s0 s) :
    KeepsOut s0 (execUnpinProgram p k s) := by
  unfold execUnpinProgram
  try dsimp only
  repeat' (first | with_reducible assumption | (intro _; try dsimp only) | with_reducible apply AdmRes.fail_keeps
                 | with_reducible apply AdmRes.field_keeps | with_reducible apply AdmRes.ok_keeps
                 | with_reducible apply State.adminRun_keeps | with_reducible apply run_keeps | with_reducible apply keepsAdm_reply
                 | with_reducible apply keepsAdm_wait | with_reducible apply keepsAdm_fail | with_reducible apply keepsAdm_field
                 | with_reducible apply keepsAdm_ok | with_reducible apply keepsOut_next
                 | (simp only [keeps_mk]; with_reducible refine Keeps.fold ?_) | with_reducible apply keeps_ite
                 | (split <;> try dsimp only) | with_reducible refine keeps_of_pair (by assumption) ?_
                 | with_reducible refine keeps_of_some (by assumption) ?_ | with_reducible refine keeps_of_some2 (by assumption) ?_)

theorem execSetPlacementPolicy_keeps {s0 : State} {p k : Nat} {s : State} (h0 : Keeps s0 s) :
    KeepsOut s0 (execSetPlacementPolicy p k s) := by
  unfold execSetPlacementPolicy
  try dsimp only
  repeat' (first | with_reducible assumption | (intro _; try dsimp only) | with_reducible apply run_keeps
                 | with_reducible apply State.adminRun_keeps | with_reducible apply keepsAdm_ok | with_reducible apply keepsAdm_fail
                 | with_reducible apply keepsOut_next | (simp only [keeps_mk]; with_reducible refine Keeps.fold ?_)
                 | with_reducible apply keeps_ite | (split <;> try dsimp only))

theorem execPlcCommit_keeps {s0 : State} {fn : Nat} {s : State} (h0 : Keeps s0 s) :
    KeepsOut s0 (execPlcCommit fn s) := by
  unfold execPlcCommit
  repeat' (first | with_reducible assumption | (intro _; try dsimp only) | with_reducible apply run_keeps
                 | with_reducible apply State.commit_keeps | with_reducible apply State.setFlag_keeps | with_reducible apply keepsOut_next)

theorem execHeatDecay_keeps {s0 : State} {s : State} (h0 : Keeps s0 s) :
    KeepsOut s0 (execHeatDecay s) := by
  unfold execHeatDecay
  repeat' (first | with_reducible assumption | with_reducible apply run_keeps | with_reducible apply State.decay_keeps
                 | with_reducible apply keepsOut_next)

theorem execForwardingEntryExpiry_keeps {s0 : State} {home page : Nat} {s : State} (h0 : Keeps s0 s) :
    KeepsOut s0 (execForwardingEntryExpiry home page s) := by
  unfold execForwardingEntryExpiry
  try dsimp only
  repeat' (first | with_reducible assumption | (intro _; try dsimp only) | with_reducible apply run_keeps
                 | with_reducible apply keepsOut_next | (simp only [keeps_mk]; with_reducible refine Keeps.fold ?_))

theorem execPinWaitRetry_keeps {s0 : State} {page : Nat} {s : State} (h0 : Keeps s0 s) :
    KeepsOut s0 (execPinWaitRetry page s) := by
  unfold execPinWaitRetry
  repeat' (first | with_reducible assumption | (intro _; try dsimp only) | with_reducible apply run_keeps
                 | with_reducible apply State.pinMove_keeps | with_reducible apply keepsOut_next)

theorem execProgramExclusionExpiry_keeps {s0 : State} {program m : Nat} {s : State} (h0 : Keeps s0 s) :
    KeepsOut s0 (execProgramExclusionExpiry program m s) := by
  unfold execProgramExclusionExpiry
  try dsimp only
  repeat' (first | with_reducible assumption | (intro _; try dsimp only) | with_reducible apply run_keeps
                 | with_reducible apply keepsOut_next | (simp only [keeps_mk]; with_reducible refine Keeps.fold ?_))

end Sys2Proof.Machine
end

