-- ==== Sys2Proof/Laws/KeepQpCmds.lean ====
section
/-!
SUPPORT. What the operations of Machine/QpCmds.lean keep.
-/

namespace Sys2Proof.Machine

set_option linter.unusedTactic false
set_option linter.unreachableTactic false
set_option linter.unusedVariables false

theorem execSnuffQueue_keeps {s0 : State} {p : Nat} {k : Nat} {s : State} (h0 : Keeps s0 s) :
    KeepsOut s0 (execSnuffQueue p k s) := by
  unfold execSnuffQueue
  try dsimp only
  repeat' (first | with_reducible assumption | (intro _; try dsimp only) | with_reducible apply State.setWq_keeps
                 | with_reducible apply State.noQueue_keeps | with_reducible apply AdmRes.ok_keeps
                 | with_reducible apply State.adminRun_keeps | with_reducible apply State.snuff_keeps
                 | with_reducible apply run_keeps | with_reducible exact keepsOpt_none | with_reducible exact keepsOpt2_none
                 | with_reducible apply keepsOpt_some | with_reducible apply keepsOpt2_some | with_reducible apply keepsAdm_reply
                 | with_reducible apply keepsAdm_wait | with_reducible apply keepsAdm_fail | with_reducible apply keepsAdm_field
                 | with_reducible apply keepsAdm_ok | with_reducible apply keepsOut_next
                 | (simp only [keeps_mk]; with_reducible refine Keeps.fold ?_) | with_reducible apply keeps_ite
                 | (split <;> try dsimp only) | with_reducible refine keeps_of_pair (by assumption) ?_
                 | with_reducible refine keeps_of_triple (by assumption) ?_ | with_reducible refine keeps_of_some (by assumption) ?_
                 | with_reducible refine keeps_of_some2 (by assumption) ?_ | with_reducible refine keeps_of_reply (by assumption) ?_
                 | with_reducible refine keeps_of_wait (by assumption) ?_)

theorem State.createQp_keeps {s0 : State} {s : State} {c : Cmd} {n : Nat} {wq : Nat} {cq : Nat} {form : Nat} {tc : Nat} {partition : Nat} {slot : Nat} (h0 : Keeps s0 s) :
    KeepsAdm s0 (State.createQp s c n wq cq form tc partition slot) := by
  unfold State.createQp
  try dsimp only
  repeat' (first | with_reducible assumption | (intro _; try dsimp only) | with_reducible apply State.updWq_keeps
                 | with_reducible apply AdmRes.fail_keeps | with_reducible apply AdmRes.field_keeps
                 | with_reducible apply AdmRes.ok_keeps | with_reducible apply State.wakeDom_keeps
                 | with_reducible apply State.setQp_keeps | with_reducible apply State.sendSegment_keeps
                 | with_reducible apply State.touchCtx_keeps | with_reducible apply State.evictCtx_keeps
                 | with_reducible exact keepsOpt_none | with_reducible exact keepsOpt2_none | with_reducible apply keepsOpt_some
                 | with_reducible apply keepsOpt2_some | with_reducible apply keepsAdm_reply | with_reducible apply keepsAdm_wait
                 | with_reducible apply keepsAdm_fail | with_reducible apply keepsAdm_field | with_reducible apply keepsAdm_ok
                 | (simp only [keeps_mk]; with_reducible refine Keeps.fold ?_) | with_reducible apply keeps_ite
                 | (split <;> try dsimp only) | with_reducible refine keeps_of_pair (by assumption) ?_
                 | with_reducible refine keeps_of_triple (by assumption) ?_ | with_reducible refine keeps_of_some (by assumption) ?_
                 | with_reducible refine keeps_of_some2 (by assumption) ?_ | with_reducible refine keeps_of_reply (by assumption) ?_
                 | with_reducible refine keeps_of_wait (by assumption) ?_)

theorem execCreateQp_keeps {s0 : State} {p : Nat} {k : Nat} {s : State} (h0 : Keeps s0 s) :
    KeepsOut s0 (execCreateQp p k s) := by
  unfold execCreateQp
  try dsimp only
  repeat' (first | with_reducible assumption | (intro _; try dsimp only) | with_reducible apply State.adminRun_keeps
                 | with_reducible apply run_keeps | with_reducible apply State.createQp_keeps | with_reducible apply keepsAdm_reply
                 | with_reducible apply keepsAdm_wait | with_reducible apply keepsAdm_fail | with_reducible apply keepsAdm_field
                 | with_reducible apply keepsAdm_ok | with_reducible apply keepsOut_next
                 | (simp only [keeps_mk]; with_reducible refine Keeps.fold ?_) | with_reducible apply keeps_ite)

theorem State.clearQp_keeps {s0 : State} {s : State} {n : Nat} {q : Qp} (h0 : Keeps s0 s) :
    Keeps s0 (State.clearQp s n q) := by
  unfold State.clearQp
  try dsimp only
  repeat' (first | with_reducible assumption | (intro _; try dsimp only) | with_reducible apply State.setQp_keeps
                 | with_reducible apply State.opFail_keeps | with_reducible apply keeps_foldl | with_reducible apply keeps_foldl_pair
                 | with_reducible apply keeps_foldl_triple | with_reducible apply keepsOpt_bind | with_reducible apply keeps_getD
                 | (simp only [keeps_mk]; with_reducible refine Keeps.fold ?_) | with_reducible apply keeps_ite
                 | (split <;> try dsimp only) | with_reducible refine keeps_of_pair (by assumption) ?_
                 | with_reducible refine keeps_of_triple (by assumption) ?_ | with_reducible refine keeps_of_some (by assumption) ?_
                 | with_reducible refine keeps_of_some2 (by assumption) ?_)

theorem State.modifyQp_keeps {s0 : State} {s : State} {c : Cmd} {n : Nat} {target : Nat} {module : Nat} {qpn : Nat} {send : Nat} {expect : Nat} (h0 : Keeps s0 s) :
    KeepsAdm s0 (State.modifyQp s c n target module qpn send expect) := by
  unfold State.modifyQp
  try dsimp only
  repeat' (first | with_reducible assumption | (intro _; try dsimp only) | with_reducible apply AdmRes.fail_keeps
                 | with_reducible apply AdmRes.field_keeps | with_reducible apply AdmRes.ok_keeps
                 | with_reducible apply State.setQp_keeps | with_reducible apply State.qpError_keeps
                 | with_reducible apply State.fillCtx_keeps | with_reducible apply State.clearQp_keeps
                 | with_reducible apply keepsAdm_reply | with_reducible apply keepsAdm_wait | with_reducible apply keepsAdm_fail
                 | with_reducible apply keepsAdm_field | with_reducible apply keepsAdm_ok | with_reducible apply keeps_getD
                 | (simp only [keeps_mk]; with_reducible refine Keeps.fold ?_) | with_reducible apply keeps_ite
                 | (split <;> try dsimp only) | with_reducible refine keeps_of_pair (by assumption) ?_
                 | with_reducible refine keeps_of_triple (by assumption) ?_ | with_reducible refine keeps_of_some (by assumption) ?_
                 | with_reducible refine keeps_of_some2 (by assumption) ?_ | with_reducible refine keeps_of_reply (by assumption) ?_
                 | with_reducible refine keeps_of_wait (by assumption) ?_)

theorem execModifyQp_keeps {s0 : State} {p : Nat} {k : Nat} {s : State} (h0 : Keeps s0 s) :
    KeepsOut s0 (execModifyQp p k s) := by
  unfold execModifyQp
  try dsimp only
  repeat' (first | with_reducible assumption | (intro _; try dsimp only) | with_reducible apply State.adminRun_keeps
                 | with_reducible apply run_keeps | with_reducible apply State.modifyQp_keeps | with_reducible apply keepsAdm_reply
                 | with_reducible apply keepsAdm_wait | with_reducible apply keepsAdm_fail | with_reducible apply keepsAdm_field
                 | with_reducible apply keepsAdm_ok | with_reducible apply keepsOut_next
                 | (simp only [keeps_mk]; with_reducible refine Keeps.fold ?_) | with_reducible apply keeps_ite)

theorem execQueryQp_keeps {s0 : State} {p k : Nat} {s : State} (h0 : Keeps s0 s) :
    KeepsOut s0 (execQueryQp p k s) := by
  unfold execQueryQp
  try dsimp only
  repeat' (first | with_reducible assumption | (intro _; try dsimp only) | with_reducible apply run_keeps
                 | with_reducible apply State.adminRun_keeps | with_reducible apply keepsAdm_ok | with_reducible apply keepsAdm_fail
                 | with_reducible apply keepsOut_next | (simp only [keeps_mk]; with_reducible refine Keeps.fold ?_)
                 | with_reducible apply keeps_ite | (split <;> try dsimp only) | with_reducible refine keeps_of_pair (by assumption) ?_
                 | with_reducible refine keeps_of_triple (by assumption) ?_ | with_reducible refine keeps_of_some (by assumption) ?_
                 | with_reducible refine keeps_of_some2 (by assumption) ?_)

theorem execDestroyQp_keeps {s0 : State} {p k : Nat} {s : State} (h0 : Keeps s0 s) :
    KeepsOut s0 (execDestroyQp p k s) := by
  unfold execDestroyQp
  try dsimp only
  repeat' (first | with_reducible assumption | (intro _; try dsimp only) | with_reducible apply run_keeps
                 | with_reducible apply State.adminRun_keeps | with_reducible apply State.updWq_keeps
                 | with_reducible apply State.removeQp_keeps | with_reducible apply keepsAdm_ok | with_reducible apply keepsAdm_fail
                 | with_reducible apply keepsOut_next | (simp only [keeps_mk]; with_reducible refine Keeps.fold ?_)
                 | with_reducible apply keeps_ite | (split <;> try dsimp only) | with_reducible refine keeps_of_pair (by assumption) ?_
                 | with_reducible refine keeps_of_triple (by assumption) ?_ | with_reducible refine keeps_of_some (by assumption) ?_
                 | with_reducible refine keeps_of_some2 (by assumption) ?_)

theorem execQpcStoreWrite_keeps {s0 : State} {fn : Nat} {size : Bool} {value : Nat} {s : State} (h0 : Keeps s0 s) :
    KeepsOut s0 (execQpcStoreWrite fn size value s) := by
  unfold execQpcStoreWrite
  try dsimp only
  repeat' (first | with_reducible assumption | (intro _; try dsimp only) | with_reducible apply mmio_keeps
                 | with_reducible apply State.accessLog_keeps | with_reducible apply State.setFlag_keeps
                 | with_reducible apply State.setRegOf_keeps | with_reducible apply keepsOut_next | with_reducible apply keeps_ite
                 | (split <;> try dsimp only))

theorem execQpeCommit_keeps {s0 : State} {fn : Nat} {s : State} (h0 : Keeps s0 s) :
    KeepsOut s0 (execQpeCommit fn s) := by
  unfold execQpeCommit
  repeat' (first | with_reducible assumption | (intro _; try dsimp only) | with_reducible apply run_keeps
                 | with_reducible apply State.commit_keeps | with_reducible apply State.setFlag_keeps | with_reducible apply keepsOut_next)

end Sys2Proof.Machine
end

