-- ==== Sys2Proof/Laws/KeepInstRows.lean ====
section
/-!
SUPPORT. What the operations of Machine/InstRows.lean keep.
-/

namespace Sys2Proof.Machine

set_option linter.unusedTactic false
set_option linter.unreachableTactic false
set_option linter.unusedVariables false

theorem State.takeFrames_keeps {s0 : State} {s : State} {n : Nat} {fuel : Nat} (h0 : Keeps s0 s) :
    Keeps s0 (State.takeFrames s n fuel).2 := by
  induction fuel generalizing s n with
  | zero =>
    unfold State.takeFrames
    try dsimp only
    repeat' (first | with_reducible assumption | with_reducible apply State.takeFrame_keeps
                   | (simp only [keeps_mk]; with_reducible refine Keeps.fold ?_) | with_reducible apply keeps_ite
                   | (split <;> try dsimp only) | with_reducible refine keeps_of_pair (by assumption) ?_
                   | with_reducible refine keeps_of_triple (by assumption) ?_ | with_reducible refine keeps_of_some (by assumption) ?_
                   | with_reducible refine keeps_of_some2 (by assumption) ?_)
  | succ _ ih =>
    unfold State.takeFrames
    try dsimp only
    repeat' (first | with_reducible assumption
                   | with_reducible apply ih | with_reducible apply State.takeFrame_keeps
                   | (simp only [keeps_mk]; with_reducible refine Keeps.fold ?_) | with_reducible apply keeps_ite
                   | (split <;> try dsimp only) | with_reducible refine keeps_of_pair (by assumption) ?_
                   | with_reducible refine keeps_of_triple (by assumption) ?_ | with_reducible refine keeps_of_some (by assumption) ?_
                   | with_reducible refine keeps_of_some2 (by assumption) ?_)

theorem execCreateInstance_keeps {s0 : State} {p k : Nat} {s : State} (h0 : Keeps s0 s) :
    KeepsOut s0 (execCreateInstance p k s) := by
  unfold execCreateInstance
  try dsimp only
  repeat' (first | with_reducible assumption | (intro _; try dsimp only) | with_reducible apply run_keeps
                 | with_reducible apply State.adminRun_keeps | with_reducible apply State.setFlag_keeps
                 | with_reducible apply State.takeFrames_keeps | with_reducible apply State.setInst_keeps
                 | with_reducible apply State.giveRoot_keeps | with_reducible apply keepsAdm_ok | with_reducible apply keepsAdm_fail
                 | with_reducible apply keepsAdm_field | with_reducible apply keepsAdm_wait | with_reducible apply keepsOpt_map
                 | with_reducible apply keepsOpt2_mapPair | with_reducible apply keepsOpt2_map | with_reducible apply keepsOut_next
                 | with_reducible apply keeps_getD | (simp only [keeps_mk]; with_reducible refine Keeps.fold ?_)
                 | with_reducible apply keeps_ite | (split <;> try dsimp only) | with_reducible refine keeps_of_pair (by assumption) ?_
                 | with_reducible refine keeps_of_triple (by assumption) ?_ | with_reducible refine keeps_of_some (by assumption) ?_
                 | with_reducible refine keeps_of_some2 (by assumption) ?_)

theorem execDestroyInstance_keeps {s0 : State} {p k : Nat} {s : State} (h0 : Keeps s0 s) :
    KeepsOut s0 (execDestroyInstance p k s) := by
  unfold execDestroyInstance
  try dsimp only
  repeat' (first | with_reducible assumption | (intro _; try dsimp only) | with_reducible apply run_keeps
                 | with_reducible apply State.adminRun_keeps | with_reducible apply State.setCmd_keeps
                 | with_reducible apply State.resetInst_keeps | with_reducible apply keepsAdm_fail | with_reducible apply keepsAdm_wait
                 | with_reducible apply keepsOut_next | (simp only [keeps_mk]; with_reducible refine Keeps.fold ?_)
                 | with_reducible apply keeps_ite | (split <;> try dsimp only))

theorem execResetInstance_keeps {s0 : State} {p k : Nat} {s : State} (h0 : Keeps s0 s) :
    KeepsOut s0 (execResetInstance p k s) := by
  unfold execResetInstance
  try dsimp only
  repeat' (first | with_reducible assumption | (intro _; try dsimp only) | with_reducible apply run_keeps
                 | with_reducible apply State.adminRun_keeps | with_reducible apply State.setCmd_keeps
                 | with_reducible apply State.resetInst_keeps | with_reducible apply keepsAdm_fail | with_reducible apply keepsAdm_wait
                 | with_reducible apply keepsOut_next | (simp only [keeps_mk]; with_reducible refine Keeps.fold ?_)
                 | with_reducible apply keeps_ite | (split <;> try dsimp only))

theorem execGenerationQuarantineEnd_keeps {s0 : State} {inst : Nat} {s : State} (h0 : Keeps s0 s) :
    KeepsOut s0 (execGenerationQuarantineEnd inst s) := by
  unfold execGenerationQuarantineEnd
  repeat' (first | with_reducible assumption | (intro _; try dsimp only) | with_reducible apply run_keeps
                 | with_reducible apply State.resumeReset_keeps | with_reducible apply keepsOut_next)

theorem execSetInstanceShare_keeps {s0 : State} {p k : Nat} {s : State} (h0 : Keeps s0 s) :
    KeepsOut s0 (execSetInstanceShare p k s) := by
  unfold execSetInstanceShare
  try dsimp only
  repeat' (first | with_reducible assumption | (intro _; try dsimp only) | with_reducible apply run_keeps
                 | with_reducible apply State.adminRun_keeps | with_reducible apply State.updInst_keeps | with_reducible apply keepsAdm_ok
                 | with_reducible apply keepsAdm_fail | with_reducible apply keepsAdm_field | with_reducible apply keepsOut_next
                 | (simp only [keeps_mk]; with_reducible refine Keeps.fold ?_) | with_reducible apply keeps_ite
                 | (split <;> try dsimp only))

theorem execVrtCommit_keeps {s0 : State} {fn : Nat} {s : State} (h0 : Keeps s0 s) :
    KeepsOut s0 (execVrtCommit fn s) := by
  unfold execVrtCommit
  repeat' (first | with_reducible assumption | (intro _; try dsimp only) | with_reducible apply run_keeps
                 | with_reducible apply State.commit_keeps | with_reducible apply State.setFlag_keeps | with_reducible apply keepsOut_next)

theorem execVrtHoldWrite_keeps {s0 : State} {fn value : Nat} {s : State} (h0 : Keeps s0 s) :
    KeepsOut s0 (execVrtHoldWrite fn value s) := by
  unfold execVrtHoldWrite
  try dsimp only
  repeat' (first | with_reducible assumption | (intro _; try dsimp only) | with_reducible apply run_keeps
                 | with_reducible apply State.expert_keeps | with_reducible apply State.expertDrop_keeps
                 | with_reducible apply State.setInst_keeps | with_reducible apply keepsOut_next
                 | (simp only [keeps_mk]; with_reducible refine Keeps.fold ?_) | with_reducible apply keeps_ite
                 | (split <;> try dsimp only) | with_reducible refine keeps_of_pair (by assumption) ?_
                 | with_reducible refine keeps_of_triple (by assumption) ?_ | with_reducible refine keeps_of_some (by assumption) ?_
                 | with_reducible refine keeps_of_some2 (by assumption) ?_)

theorem State.restore_keeps {s0 : State} {s : State} {kind n first second gen : Nat} (h0 : Keeps s0 s) :
    Keeps s0 (State.restore s kind n first second gen).2 := by
  unfold State.restore
  try dsimp only
  repeat' (first | with_reducible assumption | (intro _; try dsimp only) | with_reducible apply State.setWq_keeps
                 | with_reducible apply State.doorbell_keeps | with_reducible apply State.setCq_keeps
                 | with_reducible apply State.setLq_keeps | with_reducible apply State.setWick_keeps
                 | with_reducible apply State.count_keeps | (simp only [keeps_mk]; with_reducible refine Keeps.fold ?_)
                 | with_reducible apply keeps_ite | (split <;> try dsimp only) | with_reducible refine keeps_of_pair (by assumption) ?_
                 | with_reducible refine keeps_of_triple (by assumption) ?_ | with_reducible refine keeps_of_some (by assumption) ?_
                 | with_reducible refine keeps_of_some2 (by assumption) ?_)

theorem execRestoreApply_keeps {s0 : State} {fn value : Nat} {s : State} (h0 : Keeps s0 s) :
    KeepsOut s0 (execRestoreApply fn value s) := by
  unfold execRestoreApply
  try dsimp only
  repeat' (first | with_reducible assumption | (intro _; try dsimp only) | with_reducible apply run_keeps
                 | with_reducible apply State.expert_keeps | with_reducible apply State.restore_keeps
                 | with_reducible apply State.setReg_keeps | with_reducible apply State.setFlag_keeps | with_reducible apply keepsOut_next
                 | with_reducible apply keeps_ite | (split <;> try dsimp only))

end Sys2Proof.Machine
end

