-- ==== Sys2Proof/Laws/KeepPacketRows.lean ====
section
/-!
SUPPORT. What the operations of Machine/PacketRows.lean keep.
-/

namespace Sys2Proof.Machine

set_option linter.unusedTactic false
set_option linter.unreachableTactic false
set_option linter.unusedVariables false

theorem execWriteReq_keeps {s0 : State} {p : Pkt} {s : State} (h0 : Keeps s0 s) :
    KeepsOut s0 (execWriteReq p s) := by
  unfold execWriteReq
  repeat' (first | with_reducible assumption | (intro _; try dsimp only) | with_reducible apply run_keeps
                 | with_reducible apply State.requestRow_keeps | with_reducible apply keepsOut_next)

theorem execReadReq_keeps {s0 : State} {p : Pkt} {s : State} (h0 : Keeps s0 s) :
    KeepsOut s0 (execReadReq p s) := by
  unfold execReadReq
  repeat' (first | with_reducible assumption | (intro _; try dsimp only) | with_reducible apply run_keeps
                 | with_reducible apply State.requestRow_keeps | with_reducible apply keepsOut_next)

theorem execAtomicReq_keeps {s0 : State} {p : Pkt} {s : State} (h0 : Keeps s0 s) :
    KeepsOut s0 (execAtomicReq p s) := by
  unfold execAtomicReq
  repeat' (first | with_reducible assumption | (intro _; try dsimp only) | with_reducible apply run_keeps
                 | with_reducible apply State.requestRow_keeps | with_reducible apply keepsOut_next)

theorem execTokenReq_keeps {s0 : State} {p : Pkt} {s : State} (h0 : Keeps s0 s) :
    KeepsOut s0 (execTokenReq p s) := by
  unfold execTokenReq
  repeat' (first | with_reducible assumption | (intro _; try dsimp only) | with_reducible apply run_keeps
                 | with_reducible apply State.requestRow_keeps | with_reducible apply keepsOut_next)

theorem execForwardedRequest_keeps {s0 : State} {p : Pkt} {s : State} (h0 : Keeps s0 s) :
    KeepsOut s0 (execForwardedRequest p s) := by
  unfold execForwardedRequest
  repeat' (first | with_reducible assumption | (intro _; try dsimp only) | with_reducible apply run_keeps
                 | with_reducible apply State.requestRow_keeps | with_reducible apply keepsOut_next)

theorem execCollData_keeps {s0 : State} {p : Pkt} {s : State} (h0 : Keeps s0 s) :
    KeepsOut s0 (execCollData p s) := by
  unfold execCollData
  repeat' (first | with_reducible assumption | (intro _; try dsimp only) | with_reducible apply run_keeps
                 | with_reducible apply State.requestRow_keeps | with_reducible apply keepsOut_next)

theorem execGroupSetup_keeps {s0 : State} {p : Pkt} {s : State} (h0 : Keeps s0 s) :
    KeepsOut s0 (execGroupSetup p s) := by
  unfold execGroupSetup
  repeat' (first | with_reducible assumption | (intro _; try dsimp only) | with_reducible apply run_keeps
                 | with_reducible apply State.requestRow_keeps | with_reducible apply keepsOut_next)

theorem execTreeUp_keeps {s0 : State} {p : Pkt} {s : State} (h0 : Keeps s0 s) :
    KeepsOut s0 (execTreeUp p s) := by
  unfold execTreeUp
  repeat' (first | with_reducible assumption | (intro _; try dsimp only) | with_reducible apply run_keeps
                 | with_reducible apply State.requestRow_keeps | with_reducible apply keepsOut_next)

theorem execTreeDown_keeps {s0 : State} {p : Pkt} {s : State} (h0 : Keeps s0 s) :
    KeepsOut s0 (execTreeDown p s) := by
  unfold execTreeDown
  repeat' (first | with_reducible assumption | (intro _; try dsimp only) | with_reducible apply run_keeps
                 | with_reducible apply State.requestRow_keeps | with_reducible apply keepsOut_next)

theorem execTransitLaunch_keeps {s0 : State} {p : Pkt} {s : State} (h0 : Keeps s0 s) :
    KeepsOut s0 (execTransitLaunch p s) := by
  unfold execTransitLaunch
  repeat' (first | with_reducible assumption | (intro _; try dsimp only) | with_reducible apply run_keeps
                 | with_reducible apply State.requestRow_keeps | with_reducible apply keepsOut_next)

theorem execTransitCancel_keeps {s0 : State} {p : Pkt} {s : State} (h0 : Keeps s0 s) :
    KeepsOut s0 (execTransitCancel p s) := by
  unfold execTransitCancel
  repeat' (first | with_reducible assumption | (intro _; try dsimp only) | with_reducible apply run_keeps
                 | with_reducible apply State.requestRow_keeps | with_reducible apply keepsOut_next)

theorem execTransitDone_keeps {s0 : State} {p : Pkt} {s : State} (h0 : Keeps s0 s) :
    KeepsOut s0 (execTransitDone p s) := by
  unfold execTransitDone
  repeat' (first | with_reducible assumption | (intro _; try dsimp only) | with_reducible apply run_keeps
                 | with_reducible apply State.requestRow_keeps | with_reducible apply keepsOut_next)

theorem execPlacePropose_keeps {s0 : State} {p : Pkt} {s : State} (h0 : Keeps s0 s) :
    KeepsOut s0 (execPlacePropose p s) := by
  unfold execPlacePropose
  repeat' (first | with_reducible assumption | (intro _; try dsimp only) | with_reducible apply run_keeps
                 | with_reducible apply State.requestRow_keeps | with_reducible apply keepsOut_next)

theorem execMoveStart_keeps {s0 : State} {p : Pkt} {s : State} (h0 : Keeps s0 s) :
    KeepsOut s0 (execMoveStart p s) := by
  unfold execMoveStart
  repeat' (first | with_reducible assumption | (intro _; try dsimp only) | with_reducible apply run_keeps
                 | with_reducible apply State.requestRow_keeps | with_reducible apply keepsOut_next)

theorem execMoveCopy_keeps {s0 : State} {p : Pkt} {s : State} (h0 : Keeps s0 s) :
    KeepsOut s0 (execMoveCopy p s) := by
  unfold execMoveCopy
  repeat' (first | with_reducible assumption | (intro _; try dsimp only) | with_reducible apply run_keeps
                 | with_reducible apply State.requestRow_keeps | with_reducible apply keepsOut_next)

theorem execMoveDone_keeps {s0 : State} {p : Pkt} {s : State} (h0 : Keeps s0 s) :
    KeepsOut s0 (execMoveDone p s) := by
  unfold execMoveDone
  repeat' (first | with_reducible assumption | (intro _; try dsimp only) | with_reducible apply run_keeps
                 | with_reducible apply State.requestRow_keeps | with_reducible apply keepsOut_next)

theorem execMoveEnd_keeps {s0 : State} {p : Pkt} {s : State} (h0 : Keeps s0 s) :
    KeepsOut s0 (execMoveEnd p s) := by
  unfold execMoveEnd
  repeat' (first | with_reducible assumption | (intro _; try dsimp only) | with_reducible apply run_keeps
                 | with_reducible apply State.requestRow_keeps | with_reducible apply keepsOut_next)

theorem execThatchHint_keeps {s0 : State} {p : Pkt} {s : State} (h0 : Keeps s0 s) :
    KeepsOut s0 (execThatchHint p s) := by
  unfold execThatchHint
  repeat' (first | with_reducible assumption | (intro _; try dsimp only) | with_reducible apply run_keeps
                 | with_reducible apply State.requestRow_keeps | with_reducible apply keepsOut_next)

theorem execCollapseNote_keeps {s0 : State} {p : Pkt} {s : State} (h0 : Keeps s0 s) :
    KeepsOut s0 (execCollapseNote p s) := by
  unfold execCollapseNote
  repeat' (first | with_reducible assumption | (intro _; try dsimp only) | with_reducible apply run_keeps
                 | with_reducible apply State.requestRow_keeps | with_reducible apply keepsOut_next)

theorem execCollapseDone_keeps {s0 : State} {p : Pkt} {s : State} (h0 : Keeps s0 s) :
    KeepsOut s0 (execCollapseDone p s) := by
  unfold execCollapseDone
  repeat' (first | with_reducible assumption | (intro _; try dsimp only) | with_reducible apply run_keeps
                 | with_reducible apply State.requestRow_keeps | with_reducible apply keepsOut_next)

theorem execDomainSetup_keeps {s0 : State} {p : Pkt} {s : State} (h0 : Keeps s0 s) :
    KeepsOut s0 (execDomainSetup p s) := by
  unfold execDomainSetup
  repeat' (first | with_reducible assumption | (intro _; try dsimp only) | with_reducible apply run_keeps
                 | with_reducible apply State.requestRow_keeps | with_reducible apply keepsOut_next)

theorem execDomainReady_keeps {s0 : State} {p : Pkt} {s : State} (h0 : Keeps s0 s) :
    KeepsOut s0 (execDomainReady p s) := by
  unfold execDomainReady
  repeat' (first | with_reducible assumption | (intro _; try dsimp only) | with_reducible apply run_keeps
                 | with_reducible apply State.requestRow_keeps | with_reducible apply keepsOut_next)

theorem execAck_keeps {s0 : State} {p : Pkt} {s : State} (h0 : Keeps s0 s) :
    KeepsOut s0 (execAck p s) := by
  unfold execAck
  repeat' (first | with_reducible assumption | (intro _; try dsimp only) | with_reducible apply run_keeps
                 | with_reducible apply State.arrive_keeps | with_reducible apply State.ackIn_keeps | with_reducible apply keepsOut_next
                 | with_reducible apply keeps_ite | (split <;> try dsimp only))

theorem execReadResp_keeps {s0 : State} {p : Pkt} {s : State} (h0 : Keeps s0 s) :
    KeepsOut s0 (execReadResp p s) := by
  unfold execReadResp
  repeat' (first | with_reducible assumption | (intro _; try dsimp only) | with_reducible apply run_keeps
                 | with_reducible apply State.arrive_keeps | with_reducible apply State.dataResponse_keeps
                 | with_reducible apply keepsOut_next | with_reducible apply keeps_ite | (split <;> try dsimp only))

theorem execAtomicResp_keeps {s0 : State} {p : Pkt} {s : State} (h0 : Keeps s0 s) :
    KeepsOut s0 (execAtomicResp p s) := by
  unfold execAtomicResp
  repeat' (first | with_reducible assumption | (intro _; try dsimp only) | with_reducible apply run_keeps
                 | with_reducible apply State.arrive_keeps | with_reducible apply State.dataResponse_keeps
                 | with_reducible apply keepsOut_next | with_reducible apply keeps_ite | (split <;> try dsimp only))

theorem execEpochProbe_keeps {s0 : State} {p : Pkt} {s : State} (h0 : Keeps s0 s) :
    KeepsOut s0 (execEpochProbe p s) := by
  unfold execEpochProbe
  repeat' (first | with_reducible assumption | (intro _; try dsimp only) | with_reducible apply run_keeps
                 | with_reducible apply State.arrive_keeps | with_reducible apply State.epochNotice_keeps
                 | with_reducible apply keepsOut_next | with_reducible apply keeps_ite | (split <;> try dsimp only))

theorem execEpochNotice_keeps {s0 : State} {p : Pkt} {s : State} (h0 : Keeps s0 s) :
    KeepsOut s0 (execEpochNotice p s) := by
  unfold execEpochNotice
  try dsimp only
  repeat' (first | with_reducible assumption | (intro _; try dsimp only) | with_reducible apply run_keeps
                 | with_reducible apply State.ejected_keeps | with_reducible apply State.gutter_keeps
                 | with_reducible apply State.takeEpoch_keeps | with_reducible apply keepsOut_next | with_reducible apply keeps_ite
                 | (split <;> try dsimp only))

theorem execCongestion_keeps {s0 : State} {p : Pkt} {s : State} (h0 : Keeps s0 s) :
    KeepsOut s0 (execCongestion p s) := by
  unfold execCongestion
  repeat' (first | with_reducible assumption | (intro _; try dsimp only) | with_reducible apply run_keeps
                 | with_reducible apply State.arrive_keeps | with_reducible apply State.markFlow_keeps
                 | with_reducible apply keepsOut_next | with_reducible apply keeps_ite | (split <;> try dsimp only))

theorem execUnknownTypePacket_keeps {s0 : State} {p : Pkt} {s : State} (h0 : Keeps s0 s) :
    KeepsOut s0 (execUnknownTypePacket p s) := by
  unfold execUnknownTypePacket
  repeat' (first | with_reducible assumption | (intro _; try dsimp only) | with_reducible apply run_keeps
                 | with_reducible apply State.arrive_keeps | with_reducible apply keepsOut_next | with_reducible apply keeps_ite
                 | (split <;> try dsimp only))

theorem execRetransmitTimeout_keeps {s0 : State} {k : Nat} {s : State} (h0 : Keeps s0 s) :
    KeepsOut s0 (execRetransmitTimeout k s) := by
  unfold execRetransmitTimeout
  try dsimp only
  repeat' (first | with_reducible assumption | (intro _; try dsimp only) | with_reducible apply run_keeps
                 | with_reducible apply State.retransmit_keeps | with_reducible apply keepsOut_next
                 | (simp only [keeps_mk]; with_reducible refine Keeps.fold ?_) | with_reducible apply keeps_ite
                 | (split <;> try dsimp only) | with_reducible refine keeps_of_pair (by assumption) ?_
                 | with_reducible refine keeps_of_triple (by assumption) ?_ | with_reducible refine keeps_of_some (by assumption) ?_
                 | with_reducible refine keeps_of_some2 (by assumption) ?_)

theorem execRetryLimitTimeout_keeps {s0 : State} {k : Nat} {s : State} (h0 : Keeps s0 s) :
    KeepsOut s0 (execRetryLimitTimeout k s) := by
  unfold execRetryLimitTimeout
  try dsimp only
  repeat' (first | with_reducible assumption | (intro _; try dsimp only) | with_reducible apply run_keeps
                 | with_reducible apply State.txnTimeout_keeps | with_reducible apply keepsOut_next
                 | (simp only [keeps_mk]; with_reducible refine Keeps.fold ?_) | with_reducible apply keeps_ite
                 | (split <;> try dsimp only) | with_reducible refine keeps_of_pair (by assumption) ?_
                 | with_reducible refine keeps_of_triple (by assumption) ?_ | with_reducible refine keeps_of_some (by assumption) ?_
                 | with_reducible refine keeps_of_some2 (by assumption) ?_)

theorem execAckDelayExpiry_keeps {s0 : State} {conn key : Nat} {s : State} (h0 : Keeps s0 s) :
    KeepsOut s0 (execAckDelayExpiry conn key s) := by
  unfold execAckDelayExpiry
  try dsimp only
  repeat' (first | with_reducible assumption | (intro _; try dsimp only) | with_reducible apply run_keeps
                 | with_reducible apply State.sendAck_keeps | with_reducible apply keepsOut_next | with_reducible apply keeps_ite
                 | (split <;> try dsimp only))

theorem State.probeLost_keeps {s0 : State} {s : State} {m : Nat} (h0 : Keeps s0 s) :
    Keeps s0 (State.probeLost s m) := by
  unfold State.probeLost
  try dsimp only
  repeat' (first | with_reducible assumption | (intro _; try dsimp only) | with_reducible apply State.control_keeps
                 | with_reducible apply State.timeoutFault_keeps | with_reducible apply State.opFail_keeps
                 | with_reducible apply State.msgEnd_keeps | with_reducible apply keepsOpt_map
                 | with_reducible apply keepsOpt2_mapPair | with_reducible apply keepsOpt2_map | with_reducible apply keeps_foldl
                 | with_reducible apply keeps_foldl_pair | with_reducible apply keeps_foldl_triple
                 | with_reducible apply keepsOpt_foldl | with_reducible apply keeps_getD
                 | (simp only [keeps_mk]; with_reducible refine Keeps.fold ?_) | with_reducible apply keeps_ite
                 | (split <;> try dsimp only) | with_reducible refine keeps_of_pair (by assumption) ?_
                 | with_reducible refine keeps_of_triple (by assumption) ?_ | with_reducible refine keeps_of_some (by assumption) ?_
                 | with_reducible refine keeps_of_some2 (by assumption) ?_ | with_reducible refine keeps_of_reply (by assumption) ?_
                 | with_reducible refine keeps_of_wait (by assumption) ?_)

theorem execEpochProbeTimeout_keeps {s0 : State} {m : Nat} {s : State} (h0 : Keeps s0 s) :
    KeepsOut s0 (execEpochProbeTimeout m s) := by
  unfold execEpochProbeTimeout
  try dsimp only
  repeat' (first | with_reducible assumption | (intro _; try dsimp only) | with_reducible apply run_keeps
                 | with_reducible apply State.probeLost_keeps | with_reducible apply State.inject_keeps
                 | with_reducible apply keepsOut_next | (simp only [keeps_mk]; with_reducible refine Keeps.fold ?_)
                 | with_reducible apply keeps_ite | (split <;> try dsimp only) | with_reducible refine keeps_of_pair (by assumption) ?_
                 | with_reducible refine keeps_of_triple (by assumption) ?_ | with_reducible refine keeps_of_some (by assumption) ?_
                 | with_reducible refine keeps_of_some2 (by assumption) ?_)

theorem execEpochTableAging_keeps {s0 : State} {m : Nat} {s : State} (h0 : Keeps s0 s) :
    KeepsOut s0 (execEpochTableAging m s) := by
  unfold execEpochTableAging
  try dsimp only
  repeat' (first | with_reducible assumption | (intro _; try dsimp only) | with_reducible apply run_keeps
                 | with_reducible apply keepsOut_next | (simp only [keeps_mk]; with_reducible refine Keeps.fold ?_))

theorem execThrottleTick_keeps {s0 : State} {s : State} (h0 : Keeps s0 s) :
    KeepsOut s0 (execThrottleTick s) := by
  unfold execThrottleTick
  try dsimp only
  repeat' (first | with_reducible assumption | (intro _; try dsimp only) | with_reducible apply run_keeps
                 | with_reducible apply State.tick_keeps | with_reducible apply keepsOpt_map | with_reducible apply keepsOpt2_mapPair
                 | with_reducible apply keepsOpt2_map | with_reducible apply keepsOut_next
                 | (simp only [keeps_mk]; with_reducible refine Keeps.fold ?_))

end Sys2Proof.Machine
end

