-- ==== Sys2Proof/Laws/KeepQueueRows.lean ====
section
/-!
SUPPORT. What the operations of Machine/QueueRows.lean keep.
-/

namespace Sys2Proof.Machine

set_option linter.unusedTactic false
set_option linter.unreachableTactic false
set_option linter.unusedVariables false

theorem execCreateWorkQueue_keeps {s0 : State} {p k : Nat} {s : State} (h0 : Keeps s0 s) :
    KeepsOut s0 (execCreateWorkQueue p k s) := by
  unfold execCreateWorkQueue
  repeat' (first | with_reducible assumption | (intro _; try dsimp only) | with_reducible apply run_keeps
                 | with_reducible apply State.adminRun_keeps | with_reducible apply State.createWq_keeps
                 | with_reducible apply keepsOut_next)

theorem execCreateCompletionQueue_keeps {s0 : State} {p k : Nat} {s : State} (h0 : Keeps s0 s) :
    KeepsOut s0 (execCreateCompletionQueue p k s) := by
  unfold execCreateCompletionQueue
  repeat' (first | with_reducible assumption | (intro _; try dsimp only) | with_reducible apply run_keeps
                 | with_reducible apply State.adminRun_keeps | with_reducible apply State.createCq_keeps
                 | with_reducible apply keepsOut_next)

theorem execCreateEventQueue_keeps {s0 : State} {p k : Nat} {s : State} (h0 : Keeps s0 s) :
    KeepsOut s0 (execCreateEventQueue p k s) := by
  unfold execCreateEventQueue
  repeat' (first | with_reducible assumption | (intro _; try dsimp only) | with_reducible apply run_keeps
                 | with_reducible apply State.adminRun_keeps | with_reducible apply State.createLq_keeps
                 | with_reducible apply keepsOut_next)

theorem execDestroyWorkQueue_keeps {s0 : State} {p : Nat} {k : Nat} {s : State} (h0 : Keeps s0 s) :
    KeepsOut s0 (execDestroyWorkQueue p k s) := by
  unfold execDestroyWorkQueue
  try dsimp only
  repeat' (first | with_reducible assumption | (intro _; try dsimp only) | with_reducible apply AdmRes.fail_keeps
                 | with_reducible apply State.noQueue_keeps | with_reducible apply AdmRes.ok_keeps
                 | with_reducible apply State.adminRun_keeps | with_reducible apply State.removeWq_keeps
                 | with_reducible apply run_keeps | with_reducible apply keepsAdm_reply | with_reducible apply keepsAdm_wait
                 | with_reducible apply keepsAdm_fail | with_reducible apply keepsAdm_field | with_reducible apply keepsAdm_ok
                 | with_reducible apply keepsOut_next | with_reducible apply keepsOpt_map | with_reducible apply keepsOpt2_mapPair
                 | with_reducible apply keepsOpt2_map | with_reducible apply keeps_getD
                 | (simp only [keeps_mk]; with_reducible refine Keeps.fold ?_) | with_reducible apply keeps_ite
                 | (split <;> try dsimp only) | with_reducible refine keeps_of_pair (by assumption) ?_
                 | with_reducible refine keeps_of_triple (by assumption) ?_ | with_reducible refine keeps_of_some (by assumption) ?_
                 | with_reducible refine keeps_of_some2 (by assumption) ?_)

theorem execDestroyCompletionQueue_keeps {s0 : State} {p : Nat} {k : Nat} {s : State} (h0 : Keeps s0 s) :
    KeepsOut s0 (execDestroyCompletionQueue p k s) := by
  unfold execDestroyCompletionQueue
  try dsimp only
  repeat' (first | with_reducible assumption | (intro _; try dsimp only) | with_reducible apply AdmRes.fail_keeps
                 | with_reducible apply State.noQueue_keeps | with_reducible apply AdmRes.ok_keeps
                 | with_reducible apply State.adminRun_keeps | with_reducible apply State.removeCq_keeps
                 | with_reducible apply run_keeps | with_reducible apply keepsAdm_reply | with_reducible apply keepsAdm_wait
                 | with_reducible apply keepsAdm_fail | with_reducible apply keepsAdm_field | with_reducible apply keepsAdm_ok
                 | with_reducible apply keepsOut_next | with_reducible apply keepsOpt_map | with_reducible apply keepsOpt2_mapPair
                 | with_reducible apply keepsOpt2_map | with_reducible apply keeps_getD
                 | (simp only [keeps_mk]; with_reducible refine Keeps.fold ?_) | with_reducible apply keeps_ite
                 | (split <;> try dsimp only) | with_reducible refine keeps_of_pair (by assumption) ?_
                 | with_reducible refine keeps_of_triple (by assumption) ?_ | with_reducible refine keeps_of_some (by assumption) ?_
                 | with_reducible refine keeps_of_some2 (by assumption) ?_)

theorem execDestroyEventQueue_keeps {s0 : State} {p : Nat} {k : Nat} {s : State} (h0 : Keeps s0 s) :
    KeepsOut s0 (execDestroyEventQueue p k s) := by
  unfold execDestroyEventQueue
  try dsimp only
  repeat' (first | with_reducible assumption | (intro _; try dsimp only) | with_reducible apply AdmRes.fail_keeps
                 | with_reducible apply State.noQueue_keeps | with_reducible apply AdmRes.ok_keeps
                 | with_reducible apply State.adminRun_keeps | with_reducible apply State.removeLq_keeps
                 | with_reducible apply run_keeps | with_reducible apply keepsAdm_reply | with_reducible apply keepsAdm_wait
                 | with_reducible apply keepsAdm_fail | with_reducible apply keepsAdm_field | with_reducible apply keepsAdm_ok
                 | with_reducible apply keepsOut_next | with_reducible apply keepsOpt_map | with_reducible apply keepsOpt2_mapPair
                 | with_reducible apply keepsOpt2_map | with_reducible apply keeps_getD
                 | (simp only [keeps_mk]; with_reducible refine Keeps.fold ?_) | with_reducible apply keeps_ite
                 | (split <;> try dsimp only) | with_reducible refine keeps_of_pair (by assumption) ?_
                 | with_reducible refine keeps_of_triple (by assumption) ?_ | with_reducible refine keeps_of_some (by assumption) ?_
                 | with_reducible refine keeps_of_some2 (by assumption) ?_)

theorem execQuiesce_keeps {s0 : State} {p : Nat} {k : Nat} {s : State} (h0 : Keeps s0 s) :
    KeepsOut s0 (execQuiesce p k s) := by
  unfold execQuiesce
  try dsimp only
  repeat' (first | with_reducible assumption | (intro _; try dsimp only) | with_reducible apply State.setWq_keeps
                 | with_reducible apply AdmRes.field_keeps | with_reducible apply State.noQueue_keeps
                 | with_reducible apply AdmRes.ok_keeps | with_reducible apply State.adminRun_keeps
                 | with_reducible apply State.quiesceWq_keeps | with_reducible apply run_keeps | with_reducible apply keepsAdm_reply
                 | with_reducible apply keepsAdm_wait | with_reducible apply keepsAdm_fail | with_reducible apply keepsAdm_field
                 | with_reducible apply keepsAdm_ok | with_reducible apply keepsOut_next
                 | (simp only [keeps_mk]; with_reducible refine Keeps.fold ?_) | with_reducible apply keeps_ite
                 | (split <;> try dsimp only) | with_reducible refine keeps_of_pair (by assumption) ?_
                 | with_reducible refine keeps_of_triple (by assumption) ?_ | with_reducible refine keeps_of_some (by assumption) ?_
                 | with_reducible refine keeps_of_some2 (by assumption) ?_ | with_reducible refine keeps_of_reply (by assumption) ?_
                 | with_reducible refine keeps_of_wait (by assumption) ?_)

theorem execResume_keeps {s0 : State} {p : Nat} {k : Nat} {s : State} (h0 : Keeps s0 s) :
    KeepsOut s0 (execResume p k s) := by
  unfold execResume
  try dsimp only
  repeat' (first | with_reducible assumption | (intro _; try dsimp only) | with_reducible apply AdmRes.fail_keeps
                 | with_reducible apply State.noQueue_keeps | with_reducible apply AdmRes.ok_keeps
                 | with_reducible apply State.adminRun_keeps | with_reducible apply State.resumeWq_keeps
                 | with_reducible apply run_keeps | with_reducible apply keepsAdm_reply | with_reducible apply keepsAdm_wait
                 | with_reducible apply keepsAdm_fail | with_reducible apply keepsAdm_field | with_reducible apply keepsAdm_ok
                 | with_reducible apply keepsOut_next | (simp only [keeps_mk]; with_reducible refine Keeps.fold ?_)
                 | with_reducible apply keeps_ite | (split <;> try dsimp only)
                 | with_reducible refine keeps_of_pair (by assumption) ?_ | with_reducible refine keeps_of_triple (by assumption) ?_
                 | with_reducible refine keeps_of_some (by assumption) ?_ | with_reducible refine keeps_of_some2 (by assumption) ?_)

theorem execQuiesceWaitLimit_keeps {s0 : State} {p k : Nat} {s : State} (h0 : Keeps s0 s) :
    KeepsOut s0 (execQuiesceWaitLimit p k s) := by
  unfold execQuiesceWaitLimit
  try dsimp only
  repeat' (first | with_reducible assumption | (intro _; try dsimp only) | with_reducible apply run_keeps
                 | with_reducible apply State.updWq_keeps | with_reducible apply State.reply_keeps
                 | with_reducible apply State.admStopped_keeps | with_reducible apply keepsOut_next
                 | (simp only [keeps_mk]; with_reducible refine Keeps.fold ?_) | with_reducible apply keeps_ite
                 | (split <;> try dsimp only) | with_reducible refine keeps_of_pair (by assumption) ?_
                 | with_reducible refine keeps_of_triple (by assumption) ?_ | with_reducible refine keeps_of_some (by assumption) ?_
                 | with_reducible refine keeps_of_some2 (by assumption) ?_ | with_reducible refine keeps_of_reply (by assumption) ?_
                 | with_reducible refine keeps_of_wait (by assumption) ?_)

theorem execWqEnableClear_keeps {s0 : State} {fn : Nat} {write : Nat × Nat} {s : State} (h0 : Keeps s0 s) :
    KeepsOut s0 (execWqEnableClear fn write s) := by
  unfold execWqEnableClear
  try dsimp only
  repeat' (first | with_reducible assumption | (intro _; try dsimp only) | with_reducible apply State.quiesceWq_keeps
                 | with_reducible apply State.expert_keeps | with_reducible apply run_keeps | with_reducible apply keepsOut_next
                 | (simp only [keeps_mk]; with_reducible refine Keeps.fold ?_) | with_reducible apply keeps_ite)

theorem execWqEnableSet_keeps {s0 : State} {fn : Nat} {write : Nat × Nat} {s : State} (h0 : Keeps s0 s) :
    KeepsOut s0 (execWqEnableSet fn write s) := by
  unfold execWqEnableSet
  try dsimp only
  repeat' (first | with_reducible assumption | (intro _; try dsimp only) | with_reducible apply State.resumeWq_keeps
                 | with_reducible apply State.expertDrop_keeps | with_reducible apply State.expert_keeps
                 | with_reducible apply run_keeps | with_reducible apply keepsOut_next
                 | (simp only [keeps_mk]; with_reducible refine Keeps.fold ?_) | with_reducible apply keeps_ite
                 | (split <;> try dsimp only) | with_reducible refine keeps_of_pair (by assumption) ?_
                 | with_reducible refine keeps_of_triple (by assumption) ?_ | with_reducible refine keeps_of_some (by assumption) ?_
                 | with_reducible refine keeps_of_some2 (by assumption) ?_)

theorem execWqDoorbell_keeps {s0 : State} {fn n value : Nat} {s : State} (h0 : Keeps s0 s) :
    KeepsOut s0 (execWqDoorbell fn n value s) := by
  unfold execWqDoorbell
  repeat' (first | with_reducible assumption | (intro _; try dsimp only) | with_reducible apply mmio_keeps
                 | with_reducible apply State.doorbell_keeps | with_reducible apply keepsOut_next)

theorem execDoorbellHighDwordWrite_keeps {s0 : State} {fn : Nat} {bell : Nat × Nat} {s : State} (h0 : Keeps s0 s) :
    KeepsOut s0 (execDoorbellHighDwordWrite fn bell s) := by
  unfold execDoorbellHighDwordWrite
  try dsimp only
  repeat' (first | with_reducible assumption | (intro _; try dsimp only) | with_reducible apply State.bellDropped_keeps
                 | with_reducible apply State.accessLog_keeps | with_reducible apply mmio_keeps | with_reducible apply keepsOut_next
                 | (simp only [keeps_mk]; with_reducible refine Keeps.fold ?_) | with_reducible apply keeps_ite
                 | (split <;> try dsimp only) | with_reducible refine keeps_of_pair (by assumption) ?_
                 | with_reducible refine keeps_of_some (by assumption) ?_ | with_reducible refine keeps_of_some2 (by assumption) ?_)

theorem execCqConsumerUpdate_keeps {s0 : State} {fn n value : Nat} {s : State} (h0 : Keeps s0 s) :
    KeepsOut s0 (execCqConsumerUpdate fn n value s) := by
  unfold execCqConsumerUpdate
  repeat' (first | with_reducible assumption | (intro _; try dsimp only) | with_reducible apply mmio_keeps
                 | with_reducible apply State.doorbell_keeps | with_reducible apply keepsOut_next)

theorem execCqArm_keeps {s0 : State} {fn n value : Nat} {s : State} (h0 : Keeps s0 s) :
    KeepsOut s0 (execCqArm fn n value s) := by
  unfold execCqArm
  repeat' (first | with_reducible assumption | (intro _; try dsimp only) | with_reducible apply mmio_keeps
                 | with_reducible apply State.doorbell_keeps | with_reducible apply keepsOut_next)

theorem execCqArmSolicited_keeps {s0 : State} {fn n value : Nat} {s : State} (h0 : Keeps s0 s) :
    KeepsOut s0 (execCqArmSolicited fn n value s) := by
  unfold execCqArmSolicited
  repeat' (first | with_reducible assumption | (intro _; try dsimp only) | with_reducible apply mmio_keeps
                 | with_reducible apply State.doorbell_keeps | with_reducible apply keepsOut_next)

theorem execCqFullWaitExpiry_keeps {s0 : State} {c : Nat} {s : State} (h0 : Keeps s0 s) :
    KeepsOut s0 (execCqFullWaitExpiry c s) := by
  unfold execCqFullWaitExpiry
  try dsimp only
  repeat' (first | with_reducible assumption | (intro _; try dsimp only) | with_reducible apply run_keeps
                 | with_reducible apply State.cqFail_keeps | with_reducible apply keepsOut_next
                 | (simp only [keeps_mk]; with_reducible refine Keeps.fold ?_) | with_reducible apply keeps_ite
                 | (split <;> try dsimp only) | with_reducible refine keeps_of_pair (by assumption) ?_
                 | with_reducible refine keeps_of_triple (by assumption) ?_ | with_reducible refine keeps_of_some (by assumption) ?_
                 | with_reducible refine keeps_of_some2 (by assumption) ?_)

theorem execLqConsumerWrite_keeps {s0 : State} {fn n index : Nat} {s : State} (h0 : Keeps s0 s) :
    KeepsOut s0 (execLqConsumerWrite fn n index s) := by
  unfold execLqConsumerWrite
  try dsimp only
  repeat' (first | with_reducible assumption | (intro _; try dsimp only) | with_reducible apply mmio_keeps
                 | with_reducible apply State.ownLq_keeps | with_reducible apply State.lqDrain_keeps
                 | with_reducible apply State.setLq_keeps | with_reducible apply State.setFlag_keeps | with_reducible apply keepsOut_next
                 | (simp only [keeps_mk]; with_reducible refine Keeps.fold ?_) | with_reducible apply keeps_ite
                 | (split <;> try dsimp only))

theorem execLqArm_keeps {s0 : State} {fn n : Nat} {s : State} (h0 : Keeps s0 s) :
    KeepsOut s0 (execLqArm fn n s) := by
  unfold execLqArm
  try dsimp only
  repeat' (first | with_reducible assumption | (intro _; try dsimp only) | with_reducible apply mmio_keeps
                 | with_reducible apply State.ownLq_keeps | with_reducible apply State.setLq_keeps
                 | with_reducible apply State.lqSignal_keeps | with_reducible apply keepsOut_next
                 | (simp only [keeps_mk]; with_reducible refine Keeps.fold ?_) | with_reducible apply keeps_ite
                 | (split <;> try dsimp only))

theorem execLqLostClear_keeps {s0 : State} {fn n : Nat} {s : State} (h0 : Keeps s0 s) :
    KeepsOut s0 (execLqLostClear fn n s) := by
  unfold execLqLostClear
  try dsimp only
  repeat' (first | with_reducible assumption | (intro _; try dsimp only) | with_reducible apply mmio_keeps
                 | with_reducible apply State.ownLq_keeps | with_reducible apply State.setLq_keeps | with_reducible apply keepsOut_next
                 | (simp only [keeps_mk]; with_reducible refine Keeps.fold ?_))

theorem execDescriptorFetch_keeps {s0 : State} {n : Nat} {s : State} (h0 : Keeps s0 s) :
    KeepsOut s0 (execDescriptorFetch n s) := by
  unfold execDescriptorFetch
  try dsimp only
  repeat' (first | with_reducible assumption | (intro _; try dsimp only) | with_reducible apply State.fetchWq_keeps
                 | with_reducible apply run_keeps | with_reducible apply keepsOut_next
                 | (simp only [keeps_mk]; with_reducible refine Keeps.fold ?_) | with_reducible apply keeps_ite
                 | (split <;> try dsimp only) | with_reducible refine keeps_of_pair (by assumption) ?_
                 | with_reducible refine keeps_of_some (by assumption) ?_ | with_reducible refine keeps_of_some2 (by assumption) ?_)

theorem execDescriptorArrival_keeps {s0 : State} {n : Nat} {s : State} (h0 : Keeps s0 s) :
    KeepsOut s0 (execDescriptorArrival n s) := by
  unfold execDescriptorArrival
  repeat' (first | with_reducible assumption | (intro _; try dsimp only) | with_reducible apply run_keeps
                 | with_reducible apply State.judge_keeps | with_reducible apply State.drained_keeps | with_reducible apply keepsOut_next)

end Sys2Proof.Machine
end

