-- ==== Sys2Proof/Laws/KeepSchedRows.lean ====
section
/-!
SUPPORT. What the operations of Machine/SchedRows.lean keep.
-/

namespace Sys2Proof.Machine

set_option linter.unusedTactic false
set_option linter.unreachableTactic false
set_option linter.unusedVariables false

theorem passTime_keeps {s0 : State} {s : State} (h0 : Keeps s0 s) :
    KeepsOut s0 (passTime s) := by
  unfold passTime
  try dsimp only
  repeat' (first | with_reducible assumption | (intro _; try dsimp only) | with_reducible apply runAlways_keeps
                 | with_reducible apply State.clock_keeps | with_reducible apply keepsOut_next
                 | (simp only [keeps_mk]; with_reducible refine Keeps.fold ?_) | with_reducible apply keeps_ite)

theorem State.loadGates_keeps {s0 : State} {s : State} {g n base : Nat} {b : Bytes} (h0 : Keeps s0 s) :
    KeepsAdm s0 (State.loadGates s g n base b) := by
  unfold State.loadGates
  try dsimp only
  repeat' (first | with_reducible assumption | (intro _; try dsimp only) | with_reducible apply State.gateSwitch_keeps
                 | with_reducible apply State.reply_keeps | with_reducible apply State.setGates_keeps | with_reducible apply keepsAdm_ok
                 | with_reducible apply keepsAdm_fail | with_reducible apply keepsAdm_reply
                 | (simp only [keeps_mk]; with_reducible refine Keeps.fold ?_) | with_reducible apply keeps_ite
                 | (split <;> try dsimp only))

theorem execSetGateList_keeps {s0 : State} {p k : Nat} {s : State} (h0 : Keeps s0 s) :
    KeepsOut s0 (execSetGateList p k s) := by
  unfold execSetGateList
  try dsimp only
  repeat' (first | with_reducible assumption | (intro _; try dsimp only) | with_reducible apply run_keeps
                 | with_reducible apply State.adminRun_keeps | with_reducible apply State.admRead_keeps
                 | with_reducible apply State.loadGates_keeps | with_reducible apply keepsAdm_fail | with_reducible apply keepsAdm_field
                 | with_reducible apply keepsAdm_wait | with_reducible apply keepsOut_next
                 | (simp only [keeps_mk]; with_reducible refine Keeps.fold ?_) | with_reducible apply keeps_ite
                 | (split <;> try dsimp only) | with_reducible refine keeps_of_pair (by assumption) ?_
                 | with_reducible refine keeps_of_triple (by assumption) ?_ | with_reducible refine keeps_of_some (by assumption) ?_
                 | with_reducible refine keeps_of_some2 (by assumption) ?_)

theorem execGateSwitch_keeps {s0 : State} {group : Nat} {s : State} (h0 : Keeps s0 s) :
    KeepsOut s0 (execGateSwitch group s) := by
  unfold execGateSwitch
  repeat' (first | with_reducible assumption | (intro _; try dsimp only) | with_reducible apply run_keeps
                 | with_reducible apply State.gateSwitch_keeps | with_reducible apply keepsOut_next)

theorem execSetClassQuanta_keeps {s0 : State} {p k : Nat} {s : State} (h0 : Keeps s0 s) :
    KeepsOut s0 (execSetClassQuanta p k s) := by
  unfold execSetClassQuanta
  try dsimp only
  repeat' (first | with_reducible assumption | (intro _; try dsimp only) | with_reducible apply run_keeps
                 | with_reducible apply State.adminRun_keeps | with_reducible apply State.setReg_keeps
                 | with_reducible apply State.setCom_keeps | with_reducible apply keepsAdm_ok | with_reducible apply keepsAdm_fail
                 | with_reducible apply keepsAdm_field | with_reducible apply keepsOpt_map | with_reducible apply keepsOpt2_mapPair
                 | with_reducible apply keepsOpt2_map | with_reducible apply keepsOut_next | with_reducible apply keeps_foldl
                 | with_reducible apply keeps_foldl_pair | with_reducible apply keeps_foldl_triple | with_reducible apply keeps_getD
                 | with_reducible apply keeps_ite | (split <;> try dsimp only))

theorem execFrameStart_keeps {s0 : State} {group link : Nat} {s : State} (h0 : Keeps s0 s) :
    KeepsOut s0 (execFrameStart group link s) := by
  unfold execFrameStart
  repeat' (first | with_reducible assumption | (intro _; try dsimp only) | with_reducible apply run_keeps
                 | with_reducible apply State.frameStart_keeps | with_reducible apply keepsOut_next)

theorem execTxUnderrun_keeps {s0 : State} {group link : Nat} {s : State} (h0 : Keeps s0 s) :
    KeepsOut s0 (execTxUnderrun group link s) := by
  unfold execTxUnderrun
  repeat' (first | with_reducible assumption | (intro _; try dsimp only) | with_reducible apply run_keeps
                 | with_reducible apply State.underrun_keeps | with_reducible apply keepsOut_next)

theorem execQueueSamplePeriod_keeps {s0 : State} {s : State} (h0 : Keeps s0 s) :
    KeepsOut s0 (execQueueSamplePeriod s) := by
  unfold execQueueSamplePeriod
  repeat' (first | with_reducible assumption | (intro _; try dsimp only) | with_reducible apply run_keeps
                 | with_reducible apply State.samplePeriod_keeps | with_reducible apply keepsOut_next)

theorem execSchCommit_keeps {s0 : State} {fn : Nat} {s : State} (h0 : Keeps s0 s) :
    KeepsOut s0 (execSchCommit fn s) := by
  unfold execSchCommit
  try dsimp only
  repeat' (first | with_reducible assumption | (intro _; try dsimp only) | with_reducible apply State.setFlag_keeps
                 | with_reducible apply State.commit_keeps | with_reducible apply run_keeps
                 | with_reducible apply State.fillAll_keeps | with_reducible apply keepsOut_next | with_reducible apply keepsOpt_map
                 | with_reducible apply keepsOpt2_mapPair | with_reducible apply keepsOpt2_map
                 | (simp only [keeps_mk]; with_reducible refine Keeps.fold ?_) | with_reducible apply keeps_ite)

theorem execRtrCommit_keeps {s0 : State} {fn : Nat} {s : State} (h0 : Keeps s0 s) :
    KeepsOut s0 (execRtrCommit fn s) := by
  unfold execRtrCommit
  repeat' (first | with_reducible assumption | (intro _; try dsimp only) | with_reducible apply run_keeps
                 | with_reducible apply State.commit_keeps | with_reducible apply State.setFlag_keeps | with_reducible apply keepsOut_next)

theorem execRtrClearWatermarks_keeps {s0 : State} {fn : Nat} {s : State} (h0 : Keeps s0 s) :
    KeepsOut s0 (execRtrClearWatermarks fn s) := by
  unfold execRtrClearWatermarks
  try dsimp only
  repeat' (first | with_reducible assumption | (intro _; try dsimp only) | with_reducible apply run_keeps
                 | with_reducible apply State.expert_keeps | with_reducible apply keepsOpt_map | with_reducible apply keepsOpt2_mapPair
                 | with_reducible apply keepsOpt2_map | with_reducible apply keepsOut_next
                 | (simp only [keeps_mk]; with_reducible refine Keeps.fold ?_))

theorem execSetCadence_keeps {s0 : State} {p k : Nat} {s : State} (h0 : Keeps s0 s) :
    KeepsOut s0 (execSetCadence p k s) := by
  unfold execSetCadence
  try dsimp only
  repeat' (first | with_reducible assumption | (intro _; try dsimp only) | with_reducible apply run_keeps
                 | with_reducible apply State.adminRun_keeps | with_reducible apply State.wickReindex_keeps
                 | with_reducible apply keepsAdm_ok | with_reducible apply keepsAdm_fail | with_reducible apply keepsAdm_field
                 | with_reducible exact keepsOpt_none | with_reducible exact keepsOpt2_none | with_reducible apply keepsOpt_some
                 | with_reducible apply keepsOpt2_some | with_reducible apply keepsOut_next
                 | (simp only [keeps_mk]; with_reducible refine Keeps.fold ?_) | with_reducible apply keeps_ite
                 | (split <;> try dsimp only) | with_reducible refine keeps_of_pair (by assumption) ?_
                 | with_reducible refine keeps_of_triple (by assumption) ?_ | with_reducible refine keeps_of_some (by assumption) ?_
                 | with_reducible refine keeps_of_some2 (by assumption) ?_)

theorem execCadenceBoundary_keeps {s0 : State} {partition : Nat} {s : State} (h0 : Keeps s0 s) :
    KeepsOut s0 (execCadenceBoundary partition s) := by
  unfold execCadenceBoundary
  repeat' (first | with_reducible assumption | (intro _; try dsimp only) | with_reducible apply run_keeps
                 | with_reducible apply State.cadenceBoundary_keeps | with_reducible apply keepsOut_next)

theorem State.countBoundary_keeps {s0 : State} {s : State} (h0 : Keeps s0 s) :
    Keeps s0 (State.countBoundary s) := by
  unfold State.countBoundary
  try dsimp only
  repeat' (first | with_reducible assumption | (intro _; try dsimp only) | with_reducible apply State.wickBoundaries_keeps
                 | with_reducible exact keepsOpt_none | with_reducible exact keepsOpt2_none | with_reducible apply keepsOpt_some
                 | with_reducible apply keepsOpt2_some | (simp only [keeps_mk]; with_reducible refine Keeps.fold ?_)
                 | with_reducible apply keeps_ite | (split <;> try dsimp only)
                 | with_reducible refine keeps_of_pair (by assumption) ?_ | with_reducible refine keeps_of_some (by assumption) ?_
                 | with_reducible refine keeps_of_some2 (by assumption) ?_)

theorem execCountEpochBoundary_keeps {s0 : State} {s : State} (h0 : Keeps s0 s) :
    KeepsOut s0 (execCountEpochBoundary s) := by
  unfold execCountEpochBoundary
  try dsimp only
  repeat' (first | with_reducible assumption | (intro _; try dsimp only) | with_reducible apply run_keeps
                 | with_reducible apply State.countBoundary_keeps | with_reducible apply keepsOut_next
                 | (simp only [keeps_mk]; with_reducible refine Keeps.fold ?_) | with_reducible apply keeps_ite)

theorem execPpsEdge_keeps {s0 : State} {s : State} (h0 : Keeps s0 s) :
    KeepsOut s0 (execPpsEdge s) := by
  unfold execPpsEdge
  repeat' (first | with_reducible assumption | (intro _; try dsimp only) | with_reducible apply run_keeps
                 | with_reducible apply State.ppsEdge_keeps | with_reducible apply keepsOut_next)

theorem execTodMessage_keeps {s0 : State} {data : Bytes} {s : State} (h0 : Keeps s0 s) :
    KeepsOut s0 (execTodMessage data s) := by
  unfold execTodMessage
  repeat' (first | with_reducible assumption | (intro _; try dsimp only) | with_reducible apply run_keeps
                 | with_reducible apply State.todIn_keeps | with_reducible apply keepsOut_next)

theorem execPpsSourceLost_keeps {s0 : State} {s : State} (h0 : Keeps s0 s) :
    KeepsOut s0 (execPpsSourceLost s) := by
  unfold execPpsSourceLost
  repeat' (first | with_reducible assumption | (intro _; try dsimp only) | with_reducible apply run_keeps
                 | with_reducible apply State.ppsLost_keeps | with_reducible apply keepsOut_next)

theorem execSyncSend_keeps {s0 : State} {s : State} (h0 : Keeps s0 s) :
    KeepsOut s0 (execSyncSend s) := by
  unfold execSyncSend
  repeat' (first | with_reducible assumption | (intro _; try dsimp only) | with_reducible apply run_keeps
                 | with_reducible apply State.syncSend_keeps | with_reducible apply keepsOut_next)

theorem execParentSyncLost_keeps {s0 : State} {s : State} (h0 : Keeps s0 s) :
    KeepsOut s0 (execParentSyncLost s) := by
  unfold execParentSyncLost
  repeat' (first | with_reducible assumption | (intro _; try dsimp only) | with_reducible apply run_keeps
                 | with_reducible apply State.parentLost_keeps | with_reducible apply keepsOut_next)

theorem execPtpSync_keeps {s0 : State} {group link : Nat} {data : Bytes} {s : State} (h0 : Keeps s0 s) :
    KeepsOut s0 (execPtpSync group link data s) := by
  unfold execPtpSync
  repeat' (first | with_reducible assumption | (intro _; try dsimp only) | with_reducible apply run_keeps
                 | with_reducible apply State.frameIn_keeps | with_reducible apply keepsOut_next | with_reducible apply keeps_ite
                 | (split <;> try dsimp only))

theorem execPtpPdelayReq_keeps {s0 : State} {group link : Nat} {data : Bytes} {s : State} (h0 : Keeps s0 s) :
    KeepsOut s0 (execPtpPdelayReq group link data s) := by
  unfold execPtpPdelayReq
  repeat' (first | with_reducible assumption | (intro _; try dsimp only) | with_reducible apply run_keeps
                 | with_reducible apply State.frameIn_keeps | with_reducible apply keepsOut_next | with_reducible apply keeps_ite
                 | (split <;> try dsimp only))

theorem execPtpPdelayResp_keeps {s0 : State} {group link : Nat} {data : Bytes} {s : State} (h0 : Keeps s0 s) :
    KeepsOut s0 (execPtpPdelayResp group link data s) := by
  unfold execPtpPdelayResp
  repeat' (first | with_reducible assumption | (intro _; try dsimp only) | with_reducible apply run_keeps
                 | with_reducible apply State.frameIn_keeps | with_reducible apply keepsOut_next | with_reducible apply keeps_ite
                 | (split <;> try dsimp only))

theorem execSchHallTimeLatchRead_keeps {s0 : State} {fn : Nat} {s : State} (h0 : Keeps s0 s) :
    KeepsOut s0 (execSchHallTimeLatchRead fn s) := by
  unfold execSchHallTimeLatchRead
  try dsimp only
  repeat' (first | with_reducible assumption | (intro _; try dsimp only) | with_reducible apply mmio_keeps
                 | with_reducible apply State.emit_keeps | with_reducible apply keepsOut_next
                 | (simp only [keeps_mk]; with_reducible refine Keeps.fold ?_) | with_reducible apply keeps_ite
                 | (split <;> try dsimp only))

end Sys2Proof.Machine
end

