-- ==== Sys2Proof/Laws/KeepServiceRows.lean ====
section
/-!
SUPPORT. What the operations of Machine/ServiceRows.lean keep.
-/

namespace Sys2Proof.Machine

set_option linter.unusedTactic false
set_option linter.unreachableTactic false
set_option linter.unusedVariables false

theorem execReadLifeLog_keeps {s0 : State} {p k : Nat} {s : State} (h0 : Keeps s0 s) :
    KeepsOut s0 (execReadLifeLog p k s) := by
  unfold execReadLifeLog
  try dsimp only
  repeat' (first | with_reducible assumption | (intro _; try dsimp only) | with_reducible apply run_keeps
                 | with_reducible apply State.adminRun_keeps | with_reducible apply State.admWrite_keeps
                 | with_reducible apply keepsAdm_ok | with_reducible apply keepsAdm_fail | with_reducible apply keepsOpt_map
                 | with_reducible apply keepsOpt2_mapPair | with_reducible apply keepsOpt2_map | with_reducible apply keepsOut_next
                 | with_reducible apply keeps_ite | (split <;> try dsimp only))

theorem execLifeLogHourly_keeps {s0 : State} {ok : Bool} {s : State} (h0 : Keeps s0 s) :
    KeepsOut s0 (execLifeLogHourly ok s) := by
  unfold execLifeLogHourly
  try dsimp only
  repeat' (first | with_reducible assumption | (intro _; try dsimp only) | with_reducible apply run_keeps
                 | with_reducible apply State.lifeCount_keeps | with_reducible apply State.setFlag_keeps
                 | with_reducible apply keepsOut_next | (simp only [keeps_mk]; with_reducible refine Keeps.fold ?_)
                 | with_reducible apply keeps_ite | (split <;> try dsimp only))

theorem execCalRead_keeps {s0 : State} {p k : Nat} {s : State} (h0 : Keeps s0 s) :
    KeepsOut s0 (execCalRead p k s) := by
  unfold execCalRead
  try dsimp only
  repeat' (first | with_reducible assumption | (intro _; try dsimp only) | with_reducible apply run_keeps
                 | with_reducible apply State.adminRun_keeps | with_reducible apply State.admWrite_keeps
                 | with_reducible apply keepsAdm_ok | with_reducible apply keepsAdm_fail | with_reducible apply keepsOut_next
                 | with_reducible apply keeps_getD | with_reducible apply keeps_ite | (split <;> try dsimp only))

theorem execCalWrite_keeps {s0 : State} {p k : Nat} {s : State} (h0 : Keeps s0 s) :
    KeepsOut s0 (execCalWrite p k s) := by
  unfold execCalWrite
  try dsimp only
  repeat' (first | with_reducible assumption | (intro _; try dsimp only) | with_reducible apply run_keeps
                 | with_reducible apply State.adminRun_keeps | with_reducible apply State.admRead_keeps
                 | with_reducible apply keepsAdm_fail | with_reducible apply keepsAdm_wait | with_reducible apply keepsOut_next
                 | (simp only [keeps_mk]; with_reducible refine Keeps.fold ?_) | with_reducible apply keeps_ite
                 | (split <;> try dsimp only) | with_reducible refine keeps_of_pair (by assumption) ?_
                 | with_reducible refine keeps_of_triple (by assumption) ?_ | with_reducible refine keeps_of_some (by assumption) ?_
                 | with_reducible refine keeps_of_some2 (by assumption) ?_)

theorem execSetDebugMux_keeps {s0 : State} {p k : Nat} {s : State} (h0 : Keeps s0 s) :
    KeepsOut s0 (execSetDebugMux p k s) := by
  unfold execSetDebugMux
  try dsimp only
  repeat' (first | with_reducible assumption | (intro _; try dsimp only) | with_reducible apply run_keeps
                 | with_reducible apply State.adminRun_keeps | with_reducible apply State.setCom_keeps
                 | with_reducible apply State.setReg_keeps | with_reducible apply keepsAdm_ok | with_reducible apply keepsAdm_fail
                 | with_reducible apply keepsAdm_field | with_reducible apply keepsOut_next | with_reducible apply keeps_ite
                 | (split <;> try dsimp only))

theorem execDbgCommit_keeps {s0 : State} {fn : Nat} {s : State} (h0 : Keeps s0 s) :
    KeepsOut s0 (execDbgCommit fn s) := by
  unfold execDbgCommit
  repeat' (first | with_reducible assumption | (intro _; try dsimp only) | with_reducible apply run_keeps
                 | with_reducible apply State.commit_keeps | with_reducible apply State.setFlag_keeps | with_reducible apply keepsOpt_map
                 | with_reducible apply keepsOpt2_mapPair | with_reducible apply keepsOpt2_map | with_reducible apply keepsOut_next)

theorem State.pressed_keeps {s0 : State} {s : State} {kind : Nat} {ms : Nat} (h0 : Keeps s0 s) :
    Keeps s0 (State.pressed s kind ms) := by
  unfold State.pressed
  try dsimp only
  repeat' (first | with_reducible assumption | (intro _; try dsimp only) | with_reducible apply State.raise_keeps
                 | with_reducible apply State.count_keeps | with_reducible apply State.bmc_keeps
                 | (simp only [keeps_mk]; with_reducible refine Keeps.fold ?_) | with_reducible apply keeps_ite)

theorem execServiceButtonShort_keeps {s0 : State} {ms : Nat} {s : State} (h0 : Keeps s0 s) :
    KeepsOut s0 (execServiceButtonShort ms s) := by
  unfold execServiceButtonShort
  repeat' (first | with_reducible assumption | (intro _; try dsimp only) | with_reducible apply run_keeps
                 | with_reducible apply State.pressed_keeps | with_reducible apply keepsOut_next | with_reducible apply keeps_ite
                 | (split <;> try dsimp only))

theorem execServiceButtonLong_keeps {s0 : State} {s : State} (h0 : Keeps s0 s) :
    KeepsOut s0 (execServiceButtonLong s) := by
  unfold execServiceButtonLong
  repeat' (first | with_reducible assumption | (intro _; try dsimp only) | with_reducible apply run_keeps
                 | with_reducible apply State.pressed_keeps | with_reducible apply keepsOut_next)

theorem State.pldmAnswer_keeps {s0 : State} {s : State} {typ cmd : Nat} {data : Bytes} (h0 : Keeps s0 s) :
    Keeps s0 (State.pldmAnswer s typ cmd data) := by
  unfold State.pldmAnswer
  repeat' (first | with_reducible assumption | with_reducible apply State.emit_keeps)

theorem State.unsupported_keeps {s0 : State} {s : State} {typ cmd : Nat} (h0 : Keeps s0 s) :
    Keeps s0 (State.unsupported s typ cmd) := by
  unfold State.unsupported
  repeat' (first | with_reducible assumption | with_reducible apply State.pldmAnswer_keeps)

theorem State.pldmRun_keeps {s0 : State} {s : State} {typ cmd : Nat} {f : State → State} (h0 : Keeps s0 s) (h1 : ∀ t, Keeps s0 t → Keeps s0 (f t)) :
    Keeps s0 (State.pldmRun s typ cmd f) := by
  unfold State.pldmRun
  repeat' (first | with_reducible assumption | (intro _; try dsimp only) | with_reducible apply h1
                 | with_reducible apply State.unsupported_keeps | with_reducible apply keeps_ite | (split <;> try dsimp only))

theorem State.pldmPower_keeps {s0 : State} {s : State} {f : State → State} (h0 : Keeps s0 s) (h1 : ∀ t, Keeps s0 t → Keeps s0 (f t)) :
    Keeps s0 (State.pldmPower s f) := by
  unfold State.pldmPower
  try dsimp only
  repeat' (first | with_reducible assumption | (intro _; try dsimp only) | (with_reducible apply h1)
                 | with_reducible apply State.unsupported_keeps | with_reducible exact keepsOpt_none
                 | with_reducible exact keepsOpt2_none | with_reducible apply keepsOpt_some | with_reducible apply keepsOpt2_some
                 | (simp only [keeps_mk]; with_reducible refine Keeps.fold ?_) | with_reducible apply keeps_ite
                 | (split <;> try dsimp only) | with_reducible refine keeps_of_pair (by assumption) ?_
                 | with_reducible refine keeps_of_some (by assumption) ?_ | with_reducible refine keeps_of_some2 (by assumption) ?_)

theorem execGetTid_keeps {s0 : State} {s : State} (h0 : Keeps s0 s) :
    KeepsOut s0 (execGetTid s) := by
  unfold execGetTid
  repeat' (first | with_reducible assumption | (intro _; try dsimp only) | with_reducible apply run_keeps
                 | with_reducible apply State.pldmRun_keeps | with_reducible apply State.pldmAnswer_keeps
                 | with_reducible apply keepsOut_next)

theorem execGetPldmVersion_keeps {s0 : State} {typ : Nat} {s : State} (h0 : Keeps s0 s) :
    KeepsOut s0 (execGetPldmVersion typ s) := by
  unfold execGetPldmVersion
  repeat' (first | with_reducible assumption | (intro _; try dsimp only) | with_reducible apply run_keeps
                 | with_reducible apply State.pldmRun_keeps | with_reducible apply State.pldmAnswer_keeps
                 | with_reducible apply keepsOut_next | with_reducible apply keeps_ite | (split <;> try dsimp only))

theorem execGetPldmTypes_keeps {s0 : State} {s : State} (h0 : Keeps s0 s) :
    KeepsOut s0 (execGetPldmTypes s) := by
  unfold execGetPldmTypes
  repeat' (first | with_reducible assumption | (intro _; try dsimp only) | with_reducible apply run_keeps
                 | with_reducible apply State.pldmRun_keeps | with_reducible apply State.pldmAnswer_keeps
                 | with_reducible apply keepsOut_next)

theorem execGetPldmCommands_keeps {s0 : State} {typ : Nat} {s : State} (h0 : Keeps s0 s) :
    KeepsOut s0 (execGetPldmCommands typ s) := by
  unfold execGetPldmCommands
  repeat' (first | with_reducible assumption | (intro _; try dsimp only) | with_reducible apply run_keeps
                 | with_reducible apply State.pldmRun_keeps | with_reducible apply State.pldmAnswer_keeps
                 | with_reducible apply keepsOut_next | with_reducible apply keeps_ite | (split <;> try dsimp only))

theorem execGetPdrRepositoryInfo_keeps {s0 : State} {s : State} (h0 : Keeps s0 s) :
    KeepsOut s0 (execGetPdrRepositoryInfo s) := by
  unfold execGetPdrRepositoryInfo
  repeat' (first | with_reducible assumption | (intro _; try dsimp only) | with_reducible apply run_keeps
                 | with_reducible apply State.pldmRun_keeps | with_reducible apply State.drawn_keeps
                 | with_reducible apply State.pldmAnswer_keeps | with_reducible apply keepsOut_next)

theorem execGetPdr_keeps {s0 : State} {record : Nat} {s : State} (h0 : Keeps s0 s) :
    KeepsOut s0 (execGetPdr record s) := by
  unfold execGetPdr
  repeat' (first | with_reducible assumption | (intro _; try dsimp only) | with_reducible apply run_keeps
                 | with_reducible apply State.pldmRun_keeps | with_reducible apply State.drawn_keeps
                 | with_reducible apply State.pldmAnswer_keeps | with_reducible apply keepsOut_next)

theorem execGetSensorReading_keeps {s0 : State} {sensor : Nat} {s : State} (h0 : Keeps s0 s) :
    KeepsOut s0 (execGetSensorReading sensor s) := by
  unfold execGetSensorReading
  try dsimp only
  repeat' (first | with_reducible assumption | (intro _; try dsimp only) | with_reducible apply run_keeps
                 | with_reducible apply State.pldmRun_keeps | with_reducible apply State.pldmAnswer_keeps
                 | with_reducible apply keepsOut_next | with_reducible apply keeps_ite | (split <;> try dsimp only))

theorem execGetStateEffecterStates_keeps {s0 : State} {effecter : Nat} {s : State} (h0 : Keeps s0 s) :
    KeepsOut s0 (execGetStateEffecterStates effecter s) := by
  unfold execGetStateEffecterStates
  repeat' (first | with_reducible assumption | (intro _; try dsimp only) | with_reducible apply run_keeps
                 | with_reducible apply State.pldmRun_keeps | with_reducible apply State.pldmAnswer_keeps
                 | with_reducible apply keepsOut_next | with_reducible apply keeps_ite | (split <;> try dsimp only))

theorem execModulePowerOn_keeps {s0 : State} {s : State} (h0 : Keeps s0 s) :
    KeepsOut s0 (execModulePowerOn s) := by
  unfold execModulePowerOn
  try dsimp only
  repeat' (first | with_reducible assumption | (intro _; try dsimp only) | with_reducible apply State.setPwr_keeps
                 | with_reducible apply runAlways_keeps | with_reducible apply State.pldmAnswer_keeps
                 | with_reducible apply State.pldmPower_keeps | with_reducible apply keepsOut_next
                 | (simp only [keeps_mk]; with_reducible refine Keeps.fold ?_) | with_reducible apply keeps_ite
                 | (split <;> try dsimp only) | with_reducible refine keeps_of_pair (by assumption) ?_
                 | with_reducible refine keeps_of_some (by assumption) ?_ | with_reducible refine keeps_of_some2 (by assumption) ?_)

theorem execModulePowerOff_keeps {s0 : State} {s : State} (h0 : Keeps s0 s) :
    KeepsOut s0 (execModulePowerOff s) := by
  unfold execModulePowerOff
  try dsimp only
  repeat' (first | with_reducible assumption | (intro _; try dsimp only) | with_reducible apply State.finish_keeps
                 | with_reducible apply run_keeps | with_reducible apply State.shutDown_keeps
                 | with_reducible apply State.pldmAnswer_keeps | with_reducible apply State.pldmPower_keeps
                 | with_reducible apply keepsOut_next | (simp only [keeps_mk]; with_reducible refine Keeps.fold ?_)
                 | with_reducible apply keeps_ite)

theorem execModulePowerReset_keeps {s0 : State} {burn : Bool} {s : State} (h0 : Keeps s0 s) :
    KeepsOut s0 (execModulePowerReset burn s) := by
  unfold execModulePowerReset
  try dsimp only
  repeat' (first | with_reducible assumption | (intro _; try dsimp only) | with_reducible apply run_keeps
                 | with_reducible apply State.moduleReset_keeps | with_reducible apply State.pldmAnswer_keeps
                 | with_reducible apply State.pldmPower_keeps | with_reducible apply keepsOut_next
                 | (simp only [keeps_mk]; with_reducible refine Keeps.fold ?_) | with_reducible apply keeps_ite)

theorem execLocateEffecterSet_keeps {s0 : State} {lit : Bool} {s : State} (h0 : Keeps s0 s) :
    KeepsOut s0 (execLocateEffecterSet lit s) := by
  unfold execLocateEffecterSet
  try dsimp only
  repeat' (first | with_reducible assumption | (intro _; try dsimp only) | with_reducible apply run_keeps
                 | with_reducible apply State.pldmRun_keeps | with_reducible apply State.pldmAnswer_keeps
                 | with_reducible apply keepsOut_next | (simp only [keeps_mk]; with_reducible refine Keeps.fold ?_))

theorem execSetNumericEffecterValue_keeps {s0 : State} {value : Nat} {s : State} (h0 : Keeps s0 s) :
    KeepsOut s0 (execSetNumericEffecterValue value s) := by
  unfold execSetNumericEffecterValue
  repeat' (first | with_reducible assumption | (intro _; try dsimp only) | with_reducible apply run_keeps
                 | with_reducible apply State.pldmRun_keeps | with_reducible apply State.pldmAnswer_keeps
                 | with_reducible apply State.setCap_keeps | with_reducible apply keepsOut_next | with_reducible apply keeps_ite
                 | (split <;> try dsimp only))

theorem execGetNumericEffecterValue_keeps {s0 : State} {s : State} (h0 : Keeps s0 s) :
    KeepsOut s0 (execGetNumericEffecterValue s) := by
  unfold execGetNumericEffecterValue
  repeat' (first | with_reducible assumption | (intro _; try dsimp only) | with_reducible apply run_keeps
                 | with_reducible apply State.pldmRun_keeps | with_reducible apply State.pldmAnswer_keeps
                 | with_reducible apply keepsOut_next)

theorem execUnsupportedPldmCommand_keeps {s0 : State} {typ : Nat} {cmd : Nat} {s : State} (h0 : Keeps s0 s) :
    KeepsOut s0 (execUnsupportedPldmCommand typ cmd s) := by
  unfold execUnsupportedPldmCommand
  try dsimp only
  repeat' (first | with_reducible assumption | (intro _; try dsimp only) | with_reducible apply run_keeps
                 | with_reducible apply State.unsupported_keeps | with_reducible apply State.pldmRun_keeps
                 | with_reducible apply keepsOut_next | (simp only [keeps_mk]; with_reducible refine Keeps.fold ?_)
                 | with_reducible apply keeps_ite | (split <;> try dsimp only)
                 | with_reducible refine keeps_of_pair (by assumption) ?_ | with_reducible refine keeps_of_some (by assumption) ?_
                 | with_reducible refine keeps_of_some2 (by assumption) ?_)

theorem State.recover_keeps {s0 : State} {s : State} {cmd : Nat} {steps : List Nat} {f : State → State} (h0 : Keeps s0 s) (h1 : ∀ t, Keeps s0 t → Keeps s0 (f t)) :
    Keeps s0 (State.recover s cmd steps f) := by
  unfold State.recover
  try dsimp only
  repeat' (first | with_reducible assumption | (intro _; try dsimp only) | (with_reducible apply h1)
                 | with_reducible apply State.pldmAnswer_keeps | with_reducible apply State.unsupported_keeps
                 | with_reducible apply State.pldmRun_keeps | (simp only [keeps_mk]; with_reducible refine Keeps.fold ?_)
                 | with_reducible apply keeps_ite | (split <;> try dsimp only)
                 | with_reducible refine keeps_of_pair (by assumption) ?_ | with_reducible refine keeps_of_some (by assumption) ?_
                 | with_reducible refine keeps_of_some2 (by assumption) ?_)

theorem State.updateStep_keeps {s0 : State} {s : State} {n : Nat} (h0 : Keeps s0 s) :
    Keeps s0 (State.updateStep s n) := by
  unfold State.updateStep
  try dsimp only
  repeat' (first | with_reducible assumption | (simp only [keeps_mk]; with_reducible refine Keeps.fold ?_))

theorem execRequestUpdate_keeps {s0 : State} {s : State} (h0 : Keeps s0 s) :
    KeepsOut s0 (execRequestUpdate s) := by
  unfold execRequestUpdate
  try dsimp only
  repeat' (first | with_reducible assumption | (intro _; try dsimp only) | with_reducible apply run_keeps
                 | with_reducible apply State.recover_keeps | with_reducible apply State.pldmAnswer_keeps
                 | with_reducible apply keepsOut_next | (simp only [keeps_mk]; with_reducible refine Keeps.fold ?_))

theorem execPassComponentTable_keeps {s0 : State} {s : State} (h0 : Keeps s0 s) :
    KeepsOut s0 (execPassComponentTable s) := by
  unfold execPassComponentTable
  repeat' (first | with_reducible assumption | (intro _; try dsimp only) | with_reducible apply run_keeps
                 | with_reducible apply State.recover_keeps | with_reducible apply State.updateStep_keeps
                 | with_reducible apply State.pldmAnswer_keeps | with_reducible apply keepsOut_next)

theorem execUpdateComponent_keeps {s0 : State} {s : State} (h0 : Keeps s0 s) :
    KeepsOut s0 (execUpdateComponent s) := by
  unfold execUpdateComponent
  repeat' (first | with_reducible assumption | (intro _; try dsimp only) | with_reducible apply run_keeps
                 | with_reducible apply State.recover_keeps | with_reducible apply State.updateStep_keeps
                 | with_reducible apply State.pldmAnswer_keeps | with_reducible apply keepsOut_next)

theorem execRequestFirmwareData_keeps {s0 : State} {data : Bytes} {s : State} (h0 : Keeps s0 s) :
    KeepsOut s0 (execRequestFirmwareData data s) := by
  unfold execRequestFirmwareData
  try dsimp only
  repeat' (first | with_reducible assumption | (intro _; try dsimp only) | with_reducible apply run_keeps
                 | with_reducible apply keepsOut_next | (simp only [keeps_mk]; with_reducible refine Keeps.fold ?_)
                 | with_reducible apply keeps_ite | (split <;> try dsimp only))

theorem execTransferComplete_keeps {s0 : State} {s : State} (h0 : Keeps s0 s) :
    KeepsOut s0 (execTransferComplete s) := by
  unfold execTransferComplete
  repeat' (first | with_reducible assumption | (intro _; try dsimp only) | with_reducible apply run_keeps
                 | with_reducible apply State.updateStep_keeps | with_reducible apply State.pldmAnswer_keeps
                 | with_reducible apply keepsOut_next | with_reducible apply keeps_ite | (split <;> try dsimp only))

theorem execVerifyComplete_keeps {s0 : State} {s : State} (h0 : Keeps s0 s) :
    KeepsOut s0 (execVerifyComplete s) := by
  unfold execVerifyComplete
  try dsimp only
  repeat' (first | with_reducible assumption | (intro _; try dsimp only) | with_reducible apply run_keeps
                 | with_reducible apply State.setBank_keeps | with_reducible apply State.updateStep_keeps
                 | with_reducible apply State.pldmAnswer_keeps | with_reducible apply keepsOut_next
                 | (simp only [keeps_mk]; with_reducible refine Keeps.fold ?_) | with_reducible apply keeps_ite
                 | (split <;> try dsimp only))

theorem execApplyComplete_keeps {s0 : State} {s : State} (h0 : Keeps s0 s) :
    KeepsOut s0 (execApplyComplete s) := by
  unfold execApplyComplete
  repeat' (first | with_reducible assumption | (intro _; try dsimp only) | with_reducible apply run_keeps
                 | with_reducible apply State.updateStep_keeps | with_reducible apply State.pldmAnswer_keeps
                 | with_reducible apply keepsOut_next | with_reducible apply keeps_ite | (split <;> try dsimp only))

theorem execActivateFirmware_keeps {s0 : State} {deadDies deadStacks engines : Nat} {burn : Bool} {s : State} (h0 : Keeps s0 s) :
    KeepsOut s0 (execActivateFirmware deadDies deadStacks engines burn s) := by
  unfold execActivateFirmware
  try dsimp only
  repeat' (first | with_reducible assumption | (intro _; try dsimp only) | with_reducible apply run_keeps
                 | with_reducible apply State.recover_keeps | with_reducible apply State.pldmAnswer_keeps
                 | with_reducible apply State.loadFirmware_keeps | with_reducible apply State.bootRest_keeps
                 | with_reducible apply keepsOut_next | (simp only [keeps_mk]; with_reducible refine Keeps.fold ?_)
                 | with_reducible apply keeps_ite | (split <;> try dsimp only))

end Sys2Proof.Machine
end

