-- ==== Sys2Proof/Laws/PerInstr.lean ====
section
/-!
SUPPORT. Laws of every command as syntax: the family `PortInRange`, with one lemma for each command.
-/

namespace Sys2Proof.Laws.PortInRange

/-- The host port that a command names, if it names one. -/
def port : Instr → Option Nat
  | .admCmdProducerWrite port _ => some port
  | .adminCommandFetch port => some port
  | .admCtrlEnableSet port _ => some port
  | .admCtrlEnableClear port _ => some port
  | .admReplyConsumerWrite port _ => some port
  | .unlistedAdminOpcode port _ => some port
  | .identify port _ => some port
  | .negotiateVersion port _ => some port
  | .getFeature port _ => some port
  | .setFeature port _ => some port
  | .expertUnlock port _ => some port
  | .expertLock port _ => some port
  | .createWorkQueue port _ => some port
  | .destroyWorkQueue port _ => some port
  | .createCompletionQueue port _ => some port
  | .destroyCompletionQueue port _ => some port
  | .createEventQueue port _ => some port
  | .destroyEventQueue port _ => some port
  | .quiesce port _ => some port
  | .resume port _ => some port
  | .quiesceWaitLimit port _ => some port
  | .snuffQueue port _ => some port
  | .createQp port _ => some port
  | .modifyQp port _ => some port
  | .queryQp port _ => some port
  | .destroyQp port _ => some port
  | .openSkylight port _ => some port
  | .revokeSkylight port _ => some port
  | .querySkylight port _ => some port
  | .mapPages port _ => some port
  | .unmapPages port _ => some port
  | .dirtyLogEnable port _ => some port
  | .dirtyLogSwitch port _ => some port
  | .dirtyLogDisable port _ => some port
  | .defineGroup port _ => some port
  | .releaseGroup port _ => some port
  | .setCollectivePolicy port _ => some port
  | .loadTransitProgram port _ => some port
  | .unloadTransitProgram port _ => some port
  | .allocateHallPages port _ => some port
  | .freeHallPages port _ => some port
  | .pinPages port _ => some port
  | .unpinPages port _ => some port
  | .pinProgram port _ => some port
  | .unpinProgram port _ => some port
  | .setPlacementPolicy port _ => some port
  | .createWickQueue port _ => some port
  | .destroyWickQueue port _ => some port
  | .defineBarrier port _ => some port
  | .setGateList port _ => some port
  | .setClassQuanta port _ => some port
  | .setCadence port _ => some port
  | .loadKey port _ => some port
  | .destroyKey port _ => some port
  | .createInstance port _ => some port
  | .destroyInstance port _ => some port
  | .resetInstance port _ => some port
  | .generationQuarantineEnd _ => none
  | .setInstanceShare port _ => some port
  | .powerHintCommand port _ => some port
  | .setPowerCap port _ => some port
  | .readLifeLog port _ => some port
  | .calRead port _ => some port
  | .calWrite port _ => some port
  | .setDebugMux port _ => some port
  | .firmwareStage port _ => some port
  | .firmwareActivateNextPowerOn port _ => some port
  | .firmwareActivateNow port _ => some port
  | .jobDomainCreate port _ => some port
  | .jobDomainFault port _ => some port
  | .snapshot port _ => some port
  | .wqDoorbell _ _ _ => none
  | .doorbellHighDwordWrite _ _ => none
  | .cqConsumerUpdate _ _ _ => none
  | .cqArm _ _ _ => none
  | .cqArmSolicited _ _ _ => none
  | .cqFullWaitExpiry _ => none
  | .descriptorFetch _ => none
  | .descriptorArrival _ => none
  | .lqConsumerWrite _ _ _ => none
  | .lqArm _ _ => none
  | .lqLostClear _ _ => none
  | .wqEnableClear _ _ => none
  | .wqEnableSet _ _ => none
  | .nop _ _ => none
  | .read _ _ => none
  | .write _ _ => none
  | .writeNotify _ _ => none
  | .atomicFadd _ _ => none
  | .atomicCas _ _ => none
  | .fence _ _ => none
  | .tokenProduce _ _ => none
  | .tokenConsume _ _ => none
  | .tokenBarrier _ _ => none
  | .tokenCadence _ _ => none
  | .tokenWaitTimeout _ _ => none
  | .chain _ _ => none
  | .chainListArrival _ _ => none
  | .powerHintDescriptor _ _ => none
  | .allReduce _ _ => none
  | .reduce _ _ => none
  | .reduceScatter _ _ => none
  | .allGather _ _ => none
  | .broadcast _ _ => none
  | .allToAll _ _ => none
  | .transit _ _ => none
  | .messageIssue _ _ _ => none
  | .contextFillReturn _ _ => none
  | .hostReadCompletion port _ _ _ => some port
  | .completionTimeout port _ => some port
  | .writeReq _ => none
  | .readReq _ => none
  | .atomicReq _ => none
  | .tokenReq _ => none
  | .forwardedRequest _ => none
  | .ack _ => none
  | .readResp _ => none
  | .atomicResp _ => none
  | .epochProbe _ => none
  | .epochNotice _ => none
  | .epochProbeTimeout _ => none
  | .epochTableAging _ => none
  | .congestion _ => none
  | .unknownTypePacket _ => none
  | .retransmitTimeout _ => none
  | .retryLimitTimeout _ => none
  | .ackDelayExpiry _ _ => none
  | .throttleTick => none
  | .collData _ => none
  | .groupSetup _ => none
  | .treeUp _ => none
  | .treeDown _ => none
  | .revokeDrainDone _ _ _ => none
  | .snapshotDrainDone _ => none
  | .treeUpRetry _ _ _ _ => none
  | .treeAckTimeout _ _ _ _ _ => none
  | .domainSetup _ => none
  | .domainReady _ => none
  | .transitLaunch _ => none
  | .transitCancel _ => none
  | .transitDone _ => none
  | .tileAllocation _ => none
  | .operatorChunkDone _ _ _ _ _ _ => none
  | .transitWaitTimeout _ _ => none
  | .transitPriorityPromotion _ _ => none
  | .trnCancelWrite _ _ _ => none
  | .heatDecay => none
  | .placePropose _ => none
  | .moveStart _ => none
  | .moveCopy _ => none
  | .moveDone _ => none
  | .moveEnd _ => none
  | .thatchHint _ => none
  | .collapseNote _ => none
  | .collapseDone _ => none
  | .forwardingEntryExpiry _ _ => none
  | .pinWaitRetry _ => none
  | .programExclusionExpiry _ _ => none
  | .cadenceBoundary _ => none
  | .countEpochBoundary => none
  | .gateSwitch _ => none
  | .frameStart _ _ => none
  | .queueSamplePeriod => none
  | .ppsEdge => none
  | .todMessage _ => none
  | .ppsSourceLost => none
  | .ptpSync _ _ _ => none
  | .ptpPdelayReq _ _ _ => none
  | .ptpPdelayResp _ _ _ => none
  | .syncSend => none
  | .parentSyncLost => none
  | .mailboxSend _ _ _ => none
  | .mailboxReceive _ _ => none
  | .frameReceive _ _ _ _ _ => none
  | .pauseExpiry _ _ _ => none
  | .pauseRefresh _ _ _ => none
  | .txUnderrun _ _ => none
  | .opticalPowerStable _ _ => none
  | .linkLock _ _ => none
  | .trainingStepTimeout _ _ => none
  | .hello _ _ _ => none
  | .helloSend _ _ => none
  | .helloLost _ _ => none
  | .signalLost _ _ _ => none
  | .alignLost _ _ => none
  | .fecDegrade _ _ _ => none
  | .heldLinkRetry _ _ => none
  | .lpiIdleExpiry _ => none
  | .lpiWake _ => none
  | .wakeTimeout _ => none
  | .connectorOpen _ => none
  | .connectorClose _ => none
  | .connectorDebounce _ => none
  | .lnkGroupEnableClear _ _ _ => none
  | .lnkGroupEnableSet _ _ _ => none
  | .lnkGroupRetrain _ _ _ => none
  | .lpiEnableWrite _ _ _ => none
  | .lnkLinkDisable _ _ _ => none
  | .lnkLinkEnable _ _ _ => none
  | .lnkLinkRetrain _ _ _ _ => none
  | .txThresholdRestore _ _ _ => none
  | .xltCommit _ => none
  | .qpeCommit _ => none
  | .rtrCommit _ => none
  | .colCommit _ => none
  | .trnCommit _ _ => none
  | .plcCommit _ => none
  | .schCommit _ => none
  | .lnkCommit _ _ => none
  | .vrtCommit _ => none
  | .hifCommit _ => none
  | .pwrCommit _ => none
  | .memCommit _ => none
  | .dbgCommit _ => none
  | .xltInvalAll _ => none
  | .xltInvalInstance _ _ => none
  | .tableWalkDone _ => none
  | .translationDrainDone _ => none
  | .rtrClearWatermarks _ => none
  | .qpcStoreWrite _ _ _ => none
  | .synBarParticipantsWrite _ _ _ => none
  | .vrtHoldWrite _ _ => none
  | .restoreApply _ _ => none
  | .schHallTimeLatchRead _ => none
  | .memInjectArm _ _ => none
  | .secEngineSelfTest _ _ _ => none
  | .elsClearLatch _ _ => none
  | .elsDisableWrite _ _ => none
  | .hifWinBaseWrite _ _ => none
  | .registerWrite _ _ _ _ => none
  | .windowAccess _ _ _ _ _ _ => none
  | .inboundRequestRefused _ _ _ _ _ _ => none
  | .firstConfigWrite port _ => some port
  | .busMasterEnableClear _ => none
  | .busMasterEnableSet _ => none
  | .d3hotEntry _ => none
  | .msixUnmask _ _ _ _ => none
  | .functionLevelResetVf _ => none
  | .functionLevelResetPf port => some port
  | .vfDisable port => some port
  | .portLinkLoss port _ => some port
  | .perstAssert port _ => some port
  | .perstRelease port => some port
  | .powerOnReset _ _ _ _ => none
  | .moduleReset _ _ => none
  | .watchdogExpiry _ => none
  | .codeWrite _ => none
  | .sramUe _ _ => none
  | .cpFault _ => none
  | .cpRestart _ => none
  | .scrubRead _ => none
  | .ceHourRollover _ => none
  | .entropyStartupPass => none
  | .entropyHealthFail => none
  | .drbgReseed _ => none
  | .estimatorTick _ => none
  | .calGainUpdate _ _ _ => none
  | .powerHintEffect => none
  | .domainIdleOff _ => none
  | .domainWakeStart => none
  | .droopDetect _ => none
  | .droopSkipEnd _ => none
  | .sensorSample _ => none
  | .vpointStepDown _ => none
  | .vpointStepUp _ => none
  | .oeRepower _ => none
  | .elsPresenceClose _ => none
  | .elsRampStart _ => none
  | .elsTrip _ => none
  | .elsPresenceOpen _ => none
  | .supplyLow => none
  | .supplyFault _ => none
  | .powerUp => none
  | .serviceButtonShort _ => none
  | .serviceButtonLong => none
  | .lifeLogHourly _ => none
  | .getTid => none
  | .getPldmVersion _ => none
  | .getPldmTypes => none
  | .getPldmCommands _ => none
  | .getPdrRepositoryInfo => none
  | .getPdr _ => none
  | .getSensorReading _ => none
  | .getStateEffecterStates _ => none
  | .modulePowerOn => none
  | .modulePowerOff => none
  | .modulePowerReset _ => none
  | .locateEffecterSet _ => none
  | .setNumericEffecterValue _ => none
  | .getNumericEffecterValue => none
  | .unsupportedPldmCommand _ _ => none
  | .requestUpdate => none
  | .passComponentTable => none
  | .updateComponent => none
  | .requestFirmwareData _ => none
  | .transferComplete => none
  | .verifyComplete => none
  | .applyComplete => none
  | .activateFirmware _ _ _ _ => none
  | .switchedLinkInService _ _ => none
  | .elsContactOpen _ => none
  | .elsRampEnd _ => none
  | .domainWakeDone _ => none
  | .tclkRelockDone _ => none
  | .supplyGood => none
  | .pcieLinkUp port _ _ => some port
  | .vfEnable port _ => some port
  | .d3hotExit _ => none
  | .flashWriteDone _ => none

/-- A well-formed command names one of the four host ports, or none. -/
def Statement (i : Instr) : Prop := i.wf = true → ∀ p, port i = some p → p < 4

theorem noPort {p : Nat} {q : Prop} (e : none = some p) : q := nomatch e

theorem port1 {p q : Nat} (h : decide (p < 4) = true) (e : some p = some q) : q < 4 :=
  Option.some.inj e ▸ of_decide_eq_true h

theorem port2 {p q : Nat} {a : Bool} (h : (decide (p < 4) && a) = true) (e : some p = some q) : q < 4 :=
  port1 (Bool.and_elim_left h) e

theorem port3 {p q : Nat} {a b : Bool} (h : (decide (p < 4) && a && b) = true) (e : some p = some q) : q < 4 :=
  port2 (Bool.and_elim_left h) e

theorem admCmdProducerWrite (port : Nat) (value : Nat) : Statement (.admCmdProducerWrite port value) := fun h _ e => port2 h e
theorem adminCommandFetch (port : Nat) : Statement (.adminCommandFetch port) := fun h _ e => port1 h e
theorem admCtrlEnableSet (port : Nat) (value : Nat) : Statement (.admCtrlEnableSet port value) := fun h _ e => port2 h e
theorem admCtrlEnableClear (port : Nat) (value : Nat) : Statement (.admCtrlEnableClear port value) := fun h _ e => port2 h e
theorem admReplyConsumerWrite (port : Nat) (value : Nat) : Statement (.admReplyConsumerWrite port value) := fun h _ e => port2 h e
theorem unlistedAdminOpcode (port : Nat) (cmd : Nat) : Statement (.unlistedAdminOpcode port cmd) := fun h _ e => port1 h e
theorem identify (port : Nat) (cmd : Nat) : Statement (.identify port cmd) := fun h _ e => port1 h e
theorem negotiateVersion (port : Nat) (cmd : Nat) : Statement (.negotiateVersion port cmd) := fun h _ e => port1 h e
theorem getFeature (port : Nat) (cmd : Nat) : Statement (.getFeature port cmd) := fun h _ e => port1 h e
theorem setFeature (port : Nat) (cmd : Nat) : Statement (.setFeature port cmd) := fun h _ e => port1 h e
theorem expertUnlock (port : Nat) (cmd : Nat) : Statement (.expertUnlock port cmd) := fun h _ e => port1 h e
theorem expertLock (port : Nat) (cmd : Nat) : Statement (.expertLock port cmd) := fun h _ e => port1 h e
theorem createWorkQueue (port : Nat) (cmd : Nat) : Statement (.createWorkQueue port cmd) := fun h _ e => port1 h e
theorem destroyWorkQueue (port : Nat) (cmd : Nat) : Statement (.destroyWorkQueue port cmd) := fun h _ e => port1 h e
theorem createCompletionQueue (port : Nat) (cmd : Nat) : Statement (.createCompletionQueue port cmd) := fun h _ e => port1 h e
theorem destroyCompletionQueue (port : Nat) (cmd : Nat) : Statement (.destroyCompletionQueue port cmd) := fun h _ e => port1 h e
theorem createEventQueue (port : Nat) (cmd : Nat) : Statement (.createEventQueue port cmd) := fun h _ e => port1 h e
theorem destroyEventQueue (port : Nat) (cmd : Nat) : Statement (.destroyEventQueue port cmd) := fun h _ e => port1 h e
theorem quiesce (port : Nat) (cmd : Nat) : Statement (.quiesce port cmd) := fun h _ e => port1 h e
theorem resume (port : Nat) (cmd : Nat) : Statement (.resume port cmd) := fun h _ e => port1 h e
theorem quiesceWaitLimit (port : Nat) (cmd : Nat) : Statement (.quiesceWaitLimit port cmd) := fun h _ e => port1 h e
theorem snuffQueue (port : Nat) (cmd : Nat) : Statement (.snuffQueue port cmd) := fun h _ e => port1 h e
theorem createQp (port : Nat) (cmd : Nat) : Statement (.createQp port cmd) := fun h _ e => port1 h e
theorem modifyQp (port : Nat) (cmd : Nat) : Statement (.modifyQp port cmd) := fun h _ e => port1 h e
theorem queryQp (port : Nat) (cmd : Nat) : Statement (.queryQp port cmd) := fun h _ e => port1 h e
theorem destroyQp (port : Nat) (cmd : Nat) : Statement (.destroyQp port cmd) := fun h _ e => port1 h e
theorem openSkylight (port : Nat) (cmd : Nat) : Statement (.openSkylight port cmd) := fun h _ e => port1 h e
theorem revokeSkylight (port : Nat) (cmd : Nat) : Statement (.revokeSkylight port cmd) := fun h _ e => port1 h e
theorem querySkylight (port : Nat) (cmd : Nat) : Statement (.querySkylight port cmd) := fun h _ e => port1 h e
theorem mapPages (port : Nat) (cmd : Nat) : Statement (.mapPages port cmd) := fun h _ e => port1 h e
theorem unmapPages (port : Nat) (cmd : Nat) : Statement (.unmapPages port cmd) := fun h _ e => port1 h e
theorem dirtyLogEnable (port : Nat) (cmd : Nat) : Statement (.dirtyLogEnable port cmd) := fun h _ e => port1 h e
theorem dirtyLogSwitch (port : Nat) (cmd : Nat) : Statement (.dirtyLogSwitch port cmd) := fun h _ e => port1 h e
theorem dirtyLogDisable (port : Nat) (cmd : Nat) : Statement (.dirtyLogDisable port cmd) := fun h _ e => port1 h e
theorem defineGroup (port : Nat) (cmd : Nat) : Statement (.defineGroup port cmd) := fun h _ e => port1 h e
theorem releaseGroup (port : Nat) (cmd : Nat) : Statement (.releaseGroup port cmd) := fun h _ e => port1 h e
theorem setCollectivePolicy (port : Nat) (cmd : Nat) : Statement (.setCollectivePolicy port cmd) := fun h _ e => port1 h e
theorem loadTransitProgram (port : Nat) (cmd : Nat) : Statement (.loadTransitProgram port cmd) := fun h _ e => port1 h e
theorem unloadTransitProgram (port : Nat) (cmd : Nat) : Statement (.unloadTransitProgram port cmd) := fun h _ e => port1 h e
theorem allocateHallPages (port : Nat) (cmd : Nat) : Statement (.allocateHallPages port cmd) := fun h _ e => port1 h e
theorem freeHallPages (port : Nat) (cmd : Nat) : Statement (.freeHallPages port cmd) := fun h _ e => port1 h e
theorem pinPages (port : Nat) (cmd : Nat) : Statement (.pinPages port cmd) := fun h _ e => port1 h e
theorem unpinPages (port : Nat) (cmd : Nat) : Statement (.unpinPages port cmd) := fun h _ e => port1 h e
theorem pinProgram (port : Nat) (cmd : Nat) : Statement (.pinProgram port cmd) := fun h _ e => port1 h e
theorem unpinProgram (port : Nat) (cmd : Nat) : Statement (.unpinProgram port cmd) := fun h _ e => port1 h e
theorem setPlacementPolicy (port : Nat) (cmd : Nat) : Statement (.setPlacementPolicy port cmd) := fun h _ e => port1 h e
theorem createWickQueue (port : Nat) (cmd : Nat) : Statement (.createWickQueue port cmd) := fun h _ e => port1 h e
theorem destroyWickQueue (port : Nat) (cmd : Nat) : Statement (.destroyWickQueue port cmd) := fun h _ e => port1 h e
theorem defineBarrier (port : Nat) (cmd : Nat) : Statement (.defineBarrier port cmd) := fun h _ e => port1 h e
theorem setGateList (port : Nat) (cmd : Nat) : Statement (.setGateList port cmd) := fun h _ e => port1 h e
theorem setClassQuanta (port : Nat) (cmd : Nat) : Statement (.setClassQuanta port cmd) := fun h _ e => port1 h e
theorem setCadence (port : Nat) (cmd : Nat) : Statement (.setCadence port cmd) := fun h _ e => port1 h e
theorem loadKey (port : Nat) (cmd : Nat) : Statement (.loadKey port cmd) := fun h _ e => port1 h e
theorem destroyKey (port : Nat) (cmd : Nat) : Statement (.destroyKey port cmd) := fun h _ e => port1 h e
theorem createInstance (port : Nat) (cmd : Nat) : Statement (.createInstance port cmd) := fun h _ e => port1 h e
theorem destroyInstance (port : Nat) (cmd : Nat) : Statement (.destroyInstance port cmd) := fun h _ e => port1 h e
theorem resetInstance (port : Nat) (cmd : Nat) : Statement (.resetInstance port cmd) := fun h _ e => port1 h e
theorem generationQuarantineEnd (inst : Nat) : Statement (.generationQuarantineEnd inst) := fun _ _ e => noPort e
theorem setInstanceShare (port : Nat) (cmd : Nat) : Statement (.setInstanceShare port cmd) := fun h _ e => port1 h e
theorem powerHintCommand (port : Nat) (cmd : Nat) : Statement (.powerHintCommand port cmd) := fun h _ e => port1 h e
theorem setPowerCap (port : Nat) (cmd : Nat) : Statement (.setPowerCap port cmd) := fun h _ e => port1 h e
theorem readLifeLog (port : Nat) (cmd : Nat) : Statement (.readLifeLog port cmd) := fun h _ e => port1 h e
theorem calRead (port : Nat) (cmd : Nat) : Statement (.calRead port cmd) := fun h _ e => port1 h e
theorem calWrite (port : Nat) (cmd : Nat) : Statement (.calWrite port cmd) := fun h _ e => port1 h e
theorem setDebugMux (port : Nat) (cmd : Nat) : Statement (.setDebugMux port cmd) := fun h _ e => port1 h e
theorem firmwareStage (port : Nat) (cmd : Nat) : Statement (.firmwareStage port cmd) := fun h _ e => port1 h e
theorem firmwareActivateNextPowerOn (port : Nat) (cmd : Nat) : Statement (.firmwareActivateNextPowerOn port cmd) := fun h _ e => port1 h e
theorem firmwareActivateNow (port : Nat) (cmd : Nat) : Statement (.firmwareActivateNow port cmd) := fun h _ e => port1 h e
theorem jobDomainCreate (port : Nat) (cmd : Nat) : Statement (.jobDomainCreate port cmd) := fun h _ e => port1 h e
theorem jobDomainFault (port : Nat) (cmd : Nat) : Statement (.jobDomainFault port cmd) := fun h _ e => port1 h e
theorem snapshot (port : Nat) (cmd : Nat) : Statement (.snapshot port cmd) := fun h _ e => port1 h e
theorem wqDoorbell (fn : Nat) (wq : Nat) (value : Nat) : Statement (.wqDoorbell fn wq value) := fun _ _ e => noPort e
theorem doorbellHighDwordWrite (fn : Nat) (bell : Nat × Nat) : Statement (.doorbellHighDwordWrite fn bell) := fun _ _ e => noPort e
theorem cqConsumerUpdate (fn : Nat) (wq : Nat) (value : Nat) : Statement (.cqConsumerUpdate fn wq value) := fun _ _ e => noPort e
theorem cqArm (fn : Nat) (wq : Nat) (value : Nat) : Statement (.cqArm fn wq value) := fun _ _ e => noPort e
theorem cqArmSolicited (fn : Nat) (wq : Nat) (value : Nat) : Statement (.cqArmSolicited fn wq value) := fun _ _ e => noPort e
theorem cqFullWaitExpiry (cq : Nat) : Statement (.cqFullWaitExpiry cq) := fun _ _ e => noPort e
theorem descriptorFetch (wq : Nat) : Statement (.descriptorFetch wq) := fun _ _ e => noPort e
theorem descriptorArrival (wq : Nat) : Statement (.descriptorArrival wq) := fun _ _ e => noPort e
theorem lqConsumerWrite (fn : Nat) (lq : Nat) (index : Nat) : Statement (.lqConsumerWrite fn lq index) := fun _ _ e => noPort e
theorem lqArm (fn : Nat) (lq : Nat) : Statement (.lqArm fn lq) := fun _ _ e => noPort e
theorem lqLostClear (fn : Nat) (lq : Nat) : Statement (.lqLostClear fn lq) := fun _ _ e => noPort e
theorem wqEnableClear (fn : Nat) (write : Nat × Nat) : Statement (.wqEnableClear fn write) := fun _ _ e => noPort e
theorem wqEnableSet (fn : Nat) (write : Nat × Nat) : Statement (.wqEnableSet fn write) := fun _ _ e => noPort e
theorem nop (wq : Nat) (op : Nat) : Statement (.nop wq op) := fun _ _ e => noPort e
theorem read (wq : Nat) (op : Nat) : Statement (.read wq op) := fun _ _ e => noPort e
theorem write (wq : Nat) (op : Nat) : Statement (.write wq op) := fun _ _ e => noPort e
theorem writeNotify (wq : Nat) (op : Nat) : Statement (.writeNotify wq op) := fun _ _ e => noPort e
theorem atomicFadd (wq : Nat) (op : Nat) : Statement (.atomicFadd wq op) := fun _ _ e => noPort e
theorem atomicCas (wq : Nat) (op : Nat) : Statement (.atomicCas wq op) := fun _ _ e => noPort e
theorem fence (wq : Nat) (op : Nat) : Statement (.fence wq op) := fun _ _ e => noPort e
theorem tokenProduce (wq : Nat) (op : Nat) : Statement (.tokenProduce wq op) := fun _ _ e => noPort e
theorem tokenConsume (wq : Nat) (op : Nat) : Statement (.tokenConsume wq op) := fun _ _ e => noPort e
theorem tokenBarrier (wq : Nat) (op : Nat) : Statement (.tokenBarrier wq op) := fun _ _ e => noPort e
theorem tokenCadence (wq : Nat) (op : Nat) : Statement (.tokenCadence wq op) := fun _ _ e => noPort e
theorem tokenWaitTimeout (wq : Nat) (op : Nat) : Statement (.tokenWaitTimeout wq op) := fun _ _ e => noPort e
theorem chain (wq : Nat) (op : Nat) : Statement (.chain wq op) := fun _ _ e => noPort e
theorem chainListArrival (wq : Nat) (op : Nat) : Statement (.chainListArrival wq op) := fun _ _ e => noPort e
theorem powerHintDescriptor (wq : Nat) (op : Nat) : Statement (.powerHintDescriptor wq op) := fun _ _ e => noPort e
theorem allReduce (wq : Nat) (op : Nat) : Statement (.allReduce wq op) := fun _ _ e => noPort e
theorem reduce (wq : Nat) (op : Nat) : Statement (.reduce wq op) := fun _ _ e => noPort e
theorem reduceScatter (wq : Nat) (op : Nat) : Statement (.reduceScatter wq op) := fun _ _ e => noPort e
theorem allGather (wq : Nat) (op : Nat) : Statement (.allGather wq op) := fun _ _ e => noPort e
theorem broadcast (wq : Nat) (op : Nat) : Statement (.broadcast wq op) := fun _ _ e => noPort e
theorem allToAll (wq : Nat) (op : Nat) : Statement (.allToAll wq op) := fun _ _ e => noPort e
theorem transit (wq : Nat) (op : Nat) : Statement (.transit wq op) := fun _ _ e => noPort e
theorem messageIssue (wq : Nat) (op : Nat) (msg : Nat) : Statement (.messageIssue wq op msg) := fun _ _ e => noPort e
theorem contextFillReturn (qpn : Nat) (data : Bytes) : Statement (.contextFillReturn qpn data) := fun _ _ e => noPort e
theorem hostReadCompletion (port : Nat) (tag : Nat) (status : Nat) (data : Bytes) : Statement (.hostReadCompletion port tag status data) := fun h _ e => port3 h e
theorem completionTimeout (port : Nat) (tag : Nat) : Statement (.completionTimeout port tag) := fun h _ e => port2 h e
theorem writeReq (pkt : Machine.Pkt) : Statement (.writeReq pkt) := fun _ _ e => noPort e
theorem readReq (pkt : Machine.Pkt) : Statement (.readReq pkt) := fun _ _ e => noPort e
theorem atomicReq (pkt : Machine.Pkt) : Statement (.atomicReq pkt) := fun _ _ e => noPort e
theorem tokenReq (pkt : Machine.Pkt) : Statement (.tokenReq pkt) := fun _ _ e => noPort e
theorem forwardedRequest (pkt : Machine.Pkt) : Statement (.forwardedRequest pkt) := fun _ _ e => noPort e
theorem ack (pkt : Machine.Pkt) : Statement (.ack pkt) := fun _ _ e => noPort e
theorem readResp (pkt : Machine.Pkt) : Statement (.readResp pkt) := fun _ _ e => noPort e
theorem atomicResp (pkt : Machine.Pkt) : Statement (.atomicResp pkt) := fun _ _ e => noPort e
theorem epochProbe (pkt : Machine.Pkt) : Statement (.epochProbe pkt) := fun _ _ e => noPort e
theorem epochNotice (pkt : Machine.Pkt) : Statement (.epochNotice pkt) := fun _ _ e => noPort e
theorem epochProbeTimeout (module : Nat) : Statement (.epochProbeTimeout module) := fun _ _ e => noPort e
theorem epochTableAging (module : Nat) : Statement (.epochTableAging module) := fun _ _ e => noPort e
theorem congestion (pkt : Machine.Pkt) : Statement (.congestion pkt) := fun _ _ e => noPort e
theorem unknownTypePacket (pkt : Machine.Pkt) : Statement (.unknownTypePacket pkt) := fun _ _ e => noPort e
theorem retransmitTimeout (txn : Nat) : Statement (.retransmitTimeout txn) := fun _ _ e => noPort e
theorem retryLimitTimeout (txn : Nat) : Statement (.retryLimitTimeout txn) := fun _ _ e => noPort e
theorem ackDelayExpiry (conn : Nat) (key : Nat) : Statement (.ackDelayExpiry conn key) := fun _ _ e => noPort e
theorem throttleTick : Statement (.throttleTick) := fun _ _ e => noPort e
theorem collData (pkt : Machine.Pkt) : Statement (.collData pkt) := fun _ _ e => noPort e
theorem groupSetup (pkt : Machine.Pkt) : Statement (.groupSetup pkt) := fun _ _ e => noPort e
theorem treeUp (pkt : Machine.Pkt) : Statement (.treeUp pkt) := fun _ _ e => noPort e
theorem treeDown (pkt : Machine.Pkt) : Statement (.treeDown pkt) := fun _ _ e => noPort e
theorem revokeDrainDone (kind : Nat) (root : Nat) (tree : Nat) : Statement (.revokeDrainDone kind root tree) := fun _ _ e => noPort e
theorem snapshotDrainDone (partition : Nat) : Statement (.snapshotDrainDone partition) := fun _ _ e => noPort e
theorem treeUpRetry (kind : Nat) (root : Nat) (tree : Nat) (seq : Nat) : Statement (.treeUpRetry kind root tree seq) := fun _ _ e => noPort e
theorem treeAckTimeout (kind : Nat) (root : Nat) (tree : Nat) (seq : Nat) (member : Nat) : Statement (.treeAckTimeout kind root tree seq member) := fun _ _ e => noPort e
theorem domainSetup (pkt : Machine.Pkt) : Statement (.domainSetup pkt) := fun _ _ e => noPort e
theorem domainReady (pkt : Machine.Pkt) : Statement (.domainReady pkt) := fun _ _ e => noPort e
theorem transitLaunch (pkt : Machine.Pkt) : Statement (.transitLaunch pkt) := fun _ _ e => noPort e
theorem transitCancel (pkt : Machine.Pkt) : Statement (.transitCancel pkt) := fun _ _ e => noPort e
theorem transitDone (pkt : Machine.Pkt) : Statement (.transitDone pkt) := fun _ _ e => noPort e
theorem tileAllocation (die : Nat) : Statement (.tileAllocation die) := fun _ _ e => noPort e
theorem operatorChunkDone (die : Nat) (entry : Nat) (op : Nat) (sram : Nat) (tile : Nat) (offset : Nat) : Statement (.operatorChunkDone die entry op sram tile offset) := fun _ _ e => noPort e
theorem transitWaitTimeout (die : Nat) (entry : Nat) : Statement (.transitWaitTimeout die entry) := fun _ _ e => noPort e
theorem transitPriorityPromotion (die : Nat) (entry : Nat) : Statement (.transitPriorityPromotion die entry) := fun _ _ e => noPort e
theorem trnCancelWrite (fn : Nat) (die : Nat) (value : Nat) : Statement (.trnCancelWrite fn die value) := fun _ _ e => noPort e
theorem heatDecay : Statement (.heatDecay) := fun _ _ e => noPort e
theorem placePropose (pkt : Machine.Pkt) : Statement (.placePropose pkt) := fun _ _ e => noPort e
theorem moveStart (pkt : Machine.Pkt) : Statement (.moveStart pkt) := fun _ _ e => noPort e
theorem moveCopy (pkt : Machine.Pkt) : Statement (.moveCopy pkt) := fun _ _ e => noPort e
theorem moveDone (pkt : Machine.Pkt) : Statement (.moveDone pkt) := fun _ _ e => noPort e
theorem moveEnd (pkt : Machine.Pkt) : Statement (.moveEnd pkt) := fun _ _ e => noPort e
theorem thatchHint (pkt : Machine.Pkt) : Statement (.thatchHint pkt) := fun _ _ e => noPort e
theorem collapseNote (pkt : Machine.Pkt) : Statement (.collapseNote pkt) := fun _ _ e => noPort e
theorem collapseDone (pkt : Machine.Pkt) : Statement (.collapseDone pkt) := fun _ _ e => noPort e
theorem forwardingEntryExpiry (home : Nat) (page : Nat) : Statement (.forwardingEntryExpiry home page) := fun _ _ e => noPort e
theorem pinWaitRetry (page : Nat) : Statement (.pinWaitRetry page) := fun _ _ e => noPort e
theorem programExclusionExpiry (program : Nat) (module : Nat) : Statement (.programExclusionExpiry program module) := fun _ _ e => noPort e
theorem cadenceBoundary (partition : Nat) : Statement (.cadenceBoundary partition) := fun _ _ e => noPort e
theorem countEpochBoundary : Statement (.countEpochBoundary) := fun _ _ e => noPort e
theorem gateSwitch (group : Nat) : Statement (.gateSwitch group) := fun _ _ e => noPort e
theorem frameStart (group : Nat) (link : Nat) : Statement (.frameStart group link) := fun _ _ e => noPort e
theorem queueSamplePeriod : Statement (.queueSamplePeriod) := fun _ _ e => noPort e
theorem ppsEdge : Statement (.ppsEdge) := fun _ _ e => noPort e
theorem todMessage (data : Bytes) : Statement (.todMessage data) := fun _ _ e => noPort e
theorem ppsSourceLost : Statement (.ppsSourceLost) := fun _ _ e => noPort e
theorem ptpSync (group : Nat) (link : Nat) (data : Bytes) : Statement (.ptpSync group link data) := fun _ _ e => noPort e
theorem ptpPdelayReq (group : Nat) (link : Nat) (data : Bytes) : Statement (.ptpPdelayReq group link data) := fun _ _ e => noPort e
theorem ptpPdelayResp (group : Nat) (link : Nat) (data : Bytes) : Statement (.ptpPdelayResp group link data) := fun _ _ e => noPort e
theorem syncSend : Statement (.syncSend) := fun _ _ e => noPort e
theorem parentSyncLost : Statement (.parentSyncLost) := fun _ _ e => noPort e
theorem mailboxSend (fn : Nat) (dir : Nat) (value : Nat) : Statement (.mailboxSend fn dir value) := fun _ _ e => noPort e
theorem mailboxReceive (fn : Nat) (dir : Nat) : Statement (.mailboxReceive fn dir) := fun _ _ e => noPort e
theorem frameReceive (group : Nat) (link : Nat) (data : Bytes) (ok : Bool) (note : Option (Nat × Nat × Nat)) : Statement (.frameReceive group link data ok note) := fun _ _ e => noPort e
theorem pauseExpiry (group : Nat) (link : Nat) (prio : Nat) : Statement (.pauseExpiry group link prio) := fun _ _ e => noPort e
theorem pauseRefresh (group : Nat) (link : Nat) (prio : Nat) : Statement (.pauseRefresh group link prio) := fun _ _ e => noPort e
theorem txUnderrun (group : Nat) (link : Nat) : Statement (.txUnderrun group link) := fun _ _ e => noPort e
theorem opticalPowerStable (group : Nat) (link : Nat) : Statement (.opticalPowerStable group link) := fun _ _ e => noPort e
theorem linkLock (group : Nat) (link : Nat) : Statement (.linkLock group link) := fun _ _ e => noPort e
theorem trainingStepTimeout (group : Nat) (link : Nat) : Statement (.trainingStepTimeout group link) := fun _ _ e => noPort e
theorem hello (group : Nat) (link : Nat) (data : Bytes) : Statement (.hello group link data) := fun _ _ e => noPort e
theorem helloSend (group : Nat) (link : Nat) : Statement (.helloSend group link) := fun _ _ e => noPort e
theorem helloLost (group : Nat) (link : Nat) : Statement (.helloLost group link) := fun _ _ e => noPort e
theorem signalLost (group : Nat) (link : Nat) (signal : Nat) : Statement (.signalLost group link signal) := fun _ _ e => noPort e
theorem alignLost (group : Nat) (link : Nat) : Statement (.alignLost group link) := fun _ _ e => noPort e
theorem fecDegrade (group : Nat) (link : Nat) (count : Nat) : Statement (.fecDegrade group link count) := fun _ _ e => noPort e
theorem heldLinkRetry (group : Nat) (link : Nat) : Statement (.heldLinkRetry group link) := fun _ _ e => noPort e
theorem lpiIdleExpiry (group : Nat) : Statement (.lpiIdleExpiry group) := fun _ _ e => noPort e
theorem lpiWake (group : Nat) : Statement (.lpiWake group) := fun _ _ e => noPort e
theorem wakeTimeout (group : Nat) : Statement (.wakeTimeout group) := fun _ _ e => noPort e
theorem connectorOpen (group : Nat) : Statement (.connectorOpen group) := fun _ _ e => noPort e
theorem connectorClose (group : Nat) : Statement (.connectorClose group) := fun _ _ e => noPort e
theorem connectorDebounce (group : Nat) : Statement (.connectorDebounce group) := fun _ _ e => noPort e
theorem lnkGroupEnableClear (fn : Nat) (group : Nat) (value : Nat) : Statement (.lnkGroupEnableClear fn group value) := fun _ _ e => noPort e
theorem lnkGroupEnableSet (fn : Nat) (group : Nat) (value : Nat) : Statement (.lnkGroupEnableSet fn group value) := fun _ _ e => noPort e
theorem lnkGroupRetrain (fn : Nat) (group : Nat) (value : Nat) : Statement (.lnkGroupRetrain fn group value) := fun _ _ e => noPort e
theorem lpiEnableWrite (fn : Nat) (group : Nat) (value : Nat) : Statement (.lpiEnableWrite fn group value) := fun _ _ e => noPort e
theorem lnkLinkDisable (fn : Nat) (group : Nat) (link : Nat) : Statement (.lnkLinkDisable fn group link) := fun _ _ e => noPort e
theorem lnkLinkEnable (fn : Nat) (group : Nat) (link : Nat) : Statement (.lnkLinkEnable fn group link) := fun _ _ e => noPort e
theorem lnkLinkRetrain (fn : Nat) (group : Nat) (link : Nat) (value : Nat) : Statement (.lnkLinkRetrain fn group link value) := fun _ _ e => noPort e
theorem txThresholdRestore (fn : Nat) (group : Nat) (value : Nat) : Statement (.txThresholdRestore fn group value) := fun _ _ e => noPort e
theorem xltCommit (fn : Nat) : Statement (.xltCommit fn) := fun _ _ e => noPort e
theorem qpeCommit (fn : Nat) : Statement (.qpeCommit fn) := fun _ _ e => noPort e
theorem rtrCommit (fn : Nat) : Statement (.rtrCommit fn) := fun _ _ e => noPort e
theorem colCommit (fn : Nat) : Statement (.colCommit fn) := fun _ _ e => noPort e
theorem trnCommit (fn : Nat) (die : Nat) : Statement (.trnCommit fn die) := fun _ _ e => noPort e
theorem plcCommit (fn : Nat) : Statement (.plcCommit fn) := fun _ _ e => noPort e
theorem schCommit (fn : Nat) : Statement (.schCommit fn) := fun _ _ e => noPort e
theorem lnkCommit (fn : Nat) (group : Nat) : Statement (.lnkCommit fn group) := fun _ _ e => noPort e
theorem vrtCommit (fn : Nat) : Statement (.vrtCommit fn) := fun _ _ e => noPort e
theorem hifCommit (fn : Nat) : Statement (.hifCommit fn) := fun _ _ e => noPort e
theorem pwrCommit (fn : Nat) : Statement (.pwrCommit fn) := fun _ _ e => noPort e
theorem memCommit (fn : Nat) : Statement (.memCommit fn) := fun _ _ e => noPort e
theorem dbgCommit (fn : Nat) : Statement (.dbgCommit fn) := fun _ _ e => noPort e
theorem xltInvalAll (fn : Nat) : Statement (.xltInvalAll fn) := fun _ _ e => noPort e
theorem xltInvalInstance (fn : Nat) (inst : Nat) : Statement (.xltInvalInstance fn inst) := fun _ _ e => noPort e
theorem tableWalkDone (walk : Nat) : Statement (.tableWalkDone walk) := fun _ _ e => noPort e
theorem translationDrainDone (inst : Nat) : Statement (.translationDrainDone inst) := fun _ _ e => noPort e
theorem rtrClearWatermarks (fn : Nat) : Statement (.rtrClearWatermarks fn) := fun _ _ e => noPort e
theorem qpcStoreWrite (fn : Nat) (size : Bool) (value : Nat) : Statement (.qpcStoreWrite fn size value) := fun _ _ e => noPort e
theorem synBarParticipantsWrite (fn : Nat) (group : Nat) (value : Nat) : Statement (.synBarParticipantsWrite fn group value) := fun _ _ e => noPort e
theorem vrtHoldWrite (fn : Nat) (value : Nat) : Statement (.vrtHoldWrite fn value) := fun _ _ e => noPort e
theorem restoreApply (fn : Nat) (value : Nat) : Statement (.restoreApply fn value) := fun _ _ e => noPort e
theorem schHallTimeLatchRead (fn : Nat) : Statement (.schHallTimeLatchRead fn) := fun _ _ e => noPort e
theorem memInjectArm (fn : Nat) (value : Nat) : Statement (.memInjectArm fn value) := fun _ _ e => noPort e
theorem secEngineSelfTest (fn : Nat) (value : Nat) (passed : Nat) : Statement (.secEngineSelfTest fn value passed) := fun _ _ e => noPort e
theorem elsClearLatch (fn : Nat) (value : Nat) : Statement (.elsClearLatch fn value) := fun _ _ e => noPort e
theorem elsDisableWrite (fn : Nat) (value : Nat) : Statement (.elsDisableWrite fn value) := fun _ _ e => noPort e
theorem hifWinBaseWrite (fn : Nat) (value : Nat) : Statement (.hifWinBaseWrite fn value) := fun _ _ e => noPort e
theorem registerWrite (fn : Nat) (offset : Nat) (lanes : Nat) (value : Nat) : Statement (.registerWrite fn offset lanes value) := fun _ _ e => noPort e
theorem windowAccess (fn : Nat) (write : Bool) (offset : Nat) (len : Nat) (lanes : Nat) (data : Bytes) : Statement (.windowAccess fn write offset len lanes data) := fun _ _ e => noPort e
theorem inboundRequestRefused (fn : Nat) (rid : Nat) (bar : Nat) (offset : Nat) (bytes : Nat) (write : Bool) : Statement (.inboundRequestRefused fn rid bar offset bytes write) := fun _ _ e => noPort e
theorem firstConfigWrite (port : Nat) (rid : Nat) : Statement (.firstConfigWrite port rid) := fun h _ e => port2 h e
theorem busMasterEnableClear (fn : Nat) : Statement (.busMasterEnableClear fn) := fun _ _ e => noPort e
theorem busMasterEnableSet (fn : Nat) : Statement (.busMasterEnableSet fn) := fun _ _ e => noPort e
theorem d3hotEntry (fn : Nat) : Statement (.d3hotEntry fn) := fun _ _ e => noPort e
theorem msixUnmask (fn : Nat) (vector : Nat) (enable : Bool) (mask : Bool) : Statement (.msixUnmask fn vector enable mask) := fun _ _ e => noPort e
theorem functionLevelResetVf (fn : Nat) : Statement (.functionLevelResetVf fn) := fun _ _ e => noPort e
theorem functionLevelResetPf (port : Nat) : Statement (.functionLevelResetPf port) := fun h _ e => port1 h e
theorem vfDisable (port : Nat) : Statement (.vfDisable port) := fun h _ e => port1 h e
theorem portLinkLoss (port : Nat) (burn : Bool) : Statement (.portLinkLoss port burn) := fun h _ e => port1 h e
theorem perstAssert (port : Nat) (burn : Bool) : Statement (.perstAssert port burn) := fun h _ e => port1 h e
theorem perstRelease (port : Nat) : Statement (.perstRelease port) := fun h _ e => port1 h e
theorem powerOnReset (deadDies : Nat) (deadStacks : Nat) (engines : Nat) (burn : Bool) : Statement (.powerOnReset deadDies deadStacks engines burn) := fun _ _ e => noPort e
theorem moduleReset (loss : Bool) (burn : Bool) : Statement (.moduleReset loss burn) := fun _ _ e => noPort e
theorem watchdogExpiry (addr : Nat) : Statement (.watchdogExpiry addr) := fun _ _ e => noPort e
theorem codeWrite (addr : Nat) : Statement (.codeWrite addr) := fun _ _ e => noPort e
theorem sramUe (addr : Nat) (offset : Nat) : Statement (.sramUe addr offset) := fun _ _ e => noPort e
theorem cpFault (addr : Nat) : Statement (.cpFault addr) := fun _ _ e => noPort e
theorem cpRestart (burn : Bool) : Statement (.cpRestart burn) := fun _ _ e => noPort e
theorem scrubRead (word : Nat) : Statement (.scrubRead word) := fun _ _ e => noPort e
theorem ceHourRollover (stack : Nat) : Statement (.ceHourRollover stack) := fun _ _ e => noPort e
theorem entropyStartupPass : Statement (.entropyStartupPass) := fun _ _ e => noPort e
theorem entropyHealthFail : Statement (.entropyHealthFail) := fun _ _ e => noPort e
theorem drbgReseed (generator : Nat) : Statement (.drbgReseed generator) := fun _ _ e => noPort e
theorem estimatorTick (counts : List Nat) : Statement (.estimatorTick counts) := fun _ _ e => noPort e
theorem calGainUpdate (volts : Nat) (amps : Nat) (watts : Nat) : Statement (.calGainUpdate volts amps watts) := fun _ _ e => noPort e
theorem powerHintEffect : Statement (.powerHintEffect) := fun _ _ e => noPort e
theorem domainIdleOff (domain : Nat) : Statement (.domainIdleOff domain) := fun _ _ e => noPort e
theorem domainWakeStart : Statement (.domainWakeStart) := fun _ _ e => noPort e
theorem droopDetect (die : Nat) : Statement (.droopDetect die) := fun _ _ e => noPort e
theorem droopSkipEnd (die : Nat) : Statement (.droopSkipEnd die) := fun _ _ e => noPort e
theorem sensorSample (temps : List Int) : Statement (.sensorSample temps) := fun _ _ e => noPort e
theorem vpointStepDown (die : Nat) : Statement (.vpointStepDown die) := fun _ _ e => noPort e
theorem vpointStepUp (die : Nat) : Statement (.vpointStepUp die) := fun _ _ e => noPort e
theorem oeRepower (group : Nat) : Statement (.oeRepower group) := fun _ _ e => noPort e
theorem elsPresenceClose (bay : Nat) : Statement (.elsPresenceClose bay) := fun _ _ e => noPort e
theorem elsRampStart (bay : Nat) : Statement (.elsRampStart bay) := fun _ _ e => noPort e
theorem elsTrip (bay : Nat) : Statement (.elsTrip bay) := fun _ _ e => noPort e
theorem elsPresenceOpen (bay : Nat) : Statement (.elsPresenceOpen bay) := fun _ _ e => noPort e
theorem supplyLow : Statement (.supplyLow) := fun _ _ e => noPort e
theorem supplyFault (high : Bool) : Statement (.supplyFault high) := fun _ _ e => noPort e
theorem powerUp : Statement (.powerUp) := fun _ _ e => noPort e
theorem serviceButtonShort (ms : Nat) : Statement (.serviceButtonShort ms) := fun _ _ e => noPort e
theorem serviceButtonLong : Statement (.serviceButtonLong) := fun _ _ e => noPort e
theorem lifeLogHourly (ok : Bool) : Statement (.lifeLogHourly ok) := fun _ _ e => noPort e
theorem getTid : Statement (.getTid) := fun _ _ e => noPort e
theorem getPldmVersion (typ : Nat) : Statement (.getPldmVersion typ) := fun _ _ e => noPort e
theorem getPldmTypes : Statement (.getPldmTypes) := fun _ _ e => noPort e
theorem getPldmCommands (typ : Nat) : Statement (.getPldmCommands typ) := fun _ _ e => noPort e
theorem getPdrRepositoryInfo : Statement (.getPdrRepositoryInfo) := fun _ _ e => noPort e
theorem getPdr (record : Nat) : Statement (.getPdr record) := fun _ _ e => noPort e
theorem getSensorReading (sensor : Nat) : Statement (.getSensorReading sensor) := fun _ _ e => noPort e
theorem getStateEffecterStates (effecter : Nat) : Statement (.getStateEffecterStates effecter) := fun _ _ e => noPort e
theorem modulePowerOn : Statement (.modulePowerOn) := fun _ _ e => noPort e
theorem modulePowerOff : Statement (.modulePowerOff) := fun _ _ e => noPort e
theorem modulePowerReset (burn : Bool) : Statement (.modulePowerReset burn) := fun _ _ e => noPort e
theorem locateEffecterSet (lit : Bool) : Statement (.locateEffecterSet lit) := fun _ _ e => noPort e
theorem setNumericEffecterValue (value : Nat) : Statement (.setNumericEffecterValue value) := fun _ _ e => noPort e
theorem getNumericEffecterValue : Statement (.getNumericEffecterValue) := fun _ _ e => noPort e
theorem unsupportedPldmCommand (typ : Nat) (cmd : Nat) : Statement (.unsupportedPldmCommand typ cmd) := fun _ _ e => noPort e
theorem requestUpdate : Statement (.requestUpdate) := fun _ _ e => noPort e
theorem passComponentTable : Statement (.passComponentTable) := fun _ _ e => noPort e
theorem updateComponent : Statement (.updateComponent) := fun _ _ e => noPort e
theorem requestFirmwareData (data : Bytes) : Statement (.requestFirmwareData data) := fun _ _ e => noPort e
theorem transferComplete : Statement (.transferComplete) := fun _ _ e => noPort e
theorem verifyComplete : Statement (.verifyComplete) := fun _ _ e => noPort e
theorem applyComplete : Statement (.applyComplete) := fun _ _ e => noPort e
theorem activateFirmware (deadDies : Nat) (deadStacks : Nat) (engines : Nat) (burn : Bool) : Statement (.activateFirmware deadDies deadStacks engines burn) := fun _ _ e => noPort e
theorem switchedLinkInService (group : Nat) (link : Nat) : Statement (.switchedLinkInService group link) := fun _ _ e => noPort e
theorem elsContactOpen (bay : Nat) : Statement (.elsContactOpen bay) := fun _ _ e => noPort e
theorem elsRampEnd (bay : Nat) : Statement (.elsRampEnd bay) := fun _ _ e => noPort e
theorem domainWakeDone (domain : Nat) : Statement (.domainWakeDone domain) := fun _ _ e => noPort e
theorem tclkRelockDone (die : Nat) : Statement (.tclkRelockDone die) := fun _ _ e => noPort e
theorem supplyGood : Statement (.supplyGood) := fun _ _ e => noPort e
theorem pcieLinkUp (port : Nat) (width : Nat) (rate : Nat) : Statement (.pcieLinkUp port width rate) := fun h _ e => port3 h e
theorem vfEnable (port : Nat) (count : Nat) : Statement (.vfEnable port count) := fun h _ e => port2 h e
theorem d3hotExit (fn : Nat) : Statement (.d3hotExit fn) := fun _ _ e => noPort e
theorem flashWriteDone (ok : Bool) : Statement (.flashWriteDone ok) := fun _ _ e => noPort e

end Sys2Proof.Laws.PortInRange
end

