-- ==== Sys2Proof/Laws/Run.lean ====
section
/-!
SUPPORT. The frames in which every command's meaning stands: what each of them answers when the command may run, and when it may not.
-/

namespace Sys2Proof.Machine

/-! ## Commands -/

theorem run_on {s : State} (f : State → State) (h : s.pwr.off = false) : run s f = .next (f s).finish := by simp [run, h]

theorem run_off {s : State} (f : State → State) (h : s.pwr.off = true) : run s f = .next s := by simp [run, h]

theorem runAlways_on {s : State} (f : State → State) (h : (f s).pwr.off = false) : runAlways s f = .next (f s).finish := by
  simp [runAlways, h]

theorem runAlways_off {s : State} (f : State → State) (h : (f s).pwr.off = true) : runAlways s f = .next (f s) := by simp [runAlways, h]

theorem mmio_serves {s : State} (f : State → State) (h : s.serves) : mmio s f = .next (f s).finish := by
  obtain ⟨h1, h2⟩ := h
  simp [mmio, run_on _ h1, h2]

/-! ## Expert writes and commits -/

theorem expert_open {s : State} {fn addr : Nat} (bytes : Nat) (f : State → State) (h : s.expertOpen fn addr) : s.expert fn addr bytes f = f s := by
  obtain ⟨-, h2, h3, h4⟩ := h
  simp [State.expert, h2, h3, h4]

theorem commit_good {s : State} {fn : Nat} {r : Reg} {good : State → Bool} (rejected : State → State) (set : List Reg)
    (h : s.expertOpen fn r.addr) (hg : good s = true) : s.commit fn r good rejected set = s.commitRegs set := by
  simp [State.commit, expert_open 4 _ h, hg]

theorem commit_bad {s : State} {fn : Nat} {r : Reg} {good : State → Bool} (rejected : State → State) (set : List Reg)
    (h : s.expertOpen fn r.addr) (hg : good s = false) : s.commit fn r good rejected set = (rejected s).setFlagOf 0 .ADM_ERR 3 := by
  simp [State.commit, expert_open 4 _ h, hg]

theorem expert_other {s : State} {fn addr : Nat} (bytes : Nat) (f : State → State) (h : s.barAnswers addr = true) (hf : fn ≠ 0)
    (hs : shownTo fn addr = true) : s.expert fn addr bytes f = s.accessLog akNotManager 0 fn bytes addr := by simp [State.expert, h, hf, hs]

theorem expert_hidden {s : State} {fn addr : Nat} (bytes : Nat) (f : State → State) (hf : fn ≠ 0) (hs : shownTo fn addr = false) :
    s.expert fn addr bytes f = s := by simp [State.expert, hf, hs]

/-! ## Admin commands -/

theorem adminRun_reply {s : State} {p k op : Nat} {sel : List Nat → Bool} {auth : State → List Nat → Bool}
    {body : State → Cmd → List Nat → AdmRes} {c : Cmd} (h : CmdReady s p k op sel auth c) {st d : Nat} {r : Bytes} {t : State}
    (hb : body (s.begin p k c) c.begun c.params = .reply st d r t) : s.adminRun p k op sel auth body = t.replied p k st d r := by
  have h1 : (!s.cpRuns || (s.fn (p * 128)).held || opcodeOf c.pkt != op || !sel c.params ||
      (!c.started && (s.boot.activating || !s.mayStart p k c))) = false := by
    simp [h.runs, h.free, h.opcode, h.chosen, h.fresh, h.quiet, h.turn]
  unfold State.adminRun
  simp only [h.fetched]
  rw [if_neg (by rw [h1]; exact Bool.false_ne_true)]
  simp only [h.fresh, Bool.false_eq_true, if_false, h.header]
  change (match body (s.begin p k c) c.begun c.params with
    | .reply st d r s => (s.reply p k st d r).admStopped p
    | .wait c s => if SMap.has (s.adm1 p).cmds k then s.setCmd p k c else s) = _
  rw [hb]
  rfl

theorem adminRun_wait {s : State} {p k op : Nat} {sel : List Nat → Bool} {auth : State → List Nat → Bool}
    {body : State → Cmd → List Nat → AdmRes} {c : Cmd} (h : CmdReady s p k op sel auth c) {c' : Cmd} {t : State}
    (hb : body (s.begin p k c) c.begun c.params = .wait c' t) : s.adminRun p k op sel auth body = t.keep p k c' := by
  have h1 : (!s.cpRuns || (s.fn (p * 128)).held || opcodeOf c.pkt != op || !sel c.params ||
      (!c.started && (s.boot.activating || !s.mayStart p k c))) = false := by
    simp [h.runs, h.free, h.opcode, h.chosen, h.fresh, h.quiet, h.turn]
  unfold State.adminRun
  simp only [h.fetched]
  rw [if_neg (by rw [h1]; exact Bool.false_ne_true)]
  simp only [h.fresh, Bool.false_eq_true, if_false, h.header]
  change (match body (s.begin p k c) c.begun c.params with
    | .reply st d r s => (s.reply p k st d r).admStopped p
    | .wait c s => if SMap.has (s.adm1 p).cmds k then s.setCmd p k c else s) = _
  rw [hb]
  rfl

/-! ## Operations -/

theorem runOp_ready {s : State} {n id op : Nat} {w : Wq} {o : Op} {qn : Nat} {q : Qp} (f : State → Wq → Op → Nat → Qp → State)
    (h : OpReady s n id op w o qn q) : s.runOp n id op f = f s w o qn q := by
  simp [State.runOp, h.begins, h.running, h.cached]

theorem tokenOp_ready {s : State} {n id action : Nat} {w : Wq} {o : Op} {qn : Nat} {q : Qp} (f : State → Wq → Op → Nat → Qp → State)
    (h : OpReady s n id 0x07 w o qn q) (ha : dAction o.desc = action) : s.tokenOp n id action f = f s w o qn q := by
  simp [State.tokenOp, runOp_ready _ h, ha]

theorem waitOp_ready {s : State} {n id action : Nat} {w : Wq} {o : Op} {qn : Nat} {q : Qp} (f : State → Wq → Op → Nat → Qp → State)
    (h : OpReady s n id 0x07 w o qn q) (ha : dAction o.desc = action) (hp : (s.initPinned qn || s.pinRoom) = true) :
    s.waitOp n id action f = f s w o qn q := by
  unfold State.waitOp
  rw [tokenOp_ready _ h ha, if_pos hp]

/-! ## Packets -/

theorem arrive_accepted {s : State} {p : Pkt} (f : State → State) (h : Accepts s p) : s.arrive p f = f (s.admitted p) := by
  have h1 : ¬ (p.dstEpoch ≠ (s.ejected p).qpe.epoch ∧ p.typ ≠ 0x08 ∧ p.typ ≠ 0x09) := by
    rintro ⟨a, b, c⟩
    rcases h.dst with x | x | x
    · exact a x
    · exact b x
    · exact c x
  have h2 : ¬ (p.srcEpoch ≠ (s.ejected p).peerEpoch p.src ∧ (!epochNewer p.srcEpoch ((s.ejected p).peerEpoch p.src)) = true) := by
    rintro ⟨a, b⟩
    rcases h.src with x | x
    · exact a x
    · simp [x] at b
  unfold State.arrive
  simp only [h.version, ne_eq, not_true_eq_false, if_false, h.known, Bool.not_true, Bool.false_eq_true]
  rw [if_neg h1, if_neg h2]
  rfl

theorem streamOf_inTurn {s : State} {p : Pkt} (h : InTurn s p) : streamOf p = .module (streamKey p.src p.tc) := by
  unfold streamOf
  rw [if_neg (by simp [h.unconnected])]

theorem noteConf_unconnected {s t : State} {p : Pkt} (h : InTurn s p) : t.noteConf (streamOf p) p.confPsn = t := by
  rw [streamOf_inTurn h]
  rfl

theorem rstream_setStream (s : State) (k : Nat) (r : RStream) : (s.setStream (.module k) r).rstream (.module k) = r := by
  simp [State.setStream, State.rstream, getD_put_same]

@[simp] theorem RStream.dropBelow_expect (r : RStream) (n : Nat) : (r.dropBelow n).expect = r.expect := rfl

@[simp] theorem RStream.dropBelow_busy (r : RStream) (n : Nat) : (r.dropBelow n).busy = r.busy := rfl

@[simp] theorem RStream.dropBelow_segment (r : RStream) (n : Nat) : (r.dropBelow n).segment = r.segment := rfl

/-- A plain request whose PSN its stream expects, with nothing in progress, is taken or held. -/
theorem classify_next {s : State} {i : StreamId} {p : Pkt} {r : RStream} (hr : ((s.rstream i).advanceConf p.confPsn).dropBelow p.confPsn = r)
    (hd : psnDist p.psn r.expect = 0) (hb : r.busy = []) (hp : p.encrypted = false) :
    s.classify i p = ((s.setStream i r).noteConf i p.confPsn).takeOrHold i p := by
  unfold State.classify
  rw [hr]
  dsimp only
  rw [hd, hb, if_neg (by decide), if_neg (by simp)]
  unfold State.segmentTurn
  simp only [hp, Bool.not_false, if_true, Bool.false_and, Bool.false_eq_true, if_false]

/-- A request in order, with nothing held, in progress or unfinished, is taken. -/
theorem takeOrHold_next {s : State} {i : StreamId} {p : Pkt} (hd : psnDist p.psn (s.rstream i).expect = 0) (hb : (s.rstream i).busy = [])
    (hg : (s.rstream i).segment = []) (hh : (s.rstream i).held = []) :
    s.takeOrHold i p = State.takeHeld i 2 (s.takeInOrder i p) := by
  unfold State.takeOrHold
  simp only [hd, hb, hg, hh, List.length_nil, Nat.not_lt_zero, if_false, gt_iff_lt, ne_eq, not_true_eq_false, or_self, Nat.mul_zero, Nat.zero_add]

theorem request_inTurn {s : State} {p : Pkt} (h : InTurn s p) :
    (s.admitted p).request310 p = State.takeHeld (streamOf p) 2 ((s.turn p).performInOrder (streamOf p) p) := by
  have hr : (s.turn p).rstream (streamOf p) = (s.inStream p).dropBelow p.confPsn := by
    unfold State.turn
    rw [streamOf_inTurn h, rstream_setStream]
  have hd : psnDist p.psn ((s.inStream p).dropBelow p.confPsn).expect = 0 := by rw [RStream.dropBelow_expect, h.next]
  have hb : ((s.inStream p).dropBelow p.confPsn).busy = [] := by rw [RStream.dropBelow_busy, h.idle]
  have hc : (s.admitted p).classify (streamOf p) p = (s.turn p).takeOrHold (streamOf p) p := by
    rw [classify_next rfl hd hb h.plain, noteConf_unconnected h]
    rfl
  have ht := takeOrHold_next (s := s.turn p) (i := streamOf p) (p := p) (by rw [hr, hd]) (by rw [hr, hb])
    (by rw [hr, RStream.dropBelow_segment, h.whole]) (by rw [hr]; simp [RStream.dropBelow, h.alone])
  unfold State.request310
  rw [h.direct, streamOf_inTurn h]
  simp only [Bool.false_eq_true, if_false, h.plain]
  rw [← streamOf_inTurn h, hc, ht, streamOf_inTurn h, State.takeInOrder]

/-- What a request that has its turn comes to: it is performed, and what that comes to is settled (R310, R312). -/
theorem performs_inTurn {s : State} {p : Pkt} (h : InTurn s p) {r : Perf} {d : Option Decision} {u : State}
    (hp : (s.performing p).perform p (s.turn p).qpe.nextArrival none = (r, d, u)) :
    (s.admitted p).request310 p = u.settled p (s.turn p).qpe.nextArrival r d := by
  have hp' : (s.turn p).newArrival.2.perform p (s.turn p).newArrival.1 none = (r, d, u) := hp
  rw [request_inTurn h]
  unfold State.performInOrder
  rw [h.room]
  have hw (r : RStream) : r.whole p = p := if_pos (Or.inr h.first)
  simp only [Bool.not_true, Bool.false_eq_true, if_false, h.first, if_true, hw, hp']
  rfl

/-- The row of a request that has its turn, given what performing it comes to. -/
theorem requestRow_inTurn {s u : State} {p : Pkt} {typ : Nat} {r : Perf} {d : Option Decision} (h : InTurn s p) (ht : p.typ = typ)
    (hp : (s.performing p).perform p (s.turn p).qpe.nextArrival none = (r, d, u)) :
    run s (fun s => s.requestRow typ false p) = .next (u.settled p (s.turn p).qpe.nextArrival r d).finish := by
  rw [run_on _ h.accepts.on]
  unfold State.requestRow
  rw [if_neg (by simp [ht, h.request, h.direct]), arrive_accepted _ h.accepts, performs_inTurn h hp]

/-- An outcome is settled under any number. -/
theorem settled_done (u : State) (p : Pkt) (arr st rs : Nat) (d : Option Decision) (x : Bytes) :
    u.settled p arr (.done st rs x) d = u.answered p d st rs x := rfl

end Sys2Proof.Machine
end

