-- ==== Sys2Proof/Laws/State.lean ====
section
/-!
SUPPORT. The updates of the state: each leaves every part of the state alone but the one that it names. One lemma per update, a conjunction
with one part for each field.
-/

namespace Sys2Proof.Machine

@[simp] theorem State.drawn_fields (s : State) :
    (s.drawn).pending = s.pending ∧ (s.drawn).out = s.out ∧ (s.drawn).events = s.events ∧ (s.drawn).now = s.now ∧
    (s.drawn).hallTime = s.hallTime ∧ (s.drawn).variant = s.variant ∧ (s.drawn).regs = s.regs ∧ (s.drawn).hif = s.hif ∧
    (s.drawn).xlt = s.xlt ∧ (s.drawn).vrt = s.vrt ∧ (s.drawn).q = s.q ∧ (s.drawn).feat = s.feat ∧ (s.drawn).adm = s.adm ∧
    (s.drawn).qpe = s.qpe ∧ (s.drawn).rtr = s.rtr ∧ (s.drawn).lnk = s.lnk ∧ (s.drawn).hall = s.hall ∧ (s.drawn).plc = s.plc ∧
    (s.drawn).hbm = s.hbm ∧ (s.drawn).svc = s.svc ∧ (s.drawn).sch = s.sch ∧ (s.drawn).syn = s.syn ∧ (s.drawn).trn = s.trn ∧
    (s.drawn).sec = s.sec ∧ (s.drawn).jobs = s.jobs ∧ (s.drawn).col = s.col ∧ (s.drawn).boot = s.boot ∧ (s.drawn).pwr = s.pwr := by
  and_intros <;> rfl

@[simp] theorem State.emit_fields (s : State) (o : Out) :
    (s.emit o).pending = s.pending ∧ (s.emit o).events = s.events ∧ (s.emit o).draws = s.draws ∧ (s.emit o).now = s.now ∧
    (s.emit o).hallTime = s.hallTime ∧ (s.emit o).variant = s.variant ∧ (s.emit o).regs = s.regs ∧ (s.emit o).hif = s.hif ∧
    (s.emit o).xlt = s.xlt ∧ (s.emit o).vrt = s.vrt ∧ (s.emit o).q = s.q ∧ (s.emit o).feat = s.feat ∧ (s.emit o).adm = s.adm ∧
    (s.emit o).qpe = s.qpe ∧ (s.emit o).rtr = s.rtr ∧ (s.emit o).lnk = s.lnk ∧ (s.emit o).hall = s.hall ∧ (s.emit o).plc = s.plc ∧
    (s.emit o).hbm = s.hbm ∧ (s.emit o).svc = s.svc ∧ (s.emit o).sch = s.sch ∧ (s.emit o).syn = s.syn ∧ (s.emit o).trn = s.trn ∧
    (s.emit o).sec = s.sec ∧ (s.emit o).jobs = s.jobs ∧ (s.emit o).col = s.col ∧ (s.emit o).boot = s.boot ∧ (s.emit o).pwr = s.pwr := by
  and_intros <;> rfl

@[simp] theorem State.setReg_fields (s : State) (r : Reg) (v : Word) :
    (s.setReg r v).pending = s.pending ∧ (s.setReg r v).out = s.out ∧ (s.setReg r v).events = s.events ∧ (s.setReg r v).draws = s.draws ∧
    (s.setReg r v).now = s.now ∧ (s.setReg r v).hallTime = s.hallTime ∧ (s.setReg r v).variant = s.variant ∧ (s.setReg r v).hif = s.hif ∧
    (s.setReg r v).xlt = s.xlt ∧ (s.setReg r v).vrt = s.vrt ∧ (s.setReg r v).q = s.q ∧ (s.setReg r v).feat = s.feat ∧
    (s.setReg r v).adm = s.adm ∧ (s.setReg r v).qpe = s.qpe ∧ (s.setReg r v).rtr = s.rtr ∧ (s.setReg r v).lnk = s.lnk ∧
    (s.setReg r v).hall = s.hall ∧ (s.setReg r v).plc = s.plc ∧ (s.setReg r v).hbm = s.hbm ∧ (s.setReg r v).svc = s.svc ∧
    (s.setReg r v).sch = s.sch ∧ (s.setReg r v).syn = s.syn ∧ (s.setReg r v).trn = s.trn ∧ (s.setReg r v).sec = s.sec ∧
    (s.setReg r v).jobs = s.jobs ∧ (s.setReg r v).col = s.col ∧ (s.setReg r v).boot = s.boot ∧ (s.setReg r v).pwr = s.pwr := by
  and_intros <;> rfl

@[simp] theorem State.setCom_fields (s : State) (r : Reg) (v : Word) :
    (s.setCom r v).pending = s.pending ∧ (s.setCom r v).out = s.out ∧ (s.setCom r v).events = s.events ∧ (s.setCom r v).draws = s.draws ∧
    (s.setCom r v).now = s.now ∧ (s.setCom r v).hallTime = s.hallTime ∧ (s.setCom r v).variant = s.variant ∧ (s.setCom r v).hif = s.hif ∧
    (s.setCom r v).xlt = s.xlt ∧ (s.setCom r v).vrt = s.vrt ∧ (s.setCom r v).q = s.q ∧ (s.setCom r v).feat = s.feat ∧
    (s.setCom r v).adm = s.adm ∧ (s.setCom r v).qpe = s.qpe ∧ (s.setCom r v).rtr = s.rtr ∧ (s.setCom r v).lnk = s.lnk ∧
    (s.setCom r v).hall = s.hall ∧ (s.setCom r v).plc = s.plc ∧ (s.setCom r v).hbm = s.hbm ∧ (s.setCom r v).svc = s.svc ∧
    (s.setCom r v).sch = s.sch ∧ (s.setCom r v).syn = s.syn ∧ (s.setCom r v).trn = s.trn ∧ (s.setCom r v).sec = s.sec ∧
    (s.setCom r v).jobs = s.jobs ∧ (s.setCom r v).col = s.col ∧ (s.setCom r v).boot = s.boot ∧ (s.setCom r v).pwr = s.pwr := by
  and_intros <;> rfl

@[simp] theorem State.setRegOf_fields (s : State) (n : Nat) (r : Reg) (v : Word) :
    (s.setRegOf n r v).pending = s.pending ∧ (s.setRegOf n r v).out = s.out ∧ (s.setRegOf n r v).events = s.events ∧
    (s.setRegOf n r v).draws = s.draws ∧ (s.setRegOf n r v).now = s.now ∧ (s.setRegOf n r v).hallTime = s.hallTime ∧
    (s.setRegOf n r v).variant = s.variant ∧ (s.setRegOf n r v).hif = s.hif ∧ (s.setRegOf n r v).xlt = s.xlt ∧
    (s.setRegOf n r v).vrt = s.vrt ∧ (s.setRegOf n r v).q = s.q ∧ (s.setRegOf n r v).feat = s.feat ∧ (s.setRegOf n r v).adm = s.adm ∧
    (s.setRegOf n r v).qpe = s.qpe ∧ (s.setRegOf n r v).rtr = s.rtr ∧ (s.setRegOf n r v).lnk = s.lnk ∧ (s.setRegOf n r v).hall = s.hall ∧
    (s.setRegOf n r v).plc = s.plc ∧ (s.setRegOf n r v).hbm = s.hbm ∧ (s.setRegOf n r v).svc = s.svc ∧ (s.setRegOf n r v).sch = s.sch ∧
    (s.setRegOf n r v).syn = s.syn ∧ (s.setRegOf n r v).trn = s.trn ∧ (s.setRegOf n r v).sec = s.sec ∧ (s.setRegOf n r v).jobs = s.jobs ∧
    (s.setRegOf n r v).col = s.col ∧ (s.setRegOf n r v).boot = s.boot ∧ (s.setRegOf n r v).pwr = s.pwr := by
  and_intros <;> rfl

@[simp] theorem State.raise_fields (s : State) (dest : EventTo) (typ source data0 data1 : Nat) :
    (s.raise dest typ source data0 data1).pending = s.pending ∧ (s.raise dest typ source data0 data1).out = s.out ∧
    (s.raise dest typ source data0 data1).draws = s.draws ∧ (s.raise dest typ source data0 data1).now = s.now ∧
    (s.raise dest typ source data0 data1).hallTime = s.hallTime ∧ (s.raise dest typ source data0 data1).variant = s.variant ∧
    (s.raise dest typ source data0 data1).regs = s.regs ∧ (s.raise dest typ source data0 data1).hif = s.hif ∧
    (s.raise dest typ source data0 data1).xlt = s.xlt ∧ (s.raise dest typ source data0 data1).vrt = s.vrt ∧
    (s.raise dest typ source data0 data1).q = s.q ∧ (s.raise dest typ source data0 data1).feat = s.feat ∧
    (s.raise dest typ source data0 data1).adm = s.adm ∧ (s.raise dest typ source data0 data1).qpe = s.qpe ∧
    (s.raise dest typ source data0 data1).rtr = s.rtr ∧ (s.raise dest typ source data0 data1).lnk = s.lnk ∧
    (s.raise dest typ source data0 data1).hall = s.hall ∧ (s.raise dest typ source data0 data1).plc = s.plc ∧
    (s.raise dest typ source data0 data1).hbm = s.hbm ∧ (s.raise dest typ source data0 data1).svc = s.svc ∧
    (s.raise dest typ source data0 data1).sch = s.sch ∧ (s.raise dest typ source data0 data1).syn = s.syn ∧
    (s.raise dest typ source data0 data1).trn = s.trn ∧ (s.raise dest typ source data0 data1).sec = s.sec ∧
    (s.raise dest typ source data0 data1).jobs = s.jobs ∧ (s.raise dest typ source data0 data1).col = s.col ∧
    (s.raise dest typ source data0 data1).boot = s.boot ∧ (s.raise dest typ source data0 data1).pwr = s.pwr := by
  and_intros <;> rfl

@[simp] theorem State.setPort_fields (s : State) (p : Nat) (x : Port) :
    (s.setPort p x).pending = s.pending ∧ (s.setPort p x).out = s.out ∧ (s.setPort p x).events = s.events ∧
    (s.setPort p x).draws = s.draws ∧ (s.setPort p x).now = s.now ∧ (s.setPort p x).hallTime = s.hallTime ∧
    (s.setPort p x).variant = s.variant ∧ (s.setPort p x).regs = s.regs ∧ (s.setPort p x).xlt = s.xlt ∧ (s.setPort p x).vrt = s.vrt ∧
    (s.setPort p x).q = s.q ∧ (s.setPort p x).feat = s.feat ∧ (s.setPort p x).adm = s.adm ∧ (s.setPort p x).qpe = s.qpe ∧
    (s.setPort p x).rtr = s.rtr ∧ (s.setPort p x).lnk = s.lnk ∧ (s.setPort p x).hall = s.hall ∧ (s.setPort p x).plc = s.plc ∧
    (s.setPort p x).hbm = s.hbm ∧ (s.setPort p x).svc = s.svc ∧ (s.setPort p x).sch = s.sch ∧ (s.setPort p x).syn = s.syn ∧
    (s.setPort p x).trn = s.trn ∧ (s.setPort p x).sec = s.sec ∧ (s.setPort p x).jobs = s.jobs ∧ (s.setPort p x).col = s.col ∧
    (s.setPort p x).boot = s.boot ∧ (s.setPort p x).pwr = s.pwr := by
  and_intros <;> rfl

@[simp] theorem State.setFn_fields (s : State) (n : Nat) (x : Fn) :
    (s.setFn n x).pending = s.pending ∧ (s.setFn n x).out = s.out ∧ (s.setFn n x).events = s.events ∧ (s.setFn n x).draws = s.draws ∧
    (s.setFn n x).now = s.now ∧ (s.setFn n x).hallTime = s.hallTime ∧ (s.setFn n x).variant = s.variant ∧ (s.setFn n x).regs = s.regs ∧
    (s.setFn n x).xlt = s.xlt ∧ (s.setFn n x).vrt = s.vrt ∧ (s.setFn n x).q = s.q ∧ (s.setFn n x).feat = s.feat ∧
    (s.setFn n x).adm = s.adm ∧ (s.setFn n x).qpe = s.qpe ∧ (s.setFn n x).rtr = s.rtr ∧ (s.setFn n x).lnk = s.lnk ∧
    (s.setFn n x).hall = s.hall ∧ (s.setFn n x).plc = s.plc ∧ (s.setFn n x).hbm = s.hbm ∧ (s.setFn n x).svc = s.svc ∧
    (s.setFn n x).sch = s.sch ∧ (s.setFn n x).syn = s.syn ∧ (s.setFn n x).trn = s.trn ∧ (s.setFn n x).sec = s.sec ∧
    (s.setFn n x).jobs = s.jobs ∧ (s.setFn n x).col = s.col ∧ (s.setFn n x).boot = s.boot ∧ (s.setFn n x).pwr = s.pwr := by
  and_intros <;> rfl

@[simp] theorem State.setInst_fields (s : State) (n : Nat) (i : Inst) :
    (s.setInst n i).pending = s.pending ∧ (s.setInst n i).out = s.out ∧ (s.setInst n i).events = s.events ∧
    (s.setInst n i).draws = s.draws ∧ (s.setInst n i).now = s.now ∧ (s.setInst n i).hallTime = s.hallTime ∧
    (s.setInst n i).variant = s.variant ∧ (s.setInst n i).regs = s.regs ∧ (s.setInst n i).hif = s.hif ∧ (s.setInst n i).xlt = s.xlt ∧
    (s.setInst n i).q = s.q ∧ (s.setInst n i).feat = s.feat ∧ (s.setInst n i).adm = s.adm ∧ (s.setInst n i).qpe = s.qpe ∧
    (s.setInst n i).rtr = s.rtr ∧ (s.setInst n i).lnk = s.lnk ∧ (s.setInst n i).hall = s.hall ∧ (s.setInst n i).plc = s.plc ∧
    (s.setInst n i).hbm = s.hbm ∧ (s.setInst n i).svc = s.svc ∧ (s.setInst n i).sch = s.sch ∧ (s.setInst n i).syn = s.syn ∧
    (s.setInst n i).trn = s.trn ∧ (s.setInst n i).sec = s.sec ∧ (s.setInst n i).jobs = s.jobs ∧ (s.setInst n i).col = s.col ∧
    (s.setInst n i).boot = s.boot ∧ (s.setInst n i).pwr = s.pwr := by
  and_intros <;> rfl

@[simp] theorem State.updInst_fields (s : State) (n : Nat) (f : Inst → Inst) :
    (s.updInst n f).pending = s.pending ∧ (s.updInst n f).out = s.out ∧ (s.updInst n f).events = s.events ∧
    (s.updInst n f).draws = s.draws ∧ (s.updInst n f).now = s.now ∧ (s.updInst n f).hallTime = s.hallTime ∧
    (s.updInst n f).variant = s.variant ∧ (s.updInst n f).regs = s.regs ∧ (s.updInst n f).hif = s.hif ∧ (s.updInst n f).xlt = s.xlt ∧
    (s.updInst n f).q = s.q ∧ (s.updInst n f).feat = s.feat ∧ (s.updInst n f).adm = s.adm ∧ (s.updInst n f).qpe = s.qpe ∧
    (s.updInst n f).rtr = s.rtr ∧ (s.updInst n f).lnk = s.lnk ∧ (s.updInst n f).hall = s.hall ∧ (s.updInst n f).plc = s.plc ∧
    (s.updInst n f).hbm = s.hbm ∧ (s.updInst n f).svc = s.svc ∧ (s.updInst n f).sch = s.sch ∧ (s.updInst n f).syn = s.syn ∧
    (s.updInst n f).trn = s.trn ∧ (s.updInst n f).sec = s.sec ∧ (s.updInst n f).jobs = s.jobs ∧ (s.updInst n f).col = s.col ∧
    (s.updInst n f).boot = s.boot ∧ (s.updInst n f).pwr = s.pwr := by
  and_intros <;> rfl

@[simp] theorem State.lifeCount_fields (s : State) (i : Nat) :
    (s.lifeCount i).pending = s.pending ∧ (s.lifeCount i).out = s.out ∧ (s.lifeCount i).events = s.events ∧
    (s.lifeCount i).draws = s.draws ∧ (s.lifeCount i).now = s.now ∧ (s.lifeCount i).hallTime = s.hallTime ∧
    (s.lifeCount i).variant = s.variant ∧ (s.lifeCount i).regs = s.regs ∧ (s.lifeCount i).hif = s.hif ∧ (s.lifeCount i).xlt = s.xlt ∧
    (s.lifeCount i).vrt = s.vrt ∧ (s.lifeCount i).q = s.q ∧ (s.lifeCount i).feat = s.feat ∧ (s.lifeCount i).adm = s.adm ∧
    (s.lifeCount i).qpe = s.qpe ∧ (s.lifeCount i).rtr = s.rtr ∧ (s.lifeCount i).lnk = s.lnk ∧ (s.lifeCount i).hall = s.hall ∧
    (s.lifeCount i).plc = s.plc ∧ (s.lifeCount i).hbm = s.hbm ∧ (s.lifeCount i).sch = s.sch ∧ (s.lifeCount i).syn = s.syn ∧
    (s.lifeCount i).trn = s.trn ∧ (s.lifeCount i).sec = s.sec ∧ (s.lifeCount i).jobs = s.jobs ∧ (s.lifeCount i).col = s.col ∧
    (s.lifeCount i).boot = s.boot ∧ (s.lifeCount i).pwr = s.pwr := by
  and_intros <;> rfl

@[simp] theorem State.setEcc_fields (s : State) (w : Nat) (e : Ecc) :
    (s.setEcc w e).pending = s.pending ∧ (s.setEcc w e).out = s.out ∧ (s.setEcc w e).events = s.events ∧ (s.setEcc w e).draws = s.draws ∧
    (s.setEcc w e).now = s.now ∧ (s.setEcc w e).hallTime = s.hallTime ∧ (s.setEcc w e).variant = s.variant ∧
    (s.setEcc w e).regs = s.regs ∧ (s.setEcc w e).hif = s.hif ∧ (s.setEcc w e).xlt = s.xlt ∧ (s.setEcc w e).vrt = s.vrt ∧
    (s.setEcc w e).q = s.q ∧ (s.setEcc w e).feat = s.feat ∧ (s.setEcc w e).adm = s.adm ∧ (s.setEcc w e).qpe = s.qpe ∧
    (s.setEcc w e).rtr = s.rtr ∧ (s.setEcc w e).lnk = s.lnk ∧ (s.setEcc w e).hall = s.hall ∧ (s.setEcc w e).plc = s.plc ∧
    (s.setEcc w e).svc = s.svc ∧ (s.setEcc w e).sch = s.sch ∧ (s.setEcc w e).syn = s.syn ∧ (s.setEcc w e).trn = s.trn ∧
    (s.setEcc w e).sec = s.sec ∧ (s.setEcc w e).jobs = s.jobs ∧ (s.setEcc w e).col = s.col ∧ (s.setEcc w e).boot = s.boot ∧
    (s.setEcc w e).pwr = s.pwr := by
  and_intros <;> rfl

@[simp] theorem State.clearEcc_fields (s : State) (w : Nat) :
    (s.clearEcc w).pending = s.pending ∧ (s.clearEcc w).out = s.out ∧ (s.clearEcc w).events = s.events ∧ (s.clearEcc w).draws = s.draws ∧
    (s.clearEcc w).now = s.now ∧ (s.clearEcc w).hallTime = s.hallTime ∧ (s.clearEcc w).variant = s.variant ∧
    (s.clearEcc w).regs = s.regs ∧ (s.clearEcc w).hif = s.hif ∧ (s.clearEcc w).xlt = s.xlt ∧ (s.clearEcc w).vrt = s.vrt ∧
    (s.clearEcc w).q = s.q ∧ (s.clearEcc w).feat = s.feat ∧ (s.clearEcc w).adm = s.adm ∧ (s.clearEcc w).qpe = s.qpe ∧
    (s.clearEcc w).rtr = s.rtr ∧ (s.clearEcc w).lnk = s.lnk ∧ (s.clearEcc w).hall = s.hall ∧ (s.clearEcc w).plc = s.plc ∧
    (s.clearEcc w).svc = s.svc ∧ (s.clearEcc w).sch = s.sch ∧ (s.clearEcc w).syn = s.syn ∧ (s.clearEcc w).trn = s.trn ∧
    (s.clearEcc w).sec = s.sec ∧ (s.clearEcc w).jobs = s.jobs ∧ (s.clearEcc w).col = s.col ∧ (s.clearEcc w).boot = s.boot ∧
    (s.clearEcc w).pwr = s.pwr := by
  and_intros <;> rfl

@[simp] theorem State.fillTlb_fields (s : State) (n gen : Nat) (e : Nat × Leaf) :
    (s.fillTlb n gen e).pending = s.pending ∧ (s.fillTlb n gen e).out = s.out ∧ (s.fillTlb n gen e).events = s.events ∧
    (s.fillTlb n gen e).now = s.now ∧ (s.fillTlb n gen e).hallTime = s.hallTime ∧
    (s.fillTlb n gen e).variant = s.variant ∧ (s.fillTlb n gen e).regs = s.regs ∧ (s.fillTlb n gen e).hif = s.hif ∧
    (s.fillTlb n gen e).vrt = s.vrt ∧ (s.fillTlb n gen e).q = s.q ∧ (s.fillTlb n gen e).feat = s.feat ∧ (s.fillTlb n gen e).adm = s.adm ∧
    (s.fillTlb n gen e).qpe = s.qpe ∧ (s.fillTlb n gen e).rtr = s.rtr ∧ (s.fillTlb n gen e).lnk = s.lnk ∧
    (s.fillTlb n gen e).hall = s.hall ∧ (s.fillTlb n gen e).plc = s.plc ∧ (s.fillTlb n gen e).hbm = s.hbm ∧
    (s.fillTlb n gen e).svc = s.svc ∧ (s.fillTlb n gen e).sch = s.sch ∧ (s.fillTlb n gen e).syn = s.syn ∧
    (s.fillTlb n gen e).trn = s.trn ∧ (s.fillTlb n gen e).sec = s.sec ∧ (s.fillTlb n gen e).jobs = s.jobs ∧
    (s.fillTlb n gen e).col = s.col ∧ (s.fillTlb n gen e).boot = s.boot ∧ (s.fillTlb n gen e).pwr = s.pwr := by
  and_intros <;> rfl

@[simp] theorem State.setLq_fields (s : State) (n : Nat) (x : Lq) :
    (s.setLq n x).pending = s.pending ∧ (s.setLq n x).out = s.out ∧ (s.setLq n x).events = s.events ∧ (s.setLq n x).draws = s.draws ∧
    (s.setLq n x).now = s.now ∧ (s.setLq n x).hallTime = s.hallTime ∧ (s.setLq n x).variant = s.variant ∧ (s.setLq n x).regs = s.regs ∧
    (s.setLq n x).hif = s.hif ∧ (s.setLq n x).xlt = s.xlt ∧ (s.setLq n x).vrt = s.vrt ∧ (s.setLq n x).feat = s.feat ∧
    (s.setLq n x).adm = s.adm ∧ (s.setLq n x).qpe = s.qpe ∧ (s.setLq n x).rtr = s.rtr ∧ (s.setLq n x).lnk = s.lnk ∧
    (s.setLq n x).hall = s.hall ∧ (s.setLq n x).plc = s.plc ∧ (s.setLq n x).hbm = s.hbm ∧ (s.setLq n x).svc = s.svc ∧
    (s.setLq n x).sch = s.sch ∧ (s.setLq n x).syn = s.syn ∧ (s.setLq n x).trn = s.trn ∧ (s.setLq n x).sec = s.sec ∧
    (s.setLq n x).jobs = s.jobs ∧ (s.setLq n x).col = s.col ∧ (s.setLq n x).boot = s.boot ∧ (s.setLq n x).pwr = s.pwr := by
  and_intros <;> rfl

@[simp] theorem State.setCq_fields (s : State) (n : Nat) (x : Cq) :
    (s.setCq n x).pending = s.pending ∧ (s.setCq n x).out = s.out ∧ (s.setCq n x).events = s.events ∧ (s.setCq n x).draws = s.draws ∧
    (s.setCq n x).now = s.now ∧ (s.setCq n x).hallTime = s.hallTime ∧ (s.setCq n x).variant = s.variant ∧ (s.setCq n x).regs = s.regs ∧
    (s.setCq n x).hif = s.hif ∧ (s.setCq n x).xlt = s.xlt ∧ (s.setCq n x).vrt = s.vrt ∧ (s.setCq n x).feat = s.feat ∧
    (s.setCq n x).adm = s.adm ∧ (s.setCq n x).qpe = s.qpe ∧ (s.setCq n x).rtr = s.rtr ∧ (s.setCq n x).lnk = s.lnk ∧
    (s.setCq n x).hall = s.hall ∧ (s.setCq n x).plc = s.plc ∧ (s.setCq n x).hbm = s.hbm ∧ (s.setCq n x).svc = s.svc ∧
    (s.setCq n x).sch = s.sch ∧ (s.setCq n x).syn = s.syn ∧ (s.setCq n x).trn = s.trn ∧ (s.setCq n x).sec = s.sec ∧
    (s.setCq n x).jobs = s.jobs ∧ (s.setCq n x).col = s.col ∧ (s.setCq n x).boot = s.boot ∧ (s.setCq n x).pwr = s.pwr := by
  and_intros <;> rfl

@[simp] theorem State.setWq_fields (s : State) (n : Nat) (x : Wq) :
    (s.setWq n x).pending = s.pending ∧ (s.setWq n x).out = s.out ∧ (s.setWq n x).events = s.events ∧ (s.setWq n x).draws = s.draws ∧
    (s.setWq n x).now = s.now ∧ (s.setWq n x).hallTime = s.hallTime ∧ (s.setWq n x).variant = s.variant ∧ (s.setWq n x).regs = s.regs ∧
    (s.setWq n x).hif = s.hif ∧ (s.setWq n x).xlt = s.xlt ∧ (s.setWq n x).vrt = s.vrt ∧ (s.setWq n x).feat = s.feat ∧
    (s.setWq n x).adm = s.adm ∧ (s.setWq n x).qpe = s.qpe ∧ (s.setWq n x).rtr = s.rtr ∧ (s.setWq n x).lnk = s.lnk ∧
    (s.setWq n x).hall = s.hall ∧ (s.setWq n x).plc = s.plc ∧ (s.setWq n x).hbm = s.hbm ∧ (s.setWq n x).svc = s.svc ∧
    (s.setWq n x).sch = s.sch ∧ (s.setWq n x).syn = s.syn ∧ (s.setWq n x).trn = s.trn ∧ (s.setWq n x).sec = s.sec ∧
    (s.setWq n x).jobs = s.jobs ∧ (s.setWq n x).col = s.col ∧ (s.setWq n x).boot = s.boot ∧ (s.setWq n x).pwr = s.pwr := by
  and_intros <;> rfl

@[simp] theorem State.updWq_fields (s : State) (n : Nat) (f : Wq → Wq) :
    (s.updWq n f).pending = s.pending ∧ (s.updWq n f).out = s.out ∧ (s.updWq n f).events = s.events ∧ (s.updWq n f).draws = s.draws ∧
    (s.updWq n f).now = s.now ∧ (s.updWq n f).hallTime = s.hallTime ∧ (s.updWq n f).variant = s.variant ∧ (s.updWq n f).regs = s.regs ∧
    (s.updWq n f).hif = s.hif ∧ (s.updWq n f).xlt = s.xlt ∧ (s.updWq n f).vrt = s.vrt ∧ (s.updWq n f).feat = s.feat ∧
    (s.updWq n f).adm = s.adm ∧ (s.updWq n f).qpe = s.qpe ∧ (s.updWq n f).rtr = s.rtr ∧ (s.updWq n f).lnk = s.lnk ∧
    (s.updWq n f).hall = s.hall ∧ (s.updWq n f).plc = s.plc ∧ (s.updWq n f).hbm = s.hbm ∧ (s.updWq n f).svc = s.svc ∧
    (s.updWq n f).sch = s.sch ∧ (s.updWq n f).syn = s.syn ∧ (s.updWq n f).trn = s.trn ∧ (s.updWq n f).sec = s.sec ∧
    (s.updWq n f).jobs = s.jobs ∧ (s.updWq n f).col = s.col ∧ (s.updWq n f).boot = s.boot ∧ (s.updWq n f).pwr = s.pwr := by
  and_intros <;> rfl

@[simp] theorem State.setAdm_fields (s : State) (p : Nat) (a : AdmQ) :
    (s.setAdm p a).pending = s.pending ∧ (s.setAdm p a).out = s.out ∧ (s.setAdm p a).events = s.events ∧ (s.setAdm p a).draws = s.draws ∧
    (s.setAdm p a).now = s.now ∧ (s.setAdm p a).hallTime = s.hallTime ∧ (s.setAdm p a).variant = s.variant ∧
    (s.setAdm p a).regs = s.regs ∧ (s.setAdm p a).hif = s.hif ∧ (s.setAdm p a).xlt = s.xlt ∧ (s.setAdm p a).vrt = s.vrt ∧
    (s.setAdm p a).q = s.q ∧ (s.setAdm p a).feat = s.feat ∧ (s.setAdm p a).qpe = s.qpe ∧ (s.setAdm p a).rtr = s.rtr ∧
    (s.setAdm p a).lnk = s.lnk ∧ (s.setAdm p a).hall = s.hall ∧ (s.setAdm p a).plc = s.plc ∧ (s.setAdm p a).hbm = s.hbm ∧
    (s.setAdm p a).svc = s.svc ∧ (s.setAdm p a).sch = s.sch ∧ (s.setAdm p a).syn = s.syn ∧ (s.setAdm p a).trn = s.trn ∧
    (s.setAdm p a).sec = s.sec ∧ (s.setAdm p a).jobs = s.jobs ∧ (s.setAdm p a).col = s.col ∧ (s.setAdm p a).boot = s.boot ∧
    (s.setAdm p a).pwr = s.pwr := by
  and_intros <;> rfl

@[simp] theorem State.setPwr_fields (s : State) (p : Pwr) :
    (s.setPwr p).pending = s.pending ∧ (s.setPwr p).out = s.out ∧ (s.setPwr p).events = s.events ∧ (s.setPwr p).draws = s.draws ∧
    (s.setPwr p).now = s.now ∧ (s.setPwr p).hallTime = s.hallTime ∧ (s.setPwr p).variant = s.variant ∧ (s.setPwr p).regs = s.regs ∧
    (s.setPwr p).hif = s.hif ∧ (s.setPwr p).xlt = s.xlt ∧ (s.setPwr p).vrt = s.vrt ∧ (s.setPwr p).q = s.q ∧ (s.setPwr p).feat = s.feat ∧
    (s.setPwr p).adm = s.adm ∧ (s.setPwr p).qpe = s.qpe ∧ (s.setPwr p).rtr = s.rtr ∧ (s.setPwr p).lnk = s.lnk ∧
    (s.setPwr p).hall = s.hall ∧ (s.setPwr p).plc = s.plc ∧ (s.setPwr p).hbm = s.hbm ∧ (s.setPwr p).svc = s.svc ∧
    (s.setPwr p).sch = s.sch ∧ (s.setPwr p).syn = s.syn ∧ (s.setPwr p).trn = s.trn ∧ (s.setPwr p).sec = s.sec ∧
    (s.setPwr p).jobs = s.jobs ∧ (s.setPwr p).col = s.col ∧ (s.setPwr p).boot = s.boot := by
  and_intros <;> rfl

@[simp] theorem State.watermark_fields (s : State) (key n : Nat) :
    (s.watermark key n).pending = s.pending ∧ (s.watermark key n).out = s.out ∧ (s.watermark key n).events = s.events ∧
    (s.watermark key n).draws = s.draws ∧ (s.watermark key n).now = s.now ∧ (s.watermark key n).hallTime = s.hallTime ∧
    (s.watermark key n).variant = s.variant ∧ (s.watermark key n).regs = s.regs ∧ (s.watermark key n).hif = s.hif ∧
    (s.watermark key n).xlt = s.xlt ∧ (s.watermark key n).vrt = s.vrt ∧ (s.watermark key n).q = s.q ∧ (s.watermark key n).feat = s.feat ∧
    (s.watermark key n).adm = s.adm ∧ (s.watermark key n).qpe = s.qpe ∧ (s.watermark key n).lnk = s.lnk ∧
    (s.watermark key n).hall = s.hall ∧ (s.watermark key n).plc = s.plc ∧ (s.watermark key n).hbm = s.hbm ∧
    (s.watermark key n).svc = s.svc ∧ (s.watermark key n).sch = s.sch ∧ (s.watermark key n).syn = s.syn ∧
    (s.watermark key n).trn = s.trn ∧ (s.watermark key n).sec = s.sec ∧ (s.watermark key n).jobs = s.jobs ∧
    (s.watermark key n).col = s.col ∧ (s.watermark key n).boot = s.boot ∧ (s.watermark key n).pwr = s.pwr := by
  and_intros <;> rfl

@[simp] theorem State.setThrottle_fields (s : State) (k : Nat) (t : Throttle) :
    (s.setThrottle k t).pending = s.pending ∧ (s.setThrottle k t).out = s.out ∧ (s.setThrottle k t).events = s.events ∧
    (s.setThrottle k t).draws = s.draws ∧ (s.setThrottle k t).now = s.now ∧ (s.setThrottle k t).hallTime = s.hallTime ∧
    (s.setThrottle k t).variant = s.variant ∧ (s.setThrottle k t).regs = s.regs ∧ (s.setThrottle k t).hif = s.hif ∧
    (s.setThrottle k t).xlt = s.xlt ∧ (s.setThrottle k t).vrt = s.vrt ∧ (s.setThrottle k t).q = s.q ∧ (s.setThrottle k t).feat = s.feat ∧
    (s.setThrottle k t).adm = s.adm ∧ (s.setThrottle k t).qpe = s.qpe ∧ (s.setThrottle k t).lnk = s.lnk ∧
    (s.setThrottle k t).hall = s.hall ∧ (s.setThrottle k t).plc = s.plc ∧ (s.setThrottle k t).hbm = s.hbm ∧
    (s.setThrottle k t).svc = s.svc ∧ (s.setThrottle k t).sch = s.sch ∧ (s.setThrottle k t).syn = s.syn ∧
    (s.setThrottle k t).trn = s.trn ∧ (s.setThrottle k t).sec = s.sec ∧ (s.setThrottle k t).jobs = s.jobs ∧
    (s.setThrottle k t).col = s.col ∧ (s.setThrottle k t).boot = s.boot ∧ (s.setThrottle k t).pwr = s.pwr := by
  and_intros <;> rfl

@[simp] theorem State.setPage_fields (s : State) (i : Nat) (p : Page) :
    (s.setPage i p).pending = s.pending ∧ (s.setPage i p).out = s.out ∧ (s.setPage i p).events = s.events ∧
    (s.setPage i p).draws = s.draws ∧ (s.setPage i p).now = s.now ∧ (s.setPage i p).hallTime = s.hallTime ∧
    (s.setPage i p).variant = s.variant ∧ (s.setPage i p).regs = s.regs ∧ (s.setPage i p).hif = s.hif ∧ (s.setPage i p).xlt = s.xlt ∧
    (s.setPage i p).vrt = s.vrt ∧ (s.setPage i p).q = s.q ∧ (s.setPage i p).feat = s.feat ∧ (s.setPage i p).adm = s.adm ∧
    (s.setPage i p).qpe = s.qpe ∧ (s.setPage i p).rtr = s.rtr ∧ (s.setPage i p).lnk = s.lnk ∧ (s.setPage i p).plc = s.plc ∧
    (s.setPage i p).hbm = s.hbm ∧ (s.setPage i p).svc = s.svc ∧ (s.setPage i p).sch = s.sch ∧ (s.setPage i p).syn = s.syn ∧
    (s.setPage i p).trn = s.trn ∧ (s.setPage i p).sec = s.sec ∧ (s.setPage i p).jobs = s.jobs ∧ (s.setPage i p).col = s.col ∧
    (s.setPage i p).boot = s.boot ∧ (s.setPage i p).pwr = s.pwr := by
  and_intros <;> rfl

@[simp] theorem State.setHeld_fields (s : State) (key : Nat) (h : Held) :
    (s.setHeld key h).pending = s.pending ∧ (s.setHeld key h).out = s.out ∧ (s.setHeld key h).events = s.events ∧
    (s.setHeld key h).draws = s.draws ∧ (s.setHeld key h).now = s.now ∧ (s.setHeld key h).hallTime = s.hallTime ∧
    (s.setHeld key h).variant = s.variant ∧ (s.setHeld key h).regs = s.regs ∧ (s.setHeld key h).hif = s.hif ∧
    (s.setHeld key h).xlt = s.xlt ∧ (s.setHeld key h).vrt = s.vrt ∧ (s.setHeld key h).q = s.q ∧ (s.setHeld key h).feat = s.feat ∧
    (s.setHeld key h).adm = s.adm ∧ (s.setHeld key h).qpe = s.qpe ∧ (s.setHeld key h).rtr = s.rtr ∧ (s.setHeld key h).lnk = s.lnk ∧
    (s.setHeld key h).hall = s.hall ∧ (s.setHeld key h).hbm = s.hbm ∧ (s.setHeld key h).svc = s.svc ∧ (s.setHeld key h).sch = s.sch ∧
    (s.setHeld key h).syn = s.syn ∧ (s.setHeld key h).trn = s.trn ∧ (s.setHeld key h).sec = s.sec ∧ (s.setHeld key h).jobs = s.jobs ∧
    (s.setHeld key h).col = s.col ∧ (s.setHeld key h).boot = s.boot ∧ (s.setHeld key h).pwr = s.pwr := by
  and_intros <;> rfl

@[simp] theorem State.cachePut_fields (s : State) (e : PlcEntry) :
    (s.cachePut e).pending = s.pending ∧ (s.cachePut e).out = s.out ∧ (s.cachePut e).events = s.events ∧ (s.cachePut e).draws = s.draws ∧
    (s.cachePut e).now = s.now ∧ (s.cachePut e).hallTime = s.hallTime ∧ (s.cachePut e).variant = s.variant ∧
    (s.cachePut e).regs = s.regs ∧ (s.cachePut e).hif = s.hif ∧ (s.cachePut e).xlt = s.xlt ∧ (s.cachePut e).vrt = s.vrt ∧
    (s.cachePut e).q = s.q ∧ (s.cachePut e).feat = s.feat ∧ (s.cachePut e).adm = s.adm ∧ (s.cachePut e).qpe = s.qpe ∧
    (s.cachePut e).rtr = s.rtr ∧ (s.cachePut e).lnk = s.lnk ∧ (s.cachePut e).hall = s.hall ∧ (s.cachePut e).hbm = s.hbm ∧
    (s.cachePut e).svc = s.svc ∧ (s.cachePut e).sch = s.sch ∧ (s.cachePut e).syn = s.syn ∧ (s.cachePut e).trn = s.trn ∧
    (s.cachePut e).sec = s.sec ∧ (s.cachePut e).jobs = s.jobs ∧ (s.cachePut e).col = s.col ∧ (s.cachePut e).boot = s.boot ∧
    (s.cachePut e).pwr = s.pwr := by
  and_intros <;> rfl

@[simp] theorem State.setQp_fields (s : State) (n : Nat) (q : Qp) :
    (s.setQp n q).pending = s.pending ∧ (s.setQp n q).out = s.out ∧ (s.setQp n q).events = s.events ∧ (s.setQp n q).draws = s.draws ∧
    (s.setQp n q).now = s.now ∧ (s.setQp n q).hallTime = s.hallTime ∧ (s.setQp n q).variant = s.variant ∧ (s.setQp n q).regs = s.regs ∧
    (s.setQp n q).hif = s.hif ∧ (s.setQp n q).xlt = s.xlt ∧ (s.setQp n q).vrt = s.vrt ∧ (s.setQp n q).q = s.q ∧
    (s.setQp n q).feat = s.feat ∧ (s.setQp n q).adm = s.adm ∧ (s.setQp n q).rtr = s.rtr ∧ (s.setQp n q).lnk = s.lnk ∧
    (s.setQp n q).hall = s.hall ∧ (s.setQp n q).plc = s.plc ∧ (s.setQp n q).hbm = s.hbm ∧ (s.setQp n q).svc = s.svc ∧
    (s.setQp n q).sch = s.sch ∧ (s.setQp n q).syn = s.syn ∧ (s.setQp n q).trn = s.trn ∧ (s.setQp n q).sec = s.sec ∧
    (s.setQp n q).jobs = s.jobs ∧ (s.setQp n q).col = s.col ∧ (s.setQp n q).boot = s.boot ∧ (s.setQp n q).pwr = s.pwr := by
  and_intros <;> rfl

@[simp] theorem State.bmc_fields (s : State) (kind : Nat) (data : Bytes) :
    (s.bmc kind data).pending = s.pending ∧ (s.bmc kind data).events = s.events ∧ (s.bmc kind data).draws = s.draws ∧
    (s.bmc kind data).now = s.now ∧ (s.bmc kind data).hallTime = s.hallTime ∧ (s.bmc kind data).variant = s.variant ∧
    (s.bmc kind data).regs = s.regs ∧ (s.bmc kind data).hif = s.hif ∧ (s.bmc kind data).xlt = s.xlt ∧ (s.bmc kind data).vrt = s.vrt ∧
    (s.bmc kind data).q = s.q ∧ (s.bmc kind data).feat = s.feat ∧ (s.bmc kind data).adm = s.adm ∧ (s.bmc kind data).qpe = s.qpe ∧
    (s.bmc kind data).rtr = s.rtr ∧ (s.bmc kind data).lnk = s.lnk ∧ (s.bmc kind data).hall = s.hall ∧ (s.bmc kind data).plc = s.plc ∧
    (s.bmc kind data).hbm = s.hbm ∧ (s.bmc kind data).sch = s.sch ∧ (s.bmc kind data).syn = s.syn ∧ (s.bmc kind data).trn = s.trn ∧
    (s.bmc kind data).sec = s.sec ∧ (s.bmc kind data).jobs = s.jobs ∧ (s.bmc kind data).col = s.col ∧ (s.bmc kind data).boot = s.boot ∧
    (s.bmc kind data).pwr = s.pwr := by
  unfold State.bmc
  split <;> and_intros <;> rfl

@[simp] theorem State.unsend_fields (s : State) (t : Txn) :
    (s.unsend t).pending = s.pending ∧ (s.unsend t).out = s.out ∧ (s.unsend t).events = s.events ∧ (s.unsend t).draws = s.draws ∧
    (s.unsend t).now = s.now ∧ (s.unsend t).hallTime = s.hallTime ∧ (s.unsend t).variant = s.variant ∧ (s.unsend t).regs = s.regs ∧
    (s.unsend t).hif = s.hif ∧ (s.unsend t).xlt = s.xlt ∧ (s.unsend t).vrt = s.vrt ∧ (s.unsend t).q = s.q ∧
    (s.unsend t).feat = s.feat ∧ (s.unsend t).adm = s.adm ∧ (s.unsend t).qpe = s.qpe ∧ (s.unsend t).lnk = s.lnk ∧
    (s.unsend t).hall = s.hall ∧ (s.unsend t).plc = s.plc ∧ (s.unsend t).hbm = s.hbm ∧ (s.unsend t).svc = s.svc ∧
    (s.unsend t).sch = s.sch ∧ (s.unsend t).syn = s.syn ∧ (s.unsend t).trn = s.trn ∧ (s.unsend t).sec = s.sec ∧
    (s.unsend t).jobs = s.jobs ∧ (s.unsend t).col = s.col ∧ (s.unsend t).boot = s.boot ∧ (s.unsend t).pwr = s.pwr := by
  and_intros <;> rfl

@[simp] theorem State.keepPart_fields (s : State) (i : StreamId) (p : Pkt) :
    (s.keepPart i p).pending = s.pending ∧ (s.keepPart i p).out = s.out ∧ (s.keepPart i p).events = s.events ∧
    (s.keepPart i p).draws = s.draws ∧ (s.keepPart i p).now = s.now ∧ (s.keepPart i p).hallTime = s.hallTime ∧
    (s.keepPart i p).variant = s.variant ∧ (s.keepPart i p).regs = s.regs ∧ (s.keepPart i p).hif = s.hif ∧ (s.keepPart i p).xlt = s.xlt ∧
    (s.keepPart i p).vrt = s.vrt ∧ (s.keepPart i p).q = s.q ∧ (s.keepPart i p).feat = s.feat ∧ (s.keepPart i p).adm = s.adm ∧
    (s.keepPart i p).rtr = s.rtr ∧ (s.keepPart i p).lnk = s.lnk ∧ (s.keepPart i p).hall = s.hall ∧ (s.keepPart i p).plc = s.plc ∧
    (s.keepPart i p).hbm = s.hbm ∧ (s.keepPart i p).svc = s.svc ∧ (s.keepPart i p).sch = s.sch ∧ (s.keepPart i p).syn = s.syn ∧
    (s.keepPart i p).trn = s.trn ∧ (s.keepPart i p).sec = s.sec ∧ (s.keepPart i p).jobs = s.jobs ∧ (s.keepPart i p).col = s.col ∧
    (s.keepPart i p).boot = s.boot ∧ (s.keepPart i p).pwr = s.pwr := by
  unfold State.keepPart State.setStream
  repeat' split
  all_goals and_intros <;> rfl

@[simp] theorem State.cacheUsed_fields (s : State) (home page : Nat) :
    (s.cacheUsed home page).pending = s.pending ∧ (s.cacheUsed home page).out = s.out ∧ (s.cacheUsed home page).events = s.events ∧
    (s.cacheUsed home page).draws = s.draws ∧ (s.cacheUsed home page).now = s.now ∧ (s.cacheUsed home page).hallTime = s.hallTime ∧
    (s.cacheUsed home page).variant = s.variant ∧ (s.cacheUsed home page).regs = s.regs ∧ (s.cacheUsed home page).hif = s.hif ∧
    (s.cacheUsed home page).xlt = s.xlt ∧ (s.cacheUsed home page).vrt = s.vrt ∧ (s.cacheUsed home page).q = s.q ∧
    (s.cacheUsed home page).feat = s.feat ∧ (s.cacheUsed home page).adm = s.adm ∧ (s.cacheUsed home page).qpe = s.qpe ∧
    (s.cacheUsed home page).rtr = s.rtr ∧ (s.cacheUsed home page).lnk = s.lnk ∧ (s.cacheUsed home page).hall = s.hall ∧
    (s.cacheUsed home page).hbm = s.hbm ∧ (s.cacheUsed home page).svc = s.svc ∧ (s.cacheUsed home page).sch = s.sch ∧
    (s.cacheUsed home page).syn = s.syn ∧ (s.cacheUsed home page).trn = s.trn ∧ (s.cacheUsed home page).sec = s.sec ∧
    (s.cacheUsed home page).jobs = s.jobs ∧ (s.cacheUsed home page).col = s.col ∧ (s.cacheUsed home page).boot = s.boot ∧
    (s.cacheUsed home page).pwr = s.pwr := by
  unfold State.cacheUsed
  repeat' split
  all_goals and_intros <;> rfl

@[simp] theorem State.freeTxn_fields (s : State) (k : Nat) :
    (s.freeTxn k).pending = s.pending ∧ (s.freeTxn k).out = s.out ∧ (s.freeTxn k).events = s.events ∧ (s.freeTxn k).draws = s.draws ∧
    (s.freeTxn k).now = s.now ∧ (s.freeTxn k).hallTime = s.hallTime ∧ (s.freeTxn k).variant = s.variant ∧ (s.freeTxn k).regs = s.regs ∧
    (s.freeTxn k).hif = s.hif ∧ (s.freeTxn k).xlt = s.xlt ∧ (s.freeTxn k).vrt = s.vrt ∧ (s.freeTxn k).q = s.q ∧
    (s.freeTxn k).feat = s.feat ∧ (s.freeTxn k).adm = s.adm ∧ (s.freeTxn k).lnk = s.lnk ∧
    (s.freeTxn k).hall = s.hall ∧ (s.freeTxn k).plc = s.plc ∧ (s.freeTxn k).hbm = s.hbm ∧ (s.freeTxn k).svc = s.svc ∧
    (s.freeTxn k).sch = s.sch ∧ (s.freeTxn k).syn = s.syn ∧ (s.freeTxn k).trn = s.trn ∧ (s.freeTxn k).sec = s.sec ∧
    (s.freeTxn k).jobs = s.jobs ∧ (s.freeTxn k).col = s.col ∧ (s.freeTxn k).boot = s.boot ∧ (s.freeTxn k).pwr = s.pwr := by
  unfold State.freeTxn State.txnsChanged
  dsimp only
  split <;> and_intros <;> rfl

@[simp] theorem State.setWick_fields (s : State) (n : Nat) (w : Wick) :
    (s.setWick n w).pending = s.pending ∧ (s.setWick n w).out = s.out ∧ (s.setWick n w).events = s.events ∧
    (s.setWick n w).draws = s.draws ∧ (s.setWick n w).now = s.now ∧ (s.setWick n w).hallTime = s.hallTime ∧
    (s.setWick n w).variant = s.variant ∧ (s.setWick n w).regs = s.regs ∧ (s.setWick n w).hif = s.hif ∧ (s.setWick n w).xlt = s.xlt ∧
    (s.setWick n w).vrt = s.vrt ∧ (s.setWick n w).q = s.q ∧ (s.setWick n w).feat = s.feat ∧ (s.setWick n w).adm = s.adm ∧
    (s.setWick n w).qpe = s.qpe ∧ (s.setWick n w).rtr = s.rtr ∧ (s.setWick n w).lnk = s.lnk ∧ (s.setWick n w).hall = s.hall ∧
    (s.setWick n w).plc = s.plc ∧ (s.setWick n w).hbm = s.hbm ∧ (s.setWick n w).svc = s.svc ∧ (s.setWick n w).sch = s.sch ∧
    (s.setWick n w).trn = s.trn ∧ (s.setWick n w).sec = s.sec ∧ (s.setWick n w).jobs = s.jobs ∧ (s.setWick n w).col = s.col ∧
    (s.setWick n w).boot = s.boot ∧ (s.setWick n w).pwr = s.pwr := by
  and_intros <;> rfl

@[simp] theorem State.setBar_fields (s : State) (g : Nat) (b : Barrier) :
    (s.setBar g b).pending = s.pending ∧ (s.setBar g b).out = s.out ∧ (s.setBar g b).events = s.events ∧ (s.setBar g b).draws = s.draws ∧
    (s.setBar g b).now = s.now ∧ (s.setBar g b).hallTime = s.hallTime ∧ (s.setBar g b).variant = s.variant ∧
    (s.setBar g b).regs = s.regs ∧ (s.setBar g b).hif = s.hif ∧ (s.setBar g b).xlt = s.xlt ∧ (s.setBar g b).vrt = s.vrt ∧
    (s.setBar g b).q = s.q ∧ (s.setBar g b).feat = s.feat ∧ (s.setBar g b).adm = s.adm ∧ (s.setBar g b).qpe = s.qpe ∧
    (s.setBar g b).rtr = s.rtr ∧ (s.setBar g b).lnk = s.lnk ∧ (s.setBar g b).hall = s.hall ∧ (s.setBar g b).plc = s.plc ∧
    (s.setBar g b).hbm = s.hbm ∧ (s.setBar g b).svc = s.svc ∧ (s.setBar g b).sch = s.sch ∧ (s.setBar g b).trn = s.trn ∧
    (s.setBar g b).sec = s.sec ∧ (s.setBar g b).jobs = s.jobs ∧ (s.setBar g b).col = s.col ∧ (s.setBar g b).boot = s.boot ∧
    (s.setBar g b).pwr = s.pwr := by
  and_intros <;> rfl

@[simp] theorem State.dropWaits_fields (s : State) (n id : Nat) :
    (s.dropWaits n id).pending = s.pending ∧ (s.dropWaits n id).out = s.out ∧ (s.dropWaits n id).events = s.events ∧
    (s.dropWaits n id).draws = s.draws ∧ (s.dropWaits n id).now = s.now ∧ (s.dropWaits n id).hallTime = s.hallTime ∧
    (s.dropWaits n id).variant = s.variant ∧ (s.dropWaits n id).regs = s.regs ∧ (s.dropWaits n id).hif = s.hif ∧
    (s.dropWaits n id).xlt = s.xlt ∧ (s.dropWaits n id).vrt = s.vrt ∧ (s.dropWaits n id).q = s.q ∧ (s.dropWaits n id).feat = s.feat ∧
    (s.dropWaits n id).adm = s.adm ∧ (s.dropWaits n id).qpe = s.qpe ∧ (s.dropWaits n id).rtr = s.rtr ∧ (s.dropWaits n id).lnk = s.lnk ∧
    (s.dropWaits n id).hall = s.hall ∧ (s.dropWaits n id).plc = s.plc ∧ (s.dropWaits n id).hbm = s.hbm ∧ (s.dropWaits n id).svc = s.svc ∧
    (s.dropWaits n id).trn = s.trn ∧ (s.dropWaits n id).sec = s.sec ∧ (s.dropWaits n id).jobs = s.jobs ∧ (s.dropWaits n id).col = s.col ∧
    (s.dropWaits n id).boot = s.boot ∧ (s.dropWaits n id).pwr = s.pwr := by
  and_intros <;> rfl

@[simp] theorem State.touchCtx_fields (s : State) (n : Nat) :
    (s.touchCtx n).pending = s.pending ∧ (s.touchCtx n).out = s.out ∧ (s.touchCtx n).events = s.events ∧ (s.touchCtx n).draws = s.draws ∧
    (s.touchCtx n).now = s.now ∧ (s.touchCtx n).hallTime = s.hallTime ∧ (s.touchCtx n).variant = s.variant ∧
    (s.touchCtx n).regs = s.regs ∧ (s.touchCtx n).hif = s.hif ∧ (s.touchCtx n).xlt = s.xlt ∧ (s.touchCtx n).vrt = s.vrt ∧
    (s.touchCtx n).q = s.q ∧ (s.touchCtx n).feat = s.feat ∧ (s.touchCtx n).adm = s.adm ∧ (s.touchCtx n).rtr = s.rtr ∧
    (s.touchCtx n).lnk = s.lnk ∧ (s.touchCtx n).hall = s.hall ∧ (s.touchCtx n).plc = s.plc ∧ (s.touchCtx n).hbm = s.hbm ∧
    (s.touchCtx n).svc = s.svc ∧ (s.touchCtx n).sch = s.sch ∧ (s.touchCtx n).syn = s.syn ∧ (s.touchCtx n).trn = s.trn ∧
    (s.touchCtx n).sec = s.sec ∧ (s.touchCtx n).jobs = s.jobs ∧ (s.touchCtx n).col = s.col ∧ (s.touchCtx n).boot = s.boot ∧
    (s.touchCtx n).pwr = s.pwr := by
  and_intros <;> rfl

@[simp] theorem State.treeTell_fields (s : State) (e : TreeEv) :
    (s.treeTell e).pending = s.pending ∧ (s.treeTell e).out = s.out ∧ (s.treeTell e).events = s.events ∧ (s.treeTell e).draws = s.draws ∧
    (s.treeTell e).now = s.now ∧ (s.treeTell e).hallTime = s.hallTime ∧ (s.treeTell e).variant = s.variant ∧
    (s.treeTell e).regs = s.regs ∧ (s.treeTell e).hif = s.hif ∧ (s.treeTell e).xlt = s.xlt ∧ (s.treeTell e).vrt = s.vrt ∧
    (s.treeTell e).q = s.q ∧ (s.treeTell e).feat = s.feat ∧ (s.treeTell e).adm = s.adm ∧ (s.treeTell e).qpe = s.qpe ∧
    (s.treeTell e).rtr = s.rtr ∧ (s.treeTell e).lnk = s.lnk ∧ (s.treeTell e).hall = s.hall ∧ (s.treeTell e).plc = s.plc ∧
    (s.treeTell e).hbm = s.hbm ∧ (s.treeTell e).svc = s.svc ∧ (s.treeTell e).sch = s.sch ∧ (s.treeTell e).syn = s.syn ∧
    (s.treeTell e).trn = s.trn ∧ (s.treeTell e).sec = s.sec ∧ (s.treeTell e).jobs = s.jobs ∧ (s.treeTell e).boot = s.boot ∧
    (s.treeTell e).pwr = s.pwr := by
  and_intros <;> rfl

@[simp] theorem State.dropGroupTrees_fields (s : State) (g : Nat) :
    (s.dropGroupTrees g).pending = s.pending ∧ (s.dropGroupTrees g).out = s.out ∧ (s.dropGroupTrees g).events = s.events ∧
    (s.dropGroupTrees g).draws = s.draws ∧ (s.dropGroupTrees g).now = s.now ∧ (s.dropGroupTrees g).hallTime = s.hallTime ∧
    (s.dropGroupTrees g).variant = s.variant ∧ (s.dropGroupTrees g).regs = s.regs ∧ (s.dropGroupTrees g).hif = s.hif ∧
    (s.dropGroupTrees g).xlt = s.xlt ∧ (s.dropGroupTrees g).vrt = s.vrt ∧ (s.dropGroupTrees g).q = s.q ∧
    (s.dropGroupTrees g).feat = s.feat ∧ (s.dropGroupTrees g).adm = s.adm ∧ (s.dropGroupTrees g).qpe = s.qpe ∧
    (s.dropGroupTrees g).rtr = s.rtr ∧ (s.dropGroupTrees g).lnk = s.lnk ∧ (s.dropGroupTrees g).hall = s.hall ∧
    (s.dropGroupTrees g).plc = s.plc ∧ (s.dropGroupTrees g).hbm = s.hbm ∧ (s.dropGroupTrees g).svc = s.svc ∧
    (s.dropGroupTrees g).sch = s.sch ∧ (s.dropGroupTrees g).syn = s.syn ∧ (s.dropGroupTrees g).trn = s.trn ∧
    (s.dropGroupTrees g).sec = s.sec ∧ (s.dropGroupTrees g).jobs = s.jobs ∧ (s.dropGroupTrees g).boot = s.boot ∧
    (s.dropGroupTrees g).pwr = s.pwr := by
  and_intros <;> rfl

@[simp] theorem State.setGroup_fields (s : State) (g : Nat) (x : Group) :
    (s.setGroup g x).pending = s.pending ∧ (s.setGroup g x).out = s.out ∧ (s.setGroup g x).events = s.events ∧
    (s.setGroup g x).draws = s.draws ∧ (s.setGroup g x).now = s.now ∧ (s.setGroup g x).hallTime = s.hallTime ∧
    (s.setGroup g x).variant = s.variant ∧ (s.setGroup g x).regs = s.regs ∧ (s.setGroup g x).hif = s.hif ∧ (s.setGroup g x).xlt = s.xlt ∧
    (s.setGroup g x).vrt = s.vrt ∧ (s.setGroup g x).q = s.q ∧ (s.setGroup g x).feat = s.feat ∧ (s.setGroup g x).adm = s.adm ∧
    (s.setGroup g x).qpe = s.qpe ∧ (s.setGroup g x).rtr = s.rtr ∧ (s.setGroup g x).lnk = s.lnk ∧ (s.setGroup g x).hall = s.hall ∧
    (s.setGroup g x).plc = s.plc ∧ (s.setGroup g x).hbm = s.hbm ∧ (s.setGroup g x).svc = s.svc ∧ (s.setGroup g x).sch = s.sch ∧
    (s.setGroup g x).syn = s.syn ∧ (s.setGroup g x).trn = s.trn ∧ (s.setGroup g x).sec = s.sec ∧ (s.setGroup g x).jobs = s.jobs ∧
    (s.setGroup g x).boot = s.boot ∧ (s.setGroup g x).pwr = s.pwr := by
  and_intros <;> rfl

@[simp] theorem State.setColl_fields (s : State) (g : Nat) (c : Coll) :
    (s.setColl g c).pending = s.pending ∧ (s.setColl g c).out = s.out ∧ (s.setColl g c).events = s.events ∧
    (s.setColl g c).draws = s.draws ∧ (s.setColl g c).now = s.now ∧ (s.setColl g c).hallTime = s.hallTime ∧
    (s.setColl g c).variant = s.variant ∧ (s.setColl g c).regs = s.regs ∧ (s.setColl g c).hif = s.hif ∧ (s.setColl g c).xlt = s.xlt ∧
    (s.setColl g c).vrt = s.vrt ∧ (s.setColl g c).q = s.q ∧ (s.setColl g c).feat = s.feat ∧ (s.setColl g c).adm = s.adm ∧
    (s.setColl g c).qpe = s.qpe ∧ (s.setColl g c).rtr = s.rtr ∧ (s.setColl g c).lnk = s.lnk ∧ (s.setColl g c).hall = s.hall ∧
    (s.setColl g c).plc = s.plc ∧ (s.setColl g c).hbm = s.hbm ∧ (s.setColl g c).svc = s.svc ∧ (s.setColl g c).sch = s.sch ∧
    (s.setColl g c).syn = s.syn ∧ (s.setColl g c).trn = s.trn ∧ (s.setColl g c).sec = s.sec ∧ (s.setColl g c).jobs = s.jobs ∧
    (s.setColl g c).boot = s.boot ∧ (s.setColl g c).pwr = s.pwr := by
  and_intros <;> rfl

@[simp] theorem State.freeFrame_fields (s : State) (f : Nat) :
    (s.freeFrame f).pending = s.pending ∧ (s.freeFrame f).out = s.out ∧ (s.freeFrame f).events = s.events ∧
    (s.freeFrame f).draws = s.draws ∧ (s.freeFrame f).now = s.now ∧ (s.freeFrame f).hallTime = s.hallTime ∧
    (s.freeFrame f).variant = s.variant ∧ (s.freeFrame f).regs = s.regs ∧ (s.freeFrame f).hif = s.hif ∧ (s.freeFrame f).xlt = s.xlt ∧
    (s.freeFrame f).vrt = s.vrt ∧ (s.freeFrame f).q = s.q ∧ (s.freeFrame f).feat = s.feat ∧ (s.freeFrame f).adm = s.adm ∧
    (s.freeFrame f).qpe = s.qpe ∧ (s.freeFrame f).rtr = s.rtr ∧ (s.freeFrame f).lnk = s.lnk ∧ (s.freeFrame f).hall = s.hall ∧
    (s.freeFrame f).plc = s.plc ∧ (s.freeFrame f).svc = s.svc ∧ (s.freeFrame f).sch = s.sch ∧ (s.freeFrame f).syn = s.syn ∧
    (s.freeFrame f).trn = s.trn ∧ (s.freeFrame f).sec = s.sec ∧ (s.freeFrame f).jobs = s.jobs ∧ (s.freeFrame f).col = s.col ∧
    (s.freeFrame f).boot = s.boot ∧ (s.freeFrame f).pwr = s.pwr := by
  and_intros <;> rfl

@[simp] theorem State.setEntry_fields (s : State) (k : Nat) (e : TEntry) :
    (s.setEntry k e).pending = s.pending ∧ (s.setEntry k e).out = s.out ∧ (s.setEntry k e).events = s.events ∧
    (s.setEntry k e).draws = s.draws ∧ (s.setEntry k e).now = s.now ∧ (s.setEntry k e).hallTime = s.hallTime ∧
    (s.setEntry k e).variant = s.variant ∧ (s.setEntry k e).regs = s.regs ∧ (s.setEntry k e).hif = s.hif ∧ (s.setEntry k e).xlt = s.xlt ∧
    (s.setEntry k e).vrt = s.vrt ∧ (s.setEntry k e).q = s.q ∧ (s.setEntry k e).feat = s.feat ∧ (s.setEntry k e).adm = s.adm ∧
    (s.setEntry k e).qpe = s.qpe ∧ (s.setEntry k e).rtr = s.rtr ∧ (s.setEntry k e).lnk = s.lnk ∧ (s.setEntry k e).hall = s.hall ∧
    (s.setEntry k e).plc = s.plc ∧ (s.setEntry k e).hbm = s.hbm ∧ (s.setEntry k e).svc = s.svc ∧ (s.setEntry k e).sch = s.sch ∧
    (s.setEntry k e).syn = s.syn ∧ (s.setEntry k e).sec = s.sec ∧ (s.setEntry k e).jobs = s.jobs ∧ (s.setEntry k e).col = s.col ∧
    (s.setEntry k e).boot = s.boot ∧ (s.setEntry k e).pwr = s.pwr := by
  and_intros <;> rfl

@[simp] theorem State.dropEntryWaits_fields (s : State) (k : Nat) :
    (s.dropEntryWaits k).pending = s.pending ∧ (s.dropEntryWaits k).out = s.out ∧ (s.dropEntryWaits k).events = s.events ∧
    (s.dropEntryWaits k).draws = s.draws ∧ (s.dropEntryWaits k).now = s.now ∧ (s.dropEntryWaits k).hallTime = s.hallTime ∧
    (s.dropEntryWaits k).variant = s.variant ∧ (s.dropEntryWaits k).regs = s.regs ∧ (s.dropEntryWaits k).hif = s.hif ∧
    (s.dropEntryWaits k).xlt = s.xlt ∧ (s.dropEntryWaits k).vrt = s.vrt ∧ (s.dropEntryWaits k).q = s.q ∧
    (s.dropEntryWaits k).feat = s.feat ∧ (s.dropEntryWaits k).adm = s.adm ∧ (s.dropEntryWaits k).qpe = s.qpe ∧
    (s.dropEntryWaits k).rtr = s.rtr ∧ (s.dropEntryWaits k).lnk = s.lnk ∧ (s.dropEntryWaits k).hall = s.hall ∧
    (s.dropEntryWaits k).plc = s.plc ∧ (s.dropEntryWaits k).hbm = s.hbm ∧ (s.dropEntryWaits k).svc = s.svc ∧
    (s.dropEntryWaits k).sch = s.sch ∧ (s.dropEntryWaits k).trn = s.trn ∧ (s.dropEntryWaits k).sec = s.sec ∧
    (s.dropEntryWaits k).jobs = s.jobs ∧ (s.dropEntryWaits k).col = s.col ∧ (s.dropEntryWaits k).boot = s.boot ∧
    (s.dropEntryWaits k).pwr = s.pwr := by
  and_intros <;> rfl

@[simp] theorem State.heatUnits_fields (s : State) (program slot n : Nat) :
    (s.heatUnits program slot n).pending = s.pending ∧ (s.heatUnits program slot n).out = s.out ∧
    (s.heatUnits program slot n).events = s.events ∧ (s.heatUnits program slot n).draws = s.draws ∧
    (s.heatUnits program slot n).now = s.now ∧ (s.heatUnits program slot n).hallTime = s.hallTime ∧
    (s.heatUnits program slot n).variant = s.variant ∧ (s.heatUnits program slot n).regs = s.regs ∧
    (s.heatUnits program slot n).hif = s.hif ∧ (s.heatUnits program slot n).xlt = s.xlt ∧
    (s.heatUnits program slot n).vrt = s.vrt ∧ (s.heatUnits program slot n).q = s.q ∧
    (s.heatUnits program slot n).feat = s.feat ∧ (s.heatUnits program slot n).adm = s.adm ∧
    (s.heatUnits program slot n).qpe = s.qpe ∧ (s.heatUnits program slot n).rtr = s.rtr ∧
    (s.heatUnits program slot n).lnk = s.lnk ∧ (s.heatUnits program slot n).hall = s.hall ∧
    (s.heatUnits program slot n).hbm = s.hbm ∧ (s.heatUnits program slot n).svc = s.svc ∧
    (s.heatUnits program slot n).sch = s.sch ∧ (s.heatUnits program slot n).syn = s.syn ∧
    (s.heatUnits program slot n).trn = s.trn ∧ (s.heatUnits program slot n).sec = s.sec ∧
    (s.heatUnits program slot n).jobs = s.jobs ∧ (s.heatUnits program slot n).col = s.col ∧
    (s.heatUnits program slot n).boot = s.boot ∧ (s.heatUnits program slot n).pwr = s.pwr := by
  unfold State.heatUnits
  split <;> and_intros <;> rfl

@[simp] theorem State.setMbx_fields (s : State) (child : Nat) (down : Bool) (x : MbxSlot) :
    (s.setMbx child down x).pending = s.pending ∧ (s.setMbx child down x).out = s.out ∧ (s.setMbx child down x).events = s.events ∧
    (s.setMbx child down x).draws = s.draws ∧ (s.setMbx child down x).now = s.now ∧ (s.setMbx child down x).hallTime = s.hallTime ∧
    (s.setMbx child down x).variant = s.variant ∧ (s.setMbx child down x).regs = s.regs ∧ (s.setMbx child down x).hif = s.hif ∧
    (s.setMbx child down x).xlt = s.xlt ∧ (s.setMbx child down x).vrt = s.vrt ∧ (s.setMbx child down x).q = s.q ∧
    (s.setMbx child down x).feat = s.feat ∧ (s.setMbx child down x).adm = s.adm ∧ (s.setMbx child down x).qpe = s.qpe ∧
    (s.setMbx child down x).rtr = s.rtr ∧ (s.setMbx child down x).lnk = s.lnk ∧ (s.setMbx child down x).hall = s.hall ∧
    (s.setMbx child down x).plc = s.plc ∧ (s.setMbx child down x).hbm = s.hbm ∧ (s.setMbx child down x).svc = s.svc ∧
    (s.setMbx child down x).sch = s.sch ∧ (s.setMbx child down x).trn = s.trn ∧ (s.setMbx child down x).sec = s.sec ∧
    (s.setMbx child down x).jobs = s.jobs ∧ (s.setMbx child down x).col = s.col ∧ (s.setMbx child down x).boot = s.boot ∧
    (s.setMbx child down x).pwr = s.pwr := by
  and_intros <;> rfl

@[simp] theorem State.mbxClear_fields (s : State) (inst : Nat) :
    (s.mbxClear inst).pending = s.pending ∧ (s.mbxClear inst).out = s.out ∧ (s.mbxClear inst).events = s.events ∧
    (s.mbxClear inst).draws = s.draws ∧ (s.mbxClear inst).now = s.now ∧ (s.mbxClear inst).hallTime = s.hallTime ∧
    (s.mbxClear inst).variant = s.variant ∧ (s.mbxClear inst).regs = s.regs ∧ (s.mbxClear inst).hif = s.hif ∧
    (s.mbxClear inst).xlt = s.xlt ∧ (s.mbxClear inst).vrt = s.vrt ∧ (s.mbxClear inst).q = s.q ∧ (s.mbxClear inst).feat = s.feat ∧
    (s.mbxClear inst).adm = s.adm ∧ (s.mbxClear inst).qpe = s.qpe ∧ (s.mbxClear inst).rtr = s.rtr ∧ (s.mbxClear inst).lnk = s.lnk ∧
    (s.mbxClear inst).hall = s.hall ∧ (s.mbxClear inst).plc = s.plc ∧ (s.mbxClear inst).hbm = s.hbm ∧ (s.mbxClear inst).svc = s.svc ∧
    (s.mbxClear inst).sch = s.sch ∧ (s.mbxClear inst).trn = s.trn ∧ (s.mbxClear inst).sec = s.sec ∧ (s.mbxClear inst).jobs = s.jobs ∧
    (s.mbxClear inst).col = s.col ∧ (s.mbxClear inst).boot = s.boot ∧ (s.mbxClear inst).pwr = s.pwr := by
  and_intros <;> rfl

@[simp] theorem State.retireWqGen_fields (s : State) (n gen : Nat) :
    (s.retireWqGen n gen).pending = s.pending ∧ (s.retireWqGen n gen).out = s.out ∧ (s.retireWqGen n gen).events = s.events ∧
    (s.retireWqGen n gen).draws = s.draws ∧ (s.retireWqGen n gen).now = s.now ∧ (s.retireWqGen n gen).hallTime = s.hallTime ∧
    (s.retireWqGen n gen).variant = s.variant ∧ (s.retireWqGen n gen).regs = s.regs ∧ (s.retireWqGen n gen).hif = s.hif ∧
    (s.retireWqGen n gen).xlt = s.xlt ∧ (s.retireWqGen n gen).q = s.q ∧ (s.retireWqGen n gen).feat = s.feat ∧
    (s.retireWqGen n gen).adm = s.adm ∧ (s.retireWqGen n gen).qpe = s.qpe ∧ (s.retireWqGen n gen).rtr = s.rtr ∧
    (s.retireWqGen n gen).lnk = s.lnk ∧ (s.retireWqGen n gen).hall = s.hall ∧ (s.retireWqGen n gen).plc = s.plc ∧
    (s.retireWqGen n gen).hbm = s.hbm ∧ (s.retireWqGen n gen).svc = s.svc ∧ (s.retireWqGen n gen).sch = s.sch ∧
    (s.retireWqGen n gen).syn = s.syn ∧ (s.retireWqGen n gen).trn = s.trn ∧ (s.retireWqGen n gen).sec = s.sec ∧
    (s.retireWqGen n gen).jobs = s.jobs ∧ (s.retireWqGen n gen).col = s.col ∧ (s.retireWqGen n gen).boot = s.boot ∧
    (s.retireWqGen n gen).pwr = s.pwr := by
  and_intros <;> rfl

@[simp] theorem State.setSky_fields (s : State) (i : Nat) (k : Sky) :
    (s.setSky i k).pending = s.pending ∧ (s.setSky i k).out = s.out ∧ (s.setSky i k).events = s.events ∧ (s.setSky i k).draws = s.draws ∧
    (s.setSky i k).now = s.now ∧ (s.setSky i k).hallTime = s.hallTime ∧ (s.setSky i k).variant = s.variant ∧
    (s.setSky i k).regs = s.regs ∧ (s.setSky i k).hif = s.hif ∧ (s.setSky i k).xlt = s.xlt ∧ (s.setSky i k).vrt = s.vrt ∧
    (s.setSky i k).q = s.q ∧ (s.setSky i k).feat = s.feat ∧ (s.setSky i k).adm = s.adm ∧ (s.setSky i k).qpe = s.qpe ∧
    (s.setSky i k).rtr = s.rtr ∧ (s.setSky i k).lnk = s.lnk ∧ (s.setSky i k).plc = s.plc ∧ (s.setSky i k).hbm = s.hbm ∧
    (s.setSky i k).svc = s.svc ∧ (s.setSky i k).sch = s.sch ∧ (s.setSky i k).syn = s.syn ∧ (s.setSky i k).trn = s.trn ∧
    (s.setSky i k).sec = s.sec ∧ (s.setSky i k).jobs = s.jobs ∧ (s.setSky i k).col = s.col ∧ (s.setSky i k).boot = s.boot ∧
    (s.setSky i k).pwr = s.pwr := by
  and_intros <;> rfl

@[simp] theorem State.nextRevoke_fields (s : State) :
    (s.nextRevoke).pending = s.pending ∧ (s.nextRevoke).out = s.out ∧ (s.nextRevoke).events = s.events ∧ (s.nextRevoke).draws = s.draws ∧
    (s.nextRevoke).now = s.now ∧ (s.nextRevoke).hallTime = s.hallTime ∧ (s.nextRevoke).variant = s.variant ∧
    (s.nextRevoke).regs = s.regs ∧ (s.nextRevoke).hif = s.hif ∧ (s.nextRevoke).xlt = s.xlt ∧ (s.nextRevoke).vrt = s.vrt ∧
    (s.nextRevoke).q = s.q ∧ (s.nextRevoke).feat = s.feat ∧ (s.nextRevoke).adm = s.adm ∧ (s.nextRevoke).qpe = s.qpe ∧
    (s.nextRevoke).rtr = s.rtr ∧ (s.nextRevoke).lnk = s.lnk ∧ (s.nextRevoke).plc = s.plc ∧ (s.nextRevoke).hbm = s.hbm ∧
    (s.nextRevoke).svc = s.svc ∧ (s.nextRevoke).sch = s.sch ∧ (s.nextRevoke).syn = s.syn ∧ (s.nextRevoke).trn = s.trn ∧
    (s.nextRevoke).sec = s.sec ∧ (s.nextRevoke).jobs = s.jobs ∧ (s.nextRevoke).col = s.col ∧ (s.nextRevoke).boot = s.boot ∧
    (s.nextRevoke).pwr = s.pwr := by
  and_intros <;> rfl

@[simp] theorem State.takeNamed_fields (s : State) (n : Nat) (fs : List Nat) :
    (s.takeNamed n fs).pending = s.pending ∧ (s.takeNamed n fs).out = s.out ∧ (s.takeNamed n fs).events = s.events ∧
    (s.takeNamed n fs).draws = s.draws ∧ (s.takeNamed n fs).now = s.now ∧ (s.takeNamed n fs).hallTime = s.hallTime ∧
    (s.takeNamed n fs).variant = s.variant ∧ (s.takeNamed n fs).regs = s.regs ∧ (s.takeNamed n fs).hif = s.hif ∧
    (s.takeNamed n fs).xlt = s.xlt ∧ (s.takeNamed n fs).vrt = s.vrt ∧ (s.takeNamed n fs).q = s.q ∧ (s.takeNamed n fs).feat = s.feat ∧
    (s.takeNamed n fs).adm = s.adm ∧ (s.takeNamed n fs).qpe = s.qpe ∧ (s.takeNamed n fs).rtr = s.rtr ∧ (s.takeNamed n fs).lnk = s.lnk ∧
    (s.takeNamed n fs).hall = s.hall ∧ (s.takeNamed n fs).plc = s.plc ∧ (s.takeNamed n fs).svc = s.svc ∧ (s.takeNamed n fs).sch = s.sch ∧
    (s.takeNamed n fs).syn = s.syn ∧ (s.takeNamed n fs).trn = s.trn ∧ (s.takeNamed n fs).sec = s.sec ∧ (s.takeNamed n fs).jobs = s.jobs ∧
    (s.takeNamed n fs).col = s.col ∧ (s.takeNamed n fs).boot = s.boot ∧ (s.takeNamed n fs).pwr = s.pwr := by
  and_intros <;> rfl

@[simp] theorem State.freeFramesOf_fields (s : State) (u : FrameUse) :
    (s.freeFramesOf u).pending = s.pending ∧ (s.freeFramesOf u).out = s.out ∧ (s.freeFramesOf u).events = s.events ∧
    (s.freeFramesOf u).draws = s.draws ∧ (s.freeFramesOf u).now = s.now ∧ (s.freeFramesOf u).hallTime = s.hallTime ∧
    (s.freeFramesOf u).variant = s.variant ∧ (s.freeFramesOf u).regs = s.regs ∧ (s.freeFramesOf u).hif = s.hif ∧
    (s.freeFramesOf u).xlt = s.xlt ∧ (s.freeFramesOf u).vrt = s.vrt ∧ (s.freeFramesOf u).q = s.q ∧ (s.freeFramesOf u).feat = s.feat ∧
    (s.freeFramesOf u).adm = s.adm ∧ (s.freeFramesOf u).qpe = s.qpe ∧ (s.freeFramesOf u).rtr = s.rtr ∧ (s.freeFramesOf u).lnk = s.lnk ∧
    (s.freeFramesOf u).hall = s.hall ∧ (s.freeFramesOf u).plc = s.plc ∧ (s.freeFramesOf u).svc = s.svc ∧ (s.freeFramesOf u).sch = s.sch ∧
    (s.freeFramesOf u).syn = s.syn ∧ (s.freeFramesOf u).trn = s.trn ∧ (s.freeFramesOf u).sec = s.sec ∧ (s.freeFramesOf u).jobs = s.jobs ∧
    (s.freeFramesOf u).col = s.col ∧ (s.freeFramesOf u).boot = s.boot ∧ (s.freeFramesOf u).pwr = s.pwr := by
  and_intros <;> rfl

@[simp] theorem State.setDomain_fields (s : State) (p : Nat) (d : Domain) :
    (s.setDomain p d).pending = s.pending ∧ (s.setDomain p d).out = s.out ∧ (s.setDomain p d).events = s.events ∧
    (s.setDomain p d).draws = s.draws ∧ (s.setDomain p d).now = s.now ∧ (s.setDomain p d).hallTime = s.hallTime ∧
    (s.setDomain p d).variant = s.variant ∧ (s.setDomain p d).regs = s.regs ∧ (s.setDomain p d).hif = s.hif ∧
    (s.setDomain p d).xlt = s.xlt ∧ (s.setDomain p d).vrt = s.vrt ∧ (s.setDomain p d).q = s.q ∧ (s.setDomain p d).feat = s.feat ∧
    (s.setDomain p d).adm = s.adm ∧ (s.setDomain p d).qpe = s.qpe ∧ (s.setDomain p d).rtr = s.rtr ∧ (s.setDomain p d).lnk = s.lnk ∧
    (s.setDomain p d).hall = s.hall ∧ (s.setDomain p d).plc = s.plc ∧ (s.setDomain p d).hbm = s.hbm ∧ (s.setDomain p d).svc = s.svc ∧
    (s.setDomain p d).sch = s.sch ∧ (s.setDomain p d).syn = s.syn ∧ (s.setDomain p d).trn = s.trn ∧ (s.setDomain p d).sec = s.sec ∧
    (s.setDomain p d).col = s.col ∧ (s.setDomain p d).boot = s.boot ∧ (s.setDomain p d).pwr = s.pwr := by
  and_intros <;> rfl

@[simp] theorem State.updDomain_fields (s : State) (p : Nat) (f : Domain → Domain) :
    (s.updDomain p f).pending = s.pending ∧ (s.updDomain p f).out = s.out ∧ (s.updDomain p f).events = s.events ∧
    (s.updDomain p f).draws = s.draws ∧ (s.updDomain p f).now = s.now ∧ (s.updDomain p f).hallTime = s.hallTime ∧
    (s.updDomain p f).variant = s.variant ∧ (s.updDomain p f).regs = s.regs ∧ (s.updDomain p f).hif = s.hif ∧
    (s.updDomain p f).xlt = s.xlt ∧ (s.updDomain p f).vrt = s.vrt ∧ (s.updDomain p f).q = s.q ∧ (s.updDomain p f).feat = s.feat ∧
    (s.updDomain p f).adm = s.adm ∧ (s.updDomain p f).qpe = s.qpe ∧ (s.updDomain p f).rtr = s.rtr ∧ (s.updDomain p f).lnk = s.lnk ∧
    (s.updDomain p f).hall = s.hall ∧ (s.updDomain p f).plc = s.plc ∧ (s.updDomain p f).hbm = s.hbm ∧ (s.updDomain p f).svc = s.svc ∧
    (s.updDomain p f).sch = s.sch ∧ (s.updDomain p f).syn = s.syn ∧ (s.updDomain p f).trn = s.trn ∧ (s.updDomain p f).sec = s.sec ∧
    (s.updDomain p f).col = s.col ∧ (s.updDomain p f).boot = s.boot ∧ (s.updDomain p f).pwr = s.pwr := by
  and_intros <;> rfl

@[simp] theorem State.delDomain_fields (s : State) (p : Nat) :
    (s.delDomain p).pending = s.pending ∧ (s.delDomain p).out = s.out ∧ (s.delDomain p).events = s.events ∧
    (s.delDomain p).draws = s.draws ∧ (s.delDomain p).now = s.now ∧ (s.delDomain p).hallTime = s.hallTime ∧
    (s.delDomain p).variant = s.variant ∧ (s.delDomain p).regs = s.regs ∧ (s.delDomain p).hif = s.hif ∧ (s.delDomain p).xlt = s.xlt ∧
    (s.delDomain p).vrt = s.vrt ∧ (s.delDomain p).q = s.q ∧ (s.delDomain p).feat = s.feat ∧ (s.delDomain p).adm = s.adm ∧
    (s.delDomain p).qpe = s.qpe ∧ (s.delDomain p).rtr = s.rtr ∧ (s.delDomain p).lnk = s.lnk ∧ (s.delDomain p).hall = s.hall ∧
    (s.delDomain p).plc = s.plc ∧ (s.delDomain p).hbm = s.hbm ∧ (s.delDomain p).svc = s.svc ∧ (s.delDomain p).sch = s.sch ∧
    (s.delDomain p).syn = s.syn ∧ (s.delDomain p).trn = s.trn ∧ (s.delDomain p).sec = s.sec ∧ (s.delDomain p).col = s.col ∧
    (s.delDomain p).boot = s.boot ∧ (s.delDomain p).pwr = s.pwr := by
  and_intros <;> rfl

@[simp] theorem State.jobFault_fields (s : State) (partition reason about : Nat) :
    (s.jobFault partition reason about).pending = s.pending ∧ (s.jobFault partition reason about).out = s.out ∧
    (s.jobFault partition reason about).events = s.events ∧ (s.jobFault partition reason about).draws = s.draws ∧
    (s.jobFault partition reason about).now = s.now ∧ (s.jobFault partition reason about).hallTime = s.hallTime ∧
    (s.jobFault partition reason about).variant = s.variant ∧ (s.jobFault partition reason about).regs = s.regs ∧
    (s.jobFault partition reason about).hif = s.hif ∧ (s.jobFault partition reason about).xlt = s.xlt ∧
    (s.jobFault partition reason about).vrt = s.vrt ∧ (s.jobFault partition reason about).q = s.q ∧
    (s.jobFault partition reason about).feat = s.feat ∧ (s.jobFault partition reason about).adm = s.adm ∧
    (s.jobFault partition reason about).qpe = s.qpe ∧ (s.jobFault partition reason about).rtr = s.rtr ∧
    (s.jobFault partition reason about).lnk = s.lnk ∧ (s.jobFault partition reason about).hall = s.hall ∧
    (s.jobFault partition reason about).plc = s.plc ∧ (s.jobFault partition reason about).hbm = s.hbm ∧
    (s.jobFault partition reason about).svc = s.svc ∧ (s.jobFault partition reason about).sch = s.sch ∧
    (s.jobFault partition reason about).syn = s.syn ∧ (s.jobFault partition reason about).trn = s.trn ∧
    (s.jobFault partition reason about).sec = s.sec ∧ (s.jobFault partition reason about).col = s.col ∧
    (s.jobFault partition reason about).boot = s.boot ∧ (s.jobFault partition reason about).pwr = s.pwr := by
  and_intros <;> rfl

@[simp] theorem State.setGroupL_fields (s : State) (g : Nat) (x : LinkGroup) :
    (s.setGroupL g x).pending = s.pending ∧ (s.setGroupL g x).out = s.out ∧ (s.setGroupL g x).events = s.events ∧
    (s.setGroupL g x).draws = s.draws ∧ (s.setGroupL g x).now = s.now ∧ (s.setGroupL g x).hallTime = s.hallTime ∧
    (s.setGroupL g x).variant = s.variant ∧ (s.setGroupL g x).regs = s.regs ∧ (s.setGroupL g x).hif = s.hif ∧
    (s.setGroupL g x).xlt = s.xlt ∧ (s.setGroupL g x).vrt = s.vrt ∧ (s.setGroupL g x).q = s.q ∧ (s.setGroupL g x).feat = s.feat ∧
    (s.setGroupL g x).adm = s.adm ∧ (s.setGroupL g x).qpe = s.qpe ∧ (s.setGroupL g x).rtr = s.rtr ∧ (s.setGroupL g x).hall = s.hall ∧
    (s.setGroupL g x).plc = s.plc ∧ (s.setGroupL g x).hbm = s.hbm ∧ (s.setGroupL g x).svc = s.svc ∧ (s.setGroupL g x).sch = s.sch ∧
    (s.setGroupL g x).syn = s.syn ∧ (s.setGroupL g x).trn = s.trn ∧ (s.setGroupL g x).sec = s.sec ∧ (s.setGroupL g x).jobs = s.jobs ∧
    (s.setGroupL g x).col = s.col ∧ (s.setGroupL g x).boot = s.boot ∧ (s.setGroupL g x).pwr = s.pwr := by
  and_intros <;> rfl

@[simp] theorem State.setLink_fields (s : State) (g j : Nat) (x : Link) :
    (s.setLink g j x).pending = s.pending ∧ (s.setLink g j x).out = s.out ∧ (s.setLink g j x).events = s.events ∧
    (s.setLink g j x).draws = s.draws ∧ (s.setLink g j x).now = s.now ∧ (s.setLink g j x).hallTime = s.hallTime ∧
    (s.setLink g j x).variant = s.variant ∧ (s.setLink g j x).regs = s.regs ∧ (s.setLink g j x).hif = s.hif ∧
    (s.setLink g j x).xlt = s.xlt ∧ (s.setLink g j x).vrt = s.vrt ∧ (s.setLink g j x).q = s.q ∧ (s.setLink g j x).feat = s.feat ∧
    (s.setLink g j x).adm = s.adm ∧ (s.setLink g j x).qpe = s.qpe ∧ (s.setLink g j x).rtr = s.rtr ∧ (s.setLink g j x).hall = s.hall ∧
    (s.setLink g j x).plc = s.plc ∧ (s.setLink g j x).hbm = s.hbm ∧ (s.setLink g j x).svc = s.svc ∧ (s.setLink g j x).sch = s.sch ∧
    (s.setLink g j x).syn = s.syn ∧ (s.setLink g j x).trn = s.trn ∧ (s.setLink g j x).sec = s.sec ∧ (s.setLink g j x).jobs = s.jobs ∧
    (s.setLink g j x).col = s.col ∧ (s.setLink g j x).boot = s.boot ∧ (s.setLink g j x).pwr = s.pwr := by
  and_intros <;> rfl

@[simp] theorem State.laterPkt_fields (s : State) (p : Pkt) :
    (s.laterPkt p).pending = s.pending ∧ (s.laterPkt p).out = s.out ∧ (s.laterPkt p).events = s.events ∧ (s.laterPkt p).draws = s.draws ∧
    (s.laterPkt p).now = s.now ∧ (s.laterPkt p).hallTime = s.hallTime ∧ (s.laterPkt p).variant = s.variant ∧
    (s.laterPkt p).regs = s.regs ∧ (s.laterPkt p).hif = s.hif ∧ (s.laterPkt p).xlt = s.xlt ∧ (s.laterPkt p).vrt = s.vrt ∧
    (s.laterPkt p).q = s.q ∧ (s.laterPkt p).feat = s.feat ∧ (s.laterPkt p).adm = s.adm ∧ (s.laterPkt p).qpe = s.qpe ∧
    (s.laterPkt p).lnk = s.lnk ∧ (s.laterPkt p).hall = s.hall ∧ (s.laterPkt p).plc = s.plc ∧ (s.laterPkt p).hbm = s.hbm ∧
    (s.laterPkt p).svc = s.svc ∧ (s.laterPkt p).sch = s.sch ∧ (s.laterPkt p).syn = s.syn ∧ (s.laterPkt p).trn = s.trn ∧
    (s.laterPkt p).sec = s.sec ∧ (s.laterPkt p).jobs = s.jobs ∧ (s.laterPkt p).col = s.col ∧ (s.laterPkt p).boot = s.boot ∧
    (s.laterPkt p).pwr = s.pwr := by
  and_intros <;> rfl

@[simp] theorem State.setGates_fields (s : State) (g : Nat) (x : Gates) :
    (s.setGates g x).pending = s.pending ∧ (s.setGates g x).out = s.out ∧ (s.setGates g x).events = s.events ∧
    (s.setGates g x).draws = s.draws ∧ (s.setGates g x).now = s.now ∧ (s.setGates g x).hallTime = s.hallTime ∧
    (s.setGates g x).variant = s.variant ∧ (s.setGates g x).regs = s.regs ∧ (s.setGates g x).hif = s.hif ∧ (s.setGates g x).xlt = s.xlt ∧
    (s.setGates g x).vrt = s.vrt ∧ (s.setGates g x).q = s.q ∧ (s.setGates g x).feat = s.feat ∧ (s.setGates g x).adm = s.adm ∧
    (s.setGates g x).qpe = s.qpe ∧ (s.setGates g x).rtr = s.rtr ∧ (s.setGates g x).lnk = s.lnk ∧ (s.setGates g x).hall = s.hall ∧
    (s.setGates g x).plc = s.plc ∧ (s.setGates g x).hbm = s.hbm ∧ (s.setGates g x).svc = s.svc ∧ (s.setGates g x).syn = s.syn ∧
    (s.setGates g x).trn = s.trn ∧ (s.setGates g x).sec = s.sec ∧ (s.setGates g x).jobs = s.jobs ∧ (s.setGates g x).col = s.col ∧
    (s.setGates g x).boot = s.boot ∧ (s.setGates g x).pwr = s.pwr := by
  and_intros <;> rfl

@[simp] theorem State.setBank_fields (s : State) (b : Nat) (x : Bank) :
    (s.setBank b x).pending = s.pending ∧ (s.setBank b x).out = s.out ∧ (s.setBank b x).events = s.events ∧
    (s.setBank b x).draws = s.draws ∧ (s.setBank b x).now = s.now ∧ (s.setBank b x).hallTime = s.hallTime ∧
    (s.setBank b x).variant = s.variant ∧ (s.setBank b x).regs = s.regs ∧ (s.setBank b x).hif = s.hif ∧ (s.setBank b x).xlt = s.xlt ∧
    (s.setBank b x).vrt = s.vrt ∧ (s.setBank b x).q = s.q ∧ (s.setBank b x).feat = s.feat ∧ (s.setBank b x).adm = s.adm ∧
    (s.setBank b x).qpe = s.qpe ∧ (s.setBank b x).rtr = s.rtr ∧ (s.setBank b x).lnk = s.lnk ∧ (s.setBank b x).hall = s.hall ∧
    (s.setBank b x).plc = s.plc ∧ (s.setBank b x).hbm = s.hbm ∧ (s.setBank b x).sch = s.sch ∧ (s.setBank b x).syn = s.syn ∧
    (s.setBank b x).trn = s.trn ∧ (s.setBank b x).sec = s.sec ∧ (s.setBank b x).jobs = s.jobs ∧ (s.setBank b x).col = s.col ∧
    (s.setBank b x).boot = s.boot ∧ (s.setBank b x).pwr = s.pwr := by
  and_intros <;> rfl

@[simp] theorem State.loadFailed_fields (s : State) :
    (s.loadFailed).pending = s.pending ∧ (s.loadFailed).out = s.out ∧ (s.loadFailed).events = s.events ∧ (s.loadFailed).draws = s.draws ∧
    (s.loadFailed).now = s.now ∧ (s.loadFailed).hallTime = s.hallTime ∧ (s.loadFailed).variant = s.variant ∧
    (s.loadFailed).regs = s.regs ∧ (s.loadFailed).hif = s.hif ∧ (s.loadFailed).xlt = s.xlt ∧ (s.loadFailed).vrt = s.vrt ∧
    (s.loadFailed).q = s.q ∧ (s.loadFailed).feat = s.feat ∧ (s.loadFailed).adm = s.adm ∧ (s.loadFailed).qpe = s.qpe ∧
    (s.loadFailed).rtr = s.rtr ∧ (s.loadFailed).lnk = s.lnk ∧ (s.loadFailed).hall = s.hall ∧ (s.loadFailed).plc = s.plc ∧
    (s.loadFailed).hbm = s.hbm ∧ (s.loadFailed).svc = s.svc ∧ (s.loadFailed).sch = s.sch ∧ (s.loadFailed).syn = s.syn ∧
    (s.loadFailed).trn = s.trn ∧ (s.loadFailed).sec = s.sec ∧ (s.loadFailed).jobs = s.jobs ∧ (s.loadFailed).col = s.col ∧
    (s.loadFailed).pwr = s.pwr := by
  and_intros <;> rfl

@[simp] theorem State.updateStep_fields (s : State) (n : Nat) :
    (s.updateStep n).pending = s.pending ∧ (s.updateStep n).out = s.out ∧ (s.updateStep n).events = s.events ∧
    (s.updateStep n).draws = s.draws ∧ (s.updateStep n).now = s.now ∧ (s.updateStep n).hallTime = s.hallTime ∧
    (s.updateStep n).variant = s.variant ∧ (s.updateStep n).regs = s.regs ∧ (s.updateStep n).hif = s.hif ∧ (s.updateStep n).xlt = s.xlt ∧
    (s.updateStep n).vrt = s.vrt ∧ (s.updateStep n).q = s.q ∧ (s.updateStep n).feat = s.feat ∧ (s.updateStep n).adm = s.adm ∧
    (s.updateStep n).qpe = s.qpe ∧ (s.updateStep n).rtr = s.rtr ∧ (s.updateStep n).lnk = s.lnk ∧ (s.updateStep n).hall = s.hall ∧
    (s.updateStep n).plc = s.plc ∧ (s.updateStep n).hbm = s.hbm ∧ (s.updateStep n).sch = s.sch ∧ (s.updateStep n).syn = s.syn ∧
    (s.updateStep n).trn = s.trn ∧ (s.updateStep n).sec = s.sec ∧ (s.updateStep n).jobs = s.jobs ∧ (s.updateStep n).col = s.col ∧
    (s.updateStep n).boot = s.boot ∧ (s.updateStep n).pwr = s.pwr := by
  and_intros <;> rfl

@[simp] theorem State.via_fields (s : State) (c : Client) :
    (s.via c).pending = s.pending ∧ (s.via c).out = s.out ∧ (s.via c).events = s.events ∧ (s.via c).draws = s.draws ∧
    (s.via c).now = s.now ∧ (s.via c).hallTime = s.hallTime ∧ (s.via c).variant = s.variant ∧ (s.via c).regs = s.regs ∧
    (s.via c).hif = s.hif ∧ (s.via c).xlt = s.xlt ∧ (s.via c).vrt = s.vrt ∧ (s.via c).q = s.q ∧ (s.via c).feat = s.feat ∧
    (s.via c).adm = s.adm ∧ (s.via c).qpe = s.qpe ∧ (s.via c).rtr = s.rtr ∧ (s.via c).lnk = s.lnk ∧ (s.via c).hall = s.hall ∧
    (s.via c).plc = s.plc ∧ (s.via c).svc = s.svc ∧ (s.via c).sch = s.sch ∧ (s.via c).syn = s.syn ∧ (s.via c).trn = s.trn ∧
    (s.via c).sec = s.sec ∧ (s.via c).jobs = s.jobs ∧ (s.via c).col = s.col ∧ (s.via c).boot = s.boot ∧ (s.via c).pwr = s.pwr := by
  and_intros <;> rfl

@[simp] theorem State.arbAsk_fields (s : State) (a len : Nat) (data : Option Bytes) :
    (s.arbAsk a len data).pending = s.pending ∧ (s.arbAsk a len data).out = s.out ∧ (s.arbAsk a len data).events = s.events ∧
    (s.arbAsk a len data).draws = s.draws ∧ (s.arbAsk a len data).now = s.now ∧ (s.arbAsk a len data).hallTime = s.hallTime ∧
    (s.arbAsk a len data).variant = s.variant ∧ (s.arbAsk a len data).regs = s.regs ∧ (s.arbAsk a len data).hif = s.hif ∧
    (s.arbAsk a len data).xlt = s.xlt ∧ (s.arbAsk a len data).vrt = s.vrt ∧ (s.arbAsk a len data).q = s.q ∧
    (s.arbAsk a len data).feat = s.feat ∧ (s.arbAsk a len data).adm = s.adm ∧ (s.arbAsk a len data).qpe = s.qpe ∧
    (s.arbAsk a len data).rtr = s.rtr ∧ (s.arbAsk a len data).lnk = s.lnk ∧ (s.arbAsk a len data).hall = s.hall ∧
    (s.arbAsk a len data).plc = s.plc ∧ (s.arbAsk a len data).svc = s.svc ∧ (s.arbAsk a len data).sch = s.sch ∧
    (s.arbAsk a len data).syn = s.syn ∧ (s.arbAsk a len data).trn = s.trn ∧ (s.arbAsk a len data).sec = s.sec ∧
    (s.arbAsk a len data).jobs = s.jobs ∧ (s.arbAsk a len data).col = s.col ∧ (s.arbAsk a len data).boot = s.boot ∧
    (s.arbAsk a len data).pwr = s.pwr := by
  and_intros <;> rfl

@[simp] theorem State.withdraw_fields (s : State) (k order : Nat) :
    (s.withdraw k order).pending = s.pending ∧ (s.withdraw k order).out = s.out ∧ (s.withdraw k order).events = s.events ∧
    (s.withdraw k order).draws = s.draws ∧ (s.withdraw k order).now = s.now ∧ (s.withdraw k order).hallTime = s.hallTime ∧
    (s.withdraw k order).variant = s.variant ∧ (s.withdraw k order).regs = s.regs ∧ (s.withdraw k order).hif = s.hif ∧ (s.withdraw k order).xlt = s.xlt ∧
    (s.withdraw k order).vrt = s.vrt ∧ (s.withdraw k order).q = s.q ∧ (s.withdraw k order).feat = s.feat ∧ (s.withdraw k order).adm = s.adm ∧
    (s.withdraw k order).qpe = s.qpe ∧ (s.withdraw k order).rtr = s.rtr ∧ (s.withdraw k order).lnk = s.lnk ∧ (s.withdraw k order).hall = s.hall ∧
    (s.withdraw k order).plc = s.plc ∧ (s.withdraw k order).svc = s.svc ∧ (s.withdraw k order).sch = s.sch ∧ (s.withdraw k order).syn = s.syn ∧
    (s.withdraw k order).trn = s.trn ∧ (s.withdraw k order).sec = s.sec ∧ (s.withdraw k order).jobs = s.jobs ∧ (s.withdraw k order).col = s.col ∧
    (s.withdraw k order).boot = s.boot ∧ (s.withdraw k order).pwr = s.pwr := by
  and_intros <;> rfl

@[simp] theorem State.updCtx_fields (s : State) (n : Nat) (f : Qp → Qp) :
    (s.updCtx n f).pending = s.pending ∧ (s.updCtx n f).out = s.out ∧ (s.updCtx n f).events = s.events ∧
    (s.updCtx n f).draws = s.draws ∧ (s.updCtx n f).now = s.now ∧ (s.updCtx n f).hallTime = s.hallTime ∧
    (s.updCtx n f).variant = s.variant ∧ (s.updCtx n f).regs = s.regs ∧ (s.updCtx n f).hif = s.hif ∧ (s.updCtx n f).xlt = s.xlt ∧
    (s.updCtx n f).vrt = s.vrt ∧ (s.updCtx n f).q = s.q ∧ (s.updCtx n f).feat = s.feat ∧ (s.updCtx n f).adm = s.adm ∧
    (s.updCtx n f).rtr = s.rtr ∧ (s.updCtx n f).lnk = s.lnk ∧ (s.updCtx n f).hall = s.hall ∧ (s.updCtx n f).plc = s.plc ∧
    (s.updCtx n f).hbm = s.hbm ∧ (s.updCtx n f).svc = s.svc ∧ (s.updCtx n f).sch = s.sch ∧ (s.updCtx n f).syn = s.syn ∧
    (s.updCtx n f).trn = s.trn ∧ (s.updCtx n f).sec = s.sec ∧ (s.updCtx n f).jobs = s.jobs ∧ (s.updCtx n f).col = s.col ∧
    (s.updCtx n f).boot = s.boot ∧ (s.updCtx n f).pwr = s.pwr := by
  and_intros <;> rfl

@[simp] theorem State.unsetRegOf_fields (s : State) (n : Nat) (r : Reg) :
    (s.unsetRegOf n r).pending = s.pending ∧ (s.unsetRegOf n r).out = s.out ∧ (s.unsetRegOf n r).events = s.events ∧
    (s.unsetRegOf n r).draws = s.draws ∧ (s.unsetRegOf n r).now = s.now ∧ (s.unsetRegOf n r).hallTime = s.hallTime ∧
    (s.unsetRegOf n r).variant = s.variant ∧ (s.unsetRegOf n r).hif = s.hif ∧ (s.unsetRegOf n r).xlt = s.xlt ∧
    (s.unsetRegOf n r).vrt = s.vrt ∧ (s.unsetRegOf n r).q = s.q ∧ (s.unsetRegOf n r).feat = s.feat ∧ (s.unsetRegOf n r).adm = s.adm ∧
    (s.unsetRegOf n r).qpe = s.qpe ∧ (s.unsetRegOf n r).rtr = s.rtr ∧ (s.unsetRegOf n r).lnk = s.lnk ∧
    (s.unsetRegOf n r).hall = s.hall ∧ (s.unsetRegOf n r).plc = s.plc ∧ (s.unsetRegOf n r).hbm = s.hbm ∧
    (s.unsetRegOf n r).svc = s.svc ∧ (s.unsetRegOf n r).sch = s.sch ∧ (s.unsetRegOf n r).syn = s.syn ∧
    (s.unsetRegOf n r).trn = s.trn ∧ (s.unsetRegOf n r).sec = s.sec ∧ (s.unsetRegOf n r).jobs = s.jobs ∧
    (s.unsetRegOf n r).col = s.col ∧ (s.unsetRegOf n r).boot = s.boot ∧ (s.unsetRegOf n r).pwr = s.pwr := by
  and_intros <;> rfl

@[simp] theorem State.raiseAll_fields (s : State) (es : List (EventTo × Event)) :
    (s.raiseAll es).pending = s.pending ∧ (s.raiseAll es).out = s.out ∧ (s.raiseAll es).draws = s.draws ∧
    (s.raiseAll es).now = s.now ∧ (s.raiseAll es).hallTime = s.hallTime ∧ (s.raiseAll es).variant = s.variant ∧
    (s.raiseAll es).regs = s.regs ∧ (s.raiseAll es).hif = s.hif ∧ (s.raiseAll es).xlt = s.xlt ∧ (s.raiseAll es).vrt = s.vrt ∧
    (s.raiseAll es).q = s.q ∧ (s.raiseAll es).feat = s.feat ∧ (s.raiseAll es).adm = s.adm ∧ (s.raiseAll es).qpe = s.qpe ∧
    (s.raiseAll es).rtr = s.rtr ∧ (s.raiseAll es).lnk = s.lnk ∧ (s.raiseAll es).hall = s.hall ∧ (s.raiseAll es).plc = s.plc ∧
    (s.raiseAll es).hbm = s.hbm ∧ (s.raiseAll es).svc = s.svc ∧ (s.raiseAll es).sch = s.sch ∧ (s.raiseAll es).syn = s.syn ∧
    (s.raiseAll es).trn = s.trn ∧ (s.raiseAll es).sec = s.sec ∧ (s.raiseAll es).jobs = s.jobs ∧ (s.raiseAll es).col = s.col ∧
    (s.raiseAll es).boot = s.boot ∧ (s.raiseAll es).pwr = s.pwr := by
  and_intros <;> rfl

@[simp] theorem State.keepAnswer_fields (s : State) (base : Pkt) (data : Bytes) :
    (s.keepAnswer base data).pending = s.pending ∧ (s.keepAnswer base data).out = s.out ∧ (s.keepAnswer base data).events = s.events ∧
    (s.keepAnswer base data).draws = s.draws ∧ (s.keepAnswer base data).now = s.now ∧ (s.keepAnswer base data).hallTime = s.hallTime ∧
    (s.keepAnswer base data).variant = s.variant ∧ (s.keepAnswer base data).regs = s.regs ∧ (s.keepAnswer base data).hif = s.hif ∧
    (s.keepAnswer base data).xlt = s.xlt ∧ (s.keepAnswer base data).vrt = s.vrt ∧ (s.keepAnswer base data).q = s.q ∧
    (s.keepAnswer base data).feat = s.feat ∧ (s.keepAnswer base data).adm = s.adm ∧ (s.keepAnswer base data).rtr = s.rtr ∧
    (s.keepAnswer base data).lnk = s.lnk ∧ (s.keepAnswer base data).hall = s.hall ∧ (s.keepAnswer base data).plc = s.plc ∧
    (s.keepAnswer base data).hbm = s.hbm ∧ (s.keepAnswer base data).svc = s.svc ∧ (s.keepAnswer base data).sch = s.sch ∧
    (s.keepAnswer base data).syn = s.syn ∧ (s.keepAnswer base data).trn = s.trn ∧ (s.keepAnswer base data).sec = s.sec ∧
    (s.keepAnswer base data).jobs = s.jobs ∧ (s.keepAnswer base data).col = s.col ∧ (s.keepAnswer base data).boot = s.boot ∧
    (s.keepAnswer base data).pwr = s.pwr := by
  and_intros <;> rfl

@[simp] theorem State.setFstream_fields (s : State) (k : Nat) (f : FStream) :
    (s.setFstream k f).pending = s.pending ∧ (s.setFstream k f).out = s.out ∧ (s.setFstream k f).events = s.events ∧
    (s.setFstream k f).draws = s.draws ∧ (s.setFstream k f).now = s.now ∧ (s.setFstream k f).hallTime = s.hallTime ∧
    (s.setFstream k f).variant = s.variant ∧ (s.setFstream k f).regs = s.regs ∧ (s.setFstream k f).hif = s.hif ∧
    (s.setFstream k f).xlt = s.xlt ∧ (s.setFstream k f).vrt = s.vrt ∧ (s.setFstream k f).q = s.q ∧ (s.setFstream k f).feat = s.feat ∧
    (s.setFstream k f).adm = s.adm ∧ (s.setFstream k f).rtr = s.rtr ∧ (s.setFstream k f).lnk = s.lnk ∧
    (s.setFstream k f).hall = s.hall ∧ (s.setFstream k f).plc = s.plc ∧ (s.setFstream k f).hbm = s.hbm ∧
    (s.setFstream k f).svc = s.svc ∧ (s.setFstream k f).sch = s.sch ∧ (s.setFstream k f).syn = s.syn ∧
    (s.setFstream k f).trn = s.trn ∧ (s.setFstream k f).sec = s.sec ∧ (s.setFstream k f).jobs = s.jobs ∧
    (s.setFstream k f).col = s.col ∧ (s.setFstream k f).boot = s.boot ∧ (s.setFstream k f).pwr = s.pwr := by
  and_intros <;> rfl

@[simp] theorem State.allocDone_fields (s : State) (o : TxnOwner) :
    (s.allocDone o).pending = s.pending ∧ (s.allocDone o).out = s.out ∧ (s.allocDone o).events = s.events ∧
    (s.allocDone o).draws = s.draws ∧ (s.allocDone o).now = s.now ∧ (s.allocDone o).hallTime = s.hallTime ∧
    (s.allocDone o).variant = s.variant ∧ (s.allocDone o).regs = s.regs ∧ (s.allocDone o).hif = s.hif ∧ (s.allocDone o).xlt = s.xlt ∧
    (s.allocDone o).vrt = s.vrt ∧ (s.allocDone o).q = s.q ∧ (s.allocDone o).feat = s.feat ∧ (s.allocDone o).adm = s.adm ∧
    (s.allocDone o).rtr = s.rtr ∧ (s.allocDone o).lnk = s.lnk ∧ (s.allocDone o).hall = s.hall ∧ (s.allocDone o).plc = s.plc ∧
    (s.allocDone o).hbm = s.hbm ∧ (s.allocDone o).svc = s.svc ∧ (s.allocDone o).sch = s.sch ∧ (s.allocDone o).syn = s.syn ∧
    (s.allocDone o).trn = s.trn ∧ (s.allocDone o).sec = s.sec ∧ (s.allocDone o).jobs = s.jobs ∧ (s.allocDone o).col = s.col ∧
    (s.allocDone o).boot = s.boot ∧ (s.allocDone o).pwr = s.pwr := by
  and_intros <;> rfl

@[simp] theorem State.forgetEnds_fields (s : State) (n lo hi : Nat) :
    (s.forgetEnds n lo hi).pending = s.pending ∧ (s.forgetEnds n lo hi).out = s.out ∧ (s.forgetEnds n lo hi).events = s.events ∧
    (s.forgetEnds n lo hi).draws = s.draws ∧ (s.forgetEnds n lo hi).now = s.now ∧ (s.forgetEnds n lo hi).hallTime = s.hallTime ∧
    (s.forgetEnds n lo hi).variant = s.variant ∧ (s.forgetEnds n lo hi).regs = s.regs ∧ (s.forgetEnds n lo hi).hif = s.hif ∧
    (s.forgetEnds n lo hi).vrt = s.vrt ∧ (s.forgetEnds n lo hi).q = s.q ∧ (s.forgetEnds n lo hi).feat = s.feat ∧
    (s.forgetEnds n lo hi).adm = s.adm ∧ (s.forgetEnds n lo hi).qpe = s.qpe ∧ (s.forgetEnds n lo hi).rtr = s.rtr ∧
    (s.forgetEnds n lo hi).lnk = s.lnk ∧ (s.forgetEnds n lo hi).hall = s.hall ∧ (s.forgetEnds n lo hi).plc = s.plc ∧
    (s.forgetEnds n lo hi).hbm = s.hbm ∧ (s.forgetEnds n lo hi).svc = s.svc ∧ (s.forgetEnds n lo hi).sch = s.sch ∧
    (s.forgetEnds n lo hi).syn = s.syn ∧ (s.forgetEnds n lo hi).trn = s.trn ∧ (s.forgetEnds n lo hi).sec = s.sec ∧
    (s.forgetEnds n lo hi).jobs = s.jobs ∧ (s.forgetEnds n lo hi).col = s.col ∧ (s.forgetEnds n lo hi).boot = s.boot ∧
    (s.forgetEnds n lo hi).pwr = s.pwr := by
  and_intros <;> rfl

end Sys2Proof.Machine
end

