-- ==== Sys2Proof/Tests/Slice0.lean ====
section
/-!
SUPPORT. Tests: what the well-formedness check refuses, words and formulas of the spec worked out by hand, and, for each statement that has
hypotheses, a theorem `meets_<Name>` with concrete states and operands that meet the hypotheses of each of its clauses together.
-/

namespace Sys2Proof.Tests

-- Each `decide` here runs in the kernel; one after the other they take fewer threads.
set_option Elab.async false

open Sys2Proof Sys2Proof.Machine

/-! ## Small states -/

/-- A running admin queue with rings of 64 units and replies. -/
def runningAdm : AdmQ := { (default : AdmQ) with state := .running, negotiated := 0x10 }

/-- A map of the first GiB of an address space to host memory, and of the next 2 MiB to the HBM from 0 on. -/
def twoMaps : SMap Leaf := [(0, ⟨2, .host, 0, true, true⟩), (0x40000000, ⟨1, .hbm, 0, true, true⟩)]

/-- A virtual function's instance, with one doorbell page, two frames of HBM and quotas of 8. -/
def vfInst : Inst := { pfInst with
  gen := 3, hbmBase := 0, frames := [0, 1], qpQuota := 8, skyQuota := 8, cqPool := 8, lqPool := 8, wickPool := 8, dbPages := [5], maps := twoMaps }

/-- A module with all dies and firmware up, all its power domains on, its four ports linked, a running admin queue on each and its functions
allowed to issue. -/
def up : State := { State.reset with
  boot := { State.reset.boot with dies := 15, loaded := true, state := 1 }
  feat := { State.reset.feat with rings := [4, 2, 1, 1] }
  vrt := { State.reset.vrt with
    insts := [(0, { pfInst with maps := twoMaps }), (1, vfInst), (128, pfInst), (256, pfInst), (384, pfInst)] }
  hif := { ports := [0, 1, 2, 3].map (fun p => (p, { (default : Port) with link := 2, width := 16, rate := 128, vfEnabled := 1 }))
           fns := [0, 1, 128, 256, 384].map (fun f => (f, { (default : Fn) with busMaster := true })), refused := [] }
  adm := { State.reset.adm with queues := [0, 1, 2, 3].map fun p => (p, runningAdm) }
  sec := { State.reset.sec with entropy := 1, due := [], engines := 65535 }
  hbm := { State.reset.hbm with stackUp := (List.range 8).map fun k => (k, 2) }
  pwr := { State.reset.pwr with on := List.range 80 }
  regs := { State.reset.regs with
    shadow := [0, 1, 2, 3].map fun p => ((p * 128 + 1) * 0x4000000 + Reg.ADM_CTRL.addr, (0x66 : Word)) } }

/-- The packet of an admin command with parameters. -/
def packetOf (op : Nat) (ps : List Nat) : Bytes :=
  (ps.zip (placeFields 32 ((admSpec op).map (·.widths) |>.getD []))).foldl (fun b e => overlay b e.2.1 (leBytes e.2.2.1 e.1))
    ([0x10, 8] ++ leBytes 2 op ++ zeros 252)

/-- A fetched command, not yet begun. -/
def cmdOf (op : Nat) (ps : List Nat) : Cmd := ⟨0, 0, packetOf op ps, false, 0, RBuf.empty, 0, false, none⟩

/-- A state in which port 0 has one fetched command. -/
def given (s : State) (c : Cmd) : State := s.setAdm 0 { s.adm1 0 with cmds := [(0, c)] }

/-- Whether a command starts now, in full. -/
def readyB (s : State) (p k op : Nat) (sel : List Nat → Bool) (auth : State → List Nat → Bool) (c : Cmd) : Bool :=
  !s.pwr.off && decide (SMap.find (s.adm1 p).cmds k = some c) && s.cpRuns && !(s.fn (p * 128)).held && opcodeOf c.pkt == op && sel c.params &&
    !c.started && !s.boot.activating && s.mayStart p k c && decide (s.headerFail p c.pkt (auth s) = none)

/-- A command that starts now, with the state in which its own part begins. -/
structure Begins (s : State) (p k op : Nat) (sel : List Nat → Bool) (auth : State → List Nat → Bool) (c : Cmd) (b : State) : Prop where
  ready : CmdReady s p k op sel auth c
  begun : b = s.begin p k c

theorem ready {s : State} {p k op : Nat} {sel : List Nat → Bool} {auth : State → List Nat → Bool} {c : Cmd}
    (h : readyB s p k op sel auth c = true) : Begins s p k op sel auth c (s.begin p k c) := by
  simp only [readyB, Bool.and_eq_true, Bool.not_eq_true', decide_eq_true_eq, beq_iff_eq] at h
  exact ⟨by constructor <;> tauto, rfl⟩

theorem someGetD {α : Type} [Inhabited α] {x : Option α} (h : x.isSome = true) : x = some (x.getD default) := by
  cases x with
  | none => cases h
  | some _ => rfl

theorem somePair {α β : Type} [Inhabited α] [Inhabited β] {x : Option (α × β)} (h : x.isSome = true) :
    x = some ((x.getD default).1, (x.getD default).2) := someGetD h

theorem pairSnd {α β : Type} {x : α × β} {a : α} (h : x.1 = a) : x = (a, x.2) := by
  cases x with
  | mk _ _ => cases h; rfl

theorem fabClient {s : State} (h : s.hbm.client = .fab) (e order first tiles : Nat) : s.hbm.client ≠ .tile e order first tiles :=
  fun x => Client.noConfusion (h ▸ x)

theorem someInr {α β : Type} [Inhabited β] {x : α ⊕ β} (h : x.getRight?.isSome = true) : x = .inr (x.getRight?.getD default) := by
  cases x with
  | inl _ => cases h
  | inr _ => rfl

theorem tripleSnd {α β γ : Type} {x : α × β × γ} {a : α} (h : x.1 = a) : x = (a, x.2.1, x.2.2) := pairSnd h

/-- A module that has shut down. -/
def off1 : State := { State.reset with pwr := { State.reset.pwr with off := true } }

/-- A module whose port 1 has read a packet of 256 bytes. -/
def fetching : State := up.setAdm 1 { runningAdm with units := packetOf 0x0001 [] }

/-- A module whose port 1 has no admin queue in use. -/
def stopped : State := up.setAdm 1 default

/-- Two lantern queues. -/
def lanterns : State := { up with q := { up.q with lqs := [(3, { (default : Lq) with log2 := 6, ring := 0x10000 }), (4, default)] } }

/-- A module whose function 0 has a lantern queue. -/
def lantern : State := lanterns

/-- Completion queues of both functions on lantern queue 3, and work queues of function 0 on one of them: 7 idle, 8 enabled with an operation
that waits, and 9 draining; and
one, 10, on a full completion queue. -/
def queues : State := { lanterns with q := { lanterns.q with
  cqs := [(2, { (default : Cq) with inst := 1, log2 := 6, lantern := 3 }), (6, { (default : Cq) with log2 := 6, lantern := 3 }),
    (11, { (default : Cq) with log2 := 6, lantern := 3, state := .fullWait, producer := 64 })]
  wqs := [(7, { (default : Wq) with cq := 6, log2 := 6, state := .idle, fresh := true }),
    (8, { (default : Wq) with cq := 6, log2 := 6, state := .enabled, doorbell := 1, fetch := 1, judged := 1, ops := [{ (default : Op) with units := 1 }] }),
    (9, { (default : Wq) with cq := 6, log2 := 6, state := .draining, fetch := 1, judged := 1, ops := [{ (default : Op) with units := 1 }] }),
    (10, { (default : Wq) with cq := 11, log2 := 6, state := .enabled, doorbell := 1, fetch := 1, judged := 1, ops := [{ (default : Op) with units := 1 }] })] } }

/-- A state with the expert registers unlocked. -/
def unlocked (s : State) : State := { s with adm := { s.adm with unlocked := 0x7FFF } }

theorem pickNumber_empty {α : Type} {s : State} (m : SMap α) {n : Nat} (hm : m = []) (hn : 0 < n) : s.pickNumber m n = some (s.freeVal % n) := by
  subst hm
  have h : s.freeVal % n < n := Nat.mod_lt _ hn
  unfold State.pickNumber
  cases e : n - s.freeVal % n with
  | zero => omega
  | succ k => simp [SMap.freeFrom, SMap.has, SMap.find, e]

theorem choose_one {s : State} (x d : Nat) : s.choose [x] d = x := by simp [State.choose, Nat.mod_one]

theorem pickWq_one {s : State} {n g w : Nat} (h : s.bellPages n = [g]) (hf : s.freeOnPage g = some w) : s.pickWq n = some w := by
  have : ((s.bellPages n).filter fun g => (s.freeOnPage g).isSome) = [g] := by simp [h, hf]
  simp [State.pickWq, this, choose_one, hf]

/-- Part of module 0 of a job domain of four, and a context store of 1024 queue pairs. -/
def member (s : State) : State := { s with
  jobs := { s.jobs with domains := [(20, { (default : Domain) with members := [0, 1, 2, 3], ready := true })] }
  regs := { s.regs with
    shadow := SMap.put (SMap.put s.regs.shadow (0x4000000 + Reg.QPE_QPC_SIZE.addr) 10) (0x4000000 + Reg.QPE_QPC_BASE.addr) 0x100000 } }

/-- Queue pairs 5 and 6, of which 6 is connected. -/
def pairs : State := { member queues with qpe := { queues.qpe with
  qps := [(5, { (default : Qp) with partition := 20, cached := true }), (6, { (default : Qp) with state := 1, partition := 20, cached := true })] } }

/-- A state whose HBM map of function 0 is in the translation buffer. -/
def cached (s : State) : State := { s with xlt := { s.xlt with tlb := [⟨0, 0, 0x40000000, ⟨1, .hbm, 0, true, true⟩⟩] } }

/-- Work queue 12 has units to fetch from HBM, and 13 a fetched NOP. -/
def fetches : State := { cached queues with q := { queues.q with
  wqs := [(12, { (default : Wq) with cq := 6, ring := 0x40000000, log2 := 6, state := .enabled, doorbell := 3 }),
    (13, { (default : Wq) with cq := 6, log2 := 6, state := .enabled, doorbell := 1, fetch := 1, units := [(0, [0, 1] ++ zeros 62)] })] } }

/-- Skylights 5, open, and 6, revoking, both of tag 2. -/
def skies : State := { up with hall := { up.hall with sky := [(5, { (default : Sky) with state := .open_, tag := 2, rights := 1, len := 4096 }),
  (6, { (default : Sky) with state := .revoking, tag := 2, rights := 1, len := 4096 })] } }

/-- Pages 5 and 6 of this home, the second pinned to module 2 and waiting for its pin. -/
def pages : State := { member up with hall := { up.hall with pages := [(5, { (default : Page) with partition := 20 }),
  (6, { (default : Page) with partition := 20, pinned := true, pinHolder := 2, pinWait := true })] } }

/-- Groups 1 and 4 of this module and module 1, defined, and 2, which is not yet; a barrier of the one and a vacant barrier of the other; tree
operations under way; and a list of modules 0 and 1 in HBM. -/
def groups : State := { member up with
  col := { up.col with
    groups := [(1, { (default : Group) with partition := 20, list := [0, 1] }), (2, { (default : Group) with partition := 20, waiting := some (0, 7) }),
      (4, { (default : Group) with partition := 20, list := [0, 1] })]
    ops := [{ (default : TreeOp) with kind := tkBarrier, tree := 1, seq := 2, sentUp := true, members := [0, 1] },
      { (default : TreeOp) with kind := tkRevoke, tree := 1, seq := 2, down := true, members := [0], extra := [9] },
      { (default : TreeOp) with kind := tkRevoke, tree := 1, seq := 3, down := true, members := [0, 1] }] }
  hall := { up.hall with drains := [{ (default : Drain) with kind := tkRevoke, tree := 1 }] }
  syn := { up.syn with bars := [(4, { (default : Barrier) with vacant := true })] }
  jobs := { up.jobs with domains := [(20, { (default : Domain) with members := [0, 1, 2, 3], ready := true }),
    (21, { (default : Domain) with members := [0, 1], ready := true, drain := some (0, 4) })] }
  hbm := { up.hbm with mem := [(4, 1)] } }

/-- A program that converts 16 elements of type 1 into 16 of type 1 (R457 to R460). -/
def img : Bytes := [0x54, 0x50, 0x47, 0x4D, 0x10, 1, 2, 0] ++ zeros 56 ++ [1, 1, 0, 0, 64, 0, 0, 0, 2, 1, 0, 0, 64, 0, 0, 0] ++ zeros 48 ++
  [2, 0, 0, 255, 255, 255, 1, 255, 1, 1, 0, 0, 16, 0, 0, 0] ++ zeros 48

/-- That program with a wait limit. -/
def imgLimit : Bytes := slice img 0 12 ++ [1, 0, 0, 0] ++ img.drop 16

/-- The program in HBM. -/
def imaged : State := { member up with hbm := { up.hbm with mem := memPut [] 0 img } }

/-- Loaded programs, one of them with no entry, and entries that are ALLOCATED, WAITING and READY. -/
def programs : State := { member up with trn := { up.trn with
  programs := [(0, { (default : Program) with partition := 20, image := img }), (1, { (default : Program) with partition := 20, image := imgLimit }),
    (2, { (default : Program) with partition := 20, image := img })]
  entries := [(0, { (default : TEntry) with state := 4, program := 0, tiles := some 0 }), (1, { (default : TEntry) with state := 2, program := 1 }),
    (1023, { (default : TEntry) with state := 3, prio := 2 })] } }

/-- A wick queue. -/
def wicks : State := { member up with syn := { up.syn with wicks := [(7, { (default : Wick) with partition := 20, depth := 8 })] } }

/-- An instance with a dirty log that has no line cached and lies in HBM. -/
def logInst : Inst := { vfInst with dirty := [(2, { (default : DirtySlot) with len := 4096, bitmapA := 0x40000000, bitmapB := 0x40001000 }),
  (3, { (default : DirtySlot) with len := 4096, bitmapA := 0x40000000, bitmapB := 0x40001000, posted := [(64, false)] })] }

/-- A module with that instance. -/
def logs : State := { up with vrt := { up.vrt with insts := SMap.put up.vrt.insts 1 logInst } }

/-- An instance whose HBM map has its tables. -/
def tabledInst : Inst := { vfInst with tables := [(tableKey 1 0x40000000, 0x200000), (tableKey 2 0x40000000, 0x201000)] }

/-- A walk that can end, and a drain whose uses have ended. -/
def walking : State := { up with
  vrt := { up.vrt with insts := SMap.put up.vrt.insts 1 tabledInst }
  xlt := { up.xlt with
    walks := [(5, { (default : Walk) with inst := 1, gen := 3, iva := 0x40000000, level := 1 }),
      (6, { (default : Walk) with inst := 1, gen := 3, iva := 0x80000000, level := 1 })]
    drains := [{ (default : UseDrain) with inst := 3, who := some (0, 0) }] } }

theorem somePairSnd {α β : Type} [Inhabited α] {x : Option α × β} (h : x.1.isSome = true) : x = (some (x.1.getD default), x.2) :=
  pairSnd (someGetD h)

/-- A gate list in HBM, a pending one that is due, and the cadence of partition 22. -/
def gated : State := { cached up with
  hbm := { up.hbm with mem := memPut [] 0 [32, 0, 0, 0, 255, 0, 0, 16] }
  jobs := { up.jobs with domains := [(20, { (default : Domain) with members := [0], ready := true }),
    (22, { (default : Domain) with members := [0], ready := true })] }
  sch := { up.sch with
    gates := [(3, ⟨none, some ⟨[⟨32, 255, false⟩], 0, false⟩⟩)]
    cadences := [(22, { slot := 0, start := 0, period := 100000, next := none, last := 0, waits := [] })] } }

/-- A link in service with a packet that waits for it. -/
def sending : State := { up with
  lnk := { up.lnk with links := [(10, { (default : Link) with state := .inService })] }
  rtr := { up.rtr with out := [(10, [{ (default : OutPkt) with bytes := 5000 }])] } }

/-- A time master that is LOCKED, half a second after an edge. -/
def timed : State := { up with
  now := 500000000
  feat := { up.feat with timeMaster := true }
  sch := { up.sch with master := some 0, tstate := 2, lastEdge := some 0 } }

/-- A time-of-day message with its CRC. -/
def tod : Bytes :=
  let b := [0x4B, 0x54, 0x10, 1] ++ zeros 10
  b ++ leBytes 2 (crc16 b)

/-- A key slot that no queue pair uses. -/
def keyed : State := { up with sec := { up.sec with keys := [(16383, { (default : KeySlot) with inst := 1 })] } }

/-- A held instance with a fresh work queue. -/
def held : State := { queues with vrt := { queues.vrt with insts := SMap.put queues.vrt.insts 0 { pfInst with hold := true } } }

/-- A module whose port 0 has two virtual functions, the second without an instance. -/
def enabled : State := up.setPort 0 { up.port 0 with vfEnabled := 2 }

/-- Laser bay 0 latched off, and bay 1 with its contact closed and its switch off. -/
def bays : State := { up with pwr := { up.pwr with
  bays := [(0, { (default : Bay) with present := true, latched := true }), (1, { (default : Bay) with present := true })] } }

/-- A sensor at CRITICAL. -/
def hot : State := { up with pwr := { up.pwr with sensors := [(0, { (default : Sensor) with level := 3 })] } }

theorem prodEta {α β γ : Type} {x : α × β × γ} : x = (x.1, x.2.1, x.2.2) := rfl

/-- A module at 25 °C, whose leakage table gives no leakage from 0 °C to 350 °C, and in which a drop of power does not trigger tallow. -/
def cool : State :=
  let s := up.setCom .PWR_DOMAIN_CFG 0xA0A0A48
  { s with
    pwr := { s.pwr with sensors := (List.range 68).map fun i => (i, ⟨200, 200, 0⟩) }
    svc := { s.svc with calNow := SMap.put s.svc.calNow 6 ((List.range 8).flatMap (fun i => leBytes 2 (400 * i)) ++ zeros 1296) } }

/-- A module in recovery, with no host link. -/
def recovering : State := { State.reset with
  boot := { State.reset.boot with state := 2 }
  hif := { State.reset.hif with ports := [0, 1, 2, 3].map fun p => (p, default) } }

/-- A module whose control processor has halted twice in the last 10 s. -/
def halted : State := { up with boot := { up.boot with halts := [0, 0] } }

/-- A module with a staged image in bank 1. -/
def staged : State := up.setBank 1 ⟨[1], true⟩

/-- A module that scrubs, with words that are clean, correctable and uncorrectable. -/
def scrubs : State :=
  let s := up.setCom .MEM_SCRUB_CFG 0x80000000
  { s with hbm := { s.hbm with ecc := [(8, .correctable), (9, .uncorrectable)] } }

/-- A frame with its check. -/
def frame (body : Bytes) : Bytes := body ++ frameCheck body false

/-- A frame of 64 bytes of an EtherType, with the bytes that follow it. -/
def typed (typ : Nat) (rest : Bytes) : Bytes := frame (zeros 12 ++ beBytes 2 typ ++ rest ++ zeros (46 - rest.length))

/-- A module whose link 0 of group 0 is in a state, at a bring-up step. -/
def linked (st : LinkState) (step : Nat) : State := { up with lnk := { up.lnk with links := [(0, { (default : Link) with state := st, step })] } }

/-- The same, with group 0 switched. -/
def switched (step : Nat) : State :=
  let s := linked .training step
  { s with feat := { s.feat with switched := 1 } }

/-- Link group 7 as given. -/
def plugged (x : LinkGroup) : State := { up with lnk := { up.lnk with groups := [(7, x)] } }

/-- Link group 0, all of whose links are in service, with low-power idle allowed. -/
def sleepy : State :=
  let s := up.setReg (.LNK_GCTL 0) 0xC0000000
  { s with lnk := { s.lnk with links := (List.range 8).map fun j => (j, { (default : Link) with state := .inService }) } }

/-- Whether a packet meets the checks that every packet meets. -/
def acceptsB (s : State) (p : Pkt) : Bool :=
  decide (s.pwr.off = false ∧ p.version = 0x10 ∧ typeKnown p.typ = true ∧
    (p.dstEpoch = (s.ejected p).qpe.epoch ∨ p.typ = 0x08 ∨ p.typ = 0x09) ∧
    (p.srcEpoch = (s.ejected p).peerEpoch p.src ∨ epochNewer p.srcEpoch ((s.ejected p).peerEpoch p.src) = true))

theorem accepts {s : State} {p : Pkt} (h : acceptsB s p = true) : Accepts s p := by
  obtain ⟨h1, h2, h3, h4, h5⟩ := of_decide_eq_true h
  exact ⟨h1, h2, h3, h4, h5⟩

/-- Whether a request has its turn. -/
def inTurnB (s : State) (p : Pkt) : Bool :=
  acceptsB s p && decide (p.response = false ∧ p.forwarded = false ∧ p.dstQpn = 0 ∧ p.encrypted = false ∧ p.first = true ∧
    psnDist p.psn (s.inStream p).expect = 0 ∧ (s.inStream p).busy = [] ∧ (s.inStream p).segment = [] ∧ (s.inStream p).held = [] ∧
    (s.turn p).canRecord (streamOf p) = true)

theorem inTurn {s : State} {p : Pkt} (h : inTurnB s p = true) : InTurn s p := by
  simp only [inTurnB, Bool.and_eq_true, decide_eq_true_eq] at h
  constructor <;> first | exact accepts h.1 | tauto

theorem forwardedNew {s : State} {p : Pkt} (h : acceptsB s p = true) (h1 : p.response = false) (h2 : p.forwarded = true)
    (h3 : (((s.forwardedTurn p).fstream (fwdKey p)).records.all fun o => o.psn != p.psn) = true)
    (h4 : (((s.forwardedTurn p).fstream (fwdKey p)).passed.all fun x => x.psn != p.psn) = true)
    (h5 : (s.forwardedTurn p).qpe.arrivals = []) (h6 : (s.forwardedTurn p).canRecordForward (fwdKey p) = true) :
    ForwardedNew s p := ⟨accepts h, h1, h2, h3, h4, h5, h6⟩

/-- A packet of a type from module 1 about page 5 of this home, in partition 20. -/
def req (typ : Nat) (payload : Bytes) : Pkt := { (default : Pkt) with
  version := 0x10, typ, first := true, last := true, partition := 20, src := 1, remote := 5 * 2 ^ 21, length := 4, payload }

/-- A module that holds page 5 of its home and has wick queue 7, with a collective and launches under way. -/
def holder : State :=
  let s := member up
  { s with
    hall := { s.hall with pages := [(5, { (default : Page) with partition := 20 })] }
    plc := { s.plc with
      held := [(pageKey 0 5, { (default : Held) with partition := 20, seq := 3 })]
      cache := [⟨0, 6, 1, 0, 0⟩]
      incoming := [(pageKey 0 6, ⟨0, false, 2, 20, false⟩)] }
    syn := { s.syn with wicks := [(7, { (default : Wick) with partition := 20, depth := 8 })] }
    col := { s.col with groups := [(1, { (default : Group) with partition := 20, coll := some { (default : Coll) with check := 5 } })] }
    trn := { s.trn with entries := [(3, { (default : TEntry) with by_ := .remote 1 0 })] }
    qpe := { s.qpe with txns := [(0, { (default : Txn) with owner := .launch 7 8, dst := 1 })] }
    jobs := { s.jobs with domains := SMap.put s.jobs.domains 21 { (default : Domain) with waiting := some (0, 3) } } }

/-- The same, whose page 5 is POISONED. -/
def poisonedHolder : State := { holder with hall := { holder.hall with
  pages := [(5, { (default : Page) with partition := 20, poisoned := true })] } }

/-- The same, whose work queue 7 has the operation of the launch. -/
def launched : State := { holder with
  q := { holder.q with wqs := [(7, { (default : Wq) with ops := [{ (default : Op) with id := 8, desc := zeros 64, phase := .active }] })] }
  trn := { holder.trn with programs := [(0, { (default : Program) with partition := 20, image := zeros 256 })] } }

/-- The same, to which page 6 of module 1 is moving. -/
def moving : State := { holder with plc := { holder.plc with incoming := [(pageKey 1 6, ⟨0, false, 2, 20, false⟩)] } }

/-- A module with a READ outstanding to module 1. -/
def reading : State := { up with qpe := { up.qpe with
  txns := [(9, { (default : Txn) with owner := .control, dst := 1, typ := 2, pkts := [{ (default : Pkt) with length := 4 }] })] } }

/-- The same, whose request has not left its output queue. -/
def behind : State := { reading with rtr := { reading.rtr with
  out := [(10, [{ (default : OutPkt) with input := 64, pkt := { (default : Pkt) with length := 4, txn := 9 } }])] } }

/-- Retransmission, probe and acknowledgement timers at their limits and below them. -/
def timing : State := { up with
  qpe := { up.qpe with
    txns := [(1, { (default : Txn) with attempts := 0 }), (2, { (default : Txn) with attempts := 15 })]
    probes := [(3, 0), (4, 15)]
    recv := [(streamKey 1 0, { (default : RStream) with unanswered := 1 })]
    qps := [(5, { (default : Qp) with rx := { (default : RStream) with unanswered := 1 } })] }
  rtr := { up.rtr with throttle := [(8, default)] } }

theorem performPair {s : Perf × State} (h : (match s.1 with | .done _ _ _ => true | _ => false) = true) :
    s = (.done (match s.1 with | .done a _ _ => a | _ => 0) (match s.1 with | .done _ b _ => b | _ => 0)
      (match s.1 with | .done _ _ d => d | _ => []), s.2) := by
  obtain ⟨v, t⟩ := s
  cases v <;> simp_all

/-- A descriptor of an opcode with fields: (place, bytes, value). -/
def descOf (op : Nat) (fields : List (Nat × Nat × Nat)) : Bytes :=
  fields.foldl (fun d f => overlay d f.1 (leBytes f.2.1 f.2.2)) (op :: 1 :: zeros 62)

/-- Work queue 7 with queue pair 5, READY in partition 20, and one judged descriptor; group 1, program 4, wick queue 9 and barrier 1 of the
partition. -/
def workWith (o : Op) : State :=
  let s := member up
  { s with
    q := { s.q with wqs := [(7, { (default : Wq) with inst := 1, cq := 6, qp := some 5, state := .enabled, ops := [o] })] }
    qpe := { s.qpe with epoch := 1, qps := [(5, { (default : Qp) with inst := 1, state := 1, partition := 20, cached := true })] }
    col := { s.col with groups := [(1, { (default : Group) with partition := 20, list := [0, 1] })] }
    trn := { s.trn with programs := [(4, { (default : Program) with partition := 20, image := zeros 256 })] }
    sch := { s.sch with cadences := [(20, { (default : Cadence) with period := 1000 })] }
    syn := { s.syn with
      wicks := [(9, { (default : Wick) with partition := 20, depth := 8 })]
      bars := [(1, { (default : Barrier) with inst := 1, participants := 4 })] } }

/-- The same, the operation ready to begin. -/
def work (op : Nat) (fields : List (Nat × Nat × Nat)) : State := workWith { (default : Op) with id := 3, desc := descOf op fields }

/-- An operation that has begun, with one message. -/
def begun (op : Nat) (fields : List (Nat × Nat × Nat)) (token : Bool) : State :=
  workWith { (default : Op) with
    id := 3, desc := descOf op fields, phase := .active, msgs := [⟨0, 8, 0x100, 0, .waiting, RBuf.empty, 0, 0, token⟩] }

/-- Whether an operation may begin and its queue pair is not in ERROR. -/
def opReadyB (s : State) (n id op : Nat) : Bool :=
  !s.pwr.off && (s.beginOp n id op).isSome && ((s.beginOp n id op).getD default).2.2.2.state != 2 &&
    ((s.beginOp n id op).getD default).2.2.2.cached

theorem opReady {s : State} {n id op : Nat} (h : opReadyB s n id op = true) :
    OpReady s n id op ((s.beginOp n id op).getD default).1 ((s.beginOp n id op).getD default).2.1
      ((s.beginOp n id op).getD default).2.2.1 ((s.beginOp n id op).getD default).2.2.2 := by
  simp only [opReadyB, Bool.and_eq_true, Bool.not_eq_true', bne_iff_ne] at h
  exact ⟨h.1.1.1, someGetD h.1.1.2, h.1.2, h.2⟩

/-- A port with a request in flight under tag 9. -/
def asking (p : Purpose) : State :=
  up.setPort 0 { up.port 0 with tags := [(9, ⟨0, 64, p, none, none⟩)] }

/-- Work queue 7 with a TOKEN that waits, and another descriptor behind it. -/
def waitingTwo : State :=
  let s := workWith { (default : Op) with id := 3, desc := descOf 7 [], phase := .waiting, waitEnd := 1 }
  { s with q := { s.q with wqs := s.q.wqs.map fun w => (w.1, { w.2 with ops := w.2.ops ++ [{ (default : Op) with id := 4, desc := zeros 64 }] }) } }

/-- A module whose function 1 is held. -/
def heldFn : State := { up with hif := { up.hif with fns := SMap.put up.hif.fns 1 { (default : Fn) with busMaster := true, held := true } } }

/-- A queue pair whose context is being filled, and good context records of it: unconnected, and of a connection to a queue pair. -/
def fillingQp : State := { up with qpe := { up.qpe with qps := [(5, { (default : Qp) with filling := true })] } }
def contextRecord : Bytes :=
  let b : Bytes := [5, 0, 0, 0, 1] ++ zeros 19 ++ [0xFF, 0xFF] ++ zeros 226
  b ++ leBytes 4 (crc32 b)
def contextRecordTo (qpn : Nat) : Bytes :=
  let b : Bytes := [5, 0, 0, 0, 1, 0x80] ++ zeros 6 ++ leBytes 4 qpn ++ zeros 8 ++ [7, 0] ++ zeros 226
  b ++ leBytes 4 (crc32 b)

/-- A window of function 1 onto the first frame of its instance's HBM. -/
def windowed : State := up.setRegOf 1 .HIF_WIN_BASE 1

theorem msgPair {x : Option ((Nat × Nat) ⊕ Bytes) × State} (h : (match x.1 with | some (.inr _) => true | _ => false) = true) :
    x = (some (.inr (match x.1 with | some (.inr d) => d | _ => [])), x.2) := by
  obtain ⟨v, t⟩ := x
  match v, h with
  | some (.inr _), _ => rfl

theorem someQuad {α β γ δ : Type} [Inhabited α] [Inhabited β] [Inhabited γ] [Inhabited δ] {x : Option (α × β × γ × δ)} (h : x.isSome = true) :
    x = some ((x.getD default).1, (x.getD default).2.1, (x.getD default).2.2.1, (x.getD default).2.2.2) := someGetD h

/-- The row of MEM_STACK_SEL. -/
def stackSel : RegSpec := ⟨"MEM_STACK_SEL", Reg.MEM_STACK_SEL, [], 32, .module, 7, 0, 0, 0, 0⟩

theorem findStackSel : findReg Reg.MEM_STACK_SEL.addr = some (stackSel, Reg.MEM_STACK_SEL.addr) := by
  decide +kernel

/-- The row of XLT_DIRTY_THRESHOLD. -/
def dirtyThreshold : RegSpec := ⟨"XLT_DIRTY_THRESHOLD", Reg.XLT_DIRTY_THRESHOLD, [], 32, .module, 0xffffffff, 0, 0, 0, 0⟩

theorem findDirtyThreshold : findReg Reg.XLT_DIRTY_THRESHOLD.addr = some (dirtyThreshold, Reg.XLT_DIRTY_THRESHOLD.addr) := by
  decide +kernel

theorem findNothing : findReg 0xFC = none := by
  decide +kernel

/-! ## Words and formulas of the spec worked out by hand -/

/-- R147: the distance from 0xFF_FFFF to 2 is 3, and index 0x12345 stands in slot 0x45 of a ring of 2^8. -/
theorem test_ring_indices : distance 0xFFFFFF 2 = 3 ∧ slotOf 0x12345 8 = 0x45 := by decide

/-- R56, R57: bits 60:44 of a hall address are its home, 43:21 its page and 20:0 its byte. -/
theorem test_hall_address : let a := 0x0000500001000003
    hallHome a = 5 ∧ hallPage a = 8 ∧ hallByte a = 3 ∧ hallVer a = 0 := by decide +kernel

/-- R448, R452: 448 is the largest E4M3 value, 1.0 is 0x3F80 in BF16, and 449 in E4M3 rounds to 448. -/
theorem test_formats : decodeElem fmE4m3 0x7E = .fin false 14 5 ∧ (encodeElem fmBf16 (.fin false 1 0)).code = 0x3F80 ∧
    (encodeElem fmE4m3 (.fin false 449 0)) = ⟨0x7E, false, false⟩ ∧ (encodeElem fmE4m3 (.fin false 1000 0)) = ⟨0x7E, true, false⟩ := by
  decide +kernel

/-- R446, R452: 1 + 2^-24 is a tie and rounds to 1, and 3 × 0.5 is 1.5 in FP32. -/
theorem test_fp32 : fadd 0x3F800000 0x33800000 = 0x3F800000 ∧ fmul 0x40400000 0x3F000000 = 0x3FC00000 := by decide +kernel

/-- The published check value of the CRC-32 of IEEE 802.3 and of the CRC-16 with polynomial 0x1021 and seed 0xFFFF, over "123456789". -/
theorem test_crc : crc32 (ascii "123456789") = 0xCBF43926 ∧ crc16 (ascii "123456789") = 0x29B1 := by decide +kernel

/-- The SHA-384 of "abc" (FIPS 180-4). -/
theorem test_sha384 : beNat (sha384 (ascii "abc")) = 0xcb00753f45a35e8bb5a03d699ac65007272c32ab0eded1631a8b605a43ff5bed8086072ba1e7cc2358baeca134c825a7 := by
  decide +kernel

/-- The S-box of 0x53 and the mixed column of db 13 53 45 (FIPS 197). -/
theorem test_aes : aesSbox 0x53 = 0xED ∧ (aesMix ([0xDB, 0x13, 0x53, 0x45] ++ List.replicate 12 0)).take 4 = [0x8E, 0x4D, 0xA1, 0xBC] := by
  decide +kernel

/-- The base point of P-384 lies on its curve. -/
theorem test_p384 : ecGy * ecGy % ecP = (ecGx * ecGx * ecGx + (ecP - 3) * ecGx + ecB) % ecP := by decide +kernel

/-- A state has a queue of commands that `step` takes from its front. -/
theorem test_step_front : step { State.reset with pending := [.nop 0 0] } = exec (.nop 0 0) { State.reset with pending := [] } := rfl

/-- R160: a doorbell moves DOORBELL of a running queue. -/
theorem test_doorbell : (match exec (.wqDoorbell 0 8 1) queues with
    | .next t => (t.wq 8).map (·.doorbell)
    | _ => none) = some 1 := by decide +kernel

/-! ## Ill-formed commands: one operand just out of its range, one command for each check of the well-formedness -/

theorem test_wf_refuses_1 : [
    Instr.admCmdProducerWrite 4 0, .admCmdProducerWrite 0 (2 ^ 64), .adminCommandFetch 4, .admCtrlEnableSet 4 0,
    .admCtrlEnableSet 0 (2 ^ 64), .admCtrlEnableClear 4 0, .admCtrlEnableClear 0 (2 ^ 64), .admReplyConsumerWrite 4 0,
    .admReplyConsumerWrite 0 (2 ^ 64), .unlistedAdminOpcode 4 0, .identify 4 0, .negotiateVersion 4 0, .getFeature 4 0, .setFeature 4 0,
    .expertUnlock 4 0, .expertLock 4 0, .createWorkQueue 4 0, .destroyWorkQueue 4 0, .createCompletionQueue 4 0,
    .destroyCompletionQueue 4 0, .createEventQueue 4 0, .destroyEventQueue 4 0, .quiesce 4 0, .resume 4 0, .quiesceWaitLimit 4 0,
    .snuffQueue 4 0, .createQp 4 0, .modifyQp 4 0, .queryQp 4 0, .destroyQp 4 0, .openSkylight 4 0, .revokeSkylight 4 0,
    .querySkylight 4 0, .mapPages 4 0, .unmapPages 4 0, .dirtyLogEnable 4 0, .dirtyLogSwitch 4 0, .dirtyLogDisable 4 0,
    .defineGroup 4 0, .releaseGroup 4 0, .setCollectivePolicy 4 0, .loadTransitProgram 4 0, .unloadTransitProgram 4 0,
    .allocateHallPages 4 0, .freeHallPages 4 0, .pinPages 4 0, .unpinPages 4 0, .pinProgram 4 0, .unpinProgram 4 0,
    .setPlacementPolicy 4 0, .createWickQueue 4 0, .destroyWickQueue 4 0, .defineBarrier 4 0, .setGateList 4 0, .setClassQuanta 4 0,
    .setCadence 4 0].all (fun i => !i.wf) = true := by
  decide +kernel

theorem test_wf_refuses_2 : [
    Instr.loadKey 4 0, .destroyKey 4 0, .createInstance 4 0, .destroyInstance 4 0, .resetInstance 4 0, .generationQuarantineEnd 512,
    .setInstanceShare 4 0, .powerHintCommand 4 0, .setPowerCap 4 0, .readLifeLog 4 0, .calRead 4 0, .calWrite 4 0, .setDebugMux 4 0,
    .firmwareStage 4 0, .firmwareActivateNextPowerOn 4 0, .firmwareActivateNow 4 0, .jobDomainCreate 4 0, .jobDomainFault 4 0,
    .snapshot 4 0, .wqDoorbell 512 0 0, .wqDoorbell 0 65536 0, .wqDoorbell 0 0 (2 ^ 64), .doorbellHighDwordWrite 512 (0, 0xF0),
    .doorbellHighDwordWrite 0 (65536, 0xF0), .doorbellHighDwordWrite 0 (0, 256), .cqConsumerUpdate 512 0 0, .cqConsumerUpdate 0 65536 0, .cqConsumerUpdate 0 0 (2 ^ 64),
    .cqArm 512 0 0, .cqArm 0 65536 0, .cqArm 0 0 (2 ^ 64), .cqArmSolicited 512 0 0, .cqArmSolicited 0 65536 0,
    .cqArmSolicited 0 0 (2 ^ 64), .cqFullWaitExpiry 65536, .descriptorFetch 65536, .descriptorArrival 65536, .lqConsumerWrite 512 0 0,
    .lqConsumerWrite 0 512 0, .lqConsumerWrite 0 0 (2 ^ 32), .lqArm 512 0, .lqArm 0 512, .lqLostClear 512 0, .lqLostClear 0 512,
    .wqEnableClear 512 (0, 8), .wqEnableClear 0 (65536, 8), .wqEnableClear 0 (0, 16),
    .wqEnableSet 512 (0, 8), .wqEnableSet 0 (65536, 8), .wqEnableSet 0 (0, 16), .nop 65536 0, .read 65536 0, .write 65536 0,
    .writeNotify 65536 0, .atomicFadd 65536 0, .atomicCas 65536 0, .fence 65536 0, .tokenProduce 65536 0, .tokenConsume 65536 0].all (fun i => !i.wf) = true := by
  decide +kernel

theorem test_wf_refuses_3 : [
    Instr.tokenBarrier 65536 0, .tokenCadence 65536 0, .tokenWaitTimeout 65536 0, .chain 65536 0, .chainListArrival 65536 0,
    .powerHintDescriptor 65536 0, .allReduce 65536 0, .reduce 65536 0, .reduceScatter 65536 0, .allGather 65536 0, .broadcast 65536 0,
    .allToAll 65536 0, .transit 65536 0, .messageIssue 65536 0 0, .messageIssue 0 0 (2 ^ 32), .contextFillReturn (2 ^ 24) [],
    .hostReadCompletion 4 0 0 [], .hostReadCompletion 0 16384 0 [], .hostReadCompletion 0 0 3 [], .completionTimeout 4 0,
    .completionTimeout 0 16384, .writeReq { (default : Pkt) with typ := 256 }, .readReq { (default : Pkt) with typ := 256 },
    .atomicReq { (default : Pkt) with typ := 256 }, .tokenReq { (default : Pkt) with typ := 256 },
    .forwardedRequest { (default : Pkt) with typ := 256 }, .ack { (default : Pkt) with typ := 256 },
    .readResp { (default : Pkt) with typ := 256 }, .atomicResp { (default : Pkt) with typ := 256 },
    .epochProbe { (default : Pkt) with typ := 256 }, .epochNotice { (default : Pkt) with typ := 256 }, .epochProbeTimeout 131072,
    .epochTableAging 131072, .congestion { (default : Pkt) with typ := 256 }, .unknownTypePacket { (default : Pkt) with typ := 256 },
    .retransmitTimeout 65536, .retryLimitTimeout 65536, .ackDelayExpiry 2 0, .collData { (default : Pkt) with typ := 256 },
    .groupSetup { (default : Pkt) with typ := 256 }, .treeUp { (default : Pkt) with typ := 256 },
    .treeDown { (default : Pkt) with typ := 256 }, .revokeDrainDone 256 0 0, .revokeDrainDone 0 131072 0, .revokeDrainDone 0 0 65536,
    .snapshotDrainDone 65536, .treeUpRetry 256 0 0 0, .treeUpRetry 0 131072 0 0, .treeUpRetry 0 0 65536 0, .treeUpRetry 0 0 0 (2 ^ 32),
    .treeAckTimeout 256 0 0 0 0, .treeAckTimeout 0 131072 0 0 0, .treeAckTimeout 0 0 65536 0 0, .treeAckTimeout 0 0 0 (2 ^ 32) 0,
    .treeAckTimeout 0 0 0 0 131072, .domainSetup { (default : Pkt) with typ := 256 }].all (fun i => !i.wf) = true := by
  decide +kernel

theorem test_wf_refuses_4 : [
    Instr.domainReady { (default : Pkt) with typ := 256 }, .transitLaunch { (default : Pkt) with typ := 256 },
    .transitCancel { (default : Pkt) with typ := 256 }, .transitDone { (default : Pkt) with typ := 256 }, .tileAllocation 2,
    .operatorChunkDone 2 0 0 0 0 0, .operatorChunkDone 0 256 0 0 0 0, .operatorChunkDone 0 0 16 0 0 0, .operatorChunkDone 0 0 0 3 0 0,
    .operatorChunkDone 0 0 0 0 64 0, .operatorChunkDone 0 0 0 0 0 (2 ^ 40), .transitWaitTimeout 2 0, .transitWaitTimeout 0 256,
    .transitPriorityPromotion 2 0, .transitPriorityPromotion 0 256, .trnCancelWrite 512 0 0, .trnCancelWrite 0 2 0,
    .trnCancelWrite 0 0 (2 ^ 64), .placePropose { (default : Pkt) with typ := 256 }, .moveStart { (default : Pkt) with typ := 256 },
    .moveCopy { (default : Pkt) with typ := 256 }, .moveDone { (default : Pkt) with typ := 256 },
    .moveEnd { (default : Pkt) with typ := 256 }, .thatchHint { (default : Pkt) with typ := 256 },
    .collapseNote { (default : Pkt) with typ := 256 }, .collapseDone { (default : Pkt) with typ := 256 },
    .forwardingEntryExpiry 131072 0, .forwardingEntryExpiry 0 (2 ^ 23), .pinWaitRetry (2 ^ 23), .programExclusionExpiry 1024 0,
    .programExclusionExpiry 0 131072, .cadenceBoundary 65536, .gateSwitch 8, .frameStart 8 0, .frameStart 0 8, .ptpSync 8 0 [],
    .ptpSync 0 8 [], .ptpPdelayReq 8 0 [], .ptpPdelayReq 0 8 [], .ptpPdelayResp 8 0 [], .ptpPdelayResp 0 8 [], .mailboxSend 512 0 0,
    .mailboxSend 0 2 0, .mailboxSend 0 0 (2 ^ 64), .mailboxReceive 512 0, .mailboxReceive 0 2, .frameReceive 8 0 [] false none,
    .frameReceive 0 8 [] false none, .pauseExpiry 8 0 0, .pauseExpiry 0 8 0, .pauseExpiry 0 0 8, .pauseRefresh 8 0 0,
    .pauseRefresh 0 8 0, .pauseRefresh 0 0 8, .txUnderrun 8 0, .txUnderrun 0 8].all (fun i => !i.wf) = true := by
  decide +kernel

theorem test_wf_refuses_5 : [
    Instr.opticalPowerStable 8 0, .opticalPowerStable 0 8, .linkLock 8 0, .linkLock 0 8, .trainingStepTimeout 8 0,
    .trainingStepTimeout 0 8, .hello 8 0 [], .hello 0 8 [], .helloSend 8 0, .helloSend 0 8, .helloLost 8 0, .helloLost 0 8,
    .signalLost 8 0 0, .signalLost 0 8 0, .signalLost 0 0 16, .alignLost 8 0, .alignLost 0 8, .fecDegrade 8 0 0, .fecDegrade 0 8 0,
    .heldLinkRetry 8 0, .heldLinkRetry 0 8, .lpiIdleExpiry 8, .lpiWake 8, .wakeTimeout 8, .connectorOpen 8, .connectorClose 8,
    .connectorDebounce 8, .lnkGroupEnableClear 512 0 0, .lnkGroupEnableClear 0 8 0, .lnkGroupEnableClear 0 0 (2 ^ 64),
    .lnkGroupEnableSet 512 0 0, .lnkGroupEnableSet 0 8 0, .lnkGroupEnableSet 0 0 (2 ^ 64), .lnkGroupRetrain 512 0 0,
    .lnkGroupRetrain 0 8 0, .lnkGroupRetrain 0 0 (2 ^ 64), .lpiEnableWrite 512 0 0, .lpiEnableWrite 0 8 0, .lpiEnableWrite 0 0 (2 ^ 64),
    .lnkLinkDisable 512 0 0, .lnkLinkDisable 0 8 0, .lnkLinkDisable 0 0 8, .lnkLinkEnable 512 0 0, .lnkLinkEnable 0 8 0,
    .lnkLinkEnable 0 0 8, .lnkLinkRetrain 512 0 0 0, .lnkLinkRetrain 0 8 0 0, .lnkLinkRetrain 0 0 8 0, .lnkLinkRetrain 0 0 0 (2 ^ 64),
    .txThresholdRestore 512 0 0, .txThresholdRestore 0 8 0, .txThresholdRestore 0 0 (2 ^ 64), .xltCommit 512, .qpeCommit 512,
    .rtrCommit 512, .colCommit 512].all (fun i => !i.wf) = true := by
  decide +kernel

theorem test_wf_refuses_6 : [
    Instr.trnCommit 512 0, .trnCommit 0 2, .plcCommit 512, .schCommit 512, .lnkCommit 512 0, .lnkCommit 0 8, .vrtCommit 512,
    .hifCommit 512, .pwrCommit 512, .memCommit 512, .dbgCommit 512, .xltInvalAll 512, .xltInvalInstance 512 0, .xltInvalInstance 0 512,
    .translationDrainDone 512, .rtrClearWatermarks 512, .qpcStoreWrite 512 false 0, .qpcStoreWrite 0 false (2 ^ 64),
    .synBarParticipantsWrite 512 0 0, .synBarParticipantsWrite 0 256 0, .synBarParticipantsWrite 0 0 (2 ^ 64), .vrtHoldWrite 512 0,
    .vrtHoldWrite 0 (2 ^ 64), .restoreApply 512 0, .restoreApply 0 (2 ^ 64), .schHallTimeLatchRead 512, .memInjectArm 512 0,
    .memInjectArm 0 (2 ^ 64), .secEngineSelfTest 512 0 0, .secEngineSelfTest 0 (2 ^ 64) 0, .secEngineSelfTest 0 0 65536,
    .elsClearLatch 512 0, .elsClearLatch 0 (2 ^ 64), .elsDisableWrite 512 0, .elsDisableWrite 0 (2 ^ 64), .hifWinBaseWrite 512 0,
    .hifWinBaseWrite 0 (2 ^ 64), .registerWrite 512 0 0 0, .registerWrite 0 (2 ^ 40) 0 0, .registerWrite 0 0 (2 ^ 64) 0,
    .registerWrite 0 0 0 (2 ^ 512), .windowAccess 512 false 0 0 0 [], .windowAccess 0 false (2 ^ 40) 0 0 [],
    .windowAccess 0 false 0 (2 ^ 32) 0 [], .inboundRequestRefused 512 0 0 0 0 false, .inboundRequestRefused 0 65536 0 0 0 false,
    .inboundRequestRefused 0 0 8 0 0 false, .inboundRequestRefused 0 0 0 (2 ^ 40) 0 false, .inboundRequestRefused 0 0 0 0 8192 false,
    .firstConfigWrite 4 0, .firstConfigWrite 0 65536, .busMasterEnableClear 512, .busMasterEnableSet 512, .d3hotEntry 512,
    .msixUnmask 512 0 false false, .msixUnmask 0 2048 false false].all (fun i => !i.wf) = true := by
  decide +kernel

theorem test_wf_refuses_7 : [
    Instr.functionLevelResetVf 512, .functionLevelResetPf 4, .vfDisable 4, .portLinkLoss 4 false, .perstAssert 4 false, .perstRelease 4,
    .powerOnReset 16 0 0 false, .powerOnReset 0 256 0 false, .powerOnReset 0 0 65536 false, .watchdogExpiry (2 ^ 32),
    .codeWrite (2 ^ 32), .sramUe (2 ^ 32) 0, .sramUe 0 (2 ^ 40), .cpFault (2 ^ 32), .scrubRead (2 ^ 34), .ceHourRollover 8,
    .drbgReseed 3, .calGainUpdate 65536 0 0, .calGainUpdate 0 65536 0, .calGainUpdate 0 0 65536, .domainIdleOff 80, .droopDetect 4,
    .droopSkipEnd 4, .sensorSample [], .vpointStepDown 2, .vpointStepUp 2, .oeRepower 8, .elsPresenceClose 2, .elsRampStart 2,
    .elsTrip 2, .elsPresenceOpen 2, .getPldmVersion 256, .getPldmCommands 256, .getPdr (2 ^ 32), .getSensorReading 65536,
    .getStateEffecterStates 65536, .setNumericEffecterValue 65536, .unsupportedPldmCommand 256 0, .unsupportedPldmCommand 0 256,
    .activateFirmware 16 0 0 false, .activateFirmware 0 256 0 false, .activateFirmware 0 0 65536 false, .switchedLinkInService 8 0,
    .switchedLinkInService 0 8, .elsContactOpen 2, .elsRampEnd 2, .domainWakeDone 80, .tclkRelockDone 2, .pcieLinkUp 4 0 0,
    .pcieLinkUp 0 32 0, .pcieLinkUp 0 0 256, .vfEnable 4 0, .vfEnable 0 128, .d3hotExit 512].all (fun i => !i.wf) = true := by
  decide +kernel

theorem test_wf_refuses_packets : (let p : Pkt := default; [
    { p with version := 256 }, { p with typ := 256 }, { p with form := 2 }, { p with tc := 8 }, { p with ecn := 4 },
    { p with route := 256 }, { p with hops := 256 }, { p with partition := 65536 }, { p with src := 131072 }, { p with dst := 131072 },
    { p with stream := 131072 }, { p with srcInstGen := 256 }, { p with srcEpoch := 2 ^ 32 }, { p with dstEpoch := 2 ^ 32 },
    { p with srcQpn := 2 ^ 24 }, { p with dstQpn := 2 ^ 24 }, { p with psn := 2 ^ 24 }, { p with srcQueueGen := 256 },
    { p with confPsn := 2 ^ 24 }, { p with status := 256 }, { p with reason := 256 }, { p with crypt := 256 }, { p with txn := 65536 },
    { p with length := 65536 }, { p with key := 2 ^ 32 }, { p with remote := 2 ^ 64 }].all fun p => !p.wf) = true := by
  decide +kernel

/-- Operands at the ends of their ranges are accepted. -/
theorem test_wf_accepts : [Instr.admCmdProducerWrite 3 (2 ^ 64 - 1), .wqDoorbell 511 65535 0, .linkLock 7 7, .firstConfigWrite 3 65535,
    .sensorSample (List.replicate 68 0), .readReq default].all (·.wf) = true := by
  decide +kernel

/-! ## The hypotheses of the statements are met -/

/-- The hypotheses of `Obligations.StepRunsTheFrontCommand` are met, clause by clause. -/
theorem meets_StepRunsTheFrontCommand :
    (∃ (s : State) (i : Instr) (rest : List Instr), s.pending = i :: rest) :=
  ⟨{ up with pending := [.heatDecay, .syncSend] }, .heatDecay, [.syncSend], by decide +kernel⟩

/-- The hypotheses of `Obligations.AnEmptyQueueIdles` are met, clause by clause. -/
theorem meets_AnEmptyQueueIdles :
    (∃ (s : State), s.pending = [] ∧ s.clock.pwr.off = false) ∧ (∃ (s : State), s.pending = [] ∧ s.clock.pwr.off = true) ∧
    (∃ (s : State), s.pending = [] ∧ (∀ e ∈ s.trn.entries, e.2.state ≠ 5) ∧ (∀ k e, s.entry k = some e → e.state ≠ 5) ∧
      s.hbm.arbs = [] ∧ s.qpe.allocWait = [] ∧ (∀ p < 10, s.lostToPause p = false ∧ s.lostToArb p = false) ∧
      (∀ g < 8, s.guardHolds g = false)) :=
  ⟨⟨up, rfl, by decide +kernel⟩, ⟨off1, rfl, by decide +kernel⟩,
   ⟨State.reset, rfl, by decide +kernel, (fun _ _ h => nomatch (show (none : Option TEntry) = some _ from h)), rfl, rfl, by decide +kernel,
    by decide +kernel⟩⟩

/-- The hypotheses of `Obligations.AModuleThatIsOffDoesNothing` are met, clause by clause. -/
theorem meets_AModuleThatIsOffDoesNothing :
    (∃ (i : Instr) (s : State), s.pwr.off = true ∧ countsWhenOff i = false) :=
  ⟨.heatDecay, { up with pwr := { up.pwr with off := true } }, by decide +kernel, by decide +kernel⟩

/-- The hypotheses of `Obligations.StepKeepsCanonical` are met, clause by clause. -/
theorem meets_StepKeepsCanonical :
    (∃ (s : State) (t : State), s.Canonical ∧ step s = .next t) :=
  ⟨{ off1 with pending := [.heatDecay] }, off1, (by and_intros <;> decide +kernel), rfl⟩

/-- The hypotheses of `Obligations.StepTakesOnlyTheFront` are met, clause by clause. -/
theorem meets_StepTakesOnlyTheFront :
    (∃ (s : State) (t : State), step s = .next t) ∧
    (∃ (s : State) (t : State), step s = .next t) :=
  ⟨⟨{ off1 with pending := [.heatDecay] }, off1, rfl⟩,
   ⟨{ off1 with pending := [.heatDecay] }, off1, rfl⟩⟩

/-- The hypotheses of `Obligations.FuseSvnNeverFalls` are met, clause by clause. -/
theorem meets_FuseSvnNeverFalls :
    (∃ (s : State) (t : State), step s = .next t) :=
  ⟨{ off1 with pending := [.heatDecay] }, off1, rfl⟩

/-- The hypotheses of `Obligations.FinishOfCalm` are met, clause by clause. -/
theorem meets_FinishOfCalm :
    (∃ (s : State), s.calm = true) :=
  ⟨up, by decide +kernel⟩

/-- The hypotheses of `Obligations.PacketHeaderRoundTrip` are met, clause by clause. -/
theorem meets_PacketHeaderRoundTrip :
    (∃ (p : Pkt), p.wf = true) :=
  ⟨{ (default : Pkt) with version := 0x10, typ := 0x13, psn := 0xFFFFFF, dst := 131071, payload := [1, 2, 3], length := 3 },
    by decide +kernel⟩

/-- The hypotheses of `Obligations.RingIndices` are met, clause by clause. -/
theorem meets_RingIndices :
    (∃ (src : Nat) (dst : Nat), src < 2 ^ 24 ∧ dst < 2 ^ 24) :=
  ⟨0xFFFFFF, 0, by decide +kernel, by decide +kernel⟩

/-- The hypotheses of `Obligations.MemoryReadsBackWhatWasWritten` are met, clause by clause. -/
theorem meets_MemoryReadsBackWhatWasWritten :
    (∃ (s : State), Memory.wf s.hbm.mem = true) ∧
    (∃ (s : State) (a : Nat) (data : Bytes) (x : Nat), Memory.wf s.hbm.mem = true ∧ (x < a ∨ a + data.length ≤ x)) ∧
    (∃ (s : State), Memory.wf s.hbm.mem = true ∧ (∀ e order first tiles, s.hbm.client ≠ .tile e order first tiles)) ∧
    (∃ (s : State) (a : Nat) (data : Bytes) (x : Nat), Memory.wf s.hbm.mem = true ∧ (∀ e order first tiles, s.hbm.client ≠ .tile e order
      first tiles) ∧ (x < a ∨ a + data.length ≤ x)) :=
  ⟨⟨{ up with hbm := { up.hbm with mem := [(7, 1)] } }, by decide +kernel⟩,
   ⟨up, 4, [1, 2], 6, by decide +kernel, by decide +kernel⟩,
   ⟨{ up with hbm := { up.hbm with mem := [(7, 1)] } }, by decide +kernel, fabClient (by decide +kernel)⟩,
   ⟨up, 4, [1, 2], 6, by decide +kernel, fabClient (by decide +kernel), by decide +kernel⟩⟩

/-- The hypotheses of `Obligations.CapabilitiesByVariant` are met, clause by clause. -/
theorem meets_CapabilitiesByVariant :
    (∃ (s : State), s.barAnswers Reg.GLB_CAP0.addr = true) :=
  ⟨up, by decide +kernel⟩

/-- The hypotheses of `Obligations.CommitTakesTheSetIntoUse` are met, clause by clause. -/
theorem meets_CommitTakesTheSetIntoUse :
    (∃ (set : List Reg) (r : Reg), r ∈ set ∧ (∀ x ∈ set, x.addr = r.addr → x = r)) ∧
    (∃ (set : List Reg) (r : Reg), (∀ x ∈ set, x.addr ≠ r.addr)) :=
  ⟨⟨[.XLT_WALK_CFG], .XLT_WALK_CFG, by decide +kernel, by decide +kernel⟩,
   ⟨[.XLT_WALK_CFG], .QPE_SB_CFG, by decide +kernel⟩⟩

/-- The hypotheses of `Obligations.AdminQueuesRunAndStop` are met, clause by clause. -/
theorem meets_AdminQueuesRunAndStop :
    (∃ (s : State) (p : Nat) (value : Nat), s.serves ∧ (s.adm1 p).state = .running ∧ distance (s.adm1 p).fetch (value % ringMod) ≤ 2 ^
      s.admCtrl p 3 0 ∧ distance (s.adm1 p).fetch (s.adm1 p).producer ≤ distance (s.adm1 p).fetch (value % ringMod)) ∧
    (∃ (s : State) (p : Nat) (value : Nat), s.serves ∧ (s.adm1 p).state = .running ∧ 2 ^ s.admCtrl p 3 0 < distance (s.adm1 p).fetch (value
      % ringMod)) ∧
    (∃ (s : State) (p : Nat) (value : Nat), s.serves ∧ (s.adm1 p).state = .running ∧ distance (s.adm1 p).fetch (value % ringMod) ≤ 2 ^
      s.admCtrl p 3 0 ∧ distance (s.adm1 p).fetch (value % ringMod) < distance (s.adm1 p).fetch (s.adm1 p).producer) ∧
    (∃ (s : State) (p : Nat) (value : Nat), s.serves ∧ distance (s.adm1 p).replyConsumer (value % ringMod) ≤ distance (s.adm1
      p).replyConsumer (s.adm1 p).replyProducer) ∧
    (∃ (s : State) (p : Nat) (value : Nat), s.serves ∧ distance (s.adm1 p).replyConsumer (s.adm1 p).replyProducer < distance (s.adm1
      p).replyConsumer (value % ringMod)) ∧
    (∃ (s : State) (p : Nat) (len : Nat), s.pwr.off = false ∧ s.cpRuns = true ∧ s.admTurn p = true ∧ (s.adm1 p).state = .running ∧ ((s.adm1
      p).cmds.filter fun e => !e.2.orphan).length + (s.adm1 p).held.length < 64 ∧ distance (s.adm1 p).replyConsumer (s.adm1 p).replyProducer
      + ((s.adm1 p).cmds.filter fun e => !e.2.orphan).length + (s.adm1 p).held.length < 2 ^ s.admCtrl p 11 8 ∧ (s.adm1 p).frontLen = some
      len ∧ len ≠ 0 ∧ len ≤ 2 ^ s.admCtrl p 3 0 * 32 ∧ len ≤ (s.adm1 p).units.length) ∧
    (∃ (s : State) (p : Nat) (value : Nat), s.serves ∧ (s.adm1 p).state = .disabled ∧ 6 ≤ (s.admCtrlFields p value).admCtrl p 3 0 ∧
      (s.admCtrlFields p value).admCtrl p 3 0 ≤ 12 ∧ 6 ≤ (s.admCtrlFields p value).admCtrl p 11 8 ∧ (s.admCtrlFields p value).admCtrl p 11 8
      ≤ 12) ∧
    (∃ (s : State) (p : Nat), s.serves ∧ (s.adm1 p).state = .running) :=
  ⟨⟨up, 0, 64, ⟨by decide +kernel, by decide +kernel⟩, by and_intros <;> decide +kernel⟩,
   ⟨up, 0, 65, ⟨by decide +kernel, by decide +kernel⟩, by decide +kernel, by decide +kernel⟩,
   ⟨up.setAdm 0 { runningAdm with producer := 5 }, 0, 3, ⟨by decide +kernel, by decide +kernel⟩, by and_intros <;> decide +kernel⟩,
   ⟨up, 0, 0, ⟨by decide +kernel, by decide +kernel⟩, by decide +kernel⟩,
   ⟨up, 0, 1, ⟨by decide +kernel, by decide +kernel⟩, by decide +kernel⟩,
   ⟨fetching, 1, 256, by and_intros <;> decide +kernel⟩,
   ⟨stopped, 1, 0x6C6, ⟨by decide +kernel, by decide +kernel⟩, by and_intros <;> decide +kernel⟩,
   ⟨up, 1, ⟨by decide +kernel, by decide +kernel⟩, by decide +kernel⟩⟩

/-- The hypotheses of `Obligations.AdminCommandsAreAnswered` are met, clause by clause. -/
theorem meets_AdminCommandsAreAnswered :
    (∃ (s : State) (t : State) (p : Nat) (k : Nat) (status : Nat) (detail : Nat) (result : Bytes) (r : Bytes) (c : Cmd), s.cpRuns = true ∧
      SMap.find (s.adm1 p).cmds k = some c ∧ SMap.wf s.adm.queues = true ∧ c.orphan = false ∧ (s.adm1 p).state = .running ∧ (s.adm1 p).held
      = [] ∧ s.canIssue (p * 128) = true ∧ r = slice c.pkt 4 4 ++ slice c.pkt 2 2 ++ leBytes 1 status ++ leBytes 1 detail ++ leBytes 3
      c.index ++ leBytes 1 (s.adm1 p).negotiated ++ leBytes 1 (phaseAt (s.adm1 p).replyProducer (s.admCtrl p 11 8)) ++ zeros 3 ++ (if status
      = 0 then slice result 0 16 else zeros 16) ∧ t = (((s.emit (.hostWrite p (p * 128) ((s.regOf (p * 128) .ADM_REPLY_BASE).toNat / 4096 *
      4096 + slotOf (s.adm1 p).replyProducer (s.admCtrl p 11 8) * 32) r false false)).setAdm p
      { s.adm1 p with cmds := SMap.del (s.adm1 p).cmds k, replyProducer := advance (s.adm1 p).replyProducer 1 }).admIrq p)) ∧
    (∃ (s : State) (p : Nat) (k : Nat) (c : Cmd) (b : State), Begins s p k 0x0001 anySel anyAuth c b) ∧
    (∃ (s : State) (p : Nat) (k : Nat) (c : Cmd) (b : State), Begins s p k 0x0002 anySel anyAuth c b ∧ c.arg 0 ≤ 0x10 ∧ 0x10 ≤ c.arg 1) ∧
    (∃ (s : State) (p : Nat) (k : Nat) (c : Cmd) (b : State), Begins s p k 0x0002 anySel anyAuth c b ∧ c.arg 0 ≤ c.arg 1 ∧ (c.arg 1 < 0x10 ∨
      0x10 < c.arg 0)) ∧
    (∃ (s : State) (p : Nat) (k : Nat) (c : Cmd) (b : State), Begins s p k 0x0002 anySel anyAuth c b ∧ c.arg 1 < c.arg 0) ∧
    (∃ (s : State) (p : Nat) (k : Nat) (c : Cmd) (b : State) (v : Bytes), Begins s p k 0x0003 anySel anyAuth c b ∧ b.featureValue p (c.arg
      0) = some v) ∧
    (∃ (s : State) (p : Nat) (k : Nat) (c : Cmd) (b : State) (old : Bytes) (t : State), Begins s p k 0x0004 anySel (fun _ ps => p == 0 ||
      par ps 0 == 0 || decide (5 < par ps 0)) c b ∧ b.featureValue p (c.arg 0) = some old ∧ b.withFeature p (c.arg 0) (leBytes 16 (c.arg 1))
      = some t ∧ ((c.arg 0 = 1 ∨ c.arg 0 = 2) → b.anyService = false)) ∧
    (∃ (s : State) (p : Nat) (k : Nat) (c : Cmd) (b : State), Begins s p k 0x0005 (fun ps => par ps 0 != 0) anyAuth c b ∧ c.arg 0 = 1 ∧
      c.arg 2 = 0x45585054) ∧
    (∃ (s : State) (p : Nat) (k : Nat) (c : Cmd) (b : State), Begins s p k 0x0005 (fun ps => par ps 0 == 0) anyAuth c b ∧ c.arg 2 =
      0x45585054) ∧
    (∃ (s : State) (p : Nat) (k : Nat) (c : Cmd), s.pwr.off = false ∧ SMap.find (s.adm1 p).cmds k = some c ∧ s.cpRuns = true ∧ (s.fn (p *
      128)).held = false ∧ c.started = false ∧ s.boot.activating = false ∧ s.mayStart p k c = true ∧ leAt c.pkt 0 1 = 0x10 ∧ 0x10 ≤ (s.adm1
      p).negotiated ∧ admSpec (opcodeOf c.pkt) = none) :=
  ⟨⟨given up (cmdOf 0x0001 []), _, 0, 0, 0, 0, [1, 2], _, cmdOf 0x0001 [], by decide +kernel, by decide +kernel, by decide +kernel, rfl,
     rfl, rfl, by decide +kernel, rfl, rfl⟩,
   ⟨given up (cmdOf 0x0001 []), 0, 0, cmdOf 0x0001 [], _, ready (by decide +kernel)⟩,
   ⟨given up (cmdOf 0x0002 [0x10, 0x10]), 0, 0, cmdOf 0x0002 [0x10, 0x10], _, ready (by decide +kernel), by decide +kernel,
     by decide +kernel⟩,
   ⟨given up (cmdOf 0x0002 [0x11, 0x20]), 0, 0, cmdOf 0x0002 [0x11, 0x20], _, ready (by decide +kernel), by decide +kernel,
     by decide +kernel⟩,
   ⟨given up (cmdOf 0x0002 [2, 1]), 0, 0, cmdOf 0x0002 [2, 1], _, ready (by decide +kernel), by decide +kernel⟩,
   ⟨given up (cmdOf 0x0003 [1]), 0, 0, cmdOf 0x0003 [1], _, zeros 16, ready (by decide +kernel), by decide +kernel⟩,
   ⟨given up (cmdOf 0x0004 [1, 3]), 0, 0, cmdOf 0x0004 [1, 3], _, zeros 16, _, ready (by decide +kernel), by decide +kernel, someGetD
     (by decide +kernel), by decide +kernel⟩,
   ⟨given up (cmdOf 0x0005 [1, 2, 0x45585054]), 0, 0, cmdOf 0x0005 [1, 2, 0x45585054], _, ready (by decide +kernel), by decide +kernel,
     by decide +kernel⟩,
   ⟨given up (cmdOf 0x0005 [0, 2, 0x45585054]), 0, 0, cmdOf 0x0005 [0, 2, 0x45585054], _, ready (by decide +kernel), by decide +kernel⟩,
   ⟨given up (cmdOf 0x00FF []), 0, 0, cmdOf 0x00FF [], by and_intros <;> decide +kernel⟩⟩

/-- The hypotheses of `Obligations.QueuesAreCreatedAndDestroyed` are met, clause by clause. -/
theorem meets_QueuesAreCreatedAndDestroyed :
    (∃ (s : State) (p : Nat) (k : Nat) (c : Cmd) (b : State) (i : Inst) (q : Cq) (w : Nat), Begins s p k 0x0010 anySel (createAuth p fun s n
      => (s.cq n).map (·.inst)) c b ∧ b.inst (c.arg 0) = some i ∧ b.cq (c.arg 3) = some q ∧ q.inst = c.arg 0 ∧ 6 ≤ c.arg 2 ∧ c.arg 2 ≤ 16 ∧
      q.state ≠ .error ∧ b.ringMapped (c.arg 0) (c.arg 1) (64 * 2 ^ c.arg 2) .read = true ∧ b.pickWq (c.arg 0) = some w) ∧
    (∃ (s : State) (p : Nat) (k : Nat) (c : Cmd) (b : State) (i : Inst) (l : Lq) (m : Nat), Begins s p k 0x0012 anySel (createAuth p fun s n
      => (s.lq n).map (·.inst)) c b ∧ b.inst (c.arg 0) = some i ∧ b.lq (c.arg 3) = some l ∧ l.inst = c.arg 0 ∧ 6 ≤ c.arg 2 ∧ c.arg 2 ≤ 20 ∧
      l.error = false ∧ b.ringMapped (c.arg 0) (c.arg 1) (32 * 2 ^ c.arg 2) .write = true ∧ b.hasRoom (c.arg 0) 65536 (·.cqPool) (fun i =>
      countIn b.q.cqs fun q => q.inst == i) (fun _ => true) = true ∧ b.pickNumber b.q.cqs 65536 = some m) ∧
    (∃ (s : State) (p : Nat) (k : Nat) (c : Cmd) (b : State) (i : Inst) (m : Nat), Begins s p k 0x0014 anySel (instAuth p 0) c b ∧ b.inst
      (c.arg 0) = some i ∧ c.arg 3 < vectorsOf (c.arg 0) ∧ 6 ≤ c.arg 2 ∧ c.arg 2 ≤ 16 ∧ b.ringMapped (c.arg 0) (c.arg 1) (32 * 2 ^ c.arg 2)
      .write = true ∧ b.hasRoom (c.arg 0) 512 (·.lqPool) (fun i => countIn b.q.lqs fun q => q.inst == i) (fun _ => true) = true ∧
      b.pickNumber b.q.lqs 512 = some m) ∧
    (∃ (s : State) (p : Nat) (k : Nat) (c : Cmd) (b : State) (w : Wq), Begins s p k 0x0011 anySel (destroyAuth p fun s n => (s.wq n).map
      (·.inst)) c b ∧ b.wq (c.arg 1) = some w ∧ w.inst = c.arg 0 ∧ w.state = .idle) ∧
    (∃ (s : State) (p : Nat) (k : Nat) (c : Cmd) (b : State) (q : Cq), Begins s p k 0x0013 anySel (destroyAuth p fun s n => (s.cq n).map
      (·.inst)) c b ∧ b.cq (c.arg 1) = some q ∧ q.inst = c.arg 0 ∧ (b.q.wqs.any fun e => e.2.cq == c.arg 1) = false) ∧
    (∃ (s : State) (p : Nat) (k : Nat) (c : Cmd) (b : State) (l : Lq), Begins s p k 0x0015 anySel (destroyAuth p fun s n => (s.lq n).map
      (·.inst)) c b ∧ b.lq (c.arg 1) = some l ∧ l.inst = c.arg 0 ∧ (b.q.cqs.any fun e => e.2.lantern == c.arg 1) = false) ∧
    (∃ (s : State), SMap.wf s.q.wqs = true ∧ SMap.wf s.q.cqs = true ∧ SMap.wf s.q.lqs = true) ∧
    (∃ (s : State), SMap.wf s.q.wqs = true ∧ SMap.wf s.q.cqs = true ∧ SMap.wf s.q.lqs = true) ∧
    (∃ (s : State), SMap.wf s.q.wqs = true ∧ SMap.wf s.q.cqs = true ∧ SMap.wf s.q.lqs = true) :=
  ⟨⟨given queues (cmdOf 0x0010 [1, 4096, 6, 2]), 0, 0, cmdOf 0x0010 [1, 4096, 6, 2], _, _, _, 2560, ready (by decide +kernel), someGetD
     (by decide +kernel), someGetD (by decide +kernel), by decide +kernel, (by decide +kernel), by decide +kernel, (by decide +kernel),
     by decide +kernel, pickWq_one (g := 5) (by decide +kernel) (by decide +kernel)⟩,
   ⟨given lantern (cmdOf 0x0012 [0, 8192, 20, 3]), 0, 0, cmdOf 0x0012 [0, 8192, 20, 3], _, _, _, _, ready (by decide +kernel), someGetD
     (by decide +kernel), someGetD (by decide +kernel), by decide +kernel, (by decide +kernel), by decide +kernel, (by decide +kernel),
     by decide +kernel, (by decide +kernel), pickNumber_empty _ rfl (by decide)⟩,
   ⟨given up (cmdOf 0x0014 [1, 4096, 16, 63, 1]), 0, 0, cmdOf 0x0014 [1, 4096, 16, 63, 1], _, _, _, ready (by decide +kernel), someGetD
     (by decide +kernel), by decide +kernel, (by decide +kernel), by decide +kernel, (by decide +kernel), by decide +kernel, pickNumber_empty _
     rfl (by decide)⟩,
   ⟨given queues (cmdOf 0x0011 [0, 7]), 0, 0, cmdOf 0x0011 [0, 7], _, _, ready (by decide +kernel), someGetD (by decide +kernel),
     by decide +kernel, by decide +kernel⟩,
   ⟨given queues (cmdOf 0x0013 [1, 2]), 0, 0, cmdOf 0x0013 [1, 2], _, _, ready (by decide +kernel), someGetD (by decide +kernel),
     by decide +kernel, by decide +kernel⟩,
   ⟨given queues (cmdOf 0x0015 [0, 4]), 0, 0, cmdOf 0x0015 [0, 4], _, _, ready (by decide +kernel), someGetD (by decide +kernel),
     by decide +kernel, by decide +kernel⟩,
   ⟨queues, by and_intros <;> decide +kernel⟩,
   ⟨queues, by and_intros <;> decide +kernel⟩,
   ⟨queues, by and_intros <;> decide +kernel⟩⟩

/-- The hypotheses of `Obligations.WorkQueuesStopAndResume` are met, clause by clause. -/
theorem meets_WorkQueuesStopAndResume :
    (∃ (s : State) (p : Nat) (k : Nat) (c : Cmd) (b : State) (w : Wq) (v : Wq), Begins s p k 0x0016 (fun ps => par ps 2 != 1) (wqAuth p) c b
      ∧ c.stage = 0 ∧ c.arg 2 = 0 ∧ b.wq (c.arg 1) = some w ∧ w.inst = c.arg 0 ∧ (b.quiesceWq (c.arg 1)).wq (c.arg 1) = some v ∧ v.state ≠
      .idle) ∧
    (∃ (s : State) (p : Nat) (k : Nat) (c : Cmd) (b : State) (w : Wq) (v : Wq), Begins s p k 0x0016 (fun ps => par ps 2 != 1) (wqAuth p) c b
      ∧ c.stage = 0 ∧ c.arg 2 = 0 ∧ b.wq (c.arg 1) = some w ∧ w.inst = c.arg 0 ∧ (b.quiesceWq (c.arg 1)).wq (c.arg 1) = some v ∧ v.state =
      .idle) ∧
    (∃ (s : State) (p : Nat) (k : Nat) (c : Cmd) (b : State) (w : Wq), Begins s p k 0x0016 (fun ps => par ps 2 == 1) (wqAuth p) c b ∧ b.wq
      (c.arg 1) = some w ∧ w.inst = c.arg 0 ∧ w.state = .idle) ∧
    (∃ (s : State) (p : Nat) (k : Nat) (c : Cmd) (b : State) (w : Wq) (v : Wq), Begins s p k 0x0017 anySel (wqAuth p) c b ∧ c.stage = 0 ∧
      b.wq (c.arg 1) = some w ∧ w.inst = c.arg 0 ∧ w.state ≠ .snuffing ∧ (b.snuff (c.arg 1) stAborted dSnuff).wq (c.arg 1) = some v ∧
      v.state = .snuffing) ∧
    (∃ (s : State) (p : Nat) (k : Nat) (c : Cmd), s.pwr.off = false ∧ SMap.find (s.adm1 p).cmds k = some c ∧ s.cpRuns = true ∧ opcodeOf
      c.pkt = 0x0016 ∧ c.stage = 1 ∧ c.arg 3 ≠ 0) ∧
    (∃ (s : State) (n : Nat) (size : Nat), s.expertOpen 0 (wqStateAt n size)) ∧
    (∃ (s : State) (n : Nat) (size : Nat) (w : Wq), s.expertOpen 0 (wqStateAt n size) ∧ s.wq n = some w ∧ w.state = .idle) ∧
    (∃ (s : State) (n : Nat) (size : Nat) (w : Wq), s.expertOpen 0 (wqStateAt n size) ∧ s.wq n = some w ∧ w.state = .enabled) ∧
    (∃ (s : State) (n : Nat) (size : Nat) (w : Wq), s.expertOpen 0 (wqStateAt n size) ∧ s.wq n = some w ∧ w.state ≠ .idle ∧ w.state ≠
      .enabled) :=
  ⟨⟨given queues (cmdOf 0x0016 [0, 8, 0, 5]), 0, 0, cmdOf 0x0016 [0, 8, 0, 5], _, _, _, ready (by decide +kernel), by decide +kernel,
     by decide +kernel, someGetD (by decide +kernel), by decide +kernel, someGetD (by decide +kernel), by decide +kernel⟩,
   ⟨given queues (cmdOf 0x0016 [0, 7, 0, 5]), 0, 0, cmdOf 0x0016 [0, 7, 0, 5], _, _, _, ready (by decide +kernel), by decide +kernel,
     by decide +kernel, someGetD (by decide +kernel), by decide +kernel, someGetD (by decide +kernel), by decide +kernel⟩,
   ⟨given queues (cmdOf 0x0016 [0, 7, 1, 0]), 0, 0, cmdOf 0x0016 [0, 7, 1, 0], _, _, ready (by decide +kernel), someGetD
     (by decide +kernel), by decide +kernel, by decide +kernel⟩,
   ⟨given queues (cmdOf 0x0017 [0, 10]), 0, 0, cmdOf 0x0017 [0, 10], _, _, _, ready (by decide +kernel), by decide +kernel, someGetD
     (by decide +kernel), by decide +kernel, by decide +kernel, someGetD (by decide +kernel), by decide +kernel⟩,
   ⟨given up { cmdOf 0x0016 [0, 7, 0, 5] with started := true, stage := 1 }, 0, 0,
     { cmdOf 0x0016 [0, 7, 0, 5] with started := true, stage := 1 }, by and_intros <;> decide +kernel⟩,
   ⟨unlocked queues, 7, 4, ⟨by decide +kernel, by decide +kernel, rfl, by decide +kernel⟩⟩,
   ⟨unlocked queues, 7, 8, _, ⟨by decide +kernel, by decide +kernel, rfl, by decide +kernel⟩, someGetD (by decide +kernel),
     by decide +kernel⟩,
   ⟨unlocked queues, 8, 4, _, ⟨by decide +kernel, by decide +kernel, rfl, by decide +kernel⟩, someGetD (by decide +kernel),
     by decide +kernel⟩,
   ⟨unlocked queues, 9, 8, _, ⟨by decide +kernel, by decide +kernel, rfl, by decide +kernel⟩, someGetD (by decide +kernel),
     by decide +kernel, by decide +kernel⟩⟩

/-- The hypotheses of `Obligations.DoorbellsAndQueueIndicesMove` are met, clause by clause. -/
theorem meets_DoorbellsAndQueueIndicesMove :
    (∃ (s : State) (fn : Nat) (n : Nat) (value : Nat) (w : Wq), s.serves ∧ s.wq n = some w ∧ w.gen = bits value 31 24 ∧ w.inst = fn ∧
      w.state ≠ .error ∧ w.state ≠ .snuffing ∧ bits value 23 0 ≠ w.doorbell ∧ distance w.head (bits value 23 0) ≤ 2 ^ w.log2 ∧ distance
      w.head w.doorbell ≤ distance w.head (bits value 23 0) ∧ bit value 32 = false ∧ bit value 33 = false ∧ bit value 34 = false) ∧
    (∃ (s : State) (fn : Nat) (n : Nat) (value : Nat) (w : Wq), s.serves ∧ s.wq n = some w ∧ (w.gen ≠ bits value 31 24 ∨ w.inst ≠ fn)) ∧
    (∃ (s : State), s.serves) ∧
    (∃ (s : State) (lanes : Nat), s.serves ∧ lanes < 16) ∧
    (∃ (s : State) (lanes : Nat), s.serves ∧ 16 ≤ lanes ∧ lanes % 16 ≠ 0) ∧
    (∃ (s : State) (fn : Nat) (n : Nat) (value : Nat) (v : Nat) (w : Wq) (q : Cq), s.serves ∧ v = setBits value 32 32 1 ∧ bit v 33 = false ∧
      bit v 34 = false ∧ s.wq n = some w ∧ w.gen = bits v 31 24 ∧ w.inst = fn ∧ w.state ≠ .error ∧ w.state ≠ .snuffing ∧ bits v 23 0 =
      w.doorbell ∧ s.cq w.cq = some q ∧ distance q.consumer (bits v 63 40) ≤ distance q.consumer q.producer) ∧
    (∃ (s : State) (fn : Nat) (n : Nat) (value : Nat) (v : Nat) (w : Wq) (q : Cq), s.serves ∧ v = setBits value 33 33 1 ∧ bit v 32 = false ∧
      s.wq n = some w ∧ w.gen = bits v 31 24 ∧ w.inst = fn ∧ w.state ≠ .error ∧ w.state ≠ .snuffing ∧ bits v 23 0 = w.doorbell ∧ SMap.wf
      s.q.cqs = true ∧ s.cq w.cq = some q ∧ q.consumer = q.producer ∧ q.solicitedAt = []) ∧
    (∃ (s : State) (fn : Nat) (n : Nat) (value : Nat) (v : Nat) (w : Wq) (q : Cq), s.serves ∧ v = setBits (setBits value 33 33 0) 34 34 1 ∧
      bit v 32 = false ∧ s.wq n = some w ∧ w.gen = bits v 31 24 ∧ w.inst = fn ∧ w.state ≠ .error ∧ w.state ≠ .snuffing ∧ bits v 23 0 =
      w.doorbell ∧ SMap.wf s.q.cqs = true ∧ s.cq w.cq = some q ∧ q.solicitedAt = []) ∧
    (∃ (s : State) (c : Nat) (q : Cq), s.pwr.off = false ∧ s.cq c = some q ∧ q.state = .fullWait) ∧
    (∃ (s : State) (fn : Nat) (n : Nat) (index : Nat) (l : Lq), s.serves ∧ s.lq n = some l ∧ l.inst = fn ∧ distance l.consumer (index %
      ringMod) ≤ distance l.consumer l.producer) ∧
    (∃ (s : State) (fn : Nat) (n : Nat) (l : Lq), s.serves ∧ s.lq n = some l ∧ l.inst = fn ∧ l.consumer = l.producer) ∧
    (∃ (s : State) (fn : Nat) (n : Nat) (l : Lq), s.serves ∧ s.lq n = some l ∧ l.inst = fn ∧ l.consumer ≠ l.producer) ∧
    (∃ (s : State) (fn : Nat) (n : Nat) (l : Lq), s.serves ∧ s.lq n = some l ∧ l.inst = fn) :=
  ⟨⟨queues, 0, 8, 64, _, ⟨by decide +kernel, by decide +kernel⟩, someGetD (by decide +kernel), by and_intros <;> decide +kernel⟩,
   ⟨queues, 0, 8, 0x01000000, _, ⟨by decide +kernel, by decide +kernel⟩, someGetD (by decide +kernel), by decide +kernel⟩,
   ⟨queues, ⟨by decide +kernel, by decide +kernel⟩⟩,
   ⟨up, 15, ⟨by decide +kernel, by decide +kernel⟩, by decide +kernel⟩,
   ⟨up, 17, ⟨by decide +kernel, by decide +kernel⟩, by decide +kernel, by decide +kernel⟩,
   ⟨queues, 0, 8, 1, _, _, _, ⟨by decide +kernel, by decide +kernel⟩, rfl, by decide +kernel, by decide +kernel, someGetD
     (by decide +kernel), by decide +kernel, (by decide +kernel), by decide +kernel, (by decide +kernel), by decide +kernel, someGetD
     (by decide +kernel), by decide +kernel⟩,
   ⟨queues, 0, 8, 1, _, _, _, ⟨by decide +kernel, by decide +kernel⟩, rfl, by decide +kernel, someGetD (by decide +kernel),
     by decide +kernel, (by decide +kernel), by decide +kernel, (by decide +kernel), by decide +kernel, (by decide +kernel), someGetD
     (by decide +kernel), by decide +kernel, by decide +kernel⟩,
   ⟨queues, 0, 8, 1, _, _, _, ⟨by decide +kernel, by decide +kernel⟩, rfl, by decide +kernel, someGetD (by decide +kernel),
     by decide +kernel, (by decide +kernel), by decide +kernel, (by decide +kernel), by decide +kernel, (by decide +kernel), someGetD
     (by decide +kernel), by decide +kernel⟩,
   ⟨queues, 11, _, by decide +kernel, someGetD (by decide +kernel), by decide +kernel⟩,
   ⟨lanterns, 0, 3, 0, _, ⟨by decide +kernel, by decide +kernel⟩, someGetD (by decide +kernel), by decide +kernel, by decide +kernel⟩,
   ⟨lanterns, 0, 3, _, ⟨by decide +kernel, by decide +kernel⟩, someGetD (by decide +kernel), by decide +kernel, by decide +kernel⟩,
   ⟨lanterns.setLq 3 { (default : Lq) with log2 := 6, producer := 1 }, 0, 3, _, ⟨by decide +kernel, by decide +kernel⟩, someGetD
     (by decide +kernel), by decide +kernel, by decide +kernel⟩,
   ⟨lanterns, 0, 3, _, ⟨by decide +kernel, by decide +kernel⟩, someGetD (by decide +kernel), by decide +kernel⟩⟩

/-- The hypotheses of `Obligations.DescriptorsAreFetchedAndJudged` are met, clause by clause. -/
theorem meets_DescriptorsAreFetchedAndJudged :
    (∃ (s : State) (u : State) (n : Nat) (k : Nat) (t : Nat) (w : Wq) (i : Inst), s.pwr.off = false ∧ s.fetchTurn n = true ∧ s.wq n = some w
      ∧ w.state = .enabled ∧ s.inst w.inst = some i ∧ i.hold = false ∧ i.state = .active ∧ (s.fn w.inst).held = false ∧ s.snapStopped w =
      false ∧ k = min (min (distance w.fetch w.doorbell) (2 ^ w.log2 - slotOf w.fetch w.log2)) (min (64 - slotOf w.fetch w.log2 % 64) (min
      16 (32 - w.prefetched))) ∧ k ≠ 0 ∧ ({ s with q := { s.q with turn := n } }).lookup (.ringFetch n w.fetch) w.inst (w.ring + slotOf
      w.fetch w.log2 * 64) .read = (.ok .hbm t, u) ∧ (u.hbmRead t (k * 64)).2.1 = false) ∧
    (∃ (s : State) (n : Nat) (len : Nat) (w : Wq) (u0 : Bytes) (d : Bytes), s.pwr.off = false ∧ s.wq n = some w ∧ SMap.find w.units w.judged
      = some u0 ∧ w.wholeNext = true ∧ len = dLen u0 ∧ len ≠ 0 ∧ len ≤ 16 ∧ slotOf w.judged w.log2 + len ≤ 2 ^ w.log2 ∧ d = (List.range
      len).flatMap (fun i => SMap.getD w.units (advance w.judged i) []) ∧ (({ s with q := { s.q with nextOp := s.q.nextOp + 1 } }).setWq n
      { w with ops := w.ops ++ [mkOp s.q.nextOp w.judged len d .ready none (w.bellsAt w.judged)], units := (List.range len).foldl (fun m i => SMap.del m (advance w.judged i)) w.units, judged := advance w.judged len }).judgeDesc
      w.gen d = none) :=
  ⟨⟨fetches, _, 12, _, 0, _, _, by decide +kernel, by decide +kernel, someGetD (by decide +kernel), by decide +kernel, someGetD
     (by decide +kernel), by decide +kernel, (by decide +kernel), by decide +kernel, (by decide +kernel), rfl, by decide +kernel, pairSnd
     (by decide +kernel), by decide +kernel⟩,
   ⟨fetches, 13, _, _, _, _, by decide +kernel, someGetD (by decide +kernel), someGetD (by decide +kernel), by decide +kernel, rfl,
     by decide +kernel, by decide +kernel, by decide +kernel, rfl, by decide +kernel⟩⟩

/-- The hypotheses of `Obligations.QueuePairsAreManaged` are met, clause by clause. -/
theorem meets_QueuePairsAreManaged :
    (∃ (s : State) (e : State) (p : Nat) (k : Nat) (c : Cmd) (b : State) (i : Inst) (q : Cq) (qpn : Nat), Begins s p k 0x0020 anySel
      (bindAuth p) c b ∧ b.inst (c.arg 0) = some i ∧ b.member (c.arg 5) b.me = true ∧ (c.arg 1 = 0xFFFF ∨ ∃ w, b.wq (c.arg 1) = some w ∧
      w.inst = c.arg 0 ∧ w.qp = none) ∧ b.cq (c.arg 2) = some q ∧ q.inst = c.arg 0 ∧ q.state ≠ .error ∧ (c.arg 3 = 1 → b.hasCap capCipher =
      true ∧ b.keyOf (c.arg 6) (c.arg 0) = true) ∧ b.hasRoom (c.arg 0) (b.qpSlots (portOf (c.arg 0)) - 1) (·.qpQuota) (fun i => countIn
      b.qpe.qps fun q => q.inst == i) (fun i => portOf i == portOf (c.arg 0)) = true ∧ SMap.freeFrom b.qpe.qps (b.qpSlots (portOf (c.arg 0))
      - 1) (portOf (c.arg 0) * 2 ^ 22 + 1) = some qpn ∧ b.evictCtx = some e) ∧
    (∃ (s : State) (p : Nat) (k : Nat) (c : Cmd) (b : State) (q : Qp), Begins s p k 0x0021 anySel (qpAuth p) c b ∧ b.qp (c.arg 0) = some q ∧
      q.cached = true ∧ q.state = 0 ∧ c.arg 1 = 1 ∧ c.arg 3 ≠ 0) ∧
    (∃ (s : State) (p : Nat) (k : Nat) (c : Cmd) (b : State) (q : Qp), Begins s p k 0x0021 anySel (qpAuth p) c b ∧ b.qp (c.arg 0) = some q ∧
      q.cached = true ∧ q.state = 1 ∧ c.arg 1 = 0 ∧ b.qpTxns (c.arg 0) = []) ∧
    (∃ (s : State) (p : Nat) (k : Nat) (c : Cmd) (b : State) (q : Qp), Begins s p k 0x0022 anySel (qpAuth p) c b ∧ b.qp (c.arg 0) = some q) ∧
    (∃ (s : State) (p : Nat) (k : Nat) (c : Cmd) (b : State) (q : Qp), Begins s p k 0x0023 anySel (qpAuth p) c b ∧ b.qp (c.arg 0) = some q ∧
      q.state ≠ 1 ∧ b.qpTxns (c.arg 0) = [] ∧ q.wq = none) ∧
    (∃ (s : State) (p : Nat), s.serves ∧ isPf (128 * p) = true ∧ portOf (128 * p) = p ∧ (s.qpe.qps.any fun e => e.1 / 2 ^ 22 == p) = false) ∧
    (∃ (s : State) (p : Nat) (value : Nat), s.serves ∧ isPf (128 * p) = true ∧ portOf (128 * p) = p ∧ (s.qpe.qps.any fun e => e.1 / 2 ^ 22
      == p) = false ∧ 10 ≤ value % 32 ∧ value % 32 ≤ 22) :=
  ⟨⟨given pairs (cmdOf 0x0020 [0, 0xFFFF, 6, 0, 7, 20, 0]), _, 0, 0, cmdOf 0x0020 [0, 0xFFFF, 6, 0, 7, 20, 0], _, _, _, 1, ready
     (by decide +kernel), someGetD (by decide +kernel), by decide +kernel, by decide +kernel, someGetD (by decide +kernel),
     by decide +kernel, (by decide +kernel), by decide +kernel, (by decide +kernel), by decide +kernel, someGetD (by decide +kernel)⟩,
   ⟨given pairs (cmdOf 0x0021 [5, 1, 3, 9, 0xFFFFFF, 0]), 0, 0, cmdOf 0x0021 [5, 1, 3, 9, 0xFFFFFF, 0], _, _, ready (by decide +kernel),
     someGetD (by decide +kernel), by and_intros <;> decide +kernel⟩,
   ⟨given pairs (cmdOf 0x0021 [6, 0, 0, 0, 0, 0]), 0, 0, cmdOf 0x0021 [6, 0, 0, 0, 0, 0], _, _, ready (by decide +kernel), someGetD
     (by decide +kernel), by and_intros <;> decide +kernel⟩,
   ⟨given pairs (cmdOf 0x0022 [6]), 0, 0, cmdOf 0x0022 [6], _, _, ready (by decide +kernel), someGetD (by decide +kernel)⟩,
   ⟨given pairs (cmdOf 0x0023 [5]), 0, 0, cmdOf 0x0023 [5], _, _, ready (by decide +kernel), someGetD (by decide +kernel),
     by and_intros <;> decide +kernel⟩,
   ⟨up, 3, ⟨by decide +kernel, by decide +kernel⟩, by and_intros <;> decide +kernel⟩,
   ⟨up, 3, 10, ⟨by decide +kernel, by decide +kernel⟩, by and_intros <;> decide +kernel⟩⟩

/-- The hypotheses of `Obligations.SkylightsAreOpenedAndRevoked` are met, clause by clause. -/
theorem meets_SkylightsAreOpenedAndRevoked :
    (∃ (s : State) (p : Nat) (k : Nat) (c : Cmd) (b : State) (i : Inst) (n : Nat), Begins s p k 0x0030 anySel (instAuth p 0) c b ∧
      b.inst (c.arg 0) = some i ∧ c.arg 3 ≠ 0 ∧ b.skyBadRange (c.arg 1 == 1) (c.arg 4) (c.arg 5) = false ∧ c.arg 2 ≠ 0 ∧ b.sec.entropy ≠
      2 ∧ b.hasRoom (c.arg 0) (2 ^ 20) (·.skyQuota) b.skiesOf (fun _ => true) = true ∧ b.sec.due.contains 2 = false ∧ b.skyIndex = some
      n) ∧
    (∃ (s : State) (p : Nat) (k : Nat) (c : Cmd) (b : State) (x : Sky), Begins s p k 0x0031 anySel (skyAuth p) c b ∧ c.stage = 0 ∧
      b.skyOf (c.arg 0) = some x ∧ x.state ≠ .revoking) ∧
    (∃ (s : State) (p : Nat) (k : Nat) (c : Cmd) (b : State) (x : Sky), Begins s p k 0x0031 anySel (skyAuth p) c b ∧ c.stage = 0 ∧
      b.skyOf (c.arg 0) = some x ∧ x.state = .revoking) ∧
    (∃ (s : State) (p : Nat) (k : Nat) (c : Cmd) (b : State) (x : Sky), Begins s p k 0x0032 anySel (skyAuth p) c b ∧ b.skyOf (c.arg 0)
      = some x) :=
  ⟨⟨given up (cmdOf 0x0030 [0, 0, 1, 20, 4096, 4096]), 0, 0, cmdOf 0x0030 [0, 0, 1, 20, 4096, 4096], _, _, 0, ready (by decide +kernel),
  someGetD (by decide +kernel), by and_intros <;> decide +kernel⟩,
   ⟨given skies (cmdOf 0x0031 [2097157]), 0, 0, cmdOf 0x0031 [2097157], _, _, ready (by decide +kernel), by decide +kernel, someGetD
     (by decide +kernel), by decide +kernel⟩,
   ⟨given skies (cmdOf 0x0031 [2097158]), 0, 0, cmdOf 0x0031 [2097158], _, _, ready (by decide +kernel), by decide +kernel, someGetD
     (by decide +kernel), by decide +kernel⟩,
   ⟨given skies (cmdOf 0x0032 [2097157]), 0, 0, cmdOf 0x0032 [2097157], _, _, ready (by decide +kernel), someGetD (by decide +kernel)⟩⟩

/-- The hypotheses of `Obligations.HallPagesAreAllocatedAndMapped` are met, clause by clause. -/
theorem meets_HallPagesAreAllocatedAndMapped :
    (∃ (s : State) (p : Nat) (k : Nat) (c : Cmd) (b : State) (t : State), Begins s p k 0x0070 anySel anyAuth c b ∧ c.arg 0 ≠ 0 ∧ c.arg 3 ≠ 0
      ∧ c.arg 2 + c.arg 3 ≤ 2 ^ 23 ∧ (b.hall.pages.any fun e => decide (c.arg 2 ≤ e.1) && decide (e.1 < c.arg 2 + c.arg 3)) = false ∧
      b.hall.pages.length + c.arg 3 ≤ 262144 ∧ c.arg 3 ≤ b.freeFrames ∧ (List.range (c.arg 3)).foldl (fun (o : Option State) i => o.bind fun
      s => s.allocPage (c.arg 2 + i) (c.arg 0) (c.arg 1 == 1)) (some b) = some t) ∧
    (∃ (s : State) (p : Nat) (k : Nat) (c : Cmd) (b : State), Begins s p k 0x0071 anySel anyAuth c b ∧ c.stage = 0 ∧ c.arg 1 ≠ 0 ∧ c.arg 0 +
      c.arg 1 ≤ 2 ^ 23 ∧ b.allAllocated (c.arg 0) (c.arg 1) = true) ∧
    (∃ (s : State) (t : State) (i : Nat) (f : Nat), s.takeFrame (.home i) = some (f, t)) ∧
    (∃ (s : State) (p : Nat) (k : Nat) (c : Cmd) (c0 : Cmd) (b : State) (u : State) (t : State) (v : State) (i : Inst) (targets : List Nat)
      (fresh : List (Nat × Leaf)) (maps : SMap Leaf) (tables : SMap Nat), Begins s p k 0x0040 anySel (instAuth p 0) c b ∧ c.stage = 0 ∧
      (b.inst (c.arg 0)).isSome = true ∧ c.arg 3 ≠ 0 ∧ c.arg 3 ≤ 65536 ∧ (c.arg 5 ≠ 0 ∨ c.arg 6 ≠ 0) ∧ c.arg 4 ≠ 3 ∧ c.arg 1 + c.arg 3 *
      pageBytes (c.arg 2) ≤ 2 ^ 48 ∧ ((c.arg 8 = 0 ∧ c0 = c.begun ∧ u = b ∧ targets = (List.range (c.arg 3)).map fun j => c.arg 9 + j *
      pageBytes (c.arg 2)) ∨ (c.arg 8 ≠ 0 ∧ ∃ l, b.admRead p k c.begun (c.arg 9) (8 * c.arg 3) = (some (some l), c0, u) ∧ targets =
      (List.range (c.arg 3)).map fun j => leAt l (8 * j) 8)) ∧ u.inst (c.arg 0) = some i ∧ c.arg 1 % pageBytes (c.arg 2) = 0 ∧ (targets.any
      fun a => a % pageBytes (c.arg 2) != 0) = false ∧ (targets.any fun a => !u.targetOk (c.arg 0) i (kindOf (c.arg 4)) a (pageBytes (c.arg
      2))) = false ∧ overlapping i.maps (c.arg 1) (c.arg 1 + c.arg 3 * pageBytes (c.arg 2)) = [] ∧ isPf (c.arg 0) = false ∧ fresh =
      targets.mapIdx (fun j a => (c.arg 1 + j * pageBytes (c.arg 2), (⟨c.arg 2, kindOf (c.arg 4), a, c.arg 5 == 1, c.arg 6 == 1⟩ : Leaf))) ∧
      maps = fresh.foldl (fun m e => SMap.put m e.1 e.2) (apart i.maps (c.arg 1) (c.arg 1 + c.arg 3 * pageBytes (c.arg 2))) ∧ (u.takeNamed
      (c.arg 0) []).placeTables (c.arg 0) i maps (((tablesFor maps).map (·.1)).filter fun key => !SMap.has (SMap.keep i.tables fun key _ =>
      SMap.has (tablesFor maps) key) key) (SMap.keep i.tables fun key _ => SMap.has (tablesFor maps) key) = some (tables, t) ∧ v =
      (t.setMaps (c.arg 0) i maps tables).forgetEnds (c.arg 0) (c.arg 1) (c.arg 1 + c.arg 3 * pageBytes (c.arg 2))) ∧
    (∃ (s : State) (p : Nat) (k : Nat) (c : Cmd) (b : State) (i : Inst) (hi : Nat), Begins s p k 0x0041 anySel (instAuth p 0) c b ∧ c.stage
      = 0 ∧ b.inst (c.arg 0) = some i ∧ c.arg 3 ≠ 0 ∧ c.arg 3 ≤ 65536 ∧ hi = c.arg 1 + c.arg 3 * pageBytes (c.arg 2) ∧ hi ≤ 2 ^ 48) :=
  ⟨⟨given up (cmdOf 0x0070 [20, 0, 8388607, 1]), 0, 0, cmdOf 0x0070 [20, 0, 8388607, 1], _, _, ready (by decide +kernel), by decide +kernel,
     (by decide +kernel), by decide +kernel, (by decide +kernel), by decide +kernel, (by decide +kernel), someGetD (by decide +kernel)⟩,
   ⟨given pages (cmdOf 0x0071 [5, 1]), 0, 0, cmdOf 0x0071 [5, 1], _, ready (by decide +kernel), by and_intros <;> decide +kernel⟩,
   ⟨up, _, 5, _, somePair (by decide +kernel)⟩,
   ⟨given up (cmdOf 0x0040 [1, 0x80000000, 0, 2, 0, 1, 1, 0, 0, 0x5000]), 0, 0, cmdOf 0x0040 [1, 0x80000000, 0, 2, 0, 1, 1, 0, 0, 0x5000],
     _, _, _, _, _, _, _, _, _, _, ready (by decide +kernel), by decide +kernel, (by decide +kernel), by decide +kernel, (by decide +kernel),
     by decide +kernel, (by decide +kernel), by decide +kernel, Or.inl ⟨by decide +kernel, rfl, rfl, rfl⟩, someGetD (by decide +kernel),
     by decide +kernel, (by decide +kernel), by decide +kernel, (by decide +kernel), by decide +kernel, rfl, rfl, somePair (by decide +kernel),
     rfl⟩,
   ⟨given up (cmdOf 0x0041 [1, 0x3FFFF000, 0, 2]), 0, 0, cmdOf 0x0041 [1, 0x3FFFF000, 0, 2], _, _, _, ready (by decide +kernel),
     by decide +kernel, someGetD (by decide +kernel), by decide +kernel, by decide +kernel, rfl, by decide +kernel⟩⟩

/-- The hypotheses of `Obligations.PlacementIsDirectedAndRuns` are met, clause by clause. -/
theorem meets_PlacementIsDirectedAndRuns :
    (∃ (s : State) (p : Nat) (k : Nat) (c : Cmd) (b : State), Begins s p k 0x0072 (fun ps => par ps 0 == 1 || decide (3 < par ps 0)) anyAuth
      c b ∧ pinField c.params = false ∧ b.allAllocated (c.arg 2) (c.arg 3) = true ∧ ((b.pagesIn (c.arg 2) (c.arg 3)).any fun e => !b.member
      e.2.partition (c.arg 1)) = false ∧ b.pinNoReserve (c.arg 1) (b.pagesIn (c.arg 2) (c.arg 3)) = false) ∧
    (∃ (s : State) (p : Nat) (k : Nat) (c : Cmd) (b : State), Begins s p k 0x0072 (fun ps => par ps 0 == 0) anyAuth c b ∧ pinField c.params
      = false ∧ b.allAllocated (c.arg 2) (c.arg 3) = true) ∧
    (∃ (s : State) (p : Nat) (k : Nat) (c : Cmd) (b : State) (g : Program), Begins s p k 0x0072 (fun ps => par ps 0 == 3) anyAuth c b ∧
      pinField c.params = false ∧ SMap.find b.trn.programs (c.arg 4) = some g ∧ b.member g.partition (c.arg 1) = true) ∧
    (∃ (s : State) (p : Nat) (k : Nat) (c : Cmd) (b : State), Begins s p k 0x0072 (fun ps => par ps 0 == 2) anyAuth c b ∧ pinField c.params
      = false ∧ SMap.has b.trn.programs (c.arg 4) = true) ∧
    (∃ (s : State) (p : Nat) (k : Nat) (c : Cmd) (b : State), Begins s p k 0x0073 anySel anyAuth c b ∧ b.member (c.arg 0) b.me = true ∧
      c.arg 3 ≤ 12 ∧ c.arg 5 ≠ 0 ∧ c.arg 4 ≤ b.reserveOf (c.arg 0) + b.freeFrames) ∧
    (∃ (s : State), s.pwr.off = false) ∧
    (∃ (s : State), s.pwr.off = false) ∧
    (∃ (s : State) (page : Nat) (x : Page), s.pwr.off = false ∧ s.page page = some x ∧ ((s.domain x.partition).map (·.stopped)).getD false =
      false ∧ x.pinWait = true ∧ x.step = 0 ∧ x.freeing = false ∧ x.state ≠ .replicated ∧ x.state ≠ .moving ∧ x.writer ≠ x.pinHolder ∧
      s.member x.partition x.pinHolder = true ∧ s.shooting page = false ∧ s.copiesOf x.writer < s.comF .PLC_MOVE_CFG 15 8) ∧
    (∃ (s : State), s.pwr.off = false) :=
  ⟨⟨given pages (cmdOf 0x0072 [1, 2, 5, 2, 0]), 0, 0, cmdOf 0x0072 [1, 2, 5, 2, 0], _, ready (by decide +kernel),
     by and_intros <;> decide +kernel⟩,
   ⟨given pages (cmdOf 0x0072 [0, 0, 5, 2, 0]), 0, 0, cmdOf 0x0072 [0, 0, 5, 2, 0], _, ready (by decide +kernel), by decide +kernel,
     by decide +kernel⟩,
   ⟨given programs (cmdOf 0x0072 [3, 3, 0, 1, 1]), 0, 0, cmdOf 0x0072 [3, 3, 0, 1, 1], _, _, ready (by decide +kernel), by decide +kernel,
     someGetD (by decide +kernel), by decide +kernel⟩,
   ⟨given programs (cmdOf 0x0072 [2, 0, 0, 1, 1]), 0, 0, cmdOf 0x0072 [2, 0, 0, 1, 1], _, ready (by decide +kernel), by decide +kernel,
     by decide +kernel⟩,
   ⟨given ((member up)) (cmdOf 0x0073 [20, 0, 0, 12, 1, 1]), 0, 0, cmdOf 0x0073 [20, 0, 0, 12, 1, 1], _, ready (by decide +kernel),
     by and_intros <;> decide +kernel⟩,
   ⟨up, by decide +kernel⟩,
   ⟨up, by decide +kernel⟩,
   ⟨pages, 6, _, by decide +kernel, someGetD (by decide +kernel), by and_intros <;> decide +kernel⟩,
   ⟨up, by decide +kernel⟩⟩

/-- The hypotheses of `Obligations.DirtyLogsAndTranslationsAreKept` are met, clause by clause. -/
theorem meets_DirtyLogsAndTranslationsAreKept :
    (∃ (s : State) (p : Nat) (k : Nat) (c : Cmd) (b : State) (i : Inst), Begins s p k 0x0042 (fun ps => par ps 0 == 0 || decide (2 < par ps
      0)) (instAuth p 1) c b ∧ b.inst (c.arg 1) = some i ∧ c.arg 0 ≤ 2 ∧ c.arg 3 % 4096 = 0 ∧ c.arg 4 % 4096 = 0 ∧ c.arg 4 ≠ 0 ∧ c.arg 4 ≤ 2
      ^ 40 ∧ c.arg 5 % 64 = 0 ∧ c.arg 6 % 64 = 0 ∧ SMap.has i.dirty (c.arg 2) = false ∧ (i.dirty.any fun d => decide (d.2.iva < c.arg 3 +
      c.arg 4) && decide (c.arg 3 < d.2.iva + d.2.len)) = false) ∧
    (∃ (s : State) (p : Nat) (k : Nat) (c : Cmd) (b : State) (d : DirtySlot) (e : DirtySlot), Begins s p k 0x0042 (fun ps => par ps 0 == 1)
      (instAuth p 1) c b ∧ b.dirtySlot (c.arg 1) (c.arg 2) = some d ∧ d.stopped = false ∧ b.dirtyConfirming (c.arg 1) (c.arg 2) = false ∧
      (b.dirtyFlush (c.arg 1) (c.arg 2)).dirtySlot (c.arg 1) (c.arg 2) = some e ∧ e.stopped = false ∧ e.lines = [] ∧ (b.dirtyFlush (c.arg 1)
      (c.arg 2)).dirtyAwaits (c.arg 1) (c.arg 2) = false ∧ e.posted = []) ∧
    (∃ (s : State) (p : Nat) (k : Nat) (c : Cmd) (b : State) (d : DirtySlot) (e : DirtySlot), Begins s p k 0x0042 (fun ps => par ps 0 == 1)
      (instAuth p 1) c b ∧ b.dirtySlot (c.arg 1) (c.arg 2) = some d ∧ d.stopped = false ∧ b.dirtyConfirming (c.arg 1) (c.arg 2) = false ∧
      (b.dirtyFlush (c.arg 1) (c.arg 2)).dirtySlot (c.arg 1) (c.arg 2) = some e ∧ e.stopped = false ∧ e.lines = [] ∧ (b.dirtyFlush (c.arg 1)
      (c.arg 2)).dirtyAwaits (c.arg 1) (c.arg 2) = false ∧ e.posted ≠ []) ∧
    (∃ (s : State) (p : Nat) (k : Nat) (c : Cmd) (b : State), Begins s p k 0x0042 (fun ps => par ps 0 == 2) (instAuth p 1) c b ∧
      (b.dirtySlot (c.arg 1) (c.arg 2)).isSome = true ∧ ((b.dirtyClose (c.arg 1) (c.arg 2)).dirtySlot (c.arg 1) (c.arg 2)).isNone = true) ∧
    (∃ (s : State) (u : State) (walk : Nat) (w : Walk) (i : Inst) (e : Nat × Leaf), s.pwr.off = false ∧ SMap.find s.xlt.walks walk = some w
      ∧ s.inst w.inst = some i ∧ i.gen = w.gen ∧ s.overtaken w.inst w.seq = false ∧ s.walkFrom w.inst i w.iva w.level = (.inl e, u)) ∧
    (∃ (s : State) (u : State) (walk : Nat) (kind : Nat) (w : Walk) (i : Inst), s.pwr.off = false ∧ SMap.find s.xlt.walks walk = some w ∧
      s.inst w.inst = some i ∧ i.gen = w.gen ∧ s.overtaken w.inst w.seq = false ∧ s.walkFrom w.inst i w.iva w.level = (.inr kind, u)) ∧
    (∃ (s : State) (n : Nat) (d : UseDrain) (w : Nat × Nat), s.pwr.off = false ∧ (s.xlt.drains.find? fun d => d.inst == n && d.over &&
      !s.writesLeft n) = some d ∧ d.who = some w) ∧
    (∃ (s : State), s.expertOpen 0 Reg.XLT_INVAL.addr ∧ s.xlt.invalWait = []) ∧
    (∃ (s : State), s.expertOpen 0 Reg.XLT_INVAL.addr ∧ s.xlt.invalWait = []) ∧
    (∃ (s : State), s.expertOpen 0 Reg.XLT_INVAL.addr ∧ s.xlt.invalWait ≠ []) :=
  ⟨⟨given up (cmdOf 0x0042 [0, 1, 7, 0, 1099511627776, 64, 128]), 0, 0, cmdOf 0x0042 [0, 1, 7, 0, 1099511627776, 64, 128], _, _, ready
     (by decide +kernel), someGetD (by decide +kernel), by and_intros <;> decide +kernel⟩,
   ⟨given logs (cmdOf 0x0042 [1, 1, 2]), 0, 0, cmdOf 0x0042 [1, 1, 2], _, _, _, ready (by decide +kernel), someGetD (by decide +kernel),
     by decide +kernel, by decide +kernel, someGetD (by decide +kernel), by and_intros <;> decide +kernel⟩,
   ⟨given logs (cmdOf 0x0042 [1, 1, 3]), 0, 0, cmdOf 0x0042 [1, 1, 3], _, _, _, ready (by decide +kernel), someGetD (by decide +kernel),
     by decide +kernel, by decide +kernel, someGetD (by decide +kernel), by and_intros <;> decide +kernel⟩,
   ⟨given logs (cmdOf 0x0042 [2, 1, 2]), 0, 0, cmdOf 0x0042 [2, 1, 2], _, ready (by decide +kernel), by decide +kernel, by decide +kernel⟩,
   ⟨walking, _, 5, _, _, (0x40000000, ⟨1, .hbm, 0, true, true⟩), by decide +kernel, someGetD (by decide +kernel), someGetD
     (by decide +kernel), by decide +kernel, by decide +kernel, pairSnd (by decide +kernel)⟩,
   ⟨walking, _, 6, fkNotMapped, _, _, by decide +kernel, someGetD (by decide +kernel), someGetD (by decide +kernel), by decide +kernel,
     by decide +kernel, pairSnd (by decide +kernel)⟩,
   ⟨walking, 3, _, (0, 0), by decide +kernel, someGetD (by decide +kernel), by decide +kernel⟩,
   ⟨unlocked up, ⟨by decide +kernel, by decide +kernel, rfl, by decide +kernel⟩, by decide +kernel⟩,
   ⟨unlocked up, ⟨by decide +kernel, by decide +kernel, rfl, by decide +kernel⟩, by decide +kernel⟩,
   ⟨unlocked { up with xlt := { up.xlt with invalWait := [1] } }, ⟨by decide +kernel, by decide +kernel, rfl, by decide +kernel⟩,
     by decide +kernel⟩⟩

/-- The hypotheses of `Obligations.GroupsAndTreesComeAndGo` are met, clause by clause. -/
theorem meets_GroupsAndTreesComeAndGo :
    (∃ (s : State) (p : Nat) (k : Nat) (c : Cmd) (c0 : Cmd) (b : State) (t : State) (l : Bytes) (ms : List Nat) (x : Group) (d : Domain),
      Begins s p k 0x0050 anySel anyAuth c b ∧ c.stage = 0 ∧ b.group (c.arg 0) = none ∧ c.arg 2 ≠ 0 ∧ c.arg 2 ≤ 131072 ∧ b.admRead p k
      c.begun (c.arg 3) (4 * c.arg 2) = (some (some l), c0, t) ∧ ms = listOf l (c.arg 2) ∧ ms.eraseDups.length = ms.length ∧ t.domain (c.arg
      1) = some d ∧ d.ready = true ∧ (ms.all fun m => t.inTorus m && d.members.contains m) = true ∧ ms.contains t.me = true ∧ x =
      { partition := c.arg 1, list := ms, rank := ms.findIdx (· == t.me), box := isBox ms, crossover := 65536, weight := 16, seq := 0, waiting := some (p, k), coll := none, early := [], aborted := [] }) ∧
    (∃ (s : State) (p : Nat) (k : Nat) (c : Cmd) (b : State) (x : Group), Begins s p k 0x0051 anySel anyAuth c b ∧ b.group (c.arg 0) = some
      x ∧ x.waiting = none ∧ b.groupBusy (c.arg 0) x = false) ∧
    (∃ (s : State) (p : Nat) (k : Nat) (c : Cmd) (b : State) (x : Group) (w : Nat × Nat), Begins s p k 0x0051 anySel anyAuth c b ∧ b.group
      (c.arg 0) = some x ∧ x.waiting = some w) ∧
    (∃ (s : State) (p : Nat) (k : Nat) (c : Cmd) (b : State) (x : Group), Begins s p k 0x0052 anySel anyAuth c b ∧ b.definedGroup (c.arg 0)
      = some x ∧ c.arg 2 ≠ 0) ∧
    (∃ (s : State) (kind : Nat) (root : Nat) (tree : Nat) (seq : Nat) (t : TreeOp), s.pwr.off = false ∧ s.treeOp kind root tree seq = some t
      ∧ kind ≠ tkGroupDefine ∧ t.sentUp = true ∧ t.down = false ∧ t.finished = false ∧ tkAcks kind = false ∧ t.passedUp = false ∧ s.upTo t ≠
      s.me) ∧
    (∃ (s : State) (kind : Nat) (root : Nat) (tree : Nat) (seq : Nat) (t : TreeOp), s.pwr.off = false ∧ s.treeOp kind root tree seq = some t
      ∧ kind ≠ tkGroupDefine ∧ t.sentUp = true ∧ t.down = false ∧ t.finished = false ∧ tkAcks kind = false ∧ t.passedUp = true ∧ t.root ≠
      s.me) ∧
    (∃ (s : State) (root : Nat) (tree : Nat) (x : Group), s.pwr.off = false ∧ s.group tree = some x ∧ x.waiting.isSome = true ∧ x.list.headD
      s.me = root ∧ root ≠ s.me) ∧
    (∃ (s : State) (kind : Nat) (root : Nat) (tree : Nat) (seq : Nat) (m : Nat) (t : TreeOp), s.pwr.off = false ∧ s.treeOp kind root tree
      seq = some t ∧ tkAcks kind = true ∧ t.down = true ∧ t.finished = false ∧ m ≠ s.me ∧ root = s.me ∧ t.extra.contains m = true ∧
      t.counted.contains m = false) ∧
    (∃ (s : State) (kind : Nat) (root : Nat) (tree : Nat) (seq : Nat) (m : Nat) (t : TreeOp), s.pwr.off = false ∧ s.treeOp kind root tree
      seq = some t ∧ tkAcks kind = true ∧ t.down = true ∧ t.finished = false ∧ m ≠ s.me ∧ (s.treeAlive t).contains m = true ∧
      t.extra.contains m = false ∧ ((rackOf m = rackOf s.me ∧ s.combiner t (rackOf s.me) = some s.me ∧ t.counted.contains m = false) ∨ (root
      = s.me ∧ s.combiner t (rackOf m) = some m ∧ t.racks.contains (rackOf m) = false))) ∧
    (∃ (s : State) (root : Nat) (tree : Nat) (d : Drain), s.pwr.off = false ∧ (s.hall.drains.find? fun d => d.kind == tkRevoke && d.root ==
      root && d.tree == tree) = some d ∧ s.drainHeld d = false) ∧
    (∃ (s : State) (partition : Nat) (root : Nat) (seq : Nat) (d : Domain), s.pwr.off = false ∧ s.domain partition = some d ∧ d.drain = some
      (root, seq) ∧ s.snapDrained partition = true) :=
  ⟨⟨given ((cached groups)) (cmdOf 0x0050 [3, 20, 2, 0x40000000]), 0, 0, cmdOf 0x0050 [3, 20, 2, 0x40000000], _, _, _, [0, 0, 0, 0, 1, 0, 0,
     0], _, _, _, ready (by decide +kernel), by decide +kernel, (by decide +kernel), by decide +kernel, (by decide +kernel), tripleSnd
     (by decide +kernel), rfl, by decide +kernel, someGetD (by decide +kernel), by decide +kernel, by decide +kernel, by decide +kernel,
     rfl⟩,
   ⟨given groups (cmdOf 0x0051 [4]), 0, 0, cmdOf 0x0051 [4], _, _, ready (by decide +kernel), someGetD (by decide +kernel),
     by decide +kernel, by decide +kernel⟩,
   ⟨given groups (cmdOf 0x0051 [2]), 0, 0, cmdOf 0x0051 [2], _, _, (0, 7), ready (by decide +kernel), someGetD (by decide +kernel),
     by decide +kernel⟩,
   ⟨given groups (cmdOf 0x0052 [1, 0, 255]), 0, 0, cmdOf 0x0052 [1, 0, 255], _, _, ready (by decide +kernel), someGetD (by decide +kernel),
     by decide +kernel⟩,
   ⟨{ groups with col := { groups.col with ops := [{ (default : TreeOp) with kind := tkBarrier, root := 1, tree := 1, seq := 2, sentUp := true, members := [1, 2] }] } },
     tkBarrier, 1, 1, 2, _, by decide +kernel, someGetD (by decide +kernel), by and_intros <;> decide +kernel⟩,
   ⟨{ groups with col := { groups.col with ops := [{ (default : TreeOp) with kind := tkBarrier, root := 1, tree := 1, seq := 2, sentUp := true, members := [1, 2], passedUp := true }] } },
     tkBarrier, 1, 1, 2, _, by decide +kernel, someGetD (by decide +kernel), by and_intros <;> decide +kernel⟩,
   ⟨{ groups with col := { groups.col with groups := [(2, { (default : Group) with partition := 20, list := [1, 0], waiting := some (0, 7) })] } },
     1, 2, _, by decide +kernel, someGetD (by decide +kernel), by and_intros <;> decide +kernel⟩,
   ⟨groups, tkRevoke, 0, 1, 2, 9, _, by decide +kernel, someGetD (by decide +kernel), by and_intros <;> decide +kernel⟩,
   ⟨groups, tkRevoke, 0, 1, 3, 1, _, by decide +kernel, someGetD (by decide +kernel), by decide +kernel, (by decide +kernel),
     by decide +kernel, (by decide +kernel), by decide +kernel, (by decide +kernel), Or.inl (by and_intros <;> decide +kernel)⟩,
   ⟨groups, 0, 1, _, by decide +kernel, someGetD (by decide +kernel), by decide +kernel⟩,
   ⟨groups, 21, 0, 4, _, by decide +kernel, someGetD (by decide +kernel), by decide +kernel, by decide +kernel⟩⟩

/-- The hypotheses of `Obligations.TransitProgramsRun` are met, clause by clause. -/
theorem meets_TransitProgramsRun :
    (∃ (s : State) (p : Nat) (k : Nat) (c : Cmd) (c0 : Cmd) (b : State) (t : State) (i : Inst) (l : Bytes) (m : Nat), Begins s p k
      0x0060 anySel (instAuth p 0) c b ∧ b.inst (c.arg 0) = some i ∧ c.arg 1 ≠ 0 ∧ b.admRead p k c.begun (c.arg 3) (64 * min 64 (c.arg
      2)) = (some (some l), c0, t) ∧ imageFail l (c.arg 2) = none ∧ t.waitBad l (c.arg 1) = false ∧ t.pickNumber t.trn.programs 1024 =
      some m) ∧
    (∃ (s : State) (p : Nat) (k : Nat) (c : Cmd) (b : State) (x : Program), Begins s p k 0x0061 anySel (fun s ps => ((s.program (par ps
      0)).map fun x => reach p x.inst).getD true) c b ∧ b.program (c.arg 0) = some x ∧ b.entriesOf (c.arg 0) = []) ∧
    (∃ (s : State), s.pwr.off = false) ∧
    (∃ (s : State) (die : Nat) (entry : Nat) (e : TEntry), s.pwr.off = false ∧ s.entry (entryKey die entry) = some e ∧ e.state = 4 ∧
      e.ending = none ∧ ((s.entryDomains die e).any fun d => !s.domOn d) = false ∧ s.pwr.relock.contains die = false) ∧
    (∃ (s : State) (die : Nat) (entry : Nat) (e : TEntry), s.pwr.off = false ∧ s.entry (entryKey die entry) = some e ∧ e.state = 4 ∧
      e.ending = none ∧ ((s.entryDomains die e).any fun d => !s.domOn d) = false ∧ s.pwr.relock.contains die = false) ∧
    (∃ (s : State) (die : Nat) (entry : Nat) (e : TEntry), s.pwr.off = false ∧ s.entry (entryKey die entry) = some e ∧ e.state = 2 ∧
      imgWaitLimit (s.image e) ≠ 0) ∧
    (∃ (s : State) (die : Nat) (entry : Nat) (e : TEntry), s.pwr.off = false ∧ s.entry (entryKey die entry) = some e ∧ e.state = 3 ∧
      e.prio < 3) ∧
    (∃ (s : State) (die : Nat) (value : Nat) (e : TEntry), s.expertOpen 0 (Reg.TRN_CANCEL die).addr ∧ s.entry (entryKey die (value %
      256)) = some e) :=
  ⟨⟨given ((cached imaged)) (cmdOf 0x0060 [0, 20, 3, 0x40000000]), 0, 0, cmdOf 0x0060 [0, 20, 3, 0x40000000], _, _, _, _, img, _, ready
  (by decide +kernel), someGetD (by decide +kernel), by decide +kernel, tripleSnd (by decide +kernel), by decide +kernel,
  by decide +kernel, pickNumber_empty _ (by decide +kernel) (by decide)⟩,
   ⟨given programs (cmdOf 0x0061 [2]), 0, 0, cmdOf 0x0061 [2], _, _, ready (by decide +kernel), someGetD (by decide +kernel),
     by decide +kernel⟩,
   ⟨up, by decide +kernel⟩,
   ⟨programs, 0, 0, _, by decide +kernel, someGetD (by decide +kernel), by and_intros <;> decide +kernel⟩,
   ⟨programs, 0, 0, _, by decide +kernel, someGetD (by decide +kernel), by and_intros <;> decide +kernel⟩,
   ⟨programs, 0, 1, _, by decide +kernel, someGetD (by decide +kernel), by decide +kernel, by decide +kernel⟩,
   ⟨programs, 3, 255, _, by decide +kernel, someGetD (by decide +kernel), by decide +kernel, by decide +kernel⟩,
   ⟨unlocked programs, 3, 255, _, ⟨by decide +kernel, by decide +kernel, rfl, by decide +kernel⟩, someGetD (by decide +kernel)⟩⟩

/-- The hypotheses of `Obligations.WicksBarriersAndMailboxes` are met, clause by clause. -/
theorem meets_WicksBarriersAndMailboxes :
    (∃ (s : State) (p : Nat) (k : Nat) (c : Cmd) (b : State) (i : Inst) (m : Nat), Begins s p k 0x0080 anySel (instAuth p 0) c b ∧ b.inst
      (c.arg 0) = some i ∧ c.arg 1 ≠ 0 ∧ c.arg 2 % 2 ^ 24 ≠ 0 ∧ b.hasRoom (c.arg 0) 4096 (·.wickPool) (fun i => countIn b.syn.wicks fun w =>
      w.inst == i) (fun _ => true) = true ∧ SMap.freeFrom b.syn.wicks 4096 0 = some m) ∧
    (∃ (s : State) (p : Nat) (k : Nat) (c : Cmd) (b : State) (x : Wick), Begins s p k 0x0081 anySel (fun s ps => ((s.wick (par ps 0)).map
      fun w => reach p w.inst).getD true) c b ∧ b.wick (c.arg 0) = some x) ∧
    (∃ (s : State) (p : Nat) (k : Nat) (c : Cmd) (b : State) (i : Inst) (g : Group), Begins s p k 0x0082 anySel (instAuth p 0) c b ∧ b.inst
      (c.arg 0) = some i ∧ b.definedGroup (c.arg 1) = some g ∧ b.bar (c.arg 1) = none) ∧
    (∃ (s : State) (p : Nat) (k : Nat) (c : Cmd) (b : State) (i : Inst) (g : Group) (x : Barrier), Begins s p k 0x0082 anySel (instAuth p 0)
      c b ∧ b.inst (c.arg 0) = some i ∧ b.definedGroup (c.arg 1) = some g ∧ b.bar (c.arg 1) = some x ∧ x.vacant = true) ∧
    (∃ (s : State) (fn : Nat) (g : Nat) (x : Barrier), s.serves ∧ (isPf fn = true ∨ (s.inst fn).isSome = true) ∧ s.bar g = some x ∧ x.inst =
      fn) ∧
    (∃ (s : State) (fn : Nat) (dir : Nat) (value : Nat) (child : Nat) (i : Inst), s.serves ∧ dir < 2 ∧ s.inst fn = some i ∧ s.mbxChild fn
      dir = some child ∧ bit value 0 = false) ∧
    (∃ (s : State) (fn : Nat) (value : Nat) (child : Nat) (i : Inst), s.serves ∧ s.inst fn = some i ∧ s.mbxChild fn 0 = some child ∧ bit
      value 0 = true) ∧
    (∃ (s : State) (fn : Nat) (dir : Nat) (child : Nat), s.serves ∧ s.mbxChild fn dir = some child) :=
  ⟨⟨given ((member up)) (cmdOf 0x0080 [1, 20, 0x80000001]), 0, 0, cmdOf 0x0080 [1, 20, 0x80000001], _, _, 0, ready (by decide +kernel),
     someGetD (by decide +kernel), by and_intros <;> decide +kernel⟩,
   ⟨given wicks (cmdOf 0x0081 [7]), 0, 0, cmdOf 0x0081 [7], _, _, ready (by decide +kernel), someGetD (by decide +kernel)⟩,
   ⟨given groups (cmdOf 0x0082 [1, 1, 0]), 0, 0, cmdOf 0x0082 [1, 1, 0], _, _, _, ready (by decide +kernel), someGetD (by decide +kernel),
     someGetD (by decide +kernel), by decide +kernel⟩,
   ⟨given groups (cmdOf 0x0082 [1, 4, 0]), 0, 0, cmdOf 0x0082 [1, 4, 0], _, _, _, _, ready (by decide +kernel), someGetD
     (by decide +kernel), someGetD (by decide +kernel), someGetD (by decide +kernel), by decide +kernel⟩,
   ⟨groups, 0, 4, _, ⟨by decide +kernel, by decide +kernel⟩, by decide +kernel, someGetD (by decide +kernel), by decide +kernel⟩,
   ⟨up, 1, 0, 0xFFFF00, 1, _, ⟨by decide +kernel, by decide +kernel⟩, by decide +kernel, someGetD (by decide +kernel), by decide +kernel,
     by decide +kernel⟩,
   ⟨up, 1, 3, 1, _, ⟨by decide +kernel, by decide +kernel⟩, someGetD (by decide +kernel), by decide +kernel, by decide +kernel⟩,
   ⟨up, 1, 0, 1, ⟨by decide +kernel, by decide +kernel⟩, by decide +kernel⟩⟩

/-- The hypotheses of `Obligations.SchedulesAndFramesRun` are met, clause by clause. -/
theorem meets_SchedulesAndFramesRun :
    (∃ (s : State) (p : Nat) (k : Nat) (c : Cmd) (c0 : Cmd) (b : State) (t : State) (l : Bytes), Begins s p k 0x0090 anySel anyAuth c b ∧
      c.arg 0 ≤ 7 ∧ c.arg 1 ≠ 0 ∧ c.arg 1 ≤ 1024 ∧ b.admRead p k c.begun (c.arg 2) (8 * c.arg 1) = (some (some l), c0, t) ∧ ((List.range
      (c.arg 1)).any fun i => leAt l (8 * i + 7) 1 != 0x10) = false ∧ ((gateEntries l (c.arg 1)).any fun e => decide (e.interval < 32) ||
      decide (1000000000 < e.interval)) = false ∧ cycleOf (gateEntries l (c.arg 1)) ≤ 4294967295 ∧ (t.gateSwitch (c.arg 0)).hallTime + 10000
      ≤ c.arg 3) ∧
    (∃ (s : State) (g : Nat) (l : GateList), s.pwr.off = false ∧ (s.gates g).pending = some l ∧ l.base ≤ s.hallTime ∧ l.late = false) ∧
    (∃ (s : State) (p : Nat) (k : Nat) (c : Cmd) (b : State) (qs : List Nat), Begins s p k 0x0091 anySel anyAuth c b ∧ (c.arg 0 ≤ 7 ∨ c.arg
      0 = 0xFF) ∧ qs = (List.range 8).map (fun i => c.arg (i + 1)) ∧ (qs.any fun q => decide (q < 64) || decide (1048576 < q)) = false) ∧
    (∃ (s : State) (p : Nat) (k : Nat) (c : Cmd) (b : State) (x : Cadence), Begins s p k 0x0092 anySel anyAuth c b ∧ 100000 ≤ c.arg 1 ∧
      c.arg 1 ≤ 1000000000 ∧ b.member (c.arg 0) b.me = true ∧ b.hallTime + 10000 ≤ c.arg 2 ∧ SMap.find b.sch.cadences (c.arg 0) = some x) ∧
    (∃ (s : State) (p : Nat) (k : Nat) (c : Cmd) (b : State) (slot : Nat), Begins s p k 0x0092 anySel anyAuth c b ∧ 100000 ≤ c.arg 1 ∧ c.arg
      1 ≤ 1000000000 ∧ b.member (c.arg 0) b.me = true ∧ b.hallTime + 10000 ≤ c.arg 2 ∧ SMap.find b.sch.cadences (c.arg 0) = none ∧
      ((List.range 16).find? fun i => b.sch.cadences.all fun e => e.2.slot != i) = some slot) ∧
    (∃ (s : State) (partition : Nat) (n : Nat) (c : Cadence), s.pwr.off = false ∧ SMap.find s.sch.cadences partition = some c ∧ c.next =
      none ∧ n = boundaryIndex s.hallTime c.start c.period ∧ n = c.last + 1) ∧
    (∃ (s : State) (index : Nat), s.pwr.off = false ∧ index = epochIndex s.hallTime none s.epochValue ∧ s.feat.epochDue = false) ∧
    (∃ (s : State) (t : State) (index : Nat), s.pwr.off = false ∧ index = epochIndex s.hallTime none s.feat.countEpoch ∧ s.feat.epochDue =
      true ∧ s.feat.epochFrom ≤ s.hallTime ∧ t = { s with feat := { s.feat with epochDue := false } }) ∧
    (∃ (s : State) (t : State), s.pwr.off = false ∧ t = (List.range 72).foldl (fun (s : State) k => s.sampled k) s) ∧
    (∃ (s : State) (t : State) (g : Nat) (j : Nat) (o : OutPkt), s.pwr.off = false ∧ (s.link g j).state = .inService ∧ s.addressed g = true
      ∧ s.pickFrame g j = (some o, t)) ∧
    (∃ (s : State) (t : State) (g : Nat) (j : Nat) (o : OutPkt), s.pwr.off = false ∧ (s.link g j).state = .inService ∧ s.addressed g = true
      ∧ s.pickFrame g j = (some o, t) ∧ s.regF (.LNK_TX_THRESHOLD g) 28 16 < o.bytes) :=
  ⟨⟨given gated (cmdOf 0x0090 [7, 1, 0x40000000, 10000]), 0, 0, cmdOf 0x0090 [7, 1, 0x40000000, 10000], _, _, _, [32, 0, 0, 0, 255, 0, 0,
     16], ready (by decide +kernel), by decide +kernel, by decide +kernel, by decide +kernel, tripleSnd (by decide +kernel),
     by and_intros <;> decide +kernel⟩,
   ⟨gated, 3, _, by decide +kernel, someGetD (by decide +kernel), by decide +kernel, by decide +kernel⟩,
   ⟨given up (cmdOf 0x0091 [255, 64, 64, 64, 64, 64, 64, 64, 1048576]), 0, 0, cmdOf 0x0091 [255, 64, 64, 64, 64, 64, 64, 64, 1048576], _, _,
     ready (by decide +kernel), by decide +kernel, rfl, by decide +kernel⟩,
   ⟨given gated (cmdOf 0x0092 [22, 1000000000, 10000]), 0, 0, cmdOf 0x0092 [22, 1000000000, 10000], _, _, ready (by decide +kernel),
     by decide +kernel, (by decide +kernel), by decide +kernel, (by decide +kernel), someGetD (by decide +kernel)⟩,
   ⟨given gated (cmdOf 0x0092 [20, 100000, 10000]), 0, 0, cmdOf 0x0092 [20, 100000, 10000], _, 1, ready (by decide +kernel),
     by and_intros <;> decide +kernel⟩,
   ⟨gated, 22, _, _, by decide +kernel, someGetD (by decide +kernel), by decide +kernel, rfl, rfl⟩,
   ⟨up, _, by decide +kernel, rfl, by decide +kernel⟩,
   ⟨{ up with feat := { up.feat with epochDue := true } }, _, _, by decide +kernel, rfl, by decide +kernel, by decide +kernel, rfl⟩,
   ⟨up, _, by decide +kernel, rfl⟩,
   ⟨sending, _, 1, 2, _, by decide +kernel, by decide +kernel, by decide +kernel, somePairSnd (by decide +kernel)⟩,
   ⟨sending, _, 1, 2, _, by decide +kernel, by decide +kernel, by decide +kernel, somePairSnd (by decide +kernel), by decide +kernel⟩⟩

/-- The hypotheses of `Obligations.HallTimeIsKept` are met, clause by clause. -/
theorem meets_HallTimeIsKept :
    (∃ (s : State) (data : Bytes) (t : Nat), s.pwr.off = false ∧ s.feat.timeMaster = true ∧ s.sch.lastEdge = some t ∧ t + 100000000 ≤ s.now
      ∧ s.now ≤ t + 900000000 ∧ slice data 0 3 = [0x4B, 0x54, 0x10] ∧ bit (leAt data 3 1) 0 = true ∧ leAt data 14 2 = crc16 (slice data 0
      14)) ∧
    (∃ (s : State) (u : State) (sec : Nat), s.pwr.off = false ∧ s.feat.timeMaster = true ∧ s.sch.lastEdge = none ∧ s.sch.todNext = some sec
      ∧ u = ({ s with sch := { s.sch with lastEdge := some s.now, todNext := none, edgesBare := 0, todValid := true } }).chooseTime ∧
      u.sch.master = some u.me ∧ u.sch.tstate ≠ 0) ∧
    (∃ (s : State), s.pwr.off = false ∧ s.feat.timeMaster = true ∧ s.sch.master = some s.me ∧ (s.sch.tstate = 1 ∨ s.sch.tstate = 2)) ∧
    (∃ (s : State) (k : Nat), s.pwr.off = false ∧ s.sch.parent = some k ∧ (s.sch.tstate = 1 ∨ s.sch.tstate = 2)) ∧
    (∃ (s : State) (t : State), s.pwr.off = false ∧ t = ((List.range 64).filter fun k => !s.switchedGroup (k / 8) && (s.link (k / 8) (k %
      8)).state == .inService).foldl (fun (s' : State) k => if s.sch.syncs % 8 == 0 then (s'.sendSync (k / 8) (k % 8)).sendPdelay (k / 8) (k
      % 8) else s'.sendSync (k / 8) (k % 8)) s) ∧
    (∃ (s : State), s.serves) ∧
    (∃ (s : State) (u : State) (g : Nat) (j : Nat) (data : Bytes) (body : Bytes), s.pwr.off = false ∧ (s.link g j).state ≠ .off ∧ (s.link g
      j).state ≠ .down ∧ 64 ≤ data.length ∧ data.length ≤ 4224 ∧ body = data.take (data.length - 4) ∧ data.drop (data.length - 4) ≠
      frameCheck body true ∧ data.drop (data.length - 4) = frameCheck body false ∧ u = ((s.frameSeen g j data).lcount g j 0 1).lcount g j 1
      data.length ∧ s.switchedGroup g = false ∧ (s.link g j).state = .inService ∧ isPtp data 0 = true) ∧
    (∃ (s : State) (u : State) (g : Nat) (j : Nat) (data : Bytes) (body : Bytes), s.pwr.off = false ∧ (s.link g j).state ≠ .off ∧ (s.link g
      j).state ≠ .down ∧ 64 ≤ data.length ∧ data.length ≤ 4224 ∧ body = data.take (data.length - 4) ∧ data.drop (data.length - 4) ≠
      frameCheck body true ∧ data.drop (data.length - 4) = frameCheck body false ∧ u = ((s.frameSeen g j data).lcount g j 0 1).lcount g j 1
      data.length ∧ s.switchedGroup g = false ∧ (s.link g j).state = .inService ∧ isPtp data 2 = true) ∧
    (∃ (s : State) (u : State) (g : Nat) (j : Nat) (data : Bytes) (body : Bytes), s.pwr.off = false ∧ (s.link g j).state ≠ .off ∧ (s.link g
      j).state ≠ .down ∧ 64 ≤ data.length ∧ data.length ≤ 4224 ∧ body = data.take (data.length - 4) ∧ data.drop (data.length - 4) ≠
      frameCheck body true ∧ data.drop (data.length - 4) = frameCheck body false ∧ u = ((s.frameSeen g j data).lcount g j 0 1).lcount g j 1
      data.length ∧ s.switchedGroup g = false ∧ (s.link g j).state = .inService ∧ isPtp data 3 = true) ∧
    (∃ (s : State) (u : State) (g : Nat) (j : Nat) (data : Bytes) (body : Bytes), s.pwr.off = false ∧ (s.link g j).state ≠ .off ∧ (s.link g
      j).state ≠ .down ∧ 64 ≤ data.length ∧ data.length ≤ 4224 ∧ body = data.take (data.length - 4) ∧ data.drop (data.length - 4) ≠
      frameCheck body true ∧ data.drop (data.length - 4) = frameCheck body false ∧ u = ((s.frameSeen g j data).lcount g j 0 1).lcount g j 1
      data.length ∧ (s.switchedGroup g = true ∨ (s.link g j).state ≠ .inService) ∧ isPtp data 0 = true) ∧
    (∃ (s : State) (u : State) (g : Nat) (j : Nat) (data : Bytes) (body : Bytes), s.pwr.off = false ∧ (s.link g j).state ≠ .off ∧ (s.link g
      j).state ≠ .down ∧ 64 ≤ data.length ∧ data.length ≤ 4224 ∧ body = data.take (data.length - 4) ∧ data.drop (data.length - 4) ≠
      frameCheck body true ∧ data.drop (data.length - 4) = frameCheck body false ∧ u = ((s.frameSeen g j data).lcount g j 0 1).lcount g j 1
      data.length ∧ (s.switchedGroup g = true ∨ (s.link g j).state ≠ .inService) ∧ isPtp data 2 = true) ∧
    (∃ (s : State) (u : State) (g : Nat) (j : Nat) (data : Bytes) (body : Bytes), s.pwr.off = false ∧ (s.link g j).state ≠ .off ∧ (s.link g
      j).state ≠ .down ∧ 64 ≤ data.length ∧ data.length ≤ 4224 ∧ body = data.take (data.length - 4) ∧ data.drop (data.length - 4) ≠
      frameCheck body true ∧ data.drop (data.length - 4) = frameCheck body false ∧ u = ((s.frameSeen g j data).lcount g j 0 1).lcount g j 1
      data.length ∧ (s.switchedGroup g = true ∨ (s.link g j).state ≠ .inService) ∧ isPtp data 3 = true) :=
  ⟨⟨timed, tod, 0, by and_intros <;> decide +kernel⟩,
   ⟨{ timed with sch := { timed.sch with lastEdge := none, todNext := some 5 } }, _, 5, by decide +kernel, (by decide +kernel),
     by decide +kernel, (by decide +kernel), rfl, by decide +kernel, by decide +kernel⟩,
   ⟨timed, by and_intros <;> decide +kernel⟩,
   ⟨{ timed with sch := { timed.sch with parent := some 3 } }, 3, by and_intros <;> decide +kernel⟩,
   ⟨timed, _, by decide +kernel, rfl⟩,
   ⟨up, ⟨by decide +kernel, by decide +kernel⟩⟩,
   ⟨linked .inService 0, _, 0, 0, typed 0x88F7 [0], _, by decide +kernel, (by decide +kernel), by decide +kernel, (by decide +kernel),
     (by decide +kernel), rfl, by decide +kernel, (by decide +kernel), rfl, by decide +kernel, (by decide +kernel), by decide +kernel⟩,
   ⟨linked .inService 0, _, 0, 0, typed 0x88F7 [2], _, by decide +kernel, (by decide +kernel), by decide +kernel, (by decide +kernel),
     (by decide +kernel), rfl, by decide +kernel, (by decide +kernel), rfl, by decide +kernel, (by decide +kernel), by decide +kernel⟩,
   ⟨linked .inService 0, _, 0, 0, typed 0x88F7 [3], _, by decide +kernel, (by decide +kernel), by decide +kernel, (by decide +kernel),
     (by decide +kernel), rfl, by decide +kernel, (by decide +kernel), rfl, by decide +kernel, (by decide +kernel), by decide +kernel⟩,
   ⟨linked .training 0, _, 0, 0, typed 0x88F7 [0], _, by decide +kernel, (by decide +kernel), by decide +kernel, (by decide +kernel),
     (by decide +kernel), rfl, by decide +kernel, (by decide +kernel), rfl, Or.inr (by decide +kernel), by decide +kernel⟩,
   ⟨linked .training 0, _, 0, 0, typed 0x88F7 [2], _, by decide +kernel, (by decide +kernel), by decide +kernel, (by decide +kernel),
     (by decide +kernel), rfl, by decide +kernel, (by decide +kernel), rfl, Or.inr (by decide +kernel), by decide +kernel⟩,
   ⟨linked .training 0, _, 0, 0, typed 0x88F7 [3], _, by decide +kernel, (by decide +kernel), by decide +kernel, (by decide +kernel),
     (by decide +kernel), rfl, by decide +kernel, (by decide +kernel), rfl, Or.inr (by decide +kernel), by decide +kernel⟩⟩

/-- The hypotheses of `Obligations.KeysEnginesAndEntropy` are met, clause by clause. -/
theorem meets_KeysEnginesAndEntropy :
    (∃ (s : State) (p : Nat) (k : Nat) (c : Cmd) (b : State) (i : Inst) (x : KeySlot), Begins s p k 0x00A0 anySel (fun s ps => reach p (par
      ps 0) && reach p (((SMap.find s.sec.keys (par ps 1)).map (·.inst)).getD (par ps 0))) c b ∧ b.inst (c.arg 0) = some i ∧ c.arg 1 < 16384
      ∧ SMap.has b.sec.keys (c.arg 1) = false ∧ (isPf (c.arg 0) = true ∨ countIn b.sec.keys (fun x => x.inst == c.arg 0) < i.qpQuota) ∧
      b.sec.due.contains 2 = false ∧ x = KeySlot.remask ⟨c.arg 0, leBytes 32 (c.arg 2), zeros 32, leBytes 4 (c.arg 3), false⟩ b.freeMask) ∧
    (∃ (key : KeySlot) (mask : Bytes), key.share0.length = 32 ∧ key.share1.length = 32 ∧ mask.length = 32) ∧
    (∃ (s : State) (p : Nat) (k : Nat) (c : Cmd) (b : State), Begins s p k 0x00A1 anySel (fun s ps => ((SMap.find s.sec.keys (par ps 0)).map
      fun x => reach p x.inst).getD true) c b ∧ SMap.has b.sec.keys (c.arg 0) = true ∧ b.keyBound (c.arg 0) = 0) ∧
    (∃ (s : State) (value : Nat) (passed : Nat) (back : Nat), s.expertOpen 0 Reg.SEC_ENGINE_FAIL.addr ∧ back = s.regF .SEC_ENGINE_FAIL 15 0
      &&& bits value 15 0 &&& passed) ∧
    (∃ (s : State), s.pwr.off = false ∧ s.sec.entropy = 0) ∧
    (∃ (s : State), s.pwr.off = false ∧ s.sec.entropy = 1) ∧
    (∃ (s : State), s.pwr.off = false ∧ s.sec.entropy = 0 ∧ 2 ≤ s.sec.entropyFails) ∧
    (∃ (s : State) (generator : Nat), s.pwr.off = false ∧ generator ≤ 2 ∧ s.reseedDue generator = true ∧ s.sec.entropy ≠ 1) ∧
    (∃ (s : State) (generator : Nat), s.pwr.off = false ∧ generator ≤ 2 ∧ s.reseedDue generator = true ∧ s.sec.entropy = 1) ∧
    (∃ (s : State) (generator : Nat), (∃ r, SMap.find s.sec.drbgs generator = some r ∧ (2 ^ 20 ≤ r.1 ∨ r.2 + 1000000000 ≤ s.now))) :=
  ⟨⟨given up (cmdOf 0x00A0 [1, 16383, 5, 9]), 0, 0, cmdOf 0x00A0 [1, 16383, 5, 9], _, _, _, ready (by decide +kernel), someGetD
     (by decide +kernel), by decide +kernel, (by decide +kernel), by decide +kernel, (by decide +kernel), rfl⟩,
   ⟨⟨1, zeros 32, zeros 32, zeros 4, false⟩, zeros 32, by and_intros <;> decide +kernel⟩,
   ⟨given keyed (cmdOf 0x00A1 [16383]), 0, 0, cmdOf 0x00A1 [16383], _, ready (by decide +kernel), by decide +kernel, by decide +kernel⟩,
   ⟨unlocked up, 255, 255, _, ⟨by decide +kernel, by decide +kernel, rfl, by decide +kernel⟩, rfl⟩,
   ⟨{ up with sec := { up.sec with entropy := 0 } }, by decide +kernel, by decide +kernel⟩,
   ⟨up, by decide +kernel, by decide +kernel⟩,
   ⟨{ up with sec := { up.sec with entropy := 0, entropyFails := 2 } }, by and_intros <;> decide +kernel⟩,
   ⟨{ up with sec := { up.sec with entropy := 0, due := [2] } }, 2, by and_intros <;> decide +kernel⟩,
   ⟨{ up with sec := { up.sec with due := [2] } }, 2, by and_intros <;> decide +kernel⟩,
   ⟨{ up with sec := { up.sec with drbgs := [(1, (2 ^ 20, 0))] } }, 1, _, someGetD (by decide +kernel), by decide +kernel⟩⟩

/-- The hypotheses of `Obligations.InstancesAreManaged` are met, clause by clause. -/
theorem meets_InstancesAreManaged :
    (∃ (s : State) (p : Nat) (k : Nat) (c : Cmd) (b : State) (n : Nat) (gen : Nat) (a : List Nat) (r : List Nat × State), Begins s p k
      0x00B0 anySel (fun _ ps => reach p (par ps 0 * 128 + par ps 1)) c b ∧ n = c.arg 0 * 128 + c.arg 1 ∧ c.arg 1 ≠ 0 ∧ frameBytes ≤
      c.arg 2 ∧ c.arg 2 % frameBytes = 0 ∧ c.arg 1 ≤ (b.port (c.arg 0)).vfEnabled ∧ b.inst n = none ∧ a = (List.range 6).map (fun i =>
      c.arg (3 + i)) ∧ b.poolsHold (c.arg 0) (c.arg 2 / frameBytes) a = true ∧ gen =
      (match SMap.find b.vrt.lastGen n with | some g => (g + 1) % 256 | none => 0) ∧ b.genQuarantined n gen = false ∧ r = b.takeFrames n
      (c.arg 2 / frameBytes)) ∧
    (∃ (s : State) (p : Nat) (k : Nat) (c : Cmd) (b : State) (i : Inst), Begins s p k 0x00B1 anySel (instAuth p 0) c b ∧ c.stage = 0 ∧
      b.inst (c.arg 0) = some i ∧ isPf (c.arg 0) = false) ∧
    (∃ (s : State) (p : Nat) (k : Nat) (c : Cmd) (b : State) (i : Inst), Begins s p k 0x00B2 anySel (instAuth p 0) c b ∧ c.stage = 0 ∧
      b.inst (c.arg 0) = some i ∧ isPf (c.arg 0) = false) ∧
    (∃ (s : State) (n : Nat) (i : Inst), s.pwr.off = false ∧ s.inst n = some i ∧ i.quarantined = true ∧ s.genQuarantined n ((i.gen + 1) %
      256) = false) ∧
    (∃ (s : State) (p : Nat) (k : Nat) (c : Cmd) (b : State) (i : Inst), Begins s p k 0x00B3 anySel (instAuth p 0) c b ∧ c.arg 1 ≠ 0 ∧
      b.inst (c.arg 0) = some i) ∧
    (∃ (s : State) (n : Nat) (i : Inst), s.expertOpen 0 Reg.VRT_INST_CTRL.addr ∧ n = s.regF .VRT_INST_SEL 8 0 ∧ s.inst n = some i) ∧
    (∃ (s : State) (value : Nat) (n : Nat) (first : Nat) (second : Nat) (gen : Nat) (w : Wq), s.expertOpen 0 Reg.VRT_RESTORE_TARGET.addr
      ∧ bits value 29 28 = 0 ∧ n = bits value 15 0 ∧ first = s.regF .VRT_RESTORE_VALUE 23 0 ∧ second = s.regF .VRT_RESTORE_VALUE 47 24 ∧
      gen = s.regF .VRT_RESTORE_VALUE 63 56 ∧ s.wq n = some w ∧ s.holds w.inst = true ∧ w.fresh = true ∧ distance first second ≤ 2 ^
      w.log2 ∧ (s.vrt.retiredWqGens.any fun r => r.1 == n * 256 + gen && decide (s.now < r.2 + s.comF .VRT_GEN_CFG 15 0 * 1000000)) =
      false) :=
  ⟨⟨given ((member enabled)) (cmdOf 0x00B0 [0, 2, 2097152, 1, 1, 1, 1, 1, 1]), 0, 0, cmdOf 0x00B0 [0, 2, 2097152, 1, 1, 1, 1, 1, 1], _, _,
  _, _, _, ready (by decide +kernel), rfl, by decide +kernel, (by decide +kernel), by decide +kernel, (by decide +kernel), by decide +kernel,
  rfl, by decide +kernel, rfl, by decide +kernel, rfl⟩,
   ⟨given up (cmdOf 0x00B1 [1]), 0, 0, cmdOf 0x00B1 [1], _, _, ready (by decide +kernel), by decide +kernel, someGetD
     (by decide +kernel), by decide +kernel⟩,
   ⟨given up (cmdOf 0x00B2 [1]), 0, 0, cmdOf 0x00B2 [1], _, _, ready (by decide +kernel), by decide +kernel, someGetD
     (by decide +kernel), by decide +kernel⟩,
   ⟨up.setInst 1 { vfInst with quarantined := true }, 1, _, by decide +kernel, someGetD (by decide +kernel), by decide +kernel,
     by decide +kernel⟩,
   ⟨given up (cmdOf 0x00B3 [1, 65535]), 0, 0, cmdOf 0x00B3 [1, 65535], _, _, ready (by decide +kernel), by decide +kernel, someGetD
     (by decide +kernel)⟩,
   ⟨unlocked up, 0, _, ⟨by decide +kernel, by decide +kernel, rfl, by decide +kernel⟩, by decide +kernel, someGetD (by decide +kernel)⟩,
   ⟨unlocked held, 7, 7, 0, 0, 0, _, ⟨by decide +kernel, by decide +kernel, rfl, by decide +kernel⟩, by decide +kernel,
     (by decide +kernel), by decide +kernel, (by decide +kernel), by decide +kernel, someGetD (by decide +kernel), by and_intros <;> decide +kernel⟩⟩

/-- The hypotheses of `Obligations.CommitsTakeConsistentSetsOnly` are met, clause by clause. -/
theorem meets_CommitsTakeConsistentSetsOnly :
    (∃ (s : State) (t : State), s.expertOpen 0 Reg.XLT_COMMIT.addr ∧ t = (if 4 * s.regF .XLT_WALK_CFG 3 0 + s.regF .XLT_WALK_CFG 13 8 = 32
      then s.commitRegs [.XLT_WALK_CFG] else s.commitRefused .XLT_ERR 0)) ∧
    (∃ (s : State), s.expertOpen 0 Reg.QPE_COMMIT.addr) ∧
    (∃ (s : State), s.expertOpen 0 Reg.RTR_COMMIT.addr) ∧
    (∃ (s : State), s.expertOpen 0 Reg.COL_COMMIT.addr) ∧
    (∃ (s : State) (die : Nat), s.expertOpen 0 (Reg.TRN_COMMIT die).addr) ∧
    (∃ (s : State), s.expertOpen 0 Reg.PLC_COMMIT.addr) ∧
    (∃ (s : State), s.expertOpen 0 Reg.SCH_COMMIT.addr) ∧
    (∃ (s : State) (g : Nat), g < 8 ∧ s.expertOpen 0 (Reg.LNK_COMMIT g).addr) ∧
    (∃ (s : State), s.expertOpen 0 Reg.VRT_COMMIT.addr) ∧
    (∃ (s : State), s.expertOpen 0 Reg.HIF_COMMIT.addr) ∧
    (∃ (s : State), s.expertOpen 0 Reg.PWR_COMMIT.addr) ∧
    (∃ (s : State), s.expertOpen 0 Reg.MEM_COMMIT.addr) ∧
    (∃ (s : State), s.expertOpen 0 Reg.DBG_COMMIT.addr) :=
  ⟨⟨unlocked up, _, ⟨by decide +kernel, by decide +kernel, rfl, by decide +kernel⟩, rfl⟩,
   ⟨unlocked up, ⟨by decide +kernel, by decide +kernel, rfl, by decide +kernel⟩⟩,
   ⟨unlocked up, ⟨by decide +kernel, by decide +kernel, rfl, by decide +kernel⟩⟩,
   ⟨unlocked up, ⟨by decide +kernel, by decide +kernel, rfl, by decide +kernel⟩⟩,
   ⟨unlocked up, 1, ⟨by decide +kernel, by decide +kernel, rfl, by decide +kernel⟩⟩,
   ⟨unlocked up, ⟨by decide +kernel, by decide +kernel, rfl, by decide +kernel⟩⟩,
   ⟨unlocked up, ⟨by decide +kernel, by decide +kernel, rfl, by decide +kernel⟩⟩,
   ⟨unlocked up, 7, by decide +kernel, ⟨by decide +kernel, by decide +kernel, rfl, by decide +kernel⟩⟩,
   ⟨unlocked up, ⟨by decide +kernel, by decide +kernel, rfl, by decide +kernel⟩⟩,
   ⟨unlocked up, ⟨by decide +kernel, by decide +kernel, rfl, by decide +kernel⟩⟩,
   ⟨unlocked up, ⟨by decide +kernel, by decide +kernel, rfl, by decide +kernel⟩⟩,
   ⟨unlocked up, ⟨by decide +kernel, by decide +kernel, rfl, by decide +kernel⟩⟩,
   ⟨unlocked up, ⟨by decide +kernel, by decide +kernel, rfl, by decide +kernel⟩⟩⟩

/-- The hypotheses of `Obligations.ExpertWritesAreGuardedAndTakeEffect` are met, clause by clause. -/
theorem meets_ExpertWritesAreGuardedAndTakeEffect :
    (∃ (i : Instr) (s : State) (fn : Nat) (a : Nat) (n : Nat), expertRow i = some (fn, a, n) ∧ s.pwr.off = false ∧ s.barAnswers a = false) ∧
    (∃ (i : Instr) (s : State) (fn : Nat) (a : Nat) (n : Nat), expertRow i = some (fn, a, n) ∧ s.pwr.off = false ∧ s.barAnswers a = true ∧
      fn = 0 ∧ s.unlockedAt a = false) ∧
    (∃ (i : Instr) (s : State) (fn : Nat) (a : Nat) (n : Nat), expertRow i = some (fn, a, n) ∧ s.pwr.off = false ∧ s.barAnswers a = true ∧
      fn ≠ 0 ∧ shownTo fn a = true) ∧
    (∃ (i : Instr) (s : State) (fn : Nat) (a : Nat) (n : Nat), expertRow i = some (fn, a, n) ∧ s.pwr.off = false ∧ fn ≠ 0 ∧ shownTo fn a =
      false) ∧
    (∃ (s : State), s.expertOpen 0 Reg.RTR_CTRL.addr) ∧
    (∃ (s : State) (value : Nat), s.expertOpen 0 Reg.MEM_INJECT_CTRL.addr ∧ value % 4 ≠ 0 ∧ bit value 31 = true) ∧
    (∃ (s : State) (value : Nat), s.expertOpen 0 Reg.MEM_INJECT_CTRL.addr ∧ value % 4 = 0) ∧
    (∃ (s : State) (value : Nat), s.expertOpen 0 Reg.MEM_INJECT_CTRL.addr ∧ value % 4 ≠ 0 ∧ bit value 31 = false) ∧
    (∃ (s : State) (value : Nat), s.expertOpen 0 Reg.PWR_ELS_CTRL.addr ∧ (s.bay 0).latched = false ∧ (s.bay 1).latched = false ∧ value &&&
      0x30 = 0) ∧
    (∃ (s : State) (value : Nat) (x : Bay), s.expertOpen 0 Reg.PWR_ELS_CTRL.addr ∧ s.bay 0 = x ∧ x.latched = true ∧ (s.bay 1).latched =
      false ∧ value % 2 = 1 ∧ value &&& 0x30 = 0) ∧
    (∃ (s : State) (u : State) (value : Nat), s.expertOpen 0 Reg.PWR_ELS_CTRL.addr ∧ value &&& 0x30 = 0x30 ∧ u = (s.setReg .PWR_ELS_CTRL
      0x30).bayOff 0 ∧ u.bayDisabled 1 = true) ∧
    (∃ (s : State) (t : State) (g : Nat) (value : Nat), g < 8 ∧ s.expertOpen 0 (Reg.LNK_GCTL g).addr ∧ bit value 28 = false ∧ s.groupEnabled
      g = true ∧ t = s.setReg (.LNK_GCTL g) (BitVec.ofNat 64 (bits value 30 29 * 2 ^ 29 + bits value 23 0)) ∧ t.groupEnabled g = false) ∧
    (∃ (s : State) (t : State) (g : Nat) (value : Nat), g < 8 ∧ s.expertOpen 0 (Reg.LNK_GCTL g).addr ∧ bit value 28 = false ∧ s.groupEnabled
      g = false ∧ t = s.setReg (.LNK_GCTL g) (BitVec.ofNat 64 (2 ^ 31 + bits value 30 29 * 2 ^ 29 + bits value 23 0)) ∧ t.groupEnabled g =
      true) ∧
    (∃ (s : State) (t : State) (g : Nat) (value : Nat), g < 8 ∧ s.expertOpen 0 (Reg.LNK_GCTL g).addr ∧ t = ((List.range 8).foldl (fun (s :
      State) j => s.linkLeave g j 0x0A) (s.setReg (.LNK_GCTL g) (BitVec.ofNat 64 (bits value 31 29 * 2 ^ 29 + bits value 23 0)))).lpiLeft g
      ∧ t.groupEnabled g = s.groupEnabled g) ∧
    (∃ (s : State) (t : State) (g : Nat) (value : Nat), g < 8 ∧ s.expertOpen 0 (Reg.LNK_GCTL g).addr ∧ bit value 28 = false ∧ t = s.setReg
      (.LNK_GCTL g) (BitVec.ofNat 64 (bits value 31 29 * 2 ^ 29 + bits value 23 0)) ∧ t.groupEnabled g = s.groupEnabled g) ∧
    (∃ (s : State) (g : Nat) (j : Nat), g < 8 ∧ j < 8 ∧ s.expertOpen 0 (Reg.LNK_LCTL g j).addr ∧ s.linkDisabled g j = false ∧ (s.setReg
      (.LNK_LCTL g j) 2).linkDisabled g j = true) ∧
    (∃ (s : State) (g : Nat) (j : Nat), g < 8 ∧ j < 8 ∧ s.expertOpen 0 (Reg.LNK_LCTL g j).addr ∧ s.linkDisabled g j = true ∧ (s.setReg
      (.LNK_LCTL g j) 0).linkDisabled g j = false) ∧
    (∃ (s : State) (t : State) (g : Nat) (j : Nat) (value : Nat), g < 8 ∧ j < 8 ∧ s.expertOpen 0 (Reg.LNK_LCTL g j).addr ∧ t = (s.setReg
      (.LNK_LCTL g j) (BitVec.ofNat 64 (bits value 1 1 * 2))).linkLeave g j 0x0A ∧ t.linkDisabled g j = s.linkDisabled g j) ∧
    (∃ (s : State) (g : Nat) (value : Nat), g < 8 ∧ s.expertOpen 0 (Reg.LNK_TX_THRESHOLD g).addr ∧ 128 ≤ value ∧ value ≤ 4352) :=
  ⟨⟨.xltCommit 0, State.reset, 0, _, 4, rfl, by decide +kernel, by decide +kernel⟩,
   ⟨.lnkLinkRetrain 0 7 7 0, up, 0, _, 4, rfl, by and_intros <;> decide +kernel⟩,
   ⟨.hifCommit 1, up, 1, _, 4, rfl, by and_intros <;> decide +kernel⟩,
   ⟨.xltCommit 1, up, 1, _, 4, rfl, by and_intros <;> decide +kernel⟩,
   ⟨unlocked up, ⟨by decide +kernel, by decide +kernel, rfl, by decide +kernel⟩⟩,
   ⟨unlocked up, 0x80000003, ⟨by decide +kernel, by decide +kernel, rfl, by decide +kernel⟩, by decide +kernel, by decide +kernel⟩,
   ⟨unlocked up, 0x80000004, ⟨by decide +kernel, by decide +kernel, rfl, by decide +kernel⟩, by decide +kernel⟩,
   ⟨unlocked up, 3, ⟨by decide +kernel, by decide +kernel, rfl, by decide +kernel⟩, by decide +kernel, by decide +kernel⟩,
   ⟨unlocked up, 3, ⟨by decide +kernel, by decide +kernel, rfl, by decide +kernel⟩, by and_intros <;> decide +kernel⟩,
   ⟨unlocked bays, 1, _, ⟨by decide +kernel, by decide +kernel, rfl, by decide +kernel⟩, rfl, by and_intros <;> decide +kernel⟩,
   ⟨unlocked up, _, 0x30, ⟨by decide +kernel, by decide +kernel, rfl, by decide +kernel⟩, by decide +kernel, rfl, by decide +kernel⟩,
   ⟨(unlocked up).setReg (.LNK_GCTL 7) 0x80000000, _, 7, 0x60000005, by decide +kernel, ⟨by decide +kernel, by decide +kernel, rfl,
     by decide +kernel⟩, by decide +kernel, (by decide +kernel), rfl, by decide +kernel⟩,
   ⟨(unlocked up).setReg (.LNK_GCTL 7) 0, _, 7, 0xE0000005, by decide +kernel, ⟨by decide +kernel, by decide +kernel, rfl,
     by decide +kernel⟩, by decide +kernel, (by decide +kernel), rfl, by decide +kernel⟩,
   ⟨(unlocked up).setReg (.LNK_GCTL 7) 0x80000000, _, 7, 0x90000000, by decide +kernel, ⟨by decide +kernel, by decide +kernel, rfl,
     by decide +kernel⟩, rfl, by decide +kernel⟩,
   ⟨(unlocked up).setReg (.LNK_GCTL 7) 0x80000000, _, 7, 0x80000005, by decide +kernel, ⟨by decide +kernel, by decide +kernel, rfl,
     by decide +kernel⟩, by decide +kernel, rfl, by decide +kernel⟩,
   ⟨unlocked up, 7, 7, by decide +kernel, by decide +kernel, ⟨by decide +kernel, by decide +kernel, rfl, by decide +kernel⟩,
     by decide +kernel, by decide +kernel⟩,
   ⟨(unlocked up).setReg (.LNK_LCTL 7 7) 2, 7, 7, by decide +kernel, by decide +kernel, ⟨by decide +kernel, by decide +kernel, rfl,
     by decide +kernel⟩, by decide +kernel, by decide +kernel⟩,
   ⟨unlocked up, _, 7, 7, 0, by decide +kernel, by decide +kernel, ⟨by decide +kernel, by decide +kernel, rfl, by decide +kernel⟩, rfl,
     by decide +kernel⟩,
   ⟨unlocked up, 7, 4352, by decide +kernel, ⟨by decide +kernel, by decide +kernel, rfl, by decide +kernel⟩, by decide +kernel,
     by decide +kernel⟩⟩

/-- The hypotheses of `Obligations.TheEstimatorCapsPower` are met, clause by clause. -/
theorem meets_TheEstimatorCapsPower :
    (∃ (s : State) (u : State) (counts : List Nat) (window : List Nat) (raw : Nat) (pairs : Nat) (est : Nat), s.pwr.off = false ∧
      s.rawPower counts = (raw, pairs, u) ∧ est = u.pwr.gain * raw / (4096 * 1000000) ∧ u.comF .PWR_DOMAIN_CFG 2 2 = 0 ∧ u.pwr.tallow =
      none ∧ u.pwr.tallowW = 0 ∧ window = (est :: u.pwr.window).take (u.comF .PWR_LIMIT_CFG 19 16 * 1000) ∧ 1 ≤ u.comF .PWR_LIMIT_CFG 19
      16 ∧ meanOf window ≤ u.comF .PWR_LIMIT_CFG 10 0 ∧ est ≤ 1250) ∧
    (∃ (s : State) (u : State) (counts : List Nat) (window : List Nat) (raw : Nat) (pairs : Nat) (est : Nat) (ctrl : Nat) (e : Nat),
      s.pwr.off = false ∧ s.rawPower counts = (raw, pairs, u) ∧ est = u.pwr.gain * raw / (4096 * 1000000) ∧ ctrl = u.pwr.gain * pairs /
      (4096 * 1000000) ∧ u.comF .PWR_DOMAIN_CFG 2 2 = 0 ∧ window = (est :: u.pwr.window).take (u.comF .PWR_LIMIT_CFG 19 16 * 1000) ∧ e =
      max (meanOf window - u.comF .PWR_LIMIT_CFG 10 0) (est - 1250)) ∧
    (∃ (s : State) (u : State) (watts : Nat), s.pwr.off = false ∧ u =
      { s with svc := { s.svc with energy := (s.svc.energy + watts) % 36000, live := s.svc.live.set 21 (s.svc.live.getD 21 0 + (s.svc.energy + watts) / 36000) } }
      ∧ (s.pwr.rawN = 0 ∨ s.pwr.rawSum / s.pwr.rawN < 50000000)) ∧
    (∃ (s : State) (u : State) (watts : Nat) (mean : Nat) (ratio : Nat), s.pwr.off = false ∧ u =
      { s with svc := { s.svc with energy := (s.svc.energy + watts) % 36000, live := s.svc.live.set 21 (s.svc.live.getD 21 0 + (s.svc.energy + watts) / 36000) } }
      ∧ s.pwr.rawN ≠ 0 ∧ mean = s.pwr.rawSum / s.pwr.rawN ∧ 50000000 ≤ mean ∧ ratio = watts * 4096 * 1000000 / mean ∧ 3072 ≤ ratio ∧
      ratio ≤ 5120) :=
  ⟨⟨cool, _, List.replicate 14 0, _, _, _, _, by decide +kernel, prodEta, rfl, by decide +kernel, by decide +kernel, by decide +kernel, rfl,
  by and_intros <;> decide +kernel⟩,
   ⟨cool, _, List.replicate 14 0, _, _, _, _, _, _, by decide +kernel, prodEta, rfl, rfl, by decide +kernel, rfl, rfl⟩,
   ⟨up, _, 700, by decide +kernel, rfl, by decide +kernel⟩,
   ⟨{ up with pwr := { up.pwr with rawN := 1000, rawSum := 500000000000 } }, _, 500, _, _, by decide +kernel, rfl, by decide +kernel,
     rfl, by decide +kernel, rfl, by decide +kernel, by decide +kernel⟩⟩

/-- The hypotheses of `Obligations.PowerIsCommanded` are met, clause by clause. -/
theorem meets_PowerIsCommanded :
    (∃ (s : State) (p : Nat) (k : Nat) (c : Cmd) (b : State), Begins s p k 0x00C1 anySel anyAuth c b ∧ 300 ≤ c.arg 0 ∧ c.arg 0 ≤ 1100) ∧
    (∃ (s : State) (p : Nat) (k : Nat) (c : Cmd) (b : State), Begins s p k 0x00C0 anySel anyAuth c b ∧ 1 ≤ c.arg 0 ∧ c.arg 0 ≤ 4 ∧
      (c.arg 1 = 0 ∨ c.arg 1 ≤ b.hallTime)) ∧
    (∃ (s : State) (p : Nat) (k : Nat) (c : Cmd) (b : State), Begins s p k 0x00C0 anySel anyAuth c b ∧ 1 ≤ c.arg 0 ∧ c.arg 0 ≤ 4 ∧
      c.arg 1 ≠ 0 ∧ b.hallTime < c.arg 1 ∧ b.pwr.hints.length < 64) ∧
    (∃ (s : State) (p : Nat) (k : Nat) (c : Cmd) (b : State), Begins s p k 0x00C0 anySel anyAuth c b ∧ 1 ≤ c.arg 0 ∧ c.arg 0 ≤ 4 ∧
      c.arg 1 ≠ 0 ∧ b.hallTime < c.arg 1 ∧ 64 ≤ b.pwr.hints.length) ∧
    (∃ (s : State) (h : Nat) (at_ : Nat), s.pwr.off = false ∧ s.pwr.hints = [(h, at_)] ∧ at_ ≤ s.hallTime) ∧
    (∃ (s : State) (d : Nat), s.pwr.off = false ∧ s.domOn d = true ∧ d < 80 ∧ s.domIdle d = true) ∧
    (∃ (s : State) (d : Nat) (begun : Nat) (ds : List Nat), s.pwr.off = false ∧ s.pwr.wakeQueue = d :: ds ∧ begun = (if s.pwr.wakes.1 =
      s.now / 1000 then s.pwr.wakes.2 else 0) ∧ begun < s.comF .PWR_DOMAIN_CFG 7 4) ∧
    (∃ (s : State) (d : Nat), s.pwr.off = false ∧ s.pwr.waking.contains d = true ∧ (d < 64 ∨ 76 ≤ d)) ∧
    (∃ (s : State) (g : Nat), s.pwr.off = false ∧ s.pwr.waking.contains (64 + g) = true ∧ g < 8) ∧
    (∃ (s : State) (p : Nat), s.pwr.off = false ∧ s.pwr.waking.contains (72 + p) = true ∧ p < 4 ∧ (s.port p).perst = false) ∧
    (∃ (s : State) (die : Nat) (n : Nat), s.pwr.off = false ∧ die < 4 ∧ s.pwr.droopSkip.contains die = false ∧ n = (if (SMap.getD
      s.pwr.droops die (0, 0)).1 = s.now / 1000000 then (SMap.getD s.pwr.droops die (0, 0)).2 + 1 else 1) ∧ n ≠ 257) ∧
    (∃ (s : State) (die : Nat), s.pwr.off = false ∧ die < 2 ∧ SMap.getD s.pwr.droops die (0, 0) = (s.now / 1000000, 256) ∧
      s.pwr.droopSkip.contains die = true ∧ s.pwr.drooped.contains die = false) ∧
    (∃ (s : State), s.pwr.off = false) :=
  ⟨⟨given up (cmdOf 0x00C1 [300]), 0, 0, cmdOf 0x00C1 [300], _, ready (by decide +kernel), by decide +kernel, by decide +kernel⟩,
   ⟨given up (cmdOf 0x00C0 [4, 0]), 0, 0, cmdOf 0x00C0 [4, 0], _, ready (by decide +kernel), by and_intros <;> decide +kernel⟩,
   ⟨given up (cmdOf 0x00C0 [1, 1]), 0, 0, cmdOf 0x00C0 [1, 1], _, ready (by decide +kernel), by and_intros <;> decide +kernel⟩,
   ⟨given ({ up with pwr := { up.pwr with hints := List.replicate 64 (1, 5) } }) (cmdOf 0x00C0 [1, 1]), 0, 0, cmdOf 0x00C0 [1, 1], _,
     ready (by decide +kernel), by and_intros <;> decide +kernel⟩,
   ⟨{ up with pwr := { up.pwr with hints := [(1, 0)] } }, 1, 0, by and_intros <;> decide +kernel⟩,
   ⟨up, 63, by and_intros <;> decide +kernel⟩,
   ⟨{ up with pwr := { up.pwr with wakeQueue := [5] } }, 5, _, [], by decide +kernel, by decide +kernel, rfl, by decide +kernel⟩,
   ⟨{ up with pwr := { up.pwr with waking := [79] } }, 79, by and_intros <;> decide +kernel⟩,
   ⟨{ up with pwr := { up.pwr with waking := [71] } }, 7, by and_intros <;> decide +kernel⟩,
   ⟨{ up with pwr := { up.pwr with waking := [75] } }, 3, by and_intros <;> decide +kernel⟩,
   ⟨up, 3, 1, by and_intros <;> decide +kernel⟩,
   ⟨{ up with pwr := { up.pwr with droops := [(1, (0, 256))], droopSkip := [1] } }, 1, by and_intros <;> decide +kernel⟩,
   ⟨up, by decide +kernel⟩⟩

/-- The hypotheses of `Obligations.TemperatureAndSupplyAreWatched` are met, clause by clause. -/
theorem meets_TemperatureAndSupplyAreWatched :
    (∃ (th : Nat → Int) (k : Nat) (t : Int), 1 ≤ k ∧ k ≤ 3 ∧ th 1 ≤ th 2 ∧ th 2 ≤ th 3 ∧ th k ≤ t) ∧
    (∃ (th : Nat → Int) (old : Nat) (t : Int), old ≤ 3 ∧ th 1 ≤ th 2 ∧ th 2 ≤ th 3 ∧ t < th 1 ∧ (old ≠ 0 → th old - 40 < t)) ∧
    (∃ (th : Nat → Int) (t : Int), th 1 ≤ th 2 ∧ th 2 ≤ th 3 ∧ t ≤ th 1 - 40) ∧
    (∃ (s : State) (t : State) (temps : List Int), s.pwr.off = false ∧ (s.now - 100000) / 1000000000 = s.now / 1000000000 ∧ s.sensorsTake
      temps = t ∧ (∀ e ∈ t.pwr.sensors, e.2.level = 3 → 50 ≤ e.1 ∧ e.1 < 66)) ∧
    (∃ (s : State) (t : State) (temps : List Int), s.pwr.off = false ∧ (s.now - 100000) / 1000000000 < s.now / 1000000000 ∧ s.sensorsTake
      temps = t ∧ (∀ e ∈ t.histograms.pwr.sensors, e.2.level = 3 → 50 ≤ e.1 ∧ e.1 < 66)) ∧
    (∃ (s : State) (t : State) (temps : List Int) (i : Nat) (x : Sensor) (rest : SMap Sensor), s.pwr.off = false ∧ (s.now - 100000) /
      1000000000 = s.now / 1000000000 ∧ s.sensorsTake temps = t ∧ t.pwr.sensors = (i, x) :: rest ∧ x.level = 3 ∧ (i < 50 ∨ 66 ≤ i)) ∧
    (∃ (s : State) (die : Nat), s.pwr.off = false ∧ die < 2 ∧ s.pwr.relock.contains die = false ∧ s.point die < 7 ∧ s.downCause die =
      true) ∧
    (∃ (s : State) (die : Nat), s.pwr.off = false ∧ die < 2 ∧ s.pwr.relock.contains die = false ∧ s.downCause die = false ∧ s.fastest die
      < s.point die) ∧
    (∃ (s : State), s.pwr.off = false) ∧
    (∃ (s : State) (g : Nat), s.pwr.off = false ∧ s.pwr.hot.contains g = true ∧ s.temp (50 + 2 * g) < s.threshold (50 + 2 * g) 1 ∧ s.temp
      (51 + 2 * g) < s.threshold (51 + 2 * g) 1) ∧
    (∃ (s : State) (b : Nat), s.pwr.off = false ∧ b < 2 ∧ (s.bay b).present = false) ∧
    (∃ (s : State) (b : Nat) (x : Bay), s.pwr.off = false ∧ s.bay b = x ∧ x.present = true ∧ x.ramping = false ∧ x.powered = false ∧
      x.latched = false ∧ s.bayDisabled b = false) ∧
    (∃ (s : State) (b : Nat) (x : Bay), s.pwr.off = false ∧ s.bay b = x ∧ x.ramping = true) ∧
    (∃ (s : State) (t : State) (b : Nat), s.pwr.off = false ∧ ((s.bay b).ramping = true ∨ (s.bay b).powered = true) ∧ s.bayDisabled b =
      false ∧ t = s.bayOff b) ∧
    (∃ (s : State) (t : State) (b : Nat), s.pwr.off = false ∧ b < 2 ∧ t = (s.setBay b { s.bay b with present := false }).bayOff b ∧
      t.pwr.off = false) ∧
    (∃ (s : State) (b : Nat), s.pwr.off = false ∧ (s.bay b).present = false ∧ s.bayDisabled b = false) ∧
    (∃ (s : State), s.pwr.off = false) ∧
    (∃ (s : State) (u : State), s.pwr.off = false ∧ u = (s.setPwr { s.pwr with lost := true }).finish ∧ u.pwr.off = false) ∧
    (∃ (s : State), s.pwr.off = false ∧ s.pwr.lost = false) ∧
    (∃ (s : State), s.pwr.off = true ∧ s.pwr.lost = true) ∧
    (∃ (s : State), s.pwr.off = true ∧ s.pwr.lost = false ∧ s.pwr.offAt + 100000000 ≤ s.now ∧ s.pwr.goodAt + 100000000 ≤ s.now ∧
      (s.pwr.woken = true ∨ s.pwr.cause < 3)) ∧
    (∃ (s : State), s.pwr.off = true ∧ s.pwr.lost = false ∧ s.pwr.offAt + 100000000 ≤ s.now ∧ s.pwr.goodAt + 100000000 ≤ s.now ∧
      (s.pwr.woken = true ∨ s.pwr.cause < 3)) ∧
    (∃ (s : State), s.pwr.off = true ∧ s.pwr.lost = false ∧ s.pwr.offAt + 100000000 ≤ s.now ∧ s.pwr.goodAt + 100000000 ≤ s.now ∧
      (s.pwr.woken = true ∨ s.pwr.cause < 3)) ∧
    (∃ (s : State), s.pwr.off = true ∧ s.pwr.lost = false ∧ s.pwr.offAt + 100000000 ≤ s.now ∧ s.pwr.goodAt + 100000000 ≤ s.now ∧
      (s.pwr.woken = true ∨ s.pwr.cause < 3)) :=
  ⟨⟨fun k => 80 * k, 3, 240, by and_intros <;> decide +kernel⟩,
   ⟨fun k => 80 * k, 1, 79, by and_intros <;> decide +kernel⟩,
   ⟨fun k => 80 * k, 40, by and_intros <;> decide +kernel⟩,
   ⟨{ up with now := 100000 }, _, [50], by decide +kernel, by decide +kernel, rfl, by decide +kernel⟩,
   ⟨{ up with now := 1000000000 }, _, [50], by decide +kernel, by decide +kernel, rfl, by decide +kernel⟩,
   ⟨{ hot with now := 100000 }, _, [], 0, _, [], by decide +kernel, by decide +kernel, rfl, rfl, by decide +kernel, by decide +kernel⟩,
   ⟨{ up with pwr := { up.pwr with drooped := [1] } }, 1, by and_intros <;> decide +kernel⟩,
   ⟨{ up with pwr := { up.pwr with points := [(0, 7)] } }, 0, by and_intros <;> decide +kernel⟩,
   ⟨up, by decide +kernel⟩,
   ⟨{ up with pwr := { up.pwr with hot := [7] } }, 7, by and_intros <;> decide +kernel⟩,
   ⟨up, 1, by and_intros <;> decide +kernel⟩,
   ⟨bays, 1, _, by decide +kernel, rfl, by and_intros <;> decide +kernel⟩,
   ⟨{ bays with pwr := { bays.pwr with bays := [(1, { (default : Bay) with ramping := true })] } }, 1, _, by decide +kernel, rfl,
     by decide +kernel⟩,
   ⟨{ bays with pwr := { bays.pwr with bays := [(1, { (default : Bay) with powered := true })] } }, _, 1, by decide +kernel,
     by decide +kernel, by decide +kernel, rfl⟩,
   ⟨bays, _, 1, by decide +kernel, by decide +kernel, rfl, by decide +kernel⟩,
   ⟨up, 1, by and_intros <;> decide +kernel⟩,
   ⟨up, by decide +kernel⟩,
   ⟨up, _, by decide +kernel, rfl, by decide +kernel⟩,
   ⟨up, by decide +kernel, by decide +kernel⟩,
   ⟨{ up with pwr := { up.pwr with off := true, lost := true } }, by decide +kernel, by decide +kernel⟩,
   ⟨{ up with now := 100000000, pwr := { up.pwr with off := true, cause := 2 } }, by and_intros <;> decide +kernel⟩,
   ⟨{ up with now := 100000000, pwr := { up.pwr with off := true, cause := 2 } }, by and_intros <;> decide +kernel⟩,
   ⟨{ up with now := 100000000, pwr := { up.pwr with off := true, cause := 2 } }, by and_intros <;> decide +kernel⟩,
   ⟨{ up with now := 100000000, pwr := { up.pwr with off := true, cause := 2 } }, by and_intros <;> decide +kernel⟩⟩

/-- The hypotheses of `Obligations.TheModuleIsServiced` are met, clause by clause. -/
theorem meets_TheModuleIsServiced :
    (∃ (s : State) (p : Nat) (k : Nat) (c : Cmd) (b : State) (t : State), Begins s p k 0x00D0 anySel anyAuth c b ∧ c.arg 0 + c.arg 1 ≤
      1114112 ∧ b.admWrite p (c.arg 2) ((List.range (c.arg 1)).map fun i => b.lifeByte (c.arg 0 + i)) = (true, t)) ∧
    (∃ (s : State) (p : Nat) (k : Nat) (c : Cmd) (b : State), Begins s p k 0x00D0 anySel anyAuth c b ∧ 1114112 < c.arg 0 + c.arg 1) ∧
    (∃ (s : State), s.pwr.off = false ∧ s.cpRuns = true) ∧
    (∃ (s : State), s.pwr.off = false ∧ s.cpRuns = true) ∧
    (∃ (s : State), s.pwr.off = false ∧ s.cpRuns = false) ∧
    (∃ (s : State) (p : Nat) (k : Nat) (c : Cmd) (b : State) (t : State), Begins s p k 0x00D1 anySel anyAuth c b ∧ 1 ≤ c.arg 0 ∧ c.arg 0 ≤ 9
      ∧ c.arg 1 ≤ calSize (c.arg 0) ∧ b.admWrite p (c.arg 2) (slice (SMap.getD b.svc.cal (c.arg 0) []) 0 (c.arg 1)) = (true, t)) ∧
    (∃ (s : State) (p : Nat) (k : Nat) (c : Cmd) (c' : Cmd) (b : State) (t : State) (v : Bytes), Begins s p k 0x00D2 anySel anyAuth c b ∧
      c.stage = 0 ∧ 1 ≤ c.arg 0 ∧ c.arg 0 ≤ 9 ∧ c.arg 2 = calSize (c.arg 0) ∧ c.arg 1 = 0x43414C57 ∧ b.admRead p k c.begun (c.arg 3) (c.arg
      2) = (some (some v), c', t) ∧ calValid (c.arg 0) v = true) ∧
    (∃ (s : State) (p : Nat) (k : Nat) (item : Nat) (n : Nat) (v : Bytes) (t : State), s.pwr.off = false ∧ s.cpRuns = true ∧ s.svc.job =
      some (.cal p k item v) ∧ n = (SMap.getD s.svc.calInfo item (0, 0)).1 + 1 ∧ t =
      { s with svc := { s.svc with job := none, cal := SMap.put s.svc.cal item v, calInfo := SMap.put s.svc.calInfo item (n, s.hallTime) } }) ∧
    (∃ (s : State) (p : Nat) (k : Nat) (c : Cmd) (b : State), Begins s p k 0x00D3 anySel anyAuth c b ∧ c.arg 0 < 8 ∧ b.hasCap capDebugOpen =
      true ∧ tapFits (c.arg 0) (c.arg 1) (b.comF (.DBG_MUX (c.arg 0)) 19 16) = true) ∧
    (∃ (s : State) (p : Nat) (k : Nat) (c : Cmd) (b : State), Begins s p k 0x00D3 anySel anyAuth c b ∧ c.arg 0 = 0xFF ∧ b.hasCap
      capDebugOpen = true ∧ tapFits 8 (c.arg 1) (b.comF (.DBG_MUX 8) 19 16) = true) ∧
    (∃ (s : State) (p : Nat) (k : Nat) (c : Cmd) (b : State), Begins s p k 0x00D3 anySel anyAuth c b ∧ c.arg 0 < 8 ∧ b.hasCap capDebugOpen =
      false) ∧
    (∃ (s : State) (ms : Nat), s.pwr.off = false ∧ ms < 2000) ∧
    (∃ (s : State), s.pwr.off = false) ∧
    (∃ (s : State), s.cpRuns = true) ∧
    (∃ (s : State), s.cpRuns = false) :=
  ⟨⟨given ((cached up)) (cmdOf 0x00D0 [1114111, 1, 0x40000000]), 0, 0, cmdOf 0x00D0 [1114111, 1, 0x40000000], _, _, ready
     (by decide +kernel), by decide +kernel, pairSnd (by decide +kernel)⟩,
   ⟨given up (cmdOf 0x00D0 [1114112, 1, 0]), 0, 0, cmdOf 0x00D0 [1114112, 1, 0], _, ready (by decide +kernel), by decide +kernel⟩,
   ⟨up, by decide +kernel, by decide +kernel⟩,
   ⟨up, by decide +kernel, by decide +kernel⟩,
   ⟨{ up with boot := { up.boot with cpHalted := true } }, by decide +kernel, by decide +kernel⟩,
   ⟨given ((cached up)) (cmdOf 0x00D1 [9, 2048, 0x40000000]), 0, 0, cmdOf 0x00D1 [9, 2048, 0x40000000], _, _, ready (by decide +kernel),
     by decide +kernel, by decide +kernel, by decide +kernel, pairSnd (by decide +kernel)⟩,
   ⟨given ((cached up)) (cmdOf 0x00D2 [7, 0x43414C57, 136, 0x40000000]), 0, 0, cmdOf 0x00D2 [7, 0x43414C57, 136, 0x40000000], _, _, _, zeros
     136, ready (by decide +kernel), by decide +kernel, (by decide +kernel), by decide +kernel, (by decide +kernel), by decide +kernel,
     tripleSnd (by decide +kernel), by decide +kernel⟩,
   ⟨{ up with svc := { up.svc with job := some (.cal 0 0 4 (zeros 8)) } }, 0, 0, 4, _, zeros 8, _, by decide +kernel, by decide +kernel,
     by decide +kernel, rfl, rfl⟩,
   ⟨given ({ up with variant := .sample }) (cmdOf 0x00D3 [7, 0x3307]), 0, 0, cmdOf 0x00D3 [7, 0x3307], _, ready (by decide +kernel),
     by and_intros <;> decide +kernel⟩,
   ⟨given ({ up with variant := .sample }) (cmdOf 0x00D3 [255, 0]), 0, 0, cmdOf 0x00D3 [255, 0], _, ready (by decide +kernel),
     by and_intros <;> decide +kernel⟩,
   ⟨given up (cmdOf 0x00D3 [0, 0]), 0, 0, cmdOf 0x00D3 [0, 0], _, ready (by decide +kernel), by decide +kernel, by decide +kernel⟩,
   ⟨up, 1999, by decide +kernel, by decide +kernel⟩,
   ⟨up, by decide +kernel⟩,
   ⟨up, by decide +kernel⟩,
   ⟨{ up with boot := { up.boot with cpHalted := true } }, by decide +kernel⟩⟩

/-- The hypotheses of `Obligations.TheBmcIsAnswered` are met, clause by clause. -/
theorem meets_TheBmcIsAnswered :
    (∃ (s : State), s.pwr.off = false ∧ s.recovery = false ∧ s.cpRuns = true) ∧
    (∃ (s : State) (typ : Nat), s.pwr.off = false ∧ s.recovery = false ∧ s.cpRuns = true ∧ typ ∈ [0, 2, 5]) ∧
    (∃ (s : State), s.pwr.off = false ∧ s.recovery = false ∧ s.cpRuns = true) ∧
    (∃ (s : State) (typ : Nat), s.pwr.off = false ∧ s.recovery = false ∧ s.cpRuns = true ∧ typ ∈ [0, 2, 5]) ∧
    (∃ (s : State), s.pwr.off = false ∧ s.recovery = false ∧ s.cpRuns = true) ∧
    (∃ (s : State), s.pwr.off = false ∧ s.recovery = false ∧ s.cpRuns = true) ∧
    (∃ (s : State) (i : Nat), s.pwr.off = false ∧ s.recovery = false ∧ s.cpRuns = true ∧ i < 68) ∧
    (∃ (s : State), s.pwr.off = false ∧ s.recovery = false ∧ s.cpRuns = true) ∧
    (∃ (s : State), s.pwr.off = false ∧ s.recovery = false ∧ s.cpRuns = true) ∧
    (∃ (s : State), s.pwr.off = false ∧ s.recovery = false ∧ s.cpRuns = true) ∧
    (∃ (s : State), s.pwr.off = false ∧ s.recovery = false ∧ s.cpRuns = true) ∧
    (∃ (s : State), s.pwr.off = false ∧ s.recovery = false ∧ s.cpRuns = true) ∧
    (∃ (s : State), s.pwr.off = false ∧ s.recovery = false ∧ s.cpRuns = true) ∧
    (∃ (s : State) (w : Nat), s.pwr.off = false ∧ s.recovery = false ∧ s.cpRuns = true ∧ 300 ≤ w ∧ w ≤ 1100) ∧
    (∃ (s : State), s.pwr.off = false ∧ s.recovery = false ∧ s.cpRuns = true) ∧
    (∃ (s : State) (typ : Nat) (cmd : Nat), s.pwr.off = false ∧ s.recovery = false ∧ s.cpRuns = true ∧ cmd ∉ pldmCommands typ) ∧
    (∃ (s : State), s.pwr.off = false ∧ s.recovery = false) ∧
    (∃ (s : State), s.pwr.off = false ∧ s.recovery = false) ∧
    (∃ (s : State), s.pwr.off = false ∧ s.recovery = false) ∧
    (∃ (s : State), s.pwr.off = true ∧ s.recovery = false ∧ (s.pwr.cause = 3 ∨ s.pwr.cause = 4)) :=
  ⟨⟨up, by and_intros <;> decide +kernel⟩,
   ⟨up, 5, by and_intros <;> decide +kernel⟩,
   ⟨up, by and_intros <;> decide +kernel⟩,
   ⟨up, 5, by and_intros <;> decide +kernel⟩,
   ⟨up, by and_intros <;> decide +kernel⟩,
   ⟨up, by and_intros <;> decide +kernel⟩,
   ⟨up, 67, by and_intros <;> decide +kernel⟩,
   ⟨up, by and_intros <;> decide +kernel⟩,
   ⟨up, by and_intros <;> decide +kernel⟩,
   ⟨up, by and_intros <;> decide +kernel⟩,
   ⟨up, by and_intros <;> decide +kernel⟩,
   ⟨up, by and_intros <;> decide +kernel⟩,
   ⟨up, by and_intros <;> decide +kernel⟩,
   ⟨up, 300, by and_intros <;> decide +kernel⟩,
   ⟨up, by and_intros <;> decide +kernel⟩,
   ⟨up, 2, 0xFF, by and_intros <;> decide +kernel⟩,
   ⟨up, by decide +kernel, by decide +kernel⟩,
   ⟨up, by decide +kernel, by decide +kernel⟩,
   ⟨up, by decide +kernel, by decide +kernel⟩,
   ⟨{ up with pwr := { up.pwr with off := true, cause := 3 } }, by and_intros <;> decide +kernel⟩⟩

/-- The hypotheses of `Obligations.RecoveryUpdatesTheFirmware` are met, clause by clause. -/
theorem meets_RecoveryUpdatesTheFirmware :
    (∃ (s : State), s.pwr.off = false ∧ s.recovery = true ∧ s.svc.update ≤ 6) ∧
    (∃ (s : State), s.pwr.off = false ∧ s.recovery = true ∧ s.svc.update = 1) ∧
    (∃ (s : State), s.pwr.off = false ∧ s.recovery = true ∧ s.svc.update = 2) ∧
    (∃ (s : State), s.pwr.off = false ∧ s.recovery = true ∧ s.svc.update = 3) ∧
    (∃ (s : State), s.pwr.off = false ∧ s.recovery = true ∧ s.svc.update = 3) ∧
    (∃ (s : State), s.pwr.off = false ∧ s.recovery = true ∧ s.svc.update = 4) ∧
    (∃ (s : State), s.pwr.off = false ∧ s.recovery = true ∧ s.svc.update = 5) ∧
    (∃ (s : State) (burn : Bool) (t : State), s.pwr.off = false ∧ s.recovery = true ∧ s.svc.update = 6 ∧ t = State.loadFirmware
      (({ s with svc := { s.svc with update := 0, updateImage := [] } }).emit (.pldm 5 0x1A [0])) burn) ∧
    (∃ (s : State), s.pwr.off = false ∧ s.recovery = true) :=
  ⟨⟨recovering, by and_intros <;> decide +kernel⟩,
   ⟨{ recovering with svc := { recovering.svc with update := 1 } }, by and_intros <;> decide +kernel⟩,
   ⟨{ recovering with svc := { recovering.svc with update := 2 } }, by and_intros <;> decide +kernel⟩,
   ⟨{ recovering with svc := { recovering.svc with update := 3 } }, by and_intros <;> decide +kernel⟩,
   ⟨{ recovering with svc := { recovering.svc with update := 3 } }, by and_intros <;> decide +kernel⟩,
   ⟨{ recovering with svc := { recovering.svc with update := 4 } }, by and_intros <;> decide +kernel⟩,
   ⟨{ recovering with svc := { recovering.svc with update := 5 } }, by and_intros <;> decide +kernel⟩,
   ⟨{ recovering with svc := { recovering.svc with update := 6 } }, false, _, by decide +kernel, by decide +kernel, by decide +kernel, rfl⟩,
   ⟨recovering, by decide +kernel, by decide +kernel⟩⟩

/-- The hypotheses of `Obligations.TheModuleIsResetAndHalts` are met, clause by clause. -/
theorem meets_TheModuleIsResetAndHalts :
    (∃ (s : State), s.pwr.off = false) ∧
    (∃ (dies : Nat), (bit dies 0 = true ∨ bit dies 3 = true)) ∧
    (∃ (s : State), s.pwr.off = false) ∧
    (∃ (s : State), s.pwr.off = false) ∧
    (∃ (s : State), s.pwr.off = false) ∧
    (∃ (s : State), s.pwr.off = false) ∧
    (∃ (s : State), s.pwr.off = false ∧ (s.port 0).link ≠ 0) ∧
    (∃ (s : State) (p : Nat), s.pwr.off = false ∧ 1 ≤ p ∧ p < 4 ∧ (s.port p).link ≠ 0) ∧
    (∃ (s : State) (t : State) (p : Nat), s.pwr.off = false ∧ p < 4 ∧ (s.port p).perst = false ∧ (s.port p).link = 0 ∧ t = (s.setPort p
      { s.port p with perst := true, link := 0 }).domOff (domPort p)) ∧
    (∃ (s : State) (t : State) (p : Nat), s.pwr.off = false ∧ 1 ≤ p ∧ p < 4 ∧ (s.port p).perst = false ∧ (s.port p).link ≠ 0 ∧ t =
      (State.portLoss (s.setPort p { s.port p with perst := true, link := 0 }) p).domOff (domPort p) ∧ t.pwr.off = false) ∧
    (∃ (s : State) (t : State) (burn : Bool), s.pwr.off = false ∧ (s.port 0).perst = false ∧ (s.port 0).link ≠ 0 ∧ t = (State.moduleReset
      (s.setPort 0 { s.port 0 with perst := true, link := 0 }) true burn).domOff (domPort 0) ∧ t.pwr.off = false) ∧
    (∃ (s : State) (p : Nat), s.pwr.off = true ∧ p < 4 ∧ (s.port p).perst = false) ∧
    (∃ (s : State) (t : State) (p : Nat), s.pwr.off = false ∧ p < 4 ∧ bit s.boot.dies 3 = true ∧ t = (s.setPort p
      { s.port p with perst := false }).wakeDom (domPort p) ∧ t.pwr.off = false) ∧
    (∃ (s : State) (p : Nat), s.pwr.off = true ∧ p < 4) ∧
    (∃ (s : State) (t : State) (addr : Nat) (cause : Nat) (i : Instr), (i, cause) ∈ [(Instr.watchdogExpiry addr, 1), (.codeWrite addr,
      2), (.cpFault addr, 4)] ∧ s.pwr.off = false ∧ s.cpRuns = true ∧ t = s.elog elCpHalt 0 cause addr ∧ (t.boot.halts.filter fun h =>
      decide (t.now < h + 10000000000)).length < 2) ∧
    (∃ (s : State) (t : State) (addr : Nat) (cause : Nat) (i : Instr), (i, cause) ∈ [(Instr.watchdogExpiry addr, 1), (.codeWrite addr,
      2), (.cpFault addr, 4)] ∧ s.pwr.off = false ∧ s.cpRuns = true ∧ t = s.elog elCpHalt 0 cause addr ∧ 2 ≤ (t.boot.halts.filter fun h
      => decide (t.now < h + 10000000000)).length) ∧
    (∃ (s : State), s.pwr.off = false ∧ s.cpRuns = true) ∧
    (∃ (s : State), s.pwr.off = false ∧ s.boot.cpHalted = true ∧ s.boot.stuck = false ∧ s.cpRuns = false) ∧
    (∃ (s : State), s.pwr.off = false ∧ s.cpRuns = true ∧ s.boot.activating = true ∧ s.inProgress = []) :=
  ⟨⟨up, by decide +kernel⟩,
   ⟨8, by decide +kernel⟩,
   ⟨up, by decide +kernel⟩,
   ⟨up, by decide +kernel⟩,
   ⟨up, by decide +kernel⟩,
   ⟨up, by decide +kernel⟩,
   ⟨up, by decide +kernel, by decide +kernel⟩,
   ⟨up, 3, by and_intros <;> decide +kernel⟩,
   ⟨recovering, _, 3, by decide +kernel, (by decide +kernel), by decide +kernel, (by decide +kernel), rfl⟩,
   ⟨up, _, 3, by decide +kernel, (by decide +kernel), by decide +kernel, (by decide +kernel), by decide +kernel, rfl, by decide +kernel⟩,
   ⟨up, _, false, by decide +kernel, by decide +kernel, by decide +kernel, rfl, by decide +kernel⟩,
   ⟨{ up with pwr := { up.pwr with off := true } }, 3, by and_intros <;> decide +kernel⟩,
   ⟨up, _, 3, by decide +kernel, by decide +kernel, by decide +kernel, rfl, by decide +kernel⟩,
   ⟨{ up with pwr := { up.pwr with off := true } }, 3, by decide +kernel, by decide +kernel⟩,
   ⟨up, _, 9, 4, .cpFault 9, by decide +kernel, by decide +kernel, by decide +kernel, rfl, by decide +kernel⟩,
   ⟨halted, _, 9, 1, .watchdogExpiry 9, by decide +kernel, by decide +kernel, by decide +kernel, rfl, by decide +kernel⟩,
   ⟨up, by decide +kernel, by decide +kernel⟩,
   ⟨{ up with boot := { up.boot with cpHalted := true } }, by and_intros <;> decide +kernel⟩,
   ⟨{ up with boot := { up.boot with activating := true } }, by and_intros <;> decide +kernel⟩⟩

/-- The hypotheses of `Obligations.FirmwareIsStagedAndActivated` are met, clause by clause. -/
theorem meets_FirmwareIsStagedAndActivated :
    (∃ (s : State) (p : Nat) (k : Nat) (c : Cmd) (c' : Cmd) (b : State) (t : State) (i : Bytes), Begins s p k 0x00E0 anySel anyAuth c b ∧
      c.stage = 0 ∧ b.admRead p k c.begun (c.arg 1) (c.arg 0) = (some (some i), c', t)) ∧
    (∃ (s : State) (t : State) (p : Nat) (k : Nat) (b : Nat) (i : Bytes), s.pwr.off = false ∧ s.cpRuns = true ∧ s.svc.job = some (.stage p k
      b i) ∧ t = { s with svc := { s.svc with job := none } }) ∧
    (∃ (s : State) (t : State) (p : Nat) (k : Nat) (b : Nat) (i : Bytes), s.pwr.off = false ∧ s.cpRuns = true ∧ s.svc.job = some (.stage p k
      b i) ∧ t = { s with svc := { s.svc with job := none } }) ∧
    (∃ (s : State) (p : Nat) (k : Nat) (c : Cmd) (b : State) (n : Nat), Begins s p k 0x00E1 (fun ps => par ps 0 != 1) anyAuth c b ∧ c.arg 0
      = 0 ∧ b.stagedBank = some n) ∧
    (∃ (s : State) (p : Nat) (k : Nat) (c : Cmd) (b : State) (n : Nat), Begins s p k 0x00E1 (fun ps => par ps 0 == 1) anyAuth c b ∧
      b.stagedBank = some n) ∧
    (∃ (s : State) (p : Nat) (k : Nat) (c : Cmd) (b : State), Begins s p k 0x00E1 (fun ps => par ps 0 == 1) anyAuth c b ∧ b.stagedBank =
      none) :=
  ⟨⟨given ((cached up)) (cmdOf 0x00E0 [8, 0x40000000]), 0, 0, cmdOf 0x00E0 [8, 0x40000000], _, _, _, zeros 8, ready (by decide +kernel),
     by decide +kernel, tripleSnd (by decide +kernel)⟩,
   ⟨{ up with svc := { up.svc with job := some (.stage 0 0 1 [1]) } }, _, 0, 0, 1, [1], by decide +kernel, by decide +kernel,
     by decide +kernel, rfl⟩,
   ⟨{ up with svc := { up.svc with job := some (.stage 0 0 1 [1]) } }, _, 0, 0, 1, [1], by decide +kernel, by decide +kernel,
     by decide +kernel, rfl⟩,
   ⟨given staged (cmdOf 0x00E1 [0]), 0, 0, cmdOf 0x00E1 [0], _, 1, ready (by decide +kernel), by decide +kernel, by decide +kernel⟩,
   ⟨given staged (cmdOf 0x00E1 [1]), 0, 0, cmdOf 0x00E1 [1], _, 1, ready (by decide +kernel), by decide +kernel⟩,
   ⟨given up (cmdOf 0x00E1 [1]), 0, 0, cmdOf 0x00E1 [1], _, ready (by decide +kernel), by decide +kernel⟩⟩

/-- The hypotheses of `Obligations.JobDomainsAndMemoryAreTended` are met, clause by clause. -/
theorem meets_JobDomainsAndMemoryAreTended :
    (∃ (s : State) (p : Nat) (k : Nat) (partition : Nat) (n : Nat) (c : Cmd) (c' : Cmd) (b : State) (t : State) (d : Bytes) (ms : List
      Nat), Begins s p k 0x00F0 anySel anyAuth c b ∧ c.stage = 0 ∧ partition = c.arg 0 ∧ n = c.arg 1 ∧ partition ≠ 0 ∧ n ≠ 0 ∧ n ≤
      131072 ∧ b.partitionInUse partition = false ∧ b.admRead p k c.begun (c.arg 2) (4 * n) = (some (some d), c', t) ∧ ms = listOf d n ∧
      ms.eraseDups.length = ms.length ∧ ms.all t.inTorus = true ∧ ms.contains t.me = true ∧ t.jobs.domains.length < 64) ∧
    (∃ (s : State) (p : Nat) (k : Nat) (c : Cmd) (b : State) (d : Domain), Begins s p k 0x00F1 anySel anyAuth c b ∧ c.stage = 0 ∧
      (c.arg 1 = 0 ∨ 0x7F < c.arg 1) ∧ b.domain (c.arg 0) = some d ∧ d.waiting = none) ∧
    (∃ (s : State) (p : Nat) (k : Nat) (seq : Nat) (c : Cmd) (b : State) (t : State) (d : Domain), Begins s p k 0x00F2 anySel anyAuth c
      b ∧ c.stage = 0 ∧ b.domain (c.arg 0) = some d ∧ d.ready = true ∧ d.snap = none ∧ d.stopped = false ∧ d.fault = none ∧ seq = (2 *
      b.col.rooted + 2) % 2 ^ 32 ∧ t = (b.setCmd p k { c.begun with stage := 1 }).setDomain (c.arg 0) { d with snap := some (p, k) }) ∧
    (∃ (s : State) (t : State) (w : Nat), s.pwr.off = false ∧ w < 2 ^ 34 ∧ s.stackServes (stackOf (w * 32)) = true ∧ s.comF
      .MEM_SCRUB_CFG 31 31 = 1 ∧ t =
      { s with hbm := { s.hbm with scrubbing := setBits s.hbm.scrubbing (stackOf (w * 32)) (stackOf (w * 32)) (if w % 2 ^ 31 = 2 ^ 31 - 1 then 0 else 1) } }
      ∧ SMap.find s.hbm.ecc w = none) ∧
    (∃ (s : State) (t : State) (w : Nat), s.pwr.off = false ∧ w < 2 ^ 34 ∧ s.stackServes (stackOf (w * 32)) = true ∧ s.comF
      .MEM_SCRUB_CFG 31 31 = 1 ∧ t =
      { s with hbm := { s.hbm with scrubbing := setBits s.hbm.scrubbing (stackOf (w * 32)) (stackOf (w * 32)) (if w % 2 ^ 31 = 2 ^ 31 - 1 then 0 else 1) } }
      ∧ SMap.find s.hbm.ecc w = some .correctable) ∧
    (∃ (s : State) (t : State) (w : Nat), s.pwr.off = false ∧ w < 2 ^ 34 ∧ s.stackServes (stackOf (w * 32)) = true ∧ s.comF
      .MEM_SCRUB_CFG 31 31 = 1 ∧ t =
      { s with hbm := { s.hbm with scrubbing := setBits s.hbm.scrubbing (stackOf (w * 32)) (stackOf (w * 32)) (if w % 2 ^ 31 = 2 ^ 31 - 1 then 0 else 1) } }
      ∧ SMap.find s.hbm.ecc w = some .uncorrectable) ∧
    (∃ (s : State) (st : Nat), s.pwr.off = false ∧ st < 8) :=
  ⟨⟨given (cached groups) (cmdOf 0x00F0 [30, 2, 0x40000000]), 0, 0, _, _, cmdOf 0x00F0 [30, 2, 0x40000000], _, _, _, [0, 0, 0, 0, 1, 0, 0,
  0], _, ready (by decide +kernel), by decide +kernel, rfl, rfl, by decide +kernel, (by decide +kernel), by decide +kernel,
  (by decide +kernel), tripleSnd (by decide +kernel), rfl, by and_intros <;> decide +kernel⟩,
   ⟨given groups (cmdOf 0x00F1 [20, 128]), 0, 0, cmdOf 0x00F1 [20, 128], _, _, ready (by decide +kernel), by decide +kernel,
     by decide +kernel, someGetD (by decide +kernel), by decide +kernel⟩,
   ⟨given groups (cmdOf 0x00F2 [20]), 0, 0, _, cmdOf 0x00F2 [20], _, _, _, ready (by decide +kernel), by decide +kernel, someGetD
     (by decide +kernel), by decide +kernel, (by decide +kernel), by decide +kernel, (by decide +kernel), rfl, rfl⟩,
   ⟨scrubs, _, 7, by decide +kernel, (by decide +kernel), by decide +kernel, (by decide +kernel), rfl, by decide +kernel⟩,
   ⟨scrubs, _, 8, by decide +kernel, (by decide +kernel), by decide +kernel, (by decide +kernel), rfl, by decide +kernel⟩,
   ⟨scrubs, _, 9, by decide +kernel, (by decide +kernel), by decide +kernel, (by decide +kernel), rfl, by decide +kernel⟩,
   ⟨up, 7, by decide +kernel, by decide +kernel⟩⟩

/-- The hypotheses of `Obligations.FramesAreJudged` are met, clause by clause. -/
theorem meets_FramesAreJudged :
    (∃ (s : State) (v : State) (g : Nat) (j : Nat) (data : Bytes) (body : Bytes), s.pwr.off = false ∧ (s.link g j).state ≠ .off ∧ (s.link g
      j).state ≠ .down ∧ body = data.take (data.length - 4) ∧ v = s.frameSeen g j data ∧ data.length < 64) ∧
    (∃ (s : State) (v : State) (g : Nat) (j : Nat) (data : Bytes) (body : Bytes), s.pwr.off = false ∧ (s.link g j).state ≠ .off ∧ (s.link g
      j).state ≠ .down ∧ body = data.take (data.length - 4) ∧ v = s.frameSeen g j data ∧ 4224 < data.length) ∧
    (∃ (s : State) (v : State) (g : Nat) (j : Nat) (data : Bytes) (body : Bytes) (ok : Bool), s.pwr.off = false ∧ (s.link g j).state ≠ .off
      ∧ (s.link g j).state ≠ .down ∧ body = data.take (data.length - 4) ∧ v = s.frameSeen g j data ∧ 64 ≤ data.length ∧ data.length ≤ 4224 ∧
      ok = true ∧ data.drop (data.length - 4) = frameCheck body true) ∧
    (∃ (s : State) (v : State) (g : Nat) (j : Nat) (data : Bytes) (body : Bytes) (ok : Bool), s.pwr.off = false ∧ (s.link g j).state ≠ .off
      ∧ (s.link g j).state ≠ .down ∧ body = data.take (data.length - 4) ∧ v = s.frameSeen g j data ∧ 64 ≤ data.length ∧ data.length ≤ 4224 ∧
      (ok = false ∨ (data.drop (data.length - 4) ≠ frameCheck body true ∧ data.drop (data.length - 4) ≠ frameCheck body false))) ∧
    (∃ (s : State) (v : State) (g : Nat) (j : Nat) (data : Bytes) (body : Bytes) (ok : Bool) (typ : Nat) (u : State), s.pwr.off = false ∧
      (s.link g j).state ≠ .off ∧ (s.link g j).state ≠ .down ∧ body = data.take (data.length - 4) ∧ v = s.frameSeen g j data ∧ 64 ≤
      data.length ∧ data.length ≤ 4224 ∧ ok = true ∧ data.drop (data.length - 4) ≠ frameCheck body true ∧ data.drop (data.length - 4) =
      frameCheck body false ∧ typ = beNat (slice data 12 2) ∧ u = (v.lcount g j 0 1).lcount g j 1 data.length ∧ typ = 0x8808) ∧
    (∃ (s : State) (v : State) (g : Nat) (j : Nat) (data : Bytes) (body : Bytes) (ok : Bool) (typ : Nat) (u : State), s.pwr.off = false ∧
      (s.link g j).state ≠ .off ∧ (s.link g j).state ≠ .down ∧ body = data.take (data.length - 4) ∧ v = s.frameSeen g j data ∧ 64 ≤
      data.length ∧ data.length ≤ 4224 ∧ ok = true ∧ data.drop (data.length - 4) ≠ frameCheck body true ∧ data.drop (data.length - 4) =
      frameCheck body false ∧ typ = beNat (slice data 12 2) ∧ u = (v.lcount g j 0 1).lcount g j 1 data.length ∧ typ = 0x88F7) ∧
    (∃ (s : State) (v : State) (g : Nat) (j : Nat) (data : Bytes) (body : Bytes) (ok : Bool) (typ : Nat) (u : State), s.pwr.off = false ∧
      (s.link g j).state ≠ .off ∧ (s.link g j).state ≠ .down ∧ body = data.take (data.length - 4) ∧ v = s.frameSeen g j data ∧ 64 ≤
      data.length ∧ data.length ≤ 4224 ∧ ok = true ∧ data.drop (data.length - 4) ≠ frameCheck body true ∧ data.drop (data.length - 4) =
      frameCheck body false ∧ typ = beNat (slice data 12 2) ∧ u = (v.lcount g j 0 1).lcount g j 1 data.length ∧ typ ≠ 0x8808 ∧ typ ≠ 0x88F7
      ∧ s.isControl body = true ∧ beNat (slice body 15 1) = 1 ∧ s.switchedGroup g = false) ∧
    (∃ (s : State) (v : State) (g : Nat) (j : Nat) (data : Bytes) (body : Bytes) (ok : Bool) (typ : Nat) (u : State), s.pwr.off = false ∧
      (s.link g j).state ≠ .off ∧ (s.link g j).state ≠ .down ∧ body = data.take (data.length - 4) ∧ v = s.frameSeen g j data ∧ 64 ≤
      data.length ∧ data.length ≤ 4224 ∧ ok = true ∧ data.drop (data.length - 4) ≠ frameCheck body true ∧ data.drop (data.length - 4) =
      frameCheck body false ∧ typ = beNat (slice data 12 2) ∧ u = (v.lcount g j 0 1).lcount g j 1 data.length ∧ typ ≠ 0x8808 ∧ typ ≠ 0x88F7
      ∧ s.isControl body = true ∧ beNat (slice body 15 1) = 1 ∧ s.switchedGroup g = false ∧ s.isControl data = true) ∧
    (∃ (s : State) (v : State) (g : Nat) (j : Nat) (data : Bytes) (body : Bytes) (ok : Bool) (typ : Nat) (u : State), s.pwr.off = false ∧
      (s.link g j).state ≠ .off ∧ (s.link g j).state ≠ .down ∧ body = data.take (data.length - 4) ∧ v = s.frameSeen g j data ∧ 64 ≤
      data.length ∧ data.length ≤ 4224 ∧ ok = true ∧ data.drop (data.length - 4) ≠ frameCheck body true ∧ data.drop (data.length - 4) =
      frameCheck body false ∧ typ = beNat (slice data 12 2) ∧ u = (v.lcount g j 0 1).lcount g j 1 data.length ∧ typ ≠ 0x8808 ∧ typ ≠ 0x88F7
      ∧ s.isControl body = true ∧ beNat (slice body 15 1) = 1 ∧ s.switchedGroup g = true) ∧
    (∃ (s : State) (v : State) (g : Nat) (j : Nat) (data : Bytes) (body : Bytes) (ok : Bool) (typ : Nat) (u : State), s.pwr.off = false ∧
      (s.link g j).state ≠ .off ∧ (s.link g j).state ≠ .down ∧ body = data.take (data.length - 4) ∧ v = s.frameSeen g j data ∧ 64 ≤
      data.length ∧ data.length ≤ 4224 ∧ ok = true ∧ data.drop (data.length - 4) ≠ frameCheck body true ∧ data.drop (data.length - 4) =
      frameCheck body false ∧ typ = beNat (slice data 12 2) ∧ u = (v.lcount g j 0 1).lcount g j 1 data.length ∧ typ ≠ 0x8808 ∧ typ ≠ 0x88F7
      ∧ s.isControl body = true ∧ beNat (slice body 15 1) ≠ 1) ∧
    (∃ (s : State) (v : State) (g : Nat) (j : Nat) (data : Bytes) (body : Bytes) (ok : Bool) (typ : Nat) (u : State), s.pwr.off = false ∧
      (s.link g j).state ≠ .off ∧ (s.link g j).state ≠ .down ∧ body = data.take (data.length - 4) ∧ v = s.frameSeen g j data ∧ 64 ≤
      data.length ∧ data.length ≤ 4224 ∧ ok = true ∧ data.drop (data.length - 4) ≠ frameCheck body true ∧ data.drop (data.length - 4) =
      frameCheck body false ∧ typ = beNat (slice data 12 2) ∧ u = (v.lcount g j 0 1).lcount g j 1 data.length ∧ typ ≠ 0x8808 ∧ typ ≠ 0x88F7
      ∧ s.isControl body = false ∧ (s.link g j).state ≠ .inService) ∧
    (∃ (s : State) (v : State) (g : Nat) (j : Nat) (data : Bytes) (body : Bytes) (ok : Bool) (typ : Nat) (u : State), s.pwr.off = false ∧
      (s.link g j).state ≠ .off ∧ (s.link g j).state ≠ .down ∧ body = data.take (data.length - 4) ∧ v = s.frameSeen g j data ∧ 64 ≤
      data.length ∧ data.length ≤ 4224 ∧ ok = true ∧ data.drop (data.length - 4) ≠ frameCheck body true ∧ data.drop (data.length - 4) =
      frameCheck body false ∧ typ = beNat (slice data 12 2) ∧ u = (v.lcount g j 0 1).lcount g j 1 data.length ∧ typ ≠ 0x8808 ∧ typ ≠ 0x88F7
      ∧ s.isControl body = false ∧ (s.link g j).state = .inService ∧ s.switchedGroup g = false ∧ typ = s.etherType) ∧
    (∃ (s : State) (g : Nat) (j : Nat), (s.link g j).state ≠ .inService) ∧
    (∃ (s : State), s.pwr.off = false) ∧
    (∃ (s : State) (g : Nat) (j : Nat) (prio : Nat), s.pwr.off = false ∧ s.lnk.pausing.contains (8 * (8 * g + j) + prio) = true) ∧
    (∃ (s : State) (g : Nat) (j : Nat) (prio : Nat), s.pwr.off = false ∧ s.lnk.pausing.contains (8 * (8 * g + j) + prio) = false) :=
  ⟨⟨linked .training 0, _, 0, 0, zeros 63, _, by decide +kernel, by decide +kernel, by decide +kernel, rfl, rfl, by decide +kernel⟩,
   ⟨linked .training 0, _, 0, 0, zeros 4225, _, by decide +kernel, by decide +kernel, by decide +kernel, rfl, rfl, by decide +kernel⟩,
   ⟨linked .training 0, _, 0, 0, zeros 60 ++ frameCheck (zeros 60) true, _, true, by decide +kernel, by decide +kernel, by decide +kernel,
     rfl, rfl, by and_intros <;> decide +kernel⟩,
   ⟨linked .training 0, _, 0, 0, zeros 64, _, false, by decide +kernel, by decide +kernel, by decide +kernel, rfl, rfl, by decide +kernel,
     (by decide +kernel), Or.inl rfl⟩,
   ⟨linked .training 0, _, 0, 0, typed 0x8808 [], _, true, _, _, by decide +kernel, by decide +kernel, by decide +kernel, rfl, rfl,
     by decide +kernel, (by decide +kernel), by decide +kernel, (by decide +kernel), by decide +kernel, rfl, rfl, rfl⟩,
   ⟨linked .training 0, _, 0, 0, typed 0x88F7 [], _, true, _, _, by decide +kernel, by decide +kernel, by decide +kernel, rfl, rfl,
     by decide +kernel, (by decide +kernel), by decide +kernel, (by decide +kernel), by decide +kernel, rfl, rfl, rfl⟩,
   ⟨linked .training 0, _, 0, 0, typed up.etherType [0, 1], _, true, _, _, by decide +kernel, by decide +kernel, by decide +kernel, rfl,
     rfl, by decide +kernel, (by decide +kernel), by decide +kernel, (by decide +kernel), by decide +kernel, rfl, rfl,
     by and_intros <;> decide +kernel⟩,
   ⟨linked .training 0, _, 0, 0, typed up.etherType [0, 1], _, true, _, _, by decide +kernel, by decide +kernel, by decide +kernel, rfl,
     rfl, by decide +kernel, (by decide +kernel), by decide +kernel, (by decide +kernel), by decide +kernel, rfl, rfl,
     by and_intros <;> decide +kernel⟩,
   ⟨switched 0, _, 0, 0, typed up.etherType [0, 1], _, true, _, _, by decide +kernel, by decide +kernel, by decide +kernel, rfl, rfl,
     by decide +kernel, (by decide +kernel), by decide +kernel, (by decide +kernel), by decide +kernel, rfl, rfl,
     by and_intros <;> decide +kernel⟩,
   ⟨linked .training 0, _, 0, 0, typed up.etherType [0, 2], _, true, _, _, by decide +kernel, by decide +kernel, by decide +kernel, rfl,
     rfl, by decide +kernel, (by decide +kernel), by decide +kernel, (by decide +kernel), by decide +kernel, rfl, rfl,
     by and_intros <;> decide +kernel⟩,
   ⟨linked .training 0, _, 0, 0, typed 0x0800 [], _, true, _, _, by decide +kernel, by decide +kernel, by decide +kernel, rfl, rfl,
     by decide +kernel, (by decide +kernel), by decide +kernel, (by decide +kernel), by decide +kernel, rfl, rfl,
     by and_intros <;> decide +kernel⟩,
   ⟨linked .inService 0, _, 0, 0, typed up.etherType [0x10], _, true, _, _, by decide +kernel, by decide +kernel, by decide +kernel, rfl,
     rfl, by decide +kernel, (by decide +kernel), by decide +kernel, (by decide +kernel), by decide +kernel, rfl, rfl, by decide +kernel,
     (by decide +kernel), by decide +kernel, (by decide +kernel), by decide +kernel, rfl⟩,
   ⟨up, 0, 0, by decide +kernel⟩,
   ⟨up, by decide +kernel⟩,
   ⟨{ up with lnk := { up.lnk with pausing := [7] } }, 0, 0, 7, by decide +kernel, by decide +kernel⟩,
   ⟨up, 0, 0, 7, by decide +kernel, by decide +kernel⟩⟩

/-- The hypotheses of `Obligations.LinksComeAndGo` are met, clause by clause. -/
theorem meets_LinksComeAndGo :
    (∃ (s : State) (g : Nat) (j : Nat) (l : Link), s.pwr.off = false ∧ s.link g j = l ∧ l.state = .training ∧ l.step = 1) ∧
    (∃ (s : State) (g : Nat) (j : Nat) (l : Link), s.pwr.off = false ∧ s.link g j = l ∧ l.state = .training ∧ l.step = 2 ∧ s.switchedGroup g
      = false ∧ (s.lgroup g).lpi ≠ 3) ∧
    (∃ (s : State) (g : Nat) (j : Nat) (l : Link), s.pwr.off = false ∧ s.link g j = l ∧ l.state = .training ∧ l.step = 2 ∧ s.switchedGroup g
      = true ∧ (s.lgroup g).lpi ≠ 3) ∧
    (∃ (s : State) (g : Nat) (j : Nat) (l : Link), s.pwr.off = false ∧ s.link g j = l ∧ l.state = .training ∧ l.step = 3 ∧ s.switchedGroup g
      = true) ∧
    (∃ (s : State) (g : Nat) (j : Nat), s.pwr.off = false ∧ 2 ≤ (s.link g j).step) ∧
    (∃ (s : State) (g : Nat) (j : Nat), s.pwr.off = false ∧ s.switchedGroup g = false ∧ (s.link g j).state ∈ [LinkState.exchange, .held,
      .inService, .waking] ∧ (s.lgroup g).lpi ≠ 1 ∧ s.lpiHolds g = false) ∧
    (∃ (s : State) (g : Nat) (j : Nat), s.pwr.off = false ∧ s.switchedGroup g = false ∧ (s.link g j).state = .inService ∧ (s.lgroup g).lpi =
      1) ∧
    (∃ (s : State) (t : State) (g : Nat) (j : Nat), s.pwr.off = false ∧ s.switchedGroup g = false ∧ (s.link g j).state = .inService ∧
      (s.lgroup g).lpi = 0 ∧ (s.lgroup g).acked = false ∧ s.lpiHolds g = true ∧ t = s.setGroupL g { s.lgroup g with lpi := 1 }) ∧
    (∃ (s : State) (g : Nat) (j : Nat), s.pwr.off = false ∧ (s.link g j).state = .held) ∧
    (∃ (s : State) (g : Nat) (j : Nat), s.pwr.off = false ∧ (s.link g j).state = .inService ∧ s.switchedGroup g = false ∧ (s.lgroup
      g).openedAt = none) ∧
    (∃ (s : State) (g : Nat) (j : Nat) (t : Nat), s.pwr.off = false ∧ (s.link g j).state = .inService ∧ s.switchedGroup g = false ∧
      (s.lgroup g).openedAt = some t ∧ s.now ≤ t + 10000000) ∧
    (∃ (s : State) (t : State) (g : Nat) (j : Nat) (signal : Nat), s.pwr.off = false ∧ t = s.setLink g j
      { s.link g j with signal := signal % 16 } ∧ (s.link g j).state = .inService ∧ (s.lgroup g).openedAt = none) ∧
    (∃ (s : State) (t : State) (g : Nat) (j : Nat), s.pwr.off = false ∧ t = s.setLink g j { s.link g j with pcs := false } ∧ (s.link g
      j).state = .inService ∧ (s.lgroup g).openedAt = none) ∧
    (∃ (s : State) (t : State) (g : Nat) (j : Nat), s.pwr.off = false ∧ t = s.setLink g j { s.link g j with pcs := false } ∧ (s.link g
      j).state ≠ .inService) ∧
    (∃ (s : State) (t : State) (g : Nat) (j : Nat) (n : Nat), s.pwr.off = false ∧ t = s.lcount g j 13 n ∧ (s.link g j).state = .inService ∧
      (s.lgroup g).openedAt = none ∧ t.comF (.LNK_GCFG1 g) 7 0 < n) ∧
    (∃ (s : State) (t : State) (g : Nat) (j : Nat) (n : Nat), s.pwr.off = false ∧ t = s.lcount g j 13 n ∧ n ≤ t.comF (.LNK_GCFG1 g) 7 0) :=
  ⟨⟨linked .training 1, 0, 0, _, by decide +kernel, rfl, by decide +kernel, by decide +kernel⟩,
   ⟨linked .training 2, 0, 0, _, by decide +kernel, rfl, by and_intros <;> decide +kernel⟩,
   ⟨switched 2, 0, 0, _, by decide +kernel, rfl, by and_intros <;> decide +kernel⟩,
   ⟨switched 3, 0, 0, _, by decide +kernel, rfl, by and_intros <;> decide +kernel⟩,
   ⟨linked .training 2, 0, 0, by decide +kernel, by decide +kernel⟩,
   ⟨linked .waking 0, 0, 0, by and_intros <;> decide +kernel⟩,
   ⟨sleepy.setGroupL 0 { sleepy.lgroup 0 with lpi := 1 }, 0, 0, by and_intros <;> decide +kernel⟩,
   ⟨sleepy.setGroupL 0 { sleepy.lgroup 0 with idle := true }, _, 0, 0, by decide +kernel, (by decide +kernel), by decide +kernel,
     (by decide +kernel), (by decide +kernel), by decide +kernel, rfl⟩,
   ⟨linked .held 0, 0, 0, by decide +kernel, by decide +kernel⟩,
   ⟨linked .inService 0, 0, 0, by and_intros <;> decide +kernel⟩,
   ⟨{ linked .inService 0 with lnk := { (linked .inService 0).lnk with groups := [(0, { (default : LinkGroup) with openedAt := some 0 })] } },
     0, 0, 0, by and_intros <;> decide +kernel⟩,
   ⟨linked .inService 0, _, 0, 0, 16, by decide +kernel, rfl, by decide +kernel, by decide +kernel⟩,
   ⟨linked .inService 0, _, 0, 0, by decide +kernel, rfl, by decide +kernel, by decide +kernel⟩,
   ⟨linked .training 0, _, 0, 0, by decide +kernel, rfl, by decide +kernel⟩,
   ⟨linked .inService 0, _, 0, 0, 256, by decide +kernel, rfl, by and_intros <;> decide +kernel⟩,
   ⟨linked .training 0, _, 0, 0, 0, by decide +kernel, rfl, by decide +kernel⟩⟩

/-- The hypotheses of `Obligations.GroupsSleepAndArePlugged` are met, clause by clause. -/
theorem meets_GroupsSleepAndArePlugged :
    (∃ (s : State) (t : State) (g : Nat), s.pwr.off = false ∧ t = s.setGroupL g { s.lgroup g with idle := true } ∧ (s.lgroup g).lpi = 0 ∧
      t.lpiHolds g = true) ∧
    (∃ (s : State) (g : Nat), s.pwr.off = false ∧ (s.lgroup g).lpi = 2) ∧
    (∃ (s : State) (g : Nat), s.pwr.off = false ∧ (s.lgroup g).lpi = 3) ∧
    (∃ (s : State), s.pwr.off = false) ∧
    (∃ (s : State), s.pwr.off = false) ∧
    (∃ (s : State) (g : Nat), s.pwr.off = false ∧ (s.lgroup g).contact = true ∧ (s.lgroup g).plugged = false) ∧
    (∃ (s : State) (g : Nat), s.pwr.off = false ∧ (s.lgroup g).contact = false ∧ (s.lgroup g).plugged = true) :=
  ⟨⟨sleepy, _, 0, by decide +kernel, rfl, by decide +kernel, by decide +kernel⟩,
   ⟨plugged { (default : LinkGroup) with lpi := 2 }, 7, by decide +kernel, by decide +kernel⟩,
   ⟨plugged { (default : LinkGroup) with lpi := 3 }, 7, by decide +kernel, by decide +kernel⟩,
   ⟨up, by decide +kernel⟩,
   ⟨up, by decide +kernel⟩,
   ⟨plugged { (default : LinkGroup) with contact := true }, 7, by and_intros <;> decide +kernel⟩,
   ⟨plugged { (default : LinkGroup) with plugged := true }, 7, by and_intros <;> decide +kernel⟩⟩

/-- The hypotheses of `Obligations.RequestsArePerformed` are met, clause by clause. -/
theorem meets_RequestsArePerformed :
    (∃ (s : State) (u : State) (p : Pkt) (key : Nat) (byte : Nat) (h : Held) (d : Decision) (r : Bytes × Bool × State), InTurn s p ∧ p.typ =
      0x02 ∧ p.note = none ∧ (s.performing p).checkPkt p = (.accept (.page key byte), u) ∧ u.servePage key p.src false = .inr h ∧ h.frozen =
      false ∧ d = .accept (.page key byte) p.remote p.sky ∧ r = (u.heat key p.src (wireUnits p) false).pageRead key h byte p.length) ∧
    (∃ (s : State) (u : State) (v : State) (p : Pkt) (key : Nat) (byte : Nat) (h : Held) (d : Decision), InTurn s p ∧ p.typ = 0x01 ∧ p.note
      = none ∧ (s.performing p).checkPkt p = (.accept (.page key byte), u) ∧ u.servePage key p.src true = .inr h ∧ h.frozen = false ∧ d =
      .accept (.page key byte) p.remote p.sky ∧ v = ((u.heat key p.src (wireUnits p) true).pageWrite key h byte (p.payload.take
      p.length)).afterWrite key byte p.length ∧ v.mustNote key = false) ∧
    (∃ (s : State) (u : State) (v : State) (p : Pkt) (key : Nat) (byte : Nat) (x : Nat) (width : Nat) (h : Held) (d : Decision), InTurn s p
      ∧ p.typ = 0x04 ∧ p.note = none ∧ (s.performing p).checkPkt p = (.accept (.page key byte), u) ∧ u.servePage key p.src true = .inr h ∧
      h.frozen = false ∧ d = .accept (.page key byte) p.remote p.sky ∧ width = beNat (slice p.payload 1 1) ∧ (u.heat key p.src 1
      true).pageAtomic key h byte (beNat (slice p.payload 0 1)) width (beNat (slice p.payload 8 8)) (beNat (slice p.payload 16 8)) = (some
      x, v) ∧ (v.afterWrite key byte width).mustNote key = false) ∧
    (∃ (s : State) (u : State) (v : State) (p : Pkt) (key : Nat) (byte : Nat) (h : Held) (d : Decision), InTurn s p ∧ p.typ = 0x04 ∧ p.note
      = none ∧ (s.performing p).checkPkt p = (.accept (.page key byte), u) ∧ u.servePage key p.src true = .inr h ∧ h.frozen = false ∧ d =
      .accept (.page key byte) p.remote p.sky ∧ (u.heat key p.src 1 true).pageAtomic key h byte (beNat (slice p.payload 0 1)) (beNat (slice
      p.payload 1 1)) (beNat (slice p.payload 8 8)) (beNat (slice p.payload 16 8)) = (none, v)) ∧
    (∃ (s : State) (u : State) (p : Pkt) (i : Instr) (typ : Nat) (status : Nat) (reason : Nat), (i, typ) ∈ [(Instr.writeReq p, 0x01),
      (.readReq p, 0x02), (.atomicReq p, 0x04)] ∧ InTurn s p ∧ p.typ = typ ∧ (s.performing p).checkPkt p = (.refuse status reason, u) ∧
      status ≠ 0) ∧
    (∃ (s : State) (u : State) (p : Pkt), InTurn s p ∧ p.typ = 0x06 ∧ (s.performing p).produce (beNat (slice p.payload 0 2) % 4096) (beNat
      (slice p.payload 2 2)) (beNat (slice p.payload 4 4)) p.partition = (none, u)) ∧
    (∃ (s : State) (u : State) (p : Pkt) (r : Nat), InTurn s p ∧ p.typ = 0x06 ∧ (s.performing p).produce (beNat (slice p.payload 0 2) %
      4096) (beNat (slice p.payload 2 2)) (beNat (slice p.payload 4 4)) p.partition = (some r, u)) ∧
    (∃ (s : State) (u : State) (p : Pkt) (r : Perf) (d : Option Decision), ForwardedNew s p ∧ (s.forwardedTurn p).newArrival.2.perform p
      (s.forwardedTurn p).qpe.nextArrival ((s.forwardedTurn p).forwardDecision p) = (r, d, u)) :=
  ⟨⟨holder, _, req 0x02 [], 5, 0, _, _, _, inTurn (by decide +kernel), by decide +kernel, by decide +kernel, pairSnd (by decide +kernel),
     someInr (by decide +kernel), by decide +kernel, rfl, rfl⟩,
   ⟨holder, _, _, req 0x01 [1, 2, 3, 4], 5, 0, _, _, inTurn (by decide +kernel), by decide +kernel, by decide +kernel, pairSnd
     (by decide +kernel), someInr (by decide +kernel), by decide +kernel, rfl, rfl, by decide +kernel⟩,
   ⟨holder, _, _, req 0x04 ([0, 4] ++ zeros 22), 5, 0, 0, _, _, _, inTurn (by decide +kernel), by decide +kernel, by decide +kernel, pairSnd
     (by decide +kernel), someInr (by decide +kernel), by decide +kernel, rfl, rfl, somePairSnd (by decide +kernel), by decide +kernel⟩,
   ⟨poisonedHolder, _, _, req 0x04 ([0, 4] ++ zeros 22), 5, 0, _, _, inTurn (by decide +kernel), by decide +kernel, (by decide +kernel),
     pairSnd (by decide +kernel), someInr (by decide +kernel), by decide +kernel, rfl, pairSnd (by decide +kernel)⟩,
   ⟨holder, _, { req 0x01 [1, 2, 3, 4] with partition := 21 }, .writeReq { req 0x01 [1, 2, 3, 4] with partition := 21 }, 1, stRemoteAccess,
     rsPartition, by simp, inTurn (by decide +kernel), by decide +kernel, pairSnd (by decide +kernel), by decide +kernel⟩,
   ⟨holder, _, req 0x06 [0, 7, 0, 1, 0, 0, 0, 0], inTurn (by decide +kernel), by decide +kernel, pairSnd (by decide +kernel)⟩,
   ⟨holder, _, req 0x06 [0, 8, 0, 1, 0, 0, 0, 0], rsKeyUnknown, inTurn (by decide +kernel), by decide +kernel, pairSnd (by decide +kernel)⟩,
   ⟨holder, _, { req 0x02 [] with forwarded := true }, _, _, forwardedNew (by decide +kernel) (by decide +kernel) (by decide +kernel)
     (by decide +kernel) (by decide +kernel) (by decide +kernel) (by decide +kernel), rfl⟩⟩

/-- The hypotheses of `Obligations.ControlRequestsAreTaken` are met, clause by clause. -/
theorem meets_ControlRequestsAreTaken :
    (∃ (s : State) (p : Pkt) (i : Instr) (typ : Nat) (d : Bytes), (i, typ) ∈ controlRows p ∧ InTurn s p ∧ p.typ = typ ∧ (s.performing
      p).verdict p = .accept d) ∧
    (∃ (s : State) (u : State) (p : Pkt) (i : Instr) (typ : Nat) (st : Nat) (rs : Nat) (d : Bytes), (i, typ) ∈ controlRows p ∧ InTurn s p ∧
      p.typ = typ ∧ (s.performing p).verdict p = .refuse st rs d u) ∧
    (∃ (s : State) (p : Pkt) (i : Instr) (typ : Nat), (i, typ) ∈ controlRows p ∧ InTurn s p ∧ p.typ = typ ∧ (s.performing p).verdict p =
      .busy) ∧
    (∃ (p : Pkt), p.typ ∈ [0x11, 0x13, 0x21, 0x22, 0x28, 0x2A, 0x2B, 0x2C, 0x2D, 0x2F, 0x30, 0x31]) ∧
    (∃ (s : State) (p : Pkt), p.typ = 0x10 ∧ s.definedGroup (leAt p.payload 0 1) = none) ∧
    (∃ (s : State) (p : Pkt) (x : Group) (c : Coll) (m : CMsg), p.typ = 0x10 ∧ s.group (beNat (slice p.payload 0 1)) = some x ∧ x.coll =
      some c ∧ m = readColl p ∧ m.seq = c.seq ∧ m.check = c.check) ∧
    (∃ (s : State) (p : Pkt) (x : Group) (c : Coll) (m : CMsg), p.typ = 0x10 ∧ s.group (beNat (slice p.payload 0 1)) = some x ∧ x.coll =
      some c ∧ m = readColl p ∧ m.seq = c.seq ∧ m.check ≠ c.check) ∧
    (∃ (s : State) (p : Pkt) (g : Nat), p.typ = 0x11 ∧ g = beNat (slice p.payload 0 1) ∧ s.definedGroup g = none) ∧
    (∃ (s : State) (p : Pkt) (k : Nat) (e : TEntry), p.typ = 0x21 ∧ (s.trn.entries.find? fun e => e.2.by_ == .remote p.src p.txn) = some (k,
      e)) ∧
    (∃ (s : State) (u : State) (p : Pkt) (t : Txn) (n : Nat) (id : Nat) (w : Wq) (o : Op) (pr : Program), p.typ = 0x22 ∧ SMap.find
      s.qpe.txns p.txn = some t ∧ t.owner = .launch n id ∧ t.dst = p.src ∧ leAt p.payload 0 1 = 0 ∧ u = s.freeTxn p.txn ∧ u.wq n = some w ∧
      w.op id = some o ∧ u.program (leAt o.desc 8 2) = some pr) ∧
    (∃ (s : State) (p : Pkt) (t : Txn) (n : Nat) (id : Nat) (st : Nat), p.typ = 0x22 ∧ SMap.find s.qpe.txns p.txn = some t ∧ t.owner =
      .launch n id ∧ t.dst = p.src ∧ st = leAt p.payload 0 1 ∧ st ≠ stSuccess ∧ st ≠ stInexact) ∧
    (∃ (s : State) (u : State) (p : Pkt) (key : Nat) (f : Nat), p.typ = 0x29 ∧ plcByte p 16 = 0 ∧ key = pageKey (plcHome p) (plcPage p) ∧
      s.knowsNewer key (plcSeq p) = false ∧ (s.releaseIncoming key).takeFrame (.foreign (plcHome p) (plcPage p)) = some (f, u)) ∧
    (∃ (s : State) (p : Pkt) (key : Nat) (h : Incoming), p.typ = 0x2A ∧ key = pageKey (plcHome p) (plcPage p) ∧ SMap.find s.plc.incoming key
      = some h ∧ seqNewer h.seq (plcSeq p) = false ∧ beNat (slice p.payload 20 16) = 0 ∧ key / 2 ^ 23 ≠ s.me) ∧
    (∃ (s : State) (p : Pkt) (key : Nat) (off : Nat) (h : Incoming), p.typ = 0x2A ∧ key = pageKey (plcHome p) (plcPage p) ∧ SMap.find
      s.plc.incoming key = some h ∧ seqNewer h.seq (plcSeq p) = false ∧ beNat (slice p.payload 20 16) = 0 ∧ key / 2 ^ 23 = s.me ∧ off =
      beNat (slice p.payload 16 4) % frameBytes) ∧
    (∃ (s : State) (p : Pkt) (key : Nat) (h : Incoming), p.typ = 0x2A ∧ key = pageKey (plcHome p) (plcPage p) ∧ SMap.find s.plc.incoming key
      = some h ∧ seqNewer h.seq (plcSeq p) = true) ∧
    (∃ (s : State) (p : Pkt) (key : Nat) (h : Held), p.typ = 0x2C ∧ key = pageKey (plcHome p) (plcPage p) ∧ s.heldPage key = some h ∧
      seqNewer h.seq (plcSeq p) = false ∧ plcByte p 16 = 0 ∧ plcModule p 18 ≠ s.me) ∧
    (∃ (s : State) (p : Pkt), p.typ = 0x2D ∧ s.cached (plcHome p) (plcPage p) = none ∧ s.member p.partition s.me = true) ∧
    (∃ (s : State) (p : Pkt) (e : PlcEntry), p.typ = 0x2D ∧ s.cached (plcHome p) (plcPage p) = some e ∧ seqNewer e.seq (plcSeq p) = true) ∧
    (∃ (s : State) (p : Pkt) (key : Nat), key = pageKey (plcHome p) (plcPage p) ∧ s.knowsNewer key (plcSeq p) = true ∧ (p.typ = 0x29 ∨ p.typ
      = 0x2F)) ∧
    (∃ (s : State) (p : Pkt), p.typ = 0x2F ∧ s.heldPage (pageKey (plcHome p) (plcPage p)) = none ∧ s.knowsNewer (pageKey (plcHome p)
      (plcPage p)) (plcSeq p) = false) ∧
    (∃ (s : State) (t : State) (p : Pkt) (d : Domain) (port : Nat) (k : Nat), p.typ = 0x31 ∧ t = s.learnEpoch p.src (beNat (slice p.payload
      8 4)) ∧ t.domain (beNat (slice p.payload 0 2)) = some d ∧ d.waiting = some (port, k) ∧ beNat (slice p.payload 4 1) ≠ 0) :=
  ⟨⟨holder, req 0x11 (zeros 8), .groupSetup (req 0x11 (zeros 8)), 0x11, [], by simp [controlRows], inTurn (by decide +kernel),
     by decide +kernel, rfl⟩,
   ⟨holder, _, req 0x10 [9], .collData (req 0x10 [9]), 0x10, _, _, _, by simp [controlRows], inTurn (by decide +kernel), by decide +kernel,
     rfl⟩,
   ⟨{ holder with qpe := { holder.qpe with inbox := [req 0x20 []] } }, req 0x20 [], .transitLaunch (req 0x20 []), 0x20, by simp
     [controlRows], inTurn (by decide +kernel), by decide +kernel, rfl⟩,
   ⟨req 0x31 [], by decide +kernel⟩,
   ⟨holder, req 0x10 [9], by decide +kernel, by decide +kernel⟩,
   ⟨holder, req 0x10 ([1] ++ zeros 10 ++ [5] ++ zeros 52), _, _, _, by decide +kernel, someGetD (by decide +kernel), someGetD
     (by decide +kernel), rfl, by decide +kernel, by decide +kernel⟩,
   ⟨holder, req 0x10 ([1] ++ zeros 63), _, _, _, by decide +kernel, someGetD (by decide +kernel), someGetD (by decide +kernel), rfl,
     by decide +kernel, by decide +kernel⟩,
   ⟨holder, req 0x11 ([9, 0, 0, 0, 0, 0, 0, 7]), _, by decide +kernel, rfl, by decide +kernel⟩,
   ⟨holder, req 0x21 [0], 3, _, by decide +kernel, rfl⟩,
   ⟨launched, _, req 0x22 (zeros 12), _, 7, 8, _, _, _, by decide +kernel, someGetD (by decide +kernel), by decide +kernel,
     (by decide +kernel), by decide +kernel, rfl, someGetD (by decide +kernel), someGetD (by decide +kernel), someGetD (by decide +kernel)⟩,
   ⟨holder, req 0x22 (3 :: zeros 11), _, 7, 8, _, by decide +kernel, someGetD (by decide +kernel), by decide +kernel, (by decide +kernel),
     rfl, by decide +kernel, by decide +kernel⟩,
   ⟨up, _, req 0x29 ([0, 0, 0, 0, 0, 0, 5, 0, 0, 0, 0, 0] ++ zeros 4 ++ zeros 16), _, _, by decide +kernel, by decide +kernel, rfl,
     by decide +kernel, somePair (by decide +kernel)⟩,
   ⟨moving, req 0x2A ([0, 0, 1, 0, 0, 0, 6, 0, 0, 0, 0, 2] ++ zeros 4 ++ zeros 24), _, _, by decide +kernel, rfl, someGetD
     (by decide +kernel), by and_intros <;> decide +kernel⟩,
   ⟨holder, req 0x2A ([0, 0, 0, 0, 0, 0, 6, 0, 0, 0, 0, 2] ++ zeros 4 ++ zeros 24), _, _, _, by decide +kernel, rfl, someGetD
     (by decide +kernel), by decide +kernel, (by decide +kernel), by decide +kernel, rfl⟩,
   ⟨holder, req 0x2A ([0, 0, 0, 0, 0, 0, 6, 0, 0, 0, 0, 1] ++ zeros 4 ++ zeros 24), _, _, by decide +kernel, rfl, someGetD
     (by decide +kernel), by decide +kernel⟩,
   ⟨holder, req 0x2C ([0, 0, 0, 0, 0, 0, 5, 0, 0, 0, 0, 3] ++ zeros 4 ++ [0, 0, 0, 0, 1]), _, _, by decide +kernel, rfl, someGetD
     (by decide +kernel), by and_intros <;> decide +kernel⟩,
   ⟨holder, req 0x2D ([0, 0, 0, 0, 0, 0, 5, 0, 0, 0, 0, 0] ++ zeros 4), by and_intros <;> decide +kernel⟩,
   ⟨holder, req 0x2D ([0, 0, 0, 0, 0, 0, 6, 0, 0, 0, 0, 0] ++ zeros 4), _, by decide +kernel, someGetD (by decide +kernel),
     by decide +kernel⟩,
   ⟨holder, req 0x2F ([0, 0, 0, 0, 0, 0, 5, 0, 0, 0, 0, 2] ++ zeros 4), _, rfl, by decide +kernel, Or.inr (by decide +kernel)⟩,
   ⟨holder, req 0x2F ([0, 0, 0, 0, 0, 0, 9, 0, 0, 0, 0, 0] ++ zeros 4), by and_intros <;> decide +kernel⟩,
   ⟨holder, _, req 0x31 ([0, 21, 0, 0, 1, 0, 0, 0, 0, 0, 0, 0]), _, 0, 3, by decide +kernel, rfl, someGetD (by decide +kernel),
     by decide +kernel, by decide +kernel⟩⟩

/-- The hypotheses of `Obligations.PacketsAreChecked` are met, clause by clause. -/
theorem meets_PacketsAreChecked :
    (∃ (s : State) (p : Pkt) (i : Instr), (i, p.typ) ∈ [(Instr.writeReq p, 0x01), (.readReq p, 0x02), (.atomicReq p, 0x04), (.tokenReq p,
      0x06)] ++ controlRows p ∧ s.pwr.off = false ∧ p.response = false ∧ p.forwarded = false ∧ p.version ≠ 0x10) ∧
    (∃ (s : State) (p : Pkt) (i : Instr), (i, p.typ) ∈ [(Instr.writeReq p, 0x01), (.readReq p, 0x02), (.atomicReq p, 0x04), (.tokenReq p,
      0x06)] ++ controlRows p ∧ s.pwr.off = false ∧ p.response = false ∧ p.forwarded = false ∧ p.version = 0x10 ∧ p.dstEpoch ≠ (s.ejected
      p).qpe.epoch) ∧
    (∃ (s : State) (p : Pkt) (i : Instr), (i, p.typ) ∈ [(Instr.writeReq p, 0x01), (.readReq p, 0x02), (.atomicReq p, 0x04), (.tokenReq p,
      0x06)] ++ controlRows p ∧ s.pwr.off = false ∧ p.response = false ∧ p.forwarded = false ∧ p.version = 0x10 ∧ p.dstEpoch = (s.ejected
      p).qpe.epoch ∧ p.srcEpoch ≠ (s.ejected p).peerEpoch p.src ∧ epochNewer p.srcEpoch ((s.ejected p).peerEpoch p.src) = false) ∧
    (∃ (s : State) (p : Pkt), Accepts s p ∧ p.typ = 0x08) ∧
    (∃ (s : State) (p : Pkt), s.pwr.off = false ∧ p.typ = 0x09 ∧ p.version = 0x10) ∧
    (∃ (s : State) (m : Nat) (e : Nat), epochNewer e (s.peerEpoch m) = false) ∧
    (∃ (s : State) (t : State) (p : Pkt) (dst : Nat) (tc : Nat), Accepts s p ∧ p.typ = 0x0A ∧ t = s.admitted p ∧ dst = beNat (slice
      p.payload 5 3) % 2 ^ 17 ∧ tc = beNat (slice p.payload 4 1) % 8) ∧
    (∃ (t : Throttle) (now : Nat) (gap : Nat), (t.lastCut = 0 ∨ gap * 1000 ≤ since64 now t.lastCut)) ∧
    (∃ (s : State) (p : Pkt), s.pwr.off = false ∧ p.version = 0x10 ∧ typeKnown p.typ = false) :=
  ⟨⟨up, { req 0x02 [] with version := 0x11 }, .readReq { req 0x02 [] with version := 0x11 }, by simp [req],
     by and_intros <;> decide +kernel⟩,
   ⟨up, { req 0x31 [] with dstEpoch := 1 }, .domainReady { req 0x31 [] with dstEpoch := 1 }, by simp [req, controlRows],
     by and_intros <;> decide +kernel⟩,
   ⟨{ up with qpe := { up.qpe with peers := [(1, 1)] } }, req 0x31 [], .domainReady (req 0x31 []), by simp [req, controlRows],
     by and_intros <;> decide +kernel⟩,
   ⟨up, req 0x08 [], accepts (by decide +kernel), by decide +kernel⟩,
   ⟨up, req 0x09 [], by and_intros <;> decide +kernel⟩,
   ⟨up, 0, 0, by decide +kernel⟩,
   ⟨up, _, req 0x0A [0, 0, 0, 0, 7, 1, 255, 255], _, _, accepts (by decide +kernel), by decide +kernel, rfl, rfl, rfl⟩,
   ⟨{ (default : Throttle) with lastCut := 1 }, 1001, 1, by decide +kernel⟩,
   ⟨up, req 0xFF [], by and_intros <;> decide +kernel⟩⟩

/-- The hypotheses of `Obligations.ResponsesResolveTransactions` are met, clause by clause. -/
theorem meets_ResponsesResolveTransactions :
    (∃ (s : State) (t : State) (p : Pkt) (k : Nat) (x : Txn), Accepts s p ∧ p.typ = 0x07 ∧ p.ecn ≠ 3 ∧ p.forwarded = true ∧ t = (s.admitted
      p).noteAck (if p.dstQpn ≠ 0 then some p.dstQpn else none) ∧ (t.qpe.txns.filter fun e => e.2.inStream (if p.dstQpn ≠ 0 then some
      p.dstQpn else none) p.stream p.tc) = [(k, x)] ∧ x.psn = p.psn ∧ t.staleResponse x p = false) ∧
    (∃ (s : State) (t : State) (u : State) (p : Pkt) (k : Nat) (x : Txn), Accepts s p ∧ p.typ = 0x07 ∧ p.ecn ≠ 3 ∧ p.forwarded = false ∧ t =
      (s.admitted p).noteAck (if p.dstQpn ≠ 0 then some p.dstQpn else none) ∧ (t.qpe.txns.filter fun e => e.2.inStream (if p.dstQpn ≠ 0 then
      some p.dstQpn else none) p.stream p.tc) = [(k, x)] ∧ x.psn = p.psn ∧ t.staleResponse x p = false ∧ u = t.ackEntry p (x.typ == 0x29) k
      x) ∧
    (∃ (p : Pkt) (x : Txn), x.psn = p.psn ∧ p.status ≠ 0 ∧ p.status ≠ stTagFailure ∧ p.forwarded = true) ∧
    (∃ (s : State) (t : State) (p : Pkt), Accepts s p ∧ p.typ = 0x03 ∧ p.ecn ≠ 3 ∧ t = s.admitted p ∧ SMap.find t.qpe.txns p.txn = none ∧
      t.qpe.reclaimed.contains p.txn = false) ∧
    (∃ (s : State) (t : State) (p : Pkt), Accepts s p ∧ p.typ = 0x03 ∧ p.ecn ≠ 3 ∧ t = s.admitted p ∧ SMap.find t.qpe.txns p.txn = none ∧
      t.qpe.reclaimed.contains p.txn = true) ∧
    (∃ (s : State) (t : State) (p : Pkt) (i : Instr) (rtyp : Nat) (ptyp : Nat) (off : Nat) (x : Txn), (i, ptyp, rtyp) ∈ [(Instr.readResp p,
      0x03, 0x02), (.atomicResp p, 0x05, 0x04)] ∧ Accepts s p ∧ p.typ = ptyp ∧ p.ecn ≠ 3 ∧ t = s.admitted p ∧ SMap.find t.qpe.txns p.txn =
      some x ∧ x.typ = rtyp ∧ x.inStream (if p.dstQpn ≠ 0 then some p.dstQpn else none) p.stream p.tc = true ∧ x.psn = p.psn ∧
      t.staleResponse x p = false ∧ p.encrypted = false ∧ x.connected = false ∧ x.got = [] ∧ p.first = true ∧ p.last = true ∧ (ptyp = 0x03 →
      p.length = (x.pkts.head?.map (·.length)).getD 0) ∧ off = (if ptyp = 0x05 then 0 else (p.remote + 2 ^ 64 - ((x.pkts.head?.map
      (·.remote)).getD 0)) % 2 ^ 64)) :=
  ⟨⟨reading, _, { req 0x07 [] with stream := 1, forwarded := true }, 9, _, accepts (by decide +kernel), by decide +kernel,
     by decide +kernel, by decide +kernel, rfl, rfl, by decide +kernel, by decide +kernel⟩,
   ⟨reading, _, _, { req 0x07 [] with stream := 1 }, 9, _, accepts (by decide +kernel), by decide +kernel, by decide +kernel,
     by decide +kernel, rfl, rfl, by decide +kernel, by decide +kernel, rfl⟩,
   ⟨{ req 0x07 [] with status := 1, forwarded := true }, default, by and_intros <;> decide +kernel⟩,
   ⟨reading, _, req 0x03 [], accepts (by decide +kernel), by decide +kernel, by decide +kernel, rfl, by decide +kernel, by decide +kernel⟩,
   ⟨{ reading with qpe := { reading.qpe with reclaimed := [0] } }, _, req 0x03 [], accepts (by decide +kernel), by decide +kernel,
     by decide +kernel, rfl, by decide +kernel, by decide +kernel⟩,
   ⟨reading, _, { req 0x03 [1, 2, 3, 4] with stream := 1, txn := 9 }, .readResp { req 0x03 [1, 2, 3, 4] with stream := 1, txn := 9 }, 2, 3,
     _, _, by simp, accepts (by decide +kernel), by decide +kernel, by decide +kernel, rfl, someGetD (by decide +kernel), by decide +kernel,
     (by decide +kernel), by decide +kernel, (by decide +kernel), by decide +kernel, (by decide +kernel), by decide +kernel,
     (by decide +kernel), by decide +kernel, (by decide +kernel), rfl⟩⟩

/-- The hypotheses of `Obligations.TransportTimersRun` are met, clause by clause. -/
theorem meets_TransportTimersRun :
    (∃ (s : State) (k : Nat) (t : Txn), s.pwr.off = false ∧ SMap.find s.qpe.txns k = some t ∧ t.accepted = false ∧ t.held = false ∧
      s.firstWaits k t = false ∧ t.attempts < s.regF .QPE_XPT_TIMER 27 24) ∧
    (∃ (s : State) (k : Nat) (t : Txn), s.pwr.off = false ∧ SMap.find s.qpe.txns k = some t ∧ t.accepted = false ∧ t.held = true ∧
      s.firstWaits k t = false ∧ t.attempts < s.regF .QPE_XPT_TIMER 27 24) ∧
    (∃ (s : State) (k : Nat) (t : Txn), s.pwr.off = false ∧ SMap.find s.qpe.txns k = some t ∧ s.firstWaits k t = true) ∧
    (∃ (s : State) (k : Nat) (t : Txn), s.pwr.off = false ∧ SMap.find s.qpe.txns k = some t ∧ s.firstWaits k t = true) ∧
    (∃ (s : State) (k : Nat) (t : Txn), s.pwr.off = false ∧ SMap.find s.qpe.txns k = some t ∧ t.accepted = false ∧ s.firstWaits k t = false
      ∧ s.regF .QPE_XPT_TIMER 27 24 ≤ t.attempts) ∧
    (∃ (s : State) (key : Nat), s.pwr.off = false ∧ (s.rstream (.module key)).unanswered ≠ 0) ∧
    (∃ (s : State) (n : Nat), s.pwr.off = false ∧ (s.rstream (.qp n)).unanswered ≠ 0) ∧
    (∃ (s : State) (t : State) (m : Nat) (n : Nat), s.pwr.off = false ∧ SMap.find s.qpe.probes m = some n ∧ n < s.regF .QPE_XPT_TIMER 27 24
      ∧ t = { s with qpe := { s.qpe with probes := SMap.put s.qpe.probes m (n + 1) } }) ∧
    (∃ (s : State) (m : Nat) (n : Nat), s.pwr.off = false ∧ SMap.find s.qpe.probes m = some n ∧ s.regF .QPE_XPT_TIMER 27 24 ≤ n) ∧
    (∃ (s : State), s.pwr.off = false) ∧
    (∃ (s : State) (k : Nat) (t : Throttle) (u : Throttle), s.pwr.off = false ∧ s.rtr.throttle = [(k, t)] ∧ u = (t.fill s.now
      s.capShare).tick s.hallTime (s.comF .RTR_THROTTLE_CFG1 31 16) (s.comF .RTR_THROTTLE_CFG0 31 28) (s.comF .RTR_THROTTLE_CFG2 31 16)
      (s.comF .RTR_THROTTLE_CFG0 27 24) (s.comF .RTR_THROTTLE_CFG2 15 0)) ∧
    (∃ (t : Throttle) (now : Nat) (ap : Nat) (ip : Nat) (fast : Nat), ap * 1000 ≤ since64 now t.lastMark ∧ ap * 1000 ≤ since64 now
      t.lastAlpha ∧ ip * 1000 ≤ since64 now t.lastInc ∧ fast ≤ t.steps) :=
  ⟨⟨timing, 1, _, by decide +kernel, someGetD (by decide +kernel), by and_intros <;> decide +kernel⟩,
   ⟨{ timing with qpe := { timing.qpe with txns := [(1, { (default : Txn) with held := true })] } }, 1, _, by decide +kernel, someGetD
     (by decide +kernel), by and_intros <;> decide +kernel⟩,
   ⟨behind, 9, _, by decide +kernel, someGetD (by decide +kernel), by decide +kernel⟩,
   ⟨behind, 9, _, by decide +kernel, someGetD (by decide +kernel), by decide +kernel⟩,
   ⟨timing, 2, _, by decide +kernel, someGetD (by decide +kernel), by and_intros <;> decide +kernel⟩,
   ⟨timing, streamKey 1 0, by decide +kernel, by decide +kernel⟩,
   ⟨timing, 5, by decide +kernel, by decide +kernel⟩,
   ⟨timing, _, 3, 0, by decide +kernel, by decide +kernel, by decide +kernel, rfl⟩,
   ⟨timing, 4, 15, by and_intros <;> decide +kernel⟩,
   ⟨up, by decide +kernel⟩,
   ⟨timing, 8, _, _, by decide +kernel, rfl, rfl⟩,
   ⟨default, 1000, 1, 1, 0, by and_intros <;> decide +kernel⟩⟩

/-- The hypotheses of `Obligations.RegisterWritesAreClassified` are met, clause by clause. -/
theorem meets_RegisterWritesAreClassified :
    (∃ (s : State) (off : Nat) (value : Nat) (r : RegSpec) (old : Word) (new : Word), s.pwr.off = false ∧ off % 4 = 0 ∧ s.barAnswers off =
      true ∧ msixPlace 0 off = none ∧ findReg off = some (r, off) ∧ ownRow r.name = false ∧ r.isExpert = false ∧ r.scope = .module ∧ value <
      2 ^ 32 ∧ old = SMap.getD s.regs.shadow off r.reg.reset ∧ new = r.write old (BitVec.ofNat 64 value) 0xFFFFFFFF) ∧
    (∃ (s : State) (off : Nat) (r : RegSpec), s.pwr.off = false ∧ off % 4 = 0 ∧ s.barAnswers off = true ∧ msixPlace 0 off = none ∧ findReg
      off = some (r, off) ∧ ownRow r.name = false ∧ r.isExpert = true ∧ r.rw ≠ 0 ∧ s.unlockedAt off = false) ∧
    (∃ (s : State) (off : Nat) (lanes : Nat), s.pwr.off = false ∧ off % 4 = 0 ∧ s.barAnswers off = true ∧ 0 < lanes ∧ lanes < 15) ∧
    (∃ (s : State) (off : Nat) (lanes : Nat), s.pwr.off = false ∧ off % 4 = 0 ∧ s.barAnswers off = true ∧ lanes % 16 ≠ 0 ∧ 15 < lanes ∧
      lanes < 255 ∧ (s.fn 0).aer = []) ∧
    (∃ (s : State) (off : Nat), s.pwr.off = false ∧ off % 4 = 0 ∧ msixPlace 0 off = none ∧ findReg off = none) ∧
    (∃ (s : State) (off : Nat) (lanes : Nat), s.pwr.off = false ∧ off % 4 = 0 ∧ lanes % 16 ≠ 0 ∧ s.barAnswers off = false) ∧
    (∃ (s : State) (fn : Nat) (off : Nat) (len : Nat) (lanes : Nat) (a : Nat) (data : Bytes), s.pwr.off = false ∧ bit s.boot.dies 3 = true ∧
      0 < len ∧ off + len ≤ windowBytes fn ∧ data.length = len ∧ (∀ i < len, bit lanes i = true) ∧ (∀ i < len, s.windowAt fn (off + i) =
      some (a + i))) ∧
    (∃ (s : State) (fn : Nat) (off : Nat) (len : Nat) (lanes : Nat) (a : Nat) (r : Bytes × Bool × State), s.pwr.off = false ∧ bit
      s.boot.dies 3 = true ∧ 0 < len ∧ off + len ≤ windowBytes fn ∧ (∀ i < len, bit lanes i = true) ∧ (∀ i < len, s.windowAt fn (off + i) =
      some (a + i)) ∧ r = s.hbmRead a len) ∧
    (∃ (s : State) (fn : Nat) (off : Nat) (len : Nat) (lanes : Nat) (data : Bytes), s.pwr.off = false ∧ bit s.boot.dies 3 = true ∧ 0 < len ∧
      off + len ≤ windowBytes fn ∧ data.length = len ∧ (∀ i < len, bit lanes i = true) ∧ (∀ i < len, s.windowAt fn (off + i) = none)) ∧
    (∃ (s : State) (fn : Nat) (value : Nat) (n : Nat) (i : Inst), s.serves ∧ ((s.inst fn).isSome = true ∨ isPf fn = true) ∧ value < 2 ^ 64 ∧
      value % 2 = 1 ∧ s.rangeOf (value / 2 ^ 21 % 2 ^ 18 * 2 ^ 21) = some (n, i) ∧ mayName fn n = true) ∧
    (∃ (s : State) (fn : Nat) (value : Nat), s.serves ∧ ((s.inst fn).isSome = true ∨ isPf fn = true) ∧ value % 2 = 0) ∧
    (∃ (s : State) (fn : Nat) (value : Nat) (n : Nat) (i : Inst), s.serves ∧ isPf fn = true ∧ value < 2 ^ 64 ∧ value % 2 = 1 ∧ s.rangeOf
      (value / 2 ^ 21 % 2 ^ 18 * 2 ^ 21) = some (n, i) ∧ mayName fn n = false) :=
  ⟨⟨up, Reg.MEM_STACK_SEL.addr, 5, stackSel, 0, 5, by decide +kernel, (by decide +kernel), by decide +kernel, (by decide +kernel),
     findStackSel, by and_intros <;> decide +kernel⟩,
   ⟨up, Reg.XLT_DIRTY_THRESHOLD.addr, dirtyThreshold, by decide +kernel, (by decide +kernel), by decide +kernel, (by decide +kernel),
     findDirtyThreshold, by and_intros <;> decide +kernel⟩,
   ⟨up, 0x1C, 3, by and_intros <;> decide +kernel⟩,
   ⟨up, 0x1C, 0x1F, by and_intros <;> decide +kernel⟩,
   ⟨up, 0xFC, by decide +kernel, by decide +kernel, by decide +kernel, findNothing⟩,
   ⟨{ up with boot := { up.boot with dies := 7 } }, 0x1C, 15, by and_intros <;> decide +kernel⟩,
   ⟨windowed, 1, 64, 4, 15, 64, [1, 2, 3, 4], by and_intros <;> decide +kernel⟩,
   ⟨windowed, 1, 64, 4, 15, 64, _, by decide +kernel, (by decide +kernel), by decide +kernel, (by decide +kernel), by decide +kernel,
     (by decide +kernel), rfl⟩,
   ⟨up, 1, 64, 4, 15, [1, 2, 3, 4], by and_intros <;> decide +kernel⟩,
   ⟨up, 1, 3, _, _, ⟨by decide +kernel, by decide +kernel⟩, by decide +kernel, by decide +kernel, by decide +kernel, somePair
     (by decide +kernel), by decide +kernel⟩,
   ⟨up, 1, 2, ⟨by decide +kernel, by decide +kernel⟩, by decide +kernel, by decide +kernel⟩,
   ⟨{ up with vrt := { up.vrt with insts := SMap.put up.vrt.insts 0 { vfInst with hbmBase := 0x400000 } } }, 128, 0x400001, _, _,
     ⟨by decide +kernel, by decide +kernel⟩, by decide +kernel, by decide +kernel, by decide +kernel, somePair (by decide +kernel),
     by decide +kernel⟩⟩

/-- The hypotheses of `Obligations.FunctionsAreConfigured` are met, clause by clause. -/
theorem meets_FunctionsAreConfigured :
    (∃ (s : State) (p : Nat), s.pwr.off = false ∧ s.present (128 * p) = true ∧ (s.port p).rootRid = none) ∧
    (∃ (s : State) (t : State) (fn : Nat), s.pwr.off = false ∧ s.present fn = true ∧ (s.fn fn).busMaster = true ∧ (s.fn fn).held = false ∧ t
      = s.setFn fn { s.fn fn with busMaster := false }) ∧
    (∃ (s : State) (fn : Nat), s.pwr.off = false ∧ s.present fn = true ∧ (s.fn fn).busMaster = true ∧ (s.fn fn).held = true) ∧
    (∃ (s : State) (fn : Nat), s.pwr.off = false ∧ s.present fn = true) ∧
    (∃ (s : State) (t : State) (fn : Nat), s.pwr.off = false ∧ s.present fn = true ∧ (s.fn fn).held = false ∧ t = s.setFn fn
      { s.fn fn with d3hot := true }) ∧
    (∃ (s : State) (fn : Nat), s.pwr.off = false ∧ s.present fn = true ∧ (s.fn fn).held = true) ∧
    (∃ (s : State) (i : Instr) (fn : Nat) (v : Nat) (n : Nat) (rid : Nat) (enable : Bool) (mask : Bool), (i ∈ [Instr.busMasterEnableClear
      fn, .busMasterEnableSet fn, .d3hotEntry fn, .d3hotExit fn, .msixUnmask fn v enable mask, .functionLevelResetVf fn] ∨ fn = 128 * n ∧ i
      ∈ [Instr.firstConfigWrite n rid, .vfEnable n v, .vfDisable n, .functionLevelResetPf n]) ∧ s.pwr.off = false ∧ bit s.boot.dies 3 =
      false) ∧
    (∃ (s : State) (fn : Nat), s.pwr.off = false ∧ s.present fn = true) ∧
    (∃ (s : State) (t : State) (fn : Nat) (v : Nat), s.pwr.off = false ∧ s.present fn = true ∧ v < vectorsOf fn ∧ t = s.setFn fn
      { s.fn fn with msixEnable := true, fnMask := false, table := SMap.put (s.fn fn).table v { (s.fn fn).entry v with masked := false } }) ∧
    (∃ (s : State) (fn : Nat) (v : Nat), (s.fn fn).pending = [v] ∧ s.msixOpen fn v = true) ∧
    (∃ (s : State) (fn : Nat) (rid : Nat) (bar : Nat), s.pwr.off = false ∧ s.ridAccepted (portOf fn) rid bar = false) ∧
    (∃ (s : State) (fn : Nat) (rid : Nat) (bar : Nat), s.pwr.off = false ∧ s.ridAccepted (portOf fn) rid bar = false ∧ (s.fn fn).aer = []) ∧
    (∃ (s : State) (p : Nat) (n : Nat), s.pwr.off = false ∧ s.present (128 * p) = true ∧ (s.port p).vfEnabled = 0 ∧ n ≤ totalVfs) ∧
    (∃ (s : State) (p : Nat), s.pwr.off = false ∧ s.present (128 * p) = true) ∧
    (∃ (s : State) (fn : Nat), s.pwr.off = false ∧ s.present fn = true ∧ isPf fn = false) ∧
    (∃ (s : State) (p : Nat), s.pwr.off = false ∧ 1 ≤ p ∧ s.present (128 * p) = true) ∧
    (∃ (s : State) (t : State), s.pwr.off = false ∧ s.present 0 = true ∧ t = (((s.resetInst 0 false []).vfsOff 0).admReset 0).clearFn 0) ∧
    (∃ (s : State) (p : Nat) (width : Nat) (rate : Nat), s.pwr.off = false ∧ (s.port p).link = 1 ∧ width ∈ [4, 8, 16] ∧ rate ∈ [64, 128]) :=
  ⟨⟨up, 0, by and_intros <;> decide +kernel⟩,
   ⟨up, _, 1, by decide +kernel, (by decide +kernel), by decide +kernel, (by decide +kernel), rfl⟩,
   ⟨heldFn, 1, by and_intros <;> decide +kernel⟩,
   ⟨up, 1, by decide +kernel, by decide +kernel⟩,
   ⟨up, _, 1, by decide +kernel, by decide +kernel, by decide +kernel, rfl⟩,
   ⟨heldFn, 1, by and_intros <;> decide +kernel⟩,
   ⟨State.reset, .vfEnable 0 3, 0, 3, 0, 0, true, false, Or.inr (by decide +kernel), by decide +kernel, by decide +kernel⟩,
   ⟨up, 1, by decide +kernel, by decide +kernel⟩,
   ⟨up, _, 1, 4, by decide +kernel, by decide +kernel, by decide +kernel, rfl⟩,
   ⟨{ up with hif := { up.hif with fns := [(1, { (default : Fn) with busMaster := true, msixEnable := true, pending := [4], table := [(4, ⟨0x1000, 7, false⟩)] })] } },
     1, 4, by decide +kernel, by decide +kernel⟩,
   ⟨up.setReg (.HIF_PORT_CFG 0) 0x80000000, 1, 77, 0, by decide +kernel, by decide +kernel⟩,
   ⟨up.setReg (.HIF_PORT_CFG 0) 0x80000000, 1, 77, 0, by and_intros <;> decide +kernel⟩,
   ⟨up.setPort 1 { up.port 1 with vfEnabled := 0 }, 1, 5, by and_intros <;> decide +kernel⟩,
   ⟨up, 1, by decide +kernel, by decide +kernel⟩,
   ⟨up, 1, by and_intros <;> decide +kernel⟩,
   ⟨up, 1, by and_intros <;> decide +kernel⟩,
   ⟨up, _, by decide +kernel, by decide +kernel, rfl⟩,
   ⟨up.setPort 0 { up.port 0 with link := 1 }, 0, 16, 128, by and_intros <;> decide +kernel⟩⟩

/-- The hypotheses of `Obligations.PlainDescriptorsComplete` are met, clause by clause. -/
theorem meets_PlainDescriptorsComplete :
    (∃ (s : State) (n : Nat) (id : Nat) (qn : Nat) (w : Wq) (o : Op) (q : Qp), OpReady s n id 0x00 w o qn q) ∧
    (∃ (s : State) (n : Nat) (id : Nat) (qn : Nat) (w : Wq) (o : Op) (q : Qp), OpReady s n id 0x06 w o qn q) ∧
    (∃ (s : State) (t : State) (n : Nat) (id : Nat) (qn : Nat) (w : Wq) (o : Op) (q : Qp), OpReady s n id 0x0C w o qn q ∧ 1 ≤ leAt o.desc
      8 1 ∧ leAt o.desc 8 1 ≤ 4 ∧ s.takeHint (leAt o.desc 8 1) (leAt o.desc 16 8) = some t) ∧
    (∃ (s : State) (n : Nat) (id : Nat) (qn : Nat) (w : Wq) (o : Op) (q : Qp), OpReady s n id 0x0C w o qn q ∧ 4 < leAt o.desc 8 1) ∧
    (∃ (s : State) (n : Nat) (id : Nat) (op : Nat) (qn : Nat) (i : Instr) (w : Wq) (o : Op) (q : Qp), (i, op) ∈ [(Instr.nop n id, 0x00),
      (.read n id, 0x01), (.write n id, 0x02), (.writeNotify n id, 0x03), (.atomicFadd n id, 0x04), (.atomicCas n id, 0x05), (.fence n
      id, 0x06), (.tokenProduce n id, 0x07), (.tokenConsume n id, 0x07), (.tokenBarrier n id, 0x07), (.tokenCadence n id, 0x07), (.chain
      n id, 0x08), (.powerHintDescriptor n id, 0x0C), (.transit n id, 0x20)] ∧ s.pwr.off = false ∧ s.beginOp n id op = some (w, o, qn, q)
      ∧ q.state = 2) :=
  ⟨⟨work 0x00 [], 7, 3, _, _, _, _, opReady (by decide +kernel)⟩,
   ⟨work 0x06 [], 7, 3, _, _, _, _, opReady (by decide +kernel)⟩,
   ⟨work 0x0C [(8, 1, 2)], _, 7, 3, _, _, _, _, opReady (by decide +kernel), by decide +kernel, by decide +kernel, someGetD
     (by decide +kernel)⟩,
   ⟨work 0x0C [(8, 1, 5)], 7, 3, _, _, _, _, opReady (by decide +kernel), by decide +kernel⟩,
   ⟨let s := work 0x00 []; s.setQp 5 { (default : Qp) with state := 2 }, 7, 3, 0, _, .nop 7 3, _, _, _, by simp, by decide +kernel,
     someQuad (by decide +kernel), by decide +kernel⟩⟩

/-- The hypotheses of `Obligations.TransfersAndTokensBegin` are met, clause by clause. -/
theorem meets_TransfersAndTokensBegin :
    (∃ (s : State) (u : State) (n : Nat) (id : Nat) (qn : Nat) (op : Nat) (i : Instr) (acc : Access) (w : Wq) (o : Op) (q : Qp), (i, op,
      acc) ∈ [(Instr.read n id, 0x01, Access.write), (.write n id, 0x02, .read), (.writeNotify n id, 0x03, .read)] ∧ OpReady s n id op w o
      qn q ∧ dOp o.desc = op ∧ s.targetFail q (dForm o.desc) (dRemote o.desc) (dBytes o.desc) (dModule o.desc) (op == 0x03 && s.wickBad q
      (dWickModule o.desc)) = none ∧ (if dInline o.desc then (none, s) else s.localCheck w.inst (dLocal o.desc) (firstStep (dLocal o.desc)
      (dBytes o.desc)) acc) = (none, u)) ∧
    (∃ (s : State) (n : Nat) (id : Nat) (qn : Nat) (op : Nat) (st : Nat) (d : Nat) (i : Instr) (w : Wq) (o : Op) (q : Qp), (i, op) ∈
      [(Instr.read n id, 0x01), (.write n id, 0x02), (.writeNotify n id, 0x03)] ∧ OpReady s n id op w o qn q ∧ s.targetFail q (dForm o.desc)
      (dRemote o.desc) (dBytes o.desc) (dModule o.desc) (op == 0x03 && s.wickBad q (dWickModule o.desc)) = some (st, d)) ∧
    (∃ (remote : Nat) (len : Nat), 0 < len ∧ remote % 4096 + len ≤ 4096) ∧
    (∃ (s : State) (u : State) (n : Nat) (id : Nat) (qn : Nat) (op : Nat) (i : Instr) (w : Wq) (o : Op) (q : Qp), (i, op) ∈
      [(Instr.atomicFadd n id, 0x04), (.atomicCas n id, 0x05)] ∧ OpReady s n id op w o qn q ∧ s.targetFail q (dForm o.desc) (dRemote o.desc)
      (dWidth o.desc) (dModule o.desc) false = none ∧ (if dLocal o.desc = 0 then (none, s) else s.localCheck w.inst (dLocal o.desc) (dWidth
      o.desc) .write) = (none, u)) ∧
    (∃ (s : State) (u : State) (n : Nat) (id : Nat) (k : Nat) (qn : Nat) (w : Wq) (o : Op) (q : Qp) (m : Msg) (data : Bytes), s.pwr.off =
      false ∧ s.wq n = some w ∧ w.op id = some o ∧ w.qp = some qn ∧ s.qp qn = some q ∧ o.msgs[k]? = some m ∧ o.phase = .active ∧ m.state =
      .waiting ∧ ((w.ops.takeWhile fun x => x.id != id).all Op.passed && (o.msgs.take k).all fun x => x.state != .waiting) = true ∧ q.state
      = 1 ∧ o.affected = false ∧ m.isToken = false ∧ dForm o.desc ≠ 0 ∧ dOp o.desc ≠ 7 ∧ dOp o.desc ≠ 3 ∧ q.cached = true ∧ s.msgData n w o
      k m = (some (.inr data), u) ∧ (u.initPinned qn || u.pinRoom) = true ∧ (u.touchCtx qn).epochKnown m.dst = true) ∧
    (∃ (s : State) (t : State) (u : State) (n : Nat) (k : Nat) (qn : Nat) (e : Nat) (dst : Nat) (w : Wq) (o : Op) (q : Qp) (m : Msg) (data :
      Bytes) (p : Pkt) (r : Pkt), s.qpRoom qn = true ∧ s.freeEntry (.op n o.id k) = some e ∧ q.forerunner = false ∧ r = s.requestPkt w o n q
      qn m dst ∧ p = { r with ackReq := r.ackReq || s.lastInStream n o.id k qn q dst } ∧ s.injectHeld p = false ∧ s.bucket dst q.tc (if
      p.typ = 0x02 then m.len else data.length) = some t ∧ t.grant (.op n o.id k) = (true, u)) ∧
    (∃ (s : State) (u : State) (v : State) (n : Nat) (id : Nat) (k : Nat) (qn : Nat) (w : Wq) (o : Op) (q : Qp) (m : Msg) (data : Bytes),
      s.pwr.off = false ∧ s.wq n = some w ∧ w.op id = some o ∧ w.qp = some qn ∧ s.qp qn = some q ∧ o.msgs[k]? = some m ∧ o.phase = .active ∧
      m.state = .waiting ∧ ((w.ops.takeWhile fun x => x.id != id).all Op.passed && (o.msgs.take k).all fun x => x.state != .waiting) = true
      ∧ q.state = 1 ∧ o.affected = false ∧ m.isToken = true ∧ q.cached = true ∧ s.msgData n w o k m = (some (.inr data), u) ∧ (u.initPinned
      qn || u.pinRoom) = true ∧ dWickModule o.desc = (u.touchCtx qn).me ∧ (u.touchCtx qn).produce (dWick o.desc) (dTokens o.desc)
      ((u.touchCtx qn).epochNow q.partition) q.partition = (none, v)) ∧
    (∃ (s : State) (n : Nat) (id : Nat) (qn : Nat) (w : Wq) (o : Op) (q : Qp), OpReady s n id 0x07 w o qn q ∧ dAction o.desc = 0 ∧ s.inTorus
      (dWickModule o.desc) = true ∧ (q.connected = true → dWickModule o.desc = q.remoteModule)) ∧
    (∃ (s : State) (t : State) (n : Nat) (id : Nat) (qn : Nat) (w : Wq) (o : Op) (q : Qp) (x : Wick), OpReady s n id 0x07 w o qn q ∧ dAction
      o.desc = 1 ∧ (s.initPinned qn || s.pinRoom) = true ∧ s.wick (dWick o.desc) = some x ∧ dWickModule o.desc = s.me ∧ dTokens o.desc ≤
      x.depth ∧ q.partition = x.partition ∧ s.consumes < 4096 ∧ t = s.updOp n o.id (fun o => o.waitFrom s.now)) ∧
    (∃ (s : State) (t : State) (u : State) (n : Nat) (id : Nat) (qn : Nat) (g : Nat) (w : Wq) (o : Op) (q : Qp) (b : Barrier) (x : Group),
      OpReady s n id 0x07 w o qn q ∧ dAction o.desc = 2 ∧ (s.initPinned qn || s.pinRoom) = true ∧ g = leAt o.desc 16 2 ∧ s.bar g = some b ∧
      b.vacant = false ∧ s.group g = some x ∧ q.partition = x.partition ∧ t = s.updOp n o.id (fun o => o.waitFrom s.now) ∧ t.barArrive g n
      o.id = some u) ∧
    (∃ (s : State) (t : State) (u : State) (n : Nat) (id : Nat) (qn : Nat) (w : Wq) (o : Op) (q : Qp) (c : Cadence), OpReady s n id 0x07 w o
      qn q ∧ dAction o.desc = 3 ∧ (s.initPinned qn || s.pinRoom) = true ∧ t = s.cadenceBoundary q.partition ∧ SMap.find t.sch.cadences
      q.partition = some c ∧ u = t.updOp n o.id (fun o => o.waitFrom t.now)) ∧
    (∃ (s : State) (t : State) (n : Nat) (id : Nat) (w : Wq) (o : Op), s.pwr.off = false ∧ t = s.boundaryFirst n id ∧ t.wq n = some w ∧ w.op
      id = some o ∧ dOp o.desc = 7 ∧ o.phase = .waiting ∧ o.waitEnd ≠ 0 ∧ w.behind id = none) ∧
    (∃ (s : State) (t : State) (n : Nat) (id : Nat) (w : Wq) (o : Op) (x : Op), s.pwr.off = false ∧ t = s.boundaryFirst n id ∧ t.wq n = some
      w ∧ w.op id = some o ∧ dOp o.desc = 7 ∧ o.phase = .waiting ∧ o.waitEnd ≠ 0 ∧ w.behind id = some x) :=
  ⟨⟨work 0x02 [(8, 4, 8), (12, 1, 1), (16, 8, 256)], _, 7, 3, _, 2, .write 7 3, .read, _, _, _, by simp, opReady (by decide +kernel),
     by decide +kernel, by decide +kernel, pairSnd (by decide +kernel)⟩,
   ⟨work 0x02 [(8, 4, 8), (12, 1, 1), (36, 4, 5)], 7, 3, _, 2, _, _, .write 7 3, _, _, _, by simp, opReady (by decide +kernel), somePair
     (by decide +kernel)⟩,
   ⟨64, 8, by decide +kernel, by decide +kernel⟩,
   ⟨work 0x04 [(8, 1, 8), (12, 1, 1)], _, 7, 3, _, 4, .atomicFadd 7 3, _, _, _, by simp, opReady (by decide +kernel), by decide +kernel,
     pairSnd (by decide +kernel)⟩,
   ⟨begun 0x04 [(8, 1, 8), (12, 1, 1), (36, 4, 0)] false, _, 7, 3, 0, _, _, _, _, _, _, by decide +kernel, someGetD (by decide +kernel),
     someGetD (by decide +kernel), someGetD (by decide +kernel), someGetD (by decide +kernel), someGetD (by decide +kernel),
     by decide +kernel, (by decide +kernel), by decide +kernel, (by decide +kernel), by decide +kernel, (by decide +kernel),
     by decide +kernel, (by decide +kernel), by decide +kernel, (by decide +kernel), msgPair (by decide +kernel), by decide +kernel,
     by decide +kernel⟩,
   ⟨begun 0x02 [] false, _, _, 7, 0, 5, _, 1, default, { (default : Op) with id := 3, desc := descOf 0x02 [] }, default, default, [1], _, _,
     by decide +kernel, someGetD (by decide +kernel), by decide +kernel, rfl, rfl, by decide +kernel, someGetD (by decide +kernel), pairSnd
     (by decide +kernel)⟩,
   ⟨begun 0x07 [(44, 2, 9), (46, 2, 3)] true, _, _, 7, 3, 0, _, _, _, _, _, _, by decide +kernel, someGetD (by decide +kernel), someGetD
     (by decide +kernel), someGetD (by decide +kernel), someGetD (by decide +kernel), someGetD (by decide +kernel), by decide +kernel,
     (by decide +kernel), by decide +kernel, (by decide +kernel), by decide +kernel, (by decide +kernel), by decide +kernel, msgPair
     (by decide +kernel), by decide +kernel, by decide +kernel, pairSnd (by decide +kernel)⟩,
   ⟨work 0x07 [], 7, 3, _, _, _, _, opReady (by decide +kernel), by and_intros <;> decide +kernel⟩,
   ⟨work 0x07 [(8, 1, 1), (44, 2, 9), (46, 2, 3)], _, 7, 3, _, _, _, _, _, opReady (by decide +kernel), by decide +kernel,
     by decide +kernel, someGetD (by decide +kernel), by decide +kernel, (by decide +kernel), by decide +kernel, (by decide +kernel), rfl⟩,
   ⟨work 0x07 [(8, 1, 2), (16, 2, 1)], _, _, 7, 3, _, _, _, _, _, _, _, opReady (by decide +kernel), by decide +kernel, by decide +kernel,
     rfl, someGetD (by decide +kernel), by decide +kernel, someGetD (by decide +kernel), by decide +kernel, rfl, someGetD
     (by decide +kernel)⟩,
   ⟨work 0x07 [(8, 1, 3)], _, _, 7, 3, _, _, _, _, _, opReady (by decide +kernel), by decide +kernel, (by decide +kernel), rfl, someGetD
     (by decide +kernel), rfl⟩,
   ⟨workWith { (default : Op) with id := 3, desc := descOf 7 [], phase := .waiting, waitEnd := 1 }, _, 7, 3, _, _, by decide +kernel, rfl,
     someGetD (by decide +kernel), someGetD (by decide +kernel), by and_intros <;> decide +kernel⟩,
   ⟨waitingTwo, _, 7, 3, _, _, _, by decide +kernel, rfl, someGetD (by decide +kernel), someGetD (by decide +kernel), by decide +kernel,
     by decide +kernel, by decide +kernel, someGetD (by decide +kernel)⟩⟩

/-- The hypotheses of `Obligations.ReadsComeBack` are met, clause by clause. -/
theorem meets_ReadsComeBack :
    (∃ (s : State) (n : Nat) (id : Nat) (qn : Nat) (w : Wq) (o : Op) (q : Qp) (r : Bool × RBuf × State), OpReady s n id 0x08 w o qn q ∧ r =
      s.readIva w.inst w.inst (leAt o.desc 8 8) (leAt o.desc 16 4 * 64) false (fun off => .chainList n o.id off) o.list) ∧
    (∃ (s : State) (n : Nat) (id : Nat) (w : Wq) (o : Op), s.pwr.off = false ∧ s.wq n = some w ∧ w.op id = some o ∧ o.phase = .listRead ∧
      (o.list.fail.isSome = true ∨ (o.list.ready = true ∧ o.list.bytes.length = leAt o.desc 16 4 * 64)) ∧ s.listAwaited n id = false) ∧
    (∃ (s : State) (qpn : Nat) (p : Nat) (t : Nat), s.pwr.off = false ∧ (s.hif.ports.findSome? fun e => (e.2.tags.find? fun t : Nat × Tag =>
      t.2.waits.isNone && match t.2.purpose with | .context n => n == qpn | _ => false).map fun t => (e.1, t.1)) = some (p, t)) ∧
    (∃ (s : State) (n : Nat) (q : Qp) (x : Qp) (d : Bytes), s.qp n = some q ∧ q.filling = true ∧ leAt d 252 4 = crc32 (slice d 0 252) ∧ leAt
      d 0 3 = n ∧ x =
      { q with filling := false, initFill := false, cached := true, dirty := (q.state == 2 && leAt d 4 1 != 2) || (q.wq.isNone && leAt d 24 2 != 0xFFFF), joined := bit (leAt d 5 1) 7, state := if q.state = 2 then 2 else min 2 (leAt d 4 1), forerunner := bit (leAt d 5 1) 6, tc := leAt d 5 1 % 8, partition := leAt d 6 2, remoteModule := leAt d 8 4 % 2 ^ 17, remoteQpn := leAt d 12 3, sendPsn := leAt d 16 3, wq := if leAt d 24 2 = 0xFFFF ∨ q.wq.isNone then none else some (leAt d 24 2), cq := leAt d 26 2, keySlot := leAt d 32 2 }
      ∧ leAt d 12 3 = 0) ∧
    (∃ (s : State) (n : Nat) (q : Qp) (x : Qp) (d : Bytes), s.qp n = some q ∧ q.filling = true ∧ leAt d 252 4 = crc32 (slice d 0 252) ∧ leAt
      d 0 3 = n ∧ x =
      { q with filling := false, initFill := false, cached := true, dirty := (q.state == 2 && leAt d 4 1 != 2) || (q.wq.isNone && leAt d 24 2 != 0xFFFF), joined := bit (leAt d 5 1) 7, state := if q.state = 2 then 2 else min 2 (leAt d 4 1), forerunner := bit (leAt d 5 1) 6, tc := leAt d 5 1 % 8, partition := leAt d 6 2, remoteModule := leAt d 8 4 % 2 ^ 17, remoteQpn := leAt d 12 3, sendPsn := leAt d 16 3, wq := if leAt d 24 2 = 0xFFFF ∨ q.wq.isNone then none else some (leAt d 24 2), cq := leAt d 26 2, keySlot := leAt d 32 2 }
      ∧ leAt d 12 3 ≠ 0) ∧
    (∃ (s : State) (n : Nat) (q : Qp) (d : Bytes), s.qp n = some q ∧ q.filling = true ∧ (leAt d 252 4 ≠ crc32 (slice d 0 252) ∨ leAt d 0 3 ≠
      n)) ∧
    (∃ (s : State) (p : Nat) (t : Nat) (x : Tag), s.pwr.off = false ∧ s.liveTag p t = some x) ∧
    (∃ (s : State) (u : State) (p : Nat) (t : Nat) (status : Nat) (x : Tag), s.pwr.off = false ∧ s.liveTag p t = some x ∧ (status = 1 ∨
      status = 2) ∧ u = (s.freeTag p t).count (.HIF_ERR_CPL_COUNT p) ∧ (u.fn x.fn).aer = []) ∧
    (∃ (s : State) (u : State) (p : Nat) (t : Nat) (fn : Nat), s.pwr.off = false ∧ SMap.find (s.port p).tags t = none ∧ (s.port p).retired =
      [(t, fn)] ∧ u = (s.setPort p { s.port p with retired := [] }).issueNext p) ∧
    (∃ (s : State) (u : State) (p : Nat) (t : Nat) (x : Tag), s.pwr.off = false ∧ s.liveTag p t = some x ∧ u = s.freeTag p t) ∧
    (∃ (x : Tag) (n : Nat) (id : Nat) (off : Nat), x.purpose = .chainList n id off) ∧
    (∃ (x : Tag) (n : Nat) (id : Nat) (off : Nat), x.purpose = .chainList n id off) :=
  ⟨⟨work 0x08 [(16, 4, 1)], 7, 3, _, _, _, _, _, opReady (by decide +kernel), rfl⟩,
   ⟨workWith { (default : Op) with id := 3, desc := descOf 8 [(16, 4, 0)], phase := .listRead }, 7, 3, _, _, by decide +kernel, someGetD
     (by decide +kernel), someGetD (by decide +kernel), by and_intros <;> decide +kernel⟩,
   ⟨asking (.context 5), 5, _, _, by decide +kernel, somePair (by decide +kernel)⟩,
   ⟨fillingQp, 5, _, _, contextRecord, someGetD (by decide +kernel), by decide +kernel, (by decide +kernel), by decide +kernel, rfl,
     by decide +kernel⟩,
   ⟨fillingQp, 5, _, _, contextRecordTo 9, someGetD (by decide +kernel), by decide +kernel, (by decide +kernel), by decide +kernel, rfl,
     by decide +kernel⟩,
   ⟨fillingQp, 5, _, zeros 256, someGetD (by decide +kernel), by decide +kernel, by decide +kernel⟩,
   ⟨asking (.context 5), 0, 9, _, by decide +kernel, someGetD (by decide +kernel)⟩,
   ⟨asking (.context 5), _, 0, 9, 1, _, by decide +kernel, someGetD (by decide +kernel), by decide +kernel, rfl, by decide +kernel⟩,
   ⟨up.setPort 0 { up.port 0 with retired := [(9, 0)] }, _, 0, 9, 0, by decide +kernel, by decide +kernel, by decide +kernel, rfl⟩,
   ⟨asking (.context 5), _, 0, 9, _, by decide +kernel, someGetD (by decide +kernel), rfl⟩,
   ⟨⟨0, 64, .chainList 7 3 0, none, none⟩, 7, 3, 0, by decide +kernel⟩,
   ⟨⟨0, 64, .chainList 7 3 0, none, none⟩, 7, 3, 0, by decide +kernel⟩⟩

/-- The hypotheses of `Obligations.CollectivesAndTransitsAreLaunched` are met, clause by clause. -/
theorem meets_CollectivesAndTransitsAreLaunched :
    (∃ (s : State) (n : Nat) (id : Nat) (qn : Nat) (code : Nat) (g : Nat) (i : Instr) (w : Wq) (o : Op) (q : Qp) (x : Group), (i, code) ∈
      [(Instr.allReduce n id, coAllReduce), (.reduce n id, coReduce), (.reduceScatter n id, coReduceScatter), (.allGather n id,
      coAllGather), (.broadcast n id, coBroadcast), (.allToAll n id, coAllToAll)] ∧ OpReady s n id 0x10 w o qn q ∧ leAt o.desc 9 1 = code ∧
      g = leAt o.desc 8 1 ∧ s.pwr.on.contains 78 = true ∧ s.pwr.on.contains 79 = true ∧ s.collFail q o.desc = none ∧ s.group g = some x ∧
      x.coll = none) ∧
    (∃ (s : State) (n : Nat) (id : Nat) (qn : Nat) (code : Nat) (st : Nat) (d : Nat) (i : Instr) (w : Wq) (o : Op) (q : Qp), (i, code) ∈
      [(Instr.allReduce n id, coAllReduce), (.reduce n id, coReduce), (.reduceScatter n id, coReduceScatter), (.allGather n id,
      coAllGather), (.broadcast n id, coBroadcast), (.allToAll n id, coAllToAll)] ∧ OpReady s n id 0x10 w o qn q ∧ leAt o.desc 9 1 = code ∧
      s.pwr.on.contains 78 = true ∧ s.pwr.on.contains 79 = true ∧ s.collFail q o.desc = some (st, d)) ∧
    (∃ (s : State) (t : State) (n : Nat) (id : Nat) (qn : Nat) (code : Nat) (i : Instr) (w : Wq) (o : Op) (q : Qp), (i, code) ∈
      [(Instr.allReduce n id, coAllReduce), (.reduce n id, coReduce), (.reduceScatter n id, coReduceScatter), (.allGather n id,
      coAllGather), (.broadcast n id, coBroadcast), (.allToAll n id, coAllToAll)] ∧ OpReady s n id 0x10 w o qn q ∧ leAt o.desc 9 1 = code ∧
      t = (s.wakeDom 78).wakeDom 79 ∧ (t.domOn 78 && t.domOn 79) = false) ∧
    (∃ (s : State) (u : State) (n : Nat) (id : Nat) (qn : Nat) (m : Nat) (w : Wq) (o : Op) (q : Qp) (pr : Program), OpReady s n id 0x20 w o
      qn q ∧ s.transitFail q o.desc = (none, u) ∧ u.program (leAt o.desc 8 2) = some pr ∧ ((operandsOf (dOperands o.desc) (leAt o.desc 10
      1)).zipIdx.any fun x => u.operBusy qn x.1 (imgSlot pr.image x.2).2.2) = false ∧ u.executor (leAt o.desc 8 2) q.partition (leAt o.desc
      11 1) pr.image (operandsOf (dOperands o.desc) (leAt o.desc 10 1)) = some m) ∧
    (∃ (s : State) (u : State) (n : Nat) (id : Nat) (qn : Nat) (st : Nat) (d : Nat) (w : Wq) (o : Op) (q : Qp), OpReady s n id 0x20 w o qn q
      ∧ s.transitFail q o.desc = (some (st, d), u)) :=
  ⟨⟨work 0x10 [(8, 1, 1), (9, 1, 1), (10, 1, 1), (12, 4, 4), (24, 8, 4096), (36, 1, 3)], 7, 3, _, coAllReduce, _, .allReduce 7 3, _, _, _,
     _, by simp, opReady (by decide +kernel), by decide +kernel, rfl, by decide +kernel, by decide +kernel, by decide +kernel, someGetD
     (by decide +kernel), by decide +kernel⟩,
   ⟨work 0x10 [(8, 1, 1), (9, 1, 1), (10, 1, 1), (12, 4, 4), (11, 1, 4)], 7, 3, _, coAllReduce, _, _, .allReduce 7 3, _, _, _, by simp,
     opReady (by decide +kernel), by decide +kernel, by decide +kernel, by decide +kernel, somePair (by decide +kernel)⟩,
   ⟨let s := work 0x10 [(8, 1, 1), (9, 1, 1), (10, 1, 1), (12, 4, 4)]; s.setPwr { s.pwr with on := [] }, _, 7, 3, _, coAllReduce, .allReduce
     7 3, _, _, _, by simp, opReady (by decide +kernel), by decide +kernel, rfl, by decide +kernel⟩,
   ⟨work 0x20 [(8, 2, 4), (11, 1, 1)], _, 7, 3, _, _, _, _, _, _, opReady (by decide +kernel), pairSnd (by decide +kernel), someGetD
     (by decide +kernel), by decide +kernel, someGetD (by decide +kernel)⟩,
   ⟨work 0x20 [(8, 2, 5), (11, 1, 1)], _, 7, 3, _, _, _, _, _, _, opReady (by decide +kernel), pairSnd (somePair (by decide +kernel))⟩⟩

/-- A request of an arbiter, every tile at priority 1 but tile 5 at `p5`, and FAB at 2. -/
def arbReq (e : Nat) : ArbReq := ⟨some (e, 0), false, 0, false, none⟩

def arbCfg (p5 : Nat) : ArbCfg := ⟨fun p _ => if p = 8 then 2 else if p = 5 then p5 else 1, 16, 256⟩

/-- Parked on tile 2, with nothing pending. -/
def arbParked : Arb := { ports := [], last := 2, park := some (2, 0), queue := 0 }

/-- The worked table of R478 after its cycles 0 and 1: in cycle 0 tile 2 presents A and FAB presents F, in cycle 1 tile 2 presents B and tile 5
presents W. -/
def arbCycle0 : Arb × Nat × Nat := ((arbParked.ask 2 (arbReq 2)).ask 8 (arbReq 0)).cycle (arbCfg 1)

def arbCycle1 : Arb × Nat × Nat := ((arbCycle0.1.ask 2 (arbReq 2)).ask 5 (arbReq 5)).cycle (arbCfg 1)

/-- Cycle 2: the program of tile 5 is promoted to priority 2, and tile 5 withdraws W. -/
def arbCycle2 : Arb × Nat × Nat :=
  ({ arbCycle1.1 with ports := SMap.put arbCycle1.1.ports 5 [{ arbReq 5 with shown := 1, withdrawn := true }] }).cycle (arbCfg 2)

/-- The table's rows: A enters by the park, F wins and moves the park, W wins although withdrawn, and B moves the park back. -/
theorem test_arbiter_table : arbCycle0.2 = (0, 1) ∧ arbCycle0.1.park = some (2, 0) ∧ arbCycle1.1.park = some (8, 0) ∧
    arbCycle2.2 = (1, 0) ∧ arbCycle2.1.park = some (5, 0) ∧ (arbCycle2.1.cycle (arbCfg 2)).1.park = some (2, 0) := by decide +kernel

/-- Tiles 2 and 5 have presented a request each. -/
def arbOld : Arb := { arbParked with ports := [(2, [{ arbReq 2 with shown := 1 }]), (5, [{ arbReq 5 with shown := 1 }])] }

/-- Tile 2, parked, presents a request in this cycle. -/
def arbHit : Arb := arbParked.ask 2 (arbReq 2)

/-- Tile 2, parked, has withdrawn what it presented. -/
def arbGone : Arb := { arbParked with ports := [(2, [{ arbReq 2 with withdrawn := true }])] }

/-- The hypotheses of `Obligations.ArbitersGrantAndPark` are met, clause by clause. -/
theorem meets_ArbitersGrantAndPark :
    (∃ (b : Arb) (c : ArbCfg) (p x : Nat) (r y : ArbReq), b.winner c = some (p, r) ∧ x < 10 ∧ b.head x = some y ∧ y.shown ≠ 0 ∧ b.last < 10 ∧
      c.rank x y = c.rank p r) ∧
    (∃ (b : Arb) (c : ArbCfg) (p : Nat) (r : ArbReq), b.winner c = some (p, r) ∧ SMap.wf b.ports = true) ∧
    (∃ (b : Arb) (c : ArbCfg) (x : Nat) (y : ArbReq), b.winner c = none ∧ b.queue < 32 ∧ x < 10 ∧ b.head x = some y) ∧
    (∃ (b : Arb) (c : ArbCfg) (p idle : Nat) (r : ArbReq), b.winner c = none ∧ b.queue < 32 ∧ c.park ≠ 0 ∧ b.park = some (p, idle) ∧
      b.head p = some r ∧ r.shown = 0 ∧ r.withdrawn = false) ∧
    (∃ (b : Arb), 32 ≤ b.queue) ∧
    (∃ (b : Arb) (c : ArbCfg) (p idle : Nat), b.winner c = none ∧ b.park = some (p, idle) ∧ b.head p = none) ∧
    (∃ (b : Arb) (c : ArbCfg) (p idle : Nat) (r : ArbReq), b.winner c = none ∧ b.park = some (p, idle) ∧ b.head p = some r ∧ r.withdrawn = true) ∧
    (∃ (c : ArbCfg) (r : ArbReq), c.age < r.shown) ∧
    (∃ (c : ArbCfg) (r : ArbReq), r.shown ≤ c.age) :=
  ⟨⟨arbOld, arbCfg 1, 5, 2, { arbReq 5 with shown := 1 }, _, by decide +kernel, by decide +kernel, rfl, by and_intros <;> decide +kernel⟩,
   ⟨arbOld, arbCfg 1, 5, { arbReq 5 with shown := 1 }, by decide +kernel, by decide +kernel⟩,
   ⟨arbHit, arbCfg 1, 2, _, by decide +kernel, by decide +kernel, by decide +kernel, rfl⟩,
   ⟨arbHit, arbCfg 1, 2, 0, _, by decide +kernel, by decide +kernel, by decide +kernel, rfl, rfl, by decide +kernel, by decide +kernel⟩,
   ⟨{ arbParked with queue := 32 }, by decide +kernel⟩,
   ⟨arbParked, arbCfg 1, 2, 0, by decide +kernel, rfl, by decide +kernel⟩,
   ⟨arbGone, arbCfg 1, 2, 0, _, by decide +kernel, rfl, rfl, by decide +kernel⟩,
   ⟨arbCfg 1, { arbReq 2 with shown := 257 }, by decide +kernel⟩,
   ⟨arbCfg 1, arbReq 2, by decide +kernel⟩⟩

end Sys2Proof.Tests
end

/-!
The scope of the model: every command runs, every step keeps the canonical form, reset meets it, and the end of a command changes
nothing at rest. The one fact behind the first two is `exec_keeps`, which gathers what each command keeps.
-/

namespace Sys2Proof.Machine

/-- An outcome that keeps what a step must keep is a next state that does. -/
theorem KeepsOut.exists_next {s : State} {r : Result} (h : KeepsOut s r) : ∃ t, r = .next t ∧ Keeps s t := by
  cases h with
  | next t ht => exact ⟨t, rfl, ht⟩

theorem keeps_of_next {s t : State} {r : Result} (e : r = .next t) (h : KeepsOut s r) : Keeps s t := by
  subst e
  cases h
  assumption

/-- Only what `State.Canonical` names counts for it: the queue of commands does not. -/
theorem canonical_withPending {s : State} (p : List Instr) (hs : s.Canonical) : State.Canonical { s with pending := p } := hs

/-! ## What a command and a step keep -/

/-- Every command answers a next state that keeps what a step must keep, command by command as `exec` dispatches them. -/
theorem exec_keeps (i : Instr) (s : State) : KeepsOut s (exec i s) := by
  have h : Keeps s s := Keeps.refl s
  cases i with
  | admCmdProducerWrite => exact execAdmCmdProducerWrite_keeps h
  | adminCommandFetch => exact execAdminCommandFetch_keeps h
  | admCtrlEnableSet => exact execAdmCtrlEnableSet_keeps h
  | admCtrlEnableClear => exact execAdmCtrlEnableClear_keeps h
  | admReplyConsumerWrite => exact execAdmReplyConsumerWrite_keeps h
  | unlistedAdminOpcode => exact execUnlistedAdminOpcode_keeps h
  | identify => exact execIdentify_keeps h
  | negotiateVersion => exact execNegotiateVersion_keeps h
  | getFeature => exact execGetFeature_keeps h
  | setFeature => exact execSetFeature_keeps h
  | expertUnlock => exact execExpertUnlock_keeps h
  | expertLock => exact execExpertLock_keeps h
  | createWorkQueue => exact execCreateWorkQueue_keeps h
  | destroyWorkQueue => exact execDestroyWorkQueue_keeps h
  | createCompletionQueue => exact execCreateCompletionQueue_keeps h
  | destroyCompletionQueue => exact execDestroyCompletionQueue_keeps h
  | createEventQueue => exact execCreateEventQueue_keeps h
  | destroyEventQueue => exact execDestroyEventQueue_keeps h
  | quiesce => exact execQuiesce_keeps h
  | resume => exact execResume_keeps h
  | quiesceWaitLimit => exact execQuiesceWaitLimit_keeps h
  | snuffQueue => exact execSnuffQueue_keeps h
  | createQp => exact execCreateQp_keeps h
  | modifyQp => exact execModifyQp_keeps h
  | queryQp => exact execQueryQp_keeps h
  | destroyQp => exact execDestroyQp_keeps h
  | openSkylight => exact execOpenSkylight_keeps h
  | revokeSkylight => exact execRevokeSkylight_keeps h
  | querySkylight => exact execQuerySkylight_keeps h
  | mapPages => exact execMapPages_keeps h
  | unmapPages => exact execUnmapPages_keeps h
  | dirtyLogEnable => exact execDirtyLogEnable_keeps h
  | dirtyLogSwitch => exact execDirtyLogSwitch_keeps h
  | dirtyLogDisable => exact execDirtyLogDisable_keeps h
  | defineGroup => exact execDefineGroup_keeps h
  | releaseGroup => exact execReleaseGroup_keeps h
  | setCollectivePolicy => exact execSetCollectivePolicy_keeps h
  | loadTransitProgram => exact execLoadTransitProgram_keeps h
  | unloadTransitProgram => exact execUnloadTransitProgram_keeps h
  | allocateHallPages => exact execAllocateHallPages_keeps h
  | freeHallPages => exact execFreeHallPages_keeps h
  | pinPages => exact execPinPages_keeps h
  | unpinPages => exact execUnpinPages_keeps h
  | pinProgram => exact execPinProgram_keeps h
  | unpinProgram => exact execUnpinProgram_keeps h
  | setPlacementPolicy => exact execSetPlacementPolicy_keeps h
  | createWickQueue => exact execCreateWickQueue_keeps h
  | destroyWickQueue => exact execDestroyWickQueue_keeps h
  | defineBarrier => exact execDefineBarrier_keeps h
  | setGateList => exact execSetGateList_keeps h
  | setClassQuanta => exact execSetClassQuanta_keeps h
  | setCadence => exact execSetCadence_keeps h
  | loadKey => exact execLoadKey_keeps h
  | destroyKey => exact execDestroyKey_keeps h
  | createInstance => exact execCreateInstance_keeps h
  | destroyInstance => exact execDestroyInstance_keeps h
  | resetInstance => exact execResetInstance_keeps h
  | generationQuarantineEnd => exact execGenerationQuarantineEnd_keeps h
  | setInstanceShare => exact execSetInstanceShare_keeps h
  | powerHintCommand => exact execPowerHintCommand_keeps h
  | setPowerCap => exact execSetPowerCap_keeps h
  | readLifeLog => exact execReadLifeLog_keeps h
  | calRead => exact execCalRead_keeps h
  | calWrite => exact execCalWrite_keeps h
  | setDebugMux => exact execSetDebugMux_keeps h
  | firmwareStage => exact execFirmwareStage_keeps h
  | firmwareActivateNextPowerOn => exact execFirmwareActivateNextPowerOn_keeps h
  | firmwareActivateNow => exact execFirmwareActivateNow_keeps h
  | jobDomainCreate => exact execJobDomainCreate_keeps h
  | jobDomainFault => exact execJobDomainFault_keeps h
  | snapshot => exact execSnapshot_keeps h
  | wqDoorbell => exact execWqDoorbell_keeps h
  | doorbellHighDwordWrite => exact execDoorbellHighDwordWrite_keeps h
  | cqConsumerUpdate => exact execCqConsumerUpdate_keeps h
  | cqArm => exact execCqArm_keeps h
  | cqArmSolicited => exact execCqArmSolicited_keeps h
  | cqFullWaitExpiry => exact execCqFullWaitExpiry_keeps h
  | descriptorFetch => exact execDescriptorFetch_keeps h
  | descriptorArrival => exact execDescriptorArrival_keeps h
  | lqConsumerWrite => exact execLqConsumerWrite_keeps h
  | lqArm => exact execLqArm_keeps h
  | lqLostClear => exact execLqLostClear_keeps h
  | wqEnableClear => exact execWqEnableClear_keeps h
  | wqEnableSet => exact execWqEnableSet_keeps h
  | nop => exact execNop_keeps h
  | read => exact execRead_keeps h
  | write => exact execWrite_keeps h
  | writeNotify => exact execWriteNotify_keeps h
  | atomicFadd => exact execAtomicFadd_keeps h
  | atomicCas => exact execAtomicCas_keeps h
  | fence => exact execFence_keeps h
  | tokenProduce => exact execTokenProduce_keeps h
  | tokenConsume => exact execTokenConsume_keeps h
  | tokenBarrier => exact execTokenBarrier_keeps h
  | tokenCadence => exact execTokenCadence_keeps h
  | tokenWaitTimeout => exact execTokenWaitTimeout_keeps h
  | chain => exact execChain_keeps h
  | chainListArrival => exact execChainListArrival_keeps h
  | powerHintDescriptor => exact execPowerHintDescriptor_keeps h
  | allReduce => exact execAllReduce_keeps h
  | reduce => exact execReduce_keeps h
  | reduceScatter => exact execReduceScatter_keeps h
  | allGather => exact execAllGather_keeps h
  | broadcast => exact execBroadcast_keeps h
  | allToAll => exact execAllToAll_keeps h
  | transit => exact execTransit_keeps h
  | messageIssue => exact execMessageIssue_keeps h
  | contextFillReturn => exact execContextFillReturn_keeps h
  | hostReadCompletion => exact execHostReadCompletion_keeps h
  | completionTimeout => exact execCompletionTimeout_keeps h
  | writeReq => exact execWriteReq_keeps h
  | readReq => exact execReadReq_keeps h
  | atomicReq => exact execAtomicReq_keeps h
  | tokenReq => exact execTokenReq_keeps h
  | forwardedRequest => exact execForwardedRequest_keeps h
  | ack => exact execAck_keeps h
  | readResp => exact execReadResp_keeps h
  | atomicResp => exact execAtomicResp_keeps h
  | epochProbe => exact execEpochProbe_keeps h
  | epochNotice => exact execEpochNotice_keeps h
  | epochProbeTimeout => exact execEpochProbeTimeout_keeps h
  | epochTableAging => exact execEpochTableAging_keeps h
  | congestion => exact execCongestion_keeps h
  | unknownTypePacket => exact execUnknownTypePacket_keeps h
  | retransmitTimeout => exact execRetransmitTimeout_keeps h
  | retryLimitTimeout => exact execRetryLimitTimeout_keeps h
  | ackDelayExpiry => exact execAckDelayExpiry_keeps h
  | throttleTick => exact execThrottleTick_keeps h
  | collData => exact execCollData_keeps h
  | groupSetup => exact execGroupSetup_keeps h
  | treeUp => exact execTreeUp_keeps h
  | treeDown => exact execTreeDown_keeps h
  | revokeDrainDone => exact execRevokeDrainDone_keeps h
  | snapshotDrainDone => exact execSnapshotDrainDone_keeps h
  | treeUpRetry => exact execTreeUpRetry_keeps h
  | treeAckTimeout => exact execTreeAckTimeout_keeps h
  | domainSetup => exact execDomainSetup_keeps h
  | domainReady => exact execDomainReady_keeps h
  | transitLaunch => exact execTransitLaunch_keeps h
  | transitCancel => exact execTransitCancel_keeps h
  | transitDone => exact execTransitDone_keeps h
  | tileAllocation => exact execTileAllocation_keeps h
  | operatorChunkDone => exact execOperatorChunkDone_keeps h
  | transitWaitTimeout => exact execTransitWaitTimeout_keeps h
  | transitPriorityPromotion => exact execTransitPriorityPromotion_keeps h
  | trnCancelWrite => exact execTrnCancelWrite_keeps h
  | heatDecay => exact execHeatDecay_keeps h
  | placePropose => exact execPlacePropose_keeps h
  | moveStart => exact execMoveStart_keeps h
  | moveCopy => exact execMoveCopy_keeps h
  | moveDone => exact execMoveDone_keeps h
  | moveEnd => exact execMoveEnd_keeps h
  | thatchHint => exact execThatchHint_keeps h
  | collapseNote => exact execCollapseNote_keeps h
  | collapseDone => exact execCollapseDone_keeps h
  | forwardingEntryExpiry => exact execForwardingEntryExpiry_keeps h
  | pinWaitRetry => exact execPinWaitRetry_keeps h
  | programExclusionExpiry => exact execProgramExclusionExpiry_keeps h
  | cadenceBoundary => exact execCadenceBoundary_keeps h
  | countEpochBoundary => exact execCountEpochBoundary_keeps h
  | gateSwitch => exact execGateSwitch_keeps h
  | frameStart => exact execFrameStart_keeps h
  | queueSamplePeriod => exact execQueueSamplePeriod_keeps h
  | ppsEdge => exact execPpsEdge_keeps h
  | todMessage => exact execTodMessage_keeps h
  | ppsSourceLost => exact execPpsSourceLost_keeps h
  | ptpSync => exact execPtpSync_keeps h
  | ptpPdelayReq => exact execPtpPdelayReq_keeps h
  | ptpPdelayResp => exact execPtpPdelayResp_keeps h
  | syncSend => exact execSyncSend_keeps h
  | parentSyncLost => exact execParentSyncLost_keeps h
  | mailboxSend => exact execMailboxSend_keeps h
  | mailboxReceive => exact execMailboxReceive_keeps h
  | frameReceive => exact execFrameReceive_keeps h
  | pauseExpiry => exact execPauseExpiry_keeps h
  | pauseRefresh => exact execPauseRefresh_keeps h
  | txUnderrun => exact execTxUnderrun_keeps h
  | opticalPowerStable => exact execOpticalPowerStable_keeps h
  | linkLock => exact execLinkLock_keeps h
  | trainingStepTimeout => exact execTrainingStepTimeout_keeps h
  | hello => exact execHello_keeps h
  | helloSend => exact execHelloSend_keeps h
  | helloLost => exact execHelloLost_keeps h
  | signalLost => exact execSignalLost_keeps h
  | alignLost => exact execAlignLost_keeps h
  | fecDegrade => exact execFecDegrade_keeps h
  | heldLinkRetry => exact execHeldLinkRetry_keeps h
  | lpiIdleExpiry => exact execLpiIdleExpiry_keeps h
  | lpiWake => exact execLpiWake_keeps h
  | wakeTimeout => exact execWakeTimeout_keeps h
  | connectorOpen => exact execConnectorOpen_keeps h
  | connectorClose => exact execConnectorClose_keeps h
  | connectorDebounce => exact execConnectorDebounce_keeps h
  | lnkGroupEnableClear => exact execLnkGroupEnableClear_keeps h
  | lnkGroupEnableSet => exact execLnkGroupEnableSet_keeps h
  | lnkGroupRetrain => exact execLnkGroupRetrain_keeps h
  | lpiEnableWrite => exact execLpiEnableWrite_keeps h
  | lnkLinkDisable => exact execLnkLinkDisable_keeps h
  | lnkLinkEnable => exact execLnkLinkEnable_keeps h
  | lnkLinkRetrain => exact execLnkLinkRetrain_keeps h
  | txThresholdRestore => exact execTxThresholdRestore_keeps h
  | xltCommit => exact execXltCommit_keeps h
  | qpeCommit => exact execQpeCommit_keeps h
  | rtrCommit => exact execRtrCommit_keeps h
  | colCommit => exact execColCommit_keeps h
  | trnCommit => exact execTrnCommit_keeps h
  | plcCommit => exact execPlcCommit_keeps h
  | schCommit => exact execSchCommit_keeps h
  | lnkCommit => exact execLnkCommit_keeps h
  | vrtCommit => exact execVrtCommit_keeps h
  | hifCommit => exact execHifCommit_keeps h
  | pwrCommit => exact execPwrCommit_keeps h
  | memCommit => exact execMemCommit_keeps h
  | dbgCommit => exact execDbgCommit_keeps h
  | xltInvalAll => exact execXltInvalAll_keeps h
  | xltInvalInstance => exact execXltInvalInstance_keeps h
  | tableWalkDone => exact execTableWalkDone_keeps h
  | translationDrainDone => exact execTranslationDrainDone_keeps h
  | rtrClearWatermarks => exact execRtrClearWatermarks_keeps h
  | qpcStoreWrite => exact execQpcStoreWrite_keeps h
  | synBarParticipantsWrite => exact execSynBarParticipantsWrite_keeps h
  | vrtHoldWrite => exact execVrtHoldWrite_keeps h
  | restoreApply => exact execRestoreApply_keeps h
  | schHallTimeLatchRead => exact execSchHallTimeLatchRead_keeps h
  | memInjectArm => exact execMemInjectArm_keeps h
  | secEngineSelfTest => exact execSecEngineSelfTest_keeps h
  | elsClearLatch => exact execElsClearLatch_keeps h
  | elsDisableWrite => exact execElsDisableWrite_keeps h
  | hifWinBaseWrite => exact execHifWinBaseWrite_keeps h
  | registerWrite => exact execRegisterWrite_keeps h
  | windowAccess => exact execWindowAccess_keeps h
  | inboundRequestRefused => exact execInboundRequestRefused_keeps h
  | firstConfigWrite => exact execFirstConfigWrite_keeps h
  | busMasterEnableClear => exact execBusMasterEnableClear_keeps h
  | busMasterEnableSet => exact execBusMasterEnableSet_keeps h
  | d3hotEntry => exact execD3hotEntry_keeps h
  | msixUnmask => exact execMsixUnmask_keeps h
  | functionLevelResetVf => exact execFunctionLevelResetVf_keeps h
  | functionLevelResetPf => exact execFunctionLevelResetPf_keeps h
  | vfDisable => exact execVfDisable_keeps h
  | portLinkLoss => exact execPortLinkLoss_keeps h
  | perstAssert => exact execPerstAssert_keeps h
  | perstRelease => exact execPerstRelease_keeps h
  | powerOnReset => exact execPowerOnReset_keeps h
  | moduleReset => exact execModuleReset_keeps h
  | watchdogExpiry => exact execWatchdogExpiry_keeps h
  | codeWrite => exact execCodeWrite_keeps h
  | sramUe => exact execSramUe_keeps h
  | cpFault => exact execCpFault_keeps h
  | cpRestart => exact execCpRestart_keeps h
  | scrubRead => exact execScrubRead_keeps h
  | ceHourRollover => exact execCeHourRollover_keeps h
  | entropyStartupPass => exact execEntropyStartupPass_keeps h
  | entropyHealthFail => exact execEntropyHealthFail_keeps h
  | drbgReseed => exact execDrbgReseed_keeps h
  | estimatorTick => exact execEstimatorTick_keeps h
  | calGainUpdate => exact execCalGainUpdate_keeps h
  | powerHintEffect => exact execPowerHintEffect_keeps h
  | domainIdleOff => exact execDomainIdleOff_keeps h
  | domainWakeStart => exact execDomainWakeStart_keeps h
  | droopDetect => exact execDroopDetect_keeps h
  | droopSkipEnd => exact execDroopSkipEnd_keeps h
  | sensorSample => exact execSensorSample_keeps h
  | vpointStepDown => exact execVpointStepDown_keeps h
  | vpointStepUp => exact execVpointStepUp_keeps h
  | oeRepower => exact execOeRepower_keeps h
  | elsPresenceClose => exact execElsPresenceClose_keeps h
  | elsRampStart => exact execElsRampStart_keeps h
  | elsTrip => exact execElsTrip_keeps h
  | elsPresenceOpen => exact execElsPresenceOpen_keeps h
  | supplyLow => exact execSupplyLow_keeps h
  | supplyFault => exact execSupplyFault_keeps h
  | powerUp => exact execPowerUp_keeps h
  | serviceButtonShort => exact execServiceButtonShort_keeps h
  | serviceButtonLong => exact execServiceButtonLong_keeps h
  | lifeLogHourly => exact execLifeLogHourly_keeps h
  | getTid => exact execGetTid_keeps h
  | getPldmVersion => exact execGetPldmVersion_keeps h
  | getPldmTypes => exact execGetPldmTypes_keeps h
  | getPldmCommands => exact execGetPldmCommands_keeps h
  | getPdrRepositoryInfo => exact execGetPdrRepositoryInfo_keeps h
  | getPdr => exact execGetPdr_keeps h
  | getSensorReading => exact execGetSensorReading_keeps h
  | getStateEffecterStates => exact execGetStateEffecterStates_keeps h
  | modulePowerOn => exact execModulePowerOn_keeps h
  | modulePowerOff => exact execModulePowerOff_keeps h
  | modulePowerReset => exact execModulePowerReset_keeps h
  | locateEffecterSet => exact execLocateEffecterSet_keeps h
  | setNumericEffecterValue => exact execSetNumericEffecterValue_keeps h
  | getNumericEffecterValue => exact execGetNumericEffecterValue_keeps h
  | unsupportedPldmCommand => exact execUnsupportedPldmCommand_keeps h
  | requestUpdate => exact execRequestUpdate_keeps h
  | passComponentTable => exact execPassComponentTable_keeps h
  | updateComponent => exact execUpdateComponent_keeps h
  | requestFirmwareData => exact execRequestFirmwareData_keeps h
  | transferComplete => exact execTransferComplete_keeps h
  | verifyComplete => exact execVerifyComplete_keeps h
  | applyComplete => exact execApplyComplete_keeps h
  | activateFirmware => exact execActivateFirmware_keeps h
  | switchedLinkInService => exact execSwitchedLinkInService_keeps h
  | elsContactOpen => exact execElsContactOpen_keeps h
  | elsRampEnd => exact execElsRampEnd_keeps h
  | domainWakeDone => exact execDomainWakeDone_keeps h
  | tclkRelockDone => exact execTclkRelockDone_keeps h
  | supplyGood => exact execSupplyGood_keeps h
  | pcieLinkUp => exact execPcieLinkUp_keeps h
  | vfEnable => exact execVfEnable_keeps h
  | d3hotExit => exact execD3hotExit_keeps h
  | flashWriteDone => exact execFlashWriteDone_keeps h

/-- A step keeps what is to be kept of the state whose queue has lost its front command. -/
theorem step_keeps (s : State) : KeepsOut { s with pending := s.pending.tail } (step s) := by
  unfold step
  split
  next hp =>
    have h : Keeps { s with pending := s.pending.tail } s := ⟨by simp [hp], rfl, id, id, le_rfl, id⟩
    exact passTime_keeps h
  next c cs hp =>
    rw [hp]
    exact exec_keeps c _

/-! ## The statements -/

/-- Settles O5: `Keeps` is the stronger relation that every command and the passing of time meet, and it carries the canonical form over
from the state whose front command is taken. -/
theorem stepKeepsCanonical : Obligations.StepKeepsCanonical := by
  intro s t hs ht
  exact (keeps_of_next ht (step_keeps s)).canonical (canonical_withPending _ hs)

/-- Settles O9, part by part of `Calm`, in `finish_of_calm`. -/
theorem finishOfCalm : Obligations.FinishOfCalm := fun _ hs => finish_of_calm hs

/-- Settles O3: what a command keeps is said of a next state only, and `exec_keeps` says it of every command. -/
theorem everyCommandCompletes : Obligations.EveryCommandCompletes := by
  intro i s
  obtain ⟨t, ht, -⟩ := (exec_keeps i s).exists_next
  exact ⟨t, ht⟩

/-- Settles O6: memory and both register tables are empty at reset, and no SVN fuse is blown. -/
theorem resetIsCanonical : Obligations.ResetIsCanonical := by
  have hmem : Memory.wf State.reset.hbm.mem = true := rfl
  have hregs : State.reset.regs.wf = true := rfl
  have hsvn : State.reset.svc.svn = 0 := rfl
  exact ⟨hmem, hregs, hsvn.trans_le (Nat.zero_le 63)⟩

end Sys2Proof.Machine

/-!
The module as a whole, continued: what a step takes from the queue, what an idle cycle can still store, the capabilities of the part, and
the launch of collectives and transits.
-/

namespace Sys2Proof.Machine

/-! ## A step and its queue -/

/-- Settles O7: taking the front command leaves its tail, and everything a step then does keeps the queue and the variant (`step_keeps`). -/
theorem stepTakesOnlyTheFront : Obligations.StepTakesOnlyTheFront := by
  intro s t hs
  have h : Keeps { s with pending := s.pending.tail } t := keeps_of_next hs (step_keeps s)
  exact ⟨h.pending, h.variant⟩

/-! ## An idle cycle in which a program's write is stored

A running program's write waits at the arbiter of its channel and is stored when its access enters the command queue (R478), in a cycle with
no command waiting and no entry draining. -/

/-- A module right after reset but for program entry 0, which runs (R470), and for the arbiters of its channels. -/
def runningWith (arbs : SMap Arb) : State :=
  { State.reset with
    trn := { State.reset.trn with entries := [(0, { (default : TEntry) with state := 4, order := 1, tiles := some 0 })] }
    hbm := { State.reset.hbm with arbs } }

/-- An arbiter whose port 0 has just presented the request of entry 0's tile to store 1 at address 0. -/
def storeAsked : Arb := { (default : Arb) with ports := [(0, [⟨some (0, 1), true, 0, false, some (0, [1])⟩])] }

/-- The module just after entry 0's tile has written 1 to address 0. -/
def tileWrote : State := (((runningWith []).via (.tile 0 1 0 1)).physWrite 0 [1]).via .fab

/-- The write waits at its arbiter. Which tile accesses the unit is a free value (`Config.accessTile`), but a launch on one tile has no other. -/
theorem tileWrote_eq : tileWrote = runningWith [(0, storeAsked)] := by
  have hpieces : pieces 64 0 1 = [(0, 1)] := by decide
  simp [tileWrote, State.physWrite, State.arbAsk, State.portOfUnit, hpieces, State.via, stackOf, Nat.mod_one, runningWith, storeAsked, slice,
    channelOf, SMap.put, Arb.ask, SMap.getD, SMap.find]
  exact ⟨rfl, rfl⟩

theorem tileWrote_clock_pending : tileWrote.clock.pending = [] := by rw [tileWrote_eq]; decide +kernel

theorem tileWrote_clock_notDraining : ∀ e ∈ tileWrote.clock.trn.entries, e.2.state ≠ 5 := by rw [tileWrote_eq]; decide +kernel

theorem tileWrote_clock_mem : tileWrote.clock.hbm.mem = [] := by rw [tileWrote_eq]; decide +kernel

theorem tileWrote_clock_clock_mem : tileWrote.clock.clock.hbm.mem = [(0, 1)] := by rw [tileWrote_eq]; decide +kernel

/-- Refutes O2: in the second cycle after a running program's tile has written to address 0, its request wins arbitration and the byte is
stored, although no command waits and no entry drains. -/
theorem not_anEmptyQueueIdles : ¬ Obligations.AnEmptyQueueIdles := by
  intro h
  have hentry : ∀ k e, tileWrote.clock.entry k = some e → e.state ≠ 5 := fun k e he => tileWrote_clock_notDraining (k, e) (find_mem he)
  obtain ⟨-, -, hidle⟩ := h tileWrote.clock tileWrote_clock_pending
  obtain ⟨⟨-, -, hmem, -⟩, -⟩ := hidle tileWrote_clock_notDraining hentry
  rw [tileWrote_clock_mem, tileWrote_clock_clock_mem] at hmem
  exact List.cons_ne_nil _ _ hmem

/-! ## The capabilities of the part -/

/-- The row of `GLB_CAP0` in the register table (R50). -/
def cap0Spec : RegSpec := ⟨"GLB_CAP0", Reg.GLB_CAP0, [], 32, .module, 0, 0, 0, 0, 0⟩

theorem findReg_cap0 : findReg Reg.GLB_CAP0.addr = some (cap0Spec, Reg.GLB_CAP0.addr) := by decide +kernel

theorem view_cap0 (s : State) (fn x : Nat) : s.view fn "GLB_CAP0" x = some (BitVec.ofNat 64 s.cap0) := rfl

theorem mbxGone_cap0 (s : State) (fn : Nat) : s.mbxGone fn "GLB_CAP0" = false := by simp [State.mbxGone]

/-- `GLB_CAP0` has the same place in the BAR0 of every function (R720). -/
theorem offset_cap0 (fn : Nat) : (if isPf fn then some Reg.GLB_CAP0.addr else vfOffset Reg.GLB_CAP0.addr) = some Reg.GLB_CAP0.addr :=
  ite_self _

theorem managerOnly_cap0 : managerOnly Reg.GLB_CAP0.addr = false := by decide

/-- Settles O15: every function's BAR0 shows the register at its own place, and a read returns the variant's value, none of it masked. -/
theorem capabilitiesByVariant : Obligations.CapabilitiesByVariant := by
  intro s fn h
  have hname : cap0Spec.name = "GLB_CAP0" := rfl
  have hwo : cap0Spec.wo = 0 := rfl
  cases hv : s.variant <;>
    simp [State.readReg, offset_cap0, h, managerOnly_cap0, findReg_cap0, hname, hwo, mbxGone_cap0, view_cap0, State.cap0, hv]

/-! ## Collectives and transits -/

/-- What `State.beginOp` finds is the operation named, ready, with a descriptor of the opcode asked for. -/
theorem beginOp_found {s : State} {n id op : Nat} {w : Wq} {o : Op} {qn : Nat} {q : Qp} (h : s.beginOp n id op = some (w, o, qn, q)) :
    ((s.wq n).bind fun w => w.op id) = some o ∧ o.phase = .ready ∧ dOp o.desc = op := by
  unfold State.beginOp at h
  split at h
  next => cases h
  next x hw =>
    split at h
    next y k ho _ =>
      split at h
      next r _ =>
        split at h
        next hc =>
          obtain ⟨hphase, hop, -⟩ := hc
          cases h
          exact ⟨by rw [hw, Option.bind_some, ho], hphase, hop⟩
        next => cases h
      next => cases h
    next => cases h

theorem wakeDom_of_on {s : State} {d : Nat} (h : s.pwr.on.contains d = true) : s.wakeDom d = s := by
  unfold State.wakeDom
  simp only [h, Bool.or_true, Bool.true_or, if_true]

/-- The six rows of a COLLECTIVE with their operations (R400). -/
def collRows (n id : Nat) : List (Instr × Nat) :=
  [(.allReduce n id, coAllReduce), (.reduce n id, coReduce), (.reduceScatter n id, coReduceScatter), (.allGather n id, coAllGather),
    (.broadcast n id, coBroadcast), (.allToAll n id, coAllToAll)]

theorem exec_collRow {n id code : Nat} {i : Instr} (h : (i, code) ∈ collRows n id) (s : State) :
    exec i s = run s fun s => s.collRow n id code := by
  simp only [collRows, List.mem_cons, Prod.mk.injEq, List.not_mem_nil, or_false] at h
  rcases h with ⟨rfl, rfl⟩ | ⟨rfl, rfl⟩ | ⟨rfl, rfl⟩ | ⟨rfl, rfl⟩ | ⟨rfl, rfl⟩ | ⟨rfl, rfl⟩ <;> rfl

theorem exec_transit (n id : Nat) (s : State) : exec (.transit n id) s = run s fun s => s.transit n id := rfl

section
variable {s u : State} {n id code qn m st d : Nat} {w : Wq} {o : Op} {q : Qp}

/-- A COLLECTIVE whose turn it is wakes both adders, and goes on in a state that has them on (R41). -/
theorem collRow_ready (h : OpReady s n id 0x10 w o qn q) (hc : leAt o.desc 9 1 = code) (hu : u = (s.wakeDom 78).wakeDom 79) :
    s.collRow n id code = if u.domOn 78 && u.domOn 79 then u.collective n id code else u := by
  obtain ⟨ho, hphase, hop⟩ := beginOp_found h.begins
  simp [State.collRow, ho, hphase, hop, hc, h.begins, domAdder, hu]

theorem collRow_on (h : OpReady s n id 0x10 w o qn q) (hc : leAt o.desc 9 1 = code) (h78 : s.pwr.on.contains 78 = true)
    (h79 : s.pwr.on.contains 79 = true) : s.collRow n id code = s.collective n id code := by
  have hwake : s = (s.wakeDom 78).wakeDom 79 := by rw [wakeDom_of_on h78, wakeDom_of_on h79]
  have hon : (s.domOn 78 && s.domOn 79) = true := by simp only [State.domOn, h78, h79, Bool.and_self]
  rw [collRow_ready h hc hwake, if_pos hon]

theorem collective_posted {x : Group} (h : OpReady s n id 0x10 w o qn q) (hc : leAt o.desc 9 1 = code) (hf : s.collFail q o.desc = none)
    (hg : s.group (leAt o.desc 8 1) = some x) (hx : x.coll = none) :
    s.collective n id code = s.collPost n id w o q (leAt o.desc 8 1) x := by
  obtain ⟨ho, hphase, hop⟩ := beginOp_found h.begins
  simp [State.collective, ho, hphase, hop, hc, runOp_ready _ h, hf, hg, hx]

theorem collective_failed (h : OpReady s n id 0x10 w o qn q) (hc : leAt o.desc 9 1 = code) (hf : s.collFail q o.desc = some (st, d)) :
    s.collective n id code = s.opFail n id st d := by
  obtain ⟨ho, hphase, hop⟩ := beginOp_found h.begins
  simp [State.collective, ho, hphase, hop, hc, runOp_ready _ h, hf]

theorem transit_failed (h : OpReady s n id 0x20 w o qn q) (hf : s.transitFail q o.desc = (some (st, d), u)) :
    s.transit n id = u.opFail n id st d := by
  simp only [State.transit, runOp_ready _ h, hf]

theorem transit_launched {pr : Program} (h : OpReady s n id 0x20 w o qn q) (hf : s.transitFail q o.desc = (none, u))
    (hp : u.program (leAt o.desc 8 2) = some pr)
    (hb : ((operandsOf (dOperands o.desc) (leAt o.desc 10 1)).zipIdx.any fun x => u.operBusy qn x.1 (imgSlot pr.image x.2).2.2) = false)
    (he : u.executor (leAt o.desc 8 2) q.partition (leAt o.desc 11 1) pr.image (operandsOf (dOperands o.desc) (leAt o.desc 10 1)) = some m) :
    s.transit n id = if m = u.me ∨ o.here = true then u.launchHere n id q o.desc else u.launchAt n id w qn q pr o.desc m := by
  simp only [State.transit, runOp_ready _ h, hf, hp, hb, he, Bool.false_eq_true, if_false]

end

/-- Settles O49: the six collective rows are one row of the model (`exec_collRow`), and each clause is what that row, or a transit's, comes
to once its operation stands ready. -/
theorem collectivesAndTransitsAreLaunched : Obligations.CollectivesAndTransitsAreLaunched := by
  refine ⟨?post, ?fail, ?wake, ?launch, ?refuse⟩
  case post =>
    intro s n id qn code g i w o q x hi h hc hg h78 h79 hf hx hn
    subst hg
    rw [exec_collRow hi, run_on _ h.on, collRow_on h hc h78 h79, collective_posted h hc hf hx hn]
  case fail =>
    intro s n id qn code st d i w o q hi h hc h78 h79 hf
    rw [exec_collRow hi, run_on _ h.on, collRow_on h hc h78 h79, collective_failed h hc hf]
  case wake =>
    intro s t n id qn code i w o q hi h hc ht hoff
    rw [exec_collRow hi, run_on _ h.on, collRow_ready h hc ht, hoff, if_neg Bool.false_ne_true]
  case launch =>
    intro s u n id qn m w o q pr h hf hp hb he
    rw [exec_transit, run_on _ h.on, transit_launched h hf hp hb he]
  case refuse =>
    intro s u n id qn st d w o q h hf
    rw [exec_transit, run_on _ h.on, transit_failed h hf]

end Sys2Proof.Machine

/-!
Hall memory and the plain descriptors: what an admin row and a work descriptor's row answer once their operation stands ready, then hall
pages, page mappings, skylights, and the descriptors that touch no memory.
-/

namespace Sys2Proof.Machine

/-! ## Rows that are ready -/

theorem par_params (c : Cmd) (i : Nat) : par c.params i = c.arg i := rfl

theorem begun_stage (c : Cmd) : c.begun.stage = c.stage := rfl

section
variable {s b t : State} {p k op st d : Nat} {r : Bytes} {sel : List Nat → Bool} {auth : State → List Nat → Bool}
  {body : State → Cmd → List Nat → AdmRes} {c c' : Cmd}

/-- An admin row whose command begins now, and whose body replies, answers that reply. -/
theorem adminRow_replies (h : CmdReady s p k op sel auth c) (hb : b = s.begin p k c) (hr : body b c.begun c.params = .reply st d r t) :
    run s (fun s => s.adminRun p k op sel auth body) = .next (t.replied p k st d r).finish := by
  subst hb
  rw [run_on _ h.on, adminRun_reply h hr]

/-- An admin row whose command begins now, and whose body waits, keeps the command. -/
theorem adminRow_waits (h : CmdReady s p k op sel auth c) (hb : b = s.begin p k c) (hr : body b c.begun c.params = .wait c' t) :
    run s (fun s => s.adminRun p k op sel auth body) = .next (t.keep p k c').finish := by
  subst hb
  rw [run_on _ h.on, adminRun_wait h hr]

end

section
variable {s : State} {n id op qn : Nat} {w : Wq} {o : Op} {q : Qp} (f : State → Wq → Op → Nat → Qp → State)

theorem opRow_ready (h : OpReady s n id op w o qn q) : run s (fun s => s.runOp n id op f) = .next (f s w o qn q).finish := by
  rw [run_on _ h.on, runOp_ready f h]

/-- In ERROR an operation completes ABORTED at issue, whatever its row would do, and whether or not its context is in the cache (R250). -/
theorem opRow_aborted (hon : s.pwr.off = false) (hb : s.beginOp n id op = some (w, o, qn, q)) (hq : q.state = 2) :
    run s (fun s => s.runOp n id op f) = .next (s.opFail n id stAborted 0).finish := by
  have hr : s.runOp n id op f = s.opFail n id stAborted 0 := by simp only [State.runOp, hb, hq, if_true]
  rw [run_on _ hon, hr]

end

/-! ## Hall pages -/

theorem allocPage_of_takeFrame {s t : State} {i partition f : Nat} {readOnly : Bool} (h : s.takeFrame (.home i) = some (f, t)) :
    s.allocPage i partition readOnly = some ((t.setPage i { (default : Page) with
      state := .home, before := .home, readOnly, partition, seq := 1, writer := t.me, lastChange := t.nowUs, frame := f }).setHeld
        (pageKey t.me i) { (default : Held) with frame := f, seq := 1, partition, readOnly, home := t.me }) := by
  simp only [State.allocPage, h]

/-! ## Page mappings -/

/-- The mappings of `i` with those that a MAP_PAGES adds in place of what they cover (R121). -/
def mapsWith (c : Cmd) (i : Inst) (targets : List Nat) : SMap Leaf :=
  (targets.mapIdx fun j a =>
    (c.arg 1 + j * pageBytes (c.arg 2), (⟨c.arg 2, kindOf (c.arg 4), a, c.arg 5 == 1, c.arg 6 == 1⟩ : Leaf))).foldl
      (fun m e => SMap.put m e.1 e.2) (apart i.maps (c.arg 1) (c.arg 1 + c.arg 3 * pageBytes (c.arg 2)))

/-- Whether a MAP_PAGES of a virtual function, with its targets known, meets its checks and covers nothing that is mapped (R120). -/
structure MapsUnmapped (s : State) (c : Cmd) (i : Inst) (targets : List Nat) : Prop where
  inst : s.inst (c.arg 0) = some i
  virtual : isPf (c.arg 0) = false
  aligned : c.arg 1 % pageBytes (c.arg 2) = 0
  pages : (targets.any fun a => a % pageBytes (c.arg 2) != 0) = false
  allowed : (targets.any fun a => !s.targetOk (c.arg 0) i (kindOf (c.arg 4)) a (pageBytes (c.arg 2))) = false
  unmapped : overlapping i.maps (c.arg 1) (c.arg 1 + c.arg 3 * pageBytes (c.arg 2)) = []

/-- It takes no frame by name, needs no drain, and replies at once when its tables have been placed. -/
theorem mapPages_unmapped {s t : State} {p k : Nat} {c0 c : Cmd} {targets : List Nat} {i : Inst} {maps : SMap Leaf} {tables : SMap Nat}
    (h : MapsUnmapped s c i targets) (hmaps : maps = mapsWith c i targets)
    (hplace : (s.takeNamed (c.arg 0) []).placeTables (c.arg 0) i maps
      (((tablesFor maps).map (·.1)).filter fun key => !SMap.has (SMap.keep i.tables fun key _ => SMap.has (tablesFor maps) key) key)
      (SMap.keep i.tables fun key _ => SMap.has (tablesFor maps) key) = some (tables, t)) :
    let v := (t.setMaps (c.arg 0) i maps tables).forgetEnds (c.arg 0) (c.arg 1) (c.arg 1 + c.arg 3 * pageBytes (c.arg 2))
    s.mapPages p k c0 c.params targets = .reply stSuccess 0 (resultBytes [(32, c.arg 3), (32, v.tablesLeft (c.arg 0))]) v := by
  subst hmaps
  unfold mapsWith at hplace ⊢
  simp [State.mapPages, par_params, h.inst, h.virtual, h.aligned, h.pages, h.allowed, h.unmapped, hplace]

/-- Settles O19, clause by clause; MAP_PAGES comes to `mapPages_unmapped` whether its targets are consecutive or have been read. -/
theorem hallPagesAreAllocatedAndMapped : Obligations.HallPagesAreAllocatedAndMapped := by
  refine ⟨⟨?allocate, ?free, ?page⟩, ?map, ?unmap⟩
  case allocate =>
    intro s p k c t h b hpart hcount hend hnew hroom hframes hall
    refine adminRow_replies (b := b) h rfl ?_
    simp only [par_params, hpart, hcount, hend.not_gt, hroom.not_gt, hframes.not_gt, hall, or_self, if_false, AdmRes.ok]
    exact if_neg (Bool.eq_false_iff.1 hnew)
  case free =>
    intro s p k c h b hstage hcount hend hall
    refine adminRow_waits (b := b) h rfl ?_
    simp only [par_params, begun_stage, hstage, hcount, hend.not_gt, hall, Nat.zero_ne_one, or_self, Bool.not_true, Bool.false_eq_true,
      if_false]
  case page =>
    intro s t i partition f readOnly h
    exact allocPage_of_takeFrame h
  case map =>
    intro s p k c c0 u t v i targets fresh maps tables h b hstage hinst hcount hmax hrights hkind hend htargets hi hlo hpages hok hfree
      hvf hfresh hmaps hplace hv
    subst hfresh hv
    refine adminRow_replies (b := b) h rfl ?_
    have hmap := mapPages_unmapped (p := p) (k := k) (c0 := c0) ⟨hi, hvf, hlo, hpages, hok, hfree⟩ hmaps hplace
    have hfields : ¬ ((b.inst (c.arg 0)).isNone ∨ c.arg 3 = 0 ∨ 65536 < c.arg 3 ∨ (c.arg 5 = 0 ∧ c.arg 6 = 0) ∨ c.arg 4 = 3 ∨
        2 ^ 48 < c.arg 1 + c.arg 3 * pageBytes (c.arg 2)) := by
      simp only [Option.isNone_eq_false_iff.2 hinst, Bool.false_eq_true, false_or]
      omega
    simp only [par_params, begun_stage, hstage, hfields, Nat.zero_ne_one, if_false]
    rcases htargets with ⟨hlist, rfl, rfl, rfl⟩ | ⟨hlist, l, hread, rfl⟩
    · simp only [hlist, if_true]
      exact hmap
    · simp only [hlist, hread, if_false]
      exact hmap
  case unmap =>
    intro s p k c i hi h b hstage hinst hcount hmax hhi hend
    subst hhi
    refine adminRow_waits (b := b) h rfl ?_
    simp only [par_params, begun_stage, hstage, hinst, hcount, hmax.not_gt, hend.not_gt, Nat.zero_ne_one, or_self, if_false]

/-! ## Skylights -/

/-- Settles O51: each clause is the branch of its command's body that the clause's conditions choose. -/
theorem skylightsAreOpenedAndRevoked : Obligations.SkylightsAreOpenedAndRevoked := by
  refine ⟨?opened, ?revoke, ?join, ?query⟩
  case opened =>
    intro s p k c i n h b hi hpart hrange hrights hentropy hroom hdrawn hn
    refine adminRow_replies (b := b) h rfl ?_
    simp only [par_params, hi, hpart, hrange, hrights, hentropy, hroom, hdrawn, hn, Option.isNone_some, Bool.not_true, Bool.false_eq_true,
      or_self, if_false, AdmRes.ok]
  case revoke =>
    intro s p k c x h b hstage hx hopen
    refine adminRow_waits (b := b) h rfl ?_
    simp only [par_params, begun_stage, hstage, hx, hopen, Nat.zero_ne_one, if_false]
  case join =>
    intro s p k c x h b hstage hx hrevoking
    refine adminRow_waits (b := b) h rfl ?_
    simp only [par_params, begun_stage, hstage, hx, hrevoking, Nat.zero_ne_one, if_false, if_true]
  case query =>
    intro s p k c x h b hx
    refine adminRow_replies (b := b) h rfl ?_
    simp only [par_params, hx, AdmRes.ok]

/-! ## Descriptors that touch no memory -/

theorem hintKnown_iff (h : Nat) : hintKnown h = true ↔ 1 ≤ h ∧ h ≤ 4 := by simp [hintKnown]

/-- The rows of the work descriptors but those of a COLLECTIVE, each with its opcode (R256). -/
def opRows (n id : Nat) : List (Instr × Nat) :=
  [(.nop n id, 0x00), (.read n id, 0x01), (.write n id, 0x02), (.writeNotify n id, 0x03), (.atomicFadd n id, 0x04), (.atomicCas n id, 0x05),
    (.fence n id, 0x06), (.tokenProduce n id, 0x07), (.tokenConsume n id, 0x07), (.tokenBarrier n id, 0x07), (.tokenCadence n id, 0x07),
    (.chain n id, 0x08), (.powerHintDescriptor n id, 0x0C), (.transit n id, 0x20)]

/-- Each of them begins an operation of its opcode; they differ in how it goes on. -/
theorem exec_opRow {n id : Nat} {r : Instr × Nat} (h : r ∈ opRows n id) : ∃ f, ∀ s, exec r.1 s = run s fun s => s.runOp n id r.2 f := by
  fin_cases h <;> exact ⟨_, fun _ => rfl⟩

/-- Settles O59: a plain descriptor's row is its body once the operation stands ready (`opRow_ready`), and every row aborts alike
(`exec_opRow`, `opRow_aborted`). -/
theorem plainDescriptorsComplete : Obligations.PlainDescriptorsComplete := by
  refine ⟨?nop, ?fence, ?hint, ?unknown, ?aborted⟩
  case nop =>
    intro s n id qn w o q h
    exact opRow_ready _ h
  case fence =>
    intro s n id qn w o q h
    exact opRow_ready _ h
  case hint =>
    intro s t n id qn w o q h hlo hhi htaken
    refine (opRow_ready _ h).trans ?_
    simp only [(hintKnown_iff _).2 ⟨hlo, hhi⟩, htaken, Bool.not_true, Bool.false_eq_true, if_false]
  case unknown =>
    intro s n id qn w o q h hbig
    refine (opRow_ready _ h).trans ?_
    have hbad : hintKnown (leAt o.desc 8 1) = false := by
      rw [Bool.eq_false_iff, ne_eq, hintKnown_iff]
      omega
    simp only [hbad, Bool.not_false, if_true]
  case aborted =>
    intro s n id op qn i w o q hi hon hb hq
    obtain ⟨f, hf⟩ := exec_opRow hi
    exact (hf s).trans (opRow_aborted f hon hb hq)

end Sys2Proof.Machine

/-!
Translation and the reads behind it: dirty logs, walks, drains and invalidations, what comes back for a read, and the commits of the
shadowed sets.
-/

namespace Sys2Proof.Machine

/-! ## Walks and invalidations -/

theorem exec_tableWalkDone {s : State} (hon : s.pwr.off = false) (walk : Nat) :
    exec (.tableWalkDone walk) s = .next (s.walkDone walk).poisonsMet.finish := by
  show execTableWalkDone walk s = _
  rw [execTableWalkDone, run_on _ hon]
  rfl

/-- `State.walkDone` goes on with the walk of a generation that is still current. -/
theorem inst_ofGen {s : State} {w : Walk} {i : Inst} (hi : s.inst w.inst = some i) (hgen : i.gen = w.gen) :
    (s.inst w.inst).filter (fun i => i.gen == w.gen) = some i := by
  rw [hi, Option.filter_some, if_pos (beq_iff_eq.2 hgen)]

section
variable {s : State} (f : State → State)

theorem xltInval_idle (h : s.expertOpen 0 Reg.XLT_INVAL.addr) (hidle : s.xlt.invalWait = []) :
    s.xltInval 0 f = { f s with xlt := { (f s).xlt with invalWait := s.xlt.walks.map fun (e : Nat × Walk) => e.1 } } := by
  simp only [State.xltInval, expert_open 4 _ h, hidle, ne_eq, not_true_eq_false, if_false]

theorem xltInval_busy (h : s.expertOpen 0 Reg.XLT_INVAL.addr) (hbusy : s.xlt.invalWait ≠ []) :
    s.xltInval 0 f = s.expertDrop Reg.XLT_INVAL.addr := by
  simp only [State.xltInval, expert_open 4 _ h, if_pos hbusy]

end

/-- Settles O41: each command of a dirty log takes the branch that its clause's conditions choose, a walk ends by what `State.walkFrom`
read, and a write of XLT_INVAL turns on whether one is in progress (`xltInval_idle`, `xltInval_busy`). -/
theorem dirtyLogsAndTranslationsAreKept : Obligations.DirtyLogsAndTranslationsAreKept := by
  refine ⟨⟨?enable, ?switch, ?confirm, ?disable⟩, ?leaf, ?fault, ?drain, ?all, ?one, ?dropped⟩
  case enable =>
    intro s p k c i h b hi hop hlo hlen hpos hmax hA hB hfree hapart
    refine adminRow_replies (b := b) h rfl ?_
    simp only [par_params, hi, hop.not_gt, hlo, hlen, hpos, hmax.not_gt, hA, hB, hfree, Bool.false_or, ne_eq, not_true_eq_false, or_self,
      if_false, AdmRes.ok]
    exact if_neg (Bool.eq_false_iff.1 hapart)
  case switch =>
    intro s p k c d e h b hd hrun hquiet he hrun' hlines hawaits hposted
    refine adminRow_replies (b := b) h rfl ?_
    simp only [par_params, hd, hrun, hquiet, he, hrun', hlines, hawaits, hposted, ne_eq, not_true_eq_false, Bool.false_eq_true, or_self,
      if_false, AdmRes.ok]
  case confirm =>
    intro s p k c d e h b hd hrun hquiet he hrun' hlines hawaits hposted
    refine adminRow_waits (b := b) h rfl ?_
    simp only [par_params, hd, hrun, hquiet, he, hrun', hlines, hawaits, hposted, ne_eq, not_true_eq_false, not_false_eq_true,
      Bool.false_eq_true, or_self, if_true, if_false]
  case disable =>
    intro s p k c h b hused hclosed
    refine adminRow_replies (b := b) h rfl ?_
    simp only [par_params, Option.isNone_eq_false_iff.2 hused, hclosed, Bool.false_eq_true, if_true, if_false, AdmRes.ok]
  case leaf =>
    intro s u walk w i e hon hw hi hgen hover hread
    rw [exec_tableWalkDone hon]
    simp only [State.walkDone, hw, inst_ofGen hi hgen, hover, hread, Bool.false_eq_true, if_false]
  case fault =>
    intro s u walk kind w i hon hw hi hgen hover hread
    rw [exec_tableWalkDone hon]
    simp only [State.walkDone, hw, inst_ofGen hi hgen, hover, hread, Bool.false_eq_true, if_false]
  case drain =>
    intro s n d w hon hd hwho
    show execTranslationDrainDone n s = _
    simp only [execTranslationDrainDone, run_on _ hon, State.useDrainDone, hd, hwho, State.replied]
  case all =>
    intro s h hidle
    show execXltInvalAll 0 s = _
    rw [execXltInvalAll, run_on _ h.1, xltInval_idle _ h hidle]
  case one =>
    intro s n h hidle
    show execXltInvalInstance 0 n s = _
    rw [execXltInvalInstance, run_on _ h.1, xltInval_idle _ h hidle]
  case dropped =>
    intro s h hbusy
    show execXltInvalAll 0 s = _
    rw [execXltInvalAll, run_on _ h.1, xltInval_busy _ h hbusy]

/-! ## Reads that come back -/

theorem liveTag_eq_none {s : State} {p t : Nat} (h : SMap.find (s.port p).tags t = none) : s.liveTag p t = none := by
  simp only [State.liveTag, h]

/-- Settles O38: a completion turns on whether its tag is live, retired or neither, a fill on its slot's CHECK and QPN, and a CHAIN's list on
whether it is whole. -/
theorem readsComeBack : Obligations.ReadsComeBack := by
  refine ⟨?chain, ?list, ?fill, ?context, ?badContext, ?success, ?error, ?late, ?timeout, ?landed, ?failed⟩
  case chain =>
    intro s n id qn w o q r h hr
    subst hr
    exact opRow_ready _ h
  case list =>
    intro s n id w o hon hw ho hphase hread hawaited
    show execChainListArrival n id s = _
    simp only [execChainListArrival, run_on _ hon, hw, ho, hphase, hread, hawaited, ne_eq, not_true_eq_false, Bool.false_eq_true, if_true,
      if_false]
  case fill =>
    intro s qpn p t data hon htag
    show execContextFillReturn qpn data s = _
    rw [execContextFillReturn, run_on _ hon]
    dsimp only
    split
    next hnone => cases htag.symm.trans hnone
    next hsome =>
      cases htag.symm.trans hsome
      rfl
  case context =>
    intro s n q x d hq hfilling hcheck hqpn hx
    have hgood : ¬ (leAt d 252 4 ≠ crc32 (slice d 0 252) ∨ leAt d 0 3 ≠ n) := fun h => h.elim (· hcheck) (· hqpn)
    constructor <;> intro hto <;>
      simp only [State.fillDone, hq, hfilling, hgood, hto, hx, Bool.not_true, Bool.false_eq_true, if_true, if_false]
  case badContext =>
    intro s n q d hq hfilling hbad
    simp only [State.fillDone, hq, hfilling, hbad, Bool.not_true, Bool.false_eq_true, if_true, if_false]
  case success =>
    intro s p t x data hon hlive
    show execHostReadCompletion p t 0 data s = _
    simp only [execHostReadCompletion, run_on _ hon, hlive, if_true]
  case error =>
    intro s u p t status x data hon hlive hstatus hu haer
    subst hu
    show execHostReadCompletion p t status data s = _
    rcases hstatus with rfl | rfl <;> simp [execHostReadCompletion, run_on _ hon, hlive, haer]
  case late =>
    intro s u p t fn status data hon hfree hretired hu
    subst hu
    show execHostReadCompletion p t status data s = _
    simp [execHostReadCompletion, run_on _ hon, liveTag_eq_none hfree, hretired]
  case timeout =>
    intro s u p t x hon hlive hu
    show execCompletionTimeout p t s = _
    simp only [execCompletionTimeout, run_on _ hon, hlive, hu]
  case landed =>
    intro s x n id off b hx
    simp only [State.arrived, hx, RBuf.got]
  case failed =>
    intro s x n id off e hx
    simp only [State.arrived, hx, RBuf.got]

/-! ## A commit that moves the shapers

SCH_COMMIT fills every shaper and policer up to now at the rates in use before it takes the new ones (R617), so it changes more than the
committed set. -/

/-- What of a module counts for `State.calm` is no register. -/
theorem commitRegs_calm (s : State) (rs : List Reg) : (s.commitRegs rs).calm = s.calm := by
  induction rs generalizing s with
  | nil => rfl
  | cons r rs ih => exact ih (s.setCom r (s.reg r))

theorem commitRegs_sch (s : State) (rs : List Reg) : (s.commitRegs rs).sch = s.sch := by
  induction rs generalizing s with
  | nil => rfl
  | cons r rs ih => exact ih (s.setCom r (s.reg r))

theorem finish_commitRegs_sch {s : State} (hs : s.calm = true) (rs : List Reg) : (s.commitRegs rs).finish.sch = s.sch := by
  rw [finish_of_calm ((commitRegs_calm s rs).trans hs), commitRegs_sch]

/-- A module at rest with its blocks unlocked, 64 ns after the shaper of class 0 of group 0 stood 100 bytes below zero. The shaper's rate in
use is 1 GB/s. -/
def shaperOwing : State :=
  { State.reset.setCom (.SCH_CLASS_CFG 0 0) (setFld (Reg.SCH_CLASS_CFG 0 0).reset 47 38 1) with
    now := 64
    boot := { State.reset.boot with dies := 15, loaded := true }
    adm := { State.reset.adm with unlocked := 0x7FFF }
    sch := { State.reset.sch with shapers := [(0, ⟨-100, 0⟩)] } }

theorem shaperOwing_expertOpen : shaperOwing.expertOpen 0 Reg.SCH_COMMIT.addr := ⟨rfl, by decide +kernel, rfl, by decide +kernel⟩

theorem shaperOwing_calm : shaperOwing.calm = true := by decide +kernel

theorem shaperOwing_consistent : (∀ g ∈ List.range 8, ∀ c ∈ List.range 8, shaperOwing.classOk g c = true) ∧
    shaperOwing.regF .SCH_TIME_CFG 31 24 ≠ 0 ∧ shaperOwing.regF .SCH_TIME_CFG 7 0 ≠ 0 ∧
    shaperOwing.regF .SCH_TIME_CFG 7 0 < shaperOwing.regF .SCH_TIME_CFG 23 12 * 16 := by decide +kernel

/-- The commit fills the shaper by 64 bytes, at the rate in use until then. -/
theorem schCommit_shaperOwing : ∃ t, exec (.schCommit 0) shaperOwing = .next t ∧ t.sch.shapers = [(0, ⟨-36, 64⟩)] := by
  have hopen : shaperOwing.fillAll.expertOpen 0 Reg.SCH_COMMIT.addr := shaperOwing_expertOpen
  have hcalm : shaperOwing.fillAll.calm = true := shaperOwing_calm
  have hfilled : shaperOwing.fillAll.sch.shapers = [(0, ⟨-36, 64⟩)] := by decide +kernel
  show ∃ t, execSchCommit 0 shaperOwing = .next t ∧ _
  rw [execSchCommit, run_on _ rfl, commit_good _ _ hopen]
  · exact ⟨_, rfl, by rw [finish_commitRegs_sch hcalm, hfilled]⟩
  · decide +kernel

/-- Refutes O43 by its clause on SCH_COMMIT: of `shaperOwing`, whose set is consistent, the clause names a next state in which the shaper still
stands at -100 bytes, where the commit answers one in which it stands at -36 (`schCommit_shaperOwing`). -/
theorem not_commitsTakeConsistentSetsOnly : ¬ Obligations.CommitsTakeConsistentSetsOnly := by
  intro h
  obtain ⟨-, -, -, -, -, -, hsch, -⟩ := h
  obtain ⟨t, ht, hfilled⟩ := schCommit_shaperOwing
  have hnamed := ht.symm.trans (hsch shaperOwing shaperOwing_expertOpen)
  rw [if_pos shaperOwing_consistent] at hnamed
  cases hnamed
  rw [finish_commitRegs_sch shaperOwing_calm] at hfilled
  exact absurd hfilled (by decide)

end Sys2Proof.Machine

/-!
Queues: the arithmetic of their indices, their creation and destruction, how a work queue stops and resumes, and how its descriptors are
fetched and judged.
-/

namespace Sys2Proof.Machine

/-! ## Ring indices -/

theorem slotOf_eq_and (index log2 : Nat) : slotOf index log2 = index &&& ((1 <<< log2) - 1) := by
  rw [Nat.one_shiftLeft, Nat.and_two_pow_sub_one_eq_mod, slotOf]

theorem distance_eq_emod {src dst : Nat} (hsrc : src < 2 ^ 24) (hdst : dst < 2 ^ 24) :
    (distance src dst : Int) = ((dst : Int) - src) % 2 ^ 24 := by
  simp only [distance, ringMod]
  omega

/-- Settles O11: the low bits of an index are its remainder, and a modular distance is the remainder of the difference. -/
theorem ringIndices : Obligations.RingIndices :=
  ⟨slotOf_eq_and, fun _ _ => distance_eq_emod, fun _ _ => rfl⟩

/-! ## Queues that are removed

What a removal does beside deleting the queue leaves the tables of queues alone. -/

theorem addCounter_q (s : State) (key addr sel n : Nat) : (s.addCounter key addr sel n).q = s.q := by
  unfold State.addCounter
  dsimp only
  split <;> rfl

theorem gutter_q (s : State) (cause : Nat) : (s.gutter cause).q = s.q := (addCounter_q ..).trans (addCounter_q ..)

theorem foldl_q {α : Type} {f : State → α → State} (hf : ∀ t a, (f t a).q = t.q) (l : List α) (s : State) : (l.foldl f s).q = s.q :=
  List.foldlRecOn l f (motive := fun t => t.q = s.q) rfl fun t ht a _ => (hf t a).trans ht

theorem wq_removeWq (s : State) (n : Nat) (hwf : SMap.wf s.q.wqs = true) : (s.removeWq n).wq n = none := by
  unfold State.removeWq
  split
  next hnone => exact hnone
  next => exact find_del_same s.q.wqs n hwf

/-- Sending a completion queue's records to the gutter changes no queue. -/
theorem removeCq_q {s : State} {c : Nat} {q : Cq} (hc : s.cq c = some q) : (s.removeCq c).q = { s.q with cqs := SMap.del s.q.cqs c } := by
  simp only [State.removeCq, hc]
  rw [foldl_q, foldl_q] <;> exact fun t _ => gutter_q t gRecord

theorem cq_removeCq (s : State) (c : Nat) (hwf : SMap.wf s.q.cqs = true) : (s.removeCq c).cq c = none := by
  cases hc : s.cq c with
  | none => rwa [State.removeCq, hc]
  | some q =>
    rw [State.cq, removeCq_q hc]
    exact find_del_same s.q.cqs c hwf

theorem lq_removeLq (s : State) (l : Nat) (hwf : SMap.wf s.q.lqs = true) : (s.removeLq l).lq l = none := by
  unfold State.removeLq
  split
  next hnone => exact hnone
  next =>
    rw [State.lq, State.countN, addCounter_q]
    exact find_del_same s.q.lqs l hwf

/-! ## Creation and destruction -/

/-- Settles O39: each command takes the branch of its body that its clause's conditions choose, and each removal deletes its queue from a
table that is in order (`wq_removeWq`, `cq_removeCq`, `lq_removeLq`). -/
theorem queuesAreCreatedAndDestroyed : Obligations.QueuesAreCreatedAndDestroyed := by
  refine ⟨⟨?createWq, ?createCq, ?createLq⟩, ?destroyWq, ?destroyCq, ?destroyLq, ?removed⟩
  case createWq =>
    intro s p k c i q w h b hi hq hinst hlo hhi hstate hring hw
    refine adminRow_replies (b := b) h rfl ?_
    simp only [par_params, State.createWq, hi, hq, hinst, hlo.not_gt, hhi.not_gt, hstate, hring, hw, ne_eq, not_true_eq_false,
      Bool.not_true, Bool.false_eq_true, or_self, if_false, AdmRes.ok]
  case createCq =>
    intro s p k c i l m h b hi hl hinst hlo hhi herror hring hroom hm
    refine adminRow_replies (b := b) h rfl ?_
    simp only [par_params, State.createCq, hi, hl, hinst, hlo.not_gt, hhi.not_gt, herror, hring, hroom, hm, ne_eq, not_true_eq_false,
      Bool.not_true, Bool.false_eq_true, or_self, if_false, AdmRes.ok]
  case createLq =>
    intro s p k c i m h b hi hvector hlo hhi hring hroom hm
    refine adminRow_replies (b := b) h rfl ?_
    simp only [par_params, State.createLq, hi, hvector.not_ge, hlo.not_gt, hhi.not_gt, hring, hroom, hm, Bool.not_true,
      Bool.false_eq_true, or_self, if_false, AdmRes.ok]
    rfl
  case destroyWq =>
    intro s p k c w h b hw hinst hidle
    refine adminRow_replies (b := b) h rfl ?_
    simp only [par_params, hw, hinst, hidle, ne_eq, not_true_eq_false, if_false, AdmRes.ok]
  case destroyCq =>
    intro s p k c q h b hq hinst hfed
    refine adminRow_replies (b := b) h rfl ?_
    simp only [par_params, hq, hinst, hfed, ne_eq, not_true_eq_false, Bool.false_eq_true, if_false, AdmRes.ok]
  case destroyLq =>
    intro s p k c l h b hl hinst hfed
    refine adminRow_replies (b := b) h rfl ?_
    simp only [par_params, hl, hinst, hfed, ne_eq, not_true_eq_false, Bool.false_eq_true, if_false, AdmRes.ok]
  case removed =>
    intro s n hwqs hcqs hlqs
    exact ⟨wq_removeWq s n hwqs, cq_removeCq s n hcqs, lq_removeLq s n hlqs⟩

/-! ## Stopping and resuming -/

/-- What an expert write that sets ENABLE comes to, by the state of its queue (R186). -/
theorem wqEnableSet_open {s : State} {n size : Nat} {w : Wq} (h : s.expertOpen 0 (wqStateAt n size)) (hw : s.wq n = some w) :
    exec (.wqEnableSet 0 (n, size)) s = .next (if w.state = .idle then s.resumeWq n
      else if w.state = .enabled then s else s.expertDrop (wqStateAt n size)).finish := by
  show execWqEnableSet 0 (n, size) s = _
  simp only [execWqEnableSet, run_on _ h.1, expert_open _ _ h, hw]

/-- Settles O50: a command that stops a queue replies or waits by the state in which it leaves the queue, and an expert write of ENABLE acts
by the state in which it finds it (`wqEnableSet_open`). -/
theorem workQueuesStopAndResume : Obligations.WorkQueuesStopAndResume := by
  refine ⟨?drains, ?idle, ?resume, ?snuff, ?limit, ?clear, ?setIdle, ?setEnabled, ?setOther⟩
  case drains =>
    intro s p k c w v h b hstage hsel hw hinst hv hbusy
    refine adminRow_waits (b := b) h rfl ?_
    simp only [par_params, begun_stage, hstage, hsel, hw, hinst, hv, hbusy, Nat.zero_ne_one, ne_eq, not_true_eq_false, if_false]
  case idle =>
    intro s p k c w v h b hstage hsel hw hinst hv hidle
    refine adminRow_replies (b := b) h rfl ?_
    simp only [par_params, begun_stage, hstage, hsel, hw, hinst, hv, hidle, Nat.zero_ne_one, ne_eq, not_true_eq_false, if_false, if_true,
      AdmRes.ok]
  case resume =>
    intro s p k c w h b hw hinst hidle
    refine adminRow_replies (b := b) h rfl ?_
    simp only [par_params, hw, hinst, hidle, ne_eq, not_true_eq_false, if_false, AdmRes.ok]
  case snuff =>
    intro s p k c w v h b hstage hw hinst hfresh hv hsnuffing
    refine adminRow_waits (b := b) h rfl ?_
    simp only [par_params, begun_stage, hstage, hw, hinst, hfresh, hv, hsnuffing, Nat.zero_ne_one, ne_eq, not_true_eq_false, if_false,
      if_true]
  case limit =>
    intro s p k c hon hc hruns hop hstage hlimit
    show execQuiesceWaitLimit p k s = _
    simp only [execQuiesceWaitLimit, run_on _ hon, hc, par_params, hop, hstage, hlimit, hruns, ne_eq, not_true_eq_false, Bool.not_true,
      Bool.false_eq_true, or_self, if_false, State.replied]
  case clear =>
    intro s n size h
    show execWqEnableClear 0 (n, size) s = _
    simp only [execWqEnableClear, run_on _ h.1, expert_open _ _ h]
  case setIdle =>
    intro s n size w h hw hidle
    rw [wqEnableSet_open h hw, if_pos hidle]
  case setEnabled =>
    intro s n size w h hw henabled
    rw [wqEnableSet_open h hw, henabled]
    rfl
  case setOther =>
    intro s n size w h hw hidle henabled
    rw [wqEnableSet_open h hw, if_neg hidle, if_neg henabled]

/-! ## Fetch and judgement -/

/-- A queue may fetch when it and its instance are in service, nothing holds it, and its next read covers a unit. -/
theorem fetchable_of_units {s : State} {w : Wq} {i : Inst} (hstate : w.state = .enabled) (hi : s.inst w.inst = some i)
    (hhold : i.hold = false) (hactive : i.state = .active) (hheld : (s.fn w.inst).held = false) (hrun : s.snapStopped w = false)
    (hunits : w.fetchUnits ≠ 0) : s.fetchable w = true := by
  simp [State.fetchable, hstate, hi, hhold, hactive, hheld, hrun, hunits]

/-- A fetch read of a ring in HBM that meets no poison puts its units into the prefetch buffer at once. -/
theorem fetchWq_hbm {s u : State} {n t : Nat} {w : Wq} (hw : s.wq n = some w) (hf : s.fetchable w = true)
    (hlook : s.lookup (.ringFetch n w.fetch) w.inst (w.ring + slotOf w.fetch w.log2 * 64) .read = (.ok .hbm t, u))
    (hsound : (u.hbmRead t (w.fetchUnits * 64)).2.1 = false) :
    s.fetchWq n = (u.hbmRead t (w.fetchUnits * 64)).2.2.setWq n { w with
      fetch := advance w.fetch w.fetchUnits, fresh := false,
      units := putUnits w.units w.fetch (u.hbmRead t (w.fetchUnits * 64)).1 w.fetchUnits } := by
  simp only [State.fetchWq, hw, hf, hlook, hsound, Bool.not_true, Bool.false_eq_true, if_false]

/-- Settles O29: a fetch reads what `Wq.fetchUnits` covers (`fetchWq_hbm`), and a whole descriptor of a right length that meets its checks
stays the new operation that it was taken as. -/
theorem descriptorsAreFetchedAndJudged : Obligations.DescriptorsAreFetchedAndJudged := by
  refine ⟨?fetch, ?judge⟩
  case fetch =>
    intro s u n k t w i hon hturn hw hstate hi hhold hactive hheld hrun hk hunits hlook hsound
    obtain rfl : k = w.fetchUnits := hk
    have hf : s.fetchable w = true := fetchable_of_units hstate hi hhold hactive hheld hrun hunits
    show execDescriptorFetch n s = _
    rw [execDescriptorFetch, run_on _ hon, if_pos hturn, fetchWq_hbm (s := { s with q := { s.q with turn := n } }) hw hf hlook hsound]
  case judge =>
    intro s n len w u0 d hon hw hu0 hwhole hlen hpos hmax hend hd hgood
    subst hlen hd
    show execDescriptorArrival n s = _
    simp only [execDescriptorArrival, run_on _ hon, State.judge, hw, hu0, hwhole, hpos, hmax.not_gt, hend.not_gt, hgood, Bool.not_true,
      Bool.false_eq_true, or_self, if_false]

end Sys2Proof.Machine

/-!
The administration of the module: what a commit takes into use, the admin queues and their replies, the power commands, and the guard of the
expert writes.
-/

namespace Sys2Proof.Machine

/-! ## Commits -/

theorem com_setCom_same (s : State) (r : Reg) (v : Word) : (s.setCom r v).com r = v := getD_put_same ..

theorem com_setCom_other (s : State) {x r : Reg} (v : Word) (h : x.addr ≠ r.addr) : (s.setCom x v).com r = s.com r :=
  getD_put_other _ _ _ h.symm

theorem com_commitRegs_other {set : List Reg} {r : Reg} (s : State) (h : ∀ x ∈ set, x.addr ≠ r.addr) :
    (s.commitRegs set).com r = s.com r := by
  induction set generalizing s with
  | nil => rfl
  | cons x xs ih =>
    obtain ⟨hx, hxs⟩ := List.forall_mem_cons.1 h
    exact (ih _ hxs).trans (com_setCom_other s _ hx)

/-- Of the registers that share the offset of `r` the last one in the set decides, so the set may hold no other than `r` itself. -/
theorem com_commitRegs_mem {set : List Reg} {r : Reg} (s : State) (hr : r ∈ set) (hone : ∀ x ∈ set, x.addr = r.addr → x = r) :
    (s.commitRegs set).com r = s.reg r := by
  induction set generalizing s with
  | nil => exact absurd hr List.not_mem_nil
  | cons x xs ih =>
    obtain ⟨hx, hxs⟩ := List.forall_mem_cons.1 hone
    by_cases hmem : r ∈ xs
    · exact ih (s.setCom x (s.reg x)) hmem hxs
    · have hlast : ∀ y ∈ xs, y.addr ≠ r.addr := fun y hy haddr => hmem (hxs y hy haddr ▸ hy)
      obtain rfl : r = x := (List.mem_cons.1 hr).resolve_right hmem
      exact (com_commitRegs_other _ hlast).trans (com_setCom_same s r _)

/-- Settles O16, by induction on the set: a register's own turn gives it its shadow, and no other turn touches it. -/
theorem commitTakesTheSetIntoUse : Obligations.CommitTakesTheSetIntoUse := fun s _ _ =>
  ⟨com_commitRegs_mem s, com_commitRegs_other s⟩

/-! ## The state of an admin queue -/

theorem put_put_same {α : Type} (m : SMap α) (k : Nat) (v w : α) : SMap.put (SMap.put m k v) k w = SMap.put m k w := by
  induction m with
  | nil => simp [SMap.put]
  | cons e m ih =>
    obtain ⟨j, x⟩ := e
    simp only [SMap.put]
    split_ifs with hlt heq
    · simp [SMap.put]
    · simp [SMap.put]
    · simp [SMap.put, hlt, heq, ih]

@[simp] theorem adm1_setAdm_same (s : State) (p : Nat) (a : AdmQ) : (s.setAdm p a).adm1 p = a := getD_put_same ..

@[simp] theorem setAdm_setAdm_same (s : State) (p : Nat) (a b : AdmQ) : (s.setAdm p a).setAdm p b = s.setAdm p b := by
  simp only [State.setAdm, put_put_same]

@[simp] theorem admCtrl_setAdm (s : State) (p n hi lo : Nat) (a : AdmQ) : (s.setAdm p a).admCtrl n hi lo = s.admCtrl n hi lo := rfl

@[simp] theorem canIssue_setAdm (s : State) (p fn : Nat) (a : AdmQ) : (s.setAdm p a).canIssue fn = s.canIssue fn := rfl

theorem msix_adm (s : State) (fn v : Nat) : (s.msix fn v).adm = s.adm := by
  unfold State.msix
  dsimp only
  split_ifs <;> rfl

theorem admIrq_adm1 (s : State) (p q : Nat) : (s.admIrq p).adm1 q = s.adm1 q := by
  unfold State.admIrq
  split_ifs
  · simp only [State.adm1, msix_adm]
  · rfl

/-- A write of `ADM_CTRL` without ENABLE changes registers only. -/
theorem admCtrlFields_adm1 (s : State) (p value q : Nat) : (s.admCtrlFields p value).adm1 q = s.adm1 q := by
  unfold State.admCtrlFields
  dsimp only
  split_ifs <;> rfl

theorem admStopped_of_running {s : State} {p : Nat} (h : (s.adm1 p).state = .running) : s.admStopped p = s := by
  have hstate : AdmState.running ≠ AdmState.stopping := by decide
  simp only [State.admStopped, h, hstate, false_and, if_false]

/-- An admin queue is open while it runs, holds fewer than 64 commands, and has room for one more reply. -/
theorem admOpen_iff (s : State) (p : Nat) : s.admOpen p = true ↔
    (s.adm1 p).state = .running ∧ ((s.adm1 p).cmds.filter fun e => !e.2.orphan).length + (s.adm1 p).held.length < 64 ∧
      distance (s.adm1 p).replyConsumer (s.adm1 p).replyProducer + ((s.adm1 p).cmds.filter fun e => !e.2.orphan).length +
        (s.adm1 p).held.length < 2 ^ s.admCtrl p 11 8 := by
  simp only [State.admOpen, Bool.and_eq_true, beq_iff_eq, decide_eq_true_eq, and_assoc]

/-! ## The indices, enabling and disabling -/

/-- A producer index written to a running queue is judged against FETCH, then against the previous one (R203, R205). -/
theorem exec_admCmdProducerWrite_running {s : State} {p : Nat} (value : Nat) (h : s.serves) (hrun : (s.adm1 p).state = .running) :
    exec (.admCmdProducerWrite p value) s = .next
      (let t := s.setAdm p { s.adm1 p with producer := value % ringMod }
       if 2 ^ s.admCtrl p 3 0 < distance (s.adm1 p).fetch (value % ringMod) then t.admError p 1
       else if distance (s.adm1 p).fetch (value % ringMod) < distance (s.adm1 p).fetch (s.adm1 p).producer then t.admError p 2
       else t).finish := by
  show execAdmCmdProducerWrite p value s = _
  simp only [execAdmCmdProducerWrite, mmio_serves _ h, hrun, ne_eq, not_true_eq_false, if_false, admCtrl_setAdm]

/-- Settles O17: each index write takes the branch that its clause's conditions choose (`exec_admCmdProducerWrite_running`), a fetch takes the
packet in front of an open queue (`admOpen_iff`), and a write of ENABLE finds the queue as it was (`admCtrlFields_adm1`). -/
theorem adminQueuesRunAndStop : Obligations.AdminQueuesRunAndStop := by
  refine ⟨⟨?taken, ?beyond, ?backward, ?consumed, ?passed, ?fetch⟩, ?enable, ?disable⟩
  case taken =>
    intro s p value h hrun hmax hmin
    rw [exec_admCmdProducerWrite_running value h hrun]
    simp only [hmax.not_gt, hmin.not_gt, if_false]
  case beyond =>
    intro s p value h hrun hbeyond
    rw [exec_admCmdProducerWrite_running value h hrun]
    simp only [hbeyond, if_true]
  case backward =>
    intro s p value h hrun hmax hback
    rw [exec_admCmdProducerWrite_running value h hrun]
    simp only [hmax.not_gt, hback, if_false, if_true]
  case consumed =>
    intro s p value h hle
    show execAdmReplyConsumerWrite p value s = _
    simp only [execAdmReplyConsumerWrite, mmio_serves _ h, hle, if_true]
  case passed =>
    intro s p value h hlt
    show execAdmReplyConsumerWrite p value s = _
    simp only [execAdmReplyConsumerWrite, mmio_serves _ h, hlt.not_ge, if_false, State.admFlag]
  case fetch =>
    intro s p len hon hcp hturn hrun hroom hreplies hfront hpos hmax hwhole
    have hopen : s.admOpen p = true := (admOpen_iff s p).2 ⟨hrun, hroom, hreplies⟩
    show execAdminCommandFetch p s = _
    simp only [execAdminCommandFetch, run_on _ hon, hopen, hcp, hfront, hpos, hmax.not_gt, hwhole, hturn, Bool.not_true, Bool.false_eq_true,
      or_self, if_true, if_false]
    rfl
  case enable =>
    intro s p value h hoff hlo hhi hlo' hhi'
    show execAdmCtrlEnableSet p value s = _
    simp only [execAdmCtrlEnableSet, mmio_serves _ h, admCtrlFields_adm1, hoff, hlo, hhi, hlo', hhi', decide_true, Bool.and_self, Bool.not_true,
      ne_eq, not_true_eq_false, Bool.false_eq_true, if_false]
  case disable =>
    intro s p value h hrun
    have hadm : ∀ v, (((s.admCtrlFields p value).setRegOf (p * 128) .ADM_CTRL v).adm1 p) = s.adm1 p := fun _ =>
      admCtrlFields_adm1 s p value p
    have hstate : AdmState.running ≠ AdmState.disabled := by decide
    show execAdmCtrlEnableClear p value s = _
    simp only [execAdmCtrlEnableClear, mmio_serves _ h, hadm, hrun, hstate, if_false] <;> rfl

/-! ## Byte strings -/

theorem length_slice (bs : Bytes) (off len : Nat) : (slice bs off len).length = len := by
  simp only [slice, List.length_append, List.length_replicate, List.length_take, List.length_drop]
  omega

theorem slice_append_front {pre : Bytes} {off len : Nat} (post : Bytes) (h : off + len ≤ pre.length) :
    slice (pre ++ post) off len = slice pre off len := by
  have hdrop : (pre ++ post).drop off = pre.drop off ++ post := List.drop_append_of_le_length (by omega)
  have htake : (pre.drop off ++ post).take len = (pre.drop off).take len := List.take_append_of_le_length (by rw [List.length_drop]; omega)
  simp only [slice, hdrop, htake]

theorem slice_append_back {pre post : Bytes} {off len : Nat} (hoff : pre.length = off) (hlen : post.length = len) :
    slice (pre ++ post) off len = post := by
  subst hoff hlen
  simp [slice]

/-- A part of a byte string that is written over is replaced. -/
theorem overlay_part {bs pre old new post : Bytes} {off : Nat} (h : bs = pre ++ old ++ post) (hoff : pre.length = off)
    (hlen : new.length = old.length) : overlay bs off new = pre ++ new ++ post := by
  subst h hoff
  simp [overlay, hlen]

/-! ## Replies -/

/-- The 32-byte record of a reply (R211). -/
def replyRecord (c : Cmd) (negotiated phase status detail : Nat) (result : Bytes) : Bytes :=
  slice c.pkt 4 4 ++ slice c.pkt 2 2 ++ leBytes 1 status ++ leBytes 1 detail ++ leBytes 3 c.index ++ leBytes 1 negotiated ++
    leBytes 1 phase ++ zeros 3 ++ (if status = 0 then slice result 0 16 else zeros 16)

section
variable (c : Cmd) (negotiated phase status detail : Nat) (result : Bytes)

/-- The phase is written over the record when its slot is known (R211). -/
theorem overlay_replyRecord (new : Nat) :
    overlay (replyRecord c negotiated phase status detail result) 12 (leBytes 1 new) = replyRecord c negotiated new status detail result := by
  unfold replyRecord
  rw [overlay_part (old := leBytes 1 phase)
    (pre := slice c.pkt 4 4 ++ slice c.pkt 2 2 ++ leBytes 1 status ++ leBytes 1 detail ++ leBytes 3 c.index ++ leBytes 1 negotiated)
    (post := zeros 3 ++ (if status = 0 then slice result 0 16 else zeros 16))]
  · simp only [List.append_assoc]
  · simp only [List.append_assoc]
  · simp only [List.length_append, length_slice, leBytes_length]
  · simp only [leBytes_length]

/-- ADMIN_DONE repeats from the record the opcode, the tag, the status and the index of its command (R213). -/
theorem adminDone_replyRecord (s : State) (p : Nat) :
    s.adminDone p (replyRecord c negotiated phase status detail result) = s.raise (.inst (p * 128)) evAdminDone (leAt c.pkt 2 2)
      (leAt c.pkt 4 4 + status % 256 * 2 ^ 32 + c.index % 2 ^ 24 * 2 ^ 40) 0 := by
  have htag : slice (replyRecord c negotiated phase status detail result) 0 4 = slice c.pkt 4 4 := by
    simp (disch := simp only [List.length_append, length_slice, leBytes_length]; decide) only [replyRecord, slice_append_front]
    exact slice_append_back (pre := []) rfl (length_slice ..)
  have hop : slice (replyRecord c negotiated phase status detail result) 4 2 = slice c.pkt 2 2 := by
    simp (disch := simp only [List.length_append, length_slice, leBytes_length]; decide) only [replyRecord, slice_append_front]
    exact slice_append_back (length_slice ..) (length_slice ..)
  have hstatus : slice (replyRecord c negotiated phase status detail result) 6 1 = leBytes 1 status := by
    simp (disch := simp only [List.length_append, length_slice, leBytes_length]; decide) only [replyRecord, slice_append_front]
    exact slice_append_back (by simp only [List.length_append, length_slice]) (leBytes_length ..)
  have hindex : slice (replyRecord c negotiated phase status detail result) 8 3 = leBytes 3 c.index := by
    simp (disch := simp only [List.length_append, length_slice, leBytes_length]; decide) only [replyRecord, slice_append_front]
    exact slice_append_back (by simp only [List.length_append, length_slice, leBytes_length]) (leBytes_length ..)
  simp only [State.adminDone, leAt, htag, hop, hstatus, hindex, leNat_leBytes]
  norm_num

end

section
variable {s : State} {p k status detail : Nat} {result : Bytes} {c : Cmd}

/-- With no other reply waiting, the reply of a function that may issue is written at once, without a phase as yet (R211). -/
theorem reply_issued (hcp : s.cpRuns = true) (hc : SMap.find (s.adm1 p).cmds k = some c) (horphan : c.orphan = false)
    (hheld : (s.adm1 p).held = []) (hissue : s.canIssue (p * 128) = true) :
    s.reply p k status detail result = ((s.setAdm p { s.adm1 p with cmds := SMap.del (s.adm1 p).cmds k }).replyPut p
      (replyRecord c (s.adm1 p).negotiated 0 status detail result) (bit (leAt c.pkt 8 1) 0 || (s.adm1 p).events)).admStopped p := by
  have hzeros : zeros 4 = leBytes 1 0 ++ zeros 3 := rfl
  simp only [State.reply, hc, hcp, horphan, State.repliesDrain, adm1_setAdm_same, setAdm_setAdm_same, canIssue_setAdm, hissue, hheld,
    Bool.not_true, Bool.false_and, Bool.false_eq_true, if_true, if_false, List.nil_append, List.foldl_cons, List.foldl_nil, hzeros,
    replyRecord, List.append_assoc]

/-- A reply is put at the producer index with the phase of its slot (R211 to R213). -/
theorem replyPut_setAdm (s : State) (a : AdmQ) (done : Bool) (negotiated phase : Nat) :
    let log2 := s.admCtrl p 11 8
    let r := replyRecord c negotiated (phaseAt a.replyProducer log2) status detail result
    let t := ((s.emit (.hostWrite p (p * 128) ((s.regOf (p * 128) .ADM_REPLY_BASE).toNat / 4096 * 4096 +
      slotOf a.replyProducer log2 * 32) r false false)).setAdm p { a with replyProducer := advance a.replyProducer 1 }).admIrq p
    (s.setAdm p a).replyPut p (replyRecord c negotiated phase status detail result) done = if done then t.adminDone p r else t := by
  have hemit (o : Out) : (s.setAdm p a).emit o = (s.emit o).setAdm p a := rfl
  unfold State.replyPut
  dsimp only
  rw [adm1_setAdm_same, admCtrl_setAdm, overlay_replyRecord, hemit, setAdm_setAdm_same]
  rfl

end

/-! ## The commands that are answered -/

/-- A command of the module's version whose opcode no table lists fails its header check (R210, R230). -/
theorem headerFail_unlisted {s : State} {p : Nat} {pkt : Bytes} (auth : List Nat → Bool) (hversion : leAt pkt 0 1 = 0x10)
    (hnegotiated : 0x10 ≤ (s.adm1 p).negotiated) (hop : admSpec (opcodeOf pkt) = none) :
    s.headerFail p pkt auth = some (stBadDescriptor, dOpcode) := by
  simp only [State.headerFail, hversion, hnegotiated.not_gt, hop, ne_eq, not_true_eq_false, or_self, if_false]

/-- Settles O28: a reply is written at once (`reply_issued`) and put with its phase (`replyPut_setAdm`); each command's body answers as its
clause's conditions choose, and an unlisted opcode fails the header check (`headerFail_unlisted`). -/
theorem adminCommandsAreAnswered : Obligations.AdminCommandsAreAnswered := by
  refine ⟨?reply, ⟨?identify, ?negotiate, ?version, ?range, ?get, ?set⟩, ?unlock, ?lock, ?unlisted⟩
  case reply =>
    intro s t p k status detail result r c hcp hc _ horphan hrun hheld hissue hr ht
    have hput := replyPut_setAdm (p := p) (c := c) (status := status) (detail := detail) (result := result) s
      { s.adm1 p with cmds := SMap.del (s.adm1 p).cmds k } (bit (leAt c.pkt 8 1) 0 || (s.adm1 p).events) (s.adm1 p).negotiated 0
    have hrec : r = replyRecord c (s.adm1 p).negotiated (phaseAt (s.adm1 p).replyProducer (s.admCtrl p 11 8)) status detail result := hr
    dsimp only at hput
    rw [← hrec, ← ht] at hput
    have hstate : (t.adm1 p).state = .running := by rw [ht, admIrq_adm1, adm1_setAdm_same]; exact hrun
    rw [reply_issued hcp hc horphan hheld hissue, hput]
    split_ifs
    · rw [hrec, adminDone_replyRecord]
      exact admStopped_of_running hstate
    · exact admStopped_of_running hstate
  case identify =>
    intro s p k c h b
    exact adminRow_replies (b := b) h rfl rfl
  case negotiate =>
    intro s p k c h b hmin hmax
    refine adminRow_replies (b := b) h rfl ?_
    simp only [par_params, (hmin.trans hmax).not_gt, hmin, hmax, and_self, if_true, if_false, AdmRes.ok]
  case version =>
    intro s p k c h b hle hout
    have houtside : ¬ (c.arg 0 ≤ 0x10 ∧ 0x10 ≤ c.arg 1) := by omega
    refine adminRow_replies (b := b) h rfl ?_
    simp only [par_params, hle.not_gt, houtside, if_false, AdmRes.fail]
  case range =>
    intro s p k c h b hlt
    refine adminRow_replies (b := b) h rfl ?_
    simp only [par_params, hlt, if_true, AdmRes.field]
  case get =>
    intro s p k c v h b hv
    refine adminRow_replies (b := b) h rfl ?_
    simp only [par_params, hv]
  case set =>
    intro s p k c old t h b hold hnew hservice
    have hallowed : ¬ ((c.arg 0 = 1 ∨ c.arg 0 = 2) ∧ b.anyService = true) := fun ⟨hf, hs⟩ => Bool.false_ne_true ((hservice hf).symm.trans hs)
    refine adminRow_replies (b := b) h rfl ?_
    simp only [par_params, hold, hnew, hallowed, if_false]
  case unlock =>
    intro s p k c h b haction hmagic
    refine adminRow_replies (b := b) h rfl ?_
    simp only [par_params, haction, hmagic, lt_self_iff_false, ne_eq, not_true_eq_false, if_false, AdmRes.ok]
  case lock =>
    intro s p k c h b hmagic
    refine adminRow_replies (b := b) h rfl ?_
    simp only [par_params, hmagic, ne_eq, not_true_eq_false, if_false, AdmRes.ok]
  case unlisted =>
    intro s p k c hon hc hcp hheld hfresh hquiet hturn hversion hnegotiated hop
    show execUnlistedAdminOpcode p k s = _
    simp only [execUnlistedAdminOpcode, run_on _ hon, hc, hop, State.adminRun, hcp, hheld, hfresh, hquiet, hturn, anySel,
      headerFail_unlisted _ hversion hnegotiated hop, Option.isSome_none, bne_self_eq_false, Bool.not_true, Bool.not_false, Bool.or_self,
      Bool.and_false, Bool.false_eq_true, if_false]

/-! ## Power -/

theorem takeHint_now {s : State} {at_ : Nat} (h : Nat) (hdue : at_ = 0 ∨ at_ ≤ s.hallTime) : s.takeHint h at_ = some (s.hintEffect h) :=
  if_pos hdue

/-- A hint that is not due waits while fewer than 64 do (R758). -/
theorem takeHint_later {s : State} {at_ : Nat} (h : Nat) (hset : at_ ≠ 0) (hlate : s.hallTime < at_) : s.takeHint h at_ =
    if 64 ≤ s.pwr.hints.length then none else some (s.setPwr { s.pwr with hints := s.pwr.hints ++ [(h, at_)] }) := by
  simp only [State.takeHint, hset, hlate.not_ge, or_self, if_false]

/-- What a domain that has woken comes to (R749). -/
theorem exec_domainWakeDone {s : State} {d : Nat} (hon : s.pwr.off = false) (hwaking : s.pwr.waking.contains d = true) :
    exec (.domainWakeDone d) s = .next
      (if 64 ≤ d ∧ d < 72 then (s.domStart d).groupUp (d - 64)
       else if 72 ≤ d ∧ d < 76 then
         if (s.port (d - 72)).perst then s.domStart d else (s.domStart d).setPort (d - 72) { s.port (d - 72) with link := 1 }
       else s.domStart d).finish := by
  have hport (q : Nat) : (s.domStart d).port q = s.port q := rfl
  show execDomainWakeDone d s = _
  simp only [execDomainWakeDone, run_on _ hon, hwaking, hport, Bool.not_true, Bool.false_eq_true, if_false]

/-- Settles O33: a hint command turns on whether its time has come (`takeHint_now`, `takeHint_later`), a domain that wakes on its number
(`exec_domainWakeDone`), and a droop on how many its die has had in the millisecond. -/
theorem powerIsCommanded : Obligations.PowerIsCommanded := by
  refine ⟨⟨?cap, ?now, ?later, ?full, ?effect⟩, ?idle, ?start, ?done, ?group, ?port, ?droop, ?stepDown, ?skipEnd⟩
  case cap =>
    intro s p k c h b hmin hmax
    refine adminRow_replies (b := b) h rfl ?_
    simp only [par_params, hmin.not_gt, hmax.not_gt, or_self, if_false, AdmRes.ok, State.setCap]
  case now =>
    intro s p k c h b hlo hhi hdue
    refine adminRow_replies (b := b) h rfl ?_
    simp only [par_params, (hintKnown_iff _).2 ⟨hlo, hhi⟩, takeHint_now _ hdue, Bool.not_true, Bool.false_eq_true, if_false, AdmRes.ok]
  case later =>
    intro s p k c h b hlo hhi hset hlate hroom
    refine adminRow_replies (b := b) h rfl ?_
    simp only [par_params, (hintKnown_iff _).2 ⟨hlo, hhi⟩, takeHint_later _ hset hlate, hroom.not_ge, Bool.not_true, Bool.false_eq_true,
      if_false, AdmRes.ok]
  case full =>
    intro s p k c h b hlo hhi hset hlate hfull
    refine adminRow_waits (b := b) h rfl ?_
    simp only [par_params, (hintKnown_iff _).2 ⟨hlo, hhi⟩, takeHint_later _ hset hlate, hfull, Bool.not_true, Bool.false_eq_true,
      if_true, if_false]
  case effect =>
    intro s h at_ hon hhints hdue
    show execPowerHintEffect s = _
    simp [execPowerHintEffect, run_on _ hon, hhints, hdue, hdue.not_gt]
  case idle =>
    intro s d hon hdom hd hidle
    show execDomainIdleOff d s = _
    simp only [execDomainIdleOff, run_on _ hon, hdom, hd, hidle, and_self, if_true]
  case start =>
    intro s d begun ds hon hqueue hbegun hlimit
    subst hbegun
    show execDomainWakeStart s = _
    simp only [execDomainWakeStart, run_on _ hon, hqueue, hlimit.not_ge, if_false]
  case done =>
    intro s d hon hwaking hd
    have hgroup : ¬ (64 ≤ d ∧ d < 72) := by omega
    have hport : ¬ (72 ≤ d ∧ d < 76) := by omega
    rw [exec_domainWakeDone hon hwaking, if_neg hgroup, if_neg hport]
  case group =>
    intro s g hon hwaking hg
    rw [exec_domainWakeDone hon hwaking, if_pos (by omega), Nat.add_sub_cancel_left]
  case port =>
    intro s p hon hwaking hp hperst
    rw [exec_domainWakeDone hon hwaking, if_neg (by omega), if_pos (by omega), Nat.add_sub_cancel_left, hperst, if_neg Bool.false_ne_true]
  case droop =>
    intro s die n hon hdie hskip hn hfew
    subst hn
    show execDroopDetect die s = _
    simp only [execDroopDetect, run_on _ hon, hdie.not_ge, hskip, hfew, false_and, and_false, Bool.false_eq_true, if_false]
  case stepDown =>
    intro s die hon hdie hdroops hskip hdrooped
    have hvalid : ¬ 4 ≤ die := by omega
    show execDroopDetect die s = _
    simp only [execDroopDetect, run_on _ hon, hvalid, hdroops, hdie, hskip, hdrooped, Bool.not_false, and_self, if_true, if_false]
  case skipEnd =>
    intro s die hon
    show execDroopSkipEnd die s = _
    rw [execDroopSkipEnd, run_on _ hon]

/-! ## The guard of the expert writes

SCH_COMMIT fills every shaper and policer before it asks who writes it, so one that may not take effect still changes the shapers. -/

theorem shaperOwing_fillAll_calm : shaperOwing.fillAll.calm = true := shaperOwing_calm

theorem shaperOwing_fillAll_shapers : shaperOwing.fillAll.sch.shapers = [(0, ⟨-36, 64⟩)] := by decide +kernel

/-- The BAR0 of a virtual function shows no register of the scheduler (R720). -/
theorem shownTo_vf_schCommit : shownTo 1 Reg.SCH_COMMIT.addr = false := by decide +kernel

theorem exec_schCommit_vf {s : State} (hon : s.pwr.off = false) : exec (.schCommit 1) s = .next s.fillAll.finish := by
  show execSchCommit 1 s = _
  rw [execSchCommit, run_on _ hon, State.commit, expert_hidden _ _ Nat.one_ne_zero shownTo_vf_schCommit]

/-- Refutes O54 by its clause on registers that a function's BAR0 does not show: an SCH_COMMIT of function 1 on `shaperOwing` is to change
nothing, but it answers a state in which the shaper of class 0 of group 0 stands at -36 bytes, not at -100. -/
theorem not_expertWritesAreGuardedAndTakeEffect : ¬ Obligations.ExpertWritesAreGuardedAndTakeEffect := by
  rintro ⟨hguard, -⟩
  have hon : shaperOwing.pwr.off = false := rfl
  obtain ⟨-, -, -, hhidden⟩ := hguard (.schCommit 1) shaperOwing 1 Reg.SCH_COMMIT.addr 4 rfl hon
  have hsame := (exec_schCommit_vf hon).symm.trans (hhidden Nat.one_ne_zero shownTo_vf_schCommit)
  rw [finish_of_calm shaperOwing_fillAll_calm, finish_of_calm shaperOwing_calm] at hsame
  have hshapers := shaperOwing_fillAll_shapers
  rw [Host.Outcome.next.inj hsame] at hshapers
  exact absurd hshapers (by decide)

end Sys2Proof.Machine

/-!
The remote memory access engine: requests that are performed in their turn, transfers and tokens that begin at the source, and the commands on
queue pairs.
-/

namespace Sys2Proof.Machine

/-! ## Judging a request -/

section
variable {s t u : State} {p : Pkt} {typ key byte st rs : Nat} {x : Bytes} {d : Option Decision} {held : Held}

theorem holdSelf_success (s : State) (p : Pkt) : s.holdSelf p 0 = s := by
  have hclean : 0 ≠ stPoisoned ∧ 0 ≠ stTranslationFault := by decide
  exact if_pos (Or.inr hclean)

/-- Only a forwarded message is judged otherwise than by the checks of R73. -/
theorem judgeReq_direct (s : State) (hdirect : p.forwarded = false) : s.judgeReq p = s.checkReq p := by
  unfold State.judgeReq
  split
  next st rs t hcheck => rw [hdirect, Bool.not_false, Bool.true_or, Bool.true_or, if_pos rfl, hcheck]
  next => rfl

theorem shift_front (x : Place) (remote : Nat) : x.shift ((remote + 2 ^ 64 - remote) % 2 ^ 64) = x := by
  rw [Nat.add_sub_cancel_left, Nat.mod_self]
  cases x <;> rfl

/-- An access to a page that is held here and not frozen is performed in the page (R73, R265). -/
theorem performAccess_held (arr : Nat) (hdirect : p.forwarded = false) (hcheck : s.checkPkt p = (.accept (.page key byte), u))
    (hserve : u.servePage key p.src (writes p.typ) = .inr held) (hfrozen : held.frozen = false)
    (hperf : u.performPage p key held byte = (.done st rs x, t)) :
    s.performAccess p arr none = (.done st rs x, some (.accept (.page key byte) p.remote p.sky), t.holdSelf p st) := by
  simp only [State.performAccess, judgeReq_direct s hdirect, State.checkReq, hcheck, State.follow, shift_front, State.performPlace, hserve,
    hfrozen, hperf, Bool.false_eq_true, if_false]

theorem performAccess_refused (arr : Nat) (hdirect : p.forwarded = false) (hcheck : s.checkPkt p = (.refuse st rs, u)) :
    s.performAccess p arr none = (.done st rs [], some (.refuse st rs), u.holdSelf p st) := by
  simp only [State.performAccess, judgeReq_direct s hdirect, State.checkReq, hcheck, State.follow]

/-- An access with an outcome is performed when no token is to follow it, or when it has failed (R261). -/
theorem perform_access {arr : Nat} {decided : Option Decision} (htoken : p.typ ≠ 0x06) (hctl : p.typ < 0x10) (hnote : p.note = none ∨ st ≠ 0)
    (h : s.performAccess p arr decided = (.done st rs x, d, t)) : s.perform p arr decided = (.done st rs x, d, t) := by
  simp only [State.perform, htoken, hctl.not_ge, if_false, h]
  split
  next hdone =>
    cases hdone
    have hnone : p.note = none := hnote.resolve_right (· rfl)
    simp only [State.noteToken, hnone, ite_self]
  next => rfl

/-! ## Accesses in a page -/

theorem performPage_read (htyp : p.typ = 0x02) : s.performPage p key held byte =
    let r := (s.heat key p.src (wireUnits p) false).pageRead key held byte p.length
    if r.2.1 then (.done stPoisoned rsPoison [], r.2.2) else (.done 0 0 r.1, r.2.2) := by
  have hwrites : writes 0x02 = false := rfl
  simp only [State.performPage, htyp, hwrites, if_true]

theorem performPage_write (htyp : p.typ = 0x01)
    (ht : t = ((s.heat key p.src (wireUnits p) true).pageWrite key held byte (p.payload.take p.length)).afterWrite key byte p.length)
    (hnote : t.mustNote key = false) : s.performPage p key held byte = (.done 0 0 [], t) := by
  subst ht
  have hwrites : writes 0x01 = true := rfl
  simp [State.performPage, htyp, hwrites, hnote]

theorem performPage_atomic {y : Nat} (htyp : p.typ = 0x04)
    (hy : (s.heat key p.src 1 true).pageAtomic key held byte (beNat (slice p.payload 0 1)) (beNat (slice p.payload 1 1))
      (beNat (slice p.payload 8 8)) (beNat (slice p.payload 16 8)) = (some y, t))
    (hnote : (t.afterWrite key byte (beNat (slice p.payload 1 1))).mustNote key = false) :
    s.performPage p key held byte = (.done 0 0 (leBytes 8 y), t.afterWrite key byte (beNat (slice p.payload 1 1))) := by
  have hwrites : writes 0x04 = true := rfl
  have hunits : wireUnits p = 1 := if_pos htyp
  simp [State.performPage, htyp, hwrites, hunits, hy, hnote]

theorem performPage_atomic_poisoned (htyp : p.typ = 0x04)
    (hy : (s.heat key p.src 1 true).pageAtomic key held byte (beNat (slice p.payload 0 1)) (beNat (slice p.payload 1 1))
      (beNat (slice p.payload 8 8)) (beNat (slice p.payload 16 8)) = (none, t)) :
    s.performPage p key held byte = (.done stPoisoned rsPoison [], t) := by
  have hwrites : writes 0x04 = true := rfl
  have hunits : wireUnits p = 1 := if_pos htyp
  simp [State.performPage, htyp, hwrites, hunits, hy]

/-! ## The rows of the requests -/

/-- The rows of the requests that access memory, each with its packet type (R305). -/
def accessRows (p : Pkt) : List (Instr × Nat) := [(.writeReq p, 0x01), (.readReq p, 0x02), (.atomicReq p, 0x04)]

theorem exec_accessRow {i : Instr} (h : (i, typ) ∈ accessRows p) (s : State) : exec i s = run s fun s => s.requestRow typ false p := by
  simp only [accessRows, List.mem_cons, Prod.mk.injEq, List.not_mem_nil, or_false] at h
  rcases h with ⟨rfl, rfl⟩ | ⟨rfl, rfl⟩ | ⟨rfl, rfl⟩ <;> rfl

theorem typ_accessRow {i : Instr} (h : (i, typ) ∈ accessRows p) : typ ≠ 0x06 ∧ typ < 0x10 := by
  simp only [accessRows, List.mem_cons, Prod.mk.injEq, List.not_mem_nil, or_false] at h
  omega

/-- An access that has its turn answers the outcome to which it is performed. -/
theorem accessRow_answered {i : Instr} (hi : (i, typ) ∈ accessRows p) (h : InTurn s p) (htyp : p.typ = typ) (hnote : p.note = none ∨ st ≠ 0)
    (hperf : (s.performing p).performAccess p (s.turn p).qpe.nextArrival none = (.done st rs x, d, t)) :
    exec i s = .next (t.answered p d st rs x).finish := by
  obtain ⟨htoken, hctl⟩ := typ_accessRow hi
  subst htyp
  rw [exec_accessRow hi, requestRow_inTurn h rfl (perform_access htoken hctl hnote hperf), settled_done]

/-- One in a page that is held here answers what the page's access comes to (R265). -/
theorem accessRow_held {i : Instr} (hi : (i, typ) ∈ accessRows p) (h : InTurn s p) (htyp : p.typ = typ) (hnote : p.note = none)
    (hcheck : (s.performing p).checkPkt p = (.accept (.page key byte), u)) (hserve : u.servePage key p.src (writes typ) = .inr held)
    (hfrozen : held.frozen = false) (hperf : u.performPage p key held byte = (.done st rs x, t)) :
    exec i s = .next ((t.holdSelf p st).answered p (some (.accept (.page key byte) p.remote p.sky)) st rs x).finish := by
  subst htyp
  exact accessRow_answered hi h rfl (Or.inl hnote) (performAccess_held _ h.direct hcheck hserve hfrozen hperf)

/-- A TOKEN_REQ that has its turn answers whether its tokens were produced (R569). -/
theorem tokenReq_answered (h : InTurn s p) (htyp : p.typ = 0x06) (hperf : (s.performing p).performToken p = (.done st rs x, u)) :
    exec (.tokenReq p) s = .next (u.answered p none st rs x).finish := by
  have hperform : (s.performing p).perform p (s.turn p).qpe.nextArrival none = (.done st rs x, none, u) := by
    simp only [State.perform, htyp, if_true, hperf]
  exact (requestRow_inTurn h htyp hperform).trans (by rw [settled_done])

/-- What is kept of a forwarding stream reads back, but for the default, which is not stored. -/
theorem fstream_setFstream {f : FStream} (s : State) (k : Nat) (hf : f ≠ default) : (s.setFstream k f).fstream k = f := by
  simp only [State.fstream, State.setFstream, SMap.putD, hf, if_false, getD_put_same]

/-- Of a forwarded request that is new nothing is kept (R314). -/
theorem ForwardedNew.unkept (h : ForwardedNew s p) :
    (((s.admitted p).fstream (fwdKey p)).dropBelow p.confPsn).passed.find? (fun y => y.psn == p.psn) = none ∧
      (((s.admitted p).fstream (fwdKey p)).dropBelow p.confPsn).records.find? (fun o => o.psn == p.psn) = none := by
  by_cases hempty : ((s.admitted p).fstream (fwdKey p)).dropBelow p.confPsn = default
  · rw [hempty]
    exact ⟨rfl, rfl⟩
  · have hkept : (s.forwardedTurn p).fstream (fwdKey p) = ((s.admitted p).fstream (fwdKey p)).dropBelow p.confPsn :=
      fstream_setFstream (s.admitted p) (fwdKey p) hempty
    rw [← hkept]
    exact ⟨by simpa using h.unpassed, by simpa using h.unknown⟩

/-- A forwarded request that is new neither waits nor was passed on or recorded, so it is performed (R314). -/
theorem forwarded_new {r : Perf} (h : ForwardedNew s p)
    (hperf : (s.forwardedTurn p).newArrival.2.perform p (s.forwardedTurn p).qpe.nextArrival ((s.forwardedTurn p).forwardDecision p) =
      (r, d, u)) :
    (s.admitted p).forwarded p = u.performedForward p (s.forwardedTurn p).qpe.nextArrival r d := by
  obtain ⟨hpassed, hrecords⟩ := h.unkept
  have hidle := h.idle
  have hroom := h.room
  unfold State.forwardedTurn at hidle hroom hperf ⊢
  simp only [State.forwarded, hidle, List.any_nil, hpassed, hrecords, hroom, Bool.not_true, Bool.false_eq_true, if_false]
  exact congrArg (fun y : Perf × Option Decision × State => y.2.2.performedForward p _ y.1 y.2.1) hperf

end

/-- Settles O25: an access that has its turn answers what it is performed to (`accessRow_held` in a page, `accessRow_answered` otherwise), a
TOKEN_REQ likewise (`tokenReq_answered`), and of a new forwarded request nothing is kept (`forwarded_new`). -/
theorem requestsArePerformed : Obligations.RequestsArePerformed := by
  refine ⟨?read, ?write, ?atomic, ?poisoned, ?refused, ?token, ?noToken, ?forwarded⟩
  case read =>
    intro s u p key byte h d r hturn htyp hnote hcheck hserve hfrozen hd hr
    subst hd hr
    have hperf := performPage_read (s := u) (key := key) (held := h) (byte := byte) htyp
    dsimp only at hperf
    have hrow : (Instr.readReq p, 0x02) ∈ accessRows p := by simp [accessRows]
    split_ifs with hpoison
    · rw [if_pos hpoison] at hperf
      exact accessRow_held hrow hturn htyp hnote hcheck hserve hfrozen hperf
    · rw [if_neg hpoison] at hperf
      exact (accessRow_held hrow hturn htyp hnote hcheck hserve hfrozen hperf).trans (by rw [holdSelf_success])
  case write =>
    intro s u v p key byte h d hturn htyp hnote hcheck hserve hfrozen hd hv hquiet
    subst hd
    have hrow : (Instr.writeReq p, 0x01) ∈ accessRows p := by simp [accessRows]
    refine (accessRow_held hrow hturn htyp hnote hcheck hserve hfrozen (performPage_write htyp hv hquiet)).trans ?_
    rw [holdSelf_success]
  case atomic =>
    intro s u v p key byte x width h d hturn htyp hnote hcheck hserve hfrozen hd hwidth hx hquiet
    subst hd hwidth
    have hrow : (Instr.atomicReq p, 0x04) ∈ accessRows p := by simp [accessRows]
    refine (accessRow_held hrow hturn htyp hnote hcheck hserve hfrozen (performPage_atomic htyp hx hquiet)).trans ?_
    rw [holdSelf_success]
  case poisoned =>
    intro s u v p key byte h d hturn htyp hnote hcheck hserve hfrozen hd hx
    subst hd
    have hrow : (Instr.atomicReq p, 0x04) ∈ accessRows p := by simp [accessRows]
    exact accessRow_held hrow hturn htyp hnote hcheck hserve hfrozen (performPage_atomic_poisoned htyp hx)
  case refused =>
    intro s u p i typ status reason hi hturn htyp hcheck hfailed
    exact accessRow_answered hi hturn htyp (Or.inr hfailed) (performAccess_refused _ hturn.direct hcheck)
  case token =>
    intro s u p hturn htyp hprod
    exact tokenReq_answered hturn htyp (by simp only [State.performToken, hprod])
  case noToken =>
    intro s u p r hturn htyp hprod
    exact tokenReq_answered hturn htyp (by simp only [State.performToken, hprod])
  case forwarded =>
    intro s u p r d h hperf
    show run s (fun s => s.requestRow p.typ true p) = _
    rw [run_on _ h.accepts.on, ← forwarded_new h hperf]
    simp only [State.requestRow, h.request, h.forwarded, arrive_accepted _ h.accepts, State.request310, ne_eq, not_true_eq_false,
      Bool.false_eq_true, or_self, if_true, if_false]

/-! ## Transfers and atomics at the source -/

theorem beginMsgs_eq_updOp (s : State) (n id : Nat) (msgs : List Msg) :
    s.beginMsgs n id msgs = s.updOp n id fun o => { o with phase := .active, msgs } := rfl

/-- The rows of the transfers, each with its opcode and the access to its local buffer (R256). -/
def transferRows (n id : Nat) : List (Instr × Nat × Access) :=
  [(.read n id, 0x01, .write), (.write n id, 0x02, .read), (.writeNotify n id, 0x03, .read)]

section
variable {s u : State} {n id op qn : Nat} {i : Instr} {acc : Access} {w : Wq} {o : Op} {q : Qp} {f : Nat × Nat}

theorem exec_transferRow (hi : (i, op, acc) ∈ transferRows n id) (h : OpReady s n id op w o qn q) :
    exec i s = .next (s.beginTransfer n w o q acc).finish := by
  simp only [transferRows, List.mem_cons, Prod.mk.injEq, List.not_mem_nil, or_false] at hi
  rcases hi with ⟨rfl, rfl, rfl⟩ | ⟨rfl, rfl, rfl⟩ | ⟨rfl, rfl, rfl⟩ <;>
    exact opRow_ready (fun s w o _ q => s.beginTransfer n w o q _) h

theorem transferRow_of_opcode (hi : (i, op) ∈ [(Instr.read n id, 0x01), (.write n id, 0x02), (.writeNotify n id, 0x03)]) :
    ∃ acc, (i, op, acc) ∈ transferRows n id := by
  simp only [List.mem_cons, Prod.mk.injEq, List.not_mem_nil, or_false] at hi
  rcases hi with ⟨rfl, rfl⟩ | ⟨rfl, rfl⟩ | ⟨rfl, rfl⟩
  · exact ⟨.write, by simp [transferRows]⟩
  · exact ⟨.read, by simp [transferRows]⟩
  · exact ⟨.read, by simp [transferRows]⟩

theorem beginTransfer_failed (hfail : s.targetFail q (dForm o.desc) (dRemote o.desc) (dBytes o.desc) (dModule o.desc)
      (dOp o.desc == 3 && s.wickBad q (dWickModule o.desc)) = some f) :
    s.beginTransfer n w o q acc = s.opFail n o.id f.1 f.2 := by
  simp only [State.beginTransfer, hfail]

theorem beginTransfer_begun (htarget : s.targetFail q (dForm o.desc) (dRemote o.desc) (dBytes o.desc) (dModule o.desc)
      (dOp o.desc == 3 && s.wickBad q (dWickModule o.desc)) = none)
    (hlocal : (if dInline o.desc then (none, s) else s.localCheck w.inst (dLocal o.desc) (firstStep (dLocal o.desc) (dBytes o.desc)) acc) =
      (none, u)) :
    s.beginTransfer n w o q acc = u.beginMsgs n o.id (cutMsgs (dRemote o.desc) (dBytes o.desc) (dModule o.desc)) := by
  simp only [State.beginTransfer, htarget, hlocal]

theorem exec_atomicRow (hi : (i, op) ∈ [(Instr.atomicFadd n id, 0x04), (.atomicCas n id, 0x05)]) (h : OpReady s n id op w o qn q) :
    exec i s = .next (s.beginAtomic n w o q).finish := by
  simp only [List.mem_cons, Prod.mk.injEq, List.not_mem_nil, or_false] at hi
  rcases hi with ⟨rfl, rfl⟩ | ⟨rfl, rfl⟩ <;> exact opRow_ready (fun s w o _ q => s.beginAtomic n w o q) h

end

/-- Bytes that end no later than the first boundary are one piece. -/
theorem pieces_one {size a len : Nat} (hpos : 0 < len) (hfit : a % size + len ≤ size) : pieces size a len = [(0, len)] := by
  have hk : min len (size - a % size) = len := by omega
  simp only [pieces, piecesOf, Nat.add_zero, Nat.zero_add, hpos.ne', hk, Nat.sub_self, if_true, if_false]

/-! ## Issue -/

/-- Whether message `k` of an operation waits at issue on a queue pair that runs, with everything ordered before it on its way and its context in
the cache (R271, R276). -/
structure MsgDue (s : State) (n id k : Nat) (w : Wq) (o : Op) (qn : Nat) (q : Qp) (m : Msg) : Prop where
  queue : s.wq n = some w
  op : w.op id = some o
  bound : w.qp = some qn
  pair : s.qp qn = some q
  msg : o.msgs[k]? = some m
  active : o.phase = .active
  waiting : m.state = .waiting
  before : ((w.ops.takeWhile fun x => x.id != id).all Op.passed && (o.msgs.take k).all fun x => x.state != .waiting) = true
  running : q.state = 1
  unaffected : o.affected = false
  cached : q.cached = true

theorem needCtx_pinnable {s : State} {n : Nat} {q : Qp} (hcached : q.cached = true) (hroom : (s.initPinned n || s.pinRoom) = true) :
    s.needCtx n q = (false, s.touchCtx n) := by
  simp only [State.needCtx, hcached, hroom, Bool.not_true, Bool.false_eq_true, if_true, if_false]

section
variable {s u v : State} {n id k qn : Nat} {w : Wq} {o : Op} {q : Qp} {m : Msg} {data : Bytes}

/-- A message with its data goes to be sent to the module that its descriptor names, whose epoch is known (R273, R322). -/
theorem issueMsg_sent (h : MsgDue s n id k w o qn q m) (hdata : s.msgData n w o k m = (some (.inr data), u))
    (hroom : (u.initPinned qn || u.pinRoom) = true) (htoken : m.isToken = false) (hform : dForm o.desc ≠ 0) (hop : dOp o.desc ≠ 7)
    (hnotify : dOp o.desc ≠ 3) (hepoch : (u.touchCtx qn).epochKnown m.dst = true) :
    s.issueMsg n id k = (u.touchCtx qn).sendMsg n w o qn q k m m.dst none data := by
  simp [State.issueMsg, h.queue, h.op, h.bound, h.pair, h.msg, h.active, h.waiting, h.before, h.running, h.unaffected, hdata,
    needCtx_pinnable h.cached hroom, htoken, hform, hop, hnotify, hepoch]

/-- The token of this module's own wick queue is produced at once (R263, R569). -/
theorem issueMsg_token (h : MsgDue s n id k w o qn q m) (hdata : s.msgData n w o k m = (some (.inr data), u))
    (hroom : (u.initPinned qn || u.pinRoom) = true) (htoken : m.isToken = true) (hown : dWickModule o.desc = (u.touchCtx qn).me)
    (hprod : (u.touchCtx qn).produce (dWick o.desc) (dTokens o.desc) ((u.touchCtx qn).epochNow q.partition) q.partition = (none, v)) :
    s.issueMsg n id k = v.msgEnd n id k stSuccess 0 false := by
  simp [State.issueMsg, h.queue, h.op, h.bound, h.pair, h.msg, h.active, h.waiting, h.before, h.running, h.unaffected, hdata,
    needCtx_pinnable h.cached hroom, htoken, hown, hprod]

end

/-- Settles O27: a row whose checks are met begins its messages (`beginTransfer_begun`), a message that is due is sent or produces its token
(`issueMsg_sent`, `issueMsg_token`), and each TOKEN takes the branch that its clause's conditions choose. -/
theorem transfersAndTokensBegin : Obligations.TransfersAndTokensBegin := by
  refine ⟨⟨?begun, ?failed, ?one, ?atomic, ?issued, ?sent, ?own⟩, ?produce, ?consume, ?barrier, ?cadence, ?wait, ?timeout, ?behind⟩
  case begun =>
    intro s u n id qn op i acc w o q hi h hop htarget hlocal
    subst hop
    rw [exec_transferRow hi h, beginTransfer_begun htarget hlocal, beginMsgs_eq_updOp]
  case failed =>
    intro s n id qn op st d i w o q hi h hfail
    obtain ⟨acc, hrow⟩ := transferRow_of_opcode hi
    obtain ⟨-, -, hop⟩ := beginOp_found h.begins
    rw [← hop] at hfail
    rw [exec_transferRow hrow h, beginTransfer_failed hfail]
  case one =>
    intro remote len dst hpos hfit
    simp only [cutMsgs, pieces_one hpos hfit, List.map_cons, List.map_nil, Nat.add_zero]
  case atomic =>
    intro s u n id qn op i w o q hi h htarget hlocal
    simp only [exec_atomicRow hi h, State.beginAtomic, htarget, hlocal, beginMsgs_eq_updOp]
  case issued =>
    intro s u n id k qn w o q m data hon hw ho hqn hq hm hactive hwaiting hbefore hrun hclear htoken hform hop hnotify hcached hdata hroom
      hepoch
    have h : MsgDue s n id k w o qn q m := ⟨hw, ho, hqn, hq, hm, hactive, hwaiting, hbefore, hrun, hclear, hcached⟩
    show execMessageIssue n id k s = _
    rw [execMessageIssue, run_on _ hon, issueMsg_sent h hdata hroom htoken hform hop hnotify hepoch]
  case sent =>
    intro s t u n k qn e dst w o q m page data p r hroom hentry hplain hr hp hport hbucket hturn
    subst hr hp
    dsimp only at hbucket
    simp only [State.sendMsg, hroom, hentry, hport, hplain, hbucket, hturn, Bool.not_true, Bool.false_and, Bool.false_eq_true, if_false]
  case own =>
    intro s u v n id k qn w o q m data hon hw ho hqn hq hm hactive hwaiting hbefore hrun hclear htoken hcached hdata hroom hown hprod
    have h : MsgDue s n id k w o qn q m := ⟨hw, ho, hqn, hq, hm, hactive, hwaiting, hbefore, hrun, hclear, hcached⟩
    show execMessageIssue n id k s = _
    rw [execMessageIssue, run_on _ hon, issueMsg_token h hdata hroom htoken hown hprod]
  case produce =>
    intro s n id qn w o q h haction htorus hpeer
    have hgood : ¬ ((q.connected = true ∧ dWickModule o.desc ≠ q.remoteModule) ∨ (!s.inTorus (dWickModule o.desc)) = true) := by
      simpa [htorus] using hpeer
    show execTokenProduce n id s = _
    simp only [execTokenProduce, run_on _ h.on, tokenOp_ready _ h haction, hgood, if_false, beginMsgs_eq_updOp]
  case consume =>
    intro s t n id qn w o q x h haction hroom hx hown hdepth hpart hfew ht
    subst ht
    show execTokenConsume n id s = _
    simp only [execTokenConsume, run_on _ h.on, waitOp_ready _ h haction hroom, hx, hown, hdepth.not_gt, hpart, hfew.not_ge, ne_eq,
      not_true_eq_false, or_self, if_false]
  case barrier =>
    intro s t u n id qn g w o q b x h haction hroom hg hb hlive hx hpart ht hu
    subst hg ht
    show execTokenBarrier n id s = _
    simp only [execTokenBarrier, run_on _ h.on, waitOp_ready _ h haction hroom, hb, hx, hlive, hpart, hu, Option.getD_some, ne_eq,
      not_true_eq_false, Bool.false_eq_true, if_false]
  case cadence =>
    intro s t u n id qn w o q c h haction hroom ht hc hu
    subst ht hu
    show execTokenCadence n id s = _
    simp only [execTokenCadence, run_on _ h.on, waitOp_ready _ h haction hroom, hc]
  case wait =>
    intro o now
    exact ⟨rfl, rfl⟩
  case timeout =>
    intro s t n id w o hon ht hw ho hop hwaiting hlimit hlast
    subst ht
    show execTokenWaitTimeout n id s = _
    simp only [execTokenWaitTimeout, run_on _ hon, hw, ho, hop, hwaiting, hlimit, hlast, ne_eq, not_true_eq_false, or_self, if_false]
  case behind =>
    intro s t n id w o x hon ht hw ho hop hwaiting hlimit hnext
    subst ht
    show execTokenWaitTimeout n id s = _
    simp only [execTokenWaitTimeout, run_on _ hon, hw, ho, hop, hwaiting, hlimit, hnext, ne_eq, not_true_eq_false, or_self, if_false]

/-! ## Queue pairs -/

/-- Settles O40: each command takes the branch of its body that its clause's conditions choose, whether or not a new pair is bound to a queue. -/
theorem queuePairsAreManaged : Obligations.QueuePairsAreManaged := by
  refine ⟨?create, ?connect, ?disconnect, ?query, ?destroy, ?base, ?size⟩
  case create =>
    intro s e p k c i q qpn h b hi hmember hwq hq hinst hstate hform hroom hqpn he
    have hkey : ¬ (c.arg 3 = 1 ∧ (!b.hasCap capCipher || !b.keyOf (c.arg 6) (c.arg 0)) = true) := by
      rintro ⟨hone, hbad⟩
      obtain ⟨hcap, hkeyed⟩ := hform hone
      simp [hcap, hkeyed] at hbad
    have herror : (q.state == .error) = false := beq_eq_false_iff_ne.2 hstate
    refine adminRow_replies (b := b) h rfl ?_
    rcases hwq with hnone | ⟨w, hw, hown, hfree⟩
    · simp only [par_params, State.createQp, hi, hmember, hnone, hq, hinst, herror, hkey, hroom, hqpn, he, State.bindWq, bne_self_eq_false,
        Bool.false_and, Bool.or_self, Bool.not_true, Bool.false_eq_true, if_true, if_false, AdmRes.ok] <;> rfl
    · simp only [par_params, State.createQp, hi, hmember, hw, hown, hfree, hq, hinst, herror, hkey, hroom, hqpn, he, bne_self_eq_false,
        Option.isSome_none, Bool.and_false, Bool.or_self, Bool.not_true, Bool.false_eq_true, if_false, AdmRes.ok] <;> rfl
  case connect =>
    intro s p k c q h b hq hcached hstate htarget hpeer
    have hjoined : (c.arg 3 != 0) = true := bne_iff_ne.2 hpeer
    refine adminRow_replies (b := b) h rfl ?_
    simp [par_params, State.modifyQp, hq, hcached, hstate, htarget, hpeer, hjoined, AdmRes.ok]
  case disconnect =>
    intro s p k c q h b hq hcached hstate htarget hquiet
    refine adminRow_replies (b := b) h rfl ?_
    simp [par_params, State.modifyQp, hq, hcached, hstate, htarget, hquiet, AdmRes.ok]
  case query =>
    intro s p k c q h b hq
    refine adminRow_replies (b := b) h rfl ?_
    simp only [par_params, hq, AdmRes.ok]
  case destroy =>
    intro s p k c q h b hq hstate hquiet hfree
    refine adminRow_replies (b := b) h rfl ?_
    simp only [par_params, hq, hstate, hquiet, hfree, ne_eq, not_true_eq_false, or_self, if_false, AdmRes.ok]
  case base =>
    intro s p value h hpf hport hnone
    show execQpcStoreWrite (128 * p) false value s = _
    simp only [execQpcStoreWrite, mmio_serves _ h, hpf, hport, hnone, Bool.not_true, Bool.false_and, Bool.or_self, Bool.false_eq_true, if_false]
  case size =>
    intro s p value h hpf hport hnone hlo hhi
    show execQpcStoreWrite (128 * p) true value s = _
    simp only [execQpcStoreWrite, mmio_serves _ h, hpf, hport, hnone, hlo.not_gt, hhi.not_gt, decide_false, Bool.not_true, Bool.or_self,
      Bool.and_false, Bool.false_eq_true, if_true, if_false]

end Sys2Proof.Machine

/-!
The transport of packets: the header, the checks that every packet meets, the control requests, the responses, and the timers.
-/

namespace Sys2Proof.Machine

/-! ## The header of a packet (R304) -/

theorem b2n_le (b : Bool) : b2n b ≤ 1 := by cases b <;> decide

theorem b2n_beq_one (b : Bool) : (b2n b == 1) = b := by cases b <;> rfl

/-- A flag reads back from the number in which it stands at bit `i`. -/
theorem bit_flag {n i : Nat} {b : Bool} (h : n / 2 ^ i % 2 = b2n b) : bit n i = b := by
  unfold bit
  rw [bits_one, h, b2n_beq_one]

section
variable (p : Pkt)

/-- The byte of flags (R304): bit 2 is reserved. -/
def Pkt.flagsByte : Nat :=
  b2n p.response * 128 + b2n p.first * 64 + b2n p.last * 32 + b2n p.ackReq * 16 + b2n p.forwarded * 8 + b2n p.encrypted * 2 + p.form

/-- The byte of the traffic class and of the congestion mark (R304). -/
def Pkt.classByte : Nat := p.tc * 32 + p.ecn * 8

/-- The header as one string of fields, each behind those before it. -/
theorem header_append (rest : Bytes) : p.header ++ rest =
    beBytes 1 p.version ++ (beBytes 1 p.typ ++ (beBytes 1 p.flagsByte ++ (beBytes 1 p.classByte ++ (beBytes 1 p.route ++ (beBytes 1 p.hops ++
    (beBytes 2 p.partition ++ (beBytes 3 p.src ++ (beBytes 3 p.dst ++ (beBytes 3 p.stream ++ (beBytes 1 p.srcInstGen ++
    (beBytes 4 p.srcEpoch ++ (beBytes 4 p.dstEpoch ++ (beBytes 3 p.srcQpn ++ (beBytes 3 p.dstQpn ++ (beBytes 3 p.psn ++
    (beBytes 1 p.srcQueueGen ++ (beBytes 3 p.confPsn ++ (beBytes 1 p.status ++ (beBytes 1 p.reason ++ (beBytes 1 p.crypt ++
    (beBytes 2 p.txn ++ (beBytes 2 p.length ++ (beBytes 4 p.key ++ (beBytes 8 p.remote ++ rest)))))))))))))))))))))))) := by
  unfold Pkt.header
  simp only [List.append_assoc]
  rfl

theorem header_length : p.header.length = 58 := by
  unfold Pkt.header
  simp only [List.length_append, beBytes_length]

/-- Each flag, and the form, stand in a bit of their own in a byte. -/
theorem flagsByte_parts (hform : p.form < 2) : p.flagsByte % 256 ^ 1 = p.flagsByte ∧ bit p.flagsByte 7 = p.response ∧
    bit p.flagsByte 6 = p.first ∧ bit p.flagsByte 5 = p.last ∧ bit p.flagsByte 4 = p.ackReq ∧ bit p.flagsByte 3 = p.forwarded ∧
    bit p.flagsByte 1 = p.encrypted ∧ bits p.flagsByte 0 0 = p.form := by
  have hresponse := b2n_le p.response
  have hfirst := b2n_le p.first
  have hlast := b2n_le p.last
  have hack := b2n_le p.ackReq
  have hforwarded := b2n_le p.forwarded
  have hencrypted := b2n_le p.encrypted
  rw [bits_one]
  refine ⟨?_, bit_flag ?_, bit_flag ?_, bit_flag ?_, bit_flag ?_, bit_flag ?_, bit_flag ?_, ?_⟩ <;> unfold Pkt.flagsByte <;> omega

theorem classByte_parts (htc : p.tc < 8) (hecn : p.ecn < 4) :
    p.classByte % 256 ^ 1 = p.classByte ∧ bits p.classByte 7 5 = p.tc ∧ bits p.classByte 4 3 = p.ecn := by
  simp only [Pkt.classByte, bits, Nat.shiftRight_eq_div_pow]
  omega

end

/-- Settles O10 -/
theorem packetHeaderRoundTrip : Obligations.PacketHeaderRoundTrip := by
  intro p h
  simp only [Pkt.wf, Bool.and_eq_true, decide_eq_true_eq, and_assoc] at h
  obtain ⟨hversion, htyp, hform, htc, hecn, hroute, hhops, hpartition, hsrc, hdst, hstream, hsrcInstGen, hsrcEpoch, hdstEpoch, hsrcQpn, hdstQpn,
    hpsn, hsrcQueueGen, hconfPsn, hstatus, hreason, hcrypt, htxn, hlength, hkey, hremote⟩ := h
  obtain ⟨hflags, hresponse, hfirst, hlast, hack, hforwarded, hencrypted, hformBit⟩ := flagsByte_parts p hform
  obtain ⟨hclass, htcBits, hecnBits⟩ := classByte_parts p htc hecn
  have hpayload : (p.header ++ p.payload).drop 58 = p.payload := List.drop_left' (header_length p)
  unfold parsePkt
  dsimp only
  rw [hpayload, header_append]
  simp (disch := omega) only [slice_behind, beNat_front, Nat.reduceSub, hflags, hclass, hresponse, hfirst, hlast, hack, hforwarded, hencrypted,
    hformBit, htcBits, hecnBits, Nat.mod_eq_of_lt]

/-! ## The checks that every packet meets (R310, R323) -/

section
variable {s : State} {p : Pkt} {typ : Nat} {i : Instr} (f : State → State)

theorem arrive_of_version (hversion : p.version ≠ 0x10) : s.arrive p f = (s.ejected p).gutter gVersion := by
  unfold State.arrive
  exact if_pos hversion

theorem arrive_of_unknownType (hversion : p.version = 0x10) (hknown : typeKnown p.typ = false) :
    s.arrive p f = (s.ejected p).gutter gUnknownType := by
  simp only [State.arrive, hversion, hknown, ne_eq, not_true_eq_false, Bool.not_false, if_true, if_false]

theorem arrive_of_staleDst (hversion : p.version = 0x10) (hknown : typeKnown p.typ = true) (hprobe : p.typ ≠ 0x08) (hnotice : p.typ ≠ 0x09)
    (hdst : p.dstEpoch ≠ (s.ejected p).qpe.epoch) : s.arrive p f = ((s.ejected p).gutter gStaleDstEpoch).epochNotice p.src := by
  simp only [State.arrive, hversion, hknown, hdst, hprobe, hnotice, ne_eq, not_true_eq_false, not_false_eq_true, and_self, Bool.not_true,
    Bool.false_eq_true, if_true, if_false]

theorem arrive_of_staleSrc (hversion : p.version = 0x10) (hknown : typeKnown p.typ = true) (hdst : p.dstEpoch = (s.ejected p).qpe.epoch)
    (hsrc : p.srcEpoch ≠ (s.ejected p).peerEpoch p.src) (hold : epochNewer p.srcEpoch ((s.ejected p).peerEpoch p.src) = false) :
    s.arrive p f = (s.ejected p).gutter gStaleSrcEpoch := by
  simp only [State.arrive, hversion, hknown, hdst, hsrc, hold, ne_eq, not_true_eq_false, not_false_eq_true, and_self, false_and, Bool.not_true,
    Bool.not_false, Bool.false_eq_true, if_true, if_false]

/-! ## The rows of the requests (R305) -/

theorem exec_controlRow (h : (i, typ) ∈ controlRows p) (s : State) : exec i s = run s fun s => s.requestRow typ false p := by
  simp only [controlRows, List.mem_cons, Prod.mk.injEq, List.not_mem_nil, or_false] at h
  rcases h with ⟨rfl, rfl⟩ | ⟨rfl, rfl⟩ | ⟨rfl, rfl⟩ | ⟨rfl, rfl⟩ | ⟨rfl, rfl⟩ | ⟨rfl, rfl⟩ | ⟨rfl, rfl⟩ | ⟨rfl, rfl⟩ | ⟨rfl, rfl⟩ |
    ⟨rfl, rfl⟩ | ⟨rfl, rfl⟩ | ⟨rfl, rfl⟩ | ⟨rfl, rfl⟩ | ⟨rfl, rfl⟩ | ⟨rfl, rfl⟩ | ⟨rfl, rfl⟩ | ⟨rfl, rfl⟩ <;> rfl

theorem mem_controlTypes_of_controlRow (h : (i, typ) ∈ controlRows p) : typ ∈ controlTypes := List.mem_map_of_mem (f := Prod.snd) h

theorem controlTypes_ge : ∀ t ∈ controlTypes, 0x10 ≤ t := by decide

/-- The rows of the requests that are not forwarded, each with its packet type (R305). -/
def requestRows (p : Pkt) : List (Instr × Nat) :=
  [(.writeReq p, 0x01), (.readReq p, 0x02), (.atomicReq p, 0x04), (.tokenReq p, 0x06)] ++ controlRows p

theorem exec_requestRow (h : (i, typ) ∈ requestRows p) (s : State) : exec i s = run s fun s => s.requestRow typ false p := by
  rcases List.mem_append.1 h with hmemory | hcontrol
  · simp only [List.mem_cons, Prod.mk.injEq, List.not_mem_nil, or_false] at hmemory
    rcases hmemory with ⟨rfl, rfl⟩ | ⟨rfl, rfl⟩ | ⟨rfl, rfl⟩ | ⟨rfl, rfl⟩ <;> rfl
  · exact exec_controlRow hcontrol s

/-- Requests are of known types, and neither probes nor notices. -/
theorem typ_requestRow (h : (i, typ) ∈ requestRows p) : typeKnown typ = true ∧ typ ≠ 0x08 ∧ typ ≠ 0x09 := by
  rcases List.mem_append.1 h with hmemory | hcontrol
  · simp only [List.mem_cons, Prod.mk.injEq, List.not_mem_nil, or_false] at hmemory
    rcases hmemory with ⟨rfl, rfl⟩ | ⟨rfl, rfl⟩ | ⟨rfl, rfl⟩ | ⟨rfl, rfl⟩ <;> decide
  · have hmem := mem_controlTypes_of_controlRow hcontrol
    have hknown : typeKnown typ = true := by simp only [typeKnown, List.contains_iff_mem.2 hmem, Bool.or_true]
    have hge := controlTypes_ge typ hmem
    exact ⟨hknown, by omega, by omega⟩

/-- A request in its own row, on a module that is on, arrives to be taken as R310 says. -/
theorem requestRow_arrives (h : (i, p.typ) ∈ requestRows p) (hon : s.pwr.off = false) (hrequest : p.response = false)
    (hdirect : p.forwarded = false) : exec i s = .next (s.arrive p fun s => s.request310 p).finish := by
  have hown : ¬ (p.typ ≠ p.typ ∨ p.response = true ∨ p.forwarded ≠ false) := by simp [hrequest, hdirect]
  rw [exec_requestRow h, run_on _ hon, State.requestRow, if_neg hown]

end

/-! ## Epochs (R324) -/

theorem takeEpoch_of_older {s : State} {m e : Nat} (h : epochNewer e (s.peerEpoch m) = false) : s.takeEpoch m e = s := by
  unfold State.takeEpoch
  exact if_pos (Or.inr (by rw [h]; rfl))

/-- Settles O47: a request meets the checks of `State.arrive` in their order (`arrive_of_version`, `arrive_of_staleDst`, `arrive_of_staleSrc`,
`arrive_of_unknownType`), a packet that passes them is acted on as its type says (`arrive_accepted`), and a notice is taken without them. -/
theorem packetsAreChecked : Obligations.PacketsAreChecked := by
  refine ⟨?checks, ?probe, ?notice, ?older, ?congestion, ?mark, ?unknown⟩
  case checks =>
    intro s p i hrow hon hrequest hdirect
    obtain ⟨hknown, hprobe, hnotice⟩ := typ_requestRow hrow
    rw [requestRow_arrives hrow hon hrequest hdirect]
    refine ⟨fun hversion => ?_, fun hversion hdst => ?_, fun hversion hdst hsrc hold => ?_⟩
    · rw [arrive_of_version _ hversion]
    · rw [arrive_of_staleDst _ hversion hknown hprobe hnotice hdst]
    · rw [arrive_of_staleSrc _ hversion hknown hdst hsrc hold]
  case probe =>
    intro s p h htyp
    show execEpochProbe p s = _
    simp only [execEpochProbe, run_on _ h.on, htyp, arrive_accepted _ h, ne_eq, not_true_eq_false, if_false]
  case notice =>
    intro s p hon htyp hversion
    show execEpochNotice p s = _
    simp only [execEpochNotice, run_on _ hon, htyp, hversion, ne_eq, not_true_eq_false, if_false]
  case older => exact fun s m e h => takeEpoch_of_older h
  case congestion =>
    intro s t p dst tc h htyp ht hdst htc
    subst ht hdst htc
    show execCongestion p s = _
    simp only [execCongestion, run_on _ h.on, htyp, arrive_accepted _ h, ne_eq, not_true_eq_false, if_false]
  case mark =>
    intro t now gap least shift hgap
    have hdue : ¬ (t.lastCut ≠ 0 ∧ since64 now t.lastCut < gap * 1000) := by omega
    simp only [Throttle.mark, hdue, if_false]
  case unknown =>
    intro s p hon hversion hknown
    show execUnknownTypePacket p s = _
    simp only [execUnknownTypePacket, run_on _ hon, hknown, arrive_of_unknownType _ hversion hknown, Bool.false_eq_true, if_false]

/-! ## Control requests for which there is no room (R306, R312)

A control request is acted on whole, so the payload of its packets is kept in its stream until the last has come (R306). The model keeps
that of a first packet also when it drops the packet, so such a drop leaves the stream otherwise than it was. -/

section
variable {s u : State} {p : Pkt} {typ : Nat} {i : Instr} {r : Perf} {d : Option Decision}

/-- A control request that has its turn is settled as what performing it comes to. -/
theorem controlRow_settled (hi : (i, typ) ∈ controlRows p) (h : InTurn s p) (htyp : p.typ = typ)
    (hperf : (s.performing p).perform p (s.turn p).qpe.nextArrival none = (r, d, u)) :
    exec i s = .next (u.settled p (s.turn p).qpe.nextArrival r d).finish := by
  rw [exec_controlRow hi, requestRow_inTurn h htyp hperf]

/-- One for which there is no room is dropped at the gutter, after its payload has been kept. -/
theorem controlRow_busy (hi : (i, typ) ∈ controlRows p) (h : InTurn s p) (htyp : p.typ = typ) (hverdict : (s.performing p).verdict p = .busy) :
    exec i s = .next ((s.performing p).settled p (s.turn p).qpe.nextArrival .busy none).finish := by
  have hctl : 0x10 ≤ p.typ := htyp ▸ controlTypes_ge typ (mem_controlTypes_of_controlRow hi)
  have htoken : p.typ ≠ 0x06 := by omega
  exact controlRow_settled hi h htyp (by simp only [State.perform, htoken, hctl, hverdict, if_true, if_false])

/-- A MOVE_START to the old holder waits while MAX_MOVES copies run there (R564). -/
theorem verdict_copiesFull (htyp : p.typ = 0x29) (hempty : s.qpe.inbox = []) (hrole : plcByte p 16 ≠ 0) (hfull : s.copiesFull = true) :
    s.verdict p = .busy := by
  simp only [State.verdict, htyp, hempty, List.any_nil, State.moveVerdict, hrole, hfull, ne_eq, not_false_eq_true, Bool.false_eq_true, if_true,
    if_false]

end

/-- A module that copies sixteen pages, which is MAX_MOVES after reset. -/
def sixteenCopies : State :=
  { State.reset with
    plc := { State.reset.plc with held := (List.range 16).map fun k => (pageKey 0 k, { (default : Held) with copyTo := some 1 }) } }

/-- The first of the packets of a MOVE_START to the old holder, from module 1. -/
def moveStartFirst : Pkt :=
  { (default : Pkt) with version := 0x10, typ := 0x29, first := true, src := 1, length := 17, payload := zeros 16 ++ [1] }

theorem moveStartFirst_inTurn : InTurn sixteenCopies moveStartFirst where
  accepts := ⟨by decide +kernel, by decide +kernel, by decide +kernel, by decide +kernel, by decide +kernel⟩
  request := rfl
  direct := rfl
  unconnected := rfl
  plain := rfl
  first := rfl
  next := by decide +kernel
  idle := by decide +kernel
  whole := by decide +kernel
  alone := by decide +kernel
  room := by decide +kernel

theorem moveStartFirst_busy : (sixteenCopies.performing moveStartFirst).verdict moveStartFirst = .busy :=
  verdict_copiesFull rfl (by decide +kernel) (by decide +kernel) (by decide +kernel)

theorem moveStartFirst_kept :
    (((sixteenCopies.performing moveStartFirst).settled moveStartFirst (sixteenCopies.turn moveStartFirst).qpe.nextArrival .busy none).rstream
      (streamOf moveStartFirst)).parts = zeros 16 ++ [1] := by decide +kernel

theorem moveStartFirst_unkept :
    (((sixteenCopies.performing moveStartFirst).gutter gResponderBusy).rstream (streamOf moveStartFirst)).parts = [] := by decide +kernel

/-- Refutes O36: to a module that runs MAX_MOVES copies comes the first of two packets of a MOVE_START. It is dropped, and the statement says
that only the gutter counts it; but its payload is kept in its stream as the beginning of a message (`moveStartFirst_kept`). -/
theorem not_controlRequestsAreTaken : ¬ Obligations.ControlRequestsAreTaken := by
  intro h
  obtain ⟨⟨-, -, hdropped, -⟩, -⟩ := h
  have hrow : (Instr.moveStart moveStartFirst, 0x29) ∈ controlRows moveStartFirst := by simp [controlRows]
  have hclaim := hdropped sixteenCopies moveStartFirst _ _ hrow moveStartFirst_inTurn rfl moveStartFirst_busy
  rw [controlRow_busy hrow moveStartFirst_inTurn rfl moveStartFirst_busy, finish_of_calm (by decide +kernel),
    finish_of_calm (by decide +kernel)] at hclaim
  have hstream := congrArg (fun t : State => (t.rstream (streamOf moveStartFirst)).parts) (Host.Outcome.next.inj hclaim)
  simp only [moveStartFirst_kept, moveStartFirst_unkept] at hstream
  exact absurd hstream (by decide)

/-! ## ACKs (R317) -/

theorem psnLe_self (n : Nat) : psnLe n n = true := by
  have hdist : n + 2 ^ 24 - n = 2 ^ 24 := Nat.add_sub_cancel_left ..
  simp only [psnLe, hdist]
  decide

section
variable {s t : State} {p : Pkt} {k : Nat} {x : Txn}

/-- An ACK that covers one entry of its stream, at its own PSN, resolves it; one of a stream then serves its bitmap (R317, R318). -/
theorem ackIn_one (hecn : p.ecn ≠ 3) (ht : t = s.noteAck (if p.dstQpn ≠ 0 then some p.dstQpn else none))
    (hone : (t.qpe.txns.filter fun e => e.2.inStream (if p.dstQpn ≠ 0 then some p.dstQpn else none) p.stream p.tc) = [(k, x)])
    (hpsn : x.psn = p.psn) (hlive : t.staleResponse x p = false) :
    s.ackIn p =
      let u := t.ackEntry p (p.forwarded || x.typ == 0x29) k x
      if p.forwarded then u else u.sack p ((u.qpe.txns.filter fun e =>
        e.2.inStream (if p.dstQpn ≠ 0 then some p.dstQpn else none) p.stream p.tc).filter fun e => !psnLe e.2.psn p.psn) := by
  have hcovered : psnLe x.psn p.psn = true := by rw [hpsn, psnLe_self]
  have hown : (x.psn == p.psn) = true := beq_iff_eq.2 hpsn
  simp only [State.ackIn, hecn, ← ht, hone, List.filter_cons, List.filter_nil, hcovered, ite_self, List.find?_cons, List.find?_nil, hlive, hown,
    Bool.and_false, Bool.true_and, List.mergeSort_singleton, List.any_cons, List.any_nil, Bool.or_false, List.foldl_cons, List.foldl_nil,
    List.cons_ne_nil, if_true, if_false]

theorem exec_ack (h : Accepts s p) (htyp : p.typ = 0x07) : exec (.ack p) s = .next ((s.admitted p).ackIn p).finish := by
  show execAck p s = _
  simp only [execAck, run_on _ h.on, htyp, arrive_accepted _ h, ne_eq, not_true_eq_false, if_false]

theorem ackOutcome_bare (p : Pkt) : ackOutcome p true p.psn = (p.status, p.reason) := by
  simp only [ackOutcome, if_true]

/-! ## Responses with data (R317) -/

theorem exec_readResp (h : Accepts s p) (htyp : p.typ = 0x03) : exec (.readResp p) s = .next ((s.admitted p).dataResponse p 0x02).finish := by
  show execReadResp p s = _
  simp only [execReadResp, run_on _ h.on, htyp, arrive_accepted _ h, ne_eq, not_true_eq_false, if_false]

theorem exec_atomicResp (h : Accepts s p) (htyp : p.typ = 0x05) :
    exec (.atomicResp p) s = .next ((s.admitted p).dataResponse p 0x04).finish := by
  show execAtomicResp p s = _
  simp only [execAtomicResp, run_on _ h.on, htyp, arrive_accepted _ h, ne_eq, not_true_eq_false, if_false]

theorem dataResponse_free (typ : Nat) (hecn : p.ecn ≠ 3) (hfree : SMap.find s.qpe.txns p.txn = none) :
    s.dataResponse p typ = s.freeResponse p := by
  simp only [State.dataResponse, hecn, hfree, if_false]

/-- Where the data of a response belongs in its entry: an atomic's has one place. -/
def respOffset (p : Pkt) (x : Txn) (typ : Nat) : Nat :=
  if typ = 0x04 then 0 else (p.remote + 2 ^ 64 - (x.pkts.head?.map (·.remote)).getD 0) % 2 ^ 64

/-- The entry of a response with the first packet of its data. -/
def Txn.withFirst (x : Txn) (p : Pkt) (typ : Nat) : Txn := { x with got := [(respOffset p x typ, p)] }

/-- The first packet of a plain response to an unconnected entry is kept in it (R317). -/
theorem dataResponse_plain {typ : Nat} (hecn : p.ecn ≠ 3) (hx : SMap.find s.qpe.txns p.txn = some x) (htyp : x.typ = typ)
    (hstream : x.inStream (if p.dstQpn ≠ 0 then some p.dstQpn else none) p.stream p.tc = true) (hpsn : x.psn = p.psn)
    (hlive : s.staleResponse x p = false) (hplain : p.encrypted = false) (hunconnected : x.connected = false) (hnone : x.got = []) :
    s.dataResponse p typ = State.gotResponse { s with qpe := { s.qpe with txns := SMap.put s.qpe.txns p.txn (x.withFirst p typ) } }
      (x.withFirst p typ) p typ := by
  simp only [State.dataResponse, hecn, hx, htyp, hstream, hpsn, hlive, hplain, hunconnected, hnone, Txn.withFirst, respOffset, SMap.put,
    Option.map_none, Option.getD_none, Bool.not_true, Bool.not_false, Bool.and_true, Bool.false_and, Bool.false_eq_true, ne_eq,
    not_true_eq_false, or_self, false_and, if_false]

theorem respData_withFirst {typ len : Nat} (hplain : p.encrypted = false) (hfirst : p.first = true) (hlast : p.last = true)
    (hlen : len ≤ p.length) : s.respData (x.withFirst p typ) len = .ok (p.payload.take p.length) := by
  have htotal : ¬ sumList [p.length] < len := by simpa [sumList] using hlen
  simp [State.respData, Txn.withFirst, hplain, hfirst, hlast, htotal]

theorem endResponse_plain (typ : Nat) (data : Bytes) (hplain : p.encrypted = false) : s.endResponse x p typ (.ok data) =
    s.endTxn p.txn p.status p.reason true (if typ = 0x04 then leBytes 8 (beNat (slice data 0 8)) else data) := by
  cases hqpn : x.qpn <;> simp only [State.endResponse, hqpn, hplain]

/-- A plain response of one packet ends its entry with its data (R317). -/
theorem gotResponse_whole {typ : Nat} (hplain : p.encrypted = false) (hfirst : p.first = true) (hlast : p.last = true)
    (hlen : typ = 0x02 → p.length = (x.pkts.head?.map (·.length)).getD 0) :
    s.gotResponse (x.withFirst p typ) p typ = s.endTxn p.txn p.status p.reason true
      (if typ = 0x04 then leBytes 8 (beNat (slice (p.payload.take p.length) 0 8)) else p.payload.take p.length) := by
  have hwhole : (if typ = 0x02 then (x.pkts.head?.map (·.length)).getD 0 else 0) ≤ p.length := by
    split
    next h => exact (hlen h).ge
    next => exact Nat.zero_le _
  have hpkts : (x.withFirst p typ).pkts = x.pkts := rfl
  simp only [State.gotResponse, hplain, hpkts, respData_withFirst hplain hfirst hlast hwhole, endResponse_plain _ _ hplain, Bool.not_false, if_true]

end

/-- Settles O58: an ACK that covers one entry resolves that entry (`ackIn_one`), with the packet's own outcome where it bears no records
(`ackOutcome_bare`), and a plain response with data is kept in the entry of its TXN and, whole in one packet, ends it (`dataResponse_plain`,
`gotResponse_whole`); one with no entry is counted at the gutter (`dataResponse_free`). -/
theorem responsesResolveTransactions : Obligations.ResponsesResolveTransactions := by
  refine ⟨?forwarded, ?stream, ?outcome, ?released, ?reclaimed, ?data⟩
  case forwarded =>
    intro s t p k x h htyp hecn hforwarded ht hone hpsn hlive
    rw [exec_ack h htyp, ackIn_one hecn ht hone hpsn hlive]
    simp only [hforwarded, Bool.true_or, if_true]
  case stream =>
    intro s t u p k x h htyp hecn hdirect ht hone hpsn hlive hu
    subst hu
    rw [exec_ack h htyp, ackIn_one hecn ht hone hpsn hlive]
    simp only [hdirect, Bool.false_or, Bool.false_eq_true, if_false]
  case outcome =>
    intro t p k x hpsn hfailed htag hforwarded
    simp only [State.ackEntry, hpsn, ackOutcome_bare, hfailed, htag, and_true, false_and, if_false]
  case released =>
    intro s t p h htyp hecn ht hfree hnew
    subst ht
    rw [exec_readResp h htyp, dataResponse_free _ hecn hfree, State.freeResponse, hnew]
    rfl
  case reclaimed =>
    intro s t p h htyp hecn ht hfree hold
    subst ht
    rw [exec_readResp h htyp, dataResponse_free _ hecn hfree, State.freeResponse, hold]
    rfl
  case data =>
    intro s t p i rtyp ptyp off x hi h htyp hecn ht hx hxtyp hstream hpsn hlive hplain hunconnected hnone hfirst hlast hlen hoff
    subst ht hoff
    simp only [List.mem_cons, Prod.mk.injEq, List.not_mem_nil, or_false] at hi
    rcases hi with ⟨rfl, rfl, rfl⟩ | ⟨rfl, rfl, rfl⟩
    · rw [exec_readResp h htyp, dataResponse_plain hecn hx hxtyp hstream hpsn hlive hplain hunconnected hnone,
        gotResponse_whole hplain hfirst hlast fun _ => hlen rfl]
      rfl
    · rw [exec_atomicResp h htyp, dataResponse_plain hecn hx hxtyp hstream hpsn hlive hplain hunconnected hnone,
        gotResponse_whole hplain hfirst hlast fun h => absurd h (by decide)]
      rfl

/-! ## Timers (R315, R318, R319, R322, R370, R612, R788) -/

section
variable {s : State} {k m n conn key : Nat} {t : Txn}

/-- A request that may be sent again is, or counts an attempt where it is known to be held (R318). -/
theorem retransmitTimeout_runs (hon : s.pwr.off = false) (ht : SMap.find s.qpe.txns k = some t) (hopen : t.accepted = false)
    (hsent : s.firstWaits k t = false) (hfew : t.attempts < s.regF .QPE_XPT_TIMER 27 24) :
    exec (.retransmitTimeout k) s = .next (s.retransmit k).finish := by
  show execRetransmitTimeout k s = _
  simp only [execRetransmitTimeout, run_on _ hon, ht, hopen, hsent, hfew.not_ge, Bool.false_eq_true, or_self, if_false]

/-- The time of a request whose first packet still waits for its frame has not begun (R612). -/
theorem retransmitTimeout_waits (hon : s.pwr.off = false) (ht : SMap.find s.qpe.txns k = some t) (hwaits : s.firstWaits k t = true) :
    exec (.retransmitTimeout k) s = .next s.finish := by
  show execRetransmitTimeout k s = _
  simp only [execRetransmitTimeout, run_on _ hon, ht, hwaits, true_or, or_true, if_true]

theorem retryLimitTimeout_waits (hon : s.pwr.off = false) (ht : SMap.find s.qpe.txns k = some t) (hwaits : s.firstWaits k t = true) :
    exec (.retryLimitTimeout k) s = .next s.finish := by
  show execRetryLimitTimeout k s = _
  simp only [execRetryLimitTimeout, run_on _ hon, ht, hwaits, true_or, or_true, if_true]

theorem ackDelayExpiry_owed (hon : s.pwr.off = false)
    (howed : (s.rstream (if conn = 1 then StreamId.qp key else StreamId.module key)).unanswered ≠ 0) :
    exec (.ackDelayExpiry conn key) s = .next (s.sendAck (if conn = 1 then StreamId.qp key else StreamId.module key)).finish := by
  show execAckDelayExpiry conn key s = _
  simp only [execAckDelayExpiry, run_on _ hon, howed, if_false]

end

/-- A table of one entry, after an update of its values and a selection among them. -/
theorem keep_mapv_one {α : Type} (k : Nat) (v : α) (f : Nat → α → α) (sel : Nat → α → Bool) :
    SMap.keep (SMap.mapv [(k, v)] f) sel = if sel k (f k v) then [(k, f k v)] else [] := by
  simp only [SMap.keep, SMap.mapv, List.map_cons, List.map_nil, List.filter_cons, List.filter_nil]

/-- Settles O26: the timer of a request sends it again while attempts remain (`retransmitTimeout_runs`) and does nothing while its first packet
waits (`retransmitTimeout_waits`), an answer that is owed is sent (`ackDelayExpiry_owed`), and every other timer takes the branch that its
clause's conditions choose. -/
theorem transportTimersRun : Obligations.TransportTimersRun := by
  refine ⟨?again, ?held, ?waits, ?limit, ?ack, ?ackConnected, ?probe, ?lost, ?aging, ?throttle, ?tick⟩
  case again =>
    intro s k t hon ht hopen hheld hsent hfew
    rw [retransmitTimeout_runs hon ht hopen hsent hfew]
    simp only [State.retransmit, ht, hheld, Bool.false_eq_true, if_false]
  case held =>
    intro s k t hon ht hopen hheld hsent hfew
    rw [retransmitTimeout_runs hon ht hopen hsent hfew]
    simp only [State.retransmit, ht, hheld, if_true]
  case waits =>
    intro s k t hon ht hwaits
    exact ⟨retransmitTimeout_waits hon ht hwaits, retryLimitTimeout_waits hon ht hwaits⟩
  case limit =>
    intro s k t hon ht hopen hsent hmany
    show execRetryLimitTimeout k s = _
    simp only [execRetryLimitTimeout, run_on _ hon, ht, hopen, hsent, hmany.not_gt, Bool.false_eq_true, or_self, if_false]
  case ack => exact fun s key hon howed => ackDelayExpiry_owed (conn := 0) hon howed
  case ackConnected => exact fun s n hon howed => ackDelayExpiry_owed (conn := 1) hon howed
  case probe =>
    intro s t m n hon hn hfew ht
    subst ht
    show execEpochProbeTimeout m s = _
    simp only [execEpochProbeTimeout, run_on _ hon, hn, hfew.not_ge, if_false]
  case lost =>
    intro s m n hon hn hmany
    show execEpochProbeTimeout m s = _
    simp only [execEpochProbeTimeout, run_on _ hon, hn, hmany, if_true]
  case aging =>
    intro s m hon
    show execEpochTableAging m s = _
    rw [execEpochTableAging, run_on _ hon]
  case throttle =>
    intro s k t u hon hone hu
    have hfreed : (!(u.rate == maxRate && u.target == maxRate &&
        decide (4 * s.comF .RTR_THROTTLE_CFG1 31 16 * 1000 ≤ since64 s.hallTime u.lastMark))) = true ↔
        ¬ (u.rate = maxRate ∧ u.target = maxRate ∧ 4 * s.comF .RTR_THROTTLE_CFG1 31 16 * 1000 ≤ since64 s.hallTime u.lastMark) := by
      rw [Bool.not_eq_true', ← Bool.not_eq_true]
      simp only [Bool.and_eq_true, beq_iff_eq, decide_eq_true_eq, and_assoc]
    show execThrottleTick s = _
    simp only [execThrottleTick, run_on _ hon, hone, keep_mapv_one, ← hu, hfreed, ite_not]
    split_ifs <;> rfl
  case tick =>
    intro t now ap shift ip fast ai hmark halpha hinc hfast
    simp only [Throttle.tick, hmark, halpha, hinc, hfast, and_self, if_true]

end Sys2Proof.Machine

/-!
Groups and the tree: how a group is defined and released, when a packet of the tree goes out again, which members are marked LOST, and how
drains end.
-/

namespace Sys2Proof.Machine

/-! ## Groups (R395, R396) -/

/-- The group that a DEFINE_GROUP with list `ms` makes on module `me`, while it waits for the other members. -/
def groupDefining (p k partition me : Nat) (ms : List Nat) : Group :=
  { partition, list := ms, rank := ms.findIdx (· == me), box := isBox ms, crossover := 65536, weight := 16, seq := 0, waiting := some (p, k)
    coll := none, early := [], aborted := [] }

/-- A good list names each member once, all of them members of one ready job domain, and this module among them. -/
theorem defineGroup_good {s : State} {p k g partition : Nat} {c : Cmd} {ms : List Nat} {d : Domain} {x : Group}
    (hx : x = groupDefining p k partition s.me ms) (honce : ms.eraseDups.length = ms.length) (hd : s.domain partition = some d)
    (hready : d.ready = true) (hall : (ms.all fun m => s.inTorus m && d.members.contains m) = true) (hme : ms.contains s.me = true) :
    s.defineGroup p k g partition c ms = .wait { c with stage := 1 }
      (((((s.dropGroupTrees g).setCmd p k { c with stage := 1 }).setGroup g x).sendSetup g x).setupCheck g) := by
  subst hx
  simp only [State.defineGroup, groupDefining, honce, hd, hready, hall, hme, Bool.true_and, Bool.not_true, Bool.false_eq_true, ne_eq,
    not_true_eq_false, or_self, if_false]

/-! ## The tree's timers (R425, R794) -/

section
variable {s : State} {kind root tree seq m : Nat} {t : TreeOp}

/-- A TREE_UP without its TREE_DOWN goes out again (R425). -/
theorem treeUpRetry_sends (hon : s.pwr.off = false) (ht : s.treeOp kind root tree seq = some t) (hkind : kind ≠ tkGroupDefine)
    (hsent : t.sentUp = true) (hdown : t.down = false) (hopen : t.finished = false) (hacks : tkAcks kind = false) :
    exec (.treeUpRetry kind root tree seq) s = .next (s.treeAgain t).finish := by
  show execTreeUpRetry kind root tree seq s = _
  simp only [execTreeUpRetry, run_on _ hon, ht, hkind, hsent, hdown, hopen, hacks, Bool.not_true, Bool.false_eq_true, or_self, if_false]

/-- A member that has not passed its rack's count on sends its own TREE_UP, to another module (R424). -/
theorem treeAgain_own (hpassed : t.passedUp = false) (hother : s.upTo t ≠ s.me) :
    s.treeAgain t = (s.count .COL_TREE_RETRY_COUNT).ownUp t := by
  simp only [State.treeAgain, State.ownUpAgain, hpassed, hother, Bool.false_eq_true, false_and, if_false]

theorem treeAgain_passed (hpassed : t.passedUp = true) (hroot : t.root ≠ s.me) :
    s.treeAgain t = (s.count .COL_TREE_RETRY_COUNT).sendUp t t.root
      ((s.treeAlive t).filter fun m => rackOf m == rackOf s.me).length := by
  rw [State.treeAgain, if_pos ⟨hpassed, hroot⟩]

/-- Whether module `m` may be found silent in a tree operation: its notice or release has gone down, acknowledgements are awaited, and `m` is
another module of the operation's scope. -/
structure AwaitsAck (s : State) (kind root tree seq m : Nat) (t : TreeOp) : Prop where
  on : s.pwr.off = false
  found : s.treeOp kind root tree seq = some t
  acks : tkAcks kind = true
  down : t.down = true
  unfinished : t.finished = false
  other : m ≠ s.me
  scope : (s.treeAlive t ++ t.extra).contains m = true

/-- Whether a member has not acknowledged to this module: as its rack's combiner, or as the root that waits for the rack's combiner. -/
def Unacked (s : State) (root m : Nat) (t : TreeOp) : Prop :=
  (rackOf m = rackOf s.me ∧ s.combiner t (rackOf s.me) = some s.me ∧ t.counted.contains m = false) ∨
    (root = s.me ∧ s.combiner t (rackOf m) = some m ∧ t.racks.contains (rackOf m) = false)

/-- A module of the scope that is no member is no longer awaited by the root (R82). -/
theorem treeAckTimeout_stranger (h : AwaitsAck s kind root tree seq m t) (hroot : root = s.me) (hextra : t.extra.contains m = true)
    (hcounted : t.counted.contains m = false) :
    exec (.treeAckTimeout kind root tree seq m) s = .next (s.ridge { t with gone := t.gone ++ [m] }).finish := by
  show execTreeAckTimeout kind root tree seq m s = _
  have hother : (m != s.me) = true := bne_iff_ne.2 h.other
  have hatRoot : (root == s.me) = true := beq_iff_eq.2 hroot
  simp only [execTreeAckTimeout, run_on _ h.on, State.ackTimeout, h.found, h.acks, h.down, h.unfinished, hother, h.scope, hatRoot, hextra,
    hcounted, Bool.not_false, Bool.and_self, Bool.or_true, if_true]

/-- A member is marked LOST (R794). -/
theorem treeAckTimeout_member (h : AwaitsAck s kind root tree seq m t) (hextra : t.extra.contains m = false) (hdue : Unacked s root m t) :
    exec (.treeAckTimeout kind root tree seq m) s =
      .next ((s.setTree { t with lost := t.lost ++ [m] }).markLost t.partition m).finish := by
  show execTreeAckTimeout kind root tree seq m s = _
  have hother : (m != s.me) = true := bne_iff_ne.2 h.other
  have hsilent : (rackOf m == rackOf s.me && s.combiner t (rackOf s.me) == some s.me && !t.counted.contains m ||
      root == s.me && s.combiner t (rackOf m) == some m && !t.racks.contains (rackOf m)) = true := by
    simpa only [Unacked, Bool.or_eq_true, Bool.and_eq_true, beq_iff_eq, Bool.not_eq_true', and_assoc] using hdue
  simp only [execTreeAckTimeout, run_on _ h.on, State.ackTimeout, h.found, h.acks, h.down, h.unfinished, hother, h.scope, hextra, hsilent,
    Bool.not_false, Bool.and_false, Bool.false_and, Bool.or_false, Bool.and_self, Bool.false_eq_true, if_true, if_false]

end

/-- Settles O52: a definition comes to `defineGroup_good`, a TREE_UP that goes out again is the module's own or its rack's (`treeAgain_own`,
`treeAgain_passed`), a silent module is a stranger or a member (`treeAckTimeout_stranger`, `treeAckTimeout_member`), and every other row takes
the branch of its body that its clause's conditions choose. -/
theorem groupsAndTreesComeAndGo : Obligations.GroupsAndTreesComeAndGo := by
  refine ⟨⟨?define, ?release, ?abandon, ?policy⟩, ?own, ?passed, ?setup, ?stranger, ?lost, ?revoke, ?snapshot⟩
  case define =>
    intro s p k c c0 t l ms x d h b hstage hnew hcount hmax hread hms honce hd hready hall hme hx
    subst hms
    refine adminRow_waits (b := b) h rfl ?_
    simp only [par_params, begun_stage, hstage, hnew, hcount, hmax.not_gt, hread, Option.isSome_none, Nat.zero_ne_one, Bool.false_eq_true,
      or_self, if_false]
    exact defineGroup_good hx honce hd hready hall hme
  case release =>
    intro s p k c x h b hx hdefined hrests
    refine adminRow_replies (b := b) h rfl ?_
    simp only [par_params, hx, hdefined, hrests, Bool.false_eq_true, if_false, AdmRes.ok]
  case abandon =>
    intro s p k c x w h b hx hwaits
    refine adminRow_replies (b := b) h rfl ?_
    simp only [par_params, hx, hwaits, AdmRes.ok]
  case policy =>
    intro s p k c x h b hx hweight
    refine adminRow_replies (b := b) h rfl ?_
    simp only [par_params, hx, hweight, if_false, AdmRes.ok]
  case own =>
    intro s kind root tree seq t hon ht hkind hsent hdown hopen hacks hpassed hother
    rw [treeUpRetry_sends hon ht hkind hsent hdown hopen hacks, treeAgain_own hpassed hother]
  case passed =>
    intro s kind root tree seq t hon ht hkind hsent hdown hopen hacks hpassed hroot
    rw [treeUpRetry_sends hon ht hkind hsent hdown hopen hacks, treeAgain_passed hpassed hroot]
  case setup =>
    intro s root tree seq x hon hx hwaits hfirst hroot
    show execTreeUpRetry tkGroupDefine root tree seq s = _
    simp only [execTreeUpRetry, run_on _ hon, hx, hwaits, hfirst, bne_iff_ne.2 hroot, beq_self_eq_true, Bool.and_self, if_true]
  case stranger =>
    intro s kind root tree seq m t hon ht hacks hdown hopen hother hroot hextra hcounted
    have hscope : (s.treeAlive t ++ t.extra).contains m = true := by rw [List.contains_append, hextra, Bool.or_true]
    exact treeAckTimeout_stranger ⟨hon, ht, hacks, hdown, hopen, hother, hscope⟩ hroot hextra hcounted
  case lost =>
    intro s kind root tree seq m t hon ht hacks hdown hopen hother halive hextra hdue
    have hscope : (s.treeAlive t ++ t.extra).contains m = true := by rw [List.contains_append, halive, Bool.true_or]
    exact treeAckTimeout_member ⟨hon, ht, hacks, hdown, hopen, hother, hscope⟩ hextra hdue
  case revoke =>
    intro s root tree d hon hd hdone
    show execRevokeDrainDone tkRevoke root tree s = _
    simp only [execRevokeDrainDone, run_on _ hon, State.drainDone, hd, hdone, Bool.false_eq_true, if_true, if_false]
  case snapshot =>
    intro s partition root seq d hon hd hdrain hdone
    show execSnapshotDrainDone partition s = _
    simp only [execSnapshotDrainDone, run_on _ hon, State.snapDrainDone, hd, hdrain, hdone, Bool.not_true, Bool.false_eq_true, if_false]

end Sys2Proof.Machine

/-!
The channel arbiters and transit programs: which request wins a cycle of an arbiter, what a cycle leaves pending and where it parks, and how
programs are loaded, run and ended.
-/

namespace Sys2Proof.Machine

/-! ## Lookups in a table that is mapped or filtered -/

section
variable {α : Type}

@[simp] theorem find_mapv (m : SMap α) (f : Nat → α → α) (k : Nat) : SMap.find (SMap.mapv m f) k = (SMap.find m k).map (f k) := by
  induction m with
  | nil => rfl
  | cons e m ih =>
    simp only [SMap.mapv] at ih
    simp only [SMap.mapv, List.map_cons, SMap.find, ih]
    split_ifs with hk
    · subst hk
      rfl
    · rfl
    · rfl

/-- An entry that is not kept leaves no other at its key: a canonical table lists each key once. -/
theorem find_keep_from {lo : Nat} (m : SMap α) (p : Nat → α → Bool) (k : Nat) (hm : SMap.sortedFrom lo m = true) :
    SMap.find (SMap.keep m p) k = (SMap.find m k).filter (p k) := by
  induction m generalizing lo with
  | nil => rfl
  | cons e m ih =>
    obtain ⟨j, v⟩ := e
    simp only [SMap.sortedFrom, Bool.and_eq_true, decide_eq_true_eq] at hm
    have hbelow (hk : k < j + 1) : SMap.find m k = none := find_below m hm.2 hk
    have htail : SMap.find (m.filter fun e => p e.1 e.2) k = (SMap.find m k).filter (p k) := ih hm.2
    by_cases hp : p j v = true
    · simp only [SMap.keep, List.filter_cons, hp, if_true, SMap.find, htail]
      split_ifs with hjk hkj
      · subst hjk
        rw [Option.filter_some, if_pos hp]
      · rfl
      · rfl
    · simp only [SMap.keep, List.filter_cons, hp, if_false, Bool.false_eq_true, SMap.find, htail]
      split_ifs with hjk hkj
      · subst hjk
        rw [hbelow j.lt_succ_self, Option.filter_some, if_neg hp, Option.filter_none]
      · rw [hbelow (by omega)]
      · rfl

theorem find_keep (m : SMap α) (p : Nat → α → Bool) (k : Nat) (hm : SMap.wf m = true) :
    SMap.find (SMap.keep m p) k = (SMap.find m k).filter (p k) := find_keep_from m p k hm

/-- In a table whose unlisted keys read as `d`, updating the values and dropping those that have become `d` is updating what every key reads. -/
theorem getD_keep_mapv [BEq α] [LawfulBEq α] (m : SMap α) (f : Nat → α → α) (d : α) (k : Nat) (hm : SMap.wf m = true) (hd : f k d = d) :
    SMap.getD (SMap.keep (SMap.mapv m f) fun _ v => v != d) k d = f k (SMap.getD m k d) := by
  rw [SMap.getD, SMap.getD, find_keep _ _ _ (wf_mapv m f hm), find_mapv]
  cases SMap.find m k with
  | none => exact hd.symm
  | some v => by_cases hv : f k v = d <;> simp [Option.filter, hv]

end

/-! ## The winner of a cycle (R477) -/

/-- In a list along which `g` does not fall, the first of the elements that maximize `f` has the least `g` of them. -/
theorem le_of_mem_argmax_of_pairwise {α : Type} [DecidableEq α] {f g : α → Nat} {l : List α} {a m : α}
    (hl : l.Pairwise fun x y => g x ≤ g y) (hm : m ∈ l.argmax f) (ha : a ∈ l) (htie : f m ≤ f a) : g m ≤ g a := by
  have hrefl : Std.Refl fun x y => g x ≤ g y := ⟨fun _ => le_rfl⟩
  have hle := hl.rel_get_of_le (a := ⟨l.idxOf m, List.idxOf_lt_length_iff.2 (List.argmax_mem hm)⟩)
    (b := ⟨l.idxOf a, List.idxOf_lt_length_iff.2 ha⟩) (List.index_of_argmax hm ha htie)
  simpa using hle

/-- The requests that take part in a cycle's arbitration, each with its port: those presented in an earlier cycle, in round robin. -/
def Arb.contenders (b : Arb) : List (Nat × ArbReq) :=
  b.robin.filterMap fun p => (b.head p).bind fun r => if r.shown = 0 then none else some (p, r)

/-- The place of a port in the round robin after the port last granted. -/
def Arb.turn (b : Arb) (p : Nat) : Nat := (p + 9 - b.last) % 10

section
variable {b : Arb} {c : ArbCfg} {p idle : Nat} {r : ArbReq}

/-- The winner is the first contender of the highest rank. -/
theorem Arb.winner_eq_argmax (hroom : b.queue < 32) : b.winner c = b.contenders.argmax fun x => c.rank x.1 x.2 := by
  rw [Arb.winner, if_neg hroom.not_ge, List.argmax]
  refine congrArg (fun f => b.contenders.foldl f none) (funext₂ fun w x => ?_)
  cases w <;> rfl

@[simp] theorem Arb.winner_of_full (hfull : 32 ≤ b.queue) : b.winner c = none := if_pos hfull

theorem Arb.room_of_winner (h : b.winner c = some (p, r)) : b.queue < 32 := by
  by_contra hfull
  rw [Arb.winner_of_full (by omega)] at h
  cases h

/-- The round robin passes over every port. -/
theorem Arb.mem_robin : p ∈ b.robin ↔ p < 10 := by
  simp only [Arb.robin, List.mem_map, List.mem_range]
  refine ⟨?_, fun hp => ⟨(p + 9 * (b.last + 1)) % 10, ?_, ?_⟩⟩
  · rintro ⟨i, -, rfl⟩
    omega
  · omega
  · omega

theorem Arb.mem_contenders : (p, r) ∈ b.contenders ↔ p < 10 ∧ b.head p = some r ∧ r.shown ≠ 0 := by
  simp only [Arb.contenders, List.mem_filterMap, Arb.mem_robin, Option.bind_eq_some_iff, Option.ite_none_left_eq_some, Option.some.injEq,
    Prod.mk.injEq]
  constructor
  · rintro ⟨_, hp, _, hr, hshown, rfl, rfl⟩
    exact ⟨hp, hr, hshown⟩
  · rintro ⟨hp, hr, hshown⟩
    exact ⟨p, hp, r, hr, hshown, rfl, rfl⟩

/-- The round robin takes the ports in their turn. -/
theorem Arb.robin_in_turn (hlast : b.last < 10) : b.robin.Pairwise fun x y => b.turn x < b.turn y := by
  refine List.pairwise_map.2 (List.pairwise_lt_range.imp_of_mem fun {i j} hi hj hij => ?_)
  rw [List.mem_range] at hi hj
  simp only [Arb.turn]
  omega

theorem Arb.contenders_in_turn (hlast : b.last < 10) : b.contenders.Pairwise fun x y => b.turn x.1 ≤ b.turn y.1 := by
  refine (Arb.robin_in_turn hlast).filterMap _ fun x y hxy u hu v hv => ?_
  simp only [Option.bind_eq_some_iff, Option.ite_none_left_eq_some, Option.some.injEq] at hu hv
  obtain ⟨_, -, -, rfl⟩ := hu
  obtain ⟨_, -, -, rfl⟩ := hv
  exact hxy.le

/-- A request that wins took part in the arbitration. -/
theorem Arb.contends_of_winner (h : b.winner c = some (p, r)) : (p, r) ∈ b.contenders := by
  rw [Arb.winner_eq_argmax (Arb.room_of_winner h)] at h
  exact List.argmax_mem h

theorem Arb.rank_le_of_winner {x : Nat × ArbReq} (h : b.winner c = some (p, r)) (hx : x ∈ b.contenders) : c.rank x.1 x.2 ≤ c.rank p r := by
  rw [Arb.winner_eq_argmax (Arb.room_of_winner h)] at h
  exact List.le_of_mem_argmax hx h

/-- Of the contenders that rank with it, the winner has the first turn. -/
theorem Arb.turn_le_of_winner {x : Nat × ArbReq} (h : b.winner c = some (p, r)) (hx : x ∈ b.contenders) (hlast : b.last < 10)
    (htie : c.rank x.1 x.2 = c.rank p r) : b.turn p ≤ b.turn x.1 := by
  rw [Arb.winner_eq_argmax (Arb.room_of_winner h)] at h
  exact le_of_mem_argmax_of_pairwise (g := fun x => b.turn x.1) (Arb.contenders_in_turn hlast) h hx htie.ge

/-- A cycle without a winner, in which the command queue has room, had no contender. -/
theorem Arb.contenders_of_no_winner (h : b.winner c = none) (hroom : b.queue < 32) : b.contenders = [] := by
  rwa [Arb.winner_eq_argmax hroom, List.argmax_eq_none] at h

/-! ## What a cycle does (R477, R478) -/

theorem Arb.cycle_of_winner (h : b.winner c = some (p, r)) :
    b.cycle c = ({ b.rest (some p) with last := p, park := if c.park = 0 then none else some (p, 0) }, b2n r.withdrawn, 0) := by
  simp only [Arb.cycle, h]

theorem Arb.cycle_of_parkHit (h : b.winner c = none) (hhit : b.parkHit c = some p) :
    b.cycle c = ({ b.rest (some p) with park := some (p, 0) }, 0, 1) := by
  simp only [Arb.cycle, h, hhit]

theorem Arb.cycle_of_nothing (h : b.winner c = none) (hhit : b.parkHit c = none) : b.cycle c = ({ b.rest none with park := b.parkOn c }, 0, 0) := by
  simp only [Arb.cycle, h, hhit]

/-- What a port has pending after a cycle in which the oldest of port `gone` entered, or none did. -/
theorem Arb.rest_ports (b : Arb) (gone : Option Nat) (x : Nat) (hwf : SMap.wf b.ports = true) :
    SMap.getD (b.rest gone).ports x [] =
      (if gone = some x then (SMap.getD b.ports x []).tail else agedReqs (SMap.getD b.ports x [])).filter fun y => !y.withdrawn := by
  refine getD_keep_mapv b.ports _ [] x hwf ?_
  split_ifs <;> rfl

/-! ## The park (R478) -/

theorem Arb.parkHit_of_fresh (hroom : b.queue < 32) (hcycles : c.park ≠ 0) (hpark : b.park = some (p, idle)) (hr : b.head p = some r)
    (hshown : r.shown = 0) (hstays : r.withdrawn = false) : b.parkHit c = some p := by
  simp [Arb.parkHit, hpark, hroom, hcycles, hr, hshown, hstays]

theorem Arb.parkHit_of_full (hfull : 32 ≤ b.queue) : b.parkHit c = none := by
  unfold Arb.parkHit
  split
  · rw [decide_eq_false hfull.not_gt]
    rfl
  · rfl

theorem Arb.parkHit_of_no_request (hpark : b.park = some (p, idle)) (hnone : b.head p = none) : b.parkHit c = none := by
  simp [Arb.parkHit, hpark, hnone]

theorem Arb.parkHit_of_withdrawn (hpark : b.park = some (p, idle)) (hr : b.head p = some r) (hgone : r.withdrawn = true) :
    b.parkHit c = none := by
  simp [Arb.parkHit, hpark, hr, hgone]

end

/-- Settles O60: the winner is the first contender of the highest rank (`Arb.winner_eq_argmax`), so none ranks above it and of those that rank
with it its turn comes first; what a cycle then does is one of three cases, a winner, an entry through the park, or neither. -/
theorem arbitersGrantAndPark : Obligations.ArbitersGrantAndPark := by
  refine ⟨?winner, ?pending, ?noWinner, ?parked, ?full, ?parkEnds, ?parkWithdrawn, ?aged, ?young⟩
  case winner =>
    intro b c p r h
    obtain ⟨hp, hr, hshown⟩ := Arb.mem_contenders.1 (Arb.contends_of_winner h)
    rw [Arb.cycle_of_winner h]
    refine ⟨hp, Arb.room_of_winner h, hr, hshown, fun x y hx hy hyshown => ?_, rfl, rfl, rfl, rfl⟩
    have hmem : (x, y) ∈ b.contenders := Arb.mem_contenders.2 ⟨hx, hy, hyshown⟩
    exact ⟨Arb.rank_le_of_winner h hmem, Arb.turn_le_of_winner h hmem⟩
  case pending =>
    intro b c p x r h hwf
    rw [Arb.cycle_of_winner h]
    simpa only [Option.some.injEq, eq_comm] using Arb.rest_ports b (some p) x hwf
  case noWinner =>
    intro b c x y h hroom hx hy
    by_contra hshown
    have hmem : (x, y) ∈ b.contenders := Arb.mem_contenders.2 ⟨hx, hy, hshown⟩
    rw [Arb.contenders_of_no_winner h hroom] at hmem
    cases hmem
  case parked =>
    intro b c p idle r h hroom hcycles hpark hr hshown hstays
    rw [Arb.cycle_of_parkHit h (Arb.parkHit_of_fresh hroom hcycles hpark hr hshown hstays)]
    exact ⟨rfl, rfl, rfl, rfl⟩
  case full =>
    intro b c hfull
    rw [Arb.cycle_of_nothing (Arb.winner_of_full hfull) (Arb.parkHit_of_full hfull)]
    exact ⟨rfl, rfl, rfl⟩
  case parkEnds =>
    intro b c p idle h hpark hnone
    rw [Arb.cycle_of_nothing h (Arb.parkHit_of_no_request hpark hnone)]
    simp only [Arb.parkOn, hpark, hnone]
  case parkWithdrawn =>
    intro b c p idle r h hpark hr hgone
    rw [Arb.cycle_of_nothing h (Arb.parkHit_of_withdrawn hpark hr hgone)]
    simp only [Arb.parkOn, hpark, hr, hgone, if_true]
  case aged => exact fun c p r hage => if_pos hage
  case young => exact fun c p r hage => if_neg hage.not_gt

/-! ## Transit programs -/

section
variable {s : State} {die entry op sram tile offset : Nat} {e : TEntry}

/-- A RUNNING program's step is taken while the tile pairs of its tiles are on and its die's clock is locked (R44, R475, R762). -/
theorem operatorChunkDone_runs (hon : s.pwr.off = false) (he : s.entry (entryKey die entry) = some e) (hstate : e.state = 4)
    (hending : e.ending = none) (hdomains : ((s.entryDomains die e).any fun d => !s.domOn d) = false)
    (hlock : s.pwr.relock.contains die = false) :
    exec (.operatorChunkDone die entry op sram tile offset) s =
      .next (if sram = 2 then s.sramFound die entry sram tile offset
        else (s.sramFound die entry sram tile offset).chunkDone (entryKey die entry) op).finish := by
  show execOperatorChunkDone die entry op sram tile offset s = _
  simp only [execOperatorChunkDone, run_on _ hon, he, hdomains, hlock, hstate, hending, Option.isSome_none, Bool.false_eq_true, ne_eq,
    not_true_eq_false, or_self, if_false]

end

/-- Settles O20: a command that loads or unloads a program replies, a step of a running program is taken by what its tile's SRAM answered
(`operatorChunkDone_runs`), and every other row takes the branch of its body that its clause's conditions choose. -/
theorem transitProgramsRun : Obligations.TransitProgramsRun := by
  refine ⟨?load, ?unload, ?tiles, ?chunk, ?poisoned, ?timeout, ?promotion, ?cancel⟩
  case load =>
    intro s p k c c0 t i l m h b hi hpartition hread himage hwaits hnumber
    refine adminRow_replies (b := b) h rfl ?_
    simp only [par_params, hi, hpartition, hread, himage, hwaits, hnumber, Option.isNone_some, Bool.false_eq_true, or_self, if_false,
      AdmRes.ok]
  case unload =>
    intro s p k c x h b hx hentries
    refine adminRow_replies (b := b) h rfl ?_
    simp only [par_params, hx, hentries, List.isEmpty_nil, Bool.not_true, Bool.false_eq_true, if_false, AdmRes.ok]
  case tiles =>
    intro s die hon
    show execTileAllocation die s = _
    rw [execTileAllocation, run_on _ hon]
  case chunk =>
    intro s die entry op tile offset e hon he hstate hending hdomains hlock
    rw [operatorChunkDone_runs hon he hstate hending hdomains hlock]
    simp only [State.sramFound, OfNat.zero_ne_ofNat, zero_ne_one, if_false]
  case poisoned =>
    intro s die entry op tile offset e hon he hstate hending hdomains hlock
    rw [operatorChunkDone_runs hon he hstate hending hdomains hlock]
    simp only [State.sramFound, OfNat.ofNat_ne_one, if_false, if_true]
  case timeout =>
    intro s die entry e hon he hstate hlimit
    show execTransitWaitTimeout die entry s = _
    simp only [execTransitWaitTimeout, run_on _ hon, he, hstate, hlimit, ne_eq, not_true_eq_false, or_self, if_false]
  case promotion =>
    intro s die entry e hon he hstate hprio
    show execTransitPriorityPromotion die entry s = _
    simp only [execTransitPriorityPromotion, run_on _ hon, he, hstate, hprio, and_self, if_true]
  case cancel =>
    intro s die value e h he
    show execTrnCancelWrite 0 die value s = _
    simp only [execTrnCancelWrite, run_on _ h.1, expert_open _ _ h, he]

end Sys2Proof.Machine

/-!
Synchronisation: wick queues and barriers made and removed by the admin queue, the participants of a barrier, and the mailbox registers.
-/

namespace Sys2Proof.Machine

/-! ## Wick queues, barriers and mailboxes -/

/-- What a write of a transmit control register comes to where a slot is behind it (R585, R593): the register keeps what it holds of the
value, and with SEND set the transmit register's word goes into the slot. -/
theorem mailboxSend_facing {s : State} {fn dir child : Nat} {i : Inst} (value : Nat) (h : s.serves) (hi : s.inst fn = some i)
    (hchild : s.mbxChild fn dir = some child) :
    exec (.mailboxSend fn dir value) s = .next
      (let t := s.setRegOf fn (if dir = 0 then Reg.VRT_MBX_UP_TX_CTRL else .VRT_MBX_DOWN_TX_CTRL) (BitVec.ofNat 64 (value &&& 0x00FFFF02))
       if bit value 0 then t.mbxSend child (dir == 1) (t.regOf fn (if dir = 0 then Reg.VRT_MBX_UP_TX else .VRT_MBX_DOWN_TX)).toNat
         (bits value 23 8) (bit value 1) else t).finish := by
  show execMailboxSend fn dir value s = _
  simp only [execMailboxSend, mmio_serves _ h, hi, hchild, Option.isNone_some, Bool.false_eq_true, if_false]

/-- Settles O31: each admin command takes the branch of its body that its clause's conditions choose, a barrier's participants are its
owner's to write, and a write of a mailbox's control register turns on SEND (`mailboxSend_facing`). -/
theorem wicksBarriersAndMailboxes : Obligations.WicksBarriersAndMailboxes := by
  refine ⟨?createWick, ?destroyWick, ?define, ?replace, ?participants, ?noSend, ?send, ?receive⟩
  case createWick =>
    intro s p k c i m h b hi hpartition hdepth hroom hm
    refine adminRow_replies (b := b) h rfl ?_
    simp only [par_params, hi, hpartition, hdepth, hroom, hm, Option.isNone_some, Bool.not_true, Bool.false_eq_true, or_self, if_false,
      AdmRes.ok]
  case destroyWick =>
    intro s p k c x h b hx
    refine adminRow_replies (b := b) h rfl ?_
    simp only [par_params, hx, AdmRes.ok]
  case define =>
    intro s p k c i g h b hi hg hnew
    refine adminRow_replies (b := b) h rfl ?_
    simp only [par_params, hi, hg, hnew, Option.isNone_some, Bool.false_eq_true, if_false, AdmRes.ok]
    rfl
  case replace =>
    intro s p k c i g x h b hi hg hx hvacant
    refine adminRow_replies (b := b) h rfl ?_
    simp only [par_params, hi, hg, hx, hvacant, Option.isNone_some, Bool.not_true, Bool.false_eq_true, if_false, AdmRes.ok]
    rfl
  case participants =>
    intro s fn g value x h hfn hx howner
    have hknown : ¬ ((!isPf fn) = true ∧ (s.inst fn).isNone = true) := by
      rcases hfn with hpf | hinst
      · simp [hpf]
      · simp [Option.ne_none_iff_isSome.2 hinst]
    show execSynBarParticipantsWrite fn g value s = _
    simp only [execSynBarParticipantsWrite, mmio_serves _ h, hknown, hx, howner, Option.map_some, if_true, if_false]
  case noSend =>
    intro s fn dir value child i h _ hi hchild hsend
    rw [mailboxSend_facing value h hi hchild, hsend, if_neg Bool.false_ne_true]
  case send =>
    intro s fn value child i h hi hchild hsend
    rw [mailboxSend_facing value h hi hchild, hsend]
    rfl
  case receive =>
    intro s fn dir child h hchild
    show execMailboxReceive fn dir s = _
    simp only [execMailboxReceive, mmio_serves _ h, hchild]

end Sys2Proof.Machine

/-!
The module as a whole, concluded: the step, a module that is off, the fuse SVN, and what a write to HBM leaves in memory.
-/

namespace Sys2Proof.Machine

/-! ## A step and its command -/

/-- Settles O1: with a command waiting, `step` is `exec` by its definition. -/
theorem stepRunsTheFrontCommand : Obligations.StepRunsTheFrontCommand := by
  intro s i rest hp
  rw [step, hp]

/-- Settles O8: `Keeps`, which every step meets (`step_keeps`), bounds the SVN from below. -/
theorem fuseSvnNeverFalls : Obligations.FuseSvnNeverFalls := by
  intro s t hs
  exact (keeps_of_next hs (step_keeps s)).svn

/-- Settles O4: every command but those that `countsWhenOff` names is a `run`, which does nothing in a module that is off (`run_off`). -/
theorem aModuleThatIsOffDoesNothing : Obligations.AModuleThatIsOffDoesNothing := by
  intro i s hoff hi
  cases i
  case perstAssert | perstRelease | elsPresenceClose | elsContactOpen | supplyFault | supplyGood | powerUp | modulePowerOn => cases hi
  all_goals
    dsimp only [exec, execSchCommit, execWqEnableSet]
    exact run_off _ hoff

/-! ## Counters and logs leave memory alone -/

/-- A statistics counter is a register; its event only joins the events that wait. -/
theorem addCounter_eq (s : State) (key addr sel n : Nat) : ∃ regs events, s.addCounter key addr sel n = { s with regs, events } := by
  unfold State.addCounter
  dsimp only
  split <;> exact ⟨_, _, rfl⟩

@[simp] theorem addCounter_hbm (s : State) (key addr sel n : Nat) : (s.addCounter key addr sel n).hbm = s.hbm := by
  obtain ⟨_, _, h⟩ := addCounter_eq s key addr sel n
  rw [h]

@[simp] theorem countN_hbm (s : State) (r : Reg) (n : Nat) : (s.countN r n).hbm = s.hbm := addCounter_hbm ..

@[simp] theorem count_hbm (s : State) (r : Reg) : (s.count r).hbm = s.hbm := addCounter_hbm ..

@[simp] theorem lifeLog_hbm (s : State) (kind : Nat) (data : Bytes) : (s.lifeLog kind data).hbm = s.hbm := by
  simp only [State.lifeLog, State.lifeWrite, State.bmc]
  repeat' split
  all_goals rfl

@[simp] theorem ecc_mem (s : State) (kind memory unit data0 : Nat) : (s.ecc kind memory unit data0).hbm.mem = s.hbm.mem := by
  simp only [State.ecc]
  repeat' split
  all_goals rfl

@[simp] theorem elog_mem (s : State) (kind unit detail info : Nat) : (s.elog kind unit detail info).hbm.mem = s.hbm.mem := by
  simp only [State.elog, lifeLog_hbm]

@[simp] theorem corrected_mem (s : State) (w : Nat) : (s.corrected w).hbm.mem = s.hbm.mem := by
  unfold State.corrected
  dsimp only
  split
  · simp [State.setFlag]
  · simp

@[simp] theorem foundUe_mem (s : State) (w : Nat) : (s.foundUe w).hbm.mem = s.hbm.mem := by
  simp [State.foundUe, State.lifeCount, State.setFlag, State.setEcc]

/-! ## Writes to HBM -/

/-- The condition of a word is kept apart from its bytes (R800). -/
theorem writeWord_mem (s : State) (w : Nat) (full : Bool) : (s.writeWord w full).hbm.mem = s.hbm.mem := by
  unfold State.writeWord
  split <;> simp [State.clearEcc]

theorem armedInject_mem (s : State) (w : Nat) : (s.armedInject w).hbm.mem = s.hbm.mem := by
  simp only [State.armedInject, State.setRegF, State.setEcc]
  repeat' split
  all_goals rfl

theorem physStore_mem (s : State) (a : Nat) (data : Bytes) : (s.physStore a data).hbm.mem = memPut s.hbm.mem a data := by
  unfold State.physStore
  refine congrArg (memPut · a data) ?_
  exact List.foldlRecOn _ _ (motive := fun (t : State) => t.hbm.mem = s.hbm.mem) rfl fun t ht w _ =>
    (armedInject_mem ..).trans ((writeWord_mem ..).trans ht)

theorem physWrite_mem {s : State} (hclient : ∀ e order first tiles, s.hbm.client ≠ .tile e order first tiles) (a : Nat) (data : Bytes) :
    (s.physWrite a data).hbm.mem = memPut s.hbm.mem a data := by
  have hstore : s.physWrite a data = (s.arbAsk a data.length (some data)).physStore a data := by
    unfold State.physWrite
    dsimp only
    split
    next e order first tiles htile => exact absurd htile (hclient e order first tiles)
    next => rfl
  rw [hstore, physStore_mem]
  rfl

theorem readsBack_of_memPut {s t : State} {a : Nat} {data : Bytes} (hwf : Memory.wf s.hbm.mem = true)
    (ht : t.hbm.mem = memPut s.hbm.mem a data) :
    memBytes t.hbm.mem a data.length = data ∧ ∀ x, x < a ∨ a + data.length ≤ x → t.byteAt x = s.byteAt x := by
  simp only [State.byteAt, ht]
  exact ⟨memBytes_memPut _ a data hwf, fun x => memPut_other _ data hwf⟩

/-- Settles O12: a store is one `memPut` (`physStore_mem`), and so is a write that no program's tile makes (`physWrite_mem`); what it
reads back and leaves alone are the laws of memory (`readsBack_of_memPut`). -/
theorem memoryReadsBackWhatWasWritten : Obligations.MemoryReadsBackWhatWasWritten :=
  ⟨fun s a data hwf => readsBack_of_memPut hwf (physStore_mem s a data),
    fun _ a data hwf hclient => readsBack_of_memPut hwf (physWrite_mem hclient a data)⟩

end Sys2Proof.Machine

/-!
Scheduling and links: gates, cadences and count epochs, the judgement of received frames, and how links and their groups come and go.
-/

namespace Sys2Proof.Machine

/-! ## Gates, cadences and frames on their way -/

/-- The switch of a pending list that is in time (R610). -/
theorem gateSwitch_inTime {s : State} {g : Nat} {l : GateList} (hl : (s.gates g).pending = some l) (hbase : l.base ≤ s.hallTime)
    (hlate : l.late = false) : s.gateSwitch g = ((s.setGates g ⟨some { l with late := false }, none⟩).count .SCH_GATE_SWITCH_COUNT).raise .pfs
      evGateSwitched g l.base l.entries.length := by
  simp only [State.gateSwitch, hl, hbase.not_gt, hlate, Bool.false_eq_true, if_false]
  rfl

/-- The next boundary of a cadence that nothing is to replace (R606). -/
theorem cadenceBoundary_next {s : State} {partition n : Nat} {c : Cadence} (hc : SMap.find s.sch.cadences partition = some c)
    (hnext : c.next = none) (hn : n = boundaryIndex s.hallTime c.start c.period) (hlast : n = c.last + 1) :
    s.cadenceBoundary partition = (c.waits.foldl (fun (s : State) w => s.opDone w.1 w.2 stSuccess 0 false 0 0)
      (((({ s with sch := { s.sch with cadences := SMap.put s.sch.cadences partition { c with last := n, waits := [] } } }).barsSend
        partition).barsDue partition).wickBoundaries (fun w => w.partition == partition) fun _ => n % 2 ^ 32)).count .SCH_BOUNDARY_COUNT := by
  have hreplace : c.replace s.hallTime = (c, 0) := by rw [Cadence.replace, hnext]
  have hnew : ¬ n ≤ c.last := by omega
  have hskipped : 0 + (n - c.last - 1) = 0 := by omega
  simp only [State.cadenceBoundary, hc, hreplace, ← hn, hnew, hskipped, if_true, if_false]

/-- Settles O42: each command takes the branch of its body that its clause's conditions choose; of these, a switch that is in time and the
next boundary of a cadence stand apart (`gateSwitch_inTime`, `cadenceBoundary_next`). -/
theorem schedulesAndFramesRun : Obligations.SchedulesAndFramesRun := by
  refine ⟨⟨?gateList, ?gateSwitch, ?quanta, ?replace, ?begin⟩, ⟨?boundary, ?epoch, ?firstEpoch, ?sample⟩, ?start, ?underrun⟩
  case gateList =>
    intro s p k c c0 t l h b hgroup hsome hmax hread hversion hinterval hcycle hbase
    refine adminRow_replies (b := b) h rfl ?_
    simp only [par_params, hgroup.not_gt, hsome, hmax.not_gt, hread, State.loadGates, hversion, hinterval, hcycle.not_gt, hbase.not_gt,
      Bool.false_eq_true, or_self, if_false, AdmRes.ok]
  case gateSwitch =>
    intro s g l hon hl hbase hlate
    show execGateSwitch g s = _
    rw [execGateSwitch, run_on _ hon, gateSwitch_inTime hl hbase hlate]
  case quanta =>
    intro s p k c qs h b hgroup hqs hrange
    subst hqs
    refine adminRow_replies (b := b) h rfl ?_
    have hknown : ¬ (7 < c.arg 0 ∧ c.arg 0 ≠ 0xFF) := by omega
    simp only [par_params, hknown, hrange, Bool.false_eq_true, if_false, AdmRes.ok]
    rfl
  case replace =>
    intro s p k c x h b hlo hhi hmember hstart hx
    refine adminRow_replies (b := b) h rfl ?_
    simp only [par_params, hlo.not_gt, hhi.not_gt, hmember, hstart.not_gt, hx, Bool.not_true, Bool.false_eq_true, or_self, if_false,
      AdmRes.ok]
  case begin =>
    intro s p k c slot h b hlo hhi hmember hstart hnone hslot
    refine adminRow_replies (b := b) h rfl ?_
    simp only [par_params, hlo.not_gt, hhi.not_gt, hmember, hstart.not_gt, hnone, hslot, Bool.not_true, Bool.false_eq_true, or_self,
      if_false, AdmRes.ok]
  case boundary =>
    intro s partition n c hon hc hnext hn hlast
    show execCadenceBoundary partition s = _
    rw [execCadenceBoundary, run_on _ hon, cadenceBoundary_next hc hnext hn hlast]
  case epoch =>
    intro s index hon hindex hdue
    show execCountEpochBoundary s = _
    rw [execCountEpochBoundary, run_on _ hon]
    simp only [State.countBoundary, hdue, Bool.false_and, Bool.false_eq_true, if_false, Bool.false_or, hindex]
  case firstEpoch =>
    intro s t index hon hindex hdue hfrom ht
    show execCountEpochBoundary s = _
    rw [execCountEpochBoundary, run_on _ hon]
    subst ht
    have hvalue : s.epochValue = s.feat.countEpoch := if_neg hfrom.not_gt
    simp only [State.countBoundary, hdue, hfrom, decide_true, Bool.and_self, if_true, Bool.true_or, Bool.and_true, hvalue, hindex]
  case sample =>
    intro s t hon ht
    subst ht
    show execQueueSamplePeriod s = _
    rw [execQueueSamplePeriod, run_on _ hon]
    rfl
  case start =>
    intro s t g j o hon hlink haddressed hpick
    show execFrameStart g j s = _
    rw [execFrameStart, run_on _ hon]
    simp only [State.frameStart, hlink, haddressed, hpick, ne_eq, not_true_eq_false, Bool.not_true, Bool.false_eq_true, or_self, if_false]
  case underrun =>
    intro s t g j o hon hlink haddressed hpick hlong
    show execTxUnderrun g j s = _
    rw [execTxUnderrun, run_on _ hon]
    simp only [State.underrun, hlink, haddressed, hpick, hlong.not_ge, ne_eq, not_true_eq_false, Bool.not_true, Bool.false_eq_true, or_self,
      if_false]

/-! ## Links and groups after an update -/

@[simp] theorem link_setLink_same (s : State) (g j : Nat) (l : Link) : (s.setLink g j l).link g j = l := getD_put_same ..

@[simp] theorem lgroup_setLink (s : State) (g j i : Nat) (l : Link) : (s.setLink g j l).lgroup i = s.lgroup i := rfl

@[simp] theorem lgroup_setGroupL_same (s : State) (g : Nat) (x : LinkGroup) : (s.setGroupL g x).lgroup g = x := getD_put_same ..

@[simp] theorem link_setGroupL (s : State) (g i j : Nat) (x : LinkGroup) : (s.setGroupL g x).link i j = s.link i j := rfl

@[simp] theorem lcount_lnk (s : State) (g j k n : Nat) : (s.lcount g j k n).lnk = s.lnk := by
  obtain ⟨_, _, h⟩ := addCounter_eq s (Reg.LNK_LCOUNT g j k).addr (Reg.LNK_LCOUNT g j k).addr 0 n
  rw [State.lcount, State.countN, h]

@[simp] theorem link_lcount (s : State) (g j k n i m : Nat) : (s.lcount g j k n).link i m = s.link i m := by
  simp only [State.link, lcount_lnk]

@[simp] theorem lgroup_lcount (s : State) (g j k n i : Nat) : (s.lcount g j k n).lgroup i = s.lgroup i := by
  simp only [State.lgroup, lcount_lnk]

/-! ## Bring-up and departure -/

/-- Without a wake in progress, a lock wakes nothing (R643). -/
theorem lpiWoken_of_lpi_ne {s : State} {g : Nat} (h : (s.lgroup g).lpi ≠ 3) : s.lpiWoken g = s := by
  simp only [State.lpiWoken, h, ne_eq, not_false_eq_true, true_or, if_true]

theorem lossReason_unopened {s : State} {g : Nat} (code : Nat) (h : (s.lgroup g).openedAt = none) : s.lossReason g code = code := by
  simp only [State.lossReason, h]

theorem lossReason_unplugged {s : State} {g t : Nat} (code : Nat) (h : (s.lgroup g).openedAt = some t) (ht : s.now ≤ t + 10000000) :
    s.lossReason g code = 6 := by
  simp only [State.lossReason, h, ht, if_true]

/-- A link in service of a connector that has not opened is lost with the cause's own reason (R633). -/
theorem linkLost_unopened {s : State} {g j : Nat} (code : Nat) (h : (s.link g j).state = .inService) (ho : (s.lgroup g).openedAt = none) :
    s.linkLost g j code = s.linkLeave g j code := by
  rw [State.linkLost, if_pos h, lossReason_unopened code ho]

/-- A HELLO is due on a direct link in these states (R630). -/
theorem hello_due_iff (st : LinkState) :
    (st = .exchange ∨ st = .held ∨ st = .inService ∨ st = .waking) ↔ st ∈ [LinkState.exchange, .held, .inService, .waking] := by simp

theorem helloDue_plain {s : State} {g j : Nat} (hdirect : s.switchedGroup g = false)
    (hstate : (s.link g j).state ∈ [LinkState.exchange, .held, .inService, .waking]) (hlpi : (s.lgroup g).lpi ≠ 1)
    (hholds : s.lpiHolds g = false) : s.helloDue g j = s.sendHello g j false false := by
  have hdue := (hello_due_iff _).2 hstate
  have hask : ((s.lgroup g).lpi == 1) = false := beq_false_of_ne hlpi
  simp [State.helloDue, hdirect, hdue, hholds, hask]

/-- The HELLO of a link in service of a group that asks for low-power idle says so (R642). -/
theorem helloDue_asks {s : State} {g j : Nat} (hdirect : s.switchedGroup g = false) (hlink : (s.link g j).state = .inService)
    (hlpi : (s.lgroup g).lpi = 1) : s.helloDue g j = (s.setGroupL g { s.lgroup g with asked := true }).sendHello g j true false := by
  simp [State.helloDue, hdirect, hlink, hlpi]

/-- Settles O46: a step of a link's bring-up takes the branch of its state and step, a HELLO is due as `helloDue_plain` and `helloDue_asks`
say, and a link in service is lost with the reason that its connector gives (`linkLost_unopened`, `lossReason_unplugged`). -/
theorem linksComeAndGo : Obligations.LinksComeAndGo := by
  refine ⟨⟨?light, ?lockDirect, ?lockSwitched, ?switchedIn, ?timeout, ?hello, ?helloAsks, ?helloBegins, ?retry⟩,
    ?helloLost, ?helloUnplugged, ?signalLost, ?alignLost, ?alignNoted, ?degrade, ?degradeCounted⟩
  case light =>
    intro s g j l hon hl hstate hstep
    show execOpticalPowerStable g j s = _
    simp only [execOpticalPowerStable, run_on _ hon, State.lightStable, hl, hstate, hstep, and_self, if_true]
  case lockDirect =>
    intro s g j l hon hl hstate hstep hdirect hlpi
    show execLinkLock g j s = _
    have hlock : s.linkLock g j = s.setLink g j { l with pcs := true, fec := true, step := 3, state := .exchange } := by
      simp only [State.linkLock, hl, hstate, hstep, hdirect, and_self, Bool.false_eq_true, if_true, if_false]
    rw [execLinkLock, run_on _ hon, hlock, lpiWoken_of_lpi_ne]
    exact hlpi
  case lockSwitched =>
    intro s g j l hon hl hstate hstep hswitched hlpi
    show execLinkLock g j s = _
    have hlock : s.linkLock g j = s.setLink g j { l with pcs := true, fec := true, step := 3 } := by
      simp only [State.linkLock, hl, hstate, hstep, hswitched, and_self, if_true]
    rw [execLinkLock, run_on _ hon, hlock, lpiWoken_of_lpi_ne]
    exact hlpi
  case switchedIn =>
    intro s g j l hon hl hstate hstep hswitched
    show execSwitchedLinkInService g j s = _
    simp only [execSwitchedLinkInService, run_on _ hon, State.switchedIn, hl, hstate, hstep, hswitched, and_self, if_true]
  case timeout =>
    intro s g j hon hstep
    show execTrainingStepTimeout g j s = _
    simp only [execTrainingStepTimeout, run_on _ hon, hstep, if_true, State.linkTimeout]
  case hello =>
    intro s g j hon hdirect hstate hlpi hholds
    show execHelloSend g j s = _
    rw [execHelloSend, run_on _ hon, helloDue_plain hdirect hstate hlpi hholds]
  case helloAsks =>
    intro s g j hon hdirect hlink hlpi
    show execHelloSend g j s = _
    rw [execHelloSend, run_on _ hon, helloDue_asks hdirect hlink hlpi]
  case helloBegins =>
    intro s t g j hon hdirect hlink hlpi hacked hholds ht
    show execHelloSend g j s = _
    rw [execHelloSend, run_on _ hon]
    simp [State.helloDue, hdirect, hlink, hlpi, hacked, hholds, ht]
  case retry =>
    intro s g j hon hheld
    show execHeldLinkRetry g j s = _
    simp only [execHeldLinkRetry, run_on _ hon, hheld, if_true]
  case helloLost =>
    intro s g j hon hlink hdirect hopened
    show execHelloLost g j s = _
    simp only [execHelloLost, run_on _ hon, hdirect, Bool.false_eq_true, if_false, linkLost_unopened 4 hlink hopened]
  case helloUnplugged =>
    intro s g j t hon hlink hdirect hopened hrecent
    show execHelloLost g j s = _
    simp only [execHelloLost, run_on _ hon, hdirect, Bool.false_eq_true, if_false, State.linkLost, hlink, if_true,
      lossReason_unplugged 4 hopened hrecent]
  case signalLost =>
    intro s t g j signal hon ht hlink hopened
    subst ht
    show execSignalLost g j signal s = _
    rw [execSignalLost, run_on _ hon, State.updLink, linkLost_unopened]
    · rwa [link_setLink_same]
    · exact hopened
  case alignLost =>
    intro s t g j hon ht hlink hopened
    subst ht
    show execAlignLost g j s = _
    rw [execAlignLost, run_on _ hon, State.updLink, linkLost_unopened]
    · rwa [link_setLink_same]
    · exact hopened
  case alignNoted =>
    intro s t g j hon ht hlink
    subst ht
    show execAlignLost g j s = _
    rw [execAlignLost, run_on _ hon, State.updLink, State.linkLost, if_neg (by rwa [link_setLink_same])]
  case degrade =>
    intro s t g j n hon ht hlink hopened hmany
    have hservice : (t.link g j).state = .inService := by rwa [ht, link_lcount]
    have hunopened : (t.lgroup g).openedAt = none := by rwa [ht, lgroup_lcount]
    show execFecDegrade g j n s = _
    rw [execFecDegrade, run_on _ hon]
    simp only [← ht, hservice, hmany, and_self, if_true]
    rw [linkLost_unopened]
    · exact hservice
    · exact hunopened
  case degradeCounted =>
    intro s t g j n hon ht hfew
    show execFecDegrade g j n s = _
    rw [execFecDegrade, run_on _ hon]
    simp only [← ht, hfew.not_gt, and_false, if_false]

/-! ## Groups -/

/-- Settles O57: the group's low-power state, or its connector's contact, chooses the branch of each command. -/
theorem groupsSleepAndArePlugged : Obligations.GroupsSleepAndArePlugged := by
  refine ⟨?asks, ?wakes, ?overruns, ?opens, ?closes, ?plugged, ?unplugged⟩
  case asks =>
    intro s t g hon ht hlpi hholds
    show execLpiIdleExpiry g s = _
    have hlpi' : (t.lgroup g).lpi = 0 := by rwa [ht, lgroup_setGroupL_same]
    simp only [execLpiIdleExpiry, run_on _ hon, State.lpiAsk, ← ht, hlpi', hholds, decide_true, Bool.and_self, if_true]
  case wakes =>
    intro s g hon hlpi
    show execLpiWake g s = _
    simp only [execLpiWake, run_on _ hon, State.lpiWake, hlpi, ne_eq, not_true_eq_false, if_false]
  case overruns =>
    intro s g hon hlpi
    show execWakeTimeout g s = _
    simp only [execWakeTimeout, run_on _ hon, State.wakeFailed, hlpi, ne_eq, not_true_eq_false, if_false]
  case opens =>
    intro s g hon
    show execConnectorOpen g s = _
    rw [execConnectorOpen, run_on _ hon, State.contactOpen]
  case closes =>
    intro s g hon
    show execConnectorClose g s = _
    rw [execConnectorClose, run_on _ hon]
    rfl
  case plugged =>
    intro s g hon hcontact hplugged
    show execConnectorDebounce g s = _
    simp [execConnectorDebounce, run_on _ hon, State.contactHeld, hcontact, hplugged, domGroup]
  case unplugged =>
    intro s g hon hcontact hplugged
    show execConnectorDebounce g s = _
    simp [execConnectorDebounce, run_on _ hon, State.contactHeld, hcontact, hplugged]

/-! ## The features of the module

What a new epoch of a peer sets in motion reaches far into the state, but none of it changes the features, by which a group is switched. -/

theorem foldl_feat {α : Type} {f : State → α → State} (hf : ∀ t a, (f t a).feat = t.feat) (l : List α) (s : State) :
    (l.foldl f s).feat = s.feat :=
  List.foldlRecOn l f (motive := fun t => t.feat = s.feat) rfl fun t ht a _ => (hf t a).trans ht

theorem ite_feat {c : Prop} [Decidable c] {s a b : State} (ha : a.feat = s.feat) (hb : b.feat = s.feat) :
    (if c then a else b).feat = s.feat := by
  split
  · exact ha
  · exact hb

/-! ### Registers, counters and logs -/

@[simp] theorem setFlag_feat (s : State) (r : Reg) (i : Nat) : (s.setFlag r i).feat = s.feat := rfl

@[simp] theorem setRegF_feat (s : State) (r : Reg) (hi lo v : Nat) : (s.setRegF r hi lo v).feat = s.feat := rfl

@[simp] theorem addCounter_feat (s : State) (key addr sel n : Nat) : (s.addCounter key addr sel n).feat = s.feat := by
  obtain ⟨_, _, h⟩ := addCounter_eq s key addr sel n
  rw [h]

@[simp] theorem countN_feat (s : State) (r : Reg) (n : Nat) : (s.countN r n).feat = s.feat := addCounter_feat ..

@[simp] theorem count_feat (s : State) (r : Reg) : (s.count r).feat = s.feat := addCounter_feat ..

@[simp] theorem countSel_feat (s : State) (sel : Nat) (r : Reg) (n : Nat) : (s.countSel sel r n).feat = s.feat := addCounter_feat ..

@[simp] theorem countPort_feat (s : State) (port : Nat) (r : Reg) (n : Nat) : (s.countPort port r n).feat = s.feat := addCounter_feat ..

@[simp] theorem gutter_feat (s : State) (cause : Nat) : (s.gutter cause).feat = s.feat := (addCounter_feat ..).trans (addCounter_feat ..)

@[simp] theorem lifeWrite_feat (s : State) (r : Bytes) : (s.lifeWrite r).feat = s.feat := by
  unfold State.lifeWrite
  exact ite_feat (by simp) rfl

@[simp] theorem lifeLog_feat (s : State) (kind : Nat) (data : Bytes) : (s.lifeLog kind data).feat = s.feat := by
  unfold State.lifeLog
  exact ite_feat (by simp) rfl

@[simp] theorem elog_feat (s : State) (kind unit detail info : Nat) : (s.elog kind unit detail info).feat = s.feat := lifeLog_feat ..

@[simp] theorem ecc_feat (s : State) (kind memory unit data0 : Nat) : (s.ecc kind memory unit data0).feat = s.feat := by
  unfold State.ecc
  exact ite_feat (by simp) rfl

/-! ### The router -/

@[simp] theorem shouldMark_feat (s : State) (q : Nat) : (s.shouldMark q).2.feat = s.feat := by
  unfold State.shouldMark
  dsimp only
  split
  · rfl
  · split <;> rfl

@[simp] theorem markPkt_feat (s : State) (p : Pkt) (port q : Nat) : (s.markPkt p port q).2.feat = s.feat := by
  unfold State.markPkt
  split
  · rfl
  · dsimp only
    split <;> simp

@[simp] theorem sampled_feat (s : State) (key : Nat) : (s.sampled key).feat = s.feat := rfl

@[simp] theorem noRoute_feat (s : State) : s.noRoute.feat = s.feat := addCounter_feat ..

@[simp] theorem enqueueEject_feat (s : State) (p : Pkt) (input vcIn : Nat) : (s.enqueueEject p input vcIn).feat = s.feat := by
  simp [State.enqueueEject]

@[simp] theorem enqueueOut_feat (s : State) (p : Pkt) (g input vcIn : Nat) : (s.enqueueOut p g input vcIn).feat = s.feat := by
  unfold State.enqueueOut
  exact ite_feat (by simp) (ite_feat (by simp) (by simp))

@[simp] theorem place_feat (s : State) (p : Pkt) (inGroup : Option Nat) (input vcIn : Nat) : (s.place p inGroup input vcIn).feat = s.feat := by
  unfold State.place
  split <;> simp

@[simp] theorem injectRaw_feat (s : State) (p : Pkt) : (s.injectRaw p).feat = s.feat := by
  unfold State.injectRaw
  exact (place_feat ..).trans (ite_feat (by simp) (by simp))

@[simp] theorem notify_feat (s : State) (p : Pkt) (port q : Nat) : (s.notify p port q).feat = s.feat := by
  unfold State.notify
  exact ite_feat rfl (by simp)

@[simp] theorem inject_feat (s : State) (p : Pkt) : (s.inject p).feat = s.feat := by
  unfold State.inject
  dsimp only
  split
  · simp
  · exact ite_feat (by simp) (by simp)
  · simp

theorem bucket_feat {s t : State} {dst tc bytes : Nat} (h : s.bucket dst tc bytes = some t) : t.feat = s.feat := by
  unfold State.bucket at h
  split at h
  · split at h
    · cases h
      rfl
    · dsimp only at h
      split at h <;> cases h
      rfl
  · dsimp only at h
    split at h <;> cases h
    simp

@[simp] theorem probe_feat (s : State) (m : Nat) : (s.probe m).feat = s.feat := by
  unfold State.probe
  exact ite_feat rfl (by simp)

/-! ### Ciphers -/

@[simp] theorem wakeDom_feat (s : State) (d : Nat) : (s.wakeDom d).feat = s.feat := by
  unfold State.wakeDom
  exact ite_feat rfl (by simp)

@[simp] theorem drbgUse_feat (s : State) (g : Nat) : (s.drbgUse g).feat = s.feat := rfl

@[simp] theorem bindEngine_feat (s : State) (n : Nat) : (s.bindEngine n).feat = s.feat := by
  unfold State.bindEngine
  split
  · rfl
  · split
    · rfl
    · split <;> simp

@[simp] theorem retireEngine_feat (s : State) (e : Nat) : (s.retireEngine e).feat = s.feat := rfl

@[simp] theorem keyUse_feat (s : State) (n : Nat) : (s.keyUse n).2.feat = s.feat := by
  unfold State.keyUse
  split
  · rfl
  · split
    · rfl
    · dsimp only
      split <;> simp

@[simp] theorem throughEngine_feat (s : State) (n : Nat) : (s.throughEngine n).2.feat = s.feat := by
  have hkey := keyUse_feat s n
  unfold State.throughEngine
  split
  next t hused => simpa only [hused] using hkey
  next t hused =>
    rw [hused] at hkey
    dsimp only
    repeat' split
    all_goals simpa using hkey

theorem sealNumber_feat (n fuel : Nat) (s : State) : (State.sealNumber n fuel s).2.feat = s.feat := by
  induction fuel generalizing s with
  | zero => rfl
  | succ fuel ih =>
    unfold State.sealNumber
    split
    · rfl
    · split
      · rfl
      · split
        all_goals
          next t hused =>
            have ht : t.feat = s.feat := by
              have hengine := throughEngine_feat (s.updCtx n fun q => { q with sendSegment := q.sendSegment + 1 }) n
              simpa [hused] using hengine
            simp [ih, ht]

theorem foldl_snd_feat {α β : Type} {f : β × State → α → β × State} (hf : ∀ acc a, (f acc a).2.feat = acc.2.feat) (l : List α)
    (acc : β × State) :
    (l.foldl f acc).2.feat = acc.2.feat :=
  List.foldlRecOn l f (motive := fun x => x.2.feat = acc.2.feat) rfl fun x hx a _ => (hf x a).trans hx

@[simp] theorem sendSealed_feat (s : State) (key salt : Bytes) (num : Nat) (before ps : List Pkt) :
    (s.sendSealed key salt num before ps).feat = s.feat :=
  foldl_snd_feat (fun _ _ => by simp) ..

@[simp] theorem awaitCipher_feat (s : State) (k : Nat) (fresh : Bool) : (s.awaitCipher k fresh).feat = s.feat := rfl

@[simp] theorem setSegment_feat (s : State) (w id k num : Nat) (ps : List Pkt) : (s.setSegment w id k num ps).feat = s.feat := by
  simp [State.setSegment]

@[simp] theorem sendSegment_feat (s : State) (txn n : Nat) (key salt : Bytes) (top w id k : Nat) (ps : List Pkt) (fresh : Bool) :
    (s.sendSegment txn n key salt top w id k ps fresh).feat = s.feat := by
  unfold State.sendSegment
  dsimp only
  split
  · simp
  · have hseal := sealNumber_feat n 17 s
    split
    all_goals
      next hnum =>
        rw [hnum] at hseal
        simpa using hseal

/-! ### Transactions and queue pairs -/

@[simp] theorem setPsn_feat (s : State) (qpn : Option Nat) (m tc v : Nat) : (s.setPsn qpn m tc v).feat = s.feat := by
  cases qpn <;> simp [State.setPsn]

@[simp] theorem sendTxn_feat (s : State) (k : Nat) (fresh : Bool) : (s.sendTxn k fresh).feat = s.feat := by
  unfold State.sendTxn
  split
  · rfl
  · dsimp only
    split
    · exact (foldl_feat (fun _ _ => inject_feat ..) ..).trans (by simp)
    · split
      · simp
      · split
        · exact (foldl_feat (fun _ _ => sendSegment_feat ..) ..).trans (by simp)
        · split
          all_goals
            next hnum =>
              have hseal := congrArg (fun x => x.2.feat) hnum
              simp only [sealNumber_feat] at hseal
              simpa using hseal.symm

@[simp] theorem countIssued_feat (s : State) (n : Option Nat) (units : Nat) : (s.countIssued n units).feat = s.feat := by
  unfold State.countIssued
  split
  · rfl
  · split
    · rfl
    · exact ite_feat (by simp) (by simp)

@[simp] theorem txnsChanged_feat (s : State) (qpn : Option Nat) : (s.txnsChanged qpn).feat = s.feat := by
  cases qpn <;> simp [State.txnsChanged]

@[simp] theorem startTxn_feat (s : State) (k : Nat) (owner : TxnOwner) (qpn : Option Nat) (connected : Bool) (page : Option Nat) (p : Pkt)
    (data : Bytes) (opOff opLen : Nat) : (s.startTxn k owner qpn connected page p data opOff opLen).feat = s.feat := by
  simp [State.startTxn]

@[simp] theorem allocWaits_feat (s : State) (o : TxnOwner) : (s.allocWaits o).feat = s.feat := by
  unfold State.allocWaits
  exact ite_feat rfl rfl

@[simp] theorem endTxn_feat (s : State) (k status reason : Nat) (remote : Bool) (data : Bytes) :
    (s.endTxn k status reason remote data).feat = s.feat := by
  unfold State.endTxn
  split <;> simp

@[simp] theorem qpError_feat (s : State) (n status others : Nat) : (s.qpError n status others).feat = s.feat := by
  unfold State.qpError
  split
  · rfl
  · exact ite_feat rfl ((foldl_feat (fun _ _ => endTxn_feat ..) ..).trans (by simp))

/-! ### Control requests and trees -/

theorem copyBucket_feat {s t : State} {owner : TxnOwner} {bytes : Nat} (h : s.copyBucket owner bytes = some t) : t.feat = s.feat := by
  unfold State.copyBucket at h
  split at h
  · cases h
    rfl
  · dsimp only at h
    split at h <;> cases h
    rfl

@[simp] theorem tryControl_feat (s : State) (owner : TxnOwner) (p : Pkt) : (s.tryControl owner p).2.feat = s.feat := by
  unfold State.tryControl
  split
  · simp
  · split
    · rfl
    · split
      · simp
      · split
        · rfl
        next t hpaid =>
          obtain ⟨u, hu, ht⟩ := Option.bind_eq_some_iff.1 hpaid
          simp [copyBucket_feat ht, bucket_feat hu]

@[simp] theorem ask_feat (s : State) (owner : TxnOwner) (p : Pkt) : (s.ask owner p).feat = s.feat := by
  have htry := tryControl_feat s owner p
  unfold State.ask
  split
  · rfl
  · split
    all_goals
      next hsent =>
        rw [hsent] at htry
        exact htry

@[simp] theorem control_feat (s : State) (owner : TxnOwner) (typ dst tc partition : Nat) (payload : Bytes) :
    (s.control owner typ dst tc partition payload).feat = s.feat := ask_feat ..

@[simp] theorem setTree_feat (s : State) (t : TreeOp) : (s.setTree t).feat = s.feat := rfl

@[simp] theorem sendDown_feat (s : State) (cls partition : Nat) (payload : Bytes) (ms : List Nat) :
    (s.sendDown cls partition payload ms).feat = s.feat :=
  foldl_feat (fun _ _ => control_feat ..) ..

@[simp] theorem treeDown_feat (s : State) (t : TreeOp) (cls : Nat) (more : Bytes) : (s.treeDown t cls more).feat = s.feat := by
  unfold State.treeDown
  extract_lets box p s₁ s₂ s₃
  calc (s₃.treeTell _).feat
    _ = s₃.feat := by simp
    _ = s₂.feat := foldl_feat (fun _ _ => sendDown_feat ..) ..
    _ = s.feat := by simp [s₂, s₁]

@[simp] theorem treeStart_feat (s : State) (kind tree seq partition : Nat) (extra : List Nat) (more : Bytes) :
    (s.treeStart kind tree seq partition extra more).feat = s.feat := treeDown_feat ..

/-! ### Pages -/

@[simp] theorem plcSend_feat (s : State) (owner : TxnOwner) (typ dst key seq partition : Nat) (more : Bytes) :
    (s.plcSend owner typ dst key seq partition more).feat = s.feat := by
  unfold State.plcSend
  exact ite_feat rfl (control_feat ..)

@[simp] theorem sendHint_feat (s : State) (page : Nat) (p : Page) (dst : Nat) : (s.sendHint page p dst).feat = s.feat := plcSend_feat ..

@[simp] theorem hintOnce_feat (s : State) (page src : Nat) : (s.hintOnce page src).feat = s.feat := by
  unfold State.hintOnce
  split
  · rfl
  · exact ite_feat rfl (by simp)

@[simp] theorem placement_feat (s : State) (reason mod data0 data1 : Nat) : (s.placement reason mod data0 data1).feat = s.feat := by
  unfold State.placement
  exact ite_feat (by simp) rfl

@[simp] theorem pageEvent_feat (s : State) (reason i mod : Nat) : (s.pageEvent reason i mod).feat = s.feat := by
  unfold State.pageEvent
  split
  · exact placement_feat ..
  · rfl

@[simp] theorem updPage_feat (s : State) (i : Nat) (f : Page → Page) : (s.updPage i f).feat = s.feat := by
  unfold State.updPage
  split <;> simp

@[simp] theorem seqAdvanced_feat (s : State) (i : Nat) : (s.seqAdvanced i).feat = s.feat := updPage_feat ..

@[simp] theorem changedNow_feat (s : State) (i : Nat) : (s.changedNow i).feat = s.feat := updPage_feat ..

@[simp] theorem holdersChanged_feat (s : State) (i : Nat) : (s.holdersChanged i).feat = s.feat := by
  simp [State.holdersChanged]

@[simp] theorem releaseIncoming_feat (s : State) (key : Nat) : (s.releaseIncoming key).feat = s.feat := by
  unfold State.releaseIncoming
  split
  · rfl
  · exact ite_feat rfl (by simp)

@[simp] theorem sendEnd_feat (s : State) (i dst : Nat) (cancel : Bool) : (s.sendEnd i dst cancel).feat = s.feat := by
  unfold State.sendEnd
  split
  · exact plcSend_feat ..
  · rfl

@[simp] theorem cancelMove_feat (s : State) (i : Nat) (toOld toTarget : Bool) : (s.cancelMove i toOld toTarget).feat = s.feat := by
  unfold State.cancelMove
  split
  · rfl
  · refine (updPage_feat ..).trans ?_
    repeat' split
    all_goals simp

@[simp] theorem shoot_feat (s : State) (c : Change) (i flags removed about : Nat) : (s.shoot c i flags removed about).feat = s.feat := by
  unfold State.shoot
  split <;> simp

@[simp] theorem unreplicate_feat (s : State) (i : Nat) : (s.unreplicate i).feat = s.feat := updPage_feat ..

@[simp] theorem unreplicate_ite_feat (s : State) (i : Nat) (c : Prop) [Decidable c] : (if c then s.unreplicate i else s).feat = s.feat :=
  ite_feat (unreplicate_feat ..) rfl

@[simp] theorem makeChange_feat (s : State) (c : Change) : (s.makeChange c).feat = s.feat := by
  cases c with
  | commit i =>
    dsimp only [State.makeChange]
    split
    · rfl
    · exact ite_feat rfl (by simp)
  | collapse i =>
    dsimp only [State.makeChange]
    split
    · rfl
    · exact ite_feat rfl (by simp)
  | drop i r =>
    dsimp only [State.makeChange]
    split
    · rfl
    · exact ite_feat rfl (by simp)
  | lost i m =>
    dsimp only [State.makeChange]
    split
    · rfl
    · exact ite_feat (by simp) (ite_feat (by simp) rfl)
  | target i m => simp [State.makeChange]

@[simp] theorem change_feat (s : State) (c : Change) (i : Nat) : (s.change c i).feat = s.feat := by
  unfold State.change
  exact ite_feat (ite_feat rfl rfl) (makeChange_feat ..)

@[simp] theorem holderLost_feat (s : State) (m : Nat) : (s.holderLost m).feat = s.feat := by
  refine foldl_feat (fun t e => ?_) ..
  dsimp only
  repeat' split
  all_goals simp

@[simp] theorem peerChanged_feat (s : State) (m e : Nat) : (s.peerChanged m e).feat = s.feat := by
  unfold State.peerChanged
  extract_lets qpe₁ s₁ ups qpe₂ s₂ s₃ s₄ mine pair dropped qpe₃ s₅ s₆ s₇ plc s₈
  calc (s₈.holderLost m).feat
    _ = s₇.feat := holderLost_feat s₈ m
    _ = s₆.feat := foldl_feat (fun _ _ => ite_feat (by simp) rfl) ..
    _ = s₅.feat := foldl_feat (fun _ _ => gutter_feat ..) ..
    _ = s₃.feat := foldl_feat (fun _ _ => endTxn_feat ..) ..
    _ = s₂.feat := foldl_feat (fun _ _ => qpError_feat ..) ..

/-- A new epoch of a peer switches no group. -/
@[simp] theorem takeEpoch_feat (s : State) (m e : Nat) : (s.takeEpoch m e).feat = s.feat := by
  unfold State.takeEpoch
  exact ite_feat rfl (ite_feat (by simp) rfl)

/-! ## Frames received

Noting a frame leaves alone what its judgement asks of the link and of the features. -/

@[simp] theorem lcount_feat (s : State) (g j k n : Nat) : (s.lcount g j k n).feat = s.feat := countN_feat ..

@[simp] theorem lcount_etherType (s : State) (g j k n : Nat) : (s.lcount g j k n).etherType = s.etherType := by
  have haddr : Reg.QPE_XPT_ENCAP.addr ≠ (Reg.LNK_LCOUNT g j k).addr := by
    simp only [Reg.QPE_XPT_ENCAP, Reg.LNK_LCOUNT]
    omega
  have hreg : (s.lcount g j k n).reg .QPE_XPT_ENCAP = s.reg .QPE_XPT_ENCAP := by
    simp only [State.lcount, State.countN, State.addCounter, State.reg]
    split <;> simp [getD_put_other, haddr]
  rw [State.etherType, State.regF, hreg]
  rfl

@[simp] theorem fecCorrected_lnk (s : State) (g j n : Nat) : (s.fecCorrected g j n).lnk = s.lnk := by simp [State.fecCorrected]

@[simp] theorem fecCorrected_feat (s : State) (g j n : Nat) : (s.fecCorrected g j n).feat = s.feat := by simp [State.fecCorrected]

@[simp] theorem fecCorrected_etherType (s : State) (g j n : Nat) : (s.fecCorrected g j n).etherType = s.etherType := by
  simp only [State.fecCorrected, lcount_etherType]
  rfl

theorem frameSeen_eq (s : State) (g j : Nat) (data : Bytes) : s.frameSeen g j data = s.fecCorrected g j data.length ∨
    ∃ x, s.frameSeen g j data = (s.fecCorrected g j data.length).setGroupL g x := by
  unfold State.frameSeen
  dsimp only
  split
  · exact .inl rfl
  · exact .inr ⟨_, rfl⟩

@[simp] theorem frameSeen_link (s : State) (g j : Nat) (data : Bytes) (h k : Nat) : (s.frameSeen g j data).link h k = s.link h k := by
  have hcorrected : (s.fecCorrected g j data.length).link h k = s.link h k := by simp only [State.link, fecCorrected_lnk]
  rcases frameSeen_eq s g j data with hseen | ⟨x, hseen⟩ <;> simp [hseen, hcorrected]

@[simp] theorem frameSeen_feat (s : State) (g j : Nat) (data : Bytes) : (s.frameSeen g j data).feat = s.feat := by
  rcases frameSeen_eq s g j data with hseen | ⟨x, hseen⟩ <;> simp [hseen]

@[simp] theorem frameSeen_etherType (s : State) (g j : Nat) (data : Bytes) : (s.frameSeen g j data).etherType = s.etherType := by
  rcases frameSeen_eq s g j data with hseen | ⟨x, hseen⟩
  · simp [hseen]
  · rw [hseen, ← fecCorrected_etherType s g j data.length]
    rfl

theorem isControl_congr {s t : State} (h : t.etherType = s.etherType) (b : Bytes) : t.isControl b = s.isControl b := by
  simp only [State.isControl, h]

theorem switchedGroup_congr {s t : State} (h : t.feat = s.feat) (g : Nat) : t.switchedGroup g = s.switchedGroup g := by
  simp only [State.switchedGroup, h]

/-- What the MAC does with a good frame, by its EtherType (R635). -/
def State.handedIn (s : State) (g j : Nat) (data : Bytes) (note : Option (Nat × Nat × Nat)) : State :=
  let body := data.take (data.length - 4)
  let typ := beNat (slice data 12 2)
  let passed := (s.lcount g j 0 1).lcount g j 1 data.length
  if typ = 0x8808 then passed.macControlIn g j (body.drop 14)
  else if typ = 0x88F7 then passed.ptpIn g j (body.drop 14)
  else if s.isControl body then
    if s.isControl body && beNat (slice body 15 1) == 1 then passed.helloIn g j (parseHello (body.drop 14)) else s.lcount g j 7 1
  else if (s.link g j).state ≠ .inService then s.lcount g j 7 1
  else
    match s.framePkt g body note with
    | some (some p) => passed.packetIn g j data.length p
    | some none => passed.gutter gEncap
    | none => s.lcount g j 7 1

/-- What the MAC does with a frame that it has noted, in the order of R635. -/
def State.judged (s : State) (g j : Nat) (data : Bytes) (ok : Bool) (note : Option (Nat × Nat × Nat)) : State :=
  let body := data.take (data.length - 4)
  let check := data.drop (data.length - 4)
  if data.length < 64 then s.lcount g j 4 1
  else if 4224 < data.length then (s.lcount g j 5 1).cutThrough g j (data.take 4220) note
  else if ok && check == frameCheck body true then (s.lcount g j 3 1).cutThrough g j body note
  else if !ok || check != frameCheck body false then (s.lcount g j 2 1).cutThrough g j body note
  else s.handedIn g j data note

/-- On a link that is neither OFF nor DOWN, a frame is noted and then judged. -/
theorem frameIn_up {s : State} {g j : Nat} (data : Bytes) (ok : Bool) (note : Option (Nat × Nat × Nat)) (hoff : (s.link g j).state ≠ .off)
    (hdown : (s.link g j).state ≠ .down) : s.frameIn g j data ok note = (s.frameSeen g j data).judged g j data ok note := by
  have hup : ¬ ((s.link g j).state = .off ∨ (s.link g j).state = .down) := by tauto
  unfold State.frameIn
  extract_lets n body check typ passed off hello s₁ group s₂ other
  have hs₁ : s₁ = s.fecCorrected g j data.length := if_neg hup
  have hseen : s₂ = s.frameSeen g j data := by
    simp only [s₂, group, off, hello, hup, hs₁, false_or, State.frameSeen, Bool.and_eq_true, beq_iff_eq, typ, body, n]
  have hhello : hello = ((s.frameSeen g j data).isControl body && beNat (slice body 15 1) == 1) := by
    rw [isControl_congr (frameSeen_etherType s g j data)]
  rw [if_neg hup, hseen, hhello]
  rfl

/-- A frame whose check is neither the good nor the stomped one, or that spans a lost codeword, is dropped (R635). -/
theorem judged_bad {s : State} {g j : Nat} {data : Bytes} {ok : Bool} (note : Option (Nat × Nat × Nat)) (hmin : 64 ≤ data.length)
    (hmax : data.length ≤ 4224) (hbad : ok = false ∨ (data.drop (data.length - 4) ≠ frameCheck (data.take (data.length - 4)) true ∧
      data.drop (data.length - 4) ≠ frameCheck (data.take (data.length - 4)) false)) :
    s.judged g j data ok note = (s.lcount g j 2 1).cutThrough g j (data.take (data.length - 4)) note := by
  have hunstomped : ¬ (ok && data.drop (data.length - 4) == frameCheck (data.take (data.length - 4)) true) = true := by
    simp only [Bool.and_eq_true, beq_iff_eq]
    rintro ⟨rfl, hcheck⟩
    rcases hbad with hok | ⟨hne, -⟩
    · cases hok
    · exact hne hcheck
  have hfails : (!ok || data.drop (data.length - 4) != frameCheck (data.take (data.length - 4)) false) = true := by
    simp only [Bool.or_eq_true, Bool.not_eq_true', bne_iff_ne]
    exact hbad.imp_right And.right
  rw [State.judged, if_neg hmin.not_gt, if_neg hmax.not_gt, if_neg hunstomped, if_pos hfails]

theorem judged_good {s : State} {g j : Nat} {data : Bytes} (note : Option (Nat × Nat × Nat)) (hmin : 64 ≤ data.length)
    (hmax : data.length ≤ 4224) (hunstomped : data.drop (data.length - 4) ≠ frameCheck (data.take (data.length - 4)) true)
    (hcheck : data.drop (data.length - 4) = frameCheck (data.take (data.length - 4)) false) :
    s.judged g j data true note = s.handedIn g j data note := by
  have hne : ¬ (true && data.drop (data.length - 4) == frameCheck (data.take (data.length - 4)) true) = true := by
    rwa [Bool.true_and, beq_iff_eq]
  have hpass : ¬ (!true || data.drop (data.length - 4) != frameCheck (data.take (data.length - 4)) false) = true := by
    rw [Bool.not_true, Bool.false_or, bne_iff_ne, not_not]
    exact hcheck
  rw [State.judged, if_neg hmin.not_gt, if_neg hmax.not_gt, if_neg hne, if_neg hpass]

/-- A good frame with a HELLO (R631). -/
theorem handedIn_hello {s : State} (g j : Nat) {data : Bytes} (note : Option (Nat × Nat × Nat)) (hmac : beNat (slice data 12 2) ≠ 0x8808)
    (hptp : beNat (slice data 12 2) ≠ 0x88F7) (hcontrol : s.isControl (data.take (data.length - 4)) = true)
    (hhello : beNat (slice (data.take (data.length - 4)) 15 1) = 1) : s.handedIn g j data note =
      ((s.lcount g j 0 1).lcount g j 1 data.length).helloIn g j (parseHello ((data.take (data.length - 4)).drop 14)) := by
  simp only [State.handedIn, hmac, hptp, hcontrol, hhello, beq_self_eq_true, Bool.and_self, if_true, if_false]

theorem slice_take {bs : Bytes} {n off len : Nat} (h : off + len ≤ n) (hn : n ≤ bs.length) : slice (bs.take n) off len = slice bs off len := by
  have hroom : off + len ≤ (bs.take n).length := by rw [List.length_take]; omega
  rw [← slice_append_front (bs.drop n) hroom, List.take_append_drop]

/-- A HELLO's epoch is taken, which switches no group; on a switched link it tells no more. -/
theorem helloIn_switched {s : State} {g : Nat} (j : Nat) (h : Hello) (hg : s.switchedGroup g = true) :
    s.helloIn g j h = s.takeEpoch h.mod h.epoch :=
  if_pos ((switchedGroup_congr (takeEpoch_feat ..) g).trans hg)

theorem helloIn_direct {s : State} {g : Nat} (j : Nat) (h : Hello) (hg : s.switchedGroup g = false) :
    s.helloIn g j h = (s.takeEpoch h.mod h.epoch).helloLink g j h :=
  if_neg (Bool.eq_false_iff.1 ((switchedGroup_congr (takeEpoch_feat ..) g).trans hg))

theorem framePkt_direct {s : State} {g : Nat} {body : Bytes} (note : Option (Nat × Nat × Nat)) (hg : s.switchedGroup g = false)
    (htyp : beNat (slice body 12 2) = s.etherType) : s.framePkt g body note = some (some (parsePkt (body.drop 14) note)) := by
  simp [State.framePkt, hg, htyp]

/-- Only a link in service has begun to send a copy of a frame on (R636; log 75). -/
theorem cutThrough_of_ne_inService {s : State} {g j : Nat} (body : Bytes) (note : Option (Nat × Nat × Nat))
    (h : (s.link g j).state ≠ .inService) : s.cutThrough g j body note = s := if_pos (.inl h)

/-- Settles O35: a frame on a link that is up is noted and then judged (`frameIn_up`), by the branch that its length, its check and its
EtherType choose. -/
theorem framesAreJudged : Obligations.FramesAreJudged := by
  refine ⟨?frames, ?cut, ?expiry, ?refresh, ?released⟩
  case frames =>
    intro s v g j data body ok note hon hoff hdown hbody hv
    have hrow : exec (.frameReceive g j data ok note) s = .next (v.judged g j data ok note).finish := by
      show execFrameReceive g j data ok note s = _
      rw [execFrameReceive, run_on _ hon, frameIn_up data ok note hoff hdown, hv]
    have hcontrol : v.isControl body = s.isControl body := isControl_congr (hv ▸ frameSeen_etherType s g j data) body
    subst hbody
    refine ⟨?runt, ?giant, ?stomped, ?bad, ?good⟩
    case runt =>
      intro hshort
      rw [hrow, State.judged, if_pos hshort]
    case giant =>
      intro hlong
      rw [hrow, State.judged, if_neg (by omega), if_pos hlong]
    case stomped =>
      intro hmin hmax hok hcheck
      subst hok
      simp only [hrow, State.judged, hmin.not_gt, hmax.not_gt, hcheck, beq_self_eq_true, Bool.and_self, if_true, if_false]
    case bad =>
      intro hmin hmax hbad
      rw [hrow, judged_bad note hmin hmax hbad]
    case good =>
      intro hmin hmax hok hunstomped hcheck typ u htyp hu
      subst htyp hok
      have hfeat : v.feat = s.feat := hv ▸ frameSeen_feat s g j data
      have hgroup : u.switchedGroup g = s.switchedGroup g := switchedGroup_congr (by rw [hu, lcount_feat, lcount_feat, hfeat]) g
      have hlinks : v.link g j = s.link g j := hv ▸ frameSeen_link s g j data g j
      rw [hrow, judged_good note hmin hmax hunstomped hcheck]
      refine ⟨?macControl, ?ptp, ?helloDirect, ?helloRow, ?helloSwitched, ?control, ?idle, ?packet⟩
      case macControl =>
        intro hmac
        rw [State.handedIn, if_pos hmac, hu]
      case ptp =>
        intro hptp
        simp only [State.handedIn, hptp, Nat.reduceEqDiff, if_true, if_false, hu]
      case helloDirect =>
        intro hmac hptp hctl hhello hdirect
        rw [handedIn_hello g j note hmac hptp (hcontrol.trans hctl) hhello, ← hu, helloIn_direct j _ (hgroup.trans hdirect)]
      case helloRow =>
        intro hmac hptp hctl hhello hdirect hctlData
        show execHello g j data s = _
        rw [execHello, run_on _ hon, if_pos hctlData, frameIn_up data true none hoff hdown, ← hv,
          judged_good none hmin hmax hunstomped hcheck, handedIn_hello g j none hmac hptp (hcontrol.trans hctl) hhello, ← hu,
          helloIn_direct j _ (hgroup.trans hdirect)]
      case helloSwitched =>
        intro hmac hptp hctl hhello hswitched
        rw [handedIn_hello g j note hmac hptp (hcontrol.trans hctl) hhello, ← hu, helloIn_switched j _ (hgroup.trans hswitched)]
      case control =>
        intro hmac hptp hctl hother
        simp only [State.handedIn, hmac, hptp, hcontrol, hctl, beq_eq_false_iff_ne.2 hother, Bool.and_false, Bool.false_eq_true, if_true,
          if_false]
      case idle =>
        intro hmac hptp hctl hlink
        simp only [State.handedIn, hmac, hptp, hcontrol, hctl, hlinks, hlink, ne_eq, not_false_eq_true, Bool.false_eq_true, if_true, if_false]
      case packet =>
        intro hmac hptp hctl hlink hdirect htyp
        have hpacket : v.framePkt g (data.take (data.length - 4)) note =
            some (some (parsePkt ((data.take (data.length - 4)).drop 14) note)) := by
          refine framePkt_direct note ((switchedGroup_congr hfeat g).trans hdirect) ?_
          rw [slice_take (by omega) (by omega), htyp, hv, frameSeen_etherType]
        simp only [State.handedIn, hmac, hptp, hcontrol, hctl, hlinks, hlink, hpacket, ne_eq, not_true_eq_false, Bool.false_eq_true, if_false,
          hu]
  case cut => exact fun s g j body note h => cutThrough_of_ne_inService body note h
  case expiry =>
    intro s g j prio hon
    show execPauseExpiry g j prio s = _
    rw [execPauseExpiry, run_on _ hon]
  case refresh =>
    intro s g j prio hon hheld
    show execPauseRefresh g j prio s = _
    simp only [execPauseRefresh, run_on _ hon, State.pauseRefresh, hheld, if_true]
  case released =>
    intro s g j prio hon hheld
    show execPauseRefresh g j prio s = _
    simp only [execPauseRefresh, run_on _ hon, State.pauseRefresh, hheld, Bool.false_eq_true, if_false]

end Sys2Proof.Machine

/-!
Keys and firmware, and what the BMC is answered.
-/

namespace Sys2Proof.Machine

/-! ## Keys, engines and entropy -/

theorem xor_masked (x y m : Byte) : x ^^^ m ^^^ (y ^^^ m) = x ^^^ y := by
  rw [BitVec.xor_comm y m, BitVec.xor_assoc, ← BitVec.xor_assoc m, BitVec.xor_self, BitVec.zero_xor]

/-- The two shares of a key under one mask differ as they did without it (R665). -/
theorem zipWith_xor_masked (a b mask : Bytes) (ha : a.length ≤ mask.length) (hb : b.length ≤ mask.length) :
    List.zipWith (fun x y => x ^^^ y) (List.zipWith (fun x y => x ^^^ y) a mask) (List.zipWith (fun x y => x ^^^ y) b mask) =
      List.zipWith (fun x y => x ^^^ y) a b := by
  refine List.ext_getElem (by simp only [List.length_zipWith]; omega) fun i _ _ => ?_
  simp only [List.getElem_zipWith]
  exact xor_masked ..

/-- Settles O21: the rows take the branch that their conditions choose; that a fresh mask leaves a key what it was is
`zipWith_xor_masked`. -/
theorem keysEnginesAndEntropy : Obligations.KeysEnginesAndEntropy := by
  refine ⟨?load, ?remask, ?destroy, ?selfTest, ?startup, ?seeded, ?restart, ?failed, ?waits, ?reseed, ?due⟩
  case load =>
    intro s p k c i x h b hi hslot hfree hquota hmasks hx
    subst hx
    have hroom : ¬ ((!isPf (c.arg 0)) = true ∧ i.qpQuota ≤ countIn b.sec.keys (fun x => x.inst == c.arg 0)) := by
      rcases hquota with hpf | hlt
      · simp [hpf]
      · exact fun hfull => hlt.not_ge hfull.2
    refine adminRow_replies (b := b) h rfl ?_
    simp only [par_params, hi, hslot.not_ge, hfree, hroom, hmasks, Bool.false_eq_true, if_false, AdmRes.ok]
  case remask =>
    intro key mask h0 h1 hmask
    exact zipWith_xor_masked _ _ _ (h0.trans hmask.symm).le (h1.trans hmask.symm).le
  case destroy =>
    intro s p k c h b hslot hunbound
    refine adminRow_replies (b := b) h rfl ?_
    simp only [par_params, hslot, hunbound, ne_eq, not_true_eq_false, Bool.not_true, Bool.false_eq_true, if_false, AdmRes.ok]
  case selfTest =>
    intro s value passed back h hback
    subst hback
    show execSecEngineSelfTest 0 value passed s = _
    rw [execSecEngineSelfTest, run_on _ h.1, expert_open _ _ h]
  case startup =>
    intro s hon hentropy
    show execEntropyStartupPass s = _
    simp only [execEntropyStartupPass, run_on _ hon, hentropy, ne_eq, not_true_eq_false, if_false]
  case seeded =>
    intro s generator
    rfl
  case restart =>
    intro s hon hentropy
    show execEntropyHealthFail s = _
    simp only [execEntropyHealthFail, run_on _ hon, hentropy]
  case failed =>
    intro s hon hentropy hfails
    show execEntropyHealthFail s = _
    simp only [execEntropyHealthFail, run_on _ hon, hentropy, hfails, if_true]
  case waits =>
    intro s generator hon hknown hdue hentropy
    show execDrbgReseed generator s = _
    simp only [execDrbgReseed, run_on _ hon, hknown.not_gt, hdue, hentropy, Bool.not_true, Bool.false_eq_true, or_self, if_false]
  case reseed =>
    intro s generator hon hknown hdue hentropy
    show execDrbgReseed generator s = _
    simp only [execDrbgReseed, run_on _ hon, hknown.not_gt, hdue, hentropy, Bool.not_true, Bool.false_eq_true, or_self, if_false, if_true,
      State.seedDrbg]
  case due =>
    rintro s generator ⟨r, hr, hdue⟩
    have hgot : SMap.getD s.sec.drbgs generator (0, 0) = r := by rw [SMap.getD, hr]; rfl
    simp only [State.reseedDue, hgot, Bool.or_eq_true, decide_eq_true_eq]
    tauto

/-! ## Firmware -/

/-- Settles O56: the rows of the ring answer or wait as the image and the staged bank have it, and the end of the write to flash answers
the row that waits for it. -/
theorem firmwareIsStagedAndActivated : Obligations.FirmwareIsStagedAndActivated := by
  refine ⟨?stage, ?written, ?next, ?now, ?nothing⟩
  case stage =>
    intro s p k c c' t i h b hstage hread
    by_cases hlength : 4194304 < c.arg 0 ∨ c.arg 0 ≠ 512 + leAt i 8 4
    · rw [if_pos hlength]
      refine adminRow_replies (b := b) h rfl ?_
      simp only [par_params, begun_stage, hstage, hread, Nat.zero_ne_one, if_false]
      exact if_pos hlength
    · rw [if_neg hlength]
      cases hgood : t.imageGood i with
      | true =>
        refine adminRow_waits (b := b) h rfl ?_
        simp only [par_params, begun_stage, hstage, hread, hgood, Nat.zero_ne_one, Bool.not_true, Bool.false_eq_true, if_false]
        exact if_neg hlength
      | false =>
        refine adminRow_replies (b := b) h rfl ?_
        simp only [par_params, begun_stage, hstage, hread, hgood, Nat.zero_ne_one, Bool.not_false, if_true, if_false]
        exact if_neg hlength
  case written =>
    intro s t p k b i hon hruns hjob ht
    subst ht
    refine ⟨?_, ?_⟩
    · show execFlashWriteDone true s = _
      simp only [execFlashWriteDone, run_on _ hon, hruns, hjob, if_true]
      rfl
    · show execFlashWriteDone false s = _
      simp only [execFlashWriteDone, run_on _ hon, hruns, hjob, if_true, Bool.false_eq_true, if_false]
      rfl
  case next =>
    intro s p k c n h b hwhen hstaged
    refine adminRow_replies (b := b) h rfl ?_
    simp only [par_params, hwhen, hstaged, ne_eq, not_true_eq_false, if_false, AdmRes.ok]
  case now =>
    intro s p k c n h b hstaged
    refine adminRow_replies (b := b) h rfl ?_
    simp only [hstaged, AdmRes.ok]
  case nothing =>
    intro s p k c h b hstaged
    refine adminRow_replies (b := b) h rfl ?_
    simp only [hstaged, AdmRes.fail]

/-- In recovery, a command at a step at which it is taken takes effect (R831). -/
theorem recover_taken {s : State} {cmd : Nat} {steps : List Nat} (f : State → State) (h : s.recovery = true) (hstep : s.svc.update ∈ steps) :
    s.recover cmd steps f = f s := by
  simp [State.recover, h, hstep]

/-- Settles O34: at its step each command of the update is taken (`recover_taken`); every other command is unsupported in recovery. -/
theorem recoveryUpdatesTheFirmware : Obligations.RecoveryUpdatesTheFirmware := by
  intro s hon hrec
  refine ⟨?request, ?table, ?component, ?data, ?transfer, ?verify, ?apply, ?activate, ?tid⟩
  case request =>
    intro hstep
    have hmem : s.svc.update ∈ [0, 1, 2, 3, 4, 5, 6] := by simp; omega
    show execRequestUpdate s = _
    rw [execRequestUpdate, run_on _ hon, recover_taken _ hrec hmem, State.pldmAnswer]
  case table =>
    intro hstep
    show execPassComponentTable s = _
    rw [execPassComponentTable, run_on _ hon, recover_taken _ hrec (by simp [hstep])]
    rfl
  case component =>
    intro hstep
    show execUpdateComponent s = _
    rw [execUpdateComponent, run_on _ hon, recover_taken _ hrec (by simp [hstep])]
    rfl
  case data =>
    intro hstep d
    show execRequestFirmwareData d s = _
    simp [execRequestFirmwareData, run_on _ hon, hrec, hstep]
  case transfer =>
    intro hstep
    show execTransferComplete s = _
    simp [execTransferComplete, run_on _ hon, hrec, hstep, State.updateStep, State.pldmAnswer]
  case verify =>
    intro hstep
    show execVerifyComplete s = _
    simp [execVerifyComplete, run_on _ hon, hrec, hstep, State.pldmAnswer]
  case apply =>
    intro hstep
    show execApplyComplete s = _
    simp [execApplyComplete, run_on _ hon, hrec, hstep, State.updateStep, State.pldmAnswer]
  case activate =>
    intro hstep dies dead engines burn t ht
    subst ht
    show execActivateFirmware dies dead engines burn s = _
    rw [execActivateFirmware, run_on _ hon, recover_taken _ hrec (by simp [hstep])]
    rfl
  case tid =>
    show execGetTid s = _
    simp [execGetTid, run_on _ hon, State.pldmRun, hrec, State.unsupported, State.pldmAnswer]

/-! ## The BMC -/

theorem pldmRun_taken {s : State} (typ cmd : Nat) (f : State → State) (hrec : s.recovery = false) (hcp : s.cpRuns = true) :
    s.pldmRun typ cmd f = f s := by
  simp only [State.pldmRun, hrec, hcp, Bool.false_eq_true, if_false, if_true]

theorem pldmPower_taken {s : State} (f : State → State) (hrec : s.recovery = false) : s.pldmPower f = f s := by
  simp only [State.pldmPower, hrec, Bool.false_eq_true, if_false]

theorem pldmCommands_ne_nil {typ : Nat} (h : typ ∈ [0, 2, 5]) : pldmCommands typ ≠ [] := by
  fin_cases h <;> decide

/-- Settles O23: a command that the firmware takes runs as such (`pldmRun_taken`), one on the module's power whenever the module is not in
recovery (`pldmPower_taken`). -/
theorem theBmcIsAnswered : Obligations.TheBmcIsAnswered := by
  refine ⟨?answers, ?off, ?reset, ?on, ?wakes⟩
  case answers =>
    intro s hon hrec hcp
    have hrow (typ cmd : Nat) (f : State → State) : run s (fun s => s.pldmRun typ cmd f) = .next (f s).finish := by
      rw [run_on _ hon, pldmRun_taken typ cmd f hrec hcp]
    refine ⟨?tid, ?version, ?types, ?commands, ?repository, ?record, ?temperature, ?volts, ?amps, ?watts, ?power, ?locate, ?light, ?cap,
      ?capRead, ?unknown⟩
    case tid => exact hrow ..
    case version =>
      intro typ htyp
      refine (hrow ..).trans ?_
      simp only [pldmCommands_ne_nil htyp, if_false, State.pldmAnswer]
    case types => exact hrow ..
    case commands =>
      intro typ htyp
      refine (hrow ..).trans ?_
      simp only [pldmCommands_ne_nil htyp, if_false, State.pldmAnswer]
    case repository => exact hrow ..
    case record => exact fun n => hrow ..
    case temperature =>
      intro i hi
      refine (hrow ..).trans ?_
      have hknown : ¬ 71 ≤ 3 + i := by omega
      have hplace : ¬ 3 + i = 0 ∧ ¬ 3 + i = 1 ∧ ¬ 3 + i = 2 := by omega
      simp only [hknown, hplace, if_false, Nat.add_sub_cancel_left, State.pldmAnswer]
    case volts => exact hrow ..
    case amps => exact hrow ..
    case watts => exact hrow ..
    case power => exact hrow ..
    case locate =>
      refine (hrow ..).trans ?_
      cases s.svc.locate <;> rfl
    case light => exact fun lit => hrow ..
    case cap =>
      intro w hlo hhi
      refine (hrow ..).trans ?_
      simp only [hlo.not_gt, hhi.not_gt, or_self, if_false, State.pldmAnswer]
    case capRead => exact hrow ..
    case unknown =>
      intro typ cmd hcmd
      show execUnsupportedPldmCommand typ cmd s = _
      simp only [execUnsupportedPldmCommand, List.contains_eq_mem, hcmd, decide_false, Bool.false_eq_true, if_false]
      exact hrow ..
  case off =>
    intro s hon hrec
    show execModulePowerOff s = _
    rw [execModulePowerOff, run_on _ hon, pldmPower_taken _ hrec, State.pldmAnswer]
  case reset =>
    intro s burn hon hrec
    show execModulePowerReset burn s = _
    rw [execModulePowerReset, run_on _ hon, pldmPower_taken _ hrec, State.pldmAnswer]
  case on =>
    intro s hon hrec
    show execModulePowerOn s = _
    simp only [execModulePowerOn, runAlways, pldmPower_taken _ hrec, State.pldmAnswer, State.emit_fields, hon, Bool.false_and,
      Bool.false_eq_true, if_false]
  case wakes =>
    intro s hoff hrec hcause
    have hwakes : (s.pwr.cause == 3 || s.pwr.cause == 4) = true := by simpa using hcause
    show execModulePowerOn s = _
    simp only [execModulePowerOn, runAlways, pldmPower_taken _ hrec, State.pldmAnswer, State.emit_fields, hoff, hwakes, Bool.and_self,
      if_true]
    exact if_pos rfl

end Sys2Proof.Machine

/-!
Instances, functions, power and job domains.
-/

namespace Sys2Proof.Machine

/-! ## The estimator -/

theorem bubblesFor_no_excess (ctrl lim : Nat) : bubblesFor 0 ctrl lim = 0 := by
  rcases Nat.eq_zero_or_pos ctrl with h | h
  · exact if_pos h
  · rw [bubblesFor, if_neg h.ne', Nat.mul_zero, Nat.zero_add, Nat.div_eq_of_lt (Nat.sub_one_lt h.ne'), Nat.min_zero]

/-- What a tick of the estimator measures and decides (R751, R754): the estimate, its mean, the excess and the bubbles. -/
def State.estimates (s : State) : Nat × Nat × Nat × Nat := (s.pwr.pEst, s.pwr.pWin, s.pwr.excess, s.pwr.bubbles)

theorem estimates_eq_iff {t : State} {est win excess bubbles : Nat} : t.estimates = (est, win, excess, bubbles) ↔
    t.pwr.pEst = est ∧ t.pwr.pWin = win ∧ t.pwr.excess = excess ∧ t.pwr.bubbles = bubbles := by
  simp only [State.estimates, Prod.mk.injEq]

theorem estimates_ite_left {c : Prop} [Decidable c] {a b : State} (h : a.estimates = b.estimates) :
    (if c then a else b).estimates = b.estimates := by
  split
  · exact h
  · rfl

theorem estimates_ite_right {c : Prop} [Decidable c] {a b : State} (h : b.estimates = a.estimates) :
    (if c then a else b).estimates = a.estimates := by
  split
  · rfl
  · exact h

@[simp] theorem setFlag_estimates (s : State) (r : Reg) (i : Nat) : (s.setFlag r i).estimates = s.estimates := rfl

@[simp] theorem count_estimates (s : State) (r : Reg) : (s.count r).estimates = s.estimates := by
  obtain ⟨_, _, h⟩ := addCounter_eq s r.addr r.addr 0 1
  rw [State.count, State.countN, h]
  rfl

@[simp] theorem powerEvent_estimates (s : State) (reason about gap : Nat) : (s.powerEvent reason about gap).estimates = s.estimates := by
  simp only [State.powerEvent, State.bmc]
  repeat' split
  all_goals rfl

@[simp] theorem wakeDom_estimates (s : State) (d : Nat) : (s.wakeDom d).estimates = s.estimates := by
  simp only [State.wakeDom]
  split <;> rfl

/-- Settles O22: of all that a tick does after its measurement, nothing touches the four measured values (the `_estimates` lemmas); the
gain moves by the branch that the mean of its estimates chooses. -/
theorem theEstimatorCapsPower : Obligations.TheEstimatorCapsPower := by
  refine ⟨⟨?rest, ?caps⟩, ?gainKept, ?gainMoves⟩
  case rest =>
    intro s u counts window raw pairs est hon hraw hest htrigger htallow htallowW hwindow hms hmean hlimit
    have hexcess : max (meanOf window - u.comF .PWR_LIMIT_CFG 10 0) (est - 1250) = 0 := by omega
    have hmax : ¬ u.comF .PWR_LIMIT_CFG 19 16 * 1000 ≤ 0 := by omega
    show execEstimatorTick counts s = _
    rw [execEstimatorTick, run_on _ hon]
    simp only [hraw, ← hest, htrigger, Nat.zero_ne_one, false_and, if_false, ← hwindow, hexcess, htallow, htallowW, Nat.zero_sub,
      bubblesFor_no_excess, tallowStep, Nat.lt_irrefl, and_false, bne_self_eq_false, Bool.and_false, Bool.false_or, hmax, decide_false, if_true,
      ne_eq, not_true_eq_false, Bool.false_and, Bool.false_eq_true, hlimit.not_gt, true_or]
  case caps =>
    intro s u counts window raw pairs est ctrl e hon hraw hest hctrl htrigger hwindow he
    show ∃ t, execEstimatorTick counts s = _ ∧ _
    rw [execEstimatorTick, run_on _ hon, hraw]
    refine ⟨_, rfl, estimates_eq_iff.1 ?_⟩
    extract_lets r s₁ est₁ ctrl₁ cap us lim before s₂ p window₁ win e₁ n tallow maxFor unmet s₃ s₄ s₅ s₆ s₇ s₈ s₉
    have huntriggered : s₂ = u := if_neg fun h => Nat.zero_ne_one (htrigger.symm.trans h.1)
    have hest₁ : est₁ = est := hest.symm
    have hctrl₁ : ctrl₁ = ctrl := hctrl.symm
    have hp : p = u.pwr := congrArg State.pwr huntriggered
    have hwindow₁ : window₁ = window := by rw [hwindow, ← hest₁, ← hp]
    have he₁ : e₁ = e := by rw [he, ← hwindow₁, ← hest₁]
    refine Eq.trans (b := s₉.estimates) ?_ ?_
    · split
      · rfl
      · split
        · exact wakeDom_estimates ..
        · rfl
    calc s₉.estimates
      _ = s₈.estimates := estimates_ite_left (powerEvent_estimates ..)
      _ = s₇.estimates := estimates_ite_left (powerEvent_estimates ..)
      _ = s₆.estimates := estimates_ite_left (powerEvent_estimates ..)
      _ = s₅.estimates := estimates_ite_right (count_estimates ..)
      _ = s₄.estimates := estimates_ite_right (count_estimates ..)
      _ = (est₁, meanOf window₁, e₁, bubblesFor (e₁ - p.tallowW) ctrl₁ lim) := rfl
      _ = _ := by rw [hest₁, hwindow₁, he₁, hp, hctrl₁]
  case gainKept =>
    intro s u volts amps watts hon hu hlow
    show execCalGainUpdate volts amps watts s = _
    rw [execCalGainUpdate, run_on _ hon]
    have hmean : (if s.pwr.rawN = 0 then 0 else s.pwr.rawSum / s.pwr.rawN) < 50000000 := by
      split <;> omega
    simp only [hmean, if_true, ← hu]
  case gainMoves =>
    intro s u volts amps watts mean ratio hon hu hn hmean hmin hratio hlo hhi
    show execCalGainUpdate volts amps watts s = _
    rw [execCalGainUpdate, run_on _ hon]
    simp only [hn, if_false, ← hmean, hmin.not_gt, ← hratio, hlo.not_gt, hhi.not_gt, or_self, ← hu]
    rfl

/-! ## Job domains and memory -/

/-- Settles O24: the rows on a job domain begin at stage 0 and wait, and a scrub read does what the word that it reads calls for. -/
theorem jobDomainsAndMemoryAreTended : Obligations.JobDomainsAndMemoryAreTended := by
  refine ⟨⟨?create, ?fault, ?snapshot⟩, ?scrub, ?hour⟩
  case create =>
    intro s p k partition n c c' t d ms h b hstage hpartition hn hsome hmembers hmax hfree hread hms hdistinct htorus hself hroom
    subst hpartition hn hms
    have hfields : ¬ (c.arg 0 = 0 ∨ c.arg 1 = 0 ∨ 131072 < c.arg 1) := by omega
    refine adminRow_waits (b := b) h rfl ?_
    simp only [par_params, begun_stage, hstage, hfields, hfree, hread, hdistinct, htorus, hself, hroom.not_ge, Nat.zero_ne_one, ne_eq,
      not_true_eq_false, Bool.not_true, Bool.false_eq_true, or_self, if_false]
  case fault =>
    intro s p k c d h b hstage hreason hd hwaiting
    have hcode : ¬ (1 ≤ c.arg 1 ∧ c.arg 1 ≤ 0x7F) := by omega
    refine adminRow_waits (b := b) h rfl ?_
    simp only [par_params, begun_stage, hstage, hcode, hd, hwaiting, Nat.zero_ne_one, if_false]
  case snapshot =>
    intro s p k seq c t d h b hstage hd hready hsnap hstopped hfault hseq ht
    subst hseq ht
    refine adminRow_waits (b := b) h rfl ?_
    simp only [par_params, begun_stage, hstage, hd, hready, hsnap, hstopped, hfault, Nat.zero_ne_one, Option.isSome_none, Bool.or_self,
      Bool.not_true, Bool.false_eq_true, if_false]
  case scrub =>
    intro s t w hon hw hserves henabled ht
    have hlast : b2n (w % 2 ^ 31 != 2 ^ 31 - 1) = if w % 2 ^ 31 = 2 ^ 31 - 1 then 0 else 1 := by
      split
      next h => rw [h]; rfl
      next h => rw [bne_iff_ne.2 h]; rfl
    refine ⟨fun hclean => ?_, fun hcorrectable => ?_, fun huncorrectable => ?_⟩
    all_goals
      show execScrubRead w s = _
      simp only [execScrubRead, run_on _ hon, hserves, henabled, hw.not_ge, hlast, ← ht, Bool.not_true, Bool.false_eq_true, ne_eq,
        not_true_eq_false, or_self, if_false]
    · rw [hclean]
    · rw [hcorrectable]
    · rw [huncorrectable]
  case hour =>
    intro s st hon hst
    show execCeHourRollover st s = _
    simp only [execCeHourRollover, run_on _ hon, hst.not_ge, if_false]

/-! ## Instances -/

/-- Settles O32: the rows answer, or wait where they have more than one step, and the manager's registers act in an expert session. -/
theorem instancesAreManaged : Obligations.InstancesAreManaged := by
  refine ⟨⟨?create, ?destroy, ?reset, ?goesOn, ?share⟩, ?hold, ?restore⟩
  case create =>
    intro s p k c n gen a r h b hn hvf hmin hframes henabled hnew ha hpools hgen hfree hr
    subst hn ha hr
    refine adminRow_replies (b := b) h rfl ?_
    simp only [par_params, hvf, hmin.not_gt, hframes, henabled.not_gt, hnew, hpools, ← hgen, hfree, ne_eq, not_true_eq_false,
      Option.isSome_none, Bool.not_true, Bool.false_eq_true, or_self, if_false, AdmRes.ok]
  case destroy =>
    intro s p k c i h b hstage hi hvf
    refine adminRow_waits (b := b) h rfl ?_
    simp only [par_params, begun_stage, hstage, hi, hvf, Nat.zero_ne_one, Option.isNone_some, Bool.false_eq_true, if_false]
  case reset =>
    intro s p k c i h b hstage hi hvf
    refine adminRow_waits (b := b) h rfl ?_
    simp only [par_params, begun_stage, hstage, hi, hvf, Nat.zero_ne_one, Option.isNone_some, Bool.false_eq_true, if_false]
  case goesOn =>
    intro s n i hon hi hquarantined hfree
    show execGenerationQuarantineEnd n s = _
    simp only [execGenerationQuarantineEnd, run_on _ hon, State.resumeReset, hi, hquarantined, hfree, Bool.not_false, Bool.and_self, if_true]
  case share =>
    intro s p k c i h b hshare hi
    refine adminRow_replies (b := b) h rfl ?_
    simp only [par_params, hshare, hi, Option.isNone_some, Bool.false_eq_true, if_false, AdmRes.ok]
  case hold =>
    intro s value n i h hn hi
    subst hn
    show execVrtHoldWrite 0 value s = _
    rw [execVrtHoldWrite, run_on _ h.1, expert_open _ _ h]
    simp only [hi]
  case restore =>
    intro s value n first second gen w h hkind hn hfirst hsecond hgen hw hheld hfresh hrange hfree
    show execRestoreApply 0 value s = _
    rw [execRestoreApply, run_on _ h.1, expert_open _ _ h]
    simp only [hkind, ← hn, ← hfirst, ← hsecond, ← hgen, State.restore, hw, hfree, State.restoreResult, hheld, hfresh, hrange, decide_true,
      Bool.not_true, Bool.not_false, Bool.false_eq_true, if_false, if_true, Nat.zero_mul, Nat.zero_add]

/-! ## Functions -/

@[simp] theorem fn_setFn_same (s : State) (n : Nat) (f : Fn) : (s.setFn n f).fn n = f := getD_put_same ..

theorem holdFn_free {s : State} {fn : Nat} (h : (s.fn fn).held = false) :
    s.holdFn fn = State.retireTags (s.setFn fn { s.fn fn with held := true }) fn := by
  simp only [State.holdFn, h, Bool.false_eq_true, if_false]

theorem holdFn_held {s : State} {fn : Nat} (h : (s.fn fn).held = true) : s.holdFn fn = s := by
  simp only [State.holdFn, h, if_true]

/-- Before the host die is up no function is present (R717). -/
theorem present_of_dieDown {s : State} (fn : Nat) (h : bit s.boot.dies 3 = false) : s.present fn = false := by
  simp only [State.present, h, Bool.and_false, Bool.false_and]

theorem configRetry_of_dieDown {s : State} (fn : Nat) (h : bit s.boot.dies 3 = false) : s.configRetry fn = s.emit (.configRetry (portOf fn)) := by
  simp only [State.configRetry, h, Bool.false_eq_true, if_false]

/-- The configuration requests, each with the function to which it goes. It is not compiled: the runtime has no tags for so many commands. -/
noncomputable def configRows (fn n v rid : Nat) (enable mask : Bool) : List (Instr × Nat) :=
  [(.busMasterEnableClear fn, fn), (.busMasterEnableSet fn, fn), (.d3hotEntry fn, fn), (.d3hotExit fn, fn), (.msixUnmask fn v enable mask, fn),
    (.functionLevelResetVf fn, fn), (.firstConfigWrite n rid, 128 * n), (.vfEnable n v, 128 * n), (.vfDisable n, 128 * n),
    (.functionLevelResetPf n, 128 * n)]

/-- Before the host die is up a configuration request is answered with Request Retry Status (R717). -/
theorem exec_configRow_dieDown {fn n v rid dest : Nat} {enable mask : Bool} {i : Instr} (hi : (i, dest) ∈ configRows fn n v rid enable mask)
    {s : State} (hon : s.pwr.off = false) (hdown : bit s.boot.dies 3 = false) :
    exec i s = .next (s.emit (.configRetry (portOf dest))).finish := by
  have hrow (f : State → State) (hf : f s = s.configRetry dest) : run s f = .next (s.emit (.configRetry (portOf dest))).finish := by
    rw [run_on _ hon, hf, configRetry_of_dieDown dest hdown]
  fin_cases hi
  all_goals
    dsimp only [exec]
    refine hrow _ ?_
    simp only [present_of_dieDown _ hdown, Bool.not_false, Bool.false_eq_true, if_true, if_false]

/-- The only pending message of a function, which may go, is sent (R736). -/
theorem msixFlush_one {s : State} {fn v : Nat} (hpending : (s.fn fn).pending = [v]) (hopen : s.msixOpen fn v = true) :
    s.msixFlush fn = (s.setFn fn { s.fn fn with pending := [] }).emit
      (.msix (portOf fn) fn v ((s.fn fn).entry v).addr ((s.fn fn).entry v).data) := by
  have hrest : [v].filter (· != v) = [] := by simp
  simp only [State.msixFlush, hpending, List.foldl_cons, List.foldl_nil, hopen, if_true, hrest]

/-- Settles O48: before the host die is up no function is present, so each request meets a retry (`exec_configRow_dieDown`); after it
each takes the branch of its function's state. -/
theorem functionsAreConfigured : Obligations.FunctionsAreConfigured := by
  refine ⟨⟨?first, ?clear, ?clearHeld, ?set, ?sleep, ?sleepHeld, ?retry, ?wake, ?unmask, ?flush, ?refusedRead, ?refusedWrite⟩,
    ?vfsOn, ?vfsOff, ?resetVf, ?resetPf, ?resetManager, ?linkUp⟩
  case first =>
    intro s p rid hon hpresent hroot
    show execFirstConfigWrite p rid s = _
    simp only [execFirstConfigWrite, run_on _ hon, hpresent, hroot, Bool.not_true, Bool.false_eq_true, if_false, if_true]
  case clear =>
    intro s t fn hon hpresent hmaster hfree ht
    subst ht
    show execBusMasterEnableClear fn s = _
    simp only [execBusMasterEnableClear, run_on _ hon, hpresent, hmaster, Bool.not_true, Bool.false_eq_true, if_false, if_true]
    rw [holdFn_free]
    rwa [fn_setFn_same]
  case clearHeld =>
    intro s fn hon hpresent hmaster hheld
    show execBusMasterEnableClear fn s = _
    simp only [execBusMasterEnableClear, run_on _ hon, hpresent, hmaster, Bool.not_true, Bool.false_eq_true, if_false, if_true]
    rw [holdFn_held]
    rwa [fn_setFn_same]
  case set =>
    intro s fn hon hpresent
    show execBusMasterEnableSet fn s = _
    simp only [execBusMasterEnableSet, run_on _ hon, hpresent, if_true]
  case sleep =>
    intro s t fn hon hpresent hfree ht
    subst ht
    show execD3hotEntry fn s = _
    simp only [execD3hotEntry, run_on _ hon, hpresent, if_true]
    rw [holdFn_free]
    rwa [fn_setFn_same]
  case sleepHeld =>
    intro s fn hon hpresent hheld
    show execD3hotEntry fn s = _
    simp only [execD3hotEntry, run_on _ hon, hpresent, if_true]
    rw [holdFn_held]
    rwa [fn_setFn_same]
  case retry =>
    intro s i fn v n rid enable mask hi hon hdown
    have hrow : (i, fn) ∈ configRows fn n v rid enable mask := by
      simp only [configRows]
      rcases hi with hi | ⟨rfl, hi⟩ <;> fin_cases hi <;> simp
    exact exec_configRow_dieDown hrow hon hdown
  case wake =>
    intro s fn hon hpresent
    show execD3hotExit fn s = _
    simp only [execD3hotExit, run_on _ hon, hpresent, if_true]
  case unmask =>
    intro s t fn v hon hpresent hv ht
    subst ht
    show execMsixUnmask fn v true false s = _
    simp only [execMsixUnmask, run_on _ hon, hpresent, hv, Bool.not_true, Bool.false_eq_true, if_false, if_true]
    rfl
  case flush =>
    intro s fn v hpending hopen
    exact msixFlush_one hpending hopen
  case refusedRead =>
    intro s fn rid bar off n hon hrefused
    show execInboundRequestRefused fn rid bar off n false s = _
    simp only [execInboundRequestRefused, run_on _ hon, hrefused, Bool.false_eq_true, if_false]
  case refusedWrite =>
    intro s fn rid bar off n hon hrefused haer
    show execInboundRequestRefused fn rid bar off n true s = _
    simp [execInboundRequestRefused, run_on _ hon, hrefused, haer]
  case vfsOn =>
    intro s p n hon hpresent hnone hmax
    show execVfEnable p n s = _
    simp only [execVfEnable, run_on _ hon, hpresent, hnone, hmax, Bool.not_true, Bool.false_eq_true, and_self, if_false, if_true]
  case vfsOff =>
    intro s p hon hpresent
    show execVfDisable p s = _
    simp only [execVfDisable, run_on _ hon, hpresent, if_true]
  case resetVf =>
    intro s fn hon hpresent hvf
    show execFunctionLevelResetVf fn s = _
    simp only [execFunctionLevelResetVf, run_on _ hon, hpresent, hvf, Bool.not_true, Bool.false_eq_true, if_false]
  case resetPf =>
    intro s p hon hp hpresent
    show execFunctionLevelResetPf p s = _
    simp only [execFunctionLevelResetPf, run_on _ hon, hpresent, State.pfReset, (Nat.pos_iff_ne_zero.1 hp), if_false, if_true]
  case resetManager =>
    intro s t hon hpresent ht
    subst ht
    show execFunctionLevelResetPf 0 s = _
    simp only [execFunctionLevelResetPf, run_on _ hon, Nat.mul_zero, hpresent, State.pfReset, if_true]
  case linkUp =>
    intro s p width rate hon hlink hwidth hrate
    show execPcieLinkUp p width rate s = _
    simp [execPcieLinkUp, run_on _ hon, hlink, List.contains_eq_mem, hwidth, hrate]

end Sys2Proof.Machine
